-- ==== Sys2Proof/Word.lean ====
section
/-! DEFINITION. The word types of the module and the plain index types of its resources. -/
namespace Sys2Proof

/-- One byte, as R7 lays multi-byte fields out of. -/
abbrev Byte := BitVec 8
/-- A 32-bit register or field. -/
abbrev Word := BitVec 32
/-- A 64-bit register or field. -/
abbrev DWord := BitVec 64
/-- Tile site index n = 8 · row + col (R21). -/
abbrev SiteId := Fin 64
/-- Engine index e (R376). -/
abbrev EngineId := Fin 24
/-- Ring number (R288). -/
abbrev RingNo := Fin 256
/-- CXL root port p (R266). -/
abbrev PortId := Fin 4
/-- Physical cell index C0–C32 (R47). -/
abbrev CellId := Fin 33
/-- Hub control core (R485). -/
abbrev CoreId := Fin 8
/-- ELS bus, 0-based: index i stands for fibre port F(i+1) (R40). -/
abbrev ElsId := Fin 6
/-- Stream check unit (R544). -/
abbrev ScuId := Fin 16
/-- Ring of an engine, r = 36 · side + 18 · fibre + n (R410). -/
abbrev OeRing := Fin 72

end Sys2Proof
end

