-- ==== Sys2Proof/Syntax.lean ====
section
/-! DEFINITION. The commands of the block: one constructor of `Instr` per row of spec/opcode_table.json, with the row's operands. -/
namespace Sys2Proof

/-- The receiving end of a bundle, in the names of R373: a tile's bundle index i, the hub's b, an engine's k. -/
inductive BundleEnd where
  | tile (n : SiteId) (i : Fin 16)
  | hub (b : Fin 16)
  | engine (e : EngineId) (k : Fin 3)
  deriving DecidableEq, Repr

/-- One receive direction of a Seurn link: a panel bundle or an optical link (Chapter 15). -/
inductive LinkRef where
  | bundle (b : BundleEnd)
  | optical (e : EngineId)
  deriving DecidableEq, Repr

/-- Ring-oscillator sensors of Table 16-1. -/
inductive SensorRef where
  | tile (n : SiteId) (s : Fin 8)
  | hub (s : Fin 8)
  | engine (e : EngineId) (s : Fin 4)
  deriving DecidableEq, Repr

/-- A die that samples sensors or is measured for ageing (R457, R473). -/
inductive DieRef where
  | tile (n : SiteId)
  | hub
  | engine (e : EngineId)
  deriving DecidableEq, Repr

/-- Resources with a fault state and a recovery counter (Table 17-7). -/
inductive Resource where
  | cell (n : SiteId) (k : CellId)
  | tile (n : SiteId)
  | bundle (b : BundleEnd)
  | ring (e : EngineId) (r : OeRing)
  | laser (e : EngineId) (f : Fin 2)
  | sensor (s : SensorRef)
  | core (c : CoreId)
  deriving DecidableEq, Repr

/-- The loads that a plan reads, as its counters gave them over the period (Table 7-3): per row's hub bundles, per bundle and direction, per site's
GDDR7, per root port and per engine, in each direction. -/
structure PlanLoads where
  rows : List Nat
  bundles : List Nat
  sites : List Nat
  ports : List Nat
  engines : List Nat
  deriving DecidableEq, Repr

/-- What participants of a collective recognise one another's traffic by (R140). -/
structure CollTag where
  crc : Nat
  id : Nat
  inst : Nat
  deriving DecidableEq, Repr

/-- What the residue lane of R114 and R116 reports of a block operation: no mismatch, one whose repeat matched,
a mismatch on the repeat as well, or a failed piece check at deposit (R115). -/
inductive Residue where
  | clean | retried | mismatch | pieceCheck
  deriving DecidableEq, Repr

/-- What the inline ECC finds in one granule (R254, R257). -/
inductive EccOutcome where
  | clean | corrected | uncorrectable
  deriving DecidableEq, Repr

/-- The bytes in error of one granule as it leaves its device (R254): positions 0–63 are its data, 64–67 its check word, each with the
bits that are wrong. -/
abbrev ByteErrors := List (Fin 68 × Byte)

/-- The unit that issues an access (R67, R260): a tile, or the hub. -/
inductive Issuer where
  | tile (n : SiteId)
  | hub
  deriving DecidableEq, Repr

/-- How a host memory read ends (R281). -/
inductive ReadOutcome where
  | unsupportedRequest | completerAbort | poisoned
  deriving DecidableEq, Repr

/-- The request of the hub to host memory that a completion or timeout answers (R281). -/
inductive HostReq where
  | command (cid : Nat)
  | fetch (ring : RingNo)
  deriving DecidableEq, Repr

/-- Names one warp of a launch (R149). -/
structure WarpRef where
  launch : Nat
  cluster : Nat
  group : Nat
  warp : Nat
  deriving DecidableEq, Repr

/-- Relations of the compare operations. -/
inductive Rel where
  | eq | ne | lt | le | gt | ge
  deriving DecidableEq, Repr

/-- INT class operations (Table 6-5). The manual names them and gives no codes (log 8). -/
inductive IntOp where
  | add | sub | mul | mulHighU | mulHighS | shl | shr | sar | and | or | xor | not
  | minU | minS | maxU | maxS | cmpU (r : Rel) | cmpS (r : Rel) | select | popcount
  deriving DecidableEq, Repr

/-- FP class operations (Table 6-5). -/
inductive FpOp where
  | add | sub | mul | fma | div | sqrt | min | max | abs | neg | cmp (r : Rel)
  | rsqrt | exp | log | tanh | sigmoid | gelu | silu
  deriving DecidableEq, Repr

/-- Operand types of the scalar CVT instructions (Table 6-5). -/
inductive CvtType where
  | fp32 | bf16 | fp16 | u32 | i32
  deriving DecidableEq, Repr

/-- Atomic operations (R160). -/
inductive AtomOp where
  | add | minU | minS | maxU | maxS | and | or | xor | exchange | compareSwap
  deriving DecidableEq, Repr

/-- The operation of a kernel instruction (Table 6-5). `memCopy` carries the direction and the copy counter, `sreg` the code of Table 6-2. -/
inductive KOp where
  | nop | bra | join | exit | int (o : IntOp) | fp (o : FpOp) | cvt (src dst : CvtType) | cvtBlk | ld | st
  | memCopy (toStore : Bool) (counter : Fin 8) | atom (o : AtomOp) | mma | accZero | accStore | accExport | accMerge | accDeposit
  | bar | fence | waitCopy | sreg (code : Nat)
  deriving DecidableEq, Repr

/-- One checker event on VC6 (R491): source ID, log data, whether injected, the resource its fault state names
(Table 17-7), and the commands that consume what an S2 checker marked (R489). -/
structure FaultEvent where
  source : Nat
  data : DWord := 0
  injected : Bool := false
  resource : Option Resource := none
  touched : List Nat := []
  deriving DecidableEq, Repr

/-- What SELFTEST FULL finds (R506): its failing checks, earliest first, each with its event and whether a checker reported it; of an inversion that
was not reported, and of a watchdog that did not fire, the event is the one that was tested for. -/
structure SelftestFindings where
  failures : List (FaultEvent × Bool)
  deriving DecidableEq, Repr

/-- A media event of an expander's event log (R269): its code and the uncorrectable region it reports, if any. -/
structure MediaEvent where
  data : DWord
  region : Option (Nat × Nat)
  deriving DecidableEq, Repr

/-- A daily optical point of one wavelength (R477): powers in 0.01 dBm, heater code at lock corrected to 85 °C, eye in 1/64. -/
structure OpticalPointData where
  rxPower : Int
  laserPower : Int
  heater : Int
  eyeWidth : Nat
  eyeHeight : Nat
  deriving DecidableEq, Repr

/-- The HELLO control word (Table 14-2). -/
structure HelloWord where
  generation : Nat
  maxRate : Nat
  adaptive : Bool
  moduleId : Nat
  plane : Nat
  deriving DecidableEq, Repr

/-- A configuration-space write that the manual gives an effect (R276, R279, R280, R307); the AER writes enable the reports of a kind of error, or
clear its status bit. -/
inductive ConfigChange where
  | busMaster (enable : Bool)
  | powerState (d3hot : Bool)
  | bar4Size (log2 : Nat)
  | functionMask (on : Bool)
  | vectorMask (vector : Nat) (on : Bool)
  | msixEnable (on : Bool)
  | aerReport (correctable nonFatal fatal : Bool)
  | aerClear (correctable nonFatal fatal : Bool)
  deriving DecidableEq, Repr

/-- The commands of the block. `cid` names a fetched command in the hub's command table. -/
inductive Instr where
  /-- COLD_RESET (R533). -/
  | coldReset (katOk idA idB : Bool)
  /-- POWER_DOWN (R562). -/
  | powerDown
  /-- WARM_RESET (R531). -/
  | warmReset
  /-- PERST_DEASSERT (R563). -/
  | perstDeassert
  /-- FUNCTION_LEVEL_RESET (R276). -/
  | functionLevelReset
  /-- ROW_RELEASE (R46). -/
  | rowRelease (row : Fin 8) (ageing : List Nat)
  /-- TILE_POSITION_REPORT (R359). -/
  | tilePositionReport (site : SiteId) (straps : BitVec 10)
  /-- LANE_TEST (R361). -/
  | laneTest (at_ : BundleEnd) (failedHere failedThere : List Nat) (fckOk flitsOk : Bool) (blockHere blockThere : List Byte)
  /-- CELL_SETUP (R58). -/
  | cellSetup (site : SiteId)
  /-- CELL_SETUP_DONE (R58). -/
  | cellSetupDone (site : SiteId) (failed : List CellId)
  /-- GDDR7_TRAINING_DONE (R263). -/
  | gddr7TrainingDone (site : SiteId) (failA failB : Bool) (idA idB tempA tempB : Nat)
  /-- MODULE_READY (R535). -/
  | moduleReady (ms : Nat)
  /-- REFCLK_LOST (R33). -/
  | refclkLost
  /-- REFCLK_RESTORED (R490). -/
  | refclkRestored (katOk idA idB : Bool)
  /-- HUB_PLL_UNLOCK (R33). -/
  | hubPllUnlock
  /-- TILE_PLL_UNLOCK (R33). -/
  | tilePllUnlock (site : SiteId)
  /-- FORWARDED_CLOCK_STOP (R33). -/
  | forwardedClockStop (at_ : BundleEnd)
  /-- ENGINE_PLL_UNLOCK (R33). -/
  | enginePllUnlock (e : EngineId)
  /-- TILE_RETIRE (R25). -/
  | tileRetire (site : SiteId) (routerOk : Bool)
  /-- SITE_ISOLATE (R579). -/
  | siteIsolate (site : SiteId)
  /-- SLOT_END (R54). -/
  | slotEnd (site : SiteId) (copyError : Bool)
  /-- KAT_RESULT (R53). -/
  | katResult (site : SiteId) (pass : Bool)
  /-- TILE_CONTROLLER_WATCHDOG (R486). -/
  | tileControllerWatchdog (site : SiteId)
  /-- CORE_WATCHDOG (R485). -/
  | coreWatchdog (core : CoreId)
  /-- CELLARER_PLAN (R193). -/
  | cellarerPlan (loads : PlanLoads)
  /-- DRAIN_ABANDON (R203). -/
  | drainAbandon (site : SiteId)
  /-- DRAIN_END (R203). -/
  | drainEnd (site : SiteId)
  /-- WORK_UNIT_ASSIGN (R199). -/
  | workUnitAssign (unit : Nat) (rowLoads : List Nat)
  /-- WORK_UNIT_COMPLETE (R144). -/
  | workUnitComplete (unit : Nat)
  /-- BLOCK_MOVE_SWITCH (R213). -/
  | blockMoveSwitch (move : Nat) (verified : Bool)
  /-- BLOCK_MOVE_SOURCE_FREE (R213). -/
  | blockMoveSourceFree (move : Nat)
  /-- STRIPE_RELOAD_DONE (R207). -/
  | stripeReloadDone (model : Fin 64) (ok : Bool)
  /-- SHARD_PREFETCH (R218). -/
  | shardPrefetch (model : Fin 64) (layerShard : Nat)
  /-- NOP (R308). -/
  | nop (cid : Nat)
  /-- IDENTIFY (R3). -/
  | identify (cid : Nat)
  /-- GET_STATUS (R493). -/
  | getStatus (cid : Nat)
  /-- SET_FEATURE_BAR4_APERTURE (R279). -/
  | setFeatureBar4Aperture (cid : Nat)
  /-- SET_FEATURE_CXL_PORT_OFFLINE (R315). -/
  | setFeatureCxlPortOffline (cid : Nat)
  /-- SET_FEATURE_POWER_CAP (R314). -/
  | setFeaturePowerCap (cid : Nat)
  /-- SET_FEATURE_THROTTLE_START (R314). -/
  | setFeatureThrottleStart (cid : Nat)
  /-- GET_FEATURE (R314). -/
  | getFeature (cid : Nat)
  /-- MODEL_LOAD (R217). -/
  | modelLoad (cid : Nat) (manifest weights : List Byte)
  /-- MODEL_LOAD_STAGE (R241). -/
  | modelLoadStage (cid : Nat) (manifest weights : List Byte)
  /-- MODEL_UNLOAD (R240). -/
  | modelUnload (cid : Nat)
  /-- MODEL_EPOCH_COMMIT (R242). -/
  | modelEpochCommit (cid : Nat)
  /-- MODEL_QUERY (R239). -/
  | modelQuery (cid : Nat)
  /-- SESSION_OPEN (R318). -/
  | sessionOpen (cid : Nat)
  /-- SESSION_CLOSE (R231). -/
  | sessionClose (cid : Nat)
  /-- PREFILL (R230). -/
  | prefill (cid : Nat) (binds : List Byte)
  /-- PREFILL_REBUILD (R235). -/
  | prefillRebuild (cid : Nat) (binds : List Byte)
  /-- DECODE (R230). -/
  | decode (cid : Nat) (binds : List Byte)
  /-- SESSION_SNAPSHOT (R246). -/
  | sessionSnapshot (cid : Nat)
  /-- SESSION_RESTORE (R247). -/
  | sessionRestore (cid : Nat) (image : List Byte)
  /-- SESSION_RESTORE_REMOTE (R249). -/
  | sessionRestoreRemote (cid : Nat)
  /-- SESSION_MIGRATE (R249). -/
  | sessionMigrate (cid : Nat)
  /-- MIGRATION_JOIN_TIMEOUT (R249). -/
  | migrationJoinTimeout (cid : Nat)
  /-- MIGRATION_IMAGE_RECEIVED (R249). -/
  | migrationImageReceived (cid : Nat) (image : List Byte)
  /-- MIGRATION_READY (R249). -/
  | migrationReady (cid : Nat)
  /-- MIGRATION_REFUSAL (R250). -/
  | migrationRefusal (cid : Nat) (status : Byte)
  /-- MIGRATION_COMMIT (R249). -/
  | migrationCommit (cid : Nat)
  /-- MIGRATION_DONE (R249). -/
  | migrationDone (cid : Nat)
  /-- MIGRATION_DONE_TIMEOUT (R250). -/
  | migrationDoneTimeout (cid : Nat)
  /-- MIGRATION_COMMIT_RESEND (R250). -/
  | migrationCommitResend (session : Nat)
  /-- MIGRATION_TARGET_TIMEOUT (R250). -/
  | migrationTargetTimeout (cid : Nat)
  /-- GRAPH_LOAD (R120). -/
  | graphLoad (cid : Nat) (image : List Byte)
  /-- GRAPH_RUN (R142). -/
  | graphRun (cid : Nat) (binds participants : List Byte)
  /-- COLLECTIVE_JOIN_TIMEOUT (R140). -/
  | collectiveJoinTimeout (cid : Nat)
  /-- MATMUL (R130). -/
  | matmul (run op : Nat) (residue : Residue)
  /-- BATCH_MATMUL (R130). -/
  | batchMatmul (run op : Nat) (residue : Residue)
  /-- ATTENTION (R132). -/
  | attention (run op : Nat) (residue : Residue)
  /-- ADD (R129). -/
  | add (run op : Nat)
  /-- SUB (R129). -/
  | sub (run op : Nat)
  /-- MUL (R129). -/
  | mul (run op : Nat)
  /-- DIV (R129). -/
  | div (run op : Nat)
  /-- FMA (R129). -/
  | fma (run op : Nat)
  /-- MAX (R129). -/
  | max (run op : Nat)
  /-- MIN (R129). -/
  | min (run op : Nat)
  /-- ABS (R129). -/
  | abs (run op : Nat)
  /-- NEG (R129). -/
  | neg (run op : Nat)
  /-- EXP (R129). -/
  | exp (run op : Nat)
  /-- LOG (R129). -/
  | log (run op : Nat)
  /-- SQRT (R129). -/
  | sqrt (run op : Nat)
  /-- RSQRT (R129). -/
  | rsqrt (run op : Nat)
  /-- TANH (R129). -/
  | tanh (run op : Nat)
  /-- SIGMOID (R129). -/
  | sigmoid (run op : Nat)
  /-- GELU (R129). -/
  | gelu (run op : Nat)
  /-- SILU (R129). -/
  | silu (run op : Nat)
  /-- CLAMP (R129). -/
  | clamp (run op : Nat)
  /-- REDUCE_SUM (R131). -/
  | reduceSum (run op : Nat)
  /-- REDUCE_MAX (R131). -/
  | reduceMax (run op : Nat)
  /-- REDUCE_MIN (R131). -/
  | reduceMin (run op : Nat)
  /-- SOFTMAX (R131). -/
  | softmax (run op : Nat)
  /-- LAYERNORM (R131). -/
  | layernorm (run op : Nat)
  /-- RMSNORM (R131). -/
  | rmsnorm (run op : Nat)
  /-- CONVERT (R82). -/
  | convert (run op : Nat)
  /-- TRANSPOSE (R128). -/
  | transpose (run op : Nat)
  /-- RESHAPE (R128). -/
  | reshape (run op : Nat)
  /-- SLICE (R128). -/
  | slice (run op : Nat)
  /-- CONCAT (R128). -/
  | concat (run op : Nat)
  /-- GATHER (R128). -/
  | gather (run op : Nat)
  /-- HASH_PARTITION (R134). -/
  | hashPartition (run op : Nat)
  /-- SORT (R135). -/
  | sort (run op : Nat)
  /-- JOIN_PROBE (R136). -/
  | joinProbe (run op : Nat)
  /-- STRING_SIMILARITY (R137). -/
  | stringSimilarity (run op : Nat)
  /-- FILTER (R138). -/
  | filter (run op : Nat)
  /-- TABLE_GATHER (R128). -/
  | tableGather (run op : Nat)
  /-- ALL_REDUCE (R133). -/
  | allReduce (run op : Nat) (parts : List (CollTag × List Byte))
  /-- REDUCE_SCATTER (R133). -/
  | reduceScatter (run op : Nat) (parts : List (CollTag × List Byte))
  /-- ALL_GATHER (R141). -/
  | allGather (run op : Nat) (parts : List (CollTag × List Byte))
  /-- BROADCAST (R141). -/
  | broadcast (run op : Nat) (root : CollTag × List Byte)
  /-- FINALISE (R133). -/
  | finalise (run op : Nat)
  /-- RECORD_MERGE (R108). -/
  | recordMerge (run op elem : Nat) (record : List Byte)
  /-- KERNEL_LOAD (R163). -/
  | kernelLoad (cid : Nat) (image : List Byte)
  /-- KERNEL_LAUNCH (R179). -/
  | kernelLaunch (cid : Nat) (slots params : List Byte)
  /-- KERNEL_TIME_LIMIT (R186). -/
  | kernelTimeLimit (cid : Nat)
  /-- KERNEL_NOP (R162). -/
  | kernelNop (w : WarpRef)
  /-- BRA (R171). -/
  | bra (w : WarpRef)
  /-- JOIN (R171). -/
  | join (w : WarpRef)
  /-- EXIT (R172). -/
  | exit (w : WarpRef)
  /-- INT_OP (R162). -/
  | intOp (w : WarpRef) (op : IntOp)
  /-- FP_OP (R162). -/
  | fpOp (w : WarpRef) (op : FpOp)
  /-- CVT (R162). -/
  | cvt (w : WarpRef) (src dst : CvtType)
  /-- CVT_BLK (R170). -/
  | cvtBlk (w : WarpRef)
  /-- LD (R158). -/
  | ld (w : WarpRef)
  /-- ST (R158). -/
  | st (w : WarpRef)
  /-- MEM_COPY (R161). -/
  | memCopy (w : WarpRef)
  /-- MEM_COPY_DONE (R161). -/
  | memCopyDone (w : WarpRef) (copy : Nat)
  /-- WAIT_COPY (R161). -/
  | waitCopy (w : WarpRef)
  /-- ATOM (R160). -/
  | atom (w : WarpRef) (op : AtomOp)
  /-- MMA (R164). -/
  | mma (w : WarpRef) (residue : Residue)
  /-- ACC_ZERO (R168). -/
  | accZero (w : WarpRef)
  /-- ACC_STORE (R168). -/
  | accStore (w : WarpRef)
  /-- ACC_EXPORT (R168). -/
  | accExport (w : WarpRef)
  /-- ACC_MERGE (R168). -/
  | accMerge (w : WarpRef)
  /-- ACC_DEPOSIT (R169). -/
  | accDeposit (w : WarpRef)
  /-- BAR (R173). -/
  | bar (w : WarpRef)
  /-- FENCE (R174). -/
  | fence (w : WarpRef)
  /-- SREG (R152). -/
  | sreg (w : WarpRef)
  /-- DMA_COPY (R330). -/
  | dmaCopy (cid : Nat) (source : List Byte)
  /-- MEM_ALLOC (R331). -/
  | memAlloc (cid : Nat)
  /-- MEM_FREE (R332). -/
  | memFree (cid : Nat)
  /-- ROLE_PLAN (R333). -/
  | rolePlan (cid : Nat)
  /-- PLACEMENT_QUERY (R221). -/
  | placementQuery (cid : Nat)
  /-- SELFTEST_SUMMARY (R507). -/
  | selftestSummary (cid : Nat)
  /-- SELFTEST_FULL (R506). -/
  | selftestFull (cid : Nat) (ms : Nat) (found : SelftestFindings)
  /-- MARGIN_TEST (R337). -/
  | marginTest (cid : Nat) (eyes : List (Nat × Nat))
  /-- FAULT_INJECT (R339). -/
  | faultInject (cid : Nat)
  /-- LOG_READ (R340). -/
  | logRead (cid : Nat)
  /-- SETTINGS_READ (R341). -/
  | settingsRead (cid : Nat)
  /-- SETTINGS_WRITE (R342). -/
  | settingsWrite (cid : Nat) (image : List Byte)
  /-- ATTEST (R542). -/
  | attest (cid : Nat)
  /-- RESTART (R345). -/
  | restart (cid : Nat)
  /-- RESTART_FORCE (R350). -/
  | restartForce (cid : Nat)
  /-- SHUTDOWN (R346). -/
  | shutdown (cid : Nat)
  /-- SHUTDOWN_FORCE (R350). -/
  | shutdownForce (cid : Nat)
  /-- RING_ENABLE (R290). -/
  | ringEnable (ring : RingNo) (value : Word)
  /-- RING_DISABLE (R292). -/
  | ringDisable (ring : RingNo) (value : Word)
  /-- SUBMISSION_TAIL_DOORBELL (R297). -/
  | submissionTailDoorbell (ring : RingNo) (value : Word)
  /-- COMPLETION_HEAD_DOORBELL (R297). -/
  | completionHeadDoorbell (ring : RingNo) (value : Word)
  /-- DESCRIPTOR_FETCH (R299). -/
  | descriptorFetch (ring : RingNo) (desc : List Byte)
  /-- FENCE_RELEASE (R308). -/
  | fenceRelease (cid : Nat)
  /-- COMMAND_COMPLETE (R305). -/
  | commandComplete (cid : Nat)
  /-- IRQ_COALESCE_TIMEOUT (R306). -/
  | irqCoalesceTimeout (ring : RingNo)
  /-- MSIX_UNMASK (R307). -/
  | msixUnmask (vector : Option (Fin 2048))
  /-- BAR4_READ (R279). -/
  | bar4Read (offset size : Nat)
  /-- BAR4_WRITE (R279). -/
  | bar4Write (offset : Nat) (data : List Byte)
  /-- BAR_ACCESS_INVALID (R278). -/
  | barAccessInvalid (bar offset size : Nat) (write : Bool)
  /-- REGISTER_WRITE (R13). -/
  | registerWrite (offset size : Nat) (value : DWord)
  /-- FLT_CLEAR_REARM (R493). -/
  | fltClearRearm
  /-- FLT_CLEAR_ALL (R496). -/
  | fltClearAll
  /-- FLT_CLEAR_ONE (R496). -/
  | fltClearOne (source : BitVec 16)
  /-- HOST_MASTER_RESUME (R280). -/
  | hostMasterResume
  /-- HOST_LINK_DOWN (R282). -/
  | hostLinkDown
  /-- HOST_LINK_RETRAIN (R282). -/
  | hostLinkRetrain (width rate : Nat)
  /-- HOST_READ_COMPLETION (R281). -/
  | hostReadCompletion (req : HostReq) (outcome : ReadOutcome)
  /-- HOST_COMPLETION_TIMEOUT (R281). -/
  | hostCompletionTimeout (req : HostReq)
  /-- GDDR7_READ (R257). -/
  | gddr7Read (site : SiteId) (offset : Nat) (by_ : Issuer) (cid : Option Nat) (errors : ByteErrors) (edcFails : Nat)
  /-- GDDR7_WRITE (R256). -/
  | gddr7Write (site : SiteId) (offset : Nat) (data : List Byte) (by_ : Issuer) (cid : Option Nat) (errors : List ByteErrors) (edcFails : Nat)
  /-- SCRUB_GROUP (R258). -/
  | scrubGroup (site : SiteId) (device : Fin 2) (found : List ByteErrors)
  /-- GDDR7_REFRESH (R252). -/
  | gddr7Refresh (site : SiteId) (device : Fin 2) (bank : Nat)
  /-- GDDR7_TEMP_READ (R252). -/
  | gddr7TempRead (site : SiteId) (tempA tempB : Nat)
  /-- RECENTRE (R264). -/
  | recentre (site : SiteId) (device : Fin 2) (channel : Fin 4)
  /-- CHANNEL_RETRAIN_DONE (R265). -/
  | channelRetrainDone (site : SiteId) (device : Fin 2) (channel : Fin 4) (ok : Bool)
  /-- CXL_PRESENCE_DETECT (R270). -/
  | cxlPresenceDetect (p : PortId)
  /-- CXL_LINK_UP (R267). -/
  | cxlLinkUp (p : PortId) (rate width : Nat) (capacity : Nat)
  /-- CXL_DISCOVERY_DONE (R267). -/
  | cxlDiscoveryDone (p : PortId)
  /-- CXL_LINK_DOWN (R268). -/
  | cxlLinkDown (p : PortId)
  /-- CXL_ACCESS_TIMEOUT (R268). -/
  | cxlAccessTimeout (p : PortId) (cid : Nat)
  /-- CXL_LINK_DOWN_TIMEOUT (R268). -/
  | cxlLinkDownTimeout (p : PortId)
  /-- CXL_EVENT_LOG_POLL (R269). -/
  | cxlEventLogPoll (p : PortId) (events : List MediaEvent)
  /-- CXL_ATTENTION_BUTTON (R271). -/
  | cxlAttentionButton (p : PortId)
  /-- CXL_ATTENTION_LED_TIMEOUT (R271). -/
  | cxlAttentionLedTimeout (p : PortId)
  /-- CXL_EVACUATION_DONE (R271). -/
  | cxlEvacuationDone (p : PortId)
  /-- CXL_SURPRISE_REMOVAL (R272). -/
  | cxlSurpriseRemoval (p : PortId)
  /-- DATA_FLIT_RECEIVE (R439). -/
  | dataFlitReceive (link : LinkRef) (slot : Nat) (flit : List Byte)
  /-- LINK_FLIT_RECEIVE (R436). -/
  | linkFlitReceive (link : LinkRef) (slot : Nat) (flit : List Byte)
  /-- FILLER_FLIT_RECEIVE (R433). -/
  | fillerFlitReceive (link : LinkRef) (slot : Nat) (flit : List Byte)
  /-- LINK_FLIT_TIMER (R436). -/
  | linkFlitTimer (link : LinkRef)
  /-- REPLAY_TIMER_EXPIRY (R440). -/
  | replayTimerExpiry (link : LinkRef) (age : Nat)
  /-- NAK_RESEND (R439). -/
  | nakResend (link : LinkRef)
  /-- INLINE_CHECK_DONE (R367). -/
  | inlineCheckDone (at_ : BundleEnd) (failed : List Nat)
  /-- PHASE_TRACK (R368). -/
  | phaseTrack (at_ : BundleEnd) (moves : List (Nat × Bool))
  /-- FRAME_TRANSMIT (R411). -/
  | frameTransmit (e : EngineId)
  /-- FRAME_RECEIVE (R412). -/
  | frameReceive (e : EngineId) (fibre : Fin 2) (lambda : Fin 18) (bits : List Bool)
  /-- PAUSE (R391). -/
  | pause (e : EngineId) (slot : Fin 32) (dir : Bool)
  /-- RESUME (R392). -/
  | resume (e : EngineId) (slot : Fin 32) (dir : Bool)
  /-- MAP (R394). -/
  | map (e : EngineId) (slot : Fin 32) (dir : Bool) (fibre : Fin 2) (lambda : Fin 18) (effective : Nat)
  /-- RATE_WIDTH (R446). -/
  | rateWidth (e : EngineId) (rate : Fin 4) (width : Fin 4) (dir : Bool) (effective : Nat)
  /-- EFFECTIVE_FRAME (R417). -/
  | effectiveFrame (e : EngineId) (dir : Bool)
  /-- LIVE_CHANGE_TIMEOUT (R446). -/
  | liveChangeTimeout (e : EngineId) (dir : Bool)
  /-- FFE_REQ (R421). -/
  | ffeReq (e : EngineId) (ring : Fin 36) (post : Bool) (action : Nat)
  /-- FFE_ACK (R421). -/
  | ffeAck (e : EngineId) (ring : Fin 36) (pre post : Nat) (limit : Bool)
  /-- HELLO (R429). -/
  | hello (e : EngineId) (word : HelloWord)
  /-- TRAIN (R425). -/
  | train (e : EngineId) (step : Nat) (status : Nat) (rate : Fin 4) (passing : List (List (Fin 36)))
  /-- BRINGUP_TIMEOUT (R427). -/
  | bringupTimeout (e : EngineId)
  /-- BRINGUP_RETRY (R427). -/
  | bringupRetry (e : EngineId)
  /-- PORT_ABSENT_LISTEN (R428). -/
  | portAbsentListen (e : EngineId) (heard : Option HelloWord)
  /-- IDLE_FREEZE (R423). -/
  | idleFreeze (e : EngineId)
  /-- TRAINING_BLOCK (R424). -/
  | trainingBlock (e : EngineId) (ring : Fin 36)
  /-- LINK_ERROR_BUCKET (R442). -/
  | linkErrorBucket (e : EngineId) (positions : Nat)
  /-- ROUTE_RESTORE (R445). -/
  | routeRestore (e : EngineId)
  /-- TRANSACTION_REQUEST (R450). -/
  | transactionRequest (e : EngineId) (message : List Byte)
  /-- TRANSACTION_RESPONSE (R449). -/
  | transactionResponse (message : List Byte)
  /-- REQUEST_TIMEOUT (R449). -/
  | requestTimeout (slot : Nat)
  /-- REQUEST_RETRY (R449). -/
  | requestRetry (slot : Nat)
  /-- CACHE_ENTRY_EXPIRY (R450). -/
  | cacheEntryExpiry (unit source slot : Nat)
  /-- LEASE_KEEPALIVE_SEND (R454). -/
  | leaseKeepaliveSend
  /-- LEASE_KEEPALIVE (R454). -/
  | leaseKeepalive (source : Nat) (operand : DWord)
  /-- LEASE_EXPIRY (R454). -/
  | leaseExpiry (source : Nat)
  /-- ELS_PRESENCE (R383). -/
  | elsPresence (port : ElsId) (gridOk toneOk : Bool)
  /-- ELS_MONITOR_POLL (R383). -/
  | elsMonitorPoll (port : ElsId) (failed : List (Fin 8 × Fin 18))
  /-- ELS_INTERRUPT (R383). -/
  | elsInterrupt (port : ElsId) (failed : List (Fin 8 × Fin 18))
  /-- ELS_TIMEOUT (R384). -/
  | elsTimeout (port : ElsId)
  /-- RING_IDENTITY_CHECK (R387). -/
  | ringIdentityCheck (e : EngineId) (r : OeRing) (dominant : Option (Fin 18))
  /-- RING_LOCK_LOST (R390). -/
  | ringLockLost (e : EngineId) (r : OeRing)
  /-- SLOT_ERROR_BURST (R390). -/
  | slotErrorBurst (e : EngineId) (slot : Fin 32)
  /-- RING_LOCKED (R392). -/
  | ringLocked (e : EngineId) (r : OeRing) (heater : Nat) (dominant : Option (Fin 18)) (tonePresent : Bool)
  /-- RELOCK_TIMEOUT (R392). -/
  | relockTimeout (e : EngineId) (r : OeRing) (tonePresent : Bool)
  /-- RING_RETRY (R395). -/
  | ringRetry (e : EngineId) (r : OeRing) (ok tonePresent : Bool) (heater : Nat)
  /-- FEED_FORWARD_UPDATE (R398). -/
  | feedForwardUpdate (e : EngineId)
  /-- RING_SWEEP (R400). -/
  | ringSweep (e : EngineId) (orders : List (List Nat))
  /-- LASER_EXCURSION (R403). -/
  | laserExcursion (e : EngineId) (f : Fin 2) (power : Int)
  /-- LASER_LOW (R403). -/
  | laserLow (e : EngineId) (f : Fin 2) (power : Int) (lost : List (Fin 18))
  /-- LASER_RESTORE (R403). -/
  | laserRestore (e : EngineId) (f : Fin 2)
  /-- OPEN_FIBRE (R404). -/
  | openFibre (e : EngineId) (f : Fin 2)
  /-- SPARE_MARGIN_TEST (R408). -/
  | spareMarginTest (e : EngineId) (r : OeRing) (height width : Nat)
  /-- SENSOR_SAMPLE (R457). -/
  | sensorSample (die : DieRef) (readings : List Int)
  /-- THERMAL_CEILING_UPDATE (R463). -/
  | thermalCeilingUpdate (site : SiteId)
  /-- ISSUE_RATE_STEP (R464). -/
  | issueRateStep (site : SiteId)
  /-- POWER_TELEMETRY_SAMPLE (R466). -/
  | powerTelemetrySample (watts : Nat) (ok : Bool)
  /-- POWER_LOOP (R466). -/
  | powerLoop (meanWatts : Nat)
  /-- OVERCURRENT_TRIP (R468). -/
  | overcurrentTrip
  /-- THERMAL_TRIP (R469). -/
  | thermalTrip (sensor : SensorRef) (reading : Nat)
  /-- BACKSTOP_TRIP (R470). -/
  | backstopTrip (sensor : SensorRef) (reading : Nat)
  /-- TRIP_SENSOR_POLL (R469). -/
  | tripSensorPoll (hottest : Int)
  /-- TRIP_RESTART (R469). -/
  | tripRestart (katOk idA idB : Bool)
  /-- THERMAL_SHUTDOWN (R470). -/
  | thermalShutdown (sensor : SensorRef) (reading : Nat)
  /-- INPUT_RANGE_TRIP (R564). -/
  | inputRangeTrip
  /-- INPUT_RANGE_RESTART (R564). -/
  | inputRangeRestart (katOk idA idB : Bool)
  /-- FLASH_WRITES_REFUSED (R472). -/
  | flashWritesRefused
  /-- FLASH_WRITES_ALLOWED (R524). -/
  | flashWritesAllowed
  /-- AGEING_POINT (R474). -/
  | ageingPoint (die : DieRef) (slowdown : List Nat)
  /-- OPTICAL_POINT (R477). -/
  | opticalPoint (e : EngineId) (r : OeRing) (point : OpticalPointData)
  /-- FAULT_CAPTURE (R491). -/
  | faultCapture (events : List FaultEvent)
  /-- FAULT_STATE_REST_EXPIRY (R499). -/
  | faultStateRestExpiry (res : Resource)
  /-- LOG_RECORD_TIMEOUT (R519). -/
  | logRecordTimeout
  /-- FLASH_OP_DONE (R514). -/
  | flashOpDone (flash : Fin 2) (ok : Bool)
  /-- SCU_ENABLE (R551). -/
  | scuEnable (u : ScuId) (value : Word)
  /-- SCU_DISABLE (R547). -/
  | scuDisable (u : ScuId)
  /-- SCU_RECORD_CLOSE (R549). -/
  | scuRecordClose (u : ScuId) (bytes : List Byte) (ok overrun : Bool)
  /-- SCU_RESULT_READ (R549). -/
  | scuResultRead (u : ScuId)
  /-- SMBUS_BLOCK_READ (R576). -/
  | smbusBlockRead (code : Byte)
  /-- I3C_PRIVATE_READ (R576). -/
  | i3cPrivateRead (code : Byte)
  /-- SMBUS_ALERT_RESPONSE (R578). -/
  | smbusAlertResponse
  /-- SIDEBAND_REFRESH (R577). -/
  | sidebandRefresh
  /-- STANDBY_SUPPLY_LOSS (R520). -/
  | standbySupplyLoss
  /-- STANDBY_SUPPLY_RETURN (R577). -/
  | standbySupplyReturn
  /-- CONFIGURATION_WRITE (R280). -/
  | configurationWrite (change : ConfigChange)
  /-- WIRE_FILLER_ERROR (R367). -/
  | wireFillerError (at_ : BundleEnd) (wire : Nat)
  /-- CXL_MEM_READ_RESPONSE (R269). -/
  | cxlMemReadResponse (p : PortId) (cid : Nat) (poisoned : Bool)
  deriving DecidableEq, Repr

end Sys2Proof
end

