-- ==== Sys2Proof/Config.lean ====
section
/-! DEFINITION. What an implementation fixes and what the manual leaves open: opaque constants that no proof can see into. -/
namespace Sys2Proof.Config

/-- FREE VALUE. The n-th undefined value of a run (log 4): applied to the counter `State.free`. -/
opaque freeWord : Nat → BitVec 64

/-- FREE VALUE. Undefined bytes, such as the buffers of R350 (log 4). -/
opaque freeByte : Nat → Byte

/-- R129: the fixed algorithm of EXP in the vector unit (at most 2 ULP from the exact value); not given (log 5). -/
opaque expFn : Word → Word
/-- R129: the fixed algorithm of LOG; not given (log 5). -/
opaque logFn : Word → Word
/-- R129: the fixed algorithm of RSQRT; not given (log 5). -/
opaque rsqrtFn : Word → Word
/-- R129: the fixed algorithm of TANH; not given (log 5). -/
opaque tanhFn : Word → Word
/-- R129: the fixed algorithm of SIGMOID; not given (log 5). -/
opaque sigmoidFn : Word → Word
/-- R129: the fixed algorithm of GELU (erf form); not given (log 5). -/
opaque geluFn : Word → Word
/-- R129: the fixed algorithm of SILU; not given (log 5). -/
opaque siluFn : Word → Word

/-- R530, R534: whether an XMSS-SHAKE256_20_256 signature verifies, over (public key, message, signature) (log 6). -/
opaque xmssVerify : List Byte → List Byte → List Byte → Bool
/-- R542: the XMSS^MT signature of a message under the fused device key at an index, 9,893 B (log 6). -/
opaque xmssSign : Nat → List Byte → List Byte
/-- R542: SHAKE256 with 256-bit output, 32 B (log 6). -/
opaque shake256 : List Byte → List Byte
/-- R534: the vendor key in ROM (log 6). -/
opaque vendorKey : List Byte
/-- R538: the device certificate of the boot header, 2,948 B (log 6). -/
opaque deviceCert : List Byte
/-- R538: whether the fused key matches the certificate and the certificate verifies (log 6). -/
opaque deviceKeyOk : Bool
/-- CRC of the factory settings image, four bytes (log 6). -/
opaque factoryCrc : List Byte
/-- Vendor signature of the factory settings image (log 6). -/
opaque factorySignature : List Byte
/-- R517: the board section as assembly test wrote it (log 6). -/
opaque boardSection : List Byte
/-- R517: whether the board section carries a valid vendor signature in each flash (log 6). -/
opaque boardVerifies : List Byte → Bool
/-- R542: digest of the firmware ROM (log 6). -/
opaque romDigest : List Byte
/-- Table 22-2: fused hub stepping (log 7). -/
opaque hubStepping : BitVec 16
/-- Table 22-3: version of the ROM firmware (log 7). -/
opaque fwVersion : Word
/-- R538: fused serial number (log 7). -/
opaque serial : DWord

/-- FREE VALUE. R171: which JOIN of some code the branch at a word names; Table 6-6 gives BRA one target (log 8). -/
opaque joinOf : List DWord → Nat → Nat
/-- FREE VALUE. R140: how the operand of a RECORDS message spells the triple of its collective; not laid out (log 20). -/
opaque collOperand : Word → Word → Word → DWord
/-- FREE VALUE. R144: into how many work units beyond one the hub splits an operation of some work; not given (log 29). -/
opaque unitParts : Nat → Nat
/-- FREE VALUE. R254: the four check symbols of 64 data bytes; the code's generator is not given (log 51). -/
opaque checkWord : List Byte → List Byte
/-- FREE VALUE. R254: whether an error of more than three bytes is detected (log 51). -/
opaque eccDetects : List (Nat × Byte) → Bool
/-- FREE VALUE. R162: the operation that op code `op` of instruction class `cls` names, for a code that the manual does not give (log 8). -/
opaque kernelOp : Nat → Nat → Option KOp
/-- FREE VALUE. R89, R110: the finite FP32 value that a finite product or sum of Fast mode beyond FP32 takes, by its exact mantissa and exponent; not given
(log 74). -/
opaque fastOver : Int → Int → Word
/-- FREE VALUE. R112: a word that a graph operation takes and the manual does not give, by the graph, the seed, the instance, the operation, and the place
and inputs that it is for (log 83). -/
opaque graphOpen : List Nat → BitVec 64
/-- FREE VALUE. R410: reading of the tap monitor of a laser input in 0.01 dBm, where no command has given one since its mode last changed (Table 13-7; log 4). -/
opaque tapReading : Nat → Int
/-- FREE VALUE. R386: by how many codes a ring's own loop moves its heater within 10 µs; the plant that it follows is not given (log 71). -/
opaque ringLoop : Nat → Int
/-- R370, R453: the fixed hash that spreads flows; not given (log 9). -/
opaque flowHash : Nat → Nat → Nat → Nat
/-- R217: per-shard byte size order is given; the manual leaves the order of HOST_KEEP reads open. Serial order of open placement choices (log 10). -/
opaque placementSeed : Nat
/-- FREE VALUE. R215: bytes of key/value leases that a cask peer offers; the manual does not say how the offer is known (log 20). -/
opaque leaseOffer : Nat → Nat
/-- FREE VALUE. R250: what a MIGRATE_CTRL operand says (0 READY, 1 a refusal with the status in the higher bits, 2 COMMIT, 3 DONE, modulo 4); not laid
out (log 20). -/
opaque ctrlMeaning : Nat → Nat
/-- FREE VALUE. R249: which of a module's migrations the operand of an IMAGE or MIGRATE_CTRL message names; not laid out (log 20). -/
opaque migrationOf : Nat → Nat
/-- FREE VALUE. R112: a value that an instruction of a kernel takes and the manual does not give, by the launch's seed and instance number, the place and
count of the instruction in the launch, its code and its thread's registers (log 78). -/
opaque kernelOpen : List Nat → BitVec 64
/-- FREE VALUE. R270: which checker of a CXL port raises the S0 event of a presence, of those that Table 9-8 leaves unused (log 54). -/
opaque presenceChecker : Nat
/-- FREE VALUE. R214: what a LEASE operand asks (0 take, 1 extend, 2 release, modulo 3) and of which lease; not laid out (log 20). -/
opaque leaseMeaning : Nat → Nat
/-- R475: fused guard-band ceiling of a die in 5 mV steps (log 11). -/
opaque guardCeiling : Nat → Nat
/-- R475: fused starting guard band of a die in 5 mV steps (log 11). -/
opaque guardStart : Nat → Nat
/-- R110: the shape of the FP32 adder tree and the arrival order of Fast-mode partials: which order the n-th sum of k terms takes (log 12). -/
opaque fastOrder : Nat → Nat → Nat

end Sys2Proof.Config
end

