-- ==== Sys2Proof/Machine/State.lean ====
section
/-! DEFINITION. The state of the module as plain data, and `State.reset`. Every record cites the chapter that gives it. -/
namespace Sys2Proof.Machine

/-! ## Small enumerations of the manual -/

/-- Site states (Table 1-4). -/
inductive SiteState where
  | notReported | compute | spare | retired | isolated
  deriving DecidableEq, Repr

/-- Tile roles (Table 7-1); module roles (Table 7-2) reuse it, `none` standing for MIXED. -/
inductive Role where
  | none | mash | draught | cask
  deriving DecidableEq, Repr

/-- Status codes (Table 11-15). -/
inductive Status where
  | ok | okSpilled | busy | retryLater | tempDefer | badDescriptor | staleDescriptor | unknownOpcode | noResource
  | tooLarge | linkLost | peerAbsent | resultSuspect | authFailed | internal
  deriving DecidableEq, Repr

/-- Ring states (Table 10-8). -/
inductive RingState where
  | disabled | enabled | draining | error
  deriving DecidableEq, Repr

/-- Session states (Table 8-3). -/
inductive SessState where
  | free | open | stepping | snapshotting | migrating | inDoubt | broken | closing
  deriving DecidableEq, Repr

/-- Model states (Table 8-8a); `empty` is a free slot. -/
inductive ModelState where
  | empty | ready | reloading | failed
  deriving DecidableEq, Repr

/-- Bundle direction states (Table 12-6). -/
inductive BundleState where
  | unwired | training | full | degraded | retired | down
  deriving DecidableEq, Repr

/-- Optical link states (Table 13-6). -/
inductive LinkState where
  | down | training | up | portAbsent | noLight | outOfService
  deriving DecidableEq, Repr

/-- Ring states of an engine (Table 13-8). -/
inductive OeRingState where
  | parked | searching | locked | paused | failed | dark | retired
  deriving DecidableEq, Repr

/-- ELS output modes (Table 13-2). -/
inductive LaserMode where
  | off | probe | run
  deriving DecidableEq, Repr

/-- Reset kinds of the whole module (Table 19-1, Table 19-3). -/
inductive ResetKind where
  | cold | warm | module
  deriving DecidableEq, Repr

/-- CXL port states (Table 9-10). -/
inductive CxlState where
  | empty | inService | evacuating | off
  deriving DecidableEq, Repr

/-- Trip kinds (Table 16-9). -/
inductive TripKind where
  | none | thermal | overcurrent | backstop | inputRange
  deriving DecidableEq, Repr

/-- Where bytes of the module's two tiers, or of a remote lease, lie (R209). -/
inductive Place where
  | site (n : Nat)
  | cxl (p : Nat)
  | remote (peer : Nat)
  deriving DecidableEq, Repr

/-! ## Accumulators, tensors and graphs (Chapters 4, 5) -/

/-- The binned accumulator of R101, also the partial record of R107; `top = none` is EMPTY (0xFF). Bins are T, T−1, T−2, T−3. -/
structure Acc where
  top : Option Nat
  bin0 : Int
  bin1 : Int
  bin2 : Int
  bin3 : Int
  res0 : Nat
  res1 : Nat
  res2 : Nat
  res3 : Nat
  count : Nat
  nan : Bool
  posInf : Bool
  negInf : Bool
  deriving DecidableEq, Repr

/-- A tensor descriptor of a graph (Table 5-2). -/
structure TensorDesc where
  id : Nat
  kind : Nat
  cls : Nat
  format : Nat
  rank : Nat
  blockAxis : Nat
  dynamic : Bool
  isPartial : Bool
  columns : Nat
  ref : Nat
  dims : List Nat
  deriving DecidableEq, Repr

/-- An operation entry of a graph (Table 5-5a). -/
structure OpDesc where
  opcode : Nat
  fast : Bool
  conv : Nat
  ins : List Nat
  outs : List Nat
  attr : List Byte
  deriving DecidableEq, Repr

/-- A collective entry of a graph (Table 5-6). -/
structure CollDesc where
  id : Nat
  participants : Nat
  planeB : Bool
  joinTimeout : Nat
  deriving DecidableEq, Repr

/-- A loaded graph (R119–R121): the hub's own copy, parsed. -/
structure Graph where
  allExact : Bool
  tensors : List TensorDesc
  ops : List OpDesc
  colls : List CollDesc
  attrs : List Byte
  consts : List Byte
  crc : Nat
  deriving DecidableEq, Repr

/-- What a tensor of a run holds: bytes in the storage layout of R78, R79 and R125, or one record per element (R124). -/
structure TensorVal where
  id : Nat
  dims : List Nat
  bytes : List Byte
  records : List Acc
  deriving DecidableEq, Repr

/-- A run of consecutive module addresses. -/
structure Extent where
  base : Nat
  len : Nat
  deriving DecidableEq, Repr

/-- Where a TEMP tensor of a run lies: pieces of module memory, or a site's tile store (R144; log 59). -/
structure TempPlace where
  tensor : Nat
  store : Option Nat
  extents : List Extent
  deriving DecidableEq, Repr

/-- A run of a graph in flight: a GRAPH_RUN or the step graph of a PREFILL or DECODE (R142–R148, R237), with the generation of its session's entry
(R223) and the collectives that it has reached (R140). -/
structure Run where
  cid : Nat
  graph : Graph
  graphIndex : Option Nat
  model : Option Nat
  epoch : Nat
  seed : DWord
  inst : Word
  bound : List (Nat × Nat)
  vals : List TensorVal
  temps : List TempPlace
  opsDone : List Nat
  opsFailed : List (Nat × Status × Nat)
  session : Option Nat
  sessionGen : Nat
  tokens : Nat
  rebuild : Bool
  rowsAddr : Nat
  begun : Bool
  rank : Nat
  modules : List Nat
  spilledRead : Bool
  reached : List Nat
  deriving DecidableEq, Repr

/-! ## Cell kernels (Chapter 6) -/

/-- A checked instruction: the operation its op code names, and its word. -/
structure KWord where
  op : KOp
  word : DWord
  deriving DecidableEq, Repr

/-- A loaded kernel (Tables 6-8, 6-9); a slot is its tensor, its access and its least size. -/
structure Kernel where
  allExact : Bool
  code : List KWord
  warps : Nat
  regs : Nat
  accUnits : Nat
  barriers : Nat
  cellStore : Nat
  tileStore : Nat
  groups : Nat
  entry : Nat
  slots : List (Nat × Nat × Nat)
  perCell : Nat
  deriving DecidableEq, Repr

/-- One thread's registers g0… and predicates p0–p7 (R153). -/
structure Thread where
  regs : List Word
  preds : List Bool
  deriving DecidableEq, Repr

/-- A divergence level of R171: the word of the JOIN that its branch names, the threads of the path still to run and where it starts, and the
threads active before the branch. -/
structure Diverged where
  join : Nat
  other : Option (Nat × List Bool)
  before : List Bool
  deriving DecidableEq, Repr

/-- A copy in flight (R161): its counter, whether it goes to cell or tile store, the slot and offset, the store and its offset, and its length. -/
structure Copy where
  counter : Nat
  toStore : Bool
  slot : Nat
  offset : Nat
  tile : Bool
  place : Nat
  len : Nat
  deriving DecidableEq, Repr

/-- Warp state (R183): its slot of the cell's 64 (R49); `waiting` is the barrier id and count the warp waits at; `issued` counts its instructions
(log 78). -/
structure Warp where
  slot : Nat
  pc : Nat
  active : List Bool
  stack : List Diverged
  threads : List Thread
  counters : List Nat
  copies : List Copy
  waiting : Option (Nat × Nat)
  exited : Bool
  issued : Nat := 0
  deriving DecidableEq, Repr

/-- An accumulator tile (R154): its base unit, its form, and its 1,024 elements. -/
structure AccTile where
  base : Nat
  exact : Bool
  records : List Acc
  values : List Word
  deriving DecidableEq, Repr

/-- A group of a cluster: its logical cell, its warps, cell store and accumulator tiles, and the accumulator units that have been written (R150,
R154–R156). -/
structure Group where
  cell : Nat
  warps : List Warp
  store : List Host.Cell
  tiles : List AccTile
  written : List Nat
  deriving DecidableEq, Repr

/-- A cluster (R149, R184): where it runs (`none` while saved or not yet started), and the module memory that its saved state takes. -/
structure Cluster where
  index : Nat
  site : Option Nat
  started : Bool
  saved : Bool
  groups : List Group
  store : List Host.Cell
  image : List Extent
  ended : Bool
  deriving DecidableEq, Repr

/-- A kernel error (Table 6-10) with its place (R186). -/
structure KernelError where
  code : Nat
  cluster : Nat
  group : Nat
  warp : Nat
  word : Nat
  deriving DecidableEq, Repr

/-- A launch in flight (R179). -/
structure Launch where
  cid : Nat
  kernel : Kernel
  kernelIndex : Nat
  clusterCount : Nat
  seed : DWord
  inst : Word
  slots : List Nat
  params : List Byte
  timeLimit : Nat
  begun : Bool
  clusters : List Cluster
  ranFast : Bool
  error : Option KernelError
  deriving DecidableEq, Repr

/-! ## Memory (Chapter 9) -/

/-- A memory handle's entry (R311, R331). -/
structure MemHandle where
  index : Nat
  gen : Nat
  size : Nat
  tier : Nat
  extents : List Extent
  deriving DecidableEq, Repr

/-- Corrected-error times of one ECC group (R259), newest first, at most four, and those of injected errors, which retire nothing (R339, R510). -/
structure GroupErrors where
  site : Nat
  group : Nat
  times : List Nat
  injected : List Nat := []
  deriving DecidableEq, Repr

/-- An access to local memory that waits for its channel (R264), with the errors that its device will give; a read has no data. -/
structure HeldAccess where
  site : Nat
  offset : Nat
  write : Bool
  data : List Byte
  by_ : Issuer
  cid : Option Nat
  errors : List ByteErrors := []
  deriving DecidableEq, Repr

/-- Module memory (R253, R260): the sparse bytes of both tiers, the poison bits of granules, the retired groups. By controller: `scrubNext`
and `scrubStart` (operating time) of the pass in progress, `checkCache` (its groups, each with the granules written since its last
write-back), `deviceTemp`; by channel: `recentred` (temperature, operating time), `retraining`, with the accesses that wait. -/
structure MemSys where
  cells : List Host.Cell
  poison : List (Nat × Nat)
  groupErrors : List GroupErrors
  corrected : List (Nat × Nat)
  scrubNext : List (Nat × Nat)
  scrubBad : List Nat
  tempGroups : List (Nat × Nat)
  trainedOnce : List Nat
  handles : List MemHandle
  handleGen : List (Nat × Nat)
  scrubStart : List (Nat × Nat)
  checkCache : List (Nat × Nat × Nat)
  refreshed : List (Nat × Nat)
  deviceTemp : List (Nat × Nat)
  recentred : List (Nat × Nat × Nat)
  retraining : List (Nat × Nat × Nat)
  heldAccesses : List HeldAccess
  deriving DecidableEq, Repr

/-- A CXL root port (Tables 9-5, 9-10; pins of Table 21-2). -/
structure CxlPort where
  present : Bool
  linkUp : Bool
  state : CxlState
  rate : Nat
  width : Nat
  surpriseRemoved : Bool
  capacity : Nat
  mapped : Nat
  discovering : Bool
  slotPower : Bool
  powerBlink : Bool
  attention : Bool
  bad : List (Nat × Nat)
  waiting : Bool
  planned : Bool
  resetOut : Bool
  deriving DecidableEq, Repr

/-! ## Bundles (Chapter 12) and the link layer (Chapter 15) -/

/-- What a spare wire stands in for (Table 12-4): the valid wire or a data wire. -/
inductive SpareUse where
  | free | valid | data (d : Nat)
  deriving DecidableEq, Repr

/-- One link direction pair as one end sees it (R430–R447): sender counts, the last sequence
acknowledged and held flits, receiver sequence and NAK. -/
structure LinkEnd where
  txSeq : Nat
  acked : Nat
  held : List (Nat × Nat × List Byte)
  replayCounter : Nat
  replayFrom : Option Nat
  rxExpected : Nat
  ackPending : Nat
  nakOutstanding : Bool
  linkDue : Bool
  nakDue : Bool
  sent : List Nat
  released : List Nat
  rxHeld : List Nat
  rxReleased : List Nat
  rxReported : List Nat
  txQueue : List (Nat × List Byte)
  rxMessage : List (Nat × List Byte)
  delivered : List (Nat × List Byte)
  lastVc : Nat
  deriving DecidableEq, Repr

/-- One receive direction of a bundle (R353–R375). `kept`: this end has kept its map through a reset of the other end (R364, R371);
`block`: the identity and map block it last received. -/
structure BundleDir where
  state : BundleState
  spares : List SpareUse
  failed : List Nat
  dropped : Option Nat
  physPort : Nat
  inlineChecks : Nat
  crcFailures : Nat
  recentFails : Nat
  checking : Bool
  phase : List (Nat × Int)
  tempRetired : Bool
  kept : Bool
  block : List Byte
  link : LinkEnd
  deriving DecidableEq, Repr

/-! ## Tiles (Chapters 1, 2, 7, 16) -/

/-- Thermal state of a tile (R457–R465, R473–R476). Readings are in 0.25 K. -/
structure TileThermal where
  history : List (List Int)
  rangeCount : List Nat
  medianCount : List Nat
  broken : List Bool
  gddrTemp : Nat
  xUsed : Int
  ceiling : Nat
  issueRate : Nat
  deriving DecidableEq, Repr

/-- Ageing state of a die (R473–R476): baseline, guard band in 5 mV steps, points (operating time, value), prediction. -/
structure Ageing where
  baseline : Option Nat
  value : Int
  guard : Nat
  points : List (Nat × Int)
  hoursLeft : Option Nat
  deriving DecidableEq, Repr

/-- A tile site (Tables 1-3, 2-7–2-10, 9-9; R188, R203). -/
structure Tile where
  state : SiteState
  inReset : Bool
  clockLost : Bool
  idValid : Bool
  reported : Option Nat
  mirror : Bool
  rotation : Nat
  row : Nat
  col : Nat
  setupDone : Bool
  settingUp : Bool
  sampling : Option Nat
  logical : List Nat
  rotating : Bool
  retiredCells : List Nat
  leavingCells : List Nat
  katFailed : Bool
  sweeps : Nat
  sweepPos : Nat
  katPassed : Bool
  role : Role
  nextRole : Option Role
  draining : Bool
  drainAbandoned : Bool
  retiring : Bool
  changedLastPlan : Bool
  seqRange : List (Nat × Nat × Nat)
  ran : List (Nat × Nat)
  memInService : Bool
  memFailed : Bool
  failedDevice : Nat
  training : Bool
  retiredGroups : List Nat
  stopped : List Nat
  bundles : List BundleDir
  thermal : TileThermal
  ageing : Ageing
  deriving DecidableEq, Repr

/-! ## Optical engines (Chapters 13, 14) -/

/-- One microring (Table 13-8), with its daily points and their operating times (R477), its last dominant tone and the code at which it was found (R389),
its feed-forward offset in 1/65,536 of a code (R398), its record of the last lock (the code, and the power estimate of the adjacent tile in 1/64 W), and
whether it searches from its last code after an engine reset (R401). -/
structure OeRingRec where
  state : OeRingState
  toneOk : Bool
  tone : Option Nat
  toneCode : Nat
  ff : Int
  lockPower : Nat
  tries : Nat
  slot : Nat
  heater : Nat
  lastLock : Nat
  fromLast : Bool
  points : List (Nat × OpticalPointData)
  deriving DecidableEq, Repr

/-- A laser input (Table 13-7; R403), with the attenuation that holds its set level, and whether its return after an excursion is still to be made. -/
structure LaserInput where
  mode : LaserMode
  excursion : Bool
  openFibre : Bool
  atten : Nat
  setting : Nat
  power : Int
  ramp : Bool
  retired : Bool
  deriving DecidableEq, Repr

/-- A pending live change of one direction (R446) or map (R394), with its effective frame. -/
structure LiveChange where
  rate : Nat
  width : Nat
  effective : Nat
  rateChange : Bool
  switched : Bool
  deriving DecidableEq, Repr

/-- One direction of an optical link (R379–R380, R411–R419). `slotRing` gives each slot's wavelength, 18·f + n; `unfit` lists the locked wavelengths that
fail the rate in use (R407), `counters` each wavelength's own frame counter as it last showed it (R417, R419), `switched` the wavelengths that a MAP or
RATE_WIDTH has switched, each with its effective frame (R424). -/
structure Direction where
  width : Nat
  rate : Nat
  slotRing : List Nat
  paused : List Nat
  frame : Nat
  maps : List (Nat × Nat × Nat)
  change : Option LiveChange
  deferred : List (Nat × Nat × Nat)
  scrambler : List (BitVec 31)
  lastBit : List Bool
  markerHits : List Nat
  crcHits : List Nat
  markerMiss : List Nat
  frameLock : List Bool
  frozen : Bool
  spared : Bool
  tbDue : List Nat
  unfit : List Nat
  counters : List Nat
  switched : List (Nat × Nat)
  deriving DecidableEq, Repr

/-- A control word as Table 14-2 numbers it: type and payload. -/
structure CtrlWord where
  kind : Nat
  payload : Nat
  deriving DecidableEq, Repr

/-- The adaptation of one tap of the partner (R421): the direction of the last request, how many requests in a row have alternated, whether it is
converged. -/
structure Adapt where
  lastUp : Option Bool
  alternations : Nat
  converged : Bool
  deriving DecidableEq, Repr

/-- Transmit equaliser taps of one ring, with those it held at other rate steps (rate, pre, post), and the receiver's adaptation of the partner's (R420,
R421). -/
structure Ffe where
  pre : Nat
  post : Nat
  partnerPre : Nat
  partnerPost : Nat
  atLimit : Bool
  saved : List (Nat × Nat × Nat)
  preAdapt : Adapt
  postAdapt : Adapt
  deriving DecidableEq, Repr

/-- Bring-up of one link (R425–R429): which end has sent TRAIN done for the step, and a rate step that is to be taken after so many more frames of the rate
before it (R425, R443). -/
structure BringUp where
  step : Nat
  attempt : Nat
  selfDone : Bool
  partnerDone : Bool
  wait : Option (Nat × Nat)
  partner : Option HelloWord
  passing : List (List Nat)
  rxSet : Bool
  txSet : Bool
  deriving DecidableEq, Repr

/-- An engine (R376, Table 13-6, Table 15-11). `slotFailed` has the slot of each failed flit of the 1 ms bucket in progress, `positions` its flit positions,
`buckets` the same of the buckets before (R442); failures folded at a pause stand as one entry 64 + slot (R391). -/
structure Engine where
  state : LinkState
  started : Bool
  inReset : Bool
  clockLost : Bool
  elsPresent : Bool
  lasers : List LaserInput
  rings : List OeRingRec
  tx : Direction
  rx : Direction
  txWords : List (CtrlWord × Nat)
  rxWords : List (CtrlWord × Nat)
  rxFlits : List (Nat × List Byte)
  txFrames : List (List Bool)
  ffe : List Ffe
  bringUp : BringUp
  bundles : List BundleDir
  link : LinkEnd
  buckets : List (List Nat × Nat)
  slotFailed : List Nat
  positions : Nat
  maxReplays : Nat
  linkDowns : Nat
  powerEstimate : Nat
  restoring : Bool
  sensorHistory : List (List Int)
  sensorRange : List Nat
  sensorMedian : List Nat
  sensorBroken : List Bool
  ageing : Ageing
  marginBusy : Bool
  deriving DecidableEq, Repr

/-- An external laser source as the hub manages it (R381–R384): `modes` per output 2j + f. -/
structure Els where
  present : Bool
  matched : Bool
  modes : List LaserMode
  failed : List (Nat × Nat)
  deriving DecidableEq, Repr

/-! ## Cellarer (Chapter 7), sessions and models (Chapter 8) -/

/-- Role bounds (R200). -/
structure Bounds where
  minM : Nat
  maxM : Nat
  minD : Nat
  maxD : Nat
  minC : Nat
  maxC : Nat
  deriving DecidableEq, Repr

/-- A work unit (R144, R189, R199, R203): its kind is the role that does such work, its group the one it runs on; its work is in core cycles, its
exchange names each other module with the bytes; `tried` holds the tiles that abandoned it (R204). -/
structure WorkUnit where
  id : Nat
  cid : Nat
  op : Nat
  kind : Role
  group : Role
  site : Option Nat
  cells : List Nat
  cxlInputs : Bool
  peers : List (Nat × Nat)
  weightSite : Option Nat
  tried : List Nat := []
  work : Nat
  deriving DecidableEq, Repr

/-- A key/value block (R208–R214, Table 8-8 tag). -/
structure KvBlock where
  id : Nat
  session : Nat
  layer : Nat
  isV : Bool
  firstRow : Nat
  rows : Nat
  sealed : Bool
  sealOrder : Nat
  heat : Nat
  place : Place
  extent : Extent
  data : List Byte
  deriving DecidableEq, Repr

/-- A move of a block, weight stripe or handle part in progress (R213). -/
structure Move where
  id : Nat
  block : Nat
  dest : Place
  destExtent : Extent
  switched : Bool
  oldPlace : Place
  oldExtent : Extent
  readers : Nat
  deriving DecidableEq, Repr

/-- A lease that a cask peer has granted for a block of a session (R214); one whose session is gone is to be given back. -/
structure HeldLease where
  session : Option Nat
  peer : Nat
  block : Nat
  deriving DecidableEq, Repr

/-- The Cellarer's state: among it the loads, the block bytes read and the reports of the last plan, how many plans have been made (to 2), and
the leases held of cask peers. -/
structure Cellarer where
  moduleRole : Role
  newRole : Option Role
  plan : Nat
  lastChange : Nat
  prevTargets : Option (Nat × Nat × Nat)
  bounds : Bounds
  boundsSet : Bool
  boundsNew : Bool
  freeze : Bool
  hintsClipped : Bool
  wMash : Nat
  wDraught : Nat
  kvRate : Nat
  loads : PlanLoads
  kvRead : Nat
  plansMade : Nat
  modelLoaded : Bool
  planModule : List Byte
  planSessions : List (Nat × List Byte)
  planModels : List (Nat × List Byte)
  ratio : Option (Nat × Nat)
  units : List WorkUnit
  nextUnit : Nat
  blocks : List KvBlock
  nextBlock : Nat
  sealCount : Nat
  moves : List Move
  nextMove : Nat
  kvShare : Nat
  heldLeases : List HeldLease
  streamed : List (Nat × Nat)
  deriving DecidableEq, Repr

/-- A session directory entry (Table 8-2); entries not listed are FREE. -/
structure Session where
  index : Nat
  generation : Nat
  state : SessState
  pinned : Bool
  epochChanged : Bool
  model : Nat
  openEpoch : Nat
  lastEpoch : Nat
  position : Nat
  maxBlocks : Nat
  blockTable : Nat
  seed : DWord
  lastInstance : Word
  steps : Nat
  stepRing : Option Nat
  prior : SessState
  queue : List Nat
  deriving DecidableEq, Repr

/-- One tensor of a model at one epoch: its manifest entry (Table 8-6), its data, and where its stripes lie; `atPeer` is the cask peer to which an
evacuation has sent it (R271). -/
structure Shard where
  index : Nat
  format : Nat
  rank : Nat
  blockAxis : Nat
  refRank : Nat
  dims : List Nat
  dataOffset : Nat
  dataCrc : Nat
  epoch : Nat
  spilled : Bool
  stripes : List Extent
  lost : Bool
  cxlCopy : List Extent
  copyLost : Bool
  data : List Byte
  atPeer : Option Nat := none
  deriving DecidableEq, Repr

/-- A model slot (R222, R236–R243). -/
structure Model where
  gen : Nat
  state : ModelState
  current : Nat
  retained : Nat
  staged : Bool
  cxlCopySource : Bool
  weightsAddr : Nat
  manifestCrc : Nat
  layers : List (Nat × Nat × Nat × Nat)
  prefillGraph : Option Graph
  decodeGraph : Option Graph
  shards : List Shard
  prefetched : List (Nat × Nat)
  lastSpilled : Option Nat
  staging : List Extent
  deriving DecidableEq, Repr

/-- One side of a migration (R249, R250), with the generation of its model's slot (R223). -/
structure Migration where
  cid : Nat
  isSource : Bool
  session : Option Nat
  model : Nat
  modelGen : Nat
  peer : Nat
  tag : DWord
  joined : Bool
  ready : Bool
  size : Nat
  deriving DecidableEq, Repr

/-! ## Host link (Chapter 10) and commands (Chapter 11) -/

/-- A ring: its registers (Tables 10-5–10-8) and the counters behind them (R290). -/
structure Ring where
  sqBase : DWord
  cqBase : DWord
  enable : Bool
  weight : Nat
  sizeLog2 : Nat
  aliveInit : Nat
  irqEnable : Bool
  vector : Nat
  coalesceCount : Nat
  coalesceDelay : Nat
  state : RingState
  errorCause : Nat
  aliveExpected : Nat
  sqHead : Nat
  sqTail : Nat
  cqTail : Nat
  cqHead : Nat
  inFlight : Nat
  lap : Bool
  phase : Bool
  unsignalled : Nat
  irqArmed : Bool
  liveEnable : Bool
  liveVector : Nat
  liveDelay : Nat
  deriving DecidableEq, Repr

/-- What the hub sends to the host: a posted memory write, or an MSI-X message (R281, R305, R306). -/
inductive HostMsg where
  | write (addr : Nat) (data : List Byte)
  | msix (vector : Nat)
  | aer (kind : Nat)
  deriving DecidableEq, Repr

/-- A bit for each kind of error that AER reports: correctable, non-fatal, fatal (R276). -/
structure AerBits where
  correctable : Bool
  nonFatal : Bool
  fatal : Bool
  deriving DecidableEq, Repr

/-- How a command ended: status, source ID, result bytes 0x14–0x3B, and its data writes to the host (R303, R305). -/
structure Done where
  status : Status
  source : Nat
  result : List Byte
  writes : List (Nat × List Byte)
  deriving DecidableEq, Repr

/-- A fetched descriptor in the hub's command table (R299, R302): `seq = none` while it waits on a fence (R308);
`marked` the source that has marked it and `markedOp` the operation that the mark names (R148, R489);
`accepted` once it has passed check 5 and waits at a read of host memory, `reading` while that read cannot be issued (R280), and
`heldEpoch` the model slot and the epoch that a step or run took then (R145, R242). -/
structure Cmd where
  cid : Nat
  ring : Nat
  slot : Nat
  desc : List Byte
  aliveSeen : Nat
  aliveAt : Nat
  seq : Option Nat
  started : Bool
  core : Nat
  done : Option Done
  marked : Option Nat
  markedOp : Option Nat := none
  accepted : Bool := false
  reading : Bool := false
  heldEpoch : Option (Nat × Nat) := none
  deriving DecidableEq, Repr

/-- A BAR4 aperture (R279). -/
structure Aperture where
  handle : DWord
  offset : Nat
  deriving DecidableEq, Repr

/-- The host link: rings, doorbells, interrupts, configuration facts, what has been sent or is held (R280, R282), and in `outstanding` the reads that
went out before the hub might issue no more. -/
structure HostLink where
  rings : List Ring
  busMaster : Bool
  d3hot : Bool
  linkUp : Bool
  trained : Bool
  width : Nat
  rate : Nat
  bar4Log2 : Nat
  apertures : List Aperture
  msixEnable : Bool
  aerReport : AerBits
  aerStatus : AerBits
  vectorMask : List Nat
  functionMask : Bool
  pendingBits : List Nat
  msixTable : List (Nat × Word)
  posted : List HostMsg
  held : List HostMsg
  readData : List Byte
  acceptSeq : Word
  nextCid : Nat
  lastRing : Nat
  turnLeft : Nat
  cmds : List Cmd
  forcing : Option Nat
  outstanding : List HostReq := []
  deriving DecidableEq, Repr

/-! ## Faults (Chapter 17), log and flash (Chapter 18), security (Chapter 19) -/

/-- An open fault state (R497–R499). -/
structure FaultState where
  res : Resource
  source : Nat
  severity : Nat
  injectedOnly : Bool
  holdsFirst : Bool
  deriving DecidableEq, Repr

/-- Recovery times of one resource, newest first, at most eight (R501). -/
structure Recovery where
  res : Resource
  times : List Nat
  deriving DecidableEq, Repr

/-- The fault collector (Tables 17-6a–17-6e), and the control cores that are retired or in their reset (R485). -/
structure Faults where
  sticky : List Nat
  firstSource : Nat
  firstSeverity : Nat
  firstValid : Bool
  firstInjected : Bool
  merged : Nat
  firstTime : Nat
  firstCycle : Nat
  highest : Nat
  open_ : List FaultState
  recoveries : List Recovery
  inject : List (Nat × Nat)
  coresRetired : List Nat
  coresReset : List Nat := []
  stRun : Nat
  stFailed : Nat
  stFirst : Nat
  deriving DecidableEq, Repr

/-- A service request in force (R479). `key` tells apart what shares a resource number: the die or the wavelength that a prediction is of. -/
structure ServiceReq where
  level : Nat
  cause : Nat
  resource : Nat
  hours : Option Nat
  predicted : Bool
  misses : Nat
  key : Nat
  deriving DecidableEq, Repr

/-- A log record (Table 18-4) less its CRC, which is computed when read; `number` is assigned at commit (R522). -/
structure LogRec where
  opTime : Nat
  cycles : Nat
  severity : Nat
  injected : Bool
  deferred : Bool
  retained : Bool
  data : DWord
  number : Nat
  source : Nat
  event : Nat
  repeats : Nat
  deriving DecidableEq, Repr

/-- A mirrored-area entry (R513, R524). -/
inductive Mirror where
  | reservation (high : Nat)
  | ownerKey (key : List Byte)
  | logHead (active next : Nat)
  | retiredSite (n : Nat) (isolated : Bool)
  | retiredCell (n k : Nat)
  | retiredBundle (b : BundleEnd)
  | retiredRing (e r : Nat)
  | retiredLaser (e f : Nat)
  | retiredSensor (s : SensorRef)
  | retiredCore (c : Nat)
  | failedWire (b : BundleEnd) (w : Nat)
  | laneMap (b : BundleEnd) (spares : List SpareUse) (dropped : Option Nat)
  | retiredGroup (n g : Nat)
  | failedMemory (n device : Nat)
  | deviceId (controller id : Nat)
  | recovery (r : Recovery)
  | heater (e r code : Nat)
  | ageing (die : DieRef) (time : Nat) (value : Int)
  | optical (e r time : Nat) (point : OpticalPointData)
  deriving DecidableEq, Repr

/-- A flash operation waiting or running (R514). -/
inductive FlashOp where
  | reservation (high : Nat)
  | mirror (m : Mirror)
  | log (r : LogRec)
  | settings (cid : Nat) (slot : Nat) (image : List Byte)
  deriving DecidableEq, Repr

/-- One SPI NOR flash (Table 18-1); `paused` while writes are refused and the one that was running has ended (R472). -/
structure Flash where
  slots : List (List Byte)
  board : List Byte
  entries : List Mirror
  ring : List LogRec
  failed : Bool
  queue : List FlashOp
  errors : Nat
  paused : Bool
  deriving DecidableEq, Repr

/-- The log and deferral state (R519–R527). -/
structure LogState where
  active : Nat
  next : Nat
  refused : Bool
  queued : List LogRec
  held : List Mirror
  mirrored : List Mirror
  marked : List Mirror
  dropped : List Nat
  deriving DecidableEq, Repr

/-- The settings image in force (Tables 18-2, 18-3), parsed, with its bytes. -/
structure Settings where
  version : Nat
  signer : Nat
  slot : Nat
  flash : Nat
  powerClass : Nat
  forceExact : Bool
  moduleRole : Role
  hopLimit : Nat
  moduleId : Nat
  throttleStart : Nat
  spareMask : DWord
  weightLimit : Nat
  powerCap : Nat
  altEngine : List Nat
  caskPeers : List Nat
  ownerKey : List Byte
  routes : List (Nat × Nat × Nat × Nat)
  bytes : List Byte
  deriving DecidableEq, Repr

/-- Identity and signing state (Table 19-7, R539–R540). -/
structure Security where
  keyOk : Bool
  cryptoOk : Bool
  ownerKey : List Byte
  signerKey : List Byte
  reservedHigh : Nat
  nextIndex : Nat
  batchLeft : Nat
  reservationPending : Bool
  deriving DecidableEq, Repr

/-- The retained domain (R12, R519–R520, R524, R527, R581, Table 16-9). -/
structure Retained where
  powered : Bool
  opTime : Nat
  cycles : Nat
  openRec : Option LogRec
  openAt : Nat
  ring : List LogRec
  copies : List LogRec
  mirrorCopies : List Mirror
  genHigh : List (Nat × Nat)
  faultList : List FaultState
  tripKind : TripKind
  tripSource : Nat
  tripReading : Nat
  tripTimes : List Nat
  tripped : Bool
  clockStop : Option Nat
  tripPending : Bool
  opTimeAtReset : Nat
  coolSince : Option Nat
  deriving DecidableEq, Repr

/-- Start-up and module status (Tables 10-3, 10-4, 19-3). -/
structure Boot where
  ready : Bool
  fwUp : Bool
  settingsValid : Bool
  stopped : Bool
  step : Nat
  cause : BitVec 7
  mask : BitVec 7
  lastKind : ResetKind
  readyMs : Nat
  inProgress : Option ResetKind
  barReadable : Bool
  down : Bool
  hot : Bool
  everReset : Bool
  deriving DecidableEq, Repr

/-- Pins of Table 21-2 that the module reads or drives. -/
structure Pins where
  refclk : Bool
  perst : Bool
  pwrgd : Bool
  input : Bool
  tripOut : Bool
  readyOut : Bool
  alertOut : Bool
  regulators : Bool
  deriving DecidableEq, Repr

/-- Module thermal and power state (Tables 16-6, 16-8; R457–R468). -/
structure Thermal where
  throttleStart : Nat
  powerCap : Nat
  cP : Nat
  fastLimit : Bool
  telemetryFault : Bool
  inputPower : Nat
  hubHistory : List (List Int)
  hubRange : List Nat
  hubMedian : List Nat
  hubBroken : List Bool
  hubAgeing : Ageing
  deriving DecidableEq, Repr

/-! ## Transactions (Chapter 15), stream check units (Chapter 20), sideband (Chapter 22) -/

/-- A request of this module (R449): its tag, the command that owns it, the key/value block it is for, its message, whether the last answer
was UNIT_BUSY, the collective operation it serves; one that waits for a tag slot has none yet. -/
structure Request where
  slot : Nat
  gen : Nat
  cid : Option Nat
  block : Option Nat
  message : List Byte
  busy : Bool := false
  op : Option Nat := none
  deriving DecidableEq, Repr

/-- A completion-cache entry of one destination unit (R450). -/
structure CacheEntry where
  unit : Nat
  source : Nat
  slot : Nat
  gen : Nat
  code : Nat
  deriving DecidableEq, Repr

/-- A route entry (Table 15-10); destinations not listed are at the reset values. -/
structure Route where
  dest : Nat
  valid : Bool
  learned : Bool
  eng0 : Nat
  eng1 : Nat
  hops : Nat
  using_ : Nat
  alt : Nat
  deriving DecidableEq, Repr

/-- A lease held here for another module (R214, R454). -/
structure Lease where
  owner : Nat
  operand : Option DWord
  extent : Extent
  deriving DecidableEq, Repr

/-- Where a message of the panel starts or ends, or a place it passes (R37–R39): the router of a site, the hub, an engine. -/
inductive Station where
  | site (n : Nat)
  | hub
  | engine (e : Nat)
  deriving DecidableEq, Repr

/-- One set of route tables (R35–R37): its number, the sites that it leaves out, the edges of sites (site, edge) on which no bundle is left, and the rows
whose west tile has no hub bundle in service. -/
structure MeshTable where
  number : Nat
  out : List Nat
  cut : List (Nat × Nat)
  idle : List Nat
  deriving DecidableEq, Repr

/-- A message on its way over the mesh (R35–R39, R370): where from and to, its channel, the number of the tables it follows, and whether it has gone
back to its source unit for want of a bundle. -/
structure Flight where
  src : Station
  dst : Station
  vc : Nat
  table : Nat
  home : Bool
  message : List Byte
  deriving DecidableEq, Repr

/-- The transaction layer, and the mesh: `tables` has the route tables in force first, then earlier ones that flits still follow; `arrived` holds what has
reached a unit (a site, 0x80 the hub), `joins` the modules whose collective messages have come, each with the operand that spells the triple (R140). -/
structure Trans where
  requests : List Request
  waiting : List Request
  slotGen : List (Nat × Nat)
  cache : List CacheEntry
  routes : List Route
  leases : List Lease
  keepalives : List (Nat × DWord)
  sentMessages : List (Nat × List Byte)
  meshTable : Nat
  tables : List MeshTable
  flights : List Flight
  arrived : List (Nat × List Byte)
  discarded : Nat
  joins : List (Nat × Nat)
  deriving DecidableEq, Repr

/-- A FIFO entry of a stream check unit (R549). -/
structure ScuEntry where
  value : DWord
  mismatch : Bool
  incomplete : Bool
  repeat_ : Bool
  skip : Bool
  length : Nat
  deriving DecidableEq, Repr

/-- A stream check unit (Tables 20-2–20-5). -/
structure Scu where
  enable : Bool
  configError : Bool
  tap : Nat
  site : Nat
  refin : Bool
  refout : Bool
  fixed : Bool
  captureExceptions : Bool
  eventMask : Nat
  compare : Bool
  aliveEnable : Bool
  width : Nat
  frame : Word
  poly : DWord
  init : DWord
  xorout : DWord
  expect : DWord
  aliveReg : Word
  overrun : Bool
  dropped : Nat
  fifo : List ScuEntry
  info : Word
  records : Nat
  mismatches : Nat
  repeats : Nat
  skips : Nat
  aliveV : Option Nat
  partialBytes : List Byte
  deriving DecidableEq, Repr

/-- Sideband copies held in the retained domain (R577); `none` reads as 0xFF bytes. -/
structure Sideband where
  ident : Option (List Byte)
  status : Option (List Byte)
  thermal : Option (List Byte)
  service : Option (List Byte)
  hubRunning : Bool
  reply : Option (List Byte)
  deriving DecidableEq, Repr

/-! ## The state -/

/-- The module. -/
structure State where
  pending : List Instr
  pins : Pins
  ret : Retained
  boot : Boot
  settings : Option Settings
  boardOk : Bool
  flashA : Flash
  flashB : Flash
  log : LogState
  sec : Security
  flt : Faults
  svc : List ServiceReq
  tiles : List Tile
  hubBundles : List BundleDir
  engines : List Engine
  els : List Els
  th : Thermal
  cel : Cellarer
  host : HostLink
  mem : MemSys
  cxl : List CxlPort
  models : List Model
  sessions : List Session
  sessionGen : List (Nat × Nat)
  migs : List Migration
  graphs : List (Nat × Nat × Graph)
  graphGen : List (Nat × Nat)
  kernels : List (Nat × Nat × Kernel)
  kernelGen : List (Nat × Nat)
  runs : List Run
  launches : List Launch
  trans : Trans
  scu : List Scu
  sb : Sideband
  free : Nat
  deriving DecidableEq, Repr

/-- Why a run of the model stops with a fault. No meaning raises it: the manual gives every command an effect or leaves the
state as it is. It exists because the interface asks for the type. Safe. -/
inductive Fault where
  /-- Raised by nobody; safe. -/
  | none
  deriving DecidableEq, Repr

/-- Why a command is refused. -/
inductive Refusal where
  /-- Raised by an arm of exec whose command has no meaning yet; safe. -/
  | notModelled (mnemonic : String)
  deriving DecidableEq, Repr

/-! ## Reset values -/

/-- A link end with sequence 0 on both sides, nothing held and no credit released (R431, R438). -/
def LinkEnd.reset : LinkEnd :=
  { txSeq := 0, acked := 0x3FFF, held := [], replayCounter := 0, replayFrom := none, rxExpected := 0, ackPending := 0, nakOutstanding := false,
    linkDue := false, nakDue := false, sent := List.replicate 8 0, released := List.replicate 8 0, rxHeld := List.replicate 8 0,
    rxReleased := List.replicate 8 0, rxReported := List.replicate 8 0, txQueue := [], rxMessage := [], delivered := [], lastVc := 5 }

/-- An untested bundle direction (Table 12-6, Reset column). -/
def BundleDir.reset : BundleDir :=
  { state := .unwired, spares := List.replicate 4 .free, failed := [], dropped := none, physPort := 0, inlineChecks := 0,
    crcFailures := 0, recentFails := 0, checking := false, phase := [], tempRetired := false, kept := false, block := [],
    link := LinkEnd.reset }

/-- Ageing state with no history (R473–R476); guard bands as fused (R475). -/
def Ageing.reset (die : Nat) : Ageing :=
  { baseline := none, value := 0, guard := Config.guardStart die, points := [], hoursLeft := none }

/-- Thermal state of a tile before its first sample (Table 16-6, Reset column: issue ceiling 64/64, no reading). -/
def TileThermal.reset : TileThermal :=
  { history := [], rangeCount := List.replicate 8 0, medianCount := List.replicate 8 0,
    broken := List.replicate 8 false, gddrTemp := 0, xUsed := 0, ceiling := 64, issueRate := 64 }

/-- Tile site n at reset (Tables 2-7–2-10, 9-9). -/
def Tile.reset (n : Nat) : Tile :=
  { state := .notReported, inReset := true, clockLost := false, idValid := false, reported := none, mirror := false, rotation := 0, row := 0, col := 0,
    setupDone := false, settingUp := false, sampling := none, logical := [], rotating := false, retiredCells := [],
    leavingCells := [], katFailed := false, sweeps := 0, sweepPos := 0, katPassed := false, role := .none, nextRole := none, draining := false,
    drainAbandoned := false, retiring := false, changedLastPlan := false, seqRange := [], ran := [], memInService := false,
    memFailed := false, failedDevice := 0, training := false, retiredGroups := [], stopped := [],
    bundles := List.replicate 16 BundleDir.reset, thermal := TileThermal.reset, ageing := Ageing.reset n }

/-- A ring of an engine at reset (Table 13-8). -/
def OeRingRec.reset : OeRingRec :=
  { state := .parked, toneOk := false, tone := none, toneCode := 0, ff := 0, lockPower := 0, tries := 0, slot := 0x3F, heater := 0, lastLock := 0,
    fromLast := false, points := [] }

/-- A laser input at reset (Table 13-7): OFF, full attenuation, no reading (0x8000 as a signed field). -/
def LaserInput.reset : LaserInput :=
  { mode := .off, excursion := false, openFibre := false, atten := 0xFF, setting := 0, power := -32768, ramp := false, retired := false }

/-- A direction of an optical link at reset: width code 0, rate code 0 (Table 13-6), default slot map (R379). -/
def Direction.reset : Direction :=
  { width := 32, rate := 0, slotRing := (List.range 32).map (fun k => 18 * (k / 16) + k % 16), paused := [], frame := 0, maps := [],
    change := none, deferred := [], scrambler := List.replicate 36 0, lastBit := List.replicate 36 false,
    markerHits := List.replicate 36 0, crcHits := List.replicate 36 0, markerMiss := List.replicate 36 0,
    frameLock := List.replicate 36 false, frozen := false, spared := false, tbDue := [], unfit := [],
    counters := List.replicate 36 65535, switched := [] }

/-- No request for a tap yet. -/
def Adapt.start : Adapt := { lastUp := none, alternations := 0, converged := false }

/-- Equaliser state of one ring: pre 2, post 6 (R420, R422). -/
def Ffe.reset : Ffe :=
  { pre := 2, post := 6, partnerPre := 2, partnerPost := 6, atLimit := false, saved := [],
    preAdapt := Adapt.start, postAdapt := Adapt.start }

/-- Bring-up before step 1 (R425). -/
def BringUp.reset : BringUp :=
  { step := 0, attempt := 0, selfDone := false, partnerDone := false, wait := none, partner := none, passing := [], rxSet := false, txSet := false }

/-- Engine e at reset (Tables 13-6–13-8, 15-11). -/
def Engine.reset (e : Nat) : Engine :=
  { state := .down, started := false, inReset := true, clockLost := false, elsPresent := false, lasers := List.replicate 2 LaserInput.reset,
    rings := List.replicate 72 OeRingRec.reset, tx := Direction.reset, rx := Direction.reset, txWords := [], rxWords := [],
    rxFlits := [], txFrames := [], ffe := List.replicate 36 Ffe.reset, bringUp := BringUp.reset,
    bundles := List.replicate 3 BundleDir.reset, link := LinkEnd.reset, buckets := [], slotFailed := [], positions := 0,
    maxReplays := 0, linkDowns := 0, powerEstimate := 0, restoring := false, sensorHistory := [],
    sensorRange := List.replicate 4 0, sensorMedian := List.replicate 4 0,
    sensorBroken := List.replicate 4 false, ageing := Ageing.reset (128 + e), marginBusy := false }

/-- A ring at reset (Tables 10-5–10-8): size_log2 4, everything else 0, DISABLED. -/
def Ring.reset : Ring :=
  { sqBase := 0, cqBase := 0, enable := false, weight := 0, sizeLog2 := 4, aliveInit := 0, irqEnable := false, vector := 0,
    coalesceCount := 0, coalesceDelay := 0, state := .disabled, errorCause := 0, aliveExpected := 0, sqHead := 0, sqTail := 0,
    cqTail := 0, cqHead := 0, inFlight := 0, lap := true, phase := true, unsignalled := 0, irqArmed := true, liveEnable := false, liveVector := 0,
    liveDelay := 0 }

/-- The host link at reset: BAR4 1 GiB (Table 10-2), every aperture unbound (Table 11-4), PCIe capability registers at their
PCIe reset values (Bus Master Enable 0, D0, link down, MSI-X Enable 0, AER off and clear); width and rate are the full ones until the link trains. -/
def HostLink.reset : HostLink :=
  { rings := List.replicate 256 Ring.reset, busMaster := false, d3hot := false, linkUp := false, trained := false, width := 16, rate := 6,
    bar4Log2 := 30, apertures := List.replicate 16 ⟨0, 0⟩, msixEnable := false, aerReport := ⟨false, false, false⟩, aerStatus := ⟨false, false, false⟩, vectorMask := List.range 2048, functionMask := false, pendingBits := [],
    msixTable := [], posted := [], held := [], readData := [], acceptSeq := 0, nextCid := 0, lastRing := 255, turnLeft := 0, cmds := [],
    forcing := none }

/-- A CXL port at reset (Table 9-10). -/
def CxlPort.reset : CxlPort :=
  { present := false, linkUp := false, state := .empty, rate := 0, width := 0, surpriseRemoved := false, capacity := 0, mapped := 0,
    discovering := false, slotPower := false, powerBlink := false, attention := false, bad := [], waiting := false, planned := false,
    resetOut := true }

/-- An empty model slot. -/
def Model.reset : Model :=
  { gen := 1, state := .empty, current := 0, retained := 0, staged := false, cxlCopySource := false, weightsAddr := 0,
    manifestCrc := 0, layers := [], prefillGraph := none, decodeGraph := none, shards := [], prefetched := [], lastSpilled := none, staging := [] }

/-- Role bounds of R200 by default: a minimum of 1 and a maximum of 56. -/
def Bounds.reset : Bounds := { minM := 1, maxM := 56, minD := 1, maxD := 56, minC := 1, maxC := 56 }

/-- The Cellarer before its first plan (R193). -/
def Cellarer.reset : Cellarer :=
  { moduleRole := .none, newRole := none, plan := 0, lastChange := 0, prevTargets := none, bounds := Bounds.reset, boundsSet := false,
    boundsNew := false, freeze := false, hintsClipped := false, wMash := 0, wDraught := 0, kvRate := 0, loads := ⟨List.replicate 8 0, [], [], [], []⟩, kvRead := 0, plansMade := 0, modelLoaded := false, planModule := [], planSessions := [], planModels := [],
    ratio := none, units := [], nextUnit := 0, blocks := [], nextBlock := 0, sealCount := 0, moves := [], nextMove := 0,
    kvShare := 0, heldLeases := [], streamed := [] }

/-- A stream check unit at reset (Table 20-2: SCU_CTRL 0x20). -/
def Scu.reset : Scu :=
  { enable := false, configError := false, tap := 0, site := 0, refin := false, refout := false, fixed := false,
    captureExceptions := false, eventMask := 0, compare := false, aliveEnable := false, width := 0x20, frame := 0, poly := 0, init := 0,
    xorout := 0, expect := 0, aliveReg := 0, overrun := false, dropped := 0, fifo := [], info := 0, records := 0, mismatches := 0,
    repeats := 0, skips := 0, aliveV := none, partialBytes := [] }

/-- The fault collector at reset (Tables 17-6a–17-6e). -/
def Faults.reset : Faults :=
  { sticky := [], firstSource := 0xFFFF, firstSeverity := 0, firstValid := false, firstInjected := false, merged := 0, firstTime := 0,
    firstCycle := 0, highest := 0, open_ := [], recoveries := [], inject := [], coresRetired := [],
    stRun := 0, stFailed := 0, stFirst := 0xFFFF }

/-- Module memory after power-on: nothing listed. -/
def MemSys.reset : MemSys :=
  { cells := [], poison := [], groupErrors := [], corrected := [], scrubNext := [], scrubBad := [], tempGroups := [], trainedOnce := [], handles := [], handleGen := [],
    scrubStart := [], checkCache := [], refreshed := [], deviceTemp := [], recentred := [], retraining := [], heldAccesses := [] }

/-- The transaction layer at reset (R449–R454); every route entry at the Reset column of Table 15-10. -/
def Trans.reset : Trans :=
  { requests := [], waiting := [], slotGen := [], cache := [], routes := [], leases := [], keepalives := [], sentMessages := [], meshTable := 0,
    tables := [{ number := 0, out := [], cut := [], idle := List.range 8 }], flights := [], arrived := [], discarded := 0, joins := [] }

/-- Module thermal state at reset (Tables 16-8, 11-4: THROTTLE_START 95, POWER_CAP the class maximum, c_p 64/64). -/
def Thermal.reset : Thermal :=
  { throttleStart := 95, powerCap := 0, cP := 64, fastLimit := false, telemetryFault := false, inputPower := 0, hubHistory := [],
    hubRange := List.replicate 8 0, hubMedian := List.replicate 8 0, hubBroken := List.replicate 8 false,
    hubAgeing := Ageing.reset 64 }

/-- The settings header and body of the factory values (Tables 18-2, 18-3) with the CRC given by the caller. -/
def factoryImageHead (crc : List Byte) : List Byte :=
  [0x51, 0x4C, 0x53, 0x54, 1, 0, 64, 0, 0x04, 0x0C, 0, 0, 1, 0, 0, 0, 0, 0, 0, 0, 0x00, 0x01, 0, 0] ++ List.replicate 36 0 ++ crc
  ++ [1, 0, 0, 4, 0xFF, 0xFF, 95, 0, 0x02, 0x10, 0x80, 0x04, 0x20, 0x01, 0x08, 0x40, 0, 0, 0, 0x80, 1, 0, 0, 0, 0, 0]
  ++ List.replicate 6 0 ++ List.replicate 24 0x1F ++ List.replicate 8 0 ++ List.replicate 32 0xFF ++ List.replicate 4 0
  ++ List.replicate 68 0 ++ List.replicate 24 0

/-- A flash as it leaves the factory: the factory image in slot 0 (its signature is the constant of log 6), slot 1 erased
(log 13), nothing recorded (R22). -/
def Flash.reset : Flash :=
  { slots := [factoryImageHead (Config.factoryCrc) ++ Config.factorySignature, []], board := Config.boardSection, entries := [],
    ring := [], failed := false, queue := [], errors := 0, paused := false }

/-- Retained domain at its first power (log 3): counters 0, no record. -/
def Retained.reset : Retained :=
  { powered := true, opTime := 0, cycles := 0, openRec := none, openAt := 0, ring := [], copies := [], mirrorCopies := [],
    genHigh := [], faultList := [], tripKind := .none, tripSource := 0, tripReading := 0, tripTimes := [], tripped := false,
    clockStop := none, tripPending := false, opTimeAtReset := 0, coolSince := none }

/-- The module right after reset: standby power and REFCLK present, power-good not yet asserted, every register at its Reset
column (R13), the pins as Table 21-2 leaves them. Values the manual does not give are in logs 3, 6 and 13. -/
def State.reset : State :=
  { pending := [],
    pins := { refclk := true, perst := false, pwrgd := false, input := true, tripOut := false, readyOut := false, alertOut := false,
              regulators := false },
    ret := Retained.reset,
    boot := { ready := false, fwUp := false, settingsValid := false, stopped := false, step := 0, cause := 0, mask := 0,
              lastKind := .cold, readyMs := 0, inProgress := none, barReadable := false, down := false, hot := false, everReset := false },
    settings := none, boardOk := false, flashA := Flash.reset, flashB := Flash.reset,
    log := { active := 0, next := 0, refused := false, queued := [], held := [], mirrored := [], marked := [], dropped := [0, 0, 0, 0] },
    sec := { keyOk := false, cryptoOk := false, ownerKey := [], signerKey := [], reservedHigh := 0, nextIndex := 0, batchLeft := 0,
             reservationPending := false },
    flt := Faults.reset, svc := [],
    tiles := (List.range 64).map Tile.reset, hubBundles := List.replicate 16 BundleDir.reset,
    engines := (List.range 24).map Engine.reset,
    els := List.replicate 6 { present := false, matched := false, modes := List.replicate 8 .off, failed := [] },
    th := Thermal.reset, cel := Cellarer.reset, host := HostLink.reset, mem := MemSys.reset,
    cxl := List.replicate 4 CxlPort.reset, models := List.replicate 64 Model.reset, sessions := [], sessionGen := [], migs := [],
    graphs := [], graphGen := [], kernels := [], kernelGen := [], runs := [], launches := [], trans := Trans.reset,
    scu := List.replicate 16 Scu.reset,
    sb := { ident := none, status := none, thermal := none, service := none, hubRunning := false, reply := none }, free := 0 }

end Sys2Proof.Machine
end

