-- ==== Sys2Proof/Machine/Bytes.lean ====
section
/-! DEFINITION. Bytes: little-endian fields (R7), check codes, the sparse byte store in its canonical form. -/
namespace Sys2Proof.Machine

/-! ## Fields -/

/-- The number that bytes spell, little-endian (R7). -/
def leNat : List Byte → Nat
  | [] => 0
  | b :: t => b.toNat + 256 * leNat t

/-- n bytes of a number, little-endian (R7). -/
def leBytes : Nat → Nat → List Byte
  | 0, _ => []
  | n + 1, v => BitVec.ofNat 8 v :: leBytes n (v / 256)

/-- The n bytes from offset off; a byte beyond the list counts as absent. -/
def slice (off n : Nat) (l : List Byte) : List Byte := (l.drop off).take n

/-- The field of n bytes at offset off. -/
def field (off n : Nat) (l : List Byte) : Nat := leNat (slice off n l)

/-- Whether every byte from offset off, n of them, is zero (R14). -/
def zeroes (off n : Nat) (l : List Byte) : Bool := (slice off n l).all (· == 0)

/-- l with the bytes v written over it from offset off. -/
def overlay (off : Nat) (v l : List Byte) : List Byte := l.take off ++ v ++ l.drop (off + v.length)

/-- Bit k of a number. -/
def bit (k v : Nat) : Bool := v.testBit k

/-- Bits hi..lo of a number (R8). -/
def bits (hi lo v : Nat) : Nat := (v >>> lo) % 2 ^ (hi - lo + 1)

/-- 1 or 0. -/
def bnat (b : Bool) : Nat := if b then 1 else 0

/-- A two's complement number of w bits. -/
def toSigned (w v : Nat) : Int := if v < 2 ^ (w - 1) then (v : Int) else (v : Int) - (2 ^ w : Nat)

/-- The w low bits of an integer. -/
def ofSigned (w : Nat) (v : Int) : Nat := (v % ((2 ^ w : Nat) : Int)).toNat

/-- Saturating count. -/
def satAdd (a b top : Nat) : Nat := Nat.min (a + b) top

/-- The multiple of u that is not below v. -/
def roundUp (v u : Nat) : Nat := (v + u - 1) / u * u

/-! ## Lists -/

/-- l without the elements that satisfy p. -/
def without {α : Type} (p : α → Bool) (l : List α) : List α := l.filter (fun x => !p x)

/-- l with the element at n replaced by what f makes of it. -/
def modAt {α : Type} : List α → Nat → (α → α) → List α
  | [], _, _ => []
  | x :: t, 0, f => f x :: t
  | x :: t, n + 1, f => x :: modAt t n f

/-- l with v at position n. -/
def setAt {α : Type} (l : List α) (n : Nat) (v : α) : List α := modAt l n (fun _ => v)

/-- The value of a key in a list of pairs. -/
def lookupKey {α : Type} (k : Nat) : List (Nat × α) → Option α
  | [] => none
  | (a, v) :: t => if a = k then some v else lookupKey k t

/-- A list of pairs with one key set. -/
def setKey {α : Type} (k : Nat) (v : α) (l : List (Nat × α)) : List (Nat × α) := (k, v) :: without (fun p => p.1 == k) l

/-- l with x added unless it is there. -/
def addOnce {α : Type} [DecidableEq α] (x : α) (l : List α) : List α := if x ∈ l then l else l ++ [x]

/-- The least element. -/
def least (l : List Nat) : Option Nat := l.foldl (fun m x => match m with | none => some x | some y => some (Nat.min x y)) none

/-- The greatest element. -/
def greatest (l : List Nat) : Option Nat := l.foldl (fun m x => match m with | none => some x | some y => some (Nat.max x y)) none

/-- Sum of a list. -/
def total (l : List Nat) : Nat := l.foldl (· + ·) 0

/-- Insert x before the first element that lt puts after it: a stable place. -/
def insertBy {α : Type} (lt : α → α → Bool) (x : α) : List α → List α
  | [] => [x]
  | y :: t => if lt x y then x :: y :: t else y :: insertBy lt x t

/-- Stable sort by insertion. -/
def sortBy {α : Type} (lt : α → α → Bool) (l : List α) : List α := l.foldl (fun acc x => insertBy lt x acc) []

/-! ## Check codes -/

/-- One bit of a reflected CRC-32C (Castagnoli). -/
def crc32cBit (r : Nat) : Nat := if r % 2 = 1 then (r / 2) ^^^ 0x82F63B78 else r / 2

/-- One byte of a reflected CRC-32C. -/
def crc32cByte (r : Nat) (b : Byte) : Nat :=
  crc32cBit (crc32cBit (crc32cBit (crc32cBit (crc32cBit (crc32cBit (crc32cBit (crc32cBit (r ^^^ b.toNat))))))))

/-- CRC-32C over bytes: initial value and final inversion all ones (the parameters of the name, log 14). -/
def crc32c (l : List Byte) : Nat := (l.foldl crc32cByte 0xFFFFFFFF) ^^^ 0xFFFFFFFF

/-- One bit of the CRC-16 of Table 18-4. -/
def crc16Bit (r : Nat) : Nat := if r ≥ 0x8000 then ((2 * r) % 0x10000) ^^^ 0x1021 else 2 * r

/-- One byte of it. -/
def crc16Byte (r : Nat) (b : Byte) : Nat :=
  crc16Bit (crc16Bit (crc16Bit (crc16Bit (crc16Bit (crc16Bit (crc16Bit (crc16Bit (r ^^^ (b.toNat * 256)))))))))

/-- CRC-16, polynomial 0x1021, initial value 0xFFFF, not reflected, no final XOR (Table 18-4). -/
def crc16 (l : List Byte) : Nat := l.foldl crc16Byte 0xFFFF

/-! ## Sparse bytes -/

/-- A byte store: the listed bytes, addresses rising, no listed zero; an unlisted address reads 0 (log 1). -/
abbrev ByteMap := List Host.Cell

/-- The byte at an address. -/
def readByte : ByteMap → Nat → Byte
  | [], _ => 0
  | (a, v) :: t, x => if a = x then v else readByte t x

/-- The store with one byte written; a zero removes the entry. -/
def writeByte : ByteMap → Nat → Byte → ByteMap
  | [], x, v => if v = 0 then [] else [(x, v)]
  | (a, w) :: t, x, v =>
    if x < a then (if v = 0 then (a, w) :: t else (x, v) :: (a, w) :: t)
    else if x = a then (if v = 0 then t else (a, v) :: t)
    else (a, w) :: writeByte t x v

/-- n bytes from an address. -/
def readBytes (m : ByteMap) : Nat → Nat → List Byte
  | _, 0 => []
  | a, n + 1 => readByte m a :: readBytes m (a + 1) n

/-- The store with bytes written from an address. -/
def writeBytes (m : ByteMap) : Nat → List Byte → ByteMap
  | _, [] => m
  | a, b :: t => writeBytes (writeByte m a b) (a + 1) t

/-- The store with n bytes from an address cleared to zero. -/
def clearRange (m : ByteMap) (a n : Nat) : ByteMap := m.filter (fun c => !(a ≤ c.1 && c.1 < a + n))

/-- The canonical form: every address above the one given, rising, and no listed zero. -/
def ByteMap.above : Nat → ByteMap → Bool
  | _, [] => true
  | lo, (a, v) :: t => decide (lo ≤ a) && v != 0 && ByteMap.above (a + 1) t

/-- The canonical form of a byte store. -/
def Memory.wf (m : ByteMap) : Bool := ByteMap.above 0 m

/-- The element of a list that is first under an order; ties keep the earlier element. -/
def pickBy {α : Type} (lt : α → α → Bool) : List α → Option α
  | [] => none
  | x :: t => match pickBy lt t with
    | none => some x
    | some y => if lt y x then some y else some x

end Sys2Proof.Machine
end

