-- ==== Sys2Proof/Machine/Formats.lean ====
section
/-! DEFINITION. Number formats, conversion and rounding (Chapter 3). -/
namespace Sys2Proof.Machine

/-! ## Values -/

/-- An exact value: NaN, an infinity, or (−1)^neg · m · 2^e. -/
inductive Num where
  | nan
  | inf (neg : Bool)
  | fin (neg : Bool) (m : Nat) (e : Int)
  deriving DecidableEq, Repr

/-- Positive zero. -/
def Num.zero : Num := .fin false 0 0

/-- Whether a value is a zero of either sign. -/
def Num.isZero : Num → Bool | .fin _ m _ => m == 0 | _ => false

/-- The sign of a value. -/
def Num.neg : Num → Bool | .fin n _ _ => n | .inf n => n | .nan => false

/-- The value with its sign turned. -/
def Num.opp : Num → Num | .fin n m e => .fin (!n) m e | .inf n => .inf (!n) | .nan => .nan

/-- The magnitude of a value. -/
def Num.mag : Num → Num | .fin _ m e => .fin false m e | .inf _ => .inf false | .nan => .nan

/-! ## Element formats (Tables 3-1, 3-2, 3-3) -/

/-- How the top exponent of a floating-point format is used: IEEE specials, one NaN code (E4M3), or nothing. -/
inductive Specials where
  | ieee | nanOnly | none
  deriving DecidableEq, Repr

/-- A floating-point format: exponent bits, mantissa bits, bias. -/
structure FloatFmt where
  ebits : Nat
  mbits : Nat
  bias : Nat
  spec : Specials
  deriving DecidableEq, Repr

/-- A format of Table 3-1: plain, a block of floats, or a block of integers (width, weight exponent). -/
inductive Fmt where
  | plain (f : FloatFmt)
  | blockF (f : FloatFmt)
  | blockI (width : Nat) (q : Int)
  deriving DecidableEq, Repr

/-- FP32. -/
def fp32 : FloatFmt := ⟨8, 23, 127, .ieee⟩
/-- BF16. -/
def bf16 : FloatFmt := ⟨8, 7, 127, .ieee⟩
/-- FP16. -/
def fp16 : FloatFmt := ⟨5, 10, 15, .ieee⟩
/-- E4M3. -/
def e4m3 : FloatFmt := ⟨4, 3, 7, .nanOnly⟩
/-- E5M2. -/
def e5m2 : FloatFmt := ⟨5, 2, 15, .ieee⟩
/-- E3M2. -/
def e3m2 : FloatFmt := ⟨3, 2, 3, .none⟩
/-- E2M3. -/
def e2m3 : FloatFmt := ⟨2, 3, 1, .none⟩
/-- E2M1. -/
def e2m1 : FloatFmt := ⟨2, 1, 1, .none⟩

/-- The format of a code (Table 3-1). -/
def fmtOf : Nat → Option Fmt
  | 0 => some (.plain fp32) | 1 => some (.plain bf16) | 2 => some (.plain fp16)
  | 3 => some (.blockF e4m3) | 4 => some (.blockF e5m2) | 5 => some (.blockF e3m2) | 6 => some (.blockF e2m3) | 7 => some (.blockF e2m1)
  | 8 => some (.blockI 8 (-6)) | 9 => some (.blockI 4 0) | _ => none

/-- Whether a code is a block format. -/
def isBlock (code : Nat) : Bool := decide (3 ≤ code) && decide (code ≤ 9)

/-- Bits of one element of a code. -/
def elemBits : Nat → Nat
  | 0 => 32 | 1 => 16 | 2 => 16 | 3 => 8 | 4 => 8 | 5 => 6 | 6 => 6 | 7 => 4 | 8 => 8 | 9 => 4 | _ => 0

/-- The value of a floating-point code (R73, R76, Table 3-3); −0 is a zero that keeps its sign (R87; log 55). -/
def decodeFloat (f : FloatFmt) (c : Nat) : Num :=
  let neg := c.testBit (f.ebits + f.mbits)
  let ex := (c >>> f.mbits) % 2 ^ f.ebits
  let m := c % 2 ^ f.mbits
  let top := 2 ^ f.ebits - 1
  let value : Num :=
    if ex = 0 then .fin neg m (1 - (f.bias : Int) - f.mbits)
    else .fin neg (2 ^ f.mbits + m) ((ex : Int) - f.bias - f.mbits)
  match f.spec with
  | .ieee => if ex = top then (if m = 0 then .inf neg else .nan) else value
  | .nanOnly => if ex = top ∧ m = 2 ^ f.mbits - 1 then .nan else value
  | .none => value

/-- The largest finite magnitude code of a format. -/
def maxCode (f : FloatFmt) : Nat :=
  match f.spec with
  | .ieee => (2 ^ f.ebits - 1) * 2 ^ f.mbits - 1
  | .nanOnly => 2 ^ (f.ebits + f.mbits) - 2
  | .none => 2 ^ (f.ebits + f.mbits) - 1

/-- The infinity code of an IEEE format. -/
def infCode (f : FloatFmt) : Nat := (2 ^ f.ebits - 1) * 2 ^ f.mbits

/-- The canonical NaN code of a format that has one (R76). -/
def nanCode (f : FloatFmt) : Nat :=
  match f.spec with
  | .ieee => infCode f + 2 ^ (f.mbits - 1)
  | _ => 2 ^ (f.ebits + f.mbits) - 1

/-- The sign bit of a format. -/
def signCode (f : FloatFmt) (neg : Bool) : Nat := if neg then 2 ^ (f.ebits + f.mbits) else 0

/-! ## Rounding (R81, R82, R86, R92) -/

/-- Rounding modes of Table 3-6. -/
inductive Rounding where
  | rne | rtz | rdn | rup | sr
  deriving DecidableEq, Repr

/-- A conversion control byte (Table 3-5). -/
structure Conv where
  round : Rounding
  satFinite : Bool
  noclip : Bool
  deriving DecidableEq, Repr

/-- The meaning of a conv byte; none when a field is reserved. -/
def convOf (c : Nat) : Option Conv :=
  let mode : Option Rounding := match c % 8 with
    | 0 => some .rne | 1 => some .rtz | 2 => some .rdn | 3 => some .rup | 4 => some .sr | _ => none
  if c < 32 then mode.map (fun r => ⟨r, c.testBit 3, c.testBit 4⟩) else none

/-- conv 0x00. -/
def conv0 : Conv := ⟨.rne, false, false⟩

/-- Whether a magnitude with a remainder goes up: rem / 2^d of a unit above q, with the random bits r for SR (R92). -/
def roundsUp (mode : Rounding) (neg : Bool) (q rem d r : Nat) : Bool :=
  match mode with
  | .rne => decide (2 ^ d < 2 * rem) || (decide (2 * rem = 2 ^ d) && q % 2 == 1)
  | .rtz => false
  | .rdn => neg && rem != 0
  | .rup => !neg && rem != 0
  | .sr => decide (2 ^ 16 ≤ r + rem * 2 ^ 16 / 2 ^ d)

/-- m · 2^e in units of 2^u, rounded. -/
def roundUnits (mode : Rounding) (neg : Bool) (m : Nat) (e u : Int) (r : Nat) : Nat :=
  if u ≤ e then m * 2 ^ (e - u).toNat
  else
    let d := (u - e).toNat
    let q := m / 2 ^ d
    if roundsUp mode neg q (m % 2 ^ d) d r then q + 1 else q

/-- The magnitude code of m · 2^e in a format with its exponent field unbounded above. -/
def roundCode (f : FloatFmt) (mode : Rounding) (neg : Bool) (m : Nat) (e : Int) (r : Nat) : Nat :=
  if m = 0 then 0
  else
    let emin : Int := 1 - f.bias
    let u := max (e + Nat.log2 m) emin - f.mbits
    let q := roundUnits mode neg m e u r
    ((u + f.mbits - emin).toNat) * 2 ^ f.mbits + q

/-- Whether an overflow is written as the largest finite value (R85, R86). -/
def clips (c : Conv) (neg : Bool) : Bool :=
  c.satFinite || match c.round with | .rtz => true | .rdn => !neg | .rup => neg | _ => false

/-- What an overflow or an infinity gives in a floating-point element: none stands for a block NaN (Table 3-7). -/
def specialCode (f : FloatFmt) (neg : Bool) : Option Nat :=
  match f.spec with
  | .ieee => some (signCode f neg + infCode f)
  | .nanOnly => some (nanCode f)
  | .none => none

/-- Conversion of a value to a floating-point code; none makes the whole block NaN (R82–R87). -/
def encodeFloat (f : FloatFmt) (c : Conv) (x : Num) (r : Nat) : Option Nat :=
  match x with
  | .nan => match f.spec with | .none => none | _ => some (nanCode f)
  | .inf neg => if c.satFinite then some (signCode f neg + maxCode f) else specialCode f neg
  | .fin neg m e =>
    let k := roundCode f c.round neg m e r
    if k ≤ maxCode f then some (signCode f neg + k)
    else if clips c neg || f.spec = .none then some (signCode f neg + maxCode f)
    else specialCode f neg

/-- Conversion of a value to an integer element of weight 2^q (R80, R85). -/
def encodeInt (width : Nat) (q : Int) (c : Conv) (x : Num) (r : Nat) : Option Nat :=
  let top := 2 ^ (width - 1) - 1
  let put (neg : Bool) (k : Nat) : Nat := if neg then (2 ^ width - k) % 2 ^ width else k
  match x with
  | .nan => none
  | .inf neg => if c.satFinite then some (put neg top) else none
  | .fin neg m e => some (put neg (Nat.min (roundUnits c.round neg m e q r) top))

/-- A value as an FP32 code under a conv byte. -/
def toFp32 (c : Conv) (x : Num) : Nat := (encodeFloat fp32 c x 0).getD 0

/-- A value as a code of a plain format. -/
def toPlain (f : FloatFmt) (c : Conv) (x : Num) (r : Nat) : Nat := (encodeFloat f c x r).getD 0

/-! ## Blocks (R77–R80, R84, R93) -/

/-- The element value of an element code, its scale left out. -/
def elemNum (code c : Nat) : Num :=
  match fmtOf code with
  | some (.plain f) => decodeFloat f c
  | some (.blockF f) => decodeFloat f c
  | some (.blockI w q) => let v := toSigned w c; .fin (decide (v < 0)) v.natAbs q
  | none => .nan

/-- The weight exponent of the least significant bit of a block format's elements (Table 4-1). -/
def elemWeight (code : Nat) : Int :=
  match fmtOf code with
  | some (.blockF f) => 1 - (f.bias : Int) - f.mbits
  | some (.blockI _ q) => q
  | _ => 0

/-- A block element under its scale code (R77). -/
def scaled (scale : Nat) (x : Num) : Num :=
  if scale = 0xFF then .nan
  else match x with
    | .fin n m e => .fin n m (e + scale - 127)
    | y => y

/-- floor(log2 M) of a magnitude. -/
def ilog (m : Nat) (e : Int) : Int := e + Nat.log2 m

/-- Comparison of magnitudes m · 2^e. -/
def magLt (a b : Nat × Int) : Bool :=
  let low := min a.2 b.2
  decide (a.1 * 2 ^ (a.2 - low).toNat < b.1 * 2 ^ (b.2 - low).toNat)

/-- The largest finite source magnitude of a block; none when there is none or it is zero. -/
def blockMax (l : List Num) : Option (Nat × Int) :=
  l.foldl (fun acc x => match x with
    | .fin _ 0 _ => acc
    | .fin _ m e => (match acc with | none => some (m, e) | some y => if magLt y (m, e) then some (m, e) else some y)
    | _ => acc) none

/-- emax of a block format (R84). -/
def emaxOf : Fmt → Int
  | .blockF f => match f.spec with
    | .ieee => (2 ^ f.ebits - 2 : Nat) - (f.bias : Int)
    | _ => (2 ^ f.ebits - 1 : Nat) - (f.bias : Int)
  | .blockI w _ => if w = 8 then 0 else 2
  | .plain _ => 0

/-- Whether M / 2^E rounds above the largest finite magnitude of a block format (R84, SCALE_NOCLIP). M is a magnitude, rounded as a positive value in every
mode, so under RDN a negative largest element may still clip (DESIGN CHOICE, log 73). -/
def wouldClip (f : Fmt) (mode : Rounding) (m : Nat) (e : Int) : Bool :=
  let mode' := if mode = .sr then .rup else mode
  match f with
  | .blockF g => decide (maxCode g < roundCode g mode' false m e 0)
  | .blockI w q => decide (2 ^ (w - 1) - 1 < roundUnits mode' false m e q 0)
  | .plain _ => false

/-- The scale code of a block; 0xFF for a block NaN (R84, which R86 contradicts: log 43). -/
def chooseScale (f : Fmt) (c : Conv) (l : List Num) : Nat :=
  let e0 : Int := match blockMax l with
    | none => 0
    | some (m, e) =>
      let x := ilog m e - emaxOf f
      if c.noclip && wouldClip f c.round m (e - x) then x + 1 else x
  let e1 := max e0 (-127)
  if 127 < e1 then (if c.satFinite then 254 else 0xFF) else (e1 + 127).toNat

/-- A value divided by a scale factor. -/
def unscale (scale : Nat) (x : Num) : Num :=
  match x with
  | .fin n m e => .fin n m (e - (scale : Int) + 127)
  | y => y

/-- One element of a block destination; none makes the block NaN. -/
def encodeElem (f : Fmt) (c : Conv) (x : Num) (r : Nat) : Option Nat :=
  match f with
  | .plain g => encodeFloat g c x r
  | .blockF g => encodeFloat g c x r
  | .blockI w q => encodeInt w q c x r

/-- A list of options all present. -/
def allSome {α : Type} : List (Option α) → Option (List α)
  | [] => some []
  | none :: _ => none
  | some x :: t => (allSome t).map (x :: ·)

/-- A block of values, with their random bits, as scale code and element codes; padding is zero (R79, R84, R85, R93). -/
def encodeBlock (f : Fmt) (c : Conv) (l : List (Num × Nat)) : Nat × List Nat :=
  let s := chooseScale f c (l.map (·.1))
  let zeros := List.replicate 32 0
  if s = 0xFF then (0xFF, zeros)
  else match allSome (l.map (fun p => encodeElem f c (unscale s p.1) p.2)) with
    | some codes => (s, (codes ++ zeros).take 32)
    | none => (0xFF, zeros)

/-- Element codes of w bits packed from bit 0 up (R78). -/
def packElems (w : Nat) (l : List Nat) : List Byte :=
  leBytes ((w * l.length + 7) / 8) (l.foldr (fun c acc => acc * 2 ^ w + c) 0)

/-- Element k of a packed string. -/
def unpackElem (w k : Nat) (l : List Byte) : Nat := (leNat (slice (w * k / 8) 2 l) >>> (w * k % 8)) % 2 ^ w

/-! ## Stochastic rounding (R90, R91) -/

/-- One round of R91. -/
def srRound (k1 i v : Nat) : Nat :=
  let m := 2 ^ 64
  let v1 := (v + k1 + i * 0x9E3779B97F4A7C15) % m
  let v2 := ((v1 ^^^ (v1 >>> 30)) * 0xBF58476D1CE4E5B9) % m
  let v3 := ((v2 ^^^ (v2 >>> 27)) * 0x94D049BB133111EB) % m
  v3 ^^^ (v3 >>> 31)

/-- The generator of R91: the 16 random bits of an element. -/
def srBits (seed tensor inst index : Nat) : Nat :=
  let k1 := (tensor * 2 ^ 32 + inst) % 2 ^ 64
  srRound k1 3 (srRound k1 2 (srRound k1 1 (srRound k1 0 (index ^^^ seed)))) % 65536

end Sys2Proof.Machine
end

