-- ==== Sys2Proof/Machine/Exact.lean ====
section
/-! DEFINITION. The binned accumulator, its records and their merge (Chapter 4), and FP32 arithmetic rounded once (R75). -/
namespace Sys2Proof.Machine

/-! ## The accumulator (R101–R106) -/

/-- An accumulator that has received nothing. -/
def Acc.empty : Acc :=
  { top := none, bin0 := 0, bin1 := 0, bin2 := 0, bin3 := 0, res0 := 0, res1 := 0, res2 := 0, res3 := 0, count := 0, nan := false,
    posInf := false, negInf := false }

/-- An integer modulo 255. -/
def mod255 (v : Int) : Nat := (v % 255).toNat

/-- The window moved up to a top (R102): bins below it are discarded. -/
def Acc.raise (j : Nat) (a : Acc) : Acc :=
  match a.top with
  | none => { a with top := some j }
  | some t =>
    match j - t with
    | 0 => a
    | 1 => { a with top := some j, bin0 := 0, bin1 := a.bin0, bin2 := a.bin1, bin3 := a.bin2, res0 := 0, res1 := a.res0, res2 := a.res1,
                    res3 := a.res2 }
    | 2 => { a with top := some j, bin0 := 0, bin1 := 0, bin2 := a.bin0, bin3 := a.bin1, res0 := 0, res1 := 0, res2 := a.res0,
                    res3 := a.res1 }
    | 3 => { a with top := some j, bin0 := 0, bin1 := 0, bin2 := 0, bin3 := a.bin0, res0 := 0, res1 := 0, res2 := 0, res3 := a.res0 }
    | _ => { a with top := some j, bin0 := 0, bin1 := 0, bin2 := 0, bin3 := 0, res0 := 0, res1 := 0, res2 := 0, res3 := 0 }

/-- What a 64-bit signed bin holds of a sum (R101; log 58). -/
def wrap64 (v : Int) : Int := Int.bmod v (2 ^ 64)

/-- A signed piece added to bin T − d. -/
def Acc.addBin (d : Nat) (v : Int) (a : Acc) : Acc :=
  match d with
  | 0 => { a with bin0 := wrap64 (a.bin0 + v), res0 := mod255 (a.res0 + v) }
  | 1 => { a with bin1 := wrap64 (a.bin1 + v), res1 := mod255 (a.res1 + v) }
  | 2 => { a with bin2 := wrap64 (a.bin2 + v), res2 := mod255 (a.res2 + v) }
  | 3 => { a with bin3 := wrap64 (a.bin3 + v), res3 := mod255 (a.res3 + v) }
  | _ => a

/-- One piece of a contribution goes to bin j; below the window it is discarded (R102, R103). -/
def Acc.piece (j : Nat) (neg : Bool) (p : Nat) (a : Acc) : Acc :=
  if p = 0 then a
  else
    let a1 := match a.top with
      | none => a.raise j
      | some t => if t < j then a.raise j else a
    let t := a1.top.getD j
    a1.addBin (t - j) (if neg then -(p : Int) else p)

/-- The deposit of R102: P of magnitude m and sign neg at weight 2^e. -/
def Acc.deposit (neg : Bool) (m : Nat) (e : Int) (acc : Acc) : Acc :=
  if m = 0 then acc
  else
    let a := (e + 1088).toNat
    let j0 := a / 32
    let x := m * 2 ^ (a % 32)
    let a3 := acc.piece (j0 + 3) neg (bits 127 96 x)
    let a2 := a3.piece (j0 + 2) neg (bits 95 64 x)
    let a1 := a2.piece (j0 + 1) neg (bits 63 32 x)
    let a0 := a1.piece j0 neg (bits 31 0 x)
    { a0 with count := a0.count + 1 }

/-- The piece check of R102 and R115. -/
def pieceCheck (m : Nat) (e : Int) : Bool :=
  let s := (e + 1088).toNat % 32
  let x := m * 2 ^ s
  (bits 31 0 x + bits 63 32 x + bits 95 64 x + bits 127 96 x) % 255 == (m % 255) * 2 ^ (s % 8) % 255

/-- A special contribution sets its flag (R105). -/
def Acc.mark (x : Num) (a : Acc) : Acc :=
  match x with
  | .nan => { a with nan := true }
  | .inf false => { a with posInf := true }
  | .inf true => { a with negInf := true }
  | .fin _ _ _ => a

/-- A single value as a contribution (R100). -/
def Acc.add (x : Num) (a : Acc) : Acc :=
  match x with
  | .fin n m e => a.deposit n m e
  | y => a.mark y

/-- The accumulated value (R105, R106). -/
def Acc.value (a : Acc) : Num :=
  if a.nan || (a.posInf && a.negInf) then .nan
  else if a.posInf then .inf false
  else if a.negInf then .inf true
  else match a.top with
    | none => .zero
    | some t =>
      let v := ((a.bin0 * 2 ^ 32 + a.bin1) * 2 ^ 32 + a.bin2) * 2 ^ 32 + a.bin3
      if v = 0 then .zero else .fin (decide (v < 0)) v.natAbs (32 * ((t : Int) - 3) - 1088)

/-- Two residues added. -/
def addRes (a b : Nat) : Nat := (a + b) % 255

/-- The merge of R108. -/
def Acc.merge (a b : Acc) : Acc :=
  let flags (x : Acc) : Acc := { x with count := a.count + b.count, nan := a.nan || b.nan, posInf := a.posInf || b.posInf,
                                        negInf := a.negInf || b.negInf }
  match a.top, b.top with
  | none, _ => flags b
  | _, none => flags a
  | some s, some t =>
    let x := if s < t then a.raise t else a
    let y := if t < s then b.raise s else b
    flags { x with bin0 := wrap64 (x.bin0 + y.bin0), bin1 := wrap64 (x.bin1 + y.bin1), bin2 := wrap64 (x.bin2 + y.bin2),
                   bin3 := wrap64 (x.bin3 + y.bin3), res0 := addRes x.res0 y.res0, res1 := addRes x.res1 y.res1, res2 := addRes x.res2 y.res2, res3 := addRes x.res3 y.res3 }

/-- The contribution limit of R104. -/
def contribLimit : Nat := 2 ^ 30

/-! ## Records (Table 4-2, R109) -/

/-- The 48 bytes of a record. -/
def Acc.bytes (a : Acc) : List Byte :=
  let b (v : Int) : List Byte := leBytes 8 (ofSigned 64 v)
  b a.bin0 ++ b a.bin1 ++ b a.bin2 ++ b a.bin3 ++ leBytes 1 (a.top.getD 0xFF)
  ++ leBytes 1 (bnat a.nan + 2 * bnat a.posInf + 4 * bnat a.negInf) ++ leBytes 2 0 ++ leBytes 4 a.count
  ++ leBytes 1 a.res0 ++ leBytes 1 a.res1 ++ leBytes 1 a.res2 ++ leBytes 1 a.res3 ++ leBytes 4 0

/-- The record that 48 bytes hold. -/
def accOf (l : List Byte) : Acc :=
  let b (off : Nat) : Int := toSigned 64 (field off 8 l)
  let f := field 0x21 1 l
  { top := if field 0x20 1 l = 0xFF then none else some (field 0x20 1 l), bin0 := b 0, bin1 := b 8, bin2 := b 16, bin3 := b 24,
    res0 := field 0x28 1 l, res1 := field 0x29 1 l, res2 := field 0x2A 1 l, res3 := field 0x2B 1 l, count := field 0x24 4 l,
    nan := bit 0 f, posInf := bit 1 f, negInf := bit 2 f }

/-- Whether every bin agrees with its residue. -/
def Acc.residuesOk (a : Acc) : Bool :=
  mod255 a.bin0 == a.res0 && mod255 a.bin1 == a.res1 && mod255 a.bin2 == a.res2 && mod255 a.bin3 == a.res3

/-- The checks of R109 on a received record. -/
def recordOk (l : List Byte) : Bool :=
  let t := field 0x20 1 l
  l.length == 48 && decide (field 0x21 1 l < 8) && zeroes 0x22 2 l && zeroes 0x2C 4 l && (decide (t ≤ 66) || t == 0xFF)
  && (accOf l).residuesOk && (t != 0xFF || (zeroes 0 32 l && zeroes 0x28 4 l && zeroes 0x24 4 l))

/-! ## Products (R89, R98–R100) -/

/-- The product of two values; an infinity times zero is NaN (R89). -/
def Num.mul (a b : Num) : Num :=
  match a, b with
  | .nan, _ => .nan
  | _, .nan => .nan
  | .inf s, y => if y.isZero then .nan else .inf (s != y.neg)
  | x, .inf s => if x.isZero then .nan else .inf (s != x.neg)
  | .fin s m e, .fin t k f => .fin (s != t) (m * k) (e + f)

/-- The exact sum of two finite magnitudes with signs. -/
def addFin (s : Bool) (m : Nat) (e : Int) (t : Bool) (k : Nat) (f : Int) (zeroNeg : Bool) : Num :=
  let low := min e f
  let a : Int := m * 2 ^ (e - low).toNat
  let b : Int := k * 2 ^ (f - low).toNat
  let v := (if s then -a else a) + (if t then -b else b)
  if v = 0 then .fin zeroNeg 0 0 else .fin (decide (v < 0)) v.natAbs low

/-- The exact sum of two values; opposite infinities give NaN; a zero sum is −0 only of two −0. -/
def Num.add (a b : Num) : Num :=
  match a, b with
  | .nan, _ => .nan
  | _, .nan => .nan
  | .inf s, .inf t => if s = t then .inf s else .nan
  | .inf s, _ => .inf s
  | _, .inf t => .inf t
  | .fin s m e, .fin t k f => addFin s m e t k f (s && t && m == 0 && k == 0)

/-- A product in units of 2^q; a special one forms no integer (R100). -/
def productUnits (q : Int) : Num → Int
  | .fin n m f => let v : Int := m * 2 ^ (f - q).toNat; if n then -v else v
  | _ => 0

/-- One block of products of Exact mode (R99): both blocks' scale codes, and the elements of each without them; q is the weight exponent of
the products of their least significant bits. A special product sets its flag; the rest form one integer P of weight 2^e, which is deposited and counted
beside it (DESIGN CHOICE, log 75). -/
def Acc.blockProduct (q : Int) (sa sb : Nat) (xs : List (Num × Num)) (a : Acc) : Acc :=
  if sa = 0xFF ∨ sb = 0xFF then a.mark .nan
  else
    let ps := xs.map (fun p => p.1.mul p.2)
    let p := (ps.map (productUnits q)).foldl (· + ·) 0
    (ps.foldl (fun acc x => acc.mark x) a).deposit (decide (p < 0)) p.natAbs (q + sa + sb - 254)

/-! ## FP32 operations, each rounded once to nearest even (R75, R129) -/

/-- The value of an FP32 word. -/
def fval (w : Nat) : Num := decodeFloat fp32 w
/-- A value rounded to an FP32 word, RNE. -/
def fround (x : Num) : Nat := toFp32 conv0 x

/-- a + b. -/
def fadd (a b : Nat) : Nat := fround ((fval a).add (fval b))
/-- a − b. -/
def fsub (a b : Nat) : Nat := fround ((fval a).add (fval b).opp)
/-- a · b. -/
def fmul (a b : Nat) : Nat := fround ((fval a).mul (fval b))
/-- a · b + c, rounded once. -/
def ffma (a b c : Nat) : Nat := fround (((fval a).mul (fval b)).add (fval c))

/-- A quotient with enough bits and a sticky bit for one rounding. -/
def divFin (neg : Bool) (m : Nat) (e : Int) (k : Nat) (f : Int) : Num :=
  let sh : Nat := 160
  let q := m * 2 ^ sh / k
  let sticky := if m * 2 ^ sh % k = 0 then 0 else 1
  .fin neg (2 * q + sticky) (e - f - (sh : Int) - 1)

/-- a / b: x/0 is infinite, 0/0 and inf/inf are NaN. -/
def Num.div (a b : Num) : Num :=
  match a, b with
  | .nan, _ => .nan
  | _, .nan => .nan
  | .inf _, .inf _ => .nan
  | .inf s, y => .inf (s != y.neg)
  | x, .inf t => .fin (x.neg != t) 0 0
  | .fin s m e, .fin t k f =>
    if k = 0 then (if m = 0 then .nan else .inf (s != t)) else if m = 0 then .fin (s != t) 0 0 else divFin (s != t) m e k f

/-- a / b rounded. -/
def fdiv (a b : Nat) : Nat := fround ((fval a).div (fval b))

/-- The integer square root, by Newton's steps from above. -/
def isqrtIter : Nat → Nat → Nat → Nat
  | 0, _, x => x
  | fuel + 1, n, x => let y := (x + n / x) / 2; if y < x then isqrtIter fuel n y else x

/-- floor of the square root. -/
def isqrt (n : Nat) : Nat := if n = 0 then 0 else isqrtIter 600 n (2 ^ (Nat.log2 n / 2 + 1))

/-- A square root with enough bits and a sticky bit for one rounding. -/
def Num.sqrt (a : Num) : Num :=
  match a with
  | .nan => .nan
  | .inf s => if s then .nan else .inf false
  | .fin s m e =>
    if m = 0 then .fin s 0 0
    else if s then .nan
    else
      let odd := (e % 2).toNat
      let n := m * 2 ^ (odd + 200)
      let r := isqrt n
      let sticky := if r * r = n then 0 else 1
      .fin false (2 * r + sticky) ((e - odd - 200) / 2 - 1)

/-- √a rounded. -/
def fsqrt (a : Nat) : Nat := fround (fval a).sqrt

/-- Whether a < b as values; false with a NaN. -/
def Num.lt (a b : Num) : Bool :=
  match a, b with
  | .nan, _ => false
  | _, .nan => false
  | .inf s, .inf t => s && !t
  | .inf s, _ => s
  | _, .inf t => !t
  | .fin s m e, .fin t k f =>
    if m = 0 ∧ k = 0 then false
    else if s && m != 0 then (if t && k != 0 then magLt (k, f) (m, e) else true)
    else if t && k != 0 then false
    else magLt (m, e) (k, f)

/-- Whether a = b as values. -/
def Num.eqv (a b : Num) : Bool :=
  match a, b with
  | .nan, _ => false
  | _, .nan => false
  | x, y => !x.lt y && !y.lt x

end Sys2Proof.Machine
end

