-- ==== Sys2Proof/Machine/Results.lean ====
section
/-! DEFINITION. The command table, and what the completions of runs, steps and launches report (R148, R181, R230, R325, Tables 11-6, 11-7). -/
namespace Sys2Proof.Machine

/-! ## The command table -/

/-- The entry of a command. -/
def cmdAt (s : State) (cid : Nat) : Option Cmd := s.host.cmds.find? (fun c => c.cid == cid)

/-- A change of one entry. -/
def State.modCmd (cid : Nat) (f : Cmd → Cmd) (s : State) : State :=
  { s with host := { s.host with cmds := s.host.cmds.map (fun c => if c.cid = cid then f c else c) } }

/-- The entry with its end set, unless it has one; a mark made before decides (R352, R489). -/
def Cmd.finish (d : Done) (c : Cmd) : Cmd :=
  match c.done, c.marked with
  | some _, _ => c
  | none, some src => { c with done := some { d with status := .resultSuspect, source := src } }
  | none, none => { c with done := some d }

/-- A command ends (R303, R352). -/
def State.endCmd (cid : Nat) (d : Done) (s : State) : State := s.modCmd cid (Cmd.finish d)

/-- The 40 result bytes with fields (completion offset, size, value) set; every other byte zero (Table 10-11a). -/
def resultOf (fields : List (Nat × Nat × Nat)) : List Byte :=
  fields.foldl (fun l f => overlay (f.1 - 0x14) (leBytes f.2.1 f.2.2) l) (List.replicate 40 0)

/-- A command ends with a status and result fields. -/
def State.finishCmd (cid : Nat) (status : Status) (fields : List (Nat × Nat × Nat)) (s : State) : State :=
  s.endCmd cid { status, source := 0, result := resultOf fields, writes := [] }

/-- The lowest operation of a command's run with a unit on the tile that a source of the tile class names: the one that its mark names (R148; DESIGN
CHOICE, log 85). -/
def markOp (s : State) (src cid : Nat) : Option Nat :=
  least ((s.cel.units.filter (fun u => src / 4096 == 1 && u.cid == cid && u.site == some (src / 64 % 64) && s.runs.any (fun r => r.cid == cid))).map (·.op))

/-- Whether a mark decides the end of a command: not once a kernel error has stopped its launch, but for the mismatches of R109 and R116 (R181, R352), nor,
where it names no operation, once an operation of its run has failed (R148). -/
def markCounts (s : State) (src cid : Nat) : Bool :=
  !s.launches.any (fun l => l.cid == cid && l.error.isSome && !(src / 4096 == 1 && decide (2 ≤ src % 64) && decide (src % 64 ≤ 4)))
  && ((markOp s src cid).isSome || !s.runs.any (fun r => r.cid == cid && !r.opsFailed.isEmpty))

/-- A checker marks what a command consumes (R489); the first mark stays. -/
def State.markCmd (src cid : Nat) (s : State) : State :=
  s.modCmd cid (fun c => if c.marked.isSome || !markCounts s src cid then c else { c with marked := some src, markedOp := markOp s src cid })

/-- Every command still in the table without an end, by key. -/
def liveCmds (s : State) : List Nat := (s.host.cmds.filter (fun c => c.done.isNone)).map (·.cid)

/-- A descriptor field of a command's entry. -/
def Cmd.arg (c : Cmd) (off n : Nat) : Nat := field off n c.desc

/-- cflags bit k (R313). -/
def Cmd.flag (c : Cmd) (k : Nat) : Bool := bit k (c.arg 3 1)

/-- The opcode of a descriptor. -/
def Cmd.opcode (c : Cmd) : Nat := c.arg 0 1

/-- Whether a step reads host memory: it has bindings (R319). -/
def stepReads (c : Cmd) : Bool := c.arg 0x18 4 != 0

/-- Whether a GRAPH_RUN reads host memory: it has bindings or names a block of participants (R324, R328). -/
def graphReads (c : Cmd) : Bool := c.arg 0x24 4 != 0 || c.arg 0x30 8 != 0

/-- The numbered commands ahead of one in the table that have neither started nor ended, but for those that wait at a read of host memory (R280). -/
def unstartedAhead (cid : Nat) : List Cmd → Bool
  | [] => false
  | c :: t => if c.cid = cid then false else (c.seq.isSome && !c.started && !c.accepted && c.done.isNone) || unstartedAhead cid t

/-- A command that may act: it holds its number (R302), carries this opcode, has not ended, and every command numbered before it has
started (R242, R308). -/
def actable (s : State) (cid op : Nat) : Option Cmd :=
  match cmdAt s cid with
  | some c => if c.opcode = op ∧ c.seq.isSome ∧ c.done.isNone ∧ (c.started ∨ unstartedAhead cid s.host.cmds = false) then some c else none
  | none => none

/-- A command has begun to act. -/
def State.startCmd (cid : Nat) (s : State) : State := s.modCmd cid (fun c => { c with started := true, reading := false })

/-! ## What completions report -/

/-- Index and generation of a handle of a kind, when its reserved bits are zero. -/
def splitHandle (kind h : Nat) : Option (Nat × Nat) :=
  if h / 2 ^ 48 = kind * 4096 then some (h % 65536, h / 65536 % 2 ^ 32) else none

/-- The session a handle names (R222). -/
def sessionHandle (s : State) (h : Nat) : Option Session :=
  match splitHandle 0 h with
  | some (i, g) => s.sessions.find? (fun x => x.index == i && x.generation == g)
  | none => none

/-- The session entry of an index, when it is not FREE. -/
def sessionAt (s : State) (i : Nat) : Option Session := s.sessions.find? (fun x => x.index == i)

/-- force_exact of the settings in force (R96). -/
def forceExact (s : State) : Bool := match s.settings with | some x => x.forceExact | none => false

/-- Whether an operation runs in Exact mode (R95, R96, Table 5-1). -/
def opExact (s : State) (g : Graph) (o : OpDesc) : Bool := !o.fast || g.allExact || forceExact s

/-- Whether every operation of a graph does (R148). -/
def allExactRun (s : State) (g : Graph) : Bool := g.ops.all (opExact s g)

/-- The OUTPUT tensors with an actual row count to report, in table order (R148). -/
def dynamicOutputs (g : Graph) : List TensorDesc := g.tensors.filter (fun t => t.kind == 1 && t.dynamic)

/-- The actual leading size of an OUTPUT, 0 when it was not written. -/
def rowCount (r : Run) (t : TensorDesc) : Nat := ((r.vals.find? (fun v => v.id == t.id)).map (fun v => v.dims.getD 0 0)).getD 0

/-- The 64 B written at rows_addr (R325). -/
def rowsBlock (r : Run) : List (Nat × List Byte) :=
  if r.rowsAddr = 0 then []
  else [(r.rowsAddr, ((dynamicOutputs r.graph).take 8).flatMap (fun t => leBytes 8 (rowCount r t))
          ++ List.replicate (64 - 8 * Nat.min 8 (dynamicOutputs r.graph).length) 0)]

/-- Result fields of GRAPH_RUN (Table 11-7). -/
def graphFields (s : State) (handle : Nat) (g : Option Graph) (epoch failed needed : Nat) : List (Nat × Nat × Nat) :=
  [(0x14, 8, handle), (0x1C, 4, epoch), (0x20, 1, bnat ((g.map (allExactRun s)).getD false)),
   (0x21, 1, Nat.min 255 ((g.map (fun x => (dynamicOutputs x).length)).getD 0)), (0x24, 4, failed), (0x28, 8, needed)]

/-- sflags of a session (Table 8-2). -/
def Session.flags (x : Session) : Nat := bnat x.pinned + 2 * bnat x.epochChanged

/-- Blocks a session holds. -/
def blocksHeld (s : State) (session : Nat) : Nat := (s.cel.blocks.filter (fun b => b.session == session)).length

/-- Result fields of a step (Table 11-6). -/
def stepFields (s : State) (x : Session) (g : Option Graph) (epoch failed : Nat) : List (Nat × Nat × Nat) :=
  [(0x14, 4, epoch), (0x18, 8, x.position), (0x20, 1, x.flags), (0x21, 1, bnat ((g.map (allExactRun s)).getD false)),
   (0x24, 4, blocksHeld s x.index), (0x28, 4, failed), (0x2C, 4, x.steps)]

/-- Result fields of KERNEL_LAUNCH (Table 11-7); all_exact says what ran (R96). -/
def launchFields (l : Launch) : List (Nat × Nat × Nat) :=
  match l.error with
  | some e => [(0x14, 1, e.code), (0x15, 1, e.group), (0x16, 1, e.warp), (0x17, 1, bnat (!l.ranFast)), (0x18, 4, e.cluster), (0x1C, 4, e.word)]
  | none => [(0x17, 1, bnat (!l.ranFast))]

/-- The failed operation of a run with the lowest index (R148). -/
def firstFailed (r : Run) : Option (Nat × Status × Nat) :=
  r.opsFailed.foldl (fun m x => match m with | none => some x | some y => if x.1 < y.1 then some x else some y) none

/-- The session of a run that is a step, while its entry is still that session's (R223). -/
def sessionOf (s : State) (r : Run) : Option Session := (r.session.bind (sessionAt s)).filter (fun x => x.generation == r.sessionGen)

/-- The result of a run in flight that ends with a status: its epoch, position and flags, or its graph and epoch (R148, R230); the epoch is 0 when
it has not begun. -/
def runFields (s : State) (r : Run) (failed needed : Nat) : List (Nat × Nat × Nat) :=
  let epoch := if r.begun then r.epoch else 0
  match r.session, sessionOf s r with
  | some _, some x => stepFields s x (some r.graph) epoch failed
  | some _, none => [(0x14, 4, epoch), (0x28, 4, failed)]
  | none, _ => graphFields s (((cmdAt s r.cid).map (fun c => c.arg 8 8)).getD 0) (some r.graph) epoch failed needed

/-- Result bytes of a command that ends without its effect: zero, but for the fields that say "none" so (R148, R316, R321–R323, R335) and what a step
reports of its session (R230). -/
def blankOf (s : State) (c : Cmd) : List Byte :=
  resultOf (match field 0 1 c.desc with
    | 0x10 => [(0x38, 4, 0xFFFFFFFF)] | 0x25 => [(0x28, 4, 0xFFFFFFFF)]
    | 0x30 => [(0x20, 4, 0xFFFFFFFF)] | 0x31 => [(0x14, 8, field 8 8 c.desc), (0x24, 4, 0xFFFFFFFF)] | 0x32 => [(0x20, 4, 0xFFFFFFFF)]
    | 0x60 => [(0x1C, 2, 0xFFFF)]
    | 0x22 | 0x23 => match sessionHandle s (c.arg 8 8) with
      | some x => stepFields s x none 0 0xFFFFFFFF
      | none => [(0x28, 4, 0xFFFFFFFF)]
    | _ => [])

/-- A command ends with a status that carries a source and without its effect (R303). -/
def State.failCmd (cid : Nat) (status : Status) (source : Nat) (s : State) : State :=
  s.modCmd cid (fun c => Cmd.finish { status, source, result := blankOf s c, writes := [] } c)

/-- Whether a mark comes before the failed operation i of a run: it names a lower one, or none, having been made before any failed (R148, R352). -/
def markFirst (c : Cmd) (i : Nat) : Bool := c.marked.isSome && ((c.markedOp.map (fun m => decide (m ≤ i))).getD true)

/-- The end of a run: when operations failed, that of the lowest of them, unless a mark comes first (R148, R352). -/
def runEnd (s : State) (r : Run) (status : Status) (source failed needed : Nat) (c : Cmd) : Cmd :=
  let done (st : Status) (x i n : Nat) : Done := { status := st, source := x, result := resultOf (runFields s r i n), writes := rowsBlock r }
  let marked := Cmd.finish (done status source (if c.marked.isSome then c.markedOp.getD 0xFFFFFFFF else failed) needed) c
  match firstFailed r with
  | some (i, st, x) =>
    if markFirst c i then marked
    else Cmd.finish (done st (if st = .resultSuspect ∨ st = .linkLost then x else 0) i (if st = .tooLarge then x else 0)) { c with marked := none }
  | none => marked

/-- The entry of a command whose work is given up, with what its run or launch reports; a launch that a kernel error has stopped ends with
BAD_DESCRIPTOR whatever comes after (R148, R181, R230, R352). -/
def endOf (s : State) (status : Status) (source : Nat) (c : Cmd) : Cmd :=
  match s.runs.find? (fun r => r.cid == c.cid), s.launches.find? (fun l => l.cid == c.cid) with
  | some r, _ => runEnd s r status source 0xFFFFFFFF 0 c
  | none, some l =>
    if l.error.isSome then Cmd.finish { status := .badDescriptor, source := 0, result := resultOf (launchFields l), writes := [] } c
    else Cmd.finish { status, source, result := resultOf (launchFields l), writes := [] } c
  | none, none => Cmd.finish { status, source, result := blankOf s c, writes := [] } c

/-- A command whose work is given up ends. -/
def State.endWork (cid : Nat) (status : Status) (source : Nat) (s : State) : State := s.modCmd cid (endOf s status source)

end Sys2Proof.Machine
end

