-- ==== Sys2Proof/Machine/Ops.lean ====
section
/-! DEFINITION. The named operations every family uses: free values, access to units, host messages, flash and log, the command
table, service requests, the fault collector and the module stop. -/
namespace Sys2Proof.Machine

/-! ## Codes -/

/-- Status codes (Table 11-15). -/
def Status.code : Status → Nat
  | .ok => 0x00 | .okSpilled => 0x01 | .busy => 0x10 | .retryLater => 0x11 | .tempDefer => 0x12 | .badDescriptor => 0x20
  | .staleDescriptor => 0x21 | .unknownOpcode => 0x22 | .noResource => 0x30 | .tooLarge => 0x31 | .linkLost => 0x40
  | .peerAbsent => 0x41 | .resultSuspect => 0x50 | .authFailed => 0x60 | .internal => 0x7F

/-- Site state codes (Table 1-4). -/
def SiteState.code : SiteState → Nat
  | .notReported => 0 | .compute => 1 | .spare => 2 | .retired => 3 | .isolated => 4

/-- Role codes (Tables 7-1, 7-2); 0 for no role and for MIXED. -/
def Role.code : Role → Nat
  | .none => 0 | .mash => 1 | .draught => 2 | .cask => 3

/-- The role of a code. -/
def Role.ofCode : Nat → Option Role
  | 0 => some .none | 1 => some .mash | 2 => some .draught | 3 => some .cask | _ => Option.none

/-- A source ID (R487): class, instance and checker, six bits each of the latter two. -/
def srcId (cls inst chk : Nat) : Nat := cls * 4096 + inst % 64 * 64 + chk % 64

/-- The fixed severity of a source (R488; Tables 9-8, 10-11, 12-5, 13-4, 15-12, 16-5, 17-4, 17-5, 18-6, 19-6). -/
def severityOf (src : Nat) : Nat :=
  let chk := src % 64
  let cls := src / 4096
  let pick (l : List Nat) : Nat := l.getD chk 0
  match cls with
  | 0 => if 0x30 ≤ chk then 1 else pick [2, 1, 0, 2, 2, 2, 3, 3, 3, 3, 2]
  | 1 => if 0x30 ≤ chk then 1 else pick [1, 0, 2, 2, 2, 0, 2, 2, 2, 2, 1, 1, 2]
  | 2 => if 0x30 ≤ chk then 1 else pick [0, 0, 0, 1, 1, 1, 1, 0, 0, 1, 1, 1, 0, 1, 0, 1, 0, 0, 1, 0]
  | 3 => pick [0, 2, 0, 1, 2, 0]
  | 4 => pick [0, 2, 1, 1, 0]
  | 5 => pick [0, 1, 2, 0, 1, 0, 0, 0, 1]
  | 6 => if chk < 8 then 1 else if chk = 8 then 0 else if chk = 9 then 0 else if chk = 10 then 1 else if chk < 0x10 then 0
         else if chk < 0x18 then 1 else if chk < 0x1A then 3 else if chk < 0x20 then 0 else 1
  | 7 => pick [0, 0, 3, 1, 3]
  | 8 => pick [0, 0, 1, 1, 0]
  | 9 => pick [0, 1, 0, 1, 0, 0, 0, 1]
  | _ => 0

/-- The status of a code (Table 11-15). -/
def Status.ofCode (c : Nat) : Option Status :=
  [Status.ok, .okSpilled, .busy, .retryLater, .tempDefer, .badDescriptor, .staleDescriptor, .unknownOpcode, .noResource, .tooLarge, .linkLost,
   .peerAbsent, .resultSuspect, .authFailed, .internal].find? (fun s => s.code == c)

/-! ## Free values -/

/-- The next free word (log 4). -/
def freshWord (s : State) : BitVec 64 := Config.freeWord s.free

/-- The state after k free values have been taken. -/
def State.spend (k : Nat) (s : State) : State := { s with free := s.free + k }

/-! ## Units -/

/-- Tile site n. -/
def tileAt (s : State) (n : Nat) : Tile := s.tiles.getD n (Tile.reset n)

/-- A change of one tile site. -/
def State.modTile (n : Nat) (f : Tile → Tile) (s : State) : State := { s with tiles := modAt s.tiles n f }

/-- Engine e. -/
def engineAt (s : State) (e : Nat) : Engine := s.engines.getD e (Engine.reset e)

/-- A change of one engine. -/
def State.modEngine (e : Nat) (f : Engine → Engine) (s : State) : State := { s with engines := modAt s.engines e f }

/-- The receive direction at a bundle end. -/
def bundleAt (s : State) : BundleEnd → BundleDir
  | .tile n i => (tileAt s n).bundles.getD i BundleDir.reset
  | .hub b => s.hubBundles.getD b BundleDir.reset
  | .engine e k => (engineAt s e).bundles.getD k BundleDir.reset

/-- A change of one receive direction. -/
def State.modBundle (at_ : BundleEnd) (f : BundleDir → BundleDir) (s : State) : State :=
  match at_ with
  | .tile n i => s.modTile n (fun t => { t with bundles := modAt t.bundles i f })
  | .hub b => { s with hubBundles := modAt s.hubBundles b f }
  | .engine e k => s.modEngine e (fun x => { x with bundles := modAt x.bundles k f })

/-- A link end: a bundle port's or an engine's optical link's. -/
def linkAt (s : State) : LinkRef → LinkEnd
  | .bundle b => (bundleAt s b).link
  | .optical e => (engineAt s e).link

/-- A change of a link end. -/
def State.modLink (l : LinkRef) (f : LinkEnd → LinkEnd) (s : State) : State :=
  match l with
  | .bundle b => s.modBundle b (fun d => { d with link := f d.link })
  | .optical e => s.modEngine e (fun x => { x with link := f x.link })

/-- Source IDs of a bundle end (R373): BUNDLE_CRC is 0x20 + i, BUNDLE_WIDTH 0x30 + i. -/
def bundleSource (base : Nat) : BundleEnd → Nat
  | .tile n i => srcId 1 n (base + i)
  | .hub b => srcId 0 0 (base + b)
  | .engine e k => srcId 2 e (base + k)

/-- The sites of the compute set (R23). -/
def computeSites (s : State) : List Nat := (List.range 64).filter (fun n => (tileAt s n).state == .compute)

/-- Healthy spare sites, ascending (R23). -/
def healthySpares (s : State) : List Nat := (List.range 64).filter (fun n => (tileAt s n).state == .spare)

/-- The tile wired to an engine (Table 1-8): the north row, the south row, the east column. -/
def engineSite (e : Nat) : Nat := if e < 8 then 56 + e else if e < 16 then e - 8 else 8 * (e - 16) + 7

/-- Engines wired to a site (Table 1-8). -/
def siteEngines (n : Nat) : List Nat := (List.range 24).filter (fun e => engineSite e == n)

/-- The fibre port of an engine, 0–5 for F1–F6 (Table 1-8). -/
def enginePort (e : Nat) : Nat := if e < 8 then e / 4 else if e < 16 then 4 + (e - 8) / 4 else 2 + (e - 16) / 4

/-- Position j of an engine within its port (Table 21-4). -/
def engineIndexInPort (e : Nat) : Nat := e % 4

/-- The far end of a bundle (R354, R355); none for an unwired position. -/
def peerEnd : BundleEnd → Option BundleEnd
  | .tile n i =>
    let e := i.val / 4
    let j := i.val % 4
    let row := n.val / 8
    let col := n.val % 8
    let site (m : Nat) : Option BundleEnd := some (.tile (Fin.ofNat 64 m) (Fin.ofNat 16 (4 * ((e + 2) % 4) + (3 - j))))
    let eng (x : Nat) : Option BundleEnd := if j = 3 then none else some (.engine (Fin.ofNat 24 x) (Fin.ofNat 3 j))
    match e with
    | 0 => if row = 7 then eng col else site (n + 8)
    | 1 => if col = 7 then eng (16 + row) else site (n + 1)
    | 2 => if row = 0 then eng (8 + col) else site (n - 8)
    | _ => if col = 0 then (if j = 1 ∨ j = 2 then some (.hub (Fin.ofNat 16 (2 * row + j - 1))) else none) else site (n - 1)
  | .hub b => some (.tile (Fin.ofNat 64 (8 * (b.val / 2))) (Fin.ofNat 16 (13 + b.val % 2)))
  | .engine e k =>
    some (.tile (Fin.ofNat 64 (engineSite e)) (Fin.ofNat 16 ((if e.val < 8 then 0 else if e.val < 16 then 8 else 4) + k.val)))

/-- The end that names a bundle as one resource: of two tiles the lower site, else the hub's or the engine's end (R367, Table 17-7). -/
def bundleKey (b : BundleEnd) : BundleEnd :=
  match b, peerEnd b with
  | .tile n _, some (.tile m i) => if m < n then .tile m i else b
  | .tile _ _, some p => p
  | _, _ => b

/-- A resource under its one name. -/
def resourceKey : Resource → Resource
  | .bundle b => .bundle (bundleKey b)
  | r => r

/-- The engines a port lights (R40). -/
def portEngines (f : Nat) : List Nat := (List.range 24).filter (fun e => enginePort e == f)

/-! ## Host messages and causes -/

/-- Whether the hub may issue requests to the host (R280, R282). -/
def hostOpen (s : State) : Bool := s.host.busMaster && !s.host.d3hot && s.host.linkUp

/-- Whether a read of host memory may be answered: the host is open, or the request went out before it closed (R280, R282). -/
def mayRead (s : State) (req : HostReq) : Bool := hostOpen s || (s.host.linkUp && s.host.outstanding.contains req)

/-- Whether the host reaches the BARs: link up, the endpoint out of reset, BAR0 readable (R284, R563). -/
def hostReach (s : State) : Bool := s.host.linkUp && s.boot.barReadable && !s.pins.perst

/-- Whether the function takes configuration requests: from the time the link trains (R284). -/
def configReach (s : State) : Bool := s.host.linkUp && !s.pins.perst && s.boot.everReset

/-- A posted message leaves now or is held (R280, R282). -/
def State.send (m : HostMsg) (s : State) : State :=
  if hostOpen s then { s with host := { s.host with posted := s.host.posted ++ [m] } }
  else { s with host := { s.host with held := s.host.held ++ [m] } }

/-- Whether a vector's messages are held: MSI-X is not enabled, or a mask is set (R276, R307; log 67). -/
def vectorHeld (s : State) (v : Nat) : Bool := !s.host.msixEnable || s.host.functionMask || s.host.vectorMask.contains v

/-- An error that AER reports: its status bit, and a message when its reports are enabled and the link is up (R276; log 67). -/
def State.aerError (kind : Nat) (s : State) : State :=
  let set (b : AerBits) : AerBits := match kind with | 0 => { b with correctable := true } | 1 => { b with nonFatal := true } | _ => { b with fatal := true }
  let on := match kind with | 0 => s.host.aerReport.correctable | 1 => s.host.aerReport.nonFatal | _ => s.host.aerReport.fatal
  { s with host := { s.host with aerStatus := set s.host.aerStatus,
                                 posted := if on && s.host.linkUp then s.host.posted ++ [.aer kind] else s.host.posted } }

/-- An MSI-X message: pending while masked, else sent (R307). -/
def State.sendVector (v : Nat) (s : State) : State :=
  if vectorHeld s v then
    { s with host := { s.host with pendingBits := addOnce v s.host.pendingBits } }
  else s.send (.msix v)

/-- A cause bit of HUB_EVENT_CAUSE becomes 1; vector 0 is posted when an unmasked bit becomes 1 (R307). -/
def State.raiseCause (k : Nat) (s : State) : State :=
  let was := s.boot.cause.getLsbD k
  let s' : State := { s with boot := { s.boot with cause := s.boot.cause ||| (1#7 <<< k) } }
  if was || s.boot.mask.getLsbD k then s' else s'.sendVector 0

/-! ## Flash -/

/-- Whether both flashes have failed (R527). -/
def bothFailed (s : State) : Bool := s.flashA.failed && s.flashB.failed

/-- Order of waiting flash operations (R514). -/
def FlashOp.rank : FlashOp → Nat
  | .reservation _ => 0 | .mirror _ => 1 | .log _ => 2 | .settings _ _ _ => 3

/-- An operation joins the queue of a flash: the running one is not interrupted, but a settings write lets others in between its
pages (R514). -/
def Flash.enqueue (op : FlashOp) (f : Flash) : Flash :=
  match f.queue with
  | [] => { f with queue := [op] }
  | h :: t =>
    if h.rank = 3 then { f with queue := insertBy (fun a b => decide (a.rank < b.rank)) op (h :: t) }
    else { f with queue := h :: insertBy (fun a b => decide (a.rank < b.rank)) op t }

/-- One of the two flashes. -/
def flashAt (s : State) (i : Nat) : Flash := if i = 0 then s.flashA else s.flashB

/-- A change of one flash. -/
def State.modFlash (i : Nat) (f : Flash → Flash) (s : State) : State :=
  if i = 0 then { s with flashA := f s.flashA } else { s with flashB := f s.flashB }

/-- An operation for both flashes: A first, B after A's copy (R513); one alone when the other has failed (R526). -/
def State.enqueueBoth (op : FlashOp) (s : State) : State :=
  if s.flashA.failed then s.modFlash 1 (Flash.enqueue op) else s.modFlash 0 (Flash.enqueue op)

/-- Kinds in the order in which queued entries are copied to the retained domain (R524). -/
def Mirror.rank : Mirror → Nat
  | .reservation _ => 0 | .ownerKey _ => 0 | .logHead _ _ => 0
  | .retiredSite _ _ => 1 | .retiredCell _ _ => 1 | .retiredBundle _ => 1 | .retiredRing _ _ => 1 | .retiredLaser _ _ => 1
  | .retiredSensor _ => 1 | .retiredCore _ => 1 | .failedWire _ _ => 1 | .laneMap _ _ _ => 1 | .retiredGroup _ _ => 1 | .failedMemory _ _ => 1
  | .deviceId _ _ => 1
  | .recovery _ => 2 | .heater _ _ _ => 3 | .ageing _ _ _ => 4 | .optical _ _ _ _ => 4

/-- Whether a newer entry replaces an older one (R524): the entries that are replaced over time; a listed entry replaces only
itself. -/
def Mirror.sameKey : Mirror → Mirror → Bool
  | .reservation _, .reservation _ => true
  | .ownerKey _, .ownerKey _ => true
  | .logHead _ _, .logHead _ _ => true
  | .recovery a, .recovery b => a.res == b.res
  | .heater e r _, .heater e' r' _ => e == e' && r == r'
  | .failedMemory n _, .failedMemory n' _ => n == n'
  | .deviceId k _, .deviceId k' _ => k == k'
  | .laneMap b _ _, .laneMap b' _ _ => b == b'
  | .retiredSite n _, .retiredSite n' _ => n == n'
  | a, b => a == b

/-- A list without its k-th entry of a kind, once it holds more than so many of them. -/
def dropNth (kind : Mirror → Bool) (most : Nat) : Nat → List Mirror → List Mirror
  | _, [] => []
  | k, m :: t =>
    if kind m then (if most < (m :: t).countP kind then (if k = 0 then t else m :: dropNth kind (most - 1) (k - 1) t) else m :: t)
    else m :: dropNth kind most k t

/-- The histories keep 4,096 points of a die, the oldest after the baseline dropped first, and 32 of a wavelength (R513). -/
def trimHistory (m : Mirror) (l : List Mirror) : List Mirror :=
  match m with
  | .ageing d _ _ => dropNth (fun x => match x with | .ageing k _ _ => k == d | _ => false) 4096 1 l
  | .optical e r _ _ => dropNth (fun x => match x with | .optical a b _ _ => a == e && b == r | _ => false) 32 0 l
  | _ => l

/-- A list of entries with one added; the older entry of its key goes. -/
def addMirror (m : Mirror) (l : List Mirror) : List Mirror := trimHistory m (without (Mirror.sameKey m) l ++ [m])

/-- The newest copies for the retained domain: at most 256, by kind (R524). -/
def retainedMirrors (l : List Mirror) : List Mirror :=
  ((sortBy (fun a b : Mirror => decide (a.rank < b.rank)) l.reverse).take 256).reverse

/-- The oldest entry of a rank leaves the list. -/
def dropOldest (rank : Nat) (l : List Mirror) : Option (List Mirror) :=
  match l with
  | [] => none
  | m :: t => if m.rank = rank then some t else (dropOldest rank t).map (m :: ·)

/-- An entry joins the queue of refused writes, 1,024 long (R524). -/
def queueMirror (m : Mirror) (g : LogState) : LogState :=
  if g.mirrored.any (Mirror.sameKey m) then
    { g with mirrored := g.mirrored.map (fun x => if Mirror.sameKey m x then m else x) }
  else if g.mirrored.length < 1024 then { g with mirrored := g.mirrored ++ [m] }
  else match dropOldest 4 g.mirrored with
    | some l => { g with mirrored := l ++ [m] }
    | none => match dropOldest 3 g.mirrored with
      | some l => { g with mirrored := l ++ [m] }
      | none => { g with marked := addMirror m g.marked }

/-- A mirrored entry takes effect in the hub at once and is written, queued while writes are refused, or kept in the hub only when both flashes failed
(R513, R524, R527). -/
def State.putMirror (m : Mirror) (s0 : State) : State :=
  let s : State := { s0 with log := { s0.log with held := addMirror m s0.log.held } }
  if bothFailed s then s
  else if s.log.refused then
    let g := queueMirror m s.log
    { s with log := g, ret := { s.ret with mirrorCopies := retainedMirrors (g.mirrored ++ g.marked) } }
  else s.enqueueBoth (.mirror m)

/-! ## Log (R518–R527) -/

/-- The record of the lowest severity that is oldest in the queue, removed (R524). -/
def dropRecord (sev : Nat) (l : List LogRec) : List LogRec :=
  match l with
  | [] => []
  | r :: t => if r.severity = sev then t else r :: dropRecord sev t

/-- A record joins the queue of refused writes, 8,192 long (R524). -/
def queueRecord (r : LogRec) (g : LogState) : LogState :=
  if g.queued.length < 8192 then { g with queued := g.queued ++ [r] }
  else
    let low := (least (g.queued.map (·.severity))).getD 0
    if low > r.severity then { g with dropped := modAt g.dropped r.severity (fun c => satAdd c 1 65535) }
    else { g with queued := dropRecord low g.queued ++ [r], dropped := modAt g.dropped low (fun c => satAdd c 1 65535) }

/-- The newest 64 queued records of severity S1 or higher (R524). -/
def retainedRecords (l : List LogRec) : List LogRec :=
  let h := l.filter (fun r => 1 ≤ r.severity)
  h.drop (h.length - 64)

/-- Records that one flash's ring holds: 512 sectors of 2,048 (R522). -/
def ringCapacity : Nat := 1048576

/-- A record programmed; the sector it enters first was erased before it (R522). -/
def Flash.program (r : LogRec) (f : Flash) : Flash :=
  let kept := if f.ring.length % 2048 = 0 ∧ ringCapacity < f.ring.length + 2048 then f.ring.drop 2048 else f.ring
  { f with ring := kept ++ [r] }

/-- Records in a flash's ring and those waiting to join it: the next one's place, whole sectors having been erased (R522). -/
def Flash.nextPlace (f : Flash) : Nat := f.ring.length + (f.queue.filter (fun op => op.rank == 2)).length

/-- A record is committed (R522): to the active ring, to the queue while writes are refused (R524), or to the retained ring when
both flashes have failed (R527). Before a record enters a newly erased sector the boot header is written (R522). -/
def State.commitRecord (r : LogRec) (s : State) : State :=
  if bothFailed s then
    let ring := s.ret.ring ++ [{ r with retained := true, number := s.log.next }]
    { s with ret := { s.ret with ring := ring.drop (ring.length - 64) }, log := { s.log with next := s.log.next + 1 } }
  else if s.log.refused then
    let g := queueRecord { r with deferred := true } s.log
    { s with log := g, ret := { s.ret with copies := retainedRecords g.queued } }
  else
    let s1 := if (flashAt s s.log.active).nextPlace % 2048 = 0 then s.putMirror (.logHead s.log.active s.log.next) else s
    let s2 := s1.modFlash s.log.active (Flash.enqueue (.log { r with number := s.log.next }))
    { s2 with log := { s2.log with next := s.log.next + 1 } }

/-- The open record is committed (R519). -/
def State.commitOpen (s : State) : State :=
  match s.ret.openRec with
  | none => s
  | some r => ({ s with ret := { s.ret with openRec := none } } : State).commitRecord r

/-- An event arrives at the log: a repeat of the open record, or a new record (R519). -/
def State.logEvent (event source severity : Nat) (injected : Bool) (data : DWord) (s : State) : State :=
  let fresh : LogRec := { opTime := s.ret.opTime, cycles := s.ret.cycles, severity, injected, deferred := false, retained := false, data,
                          number := 0, source, event, repeats := 1 }
  match s.ret.openRec with
  | some r =>
    if r.event = event ∧ r.source = source ∧ r.severity = severity ∧ r.injected = injected ∧ r.data = data then
      { s with ret := { s.ret with openRec := some { r with repeats := satAdd r.repeats 1 65535 } } }
    else
      let s' := s.commitOpen
      { s' with ret := { s'.ret with openRec := some fresh, openAt := s.ret.opTime } }
  | none => { s with ret := { s.ret with openRec := some fresh, openAt := s.ret.opTime } }

/-- The 32 bytes of a record (Table 18-4). -/
def LogRec.bytes (r : LogRec) : List Byte :=
  let head := leBytes 4 r.opTime ++ leBytes 3 r.cycles
    ++ leBytes 1 (r.severity % 4 + 4 * bnat r.injected + 8 * bnat r.deferred + 16 * bnat r.retained)
    ++ leBytes 8 r.data.toNat ++ leBytes 8 r.number ++ leBytes 2 r.source ++ leBytes 2 r.event ++ leBytes 2 r.repeats
  head ++ leBytes 2 (crc16 head)

/-! ## Service requests (R479) -/

/-- The level in force: the highest. -/
def serviceLevel (s : State) : Nat := (greatest (s.svc.map (·.level))).getD 0

/-- A service request is raised: recorded, logged, the cause bit set, the alert line low when the level rises (R479, R578). -/
def State.raiseRequest (q : ServiceReq) (s : State) : State :=
  let before := serviceLevel s
  let s1 : State := { s with svc := addOnce q s.svc }
  let s2 : State := if before < q.level then { s1 with pins := { s1.pins with alertOut := true } } else s1
  let data := q.level + 256 * q.cause + 65536 * q.resource + 2 ^ 32 * (q.hours.getD 0xFFFF)
  (s2.logEvent 0x0004 0xFFFF 0 false (BitVec.ofNat 64 data)).raiseCause 2

/-- A request of a level, a cause and a resource (R479). -/
def State.raiseService (level cause resource : Nat) (hours : Option Nat) (predicted : Bool) (s : State) : State :=
  s.raiseRequest { level, cause, resource, hours, predicted, misses := 0, key := 0 }

/-! ## The fault collector (R491–R500) -/

/-- Events that open or extend the fault state of a resource (Table 17-7). -/
def opensState (src : Nat) : Resource → Bool
  | .cell n _ => [1, 2, 3, 6, 7, 8].any (fun k => src == srcId 1 n k)
  | .tile n => [6, 9].any (fun k => src == srcId 1 n k)
  | .bundle b => ([b] ++ (peerEnd b).toList).any (fun x => src == bundleSource 0x20 x)
  | .ring e _ => src == srcId 2 e 0 || src == srcId 2 e 1
  | .laser e _ => src == srcId 2 e 5
  | .sensor (.tile n k) => src == srcId 6 n k
  | .sensor (.hub k) => src == srcId 6 0 (0x10 + k)
  | .sensor (.engine e k) => src == srcId 6 e (0x20 + k)
  | .core _ => src == srcId 0 0 0

/-- The resource whose state an event opens or extends. -/
def eventOpens (ev : FaultEvent) : Option Resource :=
  match ev.resource with
  | some r => if opensState ev.source r then some (resourceKey r) else none
  | none => none

/-- The open state of a resource. -/
def openState (f : Faults) (r : Resource) : Option FaultState := f.open_.find? (fun x => x.res == r)

/-- First in the collector's order: higher severity, then lower source ID (R493). -/
def earlier (a b : FaultEvent) : Bool :=
  severityOf a.source > severityOf b.source || (severityOf a.source == severityOf b.source && a.source < b.source)

/-- The event taken as first among those of one cycle. -/
def firstOf (evs : List FaultEvent) : Option FaultEvent :=
  evs.foldl (fun m e => match m with | none => some e | some x => if earlier e x then some e else some x) none

/-- One event reaches its fault state: opened, or merged (R497, R498). -/
def Faults.enter (isFirst : Bool) (ev : FaultEvent) (f : Faults) : Faults :=
  match eventOpens ev with
  | none => f
  | some r =>
    match openState f r with
    | some st =>
      let st' : FaultState := { st with severity := Nat.max st.severity (severityOf ev.source),
                                        injectedOnly := st.injectedOnly && ev.injected, holdsFirst := st.holdsFirst || isFirst }
      { f with open_ := f.open_.map (fun x => if x.res = r then st' else x),
               merged := if st.holdsFirst then satAdd f.merged 1 4095 else f.merged }
    | none =>
      { f with open_ := f.open_ ++ [{ res := r, source := ev.source, severity := severityOf ev.source, injectedOnly := ev.injected,
                                      holdsFirst := isFirst }] }

/-- The first-fault registers after one collector cycle (R493). -/
def Faults.takeFirst (now cycles : Nat) (evs : List FaultEvent) (f : Faults) : Faults :=
  if f.firstValid then f
  else match firstOf evs with
    | none => f
    | some e => { f with firstSource := e.source, firstSeverity := severityOf e.source, firstValid := true, firstInjected := e.injected,
                         firstTime := now, firstCycle := cycles }

/-- Whether an event merges into an open state (R498). -/
def merges (f : Faults) (ev : FaultEvent) : Bool :=
  match eventOpens ev with
  | some r => (openState f r).isSome
  | none => false

/-- Registers of the collector after one cycle of events (R492, R493, R497, R498); a ONCE injection ends with its event (R339). -/
def Faults.capture (now cycles : Nat) (evs : List FaultEvent) (f : Faults) : Faults :=
  let first := if f.firstValid then none else firstOf evs
  let f1 := { f with sticky := evs.foldl (fun l (e : FaultEvent) => addOnce e.source l) f.sticky,
                     highest := evs.foldl (fun m (e : FaultEvent) => Nat.max m (severityOf e.source)) f.highest,
                     inject := without (fun p => p.2 == 1 && evs.any (fun (e : FaultEvent) => e.injected && e.source == p.1)) f.inject }
  let f2 := evs.foldl (fun g e => g.enter (decide (first = some e)) e) f1
  f2.takeFirst now cycles evs

/-- Whether the cycle sets HUB_EVENT_CAUSE.fault: an S1 or higher event that did not merge, or that became the first fault
(R494, R498). -/
def causesFault (f : Faults) (evs : List FaultEvent) : Bool :=
  let first := if f.firstValid then none else firstOf evs
  evs.any (fun e => 1 ≤ severityOf e.source && (!merges f e || first == some e))

/-- Every command without an end ends so, with what its run, its launch or its session reports (R148, R181, R230). -/
def State.endAll (status : Status) (source : Nat) (s : State) : State :=
  { s with host := { s.host with cmds := s.host.cmds.map (endOf s status source) } }

/-- An INTERNAL or forced end decides over a mark made earlier only by order (R352); every laser goes to zero (R346, R490). -/
def State.lasersOff (s : State) : State :=
  { s with engines := s.engines.map (fun e => { e with lasers := e.lasers.map (fun l => { l with mode := .off, atten := 0xFF }) }),
           els := s.els.map (fun x => { x with modes := x.modes.map (fun _ => .off) }) }

/-- Whether an address lies in a site's window (Table 9-3). -/
def isLocalAddr (a : Nat) : Bool := a < 0x8000000000

/-- The local GDDR7 contents are lost (R490, R346). -/
def State.loseLocal (s : State) : State :=
  { s with mem := { s.mem with cells := s.mem.cells.filter (fun c => !isLocalAddr c.1),
                               poison := s.mem.poison.filter (fun p => !isLocalAddr p.1) } }

/-- Every die but the hub is held in reset (R490) or powered down (R346). -/
def State.holdDies (s : State) : State :=
  { s with tiles := s.tiles.map (fun t => { t with inReset := true, memInService := false }),
           engines := s.engines.map (fun e => { e with inReset := true, started := false, state := .down }) }

/-- An S3 stop (R490). -/
def State.moduleStop (source : Nat) (s : State) : State :=
  let s1 := (s.endAll .internal source).lasersOff.holdDies.loseLocal.commitOpen
  { s1 with boot := { s1.boot with stopped := true, ready := false, down := true }, pins := { s1.pins with readyOut := false },
            runs := [], launches := [] }

/-- The log records of a cycle, in order (R494). -/
def State.logEvents (evs : List FaultEvent) (s : State) : State :=
  evs.foldl (fun t e => t.logEvent 0x0001 e.source (severityOf e.source) e.injected e.data) s

/-- The commands of S2 events are marked (R489), in the collector's order; an S3 event of the cycle decides instead (R352). -/
def State.markEvents (evs : List FaultEvent) (s : State) : State :=
  if evs.any (fun e => severityOf e.source == 3) then s
  else (sortBy earlier evs).foldl (fun t e => if severityOf e.source = 2 then e.touched.foldl (fun u c => u.markCmd e.source c) t else t) s

/-- Whether a control core is out of service: retired, or in its reset (R485). -/
def coreOut (s : State) (c : Nat) : Bool := s.flt.coresRetired.contains c || s.flt.coresReset.contains c

/-- Whether a checker is under injection (R339). -/
def Faults.injecting (f : Faults) (src : Nat) : Bool := f.inject.any (fun p => p.1 == src)

/-- What the residue lane of a tile reports: an inversion makes it report its own event (R508, Table 17-10). -/
def injectedResidue (s : State) (n : Nat) (r : Residue) : Residue :=
  if s.flt.injecting (srcId 1 n 3) then .pieceCheck
  else if s.flt.injecting (srcId 1 n 2) then .mismatch
  else if s.flt.injecting (srcId 1 n 1) && r == .clean then .retried
  else r

/-- Events as the collector takes them: what a checker reports under injection is an injected event (R339, R508). -/
def Faults.marking (f : Faults) (evs : List FaultEvent) : List FaultEvent :=
  evs.map (fun e => { e with injected := e.injected || f.injecting e.source })

/-- One collector cycle without the S3 stop: registers, log, marks, cause (R491–R494, R498). -/
def State.captureOnly (events : List FaultEvent) (s : State) : State :=
  let evs := s.flt.marking events
  let f := s.flt.capture s.ret.opTime s.ret.cycles evs
  let s1 : State := { s with flt := f, ret := { s.ret with faultList := f.open_ } }
  let s2 := (s1.logEvents evs).markEvents evs
  if causesFault s.flt evs then s2.raiseCause 1 else s2

/-- One collector cycle (R491–R494, R498); an S3 event stops the module (R490). -/
def State.capture (evs : List FaultEvent) (s : State) : State :=
  let s1 := s.captureOnly evs
  match firstOf (evs.filter (fun e => severityOf e.source == 3)) with
  | some e => s1.moduleStop e.source
  | none => s1

/-- One checker raises one event. -/
def State.raise (source : Nat) (data : Nat) (s : State) : State :=
  s.capture [{ source, data := BitVec.ofNat 64 data }]

/-- One checker raises one event for a resource. -/
def State.raiseFor (source : Nat) (data : Nat) (res : Resource) (s : State) : State :=
  s.capture [{ source, data := BitVec.ofNat 64 data, resource := some res }]

/-- One checker raises one S2 event for commands. -/
def State.raiseOn (source : Nat) (data : Nat) (cids : List Nat) (s : State) : State :=
  s.capture [{ source, data := BitVec.ofNat 64 data, touched := cids }]

end Sys2Proof.Machine
end

