-- ==== Sys2Proof/Machine/Paths.lean ====
section
/-! DEFINITION. Paths over the panel under a route table (R35–R38), and the classes of traffic (R39). -/
namespace Sys2Proof.Machine

/-! ## Paths (R35–R38) -/

/-- The site beyond an edge of a site: 0 north, 1 east, 2 south, 3 west (R354). -/
def neighbour (n edge : Nat) : Option Nat :=
  match edge with
  | 0 => if n / 8 = 7 then none else some (n + 8)
  | 1 => if n % 8 = 7 then none else some (n + 1)
  | 2 => if n / 8 = 0 then none else some (n - 8)
  | _ => if n % 8 = 0 then none else some (n - 1)

/-- Whether every site and every edge between sites is in service: flits then go along the row first (R35). -/
def MeshTable.whole (t : MeshTable) : Bool := t.out.isEmpty && t.cut.all (fun c => (neighbour c.1 c.2).isNone)

/-- Whether an edge of a site leads to a site of the mesh. -/
def MeshTable.joins (t : MeshTable) (n edge : Nat) : Option Nat :=
  match neighbour n edge with
  | some m => if t.out.contains n || t.out.contains m || t.cut.contains (n, edge) then none else some m
  | none => none

/-- The next site along the row, then along the column (R35). -/
def nextXY (a d : Nat) : Nat :=
  if a % 8 < d % 8 then a + 1 else if d % 8 < a % 8 then a - 1 else if a < d then a + 8 else a - 8

/-- The sites from a to d along the row, then the column. -/
def pathXY : Nat → Nat → Nat → List Nat
  | 0, a, _ => [a]
  | n + 1, a, d => if a = d then [a] else a :: pathXY n (nextXY a d) d

/-- One round of the tree: each site next to the tree joins it, by its west, south, north or east edge in that order. -/
def MeshTable.grow (t : MeshTable) (tree : List (Nat × Nat)) : List (Nat × Nat) :=
  tree ++ ((List.range 64).filter (fun n => !tree.any (fun p => p.1 == n))).filterMap (fun n =>
    ([3, 2, 0, 1].findSome? (fun e => match t.joins n e with
      | some m => if tree.any (fun p => p.1 == m) then some m else none
      | none => none)).map (fun m => (n, m)))

/-- The tree over the sites left, each with its parent, from the lowest of them, its own parent (log 48). -/
def MeshTable.tree (t : MeshTable) : List (Nat × Nat) :=
  match (List.range 64).find? (fun n => !t.out.contains n) with
  | some r => (List.range 63).foldl (fun l _ => t.grow l) [(r, r)]
  | none => []

/-- A site and those above it in a tree. -/
def climb (tree : List (Nat × Nat)) : Nat → Nat → List Nat
  | 0, n => [n]
  | k + 1, n => match lookupKey n tree with
    | some m => if m = n then [n] else n :: climb tree k m
    | none => [n]

/-- The path between two sites along the tree: up to where their ways to the root meet, then down; free of deadlock since no flit turns up after it
has turned down (R35, log 48). -/
def treePath (tree : List (Nat × Nat)) (a d : Nat) : Option (List Nat) :=
  let up := climb tree 64 a
  let down := climb tree 64 d
  match up.find? down.contains with
  | some m => some (up.takeWhile (fun x => x != m) ++ [m] ++ (down.takeWhile (fun x => x != m)).reverse)
  | none => none

/-- The sites a flit passes from a to d. -/
def MeshTable.sitePath (t : MeshTable) (a d : Nat) : Option (List Nat) :=
  if t.out.contains a || t.out.contains d then none
  else if t.whole then some (pathXY 16 a d) else treePath t.tree a d

/-- The row at whose west tile the hub's traffic for a row enters and leaves the mesh: its own, else the nearest one with a hub bundle in service, the
lower of two as near (R37); before any is in service, the nearest one whose hub bundles are not retired. -/
def MeshTable.hubRow (t : MeshTable) (row : Nat) : Option Nat :=
  let wired := (List.range 8).filter (fun r => !t.out.contains (8 * r) && !t.cut.contains (8 * r, 3))
  let live := wired.filter (fun r => !t.idle.contains r)
  pickBy (fun a b : Nat => decide (a - row + (row - a) < b - row + (row - b))) (if live.isEmpty then wired else live)

/-- From the hub to a site: in at the entry tile, along column 0 to the site's row where the mesh is whole, then on (R37). -/
def MeshTable.fromHub (t : MeshTable) (d : Nat) : Option (List Nat) :=
  match t.hubRow (d / 8) with
  | none => none
  | some r =>
    if t.whole && r != d / 8 then some (pathXY 16 (8 * r) (8 * (d / 8)) ++ (pathXY 16 (8 * (d / 8)) d).drop 1)
    else t.sitePath (8 * r) d

/-- From a site to the hub, out at the same tile (R37). -/
def MeshTable.toHub (t : MeshTable) (a : Nat) : Option (List Nat) :=
  match t.hubRow (a / 8) with
  | none => none
  | some r => t.sitePath a (8 * r)

/-- The stations of a message's path under some tables: an engine's traffic enters and leaves at the tile wired to it (R38). -/
def MeshTable.path (t : MeshTable) (src dst : Station) : Option (List Station) :=
  let siteOf : Station → Option Nat
    | .site n => some n | .hub => none | .engine e => some (engineSite e)
  let middle := match siteOf src, siteOf dst with
    | some a, some d => t.sitePath a d
    | none, some d => t.fromHub d
    | some a, none => t.toHub a
    | none, none => some []
  let ends : Station → List Station
    | .site _ => [] | x => [x]
  if src = dst then some [src] else middle.map (fun l => ends src ++ l.map Station.site ++ ends dst)

/-- The station after one on a path. -/
def after (a : Station) : List Station → Option Station
  | [] => none
  | x :: l => if x = a then l.head? else after a l

/-! ## Traffic classes (R39, R67) -/

/-- The kinds of traffic that Table 1-7 names. -/
inductive Traffic where
  | host | cxl | ownMemory | otherMemory | coherent | data | modules | events | debug | flash | management
  deriving DecidableEq, Repr

/-- The virtual channels of a kind of traffic; none where it does not use the mesh (Table 1-7). -/
def Traffic.vcs : Traffic → List Nat
  | .host => [0, 3, 4, 5] | .cxl => [3, 4] | .ownMemory => [] | .otherMemory => [3, 4] | .coherent => [1, 2] | .data => [5]
  | .modules => [0, 3, 4, 5, 6, 7] | .events => [6] | .debug => [7] | .flash => [] | .management => []

end Sys2Proof.Machine
end

