-- ==== Sys2Proof/Machine/Space.lean ====
section
/-! DEFINITION. The module address space (R260), room in the two tiers, handles (R222, R311), and what is lost with a place. -/
namespace Sys2Proof.Machine

/-! ## Address map (Table 9-3) -/

/-- First address of a site's window. -/
def siteBase (n : Nat) : Nat := n * 0x200000000

/-- Usable bytes of a site: 7.5 GiB. -/
def siteUsable : Nat := 0x1E0000000

/-- First address of a CXL port's window. -/
def portBase (p : Nat) : Nat := 0x100000000000 + p * 0x40000000000

/-- CXL port p. -/
def cxlAt (s : State) (p : Nat) : CxlPort := s.cxl.getD p CxlPort.reset

/-- A change of one CXL port. -/
def State.modCxl (p : Nat) (f : CxlPort → CxlPort) (s : State) : State := { s with cxl := modAt s.cxl p f }

/-- Whether a site's memory is mapped (R262). -/
def siteMapped (s : State) (n : Nat) : Bool :=
  (tileAt s n).memInService && !(tileAt s n).memFailed && (tileAt s n).state != .isolated

/-- Whether an address is in a mapped range (R260). -/
def addrMapped (s : State) (a : Nat) : Bool :=
  if a < 0x8000000000 then decide (a % 0x200000000 < siteUsable) && siteMapped s (a / 0x200000000)
  else if 0x100000000000 ≤ a ∧ a < 0x200000000000 then
    let p := (a - 0x100000000000) / 0x40000000000
    decide (a - portBase p < (cxlAt s p).mapped) && decide (p < 4)
  else false

/-- The place an address lies in. -/
def placeOf (a : Nat) : Place := if a < 0x8000000000 then .site (a / 0x200000000) else .cxl ((a - 0x100000000000) / 0x40000000000)

/-- Whether a place is in the CXL tier. -/
def Place.isCxl : Place → Bool | .cxl _ => true | _ => false
/-- Whether a place is a site. -/
def Place.isSite : Place → Bool | .site _ => true | _ => false
/-- Whether a place is a cask peer. -/
def Place.isRemote : Place → Bool | .remote _ => true | _ => false

/-- The group of a site offset (R261). -/
def groupOf (x : Nat) : Nat := x / 64 / 15

/-- The device of a group: 0 for a, 1 for b (R261). -/
def groupDevice (g : Nat) : Nat := g % 2

/-- The channel of a group on its device (R261). -/
def groupChannel (g : Nat) : Nat := g / 2 % 4

/-- The granule address of an address. -/
def granule (a : Nat) : Nat := a / 64 * 64

/-! ## Room -/

/-- e with u cut out. -/
def cutExtent (u e : Extent) : List Extent :=
  if u.base + u.len ≤ e.base ∨ e.base + e.len ≤ u.base ∨ u.len = 0 then [e]
  else (if e.base < u.base then [⟨e.base, u.base - e.base⟩] else [])
    ++ (if u.base + u.len < e.base + e.len then [⟨u.base + u.len, e.base + e.len - (u.base + u.len)⟩] else [])

/-- Ranges with every used extent cut out. -/
def cutAll (used : List Extent) (free : List Extent) : List Extent :=
  used.foldl (fun l u => l.flatMap (cutExtent u)) free

/-- Every extent of TEMP tensors. -/
def tempExtents (s : State) : List Extent := s.runs.flatMap (fun r => r.temps.flatMap (·.extents))

/-- Every extent of saved clusters (R184). -/
def savedExtents (s : State) : List Extent := s.launches.flatMap (fun l => l.clusters.flatMap (·.image))

/-- Every extent in use: handles, TEMP tensors, saved clusters, key/value blocks and moves, weights, their copies and staging areas, leases. -/
def usedExtents (s : State) : List Extent :=
  s.mem.handles.flatMap (·.extents) ++ tempExtents s ++ savedExtents s ++ s.cel.blocks.map (·.extent) ++ s.cel.moves.map (·.destExtent)
  ++ s.cel.moves.map (·.oldExtent)
  ++ s.models.flatMap (fun m => m.shards.flatMap (fun x => x.stripes ++ x.cxlCopy) ++ m.staging)
  ++ s.trans.leases.map (·.extent)

/-- Extents of the retired groups of a site, and of groups out of service under injection (R259: nothing is placed there; R510). -/
def retiredExtents (s : State) (n : Nat) : List Extent :=
  ((tileAt s n).retiredGroups ++ (s.mem.tempGroups.filter (fun x => x.1 == n)).map (·.2)).map (fun g => ⟨siteBase n + 960 * g, 960⟩)

/-- Free ranges of a site. -/
def siteFree (s : State) (n : Nat) : List Extent :=
  if siteMapped s n then cutAll (usedExtents s ++ retiredExtents s n) [⟨siteBase n, siteUsable⟩] else []

/-- Whether the Cellarer may place on a port: in service, and a plan has passed since its capacity was added (R270, R271). -/
def portOpen (s : State) (p : Nat) : Bool := (cxlAt s p).state == .inService && (cxlAt s p).planned

/-- Free ranges of a CXL port, bad regions left out (R269). -/
def portFree (s : State) (p : Nat) : List Extent :=
  if portOpen s p then cutAll (usedExtents s ++ (cxlAt s p).bad.map (fun b => ⟨b.1, b.2⟩)) [⟨portBase p, (cxlAt s p).mapped⟩] else []

/-- Bytes of ranges. -/
def extentBytes (l : List Extent) : Nat := total (l.map (·.len))

/-- Free ranges of the local pool, sites ascending. -/
def localFree (s : State) : List Extent := (List.range 64).flatMap (siteFree s)

/-- Free ranges of the CXL tier, ports ascending. -/
def cxlFree (s : State) : List Extent := (List.range 4).flatMap (portFree s)

/-- The first ranges that hold so many bytes (log 10). -/
def takeExtents : Nat → List Extent → Option (List Extent)
  | 0, _ => some []
  | _, [] => none
  | n + 1, e :: t => if n + 1 ≤ e.len then some [⟨e.base, n + 1⟩] else (takeExtents (n + 1 - e.len) t).map (e :: ·)

/-- One contiguous 64 KiB piece. -/
def take64K (l : List Extent) : Option Extent := (l.find? (fun e => 65536 ≤ e.len)).map (fun e => ⟨e.base, 65536⟩)

/-! ## Pieces of a handle -/

/-- The address pieces of n bytes from offset off of extents. -/
def pieces : List Extent → Nat → Nat → List Extent
  | [], _, _ => []
  | e :: t, off, n =>
    if e.len ≤ off then pieces t (off - e.len) n
    else if n ≤ e.len - off then (if n = 0 then [] else [⟨e.base + off, n⟩])
    else ⟨e.base + off, e.len - off⟩ :: pieces t 0 (n - (e.len - off))

/-- Bytes at pieces. -/
def readPieces (m : ByteMap) (l : List Extent) : List Byte := l.flatMap (fun e => readBytes m e.base e.len)

/-- Bytes written to pieces. -/
def writePieces (m : ByteMap) : List Extent → List Byte → ByteMap
  | [], _ => m
  | e :: t, v => writePieces (writeBytes m e.base (v.take e.len)) t (v.drop e.len)

/-- Bytes cleared at pieces. -/
def clearPieces (m : ByteMap) (l : List Extent) : ByteMap := l.foldl (fun x e => clearRange x e.base e.len) m

/-- Whether pieces touch a granule. -/
def touches (l : List Extent) (g : Nat) : Bool := l.any (fun e => decide (e.base < g + 64) && decide (g < e.base + e.len))

/-- The source of an access to an address that is not mapped: the issuing tile's, else the hub's (R260). -/
def unmappedSource (by_ : Option Nat) : Nat :=
  match by_ with
  | some n => srcId 1 n 0x0C
  | none => srcId 0 0 0x0A

/-- The source an access of a unit to pieces ends with, if any: an unmapped piece (R260), or for a read a poisoned granule (R257). -/
def accessSource (s : State) (by_ : Option Nat) (read : Bool) (l : List Extent) : Option Nat :=
  if l.any (fun e => !addrMapped s e.base || !addrMapped s (e.base + e.len - 1)) then some (unmappedSource by_)
  else if read then
    match s.mem.poison.find? (fun p => touches l p.1 && p.2 != 0) with
    | some p => match placeOf p.1 with
      | .site n => some (srcId 3 n (if p.2 = 3 then 1 else 4))
      | _ => some (srcId 4 ((p.1 - 0x100000000000) / 0x40000000000) 1)
    | none => none
  else none

/-- The event of an access that fails: a granule poisoned before raises none, and one whose two flags differ has both set (R257, R260). -/
def State.reportAccess (src : Nat) (l : List Extent) (cids : List Nat) (s : State) : State :=
  if src / 4096 = 3 ∧ src % 64 = 1 then s
  else if src / 4096 = 3 then
    ({ s with mem := { s.mem with poison := s.mem.poison.map (fun p => if touches l p.1 && p.2 != 0 then (p.1, 3) else p) } } : State).raiseOn
      src 0 cids
  else s.raiseOn src 0 cids

/-- Whether a piece lies on a channel that is being retrained (R264): channels repeat every eight groups. -/
def onRetraining (s : State) (e : Extent) : Bool :=
  s.mem.retraining.any (fun c =>
    let lo := Nat.max e.base (siteBase c.1)
    let hi := Nat.min (e.base + e.len) (siteBase c.1 + siteUsable)
    decide (lo < hi) && (List.range (Nat.min 8 (groupOf (hi - 1 - siteBase c.1) - groupOf (lo - siteBase c.1) + 1))).any (fun k =>
      groupDevice (groupOf (lo - siteBase c.1) + k) == c.2.1 && groupChannel (groupOf (lo - siteBase c.1) + k) == c.2.2))

/-- Whether a piece lies on a CXL port whose link is down and trains again (R268). -/
def onDownLink (s : State) (e : Extent) : Bool :=
  (List.range 4).any (fun p => (cxlAt s p).waiting && decide (0 < e.len) && decide (e.base < portBase p + 0x40000000000)
    && decide (portBase p < e.base + e.len))

/-- The kind of traffic that an access of a unit to a module address is: a tile's own GDDR7, another site's, or the CXL tier (R67, Table 1-7). The access
itself is one step here: its flits are not followed over the bundles (log 65). -/
def accessTraffic (by_ : Option Nat) (a : Nat) : Traffic :=
  match placeOf a with
  | .site n => if by_ = some n then .ownMemory else .otherMemory
  | _ => .cxl

/-- The stations that an access passes: the unit's own memory without the mesh, else from the unit to the site or to the hub's CXL ports (R38, R67). -/
def MeshTable.accessPath (t : MeshTable) (by_ : Option Nat) (a : Nat) : Option (List Station) :=
  let src : Station := match by_ with | some n => .site n | none => .hub
  match accessTraffic by_ a, placeOf a with
  | .ownMemory, _ => some []
  | _, .site n => t.path src (.site n)
  | _, _ => t.path src .hub

/-- Whether no path is left between a unit, the hub where none is given, and a mapped piece: the flits of an access go back to the unit until new tables
give one (R26, R36, R370; log 65). -/
def cutOff (s : State) (by_ : Option Nat) (e : Extent) : Bool :=
  addrMapped s e.base && (match s.trans.tables.find? (fun t => t.number == s.trans.meshTable) with
    | some t => (t.accessPath by_ e.base).isNone
    | none => false)

/-- Whether an access of a unit to pieces has to wait (R264, R268, R370). -/
def memWaitsBy (s : State) (by_ : Option Nat) (l : List Extent) : Bool := l.any (fun e => onRetraining s e || onDownLink s e || cutOff s by_ e)

/-- Whether an access of the hub to pieces has to wait (R264, R268, R370). -/
def memWaits (s : State) (l : List Extent) : Bool := memWaitsBy s none l

/-! ## Check granules and poison (R255, R256) -/

/-- The controller of a device. -/
def controller (n device : Nat) : Nat := 2 * n + device

/-- Granules of a group that an access covers, as a mask. -/
def granuleMask (g x len : Nat) : Nat :=
  total ((List.range 15).map (fun i => if 960 * g + 64 * i < x + len ∧ x < 960 * g + 64 * i + 64 then 2 ^ i else 0))

/-- The check granule of a group is in its controller's cache, 4,096 long, with the granules written since its last write-back: an older one
is written back to make room, and one whose group has been written in full is written back (R255, log 51). -/
def State.cacheCheck (n g written : Nat) (s : State) : State :=
  let k := controller n (groupDevice g)
  let mine := s.mem.checkCache.filter (fun x => x.1 == k)
  let was := ((mine.find? (fun x => x.2.1 == g)).map (·.2.2)).getD 0
  let mask := if was ||| written = 2 ^ 15 - 1 then 0 else was ||| written
  let l := if mine.any (fun x => x.2.1 == g) then s.mem.checkCache.map (fun x => if x.1 = k ∧ x.2.1 = g then (k, g, mask) else x)
    else if mine.length < 4096 then s.mem.checkCache ++ [(k, g, mask)]
    else match mine.head? with
      | some x => without (· == x) s.mem.checkCache ++ [(k, g, mask)]
      | none => s.mem.checkCache
  { s with mem := { s.mem with checkCache := l } }

/-- The check granules of the groups that an access covers come into the caches of their controllers (R255). -/
def State.touchExtent (write : Bool) (e : Extent) (s : State) : State :=
  let n := e.base / 0x200000000
  let x := e.base - siteBase n
  if (placeOf e.base).isSite && decide (0 < e.len) then
    (List.range (groupOf (x + e.len - 1) - groupOf x + 1)).foldl (fun t k =>
      t.cacheCheck n (groupOf x + k) (if write then granuleMask (groupOf x + k) x e.len else 0)) s
  else s

/-- The same for every piece of an access. -/
def State.touch (write : Bool) (l : List Extent) (s : State) : State := l.foldl (fun t e => t.touchExtent write e) s

/-- Poison bits after whole granules were written (R256). -/
def clearPoison (l : List Extent) (p : List (Nat × Nat)) : List (Nat × Nat) :=
  without (fun q => l.any (fun e => decide (e.base ≤ q.1) && decide (q.1 + 64 ≤ e.base + e.len))) p

/-- Pieces are written: poison bits of whole granules clear, check granules come into the caches (R255, R256). -/
def State.overwrite (l : List Extent) (s : State) : State :=
  ({ s with mem := { s.mem with poison := clearPoison l s.mem.poison } } : State).touch true l

/-- Bytes at pieces written to module memory. -/
def State.writeMem (l : List Extent) (v : List Byte) (s : State) : State :=
  ({ s with mem := { s.mem with cells := writePieces s.mem.cells l v } } : State).overwrite l

/-! ## Generations and handles (R222, R223, R232, R311) -/

/-- The generation of an entry; entry 65536 holds the value every untouched entry has. -/
def genOf (l : List (Nat × Nat)) (i : Nat) : Nat := (lookupKey i l).getD ((lookupKey 65536 l).getD 1)

/-- The generations after an entry is freed (R223). -/
def bumpGen (i : Nat) (l : List (Nat × Nat)) : List (Nat × Nat) := setKey i (genOf l i + 1) l

/-- A generation of a kind is issued: the highest is kept in the retained domain (R232). -/
def State.noteGen (kind gen : Nat) (s : State) : State :=
  { s with ret := { s.ret with genHigh := setKey kind (Nat.max gen ((lookupKey kind s.ret.genHigh).getD 0)) s.ret.genHigh } }

/-- A handle of Table 11-1; kind 0 is the layout of Table 8-1. -/
def handleWord (kind gen idx : Nat) : Nat := kind * 2 ^ 60 + gen * 65536 + idx

/-- The live memory handle that a word names (R311). -/
def memHandle (s : State) (h : Nat) : Option MemHandle :=
  match splitHandle 1 h with
  | some (i, g) => s.mem.handles.find? (fun x => x.index == i && x.gen == g)
  | none => none

/-- The lowest index with no entry. -/
def freeIndex (used : List Nat) (limit : Nat) : Option Nat :=
  ((List.range (Nat.min limit (used.length + 1))).find? (fun i => !used.contains i))

/-- The live graph that a word names: index, generation, graph. -/
def graphHandle (s : State) (h : Nat) : Option (Nat × Nat × Graph) :=
  match splitHandle 2 h with
  | some (i, g) => s.graphs.find? (fun x => x.1 == i && x.2.1 == g)
  | none => none

/-- The live kernel that a word names. -/
def kernelHandle (s : State) (h : Nat) : Option (Nat × Nat × Kernel) :=
  match splitHandle 3 h with
  | some (i, g) => s.kernels.find? (fun x => x.1 == i && x.2.1 == g)
  | none => none

/-- Model slot i. -/
def modelAt (s : State) (i : Nat) : Model := s.models.getD i Model.reset

/-- A change of one model slot. -/
def State.modModel (i : Nat) (f : Model → Model) (s : State) : State := { s with models := modAt s.models i f }

/-- The slot a model handle names (R222). -/
def modelHandle (s : State) (h : Nat) : Option Nat :=
  match splitHandle 0 h with
  | some (i, g) => if i < 64 ∧ (modelAt s i).state ≠ .empty ∧ (modelAt s i).gen = g then some i else none
  | none => none

/-- A change of one session entry. -/
def State.modSession (i : Nat) (f : Session → Session) (s : State) : State :=
  { s with sessions := s.sessions.map (fun x => if x.index = i then f x else x) }

/-! ## Sessions and their commands (R228, R229) -/

/-- Whether a command still runs. -/
def isLive (s : State) (cid : Nat) : Bool :=
  match cmdAt s cid with
  | some c => c.done.isNone
  | none => false

/-- The commands of a session that still run, in acceptance order; the first is in flight. -/
def sessionQueue (s : State) (x : Session) : List Nat := x.queue.filter (isLive s)

/-- The step in flight of a session. -/
def stepInFlight (s : State) (i : Nat) : Option Nat := (s.runs.find? (fun r => r.session == some i && r.begun)).map (·.cid)

/-- The session of a step that ends without having counted: as it was before the step (R227, R235). -/
def Session.leaveStep (x : Session) : Session :=
  if x.state = .stepping then { x with state := if x.prior = .broken then .broken else .open, stepRing := none } else x

/-- Whether a command has been accepted and waits at a read of host memory (R280). -/
def Cmd.waits (c : Cmd) : Bool := c.accepted && !c.started && c.done.isNone

/-- How many commands of an opcode wait at a read of host memory and name a handle at byte 0x08 (R146, R179). -/
def waitingOn (s : State) (op h : Nat) : Nat := (s.host.cmds.filter (fun c => c.waits && c.opcode == op && c.arg 8 8 == h)).length

/-- Whether a command that waits at a read of host memory uses a model (R240). -/
def modelAwaited (s : State) (k : Nat) : Bool := s.host.cmds.any (fun c => c.waits && (c.heldEpoch.map (·.1)) == some k)

/-- The model and the epoch that a step or a run takes at its acceptance (R145, R242–R244). -/
def acceptedEpoch (s : State) (c : Cmd) : Option (Nat × Nat) :=
  if c.opcode = 0x31 then (modelHandle s (c.arg 0x10 8)).map (fun k => (k, (modelAt s k).current))
  else if c.opcode = 0x22 ∨ c.opcode = 0x23 then
    (sessionHandle s (c.arg 8 8)).map (fun x => (x.model, if x.pinned then x.openEpoch else (modelAt s x.model).current))
  else none

/-- An accepted step joins the commands of its session (R229). -/
def State.joinQueue (c : Cmd) (s : State) : State :=
  match sessionHandle s (c.arg 8 8) with
  | some x => s.modSession x.index (fun y => if y.queue.contains c.cid then y else { y with queue := y.queue ++ [c.cid] })
  | none => s

/-- Whether a retained epoch has users: runs or steps in flight on it, those that wait at a host read among them, or sessions pinned to it (R243). -/
def retainedUsed (s : State) (k : Nat) : Bool :=
  let m := modelAt s k
  s.host.cmds.any (fun c => c.waits && c.heldEpoch == some (k, m.retained)) || s.runs.any (fun r => r.model == some k && r.epoch == m.retained) || s.sessions.any (fun x => x.model == k && x.pinned && x.openEpoch == m.retained)

/-- The retained epoch of a model leaves once nobody uses it. -/
def State.settleEpoch (k : Nat) (s : State) : State :=
  let m := modelAt s k
  if m.retained = 0 ∨ retainedUsed s k = true then s
  else s.modModel k (fun m =>
    { m with retained := 0, shards := m.shards.filter (fun x =>
        decide (m.current ≤ x.epoch) || !m.shards.any (fun y => y.index == x.index && decide (x.epoch < y.epoch) && decide (y.epoch ≤ m.current))) })

/-- The triple of a run's collective operation (R140). -/
def collTag (r : Run) (o : OpDesc) : CollTag :=
  { crc := r.graph.crc, id := ((r.graph.colls[field 0 4 o.attr]?).map (·.id)).getD 0, inst := r.inst.toNat }

/-- The triple as the operand of EVENT and RECORDS messages spells it; not laid out (log 20). -/
def collWord (r : Run) (o : OpDesc) : Nat :=
  let t := collTag r o
  (Config.collOperand (BitVec.ofNat 32 t.crc) (BitVec.ofNat 32 t.id) (BitVec.ofNat 32 t.inst)).toNat

/-- Whether a word spells the triple of a collective operation of a run (R140). -/
def ownWord (r : Run) (w : Nat) : Bool := r.graph.ops.any (fun o => decide (0x0600 ≤ o.opcode) && decide (o.opcode ≤ 0x0603) && collWord r o == w)

/-- A command that took an epoch and has ended, or runs by now, may have been the last to wait with it (R243). -/
def State.settleHeld (cid : Nat) (s : State) : State :=
  match (cmdAt s cid).bind (·.heldEpoch) with
  | some (k, _) => s.settleEpoch k
  | none => s

/-- A run leaves the table, and what has come under its triples; a session that it stepped is as it was before, and an epoch that it was the last to
use goes (R243). -/
def State.dropRun (cid : Nat) (s : State) : State :=
  let gone := s.runs.filter (fun r => r.cid == cid)
  let hit := (gone.filter (·.begun)).filterMap (·.session)
  let t : State :=
    { s with runs := without (fun r => r.cid == cid) s.runs,
             sessions := s.sessions.map (fun x => if hit.contains x.index then x.leaveStep else x),
             trans := { s.trans with joins := without (fun j => gone.any (fun r => ownWord r j.2)) s.trans.joins },
             cel := { s.cel with units := without (fun u => u.cid == cid) s.cel.units } }
  (gone.filterMap (·.model)).foldl (fun t k => t.settleEpoch k) t

/-- A launch leaves the table. -/
def State.dropLaunch (cid : Nat) (s : State) : State :=
  { s with launches := without (fun l => l.cid == cid) s.launches,
           cel := { s.cel with units := without (fun u => u.cid == cid) s.cel.units } }

/-- A run, a launch or another command ends with a failure that carries a source. -/
def State.failWork (cid : Nat) (status : Status) (source : Nat) (s : State) : State :=
  (((s.endWork cid status source).dropRun cid).dropLaunch cid).settleHeld cid

/-- A session's blocks, moves and entry are gone (R223), and an epoch that it was the last to use (R243); its leases are to be given back. -/
def State.dropSession (i : Nat) (s : State) : State :=
  let ids := (s.cel.blocks.filter (fun b => b.session == i)).map (·.id)
  let t : State :=
    { s with sessions := without (fun x => x.index == i) s.sessions, sessionGen := bumpGen i s.sessionGen,
             migs := without (fun m => m.session == some i) s.migs,
             cel := { s.cel with blocks := without (fun b => b.session == i) s.cel.blocks,
                                 moves := without (fun m => ids.contains m.block) s.cel.moves,
                                 heldLeases := s.cel.heldLeases.map (fun l => if l.session = some i then { l with session := none } else l) } }
  ((s.sessions.filter (fun x => x.index == i)).map (·.model)).foldl (fun t k => t.settleEpoch k) t

/-- A session loses a block (R233). A migration of it that is not yet in doubt ends so; the copy of a target goes; an IN_DOUBT session stays
so, and its loss is remembered for its snapshot (R250, log 31). -/
def State.breakSession (status : Status) (source i : Nat) (s : State) : State :=
  match s.migs.find? (fun m => m.session == some i) with
  | some m =>
    if !m.isSource then (s.failCmd m.cid status source).dropSession i
    else if m.ready then s.modSession i (fun x => { x with prior := .broken })
    else (({ s with migs := without (fun q => q.session == some i) s.migs } : State).failCmd m.cid status source).modSession i
      (fun x => { x with state := .broken, stepRing := none })
  | none =>
    let s1 := match stepInFlight s i with
      | some cid => s.failWork cid status source
      | none => s
    s1.modSession i (fun x => { x with state := .broken, stepRing := none })

/-! ## Which operation fails (R148) -/

/-- A change of one run. -/
def State.modRun (cid : Nat) (f : Run → Run) (s : State) : State := { s with runs := s.runs.map (fun r => if r.cid = cid then f r else r) }

/-- The layer and kind (false K, true V) of a cache tensor that is read. -/
def cacheRead (m : Model) (id : Nat) : Option (Nat × Bool) :=
  (List.range m.layers.length).findSome? (fun i => match m.layers[i]? with
    | some (k, v, _, _) => if k = id then some (i, false) else if v = id then some (i, true) else none
    | none => none)

/-- Operations of a run that can still run: neither ended nor behind one that failed. -/
def openOps (r : Run) : List Nat :=
  let failed := r.opsFailed.map (·.1)
  let step (acc : List Nat × List Nat) (i : Nat) : List Nat × List Nat :=
    match r.graph.ops[i]? with
    | none => acc
    | some o =>
      if r.opsDone.contains i then acc
      else if failed.contains i || o.ins.any (fun t => acc.1.any (fun k => match r.graph.ops[k]? with | some q => q.outs.contains t | none => false)) then
        (acc.1 ++ [i], acc.2)
      else (acc.1, acc.2 ++ [i])
  ((List.range r.graph.ops.length).foldl step ([], [])).2

/-- The lowest operation of a run that can still run and touches one of some tensors. -/
def blamed (r : Run) (hit : Nat → Bool) : Option Nat :=
  (openOps r).find? (fun i => match r.graph.ops[i]? with | some o => o.ins.any hit || o.outs.any hit | none => false)

/-- An operation of a run has failed. -/
def Run.fail (op : Nat) (status : Status) (source : Nat) (r : Run) : Run := { r with opsFailed := r.opsFailed ++ [(op, status, source)] }

/-- The lowest operation that touches what was lost has failed (R148). -/
def State.blame (cid : Nat) (hit : Run → Nat → Bool) (status : Status) (source : Nat) (s : State) : State :=
  s.modRun cid (fun r => match r.begun, blamed r (hit r) with
    | true, some i => r.fail i status source
    | _, _ => r)

/-- The lowest operation of a run that can still run and has a unit on a site has failed (R148, R486). -/
def State.blameSite (cid n : Nat) (status : Status) (source : Nat) (s : State) : State :=
  s.modRun cid (fun r => match r.begun, (openOps r).find? (fun i => s.cel.units.any (fun u => u.cid == cid && u.op == i && u.site == some n)) with
    | true, some i => r.fail i status source
    | _, _ => r)

/-- Whether a tensor of a run's cache map is read from one of some blocks. -/
def readsBlock (s : State) (p : KvBlock → Bool) (r : Run) (t : Nat) : Bool :=
  match sessionOf s r with
  | some x => match cacheRead (modelAt s x.model) t with
    | some (layer, isV) => s.cel.blocks.any (fun b => b.session == x.index && b.layer == layer && b.isV == isV && p b)
    | none => false
  | none => false

/-- In every step, the lowest operation that reads one of some blocks has failed. -/
def State.blameBlocks (p : KvBlock → Bool) (status : Status) (source : Nat) (s : State) : State :=
  (s.runs.map (·.cid)).foldl (fun t c => t.blame c (readsBlock s p) status source) s

/-! ## What is lost with a place -/

/-- Whether an extent lies in a place. -/
def inPlace (pl : Place) (e : Extent) : Bool := placeOf e.base == pl

/-- Blocks held in a place are lost and their sessions enter BROKEN (R233, R272). -/
def State.loseBlocks (pl : Place) (status : Status) (source : Nat) (s : State) : State :=
  let hit := (s.cel.blocks.filter (fun b => b.place == pl)).map (·.session)
  let s1 := hit.foldl (fun t i => t.breakSession status source i) (s.blameBlocks (fun b => b.place == pl) status source)
  { s1 with cel := { s1.cel with blocks := without (fun b => b.place == pl) s1.cel.blocks } }

/-- Moves that touch a place end: those from it lose their block with it, those to it keep the source (R272). -/
def State.loseMoves (pl : Place) (s : State) : State :=
  { s with cel := { s.cel with moves := without (fun m => m.dest == pl || m.oldPlace == pl) s.cel.moves } }

/-- Weight stripes in a place are lost: their models reload (R207). A lost part of a CXL copy leaves its model as it is (R272). -/
def State.loseStripes (pl : Place) (s : State) : State :=
  { s with models := s.models.map (fun m =>
      let hit := m.shards.any (fun x => x.stripes.any (inPlace pl))
      { m with state := if hit && m.state == .ready then .reloading else m.state,
               shards := m.shards.map (fun x =>
                 let y := { x with copyLost := x.copyLost || x.cxlCopy.any (inPlace pl) }
                 if x.stripes.any (inPlace pl) then { y with lost := true, stripes := without (inPlace pl) x.stripes } else y) }) }

/-- The bytes of a window are gone. -/
def State.loseBytes (base len : Nat) (s : State) : State :=
  { s with mem := { s.mem with cells := clearRange s.mem.cells base len,
                               poison := without (fun p => decide (base ≤ p.1) && decide (p.1 < base + len)) s.mem.poison } }

/-- Whether a tensor of a run is a TEMP tensor or bound to a handle with bytes in a place. -/
def tensorIn (s : State) (pl : Place) (r : Run) (id : Nat) : Bool :=
  r.temps.any (fun t => t.tensor == id && (t.store.any (fun n => pl == .site n) || t.extents.any (inPlace pl)))
  || r.bound.any (fun b => b.1 == id && (match s.mem.handles.find? (fun h => h.index == b.2) with
    | some h => h.extents.any (inPlace pl)
    | none => false))

/-- Runs and launches in flight that need a handle, a TEMP tensor or a saved cluster with bytes in a place (R70, R185, R579). -/
def runsNeeding (s : State) (pl : Place) : List Nat :=
  (s.runs.filter (fun r => (r.temps.map (·.tensor) ++ r.bound.map (·.1)).any (tensorIn s pl r))).map (·.cid)
  ++ (s.launches.filter (fun l => l.clusters.any (fun c => c.image.any (inPlace pl)) || l.slots.any (fun w =>
    match memHandle s w with
    | some h => h.extents.any (inPlace pl)
    | none => false))).map (·.cid)

/-- They end with RESULT_SUSPECT (R70, R148, R185). -/
def State.failNeeding (pl : Place) (source : Nat) (s : State) : State :=
  (runsNeeding s pl).foldl (fun t c => (t.blame c (tensorIn s pl) .resultSuspect source).failWork c .resultSuspect source) s

/-- The contents of a site's GDDR7 are lost (R26, R70, R265). -/
def State.loseSite (n source : Nat) (s : State) : State :=
  (((((s.failNeeding (.site n) source).loseBlocks (.site n) .resultSuspect source).loseMoves (.site n)).loseStripes (.site n)).loseBytes (siteBase n) siteUsable)

/-- The contents of a CXL port are lost (R272). -/
def State.losePort (p source : Nat) (s : State) : State :=
  (((((s.failNeeding (.cxl p) source).loseBlocks (.cxl p) .resultSuspect source).loseMoves (.cxl p)).loseStripes (.cxl p)).loseBytes (portBase p) 0x40000000000)

/-- A unit that its tile abandons: it is to run on another (R204). -/
def WorkUnit.abandoned (n : Nat) (u : WorkUnit) : WorkUnit := { u with site := none, cells := [], tried := addOnce n u.tried }

/-- Work units on a site go back to the queue (R204, R579). -/
def State.requeueUnits (n : Nat) (s : State) : State :=
  { s with cel := { s.cel with units := s.cel.units.map (fun u => if u.site = some n then u.abandoned n else u) } }

/-- Unfinished graph, prefill and decode units of a drained site go back to the queue (Table 7-4 step 3). -/
def State.requeueRuns (n : Nat) (s : State) : State :=
  { s with cel := { s.cel with units := s.cel.units.map (fun u =>
      if u.site = some n ∧ s.runs.any (fun r => r.cid == u.cid) = true then u.abandoned n else u) } }

/-- Whether a cluster runs at a site. -/
def Cluster.runsAt (n : Nat) (c : Cluster) : Bool := c.site == some n && !c.ended

/-- Launches with a cluster at a site complete with RESULT_SUSPECT (R185, R579). -/
def State.suspectLaunches (n source : Nat) (s : State) : State :=
  ((s.launches.filter (fun l => l.clusters.any (·.runsAt n))).map (·.cid)).foldl
    (fun t c => t.failWork c .resultSuspect source) s

/-- Commands with work units on a site. -/
def commandsOn (s : State) (n : Nat) : List Nat :=
  ((s.cel.units.filter (fun u => u.site == some n)).map (·.cid)).eraseDups

end Sys2Proof.Machine
end

