-- ==== Sys2Proof/Machine/Roles.lean ====
section
/-! DEFINITION. Roles and groups of tiles, and which DRAUGHT tile streams which site (R188–R192, R206, R216). -/
namespace Sys2Proof.Machine

/-! ## Roles and groups (R188–R191) -/

/-- The role a tile counts under: a DRAINING tile counts under its new role (R194). -/
def Tile.planRole (t : Tile) : Role := t.nextRole.getD t.role

/-- Compute sites counted under a role. -/
def roleSites (s : State) (r : Role) : List Nat := (computeSites s).filter (fun n => (tileAt s n).planRole == r)

/-- Tiles per role: MASH, DRAUGHT, CASK. -/
def roleCounts (s : State) : Nat × Nat × Nat :=
  ((roleSites s .mash).length, (roleSites s .draught).length, (roleSites s .cask).length)

/-- The group that a kind of work runs on (R189, R190). -/
def groupRole (s : State) (r : Role) : Role := match s.cel.moduleRole with | .none => r | m => m

/-- Logical cells of a role's group. -/
def groupCells (s : State) (r : Role) : Nat := total ((roleSites s r).map (fun n => (tileAt s n).logical.length))

/-- Capacity of a group: logical cells × issue rate, in 64ths of a logical cell (Table 7-3). -/
def groupCapacity (s : State) (r : Role) : Nat :=
  total ((roleSites s r).map (fun n => (tileAt s n).logical.length * (tileAt s n).thermal.issueRate))

/-- Whether the work of a unit is done: its operation's results are in, or its cluster has ended. -/
def unitDone (s : State) (u : WorkUnit) : Bool :=
  s.runs.any (fun r => r.cid == u.cid && (r.opsDone.contains u.op || r.opsFailed.any (fun f => f.1 == u.op)))
  || s.launches.any (fun l => l.cid == u.cid && l.clusters.any (fun c => c.index == u.op && c.ended))

/-- The code words that the slowest warp of a started cluster has issued. -/
def wordsIssued (s : State) (u : WorkUnit) : Nat :=
  (least ((((s.launches.filter (fun l => l.cid == u.cid)).flatMap (·.clusters)).filter (fun c => c.index == u.op)).flatMap (fun c =>
    c.groups.flatMap (fun g => (g.warps.filter (fun w => !w.exited)).map (·.issued))))).getD 0

/-- The work of a unit that remains, in core cycles: none once it is done, and of a cluster the code words that its slowest warp has not issued (R192;
DESIGN CHOICE, log 29). -/
def unitLeft (s : State) (u : WorkUnit) : Nat := if unitDone s u then 0 else u.work - wordsIssued s u

/-- Pending work of a kind, in logical-cell milliseconds at full issue: its units' remaining core cycles at 1.8 GHz (Table 7-3; log 29). -/
def pendingWork (s : State) (kind : Role) : Nat := total ((s.cel.units.filter (fun u => u.kind == kind)).map (unitLeft s)) / 1800000

/-- Whether pending work of a kind exceeds 500 ms of its group's capacity (R216). -/
def overloaded (s : State) (kind : Role) : Bool := decide (500 * groupCapacity s (groupRole s kind) < 64 * pendingWork s kind)

/-! ## Streaming (R206) -/

/-- Weight bytes held at a site. -/
def weightBytes (s : State) (n : Nat) : Nat :=
  total (s.models.flatMap (fun m => m.shards.flatMap (fun x => (x.stripes.filter (inPlace (.site n))).map (·.len))))

/-- Hops between two sites of the mesh. -/
def siteHops (a b : Nat) : Nat := (a / 8 - b / 8) + (b / 8 - a / 8) + (a % 8 - b % 8) + (b % 8 - a % 8)

/-- The DRAUGHT tile that takes a site: its own, else the one with the fewest sites at the smallest distance, ties to the lowest n. -/
def streamerFor (tiles : List Nat) (acc : List (Nat × Nat)) (n : Nat) : Option Nat :=
  if tiles.contains n then some n
  else
    let held (t : Nat) : Nat := (acc.filter (fun p => p.2 == t)).length
    pickBy (fun a b => siteHops n a < siteHops n b || (siteHops n a == siteHops n b && held a < held b)) tiles

/-- The tiles that hold the DRAUGHT role now: one that drains holds its old role to the end of the drain. -/
def draughtTiles (s : State) : List Nat := (computeSites s).filter (fun n => (tileAt s n).role == .draught)

/-- Every weight-holding site is given to one DRAUGHT tile (R206). -/
def State.assignStreams (s : State) : State :=
  let tiles := draughtTiles s
  let sites := (List.range 64).filter (fun n => weightBytes s n != 0)
  let own := (sites.filter (tiles.contains ·)).map (fun n => (n, n))
  let all := (sites.filter (!tiles.contains ·)).foldl (fun acc n => match streamerFor tiles acc n with
    | some t => acc ++ [(n, t)]
    | none => acc) own
  { s with cel := { s.cel with streamed := all } }

end Sys2Proof.Machine
end

