-- ==== Sys2Proof/Machine/Flits.lean ====
section
/-! DEFINITION. Flits (R430, R431) and transaction messages (R448, Tables 15-7, 15-8). -/
namespace Sys2Proof.Machine

/-! ## Flits (R430, R431) -/

/-- A flit header (Table 15-2). -/
def flitHeader (vc kind framing ack len : Nat) : Nat := vc * 2 ^ 29 + kind * 2 ^ 27 + framing * 2 ^ 25 + ack * 2 ^ 11 + len * 16

/-- The header word of a flit. -/
def flitWord (f : List Byte) : Nat := field 0 4 f

/-- Header fields of a flit. -/
def flitVc (f : List Byte) : Nat := bits 31 29 (flitWord f)
/-- Kind: 0 FILLER, 1 DATA, 2 LINK. -/
def flitKind (f : List Byte) : Nat := bits 28 27 (flitWord f)
/-- Framing: 1 first, 0 middle, 2 last, 3 single. -/
def flitFraming (f : List Byte) : Nat := bits 26 25 (flitWord f)
/-- Acknowledged sequence. -/
def flitAck (f : List Byte) : Nat := bits 24 11 (flitWord f)
/-- Payload bytes in use. -/
def flitLen (f : List Byte) : Nat := bits 10 4 (flitWord f)
/-- The 120 payload bytes. -/
def flitPayload (f : List Byte) : List Byte := slice 4 120 f

/-- The check of R431 over 124 bytes and the unsent k. -/
def flitCrc (f : List Byte) (k : Nat) : Nat := crc32c (f.take 124 ++ leBytes 2 k)

/-- Whether a flit's CRC passes for k. -/
def flitOk (f : List Byte) (k : Nat) : Bool := f.length == 128 && field 0x7C 4 f == flitCrc f k

/-- A payload filled up to 120 bytes. -/
def padTo (n : Nat) (l : List Byte) : List Byte := (l ++ List.replicate n 0).take n

/-- A flit before its acknowledgement and CRC are set. -/
def protoFlit (vc framing len : Nat) (payload : List Byte) : List Byte :=
  leBytes 4 (flitHeader vc 1 framing 0 len) ++ padTo 120 payload ++ List.replicate 4 0

/-- A flit as it is sent: acknowledgement and CRC filled in. -/
def sealFlit (ack k : Nat) (f : List Byte) : List Byte :=
  let w := flitWord f
  let w' := w - bits 24 11 w * 2 ^ 11 + ack * 2 ^ 11
  let g := leBytes 4 w' ++ slice 4 120 f
  g ++ leBytes 4 (flitCrc g k)

/-- The DATA flits of a message, at most 35 (R448). -/
def flitsOf (vc : Nat) (first : Bool) : Nat → List Byte → List (List Byte)
  | 0, _ => []
  | n + 1, m =>
    if m.length ≤ 120 then [protoFlit vc (if first then 3 else 2) m.length m]
    else protoFlit vc (if first then 1 else 0) 120 (m.take 120) :: flitsOf vc false n (m.drop 120)

/-- The flits of a message. -/
def messageFlits (vc : Nat) (m : List Byte) : List (List Byte) := flitsOf vc true 35 m

/-- One more flit, with its age, for messages being put together, each with its channel, whether it waits for its last flit, the age of its first flit and
its bytes: flits of one channel follow one another, whatever other channels send between them (R437, R448). -/
def joinFlit (acc : List (Nat × Bool × Nat × List Byte)) (q : Nat × List Byte) : List (Nat × Bool × Nat × List Byte) :=
  let vc := flitVc q.2
  let part := (flitPayload q.2).take (flitLen q.2)
  let last := flitFraming q.2 == 2 || flitFraming q.2 == 3
  let start := flitFraming q.2 == 1 || flitFraming q.2 == 3
  let waits (m : Nat × Bool × Nat × List Byte) : Bool := m.1 == vc && m.2.1
  if !start && acc.any waits then acc.map (fun m => if waits m then (vc, !last, m.2.2.1, m.2.2.2 ++ part) else m)
  else acc.map (fun m => if waits m then (m.1, false, m.2.2) else m) ++ [(vc, !last, q.1, part)]

/-- Flits with their ages grouped back into messages, in the order of their first flits, each with the age of its first flit; one without its last flit
counts too. -/
def regroup (l : List (Nat × List Byte)) : List (Nat × List Byte) := (l.foldl joinFlit []).map (·.2.2)

/-! ## Bits on the wires of a bundle (R432) -/

/-- Bit b of a flit. -/
def flitBit (f : List Byte) (b : Nat) : Bool := (f.getD (b / 8) 0).getLsbD (b % 8)

/-- The live data wires of a direction, ascending. -/
def liveWires (dropped : Option Nat) : List Nat := (List.range 64).filter (fun d => dropped != some (d / 16))

/-- The bit that data wire d carries in unit interval t: of the one flit at full width, of the three flits of a frame as one string at degraded width;
none on a dropped wire. -/
def dataBit (dropped : Option Nat) (flits : List (List Byte)) (t d : Nat) : Option Bool :=
  match dropped with
  | none => some (flitBit (flits.headD []) (64 * t + d))
  | some _ =>
    let m := (liveWires dropped).findIdx (· == d)
    let b := 48 * t + m
    if m < 48 then some (flitBit (flits.getD (b / 1024) []) (b % 1024)) else none

/-- The bit that a spare wire carries: that of the wire it stands in for; a free spare carries none of a flit (R355, R362). -/
def spareBit (dropped : Option Nat) (flits : List (List Byte)) (t : Nat) : SpareUse → Option Bool
  | .data d => dataBit dropped flits t d
  | .valid => some true
  | .free => none

/-! ## Transaction messages (Table 15-7) -/

/-- Fields of a transaction header. -/
def msgDst (m : List Byte) : Nat := field 0 2 m
/-- Source module. -/
def msgSrc (m : List Byte) : Nat := field 2 2 m
/-- Operation, bit 7 set in a response. -/
def msgOp (m : List Byte) : Nat := field 4 1 m
/-- Hops remaining. -/
def msgHops (m : List Byte) : Nat := field 5 1 m
/-- Tag: slot and generation. -/
def msgTag (m : List Byte) : Nat := field 6 2 m
/-- Response code. -/
def msgResp (m : List Byte) : Nat := field 0xB 1 m
/-- Length of the data. -/
def msgLen (m : List Byte) : Nat := field 0xC 4 m
/-- Operand. -/
def msgOperand (m : List Byte) : Nat := field 0x10 8 m

/-- A transaction message. -/
def makeMsg (dst src op hops tag dstUnit srcUnit tflags resp operand : Nat) (data : List Byte) : List Byte :=
  leBytes 2 dst ++ leBytes 2 src ++ leBytes 1 op ++ leBytes 1 hops ++ leBytes 2 tag ++ leBytes 1 dstUnit ++ leBytes 1 srcUnit
  ++ leBytes 1 tflags ++ leBytes 1 resp ++ leBytes 4 data.length ++ leBytes 8 operand ++ data

/-- The virtual channel of an operation (Table 15-8). -/
def msgVc (op : Nat) : Nat :=
  match op with
  | 0x01 => 3 | 0x02 => 3 | 0x10 => 3 | 0x81 => 4 | 0x82 => 4 | 0x90 => 4
  | 0x20 => 5 | 0x21 => 5 | 0xA0 => 4 | 0xA1 => 4 | 0x40 => 6 | _ => 0

/-! ## Messages that keep to Tables 15-7 and 15-8 (R451) -/

/-- Whether an operation is one of Table 15-8. -/
def opKnown (op : Nat) : Bool := [0x01, 0x02, 0x10, 0x11, 0x20, 0x21, 0x30, 0x40].contains (op % 128)

/-- Whether a unit code is a site or the hub. -/
def unitCode (u : Nat) : Bool := decide (u < 64) || u == 0x80

/-- Whether a message keeps to Tables 15-7 and 15-8 (R451). -/
def messageOk (m : List Byte) : Bool :=
  decide (24 ≤ m.length) && decide (m.length ≤ 4120) && msgLen m == m.length - 24 && opKnown (msgOp m)
  && decide (msgDst m < 8192) && decide (msgSrc m < 8192) && decide (msgHops m < 16) && decide (field 0xA 1 m < 2)
  && unitCode (field 8 1 m) && unitCode (field 9 1 m) && (bit 7 (msgOp m) || msgResp m == 0) && (!bit 7 (msgOp m) || decide (msgResp m < 6))

end Sys2Proof.Machine
end

