-- ==== Sys2Proof/Machine/Records.lean ====
section
/-! DEFINITION. What the hub holds of its records in flash: retired and failed parts, and what was last recorded of others. -/
namespace Sys2Proof.Machine

/-! ## Records the hub holds (R27, R513) -/

/-- Whether a site is recorded as retired or isolated; true for ISOLATED inside. -/
def recordedSite (s : State) (n : Nat) : Option Bool :=
  s.log.held.findSome? (fun m => match m with | .retiredSite k i => if k = n then some i else none | _ => none)

/-- Cells of a site recorded as retired (R63). -/
def recordedCells (s : State) (n : Nat) : List Nat :=
  s.log.held.filterMap (fun m => match m with | .retiredCell k c => if k = n then some c else none | _ => none)

/-- Groups of a site recorded as retired (R259). -/
def recordedGroups (s : State) (n : Nat) : List Nat :=
  s.log.held.filterMap (fun m => match m with | .retiredGroup k g => if k = n then some g else none | _ => none)

/-- The failed device recorded for a site's memory (R265), 0 for none. -/
def recordedMemory (s : State) (n : Nat) : Nat :=
  (s.log.held.findSome? (fun m => match m with | .failedMemory k d => if k = n then some d else none | _ => none)).getD 0

/-- Whether a bundle end is recorded as retired (R366). -/
def recordedBundle (s : State) (b : BundleEnd) : Bool := s.log.held.any (fun m => m == .retiredBundle b)

/-- Wires recorded as failed at a receiving end (R360). -/
def recordedWires (s : State) (b : BundleEnd) : List Nat :=
  s.log.held.filterMap (fun m => match m with | .failedWire k w => if k = b then some w else none | _ => none)

/-- The map recorded for a receiving end: its spares and the dropped group (R371; Table 18-1). -/
def recordedMap (s : State) (b : BundleEnd) : List SpareUse × Option Nat :=
  (s.log.held.findSome? (fun m => match m with | .laneMap k u g => if k = b then some (u, g) else none | _ => none)).getD
    (List.replicate 4 .free, none)

/-- Whether a bundle is recorded as retired at either end (R366). -/
def bundleRecorded (s : State) (b : BundleEnd) : Bool := recordedBundle s b || (peerEnd b).any (recordedBundle s)

/-- Rings of an engine recorded as retired (R395). -/
def recordedRings (s : State) (e : Nat) : List Nat :=
  s.log.held.filterMap (fun m => match m with | .retiredRing k r => if k = e then some r else none | _ => none)

/-- The heater code recorded at a ring's last lock. -/
def recordedHeater (s : State) (e r : Nat) : Nat :=
  (s.log.held.findSome? (fun m => match m with | .heater k q c => if k = e ∧ q = r then some c else none | _ => none)).getD 0

/-- Recovery times recorded for a resource, newest first (R501). -/
def recordedTimes (s : State) (r : Resource) : List Nat :=
  (s.log.held.findSome? (fun m => match m with | .recovery k => if k.res = r then some k.times else none | _ => none)).getD []

/-- Points recorded for a wavelength, the 30 newest of them, oldest first (R477, R513). -/
def recordedOptical (s : State) (e r : Nat) : List (Nat × OpticalPointData) :=
  let l := s.log.held.filterMap (fun m => match m with | .optical a b t p => if a = e ∧ b = r then some (t, p) else none | _ => none)
  l.drop (l.length - 30)

/-- Points recorded for a die, oldest first (R474). -/
def recordedPoints (s : State) (d : DieRef) : List (Nat × Int) :=
  s.log.held.filterMap (fun m => match m with | .ageing k t v => if k = d then some (t, v) else none | _ => none)

/-- Whether every bundle of an engine is recorded as retired (R366). -/
def engineCut (s : State) (e : Nat) : Bool := (List.range 3).all (fun k => bundleRecorded s (.engine (Fin.ofNat 24 e) (Fin.ofNat 3 k)))

/-- Whether every bundle of a site is recorded as retired (R25, R366). -/
def siteCut (s : State) (n : Nat) : Bool :=
  let wired := ((List.range 16).map (fun i => BundleEnd.tile (Fin.ofNat 64 n) (Fin.ofNat 16 i))).filter (fun b => (peerEnd b).isSome)
  wired.all (bundleRecorded s)

/-- Whether a sensor is retired for good (R500). -/
def retiredSensor (s : State) (x : SensorRef) : Bool := s.log.held.any (fun m => m == .retiredSensor x)

end Sys2Proof.Machine
end

