-- ==== Sys2Proof/Machine/Mesh.lean ====
section
/-! DEFINITION. The mesh of the panel: which bundles join its dies (R354, R355), its route tables (R35–R37), and messages that go over it
(R36, R39, R370). -/
namespace Sys2Proof.Machine

/-! ## Bundles (R354, R355, R366) -/

/-- Whether a direction carries flits. -/
def BundleDir.live (d : BundleDir) : Bool := d.state == .full || d.state == .degraded

/-- Whether the die at a bundle end has lost its clock: it no longer drives valid (R33). -/
def silent (s : State) : BundleEnd → Bool
  | .tile n _ => (tileAt s n).clockLost
  | .hub _ => false
  | .engine e _ => (engineAt s e).clockLost

/-- Whether both directions of a bundle carry flits. -/
def bundleLive (s : State) (b : BundleEnd) : Bool :=
  (bundleAt s b).live && !silent s b && match peerEnd b with | some p => (bundleAt s p).live && !silent s p | none => false

/-- The ends of one die or one tile edge in order: bundles that can take over flits (R370). -/
def siblings : BundleEnd → List BundleEnd
  | .tile n i => ((List.range 4).map (fun j => BundleEnd.tile n (Fin.ofNat 16 (4 * (i.val / 4) + j)))).filter (· ≠ .tile n i)
  | .hub b => [BundleEnd.hub (Fin.ofNat 16 (b.val / 2 * 2)), .hub (Fin.ofNat 16 (b.val / 2 * 2 + 1))].filter (· ≠ .hub b)
  | .engine e k => ((List.range 3).map (fun j => BundleEnd.engine e (Fin.ofNat 3 j))).filter (· ≠ .engine e k)

/-- The bundle ends of a tile. -/
def tileEnds (n : Nat) : List BundleEnd := (List.range 16).map (fun i => .tile (Fin.ofNat 64 n) (Fin.ofNat 16 i))

/-! ## Stations and the bundles between them -/

/-- The die at which a bundle end stands. -/
def endStation : BundleEnd → Station
  | .tile n _ => .site n | .hub _ => .hub | .engine e _ => .engine e

/-- The number of a station: a site, 0x80 the hub, 0xC0 + e an engine. -/
def Station.code : Station → Nat
  | .site n => n | .hub => 0x80 | .engine e => 0xC0 + e

/-- The bundle ends of a station. -/
def stationEnds : Station → List BundleEnd
  | .site n => tileEnds n
  | .hub => (List.range 16).map (fun b => .hub (Fin.ofNat 16 b))
  | .engine e => (List.range 3).map (fun k => .engine (Fin.ofNat 24 e) (Fin.ofNat 3 k))

/-- The ends of a station whose bundles lead to another. -/
def endsToward (a b : Station) : List BundleEnd := (stationEnds a).filter (fun x => (peerEnd x).map endStation == some b)

/-- The bundle that (source, destination, VC) takes among the live bundles of an edge: h mod L (R370). -/
def chooseEnd (s : State) (f : Flight) (a b : Station) : Option BundleEnd :=
  let l := (endsToward a b).filter (bundleLive s)
  l[Config.flowHash f.src.code f.dst.code f.vc % l.length]?

/-! ## Route tables (R35, R36) -/

/-- Whether a bundle is retired, or out of service for the time being (R366, R510). -/
def bundleGone (s : State) (b : BundleEnd) : Bool :=
  bundleRecorded s b || (bundleAt s b).tempRetired || match peerEnd b with | some p => (bundleAt s p).tempRetired | none => true

/-- Whether an edge of a site has no bundle left; edges that lead nowhere, and those to engines, do not count. -/
def edgeCut (s : State) (n edge : Nat) : Bool :=
  ((neighbour n edge).isSome || (edge == 3 && n % 8 == 0))
  && ((List.range 4).filter (fun k => (peerEnd (.tile (Fin.ofNat 64 n) (Fin.ofNat 16 (4 * edge + k)))).isSome)).all
    (fun k => bundleGone s (.tile (Fin.ofNat 64 n) (Fin.ofNat 16 (4 * edge + k))))

/-- Whether a site is not in the mesh. -/
def siteOut (s : State) (n : Nat) : Bool := recordedSite s n == some true || (tileAt s n).state == .isolated

/-- The tables of the panel as it stands, under a number. -/
def meshOf (s : State) (number : Nat) : MeshTable :=
  { number, out := (List.range 64).filter (siteOut s),
    cut := (List.range 64).flatMap (fun n => ((List.range 4).filter (edgeCut s n)).map (fun e => (n, e))),
    idle := (List.range 8).filter (fun r => !(List.range 2).any (fun j => bundleLive s (.hub (Fin.ofNat 16 (2 * r + j))))) }

/-! ## Messages on the mesh (R36, R39, R370) -/

/-- The flits of a message at the end of a queue. -/
def LinkEnd.queue (vc : Nat) (m : List Byte) (l : LinkEnd) : LinkEnd :=
  { l with txQueue := l.txQueue ++ (messageFlits vc m).map (fun f => (vc, f)) }

/-- A flit that goes on with a message already begun. -/
def midMessage (q : Nat × List Byte) : Bool := flitFraming q.2 == 0 || flitFraming q.2 == 2

/-- The flits of a queue cut into messages. -/
def splitQueue : List (Nat × List Byte) → List (List (Nat × List Byte))
  | [] => []
  | q :: t => match splitQueue t with
    | m :: l => if (m.head?).any midMessage then (q :: m) :: l else [q] :: m :: l
    | [] => [[q]]

/-- A resent message goes ahead of the messages that wait, behind the rest of one begun and behind earlier resent ones (R444). -/
def LinkEnd.queueAhead (vc : Nat) (m : List Byte) (l : LinkEnd) : LinkEnd :=
  let early (q : List (Nat × List Byte)) : Bool := (q.head?).any (fun p => midMessage p || bit 0 (field 0xA 1 (flitPayload p.2)))
  let groups := splitQueue l.txQueue
  { l with txQueue := (groups.takeWhile early).flatten ++ (messageFlits vc m).map (fun f => (vc, f)) ++ (groups.dropWhile early).flatten }

/-- A message has come to its end: an engine's transmit queue, or the unit it is for. -/
def State.arrive (f : Flight) (s : State) : State :=
  let join (l : LinkEnd) : LinkEnd := if bit 0 (field 0xA 1 f.message) then l.queueAhead f.vc f.message else l.queue f.vc f.message
  match f.dst with
  | .engine e => s.modEngine e (fun x => { x with link := join x.link })
  | u => { s with trans := { s.trans with arrived := s.trans.arrived ++ [(u.code, f.message)] } }

/-- The tables of a number. -/
def tableAt (s : State) (number : Nat) : Option MeshTable := s.trans.tables.find? (fun t => t.number == number)

/-- A flight is remembered. -/
def State.noteFlight (f : Flight) (s : State) : State := { s with trans := { s.trans with flights := s.trans.flights ++ [f] } }

/-- A flight leaves the list. -/
def State.endFlight (f : Flight) (s : State) : State := { s with trans := { s.trans with flights := s.trans.flights.erase f } }

/-- A message that is not in the list goes on from a station under its tables: to its end, or over the next bundle (R35, R36). -/
def State.tryHop (f : Flight) (here : Station) (s : State) : Option State :=
  if here = f.dst then some (s.arrive f)
  else
    match ((tableAt s f.table).bind (fun t => t.path f.src f.dst)).bind (after here) with
    | none => none
    | some next => match chooseEnd s f here next with
      | some b => some ((s.modBundle b (fun d => { d with link := d.link.queue f.vc f.message })).noteFlight f)
      | none => none

/-- A message goes on from a station; where no bundle is left it goes back to its source unit, which issues it again under the tables in force (R370). -/
def State.hop (f : Flight) (here : Station) (s : State) : State :=
  match s.tryHop f here with
  | some t => t
  | none => match s.tryHop { f with table := s.trans.meshTable } f.src with
    | some t => t
    | none => s.noteFlight { f with home := true }

/-- A message enters the mesh at its source under the tables in force. -/
def State.enter (src dst : Station) (vc : Nat) (m : List Byte) (s : State) : State :=
  s.hop { src, dst, vc, table := s.trans.meshTable, home := false, message := m } src

/-- Tables that nothing follows any more are dropped; those in force stay. -/
def State.dropTables (s : State) : State :=
  { s with trans := { s.trans with tables := s.trans.tables.filter (fun t =>
      t.number == s.trans.meshTable || s.trans.flights.any (fun f => f.table == t.number && !f.home)) } }

/-- Messages of a bundle that is gone go back to their sources (R370). -/
def State.sendHome (l : List (List Byte)) (s : State) : State :=
  { s with trans := { s.trans with flights := s.trans.flights.map (fun f => if l.contains f.message then { f with home := true } else f) } }

end Sys2Proof.Machine
end

