-- ==== Sys2Proof/Machine/Routes.lean ====
section
/-! DEFINITION. The route table (R453), requests (R449), rerouting and the loss of an optical link (R442–R445). -/
namespace Sys2Proof.Machine

/-- This module's name in the fabric (R452); 0xFFFF when unassigned. -/
def ownId (s : State) : Nat := match s.settings with | some x => x.moduleId | none => 0xFFFF

/-- The route-table index of a module name: 4,096 · plane + ID. -/
def routeIndex (id : Nat) : Nat := id % 8192

/-! ## The route table (Table 15-10) -/

/-- The entry of a destination; one not listed is at its reset value. -/
def routeAt (s : State) (d : Nat) : Route :=
  (s.trans.routes.find? (fun r => r.dest == d)).getD
    { dest := d, valid := false, learned := false, eng0 := 0x1F, eng1 := 0x1F, hops := 0, using_ := 7, alt := 0x1F }

/-- An entry set. -/
def State.setRoute (r : Route) (s : State) : State :=
  { s with trans := { s.trans with routes := r :: without (fun x => x.dest == r.dest) s.trans.routes } }

/-- Whether an engine's link is UP. -/
def engineUp (s : State) (e : Nat) : Bool := e < 24 && (engineAt s e).state == .up

/-- The engine that settings name as the alternate of an engine (R445); 0x1F none. -/
def altOf (s : State) (e : Nat) : Nat := match s.settings with | some x => x.altEngine.getD e 0x1F | none => 0x1F

/-- Whether an engine may take its entries: UP, and not within the 100 ms after it went down (R445 step 4). -/
def engineTakes (s : State) (e : Nat) : Bool := engineUp s e && !(engineAt s e).restoring

/-- The engines whose alternates may carry an entry: the one it ran over, which has failed; either, once it runs over none (R445 step 2). -/
def failedEngines (r : Route) : List Nat :=
  match r.using_ with
  | 1 => [r.eng0]
  | 2 => [r.eng1]
  | 3 => [r.alt]
  | _ => [r.eng0, r.eng1]

/-- An entry after the state of its engines is looked at again: back to engines that have been UP for their 100 ms, else on with an alternate that is UP,
else to its other engine when that is UP at all, else to the alternate of the engine that has failed (R445 steps 1–4). -/
def settleRoute (s : State) (r : Route) : Route :=
  let u0 := engineTakes s r.eng0
  let u1 := engineTakes s r.eng1
  if u0 && u1 then { r with valid := true, using_ := 0, alt := 0x1F }
  else if u0 then { r with valid := true, using_ := 1, alt := 0x1F }
  else if u1 then { r with valid := true, using_ := 2, alt := 0x1F }
  else if r.using_ = 3 ∧ engineUp s r.alt = true then r
  else if engineUp s r.eng0 then { r with valid := true, using_ := 1, alt := 0x1F }
  else if engineUp s r.eng1 then { r with valid := true, using_ := 2, alt := 0x1F }
  else match (failedEngines r).find? (fun e => decide (e < 24) && engineUp s (altOf s e)) with
    | some e => { r with valid := true, using_ := 3, alt := altOf s e }
    | none => { r with valid := false, using_ := 7, alt := 0x1F }

/-- Whether an entry uses an engine now. -/
def usesEngine (e : Nat) (r : Route) : Bool := r.eng0 == e || r.eng1 == e || (r.using_ == 3 && r.alt == e)

/-- Route entries that an engine bears on are settled; each change is a REROUTE event (R445). -/
def State.reroute (e : Nat) (s : State) : State :=
  let new := s.trans.routes.map (fun r => if usesEngine e r then settleRoute s r else r)
  let changed := (s.trans.routes.zip new).filter (fun p => decide (p.1 ≠ p.2))
  let s1 : State := { s with trans := { s.trans with routes := new } }
  changed.foldl (fun t p => t.raise (srcId 2 e 0x0E) p.2.dest) s1

/-- The engine a message to a module takes: the UP engines of its entry, spread by the fixed hash (R453). -/
def routeFor (s : State) (id srcUnit vc : Nat) : Option Nat :=
  let r := routeAt s (routeIndex id)
  if !r.valid then none
  else match r.using_ with
    | 0 => some (if Config.flowHash srcUnit r.dest vc % 2 = 0 then r.eng0 else r.eng1)
    | 1 => some r.eng0
    | 2 => some r.eng1
    | 3 => some r.alt
    | _ => none

/-- Whether a module can be reached. -/
def reachable (s : State) (id : Nat) : Bool := (routeAt s (routeIndex id)).valid && decide (ownId s ≠ 0xFFFF)

/-- A message that waits at its source goes to the engine that the route table now names (R370, R444). -/
def redirect (s : State) (f : Flight) : Flight :=
  match f.dst with
  | .engine _ => match routeFor s (msgDst f.message) (field 9 1 f.message) f.vc with
    | some e => { f with dst := .engine e }
    | none => f
  | _ => f

/-- New tables under a new number; what waits at its source goes out under them, and what is on its way keeps its own (R36). -/
def State.retable (s : State) : State :=
  let n := s.trans.meshTable + 1
  let waiting := s.trans.flights.filter (·.home)
  let s1 : State := { s with trans := { s.trans with meshTable := n, tables := meshOf s n :: s.trans.tables,
                                                     flights := s.trans.flights.filter (fun f => !f.home) } }
  (waiting.foldl (fun t f => t.hop { redirect t f with table := n, home := false } f.src) s1).dropTables

/-- What waits at its source for a bundle is tried again. -/
def State.retry (s : State) : State :=
  let waiting := s.trans.flights.filter (·.home)
  let s1 : State := { s with trans := { s.trans with flights := s.trans.flights.filter (fun f => !f.home) } }
  waiting.foldl (fun t f => t.hop { redirect t f with table := t.trans.meshTable, home := false } f.src) s1

/-- The station of a unit code (Table 15-7). -/
def unitStation (u : Nat) : Station := if u < 64 then .site u else .hub

/-- A message goes over the mesh to the engine it leaves by (R38, R453). -/
def State.queueMsg (src : Station) (e : Nat) (m : List Byte) (s : State) : State :=
  let s1 := s.enter src (.engine e) (msgVc (msgOp m)) m
  { s1 with trans := { s1.trans with sentMessages := s1.trans.sentMessages ++ [(e, m)] } }

/-- A message leaves a station for another module, when it has a route. -/
def State.sendFrom (src : Station) (m : List Byte) (s : State) : State :=
  match routeFor s (msgDst m) (field 9 1 m) (msgVc (msgOp m)) with
  | some e => s.queueMsg src e m
  | none => s

/-- A message leaves its source unit for another module. -/
def State.sendMsg (m : List Byte) (s : State) : State := s.sendFrom (unitStation (field 9 1 m)) m

/-! ## Requests (R449) -/

/-- Tag slots of a module. -/
def tagSlots : Nat := 4096

/-- The message under a tag. -/
def tagMsg (slot gen : Nat) (m : List Byte) : List Byte := overlay 6 (leBytes 2 (slot + 4096 * gen)) m

/-- Whether an operation is answered: LEASE_KEEPALIVE and MIGRATE_CTRL are not (Table 15-8). -/
def answered (op : Nat) : Bool := op != 0x11 && op != 0x30

/-- A request that waits takes the lowest free slot, whose generation advances by one; one that has no response ends as it is sent (R449; log 90). -/
def State.issue (q : Request) (s : State) : Option State :=
  (freeIndex (s.trans.requests.map (·.slot)) tagSlots).map (fun k =>
    let g := ((lookupKey k s.trans.slotGen).getD 0 + 1) % 16
    let m := tagMsg k g q.message
    let mine : List Request := if answered (msgOp m) then [{ q with slot := k, gen := g, message := m }] else []
    let t : State := { s with trans := { s.trans with requests := s.trans.requests ++ mine,
                                                      slotGen := setKey k g s.trans.slotGen } }
    t.sendMsg m)

/-- Requests that wait are issued, in order, while slots are free. -/
def issueAll : List Request → State → State
  | [], s => { s with trans := { s.trans with waiting := [] } }
  | q :: l, s => match s.issue q with
    | some t => issueAll l t
    | none => { s with trans := { s.trans with waiting := q :: l } }

/-- Requests join those that wait; what can be issued is. -/
def State.request (l : List Request) (s : State) : State := issueAll (s.trans.waiting ++ l) s

/-- A request of the hub to a module. -/
def requestTo (s : State) (cid block : Option Nat) (dst op operand : Nat) (data : List Byte) : Request :=
  { slot := 0, gen := 0, cid, block,
    message := makeMsg dst (ownId s) op (match s.settings with | some x => x.hopLimit | none => 4) 0 0x80 0x80 0 0 operand data }

/-- Bytes cut into messages of at most 4,096 (R448). -/
def cut4K : Nat → List Byte → List (List Byte)
  | 0, _ => []
  | n + 1, l => if l.isEmpty then [] else l.take 4096 :: cut4K n (l.drop 4096)

/-- The chunks of some bytes. -/
def messageData (l : List Byte) : List (List Byte)   := cut4K (l.length / 4096 + 1) l

/-- Requests that a command owns: issued or waiting. -/
def requestsOf (s : State) (cid : Nat) : List Request := (s.trans.requests ++ s.trans.waiting).filter (fun q => q.cid == some cid)

/-- Requests given up: those that wait are gone, and those that have been sent keep their slots until a response or their time ends them, for no owner (R449). -/
def Trans.disown (p : Request → Bool) (t : Trans) : Trans :=
  { t with waiting := without p t.waiting, requests := t.requests.map (fun q => if p q then { q with cid := none, block := none, op := none } else q) }

/-- The requests of a command are given up. -/
def State.dropRequests (cid : Nat) (s : State) : State := { s with trans := s.trans.disown (fun q => q.cid == some cid) }

/-! ## Control words (Table 14-2) -/

/-- A control word waits to be sent, with the two repeats of R417. -/
def State.sendWord (e : Nat) (w : CtrlWord) (s : State) : State :=
  s.modEngine e (fun x => { x with txWords := x.txWords ++ [(w, 3)] })

/-- TRAIN: step, status, rate step. -/
def trainWord (step status rate : Nat) : CtrlWord := { kind := 8, payload := step % 16 + 16 * (status % 4) + 64 * (rate % 4) }
/-- PAUSE or RESUME: slot and direction. -/
def slotWord (kind slot dir : Nat) : CtrlWord := { kind, payload := slot + 32 * dir }
/-- MAP: slot, direction, fibre, λ, effective frame. -/
def mapWord (slot dir fibre lam frame : Nat) : CtrlWord :=
  { kind := 3, payload := slot + 32 * dir + 64 * fibre + 128 * lam + 4096 * (frame % 2048) }
/-- RATE_WIDTH: rate step, width code, direction, effective frame. -/
def rateWord (rate width dir frame : Nat) : CtrlWord := { kind := 4, payload := rate + 4 * width + 16 * dir + 32 * (frame % 65536) }

/-! ## Slot maps (R379, R394, R425) -/

/-- A slot map of w slots over some wavelengths: slots keep their wavelength while it is among them, the others take the lowest unused one, of
their own fibre first. -/
def fillMap (avail base : List Nat) (w : Nat) : List Nat :=
  let kept := ((List.range w).map (fun k => base.getD k 0)).filter (fun v => avail.contains v)
  let fill := (List.range w).foldl (fun (acc : List Nat × List Nat) k =>
    let v := base.getD k 0
    if avail.contains v then (acc.1 ++ [v], acc.2)
    else
      let free := avail.filter (fun u => !acc.2.contains u)
      match (free.find? (fun u => u / 18 == v / 18)).orElse (fun _ => free.head?) with
      | some u => (acc.1 ++ [u], u :: acc.2)
      | none => (acc.1 ++ [v], acc.2)) ([], kept)
  fill.1 ++ base.drop w

/-! ## Link down (R443, R444) -/

/-- Whether the site that an engine is wired to is ISOLATED: the engine stays out of service (R26, R41). -/
def siteLost (s : State) (e : Nat) : Bool := (tileAt s (engineSite e)).state == .isolated

/-- Where a message that an engine held sets out again: from the engine; from its source unit where the engine's site is out of the mesh (R41, R370). -/
def resendFrom (s : State) (e : Nat) (m : List Byte) : Station := if siteLost s e then unitStation (field 9 1 m) else .engine e

/-- 80 µs in the unit of the ages of held flits, 64/3 ns: a third of a frame at 64 Gb/s, so that a frame at every rate step is a whole number of them
(R412, R444). -/
def ageLimit : Nat := 3750

/-- A held message is resent, or discarded: older than 80 µs, in transit, or without a route (R444). -/
def State.resendOrDrop (e : Nat) (m : List Byte) (age : Nat) (acc : State × Nat) : State × Nat :=
  let s := acc.1
  if ageLimit < age || decide (msgSrc m ≠ ownId s) then (s, acc.2 + 1)
  else match routeFor s (msgDst m) (field 9 1 m) (msgVc (msgOp m)) with
    | some d => if d = e then (s, acc.2 + 1) else (s.queueMsg (resendFrom s e m) d (overlay 0xA [BitVec.ofNat 8 (field 0xA 1 m ||| 1)] m), acc.2)
    | none => (s, acc.2 + 1)

/-- A link end after the link went down: sequences restart (R438), parts of messages are gone (R443). -/
def LinkEnd.cleared (l : LinkEnd) : LinkEnd := { LinkEnd.reset with delivered := l.delivered }

/-- An optical link is declared down (R443); bring-up starts again at step 1, at 16 Gb/s and PROBE level once the three frames that carry its TRAIN word have
gone (R417). -/
def State.linkDown (e : Nat) (s : State) : State :=
  let x := engineAt s e
  let msgs := regroup (x.link.held.map (fun h => h.2) ++ x.link.txQueue.map (fun q => (0, q.2)))
  let s1 := s.modEngine e (fun y => { y with state := .training, restoring := true, link := y.link.cleared, rxFlits := [], linkDowns := satAdd y.linkDowns 1 255,
                                             txWords := [(trainWord 0 2 y.tx.rate, 3)],
                                             bringUp := { BringUp.reset with step := 1, wait := some (0, 3), partner := y.bringUp.partner },
                                             tx := { y.tx with change := none, deferred := [], maps := [], tbDue := [] },
                                             rx := { y.rx with change := none, deferred := [], maps := [], frozen := false } })
  let s2 := (s1.raise (srcId 2 e 0x0D) 0).reroute e
  let (s3, n) := msgs.foldl (fun acc m => State.resendOrDrop e m.2 m.1 acc) (s2, 0)
  if n = 0 then s3
  else ({ s3 with trans := { s3.trans with discarded := s3.trans.discarded + n } } : State).raise (srcId 2 e 0x10) n

/-- Whether an engine has fewer than two valid sensors (R460). -/
def engineBlind (x : Engine) : Bool := decide ((x.sensorBroken.filter (fun b => !b)).length < 2)

/-- A link that is not UP leaves its state without the steps of R443; an engine at an ISOLATED site, and one that is out of service for causes of its own, can only
be out of service (R41, R396, R460). -/
def State.setLinkState (e : Nat) (st : LinkState) (s : State) : State :=
  let s1 := if (engineAt s e).state = .up then s.linkDown e else s
  s1.modEngine e (fun y => { y with state := if siteLost s e || y.state == .outOfService then .outOfService else st })

/-- An engine goes out of service (R41, R396, R460); requests REPLACE_SOON unless the cause is its ELS or its partner (R397). -/
def State.engineOut (e : Nat) (own : Bool) (s : State) : State :=
  if (engineAt s e).state = .outOfService then s
  else
    let s1 := (s.setLinkState e .outOfService).raise (srcId 2 e 0x0B) 0
    if own then s1.raiseService 2 4 e none false else s1

end Sys2Proof.Machine
end

