-- ==== Sys2Proof/Machine/Sites.lean ====
section
/-! DEFINITION. What a site, a cell, a bundle or an engine goes through: the compute set, retirement, isolation, tile partial reset. -/
namespace Sys2Proof.Machine

/-! ## The compute set (R21–R23, R220) -/

/-- spare_site_mask in force; the factory value when no image is in force (log 15). -/
def spareMask (s : State) : DWord := match s.settings with | some x => x.spareMask | none => 0x4008012004801002

/-- Whether a site is in the mask. -/
def inMask (s : State) (n : Nat) : Bool := (spareMask s).getLsbD n

/-- Sites outside the mask that are recorded as retired or isolated: each calls for one spare (R23), once its tile has ended its last drain. -/
def lostSites (s : State) : Nat :=
  ((List.range 64).filter (fun n => !inMask s n && (recordedSite s n).isSome && !(tileAt s n).retiring)).length

/-- Mask sites that are healthy, ascending; one that retires keeps its place until its drain ends (R25; log 16). -/
def maskSpares (s : State) : List Nat := (List.range 64).filter (fun n => inMask s n && ((recordedSite s n).isNone || (tileAt s n).retiring))

/-- The state a site takes once its tile reports (R23, R27). -/
def plannedState (s : State) (n : Nat) : SiteState :=
  match recordedSite s n with
  | some true => .isolated
  | some false => .retired
  | none => if !inMask s n then .compute
            else if ((maskSpares s).take (lostSites s)).contains n then .compute else .spare

/-- The planned compute set. -/
def plannedSet (s : State) : List Nat := (List.range 64).filter (fun n => plannedState s n == .compute)

/-- The role of a site at first use (R220), or the module role (R190). -/
def firstRole (s : State) (n : Nat) : Role :=
  match s.cel.moduleRole with
  | .none =>
    let row := (plannedSet s).filter (fun m => m / 8 == n / 8)
    let t := row.length
    let k := (row.filter (fun m => decide (m < n))).length
    let x := (k + n / 8) % t
    if x = t - 1 then .cask else if x % 2 = 0 then .mash else .draught
  | r => r

/-! ## Bundles (R366, R370) -/

/-- The roles of the compute sites once the compute set changes before any plan has moved one (R220; DESIGN CHOICE, log 86). -/
def State.firstRoles (s : State) : State :=
  if 2 ≤ s.cel.plansMade then s
  else (List.range 64).foldl (fun t n => t.modTile n (fun x => if x.state = .compute ∧ x.draining = false then { x with role := firstRole s n } else x)) s

/-- What an end has sent without acknowledgement, and what waits there. -/
def LinkEnd.unsent (l : LinkEnd) : List (Nat × List Byte) := l.held.map (fun h => (flitVc h.2.2, h.2.2)) ++ l.txQueue

/-- The messages among some flits. -/
def messagesOf (l : List (Nat × List Byte)) : List (List Byte) := (regroup (l.map (fun q => (0, q.2)))).map (·.2)

/-- Unacknowledged flits of an end move to a live sibling, ahead of what waits there; with none they go back to their sources (R370). -/
def State.handOver (b : BundleEnd) (s : State) : State :=
  let flits := (bundleAt s b).link.unsent
  let s1 := s.modBundle b (fun d => { d with link := { d.link with held := [], txQueue := [] } })
  match (siblings b).find? (bundleLive s) with
  | none => s1.sendHome (messagesOf flits)
  | some c =>
    s1.modBundle c (fun d => { d with link := { d.link with txQueue := flits ++ d.link.txQueue } })

/-- The service resource of a bundle end: its site or engine (Table 16-10). -/
def bundleResource : BundleEnd → Nat
  | .tile n _ => n | .hub _ => 0 | .engine e _ => e

/-- Unit and index of a bundle end in a RETIREMENT record (Table 18-5a). -/
def bundleUnit : BundleEnd → Nat × Nat
  | .tile n i => (n, i) | .hub b => (0x80, b) | .engine e k => (0xC0 + e, k)

/-- Data of a RETIREMENT record (R580). -/
def retireData (kind unit index group : Nat) : DWord := BitVec.ofNat 64 (kind + 256 * unit + 65536 * index + 2 ^ 32 * group)

/-! ## Isolation and retirement of sites (R25–R28, R579) -/

/-- The mask sites, healthy and not yet in compute, ascending: a spare that has reported, or one that has yet to report and is not needed (R23). -/
def sparesLeft (s : State) : List Nat :=
  (maskSpares s).filter (fun n => (tileAt s n).state == .spare || ((tileAt s n).state == .notReported && plannedState s n == .spare))

/-- The healthy spare with the lowest index enters compute in place of a site and takes its role, or one by the first-use pattern where the site had
none yet; one that has yet to report enters with that role when it does (R23, R25, R198, R220). Service requests R28; its issue rate rises from zero (R464; log 89). -/
def State.takeSpare (lost : Nat) (role : Role) (left : List Nat) (s : State) : State :=
  match left with
  | [] => s.raiseService 3 1 lost none false
  | n :: rest =>
    let role := if role = .none then firstRole s n else role
    let s1 := s.modTile n (fun t => if t.state = .spare then
        { t with state := .compute, role := role, setupDone := false, settingUp := false, sampling := none,
                 logical := [], rotating := false, sweeps := 0, sweepPos := 0, thermal := { t.thermal with issueRate := 0 } }
      else { t with role := role })
    s1.raiseService (if 2 ≤ rest.length then 1 else 2) 1 lost none false

/-- The role a tile's spare takes: the one it was going to, under which it was counted (R198, R203). -/
def Tile.heldRole (t : Tile) : Role := t.nextRole.getD t.role

/-- Whether a site counts in the compute set: it computes, or it was to when it reports (R23). -/
def inCompute (s : State) (n : Nat) : Bool :=
  (tileAt s n).state == .compute || ((tileAt s n).state == .notReported && plannedState s n == .compute)

/-- A bundle direction whose far end has left the mesh: DOWN, unless it is retired or unwired, with nothing held (Table 12-6). -/
def BundleDir.dropped' (d : BundleDir) : BundleDir :=
  if d.state == .retired || d.state == .unwired then d else { d with state := .down, link := { d.link with held := [], txQueue := [] } }

/-- The bundles that face a site which is no longer in the mesh are DOWN (R26, Table 12-6), but for those retired; what waits there goes
back to its sources (R370). -/
def State.faceDown (n : Nat) (s : State) : State :=
  (tileEnds n).foldl (fun t b => match peerEnd b with
    | none => t
    | some p => (t.modBundle p BundleDir.dropped').sendHome (messagesOf (bundleAt t p).link.unsent)) s

/-- What a site's own router held is lost with it: its messages end there, and so do those that were for it. -/
def State.loseQueues (n : Nat) (s : State) : State :=
  let gone := (tileEnds n).flatMap (fun b => messagesOf (bundleAt s b).link.unsent)
  { s with trans := { s.trans with flights := s.trans.flights.filter (fun f => !gone.contains f.message && f.dst != .site n),
                                   arrived := without (fun p => p.1 == n) s.trans.arrived } }

/-- A site becomes ISOLATED (R26, R27, R36, R579). -/
def State.isolateSite (n : Nat) (s : State) : State :=
  let was := tileAt s n
  let counted := inCompute s n
  let left := sparesLeft s
  let src := srcId 1 n 0x0B
  let s1 := (s.loseQueues n).modTile n (fun t =>
    { t with state := .isolated, inReset := true, memInService := false, role := .none, nextRole := none, setupDone := false, settingUp := false,
             sampling := none, logical := [], rotating := false, draining := false, retiring := false, idValid := false, training := false,
             bundles := t.bundles.map BundleDir.dropped' })
  let s2 := (s1.putMirror (.retiredSite n true)).raise src 0
  let s3 := s2.logEvent 0x0003 src 1 false (retireData 2 n 0 0)
  let s4 := ((s3.suspectLaunches n src).requeueUnits n).loseSite n src
  let s5 := (siteEngines n).foldl (fun t e => t.engineOut e true) (s4.faceDown n).retable
  let s6 := s5.retry
  (if counted then s6.takeSpare n was.heldRole (without (· == n) left) else s6).assignStreams

/-- Logical cells of a cluster, and its bytes of tile store with the code (R175, R176). -/
def clusterNeeds (k : Kernel) : Nat × Nat := ((k.groups + k.perCell - 1) / k.perCell, k.tileStore + 8 * k.code.length)

/-- Whether a cluster has a copy in flight (R184 step 2). -/
def Cluster.copying (c : Cluster) : Bool := c.groups.any (fun g => g.warps.any (fun w => !w.copies.isEmpty))

/-- Bytes of a saved cluster: its cells' register files and stores, and its tile store (R184). -/
def savedBytes (k : Kernel) : Nat := (clusterNeeds k).1 * 0x1E0000 + k.tileStore

/-- Where a saved cluster goes: its site's own GDDR7 (Table 7-4 step 4), else another's or the CXL tier (log 61). -/
def savePlace (s : State) (n : Nat) (k : Kernel) : List Extent :=
  (((takeExtents (savedBytes k) (siteFree s n)).orElse (fun _ => takeExtents (savedBytes k) (localFree s))).orElse (fun _ =>
    takeExtents (savedBytes k) (cxlFree s))).getD []

/-- A cluster of a launch is saved: its state is written to module memory (R184, R256). -/
def State.saveCluster (n cid index : Nat) (s : State) : State :=
  let image := ((s.launches.find? (fun l => l.cid == cid)).map (fun l => savePlace s n l.kernel)).getD []
  State.overwrite image { s with launches := s.launches.map (fun l => if l.cid = cid then
      { l with clusters := l.clusters.map (fun c => if c.index = index then { c with site := none, saved := true, image } else c) }
      else l) }

/-- The clusters at a site: their launch and index. -/
def clustersAt (s : State) (n : Nat) : List (Nat × Nat) :=
  s.launches.flatMap (fun l => (l.clusters.filter (·.runsAt n)).map (fun c => (l.cid, c.index)))

/-- Kernel clusters at a site are saved (R184). -/
def State.saveClusters (n : Nat) (s : State) : State := (clustersAt s n).foldl (fun t p => t.saveCluster n p.1 p.2) s

/-- Whether a copy of a cluster at a site is still in flight. -/
def copiesAt (s : State) (n : Nat) : Bool := s.launches.any (fun l => l.clusters.any (fun c => c.runsAt n && c.copying))

/-- A site is RETIRED: its cells are dark, router and memory stay in service, and its spare comes in (R23, R25, R68). -/
def State.darken (n : Nat) (s : State) : State :=
  let was := tileAt s n
  let left := without (· == n) (sparesLeft s)
  let s1 := s.modTile n (fun t =>
    { t with state := .retired, retiring := false, role := .none, nextRole := none, settingUp := false, setupDone := false, sampling := none,
             logical := [], rotating := false, draining := false, drainAbandoned := false, leavingCells := [] })
  (if inCompute s n then s1.takeSpare n was.heldRole left else s1).assignStreams

/-- A site retires: recorded and reported at once; a compute tile drains first, and is RETIRED at the end of the drain (R25, R27, R203; log 16). -/
def State.retireSite (n : Nat) (s : State) : State :=
  let src := srcId 1 n 0x0A
  let s1 := if (tileAt s n).state = .compute then s.modTile n (fun t => { t with retiring := true, draining := true, drainAbandoned := false })
    else s.darken n
  ((s1.putMirror (.retiredSite n false)).raise src 0).logEvent 0x0003 src 1 false (retireData 1 n 0 0)

/-- Whether a bundle of a site may still be used: wired, not retired, and its far end in the mesh. -/
def bundleLeft (s : State) (b : BundleEnd) : Bool :=
  !bundleGone s b && match peerEnd b with
    | some (.tile m _) => !siteOut s m
    | _ => true

/-- Whether a site has a usable bundle left (R25, R366). -/
def hasBundle (s : State) (n : Nat) : Bool := (tileEnds n).any (bundleLeft s)

/-- A tile retires: RETIRED when its router works and a bundle is left, else ISOLATED (R25); an ISOLATED site stays so (R27), and a tile retires once. -/
def State.retireTile (n : Nat) (routerOk : Bool) (s : State) : State :=
  let t := tileAt s n
  if t.state = .isolated then s
  else if routerOk && hasBundle s n then (if t.retiring ∨ t.state = .retired then s else s.retireSite n)
  else s.isolateSite n

/-- A bundle is retired in both directions (R366): recorded, routes change, and a site or engine that has none left is lost. -/
def State.retireBundle (b : BundleEnd) (s : State) : State :=
  let src := bundleSource 0x30 b
  let both := match peerEnd b with | some p => [b, p] | none => [b]
  let s1 := both.foldl (fun t x => (t.putMirror (.retiredBundle x)).modBundle x (fun d => { d with state := .retired, checking := false })) s
  let s2 := s1.raise src 0
  let u := bundleUnit b
  let s3 := (s2.logEvent 0x0003 src 1 false (retireData 4 u.1 u.2 0)).raiseService 2 3 (bundleResource b) none false
  let s4 := both.foldl (fun t x => t.handOver x) s3
  let s5 := s4.retable
  both.foldl (fun t x => match x with
    | .tile n _ => if hasBundle t n || (tileAt t n).state == .isolated then t else t.isolateSite n
    | .engine e _ => if (List.range 3).any (fun k => bundleLeft t (.engine e (Fin.ofNat 3 k))) then t else t.engineOut e true
    | .hub _ => t) s5

/-! ## Cells (R62–R65) -/

/-- A cell is retired (R63): recorded, ADVISE for the first and second; the third retires the tile (R64, R65). -/
def State.retireCell (n k source : Nat) (s : State) : State :=
  let t := tileAt s n
  if t.retiredCells.contains k then s
  else
    let s1 := s.modTile n (fun t => { t with retiredCells := t.retiredCells ++ [k], leavingCells := t.leavingCells ++ [k] })
    let s2 := (s1.putMirror (.retiredCell n k)).logEvent 0x0003 source (severityOf source) false (retireData 3 n k 0)
    if t.retiredCells.length + 1 < 3 then s2.raiseService 1 2 n none false
    else s2.retireTile n true

/-- Cells of a tile that are not retired, ascending. -/
def liveCells (t : Tile) : List Nat := (List.range 33).filter (fun k => !t.retiredCells.contains k)

/-- The next cell after k in ascending order, wrapping (R52). -/
def nextCell (l : List Nat) (k : Nat) : Option Nat :=
  match l.find? (fun x => decide (k < x)) with
  | some x => some x
  | none => l.head?

/-- A drain starts (R203): no new work unit is assigned; one in progress starts anew (log 40). -/
def State.startDrain (n : Nat) (s : State) : State := s.modTile n (fun t => { t with draining := true, drainAbandoned := false })

/-! ## Tile partial reset (R70, R486) -/

/-- Whether a shard's stripes may be kept: its epoch is current and its check value verifies (R70). -/
def shardTrusted (m : Model) (x : Shard) : Bool := x.epoch == m.current && crc32c x.data == x.dataCrc

/-- Untrusted weight stripes at a site are lost and reloaded (R70, R207). -/
def State.distrustStripes (n : Nat) (s : State) : State :=
  let pl := Place.site n
  { s with models := s.models.map (fun m =>
      let bad (x : Shard) : Bool := x.stripes.any (inPlace pl) && !shardTrusted m x
      { m with state := if m.shards.any bad && m.state == .ready then .reloading else m.state,
               shards := m.shards.map (fun x => if bad x then { x with lost := true, stripes := without (inPlace pl) x.stripes } else x) }) }

/-- A reset of any kind ends every injection (R339). -/
def State.endInjection (s : State) : State := { s with flt := { s.flt with inject := [] } }

/-- The counters of a direction as a reset of its die leaves them (R375). -/
def BundleDir.counted0 (d : BundleDir) : BundleDir := { d with inlineChecks := 0, crcFailures := 0 }

/-- A tile partial reset (R70): nothing held there is trusted but verified weights; memory and bundles train again. A drain in progress has ended, its
new role taken or its spare come in (R205; log 16). -/
def State.partialReset (n source : Nat) (s : State) : State :=
  let s1 := s.failNeeding (.site n) source
  let s2 := (((s1.suspectLaunches n source).requeueUnits n).loseBlocks (.site n) .resultSuspect source).loseMoves (.site n)
  let s2a : State := { s2 with mem := { s2.mem with retraining := without (fun x => x.1 == n) s2.mem.retraining } }
  let s3 := (s2a.distrustStripes n).loseBytes (siteBase n) siteUsable
  let fresh := Tile.reset n
  let was := tileAt s n
  let s4 := s3.modTile n (fun t =>
    { fresh with inReset := false, role := if was.retiring then .none else t.heldRole, nextRole := none, retiredCells := t.retiredCells, leavingCells := [], memFailed := t.memFailed,
                 failedDevice := t.failedDevice, retiredGroups := t.retiredGroups, training := !t.memFailed,
                 bundles := t.bundles.map (fun d => BundleDir.counted0 (if d.state == .retired || d.state == .unwired then d else { d with state := .training, kept := false })),
                 thermal := t.thermal, ageing := t.ageing })
  let s5 := (tileEnds n).foldl (fun t b => match peerEnd b with
    | some p => t.modBundle p (fun d => if d.live then { d with state := .training, kept := true } else d)
    | none => t) s4
  let s6 := if n % 8 = 0 then s5.retable else s5
  (if was.retiring then s6.takeSpare n was.heldRole (without (· == n) (sparesLeft s)) else s6).assignStreams.endInjection

/-! ## What a cell has run (R504) -/

/-- Lowest and highest accept_seq a cell ran since its last pass (R504); zeros when it ran none. -/
def runRange (t : Tile) (k : Nat) : Nat × Nat :=
  match t.seqRange.find? (fun x => x.1 == k) with
  | some x => x.2
  | none => (0, 0)

/-- Commands in flight that have work on a cell (R504). -/
def runCmds (s : State) (t : Tile) (k : Nat) : List Nat := ((t.ran.filter (fun x => x.1 == k)).map (·.2)).filter (isLive s)

/-- The data of a KAT_FAILED: lowest and highest accept_seq (R504). -/
def rangeData (t : Tile) (k : Nat) : Nat := let r := runRange t k; r.1 + 2 ^ 32 * r.2

end Sys2Proof.Machine
end

