-- ==== Sys2Proof/Machine/Ageing.lean ====
section
/-! DEFINITION. Ageing measurement and the margin planner (R473–R480). -/
namespace Sys2Proof.Machine

/-- Square root of a number, rounded down, bit by bit from 2^k. -/
def sqrtFrom : Nat → Nat → Nat → Nat
  | 0, _, r => r
  | k + 1, n, r => if (r + 2 ^ k) * (r + 2 ^ k) ≤ n then sqrtFrom k n (r + 2 ^ k) else sqrtFrom k n r

/-- Square root of a number below 2^256, rounded down. -/
def natSqrt (n : Nat) : Nat := sqrtFrom 128 n 0

/-- Fourth root of operating hours, in units of 2⁻¹⁶; the time is in seconds (log 17). -/
def root4 (seconds : Nat) : Nat := natSqrt (natSqrt (seconds * 2 ^ 64 / 3600))

/-- Sum of integers. -/
def sumInt (l : List Int) : Int := l.foldl (· + ·) 0

/-- Least-squares line through points (x, v): the denominator, and slope and intercept times it, the intercept also times the
number of points (R476, R477). -/
def lineFit (pts : List (Int × Int)) : Int × Int × Int :=
  let n : Int := pts.length
  let sx := sumInt (pts.map (·.1))
  let sv := sumInt (pts.map (·.2))
  let sxx := sumInt (pts.map (fun p => p.1 * p.1))
  let sxv := sumInt (pts.map (fun p => p.1 * p.2))
  let den := n * sxx - sx * sx
  let slope := n * sxv - sx * sv
  (den, slope, sv * den - slope * sx)

/-- The x at which the fitted line reaches a value, when its slope is rising (or falling for `up = false`). -/
def crossing (pts : List (Int × Int)) (limit : Int) (up : Bool) : Option Int :=
  let (den, slope, inter) := lineFit pts
  let n : Int := pts.length
  if den ≤ 0 then none
  else if (up && decide (0 < slope)) || (!up && decide (slope < 0)) then some ((limit * n * den - inter) / (n * slope))
  else none

/-- Level of a prediction: 72, 720 or 2,160 operating hours (Table 16-3). -/
def predictionLevel (hours : Nat) : Nat := if hours ≤ 72 then 3 else if hours ≤ 720 then 2 else if hours ≤ 2160 then 1 else 0

/-- A prediction of a level, for one die or wavelength, is evaluated again: raised at once, lowered after three evaluations that no longer support it (R479, R480). -/
def State.predictAt (level cause resource key : Nat) (hours : Option Nat) (s : State) : State :=
  let mine (q : ServiceReq) : Bool := q.predicted && q.cause == cause && q.resource == resource && q.key == key
  match s.svc.find? mine with
  | none => if level = 0 then s else s.raiseRequest { level, cause, resource, hours, predicted := true, misses := 0, key }
  | some q =>
    if level = q.level then
      { s with svc := s.svc.map (fun x => if mine x then { x with hours := hours, misses := 0 } else x) }
    else if q.level < level then
      ({ s with svc := without mine s.svc } : State).raiseRequest { level, cause, resource, hours, predicted := true, misses := 0, key }
    else if 2 ≤ q.misses then
      if level = 0 then { s with svc := without mine s.svc }
      else { s with svc := s.svc.map (fun x => if mine x then { x with level := level, hours := hours, misses := 0 } else x) }
    else { s with svc := s.svc.map (fun x => if mine x then { x with misses := x.misses + 1 } else x) }

/-- A prediction whose level follows from its hours (Table 16-3). -/
def State.predict (cause resource key : Nat) (hours : Option Nat) (s : State) : State :=
  s.predictAt (match hours with | some h => predictionLevel h | none => 0) cause resource key hours

/-- Number of a die for the fused values: site n, 64 the hub, 128 + e an engine. -/
def dieIndex : DieRef → Nat
  | .tile n => n | .hub => 64 | .engine e => 128 + e

/-- Service resource of a die (Table 16-10). -/
def dieResource : DieRef → Nat
  | .tile n => n | .hub => 0 | .engine e => e

/-- Ageing state of a die. -/
def ageingOf (s : State) : DieRef → Ageing
  | .tile n => (tileAt s n).ageing | .hub => s.th.hubAgeing | .engine e => (engineAt s e).ageing

/-- A die's ageing state set. -/
def State.setAgeing (d : DieRef) (a : Ageing) (s : State) : State :=
  match d with
  | .tile n => s.modTile n (fun t => { t with ageing := a })
  | .hub => { s with th := { s.th with hubAgeing := a } }
  | .engine e => s.modEngine e (fun x => { x with ageing := a })

/-- Points kept per die: 4,096, the oldest after the baseline dropped first (R513). -/
def keepPoints (l : List (Nat × Int)) : List (Nat × Int) := if l.length ≤ 4096 then l else l.take 1 ++ l.drop 2

/-- The guard band of an ageing value: 5 mV for each full 800 ppm above the fused start, never lowered, held at the ceiling (R475). -/
def guardFor (die : Nat) (value : Int) (now : Nat) : Nat :=
  Nat.max now (Nat.min (Config.guardStart die + value.toNat / 800) (Config.guardCeiling die))

/-- Hours left until the guard band reaches its ceiling (R476): at least three points spanning 48 operating hours. -/
def ageingHours (die nowSec : Nat) (pts : List (Nat × Int)) : Option Nat :=
  match pts.head?, pts.getLast? with
  | some a, some b =>
    if pts.length < 3 ∨ b.1 - a.1 < 48 * 3600 then none
    else
      let limit : Int := 800 * ((Config.guardCeiling die : Int) - Config.guardStart die)
      match crossing (pts.map (fun p => ((root4 p.1 : Int), p.2))) limit true with
      | some x => let t := x.toNat * x.toNat * x.toNat * x.toNat / 2 ^ 64
                  some (t - nowSec / 3600)
      | none => none
  | _, _ => none

/-- One ageing point of a die: the largest slowdown of its pairs less its baseline, in ppm (R473, R474); then the planner (R475,
R476). The first point of a module is the baseline. -/
def State.agePoint (d : DieRef) (slowdown : List Nat) (s : State) : State :=
  let i := dieIndex d
  let a := ageingOf s d
  let top := (greatest slowdown).getD 0
  let base := a.baseline.getD top
  let v : Int := (top : Int) - base
  let pts := keepPoints (a.points ++ [(s.ret.opTime, v)])
  let g := guardFor i v a.guard
  let past := decide (Config.guardCeiling i < Config.guardStart i + v.toNat / 800)
  let hours := ageingHours i s.ret.opTime pts
  let s1 := s.setAgeing d { baseline := some base, value := v, guard := g, points := pts, hoursLeft := hours }
  let s2 := s1.putMirror (.ageing d s.ret.opTime (if a.baseline.isNone then (top : Int) else v))
  let s4 := match d with
    | .tile n =>
      let s3 := if a.guard < g then s2.raise (srcId 6 n 0x09) 0 else s2
      if past then s3.raise (srcId 6 n 0x0A) 0 else s3
    | _ => s2
  s4.predict 7 (dieResource d) i hours

/-- A die's history reloaded from flash at a start: the first entry holds the baseline itself. -/
def reloadAgeing (s : State) (d : DieRef) : Ageing :=
  let l := recordedPoints s d
  match l with
  | [] => Ageing.reset (dieIndex d)
  | b :: t =>
    let pts := (b.1, 0) :: t
    let v := (pts.getLast?.map (·.2)).getD 0
    let i := dieIndex d
    { baseline := some b.2.toNat, value := v, guard := (pts.map (fun p => guardFor i p.2 0)).foldl Nat.max (Config.guardStart i),
      points := keepPoints pts, hoursLeft := ageingHours i s.ret.opTime pts }

/-! ## Optical points (R477–R479) -/

/-- A direction of an engine: side 0 transmits, side 1 receives. -/
def dirOf (x : Engine) (side : Nat) : Direction := if side = 0 then x.tx else x.rx

/-- Ring r of an engine. -/
def waveRing (x : Engine) (r : Nat) : OeRingRec := x.rings.getD r OeRingRec.reset

/-- Wavelengths of a side that are neither failed, dark nor retired: a paused or searching one is healthy still (R392, R394). -/
def healthyLambdas (x : Engine) (side : Nat) : List Nat :=
  (List.range 36).filter (fun w => let q := (waveRing x (36 * side + w)).state
                                   q != .failed && q != .dark && q != .retired)

/-- Hours until a line through points (second, value) reaches a limit, from now. -/
def hoursTo (now : Int) (pts : List (Int × Int)) (limit : Int) (up : Bool) : Option Nat :=
  (crossing pts limit up).map (fun t => ((t - now) / 3600).toNat)

/-- The nearer of two predictions. -/
def sooner (a b : Option Nat) : Option Nat :=
  match a, b with
  | some x, some y => some (Nat.min x y)
  | none, y => y
  | x, none => x

/-- Points of one quantity of a wavelength, each with its operating time. -/
def series (q : OeRingRec) (f : OpticalPointData → Int) : List (Int × Int) := q.points.map (fun p => ((p.1 : Int), f p.2))

/-- The operating time of the newest point. -/
def lastTime (q : OeRingRec) : Int := ((q.points.getLast?.map (·.1)).getD 0 : Nat)

/-- Hours until a wavelength leaves the limits that do not depend on the rate: received power −9 dBm, heater window (R477). -/
def windowHours (q : OeRingRec) : Option Nat :=
  [hoursTo (lastTime q) (series q (fun p => p.rxPower)) (-900) false, hoursTo (lastTime q) (series q (fun p => p.heater)) 5000 false,
   hoursTo (lastTime q) (series q (fun p => p.heater)) 60535 true].foldl sooner none

/-- Hours until a wavelength crosses any limit of R477 at the working rate. -/
def waveHours (q : OeRingRec) : Option Nat :=
  [hoursTo (lastTime q) (series q (fun p => p.eyeWidth)) 20 false, hoursTo (lastTime q) (series q (fun p => p.eyeHeight)) 16 false].foldl sooner
    (windowHours q)

/-- Whether a prediction lies within 720 operating hours. -/
def within720 (h : Option Nat) : Bool := match h with | some x => decide (x ≤ 720) | none => false

/-- Hours until a direction falls below width 32, or goes out of service where it is below that already: until fewer than 32, or than 8, of its healthy
wavelengths hold (R396, R479). -/
def directionHours (x : Engine) (side : Nat) : Option Nat :=
  let l := healthyLambdas x side
  let h := sortBy (fun a b => decide (a < b)) (l.filterMap (fun w => waveHours (waveRing x (36 * side + w))))
  if l.length < 8 then none else h[l.length - (if l.length < 32 then 8 else 32)]?

/-- Hours until the laser input leaves its operating range of −2 to +4 dBm (R478, Table 13-3). -/
def laserHours (q : OeRingRec) : Option Nat :=
  sooner (hoursTo (lastTime q) (series q (fun p => p.laserPower)) (-200) false) (hoursTo (lastTime q) (series q (fun p => p.laserPower)) 400 true)

/-- The prediction of a wavelength's laser input, which raises only ADVISE, with the port named (R478). -/
def State.predictLaser (e r : Nat) (q : OeRingRec) (s : State) : State :=
  let h := laserHours q
  s.predictAt (match h with | some t => if t ≤ 2160 then 1 else 0 | none => 0) 9 (enginePort e) (72 * e + r) h

/-- Every prediction evaluated again from the recorded histories, at a start (R480). -/
def State.foretell (s : State) : State :=
  s.log.held.foldl (fun t m => match m with
    | .ageing d _ _ => t.predict 7 (dieResource d) (dieIndex d) (ageingOf t d).hoursLeft
    | .optical e r _ _ =>
      let x := engineAt t e
      (t.predict 8 e e (sooner (directionHours x 0) (directionHours x 1))).predictLaser e r (waveRing x r)
    | _ => t) s

end Sys2Proof.Machine
end

