-- ==== Sys2Proof/Machine/SettingsImage.lean ====
section
/-! DEFINITION. The settings image: its checks (R534, R342), its fields (Tables 18-2, 18-3), the choice of the image in force (R515). -/
namespace Sys2Proof.Machine

/-- What the checks of an image find, in the order of R534; `empty` is an erased slot. -/
inductive ImageCheck where
  | empty | header | signature | fields | ok
  deriving DecidableEq, Repr

/-- Usable bytes that weight_limit may not exceed: 7.5 GiB (Table 18-3). -/
def weightTop : Nat := 0x1E0000000

/-- A module name of the form of module_id (Table 18-3). -/
def nameForm (v : Nat) : Bool := v == 0xFFFF || v / 8192 == 0

/-- Number of ones among the low k bits. -/
def ones : Nat → Nat → Nat
  | 0, _ => 0
  | k + 1, v => bnat (v.testBit k) + ones k v

/-- OID of XMSS-SHAKE256_20_256 in the encoding of RFC 8391 (R530, log 6). -/
def xmssOid : List Byte := [0, 0, 0, 0x12]

/-- Static route i of an image: destination, engine 0, engine 1, hops. -/
def imageRoute (m : List Byte) (i : Nat) : Nat × Nat × Nat × Nat :=
  let o := 0x100 + 8 * i
  (field o 2 m, field (o + 2) 1 m, field (o + 3) 1 m, field (o + 4) 1 m)

/-- Static routes of an image. -/
def imageRoutes (m : List Byte) : List (Nat × Nat × Nat × Nat) := (List.range (field 0xA0 2 m)).map (imageRoute m)

/-- Check of one static route (Table 18-3). -/
def routeOk (own : Nat) (m : List Byte) (i : Nat) : Bool :=
  let r := imageRoute m i
  r.1 != 0xFFFF && r.1 / 8192 == 0 && r.1 % 4096 != 0xFFF && r.1 != own && decide (r.2.1 < 24)
  && (r.2.2.1 == 0x1F || (decide (r.2.2.1 < 24) && r.2.2.1 != r.2.1)) && decide (1 ≤ r.2.2.2) && decide (r.2.2.2 ≤ 15)
  && zeroes (0x105 + 8 * i) 3 m

/-- Every field check of Table 18-3. -/
def fieldsOk (m : List Byte) : Bool :=
  let cls := field 0x40 1 m
  let cap := field 0x58 2 m
  let key := slice 0xA4 68 m
  let own := field 0x44 2 m
  let n := field 0xA0 2 m
  (cls == 1 || cls == 2) && decide (field 0x41 1 m ≤ 1) && decide (field 0x42 1 m ≤ 3)
  && decide (1 ≤ field 0x43 1 m) && decide (field 0x43 1 m ≤ 15) && nameForm own
  && decide (85 ≤ field 0x46 1 m) && decide (field 0x46 1 m ≤ 95) && zeroes 0x47 1 m
  && ones 64 (field 0x48 8 m) == 8
  && field 0x50 8 m % 65536 == 0 && decide (field 0x50 8 m ≤ weightTop)
  && (cap == 0 || (decide (500 ≤ cap) && decide (cap ≤ (if cls = 1 then 3200 else 2000)))) && zeroes 0x5A 6 m
  && (List.range 24).all (fun e => let a := field (0x60 + e) 1 m; a == 0x1F || (decide (a < 24) && a != e)) && zeroes 0x78 8 m
  && (List.range 16).all (fun i => nameForm (field (0x80 + 2 * i) 2 m))
  && decide (n ≤ 1024) && zeroes 0xA2 2 m
  && (key.all (· == 0) && field 0x10 1 m != 1 || key.take 4 == xmssOid) && zeroes 0xE8 24 m
  && (List.range n).all (routeOk own m) && decide (((imageRoutes m).map (·.1)).Nodup)

/-- Steps 1 and 2 of R534: check code, magic, layout, header size, total size. -/
def headerOk (m : List Byte) : Bool :=
  let sig := field 0x14 4 m
  field 0 4 m == 0x54534C51 && field 4 2 m == 1 && field 6 2 m == 64 && field 8 4 m == sig + 2820
  && sig == 0x100 + 8 * field 0xA0 2 m && decide (sig + 2820 ≤ m.length)
  && field 0x3C 4 m == crc32c (overlay 0x3C [0, 0, 0, 0] (m.take sig))

/-- Step 3 of R534: the signature under the vendor key or the enrolled owner key. -/
def signatureOk (ownerKey m : List Byte) : Bool :=
  let sig := field 0x14 4 m
  let body := m.take sig
  let mark := slice sig 2820 m
  match field 0x10 1 m with
  | 0 => Config.xmssVerify Config.vendorKey body mark
  | 1 => !ownerKey.isEmpty && Config.xmssVerify ownerKey body mark
  | _ => false

/-- The checks of R534, first failure first. -/
def checkImage (ownerKey m : List Byte) : ImageCheck :=
  if m.isEmpty || (m.take 64).all (· == 0xFF) then .empty
  else if !headerOk m then .header
  else if !signatureOk ownerKey m then .signature
  else if !fieldsOk m then .fields
  else .ok

/-- The image's bytes, total_size of them. -/
def imageBytes (m : List Byte) : List Byte := m.take (field 8 4 m)

/-- The fields of a verified image (Tables 18-2, 18-3). -/
def parseSettings (flash slot : Nat) (m : List Byte) : Settings :=
  { version := field 0xC 4 m, signer := field 0x10 1 m, slot, flash, powerClass := field 0x40 1 m, forceExact := field 0x41 1 m == 1,
    moduleRole := (Role.ofCode (field 0x42 1 m)).getD .none, hopLimit := field 0x43 1 m, moduleId := field 0x44 2 m,
    throttleStart := field 0x46 1 m, spareMask := BitVec.ofNat 64 (field 0x48 8 m), weightLimit := field 0x50 8 m,
    powerCap := field 0x58 2 m, altEngine := (List.range 24).map (fun e => field (0x60 + e) 1 m),
    caskPeers := (List.range 16).map (fun i => field (0x80 + 2 * i) 2 m), ownerKey := slice 0xA4 68 m, routes := imageRoutes m,
    bytes := imageBytes m }

/-- The slots of a flash with what the checks find: (slot, check, image). -/
def slotChecks (ownerKey : List Byte) (f : Flash) : List (Nat × ImageCheck × List Byte) :=
  [(0, checkImage ownerKey (f.slots.getD 0 []), f.slots.getD 0 []), (1, checkImage ownerKey (f.slots.getD 1 []), f.slots.getD 1 [])]

/-- The verified slot with the higher image_version (R515); slot 0 on a tie. -/
def bestSlot (l : List (Nat × ImageCheck × List Byte)) : Option (Nat × List Byte) :=
  (l.filter (fun x => x.2.1 == .ok)).foldl (fun m x => match m with
    | none => some (x.1, x.2.2)
    | some y => if field 0xC 4 y.2 < field 0xC 4 x.2.2 then some (x.1, x.2.2) else some y) none

/-- Order in which the flashes are read: A before B, a failed one last (R515, R526). -/
def flashOrder (s : State) : List Nat := if s.flashA.failed && !s.flashB.failed then [1, 0] else [0, 1]

/-- The image in force: (flash, slot, image) (R515). -/
def selectImage (s : State) (ownerKey : List Byte) : Option (Nat × Nat × List Byte) :=
  (flashOrder s).foldl (fun m f => match m with
    | some x => some x
    | none => (bestSlot (slotChecks ownerKey (flashAt s f))).map (fun y => (f, y.1, y.2))) none

/-- Slots that were read and rejected: (flash, slot) (R534). The second flash is read only when the first gives no image. -/
def rejectedSlots (s : State) (ownerKey : List Byte) : List (Nat × Nat) :=
  let bad (f : Nat) := ((slotChecks ownerKey (flashAt s f)).filter (fun x => x.2.1 != .ok && x.2.1 != .empty)).map (fun x => (f, x.1))
  match flashOrder s with
  | a :: b :: _ => if (bestSlot (slotChecks ownerKey (flashAt s a))).isSome then bad a else bad a ++ bad b
  | _ => []

end Sys2Proof.Machine
end

