-- ==== Sys2Proof/Machine/Resets.lean ====
section
/-! DEFINITION. Whole-module resets (R531–R540) and the loss of power: what each keeps and what start-up step 3 does. -/
namespace Sys2Proof.Machine

/-! ## Recoveries and retirement by recurrence (R499–R501, R581) -/

/-- Numbers of a resource in a RETIREMENT record: kind, unit, index (R580). -/
def resourceData : Resource → Nat × Nat × Nat
  | .cell n k => (3, n, k)
  | .tile n => (1, n, 0)
  | .bundle b => (4, (bundleUnit b).1, (bundleUnit b).2)
  | .ring e r => (5, 0xC0 + e, r)
  | .laser e f => (6, 0xC0 + e, f)
  | .sensor (.tile n k) => (7, n, k)
  | .sensor (.hub k) => (7, 0x80, k)
  | .sensor (.engine e k) => (7, 0xC0 + e, k)
  | .core c => (8, 0x80, c)

/-- Service resource of a resource. -/
def resourceSite : Resource → Nat
  | .cell n _ => n | .tile n => n | .bundle b => bundleResource b | .ring e _ => e | .laser e _ => e
  | .sensor (.tile n _) => n | .sensor (.hub _) => 0 | .sensor (.engine e _) => e | .core _ => 0

/-- One recovery of a resource is recorded: log, flash (R499, R501). -/
def State.recordRecovery (st : FaultState) (s : State) : State :=
  let times := (s.ret.opTime :: recordedTimes s st.res).take 8
  let within := (times.filter (fun t => decide (s.ret.opTime ≤ t + 3600))).length
  (s.putMirror (.recovery { res := st.res, times })).logEvent 0x0002 st.source st.severity st.injectedOnly (BitVec.ofNat 64 within)

/-- Whether the recovery just recorded is the eighth within 3,600 s (R500). -/
def eighth (s : State) (r : Resource) : Bool :=
  let times := recordedTimes s r
  decide (8 ≤ times.length) && decide (s.ret.opTime ≤ (times.getD 7 0) + 3600)

/-! ## Generations (R232) -/

/-- Generations of a kind after a reset: above the highest issued. -/
def nextGens (kind : Nat) (s : State) : List (Nat × Nat) := [(65536, (lookupKey kind s.ret.genHigh).getD 0 + 1)]

/-! ## The state after a whole-module reset -/

/-- Static entries of the route table (R453). -/
def staticRoutes (x : Option Settings) : List Route :=
  match x with
  | some x => x.routes.map (fun r => { dest := routeIndex r.1, valid := false, learned := false, eng0 := r.2.1, eng1 := r.2.2.1,
                                       hops := r.2.2.2, using_ := 7, alt := 0x1F })
  | none => []

/-- A tile after a whole-module reset: the Reset column; flash-loaded fields come back at step 3 (R574). -/
def tileAfter (s : State) (n : Nat) : Tile :=
  { Tile.reset n with thermal := { TileThermal.reset with broken := (List.range 8).map (fun k => retiredSensor s (.tile (Fin.ofNat 64 n) (Fin.ofNat 8 k))) },
                      retiredCells := recordedCells s n, retiredGroups := recordedGroups s n, memFailed := recordedMemory s n != 0,
                      failedDevice := recordedMemory s n, ageing := reloadAgeing s (.tile (Fin.ofNat 64 n)) }

/-- The slot map of a side rebuilt from the default one: no slot on a wavelength whose ring is retired or was failed (R401). -/
def rebuiltMap (x : Engine) (side : Nat) : List Nat :=
  fillMap ((List.range 36).filter (fun w => let q := (x.rings.getD (36 * side + w) OeRingRec.reset).state
                                            q != .retired && q != .failed && q != .dark)) Direction.reset.slotRing 32

/-- Rings that search from their last codes, and slot maps rebuilt from what is known of the old ones: no ring state is trusted (R401). -/
def Engine.searchAgain (old fresh : Engine) : Engine :=
  { fresh with tx := { fresh.tx with slotRing := rebuiltMap old 0 }, rx := { fresh.rx with slotRing := rebuiltMap old 1 },
               rings := (List.range 72).map (fun k =>
                 let r := fresh.rings.getD k OeRingRec.reset
                 if r.state == .retired then r
                 else { r with state := .searching, heater := r.lastLock, fromLast := true, lockPower := (old.rings.getD k OeRingRec.reset).lockPower }) }

/-- An engine after a whole-module reset; RO/S fields kept unless the reset is cold (R13). -/
def engineAfter (cold : Bool) (s : State) (e : Nat) : Engine :=
  let old := engineAt s e
  let fresh := Engine.reset e
  let broken := (List.range 4).map (fun k => retiredSensor s (.engine (Fin.ofNat 24 e) (Fin.ofNat 4 k)))
  { fresh with
    state := if engineCut s e || engineBlind { fresh with sensorBroken := broken } then .outOfService else fresh.state,
    sensorBroken := broken,
    linkDowns := if cold then 0 else old.linkDowns,
    lasers := (List.range 2).map (fun f =>
      { LaserInput.reset with excursion := !cold && (old.lasers.getD f LaserInput.reset).excursion,
                              retired := s.log.held.any (fun m => m == .retiredLaser e f) }),
    rings := (List.range 72).map (fun r => { OeRingRec.reset with
      state := if (recordedRings s e).contains r then .retired else .parked, lastLock := recordedHeater s e r, points := recordedOptical s e r }),
    ageing := reloadAgeing s (.engine (Fin.ofNat 24 e)) }

/-- Rings after a reset: DISABLED at their reset values (R293). -/
def hostAfter (keepLink keepConfig : Bool) (h : HostLink) : HostLink :=
  { HostLink.reset with
    posted := h.posted, nextCid := h.nextCid,
    linkUp := keepLink && h.linkUp, trained := keepLink && h.trained, width := if keepLink then h.width else 16,
    rate := if keepLink then h.rate else 6, msixEnable := keepConfig && h.msixEnable,
    aerReport := if keepConfig then h.aerReport else HostLink.reset.aerReport, aerStatus := if keepLink then h.aerStatus else HostLink.reset.aerStatus,
    busMaster := keepConfig && h.busMaster, d3hot := keepConfig && h.d3hot,
    bar4Log2 := if keepConfig then h.bar4Log2 else 30,
    vectorMask := if keepConfig then h.vectorMask else List.range 2048, functionMask := keepConfig && h.functionMask,
    pendingBits := if keepConfig then h.pendingBits else [], msixTable := if keepConfig then h.msixTable else [],
    held := if keepConfig then h.held else [] }

/-- Records kept over a warm or module reset: sticky bits, first fault, highest, core retirements (RO/S fields). -/
def faultsAfter (cold : Bool) (s : State) : Faults :=
  let retired := s.log.held.filterMap (fun m => match m with | .retiredCore c => some c | _ => none)
  let recs := s.log.held.filterMap (fun m => match m with | .recovery r => some r | _ => none)
  if cold then { Faults.reset with coresRetired := retired, recoveries := recs }
  else { Faults.reset with sticky := s.flt.sticky, firstSource := s.flt.firstSource, firstSeverity := s.flt.firstSeverity,
                           firstValid := s.flt.firstValid, firstInjected := s.flt.firstInjected, merged := s.flt.merged,
                           firstTime := s.flt.firstTime, firstCycle := s.flt.firstCycle, highest := s.flt.highest,
                           coresRetired := retired, recoveries := recs }

/-- A flash whose running operation was cut off: the page is completed, the rest of the operation abandoned (R532). -/
def Flash.abandon (f : Flash) : Flash :=
  match f.queue with
  | .log r :: t => { f with queue := .log r :: t }
  | _ :: t => { f with queue := t }
  | [] => f

/-- Features as settings give them, or the defaults of Table 11-4 (R314). -/
def thermalAfter (s : State) : Thermal :=
  let fresh : Thermal := { Thermal.reset with hubAgeing := reloadAgeing s .hub, hubBroken := (List.range 8).map (fun k => retiredSensor s (.hub (Fin.ofNat 8 k))) }
  match s.settings with
  | some x => { fresh with throttleStart := x.throttleStart, powerCap := x.powerCap }
  | none => fresh

/-- Everything that a whole-module reset of a kind rebuilds, from settings and records in force (R531, R574, R553, R220). -/
def State.rebuild (cold keepLink keepConfig : Bool) (s : State) : State :=
  { s with
    boot := { State.reset.boot with stopped := !cold && s.boot.stopped, barReadable := true, fwUp := true, everReset := true,
                                    settingsValid := s.settings.isSome, step := 4 },
    flt := faultsAfter cold s,
    tiles := (List.range 64).map (tileAfter s), hubBundles := State.reset.hubBundles,
    engines := (List.range 24).map (engineAfter cold s), els := State.reset.els, th := thermalAfter s,
    cel := { Cellarer.reset with moduleRole := match s.settings with | some x => x.moduleRole | none => .none },
    host := hostAfter keepLink keepConfig s.host,
    mem := { MemSys.reset with handleGen := nextGens 1 s }, cxl := State.reset.cxl,
    models := (List.range 64).map (fun _ => { Model.reset with gen := (lookupKey 5 s.ret.genHigh).getD 0 + 1 }),
    sessions := [], sessionGen := nextGens 4 s, migs := [], graphs := [], graphGen := nextGens 2 s, kernels := [],
    kernelGen := nextGens 3 s, runs := [], launches := [],
    trans := { Trans.reset with routes := staticRoutes s.settings },
    scu := State.reset.scu }

/-- Open fault states end at a reset, each with one recovery (R581); the recoveries are acted on under R500 by `retireEighths`. -/
def State.endStates (s : State) : State :=
  (s.ret.faultList.filter (fun st => !st.injectedOnly)).foldl (fun t st => t.recordRecovery st)
    { s with ret := { s.ret with faultList := [] }, flt := { s.flt with open_ := [] } }

/-- A site is recorded as RETIRED, unless it is recorded as ISOLATED, which stands (R27). -/
def State.recordRetired (n : Nat) (s : State) : State := if recordedSite s n = some true then s else s.putMirror (.retiredSite n false)

/-- Resources whose recorded recoveries now number eight within the window are recorded and reported as retired before the compute set is
formed (R500, R581), and so is a site or an engine that has lost its last bundle (R366). -/
def State.retireEighths (states : List FaultState) (s : State) : State :=
  states.foldl (fun t st =>
    if st.injectedOnly || !eighth t st.res then t
    else
      let d := resourceData st.res
      let t1 := t.logEvent 0x0003 st.source st.severity false (retireData d.1 d.2.1 d.2.2 0)
      let told (u : State) (src data : Nat) : State := u.captureOnly [{ source := src, data := BitVec.ofNat 64 data }]
      match st.res with
      | .cell n k =>
        let t2 := (t1.putMirror (.retiredCell n k)).raiseService 1 2 n none false
        if 3 ≤ (recordedCells t2 n).length then t2.recordRetired n else t2
      | .tile n => told (t1.recordRetired n) (srcId 1 n 0x0A) 0
      | .bundle b =>
        let ends := [b] ++ (peerEnd b).toList
        let t2 := told (ends.foldl (fun u x => u.putMirror (.retiredBundle x)) t1) (bundleSource 0x30 b) 0
        ends.foldl (fun u x => match x with
          | .tile n _ => if siteCut u n then told (u.putMirror (.retiredSite n true)) (srcId 1 n 0x0B) 0 else u
          | .engine e _ => if engineCut u e then told u (srcId 2 e 0x0B) 0 else u
          | .hub _ => u) t2
      | .ring e r => told (t1.putMirror (.retiredRing e r)) (srcId 2 e 0x0A) (r.val / 36 + 256 * (r.val % 36 / 18) + 65536 * (r.val % 18) + 2 ^ 24 * 0x3F)
      | .laser e f => t1.putMirror (.retiredLaser e f)
      | .sensor x => t1.putMirror (.retiredSensor x)
      | .core c => told (t1.putMirror (.retiredCore c)) (srcId 0 0 1) c.val) s

/-- The recorded losses of sites one after the other: each that was in compute takes the lowest healthy spare, with the request of R28. -/
def State.reraiseSites : List Nat → List Nat → List Nat → State → State
  | [], _, _, s => s
  | n :: l, compute, spares, s =>
    if compute.contains n then
      match spares with
      | [] => State.reraiseSites l compute [] (s.raiseService 3 1 n none false)
      | v :: rest => State.reraiseSites l (v :: compute) rest (s.raiseService (if 2 ≤ rest.length then 1 else 2) 1 n none false)
    else State.reraiseSites l compute (without (· == n) spares) s

/-- Service requests of recorded retirements and failures are raised again at every start (R480). -/
def State.reraise (s : State) : State :=
  let lost := s.log.held.filterMap (fun m => match m with | .retiredSite n _ => some n | _ => none)
  let s1 := State.reraiseSites lost ((List.range 64).filter (fun n => !inMask s n)) ((List.range 64).filter (inMask s))
    ({ s with svc := s.svc.filter (·.predicted) } : State)
  s1.log.held.foldl (fun t m => match m with
    | .retiredCell n _ => t.raiseService 1 2 n none false
    | .retiredBundle b => t.raiseService 2 3 (bundleResource b) none false
    | .failedMemory n _ => t.raiseService 2 5 n none false
    | .retiredSensor x => match x with
      | .tile n _ => t.raiseService 2 6 n none false
      | _ => t
    | .retiredRing e _ => t.raiseService 1 4 e none false
    | _ => t) s1

/-- Data of a START record: kind, flash and slot in force, version (Table 18-5). -/
def startData (kind : Nat) (x : Option Settings) : DWord :=
  match x with
  | some y => BitVec.ofNat 64 (kind + 256 * y.flash + 65536 * y.slot + 2 ^ 32 * y.version)
  | none => BitVec.ofNat 64 (kind + 256 * 0xFF + 65536 * 0xFF)

/-- Numbers of the reset kinds (Table 19-3). -/
def ResetKind.code : ResetKind → Nat
  | .cold => 0 | .warm => 1 | .module => 2

/-- The route tables computed at a start, before any tile leaves reset (R35). -/
def State.firstTables (s : State) : State := { s with trans := { s.trans with tables := [meshOf s s.trans.meshTable] } }

/-- The end of step 3: START is logged, the sequence runs on when settings are in force (R286). -/
def State.endStep3 (kind : ResetKind) (s : State) : State :=
  let s1 := s.firstTables.logEvent 0x0010 0xFFFF 0 false (startData kind.code s.settings)
  { s1 with boot := { s1.boot with lastKind := kind, inProgress := if s1.settings.isSome then some kind else none },
            pins := { s1.pins with readyOut := false, regulators := true },
            ret := { s1.ret with opTimeAtReset := s1.ret.opTime },
            sb := { s1.sb with hubRunning := true } }

/-- Fewer than four control cores in service are an S3 stop, at a start too (Tables 17-4, 17-7). -/
def State.coreQuorum (s : State) : State := if 8 - s.flt.coresRetired.length < 4 then s.raise (srcId 0 0 9) 0 else s

/-- A warm or module reset (R531, R533): the settings in force and the checks made at the last cold reset are reused. A module that an S3
stop or a SHUTDOWN has brought down stays down through PERST# and a function-level reset: only RESTART, which keeps the configuration,
brings it back, its engines' rings searching from their last codes (R346, R401, R490; log 35, log 71). -/
def State.softReset (kind : ResetKind) (keepLink keepConfig : Bool) (s : State) : State :=
  let states := s.ret.faultList
  let s0 : State := { s with flashA := if kind = .warm then s.flashA.abandon else s.flashA,
                             flashB := if kind = .warm then s.flashB.abandon else s.flashB }
  let s1 := (s0.endStates.retireEighths states).rebuild false keepLink keepConfig
  let back : State := if s.boot.down then { s1 with engines := (s.engines.zip s1.engines).map (fun p => Engine.searchAgain p.1 p.2) } else s1
  let s2 : State := if keepConfig then back else { s1 with boot := { s1.boot with down := s.boot.down, hot := s.boot.hot } }
  (s2.reraise.endStep3 kind).coreQuorum

/-! ## Flash at a cold reset (R511, R513, R520, R522, R525) -/

/-- Every entry of the readable flashes, A's copy before B's (log 70), and the copies kept in the retained domain (R513, R524). -/
def settledEntries (s : State) : List Mirror :=
  let a := if s.flashA.failed then [] else s.flashA.entries
  let b := if s.flashB.failed then [] else s.flashB.entries
  s.ret.mirrorCopies.foldl (fun l m => addMirror m l) (a.foldl (fun l m => addMirror m l) (b.foldl (fun l m => addMirror m l) []))

/-- A copy that is missing or older is rewritten from the other flash (R513). -/
def State.rewriteCopies (s : State) : State :=
  let fix (f : Flash) : Flash :=
    if f.failed then f
    else (s.log.held.filter (fun m => !f.entries.contains m)).foldl (fun g m => g.enqueue (.mirror m)) f
  { s with flashA := fix s.flashA, flashB := fix s.flashB }

/-- Active log flash and next record number (R521, R522, R526). -/
def logHeadOf (s : State) : Nat × Nat :=
  let head := s.log.held.findSome? (fun m => match m with | .logHead a n => some (a, n) | _ => none)
  let want := (head.map (·.1)).getD 0
  let active := if (flashAt s want).failed then 1 - want else want
  let top := match greatest ((flashAt s active).ring.map (·.number)) with | some n => n + 1 | none => 0
  (active, Nat.max top ((head.map (·.2)).getD 0))

/-- A flash at a cold reset: the page that was being programmed is complete, the rest of its queue is gone (R532); it may not answer (R525). -/
def Flash.restart (answers : Bool) (f : Flash) : Flash :=
  let g := match f.queue with
    | .log r :: _ => f.program r
    | _ => f
  { g with queue := [], failed := f.failed || !answers, errors := 0, paused := false }

/-- Step 3 of a cold reset, flash part: queues of the hub are gone, entries settled, log head found. -/
def State.settleFlash (idA idB : Bool) (s : State) : State :=
  let s1 : State := { s with flashA := s.flashA.restart idA, flashB := s.flashB.restart idB }
  let s2 : State := { s1 with log := { active := 0, next := 0, refused := false, queued := [], held := settledEntries s1, mirrored := [],
                                       marked := [], dropped := [0, 0, 0, 0] } }
  let h := logHeadOf s2
  let s3 : State := { s2 with log := { s2.log with active := h.1, next := h.2 } }
  let s4 := s3.rewriteCopies
  let s5 := s4.ret.copies.foldl (fun t r => t.commitRecord { r with retained := true })
    { s4 with ret := { s4.ret with copies := [], mirrorCopies := [] } }
  let s6 := match s5.ret.openRec with
    | some r => ({ s5 with ret := { s5.ret with openRec := none } } : State).commitRecord { r with retained := true }
    | none => s5
  let s7 := if !idA then s6.raise (srcId 8 0 2) 0 else s6
  if !idB then s7.raise (srcId 8 1 2) 0 else s7

/-- The owner key enrolled at the last start (R536). -/
def enrolledKey (s : State) : List Byte :=
  (s.log.held.findSome? (fun m => match m with | .ownerKey k => some k | _ => none)).getD []

/-- The key an image asks for: none when its field is all zero (R536). -/
def wantedKey (x : Settings) : List Byte := if x.ownerKey.all (· == 0) then [] else x.ownerKey

/-- The reservation found in flash (R539). -/
def recordedHigh (s : State) : Nat :=
  (s.log.held.findSome? (fun m => match m with | .reservation h => some h | _ => none)).getD 0

/-- The next batch of signature indices is reserved (R540): written at first priority, waiting while writes are refused, impossible
when both flashes have failed. -/
def State.reserveBatch (s : State) : State :=
  if bothFailed s then s
  else if s.log.refused then
    let s1 : State := { s with sec := { s.sec with reservationPending := true } }
    if s.sec.reservationPending then s1 else s1.raise (srcId 9 0 5) 0
  else
    let high := s.sec.reservedHigh + 1024
    let f := if s.flashA.failed then 1 else 0
    (s.modFlash f (Flash.enqueue (.reservation high)))

/-- Step 3 of a cold reset, security part (R534, R536, R538, R540). -/
def State.settleSecurity (katOk : Bool) (s : State) : State :=
  let key := enrolledKey s
  let pick := if katOk then selectImage s key else none
  let x := pick.map (fun p => parseSettings p.1 p.2.1 p.2.2)
  let s1 : State := { s with settings := x, boot := { s.boot with settingsValid := x.isSome },
                             sec := { keyOk := katOk && Config.deviceKeyOk, cryptoOk := katOk, ownerKey := key,
                                      signerKey := (x.map (fun y => if y.signer = 0 then Config.vendorKey else key)).getD [],
                                      reservedHigh := recordedHigh s, nextIndex := recordedHigh s, batchLeft := 0,
                                      reservationPending := false } }
  let s2 := if katOk then (rejectedSlots s key).foldl (fun t p => t.raise (srcId 9 0 0) (p.1 + 256 * p.2)) s1
            else s1.raise (srcId 9 0 7) 0
  let s3 := if x.isNone then s2.raise (srcId 9 0 1) 0 else s2
  let board := (!s3.flashA.failed && Config.boardVerifies s3.flashA.board) || (!s3.flashB.failed && Config.boardVerifies s3.flashB.board)
  let s4 : State := { s3 with boardOk := board }
  let s5 := if board then s4 else s4.raise (srcId 9 0 2) 0
  let s6 := match x with
    | some y => if wantedKey y = key then s5
                else (({ s5 with sec := { s5.sec with ownerKey := wantedKey y } } : State).putMirror (.ownerKey (wantedKey y))).raise (srcId 9 0 6) 0
    | none => s5
  let s7 := if s6.sec.keyOk then s6 else s6.raise (srcId 9 0 3) 0
  s7.reserveBatch

/-- A trip or clock stop that ended in this start is logged (R469, R490). -/
def State.logCause (s : State) : State :=
  let kind := match s.ret.tripKind with | .none => 0 | .thermal => 1 | .overcurrent => 2 | .backstop => 3 | .inputRange => 4
  let s1 := if s.ret.tripPending then
      ({ s with ret := { s.ret with tripPending := false } } : State).logEvent 0x0013 s.ret.tripSource 3 false
        (BitVec.ofNat 64 ((s.ret.tripTimes.headD 0) % 2 ^ 32 + 2 ^ 32 * kind + 2 ^ 40 * s.ret.tripReading))
    else s
  match s1.ret.clockStop with
  | some src => ({ s1 with ret := { s1.ret with clockStop := none } } : State).captureOnly [{ source := src }]
  | none => s1

/-- A cold reset through step 3 (R531, R533, R534). Everything but the retained domain and the flashes starts anew; the messages
already sent stay sent. -/
def State.coldStart (katOk idA idB : Bool) (s : State) : State :=
  let base : State :=
    { State.reset with pending := s.pending, free := s.free, flashA := s.flashA, flashB := s.flashB,
                       ret := { s.ret with cycles := (s.ret.cycles + 1) % 2 ^ 24, tripped := false, coolSince := none },
                       pins := { s.pins with tripOut := false, alertOut := s.pins.alertOut },
                       sb := { s.sb with hubRunning := true },
                       host := { HostLink.reset with posted := s.host.posted, nextCid := s.host.nextCid } }
  let states := base.ret.faultList
  let s1 := (base.settleFlash idA idB).settleSecurity katOk
  let s1a : State := { s1 with ret := { s1.ret with faultList := states } }
  let s2 := (s1a.endStates.retireEighths states).logCause
  let keep := s2.flt
  let cause := s2.boot.cause
  let s3 := s2.rebuild true false false
  let s4 : State := { s3 with flt := { keep with coresRetired := s3.flt.coresRetired, recoveries := s3.flt.recoveries },
                              boot := { s3.boot with cause := cause } }
  (s4.reraise.foretell.endStep3 .cold).coreQuorum

/-- Power to everything but the standby domain goes (R562, R469): the hub's state is gone. -/
def State.powerLost (s : State) : State :=
  { State.reset with pending := s.pending, free := s.free, flashA := s.flashA.abandon, flashB := s.flashB.abandon, ret := s.ret,
                     pins := { s.pins with regulators := false, readyOut := false }, sb := { s.sb with hubRunning := false },
                     host := { HostLink.reset with posted := s.host.posted, nextCid := s.host.nextCid } }

/-- Depth of the whole-module resets (R531). -/
def ResetKind.depth : ResetKind → Nat
  | .cold => 2 | .warm => 1 | .module => 0

/-- Whether a reset of a kind is discarded because a deeper one is in progress (R531). -/
def discarded (s : State) (k : ResetKind) : Bool :=
  match s.boot.inProgress with
  | some j => decide (k.depth < j.depth)
  | none => false

end Sys2Proof.Machine
end

