-- ==== Sys2Proof/Machine/Tiles.lean ====
section
/-! DEFINITION. Tile sites and their cells: retirement, isolation, the sampling cell, drains and the watchdogs (R25–R29, R51–R65, R70,
R184, R203, R485, R486, R503, R504, R579). -/
namespace Sys2Proof.Machine

/-- TILE_RETIRE: a compute tile that must retire (R25): RETIRED while its router works and a bundle is left, else ISOLATED; the lowest healthy
spare takes its place and its role (R23, R198). -/
def execTileRetire (site : SiteId) (routerOk : Bool) (s : State) : Host.Outcome State Fault Refusal :=
  if (tileAt s site).state = .compute then .next (s.retireTile site routerOk) else .next s

/-- SITE_ISOLATE: a site that is not ISOLATED becomes so (R26, R579). -/
def execSiteIsolate (site : SiteId) (s : State) : Host.Outcome State Fault Refusal :=
  if (tileAt s site).state = .isolated then .next s else .next (s.isolateSite site)

/-! ## The sampling cell (R51–R56, R503) -/

/-- Units that lie on a physical cell of a site now. -/
def unitsOnCell (s : State) (n k : Nat) : List WorkUnit :=
  s.cel.units.filter (fun u => u.site == some n && u.cells.any (fun i => (tileAt s n).logical[i]? == some k))

/-- A physical cell runs a command's work unit: the range of accept_seq it keeps grows (R504). -/
def Tile.noteRun (k cid seq : Nat) (t : Tile) : Tile :=
  let r := match t.seqRange.find? (fun x => x.1 == k) with
    | some x => (k, Nat.min x.2.1 seq, Nat.max x.2.2 seq)
    | none => (k, seq, seq)
  { t with seqRange := r :: without (fun x => x.1 == k) t.seqRange, ran := addOnce (k, cid) t.ran }

/-- A cell passes its test: what it ran before is settled (R504). -/
def Tile.clearRun (k : Nat) (t : Tile) : Tile :=
  { t with seqRange := without (fun x => x.1 == k) t.seqRange, ran := without (fun x => x.1 == k) t.ran }

/-- The handover of R54: Cs takes the logical cell of Ct, which becomes the sampling cell; a sweep ends when every non-retired cell has
sampled (R52, Table 2-10). -/
def Tile.handover (cs ct : Nat) (t : Tile) : Tile :=
  let ends := decide (t.sweepPos + 1 ≥ (liveCells t).length)
  { t with logical := t.logical.map (fun k => if k = ct then cs else k), sampling := some ct, katPassed := false,
           sweepPos := if ends then 0 else t.sweepPos + 1, sweeps := if ends then (t.sweeps + 1) % 2 ^ 32 else t.sweeps }

/-- Whether the sampling cell may be tested and moved. -/
def Tile.samples (t : Tile) : Bool := t.state == .compute && t.setupDone && t.rotating && !t.katFailed

/-- SLOT_END: the sampling cell, having passed, takes the next cell's logical cell (R54); an uncorrectable word in the copy marks every
command that used that logical cell, and the handover is completed (R55); injection makes it one (R508). -/
def execSlotEnd (site : SiteId) (copyError : Bool) (s : State) : Host.Outcome State Fault Refusal :=
  let t := tileAt s site
  match t.sampling with
  | none => .next s
  | some cs =>
    if !(t.samples && t.katPassed) then .next s
    else match nextCell (liveCells t) cs with
      | none => .next s
      | some ct =>
        let moved := unitsOnCell s site ct
        let s1 := s.modTile site (Tile.handover cs ct)
        let s2 := moved.foldl (fun u w => match (cmdAt u w.cid).bind (·.seq) with
          | some q => u.modTile site (Tile.noteRun cs w.cid q)
          | none => u) s1
        if copyError || s.flt.injecting (srcId 1 site 7) then
          .next (s2.capture [{ source := srcId 1 site 7, data := BitVec.ofNat 64 ct, resource := some (.cell site (Fin.ofNat 33 ct)),
                               touched := (moved.map (·.cid)).eraseDups }])
        else .next s2

/-- A cell of a compute tile goes out (R62, R63): it is retired, the tile drains, and when it was the sampling cell the others serve on without
one. -/
def State.cellOut (n k source : Nat) (s : State) : State :=
  let s1 := s.modTile n (fun t => if t.sampling = some k then { t with katFailed := true, sampling := none, rotating := false } else t)
  let s2 := s1.retireCell n k source
  if (tileAt s2 n).state = .compute ∧ (tileAt s2 n).retiring = false then s2.startDrain n else s2

/-- A known-answer test fails: reported with the range that the cell has run, under the event given where there is one, its commands in flight are marked and
the cell goes out (R62–R64, R504). -/
def State.katFailed (n : SiteId) (k : CellId) (ev : Option FaultEvent) (s : State) : State :=
  let src := srcId 1 n 0
  let t := tileAt s n
  let e : FaultEvent := ev.getD { source := src, data := 0 }
  ((runCmds s t k).foldl (fun u c => u.markCmd src c) (s.capture [{ e with data := BitVec.ofNat 64 (rangeData t k) }])).cellOut n k src

/-- KAT_RESULT: the test of the sampling cell ends (R53). A pass settles what the cell ran; a failure is reported at once, the cell is retired,
its commands in flight are marked and the tile drains (R62–R64, R504). -/
def execKatResult (site : SiteId) (pass : Bool) (s : State) : Host.Outcome State Fault Refusal :=
  let t := tileAt s site
  match t.sampling with
  | none => .next s
  | some k =>
    if !t.samples || t.katPassed then .next s
    else
      let s1 : State := { s with flt := { s.flt with stRun := s.flt.stRun + 1 } }
      if pass then .next (s1.modTile site (fun t => { t.clearRun k with katPassed := true }))
      else
        let src := srcId 1 site 0
        let s2 : State := { s1 with flt := { s1.flt with stFailed := s1.flt.stFailed + 1,
                                                         stFirst := if s1.flt.stFirst = 0xFFFF then src else s1.flt.stFirst } }
        .next (s2.katFailed site (Fin.ofNat 33 k) none)

/-! ## Drains (Table 7-4) -/

/-- DRAIN_ABANDON: 1.0 ms into a drain unfinished units go back to the queue and kernel warps stop issuing (R184, R203, R204). -/
def execDrainAbandon (site : SiteId) (s : State) : Host.Outcome State Fault Refusal :=
  let t := tileAt s site
  if t.draining && !t.drainAbandoned then
    .next ((s.requeueRuns site).modTile site (fun t => { t with drainAbandoned := true }))
  else .next s

/-- The cells of a tile restarted without its leaving cells (R62 step 5, R63), after the last of them where there are several (log 40). -/
def Tile.restartCells (t : Tile) : Tile :=
  match t.leavingCells.getLast? with
  | none => t
  | some k =>
    match nextCell (liveCells t) k with
    | some c => { t with sampling := some c, logical := (liveCells t).filter (fun x => x != c), rotating := true, katFailed := false,
                         katPassed := false, leavingCells := [], sweepPos := 0 }
    | none => t

/-- A tile after its drain: it works under its new role, or restarts with one cell fewer (R62, R203). -/
def Tile.afterDrain (t : Tile) : Tile :=
  { t.restartCells with draining := false, drainAbandoned := false, role := t.nextRole.getD t.role, nextRole := none }

/-- A TEMP tensor leaves the tile store of a site whose store is cleared, for module memory; where none is left, its run ends with NO_RESOURCE (R144,
R203; log 59). -/
def State.leaveStore (n cid : Nat) (v : TensorVal) (s : State) : State :=
  let b := v.bytes ++ v.records.flatMap Acc.bytes
  match ((takeExtents b.length (siteFree s n)).orElse (fun _ => takeExtents b.length (localFree s))).orElse (fun _ => takeExtents b.length (cxlFree s)) with
  | some l => (s.modRun cid (fun r => { r with temps := r.temps.map (fun p => if p.tensor = v.id then { p with store := none, extents := l } else p) })).writeMem l b
  | none => s.failWork cid .noResource 0

/-- The tile store of a site is cleared: its TEMP tensors leave it (Table 7-4 step 5). -/
def State.clearStore (n : Nat) (s : State) : State :=
  s.runs.foldl (fun t r => (r.vals.filter (fun v => r.temps.any (fun p => p.tensor == v.id && p.store == some n))).foldl (fun u v => u.leaveStore n r.cid v) t) s

/-- Memory that saved clusters have come to take. -/
def freshImages (s t : State) : List Extent :=
  let all (u : State) : List Extent := u.launches.flatMap (fun l => l.clusters.flatMap (·.image))
  (all t).filter (fun e => !(all s).contains e)

/-- DRAIN_END: once the copies in flight have ended, and no memory that takes a saved cluster makes it wait, the clusters are saved, stores and DRAINING cleared, and a tile that retires is dark
(R25, R184, R203). -/
def execDrainEnd (site : SiteId) (s : State) : Host.Outcome State Fault Refusal :=
  let t := tileAt s site
  if t.draining && t.drainAbandoned && !copiesAt s site then
    let saved := s.saveClusters site
    let s1 := (saved.requeueUnits site).clearStore site
    if memWaitsBy s (some site.val) (freshImages s saved) then .next s
    else .next (if t.retiring then s1.darken site else (s1.modTile site Tile.afterDrain).assignStreams)
  else .next s

/-! ## Watchdogs -/

/-- TILE_CONTROLLER_WATCHDOG: CONTROLLER_WATCHDOG is raised, the tile makes a partial reset, and the commands with work on it complete with
RESULT_SUSPECT (R70, R185, R486). -/
def execTileControllerWatchdog (site : SiteId) (s : State) : Host.Outcome State Fault Refusal :=
  let t := tileAt s site
  if t.state = .isolated ∨ t.idValid = false then .next s
  else
    let src := srcId 1 site 9
    let hit := commandsOn s site
    let s1 := s.raiseFor src 0 (.tile site)
    .next ((hit.foldl (fun u c => (u.blameSite c site .resultSuspect src).failWork c .resultSuspect src) s1).partialReset site src)

/-- CORE_WATCHDOG: the core is reset and every command it held completes with INTERNAL; its rings pass to the others meanwhile (R485). One that is retired
or in its reset already has no watchdog to fire. -/
def execCoreWatchdog (core : CoreId) (s : State) : Host.Outcome State Fault Refusal :=
  let src := srcId 0 0 0
  let hit := (s.host.cmds.filter (fun c => c.core == core.val && c.done.isNone)).map (·.cid)
  let s0 : State := { s with flt := { s.flt with coresReset := addOnce core.val s.flt.coresReset } }
  let s1 := s0.capture [{ source := src, data := BitVec.ofNat 64 core.val, resource := some (.core core) }]
  if coreOut s core then .next s
  else .next (hit.foldl (fun u c => u.failWork c .internal src) s1)

end Sys2Proof.Machine
end

