-- ==== Sys2Proof/Machine/Cellarer.lean ====
section
/-! DEFINITION. The Cellarer (Chapter 7): targets and moves of roles, work units, key/value placement and moves, stripes and prefetch. -/
namespace Sys2Proof.Machine

/-! ## Targets and moves of roles (R194–R198) -/

/-- Bounds with the minima lowered until they fit: CASK, then MASH, then DRAUGHT, one tile at a time (R202). -/
def lowerBounds : Nat → Nat → Bounds → Bounds
  | 0, _, b => b
  | fuel + 1, n, b =>
    if b.minM + b.minD + b.minC ≤ n then b
    else
      let b1 := if n < b.minM + b.minD + b.minC ∧ 0 < b.minC then { b with minC := b.minC - 1 } else b
      let b2 := if n < b1.minM + b1.minD + b1.minC ∧ 0 < b1.minM then { b1 with minM := b1.minM - 1 } else b1
      let b3 := if n < b2.minM + b2.minD + b2.minC ∧ 0 < b2.minD then { b2 with minD := b2.minD - 1 } else b2
      lowerBounds fuel n b3

/-- floor(r · a / b + 1/2). -/
def roundShare (r a b : Nat) : Nat := (2 * r * a + b) / (2 * b)

/-- The procedure of R194: targets (m, d, c) and whether hints were clipped. -/
def roleTargets (n wM wD kv : Nat) (h : Bounds) (curM curD : Nat) : (Nat × Nat × Nat) × Bool :=
  let c0 := Nat.max h.minC ((kv + 299) / 300)
  let c := Nat.min (Nat.min c0 h.maxC) (n - h.minM - h.minD)
  let r := n - c
  let m := if wM + wD = 0 then (if curM + curD = 0 then (r + 1) / 2 else roundShare r curM (curM + curD)) else roundShare r wM (wM + wD)
  let lo := Nat.max h.minM (r - h.maxD)
  let hi := Nat.min h.maxM (r - h.minD)
  if lo ≤ hi then
    let m' := Nat.min (Nat.max m lo) hi
    ((m', r - m', c), false)
  else
    let d := Nat.min h.maxD (r - hi)
    ((hi, d, n - hi - d), true)

/-- The change two agreeing plans want (R195). -/
def agreed (a b : Int) : Int :=
  if 0 < a ∧ 0 < b then (if a < b then a else b) else if a < 0 ∧ b < 0 then (if a < b then b else a) else 0

/-- Changes wanted, per role in the order MASH, DRAUGHT, CASK. -/
abbrev Wanted := List (Role × Int)

/-- The role with the most positive change, ties in table order (R196). -/
def mostWanted (w : Wanted) : Option (Role × Int) := (pickBy (fun a b : Role × Int => decide (a.2 > b.2)) w).filter (fun x => 0 < x.2)

/-- The role with the most negative change. -/
def leastWanted (w : Wanted) : Option (Role × Int) := (pickBy (fun a b : Role × Int => decide (a.2 < b.2)) w).filter (fun x => x.2 < 0)

/-- Work that waits or runs on a site. -/
def siteWork (s : State) (n : Nat) : Nat := total ((s.cel.units.filter (fun u => u.site == some n)).map (unitLeft s))

/-- The tile a giving role gives (R197). -/
def giveTile (s : State) (r : Role) : Option Nat :=
  pickBy (fun a b => decide (siteWork s a < siteWork s b))
    ((roleSites s r).filter (fun n => !(tileAt s n).draining && !(tileAt s n).changedLastPlan))

/-- A tile drains towards a role. -/
def State.moveRole (n : Nat) (r : Role) (s : State) : State :=
  (s.startDrain n).modTile n (fun t => { t with nextRole := some r })

/-- A step of the wanted changes. -/
def bumpWanted (r : Role) (d : Int) (w : Wanted) : Wanted := w.map (fun x => if x.1 = r then (x.1, x.2 + d) else x)

/-- So many moves of one tile each (R196); the sites moved. -/
def makeMoves : Nat → Wanted → State × List Nat → State × List Nat
  | 0, _, acc => acc
  | k + 1, w, acc =>
    match mostWanted w, leastWanted w with
    | some (gain, _), some (loss, _) =>
      match giveTile acc.1 loss with
      | some n => makeMoves k (bumpWanted gain (-1) (bumpWanted loss 1 w)) (acc.1.moveRole n gain, acc.2 ++ [n])
      | none => acc
    | _, _ => acc

/-- Sum of the positive changes. -/
def gains (w : Wanted) : Nat := (w.foldl (fun (m : Int) (x : Role × Int) => if 0 < x.2 then m + x.2 else m) 0).toNat
/-- Magnitude of the negative ones. -/
def losses (w : Wanted) : Nat := (w.foldl (fun (m : Int) (x : Role × Int) => if x.2 < 0 then m - x.2 else m) 0).toNat

/-- Whether counts break bounds (R201). -/
def breaks (c : Nat × Nat × Nat) (b : Bounds) : Bool :=
  decide (c.1 < b.minM) || decide (b.maxM < c.1) || decide (c.2.1 < b.minD) || decide (b.maxD < c.2.1) || decide (c.2.2 < b.minC)
  || decide (b.maxC < c.2.2)

/-- Counts nearest to some that meet the bounds and add up to n: too many tiles are taken, and too few added, in table order; what the maxima leave
over goes to CASK (R201; log 63). -/
def fitCounts (n : Nat) (h : Bounds) (c : Nat × Nat × Nat) : Nat × Nat × Nat :=
  let m := Nat.max h.minM (Nat.min c.1 h.maxM)
  let d := Nat.max h.minD (Nat.min c.2.1 h.maxD)
  let k := Nat.max h.minC (Nat.min c.2.2 h.maxC)
  let m1 := m - Nat.min (m + d + k - n) (m - h.minM)
  let d1 := d - Nat.min (m1 + d + k - n) (d - h.minD)
  let k1 := k - Nat.min (m1 + d1 + k - n) (k - h.minC)
  let m2 := m1 + Nat.min (n - (m1 + d1 + k1)) (h.maxM - m1)
  let d2 := d1 + Nat.min (n - (m2 + d1 + k1)) (h.maxD - d1)
  (m2, d2, n - m2 - d2)

/-- The changes of counts that a plan wants (R195, R201, R202): none in a module that is not MIXED, those that meet new bounds which the counts
break, else what this plan and the one before agree on, unless FREEZE holds. -/
def wantedChanges (s : State) (n : Nat) (h : Bounds) (cur target : Nat × Nat × Nat) : List Int :=
  let diff (x : Nat × Nat × Nat) : List Int := [(x.1 : Int) - cur.1, (x.2.1 : Int) - cur.2.1, (x.2.2 : Int) - cur.2.2]
  if s.cel.moduleRole ≠ .none then [0, 0, 0]
  else if s.cel.boundsNew && breaks cur h then diff (fitCounts n h cur)
  else match s.cel.prevTargets, s.cel.freeze with
    | some p, false => List.zipWith agreed (diff target) (diff p)
    | _, _ => [0, 0, 0]

/-- Compute tiles whose role is not the module's: each drains at once (R190). -/
def rolesDiffer (s : State) : List Nat :=
  match s.cel.moduleRole with
  | .none => []
  | r => (computeSites s).filter (fun n => (tileAt s n).planRole != r)

/-- Role changes of one plan (R190, R191, R194–R197, R201, R202). -/
def State.planRoles (s : State) : State :=
  let n := (computeSites s).length
  let h := lowerBounds 56 n s.cel.bounds
  let cur := roleCounts s
  let (t, clip) := roleTargets n s.cel.wMash s.cel.wDraught s.cel.kvRate h cur.1 cur.2.1
  let w : Wanted := List.zip [Role.mash, .draught, .cask] (wantedChanges s n h cur t)
  let base : State := { s with cel := { s.cel with bounds := h, hintsClipped := s.cel.hintsClipped || clip || decide (h ≠ s.cel.bounds),
                                                    prevTargets := some t, boundsNew := false } }
  let hit := rolesDiffer s
  let (s1, moved) := makeMoves (Nat.min (Nat.min (gains w) (losses w)) 8) w (hit.foldl (fun (u : State) k => u.moveRole k s.cel.moduleRole) base, hit)
  let s2 : State := { s1 with tiles := (List.range 64).map (fun k => { tileAt s1 k with changedLastPlan := moved.contains k }) }
  if moved.isEmpty then s2 else { s2 with cel := { s2.cel with lastChange := s.cel.plan } }

/-! ## Key/value placement (R208–R212) -/

/-- Bytes of CXL held by others than key/value blocks (R210). -/
def cxlOthers (s : State) : Nat :=
  let inCxl (e : Extent) : Bool := match placeOf e.base with | .cxl _ => true | _ => false
  total (((s.mem.handles.flatMap (·.extents) ++ tempExtents s ++ s.models.flatMap (fun m => m.shards.flatMap (fun x => x.stripes
    ++ x.cxlCopy))).filter inCxl).map (·.len))

/-- Mapped capacity of the CXL tier (R267): that of a port which is being evacuated is mapped to its end (R271). -/
def cxlCapacity (s : State) : Nat :=
  total (((List.range 4).filter (fun p => portOpen s p || (cxlAt s p).state == .evacuating)).map (fun p => (cxlAt s p).mapped))

/-- The CXL tier's key/value share (R210). -/
def kvShareNow (s : State) : Nat := cxlCapacity s - cxlOthers s

/-- The share recomputed. -/
def State.setShare (s : State) : State := { s with cel := { s.cel with kvShare := kvShareNow s } }

/-- Blocks held in the CXL tier, and those moving there. -/
def cxlBlocks (s : State) : Nat :=
  (s.cel.blocks.filter (fun b => b.place.isCxl)).length + (s.cel.moves.filter (fun m => !m.switched && m.dest.isCxl)).length

/-- Preference of a site for key/value blocks (R209). -/
def sitePref (s : State) (n : Nat) : Nat :=
  let t := tileAt s n
  if t.state == .compute && t.role == .cask then 0 else if t.state == .spare || t.state == .retired then 1 else 2

/-- Where a block goes in the local pool: preference, then most free bytes, then the lowest n (R209). -/
def poolPlace (s : State) : Option Extent :=
  let cands := (List.range 64).filterMap (fun n =>
    let f := siteFree s n
    (take64K f).map (fun e => (sitePref s n, extentBytes f, e)))
  (pickBy (fun a b : Nat × Nat × Extent => decide (a.1 < b.1) || (a.1 == b.1 && decide (b.2.1 < a.2.1))) cands).map (·.2.2)

/-- Where a block goes in the CXL tier: room in the share, then the first port with room (log 10). -/
def cxlPlace (s : State) : Option Extent :=
  if s.cel.kvShare < 65536 * (cxlBlocks s + 1) then none else take64K (cxlFree s)

/-- Cask peers that a route reaches (R209). -/
def caskPeers (s : State) : List Nat :=
  match s.settings with
  | some x => (x.caskPeers.filter (fun p => p != 0xFFFF && reachable s p))
  | none => []

/-- Blocks leased from a peer, and those moving there. -/
def peerBlocks (s : State) (p : Nat) : Nat :=
  (s.cel.blocks.filter (fun b => b.place == .remote p)).length + (s.cel.moves.filter (fun m => !m.switched && m.dest == .remote p)).length

/-- Bytes taken of a peer's offer: blocks, and weights that an evacuation has sent there (R209, R271). -/
def peerUsed (s : State) (p : Nat) : Nat :=
  65536 * peerBlocks s p + total (s.models.flatMap (fun m => (m.shards.filter (fun x => x.atPeer == some p)).map (fun x => x.data.length)))

/-- A peer whose offer has room for another block (R209). -/
def remotePlace (s : State) : Option Nat := (caskPeers s).find? (fun p => decide (peerUsed s p + 65536 ≤ Config.leaseOffer p))

/-- Local pool: capacity (R209). -/
def poolCapacity (s : State) : Nat :=
  total (((List.range 64).filter (siteMapped s)).map (fun n => siteUsable - weightBytes s n - 960 * (tileAt s n).retiredGroups.length))

/-- Local pool: bytes used. -/
def poolUsed (s : State) : Nat := poolCapacity s - extentBytes (localFree s)

/-- Reads of a block that a peer holds: sixteen of 4,096 B; its addresses there are not given (R213, R214, R448, log 20). -/
def blockReads (s : State) (cid : Option Nat) (block peer : Nat) : List Request :=
  (List.range 16).map (fun k => requestTo s cid (some block) peer 0x01 (4096 * 2 ^ 48 + (Config.freeWord (s.free + k)).toNat % 2 ^ 48) [])

/-- A copy of a block starts; one that a peer holds is read from it (R213). -/
def State.startMove (b : KvBlock) (dest : Place) (ext : Extent) (s : State) : State :=
  let m : Move := { id := s.cel.nextMove, block := b.id, dest, destExtent := ext, switched := false, oldPlace := b.place,
                    oldExtent := ⟨b.extent.base, 0⟩, readers := 0 }
  let s1 : State := { s with cel := { s.cel with moves := s.cel.moves ++ [m], nextMove := s.cel.nextMove + 1 } }
  match b.place with
  | .remote p => (s1.request (blockReads s1 none b.id p)).spend 16
  | _ => s1

/-- A block asked of a cask peer: the lease is taken first (R214); the operand of LEASE is not given (log 20). -/
def State.takeLease (peer block : Nat) (s : State) : State :=
  (s.request [requestTo s none (some block) peer 0x10 (freshWord s).toNat []]).spend 1

/-- Whether a block that a restore placed at a peer is still to be brought there: its lease asked for or its bytes on their way (R214). -/
def onItsWay (s : State) (b : KvBlock) : Bool :=
  b.place.isRemote && !s.cel.moves.any (fun m => m.block == b.id)
  && (s.trans.requests ++ s.trans.waiting).any (fun q => q.cid.isNone && q.block == some b.id)

/-- Whether a session has such blocks; its steps and copies wait for them. -/
def goingOut (s : State) (session : Nat) : Bool := s.cel.blocks.any (fun b => b.session == session && onItsWay s b)

/-- Whether a sealed block may move: it is not moving, and a peer that holds it can be read. -/
def movable (s : State) (b : KvBlock) : Bool :=
  b.sealed && !s.cel.moves.any (fun m => m.block == b.id) && !onItsWay s b && (match b.place with | .remote p => reachable s p | _ => true)

/-- A lease is given back to its peer, when that can be reached (R213, R231, log 20). -/
def State.releaseLease (l : HeldLease) (s : State) : State :=
  let s1 : State := { s with cel := { s.cel with heldLeases := s.cel.heldLeases.erase l } }
  if reachable s l.peer then (s1.request [requestTo s1 none none l.peer 0x10 (freshWord s1).toNat []]).spend 1 else s1

/-- Leases of a block that its place and its move no longer need are given back (R213). -/
def State.tidyLeases (block : Nat) (s : State) : State :=
  (s.cel.heldLeases.filter (fun l => l.block == block && !s.cel.blocks.any (fun b => b.id == block && b.place == .remote l.peer)
    && !s.cel.moves.any (fun m => m.block == block && (m.dest == .remote l.peer || m.oldPlace == .remote l.peer)))).foldl (fun t l => t.releaseLease l) s

/-- Leases whose session is gone are given back (R231). -/
def State.releaseOrphans (s : State) : State := (s.cel.heldLeases.filter (fun l => l.session.isNone)).foldl (fun t l => t.releaseLease l) s

/-- Lowest heat first, ties to the oldest seal (R212). -/
def coldFirst (a b : KvBlock) : Bool := decide (a.heat < b.heat) || (a.heat == b.heat && decide (a.sealOrder < b.sealOrder))

/-- Moves of up to k blocks of a list while a condition holds. -/
def moveSome (ok : State → Bool) (dest : State → Option (Place × Extent)) : Nat → List KvBlock → State → State
  | 0, _, s => s
  | _, [], s => s
  | k + 1, b :: t, s =>
    if !ok s then s
    else match dest s with
      | none => s
      | some (p, e) =>
        let s1 := match p with | .remote x => s.takeLease x b.id | _ => s
        moveSome ok dest k t (s1.startMove b p e)

/-- Bytes that will have left the local pool by moves started. -/
def leavingPool (s : State) : Nat := 65536 * (s.cel.moves.filter (fun m => !m.switched && m.oldPlace.isSite)).length
/-- Blocks that will have left the CXL tier for a peer. -/
def leavingCxl (s : State) : Nat := (s.cel.moves.filter (fun m => !m.switched && m.oldPlace.isCxl && m.dest.isRemote)).length

/-- A place in the CXL tier as a move target. -/
def toCxl (s : State) : Option (Place × Extent) := (cxlPlace s).map (fun e => (placeOf e.base, e))
/-- A peer as a move target. -/
def toRemote (s : State) : Option (Place × Extent) := (remotePlace s).map (fun p => (.remote p, ⟨0, 0⟩))
/-- A place in the pool as a move target. -/
def toPool (s : State) : Option (Place × Extent) := (poolPlace s).map (fun e => (placeOf e.base, e))

/-- Moves of sealed blocks between tiers at a plan, at most 4 GiB across each boundary in each direction (R212), once the leases of sessions that
are gone have been given back. -/
def State.planBlocks (s0 : State) : State :=
  let s := s0.releaseOrphans
  let noCxl := cxlCapacity s == 0
  let cap := poolCapacity s
  let locals := sortBy coldFirst (s.cel.blocks.filter (fun b => b.place.isSite && movable s b))
  let s1 := if 10 * poolUsed s > 9 * cap then
      moveSome (fun t => decide (10 * (poolUsed t - leavingPool t) > 8 * cap)) (if noCxl then toRemote else toCxl) 65536 locals s
    else s
  let held := sortBy coldFirst (s1.cel.blocks.filter (fun b => b.place.isCxl && movable s1 b))
  let s2 := if !noCxl && decide (10 * 65536 * cxlBlocks s1 > 9 * s1.cel.kvShare) then
      moveSome (fun t => decide (10 * 65536 * (cxlBlocks t - leavingCxl t) > 8 * t.cel.kvShare)) toRemote 65536 held s1
    else s1
  let hot := (sortBy coldFirst (s2.cel.blocks.filter (fun b => !b.place.isSite && movable s2 b && decide (64 ≤ b.heat)))).reverse
  if 10 * poolUsed s2 < 8 * cap then moveSome (fun t => decide (10 * poolUsed t < 8 * cap)) toPool 65536 hot s2 else s2

/-! ## Work units (R144, R199, R204) -/

/-- Tiles of a group that take new units. -/
def groupTiles (s : State) (r : Role) : List Nat :=
  (computeSites s).filter (fun n => let t := tileAt s n; t.role == groupRole s r && !t.draining && t.setupDone)

/-- The tile with the least pending work, ties to the lowest n. -/
def leastBusy (s : State) (l : List Nat) : Option Nat := pickBy (fun a b => decide (siteWork s a < siteWork s b)) l

/-- The row with the least predicted load that has a tile of the list. -/
def leastRow (loads l : List Nat) : Option Nat :=
  pickBy (fun a b => decide (loads.getD a 0 < loads.getD b 0)) ((List.range 8).filter (fun r => l.any (fun n => n / 8 == r)))

/-- The logical cell of a tile with the least pending work, ties to the lowest index (log 10). -/
def chooseCell (s : State) (n : Nat) : Nat :=
  let load (i : Nat) : Nat := total ((s.cel.units.filter (fun u => u.site == some n && u.cells.contains i)).map (·.work))
  (pickBy (fun a b => decide (load a < load b)) (List.range (tileAt s n).logical.length)).getD 0

/-- Logical cells of a site that run groups: one cell runs groups of one launch only, and of one cluster (R175, R176; log 10). -/
def cellsTaken (s : State) (n : Nat) : List Nat :=
  s.launches.flatMap (fun l => (l.clusters.filter (·.runsAt n)).flatMap (fun c => c.groups.map (·.cell)))

/-- Logical cells of a site that run no group. -/
def cellsFree (s : State) (n : Nat) : List Nat := (List.range (tileAt s n).logical.length).filter (fun i => !(cellsTaken s n).contains i)

/-- The groups of a cluster as they start, each on its cell and its warps in their slots: registers, predicates but p7, stores and accumulators zero
(R49, R149, R150, R153, R155, R157). -/
def freshGroups (k : Kernel) (cells : List Nat) : List Group :=
  let thread : Thread := { regs := List.replicate k.regs 0, preds := List.replicate 7 false ++ [true] }
  let warp (slot : Nat) : Warp := { slot, pc := k.entry, active := List.replicate 32 true, stack := [], threads := List.replicate 32 thread,
                                    counters := List.replicate 8 0, copies := [], waiting := none, exited := false }
  (List.range k.groups).map (fun g =>
    { cell := cells.getD (g / k.perCell) 0, warps := (List.range k.warps).map (fun w => warp (g % k.perCell * k.warps + w)), store := [], tiles := [],
      written := [] })

/-- The groups of a saved cluster on the cells where they resume. -/
def resumeGroups (k : Kernel) (cells : List Nat) (l : List Group) : List Group :=
  (List.range l.length).filterMap (fun g => (l[g]?).map (fun x => { x with cell := cells.getD (g / k.perCell) 0 }))

/-- A cluster starts or resumes at a site, on some of its logical cells (R149, R184). -/
def State.placeCluster (cid index n : Nat) (cells : List Nat) (s : State) : State :=
  { s with launches := s.launches.map (fun l => if l.cid = cid then
      { l with clusters := l.clusters.map (fun c => if c.index = index then
          { c with site := some n, started := true, saved := false, image := [],
                   groups := if c.started then resumeGroups l.kernel cells c.groups else freshGroups l.kernel cells } else c) }
      else l) }

/-- Bytes of a site's tile store that TEMP tensors take (R144). -/
def tempStore (s : State) (n : Nat) : Nat :=
  total (s.runs.flatMap (fun r => (r.vals.filter (fun v => r.temps.any (fun p => p.tensor == v.id && p.store == some n))).map
    (fun v => v.bytes.length + 48 * v.records.length)))

/-- Whether a site takes a unit: any unit of a run; a cluster only with 30 or more logical cells and with cells and tile store free (R176). -/
def siteTakes (s : State) (u : WorkUnit) (n : Nat) : Bool :=
  match s.launches.find? (fun l => l.cid == u.cid) with
  | none => true
  | some l =>
    let here := s.launches.flatMap (fun q => (q.clusters.filter (·.runsAt n)).map (fun _ => clusterNeeds q.kernel))
    let need := clusterNeeds l.kernel
    let cells := (tileAt s n).logical.length
    decide (30 ≤ cells) && decide (need.1 ≤ (cellsFree s n).length) && decide (total (here.map (·.2)) + tempStore s n + need.2 ≤ 0x2000000)

/-- The logical cells that a unit of a tile takes: a cluster those its groups need, any other unit the least busy one. -/
def unitCells (s : State) (u : WorkUnit) (n : Nat) : List Nat :=
  match s.launches.find? (fun l => l.cid == u.cid) with
  | some l => (cellsFree s n).take (clusterNeeds l.kernel).1
  | none => [chooseCell s n]

/-- Whether an input of a unit is a TEMP tensor that lies in the CXL tier. -/
def tempInCxl (s : State) (u : WorkUnit) : Bool :=
  s.runs.any (fun r => r.cid == u.cid && (match r.graph.ops[u.op]? with
    | some o => r.temps.any (fun p => o.ins.contains p.tensor && p.extents.any (fun e => (placeOf e.base).isCxl))
    | none => false))

/-- What a unit costs on a tile: its bytes for each module that the route table reaches, by the hops to the engine that it picks (R199). -/
def exchangeCost (s : State) (peers : List (Nat × Nat)) (n : Nat) : Nat :=
  total (peers.filterMap (fun p => (routeFor s p.1 0x80 5).map (fun e => p.2 * siteHops n (engineSite e))))

/-- The tiles of its group that may take a unit: not one that has abandoned it, unless no other may (R204). -/
def unitTiles (s : State) (u : WorkUnit) : List Nat :=
  let l := (groupTiles s u.group).filter (siteTakes s u)
  let rest := l.filter (fun n => !u.tried.contains n)
  if rest.isEmpty then l else rest

/-- The tile that takes a unit (R199). -/
def chooseTile (s : State) (u : WorkUnit) (loads : List Nat) : Option Nat :=
  let l := unitTiles s u
  if u.cxlInputs || tempInCxl s u then
    match leastRow loads l with
    | some r => leastBusy s (l.filter (fun n => n / 8 == r))
    | none => none
  else if u.peers.any (fun p => (routeFor s p.1 0x80 5).isSome) then
    pickBy (fun a b => decide (exchangeCost s u.peers a < exchangeCost s u.peers b)) l
  else match u.weightSite.bind (fun w => (s.cel.streamed.find? (fun p => p.1 == w)).map (·.2)) with
    | some n => if u.group = .draught ∧ l.contains n = true then some n else leastBusy s l
    | none => leastBusy s l

/-- Whether the work of a command has begun: units of a run or launch that waits for others are only counted (R146, R179, R192). -/
def workBegun (s : State) (cid : Nat) : Bool :=
  s.runs.any (fun r => r.cid == cid && r.begun) || s.launches.any (fun l => l.cid == cid && l.begun)

/-- WORK_UNIT_COMPLETE: an assigned unit whose work is done leaves its tile (R144). -/
def execWorkUnitComplete (unit : Nat) (s : State) : Host.Outcome State Fault Refusal :=
  match s.cel.units.find? (fun u => u.id == unit && u.site.isSome) with
  | none => .next s
  | some u => if unitDone s u then .next { s with cel := { s.cel with units := without (fun x => x.id == unit) s.cel.units } } else .next s

/-- Work that the CASK group does for a command: key/value block service, snapshot, restore and migration copies; it runs on a cell of the
group's least busy tile; moves and the service of other modules belong to no command (R189; DESIGN CHOICE, log 79). -/
def State.caskWork (cid : Nat) (s : State) : State :=
  match leastBusy s (groupTiles s .cask), (cmdAt s cid).bind (·.seq) with
  | some n, some q => match (tileAt s n).logical[chooseCell s n]? with
    | some k => s.modTile n (Tile.noteRun k cid q)
    | none => s
  | _, _ => s

/-! ## Block moves (R213) -/

/-- A move ends. -/
def State.endMove (move : Nat) (s : State) : State := { s with cel := { s.cel with moves := without (fun m => m.id == move) s.cel.moves } }

/-- Where a move reads and writes this module's memory. -/
def movePieces (b : KvBlock) (m : Move) : List Extent × List Extent :=
  (if b.place.isRemote then [] else [b.extent], if m.dest.isRemote then [] else [m.destExtent])

/-- Whether a place has come to lie in a retired group or in a bad region of a port, where nothing is placed any more (R259, R269). -/
def movedToBad (s : State) (e : Extent) : Bool :=
  let bad : List Extent := match placeOf e.base with
    | .site n => retiredExtents s n
    | .cxl p => (cxlAt s p).bad.map (fun b => (⟨b.1, b.2⟩ : Extent))
    | .remote _ => []
  bad.any (fun b => decide (e.base < b.base + b.len) && decide (b.base < e.base + e.len))

/-- BLOCK_MOVE_SWITCH: the copy verifies and the block table entry is switched in one write; a copy that does not verify, or whose source reads as
poisoned, or whose destination has been retired meanwhile, is given up; a copy waits while its memory does (R213, R257, R259, R264, R268, R269). -/
def execBlockMoveSwitch (move : Nat) (verified : Bool) (s : State) : Host.Outcome State Fault Refusal :=
  match s.cel.moves.find? (fun m => m.id == move && !m.switched) with
  | none => .next s
  | some m =>
    if (s.trans.requests ++ s.trans.waiting).any (fun q => q.cid.isNone && q.block == some m.block) then .next s
    else match s.cel.blocks.find? (fun b => b.id == m.block) with
      | none => .next ((s.endMove move).tidyLeases m.block)
      | some b =>
        let p := movePieces b m
        if p.2.any (movedToBad s) then .next ((s.endMove move).tidyLeases m.block)
        else if memWaits s (p.1 ++ p.2) then .next s
        else match verified, (accessSource s none true p.1).orElse (fun _ => accessSource s none false p.2) with
          | false, _ => .next ((s.endMove move).tidyLeases m.block)
          | true, some src => .next (((s.reportAccess src p.1 []).endMove move).tidyLeases m.block)
          | true, none =>
            let reader := match stepInFlight s b.session with | some c => c + 1 | none => 0
            let t := (s.touch false p.1).overwrite p.2
            .next { t with cel := { t.cel with
              blocks := t.cel.blocks.map (fun x => if x.id = b.id then { x with place := m.dest, extent := m.destExtent } else x),
              moves := t.cel.moves.map (fun x => if x.id = move then
                { x with switched := true, oldPlace := b.place, oldExtent := b.extent, destExtent := ⟨m.destExtent.base, 0⟩, readers := reader }
                else x) } }

/-- BLOCK_MOVE_SOURCE_FREE: the source is freed once every read that started before the switch has ended; at a peer its lease is given back (R213). -/
def execBlockMoveSourceFree (move : Nat) (s : State) : Host.Outcome State Fault Refusal :=
  match s.cel.moves.find? (fun m => m.id == move && m.switched) with
  | none => .next s
  | some m =>
    if s.runs.any (fun r => r.cid + 1 == m.readers) then .next s
    else .next ((s.endMove move).tidyLeases m.block)

/-! ## Stripes (R206, R207, R217, R218, R239) -/

/-- weight_limit in force; the default when no image is (R206). -/
def weightLimit (s : State) : Nat := match s.settings with | some x => x.weightLimit | none => 0x180000000

/-- Free weight space of a site (R217). -/
def weightRoom (s : State) (n : Nat) : Nat :=
  if (tileAt s n).state = .compute then Nat.min (weightLimit s - weightBytes s n) (extentBytes (siteFree s n)) else 0

/-- The ranges of the compute sites that weights may take: free, and within weight_limit (R206). -/
def weightFree (s : State) : List Extent := (List.range 64).flatMap (fun n => (takeExtents (weightRoom s n) (siteFree s n)).getD [])

/-- Free weight space of the module. -/
def weightSpace (s : State) : Nat := total ((List.range 64).map (weightRoom s))

/-- 64 KiB stripes dealt in turn over sites with room for so many: (site, stripes), and the site of the last one (R206). -/
def dealStripes : Nat → List (Nat × Nat) → Nat → List (Nat × Nat) × Nat → Option (List (Nat × Nat) × Nat)
  | _, _, 0, acc => some acc
  | 0, _, _, _ => none
  | _, [], _, _ => none
  | fuel + 1, l@((n, _) :: _), k, acc =>
    let q := Nat.min ((least (l.map (·.2))).getD 0) (k / l.length)
    if q = 0 then
      let now := l.take k
      some (acc.1 ++ now.map (fun p => (p.1, 1)), (now.getLast?.map (·.1)).getD n)
    else dealStripes fuel ((l.map (fun p => (p.1, p.2 - q))).filter (fun p => p.2 != 0)) (k - q * l.length)
      (acc.1 ++ l.map (fun p => (p.1, q)), (l.getLast?.map (·.1)).getD n)

/-- Extents for a shard of so many bytes, stripes dealt over the compute sites in turn from a start (R206); where whole stripes do not fit
but the bytes do, the free ranges in ascending site index (R217); none when they do not fit. -/
def shardExtents (s : State) (start bytes : Nat) : Option (List Extent) :=
  let sites := computeSites s
  let k := (bytes + 65535) / 65536
  let at_ := if sites.isEmpty then 0 else start % sites.length
  let l := ((sites.drop at_ ++ sites.take at_).map (fun n => (n, weightRoom s n / 65536))).filter (fun p => p.2 != 0)
  match dealStripes 70 l k ([], 0) with
  | none => takeExtents bytes (weightFree s)
  | some (got, last) =>
    sites.foldl (fun acc n => acc.bind (fun done =>
      let q := total ((got.filter (fun p => p.1 == n)).map (·.2))
      let size := if n = last then 65536 * q - (65536 * k - bytes) else 65536 * q
      (takeExtents size (siteFree s n)).map (done ++ ·))) (some [])

/-- Stripes a model holds: where the next one starts. -/
def modelStripes (m : Model) : Nat := total (m.shards.map (fun x => if x.spilled then 0 else (x.data.length + 65535) / 65536))

/-- A lost shard placed again, in its tier. -/
def State.replaceShard (model index epoch : Nat) (s : State) : Option State :=
  match (modelAt s model).shards.find? (fun x => x.index == index && x.epoch == epoch) with
  | none => some s
  | some x =>
    let have_ := total (x.stripes.map (·.len))
    let need := x.data.length - have_
    let got := if x.spilled then takeExtents need (cxlFree s) else shardExtents s 0 need
    got.map (fun l => (s.modModel model (fun m => { m with shards := m.shards.map (fun y =>
      if y.index = index ∧ y.epoch = epoch then { y with stripes := y.stripes ++ l, lost := false } else y) })).overwrite l)

/-- STRIPE_RELOAD_DONE: lost stripes come back from the model's source and are checked; a source that cannot be read or does not verify makes
the model FAILED (R207, R239), and so does a lost part of a CXL copy that the reload needs (R272). Without room the model goes on reloading, and
while its source is out of reach or the memory makes it wait (R264, R268, R280). -/
def execStripeReloadDone (model : Fin 64) (ok : Bool) (s : State) : Host.Outcome State Fault Refusal :=
  let m := modelAt s model
  if m.state ≠ .reloading then .next s
  else if !ok || (m.cxlCopySource && m.shards.any (fun x => x.lost && x.copyLost)) then .next (s.modModel model (fun m => { m with state := .failed }))
  else
    let lost := m.shards.filter (·.lost)
    if (if m.cxlCopySource then memWaits s (lost.flatMap (·.cxlCopy)) else !hostOpen s) then .next s
    else match lost.foldl (fun acc x => acc.bind (State.replaceShard model x.index x.epoch)) (some s) with
    | some t => if memWaits s ((modelAt t model).shards.flatMap (·.stripes)) then .next s else .next ((t.modModel model (fun m => { m with state := .ready })).assignStreams)
    | none => .next s

/-- Spilled shards of a model in the order of its layers. -/
def spilledOrder (m : Model) : List Nat :=
  sortBy (fun a b => decide (a < b)) ((m.shards.filter (fun x => x.spilled && !x.lost)).map (·.index)).eraseDups

/-- The two spilled shards that come after the one read last, in turn (R218). -/
def nextSpilled (m : Model) : List Nat :=
  let l := spilledOrder m
  let k := match m.lastSpilled with | some i => l.findIdx (· == i) + 1 | none => 0
  (l.drop k ++ l.take k).take 2

/-- The half of the staging area that a shard takes: a free one, else that of a shard which is not one of the next two. -/
def stagingHalf (m : Model) : Nat :=
  let live := m.prefetched.filter (fun p => (nextSpilled m).contains p.1)
  if live.any (fun p => p.2 == 0) then 1 else 0

/-- The pieces of a half of the staging area. -/
def stagingPieces (m : Model) (half len : Nat) : List Extent := pieces m.staging (half * (extentBytes m.staging / 2)) len

/-- SHARD_PREFETCH: one of the next two spilled shards is brought into the staging area, which holds two (R218). -/
def execShardPrefetch (model : Fin 64) (layerShard : Nat) (s : State) : Host.Outcome State Fault Refusal :=
  let m := modelAt s model
  match m.shards.find? (fun x => x.index == layerShard && x.spilled && !x.lost && x.atPeer.isNone) with
  | none => .next s
  | some x =>
    if !(nextSpilled m).contains layerShard || m.prefetched.any (fun p => p.1 == layerShard) 
        || memWaits s (x.stripes ++ stagingPieces m (stagingHalf m) x.data.length) then .next s
    else
      let h := stagingHalf m
      .next (((s.touch false x.stripes).writeMem (stagingPieces m h x.data.length) x.data).modModel model (fun m =>
        { m with prefetched := without (fun p => p.2 == h) m.prefetched ++ [(layerShard, h)] }))

end Sys2Proof.Machine
end

