-- ==== Sys2Proof/Machine/Cxl.lean ====
section
/-! DEFINITION. The CXL second tier: hot-plug, discovery, removal and media events (R266–R272). -/
namespace Sys2Proof.Machine

/-! ## Moving what lies in a range (R213, R259, R269, R271) -/

/-- Whether two ranges share a byte. -/
def overlaps (a b : Extent) : Bool := decide (a.base < b.base + b.len) && decide (b.base < a.base + a.len)

/-- A place by the tier order of R209: local pool, CXL tier, cask peers. -/
def anyTier (s : State) : Option (Place × Extent) := (toPool s).orElse (fun _ => (toCxl s).orElse (fun _ => toRemote s))

/-- Sealed blocks of a range start to move elsewhere, in tier order. -/
def State.moveBlocksFrom (r : Extent) (s : State) : State :=
  let l := s.cel.blocks.filter (fun b => overlaps b.extent r && !b.place.isRemote && movable s b)
  moveSome (fun _ => true) anyTier l.length l s

/-- An extent with the part inside a range placed elsewhere; none when there is no room. -/
def relocate (room : List Extent) (r e : Extent) : Option (List Extent × List Extent) :=
  if !overlaps e r then some ([e], [])
  else
    let lo := Nat.max e.base r.base
    let hi := Nat.min (e.base + e.len) (r.base + r.len)
    (takeExtents (hi - lo) room).map (fun got =>
      ((if e.base < lo then [⟨e.base, lo - e.base⟩] else []) ++ got ++ (if hi < e.base + e.len then [⟨hi, e.base + e.len - hi⟩] else []), got))

/-- A list of extents with every part inside a range placed elsewhere. -/
def relocateAll (r : Extent) : List Extent → List Extent → Option (List Extent × List Extent)
  | room, [] => some ([], room)
  | room, e :: t =>
    match relocate room r e with
    | none => none
    | some (l, got) => (relocateAll r (cutAll got room) t).map (fun p => (l ++ p.1, p.2))

/-- The parts of some extents inside a range. -/
def partsIn (r : Extent) (l : List Extent) : List Extent :=
  (l.filter (overlaps r)).map (fun e => ⟨Nat.max e.base r.base, Nat.min (e.base + e.len) (r.base + r.len) - Nat.max e.base r.base⟩)

/-- One shard's stripes moved out of a range; unchanged without room, or while its memory makes the copy wait (R264, R268). What reads as poisoned is
not moved (R213, R257; log 87). A spilled shard that leaves the CXL tier is spilled no longer. -/
def State.moveShard (r : Extent) (room : State → List Extent) (model index epoch : Nat) (s : State) : State :=
  match (modelAt s model).shards.find? (fun x => x.index == index && x.epoch == epoch) with
  | none => s
  | some x => match relocateAll r (room s) x.stripes with
    | none => s
    | some (l, _) =>
      let from_ := partsIn r x.stripes
      let into := l.filter (fun e => !x.stripes.contains e)
      if memWaits s (from_ ++ into) then s
      else match accessSource s none true from_ with
      | some src => s.reportAccess src from_ []
      | none => ((s.touch false from_).modModel model (fun m => { m with shards := m.shards.map (fun y =>
        if y.index = index ∧ y.epoch = epoch then { y with stripes := l, spilled := y.spilled && l.any (fun e => (placeOf e.base).isCxl) } else y) })).overwrite into

/-- Names of the shards with bytes in a range: (model, index, epoch). -/
def shardsIn (s : State) (r : Extent) : List (Nat × Nat × Nat) :=
  (List.range 64).flatMap (fun i => ((modelAt s i).shards.filter (fun x => x.stripes.any (overlaps r))).map (fun x => (i, x.index, x.epoch)))

/-- Weight stripes in a range move to other space of a kind; sites are streamed as they then hold weights (R206). -/
def State.moveShards (r : Extent) (room : State → List Extent) (s : State) : State :=
  let l := shardsIn s r
  if l.isEmpty then s else (l.foldl (fun t x => t.moveShard r room x.1 x.2.1 x.2.2) s).assignStreams

/-- What waited for its memory leaves the retired groups of a site and the bad regions of the ports (R259, R264, R268, R269). -/
def State.leaveBad (s : State) : State :=
  let groups := (List.range 64).flatMap (retiredExtents s)
  let regions := s.cxl.flatMap (fun x => x.bad.map (fun b => (⟨b.1, b.2⟩ : Extent)))
  let t := groups.foldl (fun t r => (t.moveBlocksFrom r).moveShards r weightFree) s
  regions.foldl (fun t r => (t.moveBlocksFrom r).moveShards r (fun u => cxlFree u ++ weightFree u)) t

/-! ## Ports -/

/-- The window of a port. -/
def portWindow (p : Nat) : Extent := ⟨portBase p, 0x40000000000⟩

/-- Bytes of some extents in a port's window. -/
def inPort (p : Nat) (l : List Extent) : Nat := total ((l.filter (inPlace (.cxl p))).map (·.len))

/-- Bytes of spilled shards on a port. -/
def portShards (s : State) (p : Nat) : Nat := inPort p (s.models.flatMap (fun m => m.shards.flatMap (·.stripes)))

/-- Bytes of the handles of some tiers on a port: one of the CXL tier alone stays in that tier, the others, TEMP tensors and saved clusters go to either
(R144, R184, R331). -/
def portHandles (s : State) (p : Nat) (cxlOnly : Bool) : Nat :=
  inPort p ((s.mem.handles.filter (fun h => (h.tier == 2) == cxlOnly)).flatMap (·.extents) ++ if cxlOnly then [] else tempExtents s ++ s.launches.flatMap (fun l => l.clusters.flatMap (·.image)))

/-- Bytes of key/value blocks on a port, which may go to a cask peer too (R209). -/
def portBlocks (s : State) (p : Nat) : Nat := inPort p (s.cel.blocks.map (·.extent))

/-- Bytes on a port but for CXL_COPY parts. -/
def portContent (s : State) (p : Nat) : Nat := portBlocks s p + portShards s p + portHandles s p true + portHandles s p false

/-- Bytes on a port of CXL_COPY weight sources. -/
def portCopies (s : State) (p : Nat) : Nat :=
  inPort p (s.models.flatMap (fun m => m.shards.flatMap (·.cxlCopy)))

/-- Bytes free on the other ports. -/
def otherPorts (s : State) (p : Nat) : Nat := total (((List.range 4).filter (· != p)).map (fun q => extentBytes (portFree s q)))

/-- Bytes that cask peers still offer. -/
def peerRoom (s : State) : Nat := total ((caskPeers s).map (fun q => Config.leaseOffer q - peerUsed s q))

/-- Bytes on a port that need the other ports, and bytes that need those or the local pool. -/
def portRest (s : State) (p : Nat) : Nat × Nat := (portCopies s p + portHandles s p true, portShards s p + portHandles s p false)

/-- Whether there is room elsewhere for the content of a port (Table 9-6): copies on other ports, handles there or in the pool, spilled shards in weight
space or at a peer too, blocks anywhere. -/
def evacuable (s : State) (p : Nat) : Bool :=
  let rest := portRest s p
  let here := extentBytes (localFree s) + otherPorts s p
  decide (rest.1 + portShards s p ≤ otherPorts s p + weightSpace s + peerRoom s) && decide (rest.1 ≤ otherPorts s p)
  && decide (rest.1 + portHandles s p false ≤ here) && decide (rest.1 + rest.2 + portBlocks s p ≤ here + peerRoom s)

/-- Bytes of a port that an evacuation has still to move. -/
def bytesToMove (s : State) (p : Nat) : Nat := if (cxlAt s p).state = .evacuating then portContent s p + portCopies s p else 0

/-- Where a block of an evacuated port goes: in tier order, but to a cask peer where the room at hand is needed by what cannot go there. -/
def evacPlace (p : Nat) (s : State) : Option (Place × Extent) :=
  let rest := portRest s p
  let spare (n need : Nat) : Bool := decide (65536 + need ≤ n)
  let pool := extentBytes (localFree s)
  let ports := otherPorts s p
  if spare (pool + ports) (rest.1 + rest.2) then
    ((toPool s).orElse (fun _ => if spare ports rest.1 then toCxl s else none)).orElse (fun _ => toRemote s)
  else toRemote s

/-- The blocks of a port that is being evacuated start to move (R271 step 2). -/
def State.moveBlocksOff (p : Nat) (s : State) : State :=
  let l := s.cel.blocks.filter (fun b => overlaps b.extent (portWindow p) && !b.place.isRemote && movable s b)
  moveSome (fun _ => true) (evacPlace p) l.length l s

/-- Moves to a port that is to go off are given up, their sources kept (R271 step 1). -/
def State.stopMovesTo (p : Nat) (s : State) : State :=
  { s with cel := { s.cel with moves := without (fun m => m.dest == .cxl p && !m.switched) s.cel.moves } }

/-- An evacuation starts: nothing more is placed on the port and its blocks move (R271 steps 1 and 2). -/
def State.evacuate (p : Nat) (s : State) : State :=
  ((s.modCxl p (fun x => { x with state := .evacuating, powerBlink := true })).stopMovesTo p).moveBlocksOff p

/-- An evacuation is cancelled: the port returns to service; what has moved stays (Table 9-6). -/
def State.cancelEvacuation (p : Nat) (s : State) : State :=
  let s1 := s.modCxl p (fun x => { x with state := .inService, powerBlink := false })
  { s1 with cel := { s1.cel with moves := without (fun m => !m.switched && m.oldPlace == .cxl p) s1.cel.moves } }

/-- An orderly removal is asked for: started, refused for want of room, or cancelled; the flag says it was refused (R271, R315). -/
def State.askOffline (p : Nat) (s : State) : State × Bool :=
  match (cxlAt s p).state with
  | .inService => if evacuable s p then (s.evacuate p, false) else (s, true)
  | .evacuating => (s.cancelEvacuation p, false)
  | _ => (s, false)

/-- A port whose expander is gone. -/
def CxlPort.emptied (keep : Bool) (x : CxlPort) : CxlPort :=
  { CxlPort.reset with present := keep, surpriseRemoved := x.surpriseRemoved, attention := x.attention }

/-- A removal without a completed evacuation (R272). -/
def State.surpriseRemoval (p : Nat) (keep : Bool) (s : State) : State :=
  let src := srcId 4 p 3
  let s1 := (s.raise src 0).losePort p src
  s1.modCxl p (fun x => { x.emptied keep with surpriseRemoved := true })

/-- The source of the S0 event of a presence: a checker number of the port that Table 9-8 does not use (R270, log 54). -/
def presenceSource (p : Nat) : Nat := srcId 4 p (5 + Config.presenceChecker % 43)

/-- CXL_PRESENCE_DETECT: presence on an empty port powers the slot and trains the link, and is an S0 event; which checker of the port raises it is not
given (R270, log 54). -/
def execCxlPresenceDetect (p : PortId) (s : State) : Host.Outcome State Fault Refusal :=
  let x := cxlAt s p
  if (x.state = .empty ∨ x.state = .off) ∧ x.linkUp = false then
    .next ((s.modCxl p (fun x => { CxlPort.reset with present := true, surpriseRemoved := x.surpriseRemoved, attention := x.attention,
                                                      slotPower := true, resetOut := false })).raise (presenceSource p) 0)
  else .next s

/-- Whether a link can train so: 256 B flit mode at 32 or 64 GT/s (Table 9-5, R557). -/
def cxlTrains (rate width : Nat) : Bool := (rate == 32 || rate == 64) && (width == 4 || width == 8 || width == 16)

/-- CXL_DISCOVERY_DONE: the first min(capacity, 4 TiB) are mapped and zero, and join the tier (R267). -/
def execCxlDiscoveryDone (p : PortId) (s : State) : Host.Outcome State Fault Refusal :=
  let x := cxlAt s p
  if x.discovering && x.linkUp then
    .next ((s.loseBytes (portBase p) 0x40000000000).modCxl p (fun x =>
      { x with discovering := false, state := .inService, mapped := Nat.min x.capacity 0x40000000000, bad := [] }))
  else .next s

/-- CXL_LINK_DOWN: the link goes down and trains again while accesses wait (R268); a discovery in progress starts again with it. -/
def execCxlLinkDown (p : PortId) (s : State) : Host.Outcome State Fault Refusal :=
  let x := cxlAt s p
  if x.linkUp then
    .next (s.modCxl p (fun x => { x with linkUp := false, discovering := false,
                                         waiting := x.state == .inService || x.state == .evacuating || x.discovering }))
  else .next s

/-- Whether a run reads weights or key/value blocks on a port. -/
def runReadsPort (s : State) (p : Nat) (r : Run) : Bool :=
  (r.model.any (fun k => (modelAt s k).shards.any (fun x => x.stripes.any (inPlace (.cxl p)))))
  || (r.session.any (fun i => s.cel.blocks.any (fun b => b.session == i && b.place == .cxl p)))

/-- Whether a command in flight has accesses to a port that it consumes: a run, a launch or a step, or a copy of a handle there (R268, R269). -/
def accessesPort (s : State) (p : Nat) (c : Cmd) : Bool :=
  let here (w : Nat) : Bool := (memHandle s w).any (fun h => h.extents.any (inPlace (.cxl p)))
  c.done.isNone && c.started
  && ((runsNeeding s (.cxl p)).contains c.cid || s.runs.any (fun r => r.cid == c.cid && runReadsPort s p r)
      || (c.opcode == 0x40 && ((c.arg 8 1 != 0 && here (c.arg 0x10 8)) || (c.arg 9 1 != 0 && here (c.arg 0x20 8)))))

/-- Whether a poisoned response of a port marks a command: it consumes accesses there, or it loads a model, takes, restores or moves a session
(R269, Table 11-15). -/
def consumesPort (s : State) (p : Nat) (c : Cmd) : Bool :=
  accessesPort s p c || (c.done.isNone && c.started && [0x10, 0x24, 0x25, 0x26].contains c.opcode)

/-- CXL_ACCESS_TIMEOUT: an access without a response for 2 ms ends its command, one that may end so, with LINK_LOST (R268, Table 11-15). -/
def execCxlAccessTimeout (p : PortId) (cid : Nat) (s : State) : Host.Outcome State Fault Refusal :=
  let src := srcId 4 p 2
  if (cmdAt s cid).any (accessesPort s p) then .next ((s.raise src 0).failWork cid .linkLost src) else .next s

/-- CXL_LINK_DOWN_TIMEOUT: a link down for 100 ms is a removal without warning (R268, R272). -/
def execCxlLinkDownTimeout (p : PortId) (s : State) : Host.Outcome State Fault Refusal :=
  if (cxlAt s p).waiting then .next (s.surpriseRemoval p (cxlAt s p).present) else .next s

/-- One media event: logged; an uncorrectable region is left and not used again (R269). -/
def State.mediaEvent (p : Nat) (ev : MediaEvent) (s : State) : State :=
  let s1 := s.raise (srcId 4 p 4) ev.data.toNat
  match ev.region with
  | none => s1
  | some (off, len) =>
    let r : Extent := ⟨portBase p + off, len⟩
    let s2 := s1.modCxl p (fun x => { x with bad := addOnce (r.base, r.len) x.bad })
    (s2.moveBlocksFrom r).moveShards r (fun t => cxlFree t ++ weightFree t)

/-- CXL_EVENT_LOG_POLL: every media event of the expander's log (R269). -/
def execCxlEventLogPoll (p : PortId) (events : List MediaEvent) (s : State) : Host.Outcome State Fault Refusal :=
  let x := cxlAt s p
  if x.linkUp && (x.state == .inService || x.state == .evacuating) then .next (events.foldl (fun t e => t.mediaEvent p e) s) else .next s

/-- CXL_ATTENTION_BUTTON: starts, refuses or cancels an orderly removal; a refusal lights the attention indicator (R271). -/
def execCxlAttentionButton (p : PortId) (s : State) : Host.Outcome State Fault Refusal :=
  let (t, refused) := s.askOffline p
  if refused then .next (t.modCxl p (fun x => { x with attention := true })) else .next t

/-- CXL_ATTENTION_LED_TIMEOUT: 5 s after a refusal the indicator goes out (R271). -/
def execCxlAttentionLedTimeout (p : PortId) (s : State) : Host.Outcome State Fault Refusal :=
  .next (s.modCxl p (fun x => { x with attention := false }))

/-- A handle's bytes moved out of a range, content and all. -/
def State.moveHandle (r : Extent) (index : Nat) (s : State) : State :=
  match s.mem.handles.find? (fun h => h.index == index) with
  | none => s
  | some h =>
    let room := if h.tier = 2 then cxlFree s else localFree s ++ cxlFree s
    match relocateAll r room h.extents with
    | none => s
    | some (l, _) =>
      if memWaits s (h.extents ++ l) then s else
      let v := readPieces s.mem.cells h.extents
      State.overwrite (l.filter (fun e => !h.extents.contains e))
        { s with mem := { s.mem with cells := writePieces (clearPieces s.mem.cells h.extents) l v,
                                     handles := s.mem.handles.map (fun x => if x.index = index then { x with extents := l } else x) } }

/-- TEMP tensors moved out of a range, content and all. -/
def State.moveTemps (r : Extent) (s : State) : State :=
  s.runs.foldl (fun t q => q.temps.foldl (fun u x =>
    match relocateAll r (localFree u ++ cxlFree u) x.extents with
    | none => u
    | some (l, _) =>
      if memWaits u (x.extents ++ l) then u else
      let v := readPieces u.mem.cells x.extents
      State.overwrite (l.filter (fun e => !x.extents.contains e))
      { u with mem := { u.mem with cells := writePieces (clearPieces u.mem.cells x.extents) l v },
               runs := u.runs.map (fun y => if y.cid = q.cid then
                 { y with temps := y.temps.map (fun z => if z.tensor = x.tensor then { z with extents := l } else z) } else y) }) t) s

/-- CXL_COPY parts on a port move to another port (R271 step 3). -/
def State.moveCopies (p : Nat) (s : State) : State :=
  (List.range 64).foldl (fun t i => (modelAt t i).shards.foldl (fun u x =>
    if x.cxlCopy.any (inPlace (.cxl p)) then
      match relocateAll (portWindow p) (cxlFree u) x.cxlCopy with
      | some (l, _) => if memWaits u (x.cxlCopy ++ l) then u else u.modModel i (fun m => { m with shards := m.shards.map (fun y =>
          if y.index = x.index ∧ y.epoch = x.epoch then { y with cxlCopy := l } else y) })
      | none => u
    else u) t) s

/-- A spilled shard goes to a cask peer that has room for it; where its WRITE messages go there is not laid out (R271 step 2, log 53). -/
def State.shardToPeer (model index epoch : Nat) (s : State) : State :=
  match (modelAt s model).shards.find? (fun x => x.index == index && x.epoch == epoch) with
  | none => s
  | some x => match (caskPeers s).find? (fun p => decide (peerUsed s p + x.data.length ≤ Config.leaseOffer p)) with
    | none => s
    | some p =>
      let l := messageData x.data
      let t := s.modModel model (fun m => { m with shards := m.shards.map (fun y =>
        if y.index = index ∧ y.epoch = epoch then { y with stripes := [], atPeer := some p } else y) })
      (t.request ((List.range l.length).map (fun k =>
        requestTo t none none p 0x02 ((Config.freeWord (t.free + k)).toNat % 2 ^ 48) (l.getD k [])))).spend l.length

/-- The spilled shards of a port that found no room in this module go to cask peers. -/
def State.shardsToPeers (r : Extent) (s : State) : State := (shardsIn s r).foldl (fun t x => t.shardToPeer x.1 x.2.1 x.2.2) s

/-- Saved clusters on a port move off it (R184, R271). -/
def State.moveImages (p : Nat) (s : State) : State :=
  s.launches.foldl (fun t l => l.clusters.foldl (fun u c =>
    if c.image.any (inPlace (.cxl p)) then
      match relocateAll (portWindow p) (localFree u ++ cxlFree u) c.image with
      | some (e, _) => if memWaits u (c.image ++ e) then u else
        State.overwrite (e.filter (fun x => !c.image.contains x)) { u with launches := u.launches.map (fun q => if q.cid = l.cid then
          { q with clusters := q.clusters.map (fun d => if d.index = c.index then { d with image := e } else d) } else q) }
      | none => u
    else u) t) s

/-- Everything on a port but blocks moves off it. -/
def State.clearPort (p : Nat) (s : State) : State :=
  let r := portWindow p
  let s1 := (s.moveShards r (fun t => weightFree t ++ cxlFree t)).shardsToPeers r
  let s2 := (s1.mem.handles.filter (fun h => h.extents.any (inPlace (.cxl p)))).foldl (fun t h => t.moveHandle r h.index) s1
  ((s2.moveTemps r).moveImages p).moveCopies p

/-- CXL_EVACUATION_DONE: once every block has moved off, shards, copies and handles follow and the slot's power goes off (R271); what is left
keeps the evacuation going; while the link of the port is down nothing is read from it (R268). -/
def execCxlEvacuationDone (p : PortId) (s : State) : Host.Outcome State Fault Refusal :=
  if (cxlAt s p).state ≠ .evacuating ∨ (cxlAt s p).waiting = true then .next s
  else if s.cel.blocks.any (fun b => b.place == .cxl p.val) || s.cel.moves.any (fun m => m.oldPlace == .cxl p.val) then
    .next (s.moveBlocksOff p)
  else
    let t := s.clearPort p
    if portContent t p + portCopies t p ≠ 0 then .next t
    else .next ((t.loseBytes (portBase p) 0x40000000000).modCxl p (fun x =>
      { x with state := .off, slotPower := false, powerBlink := false, linkUp := false, rate := 0, width := 0, capacity := 0, mapped := 0,
               waiting := false, discovering := false, planned := false, resetOut := true, bad := [] }))

/-- CXL_SURPRISE_REMOVAL: presence is lost (R272), also before an expander has come into service; a port without power is simply empty. -/
def execCxlSurpriseRemoval (p : PortId) (s : State) : Host.Outcome State Fault Refusal :=
  if (cxlAt s p).present && (cxlAt s p).slotPower then .next (s.surpriseRemoval p false)
  else .next (s.modCxl p (CxlPort.emptied false))

/-- CXL_MEM_READ_RESPONSE: a poisoned response is an S2 event that marks the command that consumes it (R269). -/
def execCxlMemReadResponse (p : PortId) (cid : Nat) (poisoned : Bool) (s : State) : Host.Outcome State Fault Refusal :=
  if poisoned && (cxlAt s p).linkUp then .next (s.raiseOn (srcId 4 p 1) 0 (if (cmdAt s cid).any (consumesPort s p) then [cid] else [])) else .next s

end Sys2Proof.Machine
end

