-- ==== Sys2Proof/Machine/Startup.lean ====
section
/-! DEFINITION. Power, resets and the start-up sequence; clocks (R30–R33, R353–R372, R531–R535, R562, R563). -/
namespace Sys2Proof.Machine

/-- The start-up step shown is at least k (Table 10-3). -/
def State.atStep (k : Nat) (s : State) : State :=
  if s.boot.inProgress.isSome then { s with boot := { s.boot with step := Nat.max s.boot.step k } } else s

/-! ## Resets -/

/-- COLD_RESET: power-good is asserted (R531, R533, R562). A shallower sequence gives way; a cold one restarts. -/
def execColdReset (katOk idA idB : Bool) (s : State) : Host.Outcome State Fault Refusal :=
  .next (({ s with pins := { s.pins with pwrgd := true } } : State).coldStart katOk idA idB)

/-- POWER_DOWN: power-good falls (R562): regulators off, operating time stops, a flash write is cut off (R532). -/
def execPowerDown (s : State) : Host.Outcome State Fault Refusal :=
  .next (({ s with pins := { s.pins with pwrgd := false } } : State).powerLost)

/-- WARM_RESET: PERST# is asserted (R531, R563); only while PWRGD is asserted and the endpoint has left reset is it a warm reset, and
during a cold sequence it is discarded (R531). -/
def execWarmReset (s : State) : Host.Outcome State Fault Refusal :=
  let t : State := { s with pins := { s.pins with perst := true } }
  if s.pins.pwrgd && !s.pins.perst && s.boot.everReset && !discarded s .warm then .next (t.softReset .warm false false)
  else .next t

/-- PERST_DEASSERT: the endpoint leaves reset and link training may begin (R563). -/
def execPerstDeassert (s : State) : Host.Outcome State Fault Refusal :=
  .next { s with pins := { s.pins with perst := false } }

/-- FUNCTION_LEVEL_RESET: a module reset that also resets the function's configuration, MSI-X table and pending bits (R276, R531). -/
def execFunctionLevelReset (s : State) : Host.Outcome State Fault Refusal :=
  if !configReach s || discarded s .module then .next s
  else .next (s.softReset .module true false)

/-! ## Steps 4–7 -/

/-- Whether a bundle faces a site that is not in the mesh (R26). -/
def facesLost (s : State) (b : BundleEnd) : Bool :=
  match peerEnd b with
  | some (.tile m _) => (tileAt s m).state == .isolated
  | _ => false

/-- The ends of the hub and of the engines that face a site, with their fixed ports: RETIRED where the bundle is recorded so, else in a state (R355, R375,
R410). -/
def State.armFixed (n : Nat) (st : BundleState) (s : State) : State :=
  let arm (k : Nat) (b : BundleEnd) (t : State) : State :=
    t.modBundle b (fun d => { d with physPort := k, state := if bundleRecorded s b then .retired else st })
  (tileEnds n).foldl (fun t b => match peerEnd b with
    | some (.hub k) => arm (k.val % 16) (.hub k) t
    | some (.engine e k) => arm k.val (.engine e k) t
    | _ => t) s

/-- ROW_RELEASE: the tiles of a row leave reset (R46) and each die's ageing is measured before its wave completes, by a free value where the command gives none (R474, log 4); a site recorded as
ISOLATED stays out of the mesh with its engines and the bundles that face it (R26, R27); the ends that face the row show in their registers from now on
(R375). -/
def execRowRelease (row : Fin 8) (ageing : List Nat) (s : State) : Host.Outcome State Fault Refusal :=
  let sites := (List.range 8).map (fun c => 8 * row.val + c)
  let s1 := sites.foldl (fun u n =>
    let t := u.armFixed n .down
    if (recordedSite t n) = some true then
      (siteEngines n).foldl (fun u e => u.setLinkState e .outOfService) ((t.modTile n (fun x => { x with state := .isolated })).faceDown n)
    else t.modTile n (fun x => { x with inReset := false })) s
  let measured (c : Nat) : Nat := (ageing[c]?).getD ((Config.freeWord (s.free + c)).toNat % 1000001)
  let s2 := (List.range 8).foldl (fun t c =>
    let n := 8 * row.val + c
    if (tileAt t n).inReset then t else t.agePoint (.tile (Fin.ofNat 64 n)) [measured c]) s1
  .next ((s2.atStep 4).spend 8)

/-- The panel position of a physical port (R358). -/
def panelPosition (e k rotation : Nat) (mirror : Bool) : Nat × Nat :=
  let e' := if mirror && (e == 1 || e == 3) then 4 - e else e
  let k' := if mirror then 3 - k else k
  ((e' + rotation) % 4, k')

/-- The physical port that serves a bundle index (R358). -/
def physPortOf (rotation : Nat) (mirror : Bool) (i : Nat) : Nat :=
  ((List.range 16).find? (fun p => let q := panelPosition (p / 4) (p % 4) rotation mirror
                                   4 * q.1 + q.2 == i)).getD 0

/-- Straps of a site (Table 12-2). -/
def strapCol (w : Nat) : Nat := bits 2 0 w
/-- Row pads. -/
def strapRow (w : Nat) : Nat := bits 5 3 w
/-- Rotation pads. -/
def strapRotation (w : Nat) : Nat := bits 7 6 w
/-- Mirror pad. -/
def strapMirror (w : Nat) : Bool := bit 8 w

/-- The strap checks of R359: parity, the pattern of R357, and the position of the site itself (log 18). -/
def strapsOk (n w : Nat) : Bool :=
  ones 10 w % 2 == 0 && strapRotation w == (strapCol w + strapRow w) % 4 && strapMirror w == decide (strapRow w % 2 = 1)
  && 8 * strapRow w + strapCol w == n

/-- The other tiles that have reported the position of some straps (R359). -/
def sameReport (s : State) (n w : Nat) : List Nat :=
  (List.range 64).filter (fun m => m != n && (tileAt s m).reported == some (8 * strapRow w + strapCol w))

/-- TILE_POSITION_REPORT: an accepted report shows in TILE_ID and the site takes its state (R29, R356–R359); a tile that fails is held in
reset and its site becomes ISOLATED, and so do all that report one position; the first roles then follow the new compute set (R220). -/
def execTilePositionReport (site : SiteId) (straps : BitVec 10) (s : State) : Host.Outcome State Fault Refusal :=
  let n := site.val
  let w := straps.toNat
  let same := sameReport s n w
  if plannedState s n = .isolated ∨ (tileAt s n).inReset = true then .next s
  else
    let s0 := s.modTile n (fun t => { t with reported := some (8 * strapRow w + strapCol w) })
    if !strapsOk n w || !same.isEmpty then
      .next ((same.filter (fun m => (tileAt s m).state != .isolated)).foldl (fun t m => t.isolateSite m) (s0.isolateSite n)).firstRoles
    else
      let st := plannedState s n
      let s1 := s0.modTile n (fun t =>
        { t with state := st, idValid := true, mirror := strapMirror w, rotation := strapRotation w, row := strapRow w, col := strapCol w,
                 role := if st = .compute then (if t.role = .none then firstRole s n else t.role) else .none,
                 bundles := (List.range 16).map (fun i =>
                   let b := BundleEnd.tile site (Fin.ofNat 16 i)
                   let d := t.bundles.getD i BundleDir.reset
                   { d with physPort := physPortOf (strapRotation w) (strapMirror w) i,
                            state := if (peerEnd b).isNone then .unwired else if bundleRecorded s b then .retired
                                     else if facesLost s b then .down else .training }) })
      .next ((s1.armFixed n .training).atStep 5)

/-! ## Lane test (R361–R372) -/

/-- Wire numbers of the failed field (Table 12-4): D0–D63, SP0–SP3 from 64, VLD 68, FCK 69. -/
def vldWire : Nat := 68

/-- The forwarded clock: no spare stands in for it (Table 12-1). -/
def fckWire : Nat := 69

/-- A good spare that serves nothing. -/
def spareFree (failed : List Nat) (spares : List SpareUse) (k : Nat) : Bool :=
  (spares.getD k .free) == .free && !failed.contains (64 + k)

/-- Assignments that stand: those whose spare works and whose group is live (R362). -/
def keptSpares (failed : List Nat) (dropped : Option Nat) (spares : List SpareUse) : List SpareUse :=
  ((List.range 4).zip spares).map (fun p => match p.2 with
    | .data d => if failed.contains (64 + p.1) || dropped == some (d / 16) then .free else .data d
    | u => if failed.contains (64 + p.1) then .free else u)

/-- One failed wire takes the lowest free spare (R362). -/
def takeSpareWire (failed : List Nat) (u : SpareUse) (acc : Option (List SpareUse)) : Option (List SpareUse) :=
  match acc with
  | none => none
  | some l => if l.contains u then some l
              else match (List.range 4).find? (spareFree failed l) with
                | some k => some (setAt l k u)
                | none => none

/-- Spares for every failed wire of the live groups (R362): VLD first, then data wires ascending. -/
def coverWires (failed : List Nat) (dropped : Option Nat) (spares : List SpareUse) : Option (List SpareUse) :=
  let need := (if failed.contains vldWire then [SpareUse.valid] else [])
    ++ (((List.range 64).filter (fun d => failed.contains d && dropped != some (d / 16))).map SpareUse.data)
  need.foldl (fun acc u => takeSpareWire failed u acc) (some (keptSpares failed dropped spares))

/-- The group with the most failed data wires, the highest-numbered on a tie (R363). -/
def worstGroup (failed : List Nat) : Nat :=
  let count (g : Nat) : Nat := (failed.filter (fun w => w < 64 && w / 16 == g)).length
  (List.range 4).foldl (fun m g => if count m ≤ count g then g else m) 0

/-- The map of a direction for its failed wires: spares and the dropped group; none when it cannot hold degraded width, or when the forwarded clock is among
them (R360, R362, R363). -/
def chooseMap (failed : List Nat) (dropped : Option Nat) (spares : List SpareUse) : Option (List SpareUse × Option Nat) :=
  if failed.contains fckWire then none
  else match coverWires failed dropped spares with
  | some l => some (l, dropped)
  | none => match dropped with
    | some _ => none
    | none =>
      let g := worstGroup failed
      (coverWires failed (some g) spares).map (fun l => (l, some g))

/-- Failed wires found at a receiving end are recorded (R360, R367). -/
def State.recordWires (b : BundleEnd) (found : List Nat) (s : State) : State :=
  (found.filter (fun w => !(recordedWires s b).contains w)).foldl (fun t w => t.putMirror (.failedWire b w)) s

/-- Spares that a map takes into use. -/
def sparesTaken (old new : List SpareUse) : Bool := (List.range 4).any (fun k => new.getD k .free != .free && new.getD k .free != old.getD k .free)

/-- A direction takes a map, which is recorded: full or degraded width; a spare taken is an event, and degraded width is one that asks for replacement
(R363, R371, R373, R374). -/
def State.applyMap (b : BundleEnd) (failed : List Nat) (m : List SpareUse × Option Nat) (s : State) : State :=
  let was := bundleAt s b
  let s1 := s.modBundle b (fun d => { d with state := if m.2.isSome then .degraded else .full, spares := m.1, failed := failed, dropped := m.2,
                                             checking := false })
  let s2 := if recordedMap s b = m then s1 else s1.putMirror (.laneMap b m.1 m.2)
  let s3 := if sparesTaken was.spares m.1 then s2.raise (bundleSource 0x20 b) 0 else s2
  if m.2.isSome && (was.dropped.isNone || was.state != .degraded) then
    (s3.raise (bundleSource 0x30 b) 0).raiseService 2 3 (bundleResource b) none false
  else s3

/-! ## Inline checks (R367, R369) -/

/-- A direction starts an inline check: counted, reported, its bundle's fault state opened (R367, R373, R497). -/
def State.startInline (b : BundleEnd) (s : State) : State :=
  if (bundleAt s b).checking then s
  else (s.modBundle b (fun d => { d with checking := true, inlineChecks := satAdd d.inlineChecks 1 255, recentFails := 0 })).raiseFor
    (bundleSource 0x20 b) 0 (.bundle b)

/-- Whether a settled map uses a wire that the test found failed (R371). -/
def usesFailed (found : List Nat) (m : List SpareUse × Option Nat) : Bool :=
  found.any (fun w => if w < 64 then m.2 != some (w / 16) && !m.1.contains (.data w)
                      else if w < 68 then (m.1.getD (w - 64) .free) != .free else w == fckWire || (w == vldWire && !m.1.contains .valid))

/-- An engine whose bundles are tested has left reset (R574). -/
def State.startEngine (b : BundleEnd) (s : State) : State :=
  match b with
  | .engine e _ => if s.boot.down then s else s.modEngine e (fun x => { x with started := true, inReset := false, clockLost := false })
  | _ => s

/-! ## The identity and map block (R364, R365) -/

/-- Kind, site and position of a bundle end in a block (Table 12-4). -/
def blockName : BundleEnd → List Byte
  | .tile n i => leBytes 1 1 ++ leBytes 1 n ++ leBytes 1 i
  | .hub b => leBytes 1 0 ++ leBytes 1 0 ++ leBytes 1 b
  | .engine e k => leBytes 1 2 ++ leBytes 1 e ++ leBytes 1 k

/-- The orientation byte that the pattern of R357 gives a die: a tile's rotation and mirror, zero for the others. -/
def blockOrient : BundleEnd → Nat
  | .tile n _ => (n.val % 8 + n.val / 8) % 4 + 4 * (n.val / 8 % 2)
  | _ => 0

/-- The byte of a spare in a block's map. -/
def SpareUse.byte : SpareUse → Nat
  | .free => 0 | .valid => 0xC0 | .data d => 0x80 + d % 64

/-- The 70 bits of the failed field. -/
def wireBits (l : List Nat) : Nat := total (((List.range 70).filter l.contains).map (fun w => 2 ^ w))

/-- Bytes 0x05–0x1B of a block: width, dropped group, map and failed wires of the direction that its sender receives; no map says retire. -/
def blockMap : Option (List Nat × (List SpareUse × Option Nat)) → List Byte
  | some (failed, m) => leBytes 1 (if m.2.isSome then 1 else 0) ++ leBytes 1 (m.2.getD 0xFF) ++ [0]
      ++ m.1.flatMap (fun u => leBytes 1 u.byte) ++ leBytes 9 (wireBits failed) ++ List.replicate 7 0
  | none => leBytes 1 2 ++ leBytes 1 0xFF ++ [0] ++ List.replicate 20 0

/-- The identity and map block that a bundle end sends (Table 12-4). -/
def mapBlock (b : BundleEnd) (held : Bool) (m : Option (List Nat × (List SpareUse × Option Nat))) : List Byte :=
  let body := blockName b ++ leBytes 1 (blockOrient b) ++ leBytes 1 (bnat held) ++ blockMap m
  body ++ leBytes 4 (crc32c body)

/-- Whether a block has arrived whole: its length and its CRC-32C. -/
def blockOk (l : List Byte) : Bool := l.length == 32 && field 0x1C 4 l == crc32c (l.take 28)

/-- Whether a block comes from the end that site and position imply (R365). -/
def blockFrom (b : BundleEnd) (l : List Byte) : Bool := l.take 4 == blockName b ++ leBytes 1 (blockOrient b)

/-- Whether a block says that its sender kept the map (R371). -/
def blockHeld (l : List Byte) : Bool := field 4 1 l == 1

/-- The blocks of an end after an exchange: the one it has received stays with it. -/
def State.noteBlock (b : BundleEnd) (l : List Byte) (s : State) : State := s.modBundle b (fun d => { d with block := l })

/-- Wires of the failed field of a block. -/
def blockFailed (l : List Byte) : List Nat := (List.range 70).filter (fun w => bit w (field 0x0C 9 l))

/-- The use that a byte of a block's map gives a spare. -/
def SpareUse.ofByte (v : Nat) : SpareUse := if !bit 7 v then .free else if bit 6 v then .valid else .data (v % 64)

/-- The map of a block: spares and the dropped group. -/
def mapOfBlock (l : List Byte) : List SpareUse × Option Nat :=
  ((List.range 4).map (fun k => SpareUse.ofByte (field (8 + k) 1 l)), if field 5 1 l = 1 then some (field 6 1 l % 4) else none)

/-- The map that an end offers: the one that it has kept through a reset of the other end, else the one that its test gives (R362–R364, R372). -/
def offeredMap (s : State) (b : BundleEnd) (found : List Nat) : Option (List Nat × (List SpareUse × Option Nat)) :=
  let d := bundleAt s b
  let recorded := recordedWires s b
  let failed := (recorded ++ found).eraseDups
  if d.kept then (chooseMap recorded d.dropped d.spares).map (fun m => (recorded, m))
  else (chooseMap failed none (List.replicate 4 .free)).map (fun m => (failed, m))

/-- The block that arrives from an end: what the operand gives, or, where it gives none, the block that the end sends (log 49). -/
def arriving (s : State) (b : BundleEnd) (found : List Nat) (l : List Byte) : List Byte :=
  if l.isEmpty then mapBlock b (bundleAt s b).kept (offeredMap s b found) else l

/-- The wires and map settled for the direction that end b receives: `own` is the block that b has sent, `other` the one it has received; none when the
bundle is to be retired. The end that kept the map decides; with both or neither it is the recorded map, but at a start of the module the fresh test (R360,
R363, R371, R372). -/
def settledMap (s : State) (b : BundleEnd) (found : List Nat) (own other : List Byte) : Option (List Nat × (List SpareUse × Option Nat)) :=
  let d := bundleAt s b
  let recorded := recordedWires s b
  let failed := (recorded ++ found ++ blockFailed own).eraseDups
  let from_ (m : List SpareUse × Option Nat) := (chooseMap recorded m.2 m.1).map (fun x => (recorded, x))
  if blockHeld other && !blockHeld own then from_ (d.spares, d.dropped)
  else if field 5 1 own = 2 then none
  else if blockHeld own && !blockHeld other then from_ (mapOfBlock own)
  else if blockHeld own && mapOfBlock own == (d.spares, d.dropped) then from_ (d.spares, d.dropped)
  else if !blockHeld own && s.boot.inProgress.isSome then (chooseMap failed none (List.replicate 4 .free)).map (fun m => (failed, m))
  else from_ (recordedMap s b)

/-- Whether the die at a bundle end can be tested: out of reset with its clock, and its site in the mesh (R26, R33, R361). -/
def endReady (s : State) : BundleEnd → Bool
  | .tile n _ => !(tileAt s n).inReset && !(tileAt s n).clockLost && (tileAt s n).state != .isolated
  | .hub _ => true
  | .engine e _ => !s.boot.down && !siteLost s e

/-- The site whose report fails when the identity check of an end fails: its own tile, or the tile that faces the hub's or the engine's end (R359, R365;
log 49). -/
def checkedSite (b : BundleEnd) : List Nat :=
  match b, peerEnd b with
  | .tile n _, _ => [n.val]
  | _, some (.tile n _) => [n.val]
  | _, _ => []

/-- Bundles of the hub bear on the tables (R37); any bundle in service takes what waits. -/
def State.bundleServed (a b : BundleEnd) (s : State) : State :=
  if endStation a == .hub || endStation b == .hub then s.retable else s.retry

/-- Once every lane test of a start has ended, the sites begin to train their memory (Table 19-2 steps 6 and 7, R274). -/
def State.beginTraining (s : State) : State :=
  if s.boot.inProgress.isSome && s.tiles.all (fun t => t.state == .isolated || (t.idValid && t.bundles.all (fun d => d.state != .training))) then
    ({ s with tiles := s.tiles.map (fun t => if t.state == .isolated || t.memInService || t.memFailed then t else { t with training := true }) } : State).atStep 7
  else s

/-- LANE_TEST: both directions of a bundle are tested, blocks are exchanged, and the bundle is brought into service under the settled maps, or
retired (R361–R372). `blockHere` and `blockThere` are the blocks that the two ends receive (log 49); one that does not arrive whole fails the test. -/
def execLaneTest (at_ : BundleEnd) (failedHere failedThere : List Nat) (fckOk flitsOk : Bool) (blockHere blockThere : List Byte) (s : State) :
    Host.Outcome State Fault Refusal :=
  match peerEnd at_ with
  | none => .next s
  | some peer =>
    let here := arriving s peer failedThere blockHere
    let there := arriving s at_ failedHere blockThere
    let wrongHere := blockOk here && !blockFrom peer here
    let wrongThere := blockOk there && !blockFrom at_ there
    if bundleRecorded s at_ || !endReady s at_ || !endReady s peer then .next s
    else if wrongHere || wrongThere then
      let s1 := (s.modBundle at_ (fun d => { d with state := .down })).modBundle peer (fun d => { d with state := .down })
      let fail := (if wrongHere then checkedSite at_ else []) ++ (if wrongThere then checkedSite peer else [])
      .next ((fail.eraseDups.foldl (fun t n => t.isolateSite n) s1).beginTraining)
    else
      let s1 := (s.startEngine at_).startEngine peer
      let recorded (t : State) : State := (t.recordWires at_ failedHere).recordWires peer failedThere
      let retired (b : BundleEnd) : State := (((recorded s1).retireBundle b).atStep 6).beginTraining
      match settledMap s1 at_ failedHere there here, settledMap s1 peer failedThere here there with
      | some (fa, ma), some (fb, mb) =>
        if !fckOk || !flitsOk || !blockOk here then .next (retired (if failedThere.contains fckWire && !failedHere.contains fckWire then peer else at_))
        else if !blockOk there then .next (retired peer)
        else
          let fresh (d : BundleDir) : BundleDir :=
            { d with link := { LinkEnd.reset with txQueue := d.link.txQueue }, recentFails := 0, kept := false, phase := [] }
          let s2 := (((s1.applyMap at_ fa ma).applyMap peer fb mb).modBundle at_ fresh).modBundle peer fresh
          let s3 := (s2.noteBlock at_ here).noteBlock peer there
          let s4 := if usesFailed failedHere ma then s3.startInline at_ else s3
          let s5 := if usesFailed failedThere mb then s4.startInline peer else s4
          .next ((((recorded s5).bundleServed at_ peer).atStep 6).beginTraining)
      | none, _ => .next (retired at_)
      | some _, none => .next (retired peer)

/-! ## Cell set-up and memory training -/

/-- CELL_SETUP: a tile that enters compute clears its stores and starts the test of every cell (R58). -/
def execCellSetup (site : SiteId) (s : State) : Host.Outcome State Fault Refusal :=
  let t := tileAt s site
  if t.state = .compute ∧ t.inReset = false then
    .next ((s.modTile site (fun t => { t with settingUp := true, setupDone := false, sampling := none, logical := [], rotating := false,
                                              leavingCells := [], katFailed := false, katPassed := false })).atStep 7)
  else .next s

/-- The map of R58 steps 3 and 4: the highest cell samples, the others hold logical cells in ascending order. -/
def Tile.mapCells (t : Tile) : Tile :=
  match (liveCells t).getLast? with
  | some k => { t with sampling := some k, logical := (liveCells t).dropLast, rotating := true, setupDone := true, settingUp := false,
                       katFailed := false, katPassed := false, leavingCells := [] }
  | none => t

/-- CELL_SETUP_DONE: failed cells are retired (R63–R65), each with the range of commands that it has run (R504), then sampling cell and logical cells are set together (R51, R58), but for a tile that retires
with its third cell (R64). -/
def execCellSetupDone (site : SiteId) (failed : List CellId) (s : State) : Host.Outcome State Fault Refusal :=
  if (tileAt s site).settingUp = false then .next s
  else
    let s1 := failed.foldl (fun t k => (t.raise (srcId 1 site 0) (rangeData (tileAt t site) k)).retireCell site k (srcId 1 site 0)) s
    if (tileAt s1 site).retiring then .next ((s1.modTile site (fun t => { t with settingUp := false })).atStep 7)
    else if (tileAt s1 site).state = .compute then
      .next ((s1.modTile site (fun t => { t.mapCells with sweeps := 0, sweepPos := 0 })).atStep 7)
    else .next (s1.atStep 7)

/-- A site's memory goes out of service for good (R265). -/
def State.failMemory (n device : Nat) (s : State) : State :=
  let src := srcId 3 n 3
  let dev := (tileAt s n).failedDevice ||| device
  let s0 : State := { s with mem := { s.mem with retraining := without (fun x => x.1 == n) s.mem.retraining } }
  let s1 := s0.modTile n (fun t => { t with memInService := false, memFailed := true, failedDevice := dev, training := false })
  let s2 := (s1.putMirror (.failedMemory n dev)).raise src device
  let s3 := (s2.logEvent 0x0003 src 1 false (retireData 0x0A n dev 0)).raiseService 2 5 n none false
  s3.loseSite n src

/-- The temperatures of a site's devices are read: its own, and the hotter one for the thermal inputs (R252). -/
def State.noteTemps (n a b : Nat) (s : State) : State :=
  ({ s with mem := { s.mem with deviceTemp := setKey (2 * n) a (setKey (2 * n + 1) b s.mem.deviceTemp) } } : State).modTile n
    (fun t => { t with thermal := { t.thermal with gddrTemp := Nat.max a b } })

/-- The identification of a device is recorded where it is not yet (R252, log 52). -/
def State.noteDevice (k id : Nat) (s : State) : State := if s.log.held.contains (.deviceId k id) then s else s.putMirror (.deviceId k id)

/-! ## Ready (R535) -/

/-- Whether steps 5–7 have ended at a site (R535). -/
def siteStarted (s : State) (n : Nat) : Bool :=
  let t := tileAt s n
  t.state == .isolated
  || (t.idValid && (t.memInService || t.memFailed) && (t.state != .compute || t.setupDone) && t.bundles.all (fun d => d.state != .training))

/-- Whether an engine counts as started (R535). -/
def engineStarted (s : State) (e : Nat) : Bool :=
  match (engineAt s e).state with
  | .up => true | .portAbsent => true | .noLight => true | .outOfService => true | _ => false

/-- The conditions of R535. -/
def readyDue (s : State) (ms : Nat) : Bool :=
  s.boot.inProgress.isSome && !s.boot.down && s.settings.isSome && (List.range 64).all (siteStarted s)
  && ((List.range 24).all (engineStarted s) || decide (7500 ≤ ms))

/-- MODULE_READY: ready is set, its cause raised and READY logged (R287, R535); with an empty compute set step 9 shows and ready stays
0. -/
def execModuleReady (ms : Nat) (s : State) : Host.Outcome State Fault Refusal :=
  if readyDue s ms = false then .next s
  else
    let s1 : State := { s with boot := { s.boot with step := 9 } }
    if (computeSites s).isEmpty then .next s1
    else
      let s2 : State := { s1 with boot := { s1.boot with ready := true, readyMs := Nat.min ms 65535, inProgress := none },
                                  pins := { s1.pins with readyOut := true } }
      .next ((s2.logEvent 0x0011 0xFFFF 0 false (BitVec.ofNat 64 (ms % 2 ^ 32))).raiseCause 0)

/-! ## Clocks (R33, R490) -/

/-- The hub's own clock stops: the retained domain latches the source and holds the module in reset (R490). -/
def State.clockLoss (source : Nat) (s : State) : State :=
  if s.pins.pwrgd && s.ret.clockStop.isNone && !s.ret.tripped then
    let t := s.powerLost
    { t with ret := { t.ret with clockStop := some source }, boot := { t.boot with stopped := true } }
  else s

/-- REFCLK goes during a trip: the latched record is lost, and only the next power-good starts the module again (R469). -/
def State.loseTrip (s : State) : State :=
  if s.ret.tripped then
    { s with ret := { s.ret with tripKind := .none, tripSource := 0, tripReading := 0, tripPending := false, coolSince := none } }
  else s

/-- REFCLK_LOST: an S3 stop that latches its source (R33, R469, R490, R560). -/
def execRefclkLost (s : State) : Host.Outcome State Fault Refusal :=
  .next ((({ s with pins := { s.pins with refclk := false } } : State).clockLoss (srcId 0 0 6)).loseTrip)

/-- REFCLK_RESTORED: after 10 ms of REFCLK the module starts as after a cold reset and logs the cause (R490). -/
def execRefclkRestored (katOk idA idB : Bool) (s : State) : Host.Outcome State Fault Refusal :=
  let t : State := { s with pins := { s.pins with refclk := true } }
  if s.ret.clockStop.isSome && s.pins.pwrgd then .next (t.coldStart katOk idA idB) else .next t

/-- HUB_PLL_UNLOCK: as REFCLK_LOST (R33, R490). -/
def execHubPllUnlock (s : State) : Host.Outcome State Fault Refusal := .next (s.clockLoss (srcId 0 0 7))

/-- TILE_PLL_UNLOCK: the tile stops driving valid on its bundles (R33); its neighbours report as their clocks stop. -/
def execTilePllUnlock (site : SiteId) (s : State) : Host.Outcome State Fault Refusal :=
  .next (s.modTile site (fun t => { t with clockLost := true }))

/-- The bundles of a tile whose forwarded clocks its neighbours could miss. -/
def sendingEnds (s : State) (n : Nat) : List Nat :=
  (List.range 16).filter (fun i => match peerEnd (.tile (Fin.ofNat 64 n) (Fin.ofNat 16 i)) with
    | some p => (bundleAt s p).state != .retired && (bundleAt s p).state != .unwired && !facesLost s (.tile (Fin.ofNat 64 n) (Fin.ofNat 16 i))
    | none => false)

/-- FORWARDED_CLOCK_STOP: the receiver reports; a tile whose every bundle has stopped is ISOLATED, a bundle whose die still runs is
retired (R33, R366). -/
def execForwardedClockStop (at_ : BundleEnd) (s : State) : Host.Outcome State Fault Refusal :=
  match peerEnd at_ with
  | none => .next s
  | some (.tile n i) =>
    if (tileAt s n).clockLost then
      let s1 := s.raise (bundleSource 0x30 at_) 0
      let s2 := (s1.modTile n (fun t => { t with stopped := addOnce i.val t.stopped })).modBundle at_ (fun d => { d with state := .down })
      let s2 := if endStation at_ == .hub then s2.retable else s2
      if (sendingEnds s2 n).all (fun k => (tileAt s2 n).stopped.contains k) then .next (s2.isolateSite n) else .next s2
    else .next (s.retireBundle at_)
  | some (.engine e _) =>
    if (engineAt s e).inReset || (engineAt s e).clockLost then .next ((s.raise (bundleSource 0x30 at_) 0).modBundle at_ (fun d => { d with state := .down }))
    else .next (s.retireBundle at_)
  | some (.hub _) => .next (s.retireBundle at_)

/-- An engine reset (R401, R531): no ring state is trusted, every ring searches from its last code, the slot maps are rebuilt, the bundles
are tested again; sticky fields and records stay, and so do the fault states, those of broken sensors among them (R462, R581). -/
def State.engineReset (e : Nat) (s : State) : State :=
  let x := engineAt s e
  let fresh := engineAfter false s e
  let s1 := s.modEngine e (fun _ =>
    { Engine.searchAgain x fresh with
                 state := if siteLost s e || engineCut s e || engineBlind x then .outOfService else fresh.state, started := true, inReset := false, elsPresent := x.elsPresent,
                 powerEstimate := x.powerEstimate, sensorBroken := x.sensorBroken,
                 bundles := x.bundles.map (fun d => BundleDir.counted0 (if d.state == .retired then d else { d with state := .training, kept := false })) })
  (List.range 3).foldl (fun t k => match peerEnd (.engine (Fin.ofNat 24 e) (Fin.ofNat 3 k)) with
    | some p => t.modBundle p (fun d => if d.live then { d with state := .training, kept := true } else d)
    | none => t) s1.endInjection

/-- ENGINE_PLL_UNLOCK: the hub takes the optical link down and resets the engine, whose clocks its tile misses until its
bundles are tested again (R33, R401). -/
def execEnginePllUnlock (e : EngineId) (s : State) : Host.Outcome State Fault Refusal :=
  let s1 := if (engineAt s e).state = .up then s.linkDown e else s
  .next ((s1.engineReset e).modEngine e (fun x => { x with clockLost := true }))

end Sys2Proof.Machine
end

