-- ==== Sys2Proof/Machine/Gddr.lean ====
section
/-! DEFINITION. Local GDDR7: reads and writes of granules, scrubbing, refresh, retraining, retired groups (R252–R265). -/
namespace Sys2Proof.Machine

/-! ## Groups and granules (R253, R259, R261) -/

/-- The addresses of a group. -/
def groupExtent (n g : Nat) : Extent := ⟨siteBase n + 960 * g, 960⟩

/-- The poison flags of a granule. -/
def poisonOf (s : State) (a : Nat) : Nat := (lookupKey a s.mem.poison).getD 0

/-- Both poison flags of a granule set. -/
def State.poison (a : Nat) (s : State) : State := { s with mem := { s.mem with poison := setKey a 3 s.mem.poison } }

/-! ## Check words (R253, R254) -/

/-- Positions of a granule and its check word that are in error. -/
def errorPlaces (l : ByteErrors) : List Nat := ((l.filter (fun e => e.2 != 0)).map (fun e => e.1.val)).eraseDups

/-- What the code makes of an error: one byte is corrected, two or three are detected, more are detected or not (R254, log 51). -/
def eccOutcome (l : ByteErrors) : EccOutcome :=
  match (errorPlaces l).length with
  | 0 => .clean
  | 1 => .corrected
  | 2 => .uncorrectable
  | 3 => .uncorrectable
  | _ => if Config.eccDetects (l.map (fun e => (e.1.val, e.2))) then .uncorrectable else .clean

/-- The errors of a word as the checker of a site sees them: injection inverts one check bit, or two in different check symbols (R508,
Table 17-10). -/
def seenErrors (s : State) (n : Nat) (l : ByteErrors) : ByteErrors :=
  if s.flt.injecting (srcId 3 n 1) then l ++ [(64, 1), (65, 1)]
  else if s.flt.injecting (srcId 3 n 0) then l ++ [(64, 1)]
  else l

/-- The data bytes of a granule with an error in them. -/
def spoil (l : ByteErrors) (data : List Byte) : List Byte :=
  l.foldl (fun d e => if e.1.val < 64 then modAt d e.1.val (fun b => b ^^^ e.2) else d) data

/-- The 1,024 bytes of a group as its device holds them (Table 9-2): data granules, check words, poison flags. -/
def groupImage (s : State) (n g : Nat) : List Byte :=
  let base := siteBase n + 960 * g
  let flags (k : Nat) : Nat := total ((List.range 15).map (fun i => if bit k (poisonOf s (base + 64 * i)) then 2 ^ i else 0))
  readBytes s.mem.cells base 960
    ++ (List.range 15).flatMap (fun i => padTo 4 (Config.checkWord (readBytes s.mem.cells (base + 64 * i) 64)))
    ++ leBytes 2 (flags 0) ++ leBytes 2 (flags 1)

/-- A group is retired: recorded, reported, its blocks and stripes moved; a full list retires no more and asks for replacement (R259). -/
def State.retireGroup (n g source : Nat) (s : State) : State :=
  let t := tileAt s n
  if t.retiredGroups.contains g then s
  else if 1024 ≤ t.retiredGroups.length then s.raiseService 2 5 n none false
  else
    let s1 := (s.modTile n (fun t => { t with retiredGroups := t.retiredGroups ++ [g] })).putMirror (.retiredGroup n g)
    let s2 := s1.raise (srcId 3 n 5) g
    let s3 := s2.logEvent 0x0003 source (severityOf source) false (retireData 9 n 0 g)
    let s4 : State := { s3 with mem := { s3.mem with groupErrors := without (fun x => x.site == n && x.group == g) s3.mem.groupErrors } }
    let s5 := (s4.moveBlocksFrom (groupExtent n g)).moveShards (groupExtent n g) weightFree
    if t.retiredGroups.length = 1023 then s5.raiseService 2 5 n none false else s5

/-- A group that an injected fault would retire is out of service until the injection stops and its next check passes: nothing is recorded (R510). -/
def State.outGroup (injected : Bool) (n g source : Nat) (s : State) : State :=
  if !injected then s.retireGroup n g source
  else if (tileAt s n).retiredGroups.contains g then s
  else
    let t : State := { s with mem := { s.mem with tempGroups := addOnce (n, g) s.mem.tempGroups } }
    (t.moveBlocksFrom (groupExtent n g)).moveShards (groupExtent n g) weightFree

/-- A clean check of a group whose injection has stopped ends its temporary state (R510). -/
def State.groupPasses (n g : Nat) (s : State) : State :=
  if s.flt.injecting (srcId 3 n 0) || s.flt.injecting (srcId 3 n 1) then s
  else { s with mem := { s.mem with tempGroups := without (· == (n, g)) s.mem.tempGroups } }

/-- The entry whose newest corrected error is the oldest leaves a full table of a site. -/
def trimErrors (n : Nat) (l : List GroupErrors) : List GroupErrors :=
  let mine := l.filter (fun x => x.site == n)
  if mine.length < 4096 then l
  else match pickBy (fun a b : GroupErrors => decide (a.times.headD 0 < b.times.headD 0)) mine with
    | some x => without (fun y => y.site == n && y.group == x.group) l
    | none => l

/-- A corrected error is counted for its group and its site; the fourth within 24 operating hours retires the group (R259). An injected one counts apart:
with the others it may put the group out of service for a time, and never retires it (R339, R510). -/
def State.noteCorrected (injected : Bool) (n g : Nat) (s : State) : State :=
  let now := s.ret.opTime
  let mine (x : GroupErrors) : Bool := x.site == n && x.group == g
  let was := (s.mem.groupErrors.find? mine).getD { site := n, group := g, times := [] }
  let row : GroupErrors := if injected then { was with injected := (now :: was.injected).take 4 } else { was with times := (now :: was.times).take 4 }
  let recent := (row.times ++ if injected then row.injected else []).filter (fun x => decide (now ≤ x + 86400))
  let table := if s.mem.groupErrors.any mine then s.mem.groupErrors else trimErrors n s.mem.groupErrors
  let s1 : State := { s with mem := { s.mem with groupErrors := row :: without mine table,
                                                 corrected := (n, now) :: s.mem.corrected } }
  if 4 ≤ recent.length then s1.outGroup injected n g (srcId 3 n 0) else s1

/-- Whether poison flags are as an injected parity fault makes them read: one of them inverted (Table 17-10). -/
def seenPoison (s : State) (n p : Nat) : Nat := if s.flt.injecting (srcId 3 n 4) then Nat.xor p 1 else p

/-- What a check of one granule does (R257): corrected, poisoned, or already poisoned, with the commands that consume it. -/
def State.checkGranule (n x : Nat) (errors : ByteErrors) (cids : List Nat) (s : State) : State :=
  let a := siteBase n + x / 64 * 64
  let g := groupOf x
  match seenPoison s n (poisonOf s a) with
  | 0 => match eccOutcome (seenErrors s n errors) with
    | .clean => s.groupPasses n g
    | .corrected => (s.raise (srcId 3 n 0) g).noteCorrected (s.flt.injecting (srcId 3 n 0)) n g
    | .uncorrectable => ((s.poison a).raiseOn (srcId 3 n 1) g cids).outGroup (s.flt.injecting (srcId 3 n 1)) n g (srcId 3 n 1)
  | 3 => cids.foldl (fun t c => t.markCmd (srcId 3 n 1) c) s
  | _ => (s.poison a).raiseOn (srcId 3 n 4) g cids

/-! ## Channels (R264, R265) -/

/-- Whether a channel is being retrained: its accesses wait. -/
def retrainingNow (s : State) (n device channel : Nat) : Bool := s.mem.retraining.contains (n, device, channel)

/-- A channel retrain starts. -/
def State.startRetrain (n device channel : Nat) (s : State) : State :=
  ({ s with mem := { s.mem with retraining := addOnce (n, device, channel) s.mem.retraining } } : State).modTile n (fun t => { t with training := true })

/-- An access whose EDC check fails so often: a retry that succeeds is an S0 event; after the fifth failure the channel is retrained and the
access waits (R264); continuous injection makes every attempt fail (R508). The flag says whether the access goes on. -/
def State.edcCheck (n g counted : Nat) (s : State) : State × Bool :=
  let fails := match lookupKey (srcId 3 n 2) s.flt.inject with
    | some mode => if mode = 1 then Nat.max 1 counted else 5
    | none => counted
  if fails = 0 then (s, true)
  else if fails ≤ 4 then (s.raise (srcId 3 n 2) g, true)
  else (s.startRetrain n (groupDevice g) (groupChannel g), false)

/-- Whether a site offset may be accessed. -/
def siteOffset (s : State) (n x len : Nat) : Bool := siteMapped s n && decide (x + len ≤ siteUsable)

/-- The tile of an issuer, none for the hub. -/
def issuerSite : Issuer → Option Nat
  | .tile n => some n.val
  | .hub => none

/-- An access that has to wait for its channel joins the others (R264). -/
def State.hold (a : HeldAccess) (s : State) : State := { s with mem := { s.mem with heldAccesses := s.mem.heldAccesses ++ [a] } }

/-- A read at the controller: the granule is checked before its data leave (R257). -/
def State.readGranule (n x : Nat) (cid : Option Nat) (errors : ByteErrors) (s : State) : State :=
  (s.touch false [⟨siteBase n + granule x, 64⟩]).checkGranule n x errors cid.toList

/-- Offsets of the granules that an access touches. -/
def granulesOf (x len : Nat) : List Nat := (List.range ((x + len - 1) / 64 - x / 64 + 1)).map (fun i => x / 64 * 64 + 64 * i)

/-- The read of a read-modify-write (R256, R257): the granule is checked; an error that the code misses stays in the granule. -/
def State.readForWrite (n x : Nat) (cid : Option Nat) (errors : ByteErrors) (s : State) : State :=
  let e : Extent := ⟨siteBase n + x, 64⟩
  let t := s.checkGranule n x errors cid.toList
  if eccOutcome (seenErrors s n errors) = .clean then
    { t with mem := { t.mem with cells := writePieces t.mem.cells [e] (spoil (seenErrors s n errors) (readPieces t.mem.cells [e])) } }
  else t

/-- A write at the controller: a whole granule is replaced and its poison cleared; anything less is a read-modify-write (R256). -/
def State.writeGranules (n x : Nat) (data : List Byte) (cid : Option Nat) (errors : List ByteErrors) (s : State) : State :=
  let l := granulesOf x data.length
  let s2 := ((List.range l.length).zip l).foldl (fun t p =>
    if x ≤ p.2 ∧ p.2 + 64 ≤ x + data.length then t else t.readForWrite n p.2 cid (errors.getD p.1 [])) s
  s2.writeMem [⟨siteBase n + x, data.length⟩] data

/-- GDDR7_READ: a read of the granule at an offset is checked before its data leave the controller; one whose channel is being retrained
waits (R257, R260, R264). -/
def execGddr7Read (site : SiteId) (offset : Nat) (by_ : Issuer) (cid : Option Nat) (errors : ByteErrors) (edcFails : Nat) (s : State) :
    Host.Outcome State Fault Refusal :=
  let g := groupOf offset
  let wait : HeldAccess := { site, offset, write := false, data := [], by_, cid, errors := [errors] }
  if !siteOffset s site offset 1 then .next (s.raiseOn (unmappedSource (issuerSite by_)) offset cid.toList)
  else if retrainingNow s site (groupDevice g) (groupChannel g) then .next (s.hold wait)
  else
    let (t, go) := s.edcCheck site g edcFails
    if go then .next (t.readGranule site offset cid errors) else .next (t.hold wait)

/-- GDDR7_WRITE: bytes are stored (R256); a write whose channel is being retrained waits (R264). -/
def execGddr7Write (site : SiteId) (offset : Nat) (data : List Byte) (by_ : Issuer) (cid : Option Nat) (errors : List ByteErrors) (edcFails : Nat)
    (s : State) : Host.Outcome State Fault Refusal :=
  let g := groupOf offset
  let wait : HeldAccess := { site, offset, write := true, data, by_, cid, errors }
  if data.isEmpty then .next s
  else if !siteOffset s site offset data.length then .next (s.raiseOn (unmappedSource (issuerSite by_)) offset cid.toList)
  else if onRetraining s ⟨siteBase site + offset, data.length⟩ then .next (s.hold wait)
  else
    let (t, go) := s.edcCheck site g edcFails
    if go then .next (t.writeGranules site offset data cid errors) else .next (t.hold wait)

/-- One access that has waited goes on: it waits again if its channel does, fails if its memory is gone, else reads or writes. -/
def State.resume (a : HeldAccess) (s : State) : State :=
  let n := a.site
  let len := if a.write then a.data.length else 1
  if !siteOffset s n a.offset len then s.raiseOn (unmappedSource (issuerSite a.by_)) a.offset a.cid.toList
  else if onRetraining s ⟨siteBase n + a.offset, len⟩ then s.hold a
  else if a.write then s.writeGranules n a.offset a.data a.cid a.errors
  else s.readGranule n a.offset a.cid (a.errors.headD [])

/-- Every access that waits is tried in the order it came. -/
def State.resumeAll (s : State) : State :=
  s.mem.heldAccesses.foldl (fun t a => t.resume a) { s with mem := { s.mem with heldAccesses := [] } }

/-- Groups of one device. -/
def groupsPerDevice : Nat := 4194304

/-- What the pass of a controller has found so far, and, at its last group, the pass counted as one background test (R507). -/
def State.scrubStep (n k i : Nat) (bad : Bool) (s : State) : State :=
  let failing := bad || s.mem.scrubBad.contains k
  if i + 1 = groupsPerDevice then
    { s with mem := { s.mem with scrubBad := without (· == k) s.mem.scrubBad },
             flt := { s.flt with stRun := s.flt.stRun + 1, stFailed := s.flt.stFailed + bnat failing,
                                 stFirst := if failing && s.flt.stFirst == 0xFFFF then srcId 3 n 1 else s.flt.stFirst } }
  else if bad then { s with mem := { s.mem with scrubBad := addOnce k s.mem.scrubBad } }
  else s

/-- Whether a controller may scrub its next group: a pass begins 8 operating hours after the one before (R258). -/
def scrubDue (s : State) (k : Nat) : Bool :=
  (lookupKey k s.mem.scrubNext).getD 0 != 0 || (match lookupKey k s.mem.scrubStart with
    | some t => decide (t + 28800 ≤ s.ret.opTime)
    | none => true)

/-- SCRUB_GROUP: the next group of a device is read and checked, every group once in 8 operating hours (R258). -/
def execScrubGroup (site : SiteId) (device : Fin 2) (found : List ByteErrors) (s : State) : Host.Outcome State Fault Refusal :=
  let k := controller site device
  let i := (lookupKey k s.mem.scrubNext).getD 0
  let g := 2 * i + device.val
  if !siteMapped s site || retrainingNow s site device (groupChannel g) || !scrubDue s k then .next s
  else
    let s1 : State := { s with mem := { s.mem with scrubNext := setKey k ((i + 1) % groupsPerDevice) s.mem.scrubNext,
                                                   scrubStart := if i = 0 then setKey k s.ret.opTime s.mem.scrubStart else s.mem.scrubStart } }
    let bad := ((List.range 15).zip found).any (fun p =>
      eccOutcome (seenErrors s site p.2) == .uncorrectable || poisonOf s (siteBase site + 960 * g + 64 * p.1) != 0)
    .next (((List.range 15).zip found).foldl (fun t p => t.checkGranule site (960 * g + 64 * p.1) p.2 [])
      ((s1.touch false [groupExtent site g]).scrubStep site k i bad))

/-- Whether a site's devices are in self-refresh: across its partial reset, and while its controllers are held (R70, Table 9-1). -/
def selfRefresh (t : Tile) : Bool := t.inReset || (t.training && !t.idValid)

/-- GDDR7_REFRESH: one bank of a device is refreshed; a device in self-refresh needs none (R252). -/
def execGddr7Refresh (site : SiteId) (device : Fin 2) (bank : Nat) (s : State) : Host.Outcome State Fault Refusal :=
  if selfRefresh (tileAt s site) then .next s
  else .next { s with mem := { s.mem with refreshed := setKey (controller site device) bank s.mem.refreshed } }

/-- GDDR7_TEMP_READ: the devices' temperatures are read (R252). -/
def execGddr7TempRead (site : SiteId) (tempA tempB : Nat) (s : State) : Host.Outcome State Fault Refusal :=
  .next (s.noteTemps site tempA tempB)

/-- Temperature of a device at its last reading. -/
def deviceTemp (s : State) (n device : Nat) : Nat := (lookupKey (controller n device) s.mem.deviceTemp).getD 0

/-- Whether a channel is due: never re-centred, 5 K from where it was, or 1 s of operating time ago (R264). -/
def recentreDue (s : State) (n device channel : Nat) : Bool :=
  match lookupKey (4 * controller n device + channel) s.mem.recentred with
  | none => true
  | some (temp, time) => decide (temp + 5 ≤ deviceTemp s n device) || decide (deviceTemp s n device + 5 ≤ temp) || decide (time + 1 ≤ s.ret.opTime)

/-- RECENTRE: the eyes of one channel that is due are re-centred at its device's temperature; no access fails (R264). -/
def execRecentre (site : SiteId) (device : Fin 2) (channel : Fin 4) (s : State) : Host.Outcome State Fault Refusal :=
  if !recentreDue s site device channel then .next s
  else .next { s with mem := { s.mem with recentred := setKey (4 * controller site device + channel.val)
                                                     (deviceTemp s site device, s.ret.opTime) s.mem.recentred } }

end Sys2Proof.Machine
end

