-- ==== Sys2Proof/Machine/Flags.lean ====
section
/-! DEFINITION. Status words: what each BAR0 register shows of the state (Tables 22-1, 22-6, 22-7 and the tables they name). -/
namespace Sys2Proof.Machine

/-! ## Hub block -/

/-- HUB_MOD_STATUS (Table 10-3). -/
def modStatus (s : State) : Nat :=
  let cls := match s.settings with | some x => x.powerClass | none => 0
  bnat s.boot.ready * 2 ^ 31 + bnat s.boot.fwUp * 2 ^ 30 + bnat s.boot.settingsValid * 2 ^ 29 + bnat s.boot.stopped * 2 ^ 28
  + cls * 2 ^ 26 + s.boot.step * 2 ^ 8 + (computeSites s).length

/-- HUB_RESET_RECORD (Table 19-3). -/
def resetRecord (s : State) : Nat := s.boot.lastKind.code * 2 ^ 30 + s.boot.readyMs

/-- Newest valid reading of the hottest of some sensors, in 0.25 K; none when there is no reading. -/
def hottestOf (hist : List (List Int)) (broken : List Bool) : Option Int :=
  ((List.range hist.length).filterMap (fun k => if broken.getD k false then none else (hist.getD k []).head?)).foldl
    (fun m x => match m with | none => some x | some y => some (max x y)) none

/-- The sensors of a tile that count as broken: all eight once four are judged so (R461). -/
def treatedBroken (l : List Bool) : List Bool := if 4 ≤ (l.filter id).length then l.map (fun _ => true) else l

/-- A signed 16-bit reading, 0x8000 for none. -/
def reading16 (x : Option Int) : Nat := match x with | some v => ofSigned 16 v | none => 0x8000

/-- Trip kinds (Table 16-9). -/
def TripKind.code : TripKind → Nat
  | .none => 0 | .thermal => 1 | .overcurrent => 2 | .backstop => 3 | .inputRange => 4

/-- Trips in the last 24 operating hours. -/
def recentTrips (s : State) : Nat := (s.ret.tripTimes.filter (fun t => decide (s.ret.opTime < t + 86400))).length

/-- THM_TRIP_RECORD (Table 16-9). -/
def tripRecord (s : State) : Nat :=
  s.ret.tripSource % 65536 * 65536 + s.ret.tripReading % 256 * 256 + s.ret.tripKind.code * 16 + Nat.min (recentTrips s) 15

/-- THM_MODULE_STATUS (Table 16-8). -/
def thmModuleStatus (s : State) : Nat :=
  s.th.cP * 2 ^ 25 + bnat (decide (s.th.cP < 64)) * 2 ^ 24 + bnat s.th.fastLimit * 2 ^ 23 + bnat s.th.telemetryFault * 2 ^ 22
  + Nat.min s.th.inputPower 65535

/-- The request that EVR_SERVICE_STATUS shows: the highest level, then the lowest cause. -/
def topService (s : State) : Option ServiceReq :=
  s.svc.foldl (fun m q => match m with
    | none => some q
    | some x => if x.level < q.level ∨ (x.level = q.level ∧ q.cause < x.cause) then some q else some x) none

/-- EVR_SERVICE_STATUS (Table 16-10). -/
def serviceStatus (s : State) : Nat :=
  match topService s with
  | none => 0xFFFF
  | some q => q.level * 2 ^ 30 + q.cause % 64 * 2 ^ 24 + q.resource % 256 * 2 ^ 16 + Nat.min (q.hours.getD 0xFFFF) 0xFFFF

/-- HUB_FLASH_STATUS (Table 18-7). -/
def flashStatus (s : State) : Nat :=
  (if bothFailed s then 2 else s.log.active) * 2 ^ 30 + bnat s.flashA.failed * 2 ^ 29 + bnat s.flashB.failed * 2 ^ 28
  + bnat s.log.refused * 2 ^ 27 + s.log.queued.length

/-- SEC_IDENTITY_STATUS (Table 19-7). -/
def identityStatus (s : State) : Nat :=
  let signer := match s.settings with | some x => x.signer % 2 | none => 0
  bnat s.sec.keyOk * 2 ^ 31 + bnat s.sec.cryptoOk * 2 ^ 30 + bnat (!s.sec.ownerKey.isEmpty) * 2 ^ 29 + signer * 2 ^ 28
  + bnat s.sec.reservationPending * 2 ^ 27 + s.sec.batchLeft

/-- HUB_SITE_STATE of a row (Table 1-3). -/
def siteStateWord (s : State) (row : Nat) : Nat :=
  total ((List.range 8).map (fun c => (tileAt s (8 * row + c)).state.code * 16 ^ c))

/-- States of Table 12-6. -/
def BundleState.code : BundleState → Nat
  | .unwired => 0 | .training => 1 | .full => 2 | .degraded => 3 | .retired => 4 | .down => 5

/-- A bundle status word (Table 12-6). -/
def bundleWord (d : BundleDir) : Nat :=
  d.state.code * 2 ^ 29 + (d.spares.filter (· != .free)).length * 2 ^ 26 + d.dropped.getD 0 % 4 * 2 ^ 24 + d.physPort % 16 * 2 ^ 20
  + d.inlineChecks % 256 * 256 + d.crcFailures % 256

/-- States of Table 9-10. -/
def CxlState.code : CxlState → Nat
  | .empty => 0 | .inService => 1 | .evacuating => 2 | .off => 3

/-- CXL_PORT_STATUS (Table 9-10). -/
def cxlWord (p : CxlPort) : Nat :=
  let rate := if p.rate = 32 then 1 else if p.rate = 64 then 2 else 0
  let width := if p.width = 4 then 1 else if p.width = 8 then 2 else if p.width = 16 then 3 else 0
  bnat p.present * 2 ^ 31 + bnat p.linkUp * 2 ^ 30 + p.state.code * 2 ^ 28 + rate * 2 ^ 26 + width * 2 ^ 24
  + bnat p.surpriseRemoved * 2 ^ 23 + Nat.min (p.mapped / 2 ^ 30) 4096

/-! ## Fault collector -/

/-- FLT_FIRST_FAULT (Table 17-6a). -/
def firstFaultWord (f : Faults) : Nat :=
  f.firstSource * 65536 + f.firstSeverity * 16384 + bnat f.firstValid * 8192 + bnat f.firstInjected * 4096 + f.merged

/-- FLT_STATUS (Table 17-6c). -/
def faultStatus (f : Faults) : Nat := f.open_.length * 65536 + f.highest * 16384

/-- FLT_STICKY word w (Table 17-6e). -/
def stickyWord (f : Faults) (w : Nat) : Nat :=
  total ((List.range 32).map (fun k => if f.sticky.contains (32 * w + k) then 2 ^ k else 0))

/-! ## Rings and routes -/

/-- HUB_RING_CTRL (Table 10-6). -/
def ringCtrlWord (r : Ring) : Nat := bnat r.enable * 2 ^ 31 + r.weight % 16 * 2 ^ 24 + r.sizeLog2 % 32 * 2 ^ 16 + r.aliveInit % 256 * 256

/-- HUB_RING_IRQ (Table 10-7). -/
def ringIrqWord (r : Ring) : Nat := bnat r.irqEnable * 2 ^ 31 + r.vector % 2048 * 2 ^ 16 + r.coalesceCount % 256 * 256 + r.coalesceDelay % 256

/-- Ring states (Table 10-8). -/
def RingState.code : RingState → Nat
  | .disabled => 0 | .enabled => 1 | .draining => 2 | .error => 3

/-- HUB_RING_STATUS (Table 10-8). -/
def ringStatusWord (r : Ring) : Nat :=
  r.state.code * 2 ^ 30 + (if r.state = .error then r.errorCause else 0) * 2 ^ 24 + r.aliveExpected * 2 ^ 16 + r.sqHead

/-- HUB_RING_COUNTS (R289). -/
def ringCountsWord (r : Ring) : Nat := r.inFlight * 65536 + r.cqTail

/-- HUB_ROUTE_ENTRY (Table 15-10). -/
def routeWord (r : Route) : Nat :=
  bnat r.valid * 2 ^ 31 + bnat r.learned * 2 ^ 30 + r.eng0 * 2 ^ 25 + r.eng1 * 2 ^ 20 + r.hops * 2 ^ 16 + r.using_ * 2 ^ 13 + r.alt * 2 ^ 8

/-! ## Tile windows (Table 22-6) -/

/-- TILE_ID (Table 2-7). -/
def tileIdWord (t : Tile) : Nat :=
  bnat t.idValid * 2 ^ 31 + bnat t.mirror * 1024 + t.rotation % 4 * 256 + t.row % 8 * 8 + t.col % 8

/-- TILE_CELL_STATUS (Table 2-8). -/
def cellStatusWord (t : Tile) : Nat :=
  bnat (t.retiredCells.contains 32) * 2 ^ 17 + bnat t.rotating * 2 ^ 16
  + (if t.state = .compute ∧ t.setupDone = true then t.logical.length else 0) * 256 + (if t.state = .compute then t.sampling.getD 0x3F else 0x3F)

/-- TILE_CELL_RETIRED (Table 2-9). -/
def cellRetiredWord (t : Tile) : Nat := total ((List.range 32).map (fun k => if t.retiredCells.contains k then 2 ^ k else 0))

/-- MEM_SITE_STATUS (Table 9-9): until the tile reports, reset values and what flash gives (R574). -/
def memSiteWord (s : State) (n : Nat) : Nat :=
  let t := tileAt s n
  let recent := ((s.mem.corrected.filter (fun p => p.1 == n && decide (s.ret.opTime < p.2 + 86400))).length)
  let live := if t.idValid || t.state == .isolated then
      bnat t.memInService * 2 ^ 31 + bnat t.training * 2 ^ 27 + Nat.min recent 255 * 256 + t.thermal.gddrTemp % 256
    else 0
  live + bnat t.memFailed * 2 ^ 30 + t.failedDevice % 4 * 2 ^ 28 + Nat.min t.retiredGroups.length 1024 * 2 ^ 16

/-- Sensors judged broken, as a byte. -/
def brokenByte (l : List Bool) : Nat := total ((List.range 8).map (fun k => if l.getD k false then 2 ^ k else 0))

/-- THM_TILE_STATUS (Table 16-6). -/
def thmTileWord (s : State) (n : Nat) : Nat :=
  let t := tileAt s n
  let on := t.state == .compute
  brokenByte t.thermal.broken * 2 ^ 24 + bnat (t.thermal.ceiling == 8) * 2 ^ 23
  + (if on then Nat.min t.thermal.ceiling s.th.cP else 0) * 2 ^ 16 + reading16 (hottestOf t.thermal.history (treatedBroken t.thermal.broken))

/-- THM_TILE_AGEING (Table 16-7). -/
def thmAgeingWord (n : Nat) (a : Ageing) : Nat :=
  Nat.min a.guard 255 * 2 ^ 24 + Nat.min (Config.guardCeiling n - a.guard) 255 * 2 ^ 16 + Nat.min a.value.toNat 65535

/-- A word of a tile window: 0 while ISOLATED but for MEM_SITE_STATUS (R71, R274), the reset values until the tile has reported (R574). -/
def tileWord (s : State) (n off : Nat) : Option Nat :=
  let t := tileAt s n
  let r := Tile.reset n
  let live (a b : Nat) : Option Nat := some (if t.state = .isolated then 0 else if t.idValid then a else b)
  match off with
  | 0x000 => live (tileIdWord t) (tileIdWord r)
  | 0x004 => live (cellStatusWord t) (cellStatusWord r)
  | 0x008 => live (cellRetiredWord t) (cellRetiredWord t)
  | 0x00C => live t.sweeps r.sweeps
  | 0x100 => some (memSiteWord s n)
  | 0x300 => live (thmTileWord s n) (0x40 * 2 ^ 16 + 0x8000)
  | 0x304 => live (thmAgeingWord n t.ageing) (thmAgeingWord n t.ageing)
  | _ => if 0x200 ≤ off ∧ off < 0x240 ∧ off % 4 = 0 then
           live (bundleWord (t.bundles.getD ((off - 0x200) / 4) BundleDir.reset)) (bundleWord BundleDir.reset)
         else none

/-! ## Engine windows (Table 22-7) -/

/-- Link states (Table 13-6). -/
def LinkState.code : LinkState → Nat
  | .down => 0 | .training => 1 | .up => 2 | .portAbsent => 3 | .noLight => 4 | .outOfService => 5

/-- Width codes (Table 13-6). -/
def widthCode (w : Nat) : Nat := if w = 32 then 0 else if w = 24 then 1 else if w = 16 then 2 else 3

/-- Ring states (Table 13-8). -/
def OeRingState.code : OeRingState → Nat
  | .parked => 0 | .searching => 1 | .locked => 2 | .paused => 3 | .failed => 4 | .dark => 5 | .retired => 6

/-- Rings of a side (R410): 0 transmit, 1 receive. -/
def sideRings (x : Engine) (side : Nat) : List OeRingRec := (x.rings.drop (36 * side)).take 36

/-- Healthy spares of a side. -/
def healthySparesOf (x : Engine) (side : Nat) : Nat := ((sideRings x side).filter (fun r => r.state == .locked && r.slot == 0x3E)).length

/-- OE_LINK_STATUS (Table 13-6). -/
def oeLinkWord (x : Engine) : Nat :=
  x.state.code * 2 ^ 29 + widthCode x.tx.width * 2 ^ 27 + widthCode x.rx.width * 2 ^ 25 + x.tx.rate % 4 * 2 ^ 23 + x.rx.rate % 4 * 2 ^ 21
  + Nat.min (healthySparesOf x 0) 4 * 2 ^ 18 + Nat.min (healthySparesOf x 1) 4 * 2 ^ 15 + bnat x.elsPresent * 2 ^ 14
  + x.tx.paused.length * 256 + x.rx.paused.length

/-- OE_REPLAY_STATUS (Table 15-11): the window of 16 buckets ends with the one in progress (R442). -/
def oeReplayWord (x : Engine) : Nat :=
  x.link.held.length * 2 ^ 19 + x.maxReplays * 2 ^ 14 + Nat.min (x.slotFailed.length + total ((x.buckets.take 15).map (·.1.length))) 63 * 256 + x.linkDowns

/-- OE_LASER_STATUS (Table 13-7): an input with light has a reading, which is open where no command has given it. -/
def laserWord (n : Nat) (l : LaserInput) : Nat :=
  (match l.mode with | .off => 0 | .probe => 1 | .run => 2) * 2 ^ 30 + bnat l.excursion * 2 ^ 29 + bnat l.openFibre * 2 ^ 28
  + l.atten % 256 * 2 ^ 16 + ofSigned 16 (if l.mode != .off && l.power == -32768 then Config.tapReading n else l.power)

/-- OE_RING_STATUS (Table 13-8). -/
def oeRingWord (r : OeRingRec) : Nat :=
  r.state.code * 2 ^ 29 + bnat r.toneOk * 2 ^ 28 + r.tries % 4 * 2 ^ 26 + r.slot % 64 * 2 ^ 20 + r.heater % 65536

/-- A word of an engine window: its reset values until the engine starts, sticky fields apart (R13, R574). -/
def engineWord (s : State) (e off : Nat) : Option Nat :=
  let x := engineAt s e
  let r : Engine := if x.started then x else
    { Engine.reset e with linkDowns := x.linkDowns, lasers := x.lasers.map (fun l => { LaserInput.reset with excursion := l.excursion }) }
  match off with
  | 0x000 => some (oeLinkWord r)
  | 0x004 => some (oeReplayWord r)
  | 0x080 => some (laserWord (s.free + 2 * e) (r.lasers.getD 0 LaserInput.reset))
  | 0x084 => some (laserWord (s.free + 2 * e + 1) (r.lasers.getD 1 LaserInput.reset))
  | _ =>
    if 0x010 ≤ off ∧ off < 0x01C ∧ off % 4 = 0 then some (bundleWord (r.bundles.getD ((off - 0x10) / 4) BundleDir.reset))
    else if 0x100 ≤ off ∧ off < 0x220 ∧ off % 4 = 0 then some (oeRingWord (r.rings.getD ((off - 0x100) / 4) OeRingRec.reset))
    else none

/-! ## Stream check units (Tables 20-2–20-5) -/

/-- Stream check unit u. -/
def scuAt (s : State) (u : Nat) : Scu := s.scu.getD u Scu.reset

/-- SCU_CTRL (Table 20-3). -/
def scuCtrlWord (x : Scu) : Nat :=
  bnat x.enable * 2 ^ 31 + bnat x.configError * 2 ^ 30 + x.tap % 32 * 2 ^ 25 + x.site % 64 * 2 ^ 19 + bnat x.refin * 2 ^ 18 + bnat x.refout * 2 ^ 17
  + bnat x.fixed * 2 ^ 16 + bnat x.captureExceptions * 2 ^ 15 + x.eventMask % 16 * 2 ^ 11 + bnat x.compare * 2 ^ 10
  + bnat x.aliveEnable * 2 ^ 9 + x.width % 128

/-- SCU_STATUS (Table 20-4). -/
def scuStatusWord (x : Scu) : Nat := bnat x.overrun * 2 ^ 31 + x.fifo.length * 2 ^ 16 + x.dropped

/-- A word of a unit's block. -/
def scuWord (s : State) (u off : Nat) : Option Nat :=
  let x := scuAt s u
  let head := (x.fifo.head?.map (fun e => e.value.toNat)).getD 0
  match off with
  | 0x00 => some (scuCtrlWord x) | 0x04 => some x.frame.toNat
  | 0x08 => some (x.poly.toNat % 2 ^ 32) | 0x0C => some (x.poly.toNat / 2 ^ 32)
  | 0x10 => some (x.init.toNat % 2 ^ 32) | 0x14 => some (x.init.toNat / 2 ^ 32)
  | 0x18 => some (x.xorout.toNat % 2 ^ 32) | 0x1C => some (x.xorout.toNat / 2 ^ 32)
  | 0x20 => some (x.expect.toNat % 2 ^ 32) | 0x24 => some (x.expect.toNat / 2 ^ 32)
  | 0x28 => some x.aliveReg.toNat | 0x2C => some (scuStatusWord x)
  | 0x30 => some (head % 2 ^ 32) | 0x34 => some (head / 2 ^ 32)
  | 0x38 => some x.info.toNat
  | 0x40 => some x.records | 0x44 => some x.mismatches | 0x48 => some x.repeats | 0x4C => some x.skips
  | _ => none

/-! ## The whole of BAR0 (Table 22-1) -/

/-- A word of the hub block. -/
def hubWord (s : State) (off : Nat) : Option Nat :=
  match off with
  | 0x0000 => some (0x6424 * 65536 + Config.hubStepping.toNat)
  | 0x0004 => some Config.fwVersion.toNat
  | 0x0008 => some s.ret.opTime
  | 0x000C => some s.ret.cycles
  | 0x0010 => some (modStatus s)
  | 0x0014 => some s.boot.cause.toNat
  | 0x0018 => some s.boot.mask.toNat
  | 0x0020 => some (resetRecord s)
  | 0x0400 => some (thmModuleStatus s)
  | 0x0404 => some (tripRecord s)
  | 0x0408 => some (serviceStatus s)
  | 0x0500 => some (flashStatus s)
  | 0x0600 => some (identityStatus s)
  | 0x3000 => some (firstFaultWord s.flt)
  | 0x3004 => some s.flt.firstTime
  | 0x3008 => some s.flt.firstCycle
  | 0x300C => some (faultStatus s.flt)
  | 0x3010 => some 0
  | _ => none

/-- A word of a ring's block (R289). -/
def ringWord (r : Ring) (off : Nat) : Option Nat :=
  match off with
  | 0x00 => some (r.sqBase.toNat % 2 ^ 32) | 0x04 => some (r.sqBase.toNat / 2 ^ 32)
  | 0x08 => some (r.cqBase.toNat % 2 ^ 32) | 0x0C => some (r.cqBase.toNat / 2 ^ 32)
  | 0x10 => some (ringCtrlWord r) | 0x14 => some (ringIrqWord r) | 0x18 => some (ringStatusWord r) | 0x1C => some (ringCountsWord r)
  | _ => none

/-- An MSI-X table word: entries of address, data and vector control (PCIe, R307; reserved bits: log 38). -/
def msixWord (s : State) (k : Nat) : Nat :=
  let v := ((lookupKey k s.host.msixTable).map (·.toNat)).getD 0
  if k % 4 = 3 then v / 2 * 2 + bnat (s.host.vectorMask.contains (k / 4)) else v

/-- A word of the pending-bit array. -/
def pendingWord (s : State) (w : Nat) : Nat :=
  total ((List.range 32).map (fun k => if s.host.pendingBits.contains (32 * w + k) then 2 ^ k else 0))

/-- The 32-bit word that a read of BAR0 at an aligned offset returns; none where no table maps it (R571, R575). -/
def bar0Word (s : State) (off : Nat) : Option Nat :=
  if 0x1100 ≤ off ∧ off < 0x1120 then some (siteStateWord s ((off - 0x1100) / 4))
  else if 0x1200 ≤ off ∧ off < 0x1240 then some (bundleWord (s.hubBundles.getD ((off - 0x1200) / 4) BundleDir.reset))
  else if 0x2000 ≤ off ∧ off < 0x2400 then (if off % 0x100 = 0 then some (cxlWord (s.cxl.getD ((off - 0x2000) / 0x100) CxlPort.reset)) else none)
  else if 0x4000 ≤ off ∧ off < 0x4800 then scuWord s ((off - 0x4000) / 0x80) ((off - 0x4000) % 0x80)
  else if 0x8000 ≤ off ∧ off < 0x10000 then some (msixWord s ((off - 0x8000) / 4))
  else if 0x14000 ≤ off ∧ off < 0x14100 then some (pendingWord s ((off - 0x14000) / 4))
  else if 0x10000 ≤ off ∧ off < 0x14000 then ringWord (s.host.rings.getD ((off - 0x10000) / 0x40) Ring.reset) ((off - 0x10000) % 0x40)
  else if 0x20000 ≤ off ∧ off < 0x28000 then
    some (routeWord ((s.trans.routes.find? (fun r => r.dest == (off - 0x20000) / 4)).getD
      { dest := 0, valid := false, learned := false, eng0 := 0x1F, eng1 := 0x1F, hops := 0, using_ := 7, alt := 0x1F }))
  else if 0x30000 ≤ off ∧ off < 0x32000 then some (stickyWord s.flt ((off - 0x30000) / 4))
  else if 0x400000 ≤ off ∧ off < 0x440000 then tileWord s ((off - 0x400000) / 0x1000) ((off - 0x400000) % 0x1000)
  else if 0x500000 ≤ off ∧ off < 0x518000 then engineWord s ((off - 0x500000) / 0x1000) ((off - 0x500000) % 0x1000)
  else hubWord s off

/-- Offsets of the 64-bit registers (Tables 20-2, 22-1). -/
def wideReg (off : Nat) : Bool :=
  if 0x4000 ≤ off ∧ off < 0x4800 then [0x08, 0x10, 0x18, 0x20, 0x30].contains ((off - 0x4000) % 0x80)
  else if 0x10000 ≤ off ∧ off < 0x14000 then [0x00, 0x08].contains ((off - 0x10000) % 0x40)
  else false

end Sys2Proof.Machine
end

