-- ==== Sys2Proof/Machine/Operands.lean ====
section
/-! DEFINITION. Operand forms: the descriptor of every opcode (Chapter 11), its reserved bytes and its field checks (R14, R294, R300 checks 2 and
3, R312, R313, R314). -/
namespace Sys2Proof.Machine

/-- Operand fields (offset, bytes) of an opcode, from the tables of Chapter 11; none for an opcode outside the command set. -/
def operandFields : Nat → Option (List (Nat × Nat))
  | 0x01 => some [] | 0x02 => some [] | 0x03 => some []
  | 0x04 => some [(0x08, 2), (0x10, 48)]
  | 0x05 => some [(0x08, 4)]
  | 0x10 => some [(0x08, 8), (0x10, 8), (0x18, 5), (0x20, 16)]
  | 0x11 => some [(0x08, 8)] | 0x12 => some [(0x08, 8)] | 0x13 => some [(0x08, 8)]
  | 0x20 => some [(0x08, 8), (0x10, 4), (0x18, 8)]
  | 0x21 => some [(0x08, 8)]
  | 0x22 => some [(0x08, 8), (0x10, 12), (0x20, 16)]
  | 0x23 => some [(0x08, 8), (0x10, 12), (0x20, 16)]
  | 0x24 => some [(0x08, 8), (0x10, 1), (0x18, 24)]
  | 0x25 => some [(0x08, 8), (0x10, 1), (0x12, 2), (0x14, 4), (0x18, 32)]
  | 0x26 => some [(0x08, 8), (0x10, 2), (0x14, 4), (0x18, 8)]
  | 0x30 => some [(0x08, 8), (0x10, 4)]
  | 0x31 => some [(0x08, 56)]
  | 0x32 => some [(0x08, 8), (0x10, 4)]
  | 0x33 => some [(0x08, 8), (0x10, 20), (0x28, 16)]
  | 0x40 => some [(0x08, 5), (0x10, 40)]
  | 0x41 => some [(0x08, 8), (0x10, 1)]
  | 0x42 => some [(0x08, 8)]
  | 0x50 => some [(0x08, 14)]
  | 0x51 => some [(0x08, 1), (0x10, 20)]
  | 0x60 => some [(0x08, 1)]
  | 0x61 => some [(0x08, 1), (0x10, 12), (0x20, 12)]
  | 0x62 => some [(0x08, 3)]
  | 0x70 => some [(0x08, 13), (0x18, 12)]
  | 0x71 => some [(0x08, 1), (0x10, 12)]
  | 0x72 => some [(0x08, 12)]
  | 0x73 => some [(0x08, 44)]
  | 0x7E => some [(0x08, 1)]
  | 0x7F => some []
  | _ => none

/-- cflags bits an opcode may set (Table 11-2). -/
def flagMask : Nat → Nat
  | 0x10 => 3 | 0x20 => 1 | 0x22 => 1 | 0x7E => 1 | 0x7F => 1 | _ => 0

/-- Whether a byte of a descriptor is named by a table. -/
def namedByte (fields : List (Nat × Nat)) (k : Nat) : Bool :=
  decide (k < 8) || fields.any (fun f => decide (f.1 ≤ k) && decide (k < f.1 + f.2))

/-- Reserved bytes and reserved flag bits are zero (R14, R294, R313). -/
def reservedZero (op : Nat) (fields : List (Nat × Nat)) (d : List Byte) : Bool :=
  (List.range 64).all (fun k => namedByte fields k || d.getD k 0 == 0)
  && decide (field 2 1 d < 8) && (field 3 1 d &&& (255 - flagMask op)) == 0

/-- A host buffer address (R312). -/
def hostAddr (a : Nat) : Bool := a != 0 && a % 64 == 0

/-- A host address or zero. -/
def hostAddr0 (a : Nat) : Bool := a % 64 == 0

/-- A module name: ID and plane, no reserved bit. -/
def moduleName (v : Nat) : Bool := decide (v < 8192)

/-- A count in a range. -/
def within (lo hi v : Nat) : Bool := decide (lo ≤ v) && decide (v ≤ hi)

/-- Format codes of Table 3-1. -/
def formatCode (v : Nat) : Bool := decide (v ≤ 9)

/-- The per-opcode field checks of check 3 (R300): every one that the descriptor alone decides; bytes that only another form uses are zero (log 39). -/
def fieldChecks (op : Nat) (d : List Byte) : Bool :=
  let f (off n : Nat) : Nat := field off n d
  match op with
  | 0x04 => match f 8 2 with
    | 1 => decide (f 0x10 1 < 16) && zeroes 0x11 7 d && zeroes 0x28 24 d && (f 0x18 8 == 0 || f 0x20 8 % 4096 == 0)
    | 2 => decide (f 0x10 1 < 4) && zeroes 0x11 47 d
    | 3 => (f 0x10 2 == 0 || within 500 3200 (f 0x10 2)) && zeroes 0x12 46 d
    | 4 => within 85 95 (f 0x10 1) && zeroes 0x11 47 d
    | _ => false
  | 0x05 => match f 8 2 with
    | 1 => decide (f 0x0A 2 < 16) | 2 => decide (f 0x0A 2 < 4) | 3 => true | 4 => true | _ => false
  | 0x10 => hostAddr (f 0x10 8) && decide (f 0x1C 1 ≤ 1) && hostAddr (f 0x20 8) && (bit 1 (f 3 1) || f 8 8 == 0)
  | 0x20 => decide (1 ≤ f 0x10 4)
  | 0x22 => decide (1 ≤ f 0x14 4) && (f 0x18 4 == 0 || hostAddr (f 0x20 8)) && hostAddr0 (f 0x28 8)
  | 0x23 => f 0x14 4 == 1 && (f 0x18 4 == 0 || hostAddr (f 0x20 8)) && hostAddr0 (f 0x28 8)
  | 0x24 => match f 0x10 1 with
    | 0 => hostAddr (f 0x18 8) && f 0x20 8 == 0 | 1 => true | _ => false
  | 0x25 => match f 0x10 1 with
    | 0 => hostAddr (f 0x18 8) && zeroes 0x12 6 d && zeroes 0x30 8 d
    | 1 => zeroes 0x12 6 d && zeroes 0x30 8 d
    | 2 => moduleName (f 0x12 2) && within 1 60000 (f 0x14 4)
    | _ => false
  | 0x26 => moduleName (f 0x10 2) && within 1 60000 (f 0x14 4)
  | 0x30 => hostAddr (f 8 8)
  | 0x31 => (f 0x24 4 == 0 || hostAddr (f 0x28 8)) && hostAddr0 (f 0x30 8) && hostAddr0 (f 0x38 8)
  | 0x32 => hostAddr (f 8 8)
  | 0x33 => within 1 (2 ^ 24) (f 0x10 4) && within 1 60000 (f 0x14 4) && hostAddr (f 0x28 8) && hostAddr (f 0x30 8)
  | 0x40 => decide (f 8 1 ≤ 1) && decide (f 9 1 ≤ 1) && !(f 8 1 == 0 && f 9 1 == 0) && formatCode (f 0xA 1) && formatCode (f 0xB 1)
            && (f 8 1 == 1 || hostAddr (f 0x10 8)) && (f 9 1 == 1 || hostAddr (f 0x20 8))
  | 0x41 => decide (1 ≤ f 8 8) && decide (f 0x10 1 ≤ 2)
  | 0x50 => decide (f 0x14 1 < 8) && (!bit 1 (f 0x14 1) || decide (f 0x15 1 ≤ 3))
  | 0x51 => decide (f 8 1 ≤ 2) && (f 8 1 != 0 || f 0x10 8 == 0) && hostAddr (f 0x18 8)
  | 0x60 => decide (f 8 1 ≤ 1)
  | 0x61 => decide (f 8 1 < 24) && within 1 1000 (f 0x18 4) && hostAddr (f 0x20 8)
  | 0x62 => decide (f 0xA 1 ≤ 2)
  | 0x70 => within 1 65536 (f 0x10 4) && decide (f 0x14 1 < 4) && hostAddr (f 0x18 8)
  | 0x71 => decide (f 8 1 ≤ 4) && hostAddr (f 0x10 8)
  | 0x72 => hostAddr (f 8 8)
  | 0x73 => hostAddr (f 0x28 8)
  | 0x7E => f 8 1 == 0
  | _ => true

/-- Commands that run in full before ready (R285). -/
def earlyOpcode (op : Nat) : Bool := [0x01, 0x02, 0x03, 0x05, 0x70, 0x71, 0x72, 0x7E, 0x7F].contains op

/-- Checks 2 to 4 of R300, first failure first; none when all pass. -/
def staticChecks (ready : Bool) (d : List Byte) : Option Status :=
  let op := field 0 1 d
  match operandFields op with
  | none => some .unknownOpcode
  | some fs =>
    if !(reservedZero op fs d && fieldChecks op d) then some .badDescriptor
    else if !ready && !earlyOpcode op then some .retryLater
    else none

end Sys2Proof.Machine
end

