-- ==== Sys2Proof/Machine/Host.lean ====
section
/-! DEFINITION. The host link: rings, doorbells, fetching, completions, interrupts, apertures and the function's configuration (Chapter 10). -/
namespace Sys2Proof.Machine

/-! ## Rings -/

/-- A ring. -/
def ringAt (s : State) (r : Nat) : Ring := s.host.rings.getD r Ring.reset

/-- A change of one ring. -/
def State.modRing (r : Nat) (f : Ring → Ring) (s : State) : State := { s with host := { s.host with rings := modAt s.host.rings r f } }

/-- Entries of a ring (R288). -/
def Ring.entries (r : Ring) : Nat := 2 ^ r.sizeLog2

/-- BAR_ACCESS_INVALID of the host link (Table 10-11). -/
def State.badAccess (data : Nat) (s : State) : State := s.raise (srcId 5 0 7) data

/-- A ring enters ERROR (R293). -/
def State.ringError (r cause : Nat) (s : State) : State :=
  ((s.modRing r (fun x => { x with state := .error, errorCause := cause })).raise (srcId 5 0 6) r).raiseCause 3

/-- A DRAINING ring whose completions are all consumed is DISABLED (R292). -/
def Ring.settle (r : Ring) : Ring := if r.state = .draining ∧ r.inFlight = 0 then { r with state := .disabled } else r

/-- A ring newly enabled (R290). -/
def Ring.start (r : Ring) : Ring :=
  { r with state := .enabled, errorCause := 0, sqHead := 0, sqTail := 0, cqTail := 0, cqHead := 0, inFlight := 0, aliveExpected := r.aliveInit,
           lap := true, phase := true, unsignalled := 0, irqArmed := true }

/-- Whether a ring's base and size allow enabling it (Table 10-9). -/
def Ring.valid (r : Ring) : Bool := r.sqBase != 0 && r.cqBase != 0 && decide (4 ≤ r.sizeLog2) && decide (r.sizeLog2 ≤ 16)

/-- A write of HUB_RING_CTRL (Table 10-6, R290–R292); a ring that stops takes no descriptor that is still on its way (R280). -/
def State.writeRingCtrl (r v : Nat) (s : State) : State :=
  let en := bit 31 v
  let s1 := s.modRing r (fun x => { x with enable := en, weight := bits 27 24 v })
  match (ringAt s r).state with
  | .disabled =>
    let s2 := s1.modRing r (fun x => { x with sizeLog2 := bits 20 16 v, aliveInit := bits 15 8 v })
    if !en then s2
    else if (ringAt s2 r).valid then s2.modRing r Ring.start
    else s2.ringError r 1
  | .draining => s1
  | _ =>
    if en then s1
    else
      let s2 := s1.modRing r (fun x => Ring.settle { x with state := .draining, errorCause := 0 })
      { s2 with host := { s2.host with outstanding := without (· == .fetch (Fin.ofNat 256 r)) s2.host.outstanding } }

/-- RING_ENABLE: HUB_RING_CTRL is written, with enable 1 (R290). -/
def execRingEnable (ring : RingNo) (value : Word) (s : State) : Host.Outcome State Fault Refusal :=
  if hostReach s then .next (s.writeRingCtrl ring value.toNat) else .next s

/-- RING_DISABLE: HUB_RING_CTRL is written, with enable 0 (R292). -/
def execRingDisable (ring : RingNo) (value : Word) (s : State) : Host.Outcome State Fault Refusal :=
  if hostReach s then .next (s.writeRingCtrl ring value.toNat) else .next s

/-! ## Interrupts (R306, R307) -/

/-- A ring's vector is posted; nothing more is until its completion head doorbell. -/
def State.interrupt (r : Nat) (s : State) : State :=
  (s.modRing r (fun x => { x with irqArmed := false, unsignalled := 0 })).sendVector (ringAt s r).liveVector

/-- What HUB_RING_IRQ says takes effect with a completion (R291). -/
def Ring.takeIrq (x : Ring) : Ring := { x with liveEnable := x.irqEnable, liveVector := x.vector, liveDelay := x.coalesceDelay }

/-- After a completion is written: whether an interrupt is due. -/
def State.maybeInterrupt (r : Nat) (asked : Bool) (s : State) : State :=
  let x := ringAt s r
  if x.liveEnable && x.irqArmed && (x.liveDelay == 0 || decide (x.coalesceCount + 1 ≤ x.unsignalled) || asked) then s.interrupt r else s

/-- IRQ_COALESCE_TIMEOUT: coalesce_delay µs since the oldest unsignalled completion (R306). -/
def execIrqCoalesceTimeout (ring : RingNo) (s : State) : Host.Outcome State Fault Refusal :=
  let x := ringAt s ring
  if x.liveEnable && x.irqArmed && x.liveDelay != 0 && decide (0 < x.unsignalled) then .next (s.interrupt ring) else .next s

/-- A vector is sent once no mask holds it. -/
def State.flushVector (v : Nat) (s : State) : State :=
  if s.host.pendingBits.contains v && !vectorHeld s v then
    ({ s with host := { s.host with pendingBits := without (· == v) s.host.pendingBits } } : State).send (.msix v)
  else s

/-- Every vector that no mask holds any more is sent. -/
def State.flushVectors (s : State) : State := s.host.pendingBits.foldl (fun t v => t.flushVector v) s

/-- MSIX_UNMASK: a vector's mask in BAR0, or the function mask in configuration space, clears; held messages are sent (R284, R307). -/
def execMsixUnmask (vector : Option (Fin 2048)) (s : State) : Host.Outcome State Fault Refusal :=
  match vector with
  | some v =>
    if !hostReach s then .next s
    else .next (({ s with host := { s.host with vectorMask := without (· == v.val) s.host.vectorMask } } : State).flushVector v)
  | none =>
    if !configReach s then .next s
    else .next (({ s with host := { s.host with functionMask := false } } : State).flushVectors)

/-! ## Doorbells (R296, R297) -/

/-- A submission tail is written (R297). -/
def State.tailDoorbell (ring v : Nat) (s : State) : State :=
  let x := ringAt s ring
  if x.state ≠ .enabled then s.badAccess ring
  else if x.entries ≤ v then s.ringError ring 2
  else s.modRing ring (fun x => { x with sqTail := v })

/-- A completion head is written (R292, R293, R297, R306): after an interrupt, completions that are left raise another at once. -/
def State.headDoorbell (ring v : Nat) (s : State) : State :=
  let x := ringAt s ring
  let n := x.entries
  let used := (v + n - x.cqHead) % n
  let ready := (x.cqTail + n - x.cqHead) % n
  if x.state = .disabled then s.badAccess ring
  else if n ≤ v ∨ ready < used then
    if x.state = .enabled then s.ringError ring 3 else s.raise (srcId 5 0 6) ring
  else
    let s1 := s.modRing ring (fun x => Ring.settle { x with cqHead := v, inFlight := x.inFlight - used, irqArmed := true })
    if x.liveEnable && !x.irqArmed && decide (used < ready) then s1.interrupt ring else s1

/-- A write of BAR2: at ring × 8 a submission tail, at ring × 8 + 4 a completion head; the offsets above the rings' are reserved (R296). -/
def State.writeBar2 (offset v : Nat) (s : State) : State :=
  if 0x800 ≤ offset then s
  else if offset % 8 = 0 then s.tailDoorbell (offset / 8) v
  else if offset % 8 = 4 then s.headDoorbell (offset / 8) v
  else s

/-- SUBMISSION_TAIL_DOORBELL (R296, R297). -/
def execSubmissionTailDoorbell (ring : RingNo) (value : Word) (s : State) : Host.Outcome State Fault Refusal :=
  if hostReach s then .next (s.writeBar2 (8 * ring) value.toNat) else .next s

/-- COMPLETION_HEAD_DOORBELL (R296, R297). -/
def execCompletionHeadDoorbell (ring : RingNo) (value : Word) (s : State) : Host.Outcome State Fault Refusal :=
  if hostReach s then .next (s.writeBar2 (8 * ring + 4) value.toNat) else .next s

/-! ## Fetching (R299–R302) -/

/-- Whether a ring has a descriptor that may be fetched. -/
def fetchable (s : State) (r : Nat) : Bool :=
  let x := ringAt s r
  x.state == .enabled && x.sqHead != x.sqTail && decide (x.inFlight < x.entries - 1)

/-- Whether the hub takes descriptors: firmware up, room in the table, no forced command waiting (R285, R299, R350). -/
def hubTakes (s : State) : Bool := s.boot.fwUp && decide (s.host.cmds.length < 16384) && s.host.forcing.isNone

/-- Whether the hub fetches at all now: it takes descriptors and the host is open (R280). -/
def fetching (s : State) : Bool := hubTakes s && hostOpen s

/-- The ring whose turn it is: the last one while its turn lasts, else the next in round-robin order (R299). -/
def arbiter (s : State) : Option Nat :=
  let last := s.host.lastRing
  if s.host.turnLeft ≠ 0 ∧ fetchable s last = true then some last
  else ((List.range 256).map (fun k => (last + 1 + k) % 256)).find? (fetchable s)

/-- A ring and turn after a fetch. -/
def State.takeTurn (r : Nat) (s : State) : State :=
  let more := if r = s.host.lastRing ∧ s.host.turnLeft ≠ 0 then s.host.turnLeft - 1 else (ringAt s r).weight
  { s with host := { s.host with lastRing := r, turnLeft := more } }

/-- A slot is fetched: head, lap and count move. -/
def Ring.fetched (x : Ring) : Ring :=
  let h := (x.sqHead + 1) % x.entries
  { x with sqHead := h, lap := if h = 0 then !x.lap else x.lap, inFlight := x.inFlight + 1 }

/-- The core that serves a ring (R485). -/
def servingCore (s : State) (r : Nat) : Nat :=
  (((List.range 8).map (fun k => (r + k) % 8)).find? (fun c => !coreOut s c)).getD (r % 8)

/-- The 64 bytes of a completion (Table 10-11a). -/
def completionBytes (c : Cmd) (sqHead : Nat) (d : Done) (phase : Bool) : List Byte :=
  slice 4 4 c.desc ++ leBytes 2 c.slot ++ leBytes 2 sqHead ++ leBytes 1 c.opcode ++ leBytes 1 d.status.code ++ leBytes 1 c.aliveSeen
  ++ leBytes 1 c.aliveAt ++ leBytes 2 d.source ++ leBytes 2 0 ++ leBytes 4 (c.seq.getD 0) ++ (d.result ++ List.replicate 40 0).take 40
  ++ leBytes 3 0 ++ leBytes 1 (bnat phase)

/-- Data written to the host in payloads of at most 512 B, cut where an address is a multiple of 512 (R276; the cut PRESUMED, log 81). -/
def payloads (a : Nat) (b : List Byte) : List (Nat × List Byte) :=
  if b.isEmpty then []
  else (List.range ((a % 512 + b.length + 511) / 512)).map (fun i =>
    let from_ := 512 * i - a % 512
    (a + from_, (b.drop from_).take (if i = 0 then 512 - a % 512 else 512)))

/-- A completion is posted: data writes, bytes 0x00–0x3B, bytes 0x3C–0x3F, any interrupt due (R303, R305). -/
def State.postCompletion (c : Cmd) (d : Done) (s : State) : State :=
  let x := ringAt s c.ring
  let b := completionBytes c x.sqHead d x.phase
  let a := x.cqBase.toNat + 64 * x.cqTail
  let s1 := (d.writes.flatMap (fun w => payloads w.1 w.2)).foldl (fun t w => t.send (.write w.1 w.2)) s
  let s2 := (s1.send (.write a (b.take 0x3C))).send (.write (a + 0x3C) (b.drop 0x3C))
  let t := (x.cqTail + 1) % x.entries
  let s3 := s2.modRing c.ring (fun x => { x.takeIrq with cqTail := t, phase := if t = 0 then !x.phase else x.phase, unsignalled := x.unsignalled + 1 })
  s3.maybeInterrupt c.ring (bit 1 (c.arg 2 1))

/-- The next number of the serial order (R302). -/
def State.takeSeq (s : State) : State := { s with host := { s.host with acceptSeq := s.host.acceptSeq + 1 } }

/-- Whether a descriptor must wait for a fence (R308). -/
def mustWait (s : State) (r : Nat) (fence : Bool) : Bool :=
  (s.host.cmds.filter (fun c => c.ring == r)).any (fun c => fence || bit 2 (c.arg 2 1))

/-- A descriptor that fails one of checks 1–4 completes at once, its result zero (Table 10-11a). -/
def State.rejectFetched (c : Cmd) (st : Status) (s : State) : State :=
  s.takeSeq.postCompletion { c with seq := some s.host.acceptSeq.toNat } { status := st, source := 0, result := [], writes := [] }

/-- DESCRIPTOR_FETCH: a descriptor arrives from the ring whose turn it is; checks 1–4 of R300 are made, and one that passes takes its number
unless a fence holds it (R299–R302, R308). -/
def execDescriptorFetch (ring : RingNo) (desc : List Byte) (s : State) : Host.Outcome State Fault Refusal :=
  if !(hubTakes s && mayRead s (.fetch ring)) || arbiter s != some ring.val || desc.length != 64 then .next s
  else
    let x := ringAt s ring
    let alive := field 1 1 desc
    let c : Cmd := { cid := s.host.nextCid, ring := ring, slot := x.sqHead, desc, aliveSeen := alive, aliveAt := x.aliveExpected, seq := none,
                     started := false, core := servingCore s ring, done := none, marked := none }
    let s1 := (s.takeTurn ring).modRing ring Ring.fetched
    let s2 : State := { s1 with host := { s1.host with nextCid := s.host.nextCid + 1, outstanding := without (· == .fetch ring) s.host.outstanding } }
    if bit 0 (field 2 1 desc) != x.lap || alive != x.aliveExpected then .next ((s2.raise (srcId 5 0 5) ring).rejectFetched c .staleDescriptor)
    else
      let s3 := s2.modRing ring (fun x => { x with aliveExpected := (x.aliveExpected + 1) % 256 })
      match staticChecks s.boot.ready desc with
      | some st => .next (s3.rejectFetched c st)
      | none =>
        if mustWait s ring (bit 2 (field 2 1 desc)) then .next { s3 with host := { s3.host with cmds := s3.host.cmds ++ [c] } }
        else .next (({ s3 with host := { s3.host with cmds := s3.host.cmds ++ [{ c with seq := some s3.host.acceptSeq.toNat }] } } : State).takeSeq)

/-- Commands ahead of one in the table. -/
def ahead (cid : Nat) (l : List Cmd) : List Cmd := l.takeWhile (fun c => c.cid != cid)

/-- FENCE_RELEASE: a descriptor that waited for a fence is free to start and takes its number (R302, R308). -/
def execFenceRelease (cid : Nat) (s : State) : Host.Outcome State Fault Refusal :=
  match cmdAt s cid with
  | none => .next s
  | some c =>
    let before := (s.host.cmds.filter (fun d => d.ring == c.ring && decide (d.cid < cid)))
    if c.seq.isSome || c.done.isSome || (bit 2 (c.arg 2 1) && !before.isEmpty) || before.any (fun d => bit 2 (d.arg 2 1)) then .next s
    else
      .next (({ s with host := { s.host with cmds := without (fun d => d.cid == cid) s.host.cmds
                                                     ++ [{ c with seq := some s.host.acceptSeq.toNat }] } } : State).takeSeq)

/-- COMMAND_COMPLETE: a command that has ended leaves the table and its completion is posted (R303–R306); a forced command waits for every
other (R350), and a RESTART starts the module reset once its completion is posted (R345). One that ended while a fence held it takes its number now
(R302). -/
def execCommandComplete (cid : Nat) (s : State) : Host.Outcome State Fault Refusal :=
  match cmdAt s cid with
  | none => .next s
  | some c =>
    match c.done with
    | none => .next s
    | some d =>
      if s.host.forcing = some cid ∧ s.host.cmds.length ≠ 1 then .next s
      else
        let s1 : State := { s with host := { s.host with cmds := without (fun x => x.cid == cid) s.host.cmds,
                                                         forcing := if s.host.forcing = some cid then none else s.host.forcing } }
        let s2 := match c.seq with
          | some _ => ((s1.dropRun cid).dropLaunch cid).postCompletion c d
          | none => ((s1.dropRun cid).dropLaunch cid).takeSeq.postCompletion { c with seq := some s1.host.acceptSeq.toNat } d
        if c.opcode = 0x7E ∧ d.status = .ok then .next (s2.softReset .module true true) else .next s2

/-! ## Host requests (R280–R283) -/

/-- Whether a held message is an interrupt that a mask holds by now. -/
def HostMsg.masked (s : State) : HostMsg → Option Nat
  | .msix v => if vectorHeld s v then some v else none
  | _ => none

/-- Once the host is open the held messages leave in order, but for interrupts that a mask holds by now, which are pending; reads that waited are issued
(R280, R282, R307). -/
def State.release (s : State) : State :=
  if hostOpen s then
    { s with host := { s.host with posted := s.host.posted ++ s.host.held.filter (fun m => (m.masked s).isNone), held := [],
                                   pendingBits := (s.host.held.filterMap (HostMsg.masked s)).foldl (fun l v => addOnce v l) s.host.pendingBits,
                                   cmds := s.host.cmds.map (fun c => { c with reading := false }), outstanding := [] } }
  else s

/-- Whether a command reads host memory: images, binding lists, slot and parameter blocks, and a source that is host memory (Chapter 11). -/
def readsHost (c : Cmd) : Bool :=
  [0x10, 0x30, 0x32, 0x33, 0x72].contains c.opcode || ((c.opcode == 0x22 || c.opcode == 0x23) && stepReads c) || (c.opcode == 0x31 && graphReads c) || (c.opcode == 0x25 && c.arg 0x10 1 == 0) || (c.opcode == 0x40 && c.arg 8 1 == 0)

/-- Whether a read of host memory is due of its owner: a command whose turn has come and that has not read yet, or a ring with a descriptor. -/
def readDue (s : State) : HostReq → Bool
  | .command cid => match cmdAt s cid with
    | some c => readsHost c && (actable s cid c.opcode).isSome && !c.reading && (!c.started || c.opcode == 0x40)
    | none => false
  | .fetch ring => hubTakes s && fetchable s ring

/-- The reads that are out: those due while the host is open, else those that went out before it closed (R280). -/
def readsOut (s : State) : List HostReq :=
  if hostOpen s then (s.host.cmds.map (fun c => HostReq.command c.cid) ++ (List.range 256).map (fun r => HostReq.fetch (Fin.ofNat 256 r))).filter (readDue s)
  else s.host.outstanding

/-- A change of the function that may close or open it to host requests. -/
def State.hostChange (f : HostLink → HostLink) (s : State) : State :=
  ({ s with host := { f s.host with outstanding := readsOut s } } : State).release

/-- HOST_MASTER_RESUME: Bus Master Enable is 1 and the function is in D0 (R280). -/
def execHostMasterResume (s : State) : Host.Outcome State Fault Refusal :=
  if !configReach s then .next s
  else .next (s.hostChange (fun h => { h with busMaster := true, d3hot := false }))

/-- HOST_LINK_DOWN: the link goes down without PERST#: requests are held, those that were out too (R282). -/
def execHostLinkDown (s : State) : Host.Outcome State Fault Refusal :=
  if s.host.linkUp && !s.pins.perst then .next (({ s with host := { s.host with linkUp := false, outstanding := [] } } : State).raise (srcId 5 0 8) 0) else .next s

/-- The rate and width that Link Status gives: rate 6 is 64 GT/s (PCIe; R283). -/
def linkStatus (s : State) : Nat := s.host.rate + 16 * s.host.width

/-- HOST_LINK_RETRAIN: the link trains at x16, x8 or x4, at one of PCIe's six rates; a degraded width is an S1 event, and it or a change of width or
rate sets the host_link cause (R276, R282, R283, Table 10-4). -/
def execHostLinkRetrain (width rate : Nat) (s : State) : Host.Outcome State Fault Refusal :=
  if !(width == 16 || width == 8 || width == 4) || !(decide (1 ≤ rate) && decide (rate ≤ 6)) || s.pins.perst || !s.boot.everReset then .next s
  else
    let s1 := ({ s with host := { s.host with linkUp := true, trained := true, width, rate } } : State).release
    let s2 := if width = 16 then s1 else s1.raise (srcId 5 0 1) width
    .next (if width = 16 ∧ linkStatus s1 = linkStatus s then s2 else s2.raiseCause 4)

/-- What a failed host read does to its owner (R281). -/
def State.hostReadFailed (req : HostReq) (status : Status) (source : Nat) (s : State) : State :=
  match req with
  | .command cid => s.failWork cid status source
  | .fetch ring => s.ringError ring 4

/-- Whether a host read is outstanding: it is due of its owner and has been issued (R280). -/
def hostReadDue (s : State) (req : HostReq) : Bool := readDue s req && mayRead s req

/-- HOST_READ_COMPLETION: Unsupported Request, Completer Abort or poison on a host read (R281). -/
def execHostReadCompletion (req : HostReq) (outcome : ReadOutcome) (s : State) : Host.Outcome State Fault Refusal :=
  if !hostReadDue s req || !s.host.linkUp then .next s
  else
    let who := match req with | .command cid => [cid] | .fetch _ => []
    match outcome with
    | .poisoned => .next (((s.aerError 1).raiseOn (srcId 5 0 2) 0 who).hostReadFailed req .resultSuspect (srcId 5 0 2))
    | _ => .next ((s.raise (srcId 5 0 3) 0).hostReadFailed req .badDescriptor 0)

/-- HOST_COMPLETION_TIMEOUT: 50 ms without a completion of a request that was issued, while the link is up (R280–R282). -/
def execHostCompletionTimeout (req : HostReq) (s : State) : Host.Outcome State Fault Refusal :=
  if !hostReadDue s req || !s.host.linkUp then .next s
  else .next (((s.aerError 1).raise (srcId 5 0 4) 0).hostReadFailed req .linkLost (srcId 5 0 4))

/-- Bits cleared where another has a 1. -/
def AerBits.clear (b c : AerBits) : AerBits := ⟨b.correctable && !c.correctable, b.nonFatal && !c.nonFatal, b.fatal && !c.fatal⟩

/-- CONFIGURATION_WRITE: a write of configuration space that the manual gives an effect, once the link has trained (R276, R277, R279, R280, R284,
R307). -/
def execConfigurationWrite (change : ConfigChange) (s : State) : Host.Outcome State Fault Refusal :=
  if !configReach s then .next s
  else match change with
  | .busMaster on => .next (s.hostChange (fun h => { h with busMaster := on }))
  | .powerState d3 => .next (s.hostChange (fun h => { h with d3hot := d3 }))
  | .bar4Size k => if 28 ≤ k ∧ k ≤ 36 then .next { s with host := { s.host with bar4Log2 := k } } else .next s
  | .functionMask on => .next (({ s with host := { s.host with functionMask := on } } : State).flushVectors)
  | .vectorMask v on =>
    if 2048 ≤ v then .next s
    else if on then .next { s with host := { s.host with vectorMask := addOnce v s.host.vectorMask } }
    else .next (({ s with host := { s.host with vectorMask := without (· == v) s.host.vectorMask } } : State).flushVector v)
  | .msixEnable on => .next (({ s with host := { s.host with msixEnable := on } } : State).flushVectors)
  | .aerReport c n f => .next { s with host := { s.host with aerReport := ⟨c, n, f⟩ } }
  | .aerClear c n f => .next { s with host := { s.host with aerStatus := s.host.aerStatus.clear ⟨c, n, f⟩ } }

/-! ## BAR4 (R279, R285) -/

/-- The module address of a byte of BAR4, when its aperture reaches one. -/
def bar4Addr (s : State) (off : Nat) : Option Nat :=
  let win := 2 ^ s.host.bar4Log2 / 16
  if 2 ^ s.host.bar4Log2 ≤ off then none
  else
    let ap := s.host.apertures.getD (off / win) ⟨0, 0⟩
    match memHandle s ap.handle.toNat with
    | none => none
    | some h =>
      let p := ap.offset + off % win
      if h.size ≤ p then none else ((pieces h.extents p 1).head?).map (·.base)

/-- The byte a read of BAR4 returns: all ones where it reaches no byte or no mapped memory; a poisoned byte is not given (log 4). -/
def bar4Byte (s : State) (off : Nat) : Byte :=
  match bar4Addr s off with
  | some a => if !addrMapped s a then 0xFF
              else if s.mem.poison.any (fun p => p.1 == granule a && p.2 != 0) then Config.freeByte (s.free + off)
              else readByte s.mem.cells a
  | none => 0xFF

/-- Whether every byte of an access is reached. -/
def bar4Ok (s : State) (off n : Nat) : Bool := (List.range n).all (fun k => (bar4Addr s (off + k)).isSome)

/-- Whether an access reaches memory that makes it wait (R264, R268). -/
def bar4Waits (s : State) (off n : Nat) : Bool :=
  memWaits s ((List.range n).filterMap (fun k => (bar4Addr s (off + k)).map (fun a => (⟨a, 1⟩ : Extent))))

/-- Whether an access reaches a byte that is not mapped (R260). -/
def bar4Unmapped (s : State) (off n : Nat) : Bool :=
  (List.range n).any (fun k => match bar4Addr s (off + k) with | some a => !addrMapped s a | none => false)

/-- The events of an access (R260, R279). -/
def State.bar4Events (off n : Nat) (s : State) : State :=
  let s1 := if bar4Ok s off n then s else s.badAccess 0
  if bar4Unmapped s off n then s1.raise (srcId 0 0 0x0A) 0 else s1

/-- BAR4_READ: a bound aperture reads its handle; anywhere else reads all ones and is an S0 event (R279); before ready all ones (R285). -/
def execBar4Read (offset size : Nat) (s : State) : Host.Outcome State Fault Refusal :=
  if !hostReach s then .next s
  else if !s.boot.ready then .next { s with host := { s.host with readData := List.replicate size 0xFF } }
  else if bar4Waits s offset size then .next s
  else
    let l := (List.range size).map (fun k => bar4Byte s (offset + k))
    let held : List Extent := (((List.range size).filterMap (fun k => bar4Addr s (offset + k))).filter (addrMapped s)).map (fun a => ⟨a, 1⟩)
    let s0 := s.bar4Events offset size
    let s1 := match accessSource s none true held with
      | some src => s0.reportAccess src held []
      | none => s0.touch false held
    .next ({ s1 with host := { s1.host with readData := l } } : State)

/-- Bytes stored one by one where BAR4 reaches. -/
def State.bar4Store (s : State) : Nat → List Byte → State
  | _, [] => s
  | off, b :: t =>
    match bar4Addr s off with
    | some a => State.bar4Store (if addrMapped s a then s.writeMem [⟨a, 1⟩] [b] else s) (off + 1) t
    | none => State.bar4Store s (off + 1) t

/-- The pieces of a handle that an access within one aperture reaches. -/
def bar4Pieces (s : State) (off n : Nat) : List Extent :=
  let win := 2 ^ s.host.bar4Log2 / 16
  let ap := s.host.apertures.getD (off / win) ⟨0, 0⟩
  match memHandle s ap.handle.toNat with
  | some h => pieces h.extents (ap.offset + off % win) n
  | none => []

/-- BAR4_WRITE: as BAR4_READ; a byte that reaches no handle is discarded (R279, R285). -/
def execBar4Write (offset : Nat) (data : List Byte) (s : State) : Host.Outcome State Fault Refusal :=
  if !hostReach s || !s.boot.ready || bar4Waits s offset data.length then .next s
  else
    let n := data.length
    let t := s.bar4Events offset n
    let win := 2 ^ s.host.bar4Log2 / 16
    if bar4Ok s offset n && !bar4Unmapped s offset n && offset / win == (offset + n - 1) / win then
      .next (t.writeMem (bar4Pieces s offset n) data)
    else .next (t.bar4Store offset data)

end Sys2Proof.Machine
end

