-- ==== Sys2Proof/Machine/General.lean ====
section
/-! DEFINITION. How a fetched command acts, and the general, memory and placement commands (R3, R221, R279, R311–R315, R330–R334). -/
namespace Sys2Proof.Machine

/-! ## Acting (R300 check 5, R302, R308) -/

/-- A command that may act now acts on the state in which it has started; otherwise nothing happens. -/
def State.command (s : State) (cid op : Nat) (body : Cmd → State → State) : State :=
  match actable s cid op with
  | some c => body c (s.startCmd cid)
  | none => s

/-- Whether a command ahead of one, of the same ring or naming the same handle, waits at a read of host memory (log 68). -/
def readsAhead (s : State) (c : Cmd) (ring : Bool) : Bool :=
  (ahead c.cid s.host.cmds).any (fun d => d.accepted && !d.started && d.done.isNone && ((ring && d.ring == c.ring) || d.arg 8 8 == c.arg 8 8))

/-- As `command`, for a command that reads host memory: check 5 is made once, at acceptance (what it completes is its result); the command then waits at
the read, with the epoch and the place in its session's queue that it took (R229, R242), while that cannot be issued, and keeps its order with those that do (R280, R282, R300). -/
def State.hostCommand (s : State) (cid op : Nat) (check : Cmd → State → Option State) (body : Cmd → State → State) : State :=
  s.command cid op (fun c t =>
    match (if c.accepted || c.started then none else check c t) with
    | some u => u
    | none =>
      if mayRead s (.command cid) && !readsAhead s c true then body c t
      else if c.started then s
      else
        let u := s.modCmd cid (fun d =>
          { d with accepted := true, reading := !mayRead s (.command cid), heldEpoch := if d.accepted then d.heldEpoch else acceptedEpoch s d })
        if op = 0x22 ∨ op = 0x23 then u.joinQueue c else u)

/-- A command that reads host memory in some of its forms. -/
def State.commandReading (s : State) (cid op : Nat) (reads : Bool) (check : Cmd → State → Option State) (body : Cmd → State → State) : State :=
  if reads then s.hostCommand cid op check body else s.command cid op (fun c t => (check c t).getD (body c t))

/-- A command ends with data written to the host. -/
def State.finishWrites (cid : Nat) (status : Status) (fields : List (Nat × Nat × Nat)) (writes : List (Nat × List Byte)) (s : State) : State :=
  s.endCmd cid { status, source := 0, result := resultOf fields, writes }

/-- A command ends with its result bytes from 0x14 on. -/
def State.finishBytes (cid : Nat) (status : Status) (bytes : List Byte) (s : State) : State :=
  s.endCmd cid { status, source := 0, result := (bytes ++ List.replicate 40 0).take 40, writes := [] }

/-- A command's access to module memory by the hub that fails: an unmapped address, or a poison flag out of step, is an event; the command
ends with RESULT_SUSPECT (R257, R260). None when the access succeeds. -/
def State.badAccessBy (cid : Nat) (read : Bool) (l : List Extent) (s : State) : Option State :=
  match accessSource s none read l with
  | none => none
  | some src => some ((s.reportAccess src l [cid]).failCmd cid .resultSuspect src)

/-- Whether a SELFTEST FULL is in flight (R336). -/
def selftestRunning (s : State) : Bool := s.host.cmds.any (fun c => c.opcode == 0x60 && c.arg 8 1 == 1 && c.started && c.done.isNone)

/-! ## General commands (Table 11-3) -/

/-- NOP (R308). -/
def execNop (cid : Nat) (s : State) : Host.Outcome State Fault Refusal := .next (s.command cid 0x01 (fun _ t => t.finishCmd cid .ok []))

/-- Power class in force (R3). -/
def powerClass (s : State) : Nat := match s.settings with | some x => x.powerClass | none => 0

/-- Usable local bytes in MiB: 7.5 GiB per mapped site. -/
def localMib (s : State) : Nat := 7680 * ((List.range 64).filter (siteMapped s)).length

/-- Fields of IDENTIFY. -/
def identifyFields (s : State) : List (Nat × Nat × Nat) :=
  [(0x14, 4, 0x6424), (0x18, 2, Config.hubStepping.toNat), (0x1A, 1, powerClass s), (0x1B, 1, (computeSites s).length),
   (0x1C, 4, Config.fwVersion.toNat), (0x20, 4, match s.settings with | some x => x.version | none => 0), (0x24, 8, Config.serial.toNat),
   (0x2C, 2, ownId s), (0x2E, 1, (healthySpares s).length), (0x30, 4, localMib s),
   (0x34, 4, total (s.cxl.map (·.mapped)) / 2 ^ 30)]

/-- IDENTIFY (Table 11-3, R3). -/
def execIdentify (cid : Nat) (s : State) : Host.Outcome State Fault Refusal :=
  .next (s.command cid 0x02 (fun _ t => t.finishCmd cid .ok (identifyFields t)))

/-- Hottest valid reading of every tile, hub and engine sensor, in 0.25 K; those of an ISOLATED site are absent (R68). -/
def hottestAll (s : State) : Option Int :=
  let l := (s.tiles.filter (fun t => t.state != .isolated)).map (fun t => hottestOf t.thermal.history (treatedBroken t.thermal.broken)) ++ [hottestOf s.th.hubHistory s.th.hubBroken]
    ++ s.engines.map (fun x => hottestOf x.sensorHistory x.sensorBroken)
  (l.filterMap id).foldl (fun m x => match m with | none => some x | some y => some (max x y)) none

/-- hottest_tj in °C: rounded down, and not given before any reading (logs 4, 22). -/
def hottestC (s : State) : Nat :=
  match hottestAll s with
  | some v => ofSigned 8 (v / 4)
  | none => (Config.freeByte s.free).toNat

/-- Compute tiles at the 12.5 % floor (R465). -/
def floorTiles (s : State) : Nat := ((computeSites s).filter (fun n => (tileAt s n).thermal.ceiling == 8)).length

/-- Models loaded. -/
def loadedModels (s : State) : Nat := (s.models.filter (fun m => m.state != .empty)).length

/-- Fields of GET_STATUS. -/
def statusFields (s : State) : List (Nat × Nat × Nat) :=
  [(0x14, 4, modStatus s), (0x18, 2, s.flt.firstSource), (0x1A, 1, s.flt.firstSeverity), (0x1B, 1, serviceLevel s),
   (0x1C, 4, s.sessions.length), (0x20, 1, loadedModels s), (0x21, 1, hottestC s), (0x22, 2, s.th.inputPower), (0x24, 4, s.ret.opTime),
   (0x28, 4, s.ret.cycles % 2 ^ 24), (0x2C, 4, s.host.cmds.length), (0x30, 1, floorTiles s)]

/-- GET_STATUS (Table 11-3, R493). -/
def execGetStatus (cid : Nat) (s : State) : Host.Outcome State Fault Refusal :=
  .next (s.command cid 0x03 (fun _ t => (t.finishCmd cid .ok (statusFields t)).spend 1))

/-! ## Features (R314, Table 11-4) -/

/-- Class maximum of POWER_CAP in watts: 3,200 or 2,000; 3,200 while no class is in force (R2, log 37). -/
def classMax (s : State) : Nat := if powerClass s = 2 then 2000 else 3200

/-- The power cap in force: 0 selects the class maximum. -/
def capInForce (s : State) : Nat := if s.th.powerCap = 0 then classMax s else s.th.powerCap

/-- The value of a feature, as GET_FEATURE returns it. -/
def featureValue (s : State) (feature sel : Nat) : List Byte :=
  match feature with
  | 1 => let a := s.host.apertures.getD sel ⟨0, 0⟩
         leBytes 1 sel ++ leBytes 7 0 ++ leBytes 8 a.handle.toNat ++ leBytes 8 a.offset
  | 2 => leBytes 1 (cxlAt s sel).state.code ++ leBytes 7 0 ++ leBytes 8 (bytesToMove s sel)
  | 3 => leBytes 2 (capInForce s)
  | _ => leBytes 1 s.th.throttleStart

/-- A SET_FEATURE of one feature code. -/
def State.setFeature (s : State) (cid feature : Nat) (body : Cmd → State → State) : State :=
  match cmdAt s cid with
  | some c => if c.arg 8 2 = feature then s.command cid 0x04 body else s
  | none => s

/-- SET_FEATURE BAR4_APERTURE: the aperture is bound, or unbound with handle 0 (R279, R311). -/
def execSetFeatureBar4Aperture (cid : Nat) (s : State) : Host.Outcome State Fault Refusal :=
  .next (s.setFeature cid 1 (fun c t =>
    let a := c.arg 0x10 1
    let h := c.arg 0x18 8
    let off := c.arg 0x20 8
    let set (t : State) : State := ({ t with host := { t.host with apertures := setAt t.host.apertures a ⟨BitVec.ofNat 64 h, off⟩ } } : State)
    let done := (set t).finishBytes cid .ok (featureValue t 1 a)
    if h = 0 then done
    else match memHandle t h with
      | some x => if off < x.size then done else t.finishCmd cid .badDescriptor []
      | none => t.finishCmd cid .badDescriptor []))

/-- SET_FEATURE CXL_PORT_OFFLINE: an evacuation starts, is cancelled, or is refused for want of room (R271, R315). -/
def execSetFeatureCxlPortOffline (cid : Nat) (s : State) : Host.Outcome State Fault Refusal :=
  .next (s.setFeature cid 2 (fun c t =>
    let p := c.arg 0x10 1
    let (u, refused) := t.askOffline p
    if refused then t.finishCmd cid .noResource [] else u.finishBytes cid .ok (featureValue t 2 p)))

/-- SET_FEATURE POWER_CAP (R314, R466). -/
def execSetFeaturePowerCap (cid : Nat) (s : State) : Host.Outcome State Fault Refusal :=
  .next (s.setFeature cid 3 (fun c t =>
    let w := c.arg 0x10 2
    if classMax t < w then t.finishCmd cid .badDescriptor []
    else ({ t with th := { t.th with powerCap := w } } : State).finishBytes cid .ok (featureValue t 3 0)))

/-- SET_FEATURE THROTTLE_START (R314, R463). -/
def execSetFeatureThrottleStart (cid : Nat) (s : State) : Host.Outcome State Fault Refusal :=
  .next (s.setFeature cid 4 (fun c t =>
    ({ t with th := { t.th with throttleStart := c.arg 0x10 1 } } : State).finishBytes cid .ok (featureValue t 4 0)))

/-- GET_FEATURE (R314). -/
def execGetFeature (cid : Nat) (s : State) : Host.Outcome State Fault Refusal :=
  .next (s.command cid 0x05 (fun c t => t.finishBytes cid .ok (featureValue t (c.arg 8 2) (c.arg 0x0A 2))))

/-! ## Memory commands (Table 11-10) -/

/-- What MEM_ALLOC takes for a size and tier (R331). -/
def allocExtents (s : State) (bytes tier : Nat) : Option (List Extent) :=
  match tier with
  | 1 => takeExtents bytes (localFree s)
  | 2 => takeExtents bytes (cxlFree s)
  | _ => (takeExtents bytes (localFree s)).orElse (fun _ => takeExtents bytes (cxlFree s))

/-- MEM_ALLOC: zeroed bytes in the tier asked for, in multiples of 64 KiB (R331), written like any others (R255, R256, R264, R268). -/
def execMemAlloc (cid : Nat) (s : State) : Host.Outcome State Fault Refusal :=
  .next (s.command cid 0x41 (fun c t =>
    let size := c.arg 8 8
    let bytes := roundUp size 65536
    if 2 ^ 42 < size then t.finishCmd cid .tooLarge []
    else match freeIndex (t.mem.handles.map (·.index)) 65536, allocExtents t bytes (c.arg 0x10 1) with
      | some i, some l =>
        let g := genOf t.mem.handleGen i
        if memWaits t l then t else
        let u : State := State.overwrite l
          { t with mem := { t.mem with cells := clearPieces t.mem.cells l,
                                       handles := t.mem.handles ++ [{ index := i, gen := g, size := bytes, tier := c.arg 0x10 1, extents := l }] } }
        (u.noteGen 1 g).finishCmd cid .ok [(0x14, 8, handleWord 1 g i), (0x1C, 8, bytes)]
      | _, _ => t.finishCmd cid .noResource []))

/-- Whether a command names a handle in its descriptor: a transfer or a session image in memory, a graph or a kernel (Tables 11-6, 11-7, 11-9). -/
def namesHandle (c : Cmd) (h : Nat) : Bool :=
  match c.opcode with
  | 0x24 | 0x25 => c.arg 0x10 1 == 1 && c.arg 0x18 8 == h
  | 0x31 | 0x33 => c.arg 8 8 == h
  | 0x40 => (c.arg 8 1 != 0 && c.arg 0x10 8 == h) || (c.arg 9 1 != 0 && c.arg 0x20 8 == h)
  | _ => false

/-- Whether an accepted command that has not ended names a handle. -/
def namedInFlight (s : State) (h : Nat) : Bool := s.host.cmds.any (fun c => (c.started || c.accepted) && c.done.isNone && namesHandle c h)

/-- Whether a command in flight uses a memory handle (R332). -/
def memInUse (s : State) (h i : Nat) : Bool :=
  s.runs.any (fun r => r.bound.any (fun b => b.2 == i)) || s.launches.any (fun l => l.slots.contains h) || namedInFlight s h

/-- MEM_FREE: a memory, graph or kernel handle is freed unless a command in flight uses it (R332, R121, R178). -/
def execMemFree (cid : Nat) (s : State) : Host.Outcome State Fault Refusal :=
  .next (s.command cid 0x42 (fun c t =>
    let h := c.arg 8 8
    match memHandle t h, graphHandle t h, kernelHandle t h with
    | some x, _, _ =>
      if memInUse t h x.index then t.finishCmd cid .busy []
      else ({ t with mem := { t.mem with cells := clearPieces t.mem.cells x.extents,
                                         handles := without (fun y => y.index == x.index) t.mem.handles,
                                         handleGen := bumpGen x.index t.mem.handleGen } } : State).finishCmd cid .ok []
    | none, some (i, _, _), _ =>
      if t.runs.any (fun r => r.graphIndex == some i) || namedInFlight t h then t.finishCmd cid .busy []
      else ({ t with graphs := without (fun y => y.1 == i) t.graphs, graphGen := bumpGen i t.graphGen } : State).finishCmd cid .ok []
    | none, none, some (i, _, _) =>
      if t.launches.any (fun l => l.kernelIndex == i) || namedInFlight t h then t.finishCmd cid .busy []
      else ({ t with kernels := without (fun y => y.1 == i) t.kernels, kernelGen := bumpGen i t.kernelGen } : State).finishCmd cid .ok []
    | none, none, none => t.finishCmd cid .badDescriptor []))

end Sys2Proof.Machine
end

