-- ==== Sys2Proof/Machine/Diagnostics.lean ====
section
/-! DEFINITION. Test, log, settings, identity and power commands (R335–R350, R506–R508, R523, R542). -/
namespace Sys2Proof.Machine

/-! ## SELFTEST (R335, R336, R506, R507) -/

/-- Lowest sweep count over the compute tiles. -/
def minSweeps (s : State) : Nat := (least ((computeSites s).map (fun n => (tileAt s n).sweeps))).getD 0

/-- Result fields of SELFTEST (Table 11-12). -/
def selftestFields (s : State) (checks failures first ms : Nat) : List (Nat × Nat × Nat) :=
  [(0x14, 4, checks), (0x18, 4, failures), (0x1C, 2, first), (0x20, 4, ms), (0x24, 4, minSweeps s)]

/-- A SELFTEST of one kind. -/
def State.selftest (s : State) (cid kind : Nat) (body : Cmd → State → State) : State :=
  match cmdAt s cid with
  | some c => if c.arg 8 1 = kind then s.command cid 0x60 body else s
  | none => s

/-- SELFTEST_SUMMARY: what the background tests found since the last reset (R335, R507). -/
def execSelftestSummary (cid : Nat) (s : State) : Host.Outcome State Fault Refusal :=
  .next (s.selftest cid 0 (fun _ t => t.finishCmd cid .ok (selftestFields t t.flt.stRun t.flt.stFailed t.flt.stFirst 0)))

/-- Whether another command of one of these opcodes has been accepted and not ended. -/
def running (s : State) (cid : Nat) (ops : List Nat) : Bool :=
  s.host.cmds.any (fun c => c.cid != cid && ops.contains c.opcode && (c.started || c.accepted) && c.done.isNone)

/-- Whether another SELFTEST FULL runs. -/
def fullRunning (s : State) (cid : Nat) : Bool :=
  s.host.cmds.any (fun c => c.cid != cid && c.opcode == 0x60 && c.arg 8 1 == 1 && c.started && c.done.isNone)

/-- Tiles return to service under R58 steps 3 and 4 (R506). -/
def State.remapTiles (s : State) : State :=
  { s with tiles := s.tiles.map (fun t => if t.state = .compute ∧ t.setupDone = true then t.mapCells else t) }

/-! ## MARGIN_TEST (R337, R338) -/

/-- The wavelengths of a mask, ascending. -/
def maskLambdas (mask : Nat) : List Nat := (List.range 36).filter (fun b => mask.testBit b)

/-- The receive ring of a mask bit (R337, R410). -/
def maskRing (x : Engine) (b : Nat) : OeRingRec := x.rings.getD (36 + b) OeRingRec.reset

/-- The 8 B record of one wavelength (R337). -/
def marginRecord (rate b : Nat) (eye : Nat × Nat) : List Byte :=
  leBytes 1 (b / 18) ++ leBytes 1 (b % 18) ++ leBytes 1 rate ++ leBytes 1 0 ++ leBytes 2 eye.1 ++ leBytes 2 eye.2

/-- The narrowest eye: its width and mask bit, the lowest bit on a tie. -/
def narrowest (l : List (Nat × Nat × Nat)) : Nat × Nat :=
  match l with
  | [] => (0, 0)
  | (b, _, w) :: t => t.foldl (fun m x => if x.2.2 < m.1 then (x.2.2, x.1) else m) (w, b)

/-- Whether another MARGIN_TEST on an engine runs (R338). -/
def marginRunning (s : State) (cid e : Nat) : Bool :=
  (engineAt s e).marginBusy && s.host.cmds.any (fun c => c.cid != cid && c.opcode == 0x61 && c.arg 8 1 == e && c.started && c.done.isNone)

/-- MARGIN_TEST: first given it is checked and starts (R338); given again, each named wavelength's eye is written to the buffer (R337). Each eye
is its height and width. -/
def execMarginTest (cid : Nat) (eyes : List (Nat × Nat)) (s : State) : Host.Outcome State Fault Refusal :=
  .next (s.command cid 0x61 (fun c t =>
    let e := c.arg 8 1
    let mask := c.arg 0x10 8
    let l := maskLambdas mask
    let x := engineAt t e
    if !c.started then
      if mask = 0 ∨ 2 ^ 36 ≤ mask then t.finishCmd cid .badDescriptor []
      else if x.state = .portAbsent then t.finishCmd cid .peerAbsent []
      else if selftestRunning t || marginRunning t cid e || (x.state == .up && l.any (fun b => decide ((maskRing x b).slot < 32))) then
        t.finishCmd cid .busy []
      else if c.arg 0x28 4 < 8 * l.length then t.finishCmd cid .tooLarge [(0x14, 4, 8 * l.length)]
      else t.modEngine e (fun x => { x with marginBusy := true })
    else if eyes.length ≠ l.length then s
    else
      let recs := (l.zip eyes).flatMap (fun p => marginRecord x.rx.rate p.1 p.2)
      let w := narrowest ((l.zip eyes).map (fun p => (p.1, p.2.1, p.2.2)))
      (t.modEngine e (fun x => { x with marginBusy := false })).finishWrites cid .ok [(0x14, 4, l.length), (0x18, 2, w.1), (0x1A, 1, w.2)]
        [(c.arg 0x20 8, recs)]))

/-! ## FAULT_INJECT (R339, R508) -/

/-- The bundle end that a BUNDLE_CRC source names. -/
def sourceBundle (src : Nat) : Option BundleEnd :=
  let inst := src / 64 % 64
  let k := src % 64 - 0x20
  if src % 64 < 0x20 ∨ 0x30 ≤ src % 64 then none
  else match src / 4096 with
    | 0 => if inst = 0 then some (.hub (Fin.ofNat 16 k)) else none
    | 1 => some (.tile (Fin.ofNat 64 inst) (Fin.ofNat 16 k))
    | 2 => if inst < 24 ∧ k < 3 then some (.engine (Fin.ofNat 24 inst) (Fin.ofNat 3 k)) else none
    | _ => none

/-- Whether a source can be injected (R508): marked so in its table, or named in the list. -/
def injectable (src : Nat) : Bool :=
  let inst := src / 64 % 64
  let chk := src % 64
  match sourceBundle src with
  | some b => (peerEnd b).isSome
  | none => match src / 4096 with
    | 0 => inst == 0 && decide (2 ≤ chk) && decide (chk ≤ 4)
    | 1 => decide (1 ≤ chk) && decide (chk ≤ 8)
    | 2 => decide (inst < 24) && chk == 0x0C
    | 3 => chk == 0 || chk == 1 || chk == 2 || chk == 4
    | 4 => decide (inst < 4) && chk == 0
    | 8 => decide (inst < 2) && chk == 0
    | _ => false

/-- Whether the resource that a source belongs to is retired or isolated (R339). -/
def sourceGone (s : State) (src : Nat) : Bool :=
  let inst := src / 64 % 64
  match sourceBundle src with
  | some b => (bundleAt s b).state == .retired || (match b with | .tile n _ => (tileAt s n).state == .isolated | _ => false)
  | none => match src / 4096 with
    | 1 => (tileAt s inst).state == .isolated || (tileAt s inst).state == .retired
    | 2 => siteLost s inst
    | 3 => (tileAt s inst).state == .isolated || (tileAt s inst).memFailed
    | _ => false

/-- FAULT_INJECT: an inversion is set, or stopped (R336, R339, R508); a checker whose checks have no row reports it by FAULT_CAPTURE (log 82). -/
def execFaultInject (cid : Nat) (s : State) : Host.Outcome State Fault Refusal :=
  .next (s.command cid 0x62 (fun c t =>
    let src := c.arg 8 2
    let mode := c.arg 0xA 1
    let was := (lookupKey src t.flt.inject).getD 0
    if !injectable src then t.finishCmd cid .badDescriptor []
    else if selftestRunning t then t.finishCmd cid .busy []
    else if sourceGone t src then t.finishCmd cid .badDescriptor []
    else
      let l := without (fun p => p.1 == src) t.flt.inject
      ({ t with flt := { t.flt with inject := if mode = 0 then l else (src, mode) :: l } } : State).finishCmd cid .ok [(0x14, 1, was)]))

/-! ## SELFTEST FULL (R335, R336, R506) -/

/-- Every bundle end that is wired. -/
def wiredEnds : List BundleEnd :=
  ((List.range 64).flatMap tileEnds ++ (List.range 16).map (fun b => BundleEnd.hub (Fin.ofNat 16 b))
    ++ (List.range 24).flatMap (fun e => (List.range 3).map (fun k => BundleEnd.engine (Fin.ofNat 24 e) (Fin.ofNat 3 k)))).filter
    (fun b => (peerEnd b).isSome)

/-- The sources that can be injected (R508). -/
def injectableSources : List Nat :=
  [2, 3, 4].map (srcId 0 0) ++ wiredEnds.map (bundleSource 0x20) ++ (List.range 64).flatMap (fun n => ((List.range 8).map (· + 1)).map (srcId 1 n))
    ++ (List.range 24).map (fun e => srcId 2 e 0x0C) ++ (List.range 64).flatMap (fun n => [0, 1, 2, 4].map (srcId 3 n))
    ++ (List.range 4).map (fun p => srcId 4 p 0) ++ (List.range 2).map (fun k => srcId 8 k 0)

/-- The valid temperature sensors of the dies that are there. -/
def validSensors (s : State) : Nat :=
  let good (l : List Bool) : Nat := (l.filter (fun b => !b)).length
  good s.th.hubBroken + total (s.engines.map (fun e => good e.sensorBroken))
    + total (((List.range 64).filter (fun n => (tileAt s n).state != .isolated)).map (fun n => good (treatedBroken (tileAt s n).thermal.broken)))

/-- The checks that a full test makes, in the units of R506, of the resources that are in service (log 69). -/
def fullChecks (s : State) : Nat :=
  let tested := (List.range 64).filter (fun n => (tileAt s n).state == .compute || (tileAt s n).state == .spare)
  let rings (p : OeRingRec → Bool) (k : Nat) : Nat := total (s.engines.map (fun x => ((x.rings.drop k).filter p).length))
  total (tested.map (fun n => 64 * (liveCells (tileAt s n)).length + 1))
    + (wiredEnds.filter (bundleLive s)).length / 2
    + (injectableSources.filter (fun k => !sourceGone s k)).length
    + ((List.range 64).filter (siteMapped s)).length
    + rings (fun r => r.state == .locked) 0 + rings (fun r => r.state == .locked && r.slot == 0x3E) 36
    + (8 - s.flt.coresRetired.length) + 2 + validSensors s

/-! ## LOG_READ (R340, R523) -/

/-- Committed records of the active log: those in its flash and those being programmed; none when both flashes have failed (R522, R527). -/
def committed (s : State) : List LogRec :=
  if bothFailed s then []
  else
    let f := flashAt s s.log.active
    f.ring ++ f.queue.filterMap (fun op => match op with | .log r => some r | _ => none)

/-- Oldest and newest record numbers; of a log without records, the number of the next commit and one less. -/
def logEnds (s : State) (l : List LogRec) : Nat × Nat :=
  ((l.head?.map (·.number)).getD s.log.next, (l.getLast?.map (·.number)).getD ((s.log.next + 2 ^ 64 - 1) % 2 ^ 64))

/-- LOG_READ: committed records from a number on, from flash or from the retained ring (R340). -/
def execLogRead (cid : Nat) (s : State) : Host.Outcome State Fault Refusal :=
  .next (s.command cid 0x70 (fun c t0 =>
    let t := if bit 1 (c.arg 0x14 1) then t0.commitOpen else t0
    let l := if bit 0 (c.arg 0x14 1) then t.ret.ring else committed t
    let ends := logEnds t l
    let need := 32 * c.arg 0x10 4
    let fields (n : Nat) : List (Nat × Nat × Nat) := [(0x14, 4, n), (0x18, 8, ends.1), (0x20, 8, ends.2), (0x28, 4, need)]
    if c.arg 0x20 4 < need then t.finishCmd cid .tooLarge (fields 0)
    else
      let out := (l.filter (fun r => decide (c.arg 8 8 ≤ r.number))).take (c.arg 0x10 4)
      t.finishWrites cid .ok (fields out.length) (if out.isEmpty then [] else [(c.arg 0x18 8, out.flatMap LogRec.bytes)])))

/-! ## Settings (R341–R343) -/

/-- The stored bytes of a slot: the image's own length when its header is sound; nothing when the slot is empty or unreadable. -/
def slotBytes (s : State) (f k : Nat) : List Byte :=
  let m := (flashAt s f).slots.getD k []
  if (flashAt s f).failed then [] else if checkImage s.sec.ownerKey m = .empty then [] else if headerOk m then imageBytes m else m

/-- The bytes a SETTINGS_READ names: the image in force, or a slot. -/
def settingsBytes (s : State) (source : Nat) : List Byte :=
  if source = 0 then (match s.settings with | some x => x.bytes | none => []) else slotBytes s ((source - 1) / 2) ((source - 1) % 2)

/-- SETTINGS_READ: an image as stored, and whether it verifies (R341). -/
def execSettingsRead (cid : Nat) (s : State) : Host.Outcome State Fault Refusal :=
  .next (s.command cid 0x71 (fun c t =>
    let src := c.arg 8 1
    let m := settingsBytes t src
    let ok := if src = 0 then t.settings.isSome else checkImage t.sec.ownerKey m == .ok
    let signer := if m.isEmpty then 0xFF else if field 0x10 1 m ≤ 1 then field 0x10 1 m else 0xFF
    let fields : List (Nat × Nat × Nat) := [(0x14, 4, m.length), (0x18, 4, field 0xC 4 m), (0x1C, 1, bnat ok), (0x1D, 1, signer)]
    if c.arg 0x18 4 < m.length then t.finishCmd cid .tooLarge [(0x14, 4, m.length)]
    else t.finishWrites cid .ok fields (if m.isEmpty then [] else [(c.arg 0x10 8, m)])))

/-- Versions of stored slots whose signature verifies (R342 step 4). -/
def signedVersions (s : State) : List Nat :=
  ([0, 1].flatMap (fun f => if (flashAt s f).failed then [] else (flashAt s f).slots)).filterMap (fun m =>
    if !m.isEmpty && headerOk m && signatureOk s.sec.ownerKey m then some (field 0xC 4 m) else none)

/-- Whether a new image's version is acceptable (R342 step 4). -/
def versionOk (s : State) (v : Nat) : Bool :=
  match s.settings with
  | some x => decide (x.version < v)
  | none => match greatest (signedVersions s) with | some top => decide (top < v) | none => true

/-- The slot that a new image goes to (R342). -/
def targetSlot (s : State) : Nat :=
  match s.settings with
  | some x => 1 - x.slot
  | none =>
    let m (k : Nat) : List Byte := s.flashA.slots.getD k []
    let bad (k : Nat) : Bool := (m k).isEmpty || !(headerOk (m k) && signatureOk s.sec.ownerKey (m k))
    if bad 0 then 0 else if bad 1 then 1 else if field 0xC 4 (m 1) < field 0xC 4 (m 0) then 1 else 0

/-- SETTINGS_WRITE: TEMP_DEFER and BUSY at acceptance; the image read is checked in the order of R342 and its writing starts; it ends with the flash
operation (R342, R343, R514). -/
def execSettingsWrite (cid : Nat) (image : List Byte) (s : State) : Host.Outcome State Fault Refusal :=
  .next (s.hostCommand cid 0x72
    (fun _ t =>
      if t.log.refused then some (t.finishCmd cid .tempDefer [])
      else if running t cid [0x72] then some (t.finishCmd cid .busy [])
      else none)
    (fun c t =>
    if c.started || image.length != c.arg 0x10 4 then s
    else if image.length < 64 ∨ headerOk image = false ∨ field 8 4 image ≠ image.length then t.finishCmd cid .badDescriptor []
    else if !signatureOk t.sec.ownerKey image then (t.raise (srcId 9 0 4) 0).finishCmd cid .authFailed []
    else if !fieldsOk image || !versionOk t (field 0xC 4 image) then t.finishCmd cid .badDescriptor []
    else if bothFailed t then t.finishCmd cid .noResource []
    else t.enqueueBoth (.settings cid (targetSlot t) image)))

/-! ## ATTEST (R344, R541, R542) -/

/-- The board section in use. -/
def boardInUse (s : State) : Option (List Byte) :=
  if !s.flashA.failed && Config.boardVerifies s.flashA.board then some s.flashA.board
  else if !s.flashB.failed && Config.boardVerifies s.flashB.board then some s.flashB.board else none

/-- Bundles recorded as retired, each once. -/
def retiredBundles (s : State) : Nat :=
  (s.log.held.foldl (fun acc m => match m with
    | .retiredBundle b => if acc.contains b || (match peerEnd b with | some p => acc.contains p | none => false) then acc else b :: acc
    | _ => acc) ([] : List BundleEnd)).length

/-- Cells recorded as retired. -/
def retiredCellCount (s : State) : Nat := (s.log.held.filter (fun m => match m with | .retiredCell _ _ => true | _ => false)).length

/-- aflags of a report. -/
def attestFlags (s : State) : Nat :=
  let force := match s.settings with | some x => x.forceExact | none => false
  bnat s.boot.ready + 2 * bnat s.boot.stopped + 4 * bnat force + 8 * bnat s.flashA.failed + 16 * bnat s.flashB.failed + 32 * bnat (!s.sec.keyOk)
  + 64 * bnat (!s.sec.ownerKey.isEmpty)

/-- The 256 signed bytes of a report (Table 19-5). -/
def reportHead (s : State) (nonce : List Byte) (index : Nat) : List Byte :=
  let x := s.settings
  let digest (l : Option (List Byte)) : List Byte := match l with | some b => padTo 32 (Config.shake256 b) | none => List.replicate 32 0
  leBytes 4 0x54414C51 ++ leBytes 2 1 ++ leBytes 2 256 ++ leBytes 4 10149 ++ leBytes 4 0x6424 ++ leBytes 8 Config.serial.toNat
  ++ leBytes 2 Config.hubStepping.toNat ++ leBytes 2 (ownId s) ++ leBytes 4 Config.fwVersion.toNat ++ padTo 32 nonce
  ++ padTo 32 Config.romDigest ++ digest (x.map (·.bytes)) ++ digest (boardInUse s) ++ digest (some s.sec.signerKey)
  ++ leBytes 4 ((x.map (·.version)).getD 0) ++ leBytes 1 ((x.map (·.signer)).getD 0) ++ leBytes 1 (powerClass s)
  ++ leBytes 1 (computeSites s).length ++ leBytes 1 (healthySpares s).length ++ leBytes 4 s.ret.opTime ++ leBytes 4 (s.ret.cycles % 2 ^ 24)
  ++ leBytes 1 s.boot.lastKind.code ++ leBytes 1 (serviceLevel s) ++ leBytes 1 (attestFlags s) ++ leBytes 1 0 ++ leBytes 8 index
  ++ leBytes 2 (retiredCellCount s) ++ leBytes 2 (retiredBundles s) ++ List.replicate 32 0

/-- Report and certificate: 13,097 B (R542). -/
def attestBytes (s : State) (nonce : List Byte) (index : Nat) : List Byte :=
  let head := reportHead s nonce index
  head ++ padTo 9893 (Config.xmssSign index head) ++ padTo 2948 Config.deviceCert

/-- One index of the batch is used; at 256 left the next batch is reserved (R539, R540). -/
def State.takeIndex (s : State) : State :=
  let s1 : State := { s with sec := { s.sec with nextIndex := s.sec.nextIndex + 1, batchLeft := s.sec.batchLeft - 1 } }
  if s1.sec.batchLeft = 256 then s1.reserveBatch else s1

/-- ATTEST: a signed report and the device certificate (R344, R541, R542); it waits while its next batch is being written. -/
def execAttest (cid : Nat) (s : State) : Host.Outcome State Fault Refusal :=
  .next (s.command cid 0x73 (fun c t =>
    if c.arg 0x30 4 < 13097 then t.finishCmd cid .tooLarge [(0x14, 4, 13097)]
    else if !t.sec.cryptoOk then t.failCmd cid .internal (srcId 9 0 7)
    else if t.sec.batchLeft = 0 then
      if bothFailed t then t.finishCmd cid .noResource []
      else if t.log.refused then t.finishCmd cid .tempDefer []
      else t
    else
      let i := t.sec.nextIndex
      t.takeIndex.finishWrites cid .ok [(0x14, 4, 13097), (0x18, 8, i)] [(c.arg 0x28 8, attestBytes t (slice 8 32 c.desc) i)]))

/-! ## RESTART and SHUTDOWN (R345–R350) -/

/-- Whether another command is in flight ahead of one (R348). -/
def othersInFlight (s : State) (cid : Nat) : Bool := (ahead cid s.host.cmds).any (fun c => c.seq.isSome)

/-- Whether a settings image or an index reservation is being written (R349). -/
def flashWriting (s : State) : Bool :=
  (s.flashA.queue ++ s.flashB.queue).any (fun op => op.rank == 0 || op.rank == 3)

/-- Whether R347 defers a RESTART: down by heat, and a sensor still at or above the throttle start. -/
def tooHot (s : State) : Bool :=
  s.boot.hot && (match hottestAll s with | some v => decide ((4 * s.th.throttleStart : Nat) ≤ v) | none => false)

/-- The steps of SHUTDOWN (R346): the log record, the lasers, GDDR7, the dies; ready clears and fw_up stays. -/
def State.shutDown (data : Nat) (s : State) : State :=
  let s1 := ((((s.logEvent 0x0012 0xFFFF 0 false (BitVec.ofNat 64 data)).commitOpen).lasersOff).loseLocal).holdDies
  { s1 with boot := { s1.boot with ready := false, down := true }, pins := { s1.pins with readyOut := false }, runs := [], launches := [] }

/-- What FORCE does first (R350): no other descriptor is fetched, every command in flight ends with RETRY_LATER, sessions and models are freed as
at a module reset (R232). -/
def State.force (cid : Nat) (s : State) : State :=
  let s1 : State := { s with host := { s.host with forcing := some cid, cmds := s.host.cmds.map (fun c =>
    if c.cid = cid then c else endOf s .retryLater 0 c) } }
  let freed := s1.sessions.foldl (fun t (x : Session) => t.dropSession x.index) s1
  let out : State := { freed with
    models := freed.models.map (fun m => { Model.reset with gen := if m.state = .empty then m.gen else m.gen + 1 }), migs := [],
    runs := [], launches := [], cel := { freed.cel with units := [], blocks := [], moves := [] } }
  out.releaseOrphans

/-- RESTART and SHUTDOWN without FORCE: refused at acceptance while a session is open or other work is in flight, waiting while flash is written (R348, R349). -/
def State.powerCommand (s : State) (cid op : Nat) (act : State → State) : State :=
  match cmdAt s cid with
  | some c => if c.flag 0 then s else s.command cid op (fun c t =>
      if !c.started && (!t.sessions.isEmpty || othersInFlight t cid) then t.finishCmd cid .busy []
      else if op = 0x7E ∧ tooHot t = true then t.finishCmd cid .tempDefer []
      else if flashWriting t then t
      else (act t).finishCmd cid .ok [])
  | none => s

/-- RESTART and SHUTDOWN with FORCE (R350, R349). -/
def State.forceCommand (s : State) (cid op : Nat) (act : State → State) : State :=
  match cmdAt s cid with
  | some c => if !c.flag 0 then s else
      if c.opcode ≠ op ∨ c.seq.isNone ∨ c.done.isSome then s
      else if op = 0x7E ∧ tooHot s = true then (s.startCmd cid).finishCmd cid .tempDefer []
      else if flashWriting s then { s with host := { s.host with forcing := some cid } }
      else (act ((s.startCmd cid).force cid)).finishCmd cid .ok []
  | none => s

/-- RESTART: the open record is committed (R519); the completion is posted, then the module reset starts (R345). -/
def execRestart (cid : Nat) (s : State) : Host.Outcome State Fault Refusal := .next (s.powerCommand cid 0x7E State.commitOpen)

/-- RESTART with FORCE (R350). -/
def execRestartForce (cid : Nat) (s : State) : Host.Outcome State Fault Refusal := .next (s.forceCommand cid 0x7E State.commitOpen)

/-- SHUTDOWN (R346). -/
def execShutdown (cid : Nat) (s : State) : Host.Outcome State Fault Refusal := .next (s.powerCommand cid 0x7F (State.shutDown 0))

/-- SHUTDOWN with FORCE (R350). -/
def execShutdownForce (cid : Nat) (s : State) : Host.Outcome State Fault Refusal := .next (s.forceCommand cid 0x7F (State.shutDown 0))

end Sys2Proof.Machine
end

