-- ==== Sys2Proof/Machine/Links.lean ====
section
/-! DEFINITION. The link layer of bundles and optical links: sequence, acknowledgement, credits, NAK and replay (R433–R442), and the inline check
of a bundle (R367–R370). A flit that arrives at one end of a panel bundle shows that the other end, which is on the panel too, has sent it. -/
namespace Sys2Proof.Machine

/-! ## Credits (R434, R435) -/

/-- Whether a link is optical. -/
def isOptical : LinkRef → Bool
  | .optical _ => true
  | .bundle _ => false

/-- Receive buffer of a virtual channel in flits (Table 15-3). -/
def vcBuffer (optical : Bool) (vc : Nat) : Nat := if optical then [64, 16, 16, 1024, 4608, 4608, 64, 64].getD vc 0 else 16

/-- Whether a link carries flits. -/
def linkLive (s : State) : LinkRef → Bool
  | .bundle b => bundleLive s b
  | .optical e => (engineAt s e).state == .up

/-- The other end of a panel bundle; nothing for an optical link, whose partner is another module. -/
def farEnd : LinkRef → Option LinkRef
  | .bundle b => (peerEnd b).map .bundle
  | .optical _ => none

/-- A list with one entry raised modulo 65,536. -/
def bumpCount (l : List Nat) (k n : Nat) : List Nat := modAt l k (fun v => (v + n) % 65536)

/-! ## Held flits (R438, R440) -/

/-- Whether a flit ends a message. -/
def lastFlit (f : List Byte) : Bool := flitFraming f == 2 || flitFraming f == 3

/-- What stays held of flits that are acknowledged: those whose message's last flit is not among them (R440). -/
def uncovered : List (Nat × Nat × List Byte) → List (Nat × Nat × List Byte)
  | [] => []
  | h :: t =>
    if lastFlit h.2.2 || t.any (fun x => flitVc x.2.2 == flitVc h.2.2 && lastFlit x.2.2) then uncovered t else h :: uncovered t

/-- An acknowledgement of every flit up to a sequence; one that names no flit held is ignored. The replay counter returns to zero when the oldest flit
not yet acknowledged is (R438, R440). -/
def LinkEnd.ack (seq : Nat) (l : LinkEnd) : LinkEnd :=
  if l.held.any (fun h => h.1 == seq) then
    let n := l.held.findIdx (fun h => h.1 == seq) + 1
    let step := (seq + 16384 - l.acked) % 16384
    let fresh := decide (0 < step ∧ step < 8192)
    { l with held := uncovered (l.held.take n) ++ l.held.drop n, acked := if fresh then seq else l.acked,
             replayCounter := if fresh then 0 else l.replayCounter }
  else l

/-- A replay from a sequence is due; a retransmission of the oldest held flit is counted (R440). -/
def LinkEnd.replay (seq : Nat) (l : LinkEnd) : LinkEnd :=
  match l.held with
  | [] => l
  | h :: _ => { l with replayFrom := some seq, replayCounter := l.replayCounter + bnat (h.1 == seq) }

/-- The held flits that are still to be sent again: those from the sequence of the replay onward. -/
def LinkEnd.replays (l : LinkEnd) : List (Nat × Nat × List Byte) :=
  match l.replayFrom with
  | some q => l.held.dropWhile (fun (h : Nat × Nat × List Byte) => decide (8192 ≤ (h.1 + 16384 - q) % 16384))
  | none => []

/-- A LINK flit of this end has left: what it reports is reported. -/
def LinkEnd.reported (l : LinkEnd) : LinkEnd := { l with linkDue := false, nakDue := false, ackPending := 0, rxReported := l.rxReleased }

/-- Whether a LINK flit is due at once for unreported releases or unacknowledged flits (R436). -/
def LinkEnd.due (optical : Bool) (l : LinkEnd) : Bool :=
  decide (32 ≤ l.ackPending)
  || (List.range 8).any (fun v => decide (vcBuffer optical v ≤ 4 * ((l.rxReleased.getD v 0 + 65536 - l.rxReported.getD v 0) % 65536)))

/-! ## The order of flits (R433, R435, R437, R441) -/

/-- The acknowledgement that a flit carries now. -/
def LinkEnd.ackSeq (l : LinkEnd) : Nat := (l.rxExpected + 16383) % 16384

/-- A LINK flit (Tables 15-2, 15-4). -/
def LinkEnd.linkFlit (l : LinkEnd) : List Byte :=
  let nak := if l.nakDue then 32768 + l.rxExpected else 0
  let pay := leBytes 2 nak ++ leBytes 2 0 ++ (List.range 8).flatMap (fun v => leBytes 2 (l.rxReleased.getD v 0))
  sealFlit l.ackSeq 0x8000 (leBytes 4 (flitHeader 0 2 0 0 0) ++ padTo 120 pay ++ List.replicate 4 0)

/-- The three flits of a frame at degraded width: a position for which no flit is ready carries a LINK flit (R432). -/
def LinkEnd.degradedFrame (ready : List (List Byte)) (l : LinkEnd) : List (List Byte) := (ready ++ List.replicate 3 l.linkFlit).take 3

/-- Channels in the order in which they may send: VC0, VC6, VC1–VC5 from the one after the last served, VC7 (R437). -/
def vcOrder (last : Nat) : List Nat := [0, 6] ++ (List.range 5).map (fun k => (last + k) % 5 + 1) ++ [7]

/-- Flits of the message at the head of a channel's queue. -/
def headLength (vc : Nat) (q : List (Nat × List Byte)) : Nat :=
  let l := (q.filter (fun p => p.1 == vc)).map (·.2)
  (l.takeWhile (fun f => !lastFlit f)).length + 1

/-- Flits that a sender may hold (Table 15-5). -/
def heldLimit (optical : Bool) : Nat := if optical then 4096 else 64

/-- Whether a sender has credit on a channel (R435). -/
def LinkEnd.credit (optical : Bool) (vc : Nat) (l : LinkEnd) : Bool :=
  decide ((l.sent.getD vc 0 + 65536 - l.released.getD vc 0) % 65536 < vcBuffer optical vc)

/-- Whether a channel may send its next flit: credit, room among the held flits for the whole message (R435, R441). -/
def LinkEnd.maySend (optical : Bool) (vc : Nat) (l : LinkEnd) : Bool :=
  match l.txQueue.find? (fun p => p.1 == vc) with
  | none => false
  | some p =>
    l.credit optical vc && decide (l.held.length + (if midMessage p then 1 else headLength vc l.txQueue) ≤ heldLimit optical)

/-- The list without its first flit of a channel. -/
def dropFirst (vc : Nat) : List (Nat × List Byte) → List (Nat × List Byte)
  | [] => []
  | p :: t => if p.1 = vc then t else p :: dropFirst vc t

/-- A new flit of a channel has been sent: numbered, held and counted against credit (R435, R438, R440). -/
def LinkEnd.noteSent (vc : Nat) (f : List Byte) (l : LinkEnd) : LinkEnd :=
  { l with txSeq := (l.txSeq + 1) % 16384, held := l.held ++ [(l.txSeq, 0, f)], sent := bumpCount l.sent vc 1, ackPending := 0, replayFrom := none,
           lastVc := if 1 ≤ vc ∧ vc ≤ 5 then vc else l.lastVc }

/-- The next new flit, where one may be sent: of the first channel in order that may send (R437). -/
def LinkEnd.newFlit (optical : Bool) (l : LinkEnd) : Option (List Byte × LinkEnd) :=
  ((vcOrder l.lastVc).find? (fun v => l.maySend optical v)).bind (fun v => (l.txQueue.find? (fun p => p.1 == v)).map (fun p =>
    let f := sealFlit l.ackSeq l.txSeq p.2
    (f, ({ l with txQueue := dropFirst v l.txQueue } : LinkEnd).noteSent v f)))

/-- Whether the sender of a panel bundle lets a new flit of a channel go: no LINK flit and no replay is due, the channel has credit and is first in order, and
at most 64 flits are held with it, or with the whole message that it begins (R370, R435, R437, R441). -/
def LinkEnd.sends (vc : Nat) (l : LinkEnd) : Bool :=
  let more := match l.txQueue.find? (fun p => p.1 == vc) with | some p => if midMessage p then 1 else headLength vc l.txQueue | none => 1
  !l.linkDue && l.replays.isEmpty && l.credit false vc && decide (l.held.length + more ≤ heldLimit false)
  && (vcOrder l.lastVc).find? (fun v => v == vc || l.maySend false v) == some vc

/-! ## Bundles that go out of service (R366, R510) -/

/-- Whether the checker of either direction of a bundle is under injection. -/
def bundleInjected (s : State) (b : BundleEnd) : Bool :=
  s.flt.injecting (bundleSource 0x20 b) || (match peerEnd b with | some p => s.flt.injecting (bundleSource 0x20 p) | none => false)

/-- A bundle that an injected fault would retire goes out of service for the time being: routes change, nothing is recorded (R510). -/
def State.bundleOut (b : BundleEnd) (s : State) : State :=
  if !bundleInjected s b then s.retireBundle b
  else
    let both := match peerEnd b with | some p => [b, p] | none => [b]
    let s1 := both.foldl (fun t x => t.modBundle x (fun d => { d with state := .down, tempRetired := true, checking := true })) s
    (both.foldl (fun t x => t.handOver x) s1).retable

/-- What a replay counter brings about (Table 15-5): at 16 an inline check of the direction, or the optical link goes down; at 32 the bundle is
retired. -/
def State.replayLimit (link : LinkRef) (s : State) : State :=
  let n := (linkAt s link).replayCounter
  match link with
  | .optical e =>
    let s1 := s.modEngine e (fun x => { x with maxReplays := Nat.max x.maxReplays (Nat.min n 16) })
    if n = 16 then s1.linkDown e else s1
  | .bundle b => match peerEnd b with
    | none => s
    | some p => if n = 16 then s.startInline p else if n = 32 then s.bundleOut p else s

/-! ## Flits that arrive (R431, R433, R435–R439) -/

/-- A live change of the receive direction is under way: no failed flit is counted (R446). -/
def changing (s : State) : LinkRef → Bool
  | .optical e => (engineAt s e).rx.change.isSome
  | .bundle _ => false

/-- A live change of the transmit direction is under way: no replay is counted, and none starts (R446, R447). -/
def holding (s : State) : LinkRef → Bool
  | .optical e => (engineAt s e).tx.change.isSome
  | .bundle _ => false

/-- A NAK for the sequence expected is due. -/
def LinkEnd.nak (l : LinkEnd) : LinkEnd := { l with nakOutstanding := true, nakDue := true, linkDue := true }

/-- A failed flit is counted and reported where no NAK is outstanding; the flit is discarded. During a live change it is not counted, and its NAK is held
until the change ends (R391, R439, R446, R447, R456). -/
def State.flitFailed (link : LinkRef) (slot : Nat) (s : State) : State :=
  if (linkAt s link).nakOutstanding then s
  else if changing s link then s.modLink link (fun l => { l with nakOutstanding := true })
  else
    let s1 := s.modLink link LinkEnd.nak
    match link with
    | .optical e => (s1.modEngine e (fun x => { x with slotFailed := x.slotFailed ++ [slot] })).raise (srcId 2 e 0x0C) slot
    | .bundle b =>
      let s2 := (s1.modBundle b (fun d => { d with crcFailures := satAdd d.crcFailures 1 255, recentFails := d.recentFails + 1 })).raise
        (bundleSource 0x20 b) 0
      if 4 ≤ (bundleAt s2 b).recentFails then s2.startInline b else s2

/-- A PROTOCOL event on an optical link takes it down (R442); a panel bundle has no such checker and discards the flit. -/
def State.protocol (link : LinkRef) (s : State) : State :=
  match link with
  | .optical e => (s.raise (srcId 2 e 0x0F) 0).linkDown e
  | .bundle _ => s

/-- Whether the CRC of the flits that arrive over a link is inverted by injection (R339, R508). -/
def crcInverted (s : State) : LinkRef → Bool
  | .optical e => s.flt.injecting (srcId 2 e 0x0C)
  | .bundle b => s.flt.injecting (bundleSource 0x20 b)

/-- The bytes of the message that a channel has received so far. -/
def partSoFar (l : LinkEnd) (vc : Nat) : Option (List Byte) := lookupKey vc l.rxMessage

/-- A DATA flit accepted in order: the expected sequence advances, an outstanding NAK clears, its acknowledgement acts, and its payload joins the
message of its channel. A bundle port frees each flit's place at once; an optical link holds a message's flits until its last (R435, R438, R439). -/
def LinkEnd.accept (optical : Bool) (f : List Byte) (l : LinkEnd) : LinkEnd :=
  let vc := flitVc f
  let part := (flitPayload f).take (flitLen f)
  let start := flitFraming f == 1 || flitFraming f == 3
  let msg := if start then part else (partSoFar l vc).getD [] ++ part
  let l1 := (l.ack (flitAck f))
  let heldNow := l1.rxHeld.getD vc 0 + 1
  let l2 := { l1 with rxExpected := (l1.rxExpected + 1) % 16384, nakOutstanding := false, nakDue := false, ackPending := l1.ackPending + 1,
                      rxMessage := if lastFlit f then without (fun p => p.1 == vc) l1.rxMessage else setKey vc msg l1.rxMessage,
                      delivered := if lastFlit f && optical then l1.delivered ++ [(vc, msg)] else l1.delivered }
  let l3 := if optical && !lastFlit f then { l2 with rxHeld := setAt l2.rxHeld vc heldNow }
            else { l2 with rxHeld := setAt l2.rxHeld vc 0, rxReleased := bumpCount l2.rxReleased vc (if optical then heldNow else 1) }
  if l3.due optical then { l3 with linkDue := true } else l3

/-- The sender's end of a panel bundle once a flit of it has arrived with a sequence: a new one is sent, held, and carries its acknowledgement; a replay
only carries that (R435, R438, R440). -/
def LinkEnd.sentFlit (seq : Nat) (f : List Byte) (l : LinkEnd) : LinkEnd :=
  if seq = l.txSeq then
    let own := (l.txQueue.find? (fun p => p.1 == flitVc f)).any (fun q => flitPayload q.2 == flitPayload f)
    ({ l with txQueue := if own then dropFirst (flitVc f) l.txQueue else l.txQueue } : LinkEnd).noteSent (flitVc f) f
  else { l with ackPending := 0 }

/-- The sender's end of a panel bundle once a new flit of it has failed on the way: it is sent and held all the same (R440). -/
def LinkEnd.lostFlit (seq : Nat) (l : LinkEnd) : LinkEnd := if seq = l.txSeq then ((l.newFlit false).map (·.2)).getD l else l

/-- A change of the far end of a panel bundle. -/
def State.modFar (link : LinkRef) (f : LinkEnd → LinkEnd) (s : State) : State :=
  match farEnd link with
  | some p => s.modLink p f
  | none => s

/-- A flit other than filler ends the freeze of an idle direction (R423). -/
def State.unfreeze (link : LinkRef) (s : State) : State :=
  match link with
  | .optical e => s.modEngine e (fun x => { x with rx := { x.rx with frozen := false } })
  | .bundle _ => s

/-- A flit taken from those that frames brought in (R418). -/
def State.takeFlit (link : LinkRef) (f : List Byte) (s : State) : State :=
  match link with
  | .optical e => s.modEngine e (fun x => { x with rxFlits := match x.rxFlits with
      | (k, g) :: t => if g = f then t else (k, g) :: t
      | [] => [] })
  | .bundle _ => s

/-- The message that a last flit completes. -/
def LinkEnd.whole (f : List Byte) (l : LinkEnd) : List Byte :=
  let part := (flitPayload f).take (flitLen f)
  if flitFraming f == 3 then part else (partSoFar l (flitVc f)).getD [] ++ part

/-- Where a message that no flight names is going, by its header: a unit of this module, or the engine for another. -/
def headerDst (s : State) (m : List Byte) : Option Station :=
  if !messageOk m then none
  else if msgDst m = ownId s then some (unitStation (field 8 1 m))
  else (routeFor s (msgDst m) (field 9 1 m) (msgVc (msgOp m))).map Station.engine

/-- A message that has reached a station over a bundle goes on over the mesh (R35, R36); one for which no bundle is left is issued again, to the engine
that its route names by then (R26, R41, R370), and one that no header places stays with the unit it has
reached. -/
def State.forward (here : Station) (vc : Nat) (m : List Byte) (s : State) : State :=
  match s.trans.flights.find? (fun f => f.message == m && !f.home) with
  | some f => ((s.endFlight f).hop f here).retry.dropTables
  | none => match headerDst s m with
    | some d => s.hop { src := unitStation (field 9 1 m), dst := d, vc, table := s.trans.meshTable, home := false, message := m } here
    | none => { s with trans := { s.trans with arrived := s.trans.arrived ++ [(here.code, m)] } }

/-- A message that an engine has received for a unit of this module enters the mesh at the engine's tile, where a path leads to the unit (R38). -/
def State.enterFrom (e : Nat) (m : List Byte) (s : State) : State :=
  let d := unitStation (field 8 1 m)
  if messageOk m && msgDst m == ownId s && ((tableAt s s.trans.meshTable).bind (fun t => t.path (.engine e) d)).isSome then
    (s.modEngine e (fun x => { x with link := { x.link with delivered := x.link.delivered.dropLast } })).enter (.engine e) d (msgVc (msgOp m)) m
  else s

/-- What the last flit of a message brings about: over a bundle the message goes on, off the fibre it enters the mesh, where its channel is that of its operation
(R451). -/
def State.passOn (link : LinkRef) (vc : Nat) (m : List Byte) (s : State) : State :=
  match link with
  | .bundle b => s.forward (endStation b) vc m
  | .optical e => if vc = msgVc (msgOp m) then s.enterFrom e m else s

/-- Whether the sender of a panel bundle holds a flit back: any during an inline check, a replay while a LINK flit is due, a new one also by its order, its
credit or the held flits (R367, R437, R441). -/
def heldBack (s : State) (link : LinkRef) (flit : List Byte) : Bool :=
  match link, farEnd link with
  | .bundle b, some p =>
    let seq := (linkAt s link).rxExpected
    (bundleAt s b).checking
    || (flitOk flit seq && (if (linkAt s p).txSeq = seq then !(linkAt s p).sends (flitVc flit) else (linkAt s p).linkDue))
  | _, _ => false

/-- DATA_FLIT_RECEIVE: accepted when its CRC passes with the sequence expected, else discarded with a NAK (R431, R435, R439). -/
def execDataFlitReceive (link : LinkRef) (slot : Nat) (flit : List Byte) (s0 : State) : Host.Outcome State Fault Refusal :=
  let s := s0.takeFlit link flit
  let l := linkAt s link
  if !linkLive s link || heldBack s link flit then .next s0
  else if !(flitOk flit l.rxExpected && flitKind flit == 1) || crcInverted s link then
    .next ((if l.nakOutstanding then s else s.modFar link (LinkEnd.lostFlit l.rxExpected)).flitFailed link slot)
  else
    let vc := flitVc flit
    let room := decide (l.rxHeld.getD vc 0 < vcBuffer (isOptical link) vc)
    let long := decide (4200 < ((partSoFar l vc).getD []).length + flitLen flit) && flitFraming flit != 1 && flitFraming flit != 3
    if !room || (isOptical link && long) then .next (s.protocol link)
    else
      let t := ((s.modLink link (LinkEnd.accept (isOptical link) flit)).modFar link (LinkEnd.sentFlit l.rxExpected flit)).unfreeze link
      .next (if lastFlit flit then t.passOn link vc (l.whole flit) else t)

/-- Fields of a LINK flit's payload (Table 15-4). -/
def linkNak (f : List Byte) : Option Nat := let v := field 4 2 f; if bit 15 v then some (v % 16384) else none
/-- Cumulative releases, VC0 first. -/
def linkReleases (f : List Byte) : List Nat := (List.range 8).map (fun v => field (8 + 2 * v) 2 f)

/-- A replay on a bundle is an event of its receiving end (Table 12-5). -/
def State.replayEvent (link : LinkRef) (s : State) : State :=
  match farEnd link with
  | some (.bundle p) => s.raise (bundleSource 0x20 p) 0
  | _ => s

/-- A NAK acts: earlier flits are acknowledged and the rest sent again, once no live change holds it back (R440, R447). -/
def State.takeNak (link : LinkRef) (n : Nat) (s : State) : State :=
  let s1 := s.modLink link (LinkEnd.ack ((n + 16383) % 16384))
  if holding s link then s1.modLink link (fun l => if l.held.isEmpty then l else { l with replayFrom := some n })
  else ((s1.modLink link (LinkEnd.replay n)).replayEvent link).replayLimit link

/-- LINK_FLIT_RECEIVE: releases and acknowledgement are taken; a NAK starts a replay (R435, R436, R439, R440). -/
def execLinkFlitReceive (link : LinkRef) (slot : Nat) (flit : List Byte) (s0 : State) : Host.Outcome State Fault Refusal :=
  let s := s0.takeFlit link flit
  if !linkLive s link then .next s0
  else if !(flitOk flit 0x8000 && flitKind flit == 2) || crcInverted s link then .next (s.flitFailed link slot)
  else
    let s1 := ((s.modLink link (fun l => (l.ack (flitAck flit)))).modLink link (fun l => { l with released := linkReleases flit })).unfreeze link
    let s2 := s1.modFar link LinkEnd.reported
    match linkNak flit with
    | some n => .next (s2.takeNak link n)
    | none => .next s2

/-- FILLER_FLIT_RECEIVE: checked and discarded; only optical links carry filler (R433). -/
def execFillerFlitReceive (link : LinkRef) (slot : Nat) (flit : List Byte) (s0 : State) : Host.Outcome State Fault Refusal :=
  let s := s0.takeFlit link flit
  if !linkLive s link || !isOptical link then .next s0
  else if flitOk flit 0x8000 && flitKind flit == 0 && !crcInverted s link then .next s
  else .next (s.flitFailed link slot)

/-- LINK_FLIT_TIMER: 200 ns after an unreported release or an unacknowledged flit a LINK flit is sent (R436). -/
def execLinkFlitTimer (link : LinkRef) (s : State) : Host.Outcome State Fault Refusal :=
  let l := linkAt s link
  if linkLive s link && (decide (0 < l.ackPending) || decide (l.rxReleased ≠ l.rxReported)) then
    .next (s.modLink link (fun l => { l with linkDue := true }))
  else .next s

/-- Every held flit is older by some time, in units of 64/3 ns (R444). -/
def LinkEnd.older (n : Nat) (l : LinkEnd) : LinkEnd := { l with held := l.held.map (fun h => (h.1, h.2.1 + n, h.2.2)) }

/-- Ages of held flits once the oldest has reached an age in µs: what the frames sent since have not yet counted is added. -/
def LinkEnd.aged (age : Nat) (l : LinkEnd) : LinkEnd :=
  match l.held with
  | [] => l
  | (_, a, _) :: _ => l.older (age * 375 / 8 - a)

/-- REPLAY_TIMER_EXPIRY: no acknowledgement has advanced within the timer; every held flit is sent again from the oldest, whose age is given
(R440, R447). -/
def execReplayTimerExpiry (link : LinkRef) (age : Nat) (s : State) : Host.Outcome State Fault Refusal :=
  if !linkLive s link || holding s link then .next s
  else match (linkAt s link).held.head? with
    | none => .next s
    | some h => .next (((s.modLink link (fun l => (l.aged age).replay h.1)).replayEvent link).replayLimit link)

/-- NAK_RESEND: a NAK that has not cleared within one replay timer is sent again, uncounted (R439, R447). -/
def execNakResend (link : LinkRef) (s : State) : Host.Outcome State Fault Refusal :=
  if linkLive s link && (linkAt s link).nakOutstanding && !changing s link then
    .next (s.modLink link (fun l => { l with nakDue := true, linkDue := true }))
  else .next s

/-! ## The wires of a bundle (R367–R370) -/

/-- WIRE_FILLER_ERROR: an error on an idle data wire, on a spare that stands in for one, or on an unused spare starts an inline check (R355, R367). -/
def execWireFillerError (at_ : BundleEnd) (wire : Nat) (s : State) : Host.Outcome State Fault Refusal :=
  let d := bundleAt s at_
  let idle := if wire < 64 then d.dropped != some (wire / 16) && !d.failed.contains wire
              else wire < 68 && (d.spares.getD (wire - 64) .free) != .valid && !d.failed.contains wire
  if d.live && idle then .next (s.startInline at_) else .next s

/-- PHASE_TRACK: each wire's sample phase moves by at most 1/32 UI (R368). -/
def execPhaseTrack (at_ : BundleEnd) (moves : List (Nat × Bool)) (s : State) : Host.Outcome State Fault Refusal :=
  if (bundleAt s at_).live then
    .next (s.modBundle at_ (fun d => { d with phase := moves.foldl (fun l m =>
      if m.1 < 70 then setKey m.1 ((lookupKey m.1 l).getD 0 + (if m.2 then 1 else -1)) l else l) d.phase }))
  else .next s

/-- Wires that need more than ±8/32 UI from their trained phase (R368). -/
def strayed (d : BundleDir) : List Nat := (d.phase.filter (fun p => decide (8 < p.2) || decide (p.2 < -8))).map (·.1)

/-- A bundle whose temporary state ends: both directions work again (R510). -/
def State.bundleBack (b : BundleEnd) (s : State) : State :=
  let both := match peerEnd b with | some p => [b, p] | none => [b]
  let s1 := both.foldl (fun t x => t.modBundle x (fun d =>
    if d.tempRetired then { d with tempRetired := false, checking := false, state := if d.dropped.isSome then .degraded else .full,
                                   link := { LinkEnd.reset with txQueue := d.link.txQueue } } else d)) s
  s1.retable

/-- INLINE_CHECK_DONE: the wires found failed take spares or a group is dropped, or the bundle is retired; the sender receives the map block, and
unacknowledged flits are replayed (R360, R362–R370); what an injected fault leads to is not recorded (R510). -/
def execInlineCheckDone (at_ : BundleEnd) (failed : List Nat) (s : State) : Host.Outcome State Fault Refusal :=
  let d := bundleAt s at_
  if !d.checking then .next s
  else if d.tempRetired then
    if failed.isEmpty && !bundleInjected s at_ then .next (s.bundleBack at_) else .next s
  else
    let found := (failed ++ strayed d).eraseDups
    let s1 := if bundleInjected s at_ then s else s.recordWires at_ found
    let all := (recordedWires s at_ ++ d.failed ++ found).eraseDups
    let replayed (t : State) : State := t.modFar (.bundle at_) (fun l => match l.held.head? with
      | some h => { l with replayFrom := some h.1 }
      | none => l)
    match chooseMap all d.dropped d.spares with
    | none => .next (s1.bundleOut at_)
    | some m =>
      let s2 := s1.applyMap at_ all m
      let s3 := match peerEnd at_ with
        | some p => s2.noteBlock p (mapBlock at_ false (some (all, m)))
        | none => s2
      .next (replayed (s3.modBundle at_ (fun d => { d with phase := without (fun p => found.contains p.1) d.phase, recentFails := 0 })))

end Sys2Proof.Machine
end

