-- ==== Sys2Proof/Machine/Optics.lean ====
section
/-! DEFINITION. Optical engines: rings, slots, spares, maps and live changes, lasers and their sources (Chapter 13; R394, R396, R417, R446). -/
namespace Sys2Proof.Machine

/-! ## Directions and rings (R377, R379, R410) -/

/-- A change of one direction. -/
def Engine.modDir (side : Nat) (f : Direction → Direction) (x : Engine) : Engine :=
  if side = 0 then { x with tx := f x.tx } else { x with rx := f x.rx }

/-- A change of one direction of an engine. -/
def State.modDir (e side : Nat) (f : Direction → Direction) (s : State) : State := s.modEngine e (Engine.modDir side f)

/-- A change of one ring. -/
def State.modOeRing (e r : Nat) (f : OeRingRec → OeRingRec) (s : State) : State := s.modEngine e (fun x => { x with rings := modAt x.rings r f })

/-- Log data of a wavelength event: side, fibre, λ, slot (R409). -/
def waveData (r slot : Nat) : Nat := r / 36 + 256 * (r % 36 / 18) + 65536 * (r % 18) + 2 ^ 24 * slot

/-- An event of one wavelength; it merges into the fault state of its ring where that is open (R498). -/
def State.raiseWave (e chk r slot : Nat) (s : State) : State :=
  let ring : Resource := .ring (Fin.ofNat 24 e) (Fin.ofNat 72 r)
  s.capture [{ source := srcId 2 e chk, data := BitVec.ofNat 64 (waveData r slot), resource := if (openState s.flt ring).isSome then some ring else none }]

/-- The wavelengths of a side, 18·f + n, whose rings are locked. -/
def lockedLambdas (x : Engine) (side : Nat) : List Nat := (List.range 36).filter (fun w => (waveRing x (36 * side + w)).state == .locked)

/-- The locked wavelengths of a side that pass at the rate in use (R407). -/
def fitLambdas (x : Engine) (side : Nat) : List Nat := (lockedLambdas x side).filter (fun w => !(dirOf x side).unfit.contains w)

/-- The healthy spares of a side (R394). -/
def spareLambdas (x : Engine) (side : Nat) : List Nat := (lockedLambdas x side).filter (fun w => (waveRing x (36 * side + w)).slot == 0x3E)

/-- The spare a slot on a wavelength moves to: the lowest of the same fibre, else the lowest of the other (R394). -/
def spareFor (x : Engine) (side w : Nat) : Option Nat :=
  let l := spareLambdas x side
  (l.find? (fun v => v / 18 == w / 18)).orElse (fun _ => l.head?)

/-- The wavelengths that send frames: those of the map, the spares, and those that a map is to take; all of them during training; λ0 of both fibres at PROBE level
(R402, R411, Table 14-3); one whose link is down still has the word that says so to send (R443). -/
def sendingWaves (x : Engine) : List Nat :=
  match x.state with
  | .up => (List.range 36).filter (fun w => (x.tx.slotRing.take x.tx.width).contains w || (spareLambdas x 0).contains w
      || x.tx.maps.any (fun m => m.2.1 == w))
  | .training => if x.bringUp.step < 3 && x.bringUp.wait.isNone then [0, 18] else List.range 36
  | .portAbsent => [0, 18]
  | _ => []

/-- Frames that pass before the last of n more words is first carried: words go out as many at a time as there are three wavelengths each, for three frames
(R417). -/
def wordDelay (x : Engine) (n : Nat) : Nat := 3 * ((x.txWords.length + n - 1) / Nat.max 1 ((sendingWaves x).length / 3))

/-- The time of one frame at a rate step in the unit of the ages of held flits (R411, R444). -/
def frameUnits (rate : Nat) : Nat := [12, 6, 4, 3].getD rate 3

/-- The counter of the next frame of a direction. -/
def nextFrame (x : Engine) (side : Nat) : Nat := if side = 0 then x.tx.frame else (x.rx.frame + 1) % 65536

/-- The effective frame of n words that are put in the queue now: eight frames of its direction after the frame that first carries the last of them (R417,
R446). -/
def effectiveOf (x : Engine) (side n : Nat) : Nat :=
  let u := frameUnits (dirOf x side).rate
  (nextFrame x side + 8 + (wordDelay x n * frameUnits x.tx.rate + u - 1) / u) % 65536

/-- The widest width that so many wavelengths fill (R380, R396); 0 when not even 8. -/
def widthFor (n : Nat) : Nat := if 32 ≤ n then 32 else if 24 ≤ n then 24 else if 16 ≤ n then 16 else if 8 ≤ n then 8 else 0

/-- Width of a code (Table 13-6). -/
def widthOfCode (k : Nat) : Nat := [32, 24, 16, 8].getD k 32

/-- A service request for wavelengths, raised once (R397). -/
def State.raiseOnce (level cause resource : Nat) (s : State) : State :=
  if s.svc.any (fun q => !q.predicted && q.level == level && q.cause == cause && q.resource == resource) then s
  else s.raiseService level cause resource none false

/-! ## Maps (R379, R394, R425) -/

/-- Rings after a direction has taken a map and a width: each slot's ring carries it, the other locked rings that pass at its rate are spares (R394, R407). -/
def Engine.settleRings (side : Nat) (x : Engine) : Engine :=
  let d := dirOf x side
  let slots := d.slotRing.take d.width
  let f (r : Nat) (q : OeRingRec) : OeRingRec :=
    if r / 36 = side then
      let k := slots.findIdx (· == r % 36)
      { q with slot := if q.state == .retired then 0x3F else if k < slots.length then k else if q.state == .locked && !d.unfit.contains (r % 36) then 0x3E else 0x3F }
    else q
  { x with rings := ((List.range x.rings.length).zip x.rings).map (fun p => f p.1 p.2) }

/-- MAP words of the slots that move. -/
def State.sendMaps (e dir : Nat) (l : List (Nat × Nat × Nat)) (s : State) : State :=
  l.foldl (fun t m => t.sendWord e (mapWord m.1 dir (m.2.1 / 18) (m.2.1 % 18) m.2.2)) s

/-- The wavelengths of a side that have gone dark. -/
def darkCount (x : Engine) (side : Nat) : Nat := ((List.range 36).filter (fun w => (waveRing x (36 * side + w)).state == .dark)).length

/-- How many wavelengths of a side are healthy. -/
def healthyCount (x : Engine) (side : Nat) : Nat := (healthyLambdas x side).length

/-- The healthy wavelengths that pass at the rate in use, those in lock first (R396, R407). -/
def usableLambdas (x : Engine) (side : Nat) : List Nat :=
  fitLambdas x side ++ (healthyLambdas x side).filter (fun w => !(dirOf x side).unfit.contains w && !(fitLambdas x side).contains w)

/-- Whether a side falls short of so many wavelengths for want of light alone: with those that are dark it would have them (R384, R395, R397). -/
def lightAlone (x : Engine) (side n : Nat) : Bool := decide (0 < darkCount x side) && decide (n ≤ (usableLambdas x side).length + darkCount x side)

/-- The slot map of a side at a width: over the wavelengths in lock where they fill it, else over all that are healthy (R393, R396). -/
def remap (x : Engine) (side w : Nat) : List Nat :=
  fillMap (if w ≤ (fitLambdas x side).length then fitLambdas x side else usableLambdas x side) (dirOf x side).slotRing w

/-- The receiver starts a live change of its direction: RATE_WIDTH with its effective frame 8 frames on, and one MAP for each slot that moves; a
second one waits (R446, R447). -/
def State.startChange (e rate width : Nat) (s : State) : State :=
  let d := (engineAt s e).rx
  if d.change.isSome then s.modDir e 1 (fun d => { d with deferred := d.deferred ++ [(rate, width, 0)] })
  else
    let new := remap (engineAt s e) 1 width
    let moves := (List.range width).filter (fun k => new.getD k 0 != d.slotRing.getD k 0)
    let eff := effectiveOf (engineAt s e) 1 (moves.length + 1)
    let moved := moves.map (fun k => (k, new.getD k 0, eff))
    let s1 := s.modDir e 1 (fun d => { d with change := some { rate, width, effective := eff, rateChange := decide (rate ≠ d.rate), switched := false },
                                              maps := moved })
    (s1.sendMaps e 1 moved).sendWord e (rateWord rate (widthCode width) 1 eff)

/-- A direction that its wavelengths no longer fill: its receiver asks for the next width that its healthy wavelengths fill; with fewer than 8 healthy the
engine goes out of service, and where fewer than 8 of them pass at the rate the link is trained again (R396, R397, R407; log 71). -/
def State.narrow (e side : Nat) (s : State) : State :=
  let x := engineAt s e
  let w := widthFor (usableLambdas x side).length
  if healthyCount x side < 8 then s.engineOut e (!decide (8 ≤ healthyCount x side + darkCount x side))
  else if w = 0 then s.linkDown e
  else if side = 1 ∧ w < x.rx.width then s.startChange e x.rx.rate w
  else s

/-- A direction with more than four slots paused is trained again at the width that its locked wavelengths allow, at most its own; while they allow none, each
pause ends on its own (R392, R393; log 71). -/
def State.retrain (e side : Nat) (s : State) : State :=
  let x := engineAt s e
  let w := widthFor (fitLambdas x side).length
  if w = 0 ∨ side = 0 then s else s.startChange e x.rx.rate (Nat.min w x.rx.width)

/-- A direction with fewer than 8 healthy wavelengths takes the engine out of service, whatever state its link is in (R396). -/
def State.checkHealth (e side : Nat) (s : State) : State :=
  let x := engineAt s e
  let n := healthyCount x side
  if n < 8 then s.engineOut e (!decide (8 ≤ n + darkCount x side)) else s

/-- A direction that runs without a healthy spare, or below width 32, asks for replacement, unless it wants only light (R397). -/
def State.runService (e side : Nat) (s : State) : State :=
  let x := engineAt s e
  let d := dirOf x side
  if (decide (d.width < 32) && !lightAlone x side 32) || ((spareLambdas x side).isEmpty && !lightAlone x side (d.width + 1)) then s.raiseOnce 2 4 e
  else s

/-! ## Pausing and resuming (R390–R393) -/

/-- Failures of a slot that pauses, in this bucket and those before, count as one failed flit (R391). -/
def Engine.foldFailures (slot : Nat) (x : Engine) : Engine :=
  if x.slotFailed.contains slot || x.buckets.any (fun b => b.1.contains slot) then
    { x with slotFailed := without (· == slot) x.slotFailed ++ [64 + slot], buckets := x.buckets.map (fun b => (without (· == slot) b.1, b.2)) }
  else x

/-- A slot pauses: this end stops using it, and tells the other when the pause is its own; more than four at once have the direction trained again. One that
pauses during a live change is left out of its map (R391, R393, R447). -/
def State.pauseSlot (e side slot : Nat) (notify : Bool) (s : State) : State :=
  let x := engineAt s e
  let d := dirOf x side
  if x.state ≠ .up ∨ d.width ≤ slot ∨ d.paused.contains slot = true then s
  else
    let r := 36 * side + d.slotRing.getD slot 0
    let s1 := (s.modDir e side (fun d => { d with paused := d.paused ++ [slot],
                                                  maps := if d.change.isSome then d.maps.filter (fun m => m.1 != slot) else d.maps })).modOeRing e r (fun q =>
      if q.state = .locked then { q with state := .paused, tries := 0 } else q)
    let s2 := if side = 1 then s1.modEngine e (Engine.foldFailures slot) else s1
    let s3 := if notify then s2.sendWord e (slotWord 1 slot side) else s2
    if 4 < d.paused.length + 1 ∧ d.change.isNone = true then s3.retrain e side else s3

/-- A slot resumes (R392). -/
def State.resumeSlot (e side slot : Nat) (notify : Bool) (s : State) : State :=
  let d := dirOf (engineAt s e) side
  if d.paused.contains slot then
    let r := 36 * side + d.slotRing.getD slot 0
    let s1 := (s.modDir e side (fun d => { d with paused := without (· == slot) d.paused })).modOeRing e r (fun q =>
      if q.state = .paused then { q with state := .locked } else q)
    if notify then s1.sendWord e (slotWord 2 slot side) else s1
  else s

/-- The side of this engine that the dir bit of a received word names: 0 the direction in which the word travels, which this engine receives. -/
def sideOfDir (dir : Bool) : Nat := if dir then 0 else 1

/-- PAUSE: a notice from the partner (R391). -/
def execPause (e : EngineId) (slot : Fin 32) (dir : Bool) (s : State) : Host.Outcome State Fault Refusal :=
  .next (s.pauseSlot e (sideOfDir dir) slot false)

/-- RESUME: a notice from the partner (R392). -/
def execResume (e : EngineId) (slot : Fin 32) (dir : Bool) (s : State) : Host.Outcome State Fault Refusal :=
  .next (s.resumeSlot e (sideOfDir dir) slot false)

/-- SLOT_ERROR_BURST: the receiver found 4 failed flits on a slot within 1 µs (R390). -/
def execSlotErrorBurst (e : EngineId) (slot : Fin 32) (s : State) : Host.Outcome State Fault Refusal :=
  let x := engineAt s e
  if x.state ≠ .up ∨ x.rx.width ≤ slot.val ∨ x.rx.paused.contains slot.val = true then .next s
  else .next ((s.raiseWave e 2 (36 + x.rx.slotRing.getD slot.val 0) slot.val).pauseSlot e 1 slot true)

/-! ## Failed wavelengths and spares (R394–R397) -/

/-- The fault state of a ring opens with the event that has been counted, unless it is open and that event has merged into it; it holds the first fault where
that is one of its source and no other state holds it (R395, R497, R498; log 50). -/
def State.openRing (e : EngineId) (r : OeRing) (chk : Nat) (s : State) : State :=
  if (openState s.flt (.ring e r)).isSome then s
  else
    let first := s.flt.firstValid && s.flt.firstSource == srcId 2 e chk && !s.flt.open_.any (·.holdsFirst)
    let f := s.flt.enter first { source := srcId 2 e chk, resource := some (.ring e r) }
    { s with flt := f, ret := { s.ret with faultList := f.open_ } }

/-- The slot of a failed wavelength moves to a spare, by MAP words; without a spare the direction narrows (R394, R396, R397). -/
def State.spareSlot (e side w slot : Nat) (counted : Bool) (s : State) : State :=
  let x := engineAt s e
  match spareFor x side w with
  | none => if counted then (s.narrow e side).raiseOnce 2 4 e else s.narrow e side
  | some v =>
    let d := dirOf x side
    let eff := effectiveOf x side 1
    let s1 := (s.modDir e side (fun d => { d with maps := d.maps ++ [(slot, v, eff)], spared := d.spared || counted })).modOeRing e (36 * side + v)
      (fun q => { q with slot := slot })
    let s2 := s1.sendMaps e side [(slot, v, eff)]
    let s3 := if counted && !d.spared then s2.raiseOnce 1 4 e else s2
    if counted && (spareLambdas (engineAt s3 e) side).isEmpty then s3.raiseOnce 2 4 e else s3

/-- A ring's wavelength is failed: FAILED and counted when its tone is on the bus, DARK when it is not; its slot moves; a spare lost may be the last (R394–R397). -/
def State.failRing (e : EngineId) (r : OeRing) (tone : Bool) (s : State) : State :=
  let x := engineAt s e
  let q := waveRing x r
  let side := r.val / 36
  let slot := q.slot
  if q.state = .retired ∨ q.state = .failed ∨ q.state = .dark then s
  else
    let s0 := if slot < 32 then s.pauseSlot e side slot true else s
    let s1 := s0.modOeRing e r (fun q => { q with state := if tone then .failed else .dark, slot := 0x3F })
    let s2 := if tone then s1.openRing e r (if 0 < q.tries then 1 else 0) else s1
    let s3 := if (engineAt s2 e).state ≠ .up then s2
      else if slot < 32 then s2.spareSlot e side (r.val % 36) slot tone
      else if tone && slot == 0x3E && (spareLambdas (engineAt s2 e) side).isEmpty then s2.raiseOnce 2 4 e else s2
    s3.checkHealth e side

/-- A ring is retired: recorded, reported, never a spare again (R395, R500). -/
def State.retireRing (e : EngineId) (r : OeRing) (s : State) : State :=
  let q := waveRing (engineAt s e) r
  let side := r.val / 36
  let s0 := if q.slot < 32 then s.pauseSlot e side q.slot true else s
  let s1 := (s0.modOeRing e r (fun q => { q with state := .retired, slot := 0x3F })).putMirror (.retiredRing e r)
  let src := srcId 2 e 0x0A
  let s2 := (s1.raise src (waveData r q.slot)).logEvent 0x0003 src 1 false (retireData 5 (0xC0 + e.val) r.val 0)
  let s3 := s2.raiseOnce 1 4 e
  let s4 := if (engineAt s3 e).state ≠ .up then s3
    else if q.slot < 32 then s3.spareSlot e side (r.val % 36) q.slot true
    else if (spareLambdas (engineAt s3 e) side).isEmpty then s3.raiseOnce 2 4 e else s3
  s4.checkHealth e side

/-! ## Lock, identity and search (R385–R392, R395, R400) -/

/-- Power estimate of a tile in 1/64 W by the planning model of R43; a tile that does not compute counts as a spare's 7 W. -/
def tilePower (s : State) (n : Nat) : Nat :=
  let t := tileAt s n
  if t.state = .compute then 512 + 24 * t.thermal.issueRate else if t.state = .isolated then 0 else 448

/-- The window of heater codes (R385). -/
def inWindow (h : Int) : Bool := decide (5000 ≤ h) && decide (h ≤ 60535)

/-- A ring is locked and has passed its identity check: recorded, its slot resumes by notice, a ring without one is a spare (R392, R394, R395). -/
def State.lockRing (e : EngineId) (r : OeRing) (heater : Nat) (s : State) : State :=
  let x := engineAt s e
  let q := waveRing x r
  let s1 := (s.modOeRing e r (fun q => { q with state := .locked, toneOk := true, tone := some (r.val % 18), toneCode := heater, heater, lastLock := heater, ff := 0,
                                                fromLast := false, lockPower := tilePower s (engineSite e),
                                                slot := if q.slot = 0x3F ∧ x.state = .up ∧ (dirOf x (r.val / 36)).unfit.contains (r.val % 36) = false
                                                        then 0x3E else q.slot })).putMirror
    (.heater e r heater)
  if q.slot < 32 then s1.resumeSlot e (r.val / 36) q.slot true else s1

/-- Whether another ring of the bus, as it last reported, has shown the same dominant tone at a lower code: it keeps the wavelength (R389). -/
def toneTaken (x : Engine) (r n heater : Nat) : Bool :=
  (List.range 18).any (fun k =>
    let q := waveRing x (r / 18 * 18 + k)
    k != r % 18 && (q.state == .locked || q.state == .paused || q.state == .searching) && q.tone == some n && decide (q.toneCode < heater))

/-- The next code after a wrong channel: one channel toward the assigned wavelength, or the nearest order inside the window (R388). -/
def stepHeater (h : Nat) (up : Bool) : Nat :=
  if up then (if 60535 < h + 2500 then h - 50000 else h + 2500) else (if h < 7500 then h + 50000 else h - 2500)

/-- An identity check that fails: one step of R388, and after three of them without a pass the wavelength is failed; `lit` says whether the tap monitor shows
the ring's own tone (R395). A ring that searched from its last code after an engine reset sweeps instead (R401). -/
def State.wrongChannel (e : EngineId) (r : OeRing) (heater : Nat) (dominant : Option (Fin 18)) (lit : Bool) (s : State) : State :=
  let q := waveRing (engineAt s e) r
  let up := match dominant with | some d => decide (r.val % 18 ≤ d.val) | none => true
  let s1 := (s.raiseWave e 1 r q.slot).modOeRing e r (fun q => { q with state := .searching, toneOk := false, tone := dominant.map (·.val), toneCode := heater })
  let s2 := if q.slot < 32 then s1.pauseSlot e (r.val / 36) q.slot true else s1
  if q.fromLast then s2.modOeRing e r (fun q => { q with fromLast := false, tries := 0 })
  else if 3 ≤ q.tries then s2.failRing e r lit
  else s2.modOeRing e r (fun q => { q with tries := q.tries + 1, heater := stepHeater heater up })

/-- A ring has reported a tone at a code: a locked ring of its bus that reported the same tone at a higher code has found a wrong channel (R389). -/
def State.settleTone (e : EngineId) (r : OeRing) (heater : Nat) (dominant : Option (Fin 18)) (s : State) : State :=
  match dominant with
  | none => s
  | some n => (List.range 18).foldl (fun t k =>
      let v := Fin.ofNat 72 (r.val / 18 * 18 + k)
      let q := waveRing (engineAt t e) v
      if k ≠ r.val % 18 ∧ q.state = .locked ∧ q.tone = some n.val ∧ heater < q.toneCode then
        (t.modOeRing e v (fun q => { q with tries := 0 })).wrongChannel e v q.heater (some n) true
      else t) s

/-- RING_IDENTITY_CHECK: the check of a locked ring (R387–R389). -/
def execRingIdentityCheck (e : EngineId) (r : OeRing) (dominant : Option (Fin 18)) (s : State) : Host.Outcome State Fault Refusal :=
  let x := engineAt s e
  let q := waveRing x r
  if q.state ≠ .locked then .next s
  else if dominant = some (Fin.ofNat 18 r) ∧ toneTaken x r (r.val % 18) q.heater = false then
    .next ((s.modOeRing e r (fun q => { q with toneOk := true, tone := some (r.val % 18), toneCode := q.heater })).settleTone e r q.heater dominant)
  else .next (((s.modOeRing e r (fun q => { q with tries := 0 })).wrongChannel e r q.heater dominant true).settleTone e r q.heater dominant)

/-- RING_LOCK_LOST: the error of a ring has exceeded half the channel spacing for 20 µs: its slot pauses and it relocks (R390, R391). -/
def State.lockLost (e : EngineId) (r : OeRing) (s : State) : State :=
  let q := waveRing (engineAt s e) r
  let s1 := (s.raiseWave e 0 r q.slot).modOeRing e r (fun q => { q with state := .searching, tries := 0 })
  if q.slot < 32 then s1.pauseSlot e (r.val / 36) q.slot true else s1

/-- RING_LOCK_LOST: of a locked ring, or of one whose slot is paused (R390). -/
def execRingLockLost (e : EngineId) (r : OeRing) (s : State) : Host.Outcome State Fault Refusal :=
  if (waveRing (engineAt s e) r).state = .locked ∨ (waveRing (engineAt s e) r).state = .paused then .next (s.lockLost e r) else .next s

/-- Whether a ring is in a lock attempt. -/
def relocking (q : OeRingRec) : Bool := q.state == .searching || q.state == .paused

/-- RING_LOCKED: a ring has locked and runs its identity check: it passes and its slot resumes, or it steps (R387, R388, R392, R395). -/
def execRingLocked (e : EngineId) (r : OeRing) (heater : Nat) (dominant : Option (Fin 18)) (tonePresent : Bool) (s : State) : Host.Outcome State Fault Refusal :=
  let x := engineAt s e
  if relocking (waveRing x r) = false ∨ inWindow heater = false then .next s
  else if dominant = some (Fin.ofNat 18 r) ∧ toneTaken x r (r.val % 18) heater = false then
    .next ((s.lockRing e r heater).settleTone e r heater dominant)
  else .next ((s.wrongChannel e r heater dominant tonePresent).settleTone e r heater dominant)

/-- RELOCK_TIMEOUT: the ring has not passed within 200 µs of the pause (R392, R394). -/
def execRelockTimeout (e : EngineId) (r : OeRing) (tonePresent : Bool) (s : State) : Host.Outcome State Fault Refusal :=
  if relocking (waveRing (engineAt s e) r) then .next (s.failRing e r tonePresent) else .next s

/-- RING_RETRY: after the rest period a FAILED or DARK ring is tried again (R395). -/
def execRingRetry (e : EngineId) (r : OeRing) (ok tonePresent : Bool) (heater : Nat) (s : State) : Host.Outcome State Fault Refusal :=
  let q := waveRing (engineAt s e) r
  if q.state ≠ .failed ∧ q.state ≠ .dark then .next s
  else if ok && inWindow heater then .next ((s.modOeRing e r (fun q => { q with tries := 0 })).lockRing e r heater)
  else
    let s1 := s.modOeRing e r (fun q => { q with state := if tonePresent then .failed else .dark })
    if tonePresent then .next (s1.openRing e r 0) else .next s1

/-- The order inside the window nearest its centre (R400). -/
def bestOrder (l : List Nat) : Option Nat :=
  let gap (h : Nat) : Nat := ((2 * h : Int) - 65535).natAbs
  (l.filter (fun (h : Nat) => inWindow (h : Int))).foldl (fun m h => match m with
    | none => some h
    | some b => if gap h < gap b then some h else some b) none

/-- Whether a sweep acts on a ring: none that is retired or searches from its last code first; in service only one that carries no slot and has yet to lock;
one in lock only where the sweep finds it an order (R400, R401). -/
def sweeps (x : Engine) (r : Nat) (found : Bool) : Bool :=
  let q := waveRing x r
  q.state != .retired && !(q.state == .searching && q.fromLast) && (x.state != .up || (q.state == .searching && q.slot == 0x3F))
  && (found || !(q.state == .locked || q.state == .paused))

/-- RING_SWEEP: at a reset every ring sweeps its heater, and later one whose search from its last code has failed, and locks at the best order of its
wavelength (R400, R401); `orders` holds, ring by ring, the codes at which its own tone was found. -/
def execRingSweep (e : EngineId) (orders : List (List Nat)) (s : State) : Host.Outcome State Fault Refusal :=
  if s.boot.down then .next s
  else
    let s0 := s.modEngine e (fun x => { x with started := true, inReset := false })
    .next (((List.range 72).zip orders).foldl (fun t p =>
      let r := Fin.ofNat 72 p.1
      let best := bestOrder p.2
      if !sweeps (engineAt t e) p.1 best.isSome then t
      else match best with
        | some h => t.lockRing e r h
        | none => t.modOeRing e p.1 (fun q => { q with state := .searching })) s0)

/-! ## Feed-forward (R398, R399) -/

/-- ff_gain in codes per W and ff_tau in µs of an engine (R517). -/
def feedForward (s : State) (e : Nat) : Nat × Nat :=
  match boardInUse s with
  | some b => (field (0xD80 + 4 * e) 2 b, field (0xD82 + 4 * e) 2 b)
  | none => (0, 0)

/-- 2³² · e^(−x / 2³²): eight terms of the series at x / 16, raised to the 16th power (log 71). -/
def expNeg (x : Nat) : Nat :=
  let one : Int := 2 ^ 32
  let y : Int := x / 16
  let series := (List.range 8).reverse.foldl (fun (acc : Int) k => one - y * acc / (one * (k + 1))) one
  (List.range 4).foldl (fun a _ => a * a / 2 ^ 32) series.toNat

/-- A value after 10 µs of a first-order lag of time constant tau in µs (R398). -/
def lagStep (tau : Nat) (target now : Int) : Int :=
  if tau = 0 then target else target + (now - target) * (expNeg (10 * 2 ^ 32 / tau) : Int) / 2 ^ 32

/-- A ring's offset 10 µs on, in 1/65,536 of a code: toward −ff_gain times the power that its tile has taken on since the ring locked; no
power of its last lock being known, there is nothing to move from (R398). -/
def ringOffset (s : State) (e : Nat) (q : OeRingRec) : Int :=
  if q.lockPower = 0 then q.ff else lagStep (feedForward s e).2 (-(((feedForward s e).1 : Int) * ((tilePower s (engineSite e) : Int) - q.lockPower)) * 1024) q.ff

/-- Its heater code then, with `loop` codes by the ring's own loop (R386, R398). -/
def heaterMoved (s : State) (e : Nat) (q : OeRingRec) (loop : Int) : Int := q.heater + (ringOffset s e q / 65536 - q.ff / 65536) + loop

/-- FEED_FORWARD_UPDATE: every heater moves ahead of the adjacent tile's heat, and a locked ring's own loop holds it at its resonance; a locked one that would
leave the window loses its lock, another stays at its code (R386, R398, R399). A ring that has never locked has no P₀ to move from. -/
def execFeedForwardUpdate (e : EngineId) (s : State) : Host.Outcome State Fault Refusal :=
  let s0 := s.modEngine e (fun x => { x with powerEstimate := tilePower s (engineSite e) })
  .next (((List.range 72).foldl (fun t r =>
    let q := waveRing (engineAt t e) r
    if q.state = .parked ∨ q.state = .retired ∨ q.lastLock = 0 then t
    else
      let held := q.state == .locked || q.state == .paused
      let h := heaterMoved s e q (if held then Config.ringLoop (s.free + r) else 0)
      if inWindow h then t.modOeRing e r (fun x => { x with ff := ringOffset s e q, heater := h.toNat })
      else if held then t.lockLost e (Fin.ofNat 72 r) else t) s0).spend 72)

/-! ## Switching at the effective frame (R394, R417, R446, R447) -/

/-- The sender resumes after a change: every held flit is sent again from the oldest (R446). -/
def Engine.resumeSending (x : Engine) : Engine :=
  { x with link := { x.link with replayFrom := (x.link.held.head?).map (·.1) } }

/-- A change that waited starts; the sender of the direction echoes its word now (R446, R447). -/
def State.startDeferred (e side : Nat) (s : State) : State :=
  match (dirOf (engineAt s e) side).deferred with
  | [] => s
  | (rate, width, eff) :: t =>
    let s1 := s.modDir e side (fun d => { d with deferred := t })
    if side = 1 then s1.startChange e rate width
    else (s1.modDir e 0 (fun d => { d with change := some { rate, width, effective := eff, rateChange := decide (rate ≠ d.rate), switched := false } })).sendWord e
      (rateWord rate (widthCode width) 0 eff)

/-- Whether the change of a direction is one of its rate. -/
def changesRate (d : Direction) : Bool := match d.change with | some c => c.rateChange | none => false

/-- A NAK that fell due during a change goes out at its end (R447). -/
def LinkEnd.lateNak (l : LinkEnd) : LinkEnd := if l.nakOutstanding then { l with nakDue := true, linkDue := true } else l

/-- A live change ends: the sender resumes; the receiver sends TRAIN done after a rate change, the NAK that was held, and asks for the width that the slots
paused meanwhile call for (R393, R446, R447). -/
def State.endChange (e side : Nat) (s : State) : State :=
  let s1 := s.modDir e side (fun d => { d with change := none })
  let s2 := if side = 0 then s1.modEngine e Engine.resumeSending
            else
              let s3 := s1.modEngine e (fun x => { x with link := x.link.lateNak })
              if changesRate (engineAt s e).rx then s3.sendWord e (trainWord 8 1 (engineAt s1 e).rx.rate) else s3
  if 4 < (dirOf (engineAt s2 e) side).paused.length ∧ (dirOf (engineAt s2 e) side).deferred = [] then s2.retrain e side else s2.startDeferred e side

/-- Both ends take the maps that are effective (R394, R417). -/
def Direction.takeMaps (l : List (Nat × Nat × Nat)) (d : Direction) : Direction :=
  { d with slotRing := l.foldl (fun m x => setAt m x.1 x.2.1) d.slotRing, paused := d.paused.filter (fun k => !l.any (fun x => x.1 == k)),
           maps := d.maps.filter (fun x => !l.contains x) }

/-- The generator's seed of a wavelength (R413). -/
def scrambleSeed (w : Nat) : BitVec 31 := BitVec.ofNat 31 (0x2B5C71E3 ^^^ (w <<< 8))

/-- A direction whose rate switches: every generator is loaded, and the receiver must find its frames again (R412, R413, R446). -/
def Direction.rateSwitch (side : Nat) (d : Direction) : Direction :=
  { d with scrambler := (List.range 36).map scrambleSeed,
           frameLock := if side = 1 then List.replicate 36 false else d.frameLock, markerHits := if side = 1 then List.replicate 36 0 else d.markerHits,
           crcHits := if side = 1 then List.replicate 36 0 else d.crcHits }

/-- A direction at the first frame of a rate step of bring-up: frame counter 0 at both ends (R417). -/
def Direction.restart (side : Nat) (d : Direction) : Direction :=
  { d with frame := if side = 0 then 0 else 65535, counters := List.replicate 36 65535 }

/-- A direction switches to the width, rate and map of its change (R446); a width below the one before is WIDTH_REDUCED (R396, R397). The frame counter runs
on, but starts anew where bring-up takes its last rate step (R417). -/
def State.switchChange (e side : Nat) (c : LiveChange) (s : State) : State :=
  let x := engineAt s e
  let d := dirOf x side
  let s1 := (s.modDir e side (fun d =>
    let d1 := { (d.takeMaps d.maps) with width := c.width, rate := c.rate,
                                         paused := (d.paused.filter (fun k => decide (k < c.width) && !d.maps.any (fun x => x.1 == k))),
                                         change := some { c with switched := true } }
    let d2 := if c.rateChange then d1.rateSwitch side else d1
    let d3 := if c.rateChange && x.state == .training then d2.restart side else d2
    if side = 0 then { d3 with switched := (d3.slotRing.take c.width).map (fun w => (w, d3.frame)) } else d3)).modEngine e (Engine.settleRings side)
  if x.state = .up ∧ c.width < d.width then
    let s2 := s1.raise (srcId 2 e 4) (side + 256 * c.width)
    if lightAlone x side d.width then s2 else s2.raiseOnce 2 4 e
  else s1

/-! ## Lasers (R383, R384, R402–R404) -/

/-- Attenuation of at least 30 dB, in 0.25 dB steps. -/
def attenFull : Nat := 120

/-- The ELS output of a laser input (Table 13-2). -/
def elsOutput (e f : Nat) : Nat × Nat := (enginePort e, 2 * engineIndexInPort e + f)

/-- The mode of a laser input and of its ELS output, and its attenuator; a reading of the old mode stands no longer. -/
def State.setLaser (e f : Nat) (mode : LaserMode) (atten : Nat) (s : State) : State :=
  let o := elsOutput e f
  let s1 := s.modEngine e (fun x => { x with lasers := modAt x.lasers f (fun l => { l with mode, atten, power := if l.mode = mode then l.power else -32768 }) })
  { s1 with els := modAt s1.els o.1 (fun x => { x with modes := setAt x.modes o.2 mode }) }

/-- Both laser inputs that are not OFF go to PROBE, the attenuator first (R404, R427). -/
def State.probeLasers (e : Nat) (s : State) : State :=
  [0, 1].foldl (fun t f => if ((engineAt t e).lasers.getD f LaserInput.reset).mode = .off then t else t.setLaser e f .probe attenFull) s

/-- The attenuation that holds the launched power within Table 13-3: below 30 dB, and not otherwise given (log 4). -/
def setAtten (s : State) (f : Nat) : Nat := (Config.freeByte (s.free + f)).toNat % attenFull

/-- Both laser inputs go to RUN and their attenuators to the set level (R425 step 2); a retired or failed input stays, and one that comes back after an
excursion is raised step by step (R403). -/
def State.runLasers (e : Nat) (s : State) : State :=
  ([0, 1].foldl (fun t f =>
    let l := (engineAt t e).lasers.getD f LaserInput.reset
    if l.mode = .off || l.retired || (l.ramp && l.mode == .run) then t
    else (t.setLaser e f .run (if l.ramp then attenFull else setAtten s f)).modEngine e (fun x => { x with lasers := modAt x.lasers f (fun l => { l with setting := setAtten s f }) })) s).spend 2

/-- Every wavelength of a transmit fibre fails for want of light (R394, R396, R403). -/
def State.failFibre (e : EngineId) (f : Nat) (lambdas : List Nat) (s : State) : State :=
  lambdas.foldl (fun t n => t.failRing e (Fin.ofNat 72 (18 * f + n)) false) s

/-- LASER_EXCURSION: the attenuator goes to 30 dB, the fibre's wavelengths fail, the ELS output goes OFF (R403, R497). -/
def execLaserExcursion (e : EngineId) (f : Fin 2) (power : Int) (s : State) : Host.Outcome State Fault Refusal :=
  if ((engineAt s e).lasers.getD f LaserInput.reset).mode = .off then .next s
  else
    let s1 := (s.setLaser e f .off attenFull).modEngine e (fun x => { x with lasers := modAt x.lasers f (fun l => { l with excursion := true, ramp := true, power }) })
    .next ((s1.raiseFor (srcId 2 e 5) f.val (.laser e f)).failFibre e f (List.range 18))

/-- LASER_LOW: a fall of more than 3 dB fails the wavelengths whose tones have gone (R403). -/
def execLaserLow (e : EngineId) (f : Fin 2) (power : Int) (lost : List (Fin 18)) (s : State) : Host.Outcome State Fault Refusal :=
  if ((engineAt s e).lasers.getD f LaserInput.reset).mode = .off then .next s
  else
    let s1 := s.modEngine e (fun x => { x with lasers := modAt x.lasers f (fun l => { l with power }) })
    .next ((s1.raise (srcId 2 e 6) f.val).failFibre e f (lost.map (·.val)))

/-- LASER_RESTORE: the rest period after an excursion is over: the output goes to PROBE, given again to RUN at 30 dB, and each time after that the attenuator
takes one step of 0.25 dB toward its set level; RUN waits for a partner, and an output of an ELS that does not match stays OFF (R383, R403, R404; log 71). -/
def execLaserRestore (e : EngineId) (f : Fin 2) (s : State) : Host.Outcome State Fault Refusal :=
  let x := engineAt s e
  let l := x.lasers.getD f LaserInput.reset
  if l.retired || !x.elsPresent || !l.ramp || !(s.els.getD (enginePort e) { present := false, matched := false, modes := [], failed := [] }).matched then .next s
  else match l.mode with
    | .off => .next (s.setLaser e f .probe attenFull)
    | .probe =>
      if x.state = .up ∨ 2 ≤ x.bringUp.step then
        .next (((s.setLaser e f .run attenFull).modEngine e (fun x => { x with lasers := modAt x.lasers f (fun l => { l with setting := setAtten s 0 }) })).spend 1)
      else .next s
    | .run =>
      if l.setting < l.atten then .next (s.setLaser e f .run (l.atten - 1))
      else .next (s.modEngine e (fun x => { x with lasers := modAt x.lasers f (fun l => { l with ramp := false }) }))

/-- A laser input retired: its fibre carries no slot again (R396, R500). -/
def State.retireLaser (e : EngineId) (f : Fin 2) (source : Nat) (s : State) : State :=
  let s1 := ((s.modEngine e (fun x => { x with lasers := modAt x.lasers f (fun l => { l with retired := true }) })).setLaser e f .off attenFull).putMirror
    (.retiredLaser e f)
  (s1.logEvent 0x0003 source (severityOf source) false (retireData 6 (0xC0 + e.val) f.val 0)).failFibre e f (List.range 18)

/-- A bring-up attempt fails: both ends return to PROBE and 16 Gb/s; TRAIN fail is sent (R427). -/
def State.failAttempt (e : Nat) (s : State) : State :=
  let b := (engineAt s e).bringUp
  ((s.modEngine e (fun x => { x with bringUp := { BringUp.reset with attempt := b.attempt + 1, partner := b.partner },
                                             tx := { x.tx with rate := 0, change := none, maps := [] }, rx := { x.rx with rate := 0, change := none, maps := [] } })).probeLasers e).sendWord e
    (trainWord b.step 2 (engineAt s e).tx.rate)

/-- OPEN_FIBRE: a receive fibre has been dark for 1 ms: both transmit fibres go to PROBE levels, an attempt fails, an UP link is down until a partner
is found again (R404, R427). -/
def execOpenFibre (e : EngineId) (f : Fin 2) (s : State) : Host.Outcome State Fault Refusal :=
  let x := engineAt s e
  if !x.started || x.inReset then .next s
  else
    let s1 := (s.modEngine e (fun x => { x with lasers := modAt x.lasers f (fun l => { l with openFibre := true }) })).probeLasers e
    let s2 := s1.raise (srcId 2 e 7) f.val
    match x.state with
    | .up => .next (s2.linkDown e)
    | .training => if 0 < x.bringUp.step then .next (s2.failAttempt e) else .next s2
    | _ => .next s2

/-- An ELS fault: its event, and ADVISE that names the port (R384). -/
def State.elsFault (port : Nat) (s : State) : State :=
  (s.raise (srcId 2 ((portEngines port).headD 0) 9) port).raiseOnce 1 9 port

/-- An engine whose light is there begins to look for a partner (R383, R425). -/
def State.beginBringUp (e : Nat) (s : State) : State :=
  let x := engineAt s e
  if x.state = .down ∨ x.state = .noLight then
    s.modEngine e (fun x => { x with state := .training, bringUp := { BringUp.reset with step := 1, partner := x.bringUp.partner } })
  else s

/-- ELS_PRESENCE: the hub reads an ELS's identification: every output goes to PROBE, or to OFF when its grid or tones do not match (R383). -/
def execElsPresence (port : ElsId) (gridOk toneOk : Bool) (s : State) : Host.Outcome State Fault Refusal :=
  let l := portEngines port
  if s.boot.down then .next s
  else
    let s1 : State := { s with els := modAt s.els port (fun x => { x with present := true, matched := gridOk && toneOk, failed := [] }) }
    let s2 := l.foldl (fun t e => t.modEngine e (fun x => { x with elsPresent := true })) s1
    if gridOk && toneOk then
      .next (l.foldl (fun t e =>
        let t1 := [0, 1].foldl (fun u f => if ((engineAt u e).lasers.getD f LaserInput.reset).mode = .off
          ∧ ((engineAt u e).lasers.getD f LaserInput.reset).retired = false then u.setLaser e f .probe attenFull else u) t
        t1.beginBringUp e) s2)
    else
      .next ((l.foldl (fun t e => ((t.setLaser e 0 .off attenFull).setLaser e 1 .off attenFull).setLinkState e .noLight) s2).elsFault port)

/-- The wavelengths of an ELS that the monitors show as failed: the transmit buses that newly lose one handle it as failed (R384). -/
def State.elsLost (port : Nat) (failed : List (Fin 8 × Fin 18)) (s : State) : State :=
  let known := (s.els.getD port { present := false, matched := false, modes := [], failed := [] }).failed
  let new := failed.filter (fun p => !known.contains (p.1.val, p.2.val))
  let s1 : State := { s with els := modAt s.els port (fun x => { x with failed := (failed.map (fun p => (p.1.val, p.2.val))).eraseDups }) }
  if new.isEmpty then s1
  else
    (new.foldl (fun t p =>
      let e := (portEngines port).getD (p.1.val / 2) 0
      t.failRing (Fin.ofNat 24 e) (Fin.ofNat 72 (18 * (p.1.val % 2) + p.2.val)) false) s1).elsFault port

/-- Whether an ELS answers. -/
def elsThere (s : State) (port : Nat) : Bool := (s.els.getD port { present := false, matched := false, modes := [], failed := [] }).present

/-- ELS_MONITOR_POLL: the monitors read every 100 ms (R383, R384). -/
def execElsMonitorPoll (port : ElsId) (failed : List (Fin 8 × Fin 18)) (s : State) : Host.Outcome State Fault Refusal :=
  if elsThere s port then .next (s.elsLost port failed) else .next s

/-- ELS_INTERRUPT: the monitors read at once (R383, R384). -/
def execElsInterrupt (port : ElsId) (failed : List (Fin 8 × Fin 18)) (s : State) : Host.Outcome State Fault Refusal :=
  if elsThere s port then .next (s.elsLost port failed) else .next s

/-- ELS_TIMEOUT: an ELS that does not answer for 10 ms takes the four engines of its port to NO_LIGHT (R41, R384, R442). -/
def execElsTimeout (port : ElsId) (s : State) : Host.Outcome State Fault Refusal :=
  if !elsThere s port then .next s
  else
    let s1 : State := { s with els := modAt s.els port (fun x => { x with present := false, modes := x.modes.map (fun _ => .off) }) }
    .next (((portEngines port).foldl (fun t e =>
      ((t.setLinkState e .noLight).modEngine e (fun x => { x with elsPresent := false, lasers := x.lasers.map (fun l => { l with mode := .off, atten := attenFull }) }))) s1).elsFault port)

/-- SPARE_MARGIN_TEST: a spare wavelength is tested in service (R407, R408, R507). -/
def execSpareMarginTest (e : EngineId) (r : OeRing) (height width : Nat) (s : State) : Host.Outcome State Fault Refusal :=
  let q := waveRing (engineAt s e) r
  if q.state ≠ .locked ∨ q.slot ≠ 0x3E then .next s
  else
    let bad := decide (width < 20) || decide (height < 16)
    let src := srcId 2 e 0x13
    let s1 : State := { s with flt := { s.flt with stRun := s.flt.stRun + 1, stFailed := s.flt.stFailed + bnat bad,
                                                   stFirst := if bad && s.flt.stFirst == 0xFFFF then src else s.flt.stFirst } }
    if bad then .next (s1.raise src (waveData r 0x3E)) else .next s1

end Sys2Proof.Machine
end

