-- ==== Sys2Proof/Machine/BringUp.lean ====
section
/-! DEFINITION. Bring-up of optical links, control words that are received, the equaliser, the error-rate rule and the return of routes (R394, R417,
R420–R429, R442–R447). -/
namespace Sys2Proof.Machine

/-! ## The partner in the route table (R429, R445, R453) -/

/-- The route-table index of a partner. -/
def partnerDest (h : HelloWord) : Nat := routeIndex (4096 * h.plane + h.moduleId)

/-- A route entry without an engine; nothing when it was the last. -/
def Route.drop (e : Nat) (r : Route) : Option Route :=
  if r.eng0 = e then (if r.eng1 < 24 then some { r with eng0 := r.eng1, eng1 := 0x1F } else none)
  else if r.eng1 = e then some { r with eng1 := 0x1F } else some r

/-- A learned entry that no longer stands for an engine: it keeps its other engine, or the static entry of its destination comes back (R445 step
5). -/
def State.unlearn (e : Nat) (r : Route) (s : State) : State :=
  let rest := without (fun (x : Route) => x.dest == r.dest) s.trans.routes
  let new := match r.drop e with
    | some q => some q
    | none => (staticRoutes s.settings).find? (fun x => x.dest == r.dest)
  let s1 : State := { s with trans := { s.trans with routes := match new with
    | some q => settleRoute s q :: rest
    | none => rest } }
  s1.raise (srcId 2 e 0x0E) r.dest

/-- The entry of a partner is learned: it replaces a static one; a second engine to the same partner joins it (R453). -/
def State.learn (e : Nat) (h : HelloWord) (s : State) : State :=
  if h.moduleId = 0xFFF then s
  else
    let r := routeAt s (partnerDest h)
    if r.learned ∧ (r.eng0 = e ∨ r.eng1 = e) then s
    else if r.learned ∧ 24 ≤ r.eng1 then s.setRoute { r with eng1 := e }
    else if r.learned then s
    else s.setRoute { r with learned := true, eng0 := e, eng1 := 0x1F, hops := 1 }

/-- Entries learned from former partners of an engine. -/
def staleRoutes (s : State) (e : Nat) (h : Option HelloWord) : List Route :=
  s.trans.routes.filter (fun r => r.learned && (r.eng0 == e || r.eng1 == e) && h.map partnerDest != some r.dest)

/-- A receiver's adaptation starts anew with each rate step and in service: every tap asks again (R421). -/
def Ffe.anew (f : Ffe) : Ffe := { f with preAdapt := Adapt.start, postAdapt := Adapt.start }

/-- A link is UP: the link layer starts at sequence 0, the partner enters the route table, and a direction that has
no spare or is narrow asks for replacement (R397, R425 step 8, R429, R438, R445, R453). -/
def State.linkUp (e : Nat) (s : State) : State :=
  let h := (engineAt s e).bringUp.partner
  let stale := staleRoutes s e h
  let s1 := s.modEngine e (fun y => { y with state := .up, ffe := y.ffe.map Ffe.anew, link := y.link.cleared, rxFlits := [], slotFailed := [], buckets := [], positions := 0, maxReplays := 0,
                                             restoring := y.restoring && stale.isEmpty, bringUp := { BringUp.reset with partner := y.bringUp.partner },
                                             tx := { y.tx with paused := [], change := none }, rx := { y.rx with paused := [], change := none, frozen := false } })
  let s2 := stale.foldl (fun t r => t.unlearn e r) s1
  let s3 := match h with | some h => s2.learn e h | none => s2
  let s4 := (s3.runService e 0).runService e 1
  (if (engineAt s4 e).restoring then s4 else s4.reroute e).atStep 8

/-- ROUTE_RESTORE: an engine UP with its partner for 100 ms takes its entries back (R445 step 4). -/
def execRouteRestore (e : EngineId) (s : State) : Host.Outcome State Fault Refusal :=
  if (engineAt s e).state = .up ∧ (engineAt s e).restoring = true then
    .next ((s.modEngine e (fun x => { x with restoring := false })).reroute e)
  else .next s

/-! ## Attempts (R425–R429) -/

/-- The HELLO of this module (Table 14-2): generation 2, rate step 3, adaptive. -/
def ownHello (s : State) : CtrlWord :=
  let id := ownId s
  { kind := 7, payload := 2 + 16 * 3 + 64 + 128 * (id % 4096) + 2 ^ 19 * bnat (id != 0xFFFF && bit 12 id) }

/-- An attempt starts with the first HELLO received: step 1, at PROBE level and 16 Gb/s, equaliser taps at their start (R420, R425). -/
def State.startAttempt (e attempt : Nat) (h : HelloWord) (s : State) : State :=
  let s1 := (s.modEngine e (fun x =>
    { x with state := .training, bringUp := { BringUp.reset with step := 1, attempt, selfDone := true, partner := some h },
             ffe := List.replicate 36 Ffe.reset,
             tx := { x.tx with rate := 0, change := none, maps := [] }, rx := { x.rx with rate := 0, change := none, maps := [], frozen := false, unfit := [] } })).probeLasers e
  (s1.sendWord e (ownHello s1)).sendWord e (trainWord 1 1 0)

/-- The engine enters PORT_ABSENT, an S0 event; it holds PROBE levels (R427, R428). -/
def State.portAbsent (e : Nat) (s : State) : State :=
  (((s.modEngine e (fun x => { x with state := .portAbsent, bringUp := { BringUp.reset with partner := x.bringUp.partner } })).probeLasers e).raise
    (srcId 2 e 8) 0).atStep 8

/-- The engine leaves PORT_ABSENT for a new attempt (R428). -/
def State.portFound (e : Nat) (h : HelloWord) (s : State) : State := (s.raise (srcId 2 e 8) 1).startAttempt e 0 h

/-- HELLO: brings a partner into bring-up, or fails a link that is UP; after a failed attempt the next one waits for its time (R425, R427, R429, R442). -/
def State.onHello (e : EngineId) (word : HelloWord) (s : State) : State :=
  let x := engineAt s e
  match x.state with
  | .up => ((s.linkDown e).startAttempt e 0 word)
  | .portAbsent => (s.portFound e word)
  | .training =>
    if x.bringUp.step = 0 ∨ (x.bringUp.selfDone = true ∧ x.bringUp.partner = some word) then s
    else (s.startAttempt e x.bringUp.attempt word)
  | _ => s

/-- HELLO as a command of its own (see `State.onHello`). -/
def execHello (e : EngineId) (word : HelloWord) (s : State) : Host.Outcome State Fault Refusal :=
  .next (s.onHello e word)

/-- PORT_ABSENT_LISTEN: the listening window of 10 ms every 500 ms (R428). -/
def execPortAbsentListen (e : EngineId) (heard : Option HelloWord) (s : State) : Host.Outcome State Fault Refusal :=
  match (engineAt s e).state, heard with
  | .portAbsent, some h => .next (s.portFound e h)
  | _, _ => .next s

/-- BRINGUP_TIMEOUT: a step of 2 ms or an attempt of 50 ms is over (R427). -/
def execBringupTimeout (e : EngineId) (s : State) : Host.Outcome State Fault Refusal :=
  let x := engineAt s e
  if x.state = .training ∧ 1 ≤ x.bringUp.step then .next (s.failAttempt e) else .next s

/-- BRINGUP_RETRY: 50 ms after the failed attempt started: one of three retries, or PORT_ABSENT (R427). -/
def execBringupRetry (e : EngineId) (s : State) : Host.Outcome State Fault Refusal :=
  let x := engineAt s e
  if x.state ≠ .training ∨ x.bringUp.step ≠ 0 then .next s
  else if x.bringUp.attempt ≤ 3 then
    .next ((s.modEngine e (fun x => { x with bringUp := { x.bringUp with step := 1, selfDone := false } })).sendWord e (ownHello s))
  else .next (s.portAbsent e)

/-! ## Steps of Table 14-3 -/

/-- The highest rate step of a bring-up: the lower of the two HELLO maxima; 1 with a forerunner (R422, R425). -/
def topRate (b : BringUp) : Nat :=
  match b.partner with
  | some h => if h.generation = 1 then Nat.min 1 h.maxRate else Nat.min 3 h.maxRate
  | none => 0

/-- Whether some wavelength has passed a rate step (R426). -/
def somePass (b : BringUp) (r : Nat) : Bool := !(b.passing.getD r []).isEmpty

/-- The step after one that has ended: rate steps up to the top rate, while wavelengths pass (R425, R426). -/
def stepAfter (b : BringUp) : Nat :=
  if b.step < 4 then b.step + 1
  else if b.step < 7 ∧ b.step - 3 ≤ topRate b ∧ somePass b (b.step - 4) = true then b.step + 1 else 8

/-- Whether a step that the partner starts is the next one, at a rate step that both have and while wavelengths pass (R422, R425,
R426). -/
def nextStep (b : BringUp) (step : Nat) : Bool :=
  if b.step < 4 then step == b.step + 1
  else (step == b.step + 1 && decide (step < 8) && decide (step - 4 ≤ topRate b) && somePass b (b.step - 4)) || (step == 8 && decide (b.step < 8))

/-- The receiver's choice: the highest flit rate over the wavelengths that pass, then more slots (R407, R426): rate step and width. -/
def chooseRate (b : BringUp) (locked : List Nat) : Option (Nat × Nat) :=
  let usable (r : Nat) : Nat := ((b.passing.getD r []).filter (fun w => locked.contains w)).eraseDups.length
  let options := ((List.range 4).filter (fun r => r ≤ topRate b)).flatMap (fun r =>
    ([32, 24, 16, 8].filter (fun w => w ≤ usable r)).map (fun w => (r, w)))
  let better (a c : Nat × Nat) : Bool := decide ((c.1 + 1) * c.2 < (a.1 + 1) * a.2) || ((c.1 + 1) * c.2 == (a.1 + 1) * a.2 && decide (c.2 < a.2))
  options.foldl (fun m a => match m with | none => some a | some c => if better a c then some a else some c) none

/-- Entry of the board FFE table: pre, post, and whether it stands (R422). -/
def boardTap (s : State) (e w r : Nat) : Nat × Nat × Bool :=
  let i := ((2 * e + w / 18) * 18 + w % 18) * 2 + r
  match boardInUse s with
  | none => (2, 6, false)
  | some b =>
    let pre := field (2 * i) 1 b
    let post := field (2 * i + 1) 1 b
    if pre ≤ 12 ∧ post ≤ 20 then (pre, post, true) else (2, 6, false)

/-- Transmit taps for a forerunner partner come from the board table; an entry that does not stand is an S0 event (R422). -/
def State.tableTaps (e r : Nat) (s : State) : State :=
  (List.range 36).foldl (fun t w =>
    let p := boardTap t e w r
    let t1 := t.modEngine e (fun x => { x with ffe := modAt x.ffe w (fun f => { f with pre := p.1, post := p.2.1, atLimit := false }) })
    if p.2.2 then t1 else t1.raise (srcId 9 0 2) 0) s

/-- What a forerunner partner makes of a rate step. -/
def isForerunner (b : BringUp) : Bool := match b.partner with | some h => h.generation == 1 | none => false

/-- The taps of a wavelength at a new rate step: those that it held there earlier in this bring-up, else 2 and 6; those of the old step are held (R420, R446). -/
def Ffe.atRate (old new : Nat) (f : Ffe) : Ffe :=
  let saved := setKey old (f.pre, f.post) f.saved
  let p := (lookupKey new saved).getD (2, 6)
  { f with pre := p.1, post := p.2, atLimit := false, saved, preAdapt := Adapt.start, postAdapt := Adapt.start }

/-- The transmit taps of every wavelength at a new rate step (R420, R422, R446). -/
def State.rateTaps (e old new : Nat) (s : State) : State :=
  if isForerunner (engineAt s e).bringUp then s.tableTaps e new
  else s.modEngine e (fun x => { x with ffe := x.ffe.map (Ffe.atRate old new) })

/-- The receiver chooses its direction's rate and width and sends RATE_WIDTH and one MAP per slot; a wavelength that fails the rate is not used at it (R407, R425
step 8). -/
def State.chooseDirection (e : Nat) (s : State) : State :=
  let x := engineAt s e
  match chooseRate x.bringUp (lockedLambdas x 1) with
  | none => s.failAttempt e
  | some (r, w) =>
    let avail := ((List.range 36).filter (fun v => (x.bringUp.passing.getD r []).contains v && (lockedLambdas x 1).contains v))
    let eff := effectiveOf x 1 (w + 1)
    let new := fillMap avail Direction.reset.slotRing w
    let maps := (List.range w).map (fun k => (k, new.getD k 0, eff))
    let s1 := s.modDir e 1 (fun d => { d with change := some { rate := r, width := w, effective := eff, rateChange := decide (r ≠ d.rate), switched := false },
                                              maps, unfit := (lockedLambdas x 1).filter (fun v => !avail.contains v) })
    (s1.sendMaps e 1 maps).sendWord e (rateWord r (widthCode w) 1 eff)

/-- A direction at the first frame of a rate step of bring-up (R412, R413, R417). -/
def Direction.atRate (side r : Nat) (d : Direction) : Direction := ({ d with rate := r } : Direction).rateSwitch side |>.restart side

/-- Both directions go to a rate step (Table 14-3). -/
def State.rateStep (e r : Nat) (s : State) : State :=
  (s.modEngine e (fun x => { x with tx := x.tx.atRate 0 r, rx := x.rx.atRate 1 r })).rateTaps e (engineAt s e).tx.rate r

/-- The rate step is to be taken once the three frames that carry the TRAIN word of its start have gone (R417, R425; log 72). -/
def State.agreeRate (e r : Nat) (s : State) : State := s.modEngine e (fun x => { x with bringUp := { x.bringUp with wait := some (r, 3) } })

/-- What this end begins in a step (Table 14-3). -/
def State.stepWork (e k : Nat) (s : State) : State :=
  match k with
  | 2 => s.runLasers e
  | 3 => s.rateStep e 0
  | 4 => s.rateTaps e 0 0
  | 5 => s.agreeRate e 1
  | 6 => s.agreeRate e 2
  | 7 => s.agreeRate e 3
  | 8 => s.chooseDirection e
  | _ => s

/-- Whether every ring of a side has locked, or has failed to. -/
def ringsSettled (x : Engine) (side : Nat) : Bool :=
  (List.range 36).all (fun w => let q := (waveRing x (36 * side + w)).state
                                q == .locked || q == .failed || q == .dark || q == .retired)

/-- Whether every wavelength that this end receives in lock is in frame lock (R412). -/
def framesSettled (x : Engine) : Bool := (lockedLambdas x 1).all (fun w => x.rx.frameLock.getD w false)

/-- Whether this end has done its part of the step that it is in: the transmit rings have locked; the drop rings have, and the frames; the margin test of the
rate has its result, the frames being in lock and no switch to come (R425, Table 14-3; log 72). Step 1 is done with the HELLO that starts an attempt, and step 8
ends with the switch. -/
def workDone (x : Engine) : Bool :=
  match x.bringUp.step with
  | 2 => ringsSettled x 0
  | 3 => ringsSettled x 1 && framesSettled x
  | 4 | 5 | 6 | 7 => x.bringUp.wait.isNone && framesSettled x && decide (x.bringUp.step - 4 < x.bringUp.passing.length)
  | _ => false

/-- The rate step that TRAIN names for a step: that of the step, or the one in force at step 8 (Table 14-2). -/
def stepRate (x : Engine) (k : Nat) : Nat := if k < 8 then k - 4 else x.tx.rate

/-- This end enters a step (R425). -/
def State.enterStep (e k : Nat) (s : State) : State :=
  (s.modEngine e (fun x => { x with bringUp := { x.bringUp with step := k, selfDone := false, partnerDone := false } })).stepWork e k

/-- Both ends have sent TRAIN done: this one starts the next step, and says so (R425). -/
def State.startNext (e : Nat) (s : State) : State :=
  let k := stepAfter (engineAt s e).bringUp
  (s.sendWord e (trainWord k 0 (stepRate (engineAt s e) k))).enterStep e k

/-- This end sends TRAIN done once it has done its part of the step; where the other end has sent it before, the step is over (R425). -/
def State.stepDone (e : Nat) (s : State) : State :=
  let x := engineAt s e
  if x.state ≠ .training ∨ x.bringUp.selfDone = true ∨ workDone x = false then s
  else
    let s1 := (s.modEngine e (fun x => { x with bringUp := { x.bringUp with selfDone := true } })).sendWord e
      (trainWord x.bringUp.step 1 (stepRate x x.bringUp.step))
    if x.bringUp.partnerDone then s1.startNext e else s1

/-- One frame less to a rate step that waits; with none left it is taken, at PROBE level where bring-up begins again (R425, R443). -/
def State.takeWait (e : Nat) (s : State) : State :=
  let x := engineAt s e
  match x.bringUp.wait with
  | none => s
  | some (r, n) =>
    if x.state ≠ .training then s
    else
      let s1 := s.modEngine e (fun x => { x with bringUp := { x.bringUp with wait := if n = 0 then none else some (r, n - 1) } })
      if 0 < n then s1
      else
        let s2 := s1.rateStep e r
        if x.bringUp.step ≤ 1 then s2.probeLasers e else s2

/-- What bring-up does as the engine comes to its next frame: a rate step that falls due, and the step done. -/
def State.beforeFrame (e : Nat) (s : State) : State := (s.takeWait e).stepDone e

/-- What the margin tests of this end have found, rate step by rate step (R407). -/
def State.notePassing (e : Nat) (passing : List (List (Fin 36))) (s : State) : State :=
  if passing.isEmpty then s
  else s.modEngine e (fun x => { x with bringUp := { x.bringUp with passing := passing.map (fun l => l.map (·.val)) } })

/-- TRAIN: a step starts, is done or fails; on an UP link the partner's link-down notice, or the end of a rate change (R425, R427, R443, R446). -/
def State.onTrain (e : EngineId) (step status : Nat) (_rate : Fin 4) (passing : List (List (Fin 36))) (s0 : State) : State :=
  let x := engineAt s0 e
  match x.state with
  | .up =>
    if status = 2 ∧ step = 0 then (s0.linkDown e)
    else match x.tx.change with
      | some c => if status = 1 ∧ c.switched = true ∧ c.rateChange = true then (s0.endChange e 0) else s0
      | none => s0
  | .training =>
    let s := (s0.notePassing e passing).stepDone e
    let b := (engineAt s e).bringUp
    if b.step = 0 then s0
    else match status with
      | 0 => if nextStep b step then (s.enterStep e step) else s
      | 1 =>
        if step ≠ b.step ∨ 8 ≤ step then s
        else if b.selfDone then s.startNext e
        else s.modEngine e (fun x => { x with bringUp := { x.bringUp with partnerDone := true } })
      | 2 => if step = 0 then s else (s.failAttempt e)
      | _ => s
  | _ => s0

/-- TRAIN as a command of its own (see `State.onTrain`). -/
def execTrain (e : EngineId) (step status : Nat) (rate : Fin 4) (passing : List (List (Fin 36))) (s : State) : Host.Outcome State Fault Refusal :=
  .next (s.onTrain e step status rate passing)

/-! ## Maps, rates and widths (R394, R417, R446, R447) -/

/-- Whether an engine takes slot words. -/
def takesWords (x : Engine) : Bool := x.state == .up || x.state == .training

/-- MAP: a move of a slot at its effective frame; the sender of the direction echoes it (R394, R416, R446). -/
def State.onMap (e : EngineId) (slot : Fin 32) (dir : Bool) (fibre : Fin 2) (lambda : Fin 18) (effective : Nat) (s : State) : State :=
  if !takesWords (engineAt s e) then s
  else
    let m := (slot.val, 18 * fibre.val + lambda.val, effective % 2048)
    let side := sideOfDir dir
    let s1 := s.modDir e side (fun d =>
      if d.maps.any (fun x => x.1 == m.1 && x.2.1 == m.2.1) then d else { d with maps := d.maps ++ [m] })
    if dir then (s1.sendWord e (mapWord slot 0 fibre lambda effective)) else s1

/-- MAP as a command of its own (see `State.onMap`). -/
def execMap (e : EngineId) (slot : Fin 32) (dir : Bool) (fibre : Fin 2) (lambda : Fin 18) (effective : Nat) (s : State) : Host.Outcome State Fault Refusal :=
  .next (s.onMap e slot dir fibre lambda effective)

/-- Whether a rate step lies within what both ends have (R422, R425). -/
def rateAllowed (b : BringUp) (r : Nat) : Bool := b.partner.isNone || decide (r ≤ topRate b)

/-- RATE_WIDTH: a change of this end's transmit direction begins, or waits; the words are echoed and no new DATA flit is sent. An echo changes
nothing (R446, R447). -/
def State.onRateWidth (e : EngineId) (rate width : Fin 4) (dir : Bool) (effective : Nat) (s : State) : State :=
  let x := engineAt s e
  if !takesWords x || !dir || !rateAllowed x.bringUp rate then s
  else
    let w := widthOfCode width
    if x.tx.change.isSome then (s.modDir e 0 (fun d => { d with deferred := d.deferred ++ [(rate.val, w, effective % 65536)] }))
    else
      let s1 := s.modDir e 0 (fun d => { d with change := some { rate := rate, width := w, effective := effective % 65536,
                                                                 rateChange := decide (rate.val ≠ d.rate), switched := false } })
      (s1.sendWord e (rateWord rate width 0 effective))

/-- RATE_WIDTH as a command of its own (see `State.onRateWidth`). -/
def execRateWidth (e : EngineId) (rate width : Fin 4) (dir : Bool) (effective : Nat) (s : State) : Host.Outcome State Fault Refusal :=
  .next (s.onRateWidth e rate width dir effective)

/-- The maps of a direction that are effective first. -/
def dueMaps (d : Direction) : List (Nat × Nat × Nat) :=
  match d.maps with
  | [] => []
  | m :: _ => d.maps.filter (fun x => x.2.2 % 2048 == m.2.2 % 2048)

/-- The wavelengths that maps bear on switch with the next frame of a direction: no training block is sent on them in it (R424). -/
def Direction.noteSwitch (l : List (Nat × Nat × Nat)) (d : Direction) : Direction :=
  { d with switched := l.flatMap (fun m => [(m.2.1, d.frame), (d.slotRing.getD m.1 0, d.frame)]) }

/-- Both ends take a map: the slot runs on its new wavelength, an event of each (R394, R417). -/
def State.switchMaps (e side : Nat) (s : State) : State :=
  let l := dueMaps (dirOf (engineAt s e) side)
  let s1 := (s.modDir e side (fun d => (d.noteSwitch l).takeMaps l)).modEngine e (Engine.settleRings side)
  if (engineAt s e).state = .up then l.foldl (fun t m => t.raiseWave e 3 (36 * side + m.2.1) m.1) s1 else s1

/-- A direction's part of step 8 is done. -/
def Engine.bringSet (side : Nat) (x : Engine) : Engine :=
  { x with bringUp := if side = 0 then { x.bringUp with txSet := true } else { x.bringUp with rxSet := true } }

/-- A direction has its rate, width and map of step 8; when both have, the link is UP (R425, R426). -/
def State.directionSet (e side : Nat) (s : State) : State :=
  let s1 := s.modEngine e (fun x => (x.modDir side (fun d => { d with change := none })).bringSet side)
  let b := (engineAt s1 e).bringUp
  if b.rxSet && b.txSet then s1.linkUp e else s1

/-- Whether a direction has come to an effective frame, of so many bits (R417). -/
def reached (x : Engine) (side effective modulus : Nat) : Bool := decide ((nextFrame x side + modulus - effective % modulus) % modulus < modulus / 2)

/-- Whether every wavelength that a receive direction uses is in frame lock, that of a slot that has paused meanwhile aside (R446 step 5, R447). -/
def relocked (d : Direction) : Bool := (List.range d.width).all (fun k => d.paused.contains k || d.frameLock.getD (d.slotRing.getD k 0) false)

/-- EFFECTIVE_FRAME: once a direction has come to the frame, both ends switch. A width change ends at once; a rate change ends, for the receiver, with the command
given again once every wavelength in service is in frame lock, and for the sender with TRAIN done (R394, R417, R446). -/
def execEffectiveFrame (e : EngineId) (dir : Bool) (s : State) : Host.Outcome State Fault Refusal :=
  let side := bnat dir
  let x := engineAt s e
  if !takesWords x then .next s
  else match (dirOf x side).change with
    | some c =>
      if c.switched then (if side = 1 ∧ relocked x.rx = true then .next (s.endChange e 1) else .next s)
      else if !reached x side c.effective 65536 then .next s
      else
        let s0 := s.switchChange e side c
        let s1 := if !c.rateChange then s0 else if side = 0 then s0.rateTaps e x.tx.rate c.rate else s0.modEngine e (fun x => { x with ffe := x.ffe.map Ffe.anew })
        if x.state = .training then .next (s1.directionSet e side)
        else if c.rateChange then .next s1 else .next (s1.endChange e side)
    | none => match (dirOf x side).maps with
      | [] => .next s
      | m :: _ => if reached x side m.2.2 2048 then .next (s.switchMaps e side) else .next s

/-- LIVE_CHANGE_TIMEOUT: a change not complete in 50 µs declares the link down; in bring-up it fails the attempt (R427, R442, R446). -/
def execLiveChangeTimeout (e : EngineId) (dir : Bool) (s : State) : Host.Outcome State Fault Refusal :=
  let x := engineAt s e
  if (dirOf x (bnat dir)).change.isNone then .next s
  else
    let s1 := s.raise (srcId 2 e 0x12) (bnat dir)
    match x.state with
    | .up => .next (s1.linkDown e)
    | .training => .next (s1.failAttempt e)
    | _ => .next s

/-! ## Equalisation (R420–R422) -/

/-- One step of a tap; at its limit it stays and says so. -/
def Ffe.move (post : Bool) (action : Nat) (f : Ffe) : Ffe :=
  let v := if post then f.post else f.pre
  let top := if post then 20 else 12
  let set (n : Nat) : Ffe := if post then { f with post := n, atLimit := false } else { f with pre := n, atLimit := false }
  match action with
  | 1 => if v < top then set (v + 1) else { f with atLimit := true }
  | 2 => if 0 < v then set (v - 1) else { f with atLimit := true }
  | _ => { f with atLimit := false }

/-- FFE_ACK: ring index, taps, limit. -/
def ffeAckWord (w : Nat) (f : Ffe) : CtrlWord := { kind := 6, payload := w + 64 * f.pre + 4096 * f.post + 2 ^ 18 * bnat f.atLimit }

/-- FFE_REQ: a transmit tap moves one step and is reported; a forerunner's request is not honoured (R421, R422). -/
def State.onFfeReq (e : EngineId) (ring : Fin 36) (post : Bool) (action : Nat) (s : State) : State :=
  let x := engineAt s e
  if !takesWords x || isForerunner x.bringUp || decide (2 < action) then s
  else
    let f := (x.ffe.getD ring Ffe.reset).move post action
    ((s.modEngine e (fun x => { x with ffe := setAt x.ffe ring f })).sendWord e (ffeAckWord ring f))

/-- FFE_REQ as a command of its own (see `State.onFfeReq`). -/
def execFfeReq (e : EngineId) (ring : Fin 36) (post : Bool) (action : Nat) (s : State) : Host.Outcome State Fault Refusal :=
  .next (s.onFfeReq e ring post action)

/-- The adaptation of one tap after a request up or down, and the action that is asked for: once eight requests in a row have alternated, hold (R421). -/
def Adapt.step (up : Bool) (a : Adapt) : Adapt × Option Nat :=
  if a.converged then (a, none)
  else if 8 ≤ a.alternations then ({ a with converged := true }, some 0)
  else ({ a with lastUp := some up, alternations := if a.lastUp = some (!up) then a.alternations + 1 else 1 }, some (if up then 1 else 2))

/-- A request for a tap of the partner: 0 hold, 1 a greater magnitude, 2 a smaller one. -/
def ffeReqWord (w : Nat) (post : Bool) (action : Nat) : CtrlWord := { kind := 5, payload := w + 64 * bnat post + 256 * action }

/-- Whether the receiver adapts the partner's taps on a wavelength at a frame: its HELLO offers it, no change of the direction is under way, and the slot there,
if any, is not paused, and not idle but for a training block (R421, R423, R424). -/
def adapting (x : Engine) (w : Nat) (tb : Bool) : Bool :=
  let d := x.rx
  let slot := (d.slotRing.take d.width).findIdx (· == w)
  (match x.bringUp.partner with | some h => h.adaptive && h.generation != 1 | none => false)
  && d.change.isNone && (x.state == .up || (x.state == .training && decide (4 ≤ x.bringUp.step) && x.bringUp.wait.isNone))
  && (d.width ≤ slot || (!d.paused.contains slot && (!d.frozen || tb)))

/-- FFE_ACK: the partner's taps as reported (R421). -/
def State.onFfeAck (e : EngineId) (ring : Fin 36) (pre post : Nat) (_limit : Bool) (s : State) : State :=
  let x := engineAt s e
  if !takesWords x || isForerunner x.bringUp then s
  else s.modEngine e (fun x => { x with ffe := modAt x.ffe ring (fun f => { f with partnerPre := pre, partnerPost := post }) })

/-- Frames of a rate step that take 10 µs (R411, R421). -/
def framesIn10us (rate : Nat) : Nat := [40, 79, 118, 157].getD rate 157

/-- Once in 10 µs, and at each training block of an idle slot, the receiver asks for a step of each tap that has not converged, up or down as the sign of its
error correlation says, which is an open value; a tap that converges is told to hold (R421, R424; log 72). -/
def State.adaptTaps (e : EngineId) (w frame : Nat) (tb : Bool) (s : State) : State :=
  let x := engineAt s e
  let n := framesIn10us x.rx.rate
  if (frame % n ≠ n - 1 ∧ (tb && x.rx.frozen) = false) ∨ adapting x w tb = false then s
  else
    let f := x.ffe.getD w Ffe.reset
    let (p, a) := f.preAdapt.step ((freshWord s).getLsbD 0)
    let (q, b) := f.postAdapt.step ((freshWord s).getLsbD 1)
    let ask (post : Bool) (action : Option Nat) (t : State) : State :=
      match action with
      | some k => t.sendWord e (ffeReqWord w post k)
      | none => t
    (ask true b (ask false a (s.modEngine e (fun x => { x with ffe := modAt x.ffe w (fun f => { f with preAdapt := p, postAdapt := q }) })))).spend 1

/-- FFE_ACK as a command of its own (see `State.onFfeAck`). -/
def execFfeAck (e : EngineId) (ring : Fin 36) (pre post : Nat) (limit : Bool) (s : State) : Host.Outcome State Fault Refusal :=
  .next (s.onFfeAck e ring pre post limit)

/-! ## Idle links and the error rate (R423, R424, R442) -/

/-- IDLE_FREEZE: the receiver freezes its adaptation after 10 µs of filler (R423). -/
def execIdleFreeze (e : EngineId) (s : State) : Host.Outcome State Fault Refusal :=
  if (engineAt s e).state = .up then .next (s.modDir e 1 (fun d => { d with frozen := true })) else .next s

/-- TRAINING_BLOCK: a wavelength in service that has been idle for 1 ms is due a training block; one that falls due during a live change waits for its end
(R424). -/
def execTrainingBlock (e : EngineId) (ring : Fin 36) (s : State) : Host.Outcome State Fault Refusal :=
  let x := engineAt s e
  let q := waveRing x ring
  if x.state = .up ∧ q.state = .locked ∧ q.slot < x.tx.width then
    .next (s.modDir e 0 (fun d => { d with tbDue := addOnce ring.val d.tbDue }))
  else .next s

/-- LINK_ERROR_BUCKET: the end of a 1 ms bucket: more than one failed flit in 10⁶ positions over the last 16 takes the link down. The positions are those of the
frames received here and those that the command adds (R442; log 72). -/
def execLinkErrorBucket (e : EngineId) (positions : Nat) (s : State) : Host.Outcome State Fault Refusal :=
  let x := engineAt s e
  if x.state ≠ .up then .next s
  else
    let l := ((x.slotFailed, x.positions + positions) :: x.buckets).take 16
    let s1 := s.modEngine e (fun x => { x with buckets := l, slotFailed := [], positions := 0 })
    if total (l.map (·.2)) < total (l.map (·.1.length)) * 1000000 then .next (s1.linkDown e) else .next s1

end Sys2Proof.Machine
end

