-- ==== Sys2Proof/Machine/Frames.lean ====
section
/-! DEFINITION. Frames of optical links: layout, scrambling, stuffing, void positions, control words, flit order (R411–R419, R424, R432–R437, R441). -/
namespace Sys2Proof.Machine

/-! ## Bits -/

/-- The n low bits of a number, most significant first (R411). -/
def msbBits : Nat → Nat → List Bool
  | 0, _ => []
  | n + 1, v => v.testBit n :: msbBits n v

/-- The number that bits spell, most significant first. -/
def ofMsb (l : List Bool) : Nat := l.foldl (fun a b => 2 * a + bnat b) 0

/-- Bits of a byte, bit 0 first (R432). -/
def byteBits (b : Byte) : List Bool := (List.range 8).map (fun k => b.getLsbD k)

/-- The line bits of a flit: bit b is bit (b mod 8) of byte ⌊b / 8⌋ (R432). -/
def flitBits (f : List Byte) : List Bool := f.flatMap byteBits

/-- The byte that eight bits spell, bit 0 first. -/
def bitsByte (l : List Bool) : Byte := BitVec.ofNat 8 (ofMsb l.reverse)

/-- The bytes of line bits. -/
def bitsFlit : Nat → List Bool → List Byte
  | 0, _ => []
  | n + 1, l => bitsByte (l.take 8) :: bitsFlit n (l.drop 8)

/-- One bit of the CRC-8 x⁸ + x² + x + 1 (Table 14-1). -/
def crc8Bit (r : Nat) (b : Bool) : Nat :=
  if (r ≥ 128) != b then ((2 * r) % 256) ^^^ 7 else (2 * r) % 256

/-- The CRC-8 of bits, initial value 0 (Table 14-1). -/
def crc8 (l : List Bool) : Nat := l.foldl crc8Bit 0

/-- The marker (Table 14-1). -/
def marker : List Bool := msbBits 16 0xE4D2

/-- The control field: tb, void mask, control word, CRC-8 (Table 14-1). -/
def controlField (tb : Bool) (mask : Nat) (w : CtrlWord) : List Bool :=
  let l := tb :: msbBits 4 mask ++ msbBits 4 w.kind ++ msbBits 23 w.payload
  l ++ msbBits 8 (crc8 l)

/-! ## Scrambling and stuffing (R413–R415) -/

/-- The generator's next bit s[k] = s[k − 31] xor s[k − 28]; register bit i holds s[k − 1 − i]. -/
def scrambleBit (r : BitVec 31) : Bool := r.getLsbD 30 != r.getLsbD 27

/-- The generator after one payload bit. -/
def scrambleNext (r : BitVec 31) : BitVec 31 := (r <<< 1) ||| (if scrambleBit r then 1#31 else 0#31)

/-- Bits scrambled from a generator state. -/
def scramble : BitVec 31 → List Bool → List Bool
  | _, [] => []
  | r, b :: t => (b != scrambleBit r) :: scramble (scrambleNext r) t

/-- The generator after n payload bits. -/
def scrambleSkip : Nat → BitVec 31 → BitVec 31
  | 0, r => r
  | n + 1, r => scrambleSkip n (scrambleNext r)

/-- The line after the bits sent so far in a frame: them in reverse, the run of equal bits, the stuff bits so far (R414). -/
structure LineCode where
  sent : List Bool
  last : Bool
  run : Nat
  stuffs : Nat
  deriving DecidableEq, Repr

/-- One bit sent; after 15 equal bits one of the opposite value follows (R414). -/
def LineCode.put (b : Bool) (c : LineCode) : LineCode :=
  let run := if b = c.last then c.run + 1 else 1
  if run = 15 then { sent := (!b) :: b :: c.sent, last := !b, run := 1, stuffs := c.stuffs + 1 }
  else { sent := b :: c.sent, last := b, run, stuffs := c.stuffs }

/-- n alternating bits, starting with the complement of the preceding bit (R415). -/
def LineCode.alternate : Nat → LineCode → LineCode
  | 0, c => c
  | n + 1, c => LineCode.alternate n { sent := (!c.last) :: c.sent, last := !c.last, run := 1, stuffs := c.stuffs }

/-- Four positions sent: flit bits scrambled, a void one alternating; the first position at which the stuff bits exceed 64 (R413–R415). -/
def sendPositions : List (Option (List Bool)) → Nat → BitVec 31 → LineCode → LineCode × Option Nat
  | [], _, _, c => (c, none)
  | q :: t, p, r, c =>
    let c1 := match q with
      | some l => (scramble r l).foldl (fun x b => x.put b) c
      | none => c.alternate 1024
    let rest := sendPositions t (p + 1) (scrambleSkip 1024 r) c1
    (rest.1, if q.isSome ∧ 64 < c1.stuffs then some p else rest.2)

/-- A frame of 4,224 bits, and the first position that does not fit (Table 14-1). -/
def buildFrame (lastBit tb : Bool) (mask : Nat) (w : CtrlWord) (r : BitVec 31) (positions : List (Option (List Bool))) : List Bool × Option Nat :=
  let start : LineCode := { sent := [], last := true, run := 1, stuffs := 0 }
  let c := (controlField tb mask w).foldl (fun x b => x.put b) start
  let (c1, big) := sendPositions positions 0 r c
  let head := (!lastBit) :: marker ++ [true] ++ c1.sent.reverse
  let pad := (LineCode.alternate (4224 - head.length) { c1 with sent := [] }).sent.reverse
  ((head ++ pad).take 4224, big)

/-- The next bit of PRBS-15, x¹⁵ + x¹⁴ + 1. -/
def prbsBits : Nat → Nat → List Bool
  | 0, _ => []
  | n + 1, r =>
    let b := r.testBit 14 != r.testBit 13
    b :: prbsBits n ((2 * r + bnat b) % 32768)

/-- The payload of a training block from a free start (R424, log 4). -/
def trainingPayload (s : State) : List Bool := prbsBits 4096 ((freshWord s).toNat % 32767 + 1)

/-! ## The order of flits (R418, R433, R437, R441) -/

/-- A FILLER flit (R433). -/
def fillerFlit : List Byte := sealFlit 0 0x8000 (leBytes 4 0 ++ List.replicate 124 0)

/-- The flit for the next position of an optical link: LINK, replays, new flits by channel, filler; during a live change LINK and filler only (R433,
R437, R440, R446). -/
def LinkEnd.nextFlit (changing : Bool) (l : LinkEnd) : List Byte × LinkEnd :=
  if l.linkDue then (l.linkFlit, l.reported)
  else if changing then (fillerFlit, l)
  else match l.replays with
    | h :: t => (sealFlit l.ackSeq h.1 h.2.2, { l with replayFrom := (t.head?).map (·.1), ackPending := 0 })
    | [] => match l.newFlit true with
      | some r => r
      | none => (fillerFlit, { l with replayFrom := none })

/-- The flits of the next n positions. -/
def LinkEnd.nextFlits (changing : Bool) : Nat → LinkEnd → List (List Byte) × LinkEnd
  | 0, l => ([], l)
  | n + 1, l =>
    let (f, l1) := l.nextFlit changing
    let (fs, l2) := LinkEnd.nextFlits changing n l1
    (f :: fs, l2)

/-! ## Sending (R411, R417, R418, R424) -/

/-- Priority of a control word (R417). -/
def CtrlWord.rank (w : CtrlWord) : Nat := [9, 0, 1, 2, 3, 6, 7, 5, 4].getD w.kind 9

/-- Whether the sender of a word has given it its effective frame: MAP and RATE_WIDTH (Table 14-2). -/
def CtrlWord.timed (w : CtrlWord) : Bool := w.kind == 3 || w.kind == 4

/-- A word takes its place by priority behind those whose three frames have begun and those that already have their effective frame, which is eight frames after
the frame that first carries them (R417; log 72). -/
def placeWord (l : List (CtrlWord × Nat)) (w : CtrlWord × Nat) : List (CtrlWord × Nat) :=
  let later := l.reverse.takeWhile (fun v => !(decide (v.2 < 3) || v.1.timed || decide (v.1.rank ≤ w.1.rank)))
  l.take (l.length - later.length) ++ w :: later.reverse

/-- The words of the next frame: each on three wavelengths, in ascending ring index; the others carry FRAME (R416, R417). -/
def frameWords (words : List CtrlWord) (frame idle : Nat) (waves : List Nat) : List (Nat × CtrlWord) :=
  ((List.range waves.length).zip waves).map (fun p => (p.2, words.getD (p.1 / 3) { kind := idle, payload := frame }))

/-- Wavelengths that send a training block now: spares always, all during training and a rate change, one in service when it is due and no switch of
it falls on this frame (R394, R424, R446). -/
def trainingWaves (x : Engine) : List Nat :=
  match x.state with
  | .up =>
    let d := x.tx
    (sendingWaves x).filter (fun w =>
      !(d.slotRing.take d.width).contains w
      || (match d.change with | some c => c.switched && c.rateChange | none => false)
      || (d.tbDue.contains w && d.change.isNone && !d.switched.contains (w, d.frame) && !d.maps.any (fun m => m.2.2 % 2048 == d.frame % 2048
            && (m.2.1 == w || d.slotRing.getD m.1 0 == w))))
  | .training => if x.bringUp.step < 3 then [] else List.range 36
  | _ => []

/-- Positions of a frame that may carry flits, in the order of R418: (p, slot). -/
def frameOrder (x : Engine) : List (Nat × Nat) :=
  if x.state = .up then
    let slots := (List.range x.tx.width).filter (fun k => !x.tx.paused.contains k && !(trainingWaves x).contains (x.tx.slotRing.getD k 0))
    (List.range 4).flatMap (fun p => slots.map (fun k => (p, k)))
  else []

/-- Flits laid on the positions that are not void. -/
def layFlits : List (Nat × Nat) → List (Nat × Nat) → List (List Byte) → List ((Nat × Nat) × List Byte)
  | [], _, _ => []
  | q :: t, voids, fs =>
    if voids.contains q then layFlits t voids fs
    else match fs with
      | f :: fs' => (q, f) :: layFlits t voids fs'
      | [] => []

/-- The frame of one wavelength. -/
def waveFrame (x : Engine) (words : List (Nat × CtrlWord)) (training : List Bool) (laid : List ((Nat × Nat) × List Byte)) (w : Nat) :
    List Bool × Option Nat :=
  let d := x.tx
  let r := if d.frame = 0 then scrambleSeed w else d.scrambler.getD w 0
  let word := (lookupKey w words).getD { kind := 0, payload := d.frame }
  let lastBit := d.lastBit.getD w false
  if (trainingWaves x).contains w then
    buildFrame lastBit true 15 word r ((List.range 4).map (fun p => some ((training.drop (1024 * p)).take 1024)))
  else
    let at_ (p : Nat) : Option (List Bool) :=
      (laid.find? (fun q => q.1.1 == p && d.slotRing.getD q.1.2 36 == w)).map (fun q => flitBits q.2)
    let mask := total ((List.range 4).map (fun p => if (at_ p).isSome then 0 else 2 ^ p))
    buildFrame lastBit false mask word r ((List.range 4).map at_)

/-- Void positions are found in order, each moving its flit to the next position, until every frame fits (R415). -/
def findVoids (x : Engine) (words : List (Nat × CtrlWord)) (fs : List (List Byte)) : Nat → List (Nat × Nat) → List (Nat × Nat)
  | 0, voids => voids
  | n + 1, voids =>
    let laid := layFlits (frameOrder x) voids fs
    let big := (frameOrder x).filter (fun q => (waveFrame x words [] laid (x.tx.slotRing.getD q.2 36)).2 == some q.1)
    match big with
    | [] => voids
    | q :: _ => findVoids x words fs n (q :: voids)

/-- Words after one more frame of their three. -/
def sentWords (n : Nat) (l : List (CtrlWord × Nat)) : List (CtrlWord × Nat) :=
  (((List.range l.length).zip l).map (fun p => if p.1 < n then (p.2.1, p.2.2 - 1) else p.2)).filter (fun w => 0 < w.2)

/-- FRAME_TRANSMIT: one frame on each wavelength that sends (R411), bring-up having come so far (R425); the engine's clock by which held flits age runs with its frames (R444). -/
def execFrameTransmit (e : EngineId) (s0 : State) : Host.Outcome State Fault Refusal :=
  let s := s0.beforeFrame e
  let x := engineAt s e
  let waves := sendingWaves x
  if waves.isEmpty || !x.started then .next s
  else
    let d := x.tx
    let hello := x.state == .portAbsent || (x.state == .training && x.bringUp.step == 1)
    let waiting := x.txWords.foldl placeWord []
    let room := Nat.max 1 (waves.length / 3)
    let own := if hello && waiting.isEmpty then [ownHello s] else []
    let words := frameWords ((waiting.take room).map (·.1) ++ own) d.frame 0 waves
    let order := frameOrder x
    let all := (x.link.nextFlits d.change.isSome order.length).1
    let voids := findVoids x words all order.length []
    let (fs, link) := x.link.nextFlits d.change.isSome (order.filter (fun q => !voids.contains q)).length
    let laid := layFlits order voids fs
    let frame (w : Nat) : List Bool := if waves.contains w then (waveFrame x words (trainingPayload s) laid w).1 else []
    let frames := (List.range 36).map frame
    let scr (w : Nat) : BitVec 31 :=
      if waves.contains w then scrambleSkip 4096 (if d.frame = 0 then scrambleSeed w else d.scrambler.getD w 0) else d.scrambler.getD w 0
    .next ((s.modEngine e (fun x =>
      { x with link := link.older (frameUnits d.rate), txFrames := frames, txWords := sentWords room waiting,
               tx := { d with frame := (d.frame + 1) % 65536, scrambler := (List.range 36).map scr,
                              switched := [],
                              lastBit := (List.range 36).map (fun w => ((frame w).getLast?).getD (d.lastBit.getD w false)),
                              tbDue := d.tbDue.filter (fun w => !(trainingWaves x).contains w) } })).spend 1)

/-! ## Receiving (R412–R419) -/

/-- Stuff bits removed: every bit that follows 15 equal bits (R414). -/
def unstuff : List Bool → Bool → Nat → List Bool
  | [], _, _ => []
  | b :: t, last, run =>
    if run = 15 then unstuff t b 1
    else b :: unstuff t b (if b = last then run + 1 else 1)

/-- Lock of one wavelength after a frame: four markers in a row with at least two good control fields among them; lost after four without (R412). -/
def lockStep (found good locked : Bool) (hits crcs miss : Nat) : Bool × Nat × Nat × Nat :=
  let hits' := if found then Nat.min (hits + 1) 4 else 0
  let crcs' := (2 * crcs + bnat (found && good)) % 16
  let miss' := if found then 0 else Nat.min (miss + 1) 4
  let count := bnat (bit 0 crcs') + bnat (bit 1 crcs') + bnat (bit 2 crcs') + bnat (bit 3 crcs')
  ((if locked then decide (miss' < 4) else hits' == 4 && decide (2 ≤ count)), hits', crcs', miss')

/-- A received word that the receiver acts on (Table 14-2); an unassigned bit of a payload is not looked at. -/
def State.takeWord (e : EngineId) (w : CtrlWord) (s : State) : State :=
  let v := w.payload
  match w.kind with
  | 1 => s.pauseSlot e (sideOfDir (bit 5 v)) (bits 4 0 v) false
  | 2 => s.resumeSlot e (sideOfDir (bit 5 v)) (bits 4 0 v) false
  | 3 => if bits 11 7 v < 18 then
      s.onMap e (Fin.ofNat 32 (bits 4 0 v)) (bit 5 v) (Fin.ofNat 2 (bits 6 6 v)) (Fin.ofNat 18 (bits 11 7 v)) (bits 22 12 v) else s
  | 4 => s.onRateWidth e (Fin.ofNat 4 (bits 1 0 v)) (Fin.ofNat 4 (bits 3 2 v)) (bit 4 v) (bits 20 5 v)
  | 5 => if bits 5 0 v < 36 ∧ bits 7 6 v < 2 then s.onFfeReq e (Fin.ofNat 36 (bits 5 0 v)) (bit 6 v) (bits 9 8 v) else s
  | 6 => if bits 5 0 v < 36 then s.onFfeAck e (Fin.ofNat 36 (bits 5 0 v)) (bits 11 6 v) (bits 17 12 v) (bit 18 v) else s
  | 7 =>
    let h : HelloWord := { generation := bits 3 0 v, maxRate := bits 5 4 v, adaptive := bit 6 v, moduleId := bits 18 7 v, plane := bits 19 19 v }
    match (engineAt s e).state with
    | .portAbsent => s
    | _ => s.onHello e h
  | 8 => s.onTrain e (bits 3 0 v) (bits 5 4 v) (Fin.ofNat 4 (bits 7 6 v)) []
  | _ => s

/-- A word acts unless an equal one acted within the last four frames (R417). -/
def State.takeNewWord (e : EngineId) (w : CtrlWord) (s : State) : State :=
  let x := engineAt s e
  let recent := x.rxWords.filter (fun p => (x.rx.frame + 65536 - p.2) % 65536 ≤ 4)
  if recent.any (fun p => p.1 == w) then s
  else (s.modEngine e (fun x => { x with rxWords := recent ++ [(w, x.rx.frame)] })).takeWord e w

/-- Whether a position comes before another, by frame counters that wrap (R417, R418). -/
def before (a b : Nat) : Bool := decide (a ≠ b) && decide ((b + 2 ^ 23 - a) % 2 ^ 23 < 2 ^ 22)

/-- A flit waits in the order of its position (R418). -/
def putFlit (k : Nat) (f : List Byte) (l : List (Nat × List Byte)) : List (Nat × List Byte) := insertBy (fun a b => before a.1 b.1) (k, f) l

/-- The frame counter of one wavelength: as its FRAME word gives it, else one more than that of its frame before (R416, R417). -/
def ownCounter (d : Direction) (w : Nat) (word : Option CtrlWord) : Nat :=
  match word with
  | some c => if c.kind = 0 then c.payload % 65536 else (d.counters.getD w 0 + 1) % 65536
  | none => (d.counters.getD w 0 + 1) % 65536

/-- Whether a wavelength leads its direction: it is the lowest in frame lock (R419; log 57). -/
def leads (d : Direction) (w : Nat) : Bool := ((List.range 36).find? (fun v => d.frameLock.getD v false)).getD w == w

/-- Whether a wavelength in lock shows a frame counter that no skew below a frame explains: neither that of the last frame of the one that leads, nor the next
(R419; log 57). -/
def misaligned (d : Direction) (w own : Nat) (word : Option CtrlWord) : Bool :=
  match word with
  | some c => c.kind == 0 && d.frameLock.getD w false && !leads d w && decide (1 < (own + 65536 - d.frame) % 65536)
  | none => false

/-- FRAME_RECEIVE: one frame of one wavelength: marker and lock, control word, flits in order; one that is not filler ends the freeze (R412–R419, R423). -/
def execFrameReceive (e : EngineId) (fibre : Fin 2) (lambda : Fin 18) (bits_ : List Bool) (s : State) : Host.Outcome State Fault Refusal :=
  let x := engineAt s e
  let w := 18 * fibre.val + lambda.val
  if !x.started || bits_.length != 4224 then .next s
  else
    let d := x.rx
    let found := (bits_.drop 1).take 16 == marker
    let body := unstuff (bits_.drop 18) true 1
    let ctl := body.take 40
    let good := ctl.length == 40 && crc8 (ctl.take 32) == ofMsb (ctl.drop 32)
    let (locked, hits, crcs, miss) :=
      lockStep found good (d.frameLock.getD w false) (d.markerHits.getD w 0) (d.crcHits.getD w 0) (d.markerMiss.getD w 0)
    let word : Option CtrlWord :=
      if found && good then some { kind := ofMsb ((ctl.drop 5).take 4), payload := ofMsb ((ctl.drop 9).take 23) } else none
    let own := ownCounter d w word
    let frame := if leads d w then own else d.frame
    let r := if own = 0 then scrambleSeed w else d.scrambler.getD w 0
    let s1 := s.modDir e 1 (fun d =>
      { d with frameLock := setAt d.frameLock w locked, markerHits := setAt d.markerHits w hits, crcHits := setAt d.crcHits w crcs,
               markerMiss := setAt d.markerMiss w miss, frame, counters := setAt d.counters w own, scrambler := setAt d.scrambler w (scrambleSkip 4096 r) })
    let slot := (d.slotRing.take d.width).findIdx (· == w)
    let carries := decide (slot < d.width) && !d.paused.contains slot
    let s2 :=
      if d.frameLock.getD w false && !locked && carries && x.state == .up then (s1.raiseWave e 2 (36 + w) slot).pauseSlot e 1 slot true else s1
    let mask := ofMsb ((ctl.drop 1).take 4)
    let pay := scramble r ((body.drop 40).take 4096)
    let flits := if x.state == .up && found && locked && carries && !(ctl.headD false) then
        ((List.range 4).filter (fun p => !bit p mask)).map (fun p => (128 * own + 32 * p + slot, bitsFlit 128 ((pay.drop (1024 * p)).take 1024))) else []
    let s3 := (s2.modEngine e (fun x =>
      { x with rxFlits := flits.foldl (fun l q => putFlit q.1 q.2 l) x.rxFlits, positions := x.positions + flits.length,
               rx := { x.rx with frozen := x.rx.frozen && flits.all (fun q => flitKind q.2 == 0) } })).adaptTaps e w own (ctl.headD false)
    let s4 := if misaligned d w own word && (waveRing x (36 + w)).state == .locked then
        (s3.modOeRing e (36 + w) (fun q => { q with tries := 0 })).wrongChannel e (Fin.ofNat 72 (36 + w)) (waveRing x (36 + w)).heater none true else s3
    match word with
    | some c => if c.kind = 0 ∨ 9 ≤ c.kind then .next s4 else .next (s4.takeNewWord e c)
    | none => .next s4

end Sys2Proof.Machine
end

