-- ==== Sys2Proof/Machine/GraphBinary.lean ====
section
/-! DEFINITION. Graph binaries: their layout (R119, R122–R127, R139) and the checks of GRAPH_LOAD (R120, Table 5-5). -/
namespace Sys2Proof.Machine

/-- A check of one field: its offset, and whether it holds. -/
abbrev FieldCheck := Nat × Bool

/-- The offset of the first field whose check fails. -/
def firstBad (l : List FieldCheck) : Option Nat := (l.find? (fun c => !c.2)).map (·.1)

/-! ## Shapes and storage (R79, R123, R125) -/

/-- Product of sizes. -/
def sizeOf (dims : List Nat) : Nat := dims.foldl (· * ·) 1

/-- Element bytes of one block of a code (Table 3-4). -/
def blockBytes (fmt : Nat) : Nat := 4 * elemBits fmt

/-- Blocks of a shape along an axis: the last of each line may be short (R79). -/
def blockCount (dims : List Nat) (axis : Nat) : Nat :=
  let n := dims.getD axis 1
  sizeOf dims / n * ((n + 31) / 32)

/-- Offset of the scale plane: the next multiple of 64 B after the elements (R330; taken for every tensor, log 21). -/
def scaleOffset (fmt : Nat) (dims : List Nat) (axis : Nat) : Nat := roundUp (blockCount dims axis * blockBytes fmt) 64

/-- Storage bytes of a dense shape in a format. -/
def denseBytes (fmt : Nat) (dims : List Nat) (axis : Nat) : Nat :=
  if isBlock fmt then scaleOffset fmt dims axis + blockCount dims axis else sizeOf dims * elemBits fmt / 8

/-- Storage bytes of a tensor of some dims. -/
def TensorDesc.bytesAt (t : TensorDesc) (dims : List Nat) : Nat :=
  if t.cls = 1 then sizeOf dims else denseBytes t.format dims t.blockAxis

/-- Storage bytes of a tensor at its declared dims. -/
def TensorDesc.storage (t : TensorDesc) : Nat := t.bytesAt t.dims

/-- A shape with its leading size replaced. -/
def withLead (n : Nat) (dims : List Nat) : List Nat := match dims with | [] => [] | _ :: t => n :: t

/-! ## Columns (Table 5-4) -/

/-- A column: type, width, offset. -/
structure Column where
  type : Nat
  width : Nat
  offset : Nat
  deriving DecidableEq, Repr

/-- The column at a descriptor. -/
def columnOf (d : List Byte) : Column := { type := field 0 1 d, width := field 2 2 d, offset := field 4 4 d }

/-- Columns of a table tensor. -/
def TensorDesc.cols (attrs : List Byte) (t : TensorDesc) : List Column :=
  (List.range t.columns).map (fun i => columnOf (slice (t.ref + 8 * i) 8 attrs))

/-- Width and alignment that a type implies; BYTES has width 1–256 and no alignment. -/
def columnWidth : Nat → Option Nat
  | 0 => some 4 | 1 => some 8 | 2 => some 4 | 3 => some 8 | 4 => some 4 | 6 => some 8 | _ => none

/-- The checks of one column descriptor that lies at an offset (Table 5-4). -/
def columnFields (at_ stride : Nat) (d : List Byte) : List FieldCheck :=
  let c := columnOf d
  let w := columnWidth c.type
  [(at_, w.isSome || c.type == 5), (at_ + 1, zeroes 1 1 d),
   (at_ + 2, match w with | some n => c.width == n | none => decide (1 ≤ c.width) && decide (c.width ≤ 256)),
   (at_ + 4, decide (c.offset + c.width ≤ stride) && (match w with | some n => c.offset % n == 0 | none => true))]

/-- Whether ranges (offset, size) are disjoint. -/
def disjoint : List (Nat × Nat) → Bool
  | [] => true
  | a :: t => t.all (fun b => decide (a.1 + a.2 ≤ b.1) || decide (b.1 + b.2 ≤ a.1)) && disjoint t

/-! ## Tensors (Tables 5-2, 5-3) -/

/-- The descriptor of a 64 B entry. -/
def tensorOf (e : List Byte) : TensorDesc :=
  { id := field 0 4 e, kind := field 4 1 e, cls := field 5 1 e, format := field 6 1 e, rank := field 7 1 e, blockAxis := field 8 1 e,
    dynamic := bit 0 (field 9 1 e), isPartial := bit 1 (field 9 1 e), columns := field 10 2 e, ref := field 12 4 e,
    dims := (List.range (field 7 1 e)).map (fun i => field (16 + 8 * i) 8 e) }

/-- The checks of one tensor entry at an offset of its binary, in the order of Table 5-2, given the ids before it and where the attribute pool lies
(R120, R122–R125). A partial tensor is of kind TEMP, so that a WEIGHT cannot be one (DESIGN CHOICE, log 76); a table's `ref` names columns, so it is
neither CONST nor WEIGHT (log 23). -/
def tensorFields (attrs : List Byte) (pool constSize : Nat) (seen : List Nat) (at_ : Nat) (e : List Byte) : List FieldCheck :=
  let t := tensorOf e
  let dense := t.cls == 0
  let stride := t.dims.getD 1 0
  [(at_, !seen.contains t.id),
   (at_ + 4, if dense then decide (t.kind ≤ 4) else decide (t.kind ≤ 2)),
   (at_ + 5, decide (t.cls ≤ 1)),
   (at_ + 6, if dense then decide (t.format ≤ 9) else t.format == 0),
   (at_ + 7, if dense then decide (1 ≤ t.rank) && decide (t.rank ≤ 6) else t.rank == 2),
   (at_ + 8, if dense && isBlock t.format then decide (t.blockAxis < t.rank) else t.blockAxis == 0xFF),
   (at_ + 9, decide (field 9 1 e < 4) && (!t.isPartial || (dense && t.kind == 2))),
   (at_ + 10, if dense then t.columns == 0 else decide (1 ≤ t.columns) && decide (t.columns ≤ 64)),
   (at_ + 12, if dense then t.kind == 4 || (if t.kind = 3 then decide (t.ref + t.storage ≤ constSize) else t.ref == 0)
              else decide (t.ref + 8 * t.columns ≤ attrs.length))]
  ++ (List.range t.rank).map (fun i => let n := t.dims.getD i 0; (at_ + 16 + 8 * i,
      if dense then decide (1 ≤ n) && decide (n ≤ 2 ^ 40)
      else if i = 0 then decide (n ≤ 2 ^ 40) else decide (8 ≤ n) && decide (n ≤ 4096) && n % 8 == 0))
  ++ [(at_ + 16, !dense || decide (sizeOf t.dims ≤ 2 ^ 48)), (at_ + 16 + 8 * t.rank, zeroes (16 + 8 * t.rank) (48 - 8 * t.rank) e)]
  ++ (if dense then [] else
      (List.range t.columns).flatMap (fun i => columnFields (pool + t.ref + 8 * i) stride (slice (t.ref + 8 * i) 8 attrs))
      ++ [(at_ + 12, disjoint ((t.cols attrs).map (fun c => (c.offset, c.width))))])

/-! ## Operations (Tables 5-5, 5-5a) -/

/-- Inputs (least, most), outputs and attribute bytes of an opcode; fields are packed in order (R128). -/
def opForm : Nat → Option (Nat × Nat × Nat × Nat)
  | 0x0100 => some (2, 3, 1, 0) | 0x0101 => some (2, 3, 1, 0) | 0x0102 => some (3, 4, 1, 6)
  | 0x0200 => some (2, 2, 1, 0) | 0x0201 => some (2, 2, 1, 0) | 0x0202 => some (2, 2, 1, 0) | 0x0203 => some (2, 2, 1, 0)
  | 0x0204 => some (3, 3, 1, 0) | 0x0205 => some (2, 2, 1, 0) | 0x0206 => some (2, 2, 1, 0)
  | 0x0210 => some (1, 1, 1, 0) | 0x0211 => some (1, 1, 1, 0) | 0x0212 => some (1, 1, 1, 0) | 0x0213 => some (1, 1, 1, 0)
  | 0x0214 => some (1, 1, 1, 0) | 0x0215 => some (1, 1, 1, 0) | 0x0216 => some (1, 1, 1, 0) | 0x0217 => some (1, 1, 1, 0)
  | 0x0218 => some (1, 1, 1, 0) | 0x0219 => some (1, 1, 1, 0) | 0x021A => some (1, 1, 1, 8)
  | 0x0300 => some (1, 1, 1, 1) | 0x0301 => some (1, 1, 1, 1) | 0x0302 => some (1, 1, 1, 1) | 0x0303 => some (1, 1, 1, 1)
  | 0x0304 => some (3, 3, 1, 4) | 0x0305 => some (2, 2, 1, 4)
  | 0x0400 => some (1, 1, 1, 0) | 0x0401 => some (1, 1, 1, 6) | 0x0402 => some (1, 1, 1, 0) | 0x0403 => some (1, 1, 1, 96)
  | 0x0404 => some (1, 4, 1, 1) | 0x0405 => some (2, 2, 1, 0)
  | 0x0500 => some (1, 1, 2, 17) | 0x0501 => some (1, 1, 1, 9) | 0x0502 => some (2, 2, 1, 18) | 0x0503 => some (3, 3, 1, 3)
  | 0x0504 => some (1, 1, 1, 5) | 0x0505 => some (2, 2, 1, 0)
  | 0x0600 => some (1, 1, 1, 4) | 0x0601 => some (1, 1, 1, 4) | 0x0602 => some (1, 1, 1, 4) | 0x0603 => some (1, 1, 1, 6)
  | 0x0604 => some (1, 1, 1, 0)
  | _ => none

/-- The trailing-axis broadcast of two shapes, given reversed (R128). -/
def bcastRev : List Nat → List Nat → Option (List Nat)
  | [], l => some l
  | l, [] => some l
  | a :: s, b :: t => if a = b ∨ b = 1 then (bcastRev s t).map (a :: ·) else if a = 1 then (bcastRev s t).map (b :: ·) else none

/-- The broadcast of two shapes. -/
def bcast (a b : List Nat) : Option (List Nat) := (bcastRev a.reverse b.reverse).map List.reverse

/-- The broadcast of several shapes. -/
def bcastAll (l : List (List Nat)) : Option (List Nat) := l.foldl (fun acc x => acc.bind (bcast x)) (some [])

/-- Formats that may be multiplied (R88). -/
def pairOk (a b : Nat) : Bool := (isBlock a && isBlock b) || ((a == 1 || a == 2) && (b == 1 || b == 2))

/-- FP32, BF16 or FP16, and no partial tensor. -/
def isFloat (t : TensorDesc) : Bool := t.cls == 0 && decide (t.format ≤ 2) && !t.isPartial

/-- A dense tensor. -/
def isDense (t : TensorDesc) : Bool := t.cls == 0

/-- The two innermost sizes. -/
def lastTwo (dims : List Nat) : Nat × Nat := (dims.getD (dims.length - 2) 1, dims.getD (dims.length - 1) 1)

/-- The sizes before them. -/
def leadOf (dims : List Nat) : List Nat := dims.take (dims.length - 2)

/-- A block axis is this one, for a block format. -/
def axisIs (t : TensorDesc) (k : Nat) : Bool := !isBlock t.format || t.blockAxis == k

/-- Constraints of MATMUL and BATCH_MATMUL. -/
def matmulOk (batch : Bool) (ins : List TensorDesc) (y : TensorDesc) : Bool :=
  match ins with
  | a :: b :: c =>
    let (m, k) := lastTwo a.dims
    let (k', n) := lastTwo b.dims
    let lead := bcast (leadOf a.dims) (leadOf b.dims)
    let out := (lead.getD []) ++ [m, n]
    isDense a && isDense b && isDense y && pairOk a.format b.format && (if batch then decide (2 ≤ a.rank) && decide (2 ≤ b.rank) else a.rank == 2 && b.rank == 2)
    && k == k' && decide (Nat.max m (Nat.max n k) ≤ 2 ^ 24) && axisIs a (a.rank - 1) && axisIs b (b.rank - 2) && lead.isSome
    && y.dims == out && c.all (fun t => isFloat t && bcast t.dims out == some out)
  | _ => false

/-- Constraints of ATTENTION; a causal byte above 1 is refused (DESIGN CHOICE, log 76). -/
def attentionOk (ins : List TensorDesc) (o : TensorDesc) (attr : List Byte) : Bool :=
  match ins with
  | q :: k :: v :: mask =>
    let (lq, d) := lastTwo q.dims
    let (lk, d') := lastTwo k.dims
    let (lk', dv) := lastTwo v.dims
    let pf := field 5 1 attr
    let lead := bcastAll [leadOf q.dims, leadOf k.dims, leadOf v.dims]
    let l := lead.getD []
    isDense q && isDense k && isDense v && isDense o && decide (field 4 1 attr ≤ 1) && decide (pf ≤ 9) && pairOk q.format k.format && pairOk pf v.format
    && decide (2 ≤ q.rank) && decide (2 ≤ k.rank) && decide (2 ≤ v.rank) && d == d' && lk == lk' && decide (d ≤ 512) && decide (dv ≤ 512)
    && axisIs q (q.rank - 1) && axisIs k (k.rank - 1) && axisIs v (v.rank - 2) && lead.isSome && o.dims == l ++ [lq, dv]
    && mask.all (fun t => isFloat t && bcast t.dims (l ++ [lq, lk]) == some (l ++ [lq, lk]))
  | _ => false

/-- A shape with an axis dropped. -/
def dropAxis (axis : Nat) (dims : List Nat) : List Nat := dims.take axis ++ dims.drop (axis + 1)

/-- A permutation of a rank in an attribute. -/
def permOf (rank : Nat) (attr : List Byte) : List Nat := (List.range rank).map (fun i => field i 1 attr)

/-- Starts of a SLICE. -/
def sliceStart (rank : Nat) (attr : List Byte) : List Nat := (List.range rank).map (fun i => field (8 * i) 8 attr)
/-- Lengths of a SLICE. -/
def sliceLen (rank : Nat) (attr : List Byte) : List Nat := (List.range rank).map (fun i => field (48 + 8 * i) 8 attr)

/-- Constraints of SLICE. -/
def sliceOk (x w : TensorDesc) (attr : List Byte) : Bool :=
  let st := sliceStart x.rank attr
  let ln := sliceLen x.rank attr
  isDense x && isDense w && w.dims == ln
  && (List.range x.rank).all (fun i => decide (1 ≤ ln.getD i 0) && decide (st.getD i 0 + ln.getD i 0 ≤ x.dims.getD i 0))
  && (!isBlock x.format || (st.getD x.blockAxis 0 % 32 == 0 && ln.getD x.blockAxis 0 % 32 == 0))

/-- Constraints of CONCAT. -/
def concatOk (ins : List TensorDesc) (w : TensorDesc) (axis : Nat) : Bool :=
  match ins with
  | [] => false
  | x :: _ =>
    decide (axis < x.rank) && isDense w && w.format == x.format
    && ins.all (fun t => isDense t && t.format == x.format && t.rank == x.rank && dropAxis axis t.dims == dropAxis axis x.dims)
    && (!isBlock x.format || (w :: ins).all (fun t => axis != t.blockAxis) || ins.all (fun t => t.dims.getD axis 0 % 32 == 0))
    && w.dims == setAt x.dims axis (total (ins.map (fun t => t.dims.getD axis 0)))

/-- Key columns of a table are in range. -/
def keysOk (t : TensorDesc) (n : Nat) (cols : List Nat) : Bool := decide (1 ≤ n) && decide (n ≤ 4) && (cols.take n).all (fun k => decide (k < t.columns))

/-- Two tables of one row layout; that a table made of another has its columns is a DESIGN CHOICE (log 76). -/
def sameRows (attrs : List Byte) (a b : TensorDesc) : Bool := a.cls == 1 && b.cls == 1 && a.dims.getD 1 0 == b.dims.getD 1 0 && a.cols attrs == b.cols attrs

/-- Column types of a table. -/
def typesOf (attrs : List Byte) (t : TensorDesc) : List Nat := if t.cls = 1 then (t.cols attrs).map (·.type) else []

/-- The bytes of an attribute as numbers. -/
def attrBytes (off n : Nat) (attr : List Byte) : List Nat := (List.range n).map (fun i => field (off + i) 1 attr)

/-- Constraints of the relational operations; a kind of JOIN_PROBE or a metric of STRING_SIMILARITY that has no meaning is refused (DESIGN CHOICE,
log 76). -/
def relationalOk (attrs : List Byte) (code : Nat) (ins outs : List TensorDesc) (attr : List Byte) : Bool :=
  match code, ins, outs with
  | 0x0405, [x, i], [w] => isDense x && isDense w && (typesOf attrs i == [0] || typesOf attrs i == [1]) && w.dims == i.dims.getD 0 0 :: x.dims.drop 1
  | 0x0500, [t], [p, s] =>
    let n := field 0 4 attr
    sameRows attrs t p && within' 1 65536 n && keysOk t (field 4 1 attr) (attrBytes 5 4 attr) && p.dims.getD 0 0 == t.dims.getD 0 0
    && typesOf attrs s == [1] && s.dims.getD 0 0 == n + 1
  | 0x0501, [t], [u] => sameRows attrs t u && keysOk t (field 0 1 attr) (attrBytes 1 4 attr)
                        && u.dims.getD 0 0 == t.dims.getD 0 0
  | 0x0502, [l, r], [j] =>
    let n := field 0 1 attr
    l.cls == 1 && r.cls == 1 && keysOk l n (attrBytes 1 4 attr) && keysOk r n (attrBytes 5 4 attr) && decide (field 9 1 attr ≤ 1)
    && (List.range n).all (fun i =>
      let a := (l.cols attrs).getD (field (1 + i) 1 attr) ⟨0, 0, 0⟩
      let b := (r.cols attrs).getD (field (5 + i) 1 attr) ⟨0, 0, 0⟩
      a.type == b.type && a.width == b.width)
    && typesOf attrs j == [6, 6] && j.dims.getD 1 0 == 16 && j.dynamic
  | 0x0503, [j, l, r], [s] =>
    typesOf attrs j == [6, 6] && decide (field 0 1 attr ≤ 2) && (typesOf attrs l).getD (field 1 1 attr) 9 == 5
    && (typesOf attrs r).getD (field 2 1 attr) 9 == 5 && (typesOf attrs s).length == 3 && ((typesOf attrs s).filter (· == 6)).length == 2
    && (typesOf attrs s).contains 4
  | 0x0504, [t], [u] => sameRows attrs t u && (typesOf attrs t).getD (field 0 1 attr) 9 == 4 && u.dynamic
  | 0x0505, [t, i], [u] => sameRows attrs t u && typesOf attrs i == [6]
  | _, _, _ => false
where
  /-- A count in a range. -/
  within' (lo hi v : Nat) : Bool := decide (lo ≤ v) && decide (v ≤ hi)

/-- Constraints of the collectives; a partial tensor's format is that of the result (R124; log 56), and a copy keeps its blocks whole (R141;
log 57); the copies take a TABLE too (DESIGN CHOICE, log 76). -/
def collectiveOk (code : Nat) (x w : TensorDesc) (attr : List Byte) (colls : List CollDesc) : Bool :=
  let i := field 0 4 attr
  let p := ((colls[i]?).map (·.participants)).getD 0
  let d0 := x.dims.getD 0 0
  let sum := isDense x && isDense w && (isFloat x || (x.isPartial && x.format == w.format))
  let blocks := !isBlock x.format || x.blockAxis == w.blockAxis
  match code with
  | 0x0600 => sum && decide (i < colls.length) && w.dims == x.dims
  | 0x0601 => sum && decide (i < colls.length) && d0 == w.dims.getD 0 0 * p && w.dims.drop 1 == x.dims.drop 1 && w.rank == x.rank
  | 0x0602 => x.cls == w.cls && decide (i < colls.length) && x.format == w.format && w.dims.getD 0 0 == d0 * p && w.dims.drop 1 == x.dims.drop 1 && w.rank == x.rank
              && blocks && (!isBlock x.format || x.blockAxis != 0 || d0 % 32 == 0)
  | 0x0603 => x.cls == w.cls && decide (i < colls.length) && x.format == w.format && w.dims == x.dims && decide (field 4 2 attr < p) && blocks
  | _ => false

/-- Constraints of Table 5-5 on one operation. -/
def opConstraint (attrs : List Byte) (colls : List CollDesc) (code : Nat) (ins outs : List TensorDesc) (attr : List Byte) : Bool :=
  let x := ins.getD 0 (tensorOf [])
  let y := outs.getD 0 (tensorOf [])
  let axis := field 0 1 attr
  if code = 0x0100 then matmulOk false ins y
  else if code = 0x0101 then matmulOk true ins y
  else if code = 0x0102 then attentionOk ins y attr
  else if 0x0200 ≤ code ∧ code ≤ 0x0206 then ins.all isDense && isDense y && bcastAll (ins.map (·.dims)) == some y.dims
  else if 0x0210 ≤ code ∧ code ≤ 0x0219 then isDense x && isDense y && x.dims == y.dims
  else if code = 0x021A then
    let lo := fval (field 0 4 attr)
    let hi := fval (field 4 4 attr)
    isDense x && isDense y && x.dims == y.dims && (lo.lt hi || lo.eqv hi)
  else if 0x0300 ≤ code ∧ code ≤ 0x0302 then
    isDense x && isDense y && decide (axis < x.rank) && (y.dims == setAt x.dims axis 1 || y.dims == dropAxis axis x.dims)
  else if code = 0x0303 then isDense x && isDense y && decide (axis < x.rank) && x.dims == y.dims
  else if code = 0x0304 ∨ code = 0x0305 then
    isDense x && isDense y && x.dims == y.dims && (ins.drop 1).all (fun g => isFloat g && bcast g.dims x.dims == some x.dims)
  else if code = 0x0400 then isDense x && isDense y && x.dims == y.dims
  else if code = 0x0401 then
    let p := permOf x.rank attr
    isDense x && isDense y && decide p.Nodup && p.all (fun k => decide (k < x.rank)) && y.dims == p.map (fun k => x.dims.getD k 1)
  else if code = 0x0402 then isDense x && isDense y && sizeOf x.dims == sizeOf y.dims && axisIs x (x.rank - 1) && axisIs y (y.rank - 1)
  else if code = 0x0403 then sliceOk x y attr
  else if code = 0x0404 then concatOk ins y axis
  else if code = 0x0604 then isDense x && isDense y && x.isPartial && x.format == y.format && x.dims == y.dims
  else if 0x0600 ≤ code then collectiveOk code x y attr colls
  else relationalOk attrs code ins outs attr

/-- Contributions that one output element of an operation can receive, when its length is fixed at load (R104). -/
def opContribs (code : Nat) (ins : List TensorDesc) (attr : List Byte) : Nat :=
  let x := ins.getD 0 (tensorOf [])
  let fixed (axis : Nat) : Nat := if axis = 0 ∧ x.dynamic = true then 0 else x.dims.getD axis 0
  if code = 0x0100 ∨ code = 0x0101 then
    let k := (lastTwo x.dims).2
    (if isBlock x.format then (k + 31) / 32 else k) + (ins.length - 2)
  else if code = 0x0102 then
    let k := ins.getD 1 (tensorOf [])
    let v := ins.getD 2 (tensorOf [])
    let len (t : TensorDesc) : Nat := if t.rank = 2 ∧ t.dynamic = true then 0 else (lastTwo t.dims).1
    Nat.max (lastTwo x.dims).2 (Nat.max (len k) (len v))
  else if 0x0300 ≤ code ∧ code ≤ 0x0303 then fixed (field 0 1 attr)
  else if code = 0x0304 ∨ code = 0x0305 then fixed (x.rank - 1)
  else 0

/-- Contributions of an operation of a graph: a collective counts every participant's, those of a partial tensor being its writer's (R104). -/
def graphContribs (ts : List TensorDesc) (ops : List OpDesc) (colls : List CollDesc) (o : OpDesc) : Nat :=
  let ins := o.ins.filterMap (fun id => ts.find? (fun t => t.id == id))
  if o.opcode = 0x0600 ∨ o.opcode = 0x0601 then
    let p := ((colls[field 0 4 o.attr]?).map (·.participants)).getD 1
    let x := ins.getD 0 (tensorOf [])
    match (if x.isPartial then ops.find? (fun q => q.outs.contains x.id) else none) with
    | some q => p * opContribs q.opcode (q.ins.filterMap (fun id => ts.find? (fun t => t.id == id))) q.attr
    | none => p
  else opContribs o.opcode ins o.attr

/-- An operation entry as its fields. -/
def opOf (attrs : List Byte) (e : List Byte) : OpDesc :=
  { opcode := field 0 2 e, fast := bit 0 (field 2 1 e), conv := field 3 1 e, ins := (List.range (field 4 1 e)).map (fun i => field (8 + 4 * i) 4 e),
    outs := (List.range (field 5 1 e)).map (fun i => field (0x18 + 4 * i) 4 e), attr := slice (field 0x20 4 e) (field 0x24 4 e) attrs }

/-- The tensor of an id. -/
def findTensor (ts : List TensorDesc) (id : Nat) : Option TensorDesc := ts.find? (fun t => t.id == id)

/-- The checks of one operation entry at an offset of its binary, in the order of Table 5-5a, given the tensors written by earlier entries
(R120, R124, R127, R128); a constraint of Table 5-5 that its operands break together is a fault of `in` (DESIGN CHOICE, log 80). -/
def opFields (attrs : List Byte) (ts : List TensorDesc) (colls : List CollDesc) (written : List Nat) (at_ : Nat) (e : List Byte) :
    List FieldCheck :=
  let o := opOf attrs e
  let form := opForm o.opcode
  let (lo, hi, no, na) := form.getD (0, 0, 0, 0)
  let nin := field 4 1 e
  let nout := field 5 1 e
  let ins := o.ins.filterMap (findTensor ts)
  let outs := o.outs.filterMap (findTensor ts)
  let takesPartial := o.opcode == 0x0600 || o.opcode == 0x0601 || o.opcode == 0x0604
  let givesPartial := o.opcode == 0x0100 || o.opcode == 0x0101 || o.opcode == 0x0300
  [(at_, form.isSome), (at_ + 2, decide (field 2 1 e < 2)), (at_ + 3, (convOf o.conv).isSome),
   (at_ + 4, decide (lo ≤ nin) && decide (nin ≤ hi)), (at_ + 5, nout == no), (at_ + 6, zeroes 6 2 e)]
  ++ (List.range 4).map (fun i => (at_ + 8 + 4 * i,
      if i < nin then
        match findTensor ts (field (8 + 4 * i) 4 e) with
        | some t => (t.kind == 0 || t.kind == 3 || t.kind == 4 || written.contains t.id) && (!t.isPartial || takesPartial)
        | none => false
      else field (8 + 4 * i) 4 e == 0xFFFFFFFF))
  ++ (List.range 2).map (fun i => (at_ + 0x18 + 4 * i,
      if i < nout then
        match findTensor ts (field (0x18 + 4 * i) 4 e) with
        | some t => (t.kind == 1 || t.kind == 2) && !written.contains t.id && (!t.isPartial || givesPartial) && !(o.outs.take i).contains t.id
        | none => false
      else field (0x18 + 4 * i) 4 e == 0xFFFFFFFF))
  ++ [(at_ + 0x20, decide (field 0x20 4 e + na ≤ attrs.length)), (at_ + 0x24, field 0x24 4 e == na), (at_ + 0x28, zeroes 0x28 8 e),
      (at_ + 8, opConstraint attrs colls o.opcode ins outs o.attr)]

/-! ## The whole binary (Table 5-1, R119–R121, R322) -/

/-- What GRAPH_LOAD finds: a graph, or a status with the kind and index of the first failing entry and the offset of its failing field. -/
inductive GraphCheck where
  | good (g : Graph)
  | bad (status : Status) (kind index offset : Nat)
  deriving DecidableEq, Repr

/-- The regions of a binary: offset and size, with the field that places each. -/
def graphRegions (m : List Byte) : List (Nat × Nat × Nat) :=
  [(0x14, field 0x14 4 m, 64 * field 0x10 4 m), (0x1C, field 0x1C 4 m, 48 * field 0x18 4 m), (0x20, field 0x20 4 m, field 0x24 4 m),
   (0x2C, field 0x2C 4 m, 32 * field 0x28 4 m), (0x30, field 0x30 4 m, field 0x34 4 m)]

/-- A region starts at a multiple of 8, lies in the binary and meets neither the header nor an earlier region. -/
def regionOk (size : Nat) (before : List (Nat × Nat × Nat)) (r : Nat × Nat × Nat) : Bool :=
  r.2.1 % 8 == 0 && (r.2.2 == 0 || (decide (r.2.1 + r.2.2 ≤ size) && decide (64 ≤ r.2.1)
    && (before.filter (fun q => q.2.2 != 0)).all (fun q => disjoint [q.2, r.2])))

/-- The checks of the header (Table 5-1), in the order of its fields. -/
def graphHeader (m : List Byte) : List FieldCheck :=
  let size := field 8 4 m
  let rs := graphRegions m
  let region (i : Nat) : FieldCheck := let r := rs.getD i (0, 0, 0); (r.1, regionOk size (rs.take i) r)
  [(0, field 0 4 m == 0x52474C51), (4, field 4 2 m == 1), (6, field 6 2 m == 64), (8, decide (64 ≤ size) && decide (size ≤ 2 ^ 26) && decide (size ≤ m.length)),
   (0xC, decide (field 0xC 4 m < 2)), (0x10, decide (1 ≤ field 0x10 4 m) && decide (field 0x10 4 m ≤ 65536)), region 0,
   (0x18, decide (1 ≤ field 0x18 4 m) && decide (field 0x18 4 m ≤ 65536)), region 1, region 2, (0x28, decide (field 0x28 4 m ≤ 256)), region 3, region 4,
   (0x38, zeroes 0x38 4 m), (0x3C, field 0x3C 4 m == crc32c (overlay 0x3C [0, 0, 0, 0] (m.take size)))]

/-- The checks of one collective entry at an offset of its binary (Table 5-6). -/
def collFields (seen : List Nat) (at_ : Nat) (e : List Byte) : List FieldCheck :=
  [(at_, !seen.contains (field 0 4 e)), (at_ + 4, decide (1 ≤ field 4 2 e) && decide (field 4 2 e ≤ 4096)), (at_ + 6, decide (field 6 2 e < 2)),
   (at_ + 8, decide (1 ≤ field 8 4 e) && decide (field 8 4 e ≤ 60000)), (at_ + 0xC, zeroes 0xC 20 e)]

/-- A collective entry as its fields. -/
def collOf (e : List Byte) : CollDesc := { id := field 0 4 e, participants := field 4 2 e, planeB := bit 0 (field 6 2 e), joinTimeout := field 8 4 e }

/-- The first entry of a table that fails: its index and the offset of its failing field. `check` sees what the entries before it leave (`add`). -/
def firstBadEntry (check : List Nat → Nat → List Byte → List FieldCheck) (add : List Byte → List Nat) (base size : Nat) :
    Nat → List (List Byte) → List Nat → Option (Nat × Nat)
  | _, [], _ => none
  | i, e :: t, seen =>
    match firstBad (check seen (base + size * i) e) with
    | some o => some (i, o)
    | none => firstBadEntry check add base size (i + 1) t (add e ++ seen)

/-- Equal pieces of a table. -/
def entries (off size n : Nat) (m : List Byte) : List (List Byte) := (List.range n).map (fun i => slice (off + size * i) size m)

/-- The checks of R120, in the order of R322. -/
def checkGraph (m : List Byte) : GraphCheck :=
  match firstBad (graphHeader m) with
  | some o => .bad .badDescriptor 0 0xFFFFFFFF o
  | none =>
    let attrs := slice (field 0x30 4 m) (field 0x34 4 m) m
    let consts := slice (field 0x20 4 m) (field 0x24 4 m) m
    let te := entries (field 0x14 4 m) 64 (field 0x10 4 m) m
    let oe := entries (field 0x1C 4 m) 48 (field 0x18 4 m) m
    let ce := entries (field 0x2C 4 m) 32 (field 0x28 4 m) m
    let ts := te.map tensorOf
    let colls := ce.map collOf
    let ops := oe.map (opOf attrs)
    let ids (e : List Byte) : List Nat := [field 0 4 e]
    match firstBadEntry (tensorFields attrs (field 0x30 4 m) consts.length) ids (field 0x14 4 m) 64 0 te [],
      firstBadEntry (opFields attrs ts colls) (fun e => (opOf attrs e).outs) (field 0x1C 4 m) 48 0 oe [],
      firstBadEntry collFields ids (field 0x2C 4 m) 32 0 ce [] with
    | some (i, o), _, _ => .bad .badDescriptor 1 i o
    | none, some (i, o), _ => .bad .badDescriptor 2 i o
    | none, none, some (i, o) => .bad .badDescriptor 3 i o
    | none, none, none =>
      match (List.range ops.length).find? (fun i =>
        match ops[i]? with
        | some o => decide (contribLimit < graphContribs ts ops colls o)
        | none => false) with
      | some i => .bad .tooLarge 2 i (field 0x1C 4 m + 48 * i)
      | none => .good { allExact := bit 0 (field 0xC 4 m), tensors := ts, ops, colls, attrs, consts, crc := field 0x3C 4 m }

end Sys2Proof.Machine
end

