-- ==== Sys2Proof/Machine/Vector.lean ====
section
/-! DEFINITION. The functions of the vector unit: fixed algorithms that are not given, held to the error that the manual states (R129; log 5). -/
namespace Sys2Proof.Machine

/-! ## Fixed point: a value v stands for v · 2⁻⁴⁰⁰ -/

/-- One. -/
def fxOne : Nat := 2 ^ 400
/-- Product. -/
def fxMul (a b : Nat) : Nat := a * b / fxOne
/-- Quotient. -/
def fxDiv (a b : Nat) : Nat := a * fxOne / b
/-- Square root. -/
def fxSqrt (a : Nat) : Nat := isqrt (a * fxOne)
/-- More than any FP32 value. -/
def fxHuge : Nat := 2 ^ 530

/-- The sum of n terms, each from the one before by its number. -/
def fxSeries (step : Nat → Nat → Nat) : Nat → Nat → Nat → Nat
  | 0, _, _ => 0
  | n + 1, k, t => t + fxSeries step n (k + 1) (step k t)

/-- e to a power up to 150: the series at a 256th of it, squared eight times. -/
def fxExp (x : Nat) : Nat :=
  let y := x / 256
  (List.range 8).foldl (fun r _ => fxMul r r) (fxSeries (fun k t => fxMul t y / (k + 1)) 60 0 fxOne)

/-- artanh t = t + t³/3 + t⁵/5 + …, for t up to 1/3. -/
def fxArtanh (t : Nat) : Nat := total ((List.range 80).map (fun k => fxMul t (Nat.iterate (fxMul (fxMul t t)) k fxOne) / (2 * k + 1)))

/-- arctan (1/q), as the sums of its positive and its negative terms. -/
def fxArctan (q : Nat) : Nat :=
  let term (k : Nat) : Nat := fxOne / (q ^ (2 * k + 1) * (2 * k + 1))
  total ((List.range 45).map (fun k => term (2 * k) - term (2 * k + 1)))

/-- π, by Machin's formula. -/
def fxPi : Nat := 16 * fxArctan 5 - 4 * fxArctan 239

/-- e^x. -/
def expOf (x : Int) : Nat :=
  if 150 * fxOne < x.natAbs then (if x < 0 then 0 else fxHuge) else if x < 0 then fxDiv fxOne (fxExp x.natAbs) else fxExp x.natAbs

/-- ln x of a positive x: its power of two and the rest from 1 to 2. -/
def lnOf (x : Nat) : Int :=
  let m := x * fxOne / 2 ^ Nat.log2 x
  ((Nat.log2 x : Int) - 400) * (2 * fxArtanh (fxOne / 3)) + 2 * fxArtanh (fxDiv (m - fxOne) (m + fxOne))

/-- tanh x. -/
def tanhOf (x : Int) : Int :=
  if 75 * fxOne < x.natAbs then x.sign * fxOne
  else
    let e := fxExp (2 * x.natAbs)
    x.sign * fxDiv (e - fxOne) (e + fxOne)

/-- 1 / (1 + e^−x). -/
def sigmoidOf (x : Int) : Nat :=
  if 150 * fxOne < x.natAbs then (if x < 0 then 0 else fxOne)
  else
    let e := fxExp x.natAbs
    fxDiv (if x < 0 then fxOne else e) (e + fxOne)

/-- (1 + erf (x/√2)) / 2, by the series of odd powers over odd factorials about 1/2. -/
def normalOf (x : Int) : Nat :=
  let a := x.natAbs
  if 16 * fxOne < a then (if x < 0 then 0 else fxOne)
  else
    let q := fxMul a a
    let h := fxDiv (fxSeries (fun k t => fxMul t q / (2 * k + 3)) 400 0 a) (fxMul (fxExp (q / 2)) (fxSqrt (2 * fxPi)))
    if x < 0 then fxOne / 2 - h else fxOne / 2 + h

/-! ## The functions of R129 -/

/-- The functions that the vector unit approximates. -/
inductive VecFn where
  | rsqrt | exp | log | tanh | sigmoid | gelu | silu
  deriving DecidableEq, Repr

/-- A finite FP32 value in fixed point. -/
def fxOf (neg : Bool) (m : Nat) (e : Int) : Int := (if neg then -1 else 1) * (m * 2 ^ (e + 400).toNat : Nat)

/-- The exact value of a function, in fixed point; none where the manual gives no value: at a NaN, at the ends of LOG and RSQRT, and of GELU and SILU at
−Inf (log 5). -/
def VecFn.exact (f : VecFn) (x : Num) : Option Int :=
  match x, f with
  | .nan, _ => none
  | .inf neg, .exp => some (if neg then 0 else fxHuge)
  | .inf neg, .tanh => some (if neg then -fxOne else fxOne)
  | .inf neg, .sigmoid => some (if neg then 0 else fxOne)
  | .inf neg, .rsqrt => if neg then none else some 0
  | .inf neg, _ => if neg then none else some fxHuge
  | .fin neg m e, .rsqrt => if neg || m == 0 then none else some (isqrt (2 ^ 1200 / (fxOf false m e).toNat))
  | .fin neg m e, .log => if neg || m == 0 then none else some (lnOf (fxOf false m e).toNat)
  | .fin neg m e, .exp => some (expOf (fxOf neg m e))
  | .fin neg m e, .tanh => some (tanhOf (fxOf neg m e))
  | .fin neg m e, .sigmoid => some (sigmoidOf (fxOf neg m e))
  | .fin neg m e, .gelu => some (fxOf neg m e * normalOf (fxOf neg m e) / fxOne)
  | .fin neg m e, .silu => some (fxOf neg m e * sigmoidOf (fxOf neg m e) / fxOne)

/-- The weight of the last place of FP32 at a value. -/
def fxUlp (a : Int) : Nat := 2 ^ Nat.min 504 (Nat.max 251 (Nat.log2 a.natAbs - 23))

/-- Whether an FP32 word is within 2 ULP of a value; the 2⁻³⁰ more is for what the fixed point itself cuts off. -/
def withinUlps (a : Int) (w : Nat) : Bool :=
  match fval w with
  | .nan => false
  | .inf neg => decide (0 < (if neg then -a else a)) && decide (2 ^ 528 ≤ a.natAbs + 2 * fxUlp a)
  | .fin neg m e => decide ((fxOf neg m e - a).natAbs * 2 ^ 30 ≤ (2 ^ 31 + 1) * fxUlp a)

/-- The algorithm that an implementation has for a function. -/
def VecFn.algorithm : VecFn → Word → Word
  | .rsqrt => Config.rsqrtFn | .exp => Config.expFn | .log => Config.logFn | .tanh => Config.tanhFn | .sigmoid => Config.sigmoidFn
  | .gelu => Config.geluFn | .silu => Config.siluFn

/-- A vector function (R129; log 5): what the algorithm gives where that keeps to 2 ULP, else the exact value rounded; where the exact value is not given,
what the algorithm gives, a NaN in its canonical form (R76). -/
def vecFn (f : VecFn) (a : Nat) : Nat :=
  let w := (f.algorithm (BitVec.ofNat 32 a)).toNat
  match f.exact (fval a) with
  | some x => if withinUlps x w then w else fround (.fin (decide (x < 0)) x.natAbs (-400))
  | none => if fval w == .nan then nanCode fp32 else w

end Sys2Proof.Machine
end

