-- ==== Sys2Proof/Machine/Tensors.lean ====
section
/-! DEFINITION. Tensors of a run as values: elements in row-major order, FP32 arithmetic over them, sums under the mode bit (R97–R100, R106, R110, R126, R129, R131). -/
namespace Sys2Proof.Machine

/-! ## Indices -/

/-- The coordinates of a row-major index. -/
def coordsOf (dims : List Nat) (i : Nat) : List Nat :=
  match dims with
  | [] => []
  | _ :: t => (i / sizeOf t) :: coordsOf t (i % sizeOf t)

/-- The row-major index of coordinates. -/
def indexOf (dims coords : List Nat) : Nat :=
  match dims, coords with
  | _ :: t, c :: u => c * sizeOf t + indexOf t u
  | _, _ => 0

/-- The index in a tensor of some shape that a coordinate of the broadcast shape reads (R128). -/
def bcastIndex (dims coords : List Nat) : Nat :=
  indexOf dims (List.zipWith (fun d c => if d = 1 then 0 else c) dims (coords.drop (coords.length - dims.length)))

/-- The index lists of the lines of a shape along an axis, in row-major order of the other axes. -/
def lineIndices (dims : List Nat) (axis : Nat) : List (List Nat) :=
  let len := dims.getD axis 1
  let inner := sizeOf (dims.drop (axis + 1))
  (List.range (sizeOf (dims.take axis))).flatMap (fun o =>
    (List.range inner).map (fun n => (List.range len).map (fun j => (o * len + j) * inner + n)))

/-! ## Elements (R77–R79) -/

/-- One element: its code and the scale code of its block (0x7F outside block formats). -/
abbrev Elem := Nat × Nat

/-- Where an element lies: its block, row-major with the block axis divided by 32 (log 41), and its place in the block. -/
def blockPlace (dims : List Nat) (axis i : Nat) : Nat × Nat :=
  let c := coordsOf dims i
  let k := c.getD axis 0
  (indexOf (setAt dims axis ((dims.getD axis 1 + 31) / 32)) (setAt c axis (k / 32)), k % 32)

/-- Elements in row-major order, the scale plane at an offset (R78, R79). -/
def unpackAt (plane fmt axis : Nat) (dims : List Nat) (l : List Byte) : List Elem :=
  let n := sizeOf dims
  if isBlock fmt then
    (List.range n).map (fun i =>
      let p := blockPlace dims axis i
      (unpackElem (elemBits fmt) p.2 (slice (blockBytes fmt * p.1) (blockBytes fmt) l), field (plane + p.1) 1 l))
  else (List.range n).map (fun i => (field (elemBits fmt / 8 * i) (elemBits fmt / 8) l, 127))

/-- The elements of a dense tensor in its storage layout. -/
def unpackDense (fmt axis : Nat) (dims : List Nat) (l : List Byte) : List Elem := unpackAt (scaleOffset fmt dims axis) fmt axis dims l

/-- The element indices of block b, `none` for padding (R79). -/
def blockMembers (dims : List Nat) (axis b : Nat) : List (Option Nat) :=
  let c := coordsOf (setAt dims axis ((dims.getD axis 1 + 31) / 32)) b
  (List.range 32).map (fun k =>
    let j := 32 * c.getD axis 0 + k
    if j < dims.getD axis 1 then some (indexOf dims (setAt c axis j)) else none)

/-- Element bytes, and scale bytes, of a dense tensor. -/
def planesOf (fmt axis : Nat) (dims : List Nat) (l : List Elem) : List Byte × List Byte :=
  if isBlock fmt then
    let blocks := (List.range (blockCount dims axis)).map (blockMembers dims axis)
    (blocks.flatMap (fun b => packElems (elemBits fmt) (b.map (fun m => match m with | some i => (l.getD i (0, 127)).1 | none => 0))),
     blocks.map (fun b => BitVec.ofNat 8 ((b.findSome? id).elim 127 (fun i => (l.getD i (0, 127)).2))))
  else (l.flatMap (fun e => leBytes (elemBits fmt / 8) e.1), [])

/-- The bytes of a dense tensor in its storage layout. -/
def packDense (fmt axis : Nat) (dims : List Nat) (l : List Elem) : List Byte :=
  let p := planesOf fmt axis dims l
  if isBlock fmt then p.1 ++ List.replicate (scaleOffset fmt dims axis - p.1.length) 0 ++ p.2 else p.1

/-! ## Rows of the cache (R237) -/

/-- A row as a key/value block holds it: its elements, then its scales (log 24). -/
def packRow (fmt axis : Nat) (row : List Nat) (l : List Elem) : List Byte := let p := planesOf fmt axis (1 :: row) l; p.1 ++ p.2

/-- Bytes of such a row. -/
def rowBytes (fmt axis : Nat) (row : List Nat) : Nat :=
  if isBlock fmt then blockCount (1 :: row) axis * (blockBytes fmt + 1) else sizeOf row * elemBits fmt / 8

/-- The elements of such a row. -/
def unpackRow (fmt axis : Nat) (row : List Nat) (l : List Byte) : List Elem :=
  unpackAt (blockCount (1 :: row) axis * blockBytes fmt) fmt axis (1 :: row) l

/-- Bytes of the elements of n rows of so many elements whose blocks run along the rows. -/
def rowsPlane (fmt cols n : Nat) : Nat := (elemBits fmt * cols * n + 7) / 8

/-- n rows whose blocks run along them, as a key/value block holds them: the elements row by row, then the scales of each 32 rows (log 24). -/
def packRows (fmt cols n : Nat) (l : List Elem) : List Byte :=
  packElems (elemBits fmt) (l.map (·.1))
  ++ (List.range ((n + 31) / 32)).flatMap (fun g => (List.range cols).map (fun j => BitVec.ofNat 8 (l.getD (32 * g * cols + j) (0, 127)).2))

/-- The elements of such rows. -/
def unpackRows (fmt cols n : Nat) (l : List Byte) : List (List Elem) :=
  (List.range n).map (fun i => (List.range cols).map (fun j =>
    (unpackElem (elemBits fmt) (i * cols + j) l, field (rowsPlane fmt cols n + i / 32 * cols + j) 1 l)))

/-- The value of an element (R73, R77). -/
def elemValue (fmt : Nat) (e : Elem) : Num := scaled e.2 (elemNum fmt e.1)

/-- An element as an FP32 word (R83, R129); one of 2^128 or more is an infinity (log 42). -/
def elemWord (fmt : Nat) (e : Elem) : Nat := fround (elemValue fmt e)

/-! ## Conversion of results (R82–R87, R90, R106) -/

/-- What a conversion needs: destination format, block axis, shape, conv byte, and the SR key. -/
structure Dest where
  fmt : Nat
  axis : Nat
  dims : List Nat
  conv : Conv
  seed : Nat
  tensor : Nat
  inst : Nat
  deriving DecidableEq, Repr

/-- The random bits of an element. -/
def Dest.draw (d : Dest) (i : Nat) : Nat := if d.conv.round = .sr then srBits d.seed d.tensor d.inst i else 0

/-- Values converted to a destination, in row-major order. -/
def Dest.encode (d : Dest) (vals : List Num) : List Elem :=
  match fmtOf d.fmt with
  | none => vals.map (fun _ => (0, 127))
  | some (.plain f) => (List.range vals.length).map (fun i => (toPlain f d.conv (vals.getD i .zero) (d.draw i), 127))
  | some f =>
    let blocks := (List.range (blockCount d.dims d.axis)).map (fun b =>
      encodeBlock f d.conv ((blockMembers d.dims d.axis b).filterMap (fun m => m.map (fun i => (vals.getD i .zero, d.draw i)))))
    (List.range vals.length).map (fun i =>
      let p := blockPlace d.dims d.axis i
      let b := blocks.getD p.1 (0x7F, [])
      (b.2.getD p.2 0, b.1))

/-! ## Copies of elements (R128, R141) -/

/-- A source element: its value's format, itself, and the block it comes from. -/
structure Source where
  fmt : Nat
  elem : Elem
  block : Nat
  deriving DecidableEq, Repr

/-- The elements of one input as sources; `tag` tells inputs apart. -/
def sourcesOf (tag fmt axis : Nat) (dims : List Nat) (l : List Elem) : List Source :=
  (List.range l.length).map (fun i =>
    { fmt, elem := l.getD i (0, 127), block := tag * 2 ^ 64 + (if isBlock fmt then (blockPlace dims axis i).1 else i) })

/-- A source that writes zero. -/
def zeroSource (fmt : Nat) : Source := { fmt, elem := (0, 127), block := 2 ^ 96 }

/-- Whether every block of a destination takes its elements from one source block. -/
def blocksWhole (d : Dest) (l : List Source) : Bool :=
  (List.range (blockCount d.dims d.axis)).all (fun b =>
    match (blockMembers d.dims d.axis b).filterMap (fun m => m.map (fun i => (l.getD i (zeroSource d.fmt)).block)) with
    | [] => true
    | x :: t => t.all (· == x))

/-- Elements moved to a destination: copied bit for bit when the format is the same and no block mixes sources, NaN payloads and codes that read as
zero among them (DESIGN CHOICE, log 73), else converted once under `conv`. -/
def Dest.move (d : Dest) (l : List Source) : List Elem :=
  if l.all (fun x => x.fmt == d.fmt) && (!isBlock d.fmt || blocksWhole d l) then l.map (·.elem)
  else d.encode (l.map (fun x => elemValue x.fmt x.elem))

/-! ## Sums (R97–R100, R104–R106, R110) -/

/-- A value rounded to FP32 in the matrix unit's Fast mode: a finite one stays finite (R89); which finite value stands beyond FP32 is not given (log 74). -/
def froundFinite (x : Num) : Nat :=
  match x with
  | .fin neg m e =>
    let w := fround x
    if w % 2 ^ 31 = infCode fp32 then
      let v := (Config.fastOver (if neg then -(m : Int) else m) e).toNat
      v / 2 ^ 31 * 2 ^ 31 + Nat.min (v % 2 ^ 31) (infCode fp32 - 1)
    else w
  | _ => fround x

/-- a + b in the matrix unit's Fast mode. -/
def faddFinite (a b : Nat) : Nat := froundFinite ((fval a).add (fval b))

/-- FP32 terms added in an order that is not given: two terms at a time, chosen by the implementation's constant (log 12). -/
def fastSum (add : Nat → Nat → Nat) (key : Nat) : Nat → List Nat → Nat
  | 0, l => l.headD 0
  | _, [] => 0
  | _, [x] => x
  | fuel + 1, l =>
    let c := Config.fastOrder key l.length
    let i := c % l.length
    let rest := l.eraseIdx i
    let j := c / l.length % rest.length
    fastSum add key fuel (setAt rest j (add (rest.getD j 0) (l.getD i 0)))

/-- A result of a sum before its conversion: exact, or an FP32 word of Fast mode. -/
inductive Sum where
  | exact (a : Acc)
  | fast (w : Nat)
  deriving DecidableEq, Repr

/-- The value that is converted once (R106, R110). -/
def Sum.value : Sum → Num
  | .exact a => a.value
  | .fast w => fval w

/-- Contributions counted. -/
def Sum.count : Sum → Nat
  | .exact a => a.count
  | .fast _ => 0

/-- A sum rounded to FP32 (R131). -/
def Sum.word (x : Sum) : Nat := fround x.value

/-- A sum that takes part in further steps, rounded to FP32; none above the limit of R104. -/
def Sum.bounded (x : Sum) : Option Nat := if contribLimit < x.count then none else some x.word

/-- Whether a record keeps its residues (R109, R115). -/
def sumOk : Sum → Bool
  | .exact a => a.residuesOk
  | .fast _ => true

/-- A sum of no contribution under the mode. -/
def Sum.none (exact : Bool) : Sum := if exact then .exact Acc.empty else .fast 0

/-- A reduction's sum of FP32 words under the mode (R100, R110). -/
def sumWords (exact : Bool) (key : Nat) (l : List Nat) : Sum :=
  if exact then .exact (l.foldl (fun a w => a.add (fval w)) Acc.empty) else .fast (fastSum fadd key l.length l)

/-- The special value that products give whatever the mode (R89). -/
def specialOf (l : List Num) : Option Num :=
  let pos := l.any (fun x => x == .inf false)
  let neg := l.any (fun x => x == .inf true)
  if l.any (fun x => x == .nan) || (pos && neg) then some .nan
  else if pos then some (.inf false)
  else if neg then some (.inf true)
  else none

/-- Groups of 32. -/
def chunks {α : Type} (k : Nat) : Nat → List α → List (List α)
  | 0, _ => []
  | fuel + 1, l => if l.isEmpty then [] else l.take k :: chunks k fuel (l.drop k)

/-- One group of products of Fast mode: the adder tree of fixed shape over 32 products, those of padding elements zero, then the scales (R79, R110).
Each product is rounded to FP32 before the tree (DESIGN CHOICE, log 74); what is finite stays finite (R89). -/
def fastGroup (fa fb : Nat) (l : List (Elem × Elem)) : Nat :=
  let tree := fastSum faddFinite 0 32 (l.map (fun p => froundFinite ((elemNum fa p.1.1).mul (elemNum fb p.2.1))) ++ List.replicate (32 - l.length) 0)
  match l with
  | [] => 0
  | p :: _ => froundFinite (scaled p.2.2 (scaled p.1.2 (fval tree)))

/-- A dot product with addends under the mode (R89, R98–R100, R110). -/
def dot (exact : Bool) (key fa fb : Nat) (l : List (Elem × Elem)) (adds : List Nat) : Sum :=
  if exact then
    let a1 := if isBlock fa then
        (chunks 32 l.length l).foldl (fun a g => a.blockProduct (elemWeight fa + elemWeight fb) ((g.head?.map (·.1.2)).getD 127)
          ((g.head?.map (·.2.2)).getD 127) (g.map (fun p => (elemNum fa p.1.1, elemNum fb p.2.1)))) Acc.empty
      else l.foldl (fun a p => a.add ((elemNum fa p.1.1).mul (elemNum fb p.2.1))) Acc.empty
    .exact (adds.foldl (fun a w => a.add (fval w)) a1)
  else
    match specialOf (l.map (fun p => (elemValue fa p.1).mul (elemValue fb p.2)) ++ adds.map fval) with
    | some .nan => .fast (nanCode fp32)
    | some (.inf n) => .fast (signCode fp32 n + infCode fp32)
    | _ =>
      let terms := (chunks 32 l.length l).map (fastGroup fa fb) ++ adds
      .fast (fastSum faddFinite key terms.length terms)

/-! ## FP32 order (R129) -/

/-- Canonical NaN of FP32. -/
def nan32 : Nat := nanCode fp32

/-- Whether an FP32 word is a NaN. -/
def isNan32 (w : Nat) : Bool := fval w == .nan

/-- Position of an FP32 word in the order −Inf < … < −0 < +0 < … < +Inf < NaN, all NaNs equal (R126). -/
def orderKey32 (w : Nat) : Nat :=
  if isNan32 w then 2 ^ 32 else if w.testBit 31 then 2 ^ 32 - 1 - w % 2 ^ 32 else 2 ^ 31 + w % 2 ^ 31

/-- MAX (R129). -/
def fmax (a b : Nat) : Nat := if isNan32 a || isNan32 b then nan32 else if orderKey32 a < orderKey32 b then b else a
/-- MIN (R129). -/
def fmin (a b : Nat) : Nat := if isNan32 a || isNan32 b then nan32 else if orderKey32 b < orderKey32 a then b else a
/-- ABS: the sign bit cleared. -/
def fabs (a : Nat) : Nat := if isNan32 a then nan32 else a % 2 ^ 31
/-- NEG: the sign bit turned. -/
def fneg (a : Nat) : Nat := if isNan32 a then nan32 else (a % 2 ^ 31) + (if a.testBit 31 then 0 else 2 ^ 31)

/-! ## Tables (R125, R126) -/

/-- The rows of a table. -/
def rowsOf (stride n : Nat) (l : List Byte) : List (List Byte) := (List.range n).map (fun i => slice (stride * i) stride l)

/-- A number whose order is the order of a column's values (R126). -/
def columnKey (c : Column) (row : List Byte) : Nat :=
  let v := field c.offset c.width row
  match c.type with
  | 2 => (v + 2 ^ 31) % 2 ^ 32
  | 3 => (v + 2 ^ 63) % 2 ^ 64
  | 4 => orderKey32 v
  | 5 => (slice c.offset c.width row).foldl (fun acc b => 256 * acc + b.toNat) 0
  | _ => v

/-- A BYTES value: up to its first zero byte (R126). -/
def bytesValue (c : Column) (row : List Byte) : List Byte := (slice c.offset c.width row).takeWhile (· != 0)

/-- A row of zeros with fields written. -/
def rowWith (stride : Nat) (fields : List (Nat × Nat × Nat)) : List Byte :=
  fields.foldl (fun l f => overlay f.1 (leBytes f.2.1 f.2.2) l) (List.replicate stride 0)

/-- "No row" (R126). -/
def noRow : Nat := 2 ^ 64 - 1

end Sys2Proof.Machine
end

