-- ==== Sys2Proof/Machine/GraphOps.lean ====
section
/-! DEFINITION. What each dense operation of Table 5-5 computes (R128–R133, R141), as a function of its inputs. -/
namespace Sys2Proof.Machine

/-- An input of an operation as it is at run time: its entry, its actual sizes, its content. -/
structure Operand where
  desc : TensorDesc
  dims : List Nat
  val : TensorVal
  deriving DecidableEq, Repr

/-- What an operation runs under: effective mode, attributes, conv byte, SR key, the collective's rank, the free-value counter, whether
injection inverts its record checks, and in `key` what an open value of the operation depends on (log 83). -/
structure OpEnv where
  exact : Bool
  conv : Conv
  attr : List Byte
  attrs : List Byte
  seed : Nat
  inst : Nat
  rank : Nat
  free : Nat
  key : List Nat
  inverted : Bool := false
  deriving DecidableEq, Repr

/-- How an operation ends: its outputs, or a status and, for JOIN_PROBE, the count needed (R148). -/
inductive OpResult where
  | ok (outs : List TensorVal)
  | fail (status : Status) (needed : Nat)
  deriving DecidableEq, Repr

/-- The elements of a dense operand. -/
def Operand.elems (o : Operand) : List Elem := unpackDense o.desc.format o.desc.blockAxis o.dims o.val.bytes

/-- Its elements as FP32 words. -/
def Operand.words (o : Operand) : List Nat := o.elems.map (elemWord o.desc.format)

/-- Its elements as sources of a copy. -/
def Operand.sources (tag : Nat) (o : Operand) : List Source := sourcesOf tag o.desc.format o.desc.blockAxis o.dims o.elems

/-- The destination of an output. -/
def OpEnv.dest (v : OpEnv) (y : TensorDesc) (dims : List Nat) : Dest :=
  { fmt := y.format, axis := y.blockAxis, dims, conv := v.conv, seed := v.seed, tensor := y.id, inst := v.inst }

/-- A dense output of elements. -/
def denseOut (y : TensorDesc) (dims : List Nat) (l : List Elem) : TensorVal :=
  { id := y.id, dims, bytes := packDense y.format y.blockAxis dims l, records := [] }

/-- A dense output of values, each converted once under `conv` (R129). -/
def OpEnv.put (v : OpEnv) (y : TensorDesc) (dims : List Nat) (vals : List Num) : TensorVal := denseOut y dims ((v.dest y dims).encode vals)

/-- A dense output of FP32 words. -/
def OpEnv.putWords (v : OpEnv) (y : TensorDesc) (dims : List Nat) (ws : List Nat) : OpResult := .ok [v.put y dims (ws.map fval)]

/-- Sums written to an output: as records or FP32 values of a partial tensor, else converted once, after each bin's comparison with its
residue; above the limit of R104 nothing is written (R104, R106, R110, R115, R124, R130). -/
def OpEnv.putSums (v : OpEnv) (y : TensorDesc) (dims : List Nat) (l : List Sum) : OpResult :=
  if !l.all sumOk || (v.inverted && v.exact && !y.isPartial) then .fail .resultSuspect 0
  else if l.any (fun x => decide (contribLimit < x.count)) then .fail .tooLarge 0
  else if y.isPartial then
    .ok [{ id := y.id, dims, bytes := l.flatMap (fun x => match x with | .fast w => leBytes 4 w | .exact _ => []),
           records := l.filterMap (fun x => match x with | .exact a => some a | .fast _ => none) }]
  else .ok [v.put y dims (l.map Sum.value)]

/-! ## Element-wise operations (R129) -/

/-- One input. -/
def opUnary (f : Nat → Nat) (v : OpEnv) (ins : List Operand) (y : TensorDesc) : OpResult :=
  match ins with
  | [x] => v.putWords y x.dims (x.words.map f)
  | _ => .fail .badDescriptor 0

/-- Inputs broadcast to one shape (R128): the shape and the words of each input at it. -/
def broadcastWords (ins : List Operand) : Option (List Nat × List (List Nat)) :=
  (bcastAll (ins.map (·.dims))).map (fun d =>
    (d, ins.map (fun o =>
      let w := o.words
      (List.range (sizeOf d)).map (fun i => w.getD (bcastIndex o.dims (coordsOf d i)) 0))))

/-- Two inputs; actual sizes that do not fit together end it with BAD_DESCRIPTOR, as in every operation (DESIGN CHOICE, log 76). -/
def opBinary (f : Nat → Nat → Nat) (v : OpEnv) (ins : List Operand) (y : TensorDesc) : OpResult :=
  match broadcastWords ins with
  | some (d, [a, b]) => v.putWords y d (List.zipWith f a b)
  | _ => .fail .badDescriptor 0

/-- FMA. -/
def opFma (v : OpEnv) (ins : List Operand) (y : TensorDesc) : OpResult :=
  match broadcastWords ins with
  | some (d, [a, b, c]) => v.putWords y d (List.zipWith (fun p z => ffma p.1 p.2 z) (List.zip a b) c)
  | _ => .fail .badDescriptor 0

/-- CLAMP: MIN(MAX(x, lo), hi). -/
def opClamp (v : OpEnv) (ins : List Operand) (y : TensorDesc) : OpResult :=
  opUnary (fun w => fmin (fmax w (field 0 4 v.attr)) (field 4 4 v.attr)) v ins y

/-! ## Matrix operations (R130, R132) -/

/-- The dot products of a batched matrix product: left operand rows, right operand columns; `bt` reads the right operand transposed. -/
def matSums (exact : Bool) (key fa fb : Nat) (a b : List Elem) (da db lead : List Nat) (bt : Bool) (adds : Nat → List Nat) : List Sum :=
  let (m, k) := lastTwo da
  let n := if bt then (lastTwo db).1 else (lastTwo db).2
  (List.range (sizeOf lead * m * n)).map (fun i =>
    let c := coordsOf lead (i / (m * n))
    let ra := bcastIndex (leadOf da) c * m * k + i / n % m * k
    let ob := bcastIndex (leadOf db) c * k * n
    let j := i % n
    let pairs := (List.range k).map (fun t =>
      (a.getD (ra + t) (0, 127), b.getD (ob + (if bt then j * k + t else t * n + j)) (0, 127)))
    dot exact (key + i) fa fb pairs (adds i))

/-- MATMUL and BATCH_MATMUL (R130). -/
def opMatmul (v : OpEnv) (ins : List Operand) (y : TensorDesc) : OpResult :=
  match ins with
  | a :: b :: c =>
    let (m, k) := lastTwo a.dims
    let (k', n) := lastTwo b.dims
    match bcast (leadOf a.dims) (leadOf b.dims) with
    | none => .fail .badDescriptor 0
    | some lead =>
      let out := lead ++ [m, n]
      if k != k' || c.any (fun z => bcast z.dims out != some out) then .fail .badDescriptor 0
      else
        let cw := c.map (fun z => (z.dims, z.words))
        let adds (i : Nat) : List Nat := cw.map (fun z => z.2.getD (bcastIndex z.1 (coordsOf out i)) 0)
        v.putSums y out (matSums v.exact v.free a.desc.format b.desc.format a.elems b.elems a.dims b.dims lead false adds)
  | _ => .fail .badDescriptor 0

/-- SOFTMAX of one line of words, in FP32 (R131); none when its sum passes the limit of R104. -/
def softmaxLine (exact : Bool) (key : Nat) (l : List Nat) : Option (List Nat) :=
  match l with
  | [] => some []
  | x :: t =>
    let m := t.foldl fmax x
    let e := l.map (fun w => vecFn .exp (fsub w m))
    (sumWords exact key e).bounded.map (fun s => e.map (fun w => fdiv w s))

/-- −Inf in FP32. -/
def negInf32 : Nat := signCode fp32 true + infCode fp32

/-- Whether every position of a row of attention scores is masked (R132). -/
def rowMasked (causal : Bool) (i n : Nat) (mask : Option (List Nat)) : Bool :=
  (List.range n).all (fun j => (causal && decide (i < j)) || (match mask with | some l => l.getD j 0 == negInf32 | none => false))

/-- One row of attention scores: scaled, masked, softmax; zero when every position is masked (R132). -/
def attentionRow (exact : Bool) (key scale : Nat) (causal : Bool) (i : Nat) (scores : List Nat) (mask : Option (List Nat)) : Option (List Nat) :=
  let l := (List.range scores.length).map (fun j =>
    let w := fmul (scores.getD j 0) scale
    let w1 := match mask with | some q => fadd w (q.getD j 0) | none => w
    if causal && decide (i < j) then negInf32 else w1)
  if rowMasked causal i scores.length mask then some (scores.map (fun _ => 0)) else softmaxLine exact key l

/-- ATTENTION: the steps of R132; the scores come to step 1 as FP32, rounded to nearest even (DESIGN CHOICE, log 76). -/
def opAttention (v : OpEnv) (ins : List Operand) (y : TensorDesc) : OpResult :=
  match ins with
  | q :: k :: w :: mask =>
    match bcastAll [leadOf q.dims, leadOf k.dims, leadOf w.dims] with
    | none => .fail .badDescriptor 0
    | some lead =>
      let (lq, d) := lastTwo q.dims
      let (lk, d') := lastTwo k.dims
      let (lk', dv) := lastTwo w.dims
      let shape := lead ++ [lq, lk]
      if d != d' || lk != lk' || mask.any (fun z => bcast z.dims shape != some shape) then .fail .badDescriptor 0
      else
        let s := matSums v.exact v.free q.desc.format k.desc.format q.elems k.elems q.dims k.dims lead true (fun _ => [])
        let sw := s.map Sum.word
        let mw := mask.map (fun z => (z.dims, z.words))
        let pf := field 5 1 v.attr
        let causal := bit 0 (field 4 1 v.attr)
        let maskOf (r : Nat) : Option (List Nat) := match mw with
          | z :: _ => some ((List.range lk).map (fun j => z.2.getD (bcastIndex z.1 (coordsOf shape (r * lk + j))) 0))
          | [] => none
        let rows := (List.range (sizeOf lead * lq)).map (fun r =>
          attentionRow v.exact (v.free + r) (field 0 4 v.attr) causal (r % lq) ((sw.drop (r * lk)).take lk) (maskOf r))
        let pd : Dest := { fmt := pf, axis := shape.length - 1, dims := shape, conv := ⟨.rne, true, false⟩, seed := 0, tensor := 0, inst := 0 }
        match allSome rows with
        | none => .fail .tooLarge 0
        | some ps =>
          let p := pd.encode (ps.flatten.map fval)
          let o := matSums v.exact (v.free + s.length) pf w.desc.format p w.elems shape w.dims lead false (fun _ => [])
          let o' := (List.range o.length).map (fun i =>
            if rowMasked causal (i / dv % lq) lk (maskOf (i / dv)) then Sum.none v.exact else o.getD i (Sum.none v.exact))
          if !s.all sumOk then .fail .resultSuspect 0
          else if s.any (fun x => decide (contribLimit < x.count)) then .fail .tooLarge 0
          else v.putSums y (lead ++ [lq, dv]) o'
  | _ => .fail .badDescriptor 0

/-! ## Reductions and normalisations (R131) -/

/-- The shape of a reduction's output: the axis kept at 1, or dropped. -/
def reducedDims (y : TensorDesc) (dims : List Nat) (axis : Nat) : List Nat :=
  if y.rank = dims.length then setAt dims axis 1 else dropAxis axis dims

/-- REDUCE_SUM. -/
def opReduceSum (v : OpEnv) (ins : List Operand) (y : TensorDesc) : OpResult :=
  match ins with
  | [x] =>
    let axis := field 0 1 v.attr
    let w := x.words
    let lines := lineIndices x.dims axis
    v.putSums y (reducedDims y x.dims axis) ((List.range lines.length).map (fun i =>
      sumWords v.exact (v.free + i) ((lines.getD i []).map (fun j => w.getD j 0))))
  | _ => .fail .badDescriptor 0

/-- REDUCE_MAX and REDUCE_MIN. -/
def opReduceBy (f : Nat → Nat → Nat) (v : OpEnv) (ins : List Operand) (y : TensorDesc) : OpResult :=
  match ins with
  | [x] =>
    let axis := field 0 1 v.attr
    let w := x.words
    v.putWords y (reducedDims y x.dims axis) ((lineIndices x.dims axis).map (fun l =>
      match l.map (fun j => w.getD j 0) with
      | [] => 0
      | z :: t => t.foldl f z))
  | _ => .fail .badDescriptor 0

/-- Lines written back to their places. -/
def scatterLines (n : Nat) (lines : List (List Nat)) (vals : List (List Nat)) : List Nat :=
  let pairs := List.flatten (List.zipWith List.zip lines vals)
  (List.range n).map (fun i => ((pairs.find? (fun p => p.1 == i)).map (·.2)).getD 0)

/-- SOFTMAX along an axis. -/
def opSoftmax (v : OpEnv) (ins : List Operand) (y : TensorDesc) : OpResult :=
  match ins with
  | [x] =>
    let w := x.words
    let lines := lineIndices x.dims (field 0 1 v.attr)
    let outs := (List.range lines.length).map (fun i => softmaxLine v.exact (v.free + i) ((lines.getD i []).map (fun j => w.getD j 0)))
    match allSome outs with
    | some l => v.putWords y x.dims (scatterLines (sizeOf x.dims) lines l)
    | none => .fail .tooLarge 0
  | _ => .fail .badDescriptor 0

/-- A mean in FP32; none when its sum passes the limit of R104. -/
def meanOf (exact : Bool) (key : Nat) (l : List Nat) : Option Nat :=
  (sumWords exact key l).bounded.map (fun w => fdiv w (fround (.fin false l.length 0)))

/-- One normalised line: subtract the mean (LAYERNORM only), divide by the root of the mean square plus eps, scale, add. -/
def normLine (centre exact : Bool) (key eps : Nat) (l g b : List Nat) : Option (List Nat) :=
  (if centre then (meanOf exact key l).map (fun mu => l.map (fun x => fsub x mu)) else some l).bind (fun d =>
    (meanOf exact (key + 1) (d.map (fun x => fmul x x))).map (fun q =>
      let r := vecFn .rsqrt (fadd q eps)
      (List.range l.length).map (fun j =>
        let z := fmul (fmul (d.getD j 0) r) (g.getD j 0)
        if centre then fadd z (b.getD j 0) else z)))

/-- LAYERNORM and RMSNORM over the last axis. -/
def opNorm (centre : Bool) (v : OpEnv) (ins : List Operand) (y : TensorDesc) : OpResult :=
  match broadcastWords ins with
  | some (d, x :: g :: b) =>
    let n := (lastTwo d).2
    let at_ (l : List Nat) (i : Nat) : List Nat := (l.drop (i * n)).take n
    match allSome ((List.range (sizeOf d / n)).map (fun i =>
      normLine centre v.exact (v.free + 2 * i) (field 0 4 v.attr) (at_ x i) (at_ g i) (at_ (b.getD 0 []) i))) with
    | some l => v.putWords y d l.flatten
    | none => .fail .tooLarge 0
  | _ => .fail .badDescriptor 0

/-! ## Copies and conversions (R82, R128, R141) -/

/-- CONVERT: every element converted once under `conv`. -/
def opConvert (v : OpEnv) (ins : List Operand) (y : TensorDesc) : OpResult :=
  match ins with
  | [x] => .ok [v.put y x.dims (x.elems.map (elemValue x.desc.format))]
  | _ => .fail .badDescriptor 0

/-- Elements of one input copied to new places. -/
def OpEnv.copy (v : OpEnv) (y : TensorDesc) (dims : List Nat) (src : List Source) : OpResult := .ok [denseOut y dims ((v.dest y dims).move src)]

/-- TRANSPOSE: axis i of W is axis perm[i] of X. -/
def opTranspose (v : OpEnv) (ins : List Operand) (y : TensorDesc) : OpResult :=
  match ins with
  | [x] =>
    let p := permOf x.dims.length v.attr
    let dims := p.map (fun k => x.dims.getD k 1)
    let src := x.sources 0
    v.copy y dims ((List.range (sizeOf dims)).map (fun i =>
      let c := coordsOf dims i
      src.getD (indexOf x.dims ((List.range p.length).map (fun a => c.getD (p.findIdx (· == a)) 0))) (zeroSource x.desc.format)))
  | _ => .fail .badDescriptor 0

/-- RESHAPE: the row-major order is kept. -/
def opReshape (v : OpEnv) (ins : List Operand) (y : TensorDesc) : OpResult :=
  match ins with
  | [x] =>
    let n := sizeOf x.dims
    let inner := sizeOf (y.dims.drop 1)
    let dims := if n = sizeOf y.dims then y.dims else withLead (n / inner) y.dims
    if sizeOf dims = n then v.copy y dims (x.sources 0) else .fail .badDescriptor 0
  | _ => .fail .badDescriptor 0

/-- SLICE. -/
def opSlice (v : OpEnv) (ins : List Operand) (y : TensorDesc) : OpResult :=
  match ins with
  | [x] =>
    let st := sliceStart x.dims.length v.attr
    let ln := sliceLen x.dims.length v.attr
    if (List.range x.dims.length).all (fun i => decide (st.getD i 0 + ln.getD i 0 ≤ x.dims.getD i 0)) then
      let src := x.sources 0
      v.copy y ln ((List.range (sizeOf ln)).map (fun i =>
        src.getD (indexOf x.dims (List.zipWith (· + ·) st (coordsOf ln i))) (zeroSource x.desc.format)))
    else .fail .badDescriptor 0
  | _ => .fail .badDescriptor 0

/-- Where a coordinate along the joined axis lies: the input and the coordinate in it. -/
def partOf : List Nat → Nat → Nat → Nat × Nat
  | [], k, c => (k, c)
  | n :: t, k, c => if c < n then (k, c) else partOf t (k + 1) (c - n)

/-- Inputs joined along an axis. -/
def joinAxis (axis : Nat) (v : OpEnv) (ins : List Operand) (y : TensorDesc) : OpResult :=
  match ins with
  | [] => .fail .badDescriptor 0
  | x :: t =>
    if t.all (fun z => dropAxis axis z.dims == dropAxis axis x.dims) then
      let lens := ins.map (fun z => z.dims.getD axis 0)
      let dims := setAt x.dims axis (total lens)
      let srcs := (List.range ins.length).map (fun k => match ins[k]? with | some z => z.sources k | none => [])
      v.copy y dims ((List.range (sizeOf dims)).map (fun i =>
        let c := coordsOf dims i
        let (k, r) := partOf lens 0 (c.getD axis 0)
        (srcs.getD k []).getD (indexOf (setAt x.dims axis (lens.getD k 0)) (setAt c axis r)) (zeroSource x.desc.format)))
    else .fail .badDescriptor 0

/-- CONCAT. -/
def opConcat (v : OpEnv) (ins : List Operand) (y : TensorDesc) : OpResult := joinAxis (field 0 1 v.attr) v ins y

/-- GATHER along axis 0; an index out of range writes zero. -/
def opGather (v : OpEnv) (ins : List Operand) (y : TensorDesc) : OpResult :=
  match ins with
  | [x, i] =>
    let col := (i.desc.cols v.attrs).getD 0 ⟨0, 4, 0⟩
    let rows := rowsOf (i.dims.getD 1 8) (i.dims.getD 0 0) i.val.bytes
    let inner := sizeOf (x.dims.drop 1)
    let src := x.sources 0
    v.copy y (rows.length :: x.dims.drop 1) (rows.flatMap (fun r =>
      let k := field col.offset col.width r
      (List.range inner).map (fun j =>
        if k < x.dims.getD 0 0 then src.getD (k * inner + j) (zeroSource x.desc.format) else zeroSource x.desc.format)))
  | _ => .fail .badDescriptor 0

/-! ## Collectives and partial tensors (R124, R133, R141) -/

/-- The sums that a partial tensor holds. -/
def Operand.partials (o : Operand) : List Sum :=
  if o.val.records.isEmpty then (List.range (sizeOf o.dims)).map (fun i => .fast (field (4 * i) 4 o.val.bytes)) else o.val.records.map Sum.exact

/-- FINALISE. -/
def opFinalise (v : OpEnv) (ins : List Operand) (y : TensorDesc) : OpResult :=
  match ins with
  | [x] => v.putSums y x.dims x.partials
  | _ => .fail .badDescriptor 0

/-- Another participant's share of a float or partial tensor: its bytes as sums or words. -/
def partOfBytes (x : Operand) (l : List Byte) : List Sum :=
  let n := sizeOf x.dims
  if x.desc.isPartial then
    if x.val.records.isEmpty then (List.range n).map (fun i => .fast (field (4 * i) 4 l))
    else (List.range n).map (fun i => .exact (accOf (slice (48 * i) 48 l)))
  else (unpackDense x.desc.format x.desc.blockAxis x.dims l).map (fun e => .fast (elemWord x.desc.format e))

/-- Whether every record of a participant passes R109. -/
def partChecks (x : Operand) (l : List Byte) : Bool :=
  !x.desc.isPartial || x.val.records.isEmpty || (List.range (sizeOf x.dims)).all (fun i => recordOk (slice (48 * i) 48 l))

/-- One element summed over the participants: records merge, float elements are contributions, Fast-mode partials are added in FP32. -/
def combine (exact : Bool) (key : Nat) (l : List Sum) : Sum :=
  let recs := l.filterMap (fun x => match x with | .exact a => some a | .fast _ => none)
  let words := l.filterMap (fun x => match x with | .fast w => some w | .exact _ => none)
  if recs.isEmpty then sumWords exact key words else .exact (recs.foldl Acc.merge Acc.empty)

/-- The sums of ALL_REDUCE and REDUCE_SCATTER over every participant. -/
def reduceParts (v : OpEnv) (x : Operand) (parts : List (List Byte)) : List Sum :=
  let own : List Sum := if x.desc.isPartial then x.partials else x.words.map Sum.fast
  let all := own :: parts.map (partOfBytes x)
  (List.range (sizeOf x.dims)).map (fun i =>
    let l := all.map (fun q => q.getD i (Sum.fast 0))
    if x.desc.isPartial ∧ x.val.records.isEmpty then combine false (v.free + i) l else combine v.exact (v.free + i) l)

/-- ALL_REDUCE, and REDUCE_SCATTER with this rank's share (R133). -/
def opReduce (scatter : Bool) (parts : List (List Byte)) (v : OpEnv) (ins : List Operand) (y : TensorDesc) : OpResult :=
  match ins with
  | [x] =>
    if parts.all (partChecks x) then
      let sums := reduceParts v x parts
      let n := parts.length + 1
      let d0 := x.dims.getD 0 0
      if !sums.all sumOk then .fail .resultSuspect 0
      else if !scatter then v.putSums y x.dims sums
      else if d0 % n ≠ 0 then .fail .badDescriptor 0
      else
        let k := sums.length / n
        v.putSums y (withLead (d0 / n) x.dims) ((sums.drop (v.rank * k)).take k)
    else .fail .resultSuspect 0
  | _ => .fail .badDescriptor 0

/-- ALL_GATHER: every participant's tensor joined along axis 0 in rank order, bit for bit (R141; log 57). -/
def opAllGather (parts : List (List Byte)) (v : OpEnv) (ins : List Operand) (y : TensorDesc) : OpResult :=
  match ins with
  | [x] =>
    let all := parts.take v.rank ++ x.val.bytes :: parts.drop v.rank
    if x.desc.cls = 1 then
      let n := sizeOf x.dims
      .ok [{ id := y.id, dims := withLead (all.length * x.dims.getD 0 0) x.dims,
             bytes := all.flatMap (fun l => (l ++ List.replicate n 0).take n), records := [] }]
    else if isBlock x.desc.format ∧ x.desc.blockAxis = 0 ∧ x.dims.getD 0 0 % 32 ≠ 0 then .fail .badDescriptor 0
    else joinAxis 0 v (all.map (fun l => { x with val := { x.val with bytes := l } })) y
  | _ => .fail .badDescriptor 0

/-- BROADCAST: the root's tensor (R141); `root` is its bytes, used on every other rank. -/
def opBroadcast (root : List Byte) (v : OpEnv) (ins : List Operand) (y : TensorDesc) : OpResult :=
  match ins with
  | [x] =>
    let l := if v.rank = field 4 2 v.attr then x.val.bytes else root
    if x.desc.cls = 1 then
      let n := sizeOf x.dims
      .ok [{ id := y.id, dims := x.dims, bytes := (l ++ List.replicate n 0).take n, records := [] }]
    else v.copy y x.dims (({ x with val := { x.val with bytes := l } } : Operand).sources 0)
  | _ => .fail .badDescriptor 0

end Sys2Proof.Machine
end

