-- ==== Sys2Proof/Machine/Relational.lean ====
section
/-! DEFINITION. The relational operations (R126, R134–R138) as functions of their inputs. -/
namespace Sys2Proof.Machine

/-! ## Rows -/

/-- The rows of a table operand. -/
def Operand.rows (o : Operand) : List (List Byte) := rowsOf (o.dims.getD 1 8) (o.dims.getD 0 0) o.val.bytes

/-- The columns of a table operand. -/
def Operand.columns (attrs : List Byte) (o : Operand) : List Column := o.desc.cols attrs

/-- A column by number. -/
def colAt (l : List Column) (k : Nat) : Column := l.getD k ⟨0, 4, 0⟩

/-- A table output of rows; more rows than its declared maximum cannot be written (TOO_LARGE, the model's choice). -/
def tableOut (y : TensorDesc) (stride : Nat) (rows : List (List Byte)) : OpResult :=
  if y.dims.getD 0 0 < rows.length then .fail .tooLarge 0
  else .ok [{ id := y.id, dims := [rows.length, stride], bytes := rows.flatten, records := [] }]

/-- Keys of a row under R126, in attribute order. -/
def rowKeys (cols : List Column) (ks : List Nat) (row : List Byte) : List Nat := ks.map (fun k => columnKey (colAt cols k) row)

/-! ## HASH_PARTITION (R134) -/

/-- mix of R134. -/
def mix (v : Nat) : Nat :=
  let m := 2 ^ 64
  let v1 := ((v ^^^ (v >>> 30)) * 0xBF58476D1CE4E5B9) % m
  let v2 := ((v1 ^^^ (v1 >>> 27)) * 0x94D049BB133111EB) % m
  v2 ^^^ (v2 >>> 31)

/-- The partition number of key bytes. -/
def partitionOf (seed : Nat) (b : List Byte) (p : Nat) : Nat :=
  let h0 := seed ^^^ (b.length * 0x9E3779B97F4A7C15 % 2 ^ 64)
  let h1 := (chunks 8 b.length b).foldl (fun h w => mix (h ^^^ leNat w)) h0
  mix h1 / 2 ^ 32 * p / 2 ^ 32

/-- The key bytes of one column, −0 and NaN made one (R134). -/
def hashBytes (c : Column) (row : List Byte) : List Byte :=
  if c.type = 4 then
    let w := field c.offset 4 row
    leBytes 4 (if isNan32 w then nan32 else if w = 2 ^ 31 then 0 else w)
  else slice c.offset c.width row

/-- HASH_PARTITION: rows grouped by partition, and the first row of each. -/
def opHashPartition (v : OpEnv) (ins : List Operand) (p s : TensorDesc) : OpResult :=
  match ins with
  | [t] =>
    let n := field 0 4 v.attr
    let ks := (attrBytes 5 4 v.attr).take (field 4 1 v.attr)
    let cols := t.columns v.attrs
    let tagged := t.rows.map (fun r => (partitionOf (field 9 8 v.attr) (ks.flatMap (fun k => hashBytes (colAt cols k) r)) n, r))
    let sorted := sortBy (fun a b : Nat × List Byte => decide (a.1 < b.1)) tagged
    let sc := colAt (s.cols v.attrs) 0
    let stride := s.dims.getD 1 8
    let starts := (List.range (n + 1)).map (fun k => rowWith stride [(sc.offset, 8, (tagged.filter (fun x => decide (x.1 < k))).length)])
    .ok [{ id := p.id, dims := t.dims, bytes := (sorted.map (·.2)).flatten, records := [] },
         { id := s.id, dims := [n + 1, stride], bytes := starts.flatten, records := [] }]
  | _ => .fail .badDescriptor 0

/-! ## SORT, FILTER, TABLE_GATHER (R135, R138, R128) -/

/-- Lexicographic order of keys with descending flags. -/
def keysLt : List Nat → List Nat → List Nat → Bool
  | a :: s, b :: t, d :: u => if a = b then keysLt s t u else if d = 1 then decide (b < a) else decide (a < b)
  | _, _, _ => false

/-- SORT: stable. -/
def opSort (v : OpEnv) (ins : List Operand) (y : TensorDesc) : OpResult :=
  match ins with
  | [t] =>
    let n := field 0 1 v.attr
    let ks := (attrBytes 1 4 v.attr).take n
    let ds := (attrBytes 5 4 v.attr).take n
    let cols := t.columns v.attrs
    let sorted := sortBy (fun a b => keysLt (rowKeys cols ks a) (rowKeys cols ks b) ds) t.rows
    .ok [{ id := y.id, dims := t.dims, bytes := sorted.flatten, records := [] }]
  | _ => .fail .badDescriptor 0

/-- FILTER: rows whose column is at least the threshold, NaN never. -/
def opFilter (v : OpEnv) (ins : List Operand) (y : TensorDesc) : OpResult :=
  match ins with
  | [t] =>
    let c := colAt (t.columns v.attrs) (field 0 1 v.attr)
    let th := orderKey32 (field 1 4 v.attr)
    tableOut y (t.dims.getD 1 8) (t.rows.filter (fun r =>
      let w := field c.offset 4 r
      !isNan32 w && decide (th ≤ orderKey32 w)))
  | _ => .fail .badDescriptor 0

/-- TABLE_GATHER: row i of T per row of I; "no row" writes zeros; an index that names no row of T gives bytes the manual does not state
(log 83). -/
def opTableGather (v : OpEnv) (ins : List Operand) (y : TensorDesc) : OpResult :=
  match ins with
  | [t, i] =>
    let c := colAt (i.columns v.attrs) 0
    let stride := t.dims.getD 1 8
    let rows := t.rows
    let rs := i.rows
    tableOut y stride ((List.range rs.length).map (fun n =>
      let k := field c.offset 8 (rs.getD n [])
      if k = noRow then List.replicate stride 0
      else match rows[k]? with
        | some x => x
        | none => (List.range stride).map (fun j => BitVec.ofNat 8 (Config.graphOpen (v.key ++ [n, k, j])).toNat)))
  | _ => .fail .badDescriptor 0

/-! ## JOIN_PROBE (R136) -/

/-- The right rows that match each left row, in order. -/
def joinPairs (l r : List (List Nat)) (left : Bool) : List (Nat × Nat) :=
  (List.range l.length).flatMap (fun i =>
    let hits := (List.range r.length).filter (fun j => r.getD j [] == l.getD i [])
    if hits.isEmpty then (if left then [(i, noRow)] else []) else hits.map (fun j => (i, j)))

/-- JOIN_PROBE. -/
def opJoinProbe (v : OpEnv) (ins : List Operand) (y : TensorDesc) : OpResult :=
  match ins with
  | [l, r] =>
    let n := field 0 1 v.attr
    let kl := l.rows.map (rowKeys (l.columns v.attrs) ((attrBytes 1 4 v.attr).take n))
    let kr := r.rows.map (rowKeys (r.columns v.attrs) ((attrBytes 5 4 v.attr).take n))
    let ps := joinPairs kl kr (field 9 1 v.attr == 1)
    let cols := y.cols v.attrs
    if field 10 8 v.attr < ps.length ∨ y.dims.getD 0 0 < ps.length then .fail .tooLarge ps.length
    else tableOut y 16 (ps.map (fun p => rowWith 16 [((colAt cols 0).offset, 8, p.1), ((colAt cols 1).offset, 8, p.2)]))
  | _ => .fail .badDescriptor 0

/-! ## STRING_SIMILARITY (R137) -/

/-- A rational number: numerator and denominator. -/
abbrev Ratio := Nat × Nat

/-- One row of the edit-distance table. -/
def editRow (c : Byte) : List Byte → List Nat → Nat → List Nat
  | b :: t, d :: e :: u, left =>
    let x := Nat.min (Nat.min (left + 1) (e + 1)) (if b = c then d else d + 1)
    x :: editRow c t (e :: u) x
  | _, _, _ => []

/-- The edit distance. -/
def editDistance (a b : List Byte) : Nat :=
  let first := List.range (b.length + 1)
  let last := (List.range a.length).foldl (fun row i => (i + 1) :: editRow (a.getD i 0) b row (i + 1)) first
  last.getLast?.getD 0

/-- LEVENSHTEIN. -/
def levenshtein (a b : List Byte) : Ratio :=
  let m := Nat.max a.length b.length
  (m - editDistance a b, m)

/-- Adjacent pairs of bytes. -/
def bigrams (l : List Byte) : List (Byte × Byte) := List.zip l (l.drop 1)

/-- Size of the multiset intersection. -/
def common : List (Byte × Byte) → List (Byte × Byte) → Nat
  | [], _ => 0
  | x :: t, l => if l.contains x then 1 + common t (l.erase x) else common t l

/-- BIGRAM_DICE. -/
def bigramDice (a b : List Byte) : Ratio :=
  let p := bigrams a
  let q := bigrams b
  if p.isEmpty && q.isEmpty then (bnat (decide (a = b)), 1) else (2 * common p q, p.length + q.length)

/-- The matches of a in b: positions taken in b for each matched position of a, scanning a from the left and taking the leftmost free match. -/
def jaroMatches (a b : List Byte) : List (Nat × Nat) :=
  let reach := Nat.max a.length b.length / 2
  (List.range a.length).foldl (fun acc i =>
    match (List.range b.length).find? (fun j =>
      b.getD j 0 == a.getD i 0 && decide (i < j + reach) && decide (j < i + reach) && !acc.any (fun p => p.2 == j)) with
    | some j => acc ++ [(i, j)]
    | none => acc) []

/-- Length of the common prefix, at most n. -/
def prefixLen : Nat → List Byte → List Byte → Nat
  | n + 1, x :: s, y :: t => if x = y then 1 + prefixLen n s t else 0
  | _, _, _ => 0

/-- JARO_WINKLER: J is 0 when m is; matches at most ⌊max/2⌋ − 1 apart; `k` matched bytes are out of order and t is half of k. -/
def jaroWinkler (a b : List Byte) : Ratio :=
  let ps := jaroMatches a b
  let m := ps.length
  if m = 0 then (prefixLen 4 a b, 10)
  else
    let inB := (sortBy (fun x y : Nat => decide (x < y)) (ps.map (·.2))).map (fun j => b.getD j 0)
    let k := ((List.zip (ps.map (fun p => a.getD p.1 0)) inB).filter (fun p => p.1 != p.2)).length
    let la := a.length
    let lb := b.length
    let num := m * lb * (2 * m) + m * la * (2 * m) + (2 * m - k) * la * lb
    let den := 3 * (la * lb * (2 * m))
    let l := prefixLen 4 a b
    (l * den + (10 - l) * num, 10 * den)

/-- The score of two strings under a metric; empty strings first (R137). -/
def similarity (metric : Nat) (a b : List Byte) : Ratio :=
  if a.isEmpty && b.isEmpty then (1, 1)
  else if a.isEmpty || b.isEmpty then (0, 1)
  else if metric = 0 then levenshtein a b
  else if metric = 1 then bigramDice a b
  else jaroWinkler a b

/-- A rational as a value with enough bits for one rounding. -/
def ratioNum (q : Ratio) : Num := (Num.fin false q.1 0).div (.fin false q.2 0)

/-- STRING_SIMILARITY: one row per pair, with the two ROWIDs and the score; a ROWID that names no row of its table gives a score the manual does
not state (log 83); stochastic rounding draws by row (log 44). -/
def opStringSimilarity (v : OpEnv) (ins : List Operand) (y : TensorDesc) : OpResult :=
  match ins with
  | [j, l, r] =>
    let jc := j.columns v.attrs
    let lc := colAt (l.columns v.attrs) (field 1 1 v.attr)
    let rc := colAt (r.columns v.attrs) (field 2 1 v.attr)
    let yc := y.cols v.attrs
    let ids := yc.filter (fun c => c.type == 6)
    let sc := (yc.find? (fun c => c.type == 4)).getD ⟨4, 4, 0⟩
    let stride := y.dims.getD 1 8
    let lr := l.rows
    let rr := r.rows
    let js := j.rows
    let d := v.dest { y with format := 0 } [js.length]
    tableOut y stride ((List.range js.length).map (fun i =>
      let row := js.getD i []
      let a := field (colAt jc 0).offset 8 row
      let b := field (colAt jc 1).offset 8 row
      let score : Nat :=
        if a = noRow ∨ b = noRow then 0
        else match lr[a]?, rr[b]? with
          | some x, some z => toPlain fp32 v.conv (ratioNum (similarity (field 0 1 v.attr) (bytesValue lc x) (bytesValue rc z))) (d.draw i)
          | _, _ => (Config.graphOpen (v.key ++ [i, a, b])).toNat % 2 ^ 32
      rowWith stride [((colAt ids 0).offset, 8, a), ((colAt ids 1).offset, 8, b), (sc.offset, 4, score)]))
  | _ => .fail .badDescriptor 0

end Sys2Proof.Machine
end

