-- ==== Sys2Proof/Machine/Runs.lean ====
section
/-! DEFINITION. Runs of graphs: their bindings, the content of their tensors, the end of an operation and of a run, and the cache rows of a
step (R142–R148, R230, R235, R237, R319, R325, R327). -/
namespace Sys2Proof.Machine

/-! ## Access -/

/-- The run of a command. -/
def runOf (s : State) (cid : Nat) : Option Run := s.runs.find? (fun r => r.cid == cid)

/-! ## Binding lists (R142, R143, R327) -/

/-- The tensors that host software binds: INPUT and OUTPUT, less those of the cache map (R237, R319). -/
def boundTensors (g : Graph) (skip : List Nat) : List TensorDesc :=
  g.tensors.filter (fun t => (t.kind == 0 || t.kind == 1) && !skip.contains t.id)

/-- One binding: the tensor, the index of its handle, and the actual leading size given. -/
structure Binding where
  tensor : TensorDesc
  handle : MemHandle
  rows : Nat
  deriving DecidableEq, Repr

/-- One entry of a list, when it may stand: the handle of a dynamic INPUT holds the rows that are given (DESIGN CHOICE, log 76). -/
def bindingOf (s : State) (t : TensorDesc) (e : List Byte) : Option Binding :=
  let rows := field 8 8 e
  match memHandle s (field 0 8 e) with
  | none => none
  | some h =>
    if h.size < (if t.kind = 0 ∧ t.dynamic = true then t.bytesAt (withLead rows t.dims) else t.storage) then none
    else if t.kind = 0 ∧ t.dynamic = true then (if 1 ≤ rows ∧ rows ≤ t.dims.getD 0 0 then some ⟨t, h, rows⟩ else none)
    else if rows = 0 then some ⟨t, h, 0⟩ else none

/-- Whether every OUTPUT handle is bound once (R143). -/
def outputsAlone (l : List Binding) : Bool :=
  l.all (fun b => b.tensor.kind != 1 || (l.filter (fun c => c.handle.index == b.handle.index)).length == 1)

/-- The bindings of a list of n entries; none completes the command with BAD_DESCRIPTOR. -/
def bindingsOf (s : State) (g : Graph) (skip : List Nat) (n : Nat) (l : List Byte) : Option (List Binding) :=
  let ts := boundTensors g skip
  if ts.length ≠ n then none
  else match allSome (List.zipWith (bindingOf s) ts (entries 0 16 n l)) with
    | some bs => if outputsAlone bs then some bs else none
    | none => none

/-- The handles a run uses. -/
def Run.handles (r : Run) : List Nat := r.bound.map (·.2)

/-- The handles a run writes. -/
def Run.writes (r : Run) : List Nat :=
  (r.bound.filter (fun b => match findTensor r.graph.tensors b.1 with | some t => t.kind == 1 | none => false)).map (·.2)

/-- The ring a command came from. -/
def ringOf (s : State) (cid : Nat) : Option Nat := (cmdAt s cid).map (·.ring)

/-- The handles that a launch's slots name, and those of its read-write slots (R179). -/
def launchUses (s : State) (l : Launch) : List Nat × List Nat :=
  let hs := (List.range 16).filterMap (fun k => (memHandle s (l.slots.getD k 0)).map (fun h => (k, h.index)))
  (hs.map (·.2), (hs.filter (fun p => (l.kernel.slots.getD p.1 (0, 0, 0)).2.1 == 2)).map (·.2))

/-- Every run and launch in flight: its command, the handles it uses and those it writes. -/
def workUses (s : State) : List (Nat × List Nat × List Nat) :=
  s.runs.map (fun r => (r.cid, r.handles, r.writes)) ++ s.launches.map (fun l => (l.cid, launchUses s l))

/-- Whether handles to be written are in use by a run or launch in flight from another ring (R146, R179). -/
def usesBusy (s : State) (cid : Nat) (writes : List Nat) : Bool :=
  (workUses s).any (fun w => ringOf s w.1 != ringOf s cid && writes.any (w.2.1.contains ·))

/-- Whether a run or launch waits for an earlier one of its ring on a handle that either writes (R146, R179, log 25). -/
def usesWait (s : State) (cid : Nat) (handles writes : List Nat) : Bool :=
  (workUses s).any (fun w => decide (w.1 < cid) && ringOf s w.1 == ringOf s cid
    && (writes.any (w.2.1.contains ·) || w.2.2.any (handles.contains ·)))

/-- Whether bindings collide with work in flight from another ring. -/
def bindsBusy (s : State) (cid : Nat) (l : List Binding) : Bool :=
  usesBusy s cid ((l.filter (fun b => b.tensor.kind == 1)).map (fun b => b.handle.index))

/-- Whether a run waits. -/
def runWaits (s : State) (r : Run) : Bool := usesWait s r.cid r.handles r.writes

/-! ## Shards of a model (R145, R218, R241) -/

/-- The shard of a tensor index at an epoch: the newest one not above it. -/
def shardFor (m : Model) (index epoch : Nat) : Option Shard :=
  (m.shards.filter (fun x => x.index == index && decide (x.epoch ≤ epoch))).foldl (fun best x => match best with
    | none => some x
    | some y => if y.epoch < x.epoch then some x else some y) none

/-- Whether a WEIGHT tensor matches its manifest entry (R238). -/
def weightMatches (m : Model) (epoch : Nat) (t : TensorDesc) : Bool :=
  match shardFor m t.ref epoch with
  | some x => t.format == x.format && t.rank == x.rank && t.blockAxis == x.blockAxis && t.dims == x.dims
  | none => false

/-! ## Cache tensors of a step (R237) -/

/-- The layer and kind of an append tensor. -/
def cacheAppend (m : Model) (id : Nat) : Option (Nat × Bool) :=
  (List.range m.layers.length).findSome? (fun i => match m.layers[i]? with
    | some (_, _, k, v) => if k = id then some (i, false) else if v = id then some (i, true) else none
    | none => none)

/-- The append tensor of a layer and kind. -/
def appendId (m : Model) (layer : Nat) (isV : Bool) : Option Nat :=
  (m.layers[layer]?).map (fun l => if isV then l.2.2.2 else l.2.2.1)

/-- Every tensor of the cache map. -/
def cacheIds (m : Model) : List Nat := m.layers.flatMap (fun l => [l.1, l.2.1, l.2.2.1, l.2.2.2])

/-- Bytes of one row of a cache tensor, rounded down (R237). -/
def TensorDesc.rowSize (t : TensorDesc) : Nat := t.storage / t.dims.getD 0 1

/-- Whether a row is at most 64 KiB (R237). -/
def TensorDesc.rowFits (t : TensorDesc) : Bool := decide (t.storage ≤ 65536 * t.dims.getD 0 1)

/-- Whether the blocks of a cache tensor run along its rows. -/
def TensorDesc.alongRows (t : TensorDesc) : Bool := isBlock t.format && t.blockAxis == 0

/-- Elements of a row. -/
def TensorDesc.rowElems (t : TensorDesc) : Nat := sizeOf (t.dims.drop 1)

/-- Bytes that n rows take in a key/value block (log 24). -/
def TensorDesc.cacheBytes (t : TensorDesc) (n : Nat) : Nat :=
  if t.alongRows then rowsPlane t.format t.rowElems n + (n + 31) / 32 * t.rowElems else n * rowBytes t.format t.blockAxis (t.dims.drop 1)

/-- Whole rows of a cache tensor that a block holds: floor(65,536 / row size), less the rows whose scales would not fit into its 64 KiB (R208, R237,
log 24). -/
def rowsPerBlock (t : TensorDesc) : Nat :=
  let n := 65536 * t.dims.getD 0 1 / t.storage
  ([n, n - 1, n - 2].find? (fun k => decide (t.cacheBytes k ≤ 65536))).getD (n - 3)

/-- The blocks of a session for a layer and kind, in row order. -/
def blocksOf (s : State) (session layer : Nat) (isV : Bool) : List KvBlock :=
  sortBy (fun a b => decide (a.firstRow < b.firstRow))
    (s.cel.blocks.filter (fun b => b.session == session && b.layer == layer && b.isV == isV))

/-- The rows that a block holds, as elements. -/
def blockRows (t : TensorDesc) (b : KvBlock) : List (List Elem) :=
  if t.alongRows then unpackRows t.format t.rowElems b.rows b.data
  else
    let row := t.dims.drop 1
    let n := rowBytes t.format t.blockAxis row
    (List.range b.rows).map (fun i => unpackRow t.format t.blockAxis row (slice (n * i) n b.data))

/-- Rows of a tensor's content, as elements. -/
def rowsOfVal (t : TensorDesc) (v : TensorVal) : List (List Elem) :=
  let n := sizeOf (t.dims.drop 1)
  let l := unpackDense t.format t.blockAxis v.dims v.bytes
  (List.range (v.dims.getD 0 0)).map (fun i => (l.drop (n * i)).take n)

/-- Rows moved to a tensor of so many rows; blocks along the row axis are converted together (log 45). -/
def moveRows (t : TensorDesc) (rows : List (List Elem)) : List Elem :=
  let dims := withLead rows.length t.dims
  let src := (List.range rows.length).flatMap (fun i =>
    (List.range (rows.getD i []).length).map (fun j =>
      ({ fmt := t.format, elem := (rows.getD i []).getD j (0, 127),
         block := if isBlock t.format ∧ t.blockAxis ≠ 0 then (blockPlace dims t.blockAxis (i * t.rowElems + j)).1 else i * 2 ^ 64 + j } : Source)))
  Dest.move { fmt := t.format, axis := t.blockAxis, dims, conv := conv0, seed := 0, tensor := 0, inst := 0 } src

/-- An operand made of rows. -/
def operandOfRows (t : TensorDesc) (rows : List (List Elem)) : Operand :=
  let dims := withLead rows.length t.dims
  { desc := t, dims, val := { id := t.id, dims, bytes := packDense t.format t.blockAxis dims (moveRows t rows), records := [] } }

/-- The bytes of a key/value block with one row more: where blocks run along the rows, the 32 rows that share scales are converted together. -/
def addRow (t : TensorDesc) (b : KvBlock) (row : List Elem) : List Byte :=
  if t.alongRows then packRows t.format t.rowElems (b.rows + 1) (moveRows t (blockRows t b ++ [row]))
  else b.data ++ packRow t.format t.blockAxis (t.dims.drop 1) row

/-! ## The content of an input (R122, R142, R145, R237) -/

/-- What reading an input finds: its content, nothing yet, a failed access with what it read, or a cask peer that is not in the route table. -/
inductive Fetch where
  | ready (o : Operand)
  | wait
  | lost (status : Status) (source : Nat) (l : List Extent)
  | absent (peer : Nat)
  deriving DecidableEq, Repr

/-- The site whose cells run an operation: its unit's. -/
def opSite (s : State) (cid op : Nat) : Option Nat := (s.cel.units.find? (fun u => u.cid == cid && u.op == op)).bind (·.site)

/-- A read of pieces for an operation: it waits where they do, fails where they fail (R257, R260, R264, R268). -/
def fetchFrom (s : State) (by_ : Option Nat) (l : List Extent) (o : Operand) : Fetch :=
  if memWaits s l then .wait
  else match accessSource s by_ true l with
    | some src => .lost .resultSuspect src l
    | none => .ready o

/-- Where a WEIGHT shard is read: the staging area when it has been brought there (R218), else its stripes. -/
def shardPieces (m : Model) (x : Shard) : List Extent :=
  match m.prefetched.find? (fun p => x.spilled && p.1 == x.index) with
  | some p => stagingPieces m p.2 x.data.length
  | none => x.stripes

/-- Where a bound INPUT is read. -/
def boundPieces (s : State) (r : Run) (t : TensorDesc) : List Extent :=
  match lookupKey t.id r.bound, r.vals.find? (fun v => v.id == t.id) with
  | some i, some v => ((s.mem.handles.find? (fun h => h.index == i)).map (fun h => pieces h.extents 0 (t.bytesAt v.dims))).getD []
  | _, _ => []

/-- A bound INPUT: read from its handle. -/
def fetchBound (s : State) (r : Run) (by_ : Option Nat) (t : TensorDesc) : Fetch :=
  match lookupKey t.id r.bound, r.vals.find? (fun v => v.id == t.id) with
  | some i, some v =>
    match s.mem.handles.find? (fun h => h.index == i) with
    | some h =>
      let l := pieces h.extents 0 (t.bytesAt v.dims)
      fetchFrom s by_ l { desc := t, dims := v.dims, val := { v with bytes := readPieces s.mem.cells l } }
    | none => .lost .resultSuspect 0 []
  | _, _ => .wait

/-- A WEIGHT: the bound model's tensor at the run's epoch, from the staging area when it has been brought there (R218); a lost one waits for its
reload (R207), one that an evacuation has sent to a peer for its reads (R271). -/
def fetchWeight (s : State) (r : Run) (by_ : Option Nat) (t : TensorDesc) : Fetch :=
  match r.model with
  | none => .lost .badDescriptor 0 []
  | some k =>
    let m := modelAt s k
    match shardFor m t.ref r.epoch with
    | none => .lost .badDescriptor 0 []
    | some x =>
      if x.lost then (if m.state = .failed then .lost (if r.session.isSome then .noResource else .retryLater) 0 [] else .wait)
      else match x.atPeer with
        | some p =>
          if !reachable s p then .lost .peerAbsent 0 []
          else if (requestsOf s r.cid).any (fun q => msgOp q.message == 0x01) then .wait
          else .ready { desc := t, dims := t.dims, val := { id := t.id, dims := t.dims, bytes := x.data, records := [] } }
        | none => fetchFrom s by_ (shardPieces m x) { desc := t, dims := t.dims, val := { id := t.id, dims := t.dims, bytes := x.data, records := [] } }

/-- What an open value of a run depends on (R112, log 83): the graph, the seed and the instance number. -/
def Run.openKey (r : Run) : List Nat := [r.graph.crc, r.seed.toNat, r.inst.toNat]

/-- A cache tensor, once every remote block has been read: the session's rows before this step, then the rows this step appends; rows of a later operation are not known to it
(open values, log 83). -/
def fetchCache (s : State) (r : Run) (op : Nat) (t : TensorDesc) (x : Session) (layer : Nat) (isV : Bool) : Fetch :=
  let l := blocksOf s x.index layer isV
  match l.findSome? (fun b => match b.place with | .remote p => if reachable s p then none else some p | _ => none) with
  | some p => .absent p
  | none =>
    let held := (l.filter (fun b => !b.place.isRemote)).map (·.extent)
    if memWaits s held then .wait
    else match accessSource s (opSite s r.cid op) true held with
    | some src => .lost .resultSuspect src held
    | none =>
      if l.any (·.place.isRemote) && (requestsOf s r.cid).any (fun q => msgOp q.message == 0x01) then .wait else
      let old := (l.flatMap (blockRows t)).take x.position
      let free : List (List Elem) := (List.range r.tokens).map (fun i =>
        (List.range (sizeOf (t.dims.drop 1))).map (fun j => ((Config.graphOpen (r.openKey ++ [t.id, x.position + i, j])).toNat % 2 ^ elemBits t.format, 127)))
      match appendId (modelAt s x.model) layer isV with
      | none => .ready (operandOfRows t (old ++ free))
      | some a =>
        match r.vals.find? (fun v => v.id == a) with
        | some v => .ready (operandOfRows t (old ++ rowsOfVal t v))
        | none =>
          if (r.graph.ops.take op).any (fun o => o.outs.contains a) then .wait else .ready (operandOfRows t (old ++ free))

/-- An input of operation `op`. -/
def fetchTensor (s : State) (r : Run) (op : Nat) (t : TensorDesc) : Fetch :=
  match t.kind with
  | 0 =>
    match (sessionOf s r).bind (fun x => (cacheRead (modelAt s x.model) t.id).map (fun c => (x, c))) with
    | some (x, layer, isV) => fetchCache s r op t x layer isV
    | none => fetchBound s r (opSite s r.cid op) t
  | 3 => .ready { desc := t, dims := t.dims, val := { id := t.id, dims := t.dims, bytes := slice t.ref t.storage r.graph.consts, records := [] } }
  | 4 => fetchWeight s r (opSite s r.cid op) t
  | _ => match r.vals.find? (fun v => v.id == t.id) with
    | some v => fetchFrom s (opSite s r.cid op) ((r.temps.filter (fun p => p.tensor == t.id)).flatMap (·.extents)) { desc := t, dims := v.dims, val := v }
    | none => .wait

/-- Every input of an operation, the first that is not ready deciding. -/
def fetchAll (s : State) (r : Run) (op : Nat) : List TensorDesc → Except Fetch (List Operand)
  | [] => .ok []
  | t :: l => match fetchTensor s r op t with
    | .ready o => match fetchAll s r op l with
      | .ok q => .ok (o :: q)
      | .error e => .error e
    | f => .error f

/-- Where an operation reads its inputs in this module's memory. -/
def inputPieces (s : State) (r : Run) (t : TensorDesc) : List Extent :=
  match t.kind with
  | 0 => match (sessionOf s r).bind (fun x => (cacheRead (modelAt s x.model) t.id).map (fun c => (x, c))) with
    | some (x, layer, isV) => ((blocksOf s x.index layer isV).filter (fun b => !b.place.isRemote)).map (·.extent)
    | none => boundPieces s r t
  | 4 => match r.model.bind (fun k => (shardFor (modelAt s k) t.ref r.epoch).map (shardPieces (modelAt s k))) with
    | some l => l
    | none => []
  | _ => (r.temps.filter (fun p => p.tensor == t.id)).flatMap (·.extents)

/-- What reading the inputs leaves: check granules in the caches (R255), heat of the sealed blocks read (R208), which the CASK group serves (R189), block bytes read by a DRAUGHT tile
(Table 7-3), the spilled shard read last (R218) and whether one was read (R320). -/
def State.noteReads (r : Run) (op : Nat) (ts : List TensorDesc) (s : State) : State :=
  let caches := match sessionOf s r with
    | some x => ts.filterMap (fun (t : TensorDesc) => if t.kind = 0 then (cacheRead (modelAt s x.model) t.id).map (fun c => (x.index, c)) else none)
    | none => []
  let hot (b : KvBlock) : Bool := b.sealed && caches.any (fun c => c.1 == b.session && c.2.1 == b.layer && c.2.2 == b.isV)
  let spilled := ts.any (fun (t : TensorDesc) => t.kind == 4 && (match r.model.bind (fun k => shardFor (modelAt s k) t.ref r.epoch) with
    | some x => x.spilled
    | none => false))
  let read := caches.flatMap (fun c => blocksOf s c.1 c.2.1 c.2.2)
  let drawn := match opSite s r.cid op with | some n => (tileAt s n).role == Role.draught | none => false
  let last := (ts.filterMap (fun (t : TensorDesc) => (r.model.bind (fun k => if t.kind = 4 then shardFor (modelAt s k) t.ref r.epoch else none)).filter (·.spilled))).getLast?
  let s1 := match r.model, last with
    | some k, some x => s.modModel k (fun m => { m with lastSpilled := some x.index })
    | _, _ => s
  let s2 := (if caches.isEmpty then s1 else s1.caskWork r.cid).touch false (ts.flatMap (inputPieces s r))
  { s2.modRun r.cid (fun q => { q with spilledRead := q.spilledRead || spilled }) with
    cel := { s.cel with kvRead := s.cel.kvRead + (if drawn then total (read.map (fun (b : KvBlock) => b.data.length)) else 0), blocks := s.cel.blocks.map (fun b => if hot b then { b with heat := satAdd b.heat 16 255 } else b) } }

/-! ## The end of a run -/

/-- A block that holds its whole rows is sealed, in seal order, with heat 128 (R208). -/
def sealFull (cap count : Nat) (b : KvBlock) : KvBlock × Nat :=
  if cap ≤ b.rows then ({ b with sealed := true, heat := 128, sealOrder := count }, count + 1) else (b, count)

/-- One row appended to the open block of a layer and kind, or to a new one in the local pool; a full block is sealed (R208, R211, R237). -/
def State.appendRow (session layer : Nat) (isV : Bool) (t : TensorDesc) (pos : Nat) (row : List Elem) (s : State) : Option State :=
  let cap := rowsPerBlock t
  let grown (b : KvBlock) : KvBlock × Nat := sealFull cap s.cel.sealCount { b with rows := b.rows + 1, data := addRow t b row }
  let wrote (b : KvBlock) : List Extent :=
    let old := if t.alongRows then 0 else b.data.length
    [⟨b.extent.base + old, (addRow t b row).length - old⟩]
  match (blocksOf s session layer isV).find? (fun b => !b.sealed) with
  | some b =>
    let (b', n) := grown b
    some (State.overwrite (wrote b) { s with cel := { s.cel with blocks := s.cel.blocks.map (fun x => if x.id = b.id then b' else x), sealCount := n } })
  | none =>
    match poolPlace s with
    | none => none
    | some e =>
      let b : KvBlock := { id := s.cel.nextBlock, session, layer, isV, firstRow := pos, rows := 0, sealed := false, sealOrder := 0, heat := 0,
                           place := placeOf e.base, extent := e, data := [] }
      let (b', n) := grown b
      some (State.overwrite (wrote b) { s with cel := { s.cel with blocks := s.cel.blocks ++ [b'], nextBlock := s.cel.nextBlock + 1, sealCount := n } })

/-- Every row of an append tensor. -/
def State.appendRows (session layer : Nat) (isV : Bool) (t : TensorDesc) (pos : Nat) (rows : List (List Elem)) (s : State) : Option State :=
  (List.range rows.length).foldl (fun acc i => acc.bind (State.appendRow session layer isV t (pos + i) (rows.getD i []))) (some s)

/-- The append tensors of a run's step, each with its layer and kind. -/
def appendTensors (s : State) (r : Run) : List (TensorDesc × Nat × Bool) :=
  match sessionOf s r with
  | some x => r.graph.tensors.filterMap (fun t => if t.kind = 1 then (cacheAppend (modelAt s x.model) t.id).map (fun c => (t, c)) else none)
  | none => []

/-- How appending a step's rows ends: done, an append tensor with another number of rows than tokens, or no room (R211, R237). -/
inductive Appended where
  | ok (s : State)
  | wrongRows (id : Nat)
  | noRoom

/-- The rows of a step written into the session's open blocks. -/
def appendStep (s : State) (r : Run) (x : Session) : Appended :=
  (appendTensors s r).foldl (fun acc p => match acc with
    | .ok t =>
      match r.vals.find? (fun v => v.id == p.1.id) with
      | none => .wrongRows p.1.id
      | some v =>
        if v.dims.getD 0 0 ≠ r.tokens then .wrongRows p.1.id
        else match t.appendRows x.index p.2.1 p.2.2 p.1 x.position (rowsOfVal p.1 v) with
          | some u => .ok u
          | none => .noRoom
    | e => e) (.ok s)

/-- The operation that writes a tensor. -/
def writerOf (r : Run) (id : Nat) : Nat := (r.graph.ops.findIdx (fun o => o.outs.contains id))

/-- OUTPUT contents written to their handles. -/
def State.writeOutputs (r : Run) (s : State) : State :=
  r.bound.foldl (fun t b => match findTensor r.graph.tensors b.1, r.vals.find? (fun v => v.id == b.1), t.mem.handles.find? (fun h => h.index == b.2) with
    | some d, some v, some h => if d.kind = 1 then t.writeMem (pieces h.extents 0 v.bytes.length) v.bytes else t
    | _, _, _ => t) s

/-- Where a run writes. -/
def outputPieces (s : State) (r : Run) : List Extent :=
  r.bound.flatMap (fun b => match findTensor r.graph.tensors b.1, s.mem.handles.find? (fun h => h.index == b.2) with
    | some d, some h => if d.kind = 1 then pieces h.extents 0 d.storage else []
    | _, _ => [])

/-- A step leaves its session: on OK its rows count and its epoch is the last; otherwise position, flags and steps stay (R230, R235, R319). -/
def Session.endStep (ok : Bool) (r : Run) (x : Session) : Session :=
  if ok then
    { x with state := .open, stepRing := none, position := x.position + r.tokens, epochChanged := x.lastEpoch != 0 && x.lastEpoch != r.epoch,
             lastEpoch := r.epoch, steps := (x.steps + 1) % 2 ^ 32 }
  else { x with state := if x.prior = .broken then .broken else .open, stepRing := none }

/-- A run's command ends and the run leaves the table. -/
def State.closeRun (r : Run) (status : Status) (source failed needed : Nat) (s : State) : State :=
  let ok := status == .ok || status == .okSpilled
  let s1 := match sessionOf s r with
    | some x => s.modSession x.index (Session.endStep ok r)
    | none => s
  (s1.modCmd r.cid (runEnd s1 r status source failed needed)).dropRun r.cid

/-- A run in which operations failed ends as the lowest of them did (R148). -/
def State.closeFailed (r : Run) (s : State) : State :=
  match firstFailed r with
  | some (i, st, x) => s.closeRun r st x i 0
  | none => s

/-- The blocks of a session that an append has changed or added. -/
def appended (s t : State) (session : Nat) : List Extent :=
  (t.cel.blocks.filter (fun b => b.session == session && !s.cel.blocks.contains b)).map (·.extent)

/-- A run with nothing left to run and no request outstanding ends (R147, R148): as its lowest failed operation, else as what marked its command;
its outputs are written whole and only on success, and the rows of a step by the CASK group (R189). -/
def State.settleRun (cid : Nat) (s : State) : State :=
  match runOf s cid with
  | none => s
  | some r =>
    if !r.begun || !(openOps r).isEmpty || (r.opsFailed.isEmpty && !(requestsOf s cid).isEmpty) then s
    else match firstFailed r, (cmdAt s cid).bind (·.marked) with
      | some _, _ => s.closeFailed r
      | none, some src => s.closeRun r .resultSuspect src 0xFFFFFFFF 0
      | none, none =>
        if memWaits s (outputPieces s r) then s
        else match accessSource s none false (outputPieces s r) with
        | some src => (s.reportAccess src (outputPieces s r) [cid]).closeRun r .resultSuspect src 0xFFFFFFFF 0
        | none =>
          let status : Status := if r.spilledRead then .okSpilled else .ok
          match sessionOf s r with
          | none => (s.writeOutputs r).closeRun r status 0 0xFFFFFFFF 0
          | some x => match appendStep s r x with
            | .ok t =>
              if memWaits s (appended s t x.index) then s else ((t.caskWork cid).writeOutputs r).closeRun r status 0 0xFFFFFFFF 0
            | .wrongRows id => s.closeRun r .badDescriptor 0 (writerOf r id) 0
            | .noRoom => s.closeRun r .noResource 0 0xFFFFFFFF 0

/-- Runs whose end waited for memory settle (R264, R268). -/
def State.settleRuns (s : State) : State := (s.runs.map (·.cid)).foldl (fun t c => t.settleRun c) s

/-! ## Work units and the start of a run (R144, R147, R189) -/

/-- Products per core cycle of a cell, by format and mode (Table 4-4). -/
def matrixRate (exact : Bool) (fmt : Nat) : Nat :=
  if fmt = 3 ∨ fmt = 4 ∨ fmt = 8 then 2048 else if isBlock fmt then 4096 else if exact then 512 else 1024

/-- Core cycles of one cell that an operation is estimated to take: products at the lower rate of its formats, inputs of a reduction at 32 or 64, other
elements at 64 (R47, R118, R192; log 29). -/
def opWork (exact : Bool) (ts : List TensorDesc) (o : OpDesc) : Nat :=
  let ins := o.ins.filterMap (findTensor ts)
  let outs := o.outs.filterMap (findTensor ts)
  let elems := total (ins.map (fun t => sizeOf t.dims))
  if o.opcode / 256 = 1 then
    let rate := (least ((ins.take 2).map (fun t => matrixRate exact t.format))).getD 512
    (sizeOf ((outs.map (·.dims)).headD []) * (lastTwo ((ins.map (·.dims)).headD [])).2 + rate - 1) / rate
  else if o.opcode / 256 = 3 then (elems + (if exact then 31 else 63)) / (if exact then 32 else 64)
  else (elems + 63) / 64

/-- Into how many units the hub splits an operation (R144; log 29). -/
def partsOf (work : Nat) : Nat := Config.unitParts work % 64 + 1

/-- The blocks of the cache that an input reads. -/
def cacheBlocks (s : State) (r : Run) (t : TensorDesc) : List KvBlock :=
  match (sessionOf s r).bind (fun x => (cacheRead (modelAt s x.model) t.id).map (fun c => (x, c))) with
  | some (x, layer, isV) => if t.kind = 0 then blocksOf s x.index layer isV else []
  | none => []

/-- The shard that a WEIGHT input reads. -/
def weightShard (s : State) (r : Run) (t : TensorDesc) : Option Shard :=
  if t.kind = 4 then r.model.bind (fun k => shardFor (modelAt s k) t.ref r.epoch) else none

/-- The other participants of a collective, on its plane. -/
def otherModules (r : Run) (o : OpDesc) : List Nat :=
  let plane := match r.graph.colls[field 0 4 o.attr]? with | some c => 4096 * bnat c.planeB | none => 0
  ((List.range r.modules.length).filter (· != r.rank)).map (fun i => plane + r.modules.getD i 0)

/-- The modules that an operation exchanges data with, and the bytes: each other participant of a collective, 48 B for each element of a partial tensor in
Exact mode; each cask peer of the blocks and of the weight shards that it reads (R199, R271). -/
def opPeers (s : State) (r : Run) (o : OpDesc) (ins : List TensorDesc) : List (Nat × Nat) :=
  let part := total (ins.map (fun t => if t.isPartial then (if opExact s r.graph o then 48 else 4) * sizeOf t.dims else t.storage))
  let held := (ins.flatMap (cacheBlocks s r)).filterMap (fun b => match b.place with | .remote p => some (p, b.data.length) | _ => none)
    ++ (ins.filterMap (weightShard s r)).filterMap (fun x => x.atPeer.map (fun p => (p, x.data.length)))
  (if 0x0600 ≤ o.opcode ∧ o.opcode ≤ 0x0603 then (otherModules r o).map (fun m => (m, part)) else [])
  ++ (held.map (·.1)).eraseDups.map (fun p => (p, total ((held.filter (fun q => q.1 == p)).map (·.2))))

/-- One unit of an operation. Its weight site, for preference 3 of R199, is that of the first stripe of its first weight shard, for all the units of
the operation (DESIGN CHOICE, log 29); what an evacuation has sent to a peer is no input in the CXL tier (R271). -/
def unitOf (s : State) (r : Run) (kind : Role) (id op : Nat) (o : OpDesc) : WorkUnit :=
  let ins := o.ins.filterMap (findTensor r.graph.tensors)
  let exts := ins.flatMap (fun t => match lookupKey t.id r.bound with
    | some i => ((s.mem.handles.find? (fun h => h.index == i)).map (·.extents)).getD []
    | none => [])
  let shards := ins.filterMap (weightShard s r)
  let weight := shards.findSome? (fun x => x.stripes.head?.bind (fun e => match placeOf e.base with | .site n => some n | _ => none))
  let work := opWork (opExact s r.graph o) r.graph.tensors o
  { id, cid := r.cid, op, kind, group := groupRole s kind, site := none, cells := [],
    cxlInputs := exts.any (fun e => (placeOf e.base).isCxl) || shards.any (fun x => x.spilled && x.atPeer.isNone) || (ins.flatMap (cacheBlocks s r)).any (fun b => b.place.isCxl),
    peers := opPeers s r o ins, weightSite := weight, work := work / partsOf work }

/-- The units of a run's operations, in their order. -/
def runUnits (s : State) (r : Run) (role : Role) : List WorkUnit :=
  let l := (List.range r.graph.ops.length).flatMap (fun i => match r.graph.ops[i]? with
    | some o => List.replicate (partsOf (opWork (opExact s r.graph o) r.graph.tensors o)) (unitOf s r role 0 i o)
    | none => [])
  (List.range l.length).filterMap (fun k => (l[k]?).map (fun u => { u with id := s.cel.nextUnit + k }))

/-- Reads of the weights of a run that lie at a peer, each for the lowest operation that needs it (R148); their addresses there are not given (R271, R448, log 20). -/
def remoteShards (s : State) (r : Run) : List Request :=
  ((r.graph.tensors.filter (fun t => t.kind == 4)).filterMap (fun t => (weightShard s r t).map (fun x => (t, x)))).flatMap (fun (t, x) => match x.atPeer with
    | some p => if reachable s p then
        let op := (List.range r.graph.ops.length).find? (fun i => (r.graph.ops[i]?).any (fun o => o.ins.contains t.id))
        (List.range ((x.data.length + 4095) / 4096)).map (fun k =>
          { requestTo s (some r.cid) none p 0x01 (Nat.min 4096 (x.data.length - 4096 * k) * 2 ^ 48 + (Config.freeWord (s.free + k)).toNat % 2 ^ 48) [] with op })
      else []
    | none => [])

/-- Reads of the remote blocks of a step's session: sixteen of 4,096 B for each; the peer's addresses are not given (R214, R448, log 20). -/
def remoteReads (s : State) (r : Run) : List Request :=
  (match r.session with
  | none => []
  | some i => (s.cel.blocks.filter (fun b => b.session == i)).flatMap (fun b => match b.place with
    | .remote p => if reachable s p then blockReads s (some r.cid) b.id p else []
    | _ => [])) ++ remoteShards s r

/-- The units of an accepted run join the queue of their group (R192); one that begins has them anew. -/
def State.queueUnits (cid : Nat) (role : Role) (s : State) : State :=
  match runOf s cid with
  | none => s
  | some r =>
    let units := runUnits s r role
    { s with cel := { s.cel with units := without (fun u => u.cid == cid) s.cel.units ++ units, nextUnit := s.cel.nextUnit + units.length } }

/-- Whether a slot of a launch names a handle with bytes in the CXL tier. -/
def launchInCxl (s : State) (l : Launch) : Bool :=
  l.slots.any (fun w => ((memHandle s w).map (fun h => h.extents.any (fun e => (placeOf e.base).isCxl))).getD false)

/-- A queued unit with its inputs and its partners as they lie now (R199). -/
def unitNow (s : State) (u : WorkUnit) : WorkUnit :=
  match s.runs.find? (fun r => r.cid == u.cid), s.launches.find? (fun l => l.cid == u.cid) with
  | some r, _ => match r.graph.ops[u.op]? with
    | some o =>
      let v := unitOf s r u.kind u.id u.op o
      { u with cxlInputs := v.cxlInputs, peers := v.peers, weightSite := v.weightSite }
    | none => u
  | none, some l => { u with cxlInputs := launchInCxl s l }
  | none, none => u

/-- Where the saved state of a cluster lies. -/
def clusterImage (s : State) (cid index : Nat) : List Extent :=
  ((s.launches.filter (fun l => l.cid == cid)).flatMap (·.clusters)).flatMap (fun c => if c.index = index ∧ c.saved = true then c.image else [])

/-- WORK_UNIT_ASSIGN: a queued unit goes to a tile of its group and to its logical cells (R150, R175, R199, R203); the saved state of a cluster is read
from module memory (R184, R255, R257, R264, R268); none goes out while SELFTEST FULL has the
cells (R506), and a tile that had no work begins from issue rate zero (R464; log 89). -/
def execWorkUnitAssign (unit : Nat) (rowLoads : List Nat) (s : State) : Host.Outcome State Fault Refusal :=
  match s.cel.units.find? (fun u => u.id == unit && u.site.isNone && workBegun s u.cid && !selftestRunning s) with
  | none => .next s
  | some u =>
    match chooseTile s (unitNow s u) rowLoads with
    | none => .next s
    | some n =>
      let image := clusterImage s u.cid u.op
      if memWaitsBy s (some n) image then .next s
      else match accessSource s (some n) true image with
      | some src => .next ((s.reportAccess src image [u.cid]).failWork u.cid .resultSuspect src)
      | none =>
      let cells := unitCells s u n
      let s1 : State := { s with cel := { s.cel with units := s.cel.units.map (fun x =>
        if x.id = unit then { x with site := some n, cells } else x) } }
      let s2 := match (cmdAt s u.cid).bind (·.seq) with
        | some q => (cells.filterMap (fun i => (tileAt s n).logical[i]?)).foldl (fun (t : State) k => t.modTile n (Tile.noteRun k u.cid q)) s1
        | none => s1
      let s3 := if s.cel.units.any (fun x => x.site == some n) then s2
                else s2.modTile n (fun t => { t with thermal := { t.thermal with issueRate := 0 } })
      .next ((s3.touch false image).placeCluster u.cid u.op n cells)

/-- A run is accepted. -/
def State.addRun (r : Run) (role : Role) (s : State) : State := ({ s with runs := s.runs ++ [r] } : State).queueUnits r.cid role

/-- A run starts: its operations become work units, and the OUTPUT handles that it writes hold no given bytes until it ends (R144, R147,
log 4). -/
def State.beginRun (cid : Nat) (role : Role) (s : State) : State :=
  match runOf s cid with
  | none => s
  | some r =>
    let s2 := (s.modRun cid (fun q => { q with begun := true })).queueUnits cid role
    let l := outputPieces s2 r
    let n := extentBytes l
    (((s2.writeMem l ((List.range n).map (fun i => Config.freeByte (s2.free + i)))).spend (n + 16)).request (remoteReads s2 r)).settleRun cid

/-! ## One operation (R144) -/

/-- A cask peer that a step needs is not in the route table: the session's blocks there are lost and the step ends with PEER_ABSENT (R214,
R233). -/
def State.peerLost (session peer : Nat) (status : Status) (source : Nat) (s : State) : State :=
  let s1 := (s.blameBlocks (fun b => b.session == session && b.place == .remote peer) status source).breakSession status source session
  { s1 with cel := { s1.cel with blocks := without (fun b => b.session == session && b.place == .remote peer) s1.cel.blocks } }

/-- The physical cell that a unit of a run works on, for reports. -/
def cellOf (s : State) (cid op : Nat) : Nat × Nat :=
  match s.cel.units.find? (fun u => u.cid == cid && u.op == op && u.site.isSome) with
  | some u => (u.site.getD 0, ((u.cells.head?.bind (fun i => (tileAt s (u.site.getD 0)).logical[i]?)).getD 0))
  | none => let n := ((computeSites s).head?).getD 0; (n, ((tileAt s n).logical.head?).getD 0)

/-- An operation of a run has failed; `data` is the source of RESULT_SUSPECT or the pair count of JOIN_PROBE. -/
def State.opFailed (cid op : Nat) (status : Status) (data : Nat) (s : State) : State :=
  (s.modRun cid (Run.fail op status data)).settleRun cid

/-- A record of an operation does not agree with its residues: an S2 event of the cell, and the operation fails (R109, R115, R116). -/
def State.recordSuspect (cid op : Nat) (s : State) : State :=
  let (n, k) := cellOf s cid op
  let src := srcId 1 n 4
  (s.capture [{ source := src, data := BitVec.ofNat 64 k, resource := some (.cell (Fin.ofNat 64 n) (Fin.ofNat 33 k)), touched := [cid] }]).opFailed
    cid op .resultSuspect src

/-- Whether every unit of an operation is on a tile (R144). -/
def unitsPlaced (s : State) (cid op : Nat) : Bool :=
  let l := s.cel.units.filter (fun u => u.cid == cid && u.op == op)
  !l.isEmpty && l.all (fun u => u.site.isSome)

/-- An operation of a run may run: the run has begun, the entry has this opcode and has not ended, and its units are on their tiles. -/
def opReady (s : State) (cid op code : Nat) : Option (Run × OpDesc) :=
  match runOf s cid with
  | some r => match r.graph.ops[op]? with
    | some o => if r.begun ∧ o.opcode = code ∧ (openOps r).contains op = true ∧ unitsPlaced s cid op = true then some (r, o) else none
    | none => none
  | none => none

/-- What an operation runs under. -/
def envOf (s : State) (r : Run) (o : OpDesc) : OpEnv :=
  { exact := opExact s r.graph o, conv := (convOf o.conv).getD conv0, attr := o.attr, attrs := r.graph.attrs, seed := r.seed.toNat,
    inst := r.inst.toNat, rank := r.rank, free := s.free + 1, key := r.openKey ++ o.outs,
    inverted := s.cel.units.any (fun u => u.cid == r.cid && r.graph.ops[u.op]? == some o && s.flt.injecting (srcId 1 (u.site.getD 0) 4)) }

/-- Where a TEMP tensor goes: its site's GDDR7, another's, the CXL tier, the site's tile store (R144; log 59). -/
def tempPlace (s : State) (site : Option Nat) (v : TensorVal) : TempPlace :=
  let n := v.bytes.length + 48 * v.records.length
  let near := match site with | some k => siteFree s k | none => []
  match ((takeExtents n near).orElse (fun _ => takeExtents n (localFree s))).orElse (fun _ => takeExtents n (cxlFree s)) with
  | some l => { tensor := v.id, store := none, extents := l }
  | none => { tensor := v.id, store := site, extents := [] }

/-- A TEMP tensor takes its place. -/
def State.putTemp (cid : Nat) (site : Option Nat) (v : TensorVal) (s : State) : State :=
  let p := tempPlace s site v
  (s.modRun cid (fun q => { q with temps := q.temps ++ [p] })).writeMem p.extents (v.bytes ++ v.records.flatMap Acc.bytes)

/-- The TEMP tensors of some outputs take their places. -/
def State.putTemps (cid : Nat) (site : Option Nat) (ts : List TensorDesc) (outs : List TensorVal) (s : State) : State :=
  (outs.filter (fun v => match findTensor ts v.id with | some t => t.kind == 2 | none => false)).foldl (fun t v => t.putTemp cid site v) s

/-- Memory that TEMP tensors of a run have come to take. -/
def newTemps (r : Run) (t : State) : List Extent :=
  ((t.runs.filter (fun q => q.cid == r.cid)).flatMap (·.temps)).flatMap (fun p => if r.temps.contains p then [] else p.extents)

/-- One operation of a run, once its inputs are complete: its outputs are kept, or it fails; it waits while the memory of a TEMP tensor that it writes
does (R264, R268); free values it may have taken are spent. -/
def State.runOp (cid op code : Nat) (f : OpEnv → List Operand → List TensorDesc → OpResult) (s : State) : State :=
  match opReady s cid op code with
  | none => s
  | some (r, o) =>
    let ts := o.ins.filterMap (findTensor r.graph.tensors)
    match fetchAll s r op ts with
    | .error (.lost st src l) => (if l.isEmpty then s else s.reportAccess src l [cid]).opFailed cid op st src
    | .error (.absent p) => s.peerLost (r.session.getD 0) p .peerAbsent 0
    | .error _ => s
    | .ok ins =>
      let s1 := (s.noteReads r op ts).spend (2 ^ 48)
      match f (envOf s r o) ins (o.outs.filterMap (findTensor r.graph.tensors)) with
      | .ok outs =>
        let t := (s1.modRun cid (fun q => { q with vals := q.vals ++ outs, opsDone := q.opsDone ++ [op] })).putTemps cid (opSite s cid op) r.graph.tensors
          outs
        if memWaits s (newTemps r t) then s else t.settleRun cid
      | .fail st n => if st = .resultSuspect then s1.recordSuspect cid op else s1.opFailed cid op st n

/-- An operation with one output. -/
def one (f : OpEnv → List Operand → TensorDesc → OpResult) (v : OpEnv) (ins : List Operand) (outs : List TensorDesc) : OpResult :=
  match outs with
  | [y] => f v ins y
  | _ => .fail .badDescriptor 0

end Sys2Proof.Machine
end

