-- ==== Sys2Proof/Machine/GraphRows.lean ====
section
/-! DEFINITION. Graph commands and the operations of a run: GRAPH_LOAD, GRAPH_RUN, Table 5-5 (Chapter 5). -/
namespace Sys2Proof.Machine

/-! ## Loading (R120, R121, R322) -/

/-- GRAPH_LOAD: the image read from host memory is checked and kept. -/
def execGraphLoad (cid : Nat) (image : List Byte) (s : State) : Host.Outcome State Fault Refusal :=
  .next (s.hostCommand cid 0x30 (fun _ _ => none) (fun c t =>
    if image.length ≠ c.arg 0x10 4 then s
    else match checkGraph image with
      | .bad st kind index _ =>
        if st = .badDescriptor then t.finishCmd cid st [(0x20, 4, index), (0x24, 1, kind)] else t.finishCmd cid st [(0x20, 4, 0xFFFFFFFF)]
      | .good g =>
        match freeIndex (t.graphs.map (·.1)) 1024 with
        | none => t.finishCmd cid .noResource [(0x20, 4, 0xFFFFFFFF)]
        | some i =>
          let gen := genOf t.graphGen i
          let u : State := { t with graphs := t.graphs ++ [(i, gen, g)] }
          (u.noteGen 2 gen).finishCmd cid .ok [(0x14, 8, handleWord 2 gen i), (0x1C, 4, g.crc), (0x20, 4, 0xFFFFFFFF)]))

/-! ## Starting a run (R142–R146, R216, R324, R328) -/

/-- The participants of a block: rank and modules in rank order (R328); none completes the run with BAD_DESCRIPTOR. -/
def participantsOf (s : State) (g : Graph) (l : List Byte) : Option (Nat × List Nat) :=
  let n := field 0 2 l
  let rank := field 2 2 l
  let ms := (List.range n).map (fun i => field (8 + 2 * i) 2 l)
  if 1 ≤ n ∧ n ≤ 4096 ∧ rank < n ∧ zeroes 4 4 l = true ∧ ms.all (fun m => decide (m < 4096)) = true ∧ ms.getD rank 0 = ownId s % 4096
      ∧ g.colls.all (fun k => k.participants == n) = true then some (rank, ms) else none

/-- The model a run reads: none when the graph has no WEIGHT; otherwise its slot and the epoch of its acceptance, or the status that stops the run
(R145, R242; log 26). -/
def runModel (s : State) (g : Graph) (handle : Nat) (held : Option (Nat × Nat)) : Except Status (Option (Nat × Nat)) :=
  let ws := g.tensors.filter (fun t => t.kind == 4)
  if ws.isEmpty then (if handle = 0 then .ok none else .error .badDescriptor)
  else match modelHandle s handle with
    | none => .error .badDescriptor
    | some k =>
      let m := modelAt s k
      let e := (held.map (·.2)).getD m.current
      if ws.all (weightMatches m e) then .ok (some (k, e)) else .error .badDescriptor

/-- What each bound INPUT is known to be before it is read. -/
def inputVals (l : List Binding) : List TensorVal :=
  (l.filter (fun b => b.tensor.kind == 0)).map (fun b =>
    { id := b.tensor.id, dims := if b.tensor.dynamic then withLead b.rows b.tensor.dims else b.tensor.dims, bytes := [], records := [] })

/-- A new run, not yet begun. -/
def newRun (cid : Nat) (g : Graph) (l : List Binding) (seed : DWord) (inst : Word) (rowsAddr : Nat) : Run :=
  { cid, graph := g, graphIndex := none, model := none, epoch := 0, seed, inst, bound := l.map (fun b => (b.tensor.id, b.handle.index)),
    vals := inputVals l, temps := [], opsDone := [], opsFailed := [], session := none, sessionGen := 0, tokens := 0, rebuild := false, rowsAddr, begun := false,
    rank := 0, modules := [], spilledRead := false, reached := [] }

/-- A run begins once no earlier run of its ring holds its handles (R146, log 25). -/
def State.tryBegin (cid : Nat) (role : Role) (s : State) : State :=
  match runOf s cid with
  | some r => if r.begun || runWaits s r then s else s.beginRun cid role
  | none => s

/-- Whether a handle names a model that is not READY (log 26). -/
def modelAway (s : State) (handle : Nat) : Bool :=
  match modelHandle s handle with
  | some k => (modelAt s k).state != .ready
  | none => false

/-- Acceptance of GRAPH_RUN as far as its descriptor tells: the graph, BUSY and RETRY_LATER (R146, R216, R324). -/
def graphRunStop (c : Cmd) (s : State) : Option State :=
  let h := c.arg 8 8
  match graphHandle s h with
  | none => some (s.finishCmd c.cid .badDescriptor (graphFields s h none 0 0xFFFFFFFF 0))
  | some (i, _, g) =>
    if selftestRunning s || decide (64 ≤ (s.runs.filter (fun r => r.graphIndex == some i)).length + waitingOn s 0x31 h) then
      some (s.finishCmd c.cid .busy (graphFields s h (some g) 0 0xFFFFFFFF 0))
    else if overloaded s .mash || (g.tensors.any (fun t => t.kind == 4) && modelAway s (c.arg 0x10 8)) then
      some (s.finishCmd c.cid .retryLater (graphFields s h (some g) 0 0xFFFFFFFF 0))
    else none

/-- GRAPH_RUN: checked at acceptance, its blocks read from host memory, its bindings checked, then begun (R142–R146, R324, R327, R328). -/
def execGraphRun (cid : Nat) (binds participants : List Byte) (s : State) : Host.Outcome State Fault Refusal :=
  match runOf s cid with
  | some _ => .next (s.tryBegin cid .mash)
  | none => .next ((s.commandReading cid 0x31 (((cmdAt s cid).map graphReads).getD false) graphRunStop (fun c t =>
      let h := c.arg 8 8
      let stop (st : Status) (g : Option Graph) : State := t.finishCmd cid st (graphFields t h g 0 0xFFFFFFFF 0)
      if binds.length ≠ 16 * c.arg 0x24 4 then s
      else match graphHandle t h with
        | none => stop .badDescriptor none
        | some (i, _, g) =>
          match runModel t g (c.arg 0x10 8) c.heldEpoch, bindingsOf t g [] (c.arg 0x24 4) binds,
                (if c.arg 0x30 8 = 0 then some (0, [ownId t % 4096]) else participantsOf t g participants) with
          | .error st, _, _ => stop st (some g)
          | .ok _, none, _ => stop .badDescriptor (some g)
          | .ok _, _, none => stop .badDescriptor (some g)
          | .ok m, some l, some (rank, ms) =>
            if bindsBusy t cid l then stop .busy (some g)
            else
              let r := newRun cid g l (BitVec.ofNat 64 (c.arg 0x18 8)) (BitVec.ofNat 32 (c.arg 0x20 4)) (c.arg 0x38 8)
              let r' : Run := { r with graphIndex := some i, model := m.map (·.1), epoch := (m.map (·.2)).getD 0, rank, modules := ms }
              (t.addRun r' .mash).tryBegin cid .mash)).settleHeld cid)

/-- Whether another participant of a collective has not joined: neither a notice nor data of it has come under the triple (R140). -/
def joinMissing (s : State) (r : Run) (o : OpDesc) : Bool :=
  ((List.range r.modules.length).filter (· != r.rank)).any (fun i =>
    !s.trans.joins.any (fun j => j.1 % 4096 == r.modules.getD i 0 && j.2 == collWord r o))

/-- COLLECTIVE_JOIN_TIMEOUT: a participant of the collective that the run has reached did not join in time (R140); the run ends, its status that
of its lowest failed operation (R148). -/
def execCollectiveJoinTimeout (cid : Nat) (s : State) : Host.Outcome State Fault Refusal :=
  match runOf s cid with
  | none => .next s
  | some r =>
    match (openOps r).find? (fun i => r.begun && r.reached.contains i && (match r.graph.ops[i]? with | some o => joinMissing s r o | none => false)) with
    | some i => .next ((s.closeFailed (r.fail i .peerAbsent 0)).dropRequests cid)
    | none => .next s

/-! ## Matrix operations (R114–R116, R130, R132) -/

/-- A matrix product with what the residue lane reports (R116, Table 4-3): in Exact mode a mismatch whose repeat matched is an S0 event, one
that did not, or a failed piece check, an S2 event and RESULT_SUSPECT; under injection it reports what is injected (R508). -/
def State.runMatrix (cid op code : Nat) (residue : Residue) (f : OpEnv → List Operand → TensorDesc → OpResult) (s : State) : State :=
  match opReady s cid op code with
  | none => s
  | some (r, o) =>
    match fetchAll s r op (o.ins.filterMap (findTensor r.graph.tensors)) with
    | .error _ => s.runOp cid op code (one f)
    | .ok _ =>
      let (n, k) := cellOf s cid op
      let seen := injectedResidue s n residue
      let res : Option Resource := some (.cell (Fin.ofNat 64 n) (Fin.ofNat 33 k))
      let suspect (chk : Nat) : State :=
        (s.capture [{ source := srcId 1 n chk, data := BitVec.ofNat 64 k, resource := res, touched := [cid] }]).opFailed cid op .resultSuspect
          (srcId 1 n chk)
      if opExact s r.graph o = false then s.runOp cid op code (one f)
      else match seen with
        | .clean => s.runOp cid op code (one f)
        | .retried => (s.capture [{ source := srcId 1 n 1, data := BitVec.ofNat 64 k, resource := res }]).runOp cid op code (one f)
        | .mismatch => suspect 2
        | .pieceCheck => suspect 3

/-- MATMUL (R130). -/
def execMatmul (run op : Nat) (residue : Residue) (s : State) : Host.Outcome State Fault Refusal := .next (s.runMatrix run op 0x0100 residue opMatmul)

/-- BATCH_MATMUL (R130). -/
def execBatchMatmul (run op : Nat) (residue : Residue) (s : State) : Host.Outcome State Fault Refusal := .next (s.runMatrix run op 0x0101 residue opMatmul)

/-- ATTENTION (R132): its products run in the matrix unit, with its residue lane (R114). -/
def execAttention (run op : Nat) (residue : Residue) (s : State) : Host.Outcome State Fault Refusal := .next (s.runMatrix run op 0x0102 residue opAttention)

/-! ## Element-wise operations -/

/-- ADD (R129). -/
def execAdd (run op : Nat) (s : State) : Host.Outcome State Fault Refusal := .next (s.runOp run op 0x0200 (one (opBinary fadd)))

/-- SUB (R129). -/
def execSub (run op : Nat) (s : State) : Host.Outcome State Fault Refusal := .next (s.runOp run op 0x0201 (one (opBinary fsub)))

/-- MUL (R129). -/
def execMul (run op : Nat) (s : State) : Host.Outcome State Fault Refusal := .next (s.runOp run op 0x0202 (one (opBinary fmul)))

/-- DIV (R129). -/
def execDiv (run op : Nat) (s : State) : Host.Outcome State Fault Refusal := .next (s.runOp run op 0x0203 (one (opBinary fdiv)))

/-- FMA (R129). -/
def execFma (run op : Nat) (s : State) : Host.Outcome State Fault Refusal := .next (s.runOp run op 0x0204 (one opFma))

/-- MAX (R129). -/
def execMax (run op : Nat) (s : State) : Host.Outcome State Fault Refusal := .next (s.runOp run op 0x0205 (one (opBinary fmax)))

/-- MIN (R129). -/
def execMin (run op : Nat) (s : State) : Host.Outcome State Fault Refusal := .next (s.runOp run op 0x0206 (one (opBinary fmin)))

/-- ABS (R129). -/
def execAbs (run op : Nat) (s : State) : Host.Outcome State Fault Refusal := .next (s.runOp run op 0x0210 (one (opUnary fabs)))

/-- NEG (R129). -/
def execNeg (run op : Nat) (s : State) : Host.Outcome State Fault Refusal := .next (s.runOp run op 0x0211 (one (opUnary fneg)))

/-- EXP (R129; the function is log 5). -/
def execExp (run op : Nat) (s : State) : Host.Outcome State Fault Refusal := .next (s.runOp run op 0x0212 (one (opUnary (vecFn .exp))))

/-- LOG (R129; log 5). -/
def execLog (run op : Nat) (s : State) : Host.Outcome State Fault Refusal := .next (s.runOp run op 0x0213 (one (opUnary (vecFn .log))))

/-- SQRT (R129). -/
def execSqrt (run op : Nat) (s : State) : Host.Outcome State Fault Refusal := .next (s.runOp run op 0x0214 (one (opUnary fsqrt)))

/-- RSQRT (R129; log 5). -/
def execRsqrt (run op : Nat) (s : State) : Host.Outcome State Fault Refusal := .next (s.runOp run op 0x0215 (one (opUnary (vecFn .rsqrt))))

/-- TANH (R129; log 5). -/
def execTanh (run op : Nat) (s : State) : Host.Outcome State Fault Refusal := .next (s.runOp run op 0x0216 (one (opUnary (vecFn .tanh))))

/-- SIGMOID (R129; log 5). -/
def execSigmoid (run op : Nat) (s : State) : Host.Outcome State Fault Refusal := .next (s.runOp run op 0x0217 (one (opUnary (vecFn .sigmoid))))

/-- GELU (R129; log 5). -/
def execGelu (run op : Nat) (s : State) : Host.Outcome State Fault Refusal := .next (s.runOp run op 0x0218 (one (opUnary (vecFn .gelu))))

/-- SILU (R129; log 5). -/
def execSilu (run op : Nat) (s : State) : Host.Outcome State Fault Refusal := .next (s.runOp run op 0x0219 (one (opUnary (vecFn .silu))))

/-- CLAMP (R129). -/
def execClamp (run op : Nat) (s : State) : Host.Outcome State Fault Refusal := .next (s.runOp run op 0x021A (one opClamp))

/-! ## Reductions and normalisations -/

/-- REDUCE_SUM (R131). -/
def execReduceSum (run op : Nat) (s : State) : Host.Outcome State Fault Refusal := .next (s.runOp run op 0x0300 (one opReduceSum))

/-- REDUCE_MAX (R131). -/
def execReduceMax (run op : Nat) (s : State) : Host.Outcome State Fault Refusal := .next (s.runOp run op 0x0301 (one (opReduceBy fmax)))

/-- REDUCE_MIN (R131). -/
def execReduceMin (run op : Nat) (s : State) : Host.Outcome State Fault Refusal := .next (s.runOp run op 0x0302 (one (opReduceBy fmin)))

/-- SOFTMAX (R131). -/
def execSoftmax (run op : Nat) (s : State) : Host.Outcome State Fault Refusal := .next (s.runOp run op 0x0303 (one opSoftmax))

/-- LAYERNORM (R131). -/
def execLayernorm (run op : Nat) (s : State) : Host.Outcome State Fault Refusal := .next (s.runOp run op 0x0304 (one (opNorm true)))

/-- RMSNORM (R131). -/
def execRmsnorm (run op : Nat) (s : State) : Host.Outcome State Fault Refusal := .next (s.runOp run op 0x0305 (one (opNorm false)))

/-! ## Conversions and copies -/

/-- CONVERT (R82). -/
def execConvert (run op : Nat) (s : State) : Host.Outcome State Fault Refusal := .next (s.runOp run op 0x0400 (one opConvert))

/-- TRANSPOSE (R128). -/
def execTranspose (run op : Nat) (s : State) : Host.Outcome State Fault Refusal := .next (s.runOp run op 0x0401 (one opTranspose))

/-- RESHAPE (R128). -/
def execReshape (run op : Nat) (s : State) : Host.Outcome State Fault Refusal := .next (s.runOp run op 0x0402 (one opReshape))

/-- SLICE (R128). -/
def execSlice (run op : Nat) (s : State) : Host.Outcome State Fault Refusal := .next (s.runOp run op 0x0403 (one opSlice))

/-- CONCAT (R128). -/
def execConcat (run op : Nat) (s : State) : Host.Outcome State Fault Refusal := .next (s.runOp run op 0x0404 (one opConcat))

/-- GATHER (R128). -/
def execGather (run op : Nat) (s : State) : Host.Outcome State Fault Refusal := .next (s.runOp run op 0x0405 (one opGather))

/-! ## Relational operations -/

/-- HASH_PARTITION (R134). -/
def execHashPartition (run op : Nat) (s : State) : Host.Outcome State Fault Refusal :=
  .next (s.runOp run op 0x0500 (fun v ins outs => match outs with | [p, q] => opHashPartition v ins p q | _ => .fail .badDescriptor 0))

/-- SORT (R135). -/
def execSort (run op : Nat) (s : State) : Host.Outcome State Fault Refusal := .next (s.runOp run op 0x0501 (one opSort))

/-- JOIN_PROBE (R136). -/
def execJoinProbe (run op : Nat) (s : State) : Host.Outcome State Fault Refusal := .next (s.runOp run op 0x0502 (one opJoinProbe))

/-- STRING_SIMILARITY (R137). -/
def execStringSimilarity (run op : Nat) (s : State) : Host.Outcome State Fault Refusal := .next (s.runOp run op 0x0503 (one opStringSimilarity))

/-- FILTER (R138). -/
def execFilter (run op : Nat) (s : State) : Host.Outcome State Fault Refusal := .next (s.runOp run op 0x0504 (one opFilter))

/-- TABLE_GATHER (R128). -/
def execTableGather (run op : Nat) (s : State) : Host.Outcome State Fault Refusal := .next (s.runOp run op 0x0505 (one opTableGather))

/-! ## Collectives and partial tensors -/

/-- FINALISE (R133). -/
def execFinalise (run op : Nat) (s : State) : Host.Outcome State Fault Refusal := .next (s.runOp run op 0x0604 (one opFinalise))

/-- What a module sends when it reaches a collective: an EVENT that it has joined, and its part, under its triple, to the other participants on the
collective's plane; in a BROADCAST only the root has a part (R139, R140, Table 15-8, log 20). -/
def collectiveParts (s : State) (r : Run) (op : Nat) (o : OpDesc) (x : Operand) : List Request :=
  let send (m code : Nat) (d : List Byte) : Request := { requestTo s (some r.cid) none m code (collWord r o) d with op := some op }
  (otherModules r o).flatMap (fun m => send m 0x40 [] ::
    (if o.opcode = 0x0603 ∧ r.rank ≠ field 4 2 o.attr then []
     else (messageData (x.val.bytes ++ x.val.records.flatMap Acc.bytes)).map (send m 0x20)))

/-- A run reaches a collective once the operation's input is complete: it joins and sends its part, once (R140). -/
def State.sendParts (cid op code : Nat) (s : State) : State :=
  match opReady s cid op code with
  | none => s
  | some (r, o) =>
    if r.reached.contains op then s
    else match fetchAll s r op (o.ins.filterMap (findTensor r.graph.tensors)) with
      | .ok [x] => (s.modRun cid (fun q => { q with reached := q.reached ++ [op] })).request (collectiveParts s r op o x)
      | _ => s

/-- What has come under the triple of a run's operation; traffic under another is left out (R140). -/
def ownParts (r : Run) (op : Nat) (parts : List (CollTag × List Byte)) : List (List Byte) :=
  match r.graph.ops[op]? with
  | some o => (parts.filter (fun p => p.1 == collTag r o)).map (·.2)
  | none => []

/-- A collective is reached, and runs once the other participants' data has come: `parts` holds one entry for each of them, in rank order (R139,
R140). -/
def State.runCollective (cid op code : Nat) (parts : List (CollTag × List Byte)) (f : List (List Byte) → OpEnv → List Operand → TensorDesc → OpResult)
    (s : State) : State :=
  match runOf s cid with
  | some r =>
    let l := ownParts r op parts
    let t := s.sendParts cid op code
    if l.length + 1 = r.modules.length then t.runOp cid op code (one (f l)) else t
  | none => s

/-- ALL_REDUCE (R133). -/
def execAllReduce (run op : Nat) (parts : List (CollTag × List Byte)) (s : State) : Host.Outcome State Fault Refusal :=
  .next (s.runCollective run op 0x0600 parts (opReduce false))

/-- REDUCE_SCATTER (R133). -/
def execReduceScatter (run op : Nat) (parts : List (CollTag × List Byte)) (s : State) : Host.Outcome State Fault Refusal :=
  .next (s.runCollective run op 0x0601 parts (opReduce true))

/-- ALL_GATHER (R141). -/
def execAllGather (run op : Nat) (parts : List (CollTag × List Byte)) (s : State) : Host.Outcome State Fault Refusal :=
  .next (s.runCollective run op 0x0602 parts (opAllGather))

/-- Whether this module is the root of a BROADCAST. -/
def isRoot (r : Run) (op : Nat) : Bool := match r.graph.ops[op]? with | some o => r.rank == field 4 2 o.attr | none => false

/-- BROADCAST (R141): `root` is the root's tensor under its triple (R140), not used on the root itself. -/
def execBroadcast (run op : Nat) (root : CollTag × List Byte) (s : State) : Host.Outcome State Fault Refusal :=
  match runOf s run with
  | none => .next s
  | some r => match isRoot r op, ownParts r op [root] with
    | true, _ => .next ((s.sendParts run op 0x0603).runOp run op 0x0603 (one (opBroadcast [])))
    | false, l :: _ => .next ((s.sendParts run op 0x0603).runOp run op 0x0603 (one (opBroadcast l)))
    | false, [] => .next (s.sendParts run op 0x0603)

/-- The partial output of an operation that has run, with records. -/
def partialVal (r : Run) (op : Nat) : Option TensorVal :=
  match r.graph.ops[op]? with
  | some o => if r.opsDone.contains op then r.vals.find? (fun v => o.outs.contains v.id && !v.records.isEmpty) else none
  | none => none

/-- RECORD_MERGE: a binned partial record arrives for one element and is merged, after the checks of R109; one that fails them, or residues
that differ after the merge, are an S2 event and RESULT_SUSPECT, as under injection (R508); a count above the limit is TOO_LARGE (R104, R108, R109). -/
def execRecordMerge (run op elem : Nat) (record : List Byte) (s : State) : Host.Outcome State Fault Refusal :=
  match runOf s run with
  | none => .next s
  | some r =>
    match partialVal r op with
    | none => .next s
    | some v =>
      match v.records[elem]? with
      | none => .next s
      | some a =>
        let m := a.merge (accOf record)
        if recordOk record && m.residuesOk && !s.flt.injecting (srcId 1 (cellOf s run op).1 4) then
          if contribLimit < m.count then .next (s.opFailed run op .tooLarge 0)
          else .next (s.modRun run (fun q => { q with vals := q.vals.map (fun w =>
            if w.id = v.id then { w with records := setAt w.records elem m } else w) }))
        else
          .next (s.recordSuspect run op)

end Sys2Proof.Machine
end

