-- ==== Sys2Proof/Machine/Placement.lean ====
section
/-! DEFINITION. DMA_COPY, ROLE_PLAN and PLACEMENT_QUERY (R190, R200, R219, R221, R330, R333, R334). -/
namespace Sys2Proof.Machine

/-! ## DMA_COPY (R330) -/

/-- Bytes of one side of a copy: a byte count, or a one-dimensional tensor of so many elements. -/
def dmaBytes (same : Bool) (fmt len : Nat) : Nat := if same then len else denseBytes fmt [len] 0

/-- The bytes a copy writes. -/
def dmaConvert (src dst : Nat) (c : Conv) (len : Nat) (l : List Byte) : List Byte :=
  if src = dst then l
  else
    let d : Dest := { fmt := dst, axis := 0, dims := [len], conv := c, seed := 0, tensor := 0, inst := 0 }
    packDense dst 0 [len] (d.encode ((unpackDense src 0 [len] l).map (elemValue src)))

/-- Whether a side of a copy is a live handle that holds so many bytes from an offset, or a host address. -/
def dmaSideOk (s : State) (kind handle off n : Nat) : Bool :=
  kind == 0 || (match memHandle s handle with | some h => decide (off + n ≤ h.size) | none => false)

/-- The pieces of a handle side. -/
def dmaPieces (s : State) (handle off n : Nat) : List Extent := match memHandle s handle with | some h => pieces h.extents off n | none => []

/-- Acceptance of DMA_COPY: its conversion, and both sides in their handles (R330). -/
def dmaStop (c : Cmd) (s : State) : Option State :=
  let sf := c.arg 0xA 1
  let df := c.arg 0xB 1
  let same := sf == df
  let ok : Bool := match (if same then some conv0 else convOf (c.arg 0xC 1)) with
    | none => false
    | some v => v.round != .sr && dmaSideOk s (c.arg 8 1) (c.arg 0x10 8) (c.arg 0x18 8) (dmaBytes same sf (c.arg 0x30 8))
                && dmaSideOk s (c.arg 9 1) (c.arg 0x20 8) (c.arg 0x28 8) (dmaBytes same df (c.arg 0x30 8))
  if ok then none else some (s.finishCmd c.cid .badDescriptor [])

/-- DMA_COPY: bytes moved, or elements converted, between host memory and handles; `source` is what the host's memory holds when the source
is a host address (R330). -/
def execDmaCopy (cid : Nat) (source : List Byte) (s : State) : Host.Outcome State Fault Refusal :=
  .next (s.commandReading cid 0x40 (((cmdAt s cid).map (fun c => c.arg 8 1 == 0)).getD false) dmaStop (fun c t =>
    let sf := c.arg 0xA 1
    let df := c.arg 0xB 1
    let same := sf == df
    let len := c.arg 0x30 8
    let ns := dmaBytes same sf len
    let nd := dmaBytes same df len
    let v := ((if same then some conv0 else convOf (c.arg 0xC 1))).getD conv0
    if c.arg 8 1 = 0 ∧ source.length ≠ ns then s
    else
      let from_ := if c.arg 8 1 = 0 then [] else dmaPieces t (c.arg 0x10 8) (c.arg 0x18 8) ns
      let to_ := if c.arg 9 1 = 0 then [] else dmaPieces t (c.arg 0x20 8) (c.arg 0x28 8) nd
      if memWaits t (from_ ++ to_) then t
      else match t.badAccessBy cid true from_, t.badAccessBy cid false to_ with
      | some u, _ => u
      | none, some u => u
      | none, none =>
        let out := dmaConvert sf df v len (if c.arg 8 1 = 0 then source else readPieces t.mem.cells from_)
        let u := t.touch false from_
        if c.arg 9 1 = 0 then u.finishWrites cid .ok [(0x14, 8, nd)] [(c.arg 0x20 8 + c.arg 0x28 8, out)]
        else (u.writeMem to_ out).finishCmd cid .ok [(0x14, 8, nd)]))

/-! ## ROLE_PLAN (R190, R200, R201, R333) -/

/-- rflags of Table 7-5. -/
def rflags (s : State) : Nat := bnat (decide (s.cel.plansMade < 2)) + 2 * bnat s.cel.freeze + 4 * bnat s.cel.boundsSet + 8 * bnat s.cel.hintsClipped

/-- The module role given last: one that waits for its plan, else the one in force. -/
def roleGiven (s : State) : Role := s.cel.newRole.getD s.cel.moduleRole

/-- Result fields of ROLE_PLAN. -/
def rolePlanFields (s : State) : List (Nat × Nat × Nat) :=
  let b := s.cel.bounds
  [(0x14, 4, s.cel.plan + 1), (0x18, 2, b.minM), (0x1A, 2, b.maxM), (0x1C, 2, b.minD), (0x1E, 2, b.maxD), (0x20, 2, b.minC), (0x22, 2, b.maxC),
   (0x24, 1, (roleGiven s).code), (0x25, 1, rflags s)]

/-- ROLE_PLAN: bounds, FREEZE and module role for the next plan. -/
def execRolePlan (cid : Nat) (s : State) : Host.Outcome State Fault Refusal :=
  .next (s.command cid 0x50 (fun c t =>
    let fl := c.arg 0x14 1
    let b : Bounds := if bit 2 fl then Bounds.reset
      else { minM := c.arg 8 2, maxM := c.arg 0xA 2, minD := c.arg 0xC 2, maxD := c.arg 0xE 2, minC := c.arg 0x10 2, maxC := c.arg 0x12 2 }
    let role := (Role.ofCode (c.arg 0x15 1)).getD .none
    let change := bit 1 fl && roleGiven t != role
    if b.maxM < b.minM ∨ b.maxD < b.minD ∨ b.maxC < b.minC then t.finishCmd cid .badDescriptor []
    else if (computeSites t).length < b.minM + b.minD + b.minC then t.finishCmd cid .noResource []
    else if change && (!t.sessions.isEmpty || !t.runs.isEmpty || !t.launches.isEmpty || t.host.cmds.any (fun d => d.waits && (d.opcode == 0x31 || d.opcode == 0x33))) then t.finishCmd cid .busy []
    else
      let u : State := { t with cel := { t.cel with bounds := b, boundsSet := !bit 2 fl, boundsNew := true, freeze := bit 0 fl && !bit 2 fl, hintsClipped := false,
                                                    newRole := if change then some role else t.cel.newRole } }
      u.finishCmd cid .ok (rolePlanFields u)))

/-! ## PLACEMENT_QUERY (R219, R221, R334) -/

/-- Byte n of the site list of Table 7-5: a tile that drains is shown under its new role, as it is counted (log 64). -/
def siteByte (s : State) (n : Nat) : Nat :=
  let t := tileAt s n
  t.state.code + 16 * (if t.state = .compute then t.planRole.code else 0) + 64 * bnat t.draining

/-- The MODULE report (Table 7-5). -/
def moduleReport (s : State) : List Byte :=
  let c := roleCounts s
  let held (f : Place → Bool) : Nat := (s.cel.blocks.filter (fun b => f b.place)).length
  leBytes 4 s.cel.plan ++ leBytes 4 s.cel.lastChange ++ leBytes 1 s.cel.moduleRole.code ++ leBytes 1 (rflags s)
  ++ leBytes 2 ((List.range 64).filter (fun n => (tileAt s n).draining)).length ++ leBytes 2 c.1 ++ leBytes 2 c.2.1 ++ leBytes 2 c.2.2 ++ leBytes 2 0
  ++ leBytes 4 (groupCells s .mash) ++ leBytes 4 (groupCells s .draught) ++ leBytes 4 (groupCells s .cask) ++ leBytes 4 s.cel.wMash
  ++ leBytes 4 s.cel.wDraught ++ leBytes 4 s.cel.kvRate ++ leBytes 4 0 ++ leBytes 8 (held Place.isSite) ++ leBytes 8 (held Place.isCxl)
  ++ leBytes 8 (held Place.isRemote) ++ (List.range 8).flatMap (fun r => leBytes 1 (Nat.min (s.cel.loads.rows.getD r 0) 255))
  ++ (List.range 64).flatMap (fun n => leBytes 1 (siteByte s n)) ++ List.replicate 16 0

/-- The peer that holds most of a session's remote blocks, ties to the lowest name. -/
def mainPeer (bs : List KvBlock) : Option Nat :=
  let ps := bs.filterMap (fun b => match b.place with | .remote p => some p | _ => none)
  let count (p : Nat) : Nat := (ps.filter (· == p)).length
  pickBy (fun a b => decide (count b < count a) || (count a == count b && decide (a < b))) ps.eraseDups

/-- The SESSION report (Table 7-6). -/
def sessionReport (s : State) (handle : Nat) (x : Session) : List Byte :=
  let bs := s.cel.blocks.filter (fun b => b.session == x.index)
  let held (f : Place → Bool) : Nat := (bs.filter (fun b => f b.place)).length
  leBytes 8 handle ++ leBytes 4 bs.length ++ leBytes 4 (held Place.isSite) ++ leBytes 4 (held Place.isCxl) ++ leBytes 4 (held Place.isRemote)
  ++ leBytes 4 (bs.filter (fun b => !b.sealed)).length ++ leBytes 2 ((mainPeer bs).getD 0xFFFF) ++ leBytes 2 0

/-- Weight shards of a model that lie in the CXL tier; one that an evacuation has sent to a peer does not (Table 7-7, R271). -/
def spilledShards (m : Model) : List Shard := m.shards.filter (fun x => x.spilled && x.atPeer.isNone)

/-- Weight bytes of a model at its epochs: local, spilled. -/
def modelBytes (m : Model) : Nat × Nat :=
  (total ((m.shards.filter (fun x => !x.spilled)).map (fun x => x.data.length)), total ((spilledShards m).map (fun x => x.data.length)))

/-- All weight bytes of a model at its epochs. -/
def weightTotal (m : Model) : Nat := total (m.shards.map (fun x => x.data.length))

/-- Sites that hold weights of a model. -/
def modelSites (m : Model) : Nat :=
  ((List.range 64).filter (fun n => m.shards.any (fun x => !x.spilled && x.stripes.any (inPlace (.site n))))).length

/-- The predicted rate of R219 as FP32 bits: the smaller of local bandwidth over local bytes and 480 GB/s over spilled bytes. -/
def predictedRate (s : State) (m : Model) : Nat :=
  let (loc, sp) := modelBytes m
  let bw := 1000000000 * Nat.min (360 * modelSites m) (720 * (roleSites s .draught).length)
  let q (a b : Nat) : Nat := fround (ratioNum (a, b))
  if loc = 0 ∧ sp = 0 then 0
  else if sp = 0 then q bw loc
  else if loc = 0 then q 480000000000 sp
  else if bw * sp ≤ 480000000000 * loc then q bw loc else q 480000000000 sp

/-- The MODEL report (Table 7-7). -/
def modelReport (s : State) (handle : Nat) (m : Model) : List Byte :=
  let b := modelBytes m
  leBytes 8 handle ++ leBytes 8 (weightTotal m) ++ leBytes 8 b.2 ++ leBytes 4 (spilledShards m).length ++ leBytes 4 (predictedRate s m)
  ++ leBytes 2 (modelSites m) ++ leBytes 2 (roleSites s .draught).length ++ List.replicate 12 0

/-- What a report says of the time of the query: tiles DRAINING, in count and in the site bytes (Table 7-5), the predicted rate and the DRAUGHT tiles
in it (Table 7-7). -/
def atQuery (live plan : List Byte) : Nat → List Byte
  | 0 => overlay 0x50 (List.zipWith (fun (now was : Byte) => (was &&& 0xBF) ||| (now &&& 0x40)) (slice 0x50 64 live) (slice 0x50 64 plan))
      (overlay 0x0A (slice 0x0A 2 live) plan)
  | 2 => overlay 0x22 (slice 0x22 2 live) (overlay 0x1C (slice 0x1C 4 live) plan)
  | _ => plan

/-- A report as the last plan found it; where that plan knew nothing of what is asked, as it is now (R221; log 64). -/
def reportOf (live : List Byte) (plan : Option (List Byte)) (kind : Nat) : List Byte :=
  match plan with
  | some l => atQuery live l kind
  | none => live

/-- The report asked for; none for an unknown handle. -/
def placementReport (s : State) (kind handle : Nat) : Option (List Byte) :=
  match kind with
  | 0 => some (reportOf (moduleReport s) (if s.cel.planModule.isEmpty then none else some s.cel.planModule) 0)
  | 1 => (sessionHandle s handle).map (fun x => reportOf (sessionReport s handle x) (lookupKey handle s.cel.planSessions) 1)
  | 2 => (modelHandle s handle).map (fun k => reportOf (modelReport s handle (modelAt s k)) (lookupKey handle s.cel.planModels) 2)
  | _ => none

/-- PLACEMENT_QUERY: the report goes to the host buffer. -/
def execPlacementQuery (cid : Nat) (s : State) : Host.Outcome State Fault Refusal :=
  .next (s.command cid 0x51 (fun c t =>
    match placementReport t (c.arg 8 1) (c.arg 0x10 8) with
    | none => t.finishCmd cid .badDescriptor []
    | some l =>
      let f := [(0x14, 4, l.length), (0x18, 4, t.cel.plan)]
      if c.arg 0x20 4 < l.length then t.finishCmd cid .tooLarge f else t.finishWrites cid .ok f [(c.arg 0x18 8, l)]))

end Sys2Proof.Machine
end

