-- ==== Sys2Proof/Machine/Models.lean ====
section
/-! DEFINITION. Models: manifests, loading, staging, epochs, queries (R217–R220, R236–R243, R316, R317). -/
namespace Sys2Proof.Machine

/-! ## The manifest (Tables 8-5, 8-6, 8-7) -/

/-- The regions of a manifest behind its header: offset field, offset, size. -/
def manifestRegions (m : List Byte) : List (Nat × Nat × Nat) :=
  [(0x10, field 0x10 4 m, 64 * field 0xC 4 m), (0x18, field 0x18 4 m, 16 * field 0x14 4 m), (0x1C, field 0x1C 4 m, field 0x20 4 m),
   (0x24, field 0x24 4 m, field 0x28 4 m)]

/-- Checks of the header, in offset order. -/
def manifestHeader (m : List Byte) : List FieldCheck :=
  let size := field 8 4 m
  let rs := manifestRegions m
  let regionOk (i : Nat) : Bool :=
    match rs[i]? with
    | some (_, o, n) => o % 8 == 0 && decide (o + n ≤ size) && disjoint ((0, 64) :: (rs.take (i + 1)).map (fun r => r.2))
    | none => false
  [(0x00, field 0 4 m == 0x464E4D51), (0x04, field 4 2 m == 1), (0x06, field 6 2 m == 64),
   (0x08, decide (64 ≤ size) && decide (size ≤ 2 ^ 27) && decide (size ≤ m.length)),
   (0x0C, decide (1 ≤ field 0xC 4 m) && decide (field 0xC 4 m ≤ 65536)), (0x10, regionOk 0),
   (0x14, decide (1 ≤ field 0x14 4 m) && decide (field 0x14 4 m ≤ 1024)), (0x18, regionOk 1), (0x1C, regionOk 2), (0x24, regionOk 3),
   (0x30, zeroes 0x30 12 m), (0x3C, field 0x3C 4 m == crc32c (overlay 0x3C [0, 0, 0, 0] (m.take size)))]

/-- A tensor entry of a manifest as a shard of an epoch, with its data. -/
def shardOf (epoch index : Nat) (e weights : List Byte) : Shard :=
  { index, format := field 0 1 e, rank := field 1 1 e, blockAxis := field 2 1 e, refRank := field 3 1 e,
    dims := (List.range (field 1 1 e)).map (fun i => field (0x18 + 8 * i) 8 e), dataOffset := field 8 8 e, dataCrc := field 0x38 4 e, epoch,
    spilled := false, stripes := [], lost := false, cxlCopy := [], copyLost := false, data := slice (field 8 8 e) (field 0x10 8 e) weights }

/-- Checks of one tensor entry at an offset of the manifest; in a staged load an entry of data_size 0 carries no data (log 30). -/
def tensorEntry (stage : Bool) (off : Nat) (e weights : List Byte) : List FieldCheck :=
  let x := shardOf 0 0 e weights
  let size := field 0x10 8 e
  let absent := stage && size == 0
  [(off, decide (x.format ≤ 9)), (off + 1, decide (1 ≤ x.rank) && decide (x.rank ≤ 4)),
   (off + 2, if isBlock x.format then decide (x.blockAxis < x.rank) else x.blockAxis == 0xFF), (off + 4, zeroes 4 4 e),
   (off + 8, absent || (x.dataOffset % 64 == 0 && decide (x.dataOffset + size ≤ weights.length))),
   (off + 0x10, absent || size == denseBytes x.format x.dims x.blockAxis),
   (off + 0x18, x.dims.all (fun n => decide (1 ≤ n) && decide (n ≤ 2 ^ 40)) && decide (sizeOf x.dims ≤ 2 ^ 48) && zeroes (0x18 + 8 * x.rank) (32 - 8 * x.rank) e),
   (off + 0x38, absent || crc32c x.data == x.dataCrc), (off + 0x3C, zeroes 0x3C 4 e)]

/-- The tensor entries of a manifest. -/
def manifestTensors (m : List Byte) : List (List Byte) := entries (field 0x10 4 m) 64 (field 0xC 4 m) m

/-- The layers of a manifest. -/
def manifestLayers (m : List Byte) : List (Nat × Nat × Nat × Nat) :=
  (entries (field 0x18 4 m) 16 (field 0x14 4 m) m).map (fun e => (field 0 4 e, field 4 4 e, field 8 4 e, field 0xC 4 e))

/-- Whether a tensor is a cache INPUT of a graph: dense, dynamic, with rows of at most 64 KiB (R237). -/
def cacheInput (g : Graph) (id : Nat) : Bool :=
  match findTensor g.tensors id with
  | some t => t.kind == 0 && t.cls == 0 && t.dynamic && decide (1 ≤ t.rowSize) && t.rowFits
  | none => false

/-- Whether a tensor is an append OUTPUT of a graph. -/
def cacheOutput (g : Graph) (id : Nat) : Bool :=
  match findTensor g.tensors id with
  | some t => t.kind == 1 && t.cls == 0 && decide (1 ≤ t.rowSize) && t.rowFits
  | none => false

/-- Checks of the cache map against both graphs. -/
def cacheChecks (off : Nat) (gs : List Graph) (ls : List (Nat × Nat × Nat × Nat)) : List FieldCheck :=
  (List.range ls.length).flatMap (fun i =>
    let l := ls.getD i (0, 0, 0, 0)
    [(off + 16 * i, gs.all (fun g => cacheInput g l.1)), (off + 16 * i + 4, gs.all (fun g => cacheInput g l.2.1)),
     (off + 16 * i + 8, gs.all (fun g => cacheOutput g l.2.2.1)), (off + 16 * i + 12, gs.all (fun g => cacheOutput g l.2.2.2))])

/-- A step graph of a manifest, or the manifest offset of its first failing field. -/
def stepGraph (m : List Byte) (at_ : Nat) : Except Nat Graph :=
  match checkGraph (slice (field at_ 4 m) (field (at_ + 4) 4 m) m) with
  | .good g => .ok g
  | .bad _ _ _ o => .error (field at_ 4 m + o)

/-- Checks that every WEIGHT of a graph matches its manifest entry, field by field (R238). -/
def weightChecks (m : List Byte) (at_ : Nat) (g : Graph) : List FieldCheck :=
  let b := slice (field at_ 4 m) (field (at_ + 4) 4 m) m
  let es := manifestTensors m
  (List.range g.tensors.length).flatMap (fun i => match g.tensors[i]? with
    | some t =>
      let o := field at_ 4 m + field 0x14 4 b + 64 * i
      if t.kind != 4 then []
      else match es[t.ref]? with
        | none => [(o + 0xC, false)]
        | some e =>
          let x := shardOf 0 0 e []
          [(o + 6, t.format == x.format), (o + 7, t.rank == x.rank), (o + 8, t.blockAxis == x.blockAxis)]
          ++ (List.range t.rank).map (fun k => (o + 0x10 + 8 * k, t.dims.getD k 0 == x.dims.getD k 0))
    | none => [])

/-- A manifest that passed: its graphs. -/
structure Manifest where
  prefill : Graph
  decode : Graph
  layers : List (Nat × Nat × Nat × Nat)
  deriving DecidableEq, Repr

/-- The checks of R238 in order: header, tensor table, graphs, cache map; the offset of the first failing field. -/
def checkManifest (stage : Bool) (m weights : List Byte) : Except Nat Manifest :=
  let es := manifestTensors m
  match firstBad (manifestHeader m) with
  | some o => .error o
  | none =>
    match firstBad ((List.range es.length).flatMap (fun i => tensorEntry stage (field 0x10 4 m + 64 * i) (es.getD i []) weights)), stepGraph m 0x1C, stepGraph m 0x24 with
    | some o, _, _ => .error o
    | none, .error o, _ => .error o
    | none, .ok _, .error o => .error o
    | none, .ok p, .ok d =>
      match firstBad (weightChecks m 0x1C p ++ weightChecks m 0x24 d ++ cacheChecks (field 0x18 4 m) [p, d] (manifestLayers m)) with
      | some o => .error o
      | none => .ok { prefill := p, decode := d, layers := manifestLayers m }

/-! ## Placement (R206, R217, R218) -/

/-- A shard placed in the local pool, at a place in the turn of stripes. -/
def State.placeLocal (k : Nat) (x : Shard) (s : State) : Option State :=
  let m := modelAt s k
  match shardExtents s (modelStripes m) x.data.length with
  | some l => some ((s.modModel k (fun m => { m with shards := m.shards ++ [{ x with stripes := l }] })).overwrite l)
  | none => none

/-- A shard placed in the CXL tier. -/
def State.placeSpilled (k : Nat) (x : Shard) (s : State) : Option State :=
  (takeExtents x.data.length (cxlFree s)).map (fun l =>
    (s.modModel k (fun m => { m with shards := m.shards ++ [{ x with stripes := l, spilled := true }] })).overwrite l)

/-- Shards placed one after another. -/
def placeEach (f : Shard → State → Option State) (l : List Shard) (s : State) : Option State := l.foldl (fun acc x => acc.bind (f x)) (some s)

/-- Spill order: the least referenced first; without a rank the largest first; ties to the lowest index (R217). -/
def spillFirst (a b : Shard) : Bool :=
  decide (b.refRank < a.refRank) || (a.refRank == b.refRank && a.refRank == 0 && decide (b.data.length < a.data.length))

/-- The staging area: twice the largest spilled shard, from the local pool (R218). -/
def State.placeStaging (k : Nat) (spilled : List Shard) (s : State) : Option State :=
  let n := 2 * (greatest (spilled.map (fun x => x.data.length))).getD 0
  (takeExtents n (localFree s)).map (fun l => s.modModel k (fun m => { m with staging := l }))

/-- The rest of the shards, and the staging area, in the local pool, with the first k of the spill order left out. -/
def placeRest (slot : Nat) (shards spilled : List Shard) (s : State) : Option State :=
  (placeEach (State.placeLocal slot) (shards.filter (fun x => !spilled.any (fun y => y.index == x.index))) s).bind (State.placeStaging slot spilled)

/-- How placing a model ends. -/
inductive Placed where
  | fits (s : State)
  | spilled (s : State)
  | none

/-- R217: everything local if it fits; else, unless STRICT_FIT, as few shards as possible spilled to the CXL tier. -/
def placeModel (slot : Nat) (strict : Bool) (shards : List Shard) (s : State) : Placed :=
  match placeRest slot shards [] s with
  | some t => .fits t
  | none =>
    if strict then .none
    else
      let order := sortBy spillFirst shards
      match (List.range order.length).findSome? (fun k => (placeRest slot shards (order.take (k + 1)) s).map (fun t => (t, order.take (k + 1)))) with
      | some (t, sp) => match placeEach (State.placeSpilled slot) sp t with
        | some u => .spilled u
        | none => .none
      | none => .none

/-- CXL copies of every shard of an epoch (R239). -/
def State.placeCopies (k epoch : Nat) (s : State) : Option State :=
  (modelAt s k).shards.foldl (fun acc x => acc.bind (fun t =>
    if x.epoch = epoch then
      (takeExtents x.data.length (cxlFree t)).map (fun l => (t.modModel k (fun m => { m with shards := m.shards.map (fun y =>
        if y.index = x.index ∧ y.epoch = epoch then { y with cxlCopy := l } else y) })).overwrite l)
    else some t)) (some s)

/-! ## Loading (R217, R220, R238, R239, R241, R316) -/

/-- The shards that a manifest and its weights give for an epoch; entries without data are left out. -/
def manifestShards (epoch : Nat) (m weights : List Byte) : List Shard :=
  let es := manifestTensors m
  ((List.range es.length).filter (fun i => field 0x10 8 (es.getD i []) != 0)).map (fun i => shardOf epoch i (es.getD i []) weights)

/-- Result fields of MODEL_LOAD (Table 11-5). -/
def loadFields (handle epoch spilled bytes spilledBytes rate err : Nat) : List (Nat × Nat × Nat) :=
  [(0x14, 8, handle), (0x1C, 4, epoch), (0x20, 4, spilled), (0x24, 8, bytes), (0x2C, 8, spilledBytes), (0x34, 4, rate), (0x38, 4, err)]

/-- A load that ends with a status and leaves nothing. -/
def State.loadFails (cid : Nat) (status : Status) (err : Nat) (s : State) : State := s.finishCmd cid status (loadFields 0 0 0 0 0 0 err)

/-- Whether the operands are what the descriptor names. -/
def loadData (c : Cmd) (manifest weights : List Byte) : Bool := manifest.length == c.arg 0x18 4 && weights.length == c.arg 0x28 8

/-- The free slot with the lowest index. -/
def freeSlot (s : State) : Option Nat := (List.range 64).find? (fun i => (modelAt s i).state == .empty)

/-- Slot i taken by a load: READY at epoch 1, with no shard yet (R217, R238). -/
def State.claimSlot (i : Nat) (c : Cmd) (manifest : List Byte) (mf : Manifest) (s : State) : State :=
  s.modModel i (fun m =>
    { m with state := .ready, current := 1, retained := 0, staged := false, cxlCopySource := c.arg 0x1C 1 == 1,
             weightsAddr := c.arg 0x20 8, manifestCrc := field 0x3C 4 manifest, layers := mf.layers, prefillGraph := some mf.prefill,
             decodeGraph := some mf.decode, shards := [], prefetched := [], lastSpilled := none, staging := [] })

/-- The memory that some shards and their copies take. -/
def placedPieces (l : List Shard) : List Extent := l.flatMap (fun x => x.stripes ++ x.cxlCopy)

/-- MODEL_LOAD without STAGE: a model at epoch 1; NO_RESOURCE at acceptance when 64 are loaded (R217, R238, R316, R317); it waits while the memory that
it writes does (R264, R268). -/
def execModelLoad (cid : Nat) (manifest weights : List Byte) (s : State) : Host.Outcome State Fault Refusal :=
  .next (s.hostCommand cid 0x10
    (fun c t => if c.flag 1 then some s else match freeSlot t with | none => some (t.loadFails cid .noResource 0xFFFFFFFF) | some _ => none)
    (fun c t =>
    if c.flag 1 || !loadData c manifest weights then s
    else match freeSlot t with
      | none => t.loadFails cid .noResource 0xFFFFFFFF
      | some i =>
        match checkManifest false manifest weights with
        | .error o => t.loadFails cid .badDescriptor o
        | .ok mf =>
          let copy := c.arg 0x1C 1 == 1
          let first := !t.cel.modelLoaded
          let pr := field 0x2C 2 manifest
          let dr := field 0x2E 2 manifest
          let u := t.claimSlot i c manifest mf
          let finish (spilled : Bool) (v : State) : State :=
            match (if copy then v.placeCopies i 1 else some v) with
            | none => t.loadFails cid .noResource 0xFFFFFFFF
            | some w =>
              let m := modelAt w i
              let b := modelBytes m
              if memWaits t (placedPieces m.shards) then t else
              let w1 : State := { w with cel := { w.cel with modelLoaded := true, ratio := if first ∧ pr + dr ≠ 0 then some (pr, dr) else w.cel.ratio } }
              (w1.noteGen 5 m.gen).assignStreams.finishCmd cid (if spilled then .okSpilled else .ok)
                (loadFields (handleWord 0 m.gen i) 1 (spilledShards m).length (weightTotal m) b.2 (if spilled then predictedRate w m else 0) 0xFFFFFFFF)
          match placeModel i (c.flag 0) (manifestShards 1 manifest weights) u with
          | .fits v => finish false v
          | .spilled v => finish true v
          | .none => t.loadFails cid .tooLarge 0xFFFFFFFF))

/-- Whether a MODEL_EPOCH_COMMIT of a model is in flight (R317). -/
def commitInFlight (s : State) (handle : Nat) : Bool := s.host.cmds.any (fun c => c.opcode == 0x12 && c.started && c.arg 8 8 == handle)

/-- Whether staged entries match those of the model (R241): as many tensors, each with its format, block axis and sizes. -/
def stagedMatch (m : Model) (manifest : List Byte) : Option Nat :=
  let es := manifestTensors manifest
  let base := field 0x10 4 manifest
  let n := (m.shards.map (·.index)).eraseDups.length
  if es.length ≠ n then some 0x0C
  else firstBad ((List.range es.length).flatMap (fun i =>
    let x := shardOf 0 i (es.getD i []) []
    match shardFor m i m.current with
    | some y => [(base + 64 * i, x.format == y.format), (base + 64 * i + 1, x.rank == y.rank), (base + 64 * i + 2, x.blockAxis == y.blockAxis),
                 (base + 64 * i + 0x18, x.dims == y.dims)]
    | none => [(base + 64 * i, false)]))

/-- MODEL_LOAD with STAGE: new data for the staged epoch of a model, all of it local; BUSY at acceptance during a commit (R241, R316, R317). -/
def execModelLoadStage (cid : Nat) (manifest weights : List Byte) (s : State) : Host.Outcome State Fault Refusal :=
  .next (s.hostCommand cid 0x10
    (fun c t =>
      if !c.flag 1 then some s
      else if (modelHandle t (c.arg 8 8)).isNone then some (t.loadFails cid .badDescriptor 0xFFFFFFFF)
      else if commitInFlight t (c.arg 8 8) then some (t.loadFails cid .busy 0xFFFFFFFF)
      else none)
    (fun c t =>
    if !c.flag 1 || !loadData c manifest weights then s
    else match modelHandle t (c.arg 8 8) with
      | none => t.loadFails cid .badDescriptor 0xFFFFFFFF
      | some i =>
        match checkManifest true manifest weights, stagedMatch (modelAt t i) manifest with
          | .error o, _ => t.loadFails cid .badDescriptor o
          | .ok _, some o => t.loadFails cid .badDescriptor o
          | .ok _, none =>
            let next := (modelAt t i).current + 1
            let new := manifestShards next manifest weights
            let u := t.modModel i (fun m => { m with staged := true, shards := m.shards.filter (fun x => !(x.epoch == next && new.any (fun y => y.index == x.index))) })
            match (placeEach (State.placeLocal i) new u).bind (fun v => if c.arg 0x1C 1 = 1 then v.placeCopies i next else some v) with
            | none => t.loadFails cid .noResource 0xFFFFFFFF
            | some v =>
              if memWaits t (placedPieces ((modelAt v i).shards.filter (fun x => x.epoch == next))) then t
              else v.assignStreams.finishCmd cid .ok (loadFields (c.arg 8 8) next 0 (total (new.map (fun x => x.data.length))) 0 0 0xFFFFFFFF)))

/-! ## Unloading, commit, query (R240, R242, R243, R317) -/

/-- MODEL_UNLOAD: weights, staged tensors, retained epoch and copies go, and the slot is freed (R240, R317). -/
def execModelUnload (cid : Nat) (s : State) : Host.Outcome State Fault Refusal :=
  .next (s.command cid 0x11 (fun c t =>
    match modelHandle t (c.arg 8 8) with
    | none => t.finishCmd cid .badDescriptor []
    | some i =>
      if t.sessions.any (fun x => x.model == i) || t.runs.any (fun r => r.model == some i) || modelAwaited t i then t.finishCmd cid .busy []
      else ((t.modModel i (fun m => { Model.reset with gen := m.gen + 1 })).assignStreams).finishCmd cid .ok []))

/-- MODEL_EPOCH_COMMIT: the staged epoch becomes current at once for every later command (R242, R243). -/
def execModelEpochCommit (cid : Nat) (s : State) : Host.Outcome State Fault Refusal :=
  .next (s.command cid 0x12 (fun c t =>
    match modelHandle t (c.arg 8 8) with
    | none => t.finishCmd cid .badDescriptor []
    | some i =>
      let m := modelAt t i
      if m.retained ≠ 0 ∧ retainedUsed t i = true then t.finishCmd cid .busy []
      else if !m.staged then t.finishCmd cid .badDescriptor []
      else if 0xFFFFFFFF ≤ m.current then t.finishCmd cid .noResource []
      else
        let u := (t.modModel i (fun m => { m with current := m.current + 1, retained := m.current, staged := false })).settleEpoch i
        u.finishCmd cid .ok [(0x14, 4, (modelAt u i).current), (0x18, 4, (modelAt u i).retained)]))

/-- Model states (Table 8-8a). -/
def ModelState.code : ModelState → Nat
  | .empty => 0 | .ready => 1 | .reloading => 2 | .failed => 3

/-- Fields of MODEL_QUERY (R239). -/
def queryFields (s : State) (i : Nat) : List (Nat × Nat × Nat) :=
  let m := modelAt s i
  let sess (e : Nat) (f : Session → Bool) : Nat := (s.sessions.filter (fun x => x.model == i && f x && (!x.pinned || x.openEpoch == e))).length
  let runs (e : Nat) : Nat := (s.runs.filter (fun r => r.model == some i && r.epoch == e)).length
  [(0x14, 1, m.state.code), (0x15, 1, bnat m.staged), (0x18, 4, m.current), (0x1C, 4, m.retained), (0x20, 4, sess m.current (fun _ => true)),
   (0x24, 4, runs m.current), (0x28, 4, if m.retained = 0 then 0 else sess m.retained (·.pinned)), (0x2C, 4, if m.retained = 0 then 0 else runs m.retained),
   (0x30, 8, weightTotal m)]

/-- MODEL_QUERY (R239). -/
def execModelQuery (cid : Nat) (s : State) : Host.Outcome State Fault Refusal :=
  .next (s.command cid 0x13 (fun c t =>
    match modelHandle t (c.arg 8 8) with
    | none => t.finishCmd cid .badDescriptor []
    | some i => t.finishCmd cid .ok (queryFields t i)))

end Sys2Proof.Machine
end

