-- ==== Sys2Proof/Machine/Sessions.lean ====
section
/-! DEFINITION. Sessions: opening, closing, steps, snapshots and restores (R215, R216, R222–R237, R244–R248, R318–R321). -/
namespace Sys2Proof.Machine

/-! ## The queue of a session (R228, R229) -/

/-- Commands of a session run one at a time, in acceptance order. A new one is checked, against its operands and against the state of the session, and
joins its queue; one whose session is busy for another ring is turned away, unless the session is IN_DOUBT; the state is looked at again when its turn
comes. -/
def State.sessionCommand (s : State) (cid op : Nat) (check : Cmd → State → Bool) (accepts : SessState → Bool) (act : Cmd → Session → State → State) : State :=
  s.command cid op (fun c t =>
    match sessionHandle t (c.arg 8 8) with
    | none => t.failCmd cid .badDescriptor 0
    | some x =>
      let q := sessionQueue t x
      if q.contains cid then
        if q.head? ≠ some cid then s
        else if accepts x.state then act c x t
        else t.failCmd cid .badDescriptor 0
      else if !check c t || !accepts x.state then t.failCmd cid .badDescriptor 0
      else if x.state ≠ .inDoubt ∧ (q.head?.map (fun k => ringOf t k != some c.ring)).getD false = true then t.failCmd cid .busy 0
      else
        let u := t.modSession x.index (fun y => { y with queue := q ++ [cid] })
        if q.isEmpty then act c { x with queue := [cid] } u else u)

/-! ## Opening (R215, R224, R318) -/

/-- Bytes that the three tiers hold for key/value blocks (R215). -/
def kvCapacity (s : State) : Nat := poolCapacity s + s.cel.kvShare + total ((caskPeers s).map Config.leaseOffer)

/-- Whether another session with so many declared blocks is admitted (R215). -/
def admits (s : State) (blocks : Nat) : Bool := decide (65536 * (total (s.sessions.map (·.maxBlocks)) + blocks) ≤ kvCapacity s)

/-- A new entry of the directory (Table 8-2); the place of its block table is not given (log 4). -/
def newSession (s : State) (i model maxBlocks epoch : Nat) (pinned : Bool) (seed : DWord) : Session :=
  { index := i, generation := genOf s.sessionGen i, state := .open, pinned, epochChanged := false, model, openEpoch := epoch, lastEpoch := 0,
    position := 0, maxBlocks, blockTable := (freshWord s).toNat, seed, lastInstance := 0, steps := 0, stepRing := none, prior := .open, queue := [] }

/-- Codes of Table 8-3. -/
def SessState.code : SessState → Nat
  | .free => 0 | .open => 1 | .stepping => 2 | .snapshotting => 3 | .migrating => 4 | .inDoubt => 5 | .broken => 6 | .closing => 7

/-- The first 60 bytes of a session's directory entry (Table 8-2). -/
def Session.entryHead (s : State) (x : Session) : List Byte :=
  leBytes 4 x.generation ++ leBytes 1 x.state.code ++ leBytes 1 x.flags ++ leBytes 2 x.model ++ leBytes 4 x.openEpoch ++ leBytes 4 x.lastEpoch
  ++ leBytes 8 x.position ++ leBytes 4 x.maxBlocks ++ leBytes 4 (blocksHeld s x.index) ++ leBytes 8 x.blockTable ++ leBytes 8 x.seed.toNat
  ++ leBytes 4 x.lastInstance.toNat ++ leBytes 4 x.steps ++ leBytes 2 (x.stepRing.getD 0xFFFF) ++ leBytes 2 0

/-- A session's directory entry with its crc, as the hub writes it (Table 8-2); a copy in hub SRAM that does not verify arrives as an event of its
checker (R225; log 66). -/
def Session.entry (s : State) (x : Session) : List Byte := x.entryHead s ++ leBytes 4 (crc32c (x.entryHead s))

/-- The handle of a session. -/
def Session.handle (x : Session) : Nat := handleWord 0 x.generation x.index

/-- SESSION_OPEN (R215, R224, R318, R336). -/
def execSessionOpen (cid : Nat) (s : State) : Host.Outcome State Fault Refusal :=
  .next (s.command cid 0x20 (fun c t0 =>
    let t := t0.setShare
    match modelHandle t (c.arg 8 8) with
    | none => t.finishCmd cid .badDescriptor []
    | some k =>
      if (modelAt t k).state ≠ .ready then t.finishCmd cid .badDescriptor []
      else if selftestRunning t then t.finishCmd cid .busy []
      else match freeIndex (t.sessions.map (·.index)) 65536 with
        | none => t.finishCmd cid .noResource []
        | some i =>
          if !admits t (c.arg 0x10 4) then t.finishCmd cid .noResource []
          else
            let x := newSession t i k (c.arg 0x10 4) (modelAt t k).current (c.flag 0) (BitVec.ofNat 64 (c.arg 0x18 8))
            let u : State := { t with sessions := t.sessions ++ [x] }
            ((u.noteGen 4 x.generation).spend 1).finishCmd cid .ok [(0x14, 8, x.handle), (0x1C, 4, x.openEpoch)]))

/-! ## Closing (R223, R231, R243) -/

/-- Leases of a session left to peers that cannot be reached (R231). -/
def leasesLeft (s : State) (i : Nat) : Nat := (s.cel.heldLeases.filter (fun l => l.session == some i && !reachable s l.peer)).length

/-- A session is freed under R231, its leases with it. -/
def State.freeSession (x : Session) (s : State) : State := (s.dropSession x.index).releaseOrphans

/-- SESSION_CLOSE (R231). -/
def execSessionClose (cid : Nat) (s : State) : Host.Outcome State Fault Refusal :=
  .next (s.sessionCommand cid 0x21 (fun _ _ => true) (fun st => st != .closing) (fun _ x t =>
    (t.freeSession x).finishCmd cid .ok [(0x14, 4, blocksHeld t x.index), (0x18, 4, leasesLeft t x.index)]))

/-! ## Steps (R216, R226, R229, R230, R235, R237, R319, R320) -/

/-- States in which a step is accepted (Table 8-4). -/
def stepAccepts (rebuild : Bool) (st : SessState) : Bool :=
  st == .open || st == .stepping || st == .snapshotting || (rebuild && st == .broken)

/-- The blocks a session would hold at a position. -/
def blocksAt (s : State) (r : Run) (pos : Nat) : Nat :=
  total ((appendTensors s r).map (fun p => (pos + rowsPerBlock p.1 - 1) / rowsPerBlock p.1))

/-- Whether every cache tensor that a step reads reaches so many rows. -/
def cacheFits (s : State) (r : Run) (x : Session) (rows : Nat) : Bool :=
  r.graph.tensors.all (fun t => t.kind != 0 || (cacheRead (modelAt s x.model) t.id).isNone || decide (rows ≤ t.dims.getD 0 0))

/-- Every block of a session is discarded, its leases with it (R235). -/
def State.discardBlocks (x : Session) (s : State) : State :=
  let ids := (s.cel.blocks.filter (fun b => b.session == x.index)).map (·.id)
  State.releaseOrphans
    { s with cel := { s.cel with blocks := without (fun b => b.session == x.index) s.cel.blocks,
                                 moves := without (fun m => ids.contains m.block) s.cel.moves,
                                 heldLeases := s.cel.heldLeases.map (fun l => if l.session = some x.index then { l with session := none } else l) } }

/-- A step that is not to run ends and leaves the table. -/
def State.stopStep (cid : Nat) (x : Session) (status : Status) (s : State) : State :=
  (s.finishCmd cid status (stepFields s x none 0 0xFFFFFFFF)).dropRun cid

/-- An accepted step starts when its turn comes (R146, R229): the state of its session is looked at again, and the limits of R319 are. -/
def State.tryStep (cid : Nat) (role : Role) (s : State) : State :=
  match runOf s cid with
  | none => s
  | some r => match sessionOf s r with
    | none => (s.failCmd cid .badDescriptor 0).dropRun cid
    | some x =>
      if r.begun || (sessionQueue s x).head? != some cid || runWaits s r || goingOut s x.index then s
      else if !stepAccepts r.rebuild x.state then s.stopStep cid x .badDescriptor
      else
        let pos := if r.rebuild then 0 else x.position
        if x.maxBlocks < blocksAt s r (pos + r.tokens) || !cacheFits s r x (pos + r.tokens) then s.stopStep cid x .tooLarge
        else
          let t := if r.rebuild then s.discardBlocks x else s
          (t.modSession x.index (fun y => { y with state := .stepping, prior := y.state, stepRing := ringOf s cid, position := pos })).beginRun cid role

/-- What a step's model answers at acceptance (R190, R207, R216, R239, R320). -/
def stepStop (s : State) (x : Session) (role : Role) : Option Status :=
  match (modelAt s x.model).state with
  | .reloading => some .retryLater
  | .failed => some .noResource
  | _ =>
    if s.cel.moduleRole = .cask then some .noResource
    else if overloaded s role then some .retryLater
    else none

/-- Whether the first dynamic INPUT that host software binds has so many rows (R319). -/
def tokensMatch (l : List Binding) (tokens : Nat) : Bool :=
  match l.find? (fun b => b.tensor.kind == 0 && b.tensor.dynamic) with
  | some b => b.rows == tokens
  | none => false

/-- Acceptance of a step as far as its descriptor tells: the session, its state and queue, its model (R190, R216, R239, R319, R320). -/
def acceptStop (rebuild : Bool) (role : Role) (c : Cmd) (s : State) : Option State :=
  match sessionHandle s (c.arg 8 8) with
  | none => some (s.failCmd c.cid .badDescriptor 0)
  | some x =>
    let m := modelAt s x.model
    let q := sessionQueue s x
    let stop (st : Status) : Option State := some (s.finishCmd c.cid st (stepFields s x none 0 0xFFFFFFFF))
    if !stepAccepts rebuild x.state then stop .badDescriptor
    else if (q.head?.map (fun k => ringOf s k != some c.ring)).getD false then stop .busy
    else match stepStop s x role, (if role = .mash then m.prefillGraph else m.decodeGraph) with
      | some st, _ => stop st
      | none, none => stop .badDescriptor
      | none, some _ => none

/-- An accepted step whose binding list has been read: checked, numbered behind the session's other commands, and started when nothing is ahead. -/
def State.acceptStep (c : Cmd) (rebuild : Bool) (role : Role) (binds : List Byte) (s : State) : State :=
  match sessionHandle s (c.arg 8 8) with
  | none => s.failCmd c.cid .badDescriptor 0
  | some x =>
    let m := modelAt s x.model
    let q := sessionQueue s x
    let stop (st : Status) : State := s.finishCmd c.cid st (stepFields s x none 0 0xFFFFFFFF)
    match (if role = .mash then m.prefillGraph else m.decodeGraph) with
    | none => stop .badDescriptor
    | some g =>
      match bindingsOf s g (cacheIds m) (c.arg 0x18 4) binds with
      | none => stop .badDescriptor
      | some l =>
        if !tokensMatch l (c.arg 0x14 4) then stop .badDescriptor
        else if bindsBusy s c.cid l then stop .busy
        else
          let r := newRun c.cid g l x.seed (BitVec.ofNat 32 (c.arg 0x10 4)) (c.arg 0x28 8)
          let r' : Run := { r with model := some x.model, epoch := (c.heldEpoch.map (·.2)).getD (if x.pinned then x.openEpoch else m.current), session := some x.index, sessionGen := x.generation,
                                   tokens := c.arg 0x14 4, rebuild, modules := [ownId s % 4096] }
          ((s.addRun r' role).modSession x.index (fun y =>
            { y with queue := if q.contains c.cid then q else q ++ [c.cid], lastInstance := BitVec.ofNat 32 (c.arg 0x10 4) })).tryStep c.cid role

/-- A step command: accepted once, with its binding list read from host memory, then started. -/
def State.stepCommand (s : State) (cid op : Nat) (rebuild : Bool) (role : Role) (binds : List Byte) : State :=
  match runOf s cid with
  | some _ => s.tryStep cid role
  | none => (s.commandReading cid op (((cmdAt s cid).map stepReads).getD false)
      (fun c t => if op = 0x22 ∧ c.flag 0 ≠ rebuild then some s else acceptStop rebuild role c t) (fun c t =>
      if binds.length ≠ 16 * c.arg 0x18 4 ∨ (op = 0x22 ∧ c.flag 0 ≠ rebuild) then s else t.acceptStep c rebuild role binds)).settleHeld cid

/-- PREFILL (R230, R319, R320). -/
def execPrefill (cid : Nat) (binds : List Byte) (s : State) : Host.Outcome State Fault Refusal :=
  .next (s.stepCommand cid 0x22 false .mash binds)

/-- PREFILL with REBUILD (R235). -/
def execPrefillRebuild (cid : Nat) (binds : List Byte) (s : State) : Host.Outcome State Fault Refusal :=
  .next (s.stepCommand cid 0x22 true .mash binds)

/-- DECODE (R230, R319, R320). -/
def execDecode (cid : Nat) (binds : List Byte) (s : State) : Host.Outcome State Fault Refusal :=
  .next (s.stepCommand cid 0x23 false .draught binds)

/-! ## Images (Table 8-8) -/

/-- The 16 B tag of a block record. -/
def blockTag (b : KvBlock) (data : List Byte) : List Byte :=
  leBytes 2 b.layer ++ leBytes 1 (bnat b.isV) ++ leBytes 1 (bnat b.sealed) ++ leBytes 4 b.firstRow ++ leBytes 4 b.rows ++ leBytes 4 (crc32c data)

/-- A block record; bytes beyond the rows are zero (log 32). -/
def blockRecord (b : KvBlock) : List Byte :=
  let data := (b.data ++ List.replicate 65536 0).take 65536
  data ++ blockTag b data

/-- The blocks of a session in image order: layer, K before V, first row. -/
def imageBlocks (s : State) (i : Nat) : List KvBlock :=
  sortBy (fun a b : KvBlock => decide (a.layer < b.layer) || (a.layer == b.layer && (decide (bnat a.isV < bnat b.isV) || (a.isV == b.isV
    && decide (a.firstRow < b.firstRow))))) (s.cel.blocks.filter (fun b => b.session == i))

/-- The epoch an image names. -/
def Session.imageEpoch (x : Session) : Nat := if x.lastEpoch = 0 then x.openEpoch else x.lastEpoch

/-- Whether a session's cache cannot be trusted. -/
def Session.isBroken (x : Session) : Bool := x.state == .broken || (x.state == .inDoubt && x.prior == .broken)

/-- Bytes of an image of so many blocks. -/
def sessionBytes (blocks : Nat) : Nat := 128 + 65552 * blocks

/-- The image header less its CRC. -/
def imageHead (s : State) (x : Session) : List Byte :=
  let n := blocksHeld s x.index
  leBytes 4 0x50534C51 ++ leBytes 2 1 ++ leBytes 2 128 ++ leBytes 8 (sessionBytes n) ++ leBytes 4 (modelAt s x.model).manifestCrc
  ++ leBytes 4 x.imageEpoch ++ leBytes 8 x.position ++ leBytes 4 n ++ leBytes 4 x.maxBlocks ++ leBytes 8 x.seed.toNat ++ leBytes 1 x.flags
  ++ leBytes 1 (bnat x.isBroken) ++ List.replicate 74 0

/-- The image of a session. -/
def sessionImage (s : State) (x : Session) : List Byte :=
  let h := imageHead s x
  h ++ leBytes 4 (crc32c h) ++ (imageBlocks s x.index).flatMap blockRecord

/-! ## Snapshot (R246) -/

/-- Result fields of SESSION_SNAPSHOT. -/
def snapshotFields (s : State) (x : Session) : List (Nat × Nat × Nat) :=
  let n := blocksHeld s x.index
  [(0x14, 8, sessionBytes n), (0x1C, 4, n), (0x20, 4, x.imageEpoch), (0x24, 1, bnat x.isBroken)]

/-- Where a session's blocks lie in this module. -/
def blockPieces (s : State) (i : Nat) : List Extent := (s.cel.blocks.filter (fun b => b.session == i && !b.place.isRemote)).map (·.extent)

/-- Whether reading a session's blocks waits: for memory, or for blocks that a restore still has to bring to a peer (R214, R264, R268). -/
def blocksWait (s : State) (i : Nat) : Bool := memWaits s (blockPieces s i) || goingOut s i

/-- The source with which reading a session's blocks fails, if any. -/
def blocksSource (s : State) (i : Nat) : Option Nat := accessSource s none true (blockPieces s i)

/-- A peer that holds blocks of a session and is not in the route table. -/
def blocksAbsent (s : State) (i : Nat) : Option Nat :=
  (s.cel.blocks.filter (fun b => b.session == i)).findSome? (fun b => match b.place with | .remote p => if reachable s p then none else some p | _ => none)

/-- A snapshot whose turn has come: the whole copy is one step, from SNAPSHOTTING back to OPEN (log 33). -/
def State.snapshot (c : Cmd) (x : Session) (s0 : State) : State :=
  let s := (s0.caskWork c.cid).touch false (blockPieces s0 x.index)
  let fields := snapshotFields s x
  let img := sessionImage s x
  let n := sessionBytes (blocksHeld s x.index)
  if blocksWait s x.index then s0
  else match blocksAbsent s x.index, blocksSource s x.index with
  | some p, _ => (s.finishCmd c.cid .resultSuspect fields).peerLost x.index p .resultSuspect 0
  | none, some src => (s.reportAccess src (blockPieces s x.index) [c.cid]).failCmd c.cid .resultSuspect src
  | none, none =>
    if c.arg 0x10 1 = 0 then
      if c.arg 0x28 8 < n then s.finishCmd c.cid .tooLarge fields else s.finishWrites c.cid .ok fields [(c.arg 0x18 8, img)]
    else match memHandle s (c.arg 0x18 8) with
      | none => s.finishCmd c.cid .badDescriptor []
      | some h =>
        if Nat.min (c.arg 0x28 8) (h.size - c.arg 0x20 8) < n then s.finishCmd c.cid .tooLarge fields
        else
          let l := pieces h.extents (c.arg 0x20 8) n
          if memWaits s l then s0 else (s.badAccessBy c.cid false l).getD ((s.writeMem l img).finishCmd c.cid .ok fields)

/-- SESSION_SNAPSHOT (R246); what it writes to the host is held while the host is closed (R280). -/
def execSessionSnapshot (cid : Nat) (s : State) : Host.Outcome State Fault Refusal :=
  .next (s.sessionCommand cid 0x24 (fun _ _ => true) (fun st => st == .open || st == .stepping || st == .broken || st == .inDoubt) (fun c x t => t.snapshot c x))

/-! ## Restore (R247, R248) -/

/-- The block record k of an image. -/
def imageRecord (img : List Byte) (k : Nat) : List Byte := slice (sessionBytes k) 65552 img

/-- Checks of step 1 of R247: the header's fields and CRC, every block's CRC, and bflags.broken. -/
def imageChecks (img : List Byte) : List FieldCheck :=
  let n := field 0x20 4 img
  [(0x00, field 0 4 img == 0x50534C51), (0x04, field 4 2 img == 1), (0x06, field 6 2 img == 128),
   (0x08, field 8 8 img == sessionBytes n && decide (field 8 8 img ≤ img.length)), (0x30, decide (field 0x30 1 img < 4)), (0x31, field 0x31 1 img == 0),
   (0x32, zeroes 0x32 74 img), (0x7C, field 0x7C 4 img == crc32c (img.take 124))]
  ++ (if img.length < sessionBytes n then [] else (List.range n).map (fun k =>
      (sessionBytes k + 65548, field 65548 4 (imageRecord img k) == crc32c ((imageRecord img k).take 65536))))

/-- The append tensor of a model's cache, as its decode graph has it. -/
def cacheTensor (m : Model) (layer : Nat) (isV : Bool) : Option TensorDesc :=
  (appendId m layer isV).bind (fun a => m.decodeGraph.bind (fun g => findTensor g.tensors a))

/-- A restored block, heat 128, in the first tier with room; an open block only in the local pool (R208–R211, R247). One for a peer goes there once its
lease is granted (R214). -/
def State.restoreBlock (m : Model) (session : Nat) (rec_ : List Byte) (s : State) : Option State :=
  let layer := field 65536 2 rec_
  let isV := field 65538 1 rec_ == 1
  let isSealed := field 65539 1 rec_ != 0
  let rows := field 65544 4 rec_
  let size := match cacheTensor m layer isV with | some t => t.cacheBytes rows | none => 0
  let got := (toPool s).orElse (fun _ => if isSealed then (toCxl s).orElse (fun _ => toRemote s) else none)
  got.map (fun (p, e) =>
    let b : KvBlock := { id := s.cel.nextBlock, session, layer, isV, firstRow := field 65540 4 rec_, rows, sealed := isSealed,
                         sealOrder := s.cel.sealCount, heat := 128, place := p, extent := e, data := (rec_.take 65536).take size }
    let t := match p with | .remote q => s.takeLease q b.id | _ => s.overwrite [e]
    { t with cel := { t.cel with blocks := t.cel.blocks ++ [b], nextBlock := t.cel.nextBlock + 1,
                                 sealCount := t.cel.sealCount + bnat isSealed } })

/-- R247 whole: a new session in a state, or the status and the offset of the failing field. -/
def restoreImage (s : State) (k : Nat) (img : List Byte) (st : SessState) : Except (Status × Nat) (State × Session) :=
  let m := modelAt s k
  let pinned := bit 0 (field 0x30 1 img)
  let epoch := field 0x14 4 img
  let n := field 0x20 4 img
  let pos := field 0x18 8 img
  match firstBad (imageChecks img) with
  | some o => .error (.badDescriptor, o)
  | none =>
    if field 0x10 4 img ≠ m.manifestCrc then .error (.badDescriptor, 0x10)
    else if pinned ∧ epoch ≠ m.current ∧ (epoch ≠ m.retained ∨ m.retained = 0) then .error (.badDescriptor, 0x14)
    else match freeIndex (s.sessions.map (·.index)) 65536 with
      | none => .error (.noResource, 0xFFFFFFFF)
      | some i =>
        let x0 := newSession s i k (field 0x24 4 img) (if pinned then epoch else m.current) pinned (BitVec.ofNat 64 (field 0x28 8 img))
        let x : Session := { x0 with state := st, position := pos, lastEpoch := if pos = 0 then 0 else epoch, epochChanged := bit 1 (field 0x30 1 img) }
        if !admits s x.maxBlocks then .error (.noResource, 0xFFFFFFFF)
        else
          let t : State := (({ s with sessions := s.sessions ++ [x] } : State).noteGen 4 x.generation).spend 1
          match (List.range n).foldl (fun acc j => acc.bind (State.restoreBlock m i (imageRecord img j))) (some t) with
          | some u => .ok (u, x)
          | none => .error (.noResource, 0xFFFFFFFF)

/-- Result fields of SESSION_RESTORE. -/
def restoreFields (x : Option Session) (err : Nat) : List (Nat × Nat × Nat) :=
  match x with
  | some y => [(0x14, 8, y.handle), (0x1C, 4, y.openEpoch), (0x20, 8, y.position), (0x28, 4, err)]
  | none => [(0x28, 4, err)]

/-- A restore from an image at hand; the key/value share stays as it was recomputed whether or not it succeeds (R189, R210);
it waits while the memory of its blocks does (R264, R268). -/
def State.restore (cid k : Nat) (img : List Byte) (s0 : State) : State :=
  let s := (s0.caskWork cid).setShare
  match restoreImage s k img .open with
  | .ok (t, x) => if memWaits s (blockPieces t x.index) then s0 else t.finishCmd cid .ok (restoreFields (some x) 0xFFFFFFFF)
  | .error (st, o) => s.finishCmd cid st (restoreFields none o)

/-- SESSION_RESTORE from a host buffer, whose bytes are `image`, or from a memory handle (R247, R321). -/
def execSessionRestore (cid : Nat) (image : List Byte) (s : State) : Host.Outcome State Fault Refusal :=
  .next (match cmdAt s cid with
    | none => s
    | some c =>
      let kind := c.arg 0x10 1
      if kind = 2 then s
      else s.commandReading cid 0x25 (kind == 0)
        (fun c t => if (modelHandle t (c.arg 8 8)).isNone then some (t.failCmd cid .badDescriptor 0) else none) (fun c t =>
        let bad := t.failCmd cid .badDescriptor 0
        if kind = 0 ∧ image.length ≠ c.arg 0x28 8 then s
        else match modelHandle t (c.arg 8 8) with
        | none => bad
        | some k =>
          if kind = 0 then t.restore cid k image
          else match memHandle t (c.arg 0x18 8) with
            | none => bad
            | some h =>
              if h.size < c.arg 0x20 8 + c.arg 0x28 8 then bad
              else
                let l := pieces h.extents (c.arg 0x20 8) (c.arg 0x28 8)
                if memWaits t l then t else (t.badAccessBy cid true l).getD ((t.touch false l).restore cid k (readPieces t.mem.cells l))))

end Sys2Proof.Machine
end

