-- ==== Sys2Proof/Machine/Migrations.lean ====
section
/-! DEFINITION. Moving a session between modules (R249–R251, Tables 8-9 and 15-8). -/
namespace Sys2Proof.Machine

/-- The migration of a command. -/
def migOf (s : State) (cid : Nat) (source : Bool) : Option Migration := s.migs.find? (fun m => m.cid == cid && m.isSource == source)

/-- A change of one migration. -/
def State.modMig (cid : Nat) (f : Migration → Migration) (s : State) : State := { s with migs := s.migs.map (fun m => if m.cid = cid then f m else m) }

/-- A migration is over. -/
def State.dropMig (cid : Nat) (s : State) : State := { s with migs := without (fun m => m.cid == cid) s.migs }

/-- READY, a refusal, COMMIT or DONE to the other module; its operand is not laid out (log 20). -/
def State.sendCtrl (peer : Nat) (s : State) : State :=
  (s.request [requestTo s none none peer 0x30 (freshWord s).toNat []]).spend 1

/-- Image bytes that have been sent. -/
def sentBytes (s : State) (m : Migration) : Nat :=
  if m.joined then m.size - total ((s.trans.waiting.filter (fun q => q.cid == some m.cid)).map (fun q => msgLen q.message)) else 0

/-- A SESSION_MIGRATE ends. -/
def State.endMigrate (m : Migration) (status : Status) (source target : Nat) (s : State) : State :=
  (s.endCmd m.cid { status, source, result := resultOf [(0x14, 8, sentBytes s m), (0x1C, 1, target)], writes := [] }).dropRequests m.cid

/-- A source that has not sent COMMIT goes back to its prior state (R250). -/
def State.undoMigrate (m : Migration) (status : Status) (source target : Nat) (s : State) : State :=
  let t : State := match m.session with
    | some i => s.modSession i (fun (x : Session) => if x.state = .migrating then { x with state := x.prior } else x)
    | none => s
  (t.endMigrate m status source target).dropMig m.cid

/-- The transfer fails before COMMIT: LINK_LOST of a link, or what the answer to a request says (R250, R449). -/
def State.failMigration (cid : Nat) (status : Status) (source : Nat) (s : State) : State :=
  match migOf s cid true with
  | some m => if m.joined && !m.ready then s.undoMigrate m status source 0 else s
  | none => s

/-- The two commands have joined: the session enters MIGRATING and its image is sent (Table 8-9 step 1), once its blocks can be read; a block that
reads as poisoned ends the command (R257, R264, R268). -/
def State.sendImage (m : Migration) (x : Session) (s0 : State) : State :=
  if blocksWait s0 x.index then s0
  else
    let s := s0.caskWork m.cid
    match blocksSource s x.index with
    | some src => (s.reportAccess src (blockPieces s x.index) [m.cid]).undoMigrate m .resultSuspect src 0
    | none =>
      let img := sessionImage s x
      let t := ((s.touch false (blockPieces s x.index)).modSession x.index (fun y => { y with state := .migrating, prior := y.state })).modMig m.cid (fun q => { q with joined := true, size := img.length })
      (t.request ((messageData img).map (requestTo t (some m.cid) none m.peer 0x21 (freshWord s).toNat))).spend 1

/-- SESSION_MIGRATE: given once it is accepted and waits; given again it stands for the join, which the manual lays out no message for. A target that
is this module is turned away at acceptance (R249, R321, log 34). -/
def execSessionMigrate (cid : Nat) (s : State) : Host.Outcome State Fault Refusal :=
  .next (match migOf s cid true with
    | some m =>
      if m.joined || !reachable s m.peer then s
      else match m.session.bind (sessionAt s) with
        | some x => s.sendImage m x
        | none => s
    | none => s.sessionCommand cid 0x26 (fun c t => decide (c.arg 0x10 2 ≠ ownId t)) (fun st => st == .open || st == .stepping) (fun c x t =>
        { t with migs := t.migs ++ [{ cid, isSource := true, session := some x.index, model := x.model, modelGen := (modelAt t x.model).gen, peer := c.arg 0x10 2,
                                      tag := BitVec.ofNat 64 (c.arg 0x18 8), joined := false, ready := false, size := 0 }] }))

/-- SESSION_RESTORE with source REMOTE: given once it is accepted and waits; given again it stands for the join (R249, R321, log 34). -/
def execSessionRestoreRemote (cid : Nat) (s : State) : Host.Outcome State Fault Refusal :=
  .next (match migOf s cid false with
    | some _ => s.modMig cid (fun m => { m with joined := true })
    | none =>
      match cmdAt s cid with
      | none => s
      | some c =>
        if c.arg 0x10 1 ≠ 2 then s
        else s.command cid 0x25 (fun c t => match modelHandle t (c.arg 8 8) with
          | none => t.failCmd cid .badDescriptor 0
          | some k => { t with migs := t.migs ++ [{ cid, isSource := false, session := none, model := k, modelGen := (modelAt t k).gen, peer := c.arg 0x12 2,
                                                    tag := BitVec.ofNat 64 (c.arg 0x30 8), joined := false, ready := false, size := 0 }] }))

/-- A target's copy goes, its leases with it, and its restore ends (R250). -/
def State.discardTarget (m : Migration) (status : Status) (err : Nat) (s : State) : State :=
  let t : State := match m.session with | some i => (s.dropSession i).releaseOrphans | none => s
  (t.finishCmd m.cid status (restoreFields none err)).dropMig m.cid

/-- MIGRATION_JOIN_TIMEOUT: no join within the join timeout (R249). -/
def execMigrationJoinTimeout (cid : Nat) (s : State) : Host.Outcome State Fault Refusal :=
  .next (match migOf s cid true, migOf s cid false with
    | some m, _ => if m.joined then s else s.undoMigrate m .peerAbsent 0 0
    | none, some m => if m.joined || m.ready then s else s.discardTarget m .peerAbsent 0xFFFFFFFF
    | none, none => s)

/-- MIGRATION_IMAGE_RECEIVED: the target checks the image, makes the session in MIGRATING and replies READY, or refuses, as it does once its model is unloaded (Table 8-9 step 2, R223). -/
def execMigrationImageReceived (cid : Nat) (image : List Byte) (s0 : State) : Host.Outcome State Fault Refusal :=
  .next (match migOf s0 cid false with
    | none => s0
    | some m =>
      let s := (s0.caskWork cid).setShare
      if m.ready then s0
      else if (modelAt s m.model).gen ≠ m.modelGen then (s.sendCtrl m.peer).discardTarget m .badDescriptor 0x10
      else match restoreImage s m.model image .migrating with
        | .ok (t, x) => if memWaits s (blockPieces t x.index) then s0 else (t.modMig cid (fun q => { q with joined := true, ready := true, session := some x.index })).sendCtrl m.peer
        | .error (st, o) => (s.sendCtrl m.peer).discardTarget m st o)

/-- The target is READY: the source session is IN_DOUBT and COMMIT is sent (Table 8-9 step 3). -/
def State.migrateReady (cid : Nat) (s : State) : State :=
  match migOf s cid true with
  | none => s
  | some m =>
    if !m.joined || m.ready then s
    else match m.session with
      | some i => ((s.modSession i (fun x => { x with state := .inDoubt })).modMig cid (fun q => { q with ready := true })).sendCtrl m.peer
      | none => s

/-- MIGRATION_READY. -/
def execMigrationReady (cid : Nat) (s : State) : Host.Outcome State Fault Refusal := .next (s.migrateReady cid)

/-- A status with which a target can refuse: one that SESSION_RESTORE can end with after its acceptance (Table 11-15). -/
def refusalStatus (st : Status) : Bool :=
  [Status.busy, .retryLater, .badDescriptor, .noResource, .linkLost, .peerAbsent, .resultSuspect, .internal].contains st

/-- The target refuses: the source session returns to its prior state and the command ends with the target's status (R250, R351). -/
def State.migrateRefused (cid status : Nat) (s : State) : State :=
  match migOf s cid true, Status.ofCode status with
  | some m, some st => if m.joined && !m.ready && refusalStatus st then s.undoMigrate m st 0 status else s
  | _, _ => s

/-- MIGRATION_REFUSAL. -/
def execMigrationRefusal (cid : Nat) (status : Byte) (s : State) : Host.Outcome State Fault Refusal := .next (s.migrateRefused cid status.toNat)

/-- COMMIT at the target: its session is OPEN, DONE is sent, and the restore ends with OK (Table 8-9 step 4). -/
def State.migrateCommit (cid : Nat) (s : State) : State :=
  match migOf s cid false with
  | none => s
  | some m =>
    match m.ready, m.session.bind (sessionAt s) with
    | true, some x =>
      (((s.modSession x.index (fun y => { y with state := .open })).sendCtrl m.peer).finishCmd cid .ok (restoreFields (some x) 0xFFFFFFFF)).dropMig cid
    | _, _ => s

/-- MIGRATION_COMMIT. -/
def execMigrationCommit (cid : Nat) (s : State) : Host.Outcome State Fault Refusal := .next (s.migrateCommit cid)

/-- DONE at the source: its session is freed and the command ends with OK (Table 8-9 step 5). -/
def State.migrateDone (cid : Nat) (s : State) : State :=
  match migOf s cid true with
  | none => s
  | some m =>
    match m.ready && isLive s cid, m.session.bind (sessionAt s) with
    | true, some x => (s.endMigrate m .ok 0 0).freeSession x
    | _, _ => s

/-- MIGRATION_DONE. -/
def execMigrationDone (cid : Nat) (s : State) : Host.Outcome State Fault Refusal := .next (s.migrateDone cid)

/-- The migration that a message of a module belongs to: its operand is not laid out, so which of those with the module is free (log 20). -/
def migFor (s : State) (peer operand : Nat) (source : Bool) : Option Nat :=
  let l := s.migs.filter (fun m => m.isSource == source && m.peer == peer)
  (l[Config.migrationOf operand % l.length]?).map (·.cid)

/-- A MIGRATE_CTRL message: READY, a refusal with its status, COMMIT or DONE; which of them its operand says is not laid out (Table 15-8, log 20). -/
def State.migrateCtrl (peer operand : Nat) (s : State) : State :=
  let q := Config.ctrlMeaning operand
  match q % 4 with
  | 0 => ((migFor s peer operand true).map (s.migrateReady ·)).getD s
  | 1 => ((migFor s peer operand true).map (s.migrateRefused · (q / 4 % 256))).getD s
  | 2 => ((migFor s peer operand false).map (s.migrateCommit ·)).getD s
  | _ => ((migFor s peer operand true).map (s.migrateDone ·)).getD s

/-- An IMAGE message: its migration has been joined; the image is checked once it is whole, as the operand of MIGRATION_IMAGE_RECEIVED (Table 8-9,
log 20). -/
def State.imageCame (peer operand : Nat) (s : State) : State :=
  match migFor s peer operand false with
  | some c => s.modMig c (fun m => { m with joined := true })
  | none => s

/-- MIGRATION_DONE_TIMEOUT: no DONE within 2 ms: LINK_LOST, and the session stays IN_DOUBT (R250). -/
def execMigrationDoneTimeout (cid : Nat) (s : State) : Host.Outcome State Fault Refusal :=
  .next (match migOf s cid true with
    | none => s
    | some m => if m.ready && isLive s cid then s.endMigrate m .linkLost 0 0 else s)

/-- MIGRATION_COMMIT_RESEND: a route to the target has appeared while the session is IN_DOUBT (R250). -/
def execMigrationCommitResend (session : Nat) (s : State) : Host.Outcome State Fault Refusal :=
  .next (match s.migs.find? (fun m => m.isSource && m.session == some session && m.ready) with
    | none => s
    | some m => if !isLive s m.cid && reachable s m.peer then s.sendCtrl m.peer else s)

/-- MIGRATION_TARGET_TIMEOUT: a target that was joined and has no COMMIT at the end of its join timeout discards its copy (R250). -/
def execMigrationTargetTimeout (cid : Nat) (s : State) : Host.Outcome State Fault Refusal :=
  .next (match migOf s cid false with
    | none => s
    | some m => if m.joined then s.discardTarget m .linkLost 0xFFFFFFFF else s)

end Sys2Proof.Machine
end

