-- ==== Sys2Proof/Machine/Transactions.lean ====
section
/-! DEFINITION. Transactions between modules: requests executed here, responses, completion caches, timeouts, leases (R448–R454, R214). -/
namespace Sys2Proof.Machine

/-! ## Messages that arrive (R448, R451, R452) -/

/-- A message taken from those an engine has received, or from those that have come over the mesh to its unit, where it is among them. -/
def State.takeDelivered (e : Nat) (m : List Byte) (s : State) : State :=
  let s1 := s.modLink (.optical (Fin.ofNat 24 e)) (fun l =>
    { l with delivered := l.delivered.takeWhile (fun p => p.2 != m) ++ (l.delivered.dropWhile (fun p => p.2 != m)).drop 1 })
  { s1 with trans := { s1.trans with arrived := s1.trans.arrived.erase (field 8 1 m, m),
                                     flights := s1.trans.flights.filter (fun f => !(f.message == m && f.src == .engine e)) } }

/-- The engine on which a message has arrived: it has it still, or it has sent it on over the mesh. -/
def arrivedOn (s : State) (m : List Byte) : Option Nat :=
  ((List.range 24).find? (fun e => (engineAt s e).link.delivered.any (fun p => p.2 == m))).orElse (fun _ =>
    s.trans.flights.findSome? (fun f => match f.src with | .engine e => if f.message == m then some e else none | _ => none))

/-- Whether a message has come on a virtual channel that is not its operation's (R451, Table 15-8). -/
def wrongVc (s : State) (e : Nat) (m : List Byte) : Bool :=
  (engineAt s e).link.delivered.any (fun p => p.2 == m && p.1 != msgVc (msgOp m))

/-- A transit message goes on with one hop less, or is dropped with none left (R452). -/
def State.transit (e : Nat) (m : List Byte) (s : State) : State :=
  if msgHops m = 0 then s.raise (srcId 2 e 0x11) (msgDst m)
  else s.sendFrom (.engine e) (overlay 5 [BitVec.ofNat 8 (msgHops m - 1)] m)

/-! ## Completion caches (R450) -/

/-- The cache entry of a request. -/
def cacheAt (s : State) (unit source slot : Nat) : Option CacheEntry :=
  s.trans.cache.find? (fun c => c.unit == unit && c.source == source && c.slot == slot)

/-- The source modules that hold entries with a unit. -/
def cacheSources (s : State) (unit : Nat) : List Nat := ((s.trans.cache.filter (fun c => c.unit == unit)).map (·.source)).eraseDups

/-- An entry written. -/
def State.cachePut (c : CacheEntry) (s : State) : State :=
  { s with trans := { s.trans with cache := c :: without (fun x => x.unit == c.unit && x.source == c.source && x.slot == c.slot) s.trans.cache } }

/-- CACHE_ENTRY_EXPIRY: an entry goes 100 µs after it was written (R450). -/
def execCacheEntryExpiry (unit source slot : Nat) (s : State) : Host.Outcome State Fault Refusal :=
  .next { s with trans := { s.trans with cache := without (fun c => c.unit == unit && c.source == source && c.slot == slot) s.trans.cache } }

/-! ## Leases (R214, R454) -/

/-- Every lease of a module is released. -/
def State.releaseLeases (source : Nat) (s : State) : State :=
  { s with trans := { s.trans with leases := without (fun l => l.owner == source) s.trans.leases } }

/-- A keepalive: another operand than the leases were taken under shows a reset, and releases them (R454). -/
def State.keepalive (source : Nat) (operand : DWord) (s : State) : State :=
  let other := s.trans.leases.any (fun l => l.owner == source && l.operand.isSome && l.operand != some operand)
  let s1 := if other then s.releaseLeases source else s
  { s1 with trans := { s1.trans with keepalives := setKey source operand s1.trans.keepalives,
                                     leases := s1.trans.leases.map (fun l => if l.owner = source then { l with operand := some operand } else l) } }

/-- LEASE_KEEPALIVE (R454). -/
def execLeaseKeepalive (source : Nat) (operand : DWord) (s : State) : Host.Outcome State Fault Refusal := .next (s.keepalive source operand)

/-- LEASE_EXPIRY: no keepalive for 10 s (R454). -/
def execLeaseExpiry (source : Nat) (s : State) : Host.Outcome State Fault Refusal :=
  .next { (s.releaseLeases source) with trans := { (s.releaseLeases source).trans with keepalives := without (fun p => p.1 == source) s.trans.keepalives } }

/-- Whether this module holds remote leases. -/
def holdsLeases (s : State) : Bool :=
  !s.cel.heldLeases.isEmpty || s.cel.blocks.any (fun b => b.place.isRemote) || s.cel.moves.any (fun m => m.dest.isRemote)

/-- The operand of a keepalive: operating time at the last reset, power-cycle count (R454). -/
def keepaliveOperand (s : State) : Nat := s.ret.opTimeAtReset % 2 ^ 32 + 2 ^ 32 * (s.ret.cycles % 2 ^ 24)

/-- LEASE_KEEPALIVE_SEND: a module that holds remote leases sends a keepalive to each cask peer, every second (R454). -/
def execLeaseKeepaliveSend (s : State) : Host.Outcome State Fault Refusal :=
  if holdsLeases s then
    .next ((caskPeers s).foldl (fun t p => t.request [requestTo t none none p 0x11 (keepaliveOperand t) []]) s)
  else .next s

/-- A LEASE request: taken with 64 KiB of the local pool, extended, or released; refused beyond capacity. What its operand asks is not laid out (R214,
log 20). -/
def State.leaseFor (source operand : Nat) (s : State) : State × Nat :=
  let q := Config.leaseMeaning operand
  let own := s.trans.leases.filter (fun l => l.owner == source)
  match q % 3 with
  | 0 => match poolPlace s with
    | some e => ({ s with trans := { s.trans with leases := s.trans.leases ++ [{ owner := source, operand := lookupKey source s.trans.keepalives, extent := e }] } }, 0)
    | none => (s, 5)
  | 1 => (s, if own.isEmpty then 5 else 0)
  | _ => match own[q / 3 % own.length]? with
    | some l => ({ s with trans := { s.trans with leases := s.trans.leases.erase l } }, 0)
    | none => (s, 5)

/-! ## Requests executed here (R448–R450) -/

/-- A notice or data of a collective has come: the module has joined under the triple that the operand spells (R140); the data itself is an operand
of the collective's row (log 20). -/
def State.joinCame (source operand : Nat) (s : State) : State :=
  { s with trans := { s.trans with joins := addOnce (source, operand) s.trans.joins } }

/-- Bytes of leases of a module's blocks among those that a READ names (Table 7-3). -/
def leasedBytes (s : State) (source a n : Nat) : Nat :=
  total ((s.trans.leases.filter (fun l => l.owner == source)).map (fun l => Nat.min (a + n) (l.extent.base + 65536) - Nat.max a l.extent.base))

/-- Key/value bytes that remote modules read count in kv_read_rate (Table 7-3). -/
def State.servedRead (source a n : Nat) (s : State) : State :=
  { s with cel := { s.cel with kvRead := s.cel.kvRead + leasedBytes s source a n } }

/-- The unit that serves a request: a tile, none for the hub (Table 15-7). -/
def requestUnit (m : List Byte) : Option Nat := if field 8 1 m = 0x80 then none else some (field 8 1 m % 64)

/-- What a request brings about at its unit: the state, the response code, the response's operand and data (Table 15-8). -/
def State.runRequest (m : List Byte) (s : State) : State × Nat × Nat × List Byte :=
  let a := msgOperand m % 2 ^ 48
  let by_ := requestUnit m
  match msgOp m with
  | 0x01 =>
    let n := msgOperand m / 2 ^ 48
    let e : List Extent := [⟨a, n⟩]
    if 4096 < n then (s, 5, 0, [])
    else if n = 0 then (s, 0, 0, [])
    else match accessSource s by_ true e with
      | none => ((s.touch false e).servedRead (msgSrc m) a n, 0, 0, readPieces s.mem.cells e)
      | some src =>
        if src = unmappedSource by_ then (s.reportAccess src e [], 5, 0, [])
        else (s.reportAccess src e [], 4, 0, readPieces s.mem.cells e)
  | 0x02 =>
    let e : List Extent := [⟨a, m.length - 24⟩]
    if m.length = 24 then (s, 0, 0, [])
    else if (accessSource s by_ false e).isSome then (s.reportAccess (unmappedSource by_) e [], 5, 0, [])
    else (s.writeMem e (m.drop 24), 0, 0, [])
  | 0x10 =>
    let r := s.leaseFor (msgSrc m) (msgOperand m)
    (r.1.spend 1, r.2, (freshWord s).toNat, [])
  | 0x11 => (s.keepalive (msgSrc m) (BitVec.ofNat 64 (msgOperand m)), 0, 0, [])
  | 0x20 => (s.joinCame (msgSrc m) (msgOperand m), 0, 0, [])
  | 0x21 => (s.imageCame (msgSrc m) (msgOperand m), 0, 0, [])
  | 0x30 => (s.migrateCtrl (msgSrc m) (msgOperand m), 0, 0, [])
  | 0x40 => (s.joinCame (msgSrc m) (msgOperand m), 0, 0, [])
  | _ => (s, 0, 0, [])

/-- The response to a request. -/
def State.respond (m : List Byte) (code operand : Nat) (data : List Byte) (s : State) : State :=
  if !answered (msgOp m) then s
  else s.sendMsg (makeMsg (msgSrc m) (ownId s) (msgOp m + 128) (match s.settings with | some x => x.hopLimit | none => 4) (msgTag m) (field 9 1 m) (field 8 1 m)
    0 code operand data)

/-- Whether a destination unit is there (Table 15-9). -/
def unitHere (s : State) (u : Nat) : Bool := u == 0x80 || ((tileAt s u).state != .isolated && (tileAt s u).state != .notReported)

/-- A request for this module: duplicate, stale, turned away for want of a cache set, or executed (R450). -/
def State.takeRequest (m : List Byte) (s : State) : State :=
  let unit := field 8 1 m
  let slot := msgTag m % 4096
  let gen := msgTag m / 4096
  if !unitHere s unit then s.respond m 3 0 []
  else
    let run (t : State) : State :=
      let (t1, code, operand, data) := t.runRequest m
      (t1.cachePut { unit, source := msgSrc m, slot, gen, code }).respond m code operand data
    match cacheAt s unit (msgSrc m) slot with
    | some c =>
      if c.gen = gen then
        if msgOp m = 0x01 then run s else s.respond m 1 c.code []
      else if (c.gen + 16 - gen) % 16 ≤ 7 then s
      else run s
    | none =>
      if 16 ≤ (cacheSources s unit).length ∧ (cacheSources s unit).contains (msgSrc m) = false then s.respond m 2 0 []
      else run s

/-- The local or CXL bytes that a READ or WRITE request names. -/
def requestPieces (m : List Byte) : List Extent :=
  match msgOp m with
  | 0x01 => [⟨msgOperand m % 2 ^ 48, msgOperand m / 2 ^ 48⟩]
  | 0x02 => [⟨msgOperand m % 2 ^ 48, m.length - 24⟩]
  | _ => []

/-- TRANSACTION_REQUEST: a message that an UP link has brought: PROTOCOL, transit, or a request executed at most once (R450–R452). -/
def execTransactionRequest (e : EngineId) (message : List Byte) (s0 : State) : Host.Outcome State Fault Refusal :=
  let s := s0.takeDelivered e message
  if (engineAt s e).state ≠ .up then .next s0
  else if !messageOk message || wrongVc s0 e message then .next (s.protocol (.optical e))
  else if ownId s = 0xFFFF then .next s
  else if msgDst message ≠ ownId s then .next (s.transit e message)
  else if bit 7 (msgOp message) || memWaitsBy s (requestUnit message) (requestPieces message) then .next s0
  else .next (s.takeRequest message)

/-! ## Responses and the ends of requests (R449) -/

/-- The request under a tag slot. -/
def requestAt (s : State) (slot : Nat) : Option Request := s.trans.requests.find? (fun q => q.slot == slot)

/-- A change of the request under a tag slot. -/
def State.modRequest (slot : Nat) (f : Request → Request) (s : State) : State :=
  { s with trans := { s.trans with requests := s.trans.requests.map (fun q => if q.slot = slot then f q else q) } }

/-- A request leaves its slot; requests that wait take free slots. -/
def State.endRequest (slot : Nat) (s : State) : State :=
  ({ s with trans := { s.trans with requests := without (fun q => q.slot == slot) s.trans.requests } } : State).request []

/-- The move that a request without a command serves is abandoned, its source kept and the lease of its destination given back (R213). -/
def State.abandonMove (block : Nat) (s : State) : State :=
  State.tidyLeases block
    { s with cel := { s.cel with moves := without (fun m => m.block == block && !m.switched) s.cel.moves },
             trans := s.trans.disown (fun q => q.cid.isNone && q.block == some block) }

/-- A request that serves a block and no command has failed: a block that lies at the peer is lost with the session's other blocks there, when
the failed request read it and got no data, or was to bring it there; any other move is given up (R213, R214; log 66). -/
def State.blockRequestFails (q : Request) (block : Nat) (status : Status) (source : Nat) (s : State) : State :=
  let t := s.abandonMove block
  match s.cel.blocks.find? (fun b => b.id == block) with
  | some b =>
    if b.place = .remote (msgDst q.message) ∧ (status ≠ .resultSuspect ∨ msgOp q.message ≠ 0x01) then t.peerLost b.session (msgDst q.message) status source
    else t
  | none => t

/-- A request has failed: its owner ends with the status; a read of a remote block loses that peer's blocks of the session; a migration goes back
(R214, R233, R250, R449). -/
def State.requestFails (q : Request) (status : Status) (source : Nat) (s : State) : State :=
  match q.cid, q.block with
  | none, none => s
  | none, some b => s.blockRequestFails q b status source
  | some c, b =>
    if (migOf s c true).isSome then s.failMigration c status source
    else
      let s1 := match b, (runOf s c).bind (·.session) with
        | some k, some i =>
          if status = Status.resultSuspect then (s.blame c (readsBlock s (fun x => x.id == k)) status source).failWork c status source
          else s.peerLost i (msgDst q.message) status source
        | _, _ => (match q.op with | some i => s.modRun c (Run.fail i status source) | none => s).failWork c status source
      s1.dropRequests c

/-- The 65,536 bytes of a block as its move writes them. -/
def blockData (b : KvBlock) : List Byte := padTo 65536 b.data

/-- Whether a block is to lie at a peer: it moves there, or was restored there. -/
def goesTo (s : State) (block peer : Nat) : Bool :=
  s.cel.moves.any (fun m => m.block == block && !m.switched && m.dest == .remote peer)
  || s.cel.blocks.any (fun b => b.id == block && b.place == .remote peer)

/-- Where a block that is to go out lies in this module's memory: nowhere when it is restored there. -/
def outPieces (s : State) (block : Nat) : List Extent :=
  ((s.cel.blocks.filter (fun b => b.id == block && !b.place.isRemote)).map (·.extent))

/-- A block goes to a peer: its sixteen WRITE messages; where they go is not laid out (R213, R448, log 20). A block that reads as poisoned stays
(R257). -/
def State.sendBlock (block peer : Nat) (s : State) : State :=
  match s.cel.blocks.find? (fun b => b.id == block), goesTo s block peer with
  | some b, true =>
    match accessSource s none true (outPieces s block) with
    | some src => (s.reportAccess src (outPieces s block) []).abandonMove block
    | none =>
      ((s.touch false (outPieces s block)).request ((List.range 16).map (fun k =>
        requestTo s none (some block) peer 0x02 ((Config.freeWord (s.free + k)).toNat % 2 ^ 48) (((blockData b).drop (4096 * k)).take 4096)))).spend 16
  | _, _ => s

/-- A lease has been granted for a block: it is held for the block's session, which sends the block; for a block that needs it no longer it is given back
at once (R213, R214, R231). -/
def State.granted (block peer : Nat) (s : State) : State :=
  let owner := (s.cel.blocks.find? (fun b => b.id == block)).map (·.session)
  let t : State := { s with cel := { s.cel with heldLeases := s.cel.heldLeases ++ [⟨owner, peer, block⟩] } }
  (t.sendBlock block peer).tidyLeases block

/-- A request has been executed: what waits on it goes on. -/
def State.requestDone (q : Request) (s : State) : State :=
  match q.cid, q.block with
  | some c, _ => s.settleRun c
  | none, some b => if msgOp q.message = 0x10 then s.granted b (msgDst q.message) else s
  | none, none => s

/-- A response acts on its request: a code that DUPLICATE carries acts as it would have (R449, Table 15-9). -/
def State.takeResponse (m : List Byte) (s : State) : State :=
  let slot := msgTag m % 4096
  match requestAt s slot with
  | none => s
  | some q =>
    if q.gen ≠ msgTag m / 4096 then s
    else
      match (if msgResp m = 1 then msgOperand m % 256 else msgResp m) with
      | 2 => s.modRequest slot (fun q => { q with busy := true })
      | 3 => (s.endRequest slot).requestFails q .peerAbsent 0
      | 4 => ((s.endRequest slot).requestFails q .resultSuspect ((freshWord s).toNat % 65536)).spend 1
      | 5 => (s.endRequest slot).requestFails q .linkLost 0
      | _ => (s.endRequest slot).requestDone q

/-- Whether a response waits: the block whose lease it grants lies in memory that waits (R264, R268). -/
def answerWaits (s : State) (m : List Byte) : Bool :=
  match requestAt s (msgTag m % 4096) with
  | some q => msgOp q.message == 0x10 && (match q.block with | some b => memWaits s (outPieces s b) | none => false)
  | none => false

/-- TRANSACTION_RESPONSE: a response that has arrived: PROTOCOL on the link that brought it, transit, or for an outstanding request of its slot and generation; any other is dropped (R449,
R451, R452). -/
def execTransactionResponse (message : List Byte) (s0 : State) : Host.Outcome State Fault Refusal :=
  let at_ := arrivedOn s0 message
  let e := at_.getD 0
  let s := match at_ with | some e => s0.takeDelivered e message | none => s0
  if !messageOk message || (at_.isSome && wrongVc s0 e message) then
    .next (if at_.isSome then s.protocol (.optical (Fin.ofNat 24 e)) else s)
  else if ownId s = 0xFFFF then .next s
  else if msgDst message ≠ ownId s then .next (s.transit e message)
  else if bit 7 (msgOp message) && !answerWaits s message then .next (s.takeResponse message)
  else .next s0

/-- REQUEST_TIMEOUT: no response within 2 ms of the first transmission: the request ends with LINK_LOST for its owner (R140, R214, R449). -/
def execRequestTimeout (slot : Nat) (s : State) : Host.Outcome State Fault Refusal :=
  match requestAt s slot with
  | none => .next s
  | some q => .next ((s.endRequest slot).requestFails q .linkLost 0)

/-- REQUEST_RETRY: 10 µs after UNIT_BUSY the request is sent again with the same tag (R449). -/
def execRequestRetry (slot : Nat) (s : State) : Host.Outcome State Fault Refusal :=
  match requestAt s slot with
  | none => .next s
  | some q => .next (if q.busy then (s.modRequest slot (fun q => { q with busy := false })).sendMsg q.message else s)

end Sys2Proof.Machine
end

