-- ==== Sys2Proof/Machine/Thermal.lean ====
section
/-! DEFINITION. Sensors, ceilings, issue rates, power capping, trips and shutdown, ageing and optical points (Chapter 16; R564). -/
namespace Sys2Proof.Machine

/-! ## Sensors (R457–R461) -/

/-- Samples kept of a sensor: the sliding window of 100 ms (R458). -/
def samplesKept : Nat := 10000

/-- Twice the median of some readings, so that the mean of the two middle ones stays whole. -/
def median2 (l : List Int) : Option Int :=
  let m := sortBy (fun a b => decide (a < b)) l
  match m[(m.length - 1) / 2]?, m[m.length / 2]? with
  | some a, some b => some (a + b)
  | _, _ => none

/-- Readings of a sensor's neighbours k samples ago: the other valid sensors of its die (R458). -/
def neighbours (hist : List (List Int)) (broken : List Bool) (i k : Nat) : List Int :=
  ((List.range hist.length).filter (fun j => j != i && !broken.getD j false)).filterMap (fun j => (hist.getD j [])[k]?)

/-- Difference of the largest and the smallest of some values. -/
def spread (l : List Int) : Int := (l.foldl max (l.headD 0)) - (l.foldl min (l.headD 0))

/-- The stuck rule over the window; one count is taken as the resolution of 0.25 K (R458). -/
def stuck (hist : List (List Int)) (broken : List Bool) (i : Nat) : Bool :=
  let mine := hist.getD i []
  decide (samplesKept ≤ mine.length) && decide (spread mine ≤ 2)
  && decide (16 < spread ((List.range samplesKept).filterMap (fun k => median2 (neighbours hist broken i k))))

/-- Sensors of a die after a sample: histories, runs of range and median failures, and the sensors judged broken (R458). -/
def judge (readings : List Int) (hist : List (List Int)) (range median : List Nat) (broken : List Bool) :
    List (List Int) × List Nat × List Nat × List Nat :=
  let h := ((List.range readings.length).zip readings).map (fun p => (p.2 :: hist.getD p.1 []).take samplesKept)
  let r := ((List.range readings.length).zip readings).map (fun p => if p.2 < -160 ∨ 600 < p.2 then Nat.min (range.getD p.1 0 + 1) 4 else 0)
  let m := ((List.range readings.length).zip readings).map (fun p =>
    match median2 (neighbours h broken p.1 0) with
    | some v => if 96 < (2 * p.2 - v).natAbs then Nat.min (median.getD p.1 0 + 1) 4 else 0
    | none => 0)
  let bad := (List.range readings.length).filter (fun i => 4 ≤ r.getD i 0 || 4 ≤ m.getD i 0 || stuck h broken i)
  (h, r, m, bad)

/-- A sensor's source ID (Table 16-5). -/
def sensorSource : SensorRef → Nat
  | .tile n k => srcId 6 n k
  | .hub k => srcId 6 0 (0x10 + k)
  | .engine e k => srcId 6 e (0x20 + k)

/-- Whether a sensor is judged broken, or absent with its ISOLATED site (R68). -/
def sensorBroken (s : State) : SensorRef → Bool
  | .tile n k => (tileAt s n).state == .isolated || (treatedBroken (tileAt s n).thermal.broken).getD k false
  | .hub k => s.th.hubBroken.getD k false
  | .engine e k => (engineAt s e).sensorBroken.getD k false

/-- A sensor's mark. -/
def State.markSensor (x : SensorRef) (broken : Bool) (s : State) : State :=
  match x with
  | .tile n k => s.modTile n (fun t => { t with thermal := { t.thermal with broken := setAt t.thermal.broken k broken } })
  | .hub k => { s with th := { s.th with hubBroken := setAt s.th.hubBroken k broken } }
  | .engine e k => s.modEngine e (fun x => { x with sensorBroken := setAt x.sensorBroken k broken })

/-- A sensor is judged broken: its event, and what its die does (R459, R460). -/
def State.sensorFails (x : SensorRef) (s : State) : State :=
  let src := sensorSource x
  let s1 := (s.markSensor x true).raiseFor src 0 (.sensor x)
  match x with
  | .tile n _ =>
    let s2 := s1.raiseOnce 2 6 n
    if (tileAt s n).state = .compute ∧ (healthySpares s).isEmpty = false then s2.retireTile n true else s2
  | .hub _ => if (s1.th.hubBroken.filter (fun b => !b)).length < 4 then s1.raise (srcId 0 0 8) 0 else s1
  | .engine e _ => if engineBlind (engineAt s1 e) then s1.engineOut e true else s1

/-- A sensor of a die. -/
def sensorOf : DieRef → Nat → SensorRef
  | .tile n, k => .tile n (Fin.ofNat 8 k)
  | .hub, k => .hub (Fin.ofNat 8 k)
  | .engine e, k => .engine e (Fin.ofNat 4 k)

/-- SENSOR_SAMPLE: one window of a die's sensors, in 0.25 K (R457, R458). -/
def execSensorSample (die : DieRef) (readings : List Int) (s : State) : Host.Outcome State Fault Refusal :=
  let n := match die with | .engine _ => 4 | _ => 8
  if readings.length ≠ n then .next s
  else
    match die with
    | .tile site =>
      if (tileAt s site).state = .isolated then .next s else
      let t := (tileAt s site).thermal
      let (h, r, m, bad) := judge readings t.history t.rangeCount t.medianCount t.broken
      let s1 := s.modTile site (fun x => { x with thermal := { x.thermal with history := h, rangeCount := r, medianCount := m } })
      .next ((bad.filter (fun k => !t.broken.getD k false)).foldl (fun u k => u.sensorFails (sensorOf die k)) s1)
    | .hub =>
      let (h, r, m, bad) := judge readings s.th.hubHistory s.th.hubRange s.th.hubMedian s.th.hubBroken
      let s1 : State := { s with th := { s.th with hubHistory := h, hubRange := r, hubMedian := m } }
      .next ((bad.filter (fun k => !s.th.hubBroken.getD k false)).foldl (fun u k => u.sensorFails (sensorOf die k)) s1)
    | .engine e =>
      let x := engineAt s e
      let (h, r, m, bad) := judge readings x.sensorHistory x.sensorRange x.sensorMedian x.sensorBroken
      let s1 := s.modEngine e (fun x => { x with sensorHistory := h, sensorRange := r, sensorMedian := m })
      .next ((bad.filter (fun k => !x.sensorBroken.getD k false)).foldl (fun u k => u.sensorFails (sensorOf die k)) s1)

/-! ## The thermal ceiling and the issue rate (R463–R465) -/

/-- What a valid sensor enters, in 1/400 K: the larger of its 1 ms average and its newest sample less 2 K. -/
def sensorValue (hist : List Int) : Option Int :=
  match hist with
  | [] => none
  | x :: _ =>
    let l := hist.take 100
    some (max (100 * sumInt l / l.length) (100 * x - 800))

/-- Values of the sensors that enter a tile, less the throttle start, in 1/400 K (R463, Table 16-1). -/
def excesses (s : State) (n : Nat) : List Int :=
  let start : Int := 400 * s.th.throttleStart
  let t := (tileAt s n).thermal
  let own := (List.range 8).filterMap (fun k =>
    if (treatedBroken t.broken).getD k false then some 6400 else (sensorValue (t.history.getD k [])).map (fun v => v - start))
  let valid (hist : List (List Int)) (broken : List Bool) : List Int :=
    (List.range hist.length).filterMap (fun k => if broken.getD k false then none else (sensorValue (hist.getD k [])).map (fun v => v - start))
  let hub := if n % 8 = 0 then valid s.th.hubHistory s.th.hubBroken else []
  own ++ hub ++ (siteEngines n).flatMap (fun e => valid (engineAt s e).sensorHistory (engineAt s e).sensorBroken)
    ++ [400 * ((t.gddrTemp : Int) - 95)]

/-- THERMAL_CEILING_UPDATE: the ceiling of a tile in 1/64; at the floor of a compute tile its event and the thermal cause (R463, R465). -/
def execThermalCeilingUpdate (site : SiteId) (s : State) : Host.Outcome State Fault Refusal :=
  let t := (tileAt s site).thermal
  let l := excesses s site
  let x := l.foldl max (l.headD 0)
  let used := if 100 < (x - t.xUsed).natAbs then x else t.xUsed
  let c := Nat.max (64 - (max used 0 / 100).toNat) 8
  let s1 := s.modTile site (fun q => { q with thermal := { q.thermal with xUsed := used, ceiling := c } })
  if (tileAt s site).state = .compute ∧ c = 8 ∧ t.ceiling ≠ 8 then .next ((s1.raise (srcId 6 site 8) 0).raiseCause 5) else .next s1

/-- ISSUE_RATE_STEP: one microsecond of a compute tile's issue rate: 1/64 toward the lower ceiling (R464). -/
def execIssueRateStep (site : SiteId) (s : State) : Host.Outcome State Fault Refusal :=
  if (tileAt s site).state ≠ .compute then .next s
  else .next (s.modTile site (fun t =>
    let top := Nat.min t.thermal.ceiling s.th.cP
    let a := t.thermal.issueRate
    { t with thermal := { t.thermal with issueRate := if a < top then a + 1 else if top < a then a - 1 else a } }))

/-! ## Power capping (R466, R467) -/

/-- The planning-model sum of R467, in 1/2432 W (38 · 64), which keeps its fractions. -/
def planningUnits (s : State) : Nat :=
  let l := (computeSites s).map (fun n => (tileAt s n).thermal.issueRate)
  let rates := total l
  let cnt := l.length
  -- 64 - k with k the mean rate, over the number of tiles
  let below : Nat := if cnt = 0 then 0 else 64 * cnt - rates
  let fall : Nat := if cnt = 0 then 0 else (92 + 45) * below * 64 / cnt
  let tiles := cnt * 8 * 2432 + 24 * rates * 38
  tiles + (422 + 160 + 56 + 110 + 216 + 40) * 2432 - fall

/-- c_p set; POWER_CAP_ACTIVE when it leaves 64 (Table 16-5). -/
def State.setCeiling (c : Nat) (s : State) : State :=
  let s1 : State := { s with th := { s.th with cP := c } }
  if s.th.cP = 64 ∧ c < 64 then s1.raise (srcId 7 0 0) 0 else s1

/-- POWER_TELEMETRY_SAMPLE: 10 µs of input power; above the cap the fast limit lowers c_p by 1/64 each µs; a reading that fails its checks is replaced
by the planning model (R466, R467). -/
def execPowerTelemetrySample (watts : Nat) (ok : Bool) (s : State) : Host.Outcome State Fault Refusal :=
  let s1 : State := { s with th := { s.th with telemetryFault := !ok } }
  let s2 := if !ok && !s.th.telemetryFault then s1.raise (srcId 7 0 3) 0 else s1
  let p := if ok then 2432 * watts else planningUnits s
  let fast := decide (2432 * capInForce s < p)
  let s3 : State := { s2 with th := { s2.th with fastLimit := fast } }
  let s4 := if fast && !s.th.fastLimit then s3.raise (srcId 7 0 1) 0 else s3
  if fast then .next (s4.setCeiling (Nat.max (s4.th.cP - 10) 8)) else .next s4

/-- One step of the settling loop for a mean power in 1/2432 W and a cap in W (R466): amounts in 0.01/2432 W. -/
def powerStep (p cap cP : Nat) : Nat :=
  let step := 2500 * 2432
  let top := 2432 * (93 * cap + 1250)
  let low := 2432 * 93 * cap
  let c := if top < 100 * p then cP - Nat.min 8 ((100 * p - top + step - 1) / step)
           else if 100 * p + 2432 * 1250 < low then cP + Nat.min 8 ((low - 2432 * 1250 - 100 * p + step - 1) / step)
           else cP
  Nat.min (Nat.max c 8) 64

/-- POWER_LOOP: the end of a 1 ms period (R466). -/
def execPowerLoop (meanWatts : Nat) (s : State) : Host.Outcome State Fault Refusal :=
  let p := if s.th.telemetryFault then planningUnits s else 2432 * meanWatts
  let s1 : State := { s with th := { s.th with inputPower := Nat.min (p / 2432) 65535 } }
  .next (s1.setCeiling (powerStep p (capInForce s) s.th.cP))

/-! ## Trips (R468, R469, R564) -/

/-- A trip: regulators off, the record latched in the retained domain, MOD_TRIP# and with it SMB_ALERT# low (R469 steps 1–3, R578, Table 16-9). -/
def State.trip (kind : TripKind) (source reading : Nat) (s : State) : State :=
  if !s.pins.pwrgd || s.ret.tripped then s
  else
    let t := s.powerLost
    { t with ret := { t.ret with tripKind := kind, tripSource := source, tripReading := reading % 256,
                                 tripTimes := s.ret.opTime :: s.ret.tripTimes.filter (fun x => decide (s.ret.opTime < x + 86400)),
                                 tripped := true, tripPending := true, coolSince := none },
             pins := { t.pins with tripOut := true, alertOut := true } }

/-- Whether the module is of CLASS_S (R42, R43); not while no class is in force (log 37). -/
def classS (s : State) : Bool := powerClass s == 2

/-- OVERCURRENT_TRIP (R468). -/
def execOvercurrentTrip (s : State) : Host.Outcome State Fault Refusal := .next (s.trip .overcurrent 0x7002 (hottestC s))

/-- THERMAL_TRIP: in CLASS_L a valid sensor at 110 °C or above (R461, R469). -/
def execThermalTrip (sensor : SensorRef) (reading : Nat) (s : State) : Host.Outcome State Fault Refusal :=
  if classS s || sensorBroken s sensor || decide (reading < 110) then .next s
  else .next (s.trip .thermal (sensorSource sensor) reading)

/-- BACKSTOP_TRIP: in CLASS_S a valid sensor at 120 °C or above; no restart but the next cold reset (R461, R470). -/
def execBackstopTrip (sensor : SensorRef) (reading : Nat) (s : State) : Host.Outcome State Fault Refusal :=
  if !classS s || sensorBroken s sensor || decide (reading < 120) then .next s
  else .next (s.trip .backstop (sensorSource sensor) reading)

/-- TRIP_SENSOR_POLL: while tripped, every 100 ms: how many polls in a row have been below 70 °C, in 0.25 K (R469 steps 4–5). -/
def execTripSensorPoll (hottest : Int) (s : State) : Host.Outcome State Fault Refusal :=
  if !s.ret.tripped || !s.pins.refclk then .next s
  else .next { s with ret := { s.ret with coolSince := if hottest < 280 then some ((s.ret.coolSince.getD 0) + 1) else none } }

/-- TRIP_RESTART: after 60 s below 70 °C the module restarts as after a cold reset; a backstop trip waits for the cold reset (R469, R470). -/
def execTripRestart (katOk idA idB : Bool) (s : State) : Host.Outcome State Fault Refusal :=
  if s.ret.tripped && (s.ret.tripKind == .thermal || s.ret.tripKind == .overcurrent) && decide (600 ≤ s.ret.coolSince.getD 0) && s.pins.pwrgd then
    .next (s.coldStart katOk idA idB)
  else .next s

/-- The samples of a sensor, newest first, in 0.25 K. -/
def sensorSamples (s : State) : SensorRef → List Int
  | .tile n k => (tileAt s n).thermal.history.getD k []
  | .hub k => s.th.hubHistory.getD k []
  | .engine e k => (engineAt s e).sensorHistory.getD k []

/-- Whether a sensor has read 110 °C or above on its two newest samples (R470). -/
def twiceHot (s : State) (x : SensorRef) : Bool :=
  match sensorSamples s x with
  | a :: b :: _ => decide (440 ≤ a) && decide (440 ≤ b)
  | _ => false

/-- THERMAL_SHUTDOWN: in CLASS_S firmware acts at 110 °C on two consecutive samples: the thermal cause, an S3 event, and the steps of SHUTDOWN (R346, R470). -/
def execThermalShutdown (sensor : SensorRef) (reading : Nat) (s : State) : Host.Outcome State Fault Refusal :=
  if !classS s || sensorBroken s sensor || decide (reading < 110) || !twiceHot s sensor || s.boot.hot || !s.boot.fwUp then .next s
  else
    let src := srcId 6 0 0x19
    let s1 := ((s.raiseCause 5).captureOnly [{ source := src }]).endAll .internal src
    let s2 := s1.shutDown 1
    .next { s2 with boot := { s2.boot with stopped := true, hot := true } }

/-- INPUT_RANGE_TRIP: the 48 V input has been below 38 V or above 62 V for 50 µs (R564). -/
def execInputRangeTrip (s : State) : Host.Outcome State Fault Refusal :=
  let s1 := s.trip .inputRange 0x7004 (hottestC s)
  .next { s1 with pins := { s1.pins with input := false } }

/-- INPUT_RANGE_RESTART: the input has been within 40–60 V for 100 ms; with PWRGD still asserted the module starts (R564). -/
def execInputRangeRestart (katOk idA idB : Bool) (s : State) : Host.Outcome State Fault Refusal :=
  let s1 : State := { s with pins := { s.pins with input := true } }
  if s.ret.tripped && s.ret.tripKind == .inputRange && s.pins.pwrgd then .next (s1.coldStart katOk idA idB) else .next s1

/-! ## Ageing and optical points (R474, R477, R478) -/

/-- Whether a point is due: none yet, none since the last start when `start` says that each start has one, or none for 24 operating hours (R12,
R474, R477). -/
def pointDue (s : State) (start : Bool) (last : Option Nat) : Bool :=
  match last with
  | none => true
  | some t => (start && decide (t < s.ret.opTimeAtReset)) || decide (t + 86400 ≤ s.ret.opTime)

/-- Whether a die is there to be measured: the sensors of an ISOLATED tile read as absent (Table 2-5). -/
def dieThere (s : State) : DieRef → Bool
  | .tile n => (tileAt s n).state != .isolated
  | _ => true

/-- AGEING_POINT: a die's measurement when it is due: at a start and every 24 operating hours (R474–R476). -/
def execAgeingPoint (die : DieRef) (slowdown : List Nat) (s : State) : Host.Outcome State Fault Refusal :=
  if slowdown.isEmpty || !dieThere s die || !pointDue s true ((ageingOf s die).points.getLast?.map (·.1)) then .next s
  else .next (s.agePoint die slowdown)

/-- The rate step below the working one at which every slot holds for 720 h; how the eyes would hold there is not given (R478, log 4). -/
def lowerRate (s : State) (x : Engine) (side : Nat) : Option Nat :=
  let d := dirOf x side
  let holds := (d.slotRing.take d.width).all (fun w => !within720 (windowHours (waveRing x (36 * side + w))))
  ((List.range d.rate).reverse).find? (fun r => holds && (freshWord s).getLsbD r)

/-- A slot predicted to fail moves to a spare that holds, with the requests of a spare used and of none left (R397, Table 16-4), or the receiver asks for a lower rate where that carries more than the next width (R478). -/
def State.foresee (e : Nat) (side slot w : Nat) (s : State) : State :=
  let x := engineAt s e
  let d := dirOf x side
  let good := (spareLambdas x side).filter (fun v => !within720 (waveHours (waveRing x (36 * side + v))))
  match (good.find? (fun v => v / 18 == w / 18)).orElse (fun _ => good.head?) with
  | some v =>
    let eff := effectiveOf x side 1
    let s1 := (((s.modDir e side (fun d => { d with maps := d.maps ++ [(slot, v, eff)], spared := true })).modOeRing e (36 * side + v)
      (fun q => { q with slot := slot })).sendMaps e side [(slot, v, eff)]).raiseOnce 1 4 e
    if (spareLambdas (engineAt s1 e) side).isEmpty then s1.raiseOnce 2 4 e else s1
  | none =>
    match lowerRate s x side with
    | some r =>
      if side = 1 ∧ (d.rate + 1) * widthFor ((lockedLambdas x side).length - 1) < (r + 1) * d.width then (s.startChange e r d.width).spend 1
      else s.spend 1
    | none => s.spend 1

/-- The heater code of a ring, corrected to 85 °C by the die's hottest valid reading: 125 codes are the 10 GHz of one kelvin, and a hotter die needs fewer of them
(R385, R477). Without a reading it is as reported. -/
def heaterAt85 (x : Engine) (r : Nat) (reported : Int) : Int :=
  match hottestOf x.sensorHistory x.sensorBroken with
  | some t => (waveRing x r).heater + 125 * (t - 340) / 4
  | none => reported

/-- OPTICAL_POINT: a wavelength's point, when 24 operating hours have passed since its last one, kept in flash, and the planner (R408, R477–R479, R513). -/
def execOpticalPoint (e : EngineId) (r : OeRing) (point : OpticalPointData) (s : State) : Host.Outcome State Fault Refusal :=
  if !pointDue s false ((waveRing (engineAt s e) r).points.getLast?.map (·.1)) then .next s else
  let p := { point with heater := heaterAt85 (engineAt s e) r point.heater }
  let s1 := (s.modOeRing e r (fun q => { q with points := (q.points ++ [(s.ret.opTime, p)]).drop (q.points.length + 1 - 30) })).putMirror
    (.optical e r s.ret.opTime p)
  let x := engineAt s1 e
  let q := waveRing x r
  let side := r.val / 36
  let moving := (dirOf x side).maps.any (fun m => m.1 == q.slot)
  let s2 := if within720 (waveHours q) && decide (q.slot < (dirOf x side).width) && x.state == .up && !moving
            then s1.foresee e side q.slot (r.val % 36) else s1
  .next ((s2.predict 8 e e (sooner (directionHours x 0) (directionHours x 1))).predictLaser e r q)

end Sys2Proof.Machine
end

