-- ==== Sys2Proof/Machine/FaultRows.lean ====
section
/-! DEFINITION. Events that checkers send, fault states that end, and the sideband (Chapter 17, R520, R575–R578). -/
namespace Sys2Proof.Machine

/-! ## FAULT_CAPTURE (R491–R498) -/

/-- Events as the collector can receive them: a 16-bit source that is not 0xFFFF; injected ones only from a checker under injection; one of a bundle concerns
its fault state only while an inline check runs (R339, R367, R487, R497). -/
def received (s : State) (events : List FaultEvent) : List FaultEvent :=
  (events.filter (fun e => decide (e.source < 0xFFFF) && (!e.injected || s.flt.injecting e.source))).map (fun e => match e.resource with
    | some (.bundle b) => if (bundleAt s b).checking then e else { e with resource := none }
    | _ => e)

/-- The session that a command names, for the opcodes that carry a session handle. -/
def namedSession (s : State) (cid : Nat) : Option Session := (cmdAt s cid).bind (fun c => sessionHandle s (c.arg 8 8))

/-- What an event of firmware's own checkers does beside its mark: a directory entry that fails its CRC leaves its session BROKEN, whatever state it was in (R225); an inconsistent
state ends its commands with INTERNAL (Table 17-4). -/
def State.firmwareEvent (ev : FaultEvent) (s : State) : State :=
  if ev.source = srcId 0 0 4 then
    ev.touched.foldl (fun t c => match namedSession t c with
      | some x => (t.breakSession .resultSuspect ev.source x.index).modSession x.index (fun y => { y with state := .broken, stepRing := none })
      | none => t) s
  else if ev.source = srcId 0 0 5 then ev.touched.foldl (fun t c => t.failWork c .internal ev.source) s
  else s

/-- Whether an event is the first of a cycle, in the collector's order, that concerns a command (R352). -/
def leadsFor (evs : List FaultEvent) (ev : FaultEvent) (c : Nat) : Bool :=
  firstOf (evs.filter (fun e => severityOf e.source == 3 || (severityOf e.source == 2 && e.touched.contains c))) == some ev

/-- FAULT_CAPTURE: the events of one collector cycle (R491–R494, R498); of those that concern one command the first in the collector's order decides
(R352). AER_CORRECTABLE is also one of the host link's own (R276). -/
def execFaultCapture (events : List FaultEvent) (s : State) : Host.Outcome State Fault Refusal :=
  let l := received s events
  if l.isEmpty then .next s
  else
    let internal := l.filter (fun e => e.source == srcId 0 0 5)
    let s0 := if l.any (fun e => e.source == srcId 5 0 0) then s.aerError 0 else s
    let s1 := internal.foldl (fun t e => t.firmwareEvent { e with touched := e.touched.filter (leadsFor l e) }) s0
    let s2 := s1.capture l
    .next ((l.filter (fun e => e.source == srcId 0 0 4 || e.source == srcId 0 0 5)).foldl (fun t e => t.firmwareEvent e) s2)

/-! ## SELFTEST FULL (R335, R506) -/

/-- What a fault that a full test finds does, its capture included: it is handled as the fault it is (R335, R506). A cell goes out, a group is retired,
a ring of the wrong channel searches, a sensor is broken, a bundle's wires are checked, the crypto block is not used. -/
def State.actOnFailure (ev : FaultEvent) (s : State) : State :=
  let n := ev.source / 64 % 64
  let e : EngineId := Fin.ofNat 24 n
  let d := ev.data.toNat
  match ev.resource with
  | some (.cell m k) => if ev.source = srcId 1 m 0 then s.katFailed m k (some ev) else s.capture [ev]
  | some (.bundle b) => if ev.source = bundleSource 0x20 b then s.startInline b else s.capture [ev]
  | some (.sensor x) => if ev.source = sensorSource x then s.sensorFails x else s.capture [ev]
  | some (.ring x r) =>
    if ev.source = srcId 2 x 1 then
      (s.modOeRing x r (fun q => { q with tries := 0 })).wrongChannel x r (waveRing (engineAt s x) r).heater none true
    else s.capture [ev]
  | _ =>
    if ev.source = srcId 3 n 1 then (s.capture [ev]).retireGroup n d ev.source
    else if ev.source = srcId 2 e 1 then
      let r : OeRing := Fin.ofNat 72 (36 * (d % 256) + 18 * (d / 256 % 256) + d / 65536 % 256)
      (s.modOeRing e r (fun q => { q with tries := 0 })).wrongChannel e r (waveRing (engineAt s e) r).heater none true
    else if ev.source = srcId 9 0 7 then
      let t := s.capture [ev]
      { t with sec := { t.sec with cryptoOk := false } }
    else s.capture [ev]

/-- SELFTEST_FULL: first given it starts the test, unless it conflicts with work in flight (R336), and the cells drain; given again once they have, the test ends
with what it found, within 500 ms (R335, R506). -/
def execSelftestFull (cid ms : Nat) (found : SelftestFindings) (s : State) : Host.Outcome State Fault Refusal :=
  .next (s.selftest cid 1 (fun c t =>
    if !c.started then
      if !t.sessions.isEmpty || running t cid [0x31, 0x33] || fullRunning t cid then t.finishCmd cid .busy []
      else (computeSites t).foldl (fun u n => u.startDrain n) t
    else if 500 < ms ∨ fullChecks t < found.failures.length ∨ (computeSites t).any (fun n => (tileAt t n).draining) then s
    else
      let t0 : State := { t with sec := { t.sec with cryptoOk := true } }
      let t1 := (found.failures.foldl (fun u (ev : FaultEvent × Bool) => if ev.2 then u.actOnFailure ev.1 else u) t0).remapTiles
      let first := ((found.failures.head?).map (·.1.source)).getD 0xFFFF
      t1.finishCmd cid .ok (selftestFields t1 (fullChecks t) found.failures.length first ms)))

/-! ## The end of a fault state (R462, R499–R501) -/

/-- A control core is retired: recorded and reported; fewer than four in service is an S3 event (Tables 17-4, 17-7). -/
def State.retireCore (c : CoreId) (s : State) : State :=
  let src := srcId 0 0 1
  let s1 := (({ s with flt := { s.flt with coresRetired := addOnce c.val s.flt.coresRetired, coresReset := without (· == c.val) s.flt.coresReset } } : State).putMirror (.retiredCore c)).raise src c.val
  let s2 := s1.logEvent 0x0003 src 1 false (retireData 8 0x80 c.val 0)
  if 8 - s2.flt.coresRetired.length < 4 then s2.raise (srcId 0 0 9) 0 else s2

/-- What the eighth recovery within 3,600 s does to a resource (R500, Table 17-7); the cell that goes out is reported as R62 step 1 says (R63;
log 50). -/
def State.retire (st : FaultState) (s : State) : State :=
  match st.res with
  | .cell n k => (s.raise (srcId 1 n 0) (rangeData (tileAt s n) k)).cellOut n k st.source
  | .tile n => s.retireTile n true
  | .bundle b => s.retireBundle b
  | .ring e r => s.retireRing e r
  | .laser e f => s.retireLaser e f st.source
  | .sensor x =>
    let d := resourceData st.res
    ((s.putMirror (.retiredSensor x)).markSensor x true).logEvent 0x0003 st.source st.severity false (retireData d.1 d.2.1 d.2.2 0)
  | .core c => s.retireCore c

/-- A control core is back from its reset by the end of its fault state (R485, R499; DESIGN CHOICE, log 88). -/
def State.coreBack (res : Resource) (s : State) : State :=
  match res with
  | .core c => { s with flt := { s.flt with coresReset := without (· == c.val) s.flt.coresReset } }
  | _ => s

/-- A sensor that has met no rule for the rest period is valid again (R462). -/
def State.sensorBack (res : Resource) (s : State) : State :=
  match res with
  | .sensor x => if retiredSensor s x then s else s.markSensor x false
  | _ => s

/-- Whether a sensor meets one of the rules of R458 as its die last sampled it. -/
def sensorMeets (s : State) (x : SensorRef) : Bool :=
  let meets (hist : List (List Int)) (range median : List Nat) (broken : List Bool) (k : Nat) : Bool :=
    range.getD k 0 == 4 || median.getD k 0 == 4 || stuck hist broken k
  match x with
  | .tile n k => let t := (tileAt s n).thermal; meets t.history t.rangeCount t.medianCount t.broken k
  | .hub k => meets s.th.hubHistory s.th.hubRange s.th.hubMedian s.th.hubBroken k
  | .engine e k => let x := engineAt s e; meets x.sensorHistory x.sensorRange x.sensorMedian x.sensorBroken k

/-- Whether a resource's rest period cannot have passed: a sensor that still meets a rule restarts it with each sample (R458, R462). -/
def unrested (s : State) : Resource → Bool
  | .sensor x => sensorMeets s x
  | _ => false

/-- FAULT_STATE_REST_EXPIRY: the state ends and records a recovery; the eighth within 3,600 s retires the resource (R499–R501, R509). -/
def execFaultStateRestExpiry (resource : Resource) (s : State) : Host.Outcome State Fault Refusal :=
  let res := resourceKey resource
  match openState s.flt res with
  | none => .next s
  | some st =>
    if unrested s res then .next s else
    let l := without (fun (x : FaultState) => x.res == res) s.flt.open_
    let s1 := ((({ s with flt := { s.flt with open_ := l }, ret := { s.ret with faultList := l } } : State)).sensorBack res).coreBack res
    if st.injectedOnly then .next s1
    else
      let s2 := s1.recordRecovery st
      if eighth s2 res then .next (s2.retire st) else .next s2

/-! ## Sideband (R559, R575–R578) -/

/-- sb_flags: whether the hub runs, whether MOD_TRIP# is low. -/
def sbFlags (s : State) : Nat := bnat s.sb.hubRunning + 2 * bnat s.pins.tripOut

/-- A copy, or 0xFF bytes before the first refresh. -/
def copyOr (n : Nat) (x : Option (List Byte)) : List Byte := x.getD (List.replicate n 0xFF)

/-- The reply to a command code; none for a code that Table 22-8 does not list. THM_TRIP_RECORD comes from the retained domain itself. -/
def sidebandReply (s : State) (code : Byte) : Option (List Byte) :=
  if !s.ret.powered then none
  else
    let flags := leBytes 1 (sbFlags s)
    match code.toNat with
    | 0 => some (flags ++ copyOr 16 s.sb.ident)
    | 1 => some (flags ++ copyOr 29 s.sb.status)
    | 2 => some (flags ++ leBytes 4 (tripRecord s) ++ copyOr 4 s.sb.thermal)
    | 3 => some (flags ++ copyOr 8 s.sb.service)
    | _ => none

/-- The PEC of SMBus: CRC-8 over the address, the code, the address for the read, the count and the data. -/
def pecOf (code : Byte) (data : List Byte) : Byte :=
  BitVec.ofNat 8 (crc8 (([0xB4, code, 0xB5, BitVec.ofNat 8 data.length] ++ data).flatMap (fun b => msbBits 8 b.toNat)))

/-- SMBUS_BLOCK_READ: count, data and PEC; another code is not acknowledged (R576). -/
def execSmbusBlockRead (code : Byte) (s : State) : Host.Outcome State Fault Refusal :=
  .next { s with sb := { s.sb with reply := (sidebandReply s code).map (fun d => BitVec.ofNat 8 d.length :: d ++ [pecOf code d]) } }

/-- I3C_PRIVATE_READ: the same data without PEC (R576). -/
def execI3cPrivateRead (code : Byte) (s : State) : Host.Outcome State Fault Refusal :=
  .next { s with sb := { s.sb with reply := sidebandReply s code } }

/-- SMBUS_ALERT_RESPONSE: the module that drives the alert line answers 0x5A and releases it (R578). -/
def execSmbusAlertResponse (s : State) : Host.Outcome State Fault Refusal :=
  if s.ret.powered && s.pins.alertOut then
    .next { s with pins := { s.pins with alertOut := false }, sb := { s.sb with reply := some [0x5A] } }
  else .next { s with sb := { s.sb with reply := none } }

/-- SIDEBAND_REFRESH: while the hub runs, the retained domain takes every copy (R577, Table 22-8). -/
def execSidebandRefresh (s : State) : Host.Outcome State Fault Refusal :=
  if s.ret.powered && s.sb.hubRunning then
    .next ({ s with sb := { s.sb with
      ident := some (leBytes 4 (0x6424 * 65536 + Config.hubStepping.toNat) ++ leBytes 4 Config.fwVersion.toNat ++ leBytes 8 Config.serial.toNat),
      status := some ((resultOf (statusFields s)).take 29),
      thermal := some (leBytes 4 (thmModuleStatus s)),
      service := some (leBytes 4 (serviceStatus s) ++ leBytes 4 (flashStatus s)) } } : State)
  else .next s

/-- STANDBY_SUPPLY_LOSS: the retained domain is lost: the open record, the copies and counters, the generations, the fault list, the trip record
(R12, R232, R520, R581). -/
def execStandbySupplyLoss (s : State) : Host.Outcome State Fault Refusal :=
  .next { s with ret := { Retained.reset with powered := false }, pins := { s.pins with tripOut := false, alertOut := false },
                 sb := { ident := none, status := none, thermal := none, service := none, hubRunning := s.sb.hubRunning, reply := none } }

/-- STANDBY_SUPPLY_RETURN: the retained domain starts; copied bytes read 0xFF until the first refresh (R577). -/
def execStandbySupplyReturn (s : State) : Host.Outcome State Fault Refusal :=
  if s.ret.powered then .next s
  else .next { s with ret := { s.ret with powered := true }, sb := { s.sb with ident := none, status := none, thermal := none, service := none } }

end Sys2Proof.Machine
end

