-- ==== Sys2Proof/Machine/FlashRows.lean ====
section
/-! DEFINITION. The flashes at work: operations that end, a flash that fails, writes refused for temperature, the open record's time
(R472, R513, R514, R519, R522, R524–R527, R540). -/
namespace Sys2Proof.Machine

/-- LOG_RECORD_TIMEOUT: 60 s of operating time after it was opened the open record is committed (R519). -/
def execLogRecordTimeout (s : State) : Host.Outcome State Fault Refusal :=
  if s.ret.openRec.isSome && decide (s.ret.openAt + 60 ≤ s.ret.opTime) then .next s.commitOpen else .next s

/-! ## Operations that end (R513, R514) -/

/-- What an operation leaves in its flash. -/
def Flash.apply (op : FlashOp) (f : Flash) : Flash :=
  match op with
  | .reservation h => { f with entries := addMirror (.reservation h) f.entries }
  | .mirror m => { f with entries := addMirror m f.entries }
  | .log r => f.program r
  | .settings _ k image => { f with slots := setAt f.slots k image }

/-- Whether an operation is for both flashes. -/
def FlashOp.mirrored : FlashOp → Bool
  | .log _ => false | _ => true

/-- Flashes that hold an image in a slot: bit 0 A, bit 1 B (Table 11-13). -/
def writtenMask (s : State) (k : Nat) (image : List Byte) : Nat :=
  let has (f : Flash) : Bool := !f.failed && f.slots.getD k [] == image
  bnat (has s.flashA) + 2 * bnat (has s.flashB)

/-- What follows once an operation has reached every flash it is for: a batch is usable (R540), a SETTINGS_WRITE completes (R342). -/
def State.opSettled (op : FlashOp) (s : State) : State :=
  match op with
  | .reservation h =>
    { s with sec := { s.sec with reservedHigh := h, batchLeft := s.sec.batchLeft + 1024, reservationPending := false },
             log := { s.log with held := addMirror (.reservation h) s.log.held } }
  | .settings cid k image =>
    let w := writtenMask s k image
    let v := field 0xC 4 image
    (s.logEvent 0x0020 0xFFFF 0 false (BitVec.ofNat 64 (v + 2 ^ 32 * k + 2 ^ 40 * w))).finishCmd cid .ok [(0x14, 1, k), (0x15, 1, w), (0x18, 4, v)]
  | _ => s

/-- The operation at the front of a flash is done and verified: the other flash follows, or it is settled (R513). While writes are refused no other one starts
(R472). -/
def State.opDone (i : Nat) (op : FlashOp) (s : State) : State :=
  let s1 := s.modFlash i (fun f => { f.apply op with queue := f.queue.drop 1, errors := 0, paused := s.log.refused })
  if op.mirrored && i == 0 && !s1.flashB.failed then s1.modFlash 1 (Flash.enqueue op) else s1.opSettled op

/-! ## A flash that fails (R525–R527) -/

/-- One event is captured without a log record of its own. -/
def State.captureUnlogged (src : Nat) (s : State) : State :=
  let evs : List FaultEvent := s.flt.marking [{ source := src }]
  let t : State := { s with flt := s.flt.capture s.ret.opTime s.ret.cycles evs }
  if causesFault s.flt evs then t.raiseCause 1 else t

/-- The record of a flash event. -/
def flashRecord (s : State) (src : Nat) : LogRec :=
  { opTime := s.ret.opTime, cycles := s.ret.cycles, severity := severityOf src, injected := false, deferred := false, retained := false, data := 0,
    number := 0, source := src, event := 1, repeats := 1 }

/-- The log records among operations. -/
def opRecords (l : List FlashOp) : List LogRec := l.filterMap (fun op => match op with | .log r => some r | _ => none)

/-- Operations of a failed flash go on where they can: A's to B, B's (which A holds already) are settled (R526). -/
def State.carryOps (i : Nat) (l : List FlashOp) (s : State) : State :=
  (l.filter FlashOp.mirrored).foldl (fun t op => if i = 0 then t.modFlash 1 (Flash.enqueue op) else t.opSettled op) s

/-- Operations that no flash can take: a SETTINGS_WRITE in flight completes with NO_RESOURCE (R342, R527). -/
def State.loseOps (l : List FlashOp) (s : State) : State :=
  l.foldl (fun t op => match op with
    | .settings cid _ _ => t.finishCmd cid .noResource []
    | _ => t) s

/-- A flash is judged failed (R525): the log moves if it was there (R526), or nothing is left (R527). -/
def State.failFlash (i : Nat) (s : State) : State :=
  let ops := (flashAt s i).queue
  let other := 1 - i
  let s1 := s.modFlash i (fun f => { f with failed := true, queue := [], errors := 0 })
  if (flashAt s1 other).failed then
    ((((opRecords ops).foldl (fun t r => t.commitRecord r) s1).raise (srcId 8 i 3) 0).loseOps ops).raiseCause 6
  else if s1.log.active = i then
    let s2 : State := { s1 with log := { s1.log with active := other } }
    let src := srcId 8 i 2
    let s3 := (s2.captureUnlogged src).commitRecord (flashRecord s2 src)
    let s4 := s3.putMirror (.logHead other s3.log.next)
    ((opRecords ops).foldl (fun t r => t.commitRecord r) s4).carryOps i ops
  else (s1.raise (srcId 8 i 2) 0).carryOps i ops

/-- FLASH_OP_DONE: the running operation of a flash ends. Its read-back matches, or it is repeated once and the flash then judged failed (R513,
R514, R525). What waits while writes are refused does not run (R472). -/
def execFlashOpDone (flash : Fin 2) (ok : Bool) (s : State) : Host.Outcome State Fault Refusal :=
  let f := flashAt s flash
  match f.queue with
  | [] => .next s
  | op :: _ =>
    if f.failed || (s.log.refused && f.paused) then .next s
    else if ok then .next (s.opDone flash op)
    else if f.errors = 0 then .next ((s.modFlash flash (fun f => { f with errors := 1 })).raise (srcId 8 flash 1) 0)
    else .next (s.failFlash flash)

/-! ## Writes refused for temperature (R472, R524) -/

/-- The sensor that decides on flash writes: H7, or the hottest valid hub sensor when H7 is broken; in 0.25 K. -/
def flashSensor (s : State) : Option Int :=
  if s.th.hubBroken.getD 7 false then hottestOf s.th.hubHistory s.th.hubBroken else (s.th.hubHistory.getD 7 []).head?

/-- FLASH_WRITES_REFUSED: the sensor reads below 0 °C or above 85 °C (R472). -/
def execFlashWritesRefused (s : State) : Host.Outcome State Fault Refusal :=
  match flashSensor s with
  | some v =>
    if !s.log.refused && (decide (v < 0) || decide (340 < v)) then
      let idle (f : Flash) : Flash := { f with paused := f.queue.isEmpty }
      .next (({ s with log := { s.log with refused := true, dropped := [0, 0, 0, 0] }, flashA := idle s.flashA, flashB := idle s.flashB } : State).raise
        (srcId 6 0 0x1A) 0)
    else .next s
  | none => .next s

/-- The dropped records of a period are reported (R524). -/
def State.reportDropped (s : State) : State :=
  let d := s.log.dropped
  let s1 : State := { s with log := { s.log with dropped := [0, 0, 0, 0] } }
  if total d = 0 then s1
  else s1.raise (srcId 8 s1.log.active 4) (d.getD 0 0 + 65536 * d.getD 1 0 + 2 ^ 32 * d.getD 2 0 + 2 ^ 48 * d.getD 3 0)

/-- FLASH_WRITES_ALLOWED: after 1 s within 2–83 °C, marked areas and queued entries are written, then the records in commit order, and a waiting
reservation first of all (R472, R514, R524, R540). -/
def execFlashWritesAllowed (s : State) : Host.Outcome State Fault Refusal :=
  match flashSensor s with
  | some v =>
    if s.log.refused && decide (8 ≤ v) && decide (v ≤ 332) then
      let ms := s.log.marked ++ s.log.mirrored
      let rs := s.log.queued
      let s1 : State := { s with log := { s.log with refused := false, marked := [], mirrored := [], queued := [] },
                                 ret := { s.ret with copies := [], mirrorCopies := [] } }
      let s2 := if s.sec.reservationPending then
          ({ s1 with sec := { s1.sec with reservationPending := false } } : State).reserveBatch
        else s1
      let s3 := ms.foldl (fun t m => t.putMirror m) s2
      .next ((rs.foldl (fun t r => t.commitRecord r) s3).reportDropped)
    else .next s
  | none => .next s

end Sys2Proof.Machine
end

