-- ==== Sys2Proof/Machine/Kernels.lean ====
section
/-! DEFINITION. Kernel images and launches: decoding and checks of every word (R162, R163, R175–R178), KERNEL_LAUNCH and the end of a launch
(R179–R181, R186, R323, R326, R329). -/
namespace Sys2Proof.Machine

/-! ## Instruction words (Tables 6-4, 6-5, 6-6) -/

/-- Class code. -/
def kClass (w : Nat) : Nat := bits 63 60 w
/-- Operation within the class. -/
def kOp (w : Nat) : Nat := bits 59 52 w
/-- Execute where the predicate is 0. -/
def kNeg (w : Nat) : Bool := bit 51 w
/-- Predicate register. -/
def kPred (w : Nat) : Nat := bits 50 48 w
/-- Destination register. -/
def kDst (w : Nat) : Nat := bits 47 40 w
/-- Bits 39:32: src0, or the address register of MEM and ATOM, or MMA's A pair. -/
def kSrc0 (w : Nat) : Nat := bits 39 32 w
/-- Bits 31:24: src1, or the data register, or MMA's B pair. -/
def kSrc1 (w : Nat) : Nat := bits 31 24 w
/-- Bits 23:16: src2. -/
def kSrc2 (w : Nat) : Nat := bits 23 16 w
/-- The immediate form of INT and FP (op bit 7). -/
def kImm (w : Nat) : Bool := bit 59 w
/-- Signed word offset of BRA and JOIN. -/
def kTarget (w : Nat) : Int := toSigned 32 (w % 2 ^ 32)

/-- The class of an operation (Table 6-5). -/
def kopClass : KOp → Nat
  | .nop => 0 | .bra => 0 | .join => 0 | .exit => 0 | .int _ => 1 | .fp _ => 2 | .cvt _ _ => 3 | .cvtBlk => 3 | .ld => 4 | .st => 4
  | .memCopy _ _ => 4 | .atom _ => 5 | .mma => 6 | .accZero => 7 | .accStore => 7 | .accExport => 7 | .accMerge => 7 | .accDeposit => 7
  | .bar => 8 | .fence => 8 | .waitCopy => 8 | .sreg _ => 9

/-- The operation of a word: MMA is op 0 (Table 6-11), SREG's op is taken as the code of Table 6-2, other codes are not given (log 8). -/
def kOpOf (w : Nat) : Option KOp :=
  match kClass w with
  | 6 => if kOp w = 0 then some .mma else none
  | 9 => if kOp w ≤ 9 then some (.sreg (kOp w)) else none
  | c => (Config.kernelOp c (if c = 1 ∨ c = 2 then kOp w % 128 else kOp w)).filter (fun o => kopClass o == c && !(match o with | .sreg _ => true | _ => false))

/-- Whether a register field may stand (R163). -/
def regOk (c r : Nat) : Bool := decide (r < c) || r == 255

/-- Whether an accumulator base may stand: an Exact tile at a multiple of 4 up to 20 with its 12 units, a Fast tile in one unit (R154). -/
def baseOk (a : Nat) (exact : Bool) (base : Nat) : Bool :=
  if exact then base % 4 == 0 && decide (base ≤ 20) && decide (base + 12 ≤ a) else decide (base < a)

/-- Whether the target of a branch at word i lies inside the code. -/
def targetOk (n i w : Nat) : Bool := decide (0 ≤ (i : Int) + kTarget w) && decide ((i : Int) + kTarget w < n)

/-- Whether the fields of a word may stand under its operation (R162, R163, R168–R174; layouts the manual leaves open, log 8). The conv byte of
every word in register form is checked, also where the operation ignores it (log 77); CVT.BLK takes a block format only (DESIGN CHOICE, log 84). -/
def wordOk (allExact : Bool) (c a b n i : Nat) (o : KOp) (w : Nat) : Bool :=
  let r3 := regOk c (kDst w) && regOk c (kSrc0 w) && regOk c (kSrc1 w) && regOk c (kSrc2 w)
  let small (hi lo : Nat) : Bool := bits hi lo w == 0
  let mode := allExact || !bit 10 w
  match o with
  | .nop => regOk c (kDst w) && small 39 0
  | .exit => regOk c (kDst w) && small 39 0
  | .bra => regOk c (kDst w) && small 39 32 && targetOk n i w
  | .join => regOk c (kDst w) && small 39 32 && targetOk n i w
  | .int _ => if kImm w then regOk c (kDst w) && regOk c (kSrc0 w) else r3 && decide (bits 7 0 w ≤ 1) && (convOf (bits 15 8 w)).isSome
  | .fp _ => if kImm w then regOk c (kDst w) && regOk c (kSrc0 w) else r3 && decide (bits 7 0 w ≤ 1) && (convOf (bits 15 8 w)).isSome
  | .cvt _ _ => r3 && decide (bits 7 0 w ≤ 1) && (convOf (bits 15 8 w)).isSome
  | .cvtBlk => r3 && isBlock (bits 11 8 w) && (convOf (bits 7 0 w)).isSome
  | .ld => regOk c (kDst w) && regOk c (kSrc0 w) && regOk c (kSrc1 w) && small 17 16 && decide (bits 15 13 w ≤ 4) && small 12 0
  | .st => regOk c (kDst w) && regOk c (kSrc0 w) && regOk c (kSrc1 w) && small 17 16 && decide (bits 15 13 w ≤ 4) && small 12 0
  | .memCopy _ _ => regOk c (kDst w) && regOk c (kSrc0 w) && regOk c (kSrc1 w) && small 17 16 && decide (bits 15 13 w ≤ 4) && small 12 0
  | .atom _ => regOk c (kDst w) && regOk c (kSrc0 w) && regOk c (kSrc1 w) && small 17 16 && decide (bits 15 13 w ≤ 4) && small 12 0
  | .mma => regOk c (kDst w) && regOk c (kSrc0 w) && regOk c (kSrc1 w) && pairOk (bits 18 15 w) (bits 14 11 w) && baseOk a mode (bits 23 19 w)
            && small 8 0
  | .accZero => regOk c (kDst w) && small 39 16 && baseOk a mode (bits 15 11 w) && small 9 0
  | .accStore => baseOk a allExact (kDst w) && regOk c (kSrc0 w) && regOk c (kSrc1 w) && regOk c (kSrc2 w) && decide (bits 11 8 w ≤ 9)
                 && (convOf (bits 7 0 w)).isSome
  | .accExport => baseOk a allExact (kDst w) && regOk c (kSrc0 w) && small 31 16 && decide (bits 15 14 w ≤ 1) && small 13 0
  | .accMerge => baseOk a allExact (kDst w) && regOk c (kSrc0 w) && small 31 16 && decide (bits 15 14 w ≤ 1) && small 13 0
  | .accDeposit => baseOk a true (kDst w) && regOk c (kSrc0 w) && regOk c (kSrc1 w) && small 23 0
  | .bar => regOk c (kDst w) && small 39 16 && decide (bits 15 12 w < b) && small 4 0
  | .fence => regOk c (kDst w) && small 39 16 && decide (bits 15 14 w ≤ 2) && small 13 0
  | .waitCopy => regOk c (kDst w) && small 39 16
  | .sreg _ => regOk c (kDst w) && small 39 0

/-! ## Images (Tables 6-8, 6-9) -/

/-- Groups that share a logical cell (R175); 0 when one group alone does not fit. -/
def groupsPerCell (w c s a b : Nat) : Nat :=
  let term (have_ need : Nat) : Nat := if need = 0 then 16 else have_ / need
  Nat.min 16 (Nat.min (term 64 w) (Nat.min (term 65536 (32 * w * c)) (Nat.min (term 1572864 s) (Nat.min (term 32 a) (term 16 b)))))

/-- Offset and failing field of an image header, in offset order. -/
def kernelHeader (m : List Byte) : List (Nat × Bool) :=
  let size := field 8 4 m
  let co := field 0x10 4 m
  let n := field 0x14 4 m
  let so := field 0x18 4 m
  [(0x00, field 0 4 m == 0x4B4C4351), (0x04, field 4 2 m == 1), (0x06, field 6 2 m == 64),
   (0x08, decide (64 ≤ size) && decide (size ≤ 2 ^ 20) && size == m.length), (0x0C, decide (field 0xC 4 m ≤ 1)),
   (0x10, co % 8 == 0 && decide (64 ≤ co) && decide (co + 8 * n ≤ size)), (0x14, decide (1 ≤ n) && decide (n ≤ 65536)),
   (0x18, disjoint [(0, 64), (co, 8 * n), (so, 256)] && decide (so + 256 ≤ size)),
   (0x1C, decide (1 ≤ field 0x1C 1 m) && decide (field 0x1C 1 m ≤ 64)),
   (0x1D, decide (8 ≤ field 0x1D 1 m) && decide (field 0x1D 1 m ≤ 248) && field 0x1D 1 m % 8 == 0), (0x1E, decide (field 0x1E 1 m ≤ 32)),
   (0x1F, decide (field 0x1F 1 m ≤ 16)), (0x20, decide (field 0x20 4 m ≤ 1572864) && field 0x20 4 m % 64 == 0), (0x24, field 0x24 4 m % 4096 == 0),
   (0x28, decide (1 ≤ field 0x28 1 m) && decide (field 0x28 1 m ≤ 32)), (0x29, zeroes 0x29 3 m), (0x2C, decide (field 0x2C 4 m < n)),
   (0x30, zeroes 0x30 12 m), (0x3C, field 0x3C 4 m == crc32c (overlay 0x3C [0, 0, 0, 0] m))]

/-- Checks of the slot table. -/
def kernelSlots (m : List Byte) : List (Nat × Bool) :=
  (List.range 16).flatMap (fun k =>
    let o := field 0x18 4 m + 16 * k
    [(o + 4, decide (field (o + 4) 1 m ≤ 2)), (o + 5, zeroes (o + 5) 3 m)])

/-- The words of an image, or the byte offset of the first that may not stand. -/
def kernelCode (m : List Byte) : Except Nat (List KWord) :=
  let n := field 0x14 4 m
  (List.range n).foldl (fun acc i => acc.bind (fun l =>
    let off := field 0x10 4 m + 8 * i
    let w := field off 8 m
    match kOpOf w with
    | none => .error off
    | some o =>
      if wordOk (bit 0 (field 0xC 4 m)) (field 0x1D 1 m) (field 0x1E 1 m) (field 0x1F 1 m) n i o w then .ok (l ++ [{ op := o, word := BitVec.ofNat 64 w }])
      else .error off)) (.ok [])

/-- A kernel, or the status and byte offset of a failed load (R163, R175, R176). -/
def checkKernel (m : List Byte) : Except (Status × Nat) Kernel :=
  match (kernelHeader m ++ kernelSlots m).find? (fun c => !c.2), kernelCode m with
  | some c, _ => .error (.badDescriptor, c.1)
  | none, .error o => .error (.badDescriptor, o)
  | none, .ok code =>
    let f (off n : Nat) : Nat := field off n m
    let g := groupsPerCell (f 0x1C 1) (f 0x1D 1) (f 0x20 4) (f 0x1E 1) (f 0x1F 1)
    if g = 0 ∨ 30 * g < f 0x28 1 ∨ 0x2000000 < f 0x24 4 + 8 * f 0x14 4 then .error (.tooLarge, 0xFFFFFFFF)
    else .ok { allExact := bit 0 (f 0xC 4), code, warps := f 0x1C 1, regs := f 0x1D 1, accUnits := f 0x1E 1, barriers := f 0x1F 1,
               cellStore := f 0x20 4, tileStore := f 0x24 4, groups := f 0x28 1, entry := f 0x2C 4,
               slots := (List.range 16).map (fun k => (f (f 0x18 4 + 16 * k) 4, f (f 0x18 4 + 16 * k + 4) 1, f (f 0x18 4 + 16 * k + 8) 8)), perCell := g }

/-- KERNEL_LOAD: the image read from host memory is checked, and kept under a handle (R163, R178, R323). -/
def execKernelLoad (cid : Nat) (image : List Byte) (s : State) : Host.Outcome State Fault Refusal :=
  .next (s.hostCommand cid 0x32 (fun _ _ => none) (fun c t =>
    if image.length ≠ c.arg 0x10 4 then s
    else match checkKernel image with
      | .error (st, o) => t.finishCmd cid st [(0x20, 4, o)]
      | .ok k =>
        match freeIndex (t.kernels.map (·.1)) 1024 with
        | none => t.finishCmd cid .noResource [(0x20, 4, 0xFFFFFFFF)]
        | some i =>
          let gen := genOf t.kernelGen i
          let u : State := { t with kernels := t.kernels ++ [(i, gen, k)] }
          (u.noteGen 3 gen).finishCmd cid .ok [(0x14, 8, handleWord 3 gen i), (0x1C, 1, k.perCell), (0x1D, 1, (clusterNeeds k).1), (0x20, 4, 0xFFFFFFFF)]))

/-! ## Launches (R178, R179, R324, R329) -/

/-- The launch of a command. -/
def launchOf (s : State) (cid : Nat) : Option Launch := s.launches.find? (fun l => l.cid == cid)

/-- A change of one launch. -/
def State.modLaunch (cid : Nat) (f : Launch → Launch) (s : State) : State :=
  { s with launches := s.launches.map (fun l => if l.cid = cid then f l else l) }

/-- Whether the handles given may be bound: one of enough bytes for each used slot, 0 for the others, and no handle bound to a read-write slot
and to another (R178, R329). -/
def slotsOk (s : State) (k : Kernel) (words : List Nat) : Bool :=
  (List.range 16).all (fun i =>
    let (_, access, least_) := k.slots.getD i (0, 0, 0)
    let w := words.getD i 0
    if access = 0 then w == 0
    else match memHandle s w with
      | none => false
      | some h => decide (least_ ≤ h.size) && (access != 2 || (List.range 16).all (fun j => j == i || words.getD j 0 != w)))

/-- Whether every operation of a launch runs in Exact mode (R96, R166). -/
def launchExact (s : State) (l : Launch) : Bool := l.kernel.allExact || forceExact s

/-- A launch is accepted: one work unit for each cluster joins the queue of its group, its work the kernel's code words (R149, R150, R192; log 29). -/
def State.addLaunch (l : Launch) (s : State) : State :=
  let units : List WorkUnit := (List.range l.clusterCount).map (fun i =>
    { id := s.cel.nextUnit + i, cid := l.cid, op := i, kind := .mash, group := groupRole s .mash, site := none, cells := [], cxlInputs := launchInCxl s l,
      peers := [], weightSite := none, work := l.kernel.code.length })
  { s with launches := s.launches ++ [l],
           cel := { s.cel with units := s.cel.units ++ units, nextUnit := s.cel.nextUnit + l.clusterCount } }

/-- A launch begins once no earlier work of its ring holds its handles (R149, R150, R179). -/
def State.beginLaunch (cid : Nat) (s : State) : State :=
  match launchOf s cid with
  | none => s
  | some l =>
    let (uses, writes) := launchUses s l
    if l.begun || usesWait s cid uses writes then s
    else
      let clusters : List Cluster := (List.range l.clusterCount).map (fun i =>
        { index := i, site := none, started := false, saved := false, groups := [], store := [], image := [], ended := false })
      s.modLaunch cid (fun q => { q with begun := true, clusters })

/-- Acceptance of KERNEL_LAUNCH as far as its descriptor tells: the kernel, BUSY and RETRY_LATER (R179, R216, R324). -/
def launchStop (c : Cmd) (s : State) : Option State :=
  match kernelHandle s (c.arg 8 8) with
  | none => some (s.finishCmd c.cid .badDescriptor [])
  | some (i, _, _) =>
    if selftestRunning s || decide (64 ≤ (s.launches.filter (fun q => q.kernelIndex == i)).length + waitingOn s 0x33 (c.arg 8 8)) then some (s.finishCmd c.cid .busy [])
    else if overloaded s .mash then some (s.finishCmd c.cid .retryLater [])
    else none

/-- KERNEL_LAUNCH: checked at acceptance, its slot and parameter blocks read from host memory, its bindings checked, then begun (R178, R179, R216,
R324, R329). -/
def execKernelLaunch (cid : Nat) (slots params : List Byte) (s : State) : Host.Outcome State Fault Refusal :=
  match launchOf s cid with
  | some _ => .next (s.beginLaunch cid)
  | none => .next (s.hostCommand cid 0x33 launchStop (fun c t =>
      if slots.length ≠ 128 ∨ params.length ≠ 256 then s
      else match kernelHandle t (c.arg 8 8) with
        | none => t.finishCmd cid .badDescriptor []
        | some (i, _, k) =>
          let l : Launch := { cid, kernel := k, kernelIndex := i, clusterCount := c.arg 0x10 4, seed := BitVec.ofNat 64 (c.arg 0x18 8),
                              inst := BitVec.ofNat 32 (c.arg 0x20 4), slots := (List.range 16).map (fun j => field (8 * j) 8 slots), params,
                              timeLimit := c.arg 0x14 4, begun := false, clusters := [], ranFast := false, error := none }
          if usesBusy t cid (launchUses t l).2 then t.finishCmd cid .busy []
          else if !slotsOk t k l.slots then t.finishCmd cid .badDescriptor []
          else (t.addLaunch l).beginLaunch cid))

/-! ## The end of a launch (R180, R181, R186) -/

/-- A launch ends. -/
def State.endLaunch (l : Launch) (status : Status) (s : State) : State :=
  (s.finishCmd l.cid status (launchFields l)).dropLaunch l.cid

/-- Whether a place comes before another's: cluster, group, warp, word (R186). -/
def KernelError.before (a b : KernelError) : Bool :=
  decide (a.cluster < b.cluster) || (a.cluster == b.cluster && (decide (a.group < b.group) || (a.group == b.group
    && (decide (a.warp < b.warp) || (a.warp == b.warp && decide (a.word < b.word))))))

/-- A kernel error stops the whole launch; the lowest place counts of those raised until it has stopped (R186; log 62). -/
def State.kernelError (cid : Nat) (e : KernelError) (s : State) : State :=
  s.modLaunch cid (fun l => { l with error := some (match l.error with | some d => if e.before d then e else d | none => e) })

/-- Launches that an error has stopped are complete (R181, R186). -/
def State.endStopped (s : State) : State :=
  (s.launches.filter (fun l => l.error.isSome)).foldl (fun t l => t.endLaunch l .badDescriptor) s

/-- A launch whose clusters have all ended is complete (R172, R180); one with a kernel error ends by that error (R181, R186). -/
def State.settleLaunch (cid : Nat) (s : State) : State :=
  match launchOf s cid with
  | some l => if l.begun && l.error.isNone && l.clusters.all (·.ended) then s.endLaunch l .ok else s
  | none => s

/-- KERNEL_TIME_LIMIT: the launch has run longer than its limit since its first cluster started, no error having stopped it; the place is not given
(R186, Table 6-10, log 4). -/
def execKernelTimeLimit (cid : Nat) (s : State) : Host.Outcome State Fault Refusal :=
  match launchOf s cid with
  | some l =>
    if l.error.isNone && l.clusters.any (·.started) then
      let v := (freshWord s).toNat
      .next ((s.kernelError cid { code := 7, cluster := v % 2 ^ 32, group := v / 2 ^ 32 % 256, warp := v / 2 ^ 40 % 256, word := v / 2 ^ 48 }).spend 1)
    else .next s
  | none => .next s

end Sys2Proof.Machine
end

