-- ==== Sys2Proof/Machine/KernelInstr.lean ====
section
/-! DEFINITION. Kernel instructions, one warp at a time (R149–R174, R183, R186, R187). -/
namespace Sys2Proof.Machine

/-! ## Where a warp stands -/

/-- A warp about to issue: its launch, cluster and group, itself, and the instruction at its pc. -/
structure KCtx where
  ref : WarpRef
  l : Launch
  c : Cluster
  g : Group
  w : Warp
  op : KOp
  word : Nat
  deriving DecidableEq, Repr

/-- A warp of a cluster that has started and not ended, whatever it does. -/
def warpAt (s : State) (r : WarpRef) : Option (Launch × Cluster × Group × Warp) :=
  (launchOf s r.launch).bind (fun l =>
    (l.clusters.find? (fun c => c.index == r.cluster && c.started && !c.ended)).bind (fun c =>
      (c.groups[r.group]?).bind (fun g => (g.warps[r.warp]?).map (fun w => (l, c, g, w)))))

/-- Whether a launch that an error is stopping still issues at a warp: only where an error could come before the one raised; past its
time limit it does nowhere (R186; log 62). -/
def stillIssues (l : Launch) (r : WarpRef) : Bool :=
  match l.error with
  | none => true
  | some e => e.code != 7 && ({ code := 0, cluster := r.cluster, group := r.group, warp := r.warp, word := 0 } : KernelError).before
      { code := 0, cluster := e.cluster, group := e.group, warp := e.warp, word := 0 }

/-- Whether a tile has stopped its kernel warps: from 1.0 ms into a drain (Table 7-4 step 3). -/
def warpsStopped (s : State) (c : Cluster) : Bool :=
  match c.site with
  | some n => (tileAt s n).draining && (tileAt s n).drainAbandoned
  | none => true

/-- A warp that may issue: its cluster is on a site that has not stopped it, its launch goes on, and it neither waits at a barrier nor has exited. -/
def warpCtx (s : State) (r : WarpRef) : Option KCtx :=
  match warpAt s r with
  | some (l, c, g, w) =>
    if warpsStopped s c || c.saved || w.exited || w.waiting.isSome || !stillIssues l r then none
    else (l.kernel.code[w.pc]?).map (fun k => { ref := r, l, c, g, w, op := k.op, word := k.word.toNat })
  | none => none

/-- The cluster written back with a warp, its group and the tile store. -/
def State.putWarp (x : KCtx) (w : Warp) (g : Group) (store : List Host.Cell) (s : State) : State :=
  s.modLaunch x.ref.launch (fun l => { l with clusters := l.clusters.map (fun c =>
    if c.index = x.ref.cluster then { c with store, groups := setAt c.groups x.ref.group { g with warps := setAt g.warps x.ref.warp w } } else c) })

/-- The next instruction. -/
def Warp.next (w : Warp) : Warp := { w with pc := w.pc + 1, issued := w.issued + 1 }

/-- The warp moves on with nothing else changed. -/
def State.advance (x : KCtx) (w : Warp) (s : State) : State := s.putWarp x w.next x.g x.c.store

/-- A thread raises a kernel error at this instruction (R186). -/
def State.kernelFault (x : KCtx) (code : Nat) (s : State) : State :=
  s.kernelError x.ref.launch { code, cluster := x.ref.cluster, group := x.ref.group, warp := x.ref.warp, word := x.w.pc }

/-! ## Threads and registers (R153) -/

/-- A thread that is not there. -/
def noThread : Thread := { regs := [], preds := [] }

/-- Thread k of a warp. -/
def Warp.thread (w : Warp) (k : Nat) : Thread := w.threads.getD k noThread

/-- Whether a thread's predicate lets an instruction execute (Table 6-4). -/
def passes (word : Nat) (t : Thread) : Bool := t.preds.getD (kPred word) true != kNeg word

/-- The lanes that execute an instruction. -/
def KCtx.lanes (x : KCtx) : List Nat := (List.range 32).filter (fun k => x.w.active.getD k false && passes x.word (x.w.thread k))

/-- A register; g255 reads zero. -/
def Thread.reg (t : Thread) (r : Nat) : Nat := if r = 255 then 0 else (t.regs.getD r 0).toNat

/-- A 64-bit operand: a register and the next, low word first (R153); an odd register is taken as it stands (DESIGN CHOICE, log 84). -/
def Thread.reg64 (t : Thread) (r : Nat) : Nat := if r = 255 then 0 else t.reg r + 2 ^ 32 * t.reg (r + 1)

/-- n words from a register on, as a number; a register beyond the last reads zero (DESIGN CHOICE, log 84). -/
def Thread.words (t : Thread) (r : Nat) : Nat → Nat
  | 0 => 0
  | n + 1 => t.reg r + 2 ^ 32 * (if r = 255 then 0 else t.words (r + 1) n)

/-- n words of a number written from a register on; writes to g255 are discarded, and so are those beyond the last register (DESIGN CHOICE,
log 84). -/
def Thread.put (t : Thread) (r v : Nat) : Nat → Thread
  | 0 => t
  | n + 1 => if r = 255 then t else ({ t with regs := setAt t.regs r (BitVec.ofNat 32 v) } : Thread).put (r + 1) (v / 2 ^ 32) n

/-- A predicate written; p7 cannot be. -/
def Thread.putPred (t : Thread) (p : Nat) (b : Bool) : Thread := if p < 7 then { t with preds := setAt t.preds p b } else t

/-- The warp after each executing lane changed its thread. -/
def KCtx.each (x : KCtx) (f : Nat → Thread → Thread) : Warp :=
  let on := x.lanes
  { x.w with threads := (List.range x.w.threads.length).map (fun k => if on.contains k then f k (x.w.thread k) else x.w.thread k) }

/-- The lowest executing lane, whose registers a warp instruction reads (R164; DEDUCED for the others, log 8). -/
def KCtx.lead (x : KCtx) : Thread := x.w.thread (x.lanes.headD 0)

/-- A value that lane k's instruction takes and the manual does not give: the same wherever the launch's seed, instance number, code and the thread's
registers are, at the same place of the launch (R112, log 78). -/
def KCtx.open_ (x : KCtx) (k : Nat) : Nat :=
  (Config.kernelOpen ([x.l.seed.toNat, x.l.inst.toNat, x.ref.cluster, x.ref.group, x.ref.warp, x.w.issued, k]
    ++ x.l.kernel.code.map (fun o => o.word.toNat) ++ (x.w.thread k).regs.map (·.toNat))).toNat

/-- One instruction of a warp: it acts when the warp stands at such an operation; when no lane executes, only the pc moves. -/
def State.kernel {α : Type} (s : State) (r : WarpRef) (sel : KOp → Option α) (f : KCtx → α → State) : State :=
  match warpCtx s r with
  | none => s
  | some x => match sel x.op with
    | none => s
    | some a => if x.lanes.isEmpty then s.advance x x.w else f x a

/-- Selection of one operation. -/
def isOp (o : KOp) (k : KOp) : Option Unit := if k = o then some () else none

/-! ## Spaces (R156–R158, R178) -/

/-- Declared size of a space, or of the handle bound to a slot. -/
def spaceSize (s : State) (x : KCtx) (space slot : Nat) : Nat :=
  match space with
  | 0 => x.l.kernel.cellStore
  | 1 => x.l.kernel.tileStore
  | 3 => 256
  | _ => if (x.l.kernel.slots.getD slot (0, 0, 0)).2.1 = 0 then 0 else ((memHandle s (x.l.slots.getD slot 0)).map (·.size)).getD 0

/-- The error of one access: outside its space, misaligned, or a store to read-only space; where it is several, the lowest code (log 8). -/
def accessCode (s : State) (x : KCtx) (space slot off n : Nat) (write : Bool) : Option Nat :=
  if spaceSize s x space slot < off + n then some 1
  else if off % n ≠ 0 then some 2
  else if write && (space == 3 || (space == 2 && (x.l.kernel.slots.getD slot (0, 0, 0)).2.1 != 2)) then some 3
  else none

/-- The module addresses of a slot's bytes. -/
def slotPieces (s : State) (x : KCtx) (slot off n : Nat) : List Extent :=
  match memHandle s (x.l.slots.getD slot 0) with
  | some h => pieces h.extents off n
  | none => []

/-- Bytes read from a space. -/
def spaceRead (s : State) (x : KCtx) (space slot off n : Nat) : List Byte :=
  match space with
  | 0 => readBytes x.g.store off n
  | 1 => readBytes x.c.store off n
  | 3 => (slice off n x.l.params ++ List.replicate n 0).take n
  | _ => readPieces s.mem.cells (slotPieces s x slot off n)

/-- Writes to a space, in lane order, and the warp written back. -/
def State.spaceWrite (x : KCtx) (space slot : Nat) (l : List (Nat × List Byte)) (w : Warp) (s : State) : State :=
  let into (m : List Host.Cell) : List Host.Cell := l.foldl (fun m p => writeBytes m p.1 p.2) m
  match space with
  | 0 => s.putWarp x w { x.g with store := into x.g.store } x.c.store
  | 1 => s.putWarp x w x.g (into x.c.store)
  | _ => (l.foldl (fun t p => t.writeMem (slotPieces s x slot p.1 p.2.length) p.2) s).putWarp x w x.g x.c.store

/-- A global access to module memory that fails ends the launch with RESULT_SUSPECT (R257, R260). -/
def State.globalFails (x : KCtx) (src : Nat) (l : List Extent) (s : State) : State :=
  (s.reportAccess src l [x.ref.launch]).failWork x.ref.launch .resultSuspect src

/-- Accesses of n bytes at offsets of a space, which read, write or do both: the first error of a lane, or a failing place of module memory, or the rest;
the warp stalls while module memory makes an access wait (R264, R268), and a launch that an error is stopping makes no further store (R186). -/
def State.access (x : KCtx) (space slot n : Nat) (read write : Bool) (offs : List Nat) (s : State) (go : State → State) : State :=
  match offs.findSome? (fun o => accessCode s x space slot o n write) with
  | some e => s.kernelFault x e
  | none =>
    if space = 2 ∧ write = true ∧ x.l.error.isSome = true then s
    else if space = 2 then
      let l := offs.flatMap (fun o => slotPieces s x slot o n)
      if memWaitsBy s x.c.site l then s
      else match accessSource s x.c.site read l with
        | some src => s.globalFails x src l
        | none => go (s.touch false l)
    else go s

/-- Space code of MEM and ATOM. -/
def kSpace (w : Nat) : Nat := bits 19 18 w
/-- Slot of MEM and ATOM. -/
def kSlot (w : Nat) : Nat := bits 23 20 w
/-- Bytes of an access. -/
def kSize (w : Nat) : Nat := 2 ^ bits 15 13 w

/-- The byte offset a thread names: 64-bit in global space. -/
def Thread.addr (t : Thread) (word : Nat) : Nat := if kSpace word = 2 then t.reg64 (kSrc0 word) else t.reg (kSrc0 word)

/-! ## Control (R171, R172, R173) -/

/-- Lanes of a that are not in b. -/
def lanesLess (a b : List Bool) : List Bool := List.zipWith (fun x y => x && !y) a b

/-- A word index moved by a signed offset. -/
def jump (pc : Nat) (word : Nat) : Nat := ((pc : Int) + kTarget word).toNat

/-- A path has no thread left: the other path, or the threads that wait at the JOIN, go on; with none, the warp has exited (R171, R172). -/
def Warp.unwind (w : Warp) : List Diverged → Warp
  | [] => { w with stack := [], exited := true }
  | d :: t =>
    match d.other with
    | some (p, m) =>
      if m.any id then { w with pc := p, active := m, stack := { d with other := none } :: t }
      else if d.before.any id then { w with active := d.before, stack := t, pc := d.join } else w.unwind t
    | none => if d.before.any id then { w with active := d.before, stack := t, pc := d.join } else w.unwind t

/-- Threads that execute EXIT leave every mask. -/
def Warp.dropLanes (gone : List Bool) (w : Warp) : Warp :=
  { w with active := lanesLess w.active gone,
           stack := w.stack.map (fun d => { d with before := lanesLess d.before gone, other := d.other.map (fun p => (p.1, lanesLess p.2 gone)) }) }

/-- Warps that have arrived at a barrier: those that wait there and those that have exited (R172, R173). -/
def arrivals (l : List Warp) (id : Nat) : Nat := (l.filter (fun w => w.exited || (match w.waiting with | some (i, _) => i == id | none => false))).length

/-- Barriers whose count is reached release their warps. -/
def releaseBarriers (l : List Warp) : List Warp :=
  l.map (fun w => match w.waiting with
    | some (i, n) => if n ≤ arrivals l i then { w with waiting := none, pc := w.pc + 1 } else w
    | none => w)

/-- Barriers of a group are looked at; a cluster whose warps have all exited, with no copy in flight, has ended and its stores are lost (R157,
R172, R180). -/
def State.settleCluster (cid index : Nat) (s : State) : State :=
  let isOver (c : Cluster) : Bool := c.started && c.groups.all (fun g => g.warps.all (fun w => w.exited && w.copies.isEmpty))
  (s.modLaunch cid (fun l => { l with clusters := l.clusters.map (fun c =>
    if c.index ≠ index then c
    else
      let c1 : Cluster := { c with groups := c.groups.map (fun g => { g with warps := releaseBarriers g.warps }) }
      if isOver c1 then { c1 with ended := true, groups := [], store := [] } else c1) })).settleLaunch cid

/-- NOP (R162). -/
def execKernelNop (w : WarpRef) (s : State) : Host.Outcome State Fault Refusal :=
  .next (s.kernel w (isOp .nop) (fun x _ => s.advance x x.w))

/-- The JOIN that the branch at a word names: one of the code's, which is not given; none leaves the paths apart until they end (R171, log 8). -/
def joinNamed (code : List KWord) (pc : Nat) : Nat :=
  let js := (List.range code.length).filter (fun i => (code[i]?).any (fun k => k.op == .join))
  js.getD (Config.joinOf (code.map (·.word)) pc % js.length) code.length

/-- A path reaches the JOIN of its level: the other path runs first, then the threads of both go on, and with them the outer levels that share the
JOIN; a JOIN that the top level does not name is passed (R171). -/
def Warp.atJoin (dest : Nat) (w : Warp) : List Diverged → Warp
  | [] => { w with pc := dest, stack := [] }
  | d :: t =>
    if d.join ≠ w.pc then { w with pc := dest, stack := d :: t }
    else match d.other with
      | some (p, m) =>
        if m.any id then { w with pc := p, active := m, stack := { d with other := none } :: t } else { w with active := d.before }.atJoin dest t
      | none => { w with active := d.before }.atJoin dest t

/-- BRA: each thread on its predicate; paths that differ are run one after the other, the one that falls through first (R171, log 8). -/
def execBra (w : WarpRef) (s : State) : Host.Outcome State Fault Refusal :=
  .next (s.kernel w (isOp .bra) (fun x _ =>
    let on := x.lanes
    let taken := (List.range 32).map (fun k => on.contains k)
    let rest := lanesLess x.w.active taken
    let dest := jump x.w.pc x.word
    if !rest.any id then s.putWarp x { x.w with pc := dest } x.g x.c.store
    else if 32 ≤ x.w.stack.length then s.kernelFault x 4
    else s.putWarp x { x.w with pc := x.w.pc + 1, active := rest,
                                stack := { join := joinNamed x.l.kernel.code x.w.pc, other := some (dest, taken), before := x.w.active } :: x.w.stack } x.g x.c.store))

/-- JOIN: the paths of the branches that name it come together, and the warp goes on from its target (R171, log 8); one that no lane's predicate lets
execute only moves the pc (Table 6-4). -/
def execJoin (w : WarpRef) (s : State) : Host.Outcome State Fault Refusal :=
  .next (s.kernel w (isOp .join) (fun x _ => s.putWarp x (x.w.atJoin (jump x.w.pc x.word) x.w.stack) x.g x.c.store))

/-- EXIT: the executing threads end; a warp without threads has exited, and counts as arrived at every barrier (R172). -/
def execExit (w : WarpRef) (s : State) : Host.Outcome State Fault Refusal :=
  .next (s.kernel w (isOp .exit) (fun x _ =>
    let on := x.lanes
    let y := x.w.dropLanes ((List.range 32).map (fun k => on.contains k))
    let z := if y.active.any id then y.next else y.unwind y.stack
    (s.putWarp x z x.g x.c.store).settleCluster w.launch w.cluster))

/-- BAR: the warp waits until count warps of its group have arrived (R173). -/
def execBar (w : WarpRef) (s : State) : Host.Outcome State Fault Refusal :=
  .next (s.kernel w (isOp .bar) (fun x _ =>
    (s.putWarp x { x.w with waiting := some (bits 15 12 x.word, bits 11 5 x.word) } x.g x.c.store).settleCluster w.launch w.cluster))

/-- FENCE: accesses take effect in order here, so the warp goes on (R174). -/
def execFence (w : WarpRef) (s : State) : Host.Outcome State Fault Refusal :=
  .next (s.kernel w (isOp .fence) (fun x _ => s.advance x x.w))

/-- SREG: a special register of Table 6-2 (R152). -/
def execSreg (w : WarpRef) (s : State) : Host.Outcome State Fault Refusal :=
  .next (s.kernel w (fun o => match o with | .sreg k => some k | _ => none) (fun x k =>
    let value (lane : Nat) : Nat := match k with
      | 0 => lane | 1 => w.warp | 2 => w.group | 3 => w.cluster | 4 => x.l.kernel.warps | 5 => x.l.kernel.groups | 6 => x.l.clusterCount
      | 7 => x.l.seed.toNat % 2 ^ 32 | 8 => x.l.seed.toNat / 2 ^ 32 | _ => x.l.inst.toNat
    s.advance x (x.each (fun lane t => t.put (kDst x.word) (value lane) 1))))

/-! ## Integers and floating point (R129, R153, Table 6-5) -/

/-- A relation between two numbers of any order. -/
def relHolds (r : Rel) (lt eq : Bool) : Bool :=
  match r with
  | .eq => eq | .ne => !eq | .lt => lt | .le => lt || eq | .gt => !lt && !eq | .ge => !lt

/-- What an operation gives: a value, or a predicate. -/
inductive Lane where
  | value (v : Nat)
  | pred (b : Bool)
  deriving DecidableEq, Repr

/-- An integer operation of n bits; a shift by n or more is not given (log 78), and SELECT takes its first operand where the third is not 0 (DESIGN CHOICE,
log 84). -/
def intLane (o : IntOp) (n a b c open_ : Nat) : Lane :=
  let m := 2 ^ n
  let sa := toSigned n a
  let sb := toSigned n b
  match o with
  | .add => .value ((a + b) % m)
  | .sub => .value ((a + m - b) % m)
  | .mul => .value (a * b % m)
  | .mulHighU => .value (a * b / m)
  | .mulHighS => .value (ofSigned (2 * n) (sa * sb) / m)
  | .shl => .value (if b < n then a * 2 ^ b % m else open_ % m)
  | .shr => .value (if b < n then a / 2 ^ b else open_ % m)
  | .sar => .value (if b < n then ofSigned n (sa / (2 ^ b : Nat)) else open_ % m)
  | .and => .value (a &&& b)
  | .or => .value (a ||| b)
  | .xor => .value (a ^^^ b)
  | .not => .value (m - 1 - a)
  | .minU => .value (Nat.min a b)
  | .minS => .value (if sa < sb then a else b)
  | .maxU => .value (Nat.max a b)
  | .maxS => .value (if sa < sb then b else a)
  | .cmpU r => .pred (relHolds r (decide (a < b)) (a == b))
  | .cmpS r => .pred (relHolds r (decide (sa < sb)) (a == b))
  | .select => .value (if c = 0 then b else a)
  | .popcount => .value (total ((List.range n).map (fun k => bnat (bit k a))))

/-- A result written: a value to the register, a comparison to the predicate that the destination field names (log 8). -/
def Thread.result (t : Thread) (dst words : Nat) : Lane → Thread
  | .value v => t.put dst v words
  | .pred b => t.putPred dst b

/-- INT_OP (R153, R162): the register form in 32 or 64 bits, the immediate form in 32, whose third operand is 0 (DESIGN CHOICE, log 84). -/
def execIntOp (w : WarpRef) (op : IntOp) (s : State) : Host.Outcome State Fault Refusal :=
  .next (s.kernel w (isOp (.int op)) (fun x _ =>
    let d := x.word
    let wide := !kImm d && bits 7 0 d == 1
    let n := if wide then 64 else 32
    let rd (t : Thread) (r : Nat) : Nat := if wide then t.reg64 r else t.reg r
    let f (k : Nat) (t : Thread) : Thread :=
      let b := if kImm d then d % 2 ^ 32 else rd t (kSrc1 d)
      let c := if kImm d then 0 else rd t (kSrc2 d)
      t.result (kDst d) (n / 32) (intLane op n (rd t (kSrc0 d)) b c (x.open_ k))
    s.advance x (x.each f)))

/-- An FP32 operation (R129). -/
def fpLane (o : FpOp) (a b c : Nat) : Lane :=
  match o with
  | .add => .value (fadd a b) | .sub => .value (fsub a b) | .mul => .value (fmul a b) | .fma => .value (ffma a b c)
  | .div => .value (fdiv a b) | .sqrt => .value (fsqrt a) | .min => .value (fmin a b) | .max => .value (fmax a b)
  | .abs => .value (fabs a) | .neg => .value (fneg a)
  | .cmp r => .pred (if (fval a == .nan || fval b == .nan) then r == .ne else relHolds r ((fval a).lt (fval b)) ((fval a).eqv (fval b)))
  | .rsqrt => .value (vecFn .rsqrt a) | .exp => .value (vecFn .exp a) | .log => .value (vecFn .log a)
  | .tanh => .value (vecFn .tanh a) | .sigmoid => .value (vecFn .sigmoid a) | .gelu => .value (vecFn .gelu a)
  | .silu => .value (vecFn .silu a)

/-- FP_OP (R129, R162); the manual gives no 64-bit floating point, so what the 64-bit form writes is not given (log 78). The third operand of
the immediate form is 0 (DESIGN CHOICE, log 84). -/
def execFpOp (w : WarpRef) (op : FpOp) (s : State) : Host.Outcome State Fault Refusal :=
  .next (s.kernel w (isOp (.fp op)) (fun x _ =>
    let d := x.word
    let wide := !kImm d && bits 7 0 d == 1
    let f (k : Nat) (t : Thread) : Thread :=
      let b := if kImm d then d % 2 ^ 32 else t.reg (kSrc1 d)
      let c := if kImm d then 0 else t.reg (kSrc2 d)
      let open_ := x.open_ k
      match wide, fpLane op (t.reg (kSrc0 d)) b c with
      | false, r => t.result (kDst d) 1 r
      | true, .value _ => t.result (kDst d) 2 (.value open_)
      | true, .pred _ => t.result (kDst d) 2 (.pred (bit 0 open_))
    s.advance x (x.each f)))

/-! ## Conversions (R81–R87, R93, R170) -/

/-- Whether a type is an integer, which the 64-bit form widens (Table 6-6). -/
def cvtIsInt : CvtType → Bool | .u32 => true | .i32 => true | _ => false

/-- The value of an operand of a type; integers have n bits. -/
def cvtValue (n : Nat) (ty : CvtType) (v : Nat) : Num :=
  match ty with
  | .fp32 => decodeFloat fp32 v
  | .bf16 => decodeFloat bf16 (v % 65536)
  | .fp16 => decodeFloat fp16 (v % 65536)
  | .u32 => .fin false v 0
  | .i32 => .fin (decide (toSigned n v < 0)) (toSigned n v).natAbs 0

/-- A value as an integer of n bits: rounded, clamped where the conversion clips; otherwise a value outside the range, and NaN, are not given
(R85, R86, log 78). -/
def cvtInt (n : Nat) (signed : Bool) (c : Conv) (x : Num) (r open_ : Nat) : Nat :=
  let top : Int := if signed then 2 ^ (n - 1) - 1 else 2 ^ n - 1
  let low : Int := if signed then -(2 ^ (n - 1)) else 0
  match x with
  | .nan => open_ % 2 ^ n
  | .inf neg => if c.satFinite then ofSigned n (if neg then low else top) else open_ % 2 ^ n
  | .fin neg m e =>
    let k := roundUnits c.round neg m e 0 r
    let v : Int := if neg then -(k : Int) else k
    if low ≤ v ∧ v ≤ top then ofSigned n v else if clips c neg then ofSigned n (if neg then low else top) else open_ % 2 ^ n

/-- A value converted to an operand type. -/
def cvtTo (n : Nat) (ty : CvtType) (c : Conv) (x : Num) (r open_ : Nat) : Nat :=
  match ty with
  | .fp32 => toPlain fp32 c x r
  | .bf16 => toPlain bf16 c x r
  | .fp16 => toPlain fp16 c x r
  | .u32 => cvtInt n false c x r open_
  | .i32 => cvtInt n true c x r open_

/-- CVT: a scalar conversion under its conv byte, its integers of 32 or 64 bits; it carries no key, so the random bits of SR are not given (R81–R87, R90, log 78). -/
def execCvt (w : WarpRef) (src dst : CvtType) (s : State) : Host.Outcome State Fault Refusal :=
  .next (s.kernel w (isOp (.cvt src dst)) (fun x _ =>
    let d := x.word
    let c := (convOf (bits 15 8 d)).getD conv0
    let n := if bits 7 0 d = 1 then 64 else 32
    let words (ty : CvtType) : Nat := if cvtIsInt ty then n / 32 else 1
    let f (k : Nat) (t : Thread) : Thread :=
      let open_ := x.open_ k
      t.put (kDst d) (cvtTo n dst c (cvtValue n src (t.words (kSrc0 d) (words src))) (open_ % 65536) open_) (words dst)
    s.advance x (x.each f)))

/-- The random bits of R91 under a launch's key and a slot's tensor (R90, R93, R168). -/
def slotDraw (l : Launch) (slot : Nat) (c : Conv) (index : Nat) : Nat :=
  if c.round = .sr then srBits l.seed.toNat (l.kernel.slots.getD slot (0, 0, 0)).1 l.inst.toNat index else 0

/-- The elements and the scale that CVT.BLK makes of the executing lanes, the others padding (R170). -/
def cvtBlkImage (x : KCtx) : List Byte × List Byte :=
  let d := x.word
  let fmt := bits 11 8 d
  let on := x.lanes
  let vals := on.map (fun k => let t := x.w.thread k; (fval (t.reg (kSrc2 d)), slotDraw x.l (bits 15 12 d) ((convOf (bits 7 0 d)).getD conv0)
    (t.reg64 (kSrc1 d))))
  let b := encodeBlock ((fmtOf fmt).getD (.plain fp32)) ((convOf (bits 7 0 d)).getD conv0) vals
  let codes := (List.range 32).map (fun k => if on.contains k then b.2.getD (on.takeWhile (· != k)).length 0 else 0)
  (packElems (elemBits fmt) codes, leBytes 1 b.1)

/-- CVT.BLK: elements and scale go to cell store, where the first executing lane says (R170), aligned or not (log 46). -/
def execCvtBlk (w : WarpRef) (s : State) : Host.Outcome State Fault Refusal :=
  .next (s.kernel w (isOp .cvtBlk) (fun x _ =>
    let a := x.lead.reg (kSrc0 x.word)
    let p := x.lead.reg (kSrc0 x.word + 1)
    let img := cvtBlkImage x
    if x.l.kernel.cellStore < a + img.1.length ∨ x.l.kernel.cellStore < p + 1 then s.kernelFault x 1
    else s.spaceWrite x 0 0 [(a, img.1), (p, img.2)] x.w.next))

/-! ## Memory (R156–R161) -/

/-- LD (R158); a load of 1 or 2 B fills its register with zeros (DESIGN CHOICE, log 84). -/
def execLd (w : WarpRef) (s : State) : Host.Outcome State Fault Refusal :=
  .next (s.kernel w (isOp .ld) (fun x _ =>
    let d := x.word
    let n := kSize d
    s.access x (kSpace d) (kSlot d) n true false (x.lanes.map (fun k => (x.w.thread k).addr d)) (fun t =>
      t.advance x (x.each (fun _ t => t.put (kDst d) (leNat (spaceRead s x (kSpace d) (kSlot d) (t.addr d) n)) ((n + 3) / 4))))))

/-- ST (R158, R178). -/
def execSt (w : WarpRef) (s : State) : Host.Outcome State Fault Refusal :=
  .next (s.kernel w (isOp .st) (fun x _ =>
    let d := x.word
    let n := kSize d
    let stores := x.lanes.map (fun k => let t := x.w.thread k; (t.addr d, leBytes n (t.words (kSrc1 d) ((n + 3) / 4))))
    s.access x (kSpace d) (kSlot d) n false true (stores.map (·.1)) (fun t => t.spaceWrite x (kSpace d) (kSlot d) stores x.w.next)))

/-- The new value of an atomic operation on n bits. -/
def atomValue (o : AtomOp) (n old a b : Nat) : Nat :=
  match o with
  | .add => (old + a) % 2 ^ n
  | .minU => Nat.min old a
  | .minS => if toSigned n old < toSigned n a then old else a
  | .maxU => Nat.max old a
  | .maxS => if toSigned n old < toSigned n a then a else old
  | .and => old &&& a
  | .or => old ||| a
  | .xor => old ^^^ a
  | .exchange => a
  | .compareSwap => if old = a then b else old

/-- The bytes that a list of writes, newest first, leaves at an offset. -/
def lastWrite (l : List (Nat × List Byte)) (off : Nat) : Option (List Byte) := (l.find? (fun p => p.1 == off)).map (·.2)

/-- Atomic operations of the executing lanes, in lane order (log 8): the writes, newest first, and each lane's old value. -/
def atomFold (o : AtomOp) (n : Nat) (rd : Nat → List Byte) : List (Nat × Nat × Nat × Nat) → List (Nat × List Byte) × List (Nat × Nat) →
    List (Nat × List Byte) × List (Nat × Nat)
  | [], acc => acc
  | (k, off, a, b) :: t, acc =>
    let old := leNat ((lastWrite acc.1 off).getD (rd off))
    atomFold o n rd t ((off, leBytes n (atomValue o (8 * n) old a b)) :: acc.1, (k, old) :: acc.2)

/-- ATOM: integers of 4 and 8 B in tile store and global space; each lane gets the old value (R160). The operand of compare-and-swap is the
value compared, then the new one (log 8); another size or space is kernel error 1 (DESIGN CHOICE, log 84). -/
def execAtom (w : WarpRef) (op : AtomOp) (s : State) : Host.Outcome State Fault Refusal :=
  .next (s.kernel w (isOp (.atom op)) (fun x _ =>
    let d := x.word
    let n := kSize d
    let space := kSpace d
    if !(n == 4 || n == 8) || !(space == 1 || space == 2) then s.kernelFault x 1
    else
      let k4 := n / 4
      let ops := x.lanes.map (fun k => let t := x.w.thread k; (k, t.addr d, t.words (kSrc1 d) k4, t.words (kSrc1 d + k4) k4))
      s.access x space (kSlot d) n true true (ops.map (fun p => p.2.1)) (fun u =>
        let r := atomFold op n (fun o => spaceRead s x space (kSlot d) o n) ops ([], [])
        u.spaceWrite x space (kSlot d) r.1.reverse (x.each (fun k t => t.put (kDst d) ((lookupKey k r.2).getD 0) k4)).next)))

/-- MEM_COPY: a copy is issued; its registers are the global offset, the store offset and the length (R161, log 8); a
length or a space that R161 does not give is kernel error 1 (DESIGN CHOICE, log 84). -/
def execMemCopy (w : WarpRef) (s : State) : Host.Outcome State Fault Refusal :=
  .next (s.kernel w (fun o => match o with | .memCopy b k => some (b, k) | _ => none) (fun x a =>
    let d := x.word
    let off := x.lead.reg64 (kSrc0 d)
    let place := x.lead.reg (kSrc1 d)
    let len := x.lead.reg (kSrc1 d + 1)
    let slot := kSlot d
    let access := (x.l.kernel.slots.getD slot (0, 0, 0)).2.1
    if 1 < kSpace d ∨ len < 16 ∨ 2 ^ 20 < len ∨ spaceSize s x (kSpace d) slot < place + len ∨ spaceSize s x 2 slot < off + len then s.kernelFault x 1
    else if !a.1 && access != 2 then s.kernelFault x 3
    else
      let c : Copy := { counter := a.2, toStore := a.1, slot, offset := off, tile := kSpace d == 1, place, len }
      s.advance x { x.w with copies := x.w.copies ++ [c], counters := modAt x.w.counters a.2 (· + 1) }))

/-- MEM_COPY_DONE: the data of a copy have been written and its counter goes down (R161). -/
def execMemCopyDone (w : WarpRef) (copy : Nat) (s : State) : Host.Outcome State Fault Refusal :=
  match warpAt s w with
  | none => .next s
  | some (l, c, g, y) =>
    match y.copies[copy]? with
    | none => .next s
    | some q =>
      let x : KCtx := { ref := w, l, c, g, w := y, op := .nop, word := 0 }
      let z : Warp := { y with copies := y.copies.eraseIdx copy, counters := modAt y.counters q.counter (· - 1) }
      let store := bnat q.tile
      let into := slotPieces s x q.slot q.offset q.len
      if memWaitsBy s c.site into || (!q.toStore && l.error.isSome) then .next s
      else match accessSource s c.site q.toStore into with
      | some src => .next (s.globalFails x src into)
      | none =>
        let t := if q.toStore then (s.touch false into).spaceWrite x store 0 [(q.place, spaceRead s x 2 q.slot q.offset q.len)] z
                 else s.spaceWrite x 2 q.slot [(q.offset, spaceRead s x store 0 q.place q.len)] z
        .next (t.settleCluster w.launch w.cluster)

/-- WAIT_COPY: the warp stalls until the named counter is at or below the value (R161). -/
def execWaitCopy (w : WarpRef) (s : State) : Host.Outcome State Fault Refusal :=
  .next (s.kernel w (isOp .waitCopy) (fun x _ =>
    if x.w.counters.getD (bits 15 13 x.word) 0 ≤ bits 12 0 x.word then s.advance x x.w else s))

/-! ## Accumulator tiles (R154, R164–R169) -/

/-- Units of a tile. -/
def tileUnits (exact : Bool) : Nat := if exact then 12 else 1

/-- A tile cleared in a form. -/
def freshTile (base : Nat) (exact : Bool) : AccTile :=
  { base, exact, records := if exact then List.replicate 1024 Acc.empty else [], values := if exact then [] else List.replicate 1024 0 }

/-- The tiles of a group with one set; tiles that share a unit with it are gone. -/
def setTile (t : AccTile) (l : List AccTile) : List AccTile :=
  l.filter (fun u => decide (u.base + tileUnits u.exact ≤ t.base) || decide (t.base + tileUnits t.exact ≤ u.base)) ++ [t]

/-- The units of a tile. -/
def unitsFrom (base : Nat) (exact : Bool) : List Nat := (List.range (tileUnits exact)).map (base + ·)

/-- The tile at a base, of whichever form it was last zeroed in; units that nothing has written are zero since the group started, in the form the
instruction takes (R155; log 60). -/
def Group.tileAt (g : Group) (base : Nat) (exact : Bool) : Option AccTile :=
  match g.tiles.find? (fun t => t.base == base) with
  | some t => some t
  | none => if (unitsFrom base exact).any (g.written.contains ·) then none else some (freshTile base exact)

/-- A group's tile written, with the limit of R104; a Fast tile makes the launch one that did not run in Exact mode throughout (R96). -/
def State.putTile (x : KCtx) (t : AccTile) (s : State) : State :=
  if t.records.any (fun a => decide (contribLimit < a.count)) then s.endLaunch x.l .tooLarge
  else
    let w := unitsFrom t.base t.exact
    (s.putWarp x x.w.next { x.g with tiles := setTile t x.g.tiles, written := x.g.written ++ w.filter (fun u => !x.g.written.contains u) }
      x.c.store).modLaunch x.ref.launch (fun l => { l with ranFast := l.ranFast || !t.exact })

/-- The form a mode bit asks for (R96, R166). -/
def wantExact (s : State) (x : KCtx) (bit_ : Bool) : Bool := launchExact s x.l || !bit_

/-- Element bytes of one row of an operand, and its alignment (Table 3-4, R165). -/
def rowShape (fmt : Nat) : Nat × Nat :=
  if isBlock fmt then (blockBytes fmt, if elemBits fmt = 4 then 16 else if elemBits fmt = 6 then 8 else 32) else (64, 64)

/-- The elements of row r of an operand. -/
def operandRow (store : List Host.Cell) (fmt elems scales r : Nat) : List Elem :=
  if isBlock fmt then
    let b := readBytes store (elems + r * blockBytes fmt) (blockBytes fmt)
    let sc := (readByte store (scales + r)).toNat
    (List.range 32).map (fun k => (unpackElem (elemBits fmt) k b, sc))
  else (List.range 32).map (fun k => (leNat (readBytes store (elems + 64 * r + 2 * k) 2), 127))

/-- What is wrong with an operand's offsets, if anything: it leaves the cell store (error 1), or it is not aligned or has a scale offset where the format
has no scales (error 2); which code stands for which is a DESIGN CHOICE (log 84). -/
def operandCode (x : KCtx) (fmt elems scales : Nat) : Option Nat :=
  let (n, align) := rowShape fmt
  if x.l.kernel.cellStore < elems + 32 * n ∨ (isBlock fmt = true ∧ x.l.kernel.cellStore < scales + 32) then some 1
  else if elems % align ≠ 0 ∨ (isBlock fmt = false ∧ scales ≠ 0) then some 2
  else none

/-- One block step into an Exact element (R99, R100, R166). -/
def exactStep (fa fb : Nat) (l : List (Elem × Elem)) (a : Acc) : Acc :=
  if isBlock fa then
    a.blockProduct (elemWeight fa + elemWeight fb) ((l.head?.map (·.1.2)).getD 127) ((l.head?.map (·.2.2)).getD 127) (l.map (fun p => (elemNum fa p.1.1, elemNum fb p.2.1)))
  else l.foldl (fun acc p => acc.add ((elemNum fa p.1.1).mul (elemNum fb p.2.1))) a

/-- One block step into a Fast element (R89, R110). -/
def fastStep (fa fb : Nat) (l : List (Elem × Elem)) (w : Nat) : Nat :=
  match specialOf (l.map (fun p => (elemValue fa p.1).mul (elemValue fb p.2))) with
  | some .nan => nanCode fp32
  | some (.inf n) => fadd w (signCode fp32 n + infCode fp32)
  | _ => faddFinite w (fastGroup fa fb l)

/-- The tile after a step over all rows and columns, but for the element whose contribution is discarded, if any (R116). -/
def stepTile (skip : Option Nat) (fa fb : Nat) (as bs : List (List Elem)) (t : AccTile) : AccTile :=
  let pair (i : Nat) : List (Elem × Elem) := List.zip (as.getD (i / 32) []) (bs.getD (i % 32) [])
  if t.exact then
    { t with records := (List.range 1024).map (fun i =>
        let a := t.records.getD i Acc.empty
        if skip = some i then a else exactStep fa fb (pair i) a) }
  else { t with values := (List.range 1024).map (fun i => BitVec.ofNat 32 (fastStep fa fb (pair i) (t.values.getD i 0).toNat)) }

/-- The tile that ACC_STORE, ACC_EXPORT and ACC_MERGE act on: units that nothing has written are one only where such a tile may start (R154). -/
def KCtx.accTile (x : KCtx) (s : State) (base : Nat) : Option AccTile :=
  if x.g.tiles.any (fun t => t.base == base) || baseOk x.l.kernel.accUnits (launchExact s x.l) base then x.g.tileAt base (launchExact s x.l) else none

/-- The physical cell that a warp's group runs on, for reports. -/
def KCtx.physical (s : State) (x : KCtx) : Nat × Nat :=
  let n := x.c.site.getD 0
  (n, ((tileAt s n).logical[x.g.cell]?).getD 0)

/-- The element whose contribution a second mismatch or a failed piece check discards; the report does not name it (R116, log 47). -/
def skippedElement (s : State) (seen : Residue) : Option Nat :=
  if seen = .mismatch ∨ seen = .pieceCheck then some ((freshWord s).toNat % 1024) else none

/-- An event of the cell that a warp runs on (R114–R116). -/
def State.laneEvent (x : KCtx) (chk : Nat) (touched : List Nat) (s : State) : State :=
  let (n, k) := x.physical s
  s.capture [{ source := srcId 1 n chk, data := BitVec.ofNat 64 k, resource := some (.cell (Fin.ofNat 64 n) (Fin.ofNat 33 k)), touched }]

/-- The events of the residue lane of an Exact step, and the element whose contribution is discarded (R114–R116). -/
def State.residueEvents (x : KCtx) (residue : Residue) (s : State) : State × Option Nat :=
  let seen := injectedResidue s (x.physical s).1 residue
  match seen with
  | .clean => (s, none)
  | .retried => (s.laneEvent x 1 [], none)
  | .mismatch => ((s.laneEvent x 2 [x.ref.launch]).spend 1, skippedElement s seen)
  | .pieceCheck => ((s.laneEvent x 3 [x.ref.launch]).spend 1, skippedElement s seen)

/-- Whether the check of the k-th record from now on is inverted at the tile of a warp: once the first, continuously every one (R339, R508). -/
def KCtx.inverted (s : State) (x : KCtx) (k : Nat) : Bool :=
  match lookupKey (srcId 1 (x.physical s).1 4) s.flt.inject with
  | some mode => mode != 1 || k == 0
  | none => false

/-- A bin that does not agree with its residue, or a record that fails its checks (R109, R115). -/
def State.recordEvent (x : KCtx) (s : State) : State := s.laneEvent x 4 [x.ref.launch]

/-- MMA: one 32 × 32 × 32 block step (R164–R166); a second mismatch discards the contribution of one element (R116, log 47). An operand
that leaves the cell store is error 1, an accumulator base outside the group error 5 (DESIGN CHOICE, log 84). -/
def execMma (w : WarpRef) (residue : Residue) (s : State) : Host.Outcome State Fault Refusal :=
  .next (s.kernel w (isOp .mma) (fun x _ =>
    let d := x.word
    let t0 := x.w.thread 0
    let fa := bits 18 15 d
    let fb := bits 14 11 d
    let base := bits 23 19 d
    let exact := wantExact s x (bit 10 d)
    let ea := t0.reg (kSrc0 d)
    let sa := t0.reg (kSrc0 d + 1)
    let eb := t0.reg (kSrc1 d)
    let sb := t0.reg (kSrc1 d + 1)
    if x.lanes.length ≠ 32 ∨ baseOk x.l.kernel.accUnits exact base = false then s.kernelFault x 5
    else match operandCode x fa ea sa, operandCode x fb eb sb with
      | some e, _ => s.kernelFault x e
      | none, some e => s.kernelFault x e
      | none, none =>
        match (if bit 9 d then some (freshTile base exact) else x.g.tileAt base exact) with
        | none => s.kernelFault x 6
        | some t =>
          if t.exact ≠ exact then s.kernelFault x 6
          else
            let (s1, skip) := if exact then s.residueEvents x residue else (s, none)
            let as := (List.range 32).map (operandRow x.g.store fa ea sa)
            let bs := (List.range 32).map (operandRow x.g.store fb eb sb)
            s1.putTile x (stepTile skip fa fb as bs t)))

/-- ACC_ZERO: a tile is cleared and its form fixed (R168). -/
def execAccZero (w : WarpRef) (s : State) : Host.Outcome State Fault Refusal :=
  .next (s.kernel w (isOp .accZero) (fun x _ =>
    let exact := wantExact s x (bit 10 x.word)
    if baseOk x.l.kernel.accUnits exact (bits 15 11 x.word) then s.putTile x (freshTile (bits 15 11 x.word) exact) else s.kernelFault x 5))

/-- The value of a tile's element. -/
def AccTile.num (t : AccTile) (i : Nat) : Num := if t.exact then (t.records.getD i Acc.empty).value else fval (t.values.getD i 0).toNat

/-- A tile converted once into a row-major 32 × 32 array (R106, R168). -/
def accStoreImage (x : KCtx) (t : AccTile) : List Byte :=
  let d := x.word
  let fmt := bits 11 8 d
  let c := (convOf (bits 7 0 d)).getD conv0
  let index (i : Nat) : Nat := (x.lead.reg64 (kSrc1 d) + i / 32 * x.lead.reg (kSrc2 d) + i % 32) % 2 ^ 64
  let draw (i : Nat) : Nat := slotDraw x.l (bits 15 12 d) c (index i)
  packDense fmt 1 [32, 32] (match fmtOf fmt with
    | some (.plain f) => (List.range 1024).map (fun i => (toPlain f c (t.num i) (draw i), 127))
    | some f => (List.range 32).flatMap (fun r =>
        let b := encodeBlock f c ((List.range 32).map (fun k => (t.num (32 * r + k), draw (32 * r + k))))
        b.2.map (fun e => (e, b.1)))
    | none => [])

/-- ACC_STORE: a tile is converted into cell store (R106, R168), aligned or not (log 46); bins are checked first (R115). -/
def execAccStore (w : WarpRef) (s : State) : Host.Outcome State Fault Refusal :=
  .next (s.kernel w (isOp .accStore) (fun x _ =>
    match x.accTile s (kDst x.word) with
    | none => s.kernelFault x 6
    | some t =>
      let img := accStoreImage x t
      let a := x.lead.reg (kSrc0 x.word)
      if x.l.kernel.cellStore < a + img.length then s.kernelFault x 1
      else if t.exact && (!t.records.all Acc.residuesOk || x.inverted s 0) then (s.recordEvent x).spaceWrite x 0 0 [(a, img)] x.w.next
      else s.spaceWrite x 0 0 [(a, img)] x.w.next))

/-- The bytes of a tile: 1,024 records or FP32 values, row-major (R168). -/
def AccTile.image (t : AccTile) : List Byte := if t.exact then t.records.flatMap Acc.bytes else t.values.flatMap (fun v => leBytes 4 v.toNat)

/-- ACC_EXPORT (R168). -/
def execAccExport (w : WarpRef) (s : State) : Host.Outcome State Fault Refusal :=
  .next (s.kernel w (isOp .accExport) (fun x _ =>
    let d := x.word
    match x.accTile s (kDst d) with
    | none => s.kernelFault x 6
    | some t =>
      let a := x.lead.reg (kSrc0 d)
      let space := bits 15 14 d
      let img := t.image
      if spaceSize s x space 0 < a + img.length then s.kernelFault x 1 else s.spaceWrite x space 0 [(a, img)] x.w.next))

/-- A tile with the records or the FP32 values of a space merged in, and whether every record passed its checks (R108, R109, R168). -/
def mergeTile (s : State) (x : KCtx) (space a : Nat) (t : AccTile) : AccTile × Bool :=
  let part (n i : Nat) : List Byte := spaceRead s x space 0 (a + n * i) n
  if t.exact then
    let l := (List.range 1024).map (fun i =>
      let old := t.records.getD i Acc.empty
      let m := old.merge (accOf (part 48 i))
      if recordOk (part 48 i) && m.residuesOk && !x.inverted s i then (m, true) else (old, false))
    ({ t with records := l.map (·.1) }, l.all (·.2))
  else ({ t with values := (List.range 1024).map (fun i => BitVec.ofNat 32 (fadd (t.values.getD i 0).toNat (leNat (part 4 i)))) }, true)

/-- ACC_MERGE: records are merged into an Exact tile after their checks, FP32 values added into a Fast one; a record that fails is not merged and is
an S2 event (R108, R109, R168, R181). -/
def execAccMerge (w : WarpRef) (s : State) : Host.Outcome State Fault Refusal :=
  .next (s.kernel w (isOp .accMerge) (fun x _ =>
    match x.accTile s (kDst x.word) with
    | none => s.kernelFault x 6
    | some t =>
      let a := x.lead.reg (kSrc0 x.word)
      let space := bits 15 14 x.word
      let m := mergeTile s x space a t
      if spaceSize s x space 0 < a + 1024 * (if t.exact then 48 else 4) then s.kernelFault x 1
      else if m.2 then s.putTile x m.1
      else (s.recordEvent x).putTile x m.1))

/-- ACC_DEPOSIT: each executing thread's value is one contribution to the element its register names (R100, R169); under injection the piece check fails
at the first, which is discarded (R115, R116, R508). -/
def execAccDeposit (w : WarpRef) (s : State) : Host.Outcome State Fault Refusal :=
  .next (s.kernel w (isOp .accDeposit) (fun x _ =>
    let d := x.word
    match x.g.tileAt (kDst d) true with
    | none => s.kernelFault x 6
    | some t =>
      if !t.exact then s.kernelFault x 6
      else
        let bad := s.flt.injecting (srcId 1 (x.physical s).1 3)
        let s1 := if bad then s.laneEvent x 3 [x.ref.launch] else s
        s1.putTile x { t with records := (x.lanes.drop (bnat bad)).foldl (fun l k =>
          let y := x.w.thread k
          modAt l (y.reg (kSrc1 d) % 1024) (Acc.add (fval (y.reg (kSrc0 d))))) t.records }))

end Sys2Proof.Machine
end

