-- ==== Sys2Proof/Machine/Plans.lean ====
section
/-! DEFINITION. CELLARER_PLAN: one plan of the Cellarer (R190–R197, R201, R202, R208, R210, R212, R221). -/
namespace Sys2Proof.Machine

/-- Key/value bytes of a 50 ms period as a rate in GB/s (Table 7-3; log 29). -/
def kvRateOf (bytes : Nat) : Nat := bytes / 50000000

/-- The inputs of a plan (R192): pending work, or the first model's ratio at the first plan (R220), the block read rate, the loads, the heats. -/
def State.planInputs (loads : PlanLoads) (s : State) : State :=
  let w := (pendingWork s .mash, pendingWork s .draught)
  let r := if s.cel.plansMade = 0 then s.cel.ratio.getD w else w
  { s with cel := { s.cel with
      plan := (s.cel.plan + 1) % 2 ^ 32, plansMade := Nat.min 2 (s.cel.plansMade + 1), wMash := r.1, wDraught := r.2, kvRate := kvRateOf s.cel.kvRead,
      kvRead := 0, loads, moduleRole := s.cel.newRole.getD s.cel.moduleRole, newRole := none,
      blocks := s.cel.blocks.map (fun b => if b.sealed then { b with heat := b.heat / 2 } else b) } }

/-- The reports that PLACEMENT_QUERY gives until the next plan (R221). -/
def State.keepReports (s : State) : State :=
  let models := (List.range 64).filter (fun k => (modelAt s k).state != .empty)
  { s with cel := { s.cel with
      planModule := moduleReport s,
      planSessions := s.sessions.map (fun x => (x.handle, sessionReport s x.handle x)),
      planModels := models.map (fun k => let h := handleWord 0 (modelAt s k).gen k; (h, modelReport s h (modelAt s k))) } }

/-- CELLARER_PLAN: one plan (R193): inputs, roles, streaming, the key/value share, blocks (R192–R197, R206, R208, R210, R212), and new expanders join
(R270). -/
def execCellarerPlan (loads : PlanLoads) (s : State) : Host.Outcome State Fault Refusal :=
  if s.boot.ready = false then .next s
  else
    let s1 := s.planInputs loads
    let s2 : State := { s1 with cxl := s1.cxl.map (fun p => { p with planned := p.state == .inService }) }
    .next s2.planRoles.assignStreams.setShare.planBlocks.keepReports

end Sys2Proof.Machine
end

