-- ==== Sys2Proof/Machine/Scus.lean ====
section
/-! DEFINITION. Stream check units (Chapter 20). -/
namespace Sys2Proof.Machine

/-- A change of one unit. -/
def State.modScu (u : Nat) (f : Scu → Scu) (s : State) : State := { s with scu := modAt s.scu u f }

/-! ## The check code (R546) -/

/-- The low w bits of v in reverse order. -/
def reflect : Nat → Nat → Nat
  | 0, _ => 0
  | w + 1, v => (v % 2) * 2 ^ w + reflect w (v / 2)

/-- One bit of the register. -/
def scuBit (w poly reg : Nat) : Nat := if reg.testBit (w - 1) then ((2 * reg) ^^^ poly) % 2 ^ w else (2 * reg) % 2 ^ w

/-- One byte of a record. -/
def scuByte (x : Scu) (reg : Nat) (b : Byte) : Nat :=
  let w := x.width
  let c := if x.refin then reflect 8 b.toNat else b.toNat
  let step := scuBit w x.poly.toNat
  let r := reg ^^^ (c * 2 ^ (w - 8))
  step (step (step (step (step (step (step (step r)))))))

/-- The check code of a record. -/
def recordCrc (x : Scu) (bytes : List Byte) : Nat :=
  let reg := bytes.foldl (scuByte x) x.init.toNat
  (if x.refout then reflect x.width reg else reg) ^^^ x.xorout.toNat

/-! ## Enabling (R551) -/

/-- Byte offset of the alive field. -/
def Scu.aliveOffset (x : Scu) : Nat := bits 27 16 x.aliveReg.toNat
/-- Width of the alive field. -/
def Scu.aliveWidth (x : Scu) : Nat := bits 5 0 x.aliveReg.toNat
/-- Whether the tap is a DMA tap (Table 20-1). -/
def Scu.dmaTap (x : Scu) : Bool := decide (0x0A ≤ x.tap) && decide (x.tap ≤ 0x19)

/-- Whether a configuration may be enabled. -/
def Scu.valid (x : Scu) : Bool :=
  decide (8 ≤ x.width) && decide (x.width ≤ 64) && decide (x.poly.toNat < 2 ^ x.width) && decide (x.init.toNat < 2 ^ x.width)
  && decide (x.xorout.toNat < 2 ^ x.width) && decide (x.expect.toNat < 2 ^ x.width) && (x.fixed || x.dmaTap)
  && decide (1 ≤ x.aliveWidth) && decide (x.aliveWidth ≤ 32)

/-- The fields of a write of SCU_CTRL (Table 20-3). -/
def Scu.configure (v : Nat) (x : Scu) : Scu :=
  { x with tap := bits 29 25 v, site := bits 24 19 v, refin := bit 18 v, refout := bit 17 v, fixed := bit 16 v, captureExceptions := bit 15 v,
           eventMask := bits 14 11 v, compare := bit 10 v, aliveEnable := bit 9 v, width := bits 6 0 v }

/-- A unit started. -/
def Scu.start (x : Scu) : Scu :=
  { x with enable := true, configError := false, overrun := false, dropped := 0, fifo := [], records := 0, mismatches := 0, repeats := 0, skips := 0,
           aliveV := none, partialBytes := [] }

/-! ## Records (R547–R550, R552) -/

/-- The alive field of a record long enough to hold it. -/
def Scu.aliveField (x : Scu) (bytes : List Byte) : Option Nat :=
  if 8 * bytes.length < 8 * x.aliveOffset + x.aliveWidth then none else some (leNat (bytes.drop x.aliveOffset) % 2 ^ x.aliveWidth)

/-- How a record's alive field stands: (repeat, skip) (R548). -/
def Scu.aliveCheck (x : Scu) (bytes : List Byte) : Bool × Bool :=
  if !x.aliveEnable then (false, false)
  else match x.aliveField bytes, x.aliveV with
    | some f, some v => if f = (v + 1) % 2 ^ x.aliveWidth then (false, false) else if f = v then (true, false) else (false, true)
    | _, _ => (false, false)

/-- A saturating 32-bit count. -/
def sat32 (n : Nat) (b : Bool) : Nat := if b then satAdd n 1 (2 ^ 32 - 1) else n

/-- A record closes: counters, alive value, FIFO (R549). -/
def Scu.close (bytes : List Byte) (incomplete : Bool) (x : Scu) : Scu :=
  let v := recordCrc x bytes
  let miss := x.compare && v != x.expect.toNat
  let (rep, skip) := x.aliveCheck bytes
  let e : ScuEntry := { value := BitVec.ofNat 64 v, mismatch := miss, incomplete, repeat_ := rep, skip, length := Nat.min bytes.length (2 ^ 25 - 1) }
  let keep := !x.captureExceptions || miss || rep || skip || incomplete
  let full := decide (64 ≤ x.fifo.length)
  { x with records := sat32 x.records true, mismatches := sat32 x.mismatches miss, repeats := sat32 x.repeats rep, skips := sat32 x.skips skip,
           aliveV := if x.aliveEnable then (x.aliveField bytes).orElse (fun _ => x.aliveV) else x.aliveV,
           fifo := if keep && !full then x.fifo ++ [e] else x.fifo, dropped := if keep && full then satAdd x.dropped 1 65535 else x.dropped }

/-- A condition whose mask bit is set is an event (R552). -/
def State.scuCondition (u k : Nat) (s : State) : State :=
  if bit k (scuAt s u).eventMask then s.raise (srcId 0 0 (0x10 + u % 16)) (u + 256 * k) else s

/-- A record of unit u closes. -/
def State.closeRecord (u : Nat) (bytes : List Byte) (incomplete : Bool) (s : State) : State :=
  let x := scuAt s u
  let miss := x.compare && recordCrc x bytes != x.expect.toNat
  let (rep, skip) := x.aliveCheck bytes
  let s1 := s.modScu u (Scu.close bytes incomplete)
  let s2 := if miss then s1.scuCondition u 0 else s1
  let s3 := if rep then s2.scuCondition u 1 else s2
  if skip then s3.scuCondition u 2 else s3

/-- FIXED records of a stream closed one by one; what is left stays open (R547). -/
def closeFixed (u : Nat) (incomplete : Bool) : Nat → List Byte → State → State
  | 0, l, s => s.modScu u (fun x => { x with partialBytes := l })
  | fuel + 1, l, s =>
    let n := (scuAt s u).frame.toNat
    if n = 0 ∨ l.length < n then s.modScu u (fun x => { x with partialBytes := l })
    else closeFixed u incomplete fuel (l.drop n) (s.closeRecord u (l.take n) incomplete)

/-- A record still open when the unit stops is closed and incomplete (R547). -/
def State.stopScu (u : Nat) (s : State) : State :=
  let l := (scuAt s u).partialBytes
  let s1 := if l.isEmpty then s else s.closeRecord u l true
  s1.modScu u (fun x => { x with enable := false, partialBytes := [] })

/-- A write of SCU_CTRL (R551): while enabled it changes only enable. -/
def State.writeScuCtrl (u v : Nat) (s : State) : State :=
  if (scuAt s u).enable then (if bit 31 v then s else s.stopScu u)
  else
    let s1 := s.modScu u (Scu.configure v)
    if !bit 31 v then s1
    else if (scuAt s1 u).valid then s1.modScu u Scu.start
    else s1.modScu u (fun x => { x with configError := true })

/-- SCU_ENABLE: SCU_CTRL is written with enable 1 (R551). -/
def execScuEnable (u : ScuId) (value : Word) (s : State) : Host.Outcome State Fault Refusal := .next (s.writeScuCtrl u value.toNat)

/-- SCU_DISABLE: enable is written 0; an open record is closed and marked incomplete (R547, R551). -/
def execScuDisable (u : ScuId) (s : State) : Host.Outcome State Fault Refusal :=
  if (scuAt s u).enable then .next (s.stopScu u) else .next s

/-- Whether the tap of a unit delivers bytes: a mesh tap on an ISOLATED site, or on one in a partial reset, does not (R545). -/
def Scu.delivers (s : State) (x : Scu) : Bool :=
  x.tap < 0x1A || ((tileAt s x.site).state != .isolated && (tileAt s x.site).idValid)

/-- SCU_RECORD_CLOSE: bytes cross the tap; TRANSFER closes one record, incomplete when its command failed or the tap overran; FIXED closes
every whole record (R547–R550). -/
def execScuRecordClose (u : ScuId) (bytes : List Byte) (ok overrun : Bool) (s : State) : Host.Outcome State Fault Refusal :=
  let x := scuAt s u
  if !x.enable || !x.delivers s then .next s
  else
    let s1 := if overrun then (s.modScu u (fun x => { x with overrun := true })).scuCondition u 3 else s
    if x.fixed then .next (closeFixed u overrun (x.partialBytes.length + bytes.length + 1) (x.partialBytes ++ bytes) s1)
    else .next (s1.closeRecord u bytes (!ok || overrun))

/-- SCU_RESULT_INFO of an entry (Table 20-5). -/
def ScuEntry.info (e : ScuEntry) : Word :=
  BitVec.ofNat 32 (bnat e.mismatch * 2 ^ 31 + bnat e.incomplete * 2 ^ 30 + bnat e.repeat_ * 2 ^ 29 + bnat e.skip * 2 ^ 28 + e.length)

/-- SCU_RESULT_READ: a 64-bit read of SCU_RESULT removes the head entry; an empty FIFO reads 0 (R549). -/
def execScuResultRead (u : ScuId) (s : State) : Host.Outcome State Fault Refusal :=
  match (scuAt s u).fifo with
  | [] => .next ({ s.modScu u (fun x => { x with info := 0 }) with host := { s.host with readData := leBytes 8 0 } })
  | e :: t => .next ({ s.modScu u (fun x => { x with fifo := t, info := e.info }) with host := { s.host with readData := leBytes 8 e.value.toNat } })

end Sys2Proof.Machine
end

