-- ==== Sys2Proof/Machine/Registers.lean ====
section
/-! DEFINITION. Writes of BAR0 registers and accesses that no register answers (R13, R278, R492, R493, R496, R571–R575). -/
namespace Sys2Proof.Machine

/-! ## FLT_CLEAR (Table 17-6d) -/

/-- The first-fault registers at their reset values, armed (R493). -/
def State.rearm (s : State) : State :=
  { s with flt := { s.flt with firstSource := 0xFFFF, firstSeverity := 0, firstValid := false, firstInjected := false, merged := 0,
                               firstTime := 0, firstCycle := 0,
                               open_ := s.flt.open_.map (fun x => { x with holdsFirst := false }) },
           ret := { s.ret with faultList := s.flt.open_.map (fun x => { x with holdsFirst := false }) } }

/-- Every sticky bit cleared. -/
def State.clearSticky (s : State) : State := { s with flt := { s.flt with sticky := [] } }

/-- One sticky bit cleared. -/
def State.clearOne (src : Nat) (s : State) : State := { s with flt := { s.flt with sticky := without (· == src) s.flt.sticky } }

/-- FLT_CLEAR_REARM (R493). -/
def execFltClearRearm (s : State) : Host.Outcome State Fault Refusal := if hostReach s then .next s.rearm else .next s

/-- FLT_CLEAR_ALL (R496). -/
def execFltClearAll (s : State) : Host.Outcome State Fault Refusal := if hostReach s then .next s.clearSticky else .next s

/-- FLT_CLEAR_ONE (R496). -/
def execFltClearOne (source : BitVec 16) (s : State) : Host.Outcome State Fault Refusal :=
  if hostReach s then .next (s.clearOne source.toNat) else .next s

/-- A write of FLT_CLEAR: each of its bits acts. -/
def State.writeFltClear (v : Nat) (s : State) : State :=
  let s1 := if bit 31 v then s.rearm else s
  let s2 := if bit 30 v then s1.clearSticky else s1
  if bit 16 v then s2.clearOne (bits 15 0 v) else s2

/-! ## Register writes -/

/-- A 64-bit field with one 32-bit half written. -/
def putHalf (high : Bool) (v : Nat) (old : DWord) : DWord :=
  if high then BitVec.ofNat 64 (v % 2 ^ 32 * 2 ^ 32 + old.toNat % 2 ^ 32) else BitVec.ofNat 64 (old.toNat / 2 ^ 32 * 2 ^ 32 + v % 2 ^ 32)

/-- Bits 11:0 of a base are reserved (Table 10-5). -/
def baseMask (v : DWord) : DWord := v &&& 0xFFFFFFFFFFFFF000

/-- A write in a ring's block (R289, R291). -/
def State.writeRing (r off v : Nat) (s : State) : State :=
  let free := (ringAt s r).state == .disabled
  match off with
  | 0x00 => if free then s.modRing r (fun x => { x with sqBase := baseMask (putHalf false v x.sqBase) }) else s
  | 0x04 => if free then s.modRing r (fun x => { x with sqBase := putHalf true v x.sqBase }) else s
  | 0x08 => if free then s.modRing r (fun x => { x with cqBase := baseMask (putHalf false v x.cqBase) }) else s
  | 0x0C => if free then s.modRing r (fun x => { x with cqBase := putHalf true v x.cqBase }) else s
  | 0x10 => s.writeRingCtrl r v
  | 0x14 => s.modRing r (fun x => { x with irqEnable := bit 31 v, vector := bits 26 16 v, coalesceCount := bits 15 8 v, coalesceDelay := bits 7 0 v })
  | _ => s

/-- A write in a stream check unit's block (R551). -/
def State.writeScu (u off v : Nat) (s : State) : State :=
  let put (f : Scu → Scu) : State := if (scuAt s u).enable then s else s.modScu u f
  match off with
  | 0x00 => s.writeScuCtrl u v
  | 0x04 => put (fun x => { x with frame := BitVec.ofNat 32 v })
  | 0x08 => put (fun x => { x with poly := putHalf false v x.poly })
  | 0x0C => put (fun x => { x with poly := putHalf true v x.poly })
  | 0x10 => put (fun x => { x with init := putHalf false v x.init })
  | 0x14 => put (fun x => { x with init := putHalf true v x.init })
  | 0x18 => put (fun x => { x with xorout := putHalf false v x.xorout })
  | 0x1C => put (fun x => { x with xorout := putHalf true v x.xorout })
  | 0x20 => put (fun x => { x with expect := putHalf false v x.expect })
  | 0x24 => put (fun x => { x with expect := putHalf true v x.expect })
  | 0x28 => put (fun x => { x with aliveReg := BitVec.ofNat 32 (v % 2 ^ 28 / 65536 * 65536 + v % 64) })
  | 0x2C => if bit 31 v then s.modScu u (fun x => { x with overrun := false }) else s
  | _ => s

/-- A write of an MSI-X table word: bit 0 of vector control is the vector's mask (PCIe, R307); reserved bits are kept (log 38). -/
def State.writeMsix (k v : Nat) (s : State) : State :=
  let s1 : State := { s with host := { s.host with msixTable := setKey k (BitVec.ofNat 32 v) s.host.msixTable } }
  if k % 4 ≠ 3 then s1
  else if v % 2 = 1 then { s1 with host := { s1.host with vectorMask := addOnce (k / 4) s1.host.vectorMask } }
  else ({ s1 with host := { s1.host with vectorMask := without (· == k / 4) s1.host.vectorMask } } : State).flushVector (k / 4)

/-- Writing 1 to a bit of crc_failures clears it (R13, Table 12-6). -/
def clearCrc (v : Nat) (d : BundleDir) : BundleDir := { d with crcFailures := d.crcFailures &&& (255 - v % 256) }

/-- A 32-bit write to a mapped offset: the effect of its RW, RW1C and WO fields (R13). -/
def State.writeReg (off v : Nat) (s : State) : State :=
  if off = 0x14 then { s with boot := { s.boot with cause := s.boot.cause &&& ~~~(BitVec.ofNat 7 v) } }
  else if off = 0x18 then { s with boot := { s.boot with mask := BitVec.ofNat 7 v } }
  else if off = 0x3010 then s.writeFltClear v
  else if 0x1200 ≤ off ∧ off < 0x1240 then { s with hubBundles := modAt s.hubBundles ((off - 0x1200) / 4) (clearCrc v) }
  else if 0x2000 ≤ off ∧ off < 0x2400 then
    (if bit 23 v then s.modCxl ((off - 0x2000) / 0x100) (fun p => { p with surpriseRemoved := false }) else s)
  else if 0x4000 ≤ off ∧ off < 0x4800 then s.writeScu ((off - 0x4000) / 0x80) ((off - 0x4000) % 0x80) v
  else if 0x8000 ≤ off ∧ off < 0x10000 then s.writeMsix ((off - 0x8000) / 4) v
  else if 0x10000 ≤ off ∧ off < 0x14000 then s.writeRing ((off - 0x10000) / 0x40) ((off - 0x10000) % 0x40) v
  else if 0x400000 ≤ off ∧ off < 0x440000 then
    let w := (off - 0x400000) % 0x1000
    (if 0x200 ≤ w ∧ w < 0x240 then s.modTile ((off - 0x400000) / 0x1000) (fun t => { t with bundles := modAt t.bundles ((w - 0x200) / 4) (clearCrc v) })
     else s)
  else if 0x500000 ≤ off ∧ off < 0x518000 then
    let w := (off - 0x500000) % 0x1000
    let e := (off - 0x500000) / 0x1000
    (if 0x010 ≤ w ∧ w < 0x01C then s.modEngine e (fun x => { x with bundles := modAt x.bundles ((w - 0x10) / 4) (clearCrc v) })
     else if (w = 0x080 ∨ w = 0x084) ∧ bit 28 v = true then
       s.modEngine e (fun x => { x with lasers := modAt x.lasers ((w - 0x80) / 4) (fun l => { l with openFibre := false }) })
     else s)
  else s

/-- Whether a BAR0 access has a size and alignment that R278 takes. -/
def bar0Form (off size : Nat) : Bool := (size == 4 && off % 4 == 0) || (size == 8 && off % 8 == 0 && wideReg off)

/-- REGISTER_WRITE: a host write of BAR0 (R13, R278, R571); one that no register takes is discarded and counted. -/
def execRegisterWrite (offset size : Nat) (value : DWord) (s : State) : Host.Outcome State Fault Refusal :=
  if !hostReach s then .next s
  else if !bar0Form offset size || (bar0Word s offset).isNone then .next (s.badAccess 0)
  else if size = 8 then .next ((s.writeReg offset (value.toNat % 2 ^ 32)).writeReg (offset + 4) (value.toNat / 2 ^ 32))
  else .next (s.writeReg offset (value.toNat % 2 ^ 32))

/-- Whether an access to BAR0 or BAR2 is one that R278 and R571 record as invalid; reads of reserved BAR2 offsets return 0 and are not (R296). -/
def invalidAccess (s : State) (bar off size : Nat) : Bool :=
  if bar = 0 then !bar0Form off size || (bar0Word s off).isNone
  else if bar = 2 then !(size == 4 && off % 4 == 0)
  else false

/-- What a read that no register answers returns: all ones for a form R278 does not take, 0 for an unmapped offset (R571). -/
def invalidRead (bar off size : Nat) : List Byte :=
  if bar = 0 ∧ bar0Form off size = true then List.replicate size 0 else List.replicate size 0xFF

/-- BAR_ACCESS_INVALID: an access with a form or offset that no register takes is completed normally and recorded (R278, R571); an access of BAR2
that its form allows is not invalid: a read returns 0, for its doorbells are write-only and the rest is reserved (R13, R296). -/
def execBarAccessInvalid (bar offset size : Nat) (write : Bool) (s : State) : Host.Outcome State Fault Refusal :=
  if !hostReach s then .next s
  else if !invalidAccess s bar offset size then
    .next (if bar = 2 ∧ write = false then { s with host := { s.host with readData := List.replicate size 0 } } else s)
  else
    let s1 := s.badAccess 0
    if write then .next s1 else .next { s1 with host := { s1.host with readData := invalidRead bar offset size } }

end Sys2Proof.Machine
end

