-- ==== Sys2Proof/Machine/Waits.lean ====
section
/-! DEFINITION. What goes on once a channel has been retrained or a CXL link is back: the accesses that waited (R264, R268). -/
namespace Sys2Proof.Machine

/-- GDDR7_TRAINING_DONE: step 1 has read each device's identification and temperature; the site's window is mapped, zeroed at a start (R252, R263,
R274), or its memory is failed (R265); accesses that waited for the site go on (R264). -/
def execGddr7TrainingDone (site : SiteId) (failA failB : Bool) (idA idB tempA tempB : Nat) (s : State) : Host.Outcome State Fault Refusal :=
  let n := site.val
  let t := tileAt s n
  if t.state = .isolated ∨ t.memFailed = true then .next s
  else
    let s0 := ((s.noteTemps n tempA tempB).noteDevice (2 * n) idA).noteDevice (2 * n + 1) idB
    if failA || failB then .next (((s0.failMemory n (bnat failA + 2 * bnat failB)).atStep 7).resumeAll.settleRuns)
    else
      let s1 := if s.mem.trainedOnce.contains n then s0 else s0.loseBytes (siteBase n) siteUsable
      let s2 := s1.modTile n (fun t => { t with memInService := true, training := false })
      .next ((({ s2 with mem := { s2.mem with trainedOnce := addOnce n s2.mem.trainedOnce } } : State).atStep 7).resumeAll.settleRuns)

/-- CHANNEL_RETRAIN_DONE: the waiting accesses go on, or the site's memory is failed (R264, R265); while injection makes the retrain fail, the channel
stays out of service instead, until one passes (R510; log 82). -/
def execChannelRetrainDone (site : SiteId) (device : Fin 2) (channel : Fin 4) (ok : Bool) (s : State) : Host.Outcome State Fault Refusal :=
  if !retrainingNow s site device channel || (!ok && s.flt.injecting (srcId 3 site 2)) then .next s
  else
    let left := without (· == (site.val, device.val, channel.val)) s.mem.retraining
    let s1 : State := { s with mem := { s.mem with retraining := left } }
    let s2 := s1.modTile site (fun t => { t with training := left.any (fun x => x.1 == site.val) })
    .next ((if ok then s2 else s2.failMemory site (2 ^ device.val)).leaveBad.resumeAll.settleRuns)

/-- CXL_LINK_UP: the link trains; a new expander's discovery starts, also one that a link down had cut off (R267); a link that was down carries on,
and what waited for it with it (R268). -/
def execCxlLinkUp (p : PortId) (rate width : Nat) (capacity : Nat) (s : State) : Host.Outcome State Fault Refusal :=
  let x := cxlAt s p
  if !x.slotPower || x.linkUp || !cxlTrains rate width then .next s
  else if x.waiting && x.state != .empty then
    .next (s.modCxl p (fun x => { x with linkUp := true, rate, width, waiting := false })).leaveBad.settleRuns
  else .next (s.modCxl p (fun x => { x with linkUp := true, rate, width, capacity, waiting := false, discovering := true }))

end Sys2Proof.Machine
end

