-- ==== Sys2Proof/Machine/Dispatch.lean ====
section
/-! DEFINITION. Dispatch: one arm per command of the table. -/
namespace Sys2Proof.Machine

def exec (i : Instr) (s : State) : Host.Outcome State Fault Refusal :=
  match i with
  | .coldReset katOk idA idB => Sys2Proof.Machine.execColdReset katOk idA idB s
  | .powerDown => Sys2Proof.Machine.execPowerDown s
  | .warmReset => Sys2Proof.Machine.execWarmReset s
  | .perstDeassert => Sys2Proof.Machine.execPerstDeassert s
  | .functionLevelReset => Sys2Proof.Machine.execFunctionLevelReset s
  | .rowRelease row ageing => Sys2Proof.Machine.execRowRelease row ageing s
  | .tilePositionReport site straps => Sys2Proof.Machine.execTilePositionReport site straps s
  | .laneTest at_ failedHere failedThere fckOk flitsOk blockHere blockThere => Sys2Proof.Machine.execLaneTest at_ failedHere failedThere fckOk flitsOk blockHere blockThere s
  | .cellSetup site => Sys2Proof.Machine.execCellSetup site s
  | .cellSetupDone site failed => Sys2Proof.Machine.execCellSetupDone site failed s
  | .gddr7TrainingDone site failA failB idA idB tempA tempB => Sys2Proof.Machine.execGddr7TrainingDone site failA failB idA idB tempA tempB s
  | .moduleReady ms => Sys2Proof.Machine.execModuleReady ms s
  | .refclkLost => Sys2Proof.Machine.execRefclkLost s
  | .refclkRestored katOk idA idB => Sys2Proof.Machine.execRefclkRestored katOk idA idB s
  | .hubPllUnlock => Sys2Proof.Machine.execHubPllUnlock s
  | .tilePllUnlock site => Sys2Proof.Machine.execTilePllUnlock site s
  | .forwardedClockStop at_ => Sys2Proof.Machine.execForwardedClockStop at_ s
  | .enginePllUnlock e => Sys2Proof.Machine.execEnginePllUnlock e s
  | .tileRetire site routerOk => Sys2Proof.Machine.execTileRetire site routerOk s
  | .siteIsolate site => Sys2Proof.Machine.execSiteIsolate site s
  | .slotEnd site copyError => Sys2Proof.Machine.execSlotEnd site copyError s
  | .katResult site pass => Sys2Proof.Machine.execKatResult site pass s
  | .tileControllerWatchdog site => Sys2Proof.Machine.execTileControllerWatchdog site s
  | .coreWatchdog core => Sys2Proof.Machine.execCoreWatchdog core s
  | .cellarerPlan loads => Sys2Proof.Machine.execCellarerPlan loads s
  | .drainAbandon site => Sys2Proof.Machine.execDrainAbandon site s
  | .drainEnd site => Sys2Proof.Machine.execDrainEnd site s
  | .workUnitAssign unit rowLoads => Sys2Proof.Machine.execWorkUnitAssign unit rowLoads s
  | .workUnitComplete unit => Sys2Proof.Machine.execWorkUnitComplete unit s
  | .blockMoveSwitch move verified => Sys2Proof.Machine.execBlockMoveSwitch move verified s
  | .blockMoveSourceFree move => Sys2Proof.Machine.execBlockMoveSourceFree move s
  | .stripeReloadDone model ok => Sys2Proof.Machine.execStripeReloadDone model ok s
  | .shardPrefetch model layerShard => Sys2Proof.Machine.execShardPrefetch model layerShard s
  | .nop cid => Sys2Proof.Machine.execNop cid s
  | .identify cid => Sys2Proof.Machine.execIdentify cid s
  | .getStatus cid => Sys2Proof.Machine.execGetStatus cid s
  | .setFeatureBar4Aperture cid => Sys2Proof.Machine.execSetFeatureBar4Aperture cid s
  | .setFeatureCxlPortOffline cid => Sys2Proof.Machine.execSetFeatureCxlPortOffline cid s
  | .setFeaturePowerCap cid => Sys2Proof.Machine.execSetFeaturePowerCap cid s
  | .setFeatureThrottleStart cid => Sys2Proof.Machine.execSetFeatureThrottleStart cid s
  | .getFeature cid => Sys2Proof.Machine.execGetFeature cid s
  | .modelLoad cid manifest weights => Sys2Proof.Machine.execModelLoad cid manifest weights s
  | .modelLoadStage cid manifest weights => Sys2Proof.Machine.execModelLoadStage cid manifest weights s
  | .modelUnload cid => Sys2Proof.Machine.execModelUnload cid s
  | .modelEpochCommit cid => Sys2Proof.Machine.execModelEpochCommit cid s
  | .modelQuery cid => Sys2Proof.Machine.execModelQuery cid s
  | .sessionOpen cid => Sys2Proof.Machine.execSessionOpen cid s
  | .sessionClose cid => Sys2Proof.Machine.execSessionClose cid s
  | .prefill cid binds => Sys2Proof.Machine.execPrefill cid binds s
  | .prefillRebuild cid binds => Sys2Proof.Machine.execPrefillRebuild cid binds s
  | .decode cid binds => Sys2Proof.Machine.execDecode cid binds s
  | .sessionSnapshot cid => Sys2Proof.Machine.execSessionSnapshot cid s
  | .sessionRestore cid image => Sys2Proof.Machine.execSessionRestore cid image s
  | .sessionRestoreRemote cid => Sys2Proof.Machine.execSessionRestoreRemote cid s
  | .sessionMigrate cid => Sys2Proof.Machine.execSessionMigrate cid s
  | .migrationJoinTimeout cid => Sys2Proof.Machine.execMigrationJoinTimeout cid s
  | .migrationImageReceived cid image => Sys2Proof.Machine.execMigrationImageReceived cid image s
  | .migrationReady cid => Sys2Proof.Machine.execMigrationReady cid s
  | .migrationRefusal cid status => Sys2Proof.Machine.execMigrationRefusal cid status s
  | .migrationCommit cid => Sys2Proof.Machine.execMigrationCommit cid s
  | .migrationDone cid => Sys2Proof.Machine.execMigrationDone cid s
  | .migrationDoneTimeout cid => Sys2Proof.Machine.execMigrationDoneTimeout cid s
  | .migrationCommitResend session => Sys2Proof.Machine.execMigrationCommitResend session s
  | .migrationTargetTimeout cid => Sys2Proof.Machine.execMigrationTargetTimeout cid s
  | .graphLoad cid image => Sys2Proof.Machine.execGraphLoad cid image s
  | .graphRun cid binds participants => Sys2Proof.Machine.execGraphRun cid binds participants s
  | .collectiveJoinTimeout cid => Sys2Proof.Machine.execCollectiveJoinTimeout cid s
  | .matmul run op residue => Sys2Proof.Machine.execMatmul run op residue s
  | .batchMatmul run op residue => Sys2Proof.Machine.execBatchMatmul run op residue s
  | .attention run op residue => Sys2Proof.Machine.execAttention run op residue s
  | .add run op => Sys2Proof.Machine.execAdd run op s
  | .sub run op => Sys2Proof.Machine.execSub run op s
  | .mul run op => Sys2Proof.Machine.execMul run op s
  | .div run op => Sys2Proof.Machine.execDiv run op s
  | .fma run op => Sys2Proof.Machine.execFma run op s
  | .max run op => Sys2Proof.Machine.execMax run op s
  | .min run op => Sys2Proof.Machine.execMin run op s
  | .abs run op => Sys2Proof.Machine.execAbs run op s
  | .neg run op => Sys2Proof.Machine.execNeg run op s
  | .exp run op => Sys2Proof.Machine.execExp run op s
  | .log run op => Sys2Proof.Machine.execLog run op s
  | .sqrt run op => Sys2Proof.Machine.execSqrt run op s
  | .rsqrt run op => Sys2Proof.Machine.execRsqrt run op s
  | .tanh run op => Sys2Proof.Machine.execTanh run op s
  | .sigmoid run op => Sys2Proof.Machine.execSigmoid run op s
  | .gelu run op => Sys2Proof.Machine.execGelu run op s
  | .silu run op => Sys2Proof.Machine.execSilu run op s
  | .clamp run op => Sys2Proof.Machine.execClamp run op s
  | .reduceSum run op => Sys2Proof.Machine.execReduceSum run op s
  | .reduceMax run op => Sys2Proof.Machine.execReduceMax run op s
  | .reduceMin run op => Sys2Proof.Machine.execReduceMin run op s
  | .softmax run op => Sys2Proof.Machine.execSoftmax run op s
  | .layernorm run op => Sys2Proof.Machine.execLayernorm run op s
  | .rmsnorm run op => Sys2Proof.Machine.execRmsnorm run op s
  | .convert run op => Sys2Proof.Machine.execConvert run op s
  | .transpose run op => Sys2Proof.Machine.execTranspose run op s
  | .reshape run op => Sys2Proof.Machine.execReshape run op s
  | .slice run op => Sys2Proof.Machine.execSlice run op s
  | .concat run op => Sys2Proof.Machine.execConcat run op s
  | .gather run op => Sys2Proof.Machine.execGather run op s
  | .hashPartition run op => Sys2Proof.Machine.execHashPartition run op s
  | .sort run op => Sys2Proof.Machine.execSort run op s
  | .joinProbe run op => Sys2Proof.Machine.execJoinProbe run op s
  | .stringSimilarity run op => Sys2Proof.Machine.execStringSimilarity run op s
  | .filter run op => Sys2Proof.Machine.execFilter run op s
  | .tableGather run op => Sys2Proof.Machine.execTableGather run op s
  | .allReduce run op parts => Sys2Proof.Machine.execAllReduce run op parts s
  | .reduceScatter run op parts => Sys2Proof.Machine.execReduceScatter run op parts s
  | .allGather run op parts => Sys2Proof.Machine.execAllGather run op parts s
  | .broadcast run op root => Sys2Proof.Machine.execBroadcast run op root s
  | .finalise run op => Sys2Proof.Machine.execFinalise run op s
  | .recordMerge run op elem record => Sys2Proof.Machine.execRecordMerge run op elem record s
  | .kernelLoad cid image => Sys2Proof.Machine.execKernelLoad cid image s
  | .kernelLaunch cid slots params => Sys2Proof.Machine.execKernelLaunch cid slots params s
  | .kernelTimeLimit cid => Sys2Proof.Machine.execKernelTimeLimit cid s
  | .kernelNop w => Sys2Proof.Machine.execKernelNop w s
  | .bra w => Sys2Proof.Machine.execBra w s
  | .join w => Sys2Proof.Machine.execJoin w s
  | .exit w => Sys2Proof.Machine.execExit w s
  | .intOp w op => Sys2Proof.Machine.execIntOp w op s
  | .fpOp w op => Sys2Proof.Machine.execFpOp w op s
  | .cvt w src dst => Sys2Proof.Machine.execCvt w src dst s
  | .cvtBlk w => Sys2Proof.Machine.execCvtBlk w s
  | .ld w => Sys2Proof.Machine.execLd w s
  | .st w => Sys2Proof.Machine.execSt w s
  | .memCopy w => Sys2Proof.Machine.execMemCopy w s
  | .memCopyDone w copy => Sys2Proof.Machine.execMemCopyDone w copy s
  | .waitCopy w => Sys2Proof.Machine.execWaitCopy w s
  | .atom w op => Sys2Proof.Machine.execAtom w op s
  | .mma w residue => Sys2Proof.Machine.execMma w residue s
  | .accZero w => Sys2Proof.Machine.execAccZero w s
  | .accStore w => Sys2Proof.Machine.execAccStore w s
  | .accExport w => Sys2Proof.Machine.execAccExport w s
  | .accMerge w => Sys2Proof.Machine.execAccMerge w s
  | .accDeposit w => Sys2Proof.Machine.execAccDeposit w s
  | .bar w => Sys2Proof.Machine.execBar w s
  | .fence w => Sys2Proof.Machine.execFence w s
  | .sreg w => Sys2Proof.Machine.execSreg w s
  | .dmaCopy cid source => Sys2Proof.Machine.execDmaCopy cid source s
  | .memAlloc cid => Sys2Proof.Machine.execMemAlloc cid s
  | .memFree cid => Sys2Proof.Machine.execMemFree cid s
  | .rolePlan cid => Sys2Proof.Machine.execRolePlan cid s
  | .placementQuery cid => Sys2Proof.Machine.execPlacementQuery cid s
  | .selftestSummary cid => Sys2Proof.Machine.execSelftestSummary cid s
  | .selftestFull cid ms found => Sys2Proof.Machine.execSelftestFull cid ms found s
  | .marginTest cid eyes => Sys2Proof.Machine.execMarginTest cid eyes s
  | .faultInject cid => Sys2Proof.Machine.execFaultInject cid s
  | .logRead cid => Sys2Proof.Machine.execLogRead cid s
  | .settingsRead cid => Sys2Proof.Machine.execSettingsRead cid s
  | .settingsWrite cid image => Sys2Proof.Machine.execSettingsWrite cid image s
  | .attest cid => Sys2Proof.Machine.execAttest cid s
  | .restart cid => Sys2Proof.Machine.execRestart cid s
  | .restartForce cid => Sys2Proof.Machine.execRestartForce cid s
  | .shutdown cid => Sys2Proof.Machine.execShutdown cid s
  | .shutdownForce cid => Sys2Proof.Machine.execShutdownForce cid s
  | .ringEnable ring value => Sys2Proof.Machine.execRingEnable ring value s
  | .ringDisable ring value => Sys2Proof.Machine.execRingDisable ring value s
  | .submissionTailDoorbell ring value => Sys2Proof.Machine.execSubmissionTailDoorbell ring value s
  | .completionHeadDoorbell ring value => Sys2Proof.Machine.execCompletionHeadDoorbell ring value s
  | .descriptorFetch ring desc => Sys2Proof.Machine.execDescriptorFetch ring desc s
  | .fenceRelease cid => Sys2Proof.Machine.execFenceRelease cid s
  | .commandComplete cid => Sys2Proof.Machine.execCommandComplete cid s
  | .irqCoalesceTimeout ring => Sys2Proof.Machine.execIrqCoalesceTimeout ring s
  | .msixUnmask vector => Sys2Proof.Machine.execMsixUnmask vector s
  | .bar4Read offset size => Sys2Proof.Machine.execBar4Read offset size s
  | .bar4Write offset data => Sys2Proof.Machine.execBar4Write offset data s
  | .barAccessInvalid bar offset size write => Sys2Proof.Machine.execBarAccessInvalid bar offset size write s
  | .registerWrite offset size value => Sys2Proof.Machine.execRegisterWrite offset size value s
  | .fltClearRearm => Sys2Proof.Machine.execFltClearRearm s
  | .fltClearAll => Sys2Proof.Machine.execFltClearAll s
  | .fltClearOne source => Sys2Proof.Machine.execFltClearOne source s
  | .hostMasterResume => Sys2Proof.Machine.execHostMasterResume s
  | .hostLinkDown => Sys2Proof.Machine.execHostLinkDown s
  | .hostLinkRetrain width rate => Sys2Proof.Machine.execHostLinkRetrain width rate s
  | .hostReadCompletion req outcome => Sys2Proof.Machine.execHostReadCompletion req outcome s
  | .hostCompletionTimeout req => Sys2Proof.Machine.execHostCompletionTimeout req s
  | .gddr7Read site offset by_ cid errors edcFails => Sys2Proof.Machine.execGddr7Read site offset by_ cid errors edcFails s
  | .gddr7Write site offset data by_ cid errors edcFails => Sys2Proof.Machine.execGddr7Write site offset data by_ cid errors edcFails s
  | .scrubGroup site device found => Sys2Proof.Machine.execScrubGroup site device found s
  | .gddr7Refresh site device bank => Sys2Proof.Machine.execGddr7Refresh site device bank s
  | .gddr7TempRead site tempA tempB => Sys2Proof.Machine.execGddr7TempRead site tempA tempB s
  | .recentre site device channel => Sys2Proof.Machine.execRecentre site device channel s
  | .channelRetrainDone site device channel ok => Sys2Proof.Machine.execChannelRetrainDone site device channel ok s
  | .cxlPresenceDetect p => Sys2Proof.Machine.execCxlPresenceDetect p s
  | .cxlLinkUp p rate width capacity => Sys2Proof.Machine.execCxlLinkUp p rate width capacity s
  | .cxlDiscoveryDone p => Sys2Proof.Machine.execCxlDiscoveryDone p s
  | .cxlLinkDown p => Sys2Proof.Machine.execCxlLinkDown p s
  | .cxlAccessTimeout p cid => Sys2Proof.Machine.execCxlAccessTimeout p cid s
  | .cxlLinkDownTimeout p => Sys2Proof.Machine.execCxlLinkDownTimeout p s
  | .cxlEventLogPoll p events => Sys2Proof.Machine.execCxlEventLogPoll p events s
  | .cxlAttentionButton p => Sys2Proof.Machine.execCxlAttentionButton p s
  | .cxlAttentionLedTimeout p => Sys2Proof.Machine.execCxlAttentionLedTimeout p s
  | .cxlEvacuationDone p => Sys2Proof.Machine.execCxlEvacuationDone p s
  | .cxlSurpriseRemoval p => Sys2Proof.Machine.execCxlSurpriseRemoval p s
  | .dataFlitReceive link slot flit => Sys2Proof.Machine.execDataFlitReceive link slot flit s
  | .linkFlitReceive link slot flit => Sys2Proof.Machine.execLinkFlitReceive link slot flit s
  | .fillerFlitReceive link slot flit => Sys2Proof.Machine.execFillerFlitReceive link slot flit s
  | .linkFlitTimer link => Sys2Proof.Machine.execLinkFlitTimer link s
  | .replayTimerExpiry link age => Sys2Proof.Machine.execReplayTimerExpiry link age s
  | .nakResend link => Sys2Proof.Machine.execNakResend link s
  | .inlineCheckDone at_ failed => Sys2Proof.Machine.execInlineCheckDone at_ failed s
  | .phaseTrack at_ moves => Sys2Proof.Machine.execPhaseTrack at_ moves s
  | .frameTransmit e => Sys2Proof.Machine.execFrameTransmit e s
  | .frameReceive e fibre lambda bits => Sys2Proof.Machine.execFrameReceive e fibre lambda bits s
  | .pause e slot dir => Sys2Proof.Machine.execPause e slot dir s
  | .resume e slot dir => Sys2Proof.Machine.execResume e slot dir s
  | .map e slot dir fibre lambda effective => Sys2Proof.Machine.execMap e slot dir fibre lambda effective s
  | .rateWidth e rate width dir effective => Sys2Proof.Machine.execRateWidth e rate width dir effective s
  | .effectiveFrame e dir => Sys2Proof.Machine.execEffectiveFrame e dir s
  | .liveChangeTimeout e dir => Sys2Proof.Machine.execLiveChangeTimeout e dir s
  | .ffeReq e ring post action => Sys2Proof.Machine.execFfeReq e ring post action s
  | .ffeAck e ring pre post limit => Sys2Proof.Machine.execFfeAck e ring pre post limit s
  | .hello e word => Sys2Proof.Machine.execHello e word s
  | .train e step status rate passing => Sys2Proof.Machine.execTrain e step status rate passing s
  | .bringupTimeout e => Sys2Proof.Machine.execBringupTimeout e s
  | .bringupRetry e => Sys2Proof.Machine.execBringupRetry e s
  | .portAbsentListen e heard => Sys2Proof.Machine.execPortAbsentListen e heard s
  | .idleFreeze e => Sys2Proof.Machine.execIdleFreeze e s
  | .trainingBlock e ring => Sys2Proof.Machine.execTrainingBlock e ring s
  | .linkErrorBucket e positions => Sys2Proof.Machine.execLinkErrorBucket e positions s
  | .routeRestore e => Sys2Proof.Machine.execRouteRestore e s
  | .transactionRequest e message => Sys2Proof.Machine.execTransactionRequest e message s
  | .transactionResponse message => Sys2Proof.Machine.execTransactionResponse message s
  | .requestTimeout slot => Sys2Proof.Machine.execRequestTimeout slot s
  | .requestRetry slot => Sys2Proof.Machine.execRequestRetry slot s
  | .cacheEntryExpiry unit source slot => Sys2Proof.Machine.execCacheEntryExpiry unit source slot s
  | .leaseKeepaliveSend => Sys2Proof.Machine.execLeaseKeepaliveSend s
  | .leaseKeepalive source operand => Sys2Proof.Machine.execLeaseKeepalive source operand s
  | .leaseExpiry source => Sys2Proof.Machine.execLeaseExpiry source s
  | .elsPresence port gridOk toneOk => Sys2Proof.Machine.execElsPresence port gridOk toneOk s
  | .elsMonitorPoll port failed => Sys2Proof.Machine.execElsMonitorPoll port failed s
  | .elsInterrupt port failed => Sys2Proof.Machine.execElsInterrupt port failed s
  | .elsTimeout port => Sys2Proof.Machine.execElsTimeout port s
  | .ringIdentityCheck e r dominant => Sys2Proof.Machine.execRingIdentityCheck e r dominant s
  | .ringLockLost e r => Sys2Proof.Machine.execRingLockLost e r s
  | .slotErrorBurst e slot => Sys2Proof.Machine.execSlotErrorBurst e slot s
  | .ringLocked e r heater dominant tonePresent => Sys2Proof.Machine.execRingLocked e r heater dominant tonePresent s
  | .relockTimeout e r tonePresent => Sys2Proof.Machine.execRelockTimeout e r tonePresent s
  | .ringRetry e r ok tonePresent heater => Sys2Proof.Machine.execRingRetry e r ok tonePresent heater s
  | .feedForwardUpdate e => Sys2Proof.Machine.execFeedForwardUpdate e s
  | .ringSweep e orders => Sys2Proof.Machine.execRingSweep e orders s
  | .laserExcursion e f power => Sys2Proof.Machine.execLaserExcursion e f power s
  | .laserLow e f power lost => Sys2Proof.Machine.execLaserLow e f power lost s
  | .laserRestore e f => Sys2Proof.Machine.execLaserRestore e f s
  | .openFibre e f => Sys2Proof.Machine.execOpenFibre e f s
  | .spareMarginTest e r height width => Sys2Proof.Machine.execSpareMarginTest e r height width s
  | .sensorSample die readings => Sys2Proof.Machine.execSensorSample die readings s
  | .thermalCeilingUpdate site => Sys2Proof.Machine.execThermalCeilingUpdate site s
  | .issueRateStep site => Sys2Proof.Machine.execIssueRateStep site s
  | .powerTelemetrySample watts ok => Sys2Proof.Machine.execPowerTelemetrySample watts ok s
  | .powerLoop meanWatts => Sys2Proof.Machine.execPowerLoop meanWatts s
  | .overcurrentTrip => Sys2Proof.Machine.execOvercurrentTrip s
  | .thermalTrip sensor reading => Sys2Proof.Machine.execThermalTrip sensor reading s
  | .backstopTrip sensor reading => Sys2Proof.Machine.execBackstopTrip sensor reading s
  | .tripSensorPoll hottest => Sys2Proof.Machine.execTripSensorPoll hottest s
  | .tripRestart katOk idA idB => Sys2Proof.Machine.execTripRestart katOk idA idB s
  | .thermalShutdown sensor reading => Sys2Proof.Machine.execThermalShutdown sensor reading s
  | .inputRangeTrip => Sys2Proof.Machine.execInputRangeTrip s
  | .inputRangeRestart katOk idA idB => Sys2Proof.Machine.execInputRangeRestart katOk idA idB s
  | .flashWritesRefused => Sys2Proof.Machine.execFlashWritesRefused s
  | .flashWritesAllowed => Sys2Proof.Machine.execFlashWritesAllowed s
  | .ageingPoint die slowdown => Sys2Proof.Machine.execAgeingPoint die slowdown s
  | .opticalPoint e r point => Sys2Proof.Machine.execOpticalPoint e r point s
  | .faultCapture events => Sys2Proof.Machine.execFaultCapture events s
  | .faultStateRestExpiry res => Sys2Proof.Machine.execFaultStateRestExpiry res s
  | .logRecordTimeout => Sys2Proof.Machine.execLogRecordTimeout s
  | .flashOpDone flash ok => Sys2Proof.Machine.execFlashOpDone flash ok s
  | .scuEnable u value => Sys2Proof.Machine.execScuEnable u value s
  | .scuDisable u => Sys2Proof.Machine.execScuDisable u s
  | .scuRecordClose u bytes ok overrun => Sys2Proof.Machine.execScuRecordClose u bytes ok overrun s
  | .scuResultRead u => Sys2Proof.Machine.execScuResultRead u s
  | .smbusBlockRead code => Sys2Proof.Machine.execSmbusBlockRead code s
  | .i3cPrivateRead code => Sys2Proof.Machine.execI3cPrivateRead code s
  | .smbusAlertResponse => Sys2Proof.Machine.execSmbusAlertResponse s
  | .sidebandRefresh => Sys2Proof.Machine.execSidebandRefresh s
  | .standbySupplyLoss => Sys2Proof.Machine.execStandbySupplyLoss s
  | .standbySupplyReturn => Sys2Proof.Machine.execStandbySupplyReturn s
  | .configurationWrite change => Sys2Proof.Machine.execConfigurationWrite change s
  | .wireFillerError at_ wire => Sys2Proof.Machine.execWireFillerError at_ wire s
  | .cxlMemReadResponse p cid poisoned => Sys2Proof.Machine.execCxlMemReadResponse p cid poisoned s

end Sys2Proof.Machine
end

