-- ==== Sys2Proof/Machine/Idle.lean ====
section
/-! DEFINITION. What passes while no command waits: operating time. -/
namespace Sys2Proof.Machine

/-- Failed flits of the last millisecond are forgotten (R367). -/
def BundleDir.quiet (d : BundleDir) : BundleDir := { d with recentFails := 0 }

/-- One second with no command: operating time counts while power-good is asserted (R12, log 19), and launches that an error has stopped are
complete (R186; log 62). -/
def State.idle (s : State) : State :=
  let s := s.endStopped
  if s.pins.pwrgd then
    { s with ret := if s.ret.powered then { s.ret with opTime := (s.ret.opTime + 1) % 2 ^ 32 } else s.ret,
             tiles := s.tiles.map (fun t => { t with bundles := t.bundles.map BundleDir.quiet }),
             hubBundles := s.hubBundles.map BundleDir.quiet,
             engines := s.engines.map (fun x => { x with bundles := x.bundles.map BundleDir.quiet }) }
  else s

end Sys2Proof.Machine
end

