-- ==== Sys2Proof/Safety.lean ====
section
/-! DEFINITION. What statements are said with: the parts of the state, what it means that a step changes only some of them, and the form that
every step keeps. -/
namespace Sys2Proof
open Machine

/-- The parts of the state: its fields, with the bytes of the two memory tiers apart from what else the memory system holds, the command
table apart from what else the host link holds, and the interrupt causes apart from what else start-up holds; `stop` stands for an S3 stop (R490),
listed where a step may lead to one. -/
inductive Part where
  | pending | pins | ret | boot | cause | settings | boardOk | flashA | flashB | log | sec | flt | svc | tiles | hubBundles | engines | els
  | th | cel | host | cmds | mem | bytes | cxl | models | sessions | sessionGen | migs | graphs | graphGen | kernels | kernelGen | runs
  | launches | trans | scu | sb | free | stop
  deriving DecidableEq, Repr

/-- One part of t is as it is in s; memory is compared byte by byte, through the read of a byte. -/
def Part.same : Part → State → State → Prop
  | .pending, s, t => t.pending = s.pending
  | .pins, s, t => t.pins = s.pins
  | .ret, s, t => t.ret = s.ret
  | .boot, s, t => ({ t.boot with cause := 0 } : Boot) = { s.boot with cause := 0 }
  | .cause, s, t => t.boot.cause = s.boot.cause
  | .settings, s, t => t.settings = s.settings
  | .boardOk, s, t => t.boardOk = s.boardOk
  | .flashA, s, t => t.flashA = s.flashA
  | .flashB, s, t => t.flashB = s.flashB
  | .log, s, t => t.log = s.log
  | .sec, s, t => t.sec = s.sec
  | .flt, s, t => t.flt = s.flt
  | .svc, s, t => t.svc = s.svc
  | .tiles, s, t => t.tiles = s.tiles
  | .hubBundles, s, t => t.hubBundles = s.hubBundles
  | .engines, s, t => t.engines = s.engines
  | .els, s, t => t.els = s.els
  | .th, s, t => t.th = s.th
  | .cel, s, t => t.cel = s.cel
  | .host, s, t => ({ t.host with cmds := [] } : HostLink) = { s.host with cmds := [] }
  | .cmds, s, t => t.host.cmds = s.host.cmds
  | .mem, s, t => ({ t.mem with cells := [] } : MemSys) = { s.mem with cells := [] }
  | .bytes, s, t => ∀ a, readByte t.mem.cells a = readByte s.mem.cells a
  | .cxl, s, t => t.cxl = s.cxl
  | .models, s, t => t.models = s.models
  | .sessions, s, t => t.sessions = s.sessions
  | .sessionGen, s, t => t.sessionGen = s.sessionGen
  | .migs, s, t => t.migs = s.migs
  | .graphs, s, t => t.graphs = s.graphs
  | .graphGen, s, t => t.graphGen = s.graphGen
  | .kernels, s, t => t.kernels = s.kernels
  | .kernelGen, s, t => t.kernelGen = s.kernelGen
  | .runs, s, t => t.runs = s.runs
  | .launches, s, t => t.launches = s.launches
  | .trans, s, t => t.trans = s.trans
  | .scu, s, t => t.scu = s.scu
  | .sb, s, t => t.sb = s.sb
  | .free, s, t => t.free = s.free
  | .stop, _, _ => True

/-- The parts that an S3 stop changes (R490), beside those of the command that led to it. -/
def stopParts : List Part :=
  [.pins, .ret, .boot, .flashA, .flashB, .log, .tiles, .engines, .els, .cmds, .mem, .bytes, .runs, .launches]

/-- The form that every step keeps: memory in its canonical form, the panel and its devices in their numbers (R21, R376, R266, R544), and
a module that is down is not ready (R346, R490). -/
structure Inv (s : State) : Prop where
  memory : Memory.wf s.mem.cells = true
  tiles : s.tiles.length = 64
  hubBundles : s.hubBundles.length = 16
  engines : s.engines.length = 24
  els : s.els.length = 6
  cxl : s.cxl.length = 4
  models : s.models.length = 64
  scu : s.scu.length = 16
  down : s.boot.down = true → s.boot.ready = false

/-- An S3 stop holds the module (R490): the sticky bit is set and the module is down. -/
def Machine.State.halted (s : State) : Bool := s.boot.stopped && s.boot.down

/-- From s to t only the listed parts change; where `stop` is listed and the step stopped the module (R490), the parts of `stopParts` may
change too. A stop and the state of being down stay, and so does the form of the state. -/
structure Frame (ps : List Part) (s t : State) : Prop where
  stopped : s.boot.stopped = true → t.boot.stopped = true
  down : s.boot.down = true → t.boot.down = true
  kept : ∀ p, p ∉ ps → (Part.stop ∈ ps → t.halted = false) → p.same s t
  stop : ∀ p, p ∉ ps → p ∉ stopParts → p.same s t
  inv : Inv s → Inv t

/-! ## How a command completes -/

/-- A bundle end that is in the panel's lists. -/
def HasEnd (s : State) : BundleEnd → Prop
  | .tile n i => n.val < s.tiles.length ∧ i.val < (tileAt s n).bundles.length
  | .hub b => b.val < s.hubBundles.length
  | .engine e k => e.val < s.engines.length ∧ k.val < (engineAt s e).bundles.length

/-- A link end that is in the panel's lists. -/
def HasLink (s : State) : LinkRef → Prop
  | .bundle b => HasEnd s b
  | .optical e => e.val < s.engines.length

/-- A ring that is in an engine's list. -/
def HasRing (s : State) (e : EngineId) (r : OeRing) : Prop := e.val < s.engines.length ∧ r.val < (engineAt s e).rings.length

/-- Whether no other ring of the bus has reported a tone at a higher code: none of them is found on a wrong channel by it (R389). -/
def ToneAlone (x : Engine) (r heater : Nat) (tone : Option (Fin 18)) : Prop :=
  ∀ k < 18, k ≠ r % 18 → ∀ n : Fin 18, tone = some n → (waveRing x (r / 18 * 18 + k)).tone = some n.val → (waveRing x (r / 18 * 18 + k)).toneCode ≤ heater

/-- The heater code of a ring after a feed-forward update, its own loop included (R386, R398). -/
def heaterNext (s : State) (e r : Nat) : Int :=
  let q := waveRing (engineAt s e) r
  heaterMoved s e q (if q.state = .locked ∨ q.state = .paused then Config.ringLoop (s.free + r) else 0)

/-- A laser input, and the port of its engine, in their lists. -/
def HasLaser (s : State) (e : EngineId) (f : Fin 2) : Prop :=
  s.engines.length = 24 ∧ s.els.length = 6 ∧ f.val < (engineAt s e).lasers.length

/-- A laser input of an engine. -/
def laserOf (s : State) (e f : Nat) : LaserInput := (engineAt s e).lasers.getD f LaserInput.reset

/-- The record of a port's ELS. -/
def elsOf (s : State) (p : Nat) : Els := s.els.getD p { present := false, matched := false, modes := [], failed := [] }

/-- A ring that carries nothing: retired, failed or dark. -/
def ringOut (x : Engine) (r : Nat) : Prop :=
  (waveRing x r).state = .retired ∨ (waveRing x r).state = .failed ∨ (waveRing x r).state = .dark

/-- The command answers a next state, and P holds there. -/
def Answers (c : Instr) (s : State) (P : State → Prop) : Prop := ∃ t, exec c s = .next t ∧ P t

/-- What a report to the fault collector may change (R491–R494): its registers, the log, the flashes, marks of commands, the cause. -/
def eventParts : List Part := [.ret, .cause, .flashA, .flashB, .log, .flt, .host, .cmds]

/-- What the loss of a site or of a memory place may change, beside the report of it: placed data and the work that used it. -/
def lossParts : List Part := [.cel, .mem, .bytes, .models, .sessions, .sessionGen, .migs, .runs, .launches]

/-- What the panel and its links hold. -/
def linkParts : List Part := [.tiles, .hubBundles, .engines, .trans]

/-- In every state the command answers a next state, and only the listed parts have changed. -/
def Confined (ps : List Part) (c : Instr) : Prop := ∀ s, Answers c s (Frame ps s)

/-- Entry c of the command table may act as opcode op, and no checker has marked what it consumes. -/
def Acts (s : State) (cid op : Nat) (c : Cmd) : Prop := actable s cid op = some c ∧ c.marked = none

/-- Entry c may act as opcode op, and may read host memory: the host is open, and nothing ahead of it waits at such a read (R280, log 68). -/
def ActsReading (s : State) (cid op : Nat) (c : Cmd) : Prop := Acts s cid op c ∧ hostOpen s = true ∧ readsAhead s c true = false

/-- Entry c of the command table has not ended, and no checker has marked what it consumes. -/
def Live (s : State) (cid : Nat) (c : Cmd) : Prop := cmdAt s cid = some c ∧ c.done = none ∧ c.marked = none

/-- No operation of the command's run has failed, and no error has stopped its launch: such a first cause would decide how the command ends
(R148, R352). -/
def NoneFailed (s : State) (cid : Nat) : Prop :=
  (∀ r, runOf s cid = some r → r.opsFailed = []) ∧ ∀ l, launchOf s cid = some l → l.error = none

/-- Fewer than four control cores are in service: the S3 stop of R485. -/
def quorumLost (t : State) : Bool := decide (8 - t.flt.coresRetired.length < 4)

/-- The EDC check of an access to a site's memory keeps failing, or injection makes every attempt fail (R264, R508). -/
def edcHeld (s : State) (site fails : Nat) : Bool :=
  decide (4 < fails) || (lookupKey (srcId 3 site 2) s.flt.inject).any (· != 1)

/-- The entry has ended with a status and result bytes. -/
def Ended (t : State) (cid : Nat) (st : Status) (result : List Byte) : Prop :=
  ((cmdAt t cid).bind (·.done)).map (fun d => (d.status, d.result)) = some (st, result)

/-- The entry has ended with a status. -/
def EndedAs (t : State) (cid : Nat) (st : Status) : Prop := ((cmdAt t cid).bind (·.done)).map (·.status) = some st

/-- What the entry's end writes to the host. -/
def Wrote (t : State) (cid : Nat) (l : List (Nat × List Byte)) : Prop := ((cmdAt t cid).bind (·.done)).map (·.writes) = some l

/-- An address outside some pieces of memory. -/
def Outside (l : List Extent) (a : Nat) : Prop := ∀ e ∈ l, a < e.base ∨ e.base + e.len ≤ a

/-- The command answers a next state, in which every byte outside the pieces reads as before. -/
def StoresIn (l : List Extent) (c : Instr) (s : State) : Prop :=
  Answers c s (fun t => ∀ a, Outside l a → readByte t.mem.cells a = readByte s.mem.cells a)

/-- The rows that take the module's power or clock away, or start it as after a cold reset. -/
def coldRow : Instr → Prop
  | .coldReset .. | .powerDown | .refclkLost | .refclkRestored .. | .hubPllUnlock | .overcurrentTrip | .thermalTrip .. | .backstopTrip ..
  | .tripRestart .. | .inputRangeTrip | .inputRangeRestart .. => True
  | _ => False

/-! ## How an operation of a run completes -/

/-- The inputs of an operation. -/
def opInputs (r : Run) (o : OpDesc) : List TensorDesc := o.ins.filterMap (findTensor r.graph.tensors)

/-- The outputs of an operation. -/
def opOutputs (r : Run) (o : OpDesc) : List TensorDesc := o.outs.filterMap (findTensor r.graph.tensors)

/-- A run with one more operation ended, and its outputs. -/
def Machine.Run.after (r : Run) (op : Nat) (outs : List TensorVal) : Run := { r with vals := r.vals ++ outs, opsDone := r.opsDone ++ [op] }

/-- The operation that a row names, run from u: where its inputs are complete and f computes its outputs, they are kept, and the operation has
ended; where it is the last of a run that is no step and no place that it writes to has to wait, the run ends with OK or OK_SPILLED, and memory
holds its TEMP tensors in their places and its OUTPUT tensors in their handles (R144, R147, R148). -/
def ComputesFrom (s u : State) (row : Instr) (run op code : Nat) (f : OpEnv → List Operand → List TensorDesc → OpResult) : Prop :=
  ∀ r o ins outs, opReady u run op code = some (r, o) → fetchAll u r op (opInputs r o) = .ok ins →
    f (envOf u r o) ins (opOutputs r o) = .ok outs →
    memWaits u (newTemps r ((((u.noteReads r op (opInputs r o)).spend (2 ^ 48)).modRun run
      (fun q => q.after op outs)).putTemps run (opSite u run op) r.graph.tensors outs)) = false →
    Answers row s (fun t =>
      (openOps (r.after op outs) ≠ [] → (runOf t run).map (fun q => (q.vals, q.opsDone)) = some ((r.after op outs).vals, (r.after op outs).opsDone))
      ∧ (∀ c, Live u run c → openOps (r.after op outs) = [] → r.opsFailed = [] → requestsOf u run = [] → r.session = none →
          memWaits u (outputPieces u r) = false → accessSource u none false (outputPieces u r) = none →
          (EndedAs t run .ok ∨ EndedAs t run .okSpilled) ∧ runOf t run = none
            ∧ t.mem.cells = (State.writeOutputs (r.after op outs) (u.putTemps run (opSite u run op) r.graph.tensors outs)).mem.cells))

/-- An operation that needs nothing from other modules. -/
def Computes (row : Nat → Nat → Instr) (code : Nat) (f : OpEnv → List Operand → TensorDesc → OpResult) : Prop :=
  ∀ s run op, ComputesFrom s s (row run op) run op code (one f)

/-- The event that the residue lane of an operation's cell reports (Table 4-3). -/
def laneEvent (s : State) (run op check : Nat) (touched : List Nat) : FaultEvent :=
  { source := srcId 1 (cellOf s run op).1 check, data := BitVec.ofNat 64 (cellOf s run op).2,
    resource := some (.cell (Fin.ofNat 64 (cellOf s run op).1) (Fin.ofNat 33 (cellOf s run op).2)), touched }

/-- A run with one more operation failed. -/
def Machine.Run.failing (r : Run) (op source : Nat) : Run := { r with opsFailed := r.opsFailed ++ [(op, .resultSuspect, source)] }

/-- An operation of the matrix unit, under each report of its residue lane: none, or none that counts in the fast form; a mismatch whose repeat
matched; and one that did not, or a failed piece check, which the operation does not outlive (R114-R116); under injection the lane reports its own
event (R508). -/
def MatrixComputes (row : Nat → Nat → Residue → Instr) (code : Nat) (f : OpEnv → List Operand → TensorDesc → OpResult) : Prop :=
  (∀ s run op residue, (injectedResidue s (cellOf s run op).1 residue = .clean ∨ ∀ r o, opReady s run op code = some (r, o) → opExact s r.graph o = false) →
      ComputesFrom s s (row run op residue) run op code (one f))
  ∧ (∀ s run op residue r o ins, opReady s run op code = some (r, o) → opExact s r.graph o = true → fetchAll s r op (opInputs r o) = .ok ins →
      injectedResidue s (cellOf s run op).1 residue = .retried →
      ComputesFrom s (s.capture [laneEvent s run op 1 []]) (row run op residue) run op code (one f))
  ∧ (∀ s run op residue check r o ins q, opReady s run op code = some (r, o) → opExact s r.graph o = true →
      fetchAll s r op (opInputs r o) = .ok ins → ((injectedResidue s (cellOf s run op).1 residue = .mismatch ∧ check = 2)
        ∨ (injectedResidue s (cellOf s run op).1 residue = .pieceCheck ∧ check = 3)) →
      q = r.failing op (laneEvent s run op check [run]).source →
      Answers (row run op residue) s (fun t => (laneEvent s run op check [run]).source ∈ t.flt.sticky
        ∧ (openOps q ≠ [] → (runOf t run).map (·.opsFailed) = some q.opsFailed)
        ∧ (∀ c, Live s run c → openOps q = [] → (∀ x ∈ r.opsFailed, op < x.1) → runOf t run = none ∧ EndedAs t run .resultSuspect)))

/-! ## How an instruction of a kernel completes -/

/-- A warp stands at an operation that some of its threads execute. -/
def Issues (s : State) (r : WarpRef) (o : KOp) (x : KCtx) : Prop := warpCtx s r = some x ∧ x.op = o ∧ x.lanes ≠ []

/-- The row of the instruction that a warp stands at. -/
def RowOf (r : WarpRef) (o : KOp) (c : Instr) : Prop :=
  (o = .nop ∧ c = .kernelNop r) ∨ (o = .bra ∧ c = .bra r) ∨ (o = .exit ∧ c = .exit r) ∨ (∃ p, o = .int p ∧ c = .intOp r p)
    ∨ (∃ p, o = .fp p ∧ c = .fpOp r p) ∨ (∃ p q, o = .cvt p q ∧ c = .cvt r p q) ∨ (o = .cvtBlk ∧ c = .cvtBlk r) ∨ (o = .ld ∧ c = .ld r)
    ∨ (o = .st ∧ c = .st r) ∨ (∃ p q, o = .memCopy p q ∧ c = .memCopy r) ∨ (∃ p, o = .atom p ∧ c = .atom r p) ∨ (∃ p, o = .mma ∧ c = .mma r p)
    ∨ (o = .accZero ∧ c = .accZero r) ∨ (o = .accStore ∧ c = .accStore r) ∨ (o = .accExport ∧ c = .accExport r) ∨ (o = .accMerge ∧ c = .accMerge r)
    ∨ (o = .accDeposit ∧ c = .accDeposit r) ∨ (o = .bar ∧ c = .bar r) ∨ (o = .fence ∧ c = .fence r) ∨ (o = .waitCopy ∧ c = .waitCopy r)
    ∨ (∃ p, o = .sreg p ∧ c = .sreg r) ∨ (o = .join ∧ c = .join r)

/-- The warp of a reference, with its group. -/
def WarpIs (t : State) (r : WarpRef) (P : Warp → Group → Prop) : Prop := ∃ q, warpAt t r = some q ∧ P q.2.2.2 q.2.2.1

/-- The tile store of the cluster of a reference. -/
def TileStoreIs (t : State) (r : WarpRef) (m : List Host.Cell) : Prop := (warpAt t r).map (fun q => q.2.1.store) = some m

/-- The warp has gone to its next instruction, each executing lane's thread changed by f and nothing else. -/
def Stepped (x : KCtx) (f : Nat → Thread → Thread) (w : Warp) : Prop :=
  w = { x.w with pc := x.w.pc + 1, issued := x.w.issued + 1, threads := w.threads } ∧ w.threads.length = x.w.threads.length
    ∧ ∀ k < x.w.threads.length, w.thread k = if k ∈ x.lanes then f k (x.w.thread k) else x.w.thread k

/-- Accesses that neither break a rule of R158 nor meet a failing or waiting place of module memory, nor store for a launch that an error is
stopping (R186); an atomic operation both reads and writes. -/
def Reaches (s : State) (x : KCtx) (space slot n : Nat) (read write : Bool) (offs : List Nat) : Prop :=
  offs.findSome? (fun o => accessCode s x space slot o n write) = none
    ∧ (space = 2 → (write = true → x.l.error = none) ∧ memWaitsBy s x.c.site (offs.flatMap (fun o => slotPieces s x slot o n)) = false
        ∧ accessSource s x.c.site read (offs.flatMap (fun o => slotPieces s x slot o n)) = none)

/-! ## Accumulators and frames -/

/-- The content of bin j: 0 outside the window of four bins (R101). -/
def Machine.Acc.bin (a : Acc) (j : Nat) : Int :=
  match a.top with
  | none => 0
  | some t => if j = t then a.bin0 else if j + 1 = t then a.bin1 else if j + 2 = t then a.bin2 else if j + 3 = t then a.bin3 else 0

/-- A well-formed accumulator: each residue is that of its bin, and one that has received no piece is zero (R101, R107). -/
def Machine.Acc.formed (a : Acc) : Prop :=
  a.residuesOk = true ∧ (a.top = none → a.bin0 = 0 ∧ a.bin1 = 0 ∧ a.bin2 = 0 ∧ a.bin3 = 0)

/-- An accumulator whose fields fit their places in a record (Table 4-2). -/
def Machine.Acc.fits (a : Acc) : Prop :=
  a.formed ∧ (∀ t, a.top = some t → t ≤ 66) ∧ (a.top = none → a.count = 0) ∧ a.count < 2 ^ 32
    ∧ ∀ v ∈ [a.bin0, a.bin1, a.bin2, a.bin3], -(2 ^ 63 : Int) ≤ v ∧ v < 2 ^ 63

/-- The line behind boundary bit 17, before the control field (R411, R414). -/
def Machine.LineCode.start : LineCode := { sent := [], last := true, run := 1, stuffs := 0 }

/-- A tile within the limit of R104. -/
def Machine.AccTile.within (t : AccTile) : Prop := t.records.any (fun a => decide (contribLimit < a.count)) = false

end Sys2Proof
end

