-- ==== Sys2Proof/Certificates/Slice0/Obligations.lean ====
section
/-! DEFINITION. The statements for the provers, each a Prop. -/
open Sys2Proof Sys2Proof.Machine

/-- The command at the front of the queue runs, with the rest of the queue. -/
def Obligations.StepRunsTheFrontCommand : Prop :=
  ∀ (c : Instr) (rest : List Instr) (s : State), s.pending = c :: rest → step s = exec c { s with pending := rest }

/-- With nothing waiting a step only lets time pass (log 19, DESIGN CHOICE): the operating time counts while power is good and the retained
domain is powered (R12), the millisecond windows of the bundles start anew, the launches that an error has stopped end (log 62, DESIGN CHOICE),
and nothing else changes. -/
def Obligations.EmptyQueueOnlyPassesTime : Prop :=
  ∀ s : State, s.pending = [] → ∃ t, step s = .next t ∧ t.pending = [] ∧ Frame [.ret, .tiles, .hubBundles, .engines, .cel, .cmds, .launches] s t
    ∧ ((∀ l ∈ s.launches, l.error = none) → Frame [.ret, .tiles, .hubBundles, .engines] s t ∧ (s.pins.pwrgd = false → t = s))
    ∧ (∀ l, l ∈ t.launches ↔ l ∈ s.launches ∧ ∀ m ∈ s.launches, m.error.isSome = true → m.cid ≠ l.cid)
    ∧ (∀ l c, l ∈ s.launches → l.error.isSome = true → Live s l.cid c → EndedAs t l.cid .badDescriptor)
    ∧ ({ t.ret with opTime := 0 } : Retained) = { s.ret with opTime := 0 }
    ∧ (s.pins.pwrgd = true → s.ret.powered = true → t.ret.opTime = (s.ret.opTime + 1) % 2 ^ 32)
    ∧ (s.ret.powered = false → t.ret.opTime = s.ret.opTime)

/-- Every command answers a next state in every state, never a fault or a refusal, and leaves the queue of waiting commands to the step. -/
def Obligations.EveryCommandAnswersAndLeavesTheQueue : Prop :=
  ∀ (c : Instr) (s : State), ∃ t, exec c s = .next t ∧ t.pending = s.pending

/-- The state right after reset has the form that every step keeps. -/
def Obligations.ResetHasTheForm : Prop := Inv State.reset

/-- Every step keeps the form: memory canonical, 64 tiles, 16 hub bundles, 24 engines, 6 ELS, 4 CXL ports, 64 model slots, 16 stream check
units, and a module that is down is not ready. -/
def Obligations.EveryStepKeepsTheForm : Prop := ∀ s t : State, step s = .next t → Inv s → Inv t

/-- R490, R346: while a module is down no command makes it ready. -/
def Obligations.NoCommandReadiesADownModule : Prop :=
  ∀ (c : Instr) (s t : State), s.boot.down = true → exec c s = .next t → t.boot.ready = false

/-- R490, R346, R562, R469: what ends the state of being down: the completion of a RESTART, a cold start, or the loss of power. -/
def Obligations.OnlyRestartOrPowerEndsDown : Prop :=
  ∀ (c : Instr) (s t : State), s.boot.down = true → exec c s = .next t → t.boot.down = false →
    (∃ cid, c = .commandComplete cid ∧ ∃ e, cmdAt s cid = some e ∧ e.opcode = 0x7E)
    ∨ (∃ a b d, c = .coldReset a b d) ∨ (∃ a b d, c = .tripRestart a b d) ∨ (∃ a b d, c = .inputRangeRestart a b d)
    ∨ (∃ a b d, c = .refclkRestored a b d)
    ∨ c = .powerDown ∨ c = .refclkLost ∨ c = .hubPllUnlock ∨ c = .overcurrentTrip ∨ c = .inputRangeTrip
    ∨ (∃ a b, c = .thermalTrip a b) ∨ (∃ a b, c = .backstopTrip a b)

/-- The sticky stop bit (Table 10-3): 1 when an S3 stop has occurred since the last cold reset. Only those commands clear it that power the
hub down or start it cold. -/
def Obligations.StopStaysUntilColdReset : Prop :=
  ∀ (c : Instr) (s t : State), s.boot.stopped = true → exec c s = .next t → t.boot.stopped = false →
    (∃ a b d, c = .coldReset a b d) ∨ (∃ a b d, c = .tripRestart a b d) ∨ (∃ a b d, c = .inputRangeRestart a b d)
    ∨ (∃ a b d, c = .refclkRestored a b d) ∨ c = .powerDown ∨ c = .overcurrentTrip ∨ c = .inputRangeTrip
    ∨ (∃ a b, c = .thermalTrip a b) ∨ (∃ a b, c = .backstopTrip a b)

/-- Tables 11-3, 11-4 and 11-10: what each general and memory command that may act does, and how it ends. -/
def Obligations.GeneralAndMemoryCommandsComplete : Prop :=
  (∀ s cid c, Acts s cid 0x01 c → Answers (.nop cid) s (fun t => Ended t cid .ok (resultOf [])))
  ∧ (∀ s cid c, Acts s cid 0x02 c → Answers (.identify cid) s (fun t => Ended t cid .ok (resultOf (identifyFields s))))
  ∧ (∀ s cid c, Acts s cid 0x03 c → Answers (.getStatus cid) s (fun t => Ended t cid .ok (resultOf (statusFields (s.startCmd cid)))))
  ∧ (∀ s cid c, Acts s cid 0x04 c → c.arg 8 2 = 1 →
      (c.arg 0x18 8 = 0 ∨ ∃ x, memHandle s (c.arg 0x18 8) = some x ∧ c.arg 0x20 8 < x.size) →
      Answers (.setFeatureBar4Aperture cid) s (fun t =>
        t.host.apertures = setAt s.host.apertures (c.arg 0x10 1) ⟨BitVec.ofNat 64 (c.arg 0x18 8), c.arg 0x20 8⟩ ∧ EndedAs t cid .ok))
  ∧ (∀ s cid c, Acts s cid 0x04 c → c.arg 8 2 = 2 → c.arg 0x10 1 < s.cxl.length → (cxlAt s (c.arg 0x10 1)).state = .inService →
      evacuable s (c.arg 0x10 1) = true →
      Answers (.setFeatureCxlPortOffline cid) s (fun t => (cxlAt t (c.arg 0x10 1)).state = .evacuating ∧ EndedAs t cid .ok))
  ∧ (∀ s cid c, Acts s cid 0x04 c → c.arg 8 2 = 3 → c.arg 0x10 2 ≤ classMax s →
      Answers (.setFeaturePowerCap cid) s (fun t => t.th.powerCap = c.arg 0x10 2 ∧ EndedAs t cid .ok))
  ∧ (∀ s cid c, Acts s cid 0x04 c → c.arg 8 2 = 4 →
      Answers (.setFeatureThrottleStart cid) s (fun t => t.th.throttleStart = c.arg 0x10 1 ∧ EndedAs t cid .ok))
  ∧ (∀ s cid c, Acts s cid 0x05 c → Answers (.getFeature cid) s (fun t =>
      Ended t cid .ok ((featureValue s (c.arg 8 2) (c.arg 0xA 2) ++ List.replicate 40 0).take 40)))
  ∧ (∀ s cid c i l, Acts s cid 0x41 c → c.arg 8 8 ≤ 2 ^ 42 → freeIndex (s.mem.handles.map (·.index)) 65536 = some i →
      allocExtents s (roundUp (c.arg 8 8) 65536) (c.arg 0x10 1) = some l → memWaits s l = false →
      Answers (.memAlloc cid) s (fun t =>
        t.mem.handles = s.mem.handles ++ [{ index := i, gen := genOf s.mem.handleGen i, size := roundUp (c.arg 8 8) 65536, tier := c.arg 0x10 1,
                                            extents := l }]
        ∧ (∀ e ∈ l, ∀ a, e.base ≤ a → a < e.base + e.len → readByte t.mem.cells a = 0)
        ∧ Ended t cid .ok (resultOf [(0x14, 8, handleWord 1 (genOf s.mem.handleGen i) i), (0x1C, 8, roundUp (c.arg 8 8) 65536)])))
  ∧ (∀ s cid c x, Acts s cid 0x42 c → memHandle s (c.arg 8 8) = some x → memInUse (s.startCmd cid) (c.arg 8 8) x.index = false →
      Answers (.memFree cid) s (fun t => (∀ y ∈ t.mem.handles, y.index ≠ x.index)
        ∧ (∀ e ∈ x.extents, ∀ a, e.base ≤ a → a < e.base + e.len → readByte t.mem.cells a = 0)
        ∧ genOf t.mem.handleGen x.index = genOf s.mem.handleGen x.index + 1 ∧ EndedAs t cid .ok))
  ∧ (∀ s cid c i g k, Acts s cid 0x42 c → memHandle s (c.arg 8 8) = none → graphHandle s (c.arg 8 8) = some (i, g, k) →
      s.runs.any (fun r => r.graphIndex == some i) = false → namedInFlight (s.startCmd cid) (c.arg 8 8) = false →
      Answers (.memFree cid) s (fun t => (∀ y ∈ t.graphs, y.1 ≠ i) ∧ genOf t.graphGen i = genOf s.graphGen i + 1 ∧ EndedAs t cid .ok))
  ∧ (∀ s cid c i g k, Acts s cid 0x42 c → memHandle s (c.arg 8 8) = none → graphHandle s (c.arg 8 8) = none →
      kernelHandle s (c.arg 8 8) = some (i, g, k) → s.launches.any (fun l => l.kernelIndex == i) = false →
      namedInFlight (s.startCmd cid) (c.arg 8 8) = false →
      Answers (.memFree cid) s (fun t => (∀ y ∈ t.kernels, y.1 ≠ i) ∧ genOf t.kernelGen i = genOf s.kernelGen i + 1 ∧ EndedAs t cid .ok))

/-- Tables 11-11 to 11-15, R335–R350: what each test, log, settings, identity and power command that may act does, and how it ends. SELFTEST FULL and
MARGIN_TEST are two given rows: the second ends them; SETTINGS_WRITE ends with its flash operation (R342), whose start is stated here. -/
def Obligations.TestLogAndPowerCommandsComplete : Prop :=
  (∀ s cid c, Acts s cid 0x60 c → c.arg 8 1 = 0 →
      Answers (.selftestSummary cid) s (fun t => Ended t cid .ok (resultOf (selftestFields s s.flt.stRun s.flt.stFailed s.flt.stFirst 0))))
  ∧ (∀ s cid ms c, Acts s cid 0x60 c → c.arg 8 1 = 1 → c.started = true → ms ≤ 500 →
      (∀ n ∈ computeSites s, (tileAt s n).draining = false) →
      Answers (.selftestFull cid ms { failures := [] }) s (fun t => t.sec.cryptoOk = true
        ∧ (∃ least, Ended t cid .ok (resultOf [(0x14, 4, fullChecks s), (0x18, 4, 0), (0x1C, 2, 0xFFFF), (0x20, 4, ms), (0x24, 4, least)]))))
  ∧ (∀ s cid c, Acts s cid 0x60 c → c.arg 8 1 = 1 → c.started = false → s.sessions = [] → running (s.startCmd cid) cid [0x31, 0x33] = false →
      fullRunning (s.startCmd cid) cid = false → ∀ ms found, Answers (.selftestFull cid ms found) s (fun t => (cmdAt t cid).map (·.started) = some true
        ∧ (s.tiles.length = 64 → ∀ n ∈ computeSites s, (tileAt t n).draining = true)))
  ∧ (∀ s cid c eyes, Acts s cid 0x61 c → c.started = true → eyes.length = (maskLambdas (c.arg 0x10 8)).length →
      Answers (.marginTest cid eyes) s (fun t => (engineAt t (c.arg 8 1)).marginBusy = false ∧ EndedAs t cid .ok
        ∧ ∃ bytes, Wrote t cid [(c.arg 0x20 8, bytes)] ∧ bytes.length = 8 * eyes.length))
  ∧ (∀ s cid c, Acts s cid 0x62 c → injectable (c.arg 8 2) = true → selftestRunning (s.startCmd cid) = false → sourceGone s (c.arg 8 2) = false →
      Answers (.faultInject cid) s (fun t =>
        lookupKey (c.arg 8 2) t.flt.inject = (if c.arg 0xA 1 = 0 then none else some (c.arg 0xA 1))
        ∧ Ended t cid .ok (resultOf [(0x14, 1, (lookupKey (c.arg 8 2) s.flt.inject).getD 0)])))
  ∧ (∀ s cid c, Acts s cid 0x70 c → 32 * c.arg 0x10 4 ≤ c.arg 0x20 4 →
      Answers (.logRead cid) s (fun t => EndedAs t cid .ok ∧
        (let u := if bit 1 (c.arg 0x14 1) then s.commitOpen else s
         let l := if bit 0 (c.arg 0x14 1) then u.ret.ring else committed u
         let out := (l.filter (fun r => decide (c.arg 8 8 ≤ r.number))).take (c.arg 0x10 4)
         Wrote t cid (if out.isEmpty then [] else [(c.arg 0x18 8, out.flatMap LogRec.bytes)]))))
  ∧ (∀ s cid c, Acts s cid 0x71 c → (settingsBytes s (c.arg 8 1)).length ≤ c.arg 0x18 4 →
      Answers (.settingsRead cid) s (fun t => EndedAs t cid .ok ∧
        Wrote t cid (if (settingsBytes s (c.arg 8 1)).isEmpty then [] else [(c.arg 0x10 8, settingsBytes s (c.arg 8 1))])))
  ∧ (∀ s cid c image, ActsReading s cid 0x72 c → c.started = false → s.log.refused = false → running (s.startCmd cid) cid [0x72] = false →
      image.length = c.arg 0x10 4 → 64 ≤ image.length → headerOk image = true → field 8 4 image = image.length →
      signatureOk s.sec.ownerKey image = true → fieldsOk image = true → versionOk s (field 0xC 4 image) = true →
      s.flashA.failed = false →
      Answers (.settingsWrite cid image) s (fun t => FlashOp.settings cid (targetSlot s) image ∈ t.flashA.queue ∧ (cmdAt t cid).map (·.started) = some true))
  ∧ (∀ s cid c, Acts s cid 0x73 c → 13097 ≤ c.arg 0x30 4 → s.sec.cryptoOk = true → 0 < s.sec.batchLeft → s.sec.batchLeft ≠ 257 →
      Answers (.attest cid) s (fun t => t.sec.nextIndex = s.sec.nextIndex + 1 ∧ t.sec.batchLeft = s.sec.batchLeft - 1
        ∧ Ended t cid .ok (resultOf [(0x14, 4, 13097), (0x18, 8, s.sec.nextIndex)])))
  ∧ (∀ s cid c, Acts s cid 0x7E c → c.flag 0 = false → s.sessions = [] → othersInFlight (s.startCmd cid) cid = false → tooHot s = false →
      flashWriting s = false → Answers (.restart cid) s (fun t => t.ret.openRec = none ∧ EndedAs t cid .ok))
  ∧ (∀ s cid c, Acts s cid 0x7E c → c.flag 0 = true → tooHot s = false → flashWriting s = false →
      Answers (.restartForce cid) s (fun t => t.sessions = [] ∧ t.runs = [] ∧ t.launches = [] ∧ t.host.forcing = some cid ∧ EndedAs t cid .ok))
  ∧ (∀ s cid c, Acts s cid 0x7F c → c.flag 0 = false → s.sessions = [] → othersInFlight (s.startCmd cid) cid = false → flashWriting s = false →
      Answers (.shutdown cid) s (fun t => t.boot.ready = false ∧ t.boot.down = true ∧ t.boot.fwUp = s.boot.fwUp ∧ EndedAs t cid .ok))
  ∧ (∀ s cid c, Acts s cid 0x7F c → c.flag 0 = true → flashWriting s = false →
      Answers (.shutdownForce cid) s (fun t => t.boot.ready = false ∧ t.boot.down = true ∧ t.boot.fwUp = s.boot.fwUp ∧ t.sessions = []
        ∧ EndedAs t cid .ok))

/-- Tables 11-5, 11-9 and 11-11: how each model, copy and placement command that may act completes, and what it does. -/
def Obligations.ModelCopyAndPlacementCommandsComplete : Prop :=
  (∀ s cid c source v ns nd from_ to_ out, Acts s cid 0x40 c → (c.arg 8 1 = 0 → ActsReading s cid 0x40 c ∧ source.length = ns) →
      (if c.arg 0xA 1 = c.arg 0xB 1 then some conv0 else convOf (c.arg 0xC 1)) = some v → v.round ≠ .sr →
      ns = dmaBytes (c.arg 0xA 1 == c.arg 0xB 1) (c.arg 0xA 1) (c.arg 0x30 8) → nd = dmaBytes (c.arg 0xA 1 == c.arg 0xB 1) (c.arg 0xB 1) (c.arg 0x30 8) →
      dmaSideOk s (c.arg 8 1) (c.arg 0x10 8) (c.arg 0x18 8) ns = true → dmaSideOk s (c.arg 9 1) (c.arg 0x20 8) (c.arg 0x28 8) nd = true →
      from_ = (if c.arg 8 1 = 0 then [] else dmaPieces s (c.arg 0x10 8) (c.arg 0x18 8) ns) →
      to_ = (if c.arg 9 1 = 0 then [] else dmaPieces s (c.arg 0x20 8) (c.arg 0x28 8) nd) →
      memWaits s (from_ ++ to_) = false → accessSource s none true from_ = none → accessSource s none false to_ = none →
      out = dmaConvert (c.arg 0xA 1) (c.arg 0xB 1) v (c.arg 0x30 8) (if c.arg 8 1 = 0 then source else readPieces s.mem.cells from_) →
      Answers (.dmaCopy cid source) s (fun t =>
        t.mem.cells = (if c.arg 9 1 = 0 then s.mem.cells else writePieces s.mem.cells to_ out)
        ∧ Wrote t cid (if c.arg 9 1 = 0 then [(c.arg 0x20 8 + c.arg 0x28 8, out)] else []) ∧ Ended t cid .ok (resultOf [(0x14, 8, nd)])))
  ∧ (∀ s cid c manifest weights i mf v, ActsReading s cid 0x10 c → c.flag 1 = false → c.arg 0x1C 1 ≠ 1 →
      loadData c manifest weights = true → s.models.length = 64 → freeSlot s = some i → checkManifest false manifest weights = .ok mf →
      placeModel i (c.flag 0) (manifestShards 1 manifest weights) ((s.startCmd cid).claimSlot i c manifest mf) = .fits v →
      memWaits s (placedPieces (modelAt v i).shards) = false →
      Answers (.modelLoad cid manifest weights) s (fun t => (modelAt t i).state = .ready ∧ (modelAt t i).current = 1 ∧ EndedAs t cid .ok))
  ∧ (∀ s cid c manifest weights i mf v, ActsReading s cid 0x10 c → c.flag 1 = true → c.arg 0x1C 1 ≠ 1 →
      loadData c manifest weights = true → modelHandle s (c.arg 8 8) = some i → commitInFlight (s.startCmd cid) (c.arg 8 8) = false →
      checkManifest true manifest weights = .ok mf → stagedMatch (modelAt s i) manifest = none →
      placeEach (State.placeLocal i) (manifestShards ((modelAt s i).current + 1) manifest weights)
        ((s.startCmd cid).modModel i (fun m => { m with staged := true, shards := m.shards.filter (fun x =>
          !(x.epoch == (modelAt s i).current + 1
            && (manifestShards ((modelAt s i).current + 1) manifest weights).any (fun y => y.index == x.index))) })) = some v →
      memWaits s (placedPieces ((modelAt v i).shards.filter (fun x => x.epoch == (modelAt s i).current + 1))) = false →
      Answers (.modelLoadStage cid manifest weights) s (fun t => (modelAt t i).staged = true ∧ (modelAt t i).current = (modelAt s i).current
        ∧ EndedAs t cid .ok))
  ∧ (∀ s cid c i, Acts s cid 0x11 c → modelHandle s (c.arg 8 8) = some i → s.sessions.any (fun x => x.model == i) = false →
      s.runs.any (fun r => r.model == some i) = false → modelAwaited (s.startCmd cid) i = false →
      Answers (.modelUnload cid) s (fun t => (modelAt t i).state = .empty ∧ (modelAt t i).shards = [] ∧ EndedAs t cid .ok))
  ∧ (∀ s cid c i, Acts s cid 0x12 c → modelHandle s (c.arg 8 8) = some i → ((modelAt s i).retained = 0 ∨ retainedUsed s i = false) →
      (modelAt s i).staged = true → (modelAt s i).current < 0xFFFFFFFF →
      Answers (.modelEpochCommit cid) s (fun t => (modelAt t i).current = (modelAt s i).current + 1 ∧ (modelAt t i).staged = false
        ∧ EndedAs t cid .ok))
  ∧ (∀ s cid c i, Acts s cid 0x13 c → modelHandle s (c.arg 8 8) = some i →
      Answers (.modelQuery cid) s (fun t => Ended t cid .ok (resultOf (queryFields s i))))
  ∧ (∀ s cid c b, Acts s cid 0x50 c →
      b = (if bit 2 (c.arg 0x14 1) then Bounds.reset
           else { minM := c.arg 8 2, maxM := c.arg 0xA 2, minD := c.arg 0xC 2, maxD := c.arg 0xE 2, minC := c.arg 0x10 2, maxC := c.arg 0x12 2 }) →
      b.minM ≤ b.maxM → b.minD ≤ b.maxD → b.minC ≤ b.maxC → b.minM + b.minD + b.minC ≤ (computeSites s).length →
      (bit 1 (c.arg 0x14 1) = false ∨ (s.sessions = [] ∧ s.runs = [] ∧ s.launches = []
        ∧ (s.startCmd cid).host.cmds.any (fun d => d.waits && (d.opcode == 0x31 || d.opcode == 0x33)) = false)) →
      Answers (.rolePlan cid) s (fun t => t.cel.bounds = b ∧ t.cel.freeze = (bit 0 (c.arg 0x14 1) && !bit 2 (c.arg 0x14 1)) ∧ t.cel.boundsNew = true
        ∧ (bit 1 (c.arg 0x14 1) = true → roleGiven t = (Role.ofCode (c.arg 0x15 1)).getD .none) ∧ EndedAs t cid .ok))
  ∧ (∀ s cid c l, Acts s cid 0x51 c → placementReport s (c.arg 8 1) (c.arg 0x10 8) = some l → l.length ≤ c.arg 0x20 4 →
      Answers (.placementQuery cid) s (fun t => Wrote t cid [(c.arg 0x18 8, l)] ∧ Ended t cid .ok (resultOf [(0x14, 4, l.length), (0x18, 4, s.cel.plan)])))

/-- Table 11-6, R215, R223–R231, R235, R246, R247: how each session command completes, and what it does. A step is accepted once and begins when its
turn comes (R229); its operations are rows of their own and its last one ends it. -/
def Obligations.SessionCommandsComplete : Prop :=
  (∀ s cid c k i, Acts s cid 0x20 c → modelHandle s (c.arg 8 8) = some k → (modelAt s k).state = .ready → selftestRunning (s.startCmd cid) = false →
      freeIndex (s.sessions.map (·.index)) 65536 = some i → admits s.setShare (c.arg 0x10 4) = true →
      Answers (.sessionOpen cid) s (fun t =>
        t.sessions = s.sessions ++ [newSession s i k (c.arg 0x10 4) (modelAt s k).current (c.flag 0) (BitVec.ofNat 64 (c.arg 0x18 8))]
        ∧ Ended t cid .ok (resultOf [(0x14, 8, handleWord 0 (genOf s.sessionGen i) i), (0x1C, 4, (modelAt s k).current)])))
  ∧ (∀ s cid c x, Acts s cid 0x21 c → sessionHandle s (c.arg 8 8) = some x → x.state ≠ .closing → sessionQueue s x = [] →
      Answers (.sessionClose cid) s (fun t => sessionAt t x.index = none ∧ (∀ b ∈ t.cel.blocks, b.session ≠ x.index) ∧ EndedAs t cid .ok))
  ∧ (∀ s cid binds r x, runOf s cid = some r → r.begun = false → openOps r ≠ [] → r.rebuild = false → sessionOf s r = some x →
      (sessionQueue s x).head? = some cid → runWaits s r = false → goingOut s x.index = false → stepAccepts false x.state = true →
      blocksAt s r (x.position + r.tokens) ≤ x.maxBlocks → cacheFits s r x (x.position + r.tokens) = true →
      Answers (.prefill cid binds) s (fun t => (runOf t cid).map (·.begun) = some true ∧ (sessionAt t x.index).map (·.state) = some .stepping))
  ∧ (∀ s cid binds r x, runOf s cid = some r → r.begun = false → openOps r ≠ [] → r.rebuild = true → sessionOf s r = some x →
      (sessionQueue s x).head? = some cid → runWaits s r = false → goingOut s x.index = false → stepAccepts true x.state = true →
      blocksAt s r r.tokens ≤ x.maxBlocks → cacheFits s r x r.tokens = true →
      Answers (.prefillRebuild cid binds) s (fun t => (runOf t cid).map (·.begun) = some true
        ∧ (sessionAt t x.index).map (fun y => (y.state, y.position)) = some (.stepping, 0) ∧ (∀ b ∈ t.cel.blocks, b.session ≠ x.index)))
  ∧ (∀ s cid binds r x, runOf s cid = some r → r.begun = false → openOps r ≠ [] → r.rebuild = false → sessionOf s r = some x →
      (sessionQueue s x).head? = some cid → runWaits s r = false → goingOut s x.index = false → stepAccepts false x.state = true →
      blocksAt s r (x.position + r.tokens) ≤ x.maxBlocks → cacheFits s r x (x.position + r.tokens) = true →
      Answers (.decode cid binds) s (fun t => (runOf t cid).map (·.begun) = some true ∧ (sessionAt t x.index).map (·.state) = some .stepping))
  ∧ (∀ s cid c x, Acts s cid 0x24 c → c.arg 0x10 1 = 0 → sessionHandle s (c.arg 8 8) = some x →
      (x.state = .open ∨ x.state = .broken ∨ x.state = .inDoubt) → sessionQueue s x = [] → blocksWait s x.index = false →
      blocksAbsent s x.index = none → blocksSource s x.index = none → sessionBytes (blocksHeld s x.index) ≤ c.arg 0x28 8 →
      Answers (.sessionSnapshot cid) s (fun t => EndedAs t cid .ok ∧ Wrote t cid [(c.arg 0x18 8, sessionImage s x)]))
  ∧ (∀ s cid c x h l, Acts s cid 0x24 c → c.arg 0x10 1 ≠ 0 → sessionHandle s (c.arg 8 8) = some x →
      (x.state = .open ∨ x.state = .broken ∨ x.state = .inDoubt) → sessionQueue s x = [] → blocksWait s x.index = false →
      blocksAbsent s x.index = none → blocksSource s x.index = none → memHandle s (c.arg 0x18 8) = some h →
      sessionBytes (blocksHeld s x.index) ≤ Nat.min (c.arg 0x28 8) (h.size - c.arg 0x20 8) →
      l = pieces h.extents (c.arg 0x20 8) (sessionBytes (blocksHeld s x.index)) → memWaits s l = false → accessSource s none false l = none →
      Answers (.sessionSnapshot cid) s (fun t => EndedAs t cid .ok ∧ t.mem.cells = writePieces s.mem.cells l (sessionImage s x)))
  ∧ (∀ s cid c k image v x, ActsReading s cid 0x25 c → c.arg 0x10 1 = 0 → image.length = c.arg 0x28 8 →
      modelHandle s (c.arg 8 8) = some k → restoreImage ((s.startCmd cid).caskWork cid).setShare k image .open = .ok (v, x) →
      memWaits s (blockPieces v x.index) = false →
      Answers (.sessionRestore cid image) s (fun t => x ∈ t.sessions ∧ x.state = .open ∧ Ended t cid .ok (resultOf (restoreFields (some x) 0xFFFFFFFF))))
  ∧ (∀ s cid c k image h l v x, Acts s cid 0x25 c → c.arg 0x10 1 ≠ 0 → c.arg 0x10 1 ≠ 2 → modelHandle s (c.arg 8 8) = some k →
      memHandle s (c.arg 0x18 8) = some h → c.arg 0x20 8 + c.arg 0x28 8 ≤ h.size → l = pieces h.extents (c.arg 0x20 8) (c.arg 0x28 8) →
      memWaits s l = false → accessSource s none true l = none →
      restoreImage (((s.startCmd cid).touch false l).caskWork cid).setShare k (readPieces s.mem.cells l) .open = .ok (v, x) →
      memWaits s (blockPieces v x.index) = false →
      Answers (.sessionRestore cid image) s (fun t => x ∈ t.sessions ∧ x.state = .open ∧ Ended t cid .ok (resultOf (restoreFields (some x) 0xFFFFFFFF))))

/-- R249–R251 and Tables 8-9 and 15-8: the rows of a migration, one by one, on both sides. -/
def Obligations.MigrationRowsComplete : Prop :=
  (∀ s cid c k, Acts s cid 0x25 c → c.arg 0x10 1 = 2 → migOf s cid false = none → modelHandle s (c.arg 8 8) = some k →
      Answers (.sessionRestoreRemote cid) s (fun t => t.migs = s.migs ++
        [{ cid, isSource := false, session := none, model := k, modelGen := (modelAt s k).gen, peer := c.arg 0x12 2, tag := BitVec.ofNat 64 (c.arg 0x30 8), joined := false, ready := false, size := 0 }]))
  ∧ (∀ s cid c x, Acts s cid 0x26 c → migOf s cid true = none → sessionHandle s (c.arg 8 8) = some x → x.state = .open → sessionQueue s x = [] →
      c.arg 0x10 2 ≠ ownId s →
      Answers (.sessionMigrate cid) s (fun t => t.migs = s.migs ++
        [{ cid, isSource := true, session := some x.index, model := x.model, modelGen := (modelAt s x.model).gen, peer := c.arg 0x10 2, tag := BitVec.ofNat 64 (c.arg 0x18 8), joined := false, ready := false, size := 0 }]))
  ∧ (∀ s cid m i x, migOf s cid true = some m → m.joined = false → reachable s m.peer = true → m.session = some i → sessionAt s i = some x →
      blocksWait s x.index = false → blocksSource s x.index = none →
      Answers (.sessionMigrate cid) s (fun t => (migOf t cid true).map (·.joined) = some true ∧ (sessionAt t i).map (·.state) = some .migrating))
  ∧ (∀ s cid c m, Live s cid c → migOf s cid true = some m → m.joined = false →
      Answers (.migrationJoinTimeout cid) s (fun t => (∀ q ∈ t.migs, q.cid ≠ cid) ∧ EndedAs t cid .peerAbsent))
  ∧ (∀ s cid c m, Live s cid c → migOf s cid true = none → migOf s cid false = some m → m.joined = false → m.ready = false →
      Answers (.migrationJoinTimeout cid) s (fun t => (∀ q ∈ t.migs, q.cid ≠ cid) ∧ EndedAs t cid .peerAbsent))
  ∧ (∀ s cid m image v x, migOf s cid false = some m → m.ready = false → restoreImage (s.caskWork cid).setShare m.model image .migrating = .ok (v, x) →
      (modelAt s m.model).gen = m.modelGen → memWaits s (blockPieces v x.index) = false →
      Answers (.migrationImageReceived cid image) s (fun t => (migOf t cid false).map (·.ready) = some true ∧ x ∈ t.sessions ∧ x.state = .migrating))
  ∧ (∀ s cid m i x, migOf s cid true = some m → m.joined = true → m.ready = false → m.session = some i → sessionAt s i = some x →
      Answers (.migrationReady cid) s (fun t => (migOf t cid true).map (·.ready) = some true ∧ (sessionAt t i).map (·.state) = some .inDoubt))
  ∧ (∀ s cid c m status st, Live s cid c → migOf s cid true = some m → m.joined = true → m.ready = false → Status.ofCode status.toNat = some st →
      refusalStatus st = true → Answers (.migrationRefusal cid status) s (fun t => (∀ q ∈ t.migs, q.cid ≠ cid) ∧ EndedAs t cid st))
  ∧ (∀ s cid c m i x, Live s cid c → migOf s cid false = some m → m.ready = true → m.session = some i → sessionAt s i = some x →
      Answers (.migrationCommit cid) s (fun t => (∀ q ∈ t.migs, q.cid ≠ cid) ∧ (sessionAt t i).map (·.state) = some .open ∧ EndedAs t cid .ok))
  ∧ (∀ s cid c m i x, Live s cid c → migOf s cid true = some m → m.ready = true → m.session = some i → sessionAt s i = some x →
      Answers (.migrationDone cid) s (fun t => sessionAt t i = none ∧ EndedAs t cid .ok))
  ∧ (∀ s cid c m, Live s cid c → migOf s cid true = some m → m.ready = true →
      Answers (.migrationDoneTimeout cid) s (fun t => t.migs = s.migs ∧ t.sessions = s.sessions ∧ EndedAs t cid .linkLost))
  ∧ (∀ s session m, s.migs.find? (fun m => m.isSource && m.session == some session && m.ready) = some m → isLive s m.cid = false →
      reachable s m.peer = true → Answers (.migrationCommitResend session) s (fun t => t = s.sendCtrl m.peer))
  ∧ (∀ s cid c m i, Live s cid c → migOf s cid false = some m → m.joined = true → m.session = some i →
      Answers (.migrationTargetTimeout cid) s (fun t => (∀ q ∈ t.migs, q.cid ≠ cid) ∧ sessionAt t i = none ∧ EndedAs t cid .linkLost))


/-- Table 11-7, R120, R142–R148, R140: how the commands of a graph and what they wait for complete. The second row of GRAPH_RUN begins the run
that its first row accepted (log 25). -/
def Obligations.GraphCommandsComplete : Prop :=
  (∀ s cid c image g i, ActsReading s cid 0x30 c → image.length = c.arg 0x10 4 → checkGraph image = .good g →
      freeIndex (s.graphs.map (·.1)) 1024 = some i →
      Answers (.graphLoad cid image) s (fun t => t.graphs = s.graphs ++ [(i, genOf s.graphGen i, g)]
        ∧ Ended t cid .ok (resultOf [(0x14, 8, handleWord 2 (genOf s.graphGen i) i), (0x1C, 4, g.crc), (0x20, 4, 0xFFFFFFFF)])))
  ∧ (∀ s cid c binds participants i gen g l m rank ms, ActsReading s cid 0x31 c → runOf s cid = none → binds.length = 16 * c.arg 0x24 4 →
      graphHandle s (c.arg 8 8) = some (i, gen, g) → runModel s g (c.arg 0x10 8) c.heldEpoch = .ok m → bindingsOf s g [] (c.arg 0x24 4) binds = some l →
      (if c.arg 0x30 8 = 0 then some (0, [ownId s % 4096]) else participantsOf s g participants) = some (rank, ms) →
      selftestRunning (s.startCmd cid) = false → bindsBusy (s.startCmd cid) cid l = false →
      (s.runs.filter (fun r => r.graphIndex == some i)).length + waitingOn (s.startCmd cid) 0x31 (c.arg 8 8) < 64 →
      overloaded (s.startCmd cid) .mash = false → (g.tensors.any (fun t => t.kind == 4) && modelAway s (c.arg 0x10 8)) = false → g.ops ≠ [] →
      Answers (.graphRun cid binds participants) s (fun t =>
        (runOf t cid).map (fun r => (r.graph, r.graphIndex, r.model, r.epoch)) = some (g, some i, m.map (·.1), (m.map (·.2)).getD 0)
        ∧ (runOf t cid).map (fun r => (r.rank, r.modules, r.bound, r.opsDone)) = some (rank, ms, l.map (fun b => (b.tensor.id, b.handle.index)), [])))
  ∧ (∀ s cid binds participants r, runOf s cid = some r → r.begun = false → openOps r ≠ [] → runWaits s r = false →
      Answers (.graphRun cid binds participants) s (fun t => (runOf t cid).map (·.begun) = some true
        ∧ t.cel.units.length = (without (fun u => u.cid == cid) s.cel.units).length + (runUnits s r .mash).length))
  ∧ (∀ s cid c r op o, Live s cid c → runOf s cid = some r → r.begun = true → openOps r = [op] →
      r.graph.ops[op]? = some o → r.reached.contains op = true → joinMissing s r o = true → (∀ x ∈ r.opsFailed, op < x.1) →
      Answers (.collectiveJoinTimeout cid) s (fun t => runOf t cid = none ∧ EndedAs t cid .peerAbsent))
  ∧ (∀ s run op elem record r v a, runOf s run = some r → partialVal r op = some v → v.records[elem]? = some a → recordOk record = true →
      (a.merge (accOf record)).residuesOk = true → (a.merge (accOf record)).count ≤ contribLimit →
      s.flt.injecting (srcId 1 (cellOf s run op).1 4) = false →
      Answers (.recordMerge run op elem record) s (fun t => (runOf t run).map (·.vals) = some (r.vals.map (fun w =>
        if w.id = v.id then { w with records := setAt w.records elem (a.merge (accOf record)) } else w))))

/-- R114–R116, R130, R132, Table 5-5: the matrix operations, whatever their residue lane reports. -/
def Obligations.MatrixOperationsComplete : Prop :=
  MatrixComputes .matmul 0x0100 opMatmul ∧ MatrixComputes .batchMatmul 0x0101 opMatmul ∧ MatrixComputes .attention 0x0102 opAttention

/-- R129, Table 5-5: the element-wise operations; the vector functions are those of log 5. -/
def Obligations.ElementwiseOperationsComplete : Prop :=
  Computes .add 0x0200 (opBinary fadd)
  ∧ Computes .sub 0x0201 (opBinary fsub)
  ∧ Computes .mul 0x0202 (opBinary fmul)
  ∧ Computes .div 0x0203 (opBinary fdiv)
  ∧ Computes .fma 0x0204 opFma
  ∧ Computes .max 0x0205 (opBinary fmax)
  ∧ Computes .min 0x0206 (opBinary fmin)
  ∧ Computes .abs 0x0210 (opUnary fabs)
  ∧ Computes .neg 0x0211 (opUnary fneg)
  ∧ Computes .exp 0x0212 (opUnary (vecFn .exp))
  ∧ Computes .log 0x0213 (opUnary (vecFn .log))
  ∧ Computes .sqrt 0x0214 (opUnary fsqrt)
  ∧ Computes .rsqrt 0x0215 (opUnary (vecFn .rsqrt))
  ∧ Computes .tanh 0x0216 (opUnary (vecFn .tanh))
  ∧ Computes .sigmoid 0x0217 (opUnary (vecFn .sigmoid))
  ∧ Computes .gelu 0x0218 (opUnary (vecFn .gelu))
  ∧ Computes .silu 0x0219 (opUnary (vecFn .silu))
  ∧ Computes .clamp 0x021A opClamp

/-- R131, R82, R128, Table 5-5: reductions, normalisations, conversions and copies. -/
def Obligations.ReductionAndCopyOperationsComplete : Prop :=
  Computes .reduceSum 0x0300 opReduceSum
  ∧ Computes .reduceMax 0x0301 (opReduceBy fmax)
  ∧ Computes .reduceMin 0x0302 (opReduceBy fmin)
  ∧ Computes .softmax 0x0303 opSoftmax
  ∧ Computes .layernorm 0x0304 (opNorm true)
  ∧ Computes .rmsnorm 0x0305 (opNorm false)
  ∧ Computes .convert 0x0400 opConvert
  ∧ Computes .transpose 0x0401 opTranspose
  ∧ Computes .reshape 0x0402 opReshape
  ∧ Computes .slice 0x0403 opSlice
  ∧ Computes .concat 0x0404 opConcat
  ∧ Computes .gather 0x0405 opGather

/-- R134–R141, Table 5-5: the relational operations and the collectives, whose other participants' parts have come. -/
def Obligations.RelationalAndCollectiveOperationsComplete : Prop :=
  (∀ s run op, ComputesFrom s s (.hashPartition run op) run op 0x0500 (fun v ins outs => match outs with
      | [p, q] => opHashPartition v ins p q
      | _ => .fail .badDescriptor 0))
  ∧ Computes .sort 0x0501 opSort
  ∧ Computes .joinProbe 0x0502 opJoinProbe
  ∧ Computes .stringSimilarity 0x0503 opStringSimilarity
  ∧ Computes .filter 0x0504 opFilter
  ∧ Computes .tableGather 0x0505 opTableGather
  ∧ (∀ s run op parts r, runOf s run = some r → (ownParts r op parts).length + 1 = r.modules.length →
      ComputesFrom s (s.sendParts run op 0x0600) (.allReduce run op parts) run op 0x0600 (one (opReduce false (ownParts r op parts))))
  ∧ (∀ s run op parts r, runOf s run = some r → (ownParts r op parts).length + 1 = r.modules.length →
      ComputesFrom s (s.sendParts run op 0x0601) (.reduceScatter run op parts) run op 0x0601 (one (opReduce true (ownParts r op parts))))
  ∧ (∀ s run op parts r, runOf s run = some r → (ownParts r op parts).length + 1 = r.modules.length →
      ComputesFrom s (s.sendParts run op 0x0602) (.allGather run op parts) run op 0x0602 (one (opAllGather (ownParts r op parts))))
  ∧ (∀ s run op root r, runOf s run = some r → isRoot r op = true →
      ComputesFrom s (s.sendParts run op 0x0603) (.broadcast run op root) run op 0x0603 (one (opBroadcast [])))
  ∧ (∀ s run op root r l, runOf s run = some r → isRoot r op = false → ownParts r op [root] = [l] →
      ComputesFrom s (s.sendParts run op 0x0603) (.broadcast run op root) run op 0x0603 (one (opBroadcast l)))
  ∧ Computes .finalise 0x0604 opFinalise

/-- R531–R534, R562, R563, R276, R346: what each reset does. A warm reset is one only while power is good, PERST# was high and the endpoint has left
reset (R531); a reset that a deeper one in progress discards does nothing. -/
def Obligations.ResetRowsComplete : Prop :=
  (∀ s katOk idA idB, Answers (.coldReset katOk idA idB) s (fun t => t.pins.pwrgd = true ∧ t.boot.lastKind = .cold ∧ t.boot.step = 4
      ∧ t.boot.ready = false ∧ t.boot.stopped = quorumLost t ∧ t.boot.down = quorumLost t ∧ t.host.cmds = [] ∧ t.sessions = [] ∧ t.graphs = [] ∧ t.runs = []
      ∧ t.mem.cells = [] ∧ t.ret.cycles = (s.ret.cycles + 1) % 2 ^ 24 ∧ t.boot.inProgress = (if t.settings.isSome then some .cold else none)))
  ∧ (∀ s, Answers .powerDown s (fun t => t.pins.pwrgd = false ∧ t.pins.regulators = false ∧ t.pins.readyOut = false ∧ t.ret = s.ret
      ∧ t.boot.ready = false ∧ t.boot.fwUp = false ∧ t.host.cmds = [] ∧ t.mem.cells = [] ∧ t.sessions = [] ∧ t.sb.hubRunning = false))
  ∧ (∀ s, s.pins.pwrgd = true → s.pins.perst = false → s.boot.everReset = true → discarded s .warm = false →
      Answers .warmReset s (fun t => t.pins.perst = true ∧ t.boot.lastKind = .warm ∧ t.boot.step = 4 ∧ t.boot.ready = false
        ∧ t.boot.stopped = (s.boot.stopped || quorumLost t) ∧ (∀ x ∈ s.flt.sticky, x ∈ t.flt.sticky)
        ∧ (s.ret.faultList = [] → quorumLost t = false →
            t.flt.sticky = s.flt.sticky ∧ t.flt.highest = s.flt.highest ∧ t.flt.firstSource = s.flt.firstSource)
        ∧ t.settings = s.settings ∧ t.host.cmds = [] ∧ t.sessions = [] ∧ t.mem.cells = [] ∧ t.host.linkUp = false))
  ∧ (∀ s, ¬ (s.pins.pwrgd = true ∧ s.pins.perst = false ∧ s.boot.everReset = true ∧ discarded s .warm = false) →
      Answers .warmReset s (fun t => t = { s with pins := { s.pins with perst := true } }))
  ∧ (∀ s, Answers .perstDeassert s (fun t => t = { s with pins := { s.pins with perst := false } }))
  ∧ (∀ s, configReach s = true → discarded s .module = false →
      Answers .functionLevelReset s (fun t => t.boot.lastKind = .module ∧ t.boot.step = 4 ∧ t.boot.ready = false
        ∧ t.boot.stopped = (s.boot.stopped || quorumLost t) ∧ (∀ x ∈ s.flt.sticky, x ∈ t.flt.sticky)
        ∧ (s.ret.faultList = [] → quorumLost t = false → t.flt.sticky = s.flt.sticky) ∧ t.settings = s.settings ∧ t.host.msixTable = [] ∧ t.host.vectorMask = List.range 2048
        ∧ t.host.busMaster = false ∧ t.host.linkUp = s.host.linkUp ∧ t.host.cmds = [] ∧ t.sessions = [] ∧ t.mem.cells = []))
  ∧ (∀ s, (configReach s = false ∨ discarded s .module = true) → Answers .functionLevelReset s (fun t => t = s))

/-- R46, R58, R263, R359–R372, R474, R535: the rows of start-up steps 4 to 9. The blocks of a lane test are those that arrive, the one that the end
sends where the row gives none (log 49); its wires and maps are those that the meaning of LANE_TEST settles from blocks, records and found failures. -/
def Obligations.StartUpRowsComplete : Prop :=
  (∀ s (row : Fin 8) ageing, s.tiles.length = 64 → Answers (.rowRelease row ageing) s (fun t => ∀ c < 8,
      if recordedSite s (8 * row.val + c) = some true then (tileAt t (8 * row.val + c)).state = .isolated
      else (tileAt t (8 * row.val + c)).inReset = false))
  ∧ (∀ s (site : SiteId) straps, s.tiles.length = 64 → plannedState s site ≠ .isolated → (tileAt s site).inReset = false →
      strapsOk site.val straps.toNat = true → sameReport s site.val straps.toNat = [] →
      Answers (.tilePositionReport site straps) s (fun t => (tileAt t site).state = plannedState s site ∧ (tileAt t site).idValid = true
        ∧ (tileAt t site).col = strapCol straps.toNat ∧ (tileAt t site).row = strapRow straps.toNat
        ∧ (tileAt t site).rotation = strapRotation straps.toNat ∧ (tileAt t site).mirror = strapMirror straps.toNat))
  ∧ (∀ s (site : SiteId) straps, s.tiles.length = 64 → plannedState s site ≠ .isolated → (tileAt s site).inReset = false →
      (strapsOk site.val straps.toNat = false ∨ sameReport s site.val straps.toNat ≠ []) →
      Answers (.tilePositionReport site straps) s (fun t => (tileAt t site).state = .isolated
        ∧ ∀ m ∈ sameReport s site.val straps.toNat, (tileAt t m).state = .isolated))
  ∧ (∀ s b p fh ft bh bt here there fa ma fb mb, HasEnd s b → HasEnd s p → peerEnd b = some p → peerEnd p = some b → bundleRecorded s b = false →
      endReady s b = true → endReady s p = true → here = arriving s p ft bh → there = arriving s b fh bt → blockOk here = true →
      blockOk there = true → blockFrom p here = true → blockFrom b there = true →
      settledMap ((s.startEngine b).startEngine p) b fh there here = some (fa, ma) →
      settledMap ((s.startEngine b).startEngine p) p ft here there = some (fb, mb) →
      Answers (.laneTest b fh ft true true bh bt) s (fun t =>
        (bundleAt t b).state = (if ma.2.isSome then .degraded else .full) ∧ (bundleAt t b).spares = ma.1 ∧ (bundleAt t b).dropped = ma.2
        ∧ (bundleAt t p).state = (if mb.2.isSome then .degraded else .full) ∧ (bundleAt t p).spares = mb.1 ∧ (bundleAt t p).dropped = mb.2
        ∧ (bundleAt t b).block = here ∧ (bundleAt t p).block = there))
  ∧ (∀ s b p fh ft fckOk flitsOk bh bt here there, HasEnd s b → HasEnd s p → peerEnd b = some p → peerEnd p = some b → bundleRecorded s b = false →
      endReady s b = true → endReady s p = true → here = arriving s p ft bh → there = arriving s b fh bt →
      (blockOk here = true → blockFrom p here = true) → (blockOk there = true → blockFrom b there = true) →
      (fckOk = false ∨ flitsOk = false ∨ blockOk here = false ∨ blockOk there = false
        ∨ settledMap ((s.startEngine b).startEngine p) b fh there here = none
        ∨ settledMap ((s.startEngine b).startEngine p) p ft here there = none) →
      Answers (.laneTest b fh ft fckOk flitsOk bh bt) s (fun t => recordedBundle t b = true ∧ recordedBundle t p = true))
  ∧ (∀ s b p m fh ft fckOk flitsOk bh bt here there, s.tiles.length = 64 → m < 64 → peerEnd b = some p → bundleRecorded s b = false →
      endReady s b = true → endReady s p = true → here = arriving s p ft bh → there = arriving s b fh bt →
      ((blockOk here = true ∧ blockFrom p here = false ∧ m ∈ checkedSite b) ∨ (blockOk there = true ∧ blockFrom b there = false ∧ m ∈ checkedSite p)) →
      Answers (.laneTest b fh ft fckOk flitsOk bh bt) s (fun t => (tileAt t m).state = .isolated))
  ∧ (∀ s b fh ft fckOk flitsOk bh bt,
      (∀ p, peerEnd b = some p → bundleRecorded s b = true ∨ endReady s b = false ∨ endReady s p = false) →
      Answers (.laneTest b fh ft fckOk flitsOk bh bt) s (fun t => t = s))
  ∧ (∀ s (site : SiteId), s.tiles.length = 64 → (tileAt s site).state = .compute → (tileAt s site).inReset = false →
      Answers (.cellSetup site) s (fun t => (tileAt t site).settingUp = true ∧ (tileAt t site).setupDone = false ∧ (tileAt t site).logical = []
        ∧ (tileAt t site).sampling = none))
  ∧ (∀ s (site : SiteId), ¬ ((tileAt s site).state = .compute ∧ (tileAt s site).inReset = false) → Answers (.cellSetup site) s (fun t => t = s))
  ∧ (∀ s (site : SiteId) k, s.tiles.length = 64 → (tileAt s site).settingUp = true → (tileAt s site).state = .compute →
      (tileAt s site).retiring = false → (liveCells (tileAt s site)).getLast? = some k →
      Answers (.cellSetupDone site []) s (fun t => (tileAt t site).setupDone = true ∧ (tileAt t site).sampling = some k
        ∧ (tileAt t site).logical = (liveCells (tileAt s site)).dropLast ∧ (tileAt t site).rotating = true))
  ∧ (∀ s (site : SiteId), s.tiles.length = 64 → (tileAt s site).settingUp = true → (tileAt s site).state = .compute →
      (tileAt s site).retiring = true → Answers (.cellSetupDone site []) s (fun t => (tileAt t site).settingUp = false
        ∧ (tileAt t site).setupDone = (tileAt s site).setupDone ∧ (tileAt t site).logical = (tileAt s site).logical))
  ∧ (∀ s (site : SiteId) failed, s.tiles.length = 64 → (tileAt s site).settingUp = true →
      Answers (.cellSetupDone site failed) s (fun t => ∀ k ∈ failed, k.val ∈ (tileAt t site).retiredCells))
  ∧ (∀ s (site : SiteId) idA idB ta tb, s.tiles.length = 64 → (tileAt s site).state ≠ .isolated → (tileAt s site).memFailed = false →
      Answers (.gddr7TrainingDone site false false idA idB ta tb) s (fun t => (tileAt t site).memInService = true ∧ (tileAt t site).training = false
        ∧ (tileAt t site).thermal.gddrTemp = Nat.max ta tb ∧ site.val ∈ t.mem.trainedOnce
        ∧ (site.val ∉ s.mem.trainedOnce → s.mem.heldAccesses = [] → s.runs = [] → ∀ a, siteBase site ≤ a → a < siteBase site + siteUsable → readByte t.mem.cells a = 0)))
  ∧ (∀ s (site : SiteId) a b idA idB ta tb, s.tiles.length = 64 → (tileAt s site).state ≠ .isolated → (tileAt s site).memFailed = false →
      (a || b) = true →
      Answers (.gddr7TrainingDone site a b idA idB ta tb) s (fun t => (tileAt t site).memInService = false ∧ (tileAt t site).memFailed = true))
  ∧ (∀ s ms, readyDue s ms = true → computeSites s ≠ [] →
      Answers (.moduleReady ms) s (fun t => t.boot.ready = true ∧ t.boot.step = 9 ∧ t.boot.readyMs = Nat.min ms 65535 ∧ t.boot.inProgress = none
        ∧ t.pins.readyOut = true ∧ t.boot.cause.getLsbD 0 = true))
  ∧ (∀ s ms, readyDue s ms = true → computeSites s = [] →
      Answers (.moduleReady ms) s (fun t => t = { s with boot := { s.boot with step := 9 } }))

/-- R33, R490, R560: the clocks. -/
def Obligations.ClockRowsComplete : Prop :=
  (∀ s, s.pins.pwrgd = true → s.ret.clockStop = none → s.ret.tripped = false →
      Answers .refclkLost s (fun t => t.pins.refclk = false ∧ t.ret.clockStop = some (srcId 0 0 6) ∧ t.boot.stopped = true ∧ t.boot.ready = false
        ∧ t.pins.readyOut = false ∧ t.host.cmds = [] ∧ t.mem.cells = []))
  ∧ (∀ s, s.ret.tripped = true → Answers .refclkLost s (fun t => t.pins.refclk = false ∧ t.ret.tripKind = .none ∧ t.ret.tripSource = 0
        ∧ t.ret.clockStop = s.ret.clockStop ∧ t.pins.regulators = s.pins.regulators))
  ∧ (∀ s src katOk idA idB, s.pins.pwrgd = true → s.ret.clockStop = some src →
      Answers (.refclkRestored katOk idA idB) s (fun t => t.pins.refclk = true ∧ t.ret.clockStop = none ∧ t.boot.lastKind = .cold ∧ t.boot.step = 4
        ∧ src ∈ t.flt.sticky))
  ∧ (∀ s, s.pins.pwrgd = true → s.ret.clockStop = none → s.ret.tripped = false →
      Answers .hubPllUnlock s (fun t => t.ret.clockStop = some (srcId 0 0 7) ∧ t.boot.stopped = true ∧ t.boot.ready = false ∧ t.host.cmds = []))
  ∧ (∀ s (site : SiteId), s.tiles.length = 64 → Answers (.tilePllUnlock site) s (fun t => (tileAt t site).clockLost = true))
  ∧ (∀ s b (n : SiteId) i, s.tiles.length = 64 → peerEnd b = some (.tile n i) → (tileAt s n).clockLost = true →
      Answers (.forwardedClockStop b) s (fun t => i.val ∈ (tileAt t n).stopped))
  ∧ (∀ s b (n : SiteId) i, s.tiles.length = 64 → peerEnd b = some (.tile n i) → (tileAt s n).clockLost = false →
      Answers (.forwardedClockStop b) s (fun t => recordedBundle t b = true ∧ recordedBundle t (.tile n i) = true))
  ∧ (∀ s (e : EngineId) u, s.engines.length = 24 → u = (if (engineAt s e).state = .up then s.linkDown e else s) →
      Answers (.enginePllUnlock e) s (fun t => (engineAt t e).state
          = (if siteLost u e || engineCut u e || engineBlind (engineAt u e) then .outOfService else (engineAfter false u e).state)
        ∧ (engineAt t e).started = true ∧ (engineAt t e).inReset = false ∧ (engineAt t e).clockLost = true
        ∧ (engineAt t e).linkDowns = (engineAt u e).linkDowns))

/-- R25–R28, R51–R55, R62–R65, R70, R203, R485, R486, R503, R504: the rows of tile sites and their cells. -/
def Obligations.TileRowsComplete : Prop :=
  (∀ s (site : SiteId), s.tiles.length = 64 → (tileAt s site).state = .compute → hasBundle s site = true → (tileAt s site).retiring = false →
      Answers (.tileRetire site true) s (fun t => (tileAt t site).state = .compute ∧ (tileAt t site).retiring = true
        ∧ (tileAt t site).draining = true ∧ (tileAt t site).drainAbandoned = false ∧ Mirror.retiredSite site false ∈ t.log.held
        ∧ srcId 1 site 0x0A ∈ t.flt.sticky))
  ∧ (∀ s (site : SiteId), (tileAt s site).state = .compute → hasBundle s site = true → (tileAt s site).retiring = true →
      Answers (.tileRetire site true) s (fun t => t = s))
  ∧ (∀ s (site : SiteId) routerOk, s.tiles.length = 64 → (tileAt s site).state = .compute → ¬ (routerOk = true ∧ hasBundle s site = true) →
      Answers (.tileRetire site routerOk) s (fun t => (tileAt t site).state = .isolated
        ∧ (∀ n rest, sparesLeft s = n :: rest → (tileAt s n).state = .spare →
          (tileAt t n).state = .compute ∧ ((tileAt s site).heldRole ≠ .none → (tileAt t n).role = (tileAt s site).heldRole))))
  ∧ (∀ s (site : SiteId), s.tiles.length = 64 → (tileAt s site).state ≠ .isolated →
      Answers (.siteIsolate site) s (fun t => (tileAt t site).state = .isolated ∧ (tileAt t site).inReset = true))
  ∧ (∀ s (site : SiteId) copyError cs ct, s.tiles.length = 64 → (tileAt s site).sampling = some cs → (tileAt s site).samples = true →
      (tileAt s site).katPassed = true → nextCell (liveCells (tileAt s site)) cs = some ct →
      Answers (.slotEnd site copyError) s (fun t => (tileAt t site).sampling = some ct
        ∧ (tileAt t site).logical = (tileAt s site).logical.map (fun k => if k = ct then cs else k)))
  ∧ (∀ s (site : SiteId) k, s.tiles.length = 64 → (tileAt s site).sampling = some k → (tileAt s site).samples = true →
      (tileAt s site).katPassed = false →
      Answers (.katResult site true) s (fun t => (tileAt t site).katPassed = true ∧ t.flt.stRun = s.flt.stRun + 1 ∧ t.flt.stFailed = s.flt.stFailed))
  ∧ (∀ s (site : SiteId) k, s.tiles.length = 64 → (tileAt s site).sampling = some k → (tileAt s site).samples = true →
      (tileAt s site).katPassed = false →
      Answers (.katResult site false) s (fun t => k ∈ (tileAt t site).retiredCells ∧ t.flt.stRun = s.flt.stRun + 1
        ∧ t.flt.stFailed = s.flt.stFailed + 1 ∧ srcId 1 site 0 ∈ t.flt.sticky))
  ∧ (∀ s (site : SiteId), s.tiles.length = 64 → (tileAt s site).state ≠ .isolated → (tileAt s site).idValid = true →
      Answers (.tileControllerWatchdog site) s (fun t => (tileAt t site).training = !(tileAt s site).memFailed ∧ (tileAt t site).idValid = false
        ∧ (tileAt t site).memInService = false ∧ (tileAt t site).logical = []))
  ∧ (∀ s core, coreOut s core.val = false → Answers (.coreWatchdog core) s (fun t => coreOut t core.val = true
        ∧ ∀ c ∈ t.host.cmds, c.core = core.val → c.done.isSome = true))
  ∧ (∀ s core, coreOut s core.val = true → Answers (.coreWatchdog core) s (fun t => t = s))
  ∧ (∀ s (site : SiteId), s.tiles.length = 64 → (tileAt s site).draining = true → (tileAt s site).drainAbandoned = false →
      Answers (.drainAbandon site) s (fun t => (tileAt t site).drainAbandoned = true ∧ (tileAt t site).draining = true
        ∧ t.cel.units.length = s.cel.units.length
        ∧ (∀ u ∈ t.cel.units, s.runs.any (fun r => r.cid == u.cid) = true → u.site ≠ some site.val)))
  ∧ (∀ s (site : SiteId), s.tiles.length = 64 → (tileAt s site).draining = true → (tileAt s site).drainAbandoned = true → copiesAt s site = false →
      memWaitsBy s (some site.val) (freshImages s (s.saveClusters site)) = false →
      Answers (.drainEnd site) s (fun t => (tileAt t site).draining = false ∧ (tileAt t site).drainAbandoned = false
        ∧ ((tileAt s site).retiring = false → (tileAt t site).nextRole = none ∧ (tileAt t site).state = (tileAt s site).state
            ∧ (tileAt t site).role = (tileAt s site).nextRole.getD (tileAt s site).role)
        ∧ ((tileAt s site).retiring = true → (tileAt t site).state = .retired ∧ (tileAt t site).retiring = false ∧ (tileAt t site).role = .none
            ∧ (tileAt t site).sampling = none ∧ (tileAt t site).logical = [] ∧ (tileAt t site).setupDone = false)
        ∧ ((tileAt s site).retiring = true → (tileAt s site).state = .compute → ∀ n rest, sparesLeft s = n :: rest → (tileAt s n).state = .spare →
            (tileAt t n).state = .compute ∧ ((tileAt s site).heldRole ≠ .none → (tileAt t n).role = (tileAt s site).heldRole))
        ∧ (∀ u ∈ t.cel.units, u.site ≠ some site.val) ∧ (∀ l ∈ t.launches, ∀ c ∈ l.clusters, c.runsAt site = false)))

/-- R144, R193, R199, R204, R206, R207, R212, R213, R218, R239, R464: the rows of the Cellarer. The tile and the logical cell of a unit are those that R199
chooses. -/
def Obligations.CellarerRowsComplete : Prop :=
  (∀ s loads, s.boot.ready = true →
      Answers (.cellarerPlan loads) s (fun t => t.cel.plan = (s.cel.plan + 1) % 2 ^ 32 ∧ t.cel.kvRate = kvRateOf s.cel.kvRead ∧ t.cel.kvRead = 0
        ∧ t.cel.loads = loads ∧ t.cel.newRole = none ∧ t.cel.moduleRole = s.cel.newRole.getD s.cel.moduleRole
        ∧ (s.cel.plansMade ≠ 0 → t.cel.wMash = pendingWork s .mash ∧ t.cel.wDraught = pendingWork s .draught)
        ∧ (s.cel.plansMade = 0 → ∀ r, s.cel.ratio = some r → t.cel.wMash = r.1 ∧ t.cel.wDraught = r.2)))
  ∧ (∀ s loads, s.boot.ready = false → Answers (.cellarerPlan loads) s (fun t => t = s))
  ∧ (∀ s unit loads u n, s.cel.units.find? (fun u => u.id == unit && u.site.isNone && workBegun s u.cid && !selftestRunning s) = some u →
      chooseTile s (unitNow s u) loads = some n → memWaitsBy s (some n) (clusterImage s u.cid u.op) = false →
      accessSource s (some n) true (clusterImage s u.cid u.op) = none →
      Answers (.workUnitAssign unit loads) s (fun t => (∃ v ∈ t.cel.units, v.id = unit ∧ v.site = some n ∧ v.cells = unitCells s u n ∧ v.op = u.op)
        ∧ (n < s.tiles.length → s.cel.units.any (fun x => x.site == some n) = false → (tileAt t n).thermal.issueRate = 0)))
  ∧ (∀ s unit u, s.cel.units.find? (fun u => u.id == unit && u.site.isSome) = some u → unitDone s u = true →
      Answers (.workUnitComplete unit) s (fun t => t.cel.units = without (fun x => x.id == unit) s.cel.units))
  ∧ (∀ s move m b, s.cel.moves.find? (fun m => m.id == move && !m.switched) = some m →
      (s.trans.requests ++ s.trans.waiting).any (fun q => q.cid.isNone && q.block == some m.block) = false →
      s.cel.blocks.find? (fun b => b.id == m.block) = some b → (movePieces b m).2.any (movedToBad s) = false → memWaits s ((movePieces b m).1 ++ (movePieces b m).2) = false →
      accessSource s none true (movePieces b m).1 = none → accessSource s none false (movePieces b m).2 = none →
      Answers (.blockMoveSwitch move true) s (fun t => (∀ x ∈ t.cel.blocks, x.id = b.id → x.place = m.dest ∧ x.extent = m.destExtent)
        ∧ t.cel.blocks.length = s.cel.blocks.length ∧ (∃ q ∈ t.cel.moves, q.id = move ∧ q.switched = true ∧ q.oldPlace = b.place)))
  ∧ (∀ s move m, s.cel.moves.find? (fun m => m.id == move && m.switched) = some m → s.runs.any (fun r => r.cid + 1 == m.readers) = false →
      Answers (.blockMoveSourceFree move) s (fun t => t.cel.moves = without (fun m => m.id == move) s.cel.moves ∧ t.cel.blocks = s.cel.blocks))
  ∧ (∀ s (model : Fin 64), s.models.length = 64 → (modelAt s model).state = .reloading → (∀ x ∈ (modelAt s model).shards, x.lost = false) →
      ((modelAt s model).cxlCopySource = true ∨ hostOpen s = true) → memWaits s ((modelAt s model).shards.flatMap (·.stripes)) = false →
      Answers (.stripeReloadDone model true) s (fun t => (modelAt t model).state = .ready ∧ (modelAt t model).shards = (modelAt s model).shards))
  ∧ (∀ s (model : Fin 64) u, s.models.length = 64 → (modelAt s model).state = .reloading →
      ((modelAt s model).cxlCopySource && (modelAt s model).shards.any (fun x => x.lost && x.copyLost)) = false →
      (if (modelAt s model).cxlCopySource then memWaits s (((modelAt s model).shards.filter (·.lost)).flatMap (·.cxlCopy)) else !hostOpen s) = false →
      ((modelAt s model).shards.filter (·.lost)).foldl (fun acc x => acc.bind (State.replaceShard model x.index x.epoch)) (some s) = some u →
      memWaits s ((modelAt u model).shards.flatMap (·.stripes)) = false →
      Answers (.stripeReloadDone model true) s (fun t => (modelAt t model).state = .ready ∧ (modelAt t model).shards = (modelAt u model).shards))
  ∧ (∀ s (model : Fin 64), s.models.length = 64 → (modelAt s model).state = .reloading →
      Answers (.stripeReloadDone model false) s (fun t => (modelAt t model).state = .failed))
  ∧ (∀ s (model : Fin 64) k x, s.models.length = 64 →
      (modelAt s model).shards.find? (fun x => x.index == k && x.spilled && !x.lost && x.atPeer.isNone) = some x → k ∈ nextSpilled (modelAt s model) →
      (∀ p ∈ (modelAt s model).prefetched, p.1 ≠ k) →
      memWaits s (x.stripes ++ stagingPieces (modelAt s model) (stagingHalf (modelAt s model)) x.data.length) = false →
      Answers (.shardPrefetch model k) s (fun t => (k, stagingHalf (modelAt s model)) ∈ (modelAt t model).prefetched
        ∧ (modelAt t model).state = (modelAt s model).state
        ∧ t.mem.cells = writePieces s.mem.cells (stagingPieces (modelAt s model) (stagingHalf (modelAt s model)) x.data.length) x.data))

/-- R149, R163, R178–R181, R186, R323, R324, R329: how a kernel is loaded and launched, and how a launch that runs too long ends. The second row of
KERNEL_LAUNCH begins the launch that its first row accepted (log 25). -/
def Obligations.KernelCommandsComplete : Prop :=
  (∀ s cid c image k i, ActsReading s cid 0x32 c → image.length = c.arg 0x10 4 → checkKernel image = .ok k →
      freeIndex (s.kernels.map (·.1)) 1024 = some i →
      Answers (.kernelLoad cid image) s (fun t => t.kernels = s.kernels ++ [(i, genOf s.kernelGen i, k)]
        ∧ Ended t cid .ok (resultOf [(0x14, 8, handleWord 3 (genOf s.kernelGen i) i), (0x1C, 1, k.perCell), (0x1D, 1, (clusterNeeds k).1),
                                     (0x20, 4, 0xFFFFFFFF)])))
  ∧ (∀ s cid c slots params i g k, ActsReading s cid 0x33 c → launchOf s cid = none → slots.length = 128 → params.length = 256 →
      kernelHandle s (c.arg 8 8) = some (i, g, k) → selftestRunning (s.startCmd cid) = false →
      (∀ l : Launch, l.slots = (List.range 16).map (fun j => field (8 * j) 8 slots) → l.kernel = k → usesBusy (s.startCmd cid) cid (launchUses s l).2 = false) →
      (s.launches.filter (fun q => q.kernelIndex == i)).length + waitingOn (s.startCmd cid) 0x33 (c.arg 8 8) < 64 → overloaded (s.startCmd cid) .mash = false →
      slotsOk s k ((List.range 16).map (fun j => field (8 * j) 8 slots)) = true →
      Answers (.kernelLaunch cid slots params) s (fun t => (launchOf t cid).map (fun l => (l.kernel, l.kernelIndex, l.clusterCount, l.params, l.error))
        = some (k, i, c.arg 0x10 4, params, none) ∧ t.cel.units.length = s.cel.units.length + c.arg 0x10 4))
  ∧ (∀ s cid slots params l, launchOf s cid = some l → l.begun = false → usesWait s cid (launchUses s l).1 (launchUses s l).2 = false →
      Answers (.kernelLaunch cid slots params) s (fun t => (launchOf t cid).map (fun q => (q.begun, q.clusters.length)) = some (true, l.clusterCount)
        ∧ t.cel.units = s.cel.units))
  ∧ (∀ s cid c l, Live s cid c → launchOf s cid = some l → l.clusters.any (·.started) = true →
      Answers (.kernelTimeLimit cid) s (fun t => (∃ e, (launchOf t cid).map (·.error) = some (some e) ∧ (l.error = none → e.code = 7))
        ∧ ∃ u, step { t with pending := [] } = .next u ∧ launchOf u cid = none ∧ EndedAs u cid .badDescriptor))

/-- Tables 6-5 and 6-6, R152, R153, R161, R162, R171–R174: the control and register instructions, for a warp of which some threads execute. A register that
an instruction names is the destination field's, g255 discards; the codes are log 8. -/
def Obligations.WarpAndRegisterInstructionsComplete : Prop :=
  (∀ s r x, Issues s r .nop x → Answers (.kernelNop r) s (fun t => WarpIs t r (fun w _ => w = x.w.next)))
  ∧ (∀ s r x, Issues s r .bra x → (lanesLess x.w.active ((List.range 32).map (fun k => x.lanes.contains k))).any id = false →
      Answers (.bra r) s (fun t => WarpIs t r (fun w _ => w = { x.w with pc := jump x.w.pc x.word })))
  ∧ (∀ s r x, Issues s r .bra x → (lanesLess x.w.active ((List.range 32).map (fun k => x.lanes.contains k))).any id = true → x.w.stack.length < 32 →
      Answers (.bra r) s (fun t => WarpIs t r (fun w _ => w.pc = x.w.pc + 1
        ∧ w.active = lanesLess x.w.active ((List.range 32).map (fun k => x.lanes.contains k))
        ∧ w.stack = { join := joinNamed x.l.kernel.code x.w.pc, other := some (jump x.w.pc x.word, (List.range 32).map (fun k => x.lanes.contains k)), before := x.w.active } :: x.w.stack)))
  ∧ (∀ s r x, Issues s r .join x → x.w.stack = [] →
      Answers (.join r) s (fun t => WarpIs t r (fun w _ => w = { x.w with pc := jump x.w.pc x.word })))
  ∧ (∀ s r x d l, Issues s r .join x → x.w.stack = d :: l → d.join ≠ x.w.pc →
      Answers (.join r) s (fun t => WarpIs t r (fun w _ => w = { x.w with pc := jump x.w.pc x.word })))
  ∧ (∀ s r x d l p m, Issues s r .join x → x.w.stack = d :: l → d.join = x.w.pc → d.other = some (p, m) → m.any id = true →
      Answers (.join r) s (fun t => WarpIs t r (fun w _ => w = { x.w with pc := p, active := m, stack := { d with other := none } :: l })))
  ∧ (∀ s r x d l, Issues s r .join x → x.w.stack = d :: l → d.join = x.w.pc → (∀ p m, d.other = some (p, m) → m.any id = false) →
      Answers (.join r) s (fun t => WarpIs t r (fun w _ => w = ({ x.w with active := d.before } : Warp).atJoin (jump x.w.pc x.word) l)))
  ∧ (∀ s r x, Issues s r .exit x → (x.w.dropLanes ((List.range 32).map (fun k => x.lanes.contains k))).active.any id = true →
      Answers (.exit r) s (fun t => WarpIs t r (fun w _ => w = (x.w.dropLanes ((List.range 32).map (fun k => x.lanes.contains k))).next)))
  ∧ (∀ s r x y, Issues s r .exit x → y = x.w.dropLanes ((List.range 32).map (fun k => x.lanes.contains k)) → y.active.any id = false →
      (y.unwind y.stack).exited = false → Answers (.exit r) s (fun t => WarpIs t r (fun w _ => w = y.unwind y.stack)))
  ∧ (∀ s r x y, Issues s r .exit x → y = x.w.dropLanes ((List.range 32).map (fun k => x.lanes.contains k)) → y.active.any id = false →
      (y.unwind y.stack).exited = true → Answers (.exit r) s (fun t => ∀ q, warpAt t r = some q → q.2.2.2.exited = true))
  ∧ (∀ s r op x, Issues s r (.int op) x → kImm x.word = true → Answers (.intOp r op) s (fun t => WarpIs t r (fun w _ => Stepped x (fun k y =>
      y.result (kDst x.word) 1 (intLane op 32 (y.reg (kSrc0 x.word)) (x.word % 2 ^ 32) 0 (x.open_ k))) w)))
  ∧ (∀ s r op x, Issues s r (.int op) x → kImm x.word = false → bits 7 0 x.word ≠ 1 → Answers (.intOp r op) s (fun t => WarpIs t r (fun w _ =>
      Stepped x (fun k y => y.result (kDst x.word) 1 (intLane op 32 (y.reg (kSrc0 x.word)) (y.reg (kSrc1 x.word)) (y.reg (kSrc2 x.word))
        (x.open_ k))) w)))
  ∧ (∀ s r op x, Issues s r (.int op) x → kImm x.word = false → bits 7 0 x.word = 1 → Answers (.intOp r op) s (fun t => WarpIs t r (fun w _ =>
      Stepped x (fun k y => y.result (kDst x.word) 2 (intLane op 64 (y.reg64 (kSrc0 x.word)) (y.reg64 (kSrc1 x.word)) (y.reg64 (kSrc2 x.word))
        (x.open_ k))) w)))
  ∧ (∀ s r op x, Issues s r (.fp op) x → kImm x.word = true → Answers (.fpOp r op) s (fun t => WarpIs t r (fun w _ => Stepped x (fun _ y =>
      y.result (kDst x.word) 1 (fpLane op (y.reg (kSrc0 x.word)) (x.word % 2 ^ 32) 0)) w)))
  ∧ (∀ s r op x, Issues s r (.fp op) x → kImm x.word = false → bits 7 0 x.word ≠ 1 → Answers (.fpOp r op) s (fun t => WarpIs t r (fun w _ =>
      Stepped x (fun _ y => y.result (kDst x.word) 1 (fpLane op (y.reg (kSrc0 x.word)) (y.reg (kSrc1 x.word)) (y.reg (kSrc2 x.word)))) w)))
  ∧ (∀ s r op x, Issues s r (.fp op) x → kImm x.word = false → bits 7 0 x.word = 1 → (∀ v, op ≠ .cmp v) →
      Answers (.fpOp r op) s (fun t => WarpIs t r (fun w _ => Stepped x (fun k y =>
        y.put (kDst x.word) (x.open_ k) 2) w)))
  ∧ (∀ s r v x, Issues s r (.fp (.cmp v)) x → kImm x.word = false → bits 7 0 x.word = 1 →
      Answers (.fpOp r (.cmp v)) s (fun t => WarpIs t r (fun w _ => Stepped x (fun k y =>
        y.putPred (kDst x.word) (bit 0 (x.open_ k))) w)))
  ∧ (∀ s r src dst x n v, Issues s r (.cvt src dst) x → n = (if bits 7 0 x.word = 1 then 64 else 32) →
      v = (fun ty : CvtType => if cvtIsInt ty then n / 32 else 1) →
      Answers (.cvt r src dst) s (fun t => WarpIs t r (fun w _ => Stepped x (fun k y =>
        y.put (kDst x.word) (cvtTo n dst ((convOf (bits 15 8 x.word)).getD conv0) (cvtValue n src (y.words (kSrc0 x.word) (v src)))
          (x.open_ k % 65536) (x.open_ k)) (v dst)) w)))
  ∧ (∀ s r x, Issues s r .fence x → Answers (.fence r) s (fun t => WarpIs t r (fun w _ => w = x.w.next)))
  ∧ (∀ s r code x, Issues s r (.sreg code) x → Answers (.sreg r) s (fun t => WarpIs t r (fun w _ => Stepped x (fun lane y =>
      y.put (kDst x.word) (match code with
        | 0 => lane | 1 => r.warp | 2 => r.group | 3 => r.cluster | 4 => x.l.kernel.warps | 5 => x.l.kernel.groups | 6 => x.l.clusterCount
        | 7 => x.l.seed.toNat % 2 ^ 32 | 8 => x.l.seed.toNat / 2 ^ 32 | _ => x.l.inst.toNat) 1) w)))
  ∧ (∀ s r x, Issues s r .bar x → bits 11 5 x.word
        ≤ arrivals (setAt x.g.warps r.warp { x.w with waiting := some (bits 15 12 x.word, bits 11 5 x.word) }) (bits 15 12 x.word) →
      Answers (.bar r) s (fun t => WarpIs t r (fun w _ => w = { x.w with pc := x.w.pc + 1 })))
  ∧ (∀ s r x, Issues s r .bar x → arrivals (setAt x.g.warps r.warp { x.w with waiting := some (bits 15 12 x.word, bits 11 5 x.word) }) (bits 15 12 x.word)
        < bits 11 5 x.word →
      Answers (.bar r) s (fun t => WarpIs t r (fun w _ => w = { x.w with waiting := some (bits 15 12 x.word, bits 11 5 x.word) })))
  ∧ (∀ s r x, Issues s r .waitCopy x → x.w.counters.getD (bits 15 13 x.word) 0 ≤ bits 12 0 x.word →
      Answers (.waitCopy r) s (fun t => WarpIs t r (fun w _ => w = x.w.next)))
  ∧ (∀ s r x, Issues s r .waitCopy x → bits 12 0 x.word < x.w.counters.getD (bits 15 13 x.word) 0 → Answers (.waitCopy r) s (fun t => t = s))
  ∧ (∀ s r x c, warpCtx s r = some x → x.lanes = [] → RowOf r x.op c →
      Answers c s (fun t => WarpIs t r (fun w g => w = x.w.next ∧ g.store = x.g.store ∧ g.tiles = x.g.tiles) ∧ t.mem = s.mem))

/-- R156–R161, R170, R178: the memory instructions, in each space. -/
def Obligations.KernelMemoryInstructionsComplete : Prop :=
  (∀ s r x, Issues s r .ld x → Reaches s x (kSpace x.word) (kSlot x.word) (kSize x.word) true false (x.lanes.map (fun k => (x.w.thread k).addr x.word)) →
      Answers (.ld r) s (fun t => WarpIs t r (fun w _ => Stepped x (fun _ y =>
        y.put (kDst x.word) (leNat (spaceRead s x (kSpace x.word) (kSlot x.word) (y.addr x.word) (kSize x.word))) ((kSize x.word + 3) / 4)) w)))
  ∧ (∀ s r x l, Issues s r .st x → l = x.lanes.map (fun k => ((x.w.thread k).addr x.word,
        leBytes (kSize x.word) ((x.w.thread k).words (kSrc1 x.word) ((kSize x.word + 3) / 4)))) →
      Reaches s x (kSpace x.word) (kSlot x.word) (kSize x.word) false true (l.map (·.1)) →
      Answers (.st r) s (fun t => WarpIs t r (fun w g => w = x.w.next
        ∧ g.store = (if kSpace x.word = 0 then l.foldl (fun m p => writeBytes m p.1 p.2) x.g.store else x.g.store)
        ∧ (kSpace x.word < 2 → t.mem = s.mem)
        ∧ (kSpace x.word = 1 → TileStoreIs t r (l.foldl (fun m p => writeBytes m p.1 p.2) x.c.store))
        ∧ (kSpace x.word = 2 → t.mem.cells = l.foldl (fun m p => writePieces m (slotPieces s x (kSlot x.word) p.1 p.2.length) p.2) s.mem.cells))))
  ∧ (∀ s r op x ops f, Issues s r (.atom op) x → (kSize x.word = 4 ∨ kSize x.word = 8) → (kSpace x.word = 1 ∨ kSpace x.word = 2) →
      ops = x.lanes.map (fun k => (k, (x.w.thread k).addr x.word, (x.w.thread k).words (kSrc1 x.word) (kSize x.word / 4),
        (x.w.thread k).words (kSrc1 x.word + kSize x.word / 4) (kSize x.word / 4))) →
      f = atomFold op (kSize x.word) (fun o => spaceRead s x (kSpace x.word) (kSlot x.word) o (kSize x.word)) ops ([], []) →
      Reaches s x (kSpace x.word) (kSlot x.word) (kSize x.word) true true (ops.map (fun p => p.2.1)) →
      Answers (.atom r op) s (fun t => WarpIs t r (fun w _ => Stepped x (fun k y =>
          y.put (kDst x.word) ((lookupKey k f.2).getD 0) (kSize x.word / 4)) w)
        ∧ (kSpace x.word = 1 → TileStoreIs t r (f.1.reverse.foldl (fun m p => writeBytes m p.1 p.2) x.c.store))
        ∧ (kSpace x.word = 2 → t.mem.cells
            = f.1.reverse.foldl (fun m p => writePieces m (slotPieces s x (kSlot x.word) p.1 p.2.length) p.2) s.mem.cells)))
  ∧ (∀ s r toStore counter x off place len, Issues s r (.memCopy toStore counter) x → off = x.lead.reg64 (kSrc0 x.word) → place = x.lead.reg (kSrc1 x.word) →
      len = x.lead.reg (kSrc1 x.word + 1) → kSpace x.word ≤ 1 → 16 ≤ len → len ≤ 2 ^ 20 → place + len ≤ spaceSize s x (kSpace x.word) (kSlot x.word) →
      off + len ≤ spaceSize s x 2 (kSlot x.word) → (toStore = true ∨ (x.l.kernel.slots.getD (kSlot x.word) (0, 0, 0)).2.1 = 2) →
      Answers (.memCopy r) s (fun t => WarpIs t r (fun w _ => w.pc = x.w.pc + 1 ∧ w.counters = modAt x.w.counters counter (· + 1)
        ∧ w.copies = x.w.copies ++ [{ counter, toStore, slot := kSlot x.word, offset := off, tile := kSpace x.word == 1, place, len }])))
  ∧ (∀ s r copy l c g y q x, warpAt s r = some (l, c, g, y) → y.copies[copy]? = some q → y.exited = false → y.waiting = none →
      x = ({ ref := r, l := l, c := c, g := g, w := y, op := .nop, word := 0 } : KCtx) → (q.toStore = true ∨ l.error = none) →
      memWaitsBy s c.site (slotPieces s x q.slot q.offset q.len) = false → accessSource s c.site q.toStore (slotPieces s x q.slot q.offset q.len) = none →
      Answers (.memCopyDone r copy) s (fun t => WarpIs t r (fun w h => w.copies = y.copies.eraseIdx copy ∧ w.pc = y.pc
          ∧ w.counters = modAt y.counters q.counter (· - 1)
          ∧ (q.toStore = true → q.tile = false → h.store = writeBytes g.store q.place (spaceRead s x 2 q.slot q.offset q.len)))
        ∧ (q.toStore = true → q.tile = true → TileStoreIs t r (writeBytes c.store q.place (spaceRead s x 2 q.slot q.offset q.len)))
        ∧ (q.toStore = false → t.mem.cells = writePieces s.mem.cells (slotPieces s x q.slot q.offset (spaceRead s x (bnat q.tile) 0 q.place q.len).length)
            (spaceRead s x (bnat q.tile) 0 q.place q.len))))
  ∧ (∀ s r copy l c g y q x, warpAt s r = some (l, c, g, y) → y.copies[copy]? = some q → (y.exited = true ∨ y.waiting.isSome = true) →
      x = ({ ref := r, l := l, c := c, g := g, w := y, op := .nop, word := 0 } : KCtx) → (q.toStore = true ∨ l.error = none) →
      memWaitsBy s c.site (slotPieces s x q.slot q.offset q.len) = false → accessSource s c.site q.toStore (slotPieces s x q.slot q.offset q.len) = none →
      Answers (.memCopyDone r copy) s (fun t => ∀ z, warpAt t r = some z →
        z.2.2.2.copies = y.copies.eraseIdx copy ∧ z.2.2.2.counters = modAt y.counters q.counter (· - 1)))
  ∧ (∀ s r x, Issues s r .cvtBlk x → x.lead.reg (kSrc0 x.word) + (cvtBlkImage x).1.length ≤ x.l.kernel.cellStore →
      x.lead.reg (kSrc0 x.word + 1) + 1 ≤ x.l.kernel.cellStore →
      Answers (.cvtBlk r) s (fun t => WarpIs t r (fun w g => w = x.w.next
        ∧ g.store = writeBytes (writeBytes x.g.store (x.lead.reg (kSrc0 x.word)) (cvtBlkImage x).1) (x.lead.reg (kSrc0 x.word + 1)) (cvtBlkImage x).2)))

/-- R154, R164–R169: the accumulator instructions. Where the residue lane of an Exact step reports, or under injection has to report (R508), a second
mismatch or a failed piece check, one element gets no contribution, a free one (R116, log 47), and a deposit's first is discarded under injection; a bin that disagrees with its residue is reported and stored (R115), a record that fails its checks is not merged (R109). -/
def Obligations.AccumulatorInstructionsComplete : Prop :=
  (∀ s r x fa fb as bs tile residue seen u, Issues s r .mma x → x.lanes.length = 32 → fa = bits 18 15 x.word → fb = bits 14 11 x.word →
      baseOk x.l.kernel.accUnits (wantExact s x (bit 10 x.word)) (bits 23 19 x.word) = true →
      operandCode x fa ((x.w.thread 0).reg (kSrc0 x.word)) ((x.w.thread 0).reg (kSrc0 x.word + 1)) = none →
      operandCode x fb ((x.w.thread 0).reg (kSrc1 x.word)) ((x.w.thread 0).reg (kSrc1 x.word + 1)) = none →
      as = (List.range 32).map (operandRow x.g.store fa ((x.w.thread 0).reg (kSrc0 x.word)) ((x.w.thread 0).reg (kSrc0 x.word + 1))) →
      bs = (List.range 32).map (operandRow x.g.store fb ((x.w.thread 0).reg (kSrc1 x.word)) ((x.w.thread 0).reg (kSrc1 x.word + 1))) →
      (if bit 9 x.word then some (freshTile (bits 23 19 x.word) (wantExact s x (bit 10 x.word))) else x.g.tileAt (bits 23 19 x.word)
        (wantExact s x (bit 10 x.word))) = some tile →
      tile.exact = wantExact s x (bit 10 x.word) →
      seen = injectedResidue s (x.physical s).1 residue →
      u = stepTile (if tile.exact = true then skippedElement s seen else none) fa fb as bs tile → u.within →
      Answers (.mma r residue) s (fun t => WarpIs t r (fun w g => w = x.w.next ∧ g.tiles = setTile u x.g.tiles)))
  ∧ (∀ s r x, Issues s r .accZero x → baseOk x.l.kernel.accUnits (wantExact s x (bit 10 x.word)) (bits 15 11 x.word) = true →
      Answers (.accZero r) s (fun t => WarpIs t r (fun w g => w = x.w.next
        ∧ g.tiles = setTile (freshTile (bits 15 11 x.word) (wantExact s x (bit 10 x.word))) x.g.tiles)))
  ∧ (∀ s r x tile, Issues s r .accStore x → x.accTile s (kDst x.word) = some tile →
      x.lead.reg (kSrc0 x.word) + (accStoreImage x tile).length ≤ x.l.kernel.cellStore →
      Answers (.accStore r) s (fun t => WarpIs t r (fun w g => w = x.w.next ∧ g.tiles = x.g.tiles
        ∧ g.store = writeBytes x.g.store (x.lead.reg (kSrc0 x.word)) (accStoreImage x tile))))
  ∧ (∀ s r x tile, Issues s r .accExport x → x.accTile s (kDst x.word) = some tile → bits 15 14 x.word ≤ 1 →
      x.lead.reg (kSrc0 x.word) + tile.image.length ≤ spaceSize s x (bits 15 14 x.word) 0 →
      Answers (.accExport r) s (fun t => WarpIs t r (fun w g => w = x.w.next ∧ g.tiles = x.g.tiles
          ∧ (bits 15 14 x.word = 0 → g.store = writeBytes x.g.store (x.lead.reg (kSrc0 x.word)) tile.image))
        ∧ (bits 15 14 x.word = 1 → TileStoreIs t r (writeBytes x.c.store (x.lead.reg (kSrc0 x.word)) tile.image))))
  ∧ (∀ s r x tile m, Issues s r .accMerge x → x.accTile s (kDst x.word) = some tile →
      m = mergeTile s x (bits 15 14 x.word) (x.lead.reg (kSrc0 x.word)) tile →
      x.lead.reg (kSrc0 x.word) + 1024 * (if tile.exact then 48 else 4) ≤ spaceSize s x (bits 15 14 x.word) 0 → m.1.within →
      Answers (.accMerge r) s (fun t => WarpIs t r (fun w g => w = x.w.next ∧ g.tiles = setTile m.1 x.g.tiles)))
  ∧ (∀ s r x tile l, Issues s r .accDeposit x → x.g.tileAt (kDst x.word) true = some tile → tile.exact = true →
      l = (x.lanes.drop (bnat (s.flt.injecting (srcId 1 (x.physical s).1 3)))).foldl (fun l k => modAt l ((x.w.thread k).reg (kSrc1 x.word) % 1024) (Acc.add (fval ((x.w.thread k).reg (kSrc0 x.word))))) tile.records →
      ({ tile with records := l } : AccTile).within →
      Answers (.accDeposit r) s (fun t => WarpIs t r (fun w g => w = x.w.next ∧ g.tiles = setTile { tile with records := l } x.g.tiles)))

/-- R288–R293, R296, R297, R299–R308, R345, R350: the rows of the rings, from enabling one to posting a completion. -/
def Obligations.RingRowsComplete : Prop :=
  (∀ s (ring : RingNo) value, hostReach s = true → ring.val < s.host.rings.length → (ringAt s ring).state = .disabled → bit 31 value.toNat = true →
      (ringAt s ring).sqBase ≠ 0 → (ringAt s ring).cqBase ≠ 0 → 4 ≤ bits 20 16 value.toNat → bits 20 16 value.toNat ≤ 16 →
      Answers (.ringEnable ring value) s (fun t => (ringAt t ring).state = .enabled ∧ (ringAt t ring).entries = 2 ^ bits 20 16 value.toNat
        ∧ (ringAt t ring).weight = bits 27 24 value.toNat ∧ (ringAt t ring).aliveExpected = bits 15 8 value.toNat ∧ (ringAt t ring).sqHead = 0
        ∧ (ringAt t ring).sqTail = 0 ∧ (ringAt t ring).cqHead = 0 ∧ (ringAt t ring).cqTail = 0 ∧ (ringAt t ring).inFlight = 0))
  ∧ (∀ s (ring : RingNo) value, hostReach s = true → ring.val < s.host.rings.length → (ringAt s ring).state = .enabled → bit 31 value.toNat = false →
      Answers (.ringDisable ring value) s (fun t => (ringAt t ring).state = (if (ringAt s ring).inFlight = 0 then .disabled else .draining)
        ∧ (ringAt t ring).enable = false))
  ∧ (∀ s (ring : RingNo) value, hostReach s = true → ring.val < s.host.rings.length → (ringAt s ring).state = .enabled →
      value.toNat < (ringAt s ring).entries →
      Answers (.submissionTailDoorbell ring value) s (fun t => (ringAt t ring).sqTail = value.toNat ∧ (ringAt t ring).state = .enabled))
  ∧ (∀ s (ring : RingNo) value used, hostReach s = true → ring.val < s.host.rings.length → (ringAt s ring).state ≠ .disabled →
      value.toNat < (ringAt s ring).entries →
      used = (value.toNat + (ringAt s ring).entries - (ringAt s ring).cqHead) % (ringAt s ring).entries →
      used ≤ ((ringAt s ring).cqTail + (ringAt s ring).entries - (ringAt s ring).cqHead) % (ringAt s ring).entries →
      Answers (.completionHeadDoorbell ring value) s (fun t => (ringAt t ring).cqHead = value.toNat
        ∧ (ringAt t ring).inFlight = (ringAt s ring).inFlight - used))
  ∧ (∀ s (ring : RingNo) desc, ring.val < s.host.rings.length → fetching s = true → arbiter s = some ring.val → desc.length = 64 →
      bit 0 (field 2 1 desc) = (ringAt s ring).lap → field 1 1 desc = (ringAt s ring).aliveExpected → staticChecks s.boot.ready desc = none →
      mustWait s ring (bit 2 (field 2 1 desc)) = false → (∀ c ∈ s.host.cmds, c.cid ≠ s.host.nextCid) →
      Answers (.descriptorFetch ring desc) s (fun t =>
        (cmdAt t s.host.nextCid).map (fun c => (c.ring, c.slot, c.desc, c.seq, c.started)) =
          some (ring.val, (ringAt s ring).sqHead, desc, some s.host.acceptSeq.toNat, false)
        ∧ t.host.acceptSeq = s.host.acceptSeq + 1 ∧ t.host.nextCid = s.host.nextCid + 1
        ∧ (ringAt t ring).sqHead = ((ringAt s ring).sqHead + 1) % (ringAt s ring).entries
        ∧ (ringAt t ring).aliveExpected = ((ringAt s ring).aliveExpected + 1) % 256 ∧ (ringAt t ring).inFlight = (ringAt s ring).inFlight + 1))
  ∧ (∀ s (ring : RingNo) desc, ring.val < s.host.rings.length → fetching s = true → arbiter s = some ring.val → desc.length = 64 →
      bit 0 (field 2 1 desc) = (ringAt s ring).lap → field 1 1 desc = (ringAt s ring).aliveExpected → staticChecks s.boot.ready desc = none →
      mustWait s ring (bit 2 (field 2 1 desc)) = true → (∀ c ∈ s.host.cmds, c.cid ≠ s.host.nextCid) →
      Answers (.descriptorFetch ring desc) s (fun t => (cmdAt t s.host.nextCid).map (fun c => (c.ring, c.desc, c.seq)) = some (ring.val, desc, none)
        ∧ t.host.acceptSeq = s.host.acceptSeq))
  ∧ (∀ s cid c, cmdAt s cid = some c → c.seq = none → c.done = none →
      (bit 2 (c.arg 2 1) && !(s.host.cmds.filter (fun d => d.ring == c.ring && decide (d.cid < cid))).isEmpty) = false →
      (s.host.cmds.filter (fun d => d.ring == c.ring && decide (d.cid < cid))).any (fun d => bit 2 (d.arg 2 1)) = false →
      Answers (.fenceRelease cid) s (fun t => cmdAt t cid = some { c with seq := some s.host.acceptSeq.toNat }
        ∧ t.host.acceptSeq = s.host.acceptSeq + 1))
  ∧ (∀ s cid e c d, cmdAt s cid = some e → c = (if e.seq.isSome then e else { e with seq := some s.host.acceptSeq.toNat }) → e.done = some d →
      (s.host.forcing ≠ some cid ∨ s.host.cmds.length = 1) → ¬ (c.opcode = 0x7E ∧ d.status = .ok) → c.ring < s.host.rings.length → hostOpen s = true →
      Answers (.commandComplete cid) s (fun t => cmdAt t cid = none
        ∧ HostMsg.write ((ringAt s c.ring).cqBase.toNat + 64 * (ringAt s c.ring).cqTail)
            ((completionBytes c (ringAt s c.ring).sqHead d (ringAt s c.ring).phase).take 0x3C) ∈ t.host.posted
        ∧ HostMsg.write ((ringAt s c.ring).cqBase.toNat + 64 * (ringAt s c.ring).cqTail + 0x3C)
            ((completionBytes c (ringAt s c.ring).sqHead d (ringAt s c.ring).phase).drop 0x3C) ∈ t.host.posted
        ∧ (ringAt t c.ring).cqTail = ((ringAt s c.ring).cqTail + 1) % (ringAt s c.ring).entries
        ∧ t.host.acceptSeq = (if e.seq.isSome then s.host.acceptSeq else s.host.acceptSeq + 1)))
  ∧ (∀ s cid c d, cmdAt s cid = some c → c.done = some d → (s.host.forcing ≠ some cid ∨ s.host.cmds.length = 1) → c.opcode = 0x7E → d.status = .ok →
      Answers (.commandComplete cid) s (fun t => t.boot.lastKind = .module ∧ t.boot.down = quorumLost t ∧ t.boot.step = 4
        ∧ t.host.cmds = [] ∧ t.sessions = [] ∧ (∀ x ∈ s.flt.sticky, x ∈ t.flt.sticky)
        ∧ (s.ret.faultList = [] → quorumLost t = false → t.flt.sticky = s.flt.sticky) ∧ t.host.busMaster = s.host.busMaster ∧ t.host.msixTable = s.host.msixTable))
  ∧ (∀ s (ring : RingNo), ring.val < s.host.rings.length → (ringAt s ring).liveEnable = true → (ringAt s ring).irqArmed = true →
      (ringAt s ring).liveDelay ≠ 0 → 0 < (ringAt s ring).unsignalled →
      Answers (.irqCoalesceTimeout ring) s (fun t => (ringAt t ring).irqArmed = false ∧ (ringAt t ring).unsignalled = 0
        ∧ (vectorHeld s (ringAt s ring).liveVector = false → hostOpen s = true → HostMsg.msix (ringAt s ring).liveVector ∈ t.host.posted)
        ∧ (vectorHeld s (ringAt s ring).liveVector = true → (ringAt s ring).liveVector ∈ t.host.pendingBits)))

/-- R277, R279–R283, R285, R307: the rows of the host link, its vectors and its configuration. -/
def Obligations.HostLinkRowsComplete : Prop :=
  (∀ s (v : Fin 2048), hostReach s = true → Answers (.msixUnmask (some v)) s (fun t => v.val ∉ t.host.vectorMask
      ∧ (s.host.functionMask = false → s.host.msixEnable = true → v.val ∈ s.host.pendingBits → hostOpen s = true → HostMsg.msix v.val ∈ t.host.posted)))
  ∧ (∀ s, configReach s = true → Answers (.msixUnmask none) s (fun t => t.host.functionMask = false ∧ t.host.vectorMask = s.host.vectorMask))
  ∧ (∀ s off n, hostReach s = true → s.boot.ready = true → bar4Waits s off n = false →
      Answers (.bar4Read off n) s (fun t => t.host.readData = (List.range n).map (fun k => bar4Byte s (off + k))))
  ∧ (∀ s off n, hostReach s = true → s.boot.ready = false →
      Answers (.bar4Read off n) s (fun t => t.host.readData = List.replicate n 0xFF))
  ∧ (∀ s off data, hostReach s = true → s.boot.ready = true → bar4Ok s off data.length = true → bar4Unmapped s off data.length = false →
      bar4Waits s off data.length = false →
      off / (2 ^ s.host.bar4Log2 / 16) = (off + data.length - 1) / (2 ^ s.host.bar4Log2 / 16) →
      Answers (.bar4Write off data) s (fun t => t.mem.cells = writePieces s.mem.cells (bar4Pieces s off data.length) data))
  ∧ (∀ s off data, hostReach s = true → s.boot.ready = true →
      Answers (.bar4Write off data) s (fun t => ∀ a, (∀ e ∈ bar4Pieces s off data.length, ¬ (e.base ≤ a ∧ a < e.base + e.len)) →
        (∀ k < data.length, bar4Addr s (off + k) ≠ some a) → readByte t.mem.cells a = readByte s.mem.cells a))
  ∧ (∀ s, configReach s = true → Answers .hostMasterResume s (fun t => t.host.busMaster = true ∧ t.host.d3hot = false
      ∧ t.host.posted = s.host.posted ++ s.host.held.filter (fun m => (m.masked s).isNone) ∧ t.host.held = [] ∧ t.host.outstanding = []
      ∧ (∀ v, HostMsg.msix v ∈ s.host.held → vectorHeld s v = true → v ∈ t.host.pendingBits)))
  ∧ (∀ s, s.host.linkUp = true → s.pins.perst = false →
      Answers .hostLinkDown s (fun t => t.host.linkUp = false ∧ t.host.posted = s.host.posted ∧ srcId 5 0 8 ∈ t.flt.sticky))
  ∧ (∀ s width rate, (width = 16 ∨ width = 8 ∨ width = 4) → 1 ≤ rate → rate ≤ 6 → s.pins.perst = false → s.boot.everReset = true →
      Answers (.hostLinkRetrain width rate) s (fun t => t.host.linkUp = true ∧ t.host.width = width ∧ t.host.rate = rate
        ∧ (width ≠ 16 → srcId 5 0 1 ∈ t.flt.sticky)
        ∧ (width ≠ 16 ∨ rate + 16 * width ≠ linkStatus s → t.boot.cause.getLsbD 4 = true)))
  ∧ (∀ s cid, hostReadDue s (.command cid) = true → s.host.linkUp = true → NoneFailed s cid →
      Answers (.hostReadCompletion (.command cid) .poisoned) s (fun t => EndedAs t cid .resultSuspect ∧ runOf t cid = none ∧ launchOf t cid = none
        ∧ srcId 5 0 2 ∈ t.flt.sticky ∧ t.host.aerStatus.nonFatal = true))
  ∧ (∀ s cid c o, Live s cid c → NoneFailed s cid → hostReadDue s (.command cid) = true → s.host.linkUp = true → o ≠ .poisoned →
      Answers (.hostReadCompletion (.command cid) o) s (fun t => EndedAs t cid .badDescriptor ∧ runOf t cid = none ∧ launchOf t cid = none
        ∧ srcId 5 0 3 ∈ t.flt.sticky))
  ∧ (∀ s (ring : RingNo) o, hostReadDue s (.fetch ring) = true → ring.val < s.host.rings.length → s.host.linkUp = true →
      Answers (.hostReadCompletion (.fetch ring) o) s (fun t => (ringAt t ring).state = .error ∧ (ringAt t ring).errorCause = 4))
  ∧ (∀ s cid c, Live s cid c → NoneFailed s cid → hostReadDue s (.command cid) = true → s.host.linkUp = true →
      Answers (.hostCompletionTimeout (.command cid)) s (fun t => EndedAs t cid .linkLost ∧ runOf t cid = none ∧ launchOf t cid = none
        ∧ srcId 5 0 4 ∈ t.flt.sticky ∧ t.host.aerStatus.nonFatal = true))
  ∧ (∀ s (ring : RingNo), hostReadDue s (.fetch ring) = true → ring.val < s.host.rings.length → s.host.linkUp = true →
      Answers (.hostCompletionTimeout (.fetch ring)) s (fun t => (ringAt t ring).state = .error ∧ (ringAt t ring).errorCause = 4))
  ∧ (∀ s on, configReach s = true → Answers (.configurationWrite (.busMaster on)) s (fun t => t.host.busMaster = on))
  ∧ (∀ s on, configReach s = true → Answers (.configurationWrite (.powerState on)) s (fun t => t.host.d3hot = on))
  ∧ (∀ s k, configReach s = true → 28 ≤ k → k ≤ 36 → Answers (.configurationWrite (.bar4Size k)) s (fun t => t.host.bar4Log2 = k))
  ∧ (∀ s on, configReach s = true → Answers (.configurationWrite (.functionMask on)) s (fun t => t.host.functionMask = on))
  ∧ (∀ s v on, configReach s = true → v < 2048 →
      Answers (.configurationWrite (.vectorMask v on)) s (fun t => (v ∈ t.host.vectorMask ↔ on = true)))
  ∧ (∀ s on, configReach s = true → Answers (.configurationWrite (.msixEnable on)) s (fun t => t.host.msixEnable = on))
  ∧ (∀ s c n f, configReach s = true → Answers (.configurationWrite (.aerReport c n f)) s (fun t => t.host.aerReport = ⟨c, n, f⟩))
  ∧ (∀ s c n f, configReach s = true →
      Answers (.configurationWrite (.aerClear c n f)) s (fun t => t.host.aerStatus = s.host.aerStatus.clear ⟨c, n, f⟩))
  ∧ (∀ s w, configReach s = false → Answers (.configurationWrite w) s (fun t => t = s))

/-- R13, R278, R491–R496, R571: the rows of BAR0. -/
def Obligations.RegisterRowsComplete : Prop :=
  (∀ s off (value : DWord), hostReach s = true → bar0Form off 4 = true → (bar0Word s off).isSome = true →
      Answers (.registerWrite off 4 value) s (fun t => t = s.writeReg off (value.toNat % 2 ^ 32)))
  ∧ (∀ s off (value : DWord), hostReach s = true → bar0Form off 8 = true → (bar0Word s off).isSome = true →
      Answers (.registerWrite off 8 value) s (fun t => t = (s.writeReg off (value.toNat % 2 ^ 32)).writeReg (off + 4) (value.toNat / 2 ^ 32)))
  ∧ (∀ s (value : DWord), hostReach s = true →
      Answers (.registerWrite 0x14 4 value) s (fun t => t.boot.cause = s.boot.cause &&& ~~~(BitVec.ofNat 7 (value.toNat % 2 ^ 32)) ∧ t.boot.mask = s.boot.mask))
  ∧ (∀ s (value : DWord), hostReach s = true →
      Answers (.registerWrite 0x18 4 value) s (fun t => t.boot.mask = BitVec.ofNat 7 (value.toNat % 2 ^ 32) ∧ t.boot.cause = s.boot.cause))
  ∧ (∀ s bar off n, hostReach s = true → invalidAccess s bar off n = true →
      Answers (.barAccessInvalid bar off n true) s (fun t => srcId 5 0 7 ∈ t.flt.sticky ∧ t.host.readData = s.host.readData))
  ∧ (∀ s bar off n, hostReach s = true → invalidAccess s bar off n = true →
      Answers (.barAccessInvalid bar off n false) s (fun t => srcId 5 0 7 ∈ t.flt.sticky ∧ t.host.readData = invalidRead bar off n))
  ∧ (∀ s off n, hostReach s = true → invalidAccess s 2 off n = false →
      Answers (.barAccessInvalid 2 off n false) s (fun t => t.host.readData = List.replicate n 0 ∧ t.flt = s.flt))
  ∧ (∀ s, hostReach s = true → Answers .fltClearRearm s (fun t => t.flt.firstValid = false ∧ t.flt.firstSource = 0xFFFF ∧ t.flt.merged = 0
      ∧ t.flt.sticky = s.flt.sticky ∧ t.flt.highest = s.flt.highest ∧ t.flt.open_.length = s.flt.open_.length))
  ∧ (∀ s, hostReach s = true → Answers .fltClearAll s (fun t => t.flt.sticky = [] ∧ t.flt.firstValid = s.flt.firstValid
      ∧ t.flt.firstSource = s.flt.firstSource ∧ t.flt.open_ = s.flt.open_))
  ∧ (∀ s (source : BitVec 16), hostReach s = true →
      Answers (.fltClearOne source) s (fun t => t.flt.sticky = s.flt.sticky.filter (fun x => x != source.toNat) ∧ t.flt.firstValid = s.flt.firstValid))

/-- R252–R260, R264, R265: the rows of local GDDR7: what a read's check finds (R257), a write's bytes (R256), an access that waits for its channel or
whose EDC check keeps failing (R264), one to an offset that is not mapped (R260), and the scrub, refresh, temperature and re-centring rows. The errors
of a word are those that its checker sees (R508); what the code misses of four bytes or more is log 51. -/
def Obligations.LocalMemoryRowsComplete : Prop :=
  (∀ s (site : SiteId) x b cid errors fails, siteOffset s site x 1 = true →
      retrainingNow s site (groupDevice (groupOf x)) (groupChannel (groupOf x)) = false → edcHeld s site fails = false →
      seenPoison s site (poisonOf s (siteBase site + x / 64 * 64)) = 0 → eccOutcome (seenErrors s site errors) = .clean →
      Answers (.gddr7Read site x b cid errors fails) s (fun t => t.mem.cells = s.mem.cells ∧ t.mem.poison = s.mem.poison
        ∧ ∃ w, (controller site (groupDevice (groupOf x)), groupOf x, w) ∈ t.mem.checkCache))
  ∧ (∀ s (site : SiteId) x b cid errors fails, siteOffset s site x 1 = true →
      retrainingNow s site (groupDevice (groupOf x)) (groupChannel (groupOf x)) = false → edcHeld s site fails = false →
      seenPoison s site (poisonOf s (siteBase site + x / 64 * 64)) = 0 → eccOutcome (seenErrors s site errors) = .corrected →
      Answers (.gddr7Read site x b cid errors fails) s (fun t => t.mem.cells = s.mem.cells ∧ srcId 3 site 0 ∈ t.flt.sticky))
  ∧ (∀ s (site : SiteId) x b cid c errors fails, Live s cid c → siteOffset s site x 1 = true →
      retrainingNow s site (groupDevice (groupOf x)) (groupChannel (groupOf x)) = false → edcHeld s site fails = false →
      seenPoison s site (poisonOf s (siteBase site + x / 64 * 64)) = 0 → eccOutcome (seenErrors s site errors) = .uncorrectable →
      markCounts s (srcId 3 site 1) cid = true →
      Answers (.gddr7Read site x b (some cid) errors fails) s (fun t => poisonOf t (siteBase site + x / 64 * 64) = 3
        ∧ srcId 3 site 1 ∈ t.flt.sticky ∧ (cmdAt t cid).bind (·.marked) = some (srcId 3 site 1)))
  ∧ (∀ s (site : SiteId) x b cid c errors fails, Live s cid c → siteOffset s site x 1 = true →
      retrainingNow s site (groupDevice (groupOf x)) (groupChannel (groupOf x)) = false → edcHeld s site fails = false →
      seenPoison s site (poisonOf s (siteBase site + x / 64 * 64)) = 3 → markCounts s (srcId 3 site 1) cid = true →
      Answers (.gddr7Read site x b (some cid) errors fails) s (fun t => (cmdAt t cid).bind (·.marked) = some (srcId 3 site 1)
        ∧ t.mem.poison = s.mem.poison ∧ t.mem.cells = s.mem.cells))
  ∧ (∀ s (site : SiteId) x b cid c errors fails, Live s cid c → siteOffset s site x 1 = true →
      retrainingNow s site (groupDevice (groupOf x)) (groupChannel (groupOf x)) = false → edcHeld s site fails = false →
      seenPoison s site (poisonOf s (siteBase site + x / 64 * 64)) ≠ 0 → seenPoison s site (poisonOf s (siteBase site + x / 64 * 64)) ≠ 3 →
      markCounts s (srcId 3 site 4) cid = true →
      Answers (.gddr7Read site x b (some cid) errors fails) s (fun t => poisonOf t (siteBase site + x / 64 * 64) = 3
        ∧ srcId 3 site 4 ∈ t.flt.sticky ∧ (cmdAt t cid).bind (·.marked) = some (srcId 3 site 4)))
  ∧ (∀ s (site : SiteId) x b cid errors fails, siteOffset s site x 1 = true →
      (retrainingNow s site (groupDevice (groupOf x)) (groupChannel (groupOf x)) = true ∨ edcHeld s site fails = true) →
      Answers (.gddr7Read site x b cid errors fails) s (fun t => retrainingNow t site (groupDevice (groupOf x)) (groupChannel (groupOf x)) = true
        ∧ t.mem.heldAccesses = s.mem.heldAccesses ++ [{ site, offset := x, write := false, data := [], by_ := b, cid, errors := [errors] }]))
  ∧ (∀ s (site : SiteId) x b cid errors fails, siteOffset s site x 1 = false →
      Answers (.gddr7Read site x b cid errors fails) s (fun t => unmappedSource (issuerSite b) ∈ t.flt.sticky ∧ t.mem = s.mem))
  ∧ (∀ s (site : SiteId) x data b cid errors fails, data ≠ [] → x % 64 = 0 → data.length % 64 = 0 → siteOffset s site x data.length = true →
      onRetraining s ⟨siteBase site + x, data.length⟩ = false → edcHeld s site fails = false →
      Answers (.gddr7Write site x data b cid errors fails) s (fun t => t.mem.cells = writePieces s.mem.cells [⟨siteBase site + x, data.length⟩] data
        ∧ ∀ i, 64 * i < data.length → poisonOf t (siteBase site + x + 64 * i) = 0))
  ∧ (∀ s (site : SiteId) x data b cid errors fails, Memory.wf s.mem.cells = true → data ≠ [] → siteOffset s site x data.length = true →
      onRetraining s ⟨siteBase site + x, data.length⟩ = false → edcHeld s site fails = false →
      (∀ k, eccOutcome (seenErrors s site (errors.getD k [])) = .clean → seenErrors s site (errors.getD k []) = []) →
      Answers (.gddr7Write site x data b cid errors fails) s (fun t => (∃ m, t.mem.cells = writePieces m [⟨siteBase site + x, data.length⟩] data
          ∧ ∀ a, readByte m a = readByte s.mem.cells a)
        ∧ ∀ a, ¬ (siteBase site + x ≤ a ∧ a < siteBase site + x + data.length) → readByte t.mem.cells a = readByte s.mem.cells a))
  ∧ (∀ s (site : SiteId) x data b cid errors fails, data ≠ [] → siteOffset s site x data.length = true →
      (onRetraining s ⟨siteBase site + x, data.length⟩ = true ∨ edcHeld s site fails = true) →
      Answers (.gddr7Write site x data b cid errors fails) s (fun t => t.mem.cells = s.mem.cells
        ∧ t.mem.heldAccesses = s.mem.heldAccesses ++ [{ site, offset := x, write := true, data, by_ := b, cid, errors }]))
  ∧ (∀ s (site : SiteId) x data b cid errors fails, data ≠ [] → siteOffset s site x data.length = false →
      Answers (.gddr7Write site x data b cid errors fails) s (fun t => unmappedSource (issuerSite b) ∈ t.flt.sticky ∧ t.mem = s.mem))
  ∧ (∀ s (site : SiteId) (device : Fin 2) found i, siteMapped s site = true → scrubDue s (controller site device) = true →
      (lookupKey (controller site device) s.mem.scrubNext).getD 0 = i → retrainingNow s site device (groupChannel (2 * i + device.val)) = false →
      Answers (.scrubGroup site device found) s (fun t =>
        lookupKey (controller site device) t.mem.scrubNext = some ((i + 1) % groupsPerDevice)
        ∧ (i = 0 → lookupKey (controller site device) t.mem.scrubStart = some s.ret.opTime)))
  ∧ (∀ s (site : SiteId) (device : Fin 2) found, scrubDue s (controller site device) = false →
      Answers (.scrubGroup site device found) s (fun t => t = s))
  ∧ (∀ s (site : SiteId) (device : Fin 2) bank, selfRefresh (tileAt s site) = false → Answers (.gddr7Refresh site device bank) s (fun t =>
      lookupKey (controller site device) t.mem.refreshed = some bank ∧ t.mem.cells = s.mem.cells))
  ∧ (∀ s (site : SiteId) a b, s.tiles.length = 64 →
      Answers (.gddr7TempRead site a b) s (fun t => (tileAt t site).thermal.gddrTemp = Nat.max a b ∧ deviceTemp t site 0 = a ∧ deviceTemp t site 1 = b))
  ∧ (∀ s (site : SiteId) (device : Fin 2) (channel : Fin 4), recentreDue s site device channel = true →
      Answers (.recentre site device channel) s (fun t =>
        lookupKey (4 * controller site device + channel.val) t.mem.recentred = some (deviceTemp s site device, s.ret.opTime)
        ∧ t.mem.cells = s.mem.cells))
  ∧ (∀ s (site : SiteId) (device : Fin 2) (channel : Fin 4), recentreDue s site device channel = false →
      Answers (.recentre site device channel) s (fun t => t = s))
  ∧ (∀ s (site : SiteId) (device : Fin 2) (channel : Fin 4), retrainingNow s site device channel = true →
      Answers (.channelRetrainDone site device channel true) s (fun t => retrainingNow t site device channel = false
        ∧ (s.mem.heldAccesses = [] → s.runs = [] → t.mem.cells = s.mem.cells)))
  ∧ (∀ s (site : SiteId) (device : Fin 2) (channel : Fin 4) a, s.mem.retraining = [(site.val, device.val, channel.val)] → s.runs = [] →
      s.mem.heldAccesses = [a] → a.write = true → a.offset % 64 = 0 → a.data.length % 64 = 0 → siteOffset s a.site a.offset a.data.length = true →
      Answers (.channelRetrainDone site device channel true) s (fun t => t.mem.heldAccesses = []
        ∧ t.mem.cells = writePieces s.mem.cells [⟨siteBase a.site + a.offset, a.data.length⟩] a.data))
  ∧ (∀ s (site : SiteId) (device : Fin 2) (channel : Fin 4), s.flt.injecting (srcId 3 site 2) = true →
      Answers (.channelRetrainDone site device channel false) s (fun t => t = s))
  ∧ (∀ s (site : SiteId) (device : Fin 2) (channel : Fin 4), s.tiles.length = 64 → retrainingNow s site device channel = true →
      s.flt.injecting (srcId 3 site 2) = false →
      Answers (.channelRetrainDone site device channel false) s (fun t => retrainingNow t site device channel = false
        ∧ (tileAt t site).memFailed = true ∧ (tileAt t site).memInService = false))

/-- R266–R272, R315: the rows of the CXL tier. -/
def Obligations.CxlRowsComplete : Prop :=
  (∀ s (p : PortId), s.cxl.length = 4 → ((cxlAt s p).state = .empty ∨ (cxlAt s p).state = .off) → (cxlAt s p).linkUp = false →
      Answers (.cxlPresenceDetect p) s (fun t => (cxlAt t p).present = true ∧ (cxlAt t p).slotPower = true ∧ (cxlAt t p).resetOut = false
        ∧ (cxlAt t p).state = .empty ∧ presenceSource p ∈ t.flt.sticky))
  ∧ (∀ s (p : PortId) rate width capacity, s.cxl.length = 4 → (cxlAt s p).slotPower = true → (cxlAt s p).linkUp = false →
      cxlTrains rate width = true → ((cxlAt s p).waiting = false ∨ (cxlAt s p).state = .empty) →
      Answers (.cxlLinkUp p rate width capacity) s (fun t => (cxlAt t p).linkUp = true ∧ (cxlAt t p).rate = rate ∧ (cxlAt t p).width = width
        ∧ (cxlAt t p).capacity = capacity ∧ (cxlAt t p).discovering = true))
  ∧ (∀ s (p : PortId) rate width capacity, s.cxl.length = 4 → (cxlAt s p).slotPower = true → (cxlAt s p).linkUp = false →
      cxlTrains rate width = true → (cxlAt s p).waiting = true → (cxlAt s p).state ≠ .empty →
      Answers (.cxlLinkUp p rate width capacity) s (fun t => (cxlAt t p).linkUp = true ∧ (cxlAt t p).waiting = false
        ∧ (cxlAt t p).state = (cxlAt s p).state ∧ (cxlAt t p).mapped = (cxlAt s p).mapped))
  ∧ (∀ s (p : PortId), s.cxl.length = 4 → (cxlAt s p).discovering = true → (cxlAt s p).linkUp = true →
      Answers (.cxlDiscoveryDone p) s (fun t => (cxlAt t p).state = .inService ∧ (cxlAt t p).mapped = Nat.min (cxlAt s p).capacity 0x40000000000
        ∧ (∀ a, portBase p ≤ a → a < portBase p + 0x40000000000 → readByte t.mem.cells a = 0)
        ∧ (∀ a, (a < portBase p ∨ portBase p + 0x40000000000 ≤ a) → readByte t.mem.cells a = readByte s.mem.cells a)))
  ∧ (∀ s (p : PortId), s.cxl.length = 4 → (cxlAt s p).linkUp = true →
      Answers (.cxlLinkDown p) s (fun t => (cxlAt t p).linkUp = false ∧ (cxlAt t p).state = (cxlAt s p).state
        ∧ (cxlAt t p).waiting = ((cxlAt s p).state == .inService || (cxlAt s p).state == .evacuating || (cxlAt s p).discovering)))
  ∧ (∀ s (p : PortId) cid c, Live s cid c → NoneFailed s cid → accessesPort s p c = true →
      Answers (.cxlAccessTimeout p cid) s (fun t => EndedAs t cid .linkLost ∧ srcId 4 p 2 ∈ t.flt.sticky))
  ∧ (∀ s (p : PortId) cid, (cmdAt s cid).any (accessesPort s p) = false → Answers (.cxlAccessTimeout p cid) s (fun t => t = s))
  ∧ (∀ s (p : PortId), s.cxl.length = 4 → (cxlAt s p).waiting = true →
      Answers (.cxlLinkDownTimeout p) s (fun t => (cxlAt t p).state = .empty ∧ (cxlAt t p).surpriseRemoved = true ∧ (cxlAt t p).mapped = 0
        ∧ (cxlAt t p).present = (cxlAt s p).present ∧ srcId 4 p 3 ∈ t.flt.sticky))
  ∧ (∀ s (p : PortId) ev, (cxlAt s p).linkUp = true → ((cxlAt s p).state = .inService ∨ (cxlAt s p).state = .evacuating) →
      Answers (.cxlEventLogPoll p [ev]) s (fun t => srcId 4 p 4 ∈ t.flt.sticky
        ∧ (ev.region = none → t.cxl = s.cxl ∧ t.models = s.models ∧ t.cel = s.cel)))
  ∧ (∀ s (p : PortId) ev off len, s.cxl.length = 4 → (cxlAt s p).linkUp = true →
      ((cxlAt s p).state = .inService ∨ (cxlAt s p).state = .evacuating) → ev.region = some (off, len) →
      Answers (.cxlEventLogPoll p [ev]) s (fun t => (portBase p + off, len) ∈ (cxlAt t p).bad))
  ∧ (∀ s (p : PortId), s.cxl.length = 4 → (cxlAt s p).state = .inService → evacuable s p = true →
      Answers (.cxlAttentionButton p) s (fun t => (cxlAt t p).state = .evacuating ∧ (cxlAt t p).powerBlink = true))
  ∧ (∀ s (p : PortId), s.cxl.length = 4 → (cxlAt s p).state = .inService → evacuable s p = false →
      Answers (.cxlAttentionButton p) s (fun t => (cxlAt t p).state = .inService ∧ (cxlAt t p).attention = true))
  ∧ (∀ s (p : PortId), s.cxl.length = 4 → (cxlAt s p).state = .evacuating →
      Answers (.cxlAttentionButton p) s (fun t => (cxlAt t p).state = .inService ∧ (cxlAt t p).powerBlink = false))
  ∧ (∀ s (p : PortId), s.cxl.length = 4 → Answers (.cxlAttentionLedTimeout p) s (fun t => (cxlAt t p).attention = false))
  ∧ (∀ s (p : PortId), (cxlAt s p).waiting = true → Answers (.cxlEvacuationDone p) s (fun t => t = s))
  ∧ (∀ s (p : PortId), s.cxl.length = 4 → (cxlAt s p).state = .evacuating → (cxlAt s p).waiting = false → s.cel.blocks.any (fun b => b.place == .cxl p.val) = false →
      s.cel.moves.any (fun m => m.oldPlace == .cxl p.val) = false → portContent (s.clearPort p) p + portCopies (s.clearPort p) p = 0 →
      Answers (.cxlEvacuationDone p) s (fun t => (cxlAt t p).state = .off ∧ (cxlAt t p).slotPower = false ∧ (cxlAt t p).mapped = 0
        ∧ (cxlAt t p).powerBlink = false))
  ∧ (∀ s (p : PortId), s.cxl.length = 4 → (cxlAt s p).present = true → (cxlAt s p).slotPower = true →
      Answers (.cxlSurpriseRemoval p) s (fun t => (cxlAt t p).state = .empty ∧ (cxlAt t p).surpriseRemoved = true ∧ (cxlAt t p).present = false
        ∧ srcId 4 p 3 ∈ t.flt.sticky))
  ∧ (∀ s (p : PortId), s.cxl.length = 4 → ((cxlAt s p).present = false ∨ (cxlAt s p).slotPower = false) →
      Answers (.cxlSurpriseRemoval p) s (fun t => (cxlAt t p).state = .empty ∧ (cxlAt t p).present = false ∧ (cxlAt t p).surpriseRemoved = (cxlAt s p).surpriseRemoved))
  ∧ (∀ s (p : PortId) cid c, Live s cid c → (cxlAt s p).linkUp = true → consumesPort s p c = true → markCounts s (srcId 4 p 1) cid = true →
      Answers (.cxlMemReadResponse p cid true) s (fun t => (cmdAt t cid).bind (·.marked) = some (srcId 4 p 1)))
  ∧ (∀ s (p : PortId) cid, (cxlAt s p).linkUp = true →
      Answers (.cxlMemReadResponse p cid true) s (fun t => srcId 4 p 1 ∈ t.flt.sticky))
  ∧ (∀ s (p : PortId) cid, Answers (.cxlMemReadResponse p cid false) s (fun t => t = s))

/-- R433–R440, R446, R447: the rows of the link layer, on panel bundles and optical links alike. -/
def Obligations.LinkLayerRowsComplete : Prop :=
  (∀ s link slot flit, HasLink s link → linkLive s link = true → heldBack s link flit = false → crcInverted s link = false →
      flitOk flit (linkAt s link).rxExpected = true → flitKind flit = 1 →
      (linkAt s link).rxHeld.getD (flitVc flit) 0 < vcBuffer (isOptical link) (flitVc flit) →
      (isOptical link = false ∨ flitFraming flit = 1 ∨ flitFraming flit = 3
        ∨ ((partSoFar (linkAt s link) (flitVc flit)).getD []).length + flitLen flit ≤ 4200) →
      Answers (.dataFlitReceive link slot flit) s (fun t => (lastFlit flit = false → linkAt t link = (linkAt s link).accept (isOptical link) flit)
        ∧ (linkAt t link).rxExpected = ((linkAt s link).rxExpected + 1) % 16384 ∧ (linkAt t link).nakOutstanding = false
        ∧ (linkAt t link).rxMessage = ((linkAt s link).accept (isOptical link) flit).rxMessage
        ∧ (linkAt t link).rxReleased = ((linkAt s link).accept (isOptical link) flit).rxReleased))
  ∧ (∀ s link slot flit, HasLink s link → linkLive s link = true → heldBack s link flit = false →
      ((flitOk flit (linkAt s link).rxExpected && flitKind flit == 1) = false ∨ crcInverted s link = true) →
      Answers (.dataFlitReceive link slot flit) s (fun t => (linkAt t link).nakOutstanding = true
        ∧ (linkAt t link).rxExpected = (linkAt s link).rxExpected))
  ∧ (∀ s link slot flit, HasLink s link → linkLive s link = true → crcInverted s link = false → flitOk flit 0x8000 = true → flitKind flit = 2 →
      linkNak flit = none →
      Answers (.linkFlitReceive link slot flit) s (fun t =>
        linkAt t link = { (linkAt s link).ack (flitAck flit) with released := linkReleases flit }))
  ∧ (∀ s link slot flit n l h, HasLink s link → linkLive s link = true → crcInverted s link = false → flitOk flit 0x8000 = true → flitKind flit = 2 →
      linkNak flit = some n → holding s link = false → l = ((linkAt s link).ack (flitAck flit)).ack ((n + 16383) % 16384) →
      l.held.head? = some h → l.replayCounter + 1 < 16 →
      Answers (.linkFlitReceive link slot flit) s (fun t => (linkAt t link).replayFrom = some n ∧ (linkAt t link).released = linkReleases flit
        ∧ (linkAt t link).replayCounter = l.replayCounter + (if h.1 = n then 1 else 0)))
  ∧ (∀ s e slot flit, linkLive s (.optical e) = true → crcInverted s (.optical e) = false → flitOk flit 0x8000 = true → flitKind flit = 0 →
      Answers (.fillerFlitReceive (.optical e) slot flit) s (fun t => t = s.takeFlit (.optical e) flit))
  ∧ (∀ s link, HasLink s link → linkLive s link = true → (0 < (linkAt s link).ackPending ∨ (linkAt s link).rxReleased ≠ (linkAt s link).rxReported) →
      Answers (.linkFlitTimer link) s (fun t => linkAt t link = { linkAt s link with linkDue := true }))
  ∧ (∀ s link age h, HasLink s link → linkLive s link = true → holding s link = false → (linkAt s link).held.head? = some h →
      (linkAt s link).replayCounter + 1 < 16 →
      Answers (.replayTimerExpiry link age) s (fun t => (linkAt t link).replayFrom = some h.1
        ∧ (linkAt t link).replayCounter = (linkAt s link).replayCounter + 1 ∧ (linkAt t link).held.length = (linkAt s link).held.length))
  ∧ (∀ s link, HasLink s link → linkLive s link = true → (linkAt s link).nakOutstanding = true → changing s link = false →
      Answers (.nakResend link) s (fun t => linkAt t link = { linkAt s link with nakDue := true, linkDue := true }))
  ∧ (∀ s link slot flit, heldBack s link flit = true → Answers (.dataFlitReceive link slot flit) s (fun t => t = s))

/-- R360–R370: the rows of a panel bundle's wires. -/
def Obligations.BundleWireRowsComplete : Prop :=
  (∀ s b failed m, HasEnd s b → (bundleAt s b).checking = true → (bundleAt s b).tempRetired = false →
      chooseMap (recordedWires s b ++ (bundleAt s b).failed ++ (failed ++ strayed (bundleAt s b)).eraseDups).eraseDups (bundleAt s b).dropped (bundleAt s b).spares = some m →
      Answers (.inlineCheckDone b failed) s (fun t => (bundleAt t b).spares = m.1 ∧ (bundleAt t b).dropped = m.2 ∧ (bundleAt t b).checking = false
        ∧ (bundleAt t b).state = (if m.2.isSome then .degraded else .full) ∧ (bundleAt t b).recentFails = 0
        ∧ (bundleAt t b).failed = (recordedWires s b ++ (bundleAt s b).failed ++ (failed ++ strayed (bundleAt s b)).eraseDups).eraseDups))
  ∧ (∀ s b failed, (bundleAt s b).checking = true → (bundleAt s b).tempRetired = false →
      chooseMap (recordedWires s b ++ (bundleAt s b).failed ++ (failed ++ strayed (bundleAt s b)).eraseDups).eraseDups (bundleAt s b).dropped (bundleAt s b).spares = none →
      bundleInjected s b = false →
      Answers (.inlineCheckDone b failed) s (fun t => recordedBundle t b = true ∧ (∀ p, peerEnd b = some p → recordedBundle t p = true)))
  ∧ (∀ s b wire up, HasEnd s b → (bundleAt s b).live = true → wire < 70 →
      Answers (.phaseTrack b [(wire, up)]) s (fun t =>
        lookupKey wire (bundleAt t b).phase = some ((lookupKey wire (bundleAt s b).phase).getD 0 + (if up then 1 else -1))))
  ∧ (∀ s b wire, HasEnd s b → (bundleAt s b).live = true → wire < 64 → (bundleAt s b).dropped ≠ some (wire / 16) →
      (bundleAt s b).failed.contains wire = false → (bundleAt s b).checking = false →
      Answers (.wireFillerError b wire) s (fun t => (bundleAt t b).checking = true
        ∧ (bundleAt t b).inlineChecks = satAdd (bundleAt s b).inlineChecks 1 255 ∧ bundleSource 0x20 b ∈ t.flt.sticky))
  ∧ (∀ s b k, k < 4 → HasEnd s b → (bundleAt s b).live = true → (bundleAt s b).spares.getD k .free ≠ .valid →
      (bundleAt s b).failed.contains (64 + k) = false → (bundleAt s b).checking = false →
      Answers (.wireFillerError b (64 + k)) s (fun t => (bundleAt t b).checking = true))

/-- R411–R419: one frame of a link sent and received: 36 wavelengths, 4,224 bits, the marker behind the first bit, from the
state that bring-up has come to before the frame (log 72); the received counter follows the
FRAME words, and the flits of earlier positions stay. -/
def Obligations.FrameRowsComplete : Prop :=
  (∀ s (e : EngineId) u, e.val < s.engines.length → u = s.beforeFrame e → sendingWaves (engineAt u e) ≠ [] → (engineAt u e).started = true →
      Answers (.frameTransmit e) s (fun t => (engineAt t e).tx.frame = ((engineAt u e).tx.frame + 1) % 65536
        ∧ (engineAt t e).txFrames.length = 36 ∧ (engineAt t e).state = (engineAt u e).state
        ∧ ∀ w ∈ sendingWaves (engineAt u e), w < 36 →
            ((engineAt t e).txFrames.getD w []).length = 4224 ∧ (((engineAt t e).txFrames.getD w []).drop 1).take 16 = marker))
  ∧ (∀ s (e : EngineId) (f : Fin 2) (l : Fin 18) bits_ ctl, e.val < s.engines.length → (engineAt s e).started = true → bits_.length = 4224 →
      (bits_.drop 1).take 16 = marker → ctl = (unstuff (bits_.drop 18) true 1).take 40 → ctl.length = 40 →
      crc8 (ctl.take 32) = ofMsb (ctl.drop 32) → ofMsb ((ctl.drop 5).take 4) = 0 →
      ((List.range 36).find? (fun v => (engineAt s e).rx.frameLock.getD v false)).getD (18 * f.val + l.val) = 18 * f.val + l.val →
      Answers (.frameReceive e f l bits_) s (fun t => (engineAt t e).rx.frame = ofMsb ((ctl.drop 9).take 23) % 65536
        ∧ ∀ q ∈ (engineAt s e).rxFlits, q ∈ (engineAt t e).rxFlits))
  ∧ (∀ s (e : EngineId) (f : Fin 2) (l : Fin 18) bits_, e.val < s.engines.length → (engineAt s e).started = true → bits_.length = 4224 →
      (bits_.drop 1).take 16 ≠ marker → 18 * f.val + l.val < (engineAt s e).rx.markerMiss.length →
      (engineAt s e).rx.markerMiss.getD (18 * f.val + l.val) 0 < 3 →
      Answers (.frameReceive e f l bits_) s (fun t =>
        (engineAt t e).rx.markerMiss.getD (18 * f.val + l.val) 0 = (engineAt s e).rx.markerMiss.getD (18 * f.val + l.val) 0 + 1
        ∧ (engineAt t e).rxFlits = (engineAt s e).rxFlits))

/-- R387–R395, R398–R400, R407, R408: the rows of slots and rings. -/
def Obligations.RingAndSlotRowsComplete : Prop :=
  (∀ s (e : EngineId) (slot : Fin 32) dir side, e.val < s.engines.length → side = sideOfDir dir → (engineAt s e).state = .up →
      slot.val < (dirOf (engineAt s e) side).width → (dirOf (engineAt s e) side).paused.contains slot.val = false →
      (dirOf (engineAt s e) side).paused.length < 4 →
      Answers (.pause e slot dir) s (fun t => (dirOf (engineAt t e) side).paused = (dirOf (engineAt s e) side).paused ++ [slot.val]
        ∧ (engineAt t e).state = .up ∧ (engineAt t e).txWords = (engineAt s e).txWords))
  ∧ (∀ s (e : EngineId) (slot : Fin 32) dir side, e.val < s.engines.length → side = sideOfDir dir →
      (dirOf (engineAt s e) side).paused.contains slot.val = true →
      Answers (.resume e slot dir) s (fun t => (dirOf (engineAt t e) side).paused = without (· == slot.val) (dirOf (engineAt s e) side).paused
        ∧ (engineAt t e).txWords = (engineAt s e).txWords))
  ∧ (∀ s (e : EngineId) (slot : Fin 32), e.val < s.engines.length → (engineAt s e).state = .up → slot.val < (engineAt s e).rx.width →
      (engineAt s e).rx.paused.contains slot.val = false → (engineAt s e).rx.paused.length < 4 →
      Answers (.slotErrorBurst e slot) s (fun t => (engineAt t e).rx.paused = (engineAt s e).rx.paused ++ [slot.val]
        ∧ (engineAt t e).txWords = (engineAt s e).txWords ++ [(slotWord 1 slot 1, 3)] ∧ srcId 2 e 2 ∈ t.flt.sticky))
  ∧ (∀ s (e : EngineId) (r : OeRing) dom, HasRing s e r → (waveRing (engineAt s e) r).state = .locked → dom = some (Fin.ofNat 18 r) →
      toneTaken (engineAt s e) r (r.val % 18) (waveRing (engineAt s e) r).heater = false →
      ToneAlone (engineAt s e) r (waveRing (engineAt s e) r).heater dom →
      Answers (.ringIdentityCheck e r dom) s (fun t =>
        waveRing (engineAt t e) r
          = { waveRing (engineAt s e) r with toneOk := true, tone := some (r.val % 18), toneCode := (waveRing (engineAt s e) r).heater }))
  ∧ (∀ s (e : EngineId) (r : OeRing) dom, HasRing s e r → (waveRing (engineAt s e) r).state = .locked →
      (dom ≠ some (Fin.ofNat 18 r) ∨ toneTaken (engineAt s e) r (r.val % 18) (waveRing (engineAt s e) r).heater = true) →
      (waveRing (engineAt s e) r).fromLast = false → ToneAlone (engineAt s e) r (waveRing (engineAt s e) r).heater dom →
      Answers (.ringIdentityCheck e r dom) s (fun t => (waveRing (engineAt t e) r).state = .searching ∧ (waveRing (engineAt t e) r).tries = 1
        ∧ (waveRing (engineAt t e) r).heater = stepHeater (waveRing (engineAt s e) r).heater
            (match dom with | some d => decide (r.val % 18 ≤ d.val) | none => true)
        ∧ srcId 2 e 1 ∈ t.flt.sticky))
  ∧ (∀ s (e : EngineId) (r : OeRing), HasRing s e r →
      ((waveRing (engineAt s e) r).state = .locked ∨ (waveRing (engineAt s e) r).state = .paused) →
      Answers (.ringLockLost e r) s (fun t => (waveRing (engineAt t e) r).state = .searching ∧ srcId 2 e 0 ∈ t.flt.sticky))
  ∧ (∀ s (e : EngineId) (r : OeRing) (heater : Nat) dom lit, HasRing s e r → relocking (waveRing (engineAt s e) r) = true → inWindow heater = true →
      dom = some (Fin.ofNat 18 r) → toneTaken (engineAt s e) r (r.val % 18) heater = false → ToneAlone (engineAt s e) r heater dom →
      Answers (.ringLocked e r heater dom lit) s (fun t => (waveRing (engineAt t e) r).state = .locked ∧ (waveRing (engineAt t e) r).heater = heater
        ∧ (waveRing (engineAt t e) r).toneOk = true))
  ∧ (∀ s (e : EngineId) (r : OeRing) (heater : Nat) dom lit, HasRing s e r → relocking (waveRing (engineAt s e) r) = true → inWindow heater = true →
      (dom ≠ some (Fin.ofNat 18 r) ∨ toneTaken (engineAt s e) r (r.val % 18) heater = true) → (waveRing (engineAt s e) r).tries < 3 →
      (waveRing (engineAt s e) r).fromLast = false → ToneAlone (engineAt s e) r heater dom →
      Answers (.ringLocked e r heater dom lit) s (fun t => (waveRing (engineAt t e) r).state = .searching
        ∧ (waveRing (engineAt t e) r).tries = (waveRing (engineAt s e) r).tries + 1
        ∧ (waveRing (engineAt t e) r).heater = stepHeater heater (match dom with | some d => decide (r.val % 18 ≤ d.val) | none => true) ∧ srcId 2 e 1 ∈ t.flt.sticky))
  ∧ (∀ s (e : EngineId) (r : OeRing) (heater : Nat) dom lit, HasRing s e r → relocking (waveRing (engineAt s e) r) = true → inWindow heater = true →
      (dom ≠ some (Fin.ofNat 18 r) ∨ toneTaken (engineAt s e) r (r.val % 18) heater = true) → 3 ≤ (waveRing (engineAt s e) r).tries →
      (waveRing (engineAt s e) r).fromLast = false → ToneAlone (engineAt s e) r heater dom →
      Answers (.ringLocked e r heater dom lit) s (fun t => (waveRing (engineAt t e) r).state = (if lit then .failed else .dark)
        ∧ srcId 2 e 1 ∈ t.flt.sticky))
  ∧ (∀ s (e : EngineId) (r : OeRing) tone, HasRing s e r → relocking (waveRing (engineAt s e) r) = true →
      Answers (.relockTimeout e r tone) s (fun t => (waveRing (engineAt t e) r).state = if tone then .failed else .dark))
  ∧ (∀ s (e : EngineId) (r : OeRing) tone (heater : Nat), HasRing s e r →
      ((waveRing (engineAt s e) r).state = .failed ∨ (waveRing (engineAt s e) r).state = .dark) → inWindow heater = true →
      Answers (.ringRetry e r true tone heater) s (fun t => (waveRing (engineAt t e) r).state = .locked ∧ (waveRing (engineAt t e) r).heater = heater
        ∧ (waveRing (engineAt t e) r).tries = 0))
  ∧ (∀ s (e : EngineId) (r : OeRing) tone (heater : Nat), HasRing s e r →
      ((waveRing (engineAt s e) r).state = .failed ∨ (waveRing (engineAt s e) r).state = .dark) →
      Answers (.ringRetry e r false tone heater) s (fun t => (waveRing (engineAt t e) r).state = if tone then .failed else .dark))
  ∧ (∀ s (e : EngineId) orders, e.val < s.engines.length → (engineAt s e).rings.length = 72 → orders.length = 72 → s.boot.down = false →
      Answers (.ringSweep e orders) s (fun t => (engineAt t e).started = true ∧ (engineAt t e).inReset = false
        ∧ ∀ r < 72,
            (sweeps (engineAt s e) r (bestOrder (orders.getD r [])).isSome = false → (waveRing (engineAt t e) r).state = (waveRing (engineAt s e) r).state)
            ∧ (sweeps (engineAt s e) r (bestOrder (orders.getD r [])).isSome = true →
                (bestOrder (orders.getD r []) = none → (waveRing (engineAt t e) r).state = .searching)
                ∧ ∀ h, bestOrder (orders.getD r []) = some h → (waveRing (engineAt t e) r).state = .locked ∧ (waveRing (engineAt t e) r).heater = h)))
  ∧ (∀ s (e : EngineId), e.val < s.engines.length → (engineAt s e).rings.length = 72 →
      Answers (.feedForwardUpdate e) s (fun t => (engineAt t e).powerEstimate = tilePower s (engineSite e)
        ∧ ((∀ r < 72, ((waveRing (engineAt s e) r).state = .locked ∨ (waveRing (engineAt s e) r).state = .paused) →
              inWindow (heaterNext s e r) = true) →
            t.flt = s.flt ∧ ∀ r < 72, (waveRing (engineAt t e) r).state = (waveRing (engineAt s e) r).state
              ∧ ((waveRing (engineAt s e) r).state ≠ .parked → (waveRing (engineAt s e) r).state ≠ .retired → (waveRing (engineAt s e) r).lastLock ≠ 0 →
                  inWindow (heaterNext s e r) = true →
                  (waveRing (engineAt t e) r).ff = ringOffset s e (waveRing (engineAt s e) r)
                  ∧ ((waveRing (engineAt t e) r).heater : Int) = heaterNext s e r))))
  ∧ (∀ s (e : EngineId) (r : OeRing) h w, (waveRing (engineAt s e) r).state = .locked → (waveRing (engineAt s e) r).slot = 0x3E →
      (w < 20 ∨ h < 16) →
      Answers (.spareMarginTest e r h w) s (fun t => t.flt.stRun = s.flt.stRun + 1 ∧ t.flt.stFailed = s.flt.stFailed + 1
        ∧ srcId 2 e 0x13 ∈ t.flt.sticky))
  ∧ (∀ s (e : EngineId) (r : OeRing) h w, (waveRing (engineAt s e) r).state = .locked → (waveRing (engineAt s e) r).slot = 0x3E →
      20 ≤ w → 16 ≤ h →
      Answers (.spareMarginTest e r h w) s (fun t => t.flt.stRun = s.flt.stRun + 1 ∧ t.flt.stFailed = s.flt.stFailed
        ∧ t.flt.sticky = s.flt.sticky))
  ∧ (∀ s (e : EngineId) (r : OeRing) (heater : Nat) dom lit, HasRing s e r → relocking (waveRing (engineAt s e) r) = true → inWindow heater = true →
      (dom ≠ some (Fin.ofNat 18 r) ∨ toneTaken (engineAt s e) r (r.val % 18) heater = true) → (waveRing (engineAt s e) r).fromLast = true →
      ToneAlone (engineAt s e) r heater dom →
      Answers (.ringLocked e r heater dom lit) s (fun t => (waveRing (engineAt t e) r).state = .searching ∧ (waveRing (engineAt t e) r).tries = 0
        ∧ (waveRing (engineAt t e) r).fromLast = false ∧ srcId 2 e 1 ∈ t.flt.sticky))
  ∧ (∀ s (e : EngineId) (r v : OeRing) (heater : Nat) lit, HasRing s e r → HasRing s e v → r.val / 18 = v.val / 18 → r ≠ v →
      relocking (waveRing (engineAt s e) r) = true → inWindow heater = true → toneTaken (engineAt s e) r (r.val % 18) heater = false →
      (waveRing (engineAt s e) v).state = .locked → (waveRing (engineAt s e) v).tone = some (r.val % 18) → heater < (waveRing (engineAt s e) v).toneCode →
      (∀ k < 18, k ≠ r.val % 18 → k ≠ v.val % 18 → (waveRing (engineAt s e) (r.val / 18 * 18 + k)).toneCode ≤ heater) →
      Answers (.ringLocked e r heater (some (Fin.ofNat 18 r)) lit) s (fun t => (waveRing (engineAt t e) v).state = .searching
        ∧ srcId 2 e 1 ∈ t.flt.sticky))

/-- R383, R384, R402–R404: the rows of laser inputs and of the external laser sources. -/
def Obligations.LaserRowsComplete : Prop :=
  (∀ s (e : EngineId) (f : Fin 2) power, HasLaser s e f → (laserOf s e f).mode ≠ .off →
      Answers (.laserExcursion e f power) s (fun t => (laserOf t e f).mode = .off ∧ (laserOf t e f).atten = attenFull
        ∧ (laserOf t e f).excursion = true ∧ srcId 2 e 5 ∈ t.flt.sticky))
  ∧ (∀ s (e : EngineId) (f : Fin 2) power lost, HasLaser s e f → (engineAt s e).rings.length = 72 → (laserOf s e f).mode ≠ .off →
      Answers (.laserLow e f power lost) s (fun t => (laserOf t e f).power = power ∧ srcId 2 e 6 ∈ t.flt.sticky
        ∧ ∀ n ∈ lost, ringOut (engineAt t e) (18 * f.val + n.val)))
  ∧ (∀ s (e : EngineId) (f : Fin 2), HasLaser s e f → (laserOf s e f).retired = false → (engineAt s e).elsPresent = true →
      (laserOf s e f).ramp = true → (elsOf s (enginePort e)).matched = true →
      (laserOf s e f).mode = .off → Answers (.laserRestore e f) s (fun t => (laserOf t e f).mode = .probe ∧ (laserOf t e f).atten = attenFull))
  ∧ (∀ s (e : EngineId) (f : Fin 2), HasLaser s e f → (laserOf s e f).retired = false → (engineAt s e).elsPresent = true →
      (laserOf s e f).ramp = true → (elsOf s (enginePort e)).matched = true →
      (laserOf s e f).mode = .probe → ((engineAt s e).state = .up ∨ 2 ≤ (engineAt s e).bringUp.step) →
      Answers (.laserRestore e f) s (fun t => (laserOf t e f).mode = .run ∧ (laserOf t e f).atten = attenFull ∧ (laserOf t e f).setting < attenFull))
  ∧ (∀ s (e : EngineId) (f : Fin 2), HasLaser s e f → (engineAt s e).started = true → (engineAt s e).inReset = false →
      (engineAt s e).state = .up →
      Answers (.openFibre e f) s (fun t => (engineAt t e).state = .training ∧ (laserOf t e f).openFibre = true
        ∧ (laserOf t e f).mode ≠ .run ∧ srcId 2 e 7 ∈ t.flt.sticky))
  ∧ (∀ s (e : EngineId) (f : Fin 2), HasLaser s e f → (engineAt s e).started = true → (engineAt s e).inReset = false →
      (engineAt s e).state = .training → 0 < (engineAt s e).bringUp.step →
      Answers (.openFibre e f) s (fun t => (engineAt t e).bringUp.attempt = (engineAt s e).bringUp.attempt + 1
        ∧ (engineAt t e).bringUp.step = 0 ∧ (laserOf t e f).mode ≠ .run ∧ srcId 2 e 7 ∈ t.flt.sticky))
  ∧ (∀ s (p : ElsId), s.engines.length = 24 → s.els.length = 6 → s.boot.down = false →
      Answers (.elsPresence p true true) s (fun t => (elsOf t p).present = true ∧ (elsOf t p).matched = true ∧ (elsOf t p).failed = []
        ∧ ∀ e ∈ portEngines p, (engineAt t e).elsPresent = true
            ∧ (((engineAt s e).state = .down ∨ (engineAt s e).state = .noLight) →
                (engineAt t e).state = .training ∧ (engineAt t e).bringUp.step = 1)))
  ∧ (∀ s (p : ElsId) grid tones, s.engines.length = 24 → s.els.length = 6 → s.boot.down = false → (grid && tones) = false →
      Answers (.elsPresence p grid tones) s (fun t => (elsOf t p).matched = false ∧ (∀ e ∈ portEngines p, (engineAt t e).state
            = if siteLost s e || (engineAt s e).state == .outOfService then .outOfService else .noLight)
        ∧ srcId 2 ((portEngines p).headD 0) 9 ∈ t.flt.sticky))
  ∧ (∀ s (p : ElsId) failed, s.els.length = 6 → (elsOf s p).present = true →
      Answers (.elsMonitorPoll p failed) s (fun t => ∀ q ∈ failed, (q.1.val, q.2.val) ∈ (elsOf t p).failed))
  ∧ (∀ s (p : ElsId), s.els.length = 6 → (elsOf s p).present = true →
      Answers (.elsMonitorPoll p []) s (fun t => (elsOf t p).failed = [] ∧ t.engines = s.engines ∧ t.flt = s.flt ∧ t.svc = s.svc))
  ∧ (∀ s (p : ElsId) failed, s.els.length = 6 → (elsOf s p).present = true →
      Answers (.elsInterrupt p failed) s (fun t => ∀ q ∈ failed, (q.1.val, q.2.val) ∈ (elsOf t p).failed))
  ∧ (∀ s (p : ElsId), s.engines.length = 24 → s.els.length = 6 → (elsOf s p).present = true →
      Answers (.elsTimeout p) s (fun t => (elsOf t p).present = false
        ∧ (∀ e ∈ portEngines p, (engineAt t e).state = (if siteLost s e || (engineAt s e).state == .outOfService then .outOfService else .noLight)
            ∧ (engineAt t e).elsPresent = false)
        ∧ srcId 2 ((portEngines p).headD 0) 9 ∈ t.flt.sticky))
  ∧ (∀ s (e : EngineId) (f : Fin 2), HasLaser s e f → (laserOf s e f).retired = false → (engineAt s e).elsPresent = true →
      (laserOf s e f).ramp = true → (elsOf s (enginePort e)).matched = true → (laserOf s e f).mode = .run →
      (laserOf s e f).setting < (laserOf s e f).atten →
      Answers (.laserRestore e f) s (fun t => (laserOf t e f).mode = .run ∧ (laserOf t e f).atten + 1 = (laserOf s e f).atten))
  ∧ (∀ s (e : EngineId) (f : Fin 2), HasLaser s e f → (laserOf s e f).retired = false → (engineAt s e).elsPresent = true →
      (laserOf s e f).ramp = true → (elsOf s (enginePort e)).matched = true → (laserOf s e f).mode = .run →
      (laserOf s e f).atten ≤ (laserOf s e f).setting →
      Answers (.laserRestore e f) s (fun t => laserOf t e f = { laserOf s e f with ramp := false }))

/-- R394, R416, R417, R420–R424, R446, R447: the rows of maps, rates, widths and the equaliser. -/
def Obligations.LiveChangeRowsComplete : Prop :=
  (∀ s (e : EngineId) (slot : Fin 32) dir (f : Fin 2) (l : Fin 18) eff side, e.val < s.engines.length → takesWords (engineAt s e) = true →
      side = sideOfDir dir →
      (dirOf (engineAt s e) side).maps.any (fun x => x.1 == slot.val && x.2.1 == 18 * f.val + l.val) = false →
      Answers (.map e slot dir f l eff) s (fun t =>
        (dirOf (engineAt t e) side).maps = (dirOf (engineAt s e) side).maps ++ [(slot.val, 18 * f.val + l.val, eff % 2048)]
        ∧ (dirOf (engineAt t e) side).slotRing = (dirOf (engineAt s e) side).slotRing))
  ∧ (∀ s (e : EngineId) (slot : Fin 32) dir (f : Fin 2) (l : Fin 18) eff side, takesWords (engineAt s e) = true → side = sideOfDir dir →
      (dirOf (engineAt s e) side).maps.any (fun x => x.1 == slot.val && x.2.1 == 18 * f.val + l.val) = true →
      Answers (.map e slot dir f l eff) s (fun t => (dirOf (engineAt t e) side).maps = (dirOf (engineAt s e) side).maps))
  ∧ (∀ s (e : EngineId) (rate width : Fin 4) eff, e.val < s.engines.length → takesWords (engineAt s e) = true → (engineAt s e).tx.change = none →
      rateAllowed (engineAt s e).bringUp rate = true →
      Answers (.rateWidth e rate width true eff) s (fun t =>
        (engineAt t e).tx.change.map (fun c => (c.rate, c.width, c.effective, c.switched)) = some (rate.val, widthOfCode width, eff % 65536, false)
        ∧ (engineAt t e).tx.rate = (engineAt s e).tx.rate ∧ (engineAt t e).tx.width = (engineAt s e).tx.width
        ∧ (engineAt t e).txWords = (engineAt s e).txWords ++ [(rateWord rate width 0 eff, 3)]))
  ∧ (∀ s (e : EngineId) (rate width : Fin 4) eff c, e.val < s.engines.length → takesWords (engineAt s e) = true →
      (engineAt s e).tx.change = some c → rateAllowed (engineAt s e).bringUp rate = true →
      Answers (.rateWidth e rate width true eff) s (fun t => (engineAt t e).tx.change = some c
        ∧ (engineAt t e).tx.deferred = (engineAt s e).tx.deferred ++ [(rate.val, widthOfCode width, eff % 65536)]
        ∧ (engineAt t e).txWords = (engineAt s e).txWords))
  ∧ (∀ s (e : EngineId) dir c side, e.val < s.engines.length → side = bnat dir → (engineAt s e).state = .up →
      (dirOf (engineAt s e) side).change = some c → c.switched = false → c.rateChange = false →
      reached (engineAt s e) side c.effective 65536 = true → (dirOf (engineAt s e) side).deferred = [] → (dirOf (engineAt s e) side).paused.length ≤ 4 →
      Answers (.effectiveFrame e dir) s (fun t => (dirOf (engineAt t e) side).width = c.width ∧ (dirOf (engineAt t e) side).rate = c.rate
        ∧ (dirOf (engineAt t e) side).change = none))
  ∧ (∀ s (e : EngineId) dir c side, e.val < s.engines.length → side = bnat dir → (engineAt s e).state = .up →
      (dirOf (engineAt s e) side).change = some c → c.switched = false → c.rateChange = true →
      reached (engineAt s e) side c.effective 65536 = true →
      Answers (.effectiveFrame e dir) s (fun t => (dirOf (engineAt t e) side).width = c.width ∧ (dirOf (engineAt t e) side).rate = c.rate
        ∧ (dirOf (engineAt t e) side).frame = (dirOf (engineAt s e) side).frame ∧ (side = 1 → (dirOf (engineAt t e) side).frameLock = List.replicate 36 false)
        ∧ (dirOf (engineAt t e) side).change = some { c with switched := true }))
  ∧ (∀ s (e : EngineId) dir c side, e.val < s.engines.length → side = bnat dir → (engineAt s e).state = .training →
      (dirOf (engineAt s e) side).change = some c → c.switched = false →
      reached (engineAt s e) side c.effective 65536 = true →
      (if side = 0 then (engineAt s e).bringUp.rxSet else (engineAt s e).bringUp.txSet) = true →
      Answers (.effectiveFrame e dir) s (fun t => (engineAt t e).state = .up ∧ (dirOf (engineAt t e) side).width = c.width
        ∧ (dirOf (engineAt t e) side).rate = c.rate ∧ (engineAt t e).link.txSeq = 0 ∧ (engineAt t e).link.rxExpected = 0))
  ∧ (∀ s (e : EngineId) dir side m, e.val < s.engines.length → side = bnat dir → takesWords (engineAt s e) = true →
      (dirOf (engineAt s e) side).change = none → (dirOf (engineAt s e) side).maps.head? = some m → reached (engineAt s e) side m.2.2 2048 = true →
      Answers (.effectiveFrame e dir) s (fun t =>
        (dirOf (engineAt t e) side).slotRing
          = (dueMaps (dirOf (engineAt s e) side)).foldl (fun m x => setAt m x.1 x.2.1) (dirOf (engineAt s e) side).slotRing))
  ∧ (∀ s (e : EngineId) dir, e.val < s.engines.length → (dirOf (engineAt s e) (bnat dir)).change.isSome = true → (engineAt s e).state = .up →
      Answers (.liveChangeTimeout e dir) s (fun t => (engineAt t e).state = .training ∧ srcId 2 e 0x12 ∈ t.flt.sticky
        ∧ srcId 2 e 0x0D ∈ t.flt.sticky))
  ∧ (∀ s (e : EngineId) dir, e.val < s.engines.length → (dirOf (engineAt s e) (bnat dir)).change.isSome = true →
      (engineAt s e).state = .training →
      Answers (.liveChangeTimeout e dir) s (fun t => (engineAt t e).bringUp.attempt = (engineAt s e).bringUp.attempt + 1
        ∧ (engineAt t e).bringUp.step = 0 ∧ srcId 2 e 0x12 ∈ t.flt.sticky))
  ∧ (∀ s (e : EngineId) (ring : Fin 36) post action, e.val < s.engines.length → ring.val < (engineAt s e).ffe.length →
      takesWords (engineAt s e) = true → isForerunner (engineAt s e).bringUp = false → action ≤ 2 →
      Answers (.ffeReq e ring post action) s (fun t =>
        (engineAt t e).ffe.getD ring Ffe.reset = ((engineAt s e).ffe.getD ring Ffe.reset).move post action
        ∧ (engineAt t e).txWords
            = (engineAt s e).txWords ++ [(ffeAckWord ring (((engineAt s e).ffe.getD ring Ffe.reset).move post action), 3)]))
  ∧ (∀ s (e : EngineId) (ring : Fin 36) pre post limit, e.val < s.engines.length → ring.val < (engineAt s e).ffe.length →
      takesWords (engineAt s e) = true → isForerunner (engineAt s e).bringUp = false →
      Answers (.ffeAck e ring pre post limit) s (fun t => ((engineAt t e).ffe.getD ring Ffe.reset).partnerPre = pre
        ∧ ((engineAt t e).ffe.getD ring Ffe.reset).partnerPost = post
        ∧ ((engineAt t e).ffe.getD ring Ffe.reset).pre = ((engineAt s e).ffe.getD ring Ffe.reset).pre))
  ∧ (∀ s (e : EngineId), e.val < s.engines.length → (engineAt s e).state = .up →
      Answers (.idleFreeze e) s (fun t => (engineAt t e).rx = { (engineAt s e).rx with frozen := true }))
  ∧ (∀ s (e : EngineId) (ring : Fin 36), e.val < s.engines.length → (engineAt s e).state = .up → (waveRing (engineAt s e) ring).state = .locked →
      (waveRing (engineAt s e) ring).slot < (engineAt s e).tx.width →
      Answers (.trainingBlock e ring) s (fun t => ring.val ∈ (engineAt t e).tx.tbDue ∧ (engineAt t e).rx = (engineAt s e).rx))
  ∧ (∀ s (e : EngineId) c, e.val < s.engines.length → (engineAt s e).state = .up → (engineAt s e).rx.change = some c → c.switched = true →
      c.rateChange = true → relocked (engineAt s e).rx = true → (engineAt s e).rx.deferred = [] → (engineAt s e).rx.paused.length ≤ 4 →
      Answers (.effectiveFrame e true) s (fun t => (engineAt t e).rx.change = none
        ∧ (engineAt t e).txWords = (engineAt s e).txWords ++ [(trainWord 8 1 (engineAt s e).rx.rate, 3)]))
  ∧ (∀ s (e : EngineId) dir c side, side = bnat dir → (dirOf (engineAt s e) side).change = some c → c.switched = false →
      reached (engineAt s e) side c.effective 65536 = false → Answers (.effectiveFrame e dir) s (fun t => t = s))

/-- R425–R429, R442, R443, R445: the rows of bring-up, of the error-rate rule and of the return of routes. -/
def Obligations.BringUpRowsComplete : Prop :=
  (∀ s (e : EngineId) w, e.val < s.engines.length → (engineAt s e).state = .up →
      Answers (.hello e w) s (fun t => (engineAt t e).state = .training ∧ (engineAt t e).bringUp.step = 1 ∧ (engineAt t e).bringUp.partner = some w
        ∧ (engineAt t e).linkDowns = satAdd (engineAt s e).linkDowns 1 255 ∧ srcId 2 e 0x0D ∈ t.flt.sticky))
  ∧ (∀ s (e : EngineId) w, e.val < s.engines.length → (engineAt s e).state = .portAbsent →
      Answers (.hello e w) s (fun t => (engineAt t e).state = .training ∧ (engineAt t e).bringUp.step = 1 ∧ (engineAt t e).bringUp.partner = some w))
  ∧ (∀ s (e : EngineId) w, e.val < s.engines.length → (engineAt s e).state = .training → (engineAt s e).bringUp.step ≠ 0 →
      Answers (.hello e w) s (fun t => (engineAt t e).state = .training ∧ 1 ≤ (engineAt t e).bringUp.step ∧ (engineAt t e).bringUp.partner = some w
        ∧ (engineAt t e).bringUp.attempt = (engineAt s e).bringUp.attempt))
  ∧ (∀ s (e : EngineId) step rate passing b, e.val < s.engines.length → (engineAt s e).state = .training →
      b = (engineAt (s.notePassing e passing) e).bringUp → 1 ≤ b.step → step = b.step → b.selfDone = true → stepAfter b < 8 →
      Answers (.train e step 1 rate passing) s (fun t => (engineAt t e).bringUp.step = stepAfter b ∧ (engineAt t e).bringUp.selfDone = false
        ∧ (engineAt t e).bringUp.passing = b.passing ∧ (engineAt t e).state = .training))
  ∧ (∀ s (e : EngineId) step rate passing b r w, e.val < s.engines.length → (engineAt s e).state = .training →
      b = (engineAt (s.notePassing e passing) e).bringUp → 1 ≤ b.step → step = b.step → b.selfDone = true → step < 8 → stepAfter b = 8 →
      chooseRate b (lockedLambdas (engineAt s e) 1) = some (r, w) →
      Answers (.train e step 1 rate passing) s (fun t => (engineAt t e).bringUp.step = 8
        ∧ (engineAt t e).rx.change.map (fun c => (c.rate, c.width, c.switched)) = some (r, w, false)))
  ∧ (∀ s (e : EngineId) step rate passing b, e.val < s.engines.length → (engineAt s e).state = .training →
      b = (engineAt (s.notePassing e passing) e).bringUp → 1 ≤ b.step → step = b.step → b.selfDone = false → step < 8 →
      workDone (engineAt (s.notePassing e passing) e) = false →
      Answers (.train e step 1 rate passing) s (fun t => (engineAt t e).bringUp = { b with partnerDone := true }))
  ∧ (∀ s (e : EngineId) step rate u, e.val < s.engines.length → (engineAt s e).state = .training → u = s.stepDone e →
      1 ≤ (engineAt u e).bringUp.step → nextStep (engineAt u e).bringUp step = true → step < 8 →
      Answers (.train e step 0 rate []) s (fun t => (engineAt t e).bringUp.step = step ∧ (engineAt t e).bringUp.selfDone = false
        ∧ (engineAt t e).bringUp.partnerDone = false))
  ∧ (∀ s (e : EngineId) step rate, e.val < s.engines.length → (engineAt s e).state = .training → 1 ≤ (engineAt s e).bringUp.step → 1 ≤ step →
      Answers (.train e step 2 rate []) s (fun t => (engineAt t e).bringUp.step = 0
        ∧ (engineAt t e).bringUp.attempt = (engineAt s e).bringUp.attempt + 1))
  ∧ (∀ s (e : EngineId) rate passing, e.val < s.engines.length → (engineAt s e).state = .up →
      Answers (.train e 0 2 rate passing) s (fun t => (engineAt t e).state = .training ∧ srcId 2 e 0x0D ∈ t.flt.sticky))
  ∧ (∀ s (e : EngineId) step rate passing c, e.val < s.engines.length → (engineAt s e).state = .up → (engineAt s e).tx.change = some c →
      c.switched = true → c.rateChange = true → (engineAt s e).tx.deferred = [] → (engineAt s e).tx.paused.length ≤ 4 →
      Answers (.train e step 1 rate passing) s (fun t => (engineAt t e).tx.change = none
        ∧ (engineAt t e).link.replayFrom = ((engineAt s e).link.held.head?).map (·.1)))
  ∧ (∀ s (e : EngineId), e.val < s.engines.length → (engineAt s e).state = .training → 1 ≤ (engineAt s e).bringUp.step →
      Answers (.bringupTimeout e) s (fun t => (engineAt t e).bringUp.step = 0 ∧ (engineAt t e).bringUp.attempt = (engineAt s e).bringUp.attempt + 1
        ∧ (engineAt t e).state = .training))
  ∧ (∀ s (e : EngineId), e.val < s.engines.length → (engineAt s e).state = .training → (engineAt s e).bringUp.step = 0 →
      (engineAt s e).bringUp.attempt ≤ 3 →
      Answers (.bringupRetry e) s (fun t => (engineAt t e).bringUp.step = 1 ∧ (engineAt t e).bringUp.selfDone = false
        ∧ (engineAt t e).bringUp.attempt = (engineAt s e).bringUp.attempt ∧ (engineAt t e).state = .training))
  ∧ (∀ s (e : EngineId), e.val < s.engines.length → (engineAt s e).state = .training → (engineAt s e).bringUp.step = 0 →
      3 < (engineAt s e).bringUp.attempt →
      Answers (.bringupRetry e) s (fun t => (engineAt t e).state = .portAbsent ∧ srcId 2 e 8 ∈ t.flt.sticky))
  ∧ (∀ s (e : EngineId) w, e.val < s.engines.length → (engineAt s e).state = .portAbsent →
      Answers (.portAbsentListen e (some w)) s (fun t => (engineAt t e).state = .training ∧ (engineAt t e).bringUp.step = 1
        ∧ (engineAt t e).bringUp.partner = some w))
  ∧ (∀ s (e : EngineId), Answers (.portAbsentListen e none) s (fun t => t = s))
  ∧ (∀ s (e : EngineId) positions l, e.val < s.engines.length → (engineAt s e).state = .up →
      l = (((engineAt s e).slotFailed, (engineAt s e).positions + positions) :: (engineAt s e).buckets).take 16 →
      total (l.map (·.1.length)) * 1000000 ≤ total (l.map (·.2)) →
      Answers (.linkErrorBucket e positions) s (fun t => (engineAt t e).state = .up ∧ (engineAt t e).buckets = l ∧ (engineAt t e).slotFailed = []
        ∧ (engineAt t e).positions = 0))
  ∧ (∀ s (e : EngineId) positions l, e.val < s.engines.length → (engineAt s e).state = .up →
      l = (((engineAt s e).slotFailed, (engineAt s e).positions + positions) :: (engineAt s e).buckets).take 16 →
      total (l.map (·.2)) < total (l.map (·.1.length)) * 1000000 →
      Answers (.linkErrorBucket e positions) s (fun t => (engineAt t e).state = .training
        ∧ (engineAt t e).linkDowns = satAdd (engineAt s e).linkDowns 1 255 ∧ srcId 2 e 0x0D ∈ t.flt.sticky))
  ∧ (∀ s (e : EngineId), e.val < s.engines.length → (engineAt s e).state = .up → (engineAt s e).restoring = true →
      Answers (.routeRestore e) s (fun t => (engineAt t e).restoring = false ∧ (engineAt t e).state = .up))
  ∧ (∀ s (e : EngineId) w, (engineAt s e).state = .training → (engineAt s e).bringUp.step = 0 → Answers (.hello e w) s (fun t => t = s))

/-- R449–R454, R214: the rows of transactions between modules. -/
def Obligations.TransactionRowsComplete : Prop :=
  (∀ s (e : EngineId) m unit a u, (engineAt s e).state = .up → messageOk m = true → wrongVc s e m = false → ownId s ≠ 0xFFFF → msgDst m = ownId s → msgOp m = 0x02 →
      unit = field 8 1 m → unitHere s unit = true → cacheAt s unit (msgSrc m) (msgTag m % 4096) = none →
      ((cacheSources s unit).length < 16 ∨ (cacheSources s unit).contains (msgSrc m) = true) → 24 < m.length →
      u = (if unit = 0x80 then none else some (unit % 64)) → a = msgOperand m % 2 ^ 48 → memWaitsBy s u [⟨a, m.length - 24⟩] = false →
      accessSource s u false [⟨a, m.length - 24⟩] = none →
      Answers (.transactionRequest e m) s (fun t => t.mem.cells = (s.writeMem [⟨a, m.length - 24⟩] (m.drop 24)).mem.cells
        ∧ (cacheAt t unit (msgSrc m) (msgTag m % 4096)).map (fun c => (c.gen, c.code)) = some (msgTag m / 4096, 0)))
  ∧ (∀ s (e : EngineId) m unit c, (engineAt s e).state = .up → messageOk m = true → wrongVc s e m = false → ownId s ≠ 0xFFFF → msgDst m = ownId s → bit 7 (msgOp m) = false →
      msgOp m ≠ 0x01 → unit = field 8 1 m → unitHere s unit = true → cacheAt s unit (msgSrc m) (msgTag m % 4096) = some c →
      c.gen = msgTag m / 4096 →
      Answers (.transactionRequest e m) s (fun t => t.mem = s.mem ∧ t.trans.cache = s.trans.cache ∧ t.trans.leases = s.trans.leases))
  ∧ (∀ s (e : EngineId) m unit a n u, (engineAt s e).state = .up → messageOk m = true → wrongVc s e m = false → ownId s ≠ 0xFFFF → msgDst m = ownId s → msgOp m = 0x01 →
      unit = field 8 1 m → unitHere s unit = true → cacheAt s unit (msgSrc m) (msgTag m % 4096) = none →
      ((cacheSources s unit).length < 16 ∨ (cacheSources s unit).contains (msgSrc m) = true) → a = msgOperand m % 2 ^ 48 →
      n = msgOperand m / 2 ^ 48 → 1 ≤ n → n ≤ 4096 → u = (if unit = 0x80 then none else some (unit % 64)) → memWaitsBy s u [⟨a, n⟩] = false →
      accessSource s u true [⟨a, n⟩] = none →
      Answers (.transactionRequest e m) s (fun t => t.mem.cells = s.mem.cells ∧ t.mem.poison = s.mem.poison
        ∧ t.cel.kvRead = s.cel.kvRead + leasedBytes s (msgSrc m) a n
        ∧ (cacheAt t unit (msgSrc m) (msgTag m % 4096)).map (fun c => (c.gen, c.code)) = some (msgTag m / 4096, 0)))
  ∧ (∀ s (e : EngineId) m, (engineAt s e).state = .up → messageOk m = true → wrongVc s e m = false → ownId s ≠ 0xFFFF → msgDst m ≠ ownId s → msgHops m = 0 →
      Answers (.transactionRequest e m) s (fun t => srcId 2 e 0x11 ∈ t.flt.sticky ∧ t.mem = s.mem ∧ t.trans.sentMessages = s.trans.sentMessages))
  ∧ (∀ s (e : EngineId) m, e.val < s.engines.length → (engineAt s e).state = .up → (messageOk m = false ∨ wrongVc s e m = true) →
      Answers (.transactionRequest e m) s (fun t => (engineAt t e).state = .training ∧ srcId 2 e 0x0F ∈ t.flt.sticky ∧ t.mem = s.mem))
  ∧ (∀ s m slot q, messageOk m = true → (∀ e, arrivedOn s m = some e → wrongVc s e m = false) → ownId s ≠ 0xFFFF → msgDst m = ownId s → bit 7 (msgOp m) = true → slot = msgTag m % 4096 →
      requestAt s slot = some q → q.gen = msgTag m / 4096 → msgResp m = 0 → q.cid = none → q.block = none → s.trans.waiting = [] →
      Answers (.transactionResponse m) s (fun t => requestAt t slot = none
        ∧ ∀ k, k ≠ slot → requestAt t k = requestAt s k))
  ∧ (∀ s m slot q cid c, messageOk m = true → (∀ e, arrivedOn s m = some e → wrongVc s e m = false) → ownId s ≠ 0xFFFF → msgDst m = ownId s → bit 7 (msgOp m) = true → slot = msgTag m % 4096 →
      requestAt s slot = some q → q.gen = msgTag m / 4096 → (msgResp m = 3 ∨ msgResp m = 5) → q.cid = some cid → q.block = none →
      Live s cid c → NoneFailed s cid → migOf s cid true = none →
      Answers (.transactionResponse m) s (fun t => EndedAs t cid (if msgResp m = 3 then .peerAbsent else .linkLost)))
  ∧ (∀ s m slot q, messageOk m = true → (∀ e, arrivedOn s m = some e → wrongVc s e m = false) → ownId s ≠ 0xFFFF → msgDst m = ownId s → bit 7 (msgOp m) = true → slot = msgTag m % 4096 →
      requestAt s slot = some q → q.gen ≠ msgTag m / 4096 →
      Answers (.transactionResponse m) s (fun t => t.trans.requests = s.trans.requests ∧ t.host = s.host))
  ∧ (∀ s m slot q, messageOk m = true → (∀ e, arrivedOn s m = some e → wrongVc s e m = false) → ownId s ≠ 0xFFFF → msgDst m = ownId s → bit 7 (msgOp m) = true → slot = msgTag m % 4096 →
      requestAt s slot = some q → q.gen = msgTag m / 4096 → msgResp m = 2 → answerWaits s m = false →
      Answers (.transactionResponse m) s (fun t => requestAt t slot = some { q with busy := true }
        ∧ (∀ k, k ≠ slot → requestAt t k = requestAt s k) ∧ t.host = s.host))
  ∧ (∀ s slot q cid c, requestAt s slot = some q → q.cid = some cid → q.block = none → Live s cid c → NoneFailed s cid → migOf s cid true = none →
      Answers (.requestTimeout slot) s (fun t => EndedAs t cid .linkLost))
  ∧ (∀ s slot, requestAt s slot = none → Answers (.requestTimeout slot) s (fun t => t = s))
  ∧ (∀ s slot q e, requestAt s slot = some q → q.busy = true →
      routeFor s (msgDst q.message) (field 9 1 q.message) (msgVc (msgOp q.message)) = some e →
      Answers (.requestRetry slot) s (fun t => t.trans.sentMessages = s.trans.sentMessages ++ [(e, q.message)]
        ∧ requestAt t slot = some { q with busy := false } ∧ ∀ k, k ≠ slot → requestAt t k = requestAt s k))
  ∧ (∀ s slot, (∀ q, requestAt s slot = some q → q.busy = false) → Answers (.requestRetry slot) s (fun t => t = s))
  ∧ (∀ s unit source slot, Answers (.cacheEntryExpiry unit source slot) s (fun t => cacheAt t unit source slot = none
      ∧ ∀ u m k, (u, m, k) ≠ (unit, source, slot) → cacheAt t u m k = cacheAt s u m k))
  ∧ (∀ s p e, holdsLeases s = true → caskPeers s = [p] → p < 8192 → s.trans.waiting = [] →
      freeIndex (s.trans.requests.map (·.slot)) tagSlots ≠ none → routeFor s p 0x80 (msgVc 0x11) = some e →
      Answers .leaseKeepaliveSend s (fun t => (t.trans.sentMessages.map (fun q => (q.1, msgDst q.2, msgOp q.2, msgOperand q.2)))
        = s.trans.sentMessages.map (fun q => (q.1, msgDst q.2, msgOp q.2, msgOperand q.2)) ++ [(e, p, 0x11, keepaliveOperand s)]))
  ∧ (∀ s, holdsLeases s = false → Answers .leaseKeepaliveSend s (fun t => t = s))
  ∧ (∀ s source operand, Answers (.leaseKeepalive source operand) s (fun t => lookupKey source t.trans.keepalives = some operand
      ∧ (∀ l ∈ t.trans.leases, l.owner = source → l.operand = some operand)
      ∧ ((∃ l ∈ s.trans.leases, l.owner = source ∧ l.operand.isSome = true ∧ l.operand ≠ some operand) → ∀ l ∈ t.trans.leases, l.owner ≠ source)
      ∧ ∀ l ∈ s.trans.leases, l.owner ≠ source → l ∈ t.trans.leases))
  ∧ (∀ s source, Answers (.leaseExpiry source) s (fun t => (∀ l ∈ t.trans.leases, l.owner ≠ source) ∧ lookupKey source t.trans.keepalives = none
      ∧ ∀ l ∈ s.trans.leases, l.owner ≠ source → l ∈ t.trans.leases))

/-- R457–R467, R474–R479: the rows of sensors, of the thermal ceiling, of the power cap and of the daily points; a guard band is never lowered. -/
def Obligations.ThermalControlRowsComplete : Prop :=
  (∀ s (site : SiteId) readings h r m bad, site.val < s.tiles.length → (tileAt s site).state ≠ .isolated → readings.length = 8 →
      judge readings (tileAt s site).thermal.history (tileAt s site).thermal.rangeCount (tileAt s site).thermal.medianCount
        (tileAt s site).thermal.broken = (h, r, m, bad) → (∀ k ∈ bad, (tileAt s site).thermal.broken.getD k false = true) →
      Answers (.sensorSample (.tile site) readings) s (fun t => (tileAt t site).thermal.history = h ∧ (tileAt t site).thermal.rangeCount = r
        ∧ (tileAt t site).thermal.medianCount = m ∧ (tileAt t site).thermal.broken = (tileAt s site).thermal.broken ∧ t.flt = s.flt))
  ∧ (∀ s (site : SiteId) readings, (tileAt s site).state = .isolated → Answers (.sensorSample (.tile site) readings) s (fun t => t = s))
  ∧ (∀ s readings h r m bad, readings.length = 8 → judge readings s.th.hubHistory s.th.hubRange s.th.hubMedian s.th.hubBroken = (h, r, m, bad) →
      (∀ k ∈ bad, s.th.hubBroken.getD k false = true) →
      Answers (.sensorSample .hub readings) s (fun t =>
        t.th = { s.th with hubHistory := h, hubRange := r, hubMedian := m } ∧ t.flt = s.flt))
  ∧ (∀ s (e : EngineId) readings h r m bad, e.val < s.engines.length → readings.length = 4 →
      judge readings (engineAt s e).sensorHistory (engineAt s e).sensorRange (engineAt s e).sensorMedian (engineAt s e).sensorBroken
        = (h, r, m, bad) → (∀ k ∈ bad, (engineAt s e).sensorBroken.getD k false = true) →
      Answers (.sensorSample (.engine e) readings) s (fun t => (engineAt t e).sensorHistory = h ∧ (engineAt t e).sensorRange = r
        ∧ (engineAt t e).sensorMedian = m ∧ (engineAt t e).sensorBroken = (engineAt s e).sensorBroken ∧ t.flt = s.flt))
  ∧ (∀ s readings h r m bad, readings.length = 8 → s.th.hubBroken.length = 8 →
      judge readings s.th.hubHistory s.th.hubRange s.th.hubMedian s.th.hubBroken = (h, r, m, bad) →
      Answers (.sensorSample .hub readings) s (fun t => ∀ k ∈ bad, s.th.hubBroken.getD k false = false →
        t.th.hubBroken.getD k false = true ∧ srcId 6 0 (0x10 + k) ∈ t.flt.sticky))
  ∧ (∀ s (site : SiteId) x used, site.val < s.tiles.length → x = (excesses s site).foldl max ((excesses s site).headD 0) →
      used = (if 100 < (x - (tileAt s site).thermal.xUsed).natAbs then x else (tileAt s site).thermal.xUsed) →
      Answers (.thermalCeilingUpdate site) s (fun t => (tileAt t site).thermal.xUsed = used
        ∧ (tileAt t site).thermal.ceiling = Nat.max (64 - (max used 0 / 100).toNat) 8
        ∧ (tileAt t site).thermal.issueRate = (tileAt s site).thermal.issueRate
        ∧ ((tileAt s site).state = .compute → (tileAt s site).thermal.ceiling ≠ 8 → (tileAt t site).thermal.ceiling = 8 →
            srcId 6 site 8 ∈ t.flt.sticky ∧ t.boot.cause.getLsbD 5 = true)))
  ∧ (∀ s (site : SiteId) top, site.val < s.tiles.length → (tileAt s site).state = .compute →
      top = Nat.min (tileAt s site).thermal.ceiling s.th.cP →
      Answers (.issueRateStep site) s (fun t => ((tileAt s site).thermal.issueRate = top → (tileAt t site).thermal.issueRate = top)
        ∧ ((tileAt s site).thermal.issueRate < top → (tileAt t site).thermal.issueRate = (tileAt s site).thermal.issueRate + 1)
        ∧ (top < (tileAt s site).thermal.issueRate → (tileAt t site).thermal.issueRate + 1 = (tileAt s site).thermal.issueRate)))
  ∧ (∀ s watts, watts ≤ capInForce s → Answers (.powerTelemetrySample watts true) s (fun t => t.th.cP = s.th.cP ∧ t.th.fastLimit = false
      ∧ t.th.telemetryFault = false))
  ∧ (∀ s watts, capInForce s < watts → Answers (.powerTelemetrySample watts true) s (fun t => t.th.cP = Nat.max (s.th.cP - 10) 8
      ∧ t.th.fastLimit = true ∧ t.th.telemetryFault = false ∧ (s.th.fastLimit = false → srcId 7 0 1 ∈ t.flt.sticky)))
  ∧ (∀ s watts, Answers (.powerTelemetrySample watts false) s (fun t => t.th.telemetryFault = true
      ∧ (s.th.telemetryFault = false → srcId 7 0 3 ∈ t.flt.sticky) ∧ t.th.fastLimit = decide (2432 * capInForce s < planningUnits s)))
  ∧ (∀ s p watts, p = (if s.th.telemetryFault then planningUnits s else 2432 * watts) →
      Answers (.powerLoop watts) s (fun t => t.th.cP = powerStep p (capInForce s) s.th.cP ∧ t.th.inputPower = Nat.min (p / 2432) 65535
        ∧ (s.th.cP = 64 → t.th.cP < 64 → srcId 7 0 0 ∈ t.flt.sticky)))
  ∧ (∀ s d slowdown, slowdown ≠ [] → (match d with | .tile n => n.val < s.tiles.length | .engine e => e.val < s.engines.length | .hub => True) →
      dieThere s d = true → pointDue s true ((ageingOf s d).points.getLast?.map (·.1)) = true →
      Answers (.ageingPoint d slowdown) s (fun t =>
        (ageingOf t d).value = ((greatest slowdown).getD 0 : Int) - ((ageingOf s d).baseline.getD ((greatest slowdown).getD 0) : Nat)
        ∧ (ageingOf t d).baseline = some ((ageingOf s d).baseline.getD ((greatest slowdown).getD 0))
        ∧ (ageingOf t d).points = keepPoints ((ageingOf s d).points ++ [(s.ret.opTime, (ageingOf t d).value)])
        ∧ (ageingOf t d).guard = guardFor (dieIndex d) (ageingOf t d).value (ageingOf s d).guard ∧ (ageingOf s d).guard ≤ (ageingOf t d).guard))
  ∧ (∀ s d slowdown, (slowdown = [] ∨ dieThere s d = false ∨ pointDue s true ((ageingOf s d).points.getLast?.map (·.1)) = false) →
      Answers (.ageingPoint d slowdown) s (fun t => t = s))
  ∧ (∀ s (e : EngineId) (r : OeRing) point, HasRing s e r → pointDue s false ((waveRing (engineAt s e) r).points.getLast?.map (·.1)) = true →
      Answers (.opticalPoint e r point) s (fun t => (waveRing (engineAt t e) r).points
          = ((waveRing (engineAt s e) r).points ++ [(s.ret.opTime, { point with heater := heaterAt85 (engineAt s e) r point.heater })]).drop ((waveRing (engineAt s e) r).points.length + 1 - 30)
        ∧ (waveRing (engineAt t e) r).state = (waveRing (engineAt s e) r).state))
  ∧ (∀ s (e : EngineId) (r : OeRing) point, pointDue s false ((waveRing (engineAt s e) r).points.getLast?.map (·.1)) = false →
      Answers (.opticalPoint e r point) s (fun t => t = s))

/-- R461, R468–R470, R564: the rows of trips, of the shutdown and of restarts. -/
def Obligations.TripRowsComplete : Prop :=
  (∀ s, s.pins.pwrgd = true → s.ret.tripped = false → Answers .overcurrentTrip s (fun t => t.ret.tripped = true ∧ t.ret.tripKind = .overcurrent
      ∧ t.ret.tripSource = 0x7002 ∧ t.pins.tripOut = true ∧ t.pins.alertOut = true ∧ t.pins.regulators = false ∧ t.pins.readyOut = false
      ∧ t.host.cmds = [] ∧ t.sessions = [] ∧ t.mem.cells = []))
  ∧ (∀ s x reading, s.pins.pwrgd = true → s.ret.tripped = false → classS s = false → sensorBroken s x = false → 110 ≤ reading →
      Answers (.thermalTrip x reading) s (fun t => t.ret.tripped = true ∧ t.ret.tripKind = .thermal ∧ t.ret.tripSource = sensorSource x
        ∧ t.ret.tripReading = reading % 256 ∧ t.pins.tripOut = true ∧ t.pins.regulators = false))
  ∧ (∀ s x reading, (classS s = true ∨ sensorBroken s x = true ∨ reading < 110) → Answers (.thermalTrip x reading) s (fun t => t = s))
  ∧ (∀ s x reading, s.pins.pwrgd = true → s.ret.tripped = false → classS s = true → sensorBroken s x = false → 120 ≤ reading →
      Answers (.backstopTrip x reading) s (fun t => t.ret.tripped = true ∧ t.ret.tripKind = .backstop ∧ t.ret.tripSource = sensorSource x
        ∧ t.ret.tripReading = reading % 256 ∧ t.pins.tripOut = true ∧ t.pins.regulators = false))
  ∧ (∀ s x reading, (classS s = false ∨ sensorBroken s x = true ∨ reading < 120) → Answers (.backstopTrip x reading) s (fun t => t = s))
  ∧ (∀ s hottest, s.ret.tripped = true → s.pins.refclk = true → Answers (.tripSensorPoll hottest) s (fun t =>
      t.ret.coolSince = (if hottest < 280 then some ((s.ret.coolSince.getD 0) + 1) else none) ∧ t.pins = s.pins))
  ∧ (∀ s x reading, twiceHot s x = false → Answers (.thermalShutdown x reading) s (fun t => t = s))
  ∧ (∀ s katOk idA idB, s.ret.tripped = true → (s.ret.tripKind = .thermal ∨ s.ret.tripKind = .overcurrent) → 600 ≤ s.ret.coolSince.getD 0 →
      s.pins.pwrgd = true →
      Answers (.tripRestart katOk idA idB) s (fun t => t.ret.tripped = false ∧ t.boot.lastKind = .cold ∧ t.boot.step = 4 ∧ t.boot.ready = false
        ∧ t.ret.cycles = (s.ret.cycles + 1) % 2 ^ 24))
  ∧ (∀ s katOk idA idB, s.ret.tripKind = .backstop → Answers (.tripRestart katOk idA idB) s (fun t => t = s))
  ∧ (∀ s x reading, classS s = true → sensorBroken s x = false → 110 ≤ reading → twiceHot s x = true → s.boot.hot = false → s.boot.fwUp = true →
      Answers (.thermalShutdown x reading) s (fun t => t.boot.stopped = true ∧ t.boot.hot = true ∧ t.boot.down = true ∧ t.boot.ready = false
        ∧ t.boot.cause.getLsbD 5 = true ∧ t.pins.readyOut = false ∧ srcId 6 0 0x19 ∈ t.flt.sticky
        ∧ ∀ c ∈ t.host.cmds, c.done.isSome = true))
  ∧ (∀ s, s.pins.pwrgd = true → s.ret.tripped = false → Answers .inputRangeTrip s (fun t => t.ret.tripped = true ∧ t.ret.tripKind = .inputRange
      ∧ t.pins.input = false ∧ t.pins.tripOut = true ∧ t.pins.regulators = false))
  ∧ (∀ s, (s.pins.pwrgd = false ∨ s.ret.tripped = true) → Answers .inputRangeTrip s (fun t => t = { s with pins := { s.pins with input := false } }))
  ∧ (∀ s katOk idA idB, s.ret.tripped = true → s.ret.tripKind = .inputRange → s.pins.pwrgd = true →
      Answers (.inputRangeRestart katOk idA idB) s (fun t => t.ret.tripped = false ∧ t.pins.input = true ∧ t.boot.lastKind = .cold ∧ t.boot.step = 4))
  ∧ (∀ s katOk idA idB, s.ret.tripKind ≠ .inputRange →
      Answers (.inputRangeRestart katOk idA idB) s (fun t => t = { s with pins := { s.pins with input := true } }))

/-- R339, R462, R487–R501, R513, R514, R519, R520, R524–R527, R575–R578, R581: the rows of the fault collector, of the flashes and of the sideband. -/
def Obligations.FaultAndFlashRowsComplete : Prop :=
  (∀ s events, received s events ≠ [] → Answers (.faultCapture events) s (fun t => (∀ ev ∈ received s events, ev.source ∈ t.flt.sticky)
      ∧ (∀ ev ∈ received s events, severityOf ev.source ≤ t.flt.highest) ∧ t.flt.firstValid = true))
  ∧ (∀ s events, (∃ ev ∈ received s events, severityOf ev.source = 3) → Answers (.faultCapture events) s (fun t => t.boot.stopped = true
      ∧ t.boot.down = true ∧ t.boot.ready = false ∧ t.pins.readyOut = false ∧ ∀ c ∈ t.host.cmds, c.done.isSome = true))
  ∧ (∀ s events, received s events = [] → Answers (.faultCapture events) s (fun t => t = s))
  ∧ (∀ s res st, openState s.flt (resourceKey res) = some st → unrested s (resourceKey res) = false → st.injectedOnly = true →
      Answers (.faultStateRestExpiry res) s (fun t => openState t.flt (resourceKey res) = none ∧ t.log.held = s.log.held ∧ t.ret.faultList = t.flt.open_))
  ∧ (∀ s res st, openState s.flt (resourceKey res) = some st → unrested s (resourceKey res) = false → st.injectedOnly = false →
      Answers (.faultStateRestExpiry res) s (fun t =>
        Mirror.recovery { res := st.res, times := (s.ret.opTime :: recordedTimes s st.res).take 8 } ∈ t.log.held))
  ∧ (∀ s res, (openState s.flt (resourceKey res) = none ∨ unrested s (resourceKey res) = true) → Answers (.faultStateRestExpiry res) s (fun t => t = s))
  ∧ (∀ s, s.ret.openRec.isSome = true → s.ret.openAt + 60 ≤ s.ret.opTime → Answers .logRecordTimeout s (fun t => t.ret.openRec = none))
  ∧ (∀ s (i : Fin 2) r l, (flashAt s i).queue = .log r :: l → (flashAt s i).failed = false →
      (s.log.refused && (flashAt s i).paused) = false →
      Answers (.flashOpDone i true) s (fun t => (flashAt t i).queue = l ∧ (flashAt t i).ring.getLast? = some r ∧ (flashAt t i).errors = 0
        ∧ flashAt t (1 - i.val) = flashAt s (1 - i.val)))
  ∧ (∀ s m l, s.flashA.queue = .mirror m :: l → s.flashA.failed = false → (s.log.refused && s.flashA.paused) = false → s.flashB.failed = false →
      Answers (.flashOpDone 0 true) s (fun t => t.flashA.queue = l ∧ m ∈ t.flashA.entries ∧ FlashOp.mirror m ∈ t.flashB.queue))
  ∧ (∀ s (i : Fin 2) op l, (flashAt s i).queue = op :: l → (flashAt s i).failed = false → (s.log.refused && (flashAt s i).paused) = false → (flashAt s i).errors = 0 →
      Answers (.flashOpDone i false) s (fun t => (flashAt t i).errors = 1 ∧ (flashAt t i).failed = false
        ∧ srcId 8 i 1 ∈ t.flt.sticky))
  ∧ (∀ s (i : Fin 2) op l, (flashAt s i).queue = op :: l → (flashAt s i).failed = false → (s.log.refused && (flashAt s i).paused) = false → (flashAt s i).errors ≠ 0 →
      Answers (.flashOpDone i false) s (fun t => (flashAt t i).failed = true
        ∧ ((flashAt s (1 - i.val)).failed = false → s.log.active = i.val → t.log.active = 1 - i.val)))
  ∧ (∀ s (i : Fin 2) ok, s.log.refused = true → (flashAt s i).paused = true → Answers (.flashOpDone i ok) s (fun t => t = s))
  ∧ (∀ s v, flashSensor s = some v → s.log.refused = false → (v < 0 ∨ 340 < v) →
      Answers .flashWritesRefused s (fun t => t.log.refused = true ∧ srcId 6 0 0x1A ∈ t.flt.sticky))
  ∧ (∀ s v, flashSensor s = some v → s.log.refused = true → 8 ≤ v → v ≤ 332 →
      Answers .flashWritesAllowed s (fun t => t.log.refused = false))
  ∧ (∀ s code, Answers (.smbusBlockRead code) s (fun t =>
      t.sb.reply = (sidebandReply s code).map (fun d => BitVec.ofNat 8 d.length :: d ++ [pecOf code d]) ∧ t.sb.status = s.sb.status))
  ∧ (∀ s code, Answers (.i3cPrivateRead code) s (fun t => t.sb.reply = sidebandReply s code ∧ t.sb.status = s.sb.status))
  ∧ (∀ s, s.ret.powered = true → s.pins.alertOut = true →
      Answers .smbusAlertResponse s (fun t => t.sb.reply = some [0x5A] ∧ t.pins.alertOut = false))
  ∧ (∀ s, (s.ret.powered = false ∨ s.pins.alertOut = false) →
      Answers .smbusAlertResponse s (fun t => t.sb.reply = none ∧ t.pins = s.pins))
  ∧ (∀ s, s.ret.powered = true → s.sb.hubRunning = true →
      Answers .sidebandRefresh s (fun t => t.sb.status = some ((resultOf (statusFields s)).take 29)
        ∧ t.sb.thermal = some (leBytes 4 (thmModuleStatus s)) ∧ t.sb.service = some (leBytes 4 (serviceStatus s) ++ leBytes 4 (flashStatus s))
        ∧ t.sb.reply = s.sb.reply))
  ∧ (∀ s, Answers .standbySupplyLoss s (fun t => t.ret = { Retained.reset with powered := false } ∧ t.sb.ident = none ∧ t.sb.status = none
      ∧ t.pins.tripOut = false ∧ t.flashA = s.flashA ∧ t.flashB = s.flashB))
  ∧ (∀ s, s.ret.powered = false → Answers .standbySupplyReturn s (fun t => t.ret = { s.ret with powered := true } ∧ t.sb.status = none))

/-- R545–R552: the rows of the stream check units. -/
def Obligations.StreamCheckRowsComplete : Prop :=
  (∀ s (u : ScuId) (v : Word), u.val < s.scu.length → (scuAt s u).enable = false → v.getLsbD 31 = true →
      ((scuAt s u).configure v.toNat).valid = true →
      Answers (.scuEnable u v) s (fun t => scuAt t u = ((scuAt s u).configure v.toNat).start ∧ (scuAt t u).enable = true ∧ (scuAt t u).fifo = []))
  ∧ (∀ s (u : ScuId) (v : Word), u.val < s.scu.length → (scuAt s u).enable = false → v.getLsbD 31 = true →
      ((scuAt s u).configure v.toNat).valid = false →
      Answers (.scuEnable u v) s (fun t => (scuAt t u).configError = true ∧ (scuAt t u).enable = false))
  ∧ (∀ s (u : ScuId) (v : Word), (scuAt s u).enable = true → v.getLsbD 31 = true → Answers (.scuEnable u v) s (fun t => t = s))
  ∧ (∀ s (u : ScuId), u.val < s.scu.length → (scuAt s u).enable = true →
      Answers (.scuDisable u) s (fun t => (scuAt t u).enable = false ∧ (scuAt t u).partialBytes = []
        ∧ ((scuAt s u).partialBytes ≠ [] →
            (scuAt t u).records = ((scuAt s u).close (scuAt s u).partialBytes true).records
            ∧ (scuAt t u).fifo = ((scuAt s u).close (scuAt s u).partialBytes true).fifo)))
  ∧ (∀ s (u : ScuId) bytes ok, u.val < s.scu.length → (scuAt s u).enable = true → (scuAt s u).delivers s = true → (scuAt s u).fixed = false →
      Answers (.scuRecordClose u bytes ok false) s (fun t => scuAt t u = (scuAt s u).close bytes (!ok)))
  ∧ (∀ s (u : ScuId) bytes ok, u.val < s.scu.length → (scuAt s u).enable = true → (scuAt s u).delivers s = true → (scuAt s u).fixed = true →
      (scuAt s u).partialBytes.length + bytes.length < (scuAt s u).frame.toNat →
      Answers (.scuRecordClose u bytes ok false) s (fun t => scuAt t u = { scuAt s u with partialBytes := (scuAt s u).partialBytes ++ bytes }))
  ∧ (∀ s (u : ScuId) bytes ok, u.val < s.scu.length → (scuAt s u).enable = true → (scuAt s u).delivers s = true → (scuAt s u).fixed = true →
      (scuAt s u).partialBytes.length + bytes.length = (scuAt s u).frame.toNat → 0 < (scuAt s u).frame.toNat →
      Answers (.scuRecordClose u bytes ok false) s (fun t =>
        scuAt t u = { (scuAt s u).close ((scuAt s u).partialBytes ++ bytes) false with partialBytes := [] }))
  ∧ (∀ s (u : ScuId), u.val < s.scu.length → (scuAt s u).fifo = [] →
      Answers (.scuResultRead u) s (fun t => t.host.readData = leBytes 8 0 ∧ (scuAt t u).fifo = []))
  ∧ (∀ s (u : ScuId) x l, u.val < s.scu.length → (scuAt s u).fifo = x :: l →
      Answers (.scuResultRead u) s (fun t => t.host.readData = leBytes 8 x.value.toNat ∧ (scuAt t u).fifo = l ∧ (scuAt t u).info = x.info))

/-- Frames: what the commands of the general, model, session, placement and diagnostic families leave as it was,
in every state, whichever path a row takes; memory is compared byte by byte. -/
def Obligations.HostCommandsChangeOnlyTheirParts : Prop :=
  (∀ row ∈ [Instr.nop, .identify, .getFeature, .modelQuery, .placementQuery, .selftestSummary, .settingsRead],
      ∀ cid, Confined [.cmds] (row cid))
  ∧ (∀ cid, Confined [.cmds, .free] (.getStatus cid))
  ∧ (∀ cid, Confined [.host, .cmds] (.setFeatureBar4Aperture cid))
  ∧ (∀ cid, Confined (linkParts.append [.cel, .cmds, .cxl, .free]) (.setFeatureCxlPortOffline cid))
  ∧ (∀ cid, Confined [.th, .cmds] (.setFeaturePowerCap cid))
  ∧ (∀ cid, Confined [.th, .cmds] (.setFeatureThrottleStart cid))
  ∧ (∀ cid manifest weights, Confined [.ret, .cel, .cmds, .mem, .models] (.modelLoad cid manifest weights))
  ∧ (∀ cid manifest weights, Confined [.cel, .cmds, .mem, .models] (.modelLoadStage cid manifest weights))
  ∧ (∀ cid, Confined [.cel, .cmds, .models] (.modelUnload cid))
  ∧ (∀ cid, Confined [.cmds, .models] (.modelEpochCommit cid))
  ∧ (∀ cid, Confined [.ret, .cel, .cmds, .sessions, .free] (.sessionOpen cid))
  ∧ (∀ cid, Confined (linkParts.append [.cel, .cmds, .models, .sessions, .sessionGen, .migs, .free]) (.sessionClose cid))
  ∧ (∀ row ∈ [Instr.prefill, .prefillRebuild, .decode],
      ∀ cid binds, Confined (eventParts.append (linkParts.append [.cel, .mem, .bytes, .models, .sessions, .runs, .free])) (row cid binds))
  ∧ (∀ cid, Confined (eventParts.append (lossParts.append [.tiles, .trans])) (.sessionSnapshot cid))
  ∧ (∀ cid image, Confined (eventParts.append (linkParts.append [.cel, .mem, .sessions, .free])) (.sessionRestore cid image))
  ∧ (∀ cid, Confined [.cmds, .migs] (.sessionRestoreRemote cid))
  ∧ (∀ cid, Confined (eventParts.append (linkParts.append [.mem, .sessions, .migs, .free])) (.sessionMigrate cid))
  ∧ (∀ cid, Confined (linkParts.append [.cel, .cmds, .models, .sessions, .sessionGen, .migs, .free]) (.migrationJoinTimeout cid))
  ∧ (∀ cid image,
      Confined (linkParts.append [.ret, .cel, .cmds, .mem, .models, .sessions, .sessionGen, .migs, .free]) (.migrationImageReceived cid image))
  ∧ (∀ cid, Confined (linkParts.append [.sessions, .migs, .free]) (.migrationReady cid))
  ∧ (∀ cid status, Confined [.cmds, .sessions, .migs, .trans] (.migrationRefusal cid status))
  ∧ (∀ cid, Confined (linkParts.append [.cmds, .sessions, .migs, .free]) (.migrationCommit cid))
  ∧ (∀ cid, Confined (linkParts.append [.cel, .cmds, .models, .sessions, .sessionGen, .migs, .free]) (.migrationDone cid))
  ∧ (∀ cid, Confined [.cmds, .trans] (.migrationDoneTimeout cid))
  ∧ (∀ session, Confined (linkParts.append [.free]) (.migrationCommitResend session))
  ∧ (∀ cid, Confined (linkParts.append [.cel, .cmds, .models, .sessions, .sessionGen, .migs, .free]) (.migrationTargetTimeout cid))
  ∧ (∀ cid source, Confined (eventParts.append [.mem, .bytes]) (.dmaCopy cid source))
  ∧ (∀ cid, Confined [.ret, .cmds, .mem, .bytes] (.memAlloc cid))
  ∧ (∀ cid, Confined [.cmds, .mem, .bytes, .graphs, .graphGen, .kernels, .kernelGen] (.memFree cid))
  ∧ (∀ cid, Confined [.cel, .cmds] (.rolePlan cid))
  ∧ (∀ cid ms found,
      Confined (eventParts.append (lossParts.append (linkParts.append [.pins, .sec, .svc, .th, .free, .stop]))) (.selftestFull cid ms found))
  ∧ (∀ cid eyes, Confined [.engines, .cmds] (.marginTest cid eyes))
  ∧ (∀ cid, Confined [.flt, .cmds] (.faultInject cid))
  ∧ (∀ cid, Confined [.ret, .flashA, .flashB, .log, .cmds] (.logRead cid))
  ∧ (∀ cid image, Confined eventParts (.settingsWrite cid image))
  ∧ (∀ cid, Confined (eventParts.append [.sec]) (.attest cid))
  ∧ (∀ cid, Confined [.ret, .flashA, .flashB, .log, .cmds] (.restart cid))
  ∧ (∀ cid,
      Confined (linkParts.append [.ret, .flashA, .flashB, .log, .cel, .host, .cmds, .models, .sessions, .sessionGen, .migs, .runs, .launches, .free]) (.restartForce cid))
  ∧ (∀ cid, Confined [.pins, .ret, .boot, .flashA, .flashB, .log, .tiles, .engines, .els, .cmds, .mem, .bytes, .runs, .launches] (.shutdown cid))
  ∧ (∀ cid,
      Confined (lossParts.append (linkParts.append [.pins, .ret, .boot, .flashA, .flashB, .log, .els, .host, .cmds, .free])) (.shutdownForce cid))

/-- Frames: what the rows of graphs and of their operations leave as it was,
in every state, whichever path a row takes; memory is compared byte by byte. -/
def Obligations.GraphRowsChangeOnlyTheirParts : Prop :=
  (∀ cid image, Confined [.ret, .cmds, .graphs] (.graphLoad cid image))
  ∧ (∀ cid binds participants,
      Confined (eventParts.append (linkParts.append [.cel, .mem, .bytes, .models, .sessions, .runs, .free])) (.graphRun cid binds participants))
  ∧ (∀ cid, Confined [.cel, .cmds, .models, .sessions, .runs, .trans] (.collectiveJoinTimeout cid))
  ∧ (∀ run op residue, Confined (eventParts.append (lossParts.append [.tiles, .trans, .free])) (.matmul run op residue))
  ∧ (∀ run op residue, Confined (eventParts.append (lossParts.append [.tiles, .trans, .free])) (.batchMatmul run op residue))
  ∧ (∀ run op residue, Confined (eventParts.append (lossParts.append [.tiles, .trans, .free])) (.attention run op residue))
  ∧ (∀ row ∈ [Instr.add, .sub, .mul, .div, .fma, .max, .min, .abs, .neg, .exp, .log, .sqrt, .rsqrt, .tanh, .sigmoid, .gelu, .silu, .clamp, .reduceSum,
      .reduceMax, .reduceMin, .softmax, .layernorm, .rmsnorm, .convert, .transpose, .reshape, .slice, .concat, .gather, .hashPartition, .sort,
      .joinProbe, .stringSimilarity, .filter, .tableGather, .finalise],
      ∀ run op, Confined (eventParts.append (lossParts.append [.tiles, .trans, .free])) (row run op))
  ∧ (∀ row ∈ [Instr.allReduce, .reduceScatter, .allGather],
      ∀ run op parts, Confined (eventParts.append (lossParts.append (linkParts.append [.free]))) (row run op parts))
  ∧ (∀ run op root, Confined (eventParts.append (lossParts.append (linkParts.append [.free]))) (.broadcast run op root))
  ∧ (∀ run op elem record,
      Confined (eventParts.append [.tiles, .cel, .mem, .bytes, .models, .sessions, .runs, .trans]) (.recordMerge run op elem record))

/-- Frames: what the rows of kernels and of their instructions leave as it was,
in every state, whichever path a row takes; the other entries of a list that a row names one of stay. -/
def Obligations.KernelRowsChangeOnlyTheirParts : Prop :=
  (∀ cid image, Confined [.ret, .cmds, .kernels] (.kernelLoad cid image))
  ∧ (∀ cid slots params, Confined [.cel, .cmds, .launches] (.kernelLaunch cid slots params))
  ∧ (∀ cid, Confined [.launches, .free] (.kernelTimeLimit cid))
  ∧ (∀ row ∈ [Instr.kernelNop, .join, .waitCopy, .fence, .sreg],
      ∀ w, Confined [.launches] (row w))
  ∧ (∀ row ∈ [Instr.bra, .memCopy],
      ∀ w, Confined [.launches] (row w))
  ∧ (∀ row ∈ [Instr.exit, .accZero, .bar],
      ∀ w, Confined [.cel, .cmds, .launches] (row w))
  ∧ (∀ w, Confined (eventParts.append [.cel, .launches, .stop]) (.accDeposit w))
  ∧ (∀ w op, Confined [.launches] (.intOp w op))
  ∧ (∀ w op, Confined [.launches] (.fpOp w op))
  ∧ (∀ w src dst, Confined [.launches] (.cvt w src dst))
  ∧ (∀ w, Confined [.mem, .bytes, .launches] (.cvtBlk w))
  ∧ (∀ w, Confined (eventParts.append [.cel, .mem, .models, .sessions, .runs, .launches, .trans]) (.ld w))
  ∧ (∀ w, Confined (eventParts.append [.cel, .mem, .bytes, .models, .sessions, .runs, .launches, .trans]) (.st w))
  ∧ (∀ w copy, Confined (eventParts.append [.cel, .mem, .bytes, .models, .sessions, .runs, .launches, .trans]) (.memCopyDone w copy))
  ∧ (∀ w op, Confined (eventParts.append [.cel, .mem, .bytes, .models, .sessions, .runs, .launches, .trans]) (.atom w op))
  ∧ (∀ w residue, Confined (eventParts.append [.cel, .launches, .free]) (.mma w residue))
  ∧ (∀ w, Confined (eventParts.append [.mem, .bytes, .launches]) (.accStore w))
  ∧ (∀ w, Confined [.mem, .bytes, .launches] (.accExport w))
  ∧ (∀ w, Confined (eventParts.append [.cel, .launches]) (.accMerge w))
  ∧ (∀ s r q io fo c d, q ≠ r → ∀ row ∈ [Instr.kernelNop r, .join r, .intOp r io, .fpOp r fo, .cvt r c d, .waitCopy r, .fence r, .sreg r],
      Answers row s (fun t => (warpAt t q).map (·.2.2.2) = (warpAt s q).map (·.2.2.2)))

/-- Frames: what the rows of start-up, tiles, the Cellarer, GDDR7 and CXL that are no reset of the whole module leave as it was,
in every state, whichever path a row takes; the other entries of a list that a row names one of stay. -/
def Obligations.PanelAndMemoryRowsChangeOnlyTheirParts : Prop :=
  (Confined [.pins] (.perstDeassert))
  ∧ (∀ row ageing, Confined (eventParts.append (linkParts.append [.pins, .boot, .svc, .th, .free])) (.rowRelease row ageing))
  ∧ (∀ site straps, Confined (eventParts.append (lossParts.append (linkParts.append [.pins, .boot, .svc]))) (.tilePositionReport site straps))
  ∧ (∀ at_ failedHere failedThere fckOk flitsOk blockHere blockThere,
      Confined (eventParts.append (lossParts.append (linkParts.append [.pins, .boot, .svc]))) (.laneTest at_ failedHere failedThere fckOk flitsOk blockHere blockThere))
  ∧ (∀ site, Confined [.boot, .tiles] (.cellSetup site))
  ∧ (∀ site failed, Confined (eventParts.append (lossParts.append (linkParts.append [.pins, .boot, .svc]))) (.cellSetupDone site failed))
  ∧ (∀ site failA failB idA idB tempA tempB,
      Confined (eventParts.append (lossParts.append (linkParts.append [.pins, .boot, .svc, .free]))) (.gddr7TrainingDone site failA failB idA idB tempA tempB))
  ∧ (∀ ms, Confined [.pins, .ret, .boot, .cause, .flashA, .flashB, .log, .host] (.moduleReady ms))
  ∧ (∀ site, Confined [.tiles] (.tilePllUnlock site))
  ∧ (∀ at_, Confined (eventParts.append (lossParts.append (linkParts.append [.pins, .svc]))) (.forwardedClockStop at_))
  ∧ (∀ e, Confined (eventParts.append linkParts) (.enginePllUnlock e))
  ∧ (∀ site routerOk, Confined (eventParts.append (lossParts.append (linkParts.append [.pins, .svc]))) (.tileRetire site routerOk))
  ∧ (∀ site, Confined (eventParts.append (lossParts.append (linkParts.append [.pins, .svc]))) (.siteIsolate site))
  ∧ (∀ site copyError, Confined (eventParts.append [.tiles]) (.slotEnd site copyError))
  ∧ (∀ site pass, Confined (eventParts.append (lossParts.append (linkParts.append [.pins, .svc, .stop]))) (.katResult site pass))
  ∧ (∀ site, Confined (eventParts.append (lossParts.append (linkParts.append [.pins, .svc]))) (.tileControllerWatchdog site))
  ∧ (∀ core, Confined (eventParts.append [.cel, .models, .sessions, .runs, .launches, .trans]) (.coreWatchdog core))
  ∧ (∀ loads, Confined (linkParts.append [.cel, .cxl, .free]) (.cellarerPlan loads))
  ∧ (∀ site, Confined [.tiles, .cel] (.drainAbandon site))
  ∧ (∀ site,
      Confined [.pins, .ret, .cause, .flashA, .flashB, .log, .svc, .tiles, .cel, .host, .cmds, .mem, .bytes, .models, .sessions, .runs, .launches, .trans] (.drainEnd site))
  ∧ (∀ unit rowLoads,
      Confined (eventParts.append [.tiles, .cel, .mem, .models, .sessions, .runs, .launches, .trans]) (.workUnitAssign unit rowLoads))
  ∧ (∀ unit, Confined [.cel] (.workUnitComplete unit))
  ∧ (∀ move verified, Confined (eventParts.append (linkParts.append [.cel, .mem, .free])) (.blockMoveSwitch move verified))
  ∧ (∀ move, Confined (linkParts.append [.cel, .free]) (.blockMoveSourceFree move))
  ∧ (∀ model ok, Confined [.cel, .mem, .models] (.stripeReloadDone model ok))
  ∧ (∀ model layerShard, Confined [.mem, .bytes, .models] (.shardPrefetch model layerShard))
  ∧ (∀ site offset by_ cid errors edcFails,
      Confined (eventParts.append (linkParts.append [.pins, .svc, .cel, .mem, .models, .free])) (.gddr7Read site offset by_ cid errors edcFails))
  ∧ (∀ site offset data by_ cid errors edcFails,
      Confined (eventParts.append (linkParts.append [.pins, .svc, .cel, .mem, .bytes, .models, .free])) (.gddr7Write site offset data by_ cid errors edcFails))
  ∧ (∀ site device found,
      Confined (eventParts.append (linkParts.append [.pins, .svc, .cel, .mem, .models, .free])) (.scrubGroup site device found))
  ∧ (∀ site device bank, Confined [.mem] (.gddr7Refresh site device bank))
  ∧ (∀ site tempA tempB, Confined [.tiles, .mem] (.gddr7TempRead site tempA tempB))
  ∧ (∀ site device channel, Confined [.mem] (.recentre site device channel))
  ∧ (∀ site device channel ok,
      Confined (eventParts.append (lossParts.append (linkParts.append [.pins, .svc, .free]))) (.channelRetrainDone site device channel ok))
  ∧ (∀ p, Confined (eventParts.append [.cxl]) (.cxlPresenceDetect p))
  ∧ (∀ row ∈ [Instr.cxlLinkDown, .cxlAttentionLedTimeout],
      ∀ p, Confined [.cxl] (row p))
  ∧ (∀ p rate width capacity,
      Confined (eventParts.append (linkParts.append [.cel, .mem, .bytes, .cxl, .models, .sessions, .runs, .free])) (.cxlLinkUp p rate width capacity))
  ∧ (∀ p, Confined [.mem, .bytes, .cxl] (.cxlDiscoveryDone p))
  ∧ (∀ p cid, Confined (eventParts.append [.cel, .models, .sessions, .runs, .launches, .trans]) (.cxlAccessTimeout p cid))
  ∧ (∀ p, Confined (eventParts.append (lossParts.append [.cxl, .trans])) (.cxlLinkDownTimeout p))
  ∧ (∀ p events, Confined (eventParts.append (linkParts.append [.cel, .mem, .cxl, .models, .free])) (.cxlEventLogPoll p events))
  ∧ (∀ p, Confined (linkParts.append [.cel, .cxl, .free]) (.cxlAttentionButton p))
  ∧ (∀ p, Confined (eventParts.append (linkParts.append [.cel, .mem, .bytes, .cxl, .models, .runs, .launches, .free])) (.cxlEvacuationDone p))
  ∧ (∀ p, Confined (eventParts.append (lossParts.append [.cxl, .trans])) (.cxlSurpriseRemoval p))
  ∧ (∀ p cid poisoned, Confined eventParts (.cxlMemReadResponse p cid poisoned))
  ∧ (∀ s (site : SiteId) n, n ≠ site.val → Answers (.cellSetup site) s (fun t => tileAt t n = tileAt s n))
  ∧ (∀ s (site : SiteId) n, n ≠ site.val → (tileAt s site).retiring = false → Answers (.drainEnd site) s (fun t => tileAt t n = tileAt s n))
  ∧ (∀ s (p : PortId) n, n ≠ p.val → Answers (.cxlPresenceDetect p) s (fun t => cxlAt t n = cxlAt s n))
  ∧ (∀ s (p : PortId) n rate width capacity, n ≠ p.val → Answers (.cxlLinkUp p rate width capacity) s (fun t => cxlAt t n = cxlAt s n))
  ∧ (∀ s (p : PortId) n, n ≠ p.val → Answers (.cxlDiscoveryDone p) s (fun t => cxlAt t n = cxlAt s n))
  ∧ (∀ s (p : PortId) n, n ≠ p.val → Answers (.cxlLinkDown p) s (fun t => cxlAt t n = cxlAt s n))

/-- Frames: what the rows of the rings, of the host link and of the registers leave as it was,
in every state, whichever path a row takes; the other entries of a list that a row names one of stay. -/
def Obligations.HostLinkRowsChangeOnlyTheirParts : Prop :=
  (∀ row ∈ [Instr.ringEnable, .ringDisable, .submissionTailDoorbell, .completionHeadDoorbell],
      ∀ ring value, Confined eventParts (row ring value))
  ∧ (∀ ring desc, Confined eventParts (.descriptorFetch ring desc))
  ∧ (∀ cid, Confined [.host, .cmds] (.fenceRelease cid))
  ∧ (∀ ring, Confined [.host] (.irqCoalesceTimeout ring))
  ∧ (∀ vector, Confined [.host] (.msixUnmask vector))
  ∧ (∀ offset size, Confined (eventParts.append [.mem]) (.bar4Read offset size))
  ∧ (∀ offset data, Confined (eventParts.append [.mem, .bytes]) (.bar4Write offset data))
  ∧ (∀ bar offset size write, Confined eventParts (.barAccessInvalid bar offset size write))
  ∧ (∀ offset size value, Confined (eventParts.append [.boot, .tiles, .hubBundles, .engines, .cxl, .scu]) (.registerWrite offset size value))
  ∧ (Confined [.ret, .flt] (.fltClearRearm))
  ∧ (Confined [.flt] (.fltClearAll))
  ∧ (∀ source, Confined [.flt] (.fltClearOne source))
  ∧ (Confined [.host, .cmds] (.hostMasterResume))
  ∧ (Confined eventParts (.hostLinkDown))
  ∧ (∀ width rate, Confined eventParts (.hostLinkRetrain width rate))
  ∧ (∀ req outcome, Confined (eventParts.append [.cel, .models, .sessions, .runs, .launches, .trans]) (.hostReadCompletion req outcome))
  ∧ (∀ req, Confined (eventParts.append [.cel, .models, .sessions, .runs, .launches, .trans]) (.hostCompletionTimeout req))
  ∧ (∀ change, Confined [.host, .cmds] (.configurationWrite change))
  ∧ (∀ s cid c d, cmdAt s cid = some c → c.done = some d → c.opcode ≠ 0x7E →
      Answers (.commandComplete cid) s (Frame [.cel, .host, .cmds, .sessions, .runs, .launches] s))
  ∧ (∀ s (ring other : RingNo) v, other ≠ ring → Answers (.ringEnable ring v) s (fun t => ringAt t other = ringAt s other))
  ∧ (∀ s (ring other : RingNo) v, other ≠ ring → Answers (.completionHeadDoorbell ring v) s (fun t => ringAt t other = ringAt s other))

/-- Frames: what the rows of the links between modules leave as it was,
in every state, whichever path a row takes; the other entries of a list that a row names one of stay. -/
def Obligations.LinkRowsChangeOnlyTheirParts : Prop :=
  (∀ link slot flit, Confined (eventParts.append linkParts) (.dataFlitReceive link slot flit))
  ∧ (∀ link slot flit, Confined (eventParts.append (lossParts.append (linkParts.append [.pins, .svc]))) (.linkFlitReceive link slot flit))
  ∧ (∀ link slot flit, Confined (eventParts.append [.tiles, .hubBundles, .engines]) (.fillerFlitReceive link slot flit))
  ∧ (∀ link, Confined [.tiles, .hubBundles, .engines] (.linkFlitTimer link))
  ∧ (∀ link age, Confined (eventParts.append (lossParts.append (linkParts.append [.pins, .svc]))) (.replayTimerExpiry link age))
  ∧ (∀ link, Confined [.tiles, .hubBundles, .engines] (.nakResend link))
  ∧ (∀ at_ failed, Confined (eventParts.append (lossParts.append (linkParts.append [.pins, .svc]))) (.inlineCheckDone at_ failed))
  ∧ (∀ at_ moves, Confined [.tiles, .hubBundles, .engines] (.phaseTrack at_ moves))
  ∧ (∀ e, Confined (eventParts.append [.engines, .els, .free]) (.frameTransmit e))
  ∧ (∀ e fibre lambda bits, Confined (eventParts.append (linkParts.append [.pins, .svc, .els, .free])) (.frameReceive e fibre lambda bits))
  ∧ (∀ e slot dir, Confined [.engines] (.pause e slot dir))
  ∧ (∀ e slot dir, Confined [.engines] (.resume e slot dir))
  ∧ (∀ e slot dir fibre lambda effective, Confined [.engines] (.map e slot dir fibre lambda effective))
  ∧ (∀ e rate width dir effective, Confined [.engines] (.rateWidth e rate width dir effective))
  ∧ (∀ e dir, Confined (eventParts.append [.pins, .boot, .svc, .engines, .trans]) (.effectiveFrame e dir))
  ∧ (∀ e dir, Confined (eventParts.append (linkParts.append [.els])) (.liveChangeTimeout e dir))
  ∧ (∀ e ring post action, Confined [.engines] (.ffeReq e ring post action))
  ∧ (∀ e ring pre post limit, Confined [.engines] (.ffeAck e ring pre post limit))
  ∧ (∀ e word, Confined (eventParts.append (linkParts.append [.els])) (.hello e word))
  ∧ (∀ e step status rate passing, Confined (eventParts.append (linkParts.append [.els, .free])) (.train e step status rate passing))
  ∧ (∀ e, Confined [.engines, .els] (.bringupTimeout e))
  ∧ (∀ e, Confined (eventParts.append [.boot, .engines, .els]) (.bringupRetry e))
  ∧ (∀ e heard, Confined (eventParts.append [.engines, .els]) (.portAbsentListen e heard))
  ∧ (∀ e, Confined [.engines] (.idleFreeze e))
  ∧ (∀ e ring, Confined [.engines] (.trainingBlock e ring))
  ∧ (∀ e positions, Confined (eventParts.append linkParts) (.linkErrorBucket e positions))
  ∧ (∀ e, Confined (eventParts.append [.engines, .trans]) (.routeRestore e))
  ∧ (∀ port gridOk toneOk, Confined (eventParts.append (linkParts.append [.pins, .svc, .els])) (.elsPresence port gridOk toneOk))
  ∧ (∀ port failed, Confined (eventParts.append (linkParts.append [.pins, .svc, .els])) (.elsMonitorPoll port failed))
  ∧ (∀ port failed, Confined (eventParts.append (linkParts.append [.pins, .svc, .els])) (.elsInterrupt port failed))
  ∧ (∀ port, Confined (eventParts.append (linkParts.append [.pins, .svc, .els])) (.elsTimeout port))
  ∧ (∀ e r dominant, Confined (eventParts.append (linkParts.append [.pins, .svc])) (.ringIdentityCheck e r dominant))
  ∧ (∀ e r, Confined (eventParts.append [.engines]) (.ringLockLost e r))
  ∧ (∀ e slot, Confined (eventParts.append [.engines]) (.slotErrorBurst e slot))
  ∧ (∀ e r heater dominant tonePresent,
      Confined (eventParts.append (linkParts.append [.pins, .svc])) (.ringLocked e r heater dominant tonePresent))
  ∧ (∀ e r tonePresent, Confined (eventParts.append (linkParts.append [.pins, .svc])) (.relockTimeout e r tonePresent))
  ∧ (∀ e r ok tonePresent heater, Confined (linkParts.append [.ret, .flashA, .flashB, .log, .flt]) (.ringRetry e r ok tonePresent heater))
  ∧ (∀ e, Confined (eventParts.append [.engines, .free]) (.feedForwardUpdate e))
  ∧ (∀ e orders, Confined [.ret, .flashA, .flashB, .log, .engines] (.ringSweep e orders))
  ∧ (∀ e f power, Confined (eventParts.append (linkParts.append [.pins, .svc, .els])) (.laserExcursion e f power))
  ∧ (∀ e f power lost, Confined (eventParts.append (linkParts.append [.pins, .svc])) (.laserLow e f power lost))
  ∧ (∀ e f, Confined [.engines, .els, .free] (.laserRestore e f))
  ∧ (∀ e f, Confined (eventParts.append (linkParts.append [.els])) (.openFibre e f))
  ∧ (∀ e r height width, Confined eventParts (.spareMarginTest e r height width))
  ∧ (∀ at_ wire, Confined (eventParts.append [.tiles, .hubBundles, .engines]) (.wireFillerError at_ wire))
  ∧ (∀ s (e : EngineId) n, n ≠ e.val → Answers (.frameTransmit e) s (fun t => engineAt t n = engineAt s n))
  ∧ (∀ s (e : EngineId) slot dir n, n ≠ e.val → Answers (.resume e slot dir) s (fun t => engineAt t n = engineAt s n))
  ∧ (∀ s (e : EngineId) slot dir f l eff n, n ≠ e.val → Answers (.map e slot dir f l eff) s (fun t => engineAt t n = engineAt s n))
  ∧ (∀ s (e : EngineId) rate width dir eff n, n ≠ e.val → Answers (.rateWidth e rate width dir eff) s (fun t => engineAt t n = engineAt s n))
  ∧ (∀ s (e : EngineId) r post action n, n ≠ e.val → Answers (.ffeReq e r post action) s (fun t => engineAt t n = engineAt s n))
  ∧ (∀ s (e : EngineId) r pre post limit n, n ≠ e.val → Answers (.ffeAck e r pre post limit) s (fun t => engineAt t n = engineAt s n))
  ∧ (∀ s (e : EngineId) n, n ≠ e.val → Answers (.idleFreeze e) s (fun t => engineAt t n = engineAt s n))
  ∧ (∀ s (e : EngineId) r n, n ≠ e.val → Answers (.trainingBlock e r) s (fun t => engineAt t n = engineAt s n))
  ∧ (∀ s (e : EngineId) n, n ≠ e.val → Answers (.bringupTimeout e) s (fun t => engineAt t n = engineAt s n))
  ∧ (∀ s (e : EngineId) orders n, n ≠ e.val → Answers (.ringSweep e orders) s (fun t => engineAt t n = engineAt s n))
  ∧ (∀ s (e : EngineId) f n, n ≠ e.val → Answers (.laserRestore e f) s (fun t => engineAt t n = engineAt s n))

/-- Frames: what the rows of transactions, heat and power, flash, faults, stream checks and the sideband leave as it was,
in every state, whichever path a row takes; the other entries of a list that a row names one of stay. -/
def Obligations.ServiceRowsChangeOnlyTheirParts : Prop :=
  (∀ e message,
      Confined (eventParts.append (linkParts.append [.cel, .mem, .bytes, .models, .sessions, .sessionGen, .migs, .free])) (.transactionRequest e message))
  ∧ (∀ message, Confined (eventParts.append (lossParts.append (linkParts.append [.free]))) (.transactionResponse message))
  ∧ (∀ slot, Confined (linkParts.append [.cel, .cmds, .models, .sessions, .sessionGen, .migs, .runs, .launches, .free]) (.requestTimeout slot))
  ∧ (∀ slot, Confined linkParts (.requestRetry slot))
  ∧ (∀ unit source slot, Confined [.trans] (.cacheEntryExpiry unit source slot))
  ∧ (Confined linkParts (.leaseKeepaliveSend))
  ∧ (∀ source operand, Confined [.trans] (.leaseKeepalive source operand))
  ∧ (∀ source, Confined [.trans] (.leaseExpiry source))
  ∧ (∀ die readings, Confined (eventParts.append (lossParts.append (linkParts.append [.pins, .svc, .th, .stop]))) (.sensorSample die readings))
  ∧ (∀ site, Confined (eventParts.append [.tiles]) (.thermalCeilingUpdate site))
  ∧ (∀ site, Confined [.tiles] (.issueRateStep site))
  ∧ (∀ watts ok, Confined (eventParts.append [.th]) (.powerTelemetrySample watts ok))
  ∧ (∀ meanWatts, Confined (eventParts.append [.th]) (.powerLoop meanWatts))
  ∧ (∀ hottest, Confined [.ret] (.tripSensorPoll hottest))
  ∧ (∀ sensor reading,
      Confined (eventParts.append [.pins, .boot, .tiles, .engines, .els, .mem, .bytes, .runs, .launches]) (.thermalShutdown sensor reading))
  ∧ (Confined eventParts (.flashWritesRefused))
  ∧ (Confined (eventParts.append [.sec]) (.flashWritesAllowed))
  ∧ (∀ die slowdown, Confined (eventParts.append [.pins, .svc, .tiles, .engines, .th]) (.ageingPoint die slowdown))
  ∧ (∀ e r point, Confined [.pins, .ret, .cause, .flashA, .flashB, .log, .svc, .engines, .host, .free] (.opticalPoint e r point))
  ∧ (∀ events,
      Confined (eventParts.append [.cel, .models, .sessions, .sessionGen, .migs, .runs, .launches, .trans, .stop]) (.faultCapture events))
  ∧ (∀ res, Confined (eventParts.append (lossParts.append (linkParts.append [.pins, .svc, .els, .th, .stop]))) (.faultStateRestExpiry res))
  ∧ (Confined [.ret, .flashA, .flashB, .log] (.logRecordTimeout))
  ∧ (∀ flash ok, Confined (eventParts.append [.sec]) (.flashOpDone flash ok))
  ∧ (∀ u value, Confined (eventParts.append [.scu]) (.scuEnable u value))
  ∧ (∀ u, Confined (eventParts.append [.scu]) (.scuDisable u))
  ∧ (∀ u bytes ok overrun, Confined (eventParts.append [.scu]) (.scuRecordClose u bytes ok overrun))
  ∧ (∀ u, Confined [.host, .scu] (.scuResultRead u))
  ∧ (∀ code, Confined [.sb] (.smbusBlockRead code))
  ∧ (∀ code, Confined [.sb] (.i3cPrivateRead code))
  ∧ (Confined [.pins, .sb] (.smbusAlertResponse))
  ∧ (Confined [.sb] (.sidebandRefresh))
  ∧ (Confined [.pins, .ret, .sb] (.standbySupplyLoss))
  ∧ (Confined [.ret, .sb] (.standbySupplyReturn))
  ∧ (∀ s (u : ScuId) v n, n ≠ u.val → Answers (.scuEnable u v) s (fun t => scuAt t n = scuAt s n))
  ∧ (∀ s (u : ScuId) n, n ≠ u.val → Answers (.scuDisable u) s (fun t => scuAt t n = scuAt s n))
  ∧ (∀ s (u : ScuId) bytes ok overrun n, n ≠ u.val → Answers (.scuRecordClose u bytes ok overrun) s (fun t => scuAt t n = scuAt s n))
  ∧ (∀ s (u : ScuId) n, n ≠ u.val → Answers (.scuResultRead u) s (fun t => scuAt t n = scuAt s n))
  ∧ (∀ s (site : SiteId) n, n ≠ site.val → Answers (.issueRateStep site) s (fun t => tileAt t n = tileAt s n))
  ∧ (∀ s (site : SiteId) n, n ≠ site.val → Answers (.thermalCeilingUpdate site) s (fun t => tileAt t n = tileAt s n))

/-- Memory: a row that stores writes only the bytes it names, on every one of its paths; the pieces are those that the meanings of the rows compute. -/
def Obligations.StoresStayInTheirPieces : Prop :=
  (∀ s cid c l, Acts s cid 0x41 c → allocExtents s (roundUp (c.arg 8 8) 65536) (c.arg 0x10 1) = some l → StoresIn l (.memAlloc cid) s)
  ∧ (∀ s cid c x, Acts s cid 0x42 c → memHandle s (c.arg 8 8) = some x → StoresIn x.extents (.memFree cid) s)
  ∧ (∀ s cid source c, actable s cid 0x40 = some c →
      StoresIn (if c.arg 9 1 = 0 then [] else
        dmaPieces (s.startCmd cid) (c.arg 0x20 8) (c.arg 0x28 8) (dmaBytes (c.arg 0xA 1 == c.arg 0xB 1) (c.arg 0xB 1) (c.arg 0x30 8)))
        (.dmaCopy cid source) s)
  ∧ (∀ s cid source, actable s cid 0x40 = none → StoresIn [] (.dmaCopy cid source) s)
  ∧ (∀ s off data, Answers (.bar4Write off data) s (fun t => ∀ a, (∀ k < data.length, bar4Addr s (off + k) ≠ some a) →
      Outside (bar4Pieces s off data.length) a → readByte t.mem.cells a = readByte s.mem.cells a))
  ∧ (∀ s (site : SiteId) off data by_ cid errors edc,
      StoresIn ((granulesOf off data.length).map (fun x => ⟨siteBase site + x, 64⟩)) (.gddr7Write site off data by_ cid errors edc) s)
  ∧ (∀ s (site : SiteId) off data by_ cid errors edc, (∀ k, seenErrors s site (errors.getD k []) = [] ∨ eccOutcome (seenErrors s site (errors.getD k [])) ≠ .clean) →
      StoresIn [⟨siteBase site + off, data.length⟩] (.gddr7Write site off data by_ cid errors edc) s)
  ∧ (∀ s (model : Fin 64) k x, (modelAt s model).shards.find? (fun x => x.index == k && x.spilled && !x.lost && x.atPeer.isNone) = some x →
      StoresIn (stagingPieces (modelAt s model) (stagingHalf (modelAt s model)) x.data.length) (.shardPrefetch model k) s)
  ∧ (∀ s (e : EngineId) m, StoresIn [⟨msgOperand m % 2 ^ 48, m.length - 24⟩] (.transactionRequest e m) s)
  ∧ (∀ s r x, warpCtx s r = some x → StoresIn (if kSpace x.word = 0 ∨ kSpace x.word = 1 then [] else
      x.lanes.flatMap (fun k => slotPieces s x (kSlot x.word) ((x.w.thread k).addr x.word) (kSize x.word))) (.st r) s)
  ∧ (∀ s r op x, warpCtx s r = some x → StoresIn (if kSpace x.word = 1 then [] else
      x.lanes.flatMap (fun k => slotPieces s x (kSlot x.word) ((x.w.thread k).addr x.word) (kSize x.word))) (.atom r op) s)
  ∧ (∀ s r copy l c g y q, warpAt s r = some (l, c, g, y) → y.copies[copy]? = some q →
      StoresIn (if q.toStore then [] else
        slotPieces s { ref := r, l := l, c := c, g := g, w := y, op := .nop, word := 0 } q.slot q.offset q.len) (.memCopyDone r copy) s)
  ∧ (∀ s r x, warpCtx s r = some x → bits 15 14 x.word ≤ 1 → StoresIn [] (.accExport r) s)
  ∧ (∀ s r, StoresIn [] (.accStore r) s ∧ StoresIn [] (.cvtBlk r) s ∧ StoresIn [] (.ld r) s)
  ∧ (∀ s cid c x h, cmdAt s cid = some c → sessionHandle s (c.arg 8 8) = some x → memHandle s (c.arg 0x18 8) = some h →
      StoresIn (pieces h.extents (c.arg 0x20 8) (sessionBytes (blocksHeld s x.index))) (.sessionSnapshot cid) s)
  ∧ (∀ s run op r, runOf s run = some r → ∀ row ∈ [Instr.add, .sub, .mul, .div, .fma, .max, .min, .abs, .neg, .exp, .log, .sqrt, .rsqrt, .tanh,
      .sigmoid, .gelu, .silu, .clamp, .reduceSum, .reduceMax, .reduceMin, .softmax, .layernorm, .rmsnorm, .convert, .transpose, .reshape, .slice,
      .concat, .gather, .hashPartition, .sort, .joinProbe, .stringSimilarity, .filter, .tableGather, .finalise],
      Answers (row run op) s (fun t => ∀ a, (∀ b ∈ r.bound, ∀ h ∈ s.mem.handles, h.index = b.2 → Outside h.extents a) →
        Outside (localFree s ++ cxlFree s) a → readByte t.mem.cells a = readByte s.mem.cells a))
  ∧ (∀ s run op residue r, runOf s run = some r → ∀ row ∈ [Instr.matmul, .batchMatmul, .attention],
      Answers (row run op residue) s (fun t => ∀ a, (∀ b ∈ r.bound, ∀ h ∈ s.mem.handles, h.index = b.2 → Outside h.extents a) →
        Outside (localFree s ++ cxlFree s) a → readByte t.mem.cells a = readByte s.mem.cells a))
  ∧ (∀ s run op r, runOf s run = some r → ∀ row ∈ [Instr.allReduce, .reduceScatter, .allGather], ∀ parts,
      Answers (row run op parts) s (fun t => ∀ a, (∀ b ∈ r.bound, ∀ h ∈ s.mem.handles, h.index = b.2 → Outside h.extents a) →
        Outside (localFree s ++ cxlFree s) a → readByte t.mem.cells a = readByte s.mem.cells a))
  ∧ (∀ s run op root r, runOf s run = some r →
      Answers (.broadcast run op root) s (fun t => ∀ a, (∀ b ∈ r.bound, ∀ h ∈ s.mem.handles, h.index = b.2 → Outside h.extents a) →
        Outside (localFree s ++ cxlFree s) a → readByte t.mem.cells a = readByte s.mem.cells a))
  ∧ (∀ s run op elem record r, runOf s run = some r →
      Answers (.recordMerge run op elem record) s (fun t => ∀ a, (∀ b ∈ r.bound, ∀ h ∈ s.mem.handles, h.index = b.2 → Outside h.extents a) →
        readByte t.mem.cells a = readByte s.mem.cells a))
  ∧ (∀ s cid binds participants, StoresIn (s.mem.handles.flatMap (·.extents)) (.graphRun cid binds participants) s)
  ∧ (∀ s (site : SiteId), (∀ r ∈ s.runs, ∀ p ∈ r.temps, p.store ≠ some site.val) → StoresIn [] (.drainEnd site) s)
  ∧ (∀ row ∈ [Instr.prefill, .prefillRebuild, .decode], ∀ s cid binds, StoresIn (s.mem.handles.flatMap (·.extents)) (row cid binds) s)

/-- The command table: a command that reports nothing to the fault collector changes no entry but its own. -/
def Obligations.CommandsKeepOtherEntries : Prop :=
  (∀ row ∈ [Instr.nop, .identify, .getStatus, .setFeatureBar4Aperture, .setFeaturePowerCap, .setFeatureThrottleStart, .getFeature, .modelUnload,
      .modelEpochCommit, .modelQuery, .sessionOpen, .memAlloc, .memFree, .rolePlan, .placementQuery, .selftestSummary, .faultInject, .logRead,
      .settingsRead],
    ∀ s cid k, k ≠ cid → Answers (row cid) s (fun t => cmdAt t k = cmdAt s k))
  ∧ (∀ row ∈ [Instr.graphLoad, .kernelLoad], ∀ s cid image k, k ≠ cid → Answers (row cid image) s (fun t => cmdAt t k = cmdAt s k))
  ∧ (∀ row ∈ [Instr.modelLoad, .modelLoadStage], ∀ s cid m w k, k ≠ cid → Answers (row cid m w) s (fun t => cmdAt t k = cmdAt s k))
  ∧ (∀ s cid eyes k, k ≠ cid → Answers (.marginTest cid eyes) s (fun t => cmdAt t k = cmdAt s k))

/-- R516: the settings image in force stays through every command but those that take the module's power or clock away or start it as after a cold
reset; a warm reset, a function-level reset and RESTART keep it, and no write of a flash changes it. -/
def Obligations.SettingsInForceStay : Prop :=
  ∀ c s t, exec c s = .next t → ¬ coldRow c → t.settings = s.settings ∧ t.boardOk = s.boardOk

/-- R553: the stream check units over resets. -/
def Obligations.ResetsOfStreamCheckUnits : Prop :=
  (∀ s katOk idA idB, Answers (.coldReset katOk idA idB) s (fun t => t.scu = State.reset.scu))
  ∧ (∀ s, s.pins.pwrgd = true → s.pins.perst = false → s.boot.everReset = true → discarded s .warm = false →
      Answers .warmReset s (fun t => t.scu = State.reset.scu))
  ∧ (∀ s, configReach s = true → discarded s .module = false → Answers .functionLevelReset s (fun t => t.scu = State.reset.scu))
  ∧ (∀ s cid c d, cmdAt s cid = some c → c.done = some d → c.opcode = 0x7E → d.status = .ok →
      (s.host.forcing = some cid → s.host.cmds.length = 1) → Answers (.commandComplete cid) s (fun t => t.scu = State.reset.scu))
  ∧ (∀ u < 16, (State.reset.scu.getD u Scu.reset).enable = false ∧ State.reset.scu.getD u Scu.reset = Scu.reset)
  ∧ (∀ s (site : SiteId), Answers (.tilePllUnlock site) s (fun t => t.scu = s.scu) ∧ Answers (.tileControllerWatchdog site) s (fun t => t.scu = s.scu))
  ∧ (∀ s at_, Answers (.forwardedClockStop at_) s (fun t => t.scu = s.scu))
  ∧ (∀ s (e : EngineId), Answers (.enginePllUnlock e) s (fun t => t.scu = s.scu))

/-- R509: injected events and fault states. -/
def Obligations.InjectedEventsAndFaultStates : Prop :=
  (∀ (f : Faults) isFirst (ev : FaultEvent), ((f.enter isFirst { ev with injected := true }).open_.map (fun (x : FaultState) => { x with injectedOnly := false }))
      = (f.enter isFirst { ev with injected := false }).open_.map (fun (x : FaultState) => { x with injectedOnly := false }))
  ∧ (∀ s res st, openState s.flt (resourceKey res) = some st → unrested s (resourceKey res) = false → st.injectedOnly = true →
      Answers (.faultStateRestExpiry res) s (fun t => openState t.flt (resourceKey res) = none ∧ t.log.held = s.log.held ∧ t.ret.openRec = s.ret.openRec))
  ∧ (∀ s : State, (∀ st ∈ s.ret.faultList, st.injectedOnly = true) → s.endStates.log = s.log)
  ∧ (∀ (f : Faults) isFirst (ev : FaultEvent) res st, eventOpens ev = some res → openState f res = some st → ev.injected = false →
      (openState (f.enter isFirst ev) res).map (·.injectedOnly) = some false)
  ∧ (∀ s res st, openState s.flt (resourceKey res) = some st → unrested s (resourceKey res) = false → st.injectedOnly = false →
      Answers (.faultStateRestExpiry res) s (fun t =>
        Mirror.recovery { res := st.res, times := (s.ret.opTime :: recordedTimes s st.res).take 8 } ∈ t.log.held))

/-- R108: merging two records: the larger top, bins of the window added, flags ORed, counts added, residues of the merged bins; merging is commutative
and associative. -/
def Obligations.MergingOfRecords : Prop :=
  (∀ a b : Acc, a.formed → b.formed →
    (a.merge b).top = (match a.top, b.top with | none, t => t | t, none => t | some s, some t => some (Nat.max s t))
    ∧ (∀ t j, (a.merge b).top = some t → j ≤ t → t ≤ j + 3 → (a.merge b).bin j = a.bin j + b.bin j)
    ∧ (a.merge b).nan = (a.nan || b.nan) ∧ (a.merge b).posInf = (a.posInf || b.posInf) ∧ (a.merge b).negInf = (a.negInf || b.negInf)
    ∧ (a.merge b).count = a.count + b.count ∧ (a.merge b).formed)
  ∧ (∀ a b : Acc, a.formed → b.formed → a.merge b = b.merge a)
  ∧ (∀ a b c : Acc, a.formed → b.formed → c.formed → (a.merge b).merge c = a.merge (b.merge c))

/-- R103: whatever the order of the contributions, the accumulator is the same. -/
def Obligations.ContributionsInAnyOrder : Prop :=
  ∀ l k : List Machine.Num, l.Perm k → l.foldl (fun a x => a.add x) Acc.empty = k.foldl (fun a x => a.add x) Acc.empty

/-- R107, R109: an accumulator and its record: 48 bytes that pass the checks of a receiver and spell the accumulator again. -/
def Obligations.RecordsRoundTrip : Prop :=
  ∀ a : Acc, a.fits → a.bytes.length = 48 ∧ recordOk a.bytes = true ∧ accOf a.bytes = a

/-- R413, R414, R432: what the sender does to the bits of a frame the receiver undoes: scrambling from the same generator state, and stuffing; no 16 bits of
the line in a row are equal. On a panel bundle every bit of the flits of a frame is on a live wire in some unit interval. -/
def Obligations.LineCodingIsUndone : Prop :=
  (∀ r l, scramble r (scramble r l) = l)
  ∧ (∀ l : List Bool, unstuff (l.foldl (fun c b => c.put b) LineCode.start).sent.reverse true 1 = l)
  ∧ (∀ (l : List Bool) b k, ¬ List.replicate 16 b <:+: (true :: (l.foldl (fun c b => c.put b) LineCode.start).sent.reverse).take k)
  ∧ (∀ f t d, t < 16 → d < 64 → dataBit none [f] t d = some (flitBit f (64 * t + d)))
  ∧ (∀ g < 4, ∀ f0 f1 f2 b, b < 3072 → ∃ t < 64, ∃ d < 64, d / 16 ≠ g
      ∧ dataBit (some g) [f0, f1, f2] t d = some (flitBit ([f0, f1, f2].getD (b / 1024) []) (b % 1024)))
end

