-- ==== Sys2Proof/Laws/Memory.lean ====
section
/-! SUPPORT. Lists with an element replaced, and the byte store: every operation keeps its canonical form, a byte reads as it was written last. -/

set_option Elab.async false
namespace Sys2Proof.Machine

@[simp] theorem modAt_length {α : Type} (l : List α) (n : Nat) (f : α → α) : (modAt l n f).length = l.length := by
  induction l generalizing n with
  | nil => rfl
  | cons x t ih => cases n <;> simp [modAt, ih]

@[simp] theorem setAt_length {α : Type} (l : List α) (n : Nat) (v : α) : (setAt l n v).length = l.length := modAt_length _ _ _

theorem ByteMap.above_mono {m : ByteMap} {lo hi : Nat} (h : lo ≤ hi) (k : ByteMap.above hi m = true) : ByteMap.above lo m = true := by
  cases m with
  | nil => rfl
  | cons c t =>
    obtain ⟨a, v⟩ := c
    simp only [ByteMap.above, Bool.and_eq_true, decide_eq_true_eq] at k ⊢
    exact ⟨⟨h.trans k.1.1, k.1.2⟩, k.2⟩

theorem above_cons {a lo : Nat} {v : Byte} {t : ByteMap} (h : lo ≤ a) (hv : ¬v = 0) (k : ByteMap.above (a + 1) t = true) :
    ByteMap.above lo ((a, v) :: t) = true := by
  simp only [ByteMap.above, Bool.and_eq_true, decide_eq_true_eq, bne_iff_ne, ne_eq]
  exact ⟨⟨h, hv⟩, k⟩

theorem above_uncons {a lo : Nat} {v : Byte} {t : ByteMap} (h : ByteMap.above lo ((a, v) :: t) = true) :
    lo ≤ a ∧ ¬v = 0 ∧ ByteMap.above (a + 1) t = true := by
  simp only [ByteMap.above, Bool.and_eq_true, decide_eq_true_eq, bne_iff_ne, ne_eq] at h
  exact ⟨h.1.1, h.1.2, h.2⟩

theorem writeByte_above {m : ByteMap} {lo x : Nat} (v : Byte) (h : ByteMap.above lo m = true) (hx : lo ≤ x) :
    ByteMap.above lo (writeByte m x v) = true := by
  induction m generalizing lo with
  | nil =>
    simp only [writeByte]
    split
    · rfl
    · rename_i hv; exact above_cons hx hv rfl
  | cons c t ih =>
    obtain ⟨a, w⟩ := c
    obtain ⟨ha, hw, ht⟩ := above_uncons h
    simp only [writeByte]
    split
    · split
      · exact above_cons ha hw ht
      · rename_i hlt hv; exact above_cons hx hv (above_cons (by omega) hw ht)
    · split
      · split
        · exact ByteMap.above_mono (by omega) ht
        · rename_i hv; exact above_cons ha hv ht
      · exact above_cons ha hw (ih ht (by omega))

/-- A write keeps the canonical form. -/
theorem writeByte_wf {m : ByteMap} (x : Nat) (v : Byte) (h : Memory.wf m = true) : Memory.wf (writeByte m x v) = true :=
  writeByte_above v h (Nat.zero_le x)

theorem writeBytes_wf {m : ByteMap} (x : Nat) (l : List Byte) (h : Memory.wf m = true) : Memory.wf (writeBytes m x l) = true := by
  induction l generalizing m x with
  | nil => exact h
  | cons b t ih => exact ih _ (writeByte_wf x b h)

theorem above_filter {m : ByteMap} {lo : Nat} (p : Host.Cell → Bool) (h : ByteMap.above lo m = true) :
    ByteMap.above lo (m.filter p) = true := by
  induction m generalizing lo with
  | nil => exact h
  | cons c t ih =>
    obtain ⟨a, v⟩ := c
    simp only [ByteMap.above, Bool.and_eq_true, decide_eq_true_eq] at h
    rw [List.filter_cons]
    split
    · simp only [ByteMap.above, Bool.and_eq_true, decide_eq_true_eq]
      exact ⟨h.1, ih h.2⟩
    · exact ByteMap.above_mono (by omega) (ih h.2)

/-- Leaving entries out keeps the canonical form. -/
theorem filter_wf {m : ByteMap} (p : Host.Cell → Bool) (h : Memory.wf m = true) : Memory.wf (m.filter p) = true := above_filter p h

theorem writePieces_wf {m : ByteMap} (l : List Extent) (v : List Byte) (h : Memory.wf m = true) : Memory.wf (writePieces m l v) = true := by
  induction l generalizing m v with
  | nil => exact h
  | cons e t ih => exact ih _ (writeBytes_wf _ _ h)

theorem clearRange_wf {m : ByteMap} (a n : Nat) (h : Memory.wf m = true) : Memory.wf (clearRange m a n) = true := filter_wf _ h

theorem clearPieces_wf {m : ByteMap} (l : List Extent) (h : Memory.wf m = true) : Memory.wf (clearPieces m l) = true := by
  unfold clearPieces
  induction l generalizing m with
  | nil => exact h
  | cons e t ih => exact ih (clearRange_wf _ _ h)

/-- In a store whose entries all lie above x, x reads as zero. -/
theorem readByte_below {m : ByteMap} {lo x : Nat} (h : ByteMap.above lo m = true) (hx : x < lo) : readByte m x = 0 := by
  induction m generalizing lo with
  | nil => rfl
  | cons c t ih =>
    obtain ⟨a, v⟩ := c
    simp only [ByteMap.above, Bool.and_eq_true, decide_eq_true_eq] at h
    have hne : a ≠ x := by omega
    simp only [readByte, hne, if_false]
    exact ih h.2 (by omega)

/-- A byte reads as it was written. -/
theorem readByte_writeByte_same {m : ByteMap} {lo x : Nat} (v : Byte) (h : ByteMap.above lo m = true) : readByte (writeByte m x v) x = v := by
  induction m generalizing lo with
  | nil => simp only [writeByte]; split <;> simp_all [readByte]
  | cons c t ih =>
    obtain ⟨a, w⟩ := c
    simp only [ByteMap.above, Bool.and_eq_true, decide_eq_true_eq] at h
    simp only [writeByte]
    split
    · rename_i hlt
      split
      · rename_i hv
        have hne : a ≠ x := by omega
        simp only [readByte, hne, if_false]
        rw [readByte_below h.2 (by omega), hv]
      · simp [readByte]
    · split
      · rename_i he
        split
        · rename_i hv; rw [readByte_below h.2 (by omega), hv]
        · simp [readByte, he]
      · rename_i hne
        have : a ≠ x := fun e => hne e.symm
        simp only [readByte, this, if_false]
        exact ih h.2

/-- A write leaves every other byte as it was. -/
theorem readByte_writeByte_other {m : ByteMap} {x y : Nat} (v : Byte) (hne : y ≠ x) : readByte (writeByte m x v) y = readByte m y := by
  induction m with
  | nil => simp only [writeByte]; split <;> simp [readByte, hne.symm]
  | cons c t ih =>
    obtain ⟨a, w⟩ := c
    simp only [writeByte]
    split
    · split
      · rfl
      · simp [readByte, hne.symm]
    · split
      · rename_i he
        subst he
        split <;> simp [readByte, hne.symm]
      · simp only [readByte]
        split
        · rfl
        · exact ih

theorem readByte_writeBytes_other {m : ByteMap} {a y : Nat} (l : List Byte) (h : y < a ∨ a + l.length ≤ y) :
    readByte (writeBytes m a l) y = readByte m y := by
  induction l generalizing m a with
  | nil => rfl
  | cons b t ih =>
    simp only [List.length_cons] at h
    simp only [writeBytes]
    rw [ih (by omega), readByte_writeByte_other b (by omega)]

theorem readByte_filter {m : ByteMap} {p : Host.Cell → Bool} {y : Nat} (h : ∀ v, p (y, v) = true) :
    readByte (m.filter p) y = readByte m y := by
  induction m with
  | nil => rfl
  | cons c t ih =>
    obtain ⟨a, v⟩ := c
    rw [List.filter_cons]
    by_cases he : a = y
    · subst he; rw [if_pos (h v)]; simp [readByte]
    · split
      · simp [readByte, he, ih]
      · simp [readByte, he, ih]

theorem readByte_clearRange_other {m : ByteMap} {a n y : Nat} (h : y < a ∨ a + n ≤ y) : readByte (clearRange m a n) y = readByte m y := by
  apply readByte_filter
  intro v
  simp only [Bool.not_eq_eq_eq_not, Bool.not_true, Bool.and_eq_false_iff, decide_eq_false_iff_not]
  omega

end Sys2Proof.Machine
end

