-- ==== Sys2Proof/Laws/Frame.lean ====
section
/-! SUPPORT. How frames are composed: identity, sequence, folds, and one rule for an update of the state record. -/

set_option Elab.async false
namespace Sys2Proof
open Machine

theorem Part.same_refl (p : Part) (s : State) : p.same s s := by cases p <;> first | rfl | exact trivial | exact fun _ => rfl

theorem Part.same_trans {p : Part} {s t u : State} (h : p.same s t) (k : p.same t u) : p.same s u := by
  cases p <;> first | exact Eq.trans k h | exact trivial | exact fun a => (k a).trans (h a)

theorem Frame.refl (ps : List Part) (s : State) : Frame ps s s :=
  ⟨id, id, fun p _ _ => p.same_refl s, fun p _ _ => p.same_refl s, id⟩

theorem Frame.mono {ps qs : List Part} {s t : State} (h : Frame ps s t) (sub : ∀ p ∈ ps, p ∈ qs) : Frame qs s t :=
  ⟨h.stopped, h.down, fun p hp e => h.kept p (fun x => hp (sub p x)) (fun x => e (sub _ x)), fun p hp => h.stop p (fun x => hp (sub p x)), h.inv⟩

theorem Frame.running {ps : List Part} {s t : State} (h : Frame ps s t) (k : t.halted = false) : s.halted = false := by
  cases e : s.halted
  · rfl
  · simp only [State.halted, Bool.and_eq_true] at e
    simp [State.halted, h.stopped e.1, h.down e.2] at k

/-- A frame without `stop` keeps every part it does not list. -/
theorem Frame.exact {ps : List Part} {s t : State} (h : Frame ps s t) (hs : Part.stop ∉ ps) {p : Part} (hp : p ∉ ps) : p.same s t :=
  h.kept p hp (fun x => absurd x hs)

theorem Frame.trans {ps : List Part} {s t u : State} (h : Frame ps s t) (k : Frame ps t u) : Frame ps s u :=
  ⟨fun e => k.stopped (h.stopped e), fun e => k.down (h.down e),
   fun p hp e => Part.same_trans (h.kept p hp (fun x => k.running (e x))) (k.kept p hp e),
   fun p hp hq => Part.same_trans (h.stop p hp hq) (k.stop p hp hq), fun i => k.inv (h.inv i)⟩

/-- What a reset keeps of the queue and the form of the state. -/
structure Keeps (s t : State) : Prop where
  pending : t.pending = s.pending
  inv : Inv s → Inv t

theorem Keeps.refl (s : State) : Keeps s s := ⟨rfl, id⟩

theorem Keeps.trans {s t u : State} (h : Keeps s t) (k : Keeps t u) : Keeps s u := ⟨k.pending.trans h.pending, fun i => k.inv (h.inv i)⟩

theorem Frame.keeps {ps : List Part} {s t : State} (h : Frame ps s t) (hp : Part.pending ∉ ps) : Keeps s t :=
  ⟨h.stop .pending hp (by decide), h.inv⟩

/-- A step of an operation that changes fewer parts. -/
theorem Frame.step {ps qs : List Part} {s t u : State} (h : Frame ps s t) (k : Frame qs t u) (sub : ∀ p ∈ qs, p ∈ ps) : Frame ps s u :=
  h.trans (k.mono sub)

theorem Frame.after {ps qs : List Part} {s t u : State} (k : Frame qs t u) (sub : ∀ p ∈ qs, p ∈ ps) (h : Frame ps s t) : Frame ps s u :=
  h.step k sub

theorem Frame.ite {c : Prop} [Decidable c] {ps : List Part} {s t u : State} (h : c → Frame ps s t) (k : ¬c → Frame ps s u) :
    Frame ps s (if c then t else u) := by split <;> rename_i x <;> [exact h x; exact k x]

theorem Frame.foldl {α : Type} {ps : List Part} {s : State} {g : State → α → State} (k : ∀ u x, Frame ps s u → Frame ps s (g u x))
    (l : List α) {t : State} (h : Frame ps s t) : Frame ps s (l.foldl g t) := by
  induction l generalizing t with
  | nil => exact h
  | cons x l ih => exact ih (k t x h)

theorem Frame.foldl_bind {α : Type} {ps : List Part} {f : α → State → Option State} (k : ∀ x u v, f x u = some v → Frame ps u v)
    {l : List α} {s t : State} (h : l.foldl (fun acc x => acc.bind (f x)) (some s) = some t) : Frame ps s t := by
  have gen : ∀ (l : List α) (acc : Option State), (∀ u, acc = some u → Frame ps s u) →
      ∀ t, l.foldl (fun acc x => acc.bind (f x)) acc = some t → Frame ps s t := by
    intro l
    induction l with
    | nil => exact fun acc h t e => h t e
    | cons x l ih =>
      intro acc h t e
      refine ih _ ?_ t e
      intro u hu
      obtain ⟨v, hv, hx⟩ := Option.bind_eq_some_iff.mp hu
      exact (h v hv).trans (k x v u hx)
  exact gen l (some s) (fun u e => by cases e; exact Frame.refl _ _) t h

theorem Frame.foldl_fst {α β : Type} {ps : List Part} {s : State} {g : State × β → α → State × β}
    (k : ∀ u x, Frame ps s u.1 → Frame ps s (g u x).1) (l : List α) {t : State × β} (h : Frame ps s t.1) :
    Frame ps s (l.foldl g t).1 := by
  induction l generalizing t with
  | nil => exact h
  | cons x l ih => exact ih (k t x h)

/-- An update of the state record: each field is as before or is among the listed parts; the sized lists keep their length. -/
theorem Frame.upd {ps : List Part} {s t : State} (h : Frame ps s t)
    {x0 : List Instr} {x1 : Pins} {x2 : Retained} {x3 : Boot} {x4 : Option Settings} {x5 : Bool} {x6 : Flash} {x7 : Flash} {x8 : LogState} {x9 : Security} {x10 : Faults} {x11 : List ServiceReq} {x12 : List Tile} {x13 : List BundleDir} {x14 : List Engine} {x15 : List Els} {x16 : Thermal} {x17 : Cellarer} {x18 : HostLink} {x19 : MemSys} {x20 : List CxlPort} {x21 : List Model} {x22 : List Session} {x23 : List (Nat × Nat)} {x24 : List Migration} {x25 : List (Nat × Nat × Graph)} {x26 : List (Nat × Nat)} {x27 : List (Nat × Nat × Kernel)} {x28 : List (Nat × Nat)} {x29 : List Run} {x30 : List Launch} {x31 : Trans} {x32 : List Scu} {x33 : Sideband} {x34 : Nat}
    (hpending : Part.pending ∈ ps ∨ x0 = t.pending := by first | exact .inl (by decide) | exact .inr rfl)
    (hpins : Part.pins ∈ ps ∨ x1 = t.pins := by first | exact .inl (by decide) | exact .inr rfl)
    (hret : Part.ret ∈ ps ∨ x2 = t.ret := by first | exact .inl (by decide) | exact .inr rfl)
    (hboot : Part.boot ∈ ps ∨ ({ x3 with cause := 0 } : Boot) = { t.boot with cause := 0 } := by first | exact .inl (by decide) | exact .inr rfl)
    (hcause : Part.cause ∈ ps ∨ x3.cause = t.boot.cause := by first | exact .inl (by decide) | exact .inr rfl)
    (wstop : t.boot.stopped = true → x3.stopped = true := by first | exact id | exact fun _ => rfl)
    (wdown : t.boot.down = true → x3.down = true := by first | exact id | exact fun _ => rfl)
    (wready : (t.boot.down = true → t.boot.ready = false) → x3.down = true → x3.ready = false := by
      first | exact id | exact fun _ _ => rfl)
    (hsettings : Part.settings ∈ ps ∨ x4 = t.settings := by first | exact .inl (by decide) | exact .inr rfl)
    (hboardOk : Part.boardOk ∈ ps ∨ x5 = t.boardOk := by first | exact .inl (by decide) | exact .inr rfl)
    (hflashA : Part.flashA ∈ ps ∨ x6 = t.flashA := by first | exact .inl (by decide) | exact .inr rfl)
    (hflashB : Part.flashB ∈ ps ∨ x7 = t.flashB := by first | exact .inl (by decide) | exact .inr rfl)
    (hlog : Part.log ∈ ps ∨ x8 = t.log := by first | exact .inl (by decide) | exact .inr rfl)
    (hsec : Part.sec ∈ ps ∨ x9 = t.sec := by first | exact .inl (by decide) | exact .inr rfl)
    (hflt : Part.flt ∈ ps ∨ x10 = t.flt := by first | exact .inl (by decide) | exact .inr rfl)
    (hsvc : Part.svc ∈ ps ∨ x11 = t.svc := by first | exact .inl (by decide) | exact .inr rfl)
    (htiles : Part.tiles ∈ ps ∨ x12 = t.tiles := by first | exact .inl (by decide) | exact .inr rfl)
    (wtiles : t.tiles.length = 64 → x12.length = 64 := by first | (with_reducible exact id) | (intro h; simp [h]) | simp)
    (hhubBundles : Part.hubBundles ∈ ps ∨ x13 = t.hubBundles := by first | exact .inl (by decide) | exact .inr rfl)
    (whubBundles : t.hubBundles.length = 16 → x13.length = 16 := by first | (with_reducible exact id) | (intro h; simp [h]) | simp)
    (hengines : Part.engines ∈ ps ∨ x14 = t.engines := by first | exact .inl (by decide) | exact .inr rfl)
    (wengines : t.engines.length = 24 → x14.length = 24 := by first | (with_reducible exact id) | (intro h; simp [h]) | simp)
    (hels : Part.els ∈ ps ∨ x15 = t.els := by first | exact .inl (by decide) | exact .inr rfl)
    (wels : t.els.length = 6 → x15.length = 6 := by first | (with_reducible exact id) | (intro h; simp [h]) | simp)
    (hth : Part.th ∈ ps ∨ x16 = t.th := by first | exact .inl (by decide) | exact .inr rfl)
    (hcel : Part.cel ∈ ps ∨ x17 = t.cel := by first | exact .inl (by decide) | exact .inr rfl)
    (hhost : Part.host ∈ ps ∨ ({ x18 with cmds := [] } : HostLink) = { t.host with cmds := [] } := by first | exact .inl (by decide) | exact .inr rfl)
    (hcmds : Part.cmds ∈ ps ∨ x18.cmds = t.host.cmds := by first | exact .inl (by decide) | exact .inr rfl)
    (hmem : Part.mem ∈ ps ∨ ({ x19 with cells := [] } : MemSys) = { t.mem with cells := [] } := by first | exact .inl (by decide) | exact .inr rfl)
    (hbytes : Part.bytes ∈ ps ∨ x19.cells = t.mem.cells := by first | exact .inl (by decide) | exact .inr rfl)
    (wmem : Memory.wf t.mem.cells = true → Memory.wf x19.cells = true := by
      first
        | (with_reducible exact id)
        | assumption
        | exact filter_wf _
        | exact clearRange_wf _ _
        | exact clearPieces_wf _
        | exact writeBytes_wf _ _
        | exact writePieces_wf _ _
        | exact (fun h => writePieces_wf _ _ (clearPieces_wf _ h)))
    (hcxl : Part.cxl ∈ ps ∨ x20 = t.cxl := by first | exact .inl (by decide) | exact .inr rfl)
    (wcxl : t.cxl.length = 4 → x20.length = 4 := by first | (with_reducible exact id) | (intro h; simp [h]) | simp)
    (hmodels : Part.models ∈ ps ∨ x21 = t.models := by first | exact .inl (by decide) | exact .inr rfl)
    (wmodels : t.models.length = 64 → x21.length = 64 := by first | (with_reducible exact id) | (intro h; simp [h]) | simp)
    (hsessions : Part.sessions ∈ ps ∨ x22 = t.sessions := by first | exact .inl (by decide) | exact .inr rfl)
    (hsessionGen : Part.sessionGen ∈ ps ∨ x23 = t.sessionGen := by first | exact .inl (by decide) | exact .inr rfl)
    (hmigs : Part.migs ∈ ps ∨ x24 = t.migs := by first | exact .inl (by decide) | exact .inr rfl)
    (hgraphs : Part.graphs ∈ ps ∨ x25 = t.graphs := by first | exact .inl (by decide) | exact .inr rfl)
    (hgraphGen : Part.graphGen ∈ ps ∨ x26 = t.graphGen := by first | exact .inl (by decide) | exact .inr rfl)
    (hkernels : Part.kernels ∈ ps ∨ x27 = t.kernels := by first | exact .inl (by decide) | exact .inr rfl)
    (hkernelGen : Part.kernelGen ∈ ps ∨ x28 = t.kernelGen := by first | exact .inl (by decide) | exact .inr rfl)
    (hruns : Part.runs ∈ ps ∨ x29 = t.runs := by first | exact .inl (by decide) | exact .inr rfl)
    (hlaunches : Part.launches ∈ ps ∨ x30 = t.launches := by first | exact .inl (by decide) | exact .inr rfl)
    (htrans : Part.trans ∈ ps ∨ x31 = t.trans := by first | exact .inl (by decide) | exact .inr rfl)
    (hscu : Part.scu ∈ ps ∨ x32 = t.scu := by first | exact .inl (by decide) | exact .inr rfl)
    (wscu : t.scu.length = 16 → x32.length = 16 := by first | (with_reducible exact id) | (intro h; simp [h]) | simp)
    (hsb : Part.sb ∈ ps ∨ x33 = t.sb := by first | exact .inl (by decide) | exact .inr rfl)
    (hfree : Part.free ∈ ps ∨ x34 = t.free := by first | exact .inl (by decide) | exact .inr rfl)
    : Frame ps s (State.mk x0 x1 x2 x3 x4 x5 x6 x7 x8 x9 x10 x11 x12 x13 x14 x15 x16 x17 x18 x19 x20 x21 x22 x23 x24 x25 x26 x27 x28 x29 x30 x31 x32 x33 x34) := by
  refine h.trans ⟨wstop, wdown, ?_, ?_, ?_⟩
  · intro p hp _; cases p
    · exact hpending.resolve_left hp
    · exact hpins.resolve_left hp
    · exact hret.resolve_left hp
    · exact hboot.resolve_left hp
    · exact hcause.resolve_left hp
    · exact hsettings.resolve_left hp
    · exact hboardOk.resolve_left hp
    · exact hflashA.resolve_left hp
    · exact hflashB.resolve_left hp
    · exact hlog.resolve_left hp
    · exact hsec.resolve_left hp
    · exact hflt.resolve_left hp
    · exact hsvc.resolve_left hp
    · exact htiles.resolve_left hp
    · exact hhubBundles.resolve_left hp
    · exact hengines.resolve_left hp
    · exact hels.resolve_left hp
    · exact hth.resolve_left hp
    · exact hcel.resolve_left hp
    · exact hhost.resolve_left hp
    · exact hcmds.resolve_left hp
    · exact hmem.resolve_left hp
    · exact fun a => by rw [hbytes.resolve_left hp]
    · exact hcxl.resolve_left hp
    · exact hmodels.resolve_left hp
    · exact hsessions.resolve_left hp
    · exact hsessionGen.resolve_left hp
    · exact hmigs.resolve_left hp
    · exact hgraphs.resolve_left hp
    · exact hgraphGen.resolve_left hp
    · exact hkernels.resolve_left hp
    · exact hkernelGen.resolve_left hp
    · exact hruns.resolve_left hp
    · exact hlaunches.resolve_left hp
    · exact htrans.resolve_left hp
    · exact hscu.resolve_left hp
    · exact hsb.resolve_left hp
    · exact hfree.resolve_left hp
    · exact trivial
  · intro p hp _; cases p
    · exact hpending.resolve_left hp
    · exact hpins.resolve_left hp
    · exact hret.resolve_left hp
    · exact hboot.resolve_left hp
    · exact hcause.resolve_left hp
    · exact hsettings.resolve_left hp
    · exact hboardOk.resolve_left hp
    · exact hflashA.resolve_left hp
    · exact hflashB.resolve_left hp
    · exact hlog.resolve_left hp
    · exact hsec.resolve_left hp
    · exact hflt.resolve_left hp
    · exact hsvc.resolve_left hp
    · exact htiles.resolve_left hp
    · exact hhubBundles.resolve_left hp
    · exact hengines.resolve_left hp
    · exact hels.resolve_left hp
    · exact hth.resolve_left hp
    · exact hcel.resolve_left hp
    · exact hhost.resolve_left hp
    · exact hcmds.resolve_left hp
    · exact hmem.resolve_left hp
    · exact fun a => by rw [hbytes.resolve_left hp]
    · exact hcxl.resolve_left hp
    · exact hmodels.resolve_left hp
    · exact hsessions.resolve_left hp
    · exact hsessionGen.resolve_left hp
    · exact hmigs.resolve_left hp
    · exact hgraphs.resolve_left hp
    · exact hgraphGen.resolve_left hp
    · exact hkernels.resolve_left hp
    · exact hkernelGen.resolve_left hp
    · exact hruns.resolve_left hp
    · exact hlaunches.resolve_left hp
    · exact htrans.resolve_left hp
    · exact hscu.resolve_left hp
    · exact hsb.resolve_left hp
    · exact hfree.resolve_left hp
    · exact trivial
  · intro i
    exact ⟨wmem i.memory, wtiles i.tiles, whubBundles i.hubBundles, wengines i.engines, wels i.els,
      wcxl i.cxl, wmodels i.models, wscu i.scu, wready i.down⟩

end Sys2Proof
end

