-- ==== Sys2Proof/Laws/Severity.lean ====
section
/-! SUPPORT. Which sources are no S3 source, from the checker number and the class (R488). -/

set_option Elab.async false
namespace Sys2Proof.Machine

/-- The severity of a source depends on its class and checker, not on its instance. -/
theorem severity_srcId (c n : Nat) {k : Nat} (hk : k < 64) : severityOf (srcId c n k) = severityOf (c * 4096 + k) := by
  have a : srcId c n k % 64 = (c * 4096 + k) % 64 := by unfold srcId; omega
  have b : srcId c n k / 4096 = (c * 4096 + k) / 4096 := by unfold srcId; omega
  unfold severityOf
  rw [a, b]

theorem calm_src {c n k : Nat} (hk : k < 64) (h : severityOf (c * 4096 + k) ≠ 3) : severityOf (srcId c n k) ≠ 3 := by
  rw [severity_srcId c n hk]; exact h

/-- BUNDLE_CRC and BUNDLE_WIDTH of a bundle end. -/
theorem calm_bundle {base : Nat} (b : BundleEnd) (h : base = 0x20 ∨ base = 0x30) : severityOf (bundleSource base b) ≠ 3 := by
  have key : ∀ i < 16, severityOf (1 * 4096 + (base + i)) ≠ 3 ∧ severityOf (0 * 4096 + (base + i)) ≠ 3 ∧ severityOf (2 * 4096 + (base + i)) ≠ 3 := by
    rcases h with rfl | rfl <;> decide
  cases b with
  | tile n i => exact calm_src (by omega) (key i i.isLt).1
  | hub b => exact calm_src (by omega) (key b b.isLt).2.1
  | engine e k => exact calm_src (by omega) (key k (by omega)).2.2

/-- An unmapped address, seen by a tile or by the hub. -/
theorem calm_unmappedSource (by_ : Option Nat) : severityOf (unmappedSource by_) ≠ 3 := by
  cases by_ <;> exact calm_src (by decide) (by decide)

/-- A failing access of module memory is no S3 source. -/
theorem calm_access {s : State} {by_ : Option Nat} {read : Bool} {l : List Extent} {src : Nat} (h : accessSource s by_ read l = some src) : severityOf src ≠ 3 := by
  unfold accessSource at h
  repeat' (first | (cases h; done) | split at h)
  all_goals first
    | (cases h; exact calm_unmappedSource by_)
    | (cases h; exact calm_src (by decide) (by decide))
    | (cases h; split <;> exact calm_src (by decide) (by decide))

/-- An unmapped address (R274). -/
theorem calm_unmapped {p : Prop} {src : Nat} (h : p ∧ src % 64 = 0x0A ∧ src / 4096 = 0) : severityOf src ≠ 3 := by
  unfold severityOf; rw [h.2.1, h.2.2]; decide

/-- A condition of a stream check unit (R552). -/
theorem calm_scu (u : Nat) : severityOf (srcId 0 0 (0x10 + u % 16)) ≠ 3 :=
  have key : ∀ i < 16, severityOf (0 * 4096 + (0x10 + i)) ≠ 3 := by decide
  calm_src (by omega) (key _ (Nat.mod_lt _ (by decide)))

/-- Of two accesses the source of the first that fails is reported. -/
theorem calm_either {s : State} {a b : List Extent} {src : Nat}
    (h : ((accessSource s none true a).orElse fun _ => accessSource s none false b) = some src) : severityOf src ≠ 3 := by
  cases h1 : accessSource s none true a with
  | none => rw [h1] at h; exact calm_access h
  | some x => rw [h1] at h; cases h; exact calm_access h1

end Sys2Proof.Machine
end

