-- ==== Sys2Proof/Laws/Results.lean ====
section
/-! SUPPORT. What each operation of Machine/Results.lean can change: one frame each. -/

set_option Elab.async false
namespace Sys2Proof.Machine

theorem State.modCmd_frame (cid) (f) (s : State) : Frame [.cmds] s (State.modCmd cid f s) := by
  unfold State.modCmd
  try dsimp only
  repeat' first
    | with_reducible assumption
    | with_reducible apply Frame.refl
    | with_reducible refine Frame.ite (fun _ => ?_) (fun _ => ?_)
    | with_reducible apply Frame.foldl
    | with_reducible apply Frame.foldl_fst
    | decide
    | intro _ _ _
    | fail_if_no_progress (refine Frame.upd ?_)
    | split

theorem State.endWork_frame (cid) (status) (source) (s : State) : Frame [.cmds] s (State.endWork cid status source s) := by
  unfold State.endWork
  try dsimp only
  repeat' first
    | with_reducible assumption
    | with_reducible apply Frame.refl
    | with_reducible refine Frame.ite (fun _ => ?_) (fun _ => ?_)
    | with_reducible apply Frame.foldl
    | with_reducible apply Frame.foldl_fst
    | with_reducible apply Frame.after (State.modCmd_frame _ _ _)
    | decide
    | intro _ _ _
    | fail_if_no_progress (refine Frame.upd ?_)
    | split

theorem State.markCmd_frame (src) (cid) (s : State) : Frame [.cmds] s (State.markCmd src cid s) := by
  unfold State.markCmd
  try dsimp only
  repeat' first
    | with_reducible assumption
    | with_reducible apply Frame.refl
    | with_reducible refine Frame.ite (fun _ => ?_) (fun _ => ?_)
    | with_reducible apply Frame.foldl
    | with_reducible apply Frame.foldl_fst
    | with_reducible apply Frame.after (State.modCmd_frame _ _ _)
    | decide
    | intro _ _ _
    | fail_if_no_progress (refine Frame.upd ?_)
    | split

theorem State.endCmd_frame (cid) (d) (s : State) : Frame [.cmds] s (State.endCmd cid d s) := by
  unfold State.endCmd
  try dsimp only
  repeat' first
    | with_reducible assumption
    | with_reducible apply Frame.refl
    | with_reducible refine Frame.ite (fun _ => ?_) (fun _ => ?_)
    | with_reducible apply Frame.foldl
    | with_reducible apply Frame.foldl_fst
    | with_reducible apply Frame.after (State.modCmd_frame _ _ _)
    | decide
    | intro _ _ _
    | fail_if_no_progress (refine Frame.upd ?_)
    | split

theorem State.finishCmd_frame (cid) (status) (fields) (s : State) : Frame [.cmds] s (State.finishCmd cid status fields s) := by
  unfold State.finishCmd
  try dsimp only
  repeat' first
    | with_reducible assumption
    | with_reducible apply Frame.refl
    | with_reducible refine Frame.ite (fun _ => ?_) (fun _ => ?_)
    | with_reducible apply Frame.foldl
    | with_reducible apply Frame.foldl_fst
    | with_reducible apply Frame.after (State.endCmd_frame _ _ _)
    | decide
    | intro _ _ _
    | fail_if_no_progress (refine Frame.upd ?_)
    | split

theorem State.failCmd_frame (cid) (status) (source) (s : State) : Frame [.cmds] s (State.failCmd cid status source s) := by
  unfold State.failCmd
  try dsimp only
  repeat' first
    | with_reducible assumption
    | with_reducible apply Frame.refl
    | with_reducible refine Frame.ite (fun _ => ?_) (fun _ => ?_)
    | with_reducible apply Frame.foldl
    | with_reducible apply Frame.foldl_fst
    | with_reducible apply Frame.after (State.modCmd_frame _ _ _)
    | decide
    | intro _ _ _
    | fail_if_no_progress (refine Frame.upd ?_)
    | split

theorem State.startCmd_frame (cid) (s : State) : Frame [.cmds] s (State.startCmd cid s) := by
  unfold State.startCmd
  try dsimp only
  repeat' first
    | with_reducible assumption
    | with_reducible apply Frame.refl
    | with_reducible refine Frame.ite (fun _ => ?_) (fun _ => ?_)
    | with_reducible apply Frame.foldl
    | with_reducible apply Frame.foldl_fst
    | with_reducible apply Frame.after (State.modCmd_frame _ _ _)
    | decide
    | intro _ _ _
    | fail_if_no_progress (refine Frame.upd ?_)
    | split

end Sys2Proof.Machine
end

