-- ==== Sys2Proof/Laws/Ops.lean ====
section
/-! SUPPORT. What each operation of Machine/Ops.lean can change: one frame each. -/

set_option Elab.async false
namespace Sys2Proof.Machine

theorem State.spend_frame (k) (s : State) : Frame [.free] s (State.spend k s) := by
  unfold State.spend
  try dsimp only
  repeat' first
    | with_reducible assumption
    | with_reducible apply Frame.refl
    | with_reducible refine Frame.ite (fun _ => ?_) (fun _ => ?_)
    | with_reducible apply Frame.foldl
    | with_reducible apply Frame.foldl_fst
    | decide
    | intro _ _ _
    | fail_if_no_progress (refine Frame.upd ?_)
    | split

theorem State.modEngine_frame (e) (f) (s : State) : Frame [.engines] s (State.modEngine e f s) := by
  unfold State.modEngine
  try dsimp only
  repeat' first
    | with_reducible assumption
    | with_reducible apply Frame.refl
    | with_reducible refine Frame.ite (fun _ => ?_) (fun _ => ?_)
    | with_reducible apply Frame.foldl
    | with_reducible apply Frame.foldl_fst
    | decide
    | intro _ _ _
    | fail_if_no_progress (refine Frame.upd ?_)
    | split

theorem State.lasersOff_frame (s : State) : Frame [.engines, .els] s (State.lasersOff s) := by
  unfold State.lasersOff
  try dsimp only
  repeat' first
    | with_reducible assumption
    | with_reducible apply Frame.refl
    | with_reducible refine Frame.ite (fun _ => ?_) (fun _ => ?_)
    | with_reducible apply Frame.foldl
    | with_reducible apply Frame.foldl_fst
    | decide
    | intro _ _ _
    | fail_if_no_progress (refine Frame.upd ?_)
    | split

theorem State.holdDies_frame (s : State) : Frame [.tiles, .engines] s (State.holdDies s) := by
  unfold State.holdDies
  try dsimp only
  repeat' first
    | with_reducible assumption
    | with_reducible apply Frame.refl
    | with_reducible refine Frame.ite (fun _ => ?_) (fun _ => ?_)
    | with_reducible apply Frame.foldl
    | with_reducible apply Frame.foldl_fst
    | decide
    | intro _ _ _
    | fail_if_no_progress (refine Frame.upd ?_)
    | split

theorem State.endAll_frame (status) (source) (s : State) : Frame [.cmds] s (State.endAll status source s) := by
  unfold State.endAll
  try dsimp only
  repeat' first
    | with_reducible assumption
    | with_reducible apply Frame.refl
    | with_reducible refine Frame.ite (fun _ => ?_) (fun _ => ?_)
    | with_reducible apply Frame.foldl
    | with_reducible apply Frame.foldl_fst
    | decide
    | intro _ _ _
    | fail_if_no_progress (refine Frame.upd ?_)
    | split

theorem State.loseLocal_frame (s : State) : Frame [.mem, .bytes] s (State.loseLocal s) :=
  Frame.upd (Frame.refl _ s) (wmem := filter_wf _)

theorem State.modFlash_frame (i) (f) (s : State) : Frame [.flashA, .flashB] s (State.modFlash i f s) := by
  unfold State.modFlash
  try dsimp only
  repeat' first
    | with_reducible assumption
    | with_reducible apply Frame.refl
    | with_reducible refine Frame.ite (fun _ => ?_) (fun _ => ?_)
    | with_reducible apply Frame.foldl
    | with_reducible apply Frame.foldl_fst
    | decide
    | intro _ _ _
    | fail_if_no_progress (refine Frame.upd ?_)
    | split

theorem State.enqueueBoth_frame (op) (s : State) : Frame [.flashA, .flashB] s (State.enqueueBoth op s) := by
  unfold State.enqueueBoth
  try dsimp only
  repeat' first
    | with_reducible assumption
    | with_reducible apply Frame.refl
    | with_reducible refine Frame.ite (fun _ => ?_) (fun _ => ?_)
    | with_reducible apply Frame.foldl
    | with_reducible apply Frame.foldl_fst
    | with_reducible apply Frame.after (State.modFlash_frame _ _ _)
    | decide
    | intro _ _ _
    | fail_if_no_progress (refine Frame.upd ?_)
    | split

theorem State.putMirror_frame (m) (s : State) : Frame [.ret, .flashA, .flashB, .log] s (State.putMirror m s) := by
  unfold State.putMirror
  try dsimp only
  repeat' first
    | with_reducible assumption
    | with_reducible apply Frame.refl
    | with_reducible refine Frame.ite (fun _ => ?_) (fun _ => ?_)
    | with_reducible apply Frame.foldl
    | with_reducible apply Frame.foldl_fst
    | with_reducible apply Frame.after (State.enqueueBoth_frame _ _)
    | decide
    | intro _ _ _
    | fail_if_no_progress (refine Frame.upd ?_)
    | split

theorem State.commitRecord_frame (r) (s : State) : Frame [.ret, .flashA, .flashB, .log] s (State.commitRecord r s) := by
  unfold State.commitRecord
  try dsimp only
  repeat' first
    | with_reducible assumption
    | with_reducible apply Frame.refl
    | with_reducible refine Frame.ite (fun _ => ?_) (fun _ => ?_)
    | with_reducible apply Frame.foldl
    | with_reducible apply Frame.foldl_fst
    | with_reducible apply Frame.after (State.putMirror_frame _ _)
    | with_reducible apply Frame.after (State.modFlash_frame _ _ _)
    | decide
    | intro _ _ _
    | fail_if_no_progress (refine Frame.upd ?_)
    | split

theorem State.commitOpen_frame (s : State) : Frame [.ret, .flashA, .flashB, .log] s (State.commitOpen s) := by
  unfold State.commitOpen
  try dsimp only
  repeat' first
    | with_reducible assumption
    | with_reducible apply Frame.refl
    | with_reducible refine Frame.ite (fun _ => ?_) (fun _ => ?_)
    | with_reducible apply Frame.foldl
    | with_reducible apply Frame.foldl_fst
    | with_reducible apply Frame.after (State.commitRecord_frame _ _)
    | decide
    | intro _ _ _
    | fail_if_no_progress (refine Frame.upd ?_)
    | split

theorem State.moduleStop_frame (source) (s : State) : Frame [.stop] s (State.moduleStop source s) := by
  have h : Frame stopParts s ((s.endAll .internal source).lasersOff.holdDies.loseLocal.commitOpen) := by
    repeat' first
      | with_reducible exact Frame.refl _ _
      | with_reducible refine Frame.step ?_ (State.commitOpen_frame ..) (by decide)
      | with_reducible refine Frame.step ?_ (State.loseLocal_frame ..) (by decide)
      | with_reducible refine Frame.step ?_ (State.holdDies_frame ..) (by decide)
      | with_reducible refine Frame.step ?_ (State.lasersOff_frame ..) (by decide)
      | with_reducible refine Frame.step ?_ (State.endAll_frame ..) (by decide)
  have k : Frame stopParts s (State.moduleStop source s) := by
    unfold State.moduleStop
    exact Frame.upd h
  exact ⟨k.stopped, k.down, fun p _ e => by have := e (by decide); simp [State.moduleStop, State.halted] at this, fun p _ hq => k.stop p hq hq, k.inv⟩

theorem State.logEvent_frame (event) (source) (severity) (injected) (data) (s : State) : Frame [.ret, .flashA, .flashB, .log] s (State.logEvent event source severity injected data s) := by
  unfold State.logEvent
  try dsimp only
  repeat' first
    | with_reducible assumption
    | with_reducible apply Frame.refl
    | with_reducible refine Frame.ite (fun _ => ?_) (fun _ => ?_)
    | with_reducible apply Frame.foldl
    | with_reducible apply Frame.foldl_fst
    | with_reducible apply Frame.after (State.commitOpen_frame _)
    | decide
    | intro _ _ _
    | fail_if_no_progress (refine Frame.upd ?_)
    | split

theorem State.logEvents_frame (evs) (s : State) : Frame [.ret, .flashA, .flashB, .log] s (State.logEvents evs s) := by
  unfold State.logEvents
  try dsimp only
  repeat' first
    | with_reducible assumption
    | with_reducible apply Frame.refl
    | with_reducible refine Frame.ite (fun _ => ?_) (fun _ => ?_)
    | with_reducible apply Frame.foldl
    | with_reducible apply Frame.foldl_fst
    | with_reducible apply Frame.after (State.logEvent_frame _ _ _ _ _ _)
    | decide
    | intro _ _ _
    | fail_if_no_progress (refine Frame.upd ?_)
    | split

theorem State.markEvents_frame (evs) (s : State) : Frame [.cmds] s (State.markEvents evs s) := by
  unfold State.markEvents
  try dsimp only
  repeat' first
    | with_reducible assumption
    | with_reducible apply Frame.refl
    | with_reducible refine Frame.ite (fun _ => ?_) (fun _ => ?_)
    | with_reducible apply Frame.foldl
    | with_reducible apply Frame.foldl_fst
    | with_reducible apply Frame.after (State.markCmd_frame _ _ _)
    | decide
    | intro _ _ _
    | fail_if_no_progress (refine Frame.upd ?_)
    | split

theorem State.send_frame (m) (s : State) : Frame [.host] s (State.send m s) := by
  unfold State.send
  try dsimp only
  repeat' first
    | with_reducible assumption
    | with_reducible apply Frame.refl
    | with_reducible refine Frame.ite (fun _ => ?_) (fun _ => ?_)
    | with_reducible apply Frame.foldl
    | with_reducible apply Frame.foldl_fst
    | decide
    | intro _ _ _
    | fail_if_no_progress (refine Frame.upd ?_)
    | split

theorem State.sendVector_frame (v) (s : State) : Frame [.host] s (State.sendVector v s) := by
  unfold State.sendVector
  try dsimp only
  repeat' first
    | with_reducible assumption
    | with_reducible apply Frame.refl
    | with_reducible refine Frame.ite (fun _ => ?_) (fun _ => ?_)
    | with_reducible apply Frame.foldl
    | with_reducible apply Frame.foldl_fst
    | with_reducible apply Frame.after (State.send_frame _ _)
    | decide
    | intro _ _ _
    | fail_if_no_progress (refine Frame.upd ?_)
    | split

theorem State.raiseCause_frame (k) (s : State) : Frame [.cause, .host] s (State.raiseCause k s) := by
  unfold State.raiseCause
  try dsimp only
  repeat' first
    | with_reducible assumption
    | with_reducible apply Frame.refl
    | with_reducible refine Frame.ite (fun _ => ?_) (fun _ => ?_)
    | with_reducible apply Frame.foldl
    | with_reducible apply Frame.foldl_fst
    | with_reducible apply Frame.after (State.sendVector_frame _ _)
    | decide
    | intro _ _ _
    | fail_if_no_progress (refine Frame.upd ?_)
    | split

theorem State.captureOnly_frame (events) (s : State) : Frame [.ret, .cause, .flashA, .flashB, .log, .flt, .host, .cmds] s (State.captureOnly events s) := by
  unfold State.captureOnly
  try dsimp only
  repeat' first
    | with_reducible assumption
    | with_reducible apply Frame.refl
    | with_reducible refine Frame.ite (fun _ => ?_) (fun _ => ?_)
    | with_reducible apply Frame.foldl
    | with_reducible apply Frame.foldl_fst
    | with_reducible apply Frame.after (State.raiseCause_frame _ _)
    | with_reducible apply Frame.after (State.markEvents_frame _ _)
    | with_reducible apply Frame.after (State.logEvents_frame _ _)
    | decide
    | intro _ _ _
    | fail_if_no_progress (refine Frame.upd ?_)
    | split

theorem State.capture_frame (evs) (s : State) : Frame [.ret, .cause, .flashA, .flashB, .log, .flt, .host, .cmds, .stop] s (State.capture evs s) := by
  unfold State.capture
  try dsimp only
  repeat' first
    | with_reducible assumption
    | with_reducible apply Frame.refl
    | with_reducible refine Frame.ite (fun _ => ?_) (fun _ => ?_)
    | with_reducible apply Frame.foldl
    | with_reducible apply Frame.foldl_fst
    | with_reducible apply Frame.after (State.captureOnly_frame _ _)
    | with_reducible apply Frame.after (State.moduleStop_frame _ _)
    | decide
    | intro _ _ _
    | fail_if_no_progress (refine Frame.upd ?_)
    | split

/-- An event that is no S3 stops nothing. -/
theorem State.capture_quiet {e : FaultEvent} (h : severityOf e.source ≠ 3) {s : State} : Frame [.ret, .cause, .flashA, .flashB, .log, .flt, .host, .cmds] s (State.capture [e] s) := by
  have k : [e].filter (fun e => severityOf e.source == 3) = [] := by simp [h]
  unfold State.capture
  rw [k]
  exact State.captureOnly_frame ..

theorem State.raiseOn_frame (source) (data) (cids) (s : State) : Frame [.ret, .cause, .flashA, .flashB, .log, .flt, .host, .cmds, .stop] s (State.raiseOn source data cids s) := by
  unfold State.raiseOn
  try dsimp only
  repeat' first
    | with_reducible assumption
    | with_reducible apply Frame.refl
    | with_reducible refine Frame.ite (fun _ => ?_) (fun _ => ?_)
    | with_reducible apply Frame.foldl
    | with_reducible apply Frame.foldl_fst
    | with_reducible apply Frame.after (State.capture_frame _ _)
    | decide
    | intro _ _ _
    | fail_if_no_progress (refine Frame.upd ?_)
    | split

theorem State.raiseOn_quiet {src : Nat} {d l} (h : severityOf src ≠ 3) {s : State} : Frame [.ret, .cause, .flashA, .flashB, .log, .flt, .host, .cmds] s (State.raiseOn src d l s) :=
  (State.capture_quiet (e := _) h).mono (by decide)

theorem State.raise_frame (source) (data) (s : State) : Frame [.ret, .cause, .flashA, .flashB, .log, .flt, .host, .cmds, .stop] s (State.raise source data s) := by
  unfold State.raise
  try dsimp only
  repeat' first
    | with_reducible assumption
    | with_reducible apply Frame.refl
    | with_reducible refine Frame.ite (fun _ => ?_) (fun _ => ?_)
    | with_reducible apply Frame.foldl
    | with_reducible apply Frame.foldl_fst
    | with_reducible apply Frame.after (State.capture_frame _ _)
    | decide
    | intro _ _ _
    | fail_if_no_progress (refine Frame.upd ?_)
    | split

theorem State.raise_quiet {src : Nat} {d} (h : severityOf src ≠ 3) {s : State} : Frame [.ret, .cause, .flashA, .flashB, .log, .flt, .host, .cmds] s (State.raise src d s) :=
  (State.capture_quiet (e := _) h).mono (by decide)

theorem State.modTile_frame (n) (f) (s : State) : Frame [.tiles] s (State.modTile n f s) := by
  unfold State.modTile
  try dsimp only
  repeat' first
    | with_reducible assumption
    | with_reducible apply Frame.refl
    | with_reducible refine Frame.ite (fun _ => ?_) (fun _ => ?_)
    | with_reducible apply Frame.foldl
    | with_reducible apply Frame.foldl_fst
    | decide
    | intro _ _ _
    | fail_if_no_progress (refine Frame.upd ?_)
    | split

theorem State.modBundle_frame (at_) (f) (s : State) : Frame [.tiles, .hubBundles, .engines] s (State.modBundle at_ f s) := by
  unfold State.modBundle
  try dsimp only
  repeat' first
    | with_reducible assumption
    | with_reducible apply Frame.refl
    | with_reducible refine Frame.ite (fun _ => ?_) (fun _ => ?_)
    | with_reducible apply Frame.foldl
    | with_reducible apply Frame.foldl_fst
    | with_reducible apply Frame.after (State.modEngine_frame _ _ _)
    | with_reducible apply Frame.after (State.modTile_frame _ _ _)
    | decide
    | intro _ _ _
    | fail_if_no_progress (refine Frame.upd ?_)
    | split

theorem State.modLink_frame (l) (f) (s : State) : Frame [.tiles, .hubBundles, .engines] s (State.modLink l f s) := by
  unfold State.modLink
  try dsimp only
  repeat' first
    | with_reducible assumption
    | with_reducible apply Frame.refl
    | with_reducible refine Frame.ite (fun _ => ?_) (fun _ => ?_)
    | with_reducible apply Frame.foldl
    | with_reducible apply Frame.foldl_fst
    | with_reducible apply Frame.after (State.modBundle_frame _ _ _)
    | with_reducible apply Frame.after (State.modEngine_frame _ _ _)
    | decide
    | intro _ _ _
    | fail_if_no_progress (refine Frame.upd ?_)
    | split

theorem State.raiseFor_frame (source) (data) (res) (s : State) : Frame [.ret, .cause, .flashA, .flashB, .log, .flt, .host, .cmds, .stop] s (State.raiseFor source data res s) := by
  unfold State.raiseFor
  try dsimp only
  repeat' first
    | with_reducible assumption
    | with_reducible apply Frame.refl
    | with_reducible refine Frame.ite (fun _ => ?_) (fun _ => ?_)
    | with_reducible apply Frame.foldl
    | with_reducible apply Frame.foldl_fst
    | with_reducible apply Frame.after (State.capture_frame _ _)
    | decide
    | intro _ _ _
    | fail_if_no_progress (refine Frame.upd ?_)
    | split

theorem State.raiseFor_quiet {src : Nat} {d r} (h : severityOf src ≠ 3) {s : State} : Frame [.ret, .cause, .flashA, .flashB, .log, .flt, .host, .cmds] s (State.raiseFor src d r s) :=
  (State.capture_quiet (e := _) h).mono (by decide)

theorem State.aerError_frame (kind) (s : State) : Frame [.host] s (State.aerError kind s) := by
  unfold State.aerError
  try dsimp only
  repeat' first
    | with_reducible assumption
    | with_reducible apply Frame.refl
    | with_reducible refine Frame.ite (fun _ => ?_) (fun _ => ?_)
    | with_reducible apply Frame.foldl
    | with_reducible apply Frame.foldl_fst
    | decide
    | intro _ _ _
    | fail_if_no_progress (refine Frame.upd ?_)
    | split

theorem State.raiseRequest_frame (q) (s : State) : Frame [.pins, .ret, .cause, .flashA, .flashB, .log, .svc, .host] s (State.raiseRequest q s) := by
  unfold State.raiseRequest
  try dsimp only
  repeat' first
    | with_reducible assumption
    | with_reducible apply Frame.refl
    | with_reducible refine Frame.ite (fun _ => ?_) (fun _ => ?_)
    | with_reducible apply Frame.foldl
    | with_reducible apply Frame.foldl_fst
    | with_reducible apply Frame.after (State.raiseCause_frame _ _)
    | with_reducible apply Frame.after (State.logEvent_frame _ _ _ _ _ _)
    | decide
    | intro _ _ _
    | fail_if_no_progress (refine Frame.upd ?_)
    | split

theorem State.raiseService_frame (level) (cause) (resource) (hours) (predicted) (s : State) : Frame [.pins, .ret, .cause, .flashA, .flashB, .log, .svc, .host] s (State.raiseService level cause resource hours predicted s) := by
  unfold State.raiseService
  try dsimp only
  repeat' first
    | with_reducible assumption
    | with_reducible apply Frame.refl
    | with_reducible refine Frame.ite (fun _ => ?_) (fun _ => ?_)
    | with_reducible apply Frame.foldl
    | with_reducible apply Frame.foldl_fst
    | with_reducible apply Frame.after (State.raiseRequest_frame _ _)
    | decide
    | intro _ _ _
    | fail_if_no_progress (refine Frame.upd ?_)
    | split

end Sys2Proof.Machine
end

