-- ==== Sys2Proof/Laws/Ageing.lean ====
section
/-! SUPPORT. What each operation of Machine/Ageing.lean can change: one frame each. -/

set_option Elab.async false
namespace Sys2Proof.Machine

theorem State.predictAt_frame (level) (cause) (resource) (key) (hours) (s : State) : Frame [.pins, .ret, .cause, .flashA, .flashB, .log, .svc, .host] s (State.predictAt level cause resource key hours s) := by
  unfold State.predictAt
  try dsimp only
  repeat' first
    | with_reducible assumption
    | with_reducible apply Frame.refl
    | with_reducible refine Frame.ite (fun _ => ?_) (fun _ => ?_)
    | with_reducible apply Frame.foldl
    | with_reducible apply Frame.foldl_fst
    | with_reducible apply Frame.after (State.raiseRequest_frame _ _)
    | decide
    | intro _ _ _
    | fail_if_no_progress (refine Frame.upd ?_)
    | split

theorem State.predict_frame (cause) (resource) (key) (hours) (s : State) : Frame [.pins, .ret, .cause, .flashA, .flashB, .log, .svc, .host] s (State.predict cause resource key hours s) := by
  unfold State.predict
  try dsimp only
  repeat' first
    | with_reducible assumption
    | with_reducible apply Frame.refl
    | with_reducible refine Frame.ite (fun _ => ?_) (fun _ => ?_)
    | with_reducible apply Frame.foldl
    | with_reducible apply Frame.foldl_fst
    | with_reducible apply Frame.after (State.predictAt_frame _ _ _ _ _ _)
    | decide
    | intro _ _ _
    | fail_if_no_progress (refine Frame.upd ?_)
    | split

theorem State.setAgeing_frame (d) (a) (s : State) : Frame [.tiles, .engines, .th] s (State.setAgeing d a s) := by
  unfold State.setAgeing
  try dsimp only
  repeat' first
    | with_reducible assumption
    | with_reducible apply Frame.refl
    | with_reducible refine Frame.ite (fun _ => ?_) (fun _ => ?_)
    | with_reducible apply Frame.foldl
    | with_reducible apply Frame.foldl_fst
    | with_reducible apply Frame.after (State.modEngine_frame _ _ _)
    | with_reducible apply Frame.after (State.modTile_frame _ _ _)
    | decide
    | intro _ _ _
    | fail_if_no_progress (refine Frame.upd ?_)
    | split

theorem State.agePoint_frame (d) (slowdown) (s : State) : Frame [.pins, .ret, .cause, .flashA, .flashB, .log, .flt, .svc, .tiles, .engines, .th, .host, .cmds] s (State.agePoint d slowdown s) := by
  unfold State.agePoint
  try dsimp only
  repeat' first
    | with_reducible assumption
    | with_reducible apply Frame.refl
    | with_reducible refine Frame.ite (fun _ => ?_) (fun _ => ?_)
    | with_reducible apply Frame.foldl
    | with_reducible apply Frame.foldl_fst
    | with_reducible apply Frame.after (State.putMirror_frame _ _)
    | with_reducible apply Frame.after (State.setAgeing_frame _ _ _)
    | with_reducible apply Frame.after (State.predict_frame _ _ _ _ _)
    | with_reducible apply Frame.after (State.raise_quiet (by first | with_reducible exact calm_src (by decide) (by decide) | with_reducible exact calm_bundle _ (by decide) | with_reducible exact calm_access (by assumption) | with_reducible exact calm_unmapped (by assumption) | with_reducible exact calm_scu _ | with_reducible exact calm_unmappedSource _))
    | decide
    | intro _ _ _
    | fail_if_no_progress (refine Frame.upd ?_)
    | split

theorem State.predictLaser_frame (e) (r) (q) (s : State) : Frame [.pins, .ret, .cause, .flashA, .flashB, .log, .svc, .host] s (State.predictLaser e r q s) := by
  unfold State.predictLaser
  try dsimp only
  repeat' first
    | with_reducible assumption
    | with_reducible apply Frame.refl
    | with_reducible refine Frame.ite (fun _ => ?_) (fun _ => ?_)
    | with_reducible apply Frame.foldl
    | with_reducible apply Frame.foldl_fst
    | with_reducible apply Frame.after (State.predictAt_frame _ _ _ _ _ _)
    | decide
    | intro _ _ _
    | fail_if_no_progress (refine Frame.upd ?_)
    | split

theorem State.foretell_frame (s : State) : Frame [.pins, .ret, .cause, .flashA, .flashB, .log, .svc, .host] s (State.foretell s) := by
  unfold State.foretell
  try dsimp only
  repeat' first
    | with_reducible assumption
    | with_reducible apply Frame.refl
    | with_reducible refine Frame.ite (fun _ => ?_) (fun _ => ?_)
    | with_reducible apply Frame.foldl
    | with_reducible apply Frame.foldl_fst
    | with_reducible apply Frame.after (State.predictLaser_frame _ _ _ _)
    | with_reducible apply Frame.after (State.predict_frame _ _ _ _ _)
    | decide
    | intro _ _ _
    | fail_if_no_progress (refine Frame.upd ?_)
    | split

end Sys2Proof.Machine
end

