-- ==== Sys2Proof/Laws/Mesh.lean ====
section
/-! SUPPORT. What each operation of Machine/Mesh.lean can change: one frame each. -/

set_option Elab.async false
namespace Sys2Proof.Machine

theorem State.arrive_frame (f) (s : State) : Frame [.engines, .trans] s (State.arrive f s) := by
  unfold State.arrive
  try dsimp only
  repeat' first
    | with_reducible assumption
    | with_reducible apply Frame.refl
    | with_reducible refine Frame.ite (fun _ => ?_) (fun _ => ?_)
    | with_reducible apply Frame.foldl
    | with_reducible apply Frame.foldl_fst
    | with_reducible apply Frame.after (State.modEngine_frame _ _ _)
    | decide
    | intro _ _ _
    | fail_if_no_progress (refine Frame.upd ?_)
    | split

theorem State.noteFlight_frame (f) (s : State) : Frame [.trans] s (State.noteFlight f s) := by
  unfold State.noteFlight
  try dsimp only
  repeat' first
    | with_reducible assumption
    | with_reducible apply Frame.refl
    | with_reducible refine Frame.ite (fun _ => ?_) (fun _ => ?_)
    | with_reducible apply Frame.foldl
    | with_reducible apply Frame.foldl_fst
    | decide
    | intro _ _ _
    | fail_if_no_progress (refine Frame.upd ?_)
    | split

theorem State.endFlight_frame (f) (s : State) : Frame [.trans] s (State.endFlight f s) := by
  unfold State.endFlight
  try dsimp only
  repeat' first
    | with_reducible assumption
    | with_reducible apply Frame.refl
    | with_reducible refine Frame.ite (fun _ => ?_) (fun _ => ?_)
    | with_reducible apply Frame.foldl
    | with_reducible apply Frame.foldl_fst
    | decide
    | intro _ _ _
    | fail_if_no_progress (refine Frame.upd ?_)
    | split

theorem State.dropTables_frame (s : State) : Frame [.trans] s (State.dropTables s) := by
  unfold State.dropTables
  try dsimp only
  repeat' first
    | with_reducible assumption
    | with_reducible apply Frame.refl
    | with_reducible refine Frame.ite (fun _ => ?_) (fun _ => ?_)
    | with_reducible apply Frame.foldl
    | with_reducible apply Frame.foldl_fst
    | decide
    | intro _ _ _
    | fail_if_no_progress (refine Frame.upd ?_)
    | split

theorem State.sendHome_frame (l) (s : State) : Frame [.trans] s (State.sendHome l s) := by
  unfold State.sendHome
  try dsimp only
  repeat' first
    | with_reducible assumption
    | with_reducible apply Frame.refl
    | with_reducible refine Frame.ite (fun _ => ?_) (fun _ => ?_)
    | with_reducible apply Frame.foldl
    | with_reducible apply Frame.foldl_fst
    | decide
    | intro _ _ _
    | fail_if_no_progress (refine Frame.upd ?_)
    | split

theorem State.tryHop_frame {f} {here} {s : State} {t : State} (h : State.tryHop f here s = some t) : Frame [.tiles, .hubBundles, .engines, .trans] s t := by
  unfold State.tryHop at h
  try dsimp only at h
  repeat' (first | (cases h; done) | split at h | (obtain ⟨_, _, rfl⟩ := Option.map_eq_some_iff.mp h))
  all_goals (try cases h)
  all_goals repeat' first
    | with_reducible assumption
    | with_reducible apply Frame.refl
    | with_reducible refine Frame.ite (fun _ => ?_) (fun _ => ?_)
    | with_reducible apply Frame.foldl
    | with_reducible apply Frame.foldl_fst
    | with_reducible apply Frame.after (State.noteFlight_frame _ _)
    | with_reducible apply Frame.after (State.modBundle_frame _ _ _)
    | with_reducible apply Frame.after (State.arrive_frame _ _)
    | decide
    | intro _ _ _
    | fail_if_no_progress (refine Frame.upd ?_)
    | split

theorem State.hop_frame (f) (here) (s : State) : Frame [.tiles, .hubBundles, .engines, .trans] s (State.hop f here s) := by
  unfold State.hop
  try dsimp only
  repeat' first
    | with_reducible assumption
    | with_reducible apply Frame.refl
    | with_reducible refine Frame.ite (fun _ => ?_) (fun _ => ?_)
    | with_reducible apply Frame.foldl
    | with_reducible apply Frame.foldl_fst
    | with_reducible apply Frame.after (State.noteFlight_frame _ _)
    | with_reducible apply Frame.after (State.tryHop_frame (by assumption))
    | decide
    | intro _ _ _
    | fail_if_no_progress (refine Frame.upd ?_)
    | split

theorem State.enter_frame (src) (dst) (vc) (m) (s : State) : Frame [.tiles, .hubBundles, .engines, .trans] s (State.enter src dst vc m s) := by
  unfold State.enter
  try dsimp only
  repeat' first
    | with_reducible assumption
    | with_reducible apply Frame.refl
    | with_reducible refine Frame.ite (fun _ => ?_) (fun _ => ?_)
    | with_reducible apply Frame.foldl
    | with_reducible apply Frame.foldl_fst
    | with_reducible apply Frame.after (State.hop_frame _ _ _)
    | decide
    | intro _ _ _
    | fail_if_no_progress (refine Frame.upd ?_)
    | split

end Sys2Proof.Machine
end

