-- ==== Sys2Proof/Laws/Routes.lean ====
section
/-! SUPPORT. What each operation of Machine/Routes.lean can change: one frame each. -/

set_option Elab.async false
namespace Sys2Proof.Machine

theorem State.queueMsg_frame (src) (e) (m) (s : State) : Frame [.tiles, .hubBundles, .engines, .trans] s (State.queueMsg src e m s) := by
  unfold State.queueMsg
  try dsimp only
  repeat' first
    | with_reducible assumption
    | with_reducible apply Frame.refl
    | with_reducible refine Frame.ite (fun _ => ?_) (fun _ => ?_)
    | with_reducible apply Frame.foldl
    | with_reducible apply Frame.foldl_fst
    | with_reducible apply Frame.after (State.enter_frame _ _ _ _ _)
    | decide
    | intro _ _ _
    | fail_if_no_progress (refine Frame.upd ?_)
    | split

theorem State.reroute_frame (e) (s : State) : Frame [.ret, .cause, .flashA, .flashB, .log, .flt, .host, .cmds, .trans] s (State.reroute e s) := by
  unfold State.reroute
  try dsimp only
  repeat' first
    | with_reducible assumption
    | with_reducible apply Frame.refl
    | with_reducible refine Frame.ite (fun _ => ?_) (fun _ => ?_)
    | with_reducible apply Frame.foldl
    | with_reducible apply Frame.foldl_fst
    | with_reducible apply Frame.after (State.raise_quiet (by first | with_reducible exact calm_src (by decide) (by decide) | with_reducible exact calm_bundle _ (by decide) | with_reducible exact calm_access (by assumption) | with_reducible exact calm_unmapped (by assumption) | with_reducible exact calm_scu _ | with_reducible exact calm_unmappedSource _))
    | decide
    | intro _ _ _
    | fail_if_no_progress (refine Frame.upd ?_)
    | split

theorem State.resendOrDrop_frame (e) (m) (age) (acc : State × Nat) : Frame [.tiles, .hubBundles, .engines, .trans] acc.1 (State.resendOrDrop e m age acc).1 := by
  unfold State.resendOrDrop
  try dsimp only
  repeat' first
    | with_reducible apply Frame.refl
    | with_reducible exact (State.queueMsg_frame _ _ _ _)
    | split

theorem State.linkDown_frame (e) (s : State) : Frame [.ret, .cause, .flashA, .flashB, .log, .flt, .tiles, .hubBundles, .engines, .host, .cmds, .trans] s (State.linkDown e s) := by
  unfold State.linkDown
  try dsimp only
  repeat' first
    | with_reducible assumption
    | with_reducible apply Frame.refl
    | with_reducible refine Frame.ite (fun _ => ?_) (fun _ => ?_)
    | with_reducible apply Frame.foldl
    | with_reducible apply Frame.foldl_fst
    | with_reducible apply Frame.after (State.resendOrDrop_frame _ _ _ _)
    | with_reducible apply Frame.after (State.modEngine_frame _ _ _)
    | with_reducible apply Frame.after (State.reroute_frame _ _)
    | with_reducible apply Frame.after (State.raise_quiet (by first | with_reducible exact calm_src (by decide) (by decide) | with_reducible exact calm_bundle _ (by decide) | with_reducible exact calm_access (by assumption) | with_reducible exact calm_unmapped (by assumption) | with_reducible exact calm_scu _ | with_reducible exact calm_unmappedSource _))
    | decide
    | intro _ _ _
    | fail_if_no_progress (refine Frame.upd ?_)
    | split

theorem State.setLinkState_frame (e) (st) (s : State) : Frame [.ret, .cause, .flashA, .flashB, .log, .flt, .tiles, .hubBundles, .engines, .host, .cmds, .trans] s (State.setLinkState e st s) := by
  unfold State.setLinkState
  try dsimp only
  repeat' first
    | with_reducible assumption
    | with_reducible apply Frame.refl
    | with_reducible refine Frame.ite (fun _ => ?_) (fun _ => ?_)
    | with_reducible apply Frame.foldl
    | with_reducible apply Frame.foldl_fst
    | with_reducible apply Frame.after (State.modEngine_frame _ _ _)
    | with_reducible apply Frame.after (State.linkDown_frame _ _)
    | decide
    | intro _ _ _
    | fail_if_no_progress (refine Frame.upd ?_)
    | split

theorem State.engineOut_frame (e) (own) (s : State) : Frame [.pins, .ret, .cause, .flashA, .flashB, .log, .flt, .svc, .tiles, .hubBundles, .engines, .host, .cmds, .trans] s (State.engineOut e own s) := by
  unfold State.engineOut
  try dsimp only
  repeat' first
    | with_reducible assumption
    | with_reducible apply Frame.refl
    | with_reducible refine Frame.ite (fun _ => ?_) (fun _ => ?_)
    | with_reducible apply Frame.foldl
    | with_reducible apply Frame.foldl_fst
    | with_reducible apply Frame.after (State.raiseService_frame _ _ _ _ _ _)
    | with_reducible apply Frame.after (State.setLinkState_frame _ _ _)
    | with_reducible apply Frame.after (State.raise_quiet (by first | with_reducible exact calm_src (by decide) (by decide) | with_reducible exact calm_bundle _ (by decide) | with_reducible exact calm_access (by assumption) | with_reducible exact calm_unmapped (by assumption) | with_reducible exact calm_scu _ | with_reducible exact calm_unmappedSource _))
    | decide
    | intro _ _ _
    | fail_if_no_progress (refine Frame.upd ?_)
    | split

theorem State.sendWord_frame (e) (w) (s : State) : Frame [.engines] s (State.sendWord e w s) := by
  unfold State.sendWord
  try dsimp only
  repeat' first
    | with_reducible assumption
    | with_reducible apply Frame.refl
    | with_reducible refine Frame.ite (fun _ => ?_) (fun _ => ?_)
    | with_reducible apply Frame.foldl
    | with_reducible apply Frame.foldl_fst
    | with_reducible apply Frame.after (State.modEngine_frame _ _ _)
    | decide
    | intro _ _ _
    | fail_if_no_progress (refine Frame.upd ?_)
    | split

theorem State.setRoute_frame (r) (s : State) : Frame [.trans] s (State.setRoute r s) := by
  unfold State.setRoute
  try dsimp only
  repeat' first
    | with_reducible assumption
    | with_reducible apply Frame.refl
    | with_reducible refine Frame.ite (fun _ => ?_) (fun _ => ?_)
    | with_reducible apply Frame.foldl
    | with_reducible apply Frame.foldl_fst
    | decide
    | intro _ _ _
    | fail_if_no_progress (refine Frame.upd ?_)
    | split

theorem State.sendFrom_frame (src) (m) (s : State) : Frame [.tiles, .hubBundles, .engines, .trans] s (State.sendFrom src m s) := by
  unfold State.sendFrom
  try dsimp only
  repeat' first
    | with_reducible assumption
    | with_reducible apply Frame.refl
    | with_reducible refine Frame.ite (fun _ => ?_) (fun _ => ?_)
    | with_reducible apply Frame.foldl
    | with_reducible apply Frame.foldl_fst
    | with_reducible apply Frame.after (State.queueMsg_frame _ _ _ _)
    | decide
    | intro _ _ _
    | fail_if_no_progress (refine Frame.upd ?_)
    | split

theorem State.sendMsg_frame (m) (s : State) : Frame [.tiles, .hubBundles, .engines, .trans] s (State.sendMsg m s) := by
  unfold State.sendMsg
  try dsimp only
  repeat' first
    | with_reducible assumption
    | with_reducible apply Frame.refl
    | with_reducible refine Frame.ite (fun _ => ?_) (fun _ => ?_)
    | with_reducible apply Frame.foldl
    | with_reducible apply Frame.foldl_fst
    | with_reducible apply Frame.after (State.sendFrom_frame _ _ _)
    | decide
    | intro _ _ _
    | fail_if_no_progress (refine Frame.upd ?_)
    | split

theorem State.issue_frame {q} {s t : State} (h : State.issue q s = some t) : Frame [.tiles, .hubBundles, .engines, .trans] s t := by
  unfold State.issue at h
  obtain ⟨k, _, rfl⟩ := Option.map_eq_some_iff.mp h
  exact (Frame.upd (Frame.refl _ s)).step (State.sendMsg_frame ..) (by decide)

theorem issueAll_frame (l) (s : State) : Frame [.tiles, .hubBundles, .engines, .trans] s (issueAll l s) := by
  induction l generalizing s with
  | nil => exact Frame.upd (Frame.refl _ s)
  | cons q l ih =>
    unfold issueAll
    split
    · exact ((State.issue_frame (by assumption)).mono (by decide)).trans (ih _)
    · exact Frame.upd (Frame.refl _ s)

theorem State.request_frame (l) (s : State) : Frame [.tiles, .hubBundles, .engines, .trans] s (State.request l s) := by
  unfold State.request
  try dsimp only
  repeat' first
    | with_reducible assumption
    | with_reducible apply Frame.refl
    | with_reducible refine Frame.ite (fun _ => ?_) (fun _ => ?_)
    | with_reducible apply Frame.foldl
    | with_reducible apply Frame.foldl_fst
    | with_reducible apply Frame.after (issueAll_frame _ _)
    | decide
    | intro _ _ _
    | fail_if_no_progress (refine Frame.upd ?_)
    | split

theorem State.dropRequests_frame (cid) (s : State) : Frame [.trans] s (State.dropRequests cid s) := by
  unfold State.dropRequests
  try dsimp only
  repeat' first
    | with_reducible assumption
    | with_reducible apply Frame.refl
    | with_reducible refine Frame.ite (fun _ => ?_) (fun _ => ?_)
    | with_reducible apply Frame.foldl
    | with_reducible apply Frame.foldl_fst
    | decide
    | intro _ _ _
    | fail_if_no_progress (refine Frame.upd ?_)
    | split

theorem State.retable_frame (s : State) : Frame [.tiles, .hubBundles, .engines, .trans] s (State.retable s) := by
  unfold State.retable
  try dsimp only
  repeat' first
    | with_reducible assumption
    | with_reducible apply Frame.refl
    | with_reducible refine Frame.ite (fun _ => ?_) (fun _ => ?_)
    | with_reducible apply Frame.foldl
    | with_reducible apply Frame.foldl_fst
    | with_reducible apply Frame.after (State.dropTables_frame _)
    | with_reducible apply Frame.after (State.hop_frame _ _ _)
    | decide
    | intro _ _ _
    | fail_if_no_progress (refine Frame.upd ?_)
    | split

theorem State.retry_frame (s : State) : Frame [.tiles, .hubBundles, .engines, .trans] s (State.retry s) := by
  unfold State.retry
  try dsimp only
  repeat' first
    | with_reducible assumption
    | with_reducible apply Frame.refl
    | with_reducible refine Frame.ite (fun _ => ?_) (fun _ => ?_)
    | with_reducible apply Frame.foldl
    | with_reducible apply Frame.foldl_fst
    | with_reducible apply Frame.after (State.hop_frame _ _ _)
    | decide
    | intro _ _ _
    | fail_if_no_progress (refine Frame.upd ?_)
    | split

end Sys2Proof.Machine
end

