-- ==== Sys2Proof/Laws/Optics.lean ====
section
/-! SUPPORT. What each operation of Machine/Optics.lean can change: one frame each. -/

set_option Elab.async false
namespace Sys2Proof.Machine

theorem State.beginBringUp_frame (e) (s : State) : Frame [.engines] s (State.beginBringUp e s) := by
  unfold State.beginBringUp
  try dsimp only
  repeat' first
    | with_reducible assumption
    | with_reducible apply Frame.refl
    | with_reducible refine Frame.ite (fun _ => ?_) (fun _ => ?_)
    | with_reducible apply Frame.foldl
    | with_reducible apply Frame.foldl_fst
    | with_reducible apply Frame.after (State.modEngine_frame _ _ _)
    | decide
    | intro _ _ _
    | fail_if_no_progress (refine Frame.upd ?_)
    | split

theorem State.modDir_frame (e) (side) (f) (s : State) : Frame [.engines] s (State.modDir e side f s) := by
  unfold State.modDir
  try dsimp only
  repeat' first
    | with_reducible assumption
    | with_reducible apply Frame.refl
    | with_reducible refine Frame.ite (fun _ => ?_) (fun _ => ?_)
    | with_reducible apply Frame.foldl
    | with_reducible apply Frame.foldl_fst
    | with_reducible apply Frame.after (State.modEngine_frame _ _ _)
    | decide
    | intro _ _ _
    | fail_if_no_progress (refine Frame.upd ?_)
    | split

theorem State.setLaser_frame (e) (f) (mode) (atten) (s : State) : Frame [.engines, .els] s (State.setLaser e f mode atten s) := by
  unfold State.setLaser
  try dsimp only
  repeat' first
    | with_reducible assumption
    | with_reducible apply Frame.refl
    | with_reducible refine Frame.ite (fun _ => ?_) (fun _ => ?_)
    | with_reducible apply Frame.foldl
    | with_reducible apply Frame.foldl_fst
    | with_reducible apply Frame.after (State.modEngine_frame _ _ _)
    | decide
    | intro _ _ _
    | fail_if_no_progress (refine Frame.upd ?_)
    | split

theorem State.probeLasers_frame (e) (s : State) : Frame [.engines, .els] s (State.probeLasers e s) := by
  unfold State.probeLasers
  try dsimp only
  repeat' first
    | with_reducible assumption
    | with_reducible apply Frame.refl
    | with_reducible refine Frame.ite (fun _ => ?_) (fun _ => ?_)
    | with_reducible apply Frame.foldl
    | with_reducible apply Frame.foldl_fst
    | with_reducible apply Frame.after (State.setLaser_frame _ _ _ _ _)
    | decide
    | intro _ _ _
    | fail_if_no_progress (refine Frame.upd ?_)
    | split

theorem State.failAttempt_frame (e) (s : State) : Frame [.engines, .els] s (State.failAttempt e s) := by
  unfold State.failAttempt
  try dsimp only
  repeat' first
    | with_reducible assumption
    | with_reducible apply Frame.refl
    | with_reducible refine Frame.ite (fun _ => ?_) (fun _ => ?_)
    | with_reducible apply Frame.foldl
    | with_reducible apply Frame.foldl_fst
    | with_reducible apply Frame.after (State.probeLasers_frame _ _)
    | with_reducible apply Frame.after (State.modEngine_frame _ _ _)
    | with_reducible apply Frame.after (State.sendWord_frame _ _ _)
    | decide
    | intro _ _ _
    | fail_if_no_progress (refine Frame.upd ?_)
    | split

theorem State.sendMaps_frame (e) (dir) (l) (s : State) : Frame [.engines] s (State.sendMaps e dir l s) := by
  unfold State.sendMaps
  try dsimp only
  repeat' first
    | with_reducible assumption
    | with_reducible apply Frame.refl
    | with_reducible refine Frame.ite (fun _ => ?_) (fun _ => ?_)
    | with_reducible apply Frame.foldl
    | with_reducible apply Frame.foldl_fst
    | with_reducible apply Frame.after (State.sendWord_frame _ _ _)
    | decide
    | intro _ _ _
    | fail_if_no_progress (refine Frame.upd ?_)
    | split

theorem State.raiseOnce_frame (level) (cause) (resource) (s : State) : Frame [.pins, .ret, .cause, .flashA, .flashB, .log, .svc, .host] s (State.raiseOnce level cause resource s) := by
  unfold State.raiseOnce
  try dsimp only
  repeat' first
    | with_reducible assumption
    | with_reducible apply Frame.refl
    | with_reducible refine Frame.ite (fun _ => ?_) (fun _ => ?_)
    | with_reducible apply Frame.foldl
    | with_reducible apply Frame.foldl_fst
    | with_reducible apply Frame.after (State.raiseService_frame _ _ _ _ _ _)
    | decide
    | intro _ _ _
    | fail_if_no_progress (refine Frame.upd ?_)
    | split

theorem State.elsFault_frame (port) (s : State) : Frame [.pins, .ret, .cause, .flashA, .flashB, .log, .flt, .svc, .host, .cmds] s (State.elsFault port s) := by
  unfold State.elsFault
  try dsimp only
  repeat' first
    | with_reducible assumption
    | with_reducible apply Frame.refl
    | with_reducible refine Frame.ite (fun _ => ?_) (fun _ => ?_)
    | with_reducible apply Frame.foldl
    | with_reducible apply Frame.foldl_fst
    | with_reducible apply Frame.after (State.raiseOnce_frame _ _ _ _)
    | with_reducible apply Frame.after (State.raise_quiet (by first | with_reducible exact calm_src (by decide) (by decide) | with_reducible exact calm_bundle _ (by decide) | with_reducible exact calm_access (by assumption) | with_reducible exact calm_unmapped (by assumption) | with_reducible exact calm_scu _ | with_reducible exact calm_unmappedSource _))
    | decide
    | intro _ _ _
    | fail_if_no_progress (refine Frame.upd ?_)
    | split

theorem State.startChange_frame (e) (rate) (width) (s : State) : Frame [.engines] s (State.startChange e rate width s) := by
  unfold State.startChange
  try dsimp only
  repeat' first
    | with_reducible assumption
    | with_reducible apply Frame.refl
    | with_reducible refine Frame.ite (fun _ => ?_) (fun _ => ?_)
    | with_reducible apply Frame.foldl
    | with_reducible apply Frame.foldl_fst
    | with_reducible apply Frame.after (State.sendMaps_frame _ _ _ _)
    | with_reducible apply Frame.after (State.sendWord_frame _ _ _)
    | with_reducible apply Frame.after (State.modDir_frame _ _ _ _)
    | decide
    | intro _ _ _
    | fail_if_no_progress (refine Frame.upd ?_)
    | split

theorem State.narrow_frame (e) (side) (s : State) : Frame [.pins, .ret, .cause, .flashA, .flashB, .log, .flt, .svc, .tiles, .hubBundles, .engines, .host, .cmds, .trans] s (State.narrow e side s) := by
  unfold State.narrow
  try dsimp only
  repeat' first
    | with_reducible assumption
    | with_reducible apply Frame.refl
    | with_reducible refine Frame.ite (fun _ => ?_) (fun _ => ?_)
    | with_reducible apply Frame.foldl
    | with_reducible apply Frame.foldl_fst
    | with_reducible apply Frame.after (State.startChange_frame _ _ _ _)
    | with_reducible apply Frame.after (State.engineOut_frame _ _ _)
    | with_reducible apply Frame.after (State.linkDown_frame _ _)
    | decide
    | intro _ _ _
    | fail_if_no_progress (refine Frame.upd ?_)
    | split

theorem State.modOeRing_frame (e) (r) (f) (s : State) : Frame [.engines] s (State.modOeRing e r f s) := by
  unfold State.modOeRing
  try dsimp only
  repeat' first
    | with_reducible assumption
    | with_reducible apply Frame.refl
    | with_reducible refine Frame.ite (fun _ => ?_) (fun _ => ?_)
    | with_reducible apply Frame.foldl
    | with_reducible apply Frame.foldl_fst
    | with_reducible apply Frame.after (State.modEngine_frame _ _ _)
    | decide
    | intro _ _ _
    | fail_if_no_progress (refine Frame.upd ?_)
    | split

theorem State.spareSlot_frame (e) (side) (w) (slot) (counted) (s : State) : Frame [.pins, .ret, .cause, .flashA, .flashB, .log, .flt, .svc, .tiles, .hubBundles, .engines, .host, .cmds, .trans] s (State.spareSlot e side w slot counted s) := by
  unfold State.spareSlot
  try dsimp only
  repeat' first
    | with_reducible assumption
    | with_reducible apply Frame.refl
    | with_reducible refine Frame.ite (fun _ => ?_) (fun _ => ?_)
    | with_reducible apply Frame.foldl
    | with_reducible apply Frame.foldl_fst
    | with_reducible apply Frame.after (State.modOeRing_frame _ _ _ _)
    | with_reducible apply Frame.after (State.raiseOnce_frame _ _ _ _)
    | with_reducible apply Frame.after (State.sendMaps_frame _ _ _ _)
    | with_reducible apply Frame.after (State.modDir_frame _ _ _ _)
    | with_reducible apply Frame.after (State.narrow_frame _ _ _)
    | decide
    | intro _ _ _
    | fail_if_no_progress (refine Frame.upd ?_)
    | split

theorem State.openRing_frame (e) (r) (chk) (s : State) : Frame [.ret, .flt, .tiles, .hubBundles, .engines, .trans] s (State.openRing e r chk s) := by
  unfold State.openRing
  try dsimp only
  repeat' first
    | with_reducible assumption
    | with_reducible apply Frame.refl
    | with_reducible refine Frame.ite (fun _ => ?_) (fun _ => ?_)
    | with_reducible apply Frame.foldl
    | with_reducible apply Frame.foldl_fst
    | with_reducible apply Frame.after (State.enter_frame _ _ _ _ _)
    | decide
    | intro _ _ _
    | fail_if_no_progress (refine Frame.upd ?_)
    | split

theorem State.startDeferred_frame (e) (side) (s : State) : Frame [.engines] s (State.startDeferred e side s) := by
  unfold State.startDeferred
  try dsimp only
  repeat' first
    | with_reducible assumption
    | with_reducible apply Frame.refl
    | with_reducible refine Frame.ite (fun _ => ?_) (fun _ => ?_)
    | with_reducible apply Frame.foldl
    | with_reducible apply Frame.foldl_fst
    | with_reducible apply Frame.after (State.startChange_frame _ _ _ _)
    | with_reducible apply Frame.after (State.sendWord_frame _ _ _)
    | with_reducible apply Frame.after (State.modDir_frame _ _ _ _)
    | decide
    | intro _ _ _
    | fail_if_no_progress (refine Frame.upd ?_)
    | split

theorem State.runLasers_frame (e) (s : State) : Frame [.engines, .els, .free] s (State.runLasers e s) := by
  unfold State.runLasers
  try dsimp only
  repeat' first
    | with_reducible assumption
    | with_reducible apply Frame.refl
    | with_reducible refine Frame.ite (fun _ => ?_) (fun _ => ?_)
    | with_reducible apply Frame.foldl
    | with_reducible apply Frame.foldl_fst
    | with_reducible apply Frame.after (State.modEngine_frame _ _ _)
    | with_reducible apply Frame.after (State.setLaser_frame _ _ _ _ _)
    | with_reducible apply Frame.after (State.spend_frame _ _)
    | decide
    | intro _ _ _
    | fail_if_no_progress (refine Frame.upd ?_)
    | split

theorem State.raiseWave_frame (e) (chk) (r) (slot) (s : State) : Frame [.ret, .cause, .flashA, .flashB, .log, .flt, .host, .cmds, .stop] s (State.raiseWave e chk r slot s) := by
  unfold State.raiseWave
  try dsimp only
  repeat' first
    | with_reducible assumption
    | with_reducible apply Frame.refl
    | with_reducible refine Frame.ite (fun _ => ?_) (fun _ => ?_)
    | with_reducible apply Frame.foldl
    | with_reducible apply Frame.foldl_fst
    | with_reducible apply Frame.after (State.capture_quiet (by first | exact calm_src (by decide) (by decide) | exact calm_bundle _ (by decide)))
    | with_reducible apply Frame.after (State.capture_frame _ _)
    | decide
    | intro _ _ _
    | fail_if_no_progress (refine Frame.upd ?_)
    | split

theorem State.raiseWave_quiet {e chk r slot : Nat} (hk : chk < 64) (h : severityOf (2 * 4096 + chk) ≠ 3) {s : State} :
    Frame [.ret, .cause, .flashA, .flashB, .log, .flt, .host, .cmds] s (State.raiseWave e chk r slot s) := State.capture_quiet (calm_src hk h)

theorem State.resumeSlot_frame (e) (side) (slot) (notify) (s : State) : Frame [.engines] s (State.resumeSlot e side slot notify s) := by
  unfold State.resumeSlot
  try dsimp only
  repeat' first
    | with_reducible assumption
    | with_reducible apply Frame.refl
    | with_reducible refine Frame.ite (fun _ => ?_) (fun _ => ?_)
    | with_reducible apply Frame.foldl
    | with_reducible apply Frame.foldl_fst
    | with_reducible apply Frame.after (State.modOeRing_frame _ _ _ _)
    | with_reducible apply Frame.after (State.sendWord_frame _ _ _)
    | with_reducible apply Frame.after (State.modDir_frame _ _ _ _)
    | decide
    | intro _ _ _
    | fail_if_no_progress (refine Frame.upd ?_)
    | split

theorem State.lockRing_frame (e) (r) (heater) (s : State) : Frame [.ret, .flashA, .flashB, .log, .engines] s (State.lockRing e r heater s) := by
  unfold State.lockRing
  try dsimp only
  repeat' first
    | with_reducible assumption
    | with_reducible apply Frame.refl
    | with_reducible refine Frame.ite (fun _ => ?_) (fun _ => ?_)
    | with_reducible apply Frame.foldl
    | with_reducible apply Frame.foldl_fst
    | with_reducible apply Frame.after (State.resumeSlot_frame _ _ _ _ _)
    | with_reducible apply Frame.after (State.modOeRing_frame _ _ _ _)
    | with_reducible apply Frame.after (State.putMirror_frame _ _)
    | decide
    | intro _ _ _
    | fail_if_no_progress (refine Frame.upd ?_)
    | split

theorem State.switchChange_frame (e) (side) (c) (s : State) : Frame [.pins, .ret, .cause, .flashA, .flashB, .log, .flt, .svc, .engines, .host, .cmds] s (State.switchChange e side c s) := by
  unfold State.switchChange
  try dsimp only
  repeat' first
    | with_reducible assumption
    | with_reducible apply Frame.refl
    | with_reducible refine Frame.ite (fun _ => ?_) (fun _ => ?_)
    | with_reducible apply Frame.foldl
    | with_reducible apply Frame.foldl_fst
    | with_reducible apply Frame.after (State.modEngine_frame _ _ _)
    | with_reducible apply Frame.after (State.raiseOnce_frame _ _ _ _)
    | with_reducible apply Frame.after (State.modDir_frame _ _ _ _)
    | with_reducible apply Frame.after (State.raise_quiet (by first | with_reducible exact calm_src (by decide) (by decide) | with_reducible exact calm_bundle _ (by decide) | with_reducible exact calm_access (by assumption) | with_reducible exact calm_unmapped (by assumption) | with_reducible exact calm_scu _ | with_reducible exact calm_unmappedSource _))
    | decide
    | intro _ _ _
    | fail_if_no_progress (refine Frame.upd ?_)
    | split

theorem State.retrain_frame (e) (side) (s : State) : Frame [.engines] s (State.retrain e side s) := by
  unfold State.retrain
  try dsimp only
  repeat' first
    | with_reducible assumption
    | with_reducible apply Frame.refl
    | with_reducible refine Frame.ite (fun _ => ?_) (fun _ => ?_)
    | with_reducible apply Frame.foldl
    | with_reducible apply Frame.foldl_fst
    | with_reducible apply Frame.after (State.startChange_frame _ _ _ _)
    | decide
    | intro _ _ _
    | fail_if_no_progress (refine Frame.upd ?_)
    | split

theorem State.pauseSlot_frame (e) (side) (slot) (notify) (s : State) : Frame [.engines] s (State.pauseSlot e side slot notify s) := by
  unfold State.pauseSlot
  try dsimp only
  repeat' first
    | with_reducible assumption
    | with_reducible apply Frame.refl
    | with_reducible refine Frame.ite (fun _ => ?_) (fun _ => ?_)
    | with_reducible apply Frame.foldl
    | with_reducible apply Frame.foldl_fst
    | with_reducible apply Frame.after (State.modEngine_frame _ _ _)
    | with_reducible apply Frame.after (State.modOeRing_frame _ _ _ _)
    | with_reducible apply Frame.after (State.sendWord_frame _ _ _)
    | with_reducible apply Frame.after (State.retrain_frame _ _ _)
    | with_reducible apply Frame.after (State.modDir_frame _ _ _ _)
    | decide
    | intro _ _ _
    | fail_if_no_progress (refine Frame.upd ?_)
    | split

theorem State.endChange_frame (e) (side) (s : State) : Frame [.engines] s (State.endChange e side s) := by
  unfold State.endChange
  try dsimp only
  repeat' first
    | with_reducible assumption
    | with_reducible apply Frame.refl
    | with_reducible refine Frame.ite (fun _ => ?_) (fun _ => ?_)
    | with_reducible apply Frame.foldl
    | with_reducible apply Frame.foldl_fst
    | with_reducible apply Frame.after (State.startDeferred_frame _ _ _)
    | with_reducible apply Frame.after (State.modEngine_frame _ _ _)
    | with_reducible apply Frame.after (State.sendWord_frame _ _ _)
    | with_reducible apply Frame.after (State.retrain_frame _ _ _)
    | with_reducible apply Frame.after (State.modDir_frame _ _ _ _)
    | decide
    | intro _ _ _
    | fail_if_no_progress (refine Frame.upd ?_)
    | split

theorem State.lockLost_frame (e) (r) (s : State) : Frame [.ret, .cause, .flashA, .flashB, .log, .flt, .engines, .host, .cmds] s (State.lockLost e r s) := by
  unfold State.lockLost
  try dsimp only
  repeat' first
    | with_reducible assumption
    | with_reducible apply Frame.refl
    | with_reducible refine Frame.ite (fun _ => ?_) (fun _ => ?_)
    | with_reducible apply Frame.foldl
    | with_reducible apply Frame.foldl_fst
    | with_reducible apply Frame.after (State.modOeRing_frame _ _ _ _)
    | with_reducible apply Frame.after (State.pauseSlot_frame _ _ _ _ _)
    | with_reducible apply Frame.after (State.raiseWave_quiet (by decide) (by decide))
    | decide
    | intro _ _ _
    | fail_if_no_progress (refine Frame.upd ?_)
    | split

theorem State.checkHealth_frame (e) (side) (s : State) : Frame [.pins, .ret, .cause, .flashA, .flashB, .log, .flt, .svc, .tiles, .hubBundles, .engines, .host, .cmds, .trans] s (State.checkHealth e side s) := by
  unfold State.checkHealth
  try dsimp only
  repeat' first
    | with_reducible assumption
    | with_reducible apply Frame.refl
    | with_reducible refine Frame.ite (fun _ => ?_) (fun _ => ?_)
    | with_reducible apply Frame.foldl
    | with_reducible apply Frame.foldl_fst
    | with_reducible apply Frame.after (State.engineOut_frame _ _ _)
    | decide
    | intro _ _ _
    | fail_if_no_progress (refine Frame.upd ?_)
    | split

theorem State.failRing_frame (e) (r) (tone) (s : State) : Frame [.pins, .ret, .cause, .flashA, .flashB, .log, .flt, .svc, .tiles, .hubBundles, .engines, .host, .cmds, .trans] s (State.failRing e r tone s) := by
  unfold State.failRing
  try dsimp only
  repeat' first
    | with_reducible assumption
    | with_reducible apply Frame.refl
    | with_reducible refine Frame.ite (fun _ => ?_) (fun _ => ?_)
    | with_reducible apply Frame.foldl
    | with_reducible apply Frame.foldl_fst
    | with_reducible apply Frame.after (State.checkHealth_frame _ _ _)
    | with_reducible apply Frame.after (State.modOeRing_frame _ _ _ _)
    | with_reducible apply Frame.after (State.pauseSlot_frame _ _ _ _ _)
    | with_reducible apply Frame.after (State.raiseOnce_frame _ _ _ _)
    | with_reducible apply Frame.after (State.spareSlot_frame _ _ _ _ _ _)
    | with_reducible apply Frame.after (State.openRing_frame _ _ _ _)
    | decide
    | intro _ _ _
    | fail_if_no_progress (refine Frame.upd ?_)
    | split

theorem State.elsLost_frame (port) (failed) (s : State) : Frame [.pins, .ret, .cause, .flashA, .flashB, .log, .flt, .svc, .tiles, .hubBundles, .engines, .els, .host, .cmds, .trans] s (State.elsLost port failed s) := by
  unfold State.elsLost
  try dsimp only
  repeat' first
    | with_reducible assumption
    | with_reducible apply Frame.refl
    | with_reducible refine Frame.ite (fun _ => ?_) (fun _ => ?_)
    | with_reducible apply Frame.foldl
    | with_reducible apply Frame.foldl_fst
    | with_reducible apply Frame.after (State.elsFault_frame _ _)
    | with_reducible apply Frame.after (State.failRing_frame _ _ _ _)
    | decide
    | intro _ _ _
    | fail_if_no_progress (refine Frame.upd ?_)
    | split

theorem State.failFibre_frame (e) (f) (lambdas) (s : State) : Frame [.pins, .ret, .cause, .flashA, .flashB, .log, .flt, .svc, .tiles, .hubBundles, .engines, .host, .cmds, .trans] s (State.failFibre e f lambdas s) := by
  unfold State.failFibre
  try dsimp only
  repeat' first
    | with_reducible assumption
    | with_reducible apply Frame.refl
    | with_reducible refine Frame.ite (fun _ => ?_) (fun _ => ?_)
    | with_reducible apply Frame.foldl
    | with_reducible apply Frame.foldl_fst
    | with_reducible apply Frame.after (State.failRing_frame _ _ _ _)
    | decide
    | intro _ _ _
    | fail_if_no_progress (refine Frame.upd ?_)
    | split

theorem State.retireLaser_frame (e) (f) (source) (s : State) : Frame [.pins, .ret, .cause, .flashA, .flashB, .log, .flt, .svc, .tiles, .hubBundles, .engines, .els, .host, .cmds, .trans] s (State.retireLaser e f source s) := by
  unfold State.retireLaser
  try dsimp only
  repeat' first
    | with_reducible assumption
    | with_reducible apply Frame.refl
    | with_reducible refine Frame.ite (fun _ => ?_) (fun _ => ?_)
    | with_reducible apply Frame.foldl
    | with_reducible apply Frame.foldl_fst
    | with_reducible apply Frame.after (State.failFibre_frame _ _ _ _)
    | with_reducible apply Frame.after (State.modEngine_frame _ _ _)
    | with_reducible apply Frame.after (State.putMirror_frame _ _)
    | with_reducible apply Frame.after (State.logEvent_frame _ _ _ _ _ _)
    | with_reducible apply Frame.after (State.setLaser_frame _ _ _ _ _)
    | decide
    | intro _ _ _
    | fail_if_no_progress (refine Frame.upd ?_)
    | split

theorem State.retireRing_frame (e) (r) (s : State) : Frame [.pins, .ret, .cause, .flashA, .flashB, .log, .flt, .svc, .tiles, .hubBundles, .engines, .host, .cmds, .trans] s (State.retireRing e r s) := by
  unfold State.retireRing
  try dsimp only
  repeat' first
    | with_reducible assumption
    | with_reducible apply Frame.refl
    | with_reducible refine Frame.ite (fun _ => ?_) (fun _ => ?_)
    | with_reducible apply Frame.foldl
    | with_reducible apply Frame.foldl_fst
    | with_reducible apply Frame.after (State.checkHealth_frame _ _ _)
    | with_reducible apply Frame.after (State.modOeRing_frame _ _ _ _)
    | with_reducible apply Frame.after (State.pauseSlot_frame _ _ _ _ _)
    | with_reducible apply Frame.after (State.putMirror_frame _ _)
    | with_reducible apply Frame.after (State.raiseOnce_frame _ _ _ _)
    | with_reducible apply Frame.after (State.spareSlot_frame _ _ _ _ _ _)
    | with_reducible apply Frame.after (State.logEvent_frame _ _ _ _ _ _)
    | with_reducible apply Frame.after (State.raise_quiet (by first | with_reducible exact calm_src (by decide) (by decide) | with_reducible exact calm_bundle _ (by decide) | with_reducible exact calm_access (by assumption) | with_reducible exact calm_unmapped (by assumption) | with_reducible exact calm_scu _ | with_reducible exact calm_unmappedSource _))
    | decide
    | intro _ _ _
    | fail_if_no_progress (refine Frame.upd ?_)
    | split

theorem State.wrongChannel_frame (e) (r) (heater) (dominant) (lit) (s : State) : Frame [.pins, .ret, .cause, .flashA, .flashB, .log, .flt, .svc, .tiles, .hubBundles, .engines, .host, .cmds, .trans] s (State.wrongChannel e r heater dominant lit s) := by
  unfold State.wrongChannel
  try dsimp only
  repeat' first
    | with_reducible assumption
    | with_reducible apply Frame.refl
    | with_reducible refine Frame.ite (fun _ => ?_) (fun _ => ?_)
    | with_reducible apply Frame.foldl
    | with_reducible apply Frame.foldl_fst
    | with_reducible apply Frame.after (State.modOeRing_frame _ _ _ _)
    | with_reducible apply Frame.after (State.pauseSlot_frame _ _ _ _ _)
    | with_reducible apply Frame.after (State.raiseWave_quiet (by decide) (by decide))
    | with_reducible apply Frame.after (State.failRing_frame _ _ _ _)
    | decide
    | intro _ _ _
    | fail_if_no_progress (refine Frame.upd ?_)
    | split

theorem State.runService_frame (e) (side) (s : State) : Frame [.pins, .ret, .cause, .flashA, .flashB, .log, .svc, .host] s (State.runService e side s) := by
  unfold State.runService
  try dsimp only
  repeat' first
    | with_reducible assumption
    | with_reducible apply Frame.refl
    | with_reducible refine Frame.ite (fun _ => ?_) (fun _ => ?_)
    | with_reducible apply Frame.foldl
    | with_reducible apply Frame.foldl_fst
    | with_reducible apply Frame.after (State.raiseOnce_frame _ _ _ _)
    | decide
    | intro _ _ _
    | fail_if_no_progress (refine Frame.upd ?_)
    | split

theorem State.settleTone_frame (e) (r) (heater) (dominant) (s : State) : Frame [.pins, .ret, .cause, .flashA, .flashB, .log, .flt, .svc, .tiles, .hubBundles, .engines, .host, .cmds, .trans] s (State.settleTone e r heater dominant s) := by
  unfold State.settleTone
  try dsimp only
  repeat' first
    | with_reducible assumption
    | with_reducible apply Frame.refl
    | with_reducible refine Frame.ite (fun _ => ?_) (fun _ => ?_)
    | with_reducible apply Frame.foldl
    | with_reducible apply Frame.foldl_fst
    | with_reducible apply Frame.after (State.wrongChannel_frame _ _ _ _ _ _)
    | with_reducible apply Frame.after (State.modOeRing_frame _ _ _ _)
    | decide
    | intro _ _ _
    | fail_if_no_progress (refine Frame.upd ?_)
    | split

end Sys2Proof.Machine
end

