-- ==== Sys2Proof/Laws/Resets.lean ====
section
/-! SUPPORT. What each operation of Machine/Resets.lean can change: one frame each. -/

set_option Elab.async false
namespace Sys2Proof.Machine

theorem reset_inv : Inv State.reset := ⟨by rfl, by rfl, by rfl, by rfl, by rfl, by rfl, by rfl, by rfl, fun _ => rfl⟩

theorem State.powerLost_keeps (s : State) : Keeps s (State.powerLost s) := ⟨rfl, fun _ => ⟨by rfl, by rfl, by rfl, by rfl, by rfl, by rfl, by rfl, by rfl, fun _ => rfl⟩⟩

theorem State.reraiseSites_frame (lost compute spares) (s : State) :
    Frame [.pins, .ret, .cause, .flashA, .flashB, .log, .svc, .host] s (State.reraiseSites lost compute spares s) := by
  induction lost generalizing compute spares s with
  | nil => exact Frame.refl ..
  | cons n l ih =>
    unfold State.reraiseSites
    split
    · split
      · exact (State.raiseService_frame ..).trans (ih ..)
      · exact (State.raiseService_frame ..).trans (ih ..)
    · exact ih ..

theorem State.reraise_frame (s : State) : Frame [.pins, .ret, .cause, .flashA, .flashB, .log, .svc, .host] s (State.reraise s) := by
  unfold State.reraise
  try dsimp only
  repeat' first
    | with_reducible assumption
    | with_reducible apply Frame.refl
    | with_reducible refine Frame.ite (fun _ => ?_) (fun _ => ?_)
    | with_reducible apply Frame.foldl
    | with_reducible apply Frame.foldl_fst
    | with_reducible apply Frame.after (State.reraiseSites_frame _ _ _ _)
    | with_reducible apply Frame.after (State.raiseService_frame _ _ _ _ _ _)
    | decide
    | intro _ _ _
    | fail_if_no_progress (refine Frame.upd ?_)
    | split

theorem State.logCause_frame (s : State) : Frame [.ret, .cause, .flashA, .flashB, .log, .flt, .host, .cmds] s (State.logCause s) := by
  unfold State.logCause
  try dsimp only
  repeat' first
    | with_reducible assumption
    | with_reducible apply Frame.refl
    | with_reducible refine Frame.ite (fun _ => ?_) (fun _ => ?_)
    | with_reducible apply Frame.foldl
    | with_reducible apply Frame.foldl_fst
    | with_reducible apply Frame.after (State.captureOnly_frame _ _)
    | with_reducible apply Frame.after (State.logEvent_frame _ _ _ _ _ _)
    | decide
    | intro _ _ _
    | fail_if_no_progress (refine Frame.upd ?_)
    | split

theorem State.rewriteCopies_frame (s : State) : Frame [.flashA, .flashB] s (State.rewriteCopies s) := by
  unfold State.rewriteCopies
  try dsimp only
  repeat' first
    | with_reducible assumption
    | with_reducible apply Frame.refl
    | with_reducible refine Frame.ite (fun _ => ?_) (fun _ => ?_)
    | with_reducible apply Frame.foldl
    | with_reducible apply Frame.foldl_fst
    | decide
    | intro _ _ _
    | fail_if_no_progress (refine Frame.upd ?_)
    | split

theorem State.settleFlash_frame (idA) (idB) (s : State) : Frame [.ret, .cause, .flashA, .flashB, .log, .flt, .host, .cmds] s (State.settleFlash idA idB s) := by
  unfold State.settleFlash
  try dsimp only
  repeat' first
    | with_reducible assumption
    | with_reducible apply Frame.refl
    | with_reducible refine Frame.ite (fun _ => ?_) (fun _ => ?_)
    | with_reducible apply Frame.foldl
    | with_reducible apply Frame.foldl_fst
    | with_reducible apply Frame.after (State.rewriteCopies_frame _)
    | with_reducible apply Frame.after (State.commitRecord_frame _ _)
    | with_reducible apply Frame.after (State.raise_quiet (by first | with_reducible exact calm_src (by decide) (by decide) | with_reducible exact calm_bundle _ (by decide) | with_reducible exact calm_access (by assumption) | with_reducible exact calm_unmapped (by assumption) | with_reducible exact calm_scu _ | with_reducible exact calm_unmappedSource _))
    | decide
    | intro _ _ _
    | fail_if_no_progress (refine Frame.upd ?_)
    | split

theorem State.rebuild_keeps (cold keepLink keepConfig) (s : State) : Keeps s (State.rebuild cold keepLink keepConfig s) :=
  ⟨rfl, fun _ => ⟨by rfl, by simp [State.rebuild], by rfl, by simp [State.rebuild], by rfl, by rfl, by simp [State.rebuild], by rfl, fun _ => rfl⟩⟩

theorem State.recordRecovery_frame (st) (s : State) : Frame [.ret, .flashA, .flashB, .log] s (State.recordRecovery st s) := by
  unfold State.recordRecovery
  try dsimp only
  repeat' first
    | with_reducible assumption
    | with_reducible apply Frame.refl
    | with_reducible refine Frame.ite (fun _ => ?_) (fun _ => ?_)
    | with_reducible apply Frame.foldl
    | with_reducible apply Frame.foldl_fst
    | with_reducible apply Frame.after (State.putMirror_frame _ _)
    | with_reducible apply Frame.after (State.logEvent_frame _ _ _ _ _ _)
    | decide
    | intro _ _ _
    | fail_if_no_progress (refine Frame.upd ?_)
    | split

theorem State.endStates_frame (s : State) : Frame [.ret, .flashA, .flashB, .log, .flt] s (State.endStates s) := by
  unfold State.endStates
  try dsimp only
  repeat' first
    | with_reducible assumption
    | with_reducible apply Frame.refl
    | with_reducible refine Frame.ite (fun _ => ?_) (fun _ => ?_)
    | with_reducible apply Frame.foldl
    | with_reducible apply Frame.foldl_fst
    | with_reducible apply Frame.after (State.recordRecovery_frame _ _)
    | decide
    | intro _ _ _
    | fail_if_no_progress (refine Frame.upd ?_)
    | split

theorem State.reserveBatch_frame (s : State) : Frame [.ret, .cause, .flashA, .flashB, .log, .sec, .flt, .host, .cmds] s (State.reserveBatch s) := by
  unfold State.reserveBatch
  try dsimp only
  repeat' first
    | with_reducible assumption
    | with_reducible apply Frame.refl
    | with_reducible refine Frame.ite (fun _ => ?_) (fun _ => ?_)
    | with_reducible apply Frame.foldl
    | with_reducible apply Frame.foldl_fst
    | with_reducible apply Frame.after (State.modFlash_frame _ _ _)
    | with_reducible apply Frame.after (State.raise_quiet (by first | with_reducible exact calm_src (by decide) (by decide) | with_reducible exact calm_bundle _ (by decide) | with_reducible exact calm_access (by assumption) | with_reducible exact calm_unmapped (by assumption) | with_reducible exact calm_scu _ | with_reducible exact calm_unmappedSource _))
    | decide
    | intro _ _ _
    | fail_if_no_progress (refine Frame.upd ?_)
    | split

theorem State.settleSecurity_frame (katOk) (s : State) : Frame [.ret, .boot, .cause, .settings, .boardOk, .flashA, .flashB, .log, .sec, .flt, .host, .cmds] s (State.settleSecurity katOk s) := by
  unfold State.settleSecurity
  try dsimp only
  repeat' first
    | with_reducible assumption
    | with_reducible apply Frame.refl
    | with_reducible refine Frame.ite (fun _ => ?_) (fun _ => ?_)
    | with_reducible apply Frame.foldl
    | with_reducible apply Frame.foldl_fst
    | with_reducible apply Frame.after (State.reserveBatch_frame _)
    | with_reducible apply Frame.after (State.putMirror_frame _ _)
    | with_reducible apply Frame.after (State.raise_quiet (by first | with_reducible exact calm_src (by decide) (by decide) | with_reducible exact calm_bundle _ (by decide) | with_reducible exact calm_access (by assumption) | with_reducible exact calm_unmapped (by assumption) | with_reducible exact calm_scu _ | with_reducible exact calm_unmappedSource _))
    | decide
    | intro _ _ _
    | fail_if_no_progress (refine Frame.upd ?_)
    | split

theorem rebuilt_keeps (u : State) (f : Faults) (c : BitVec 7) :
    Keeps u ({ u.rebuild true false false with flt := f, boot := { (u.rebuild true false false).boot with cause := c } } : State) :=
  (State.rebuild_keeps true false false u).trans
    ⟨rfl, fun i => ⟨i.memory, i.tiles, i.hubBundles, i.engines, i.els, i.cxl, i.models, i.scu, fun _ => rfl⟩⟩

theorem State.recordRetired_frame (n) (s : State) : Frame [.ret, .flashA, .flashB, .log] s (State.recordRetired n s) := by
  unfold State.recordRetired
  try dsimp only
  repeat' first
    | with_reducible assumption
    | with_reducible apply Frame.refl
    | with_reducible refine Frame.ite (fun _ => ?_) (fun _ => ?_)
    | with_reducible apply Frame.foldl
    | with_reducible apply Frame.foldl_fst
    | with_reducible apply Frame.after (State.putMirror_frame _ _)
    | decide
    | intro _ _ _
    | fail_if_no_progress (refine Frame.upd ?_)
    | split

theorem State.retireEighths_frame (states) (s : State) : Frame [.pins, .ret, .cause, .flashA, .flashB, .log, .flt, .svc, .host, .cmds] s (State.retireEighths states s) := by
  unfold State.retireEighths
  try dsimp only
  repeat' first
    | with_reducible assumption
    | with_reducible apply Frame.refl
    | with_reducible refine Frame.ite (fun _ => ?_) (fun _ => ?_)
    | with_reducible apply Frame.foldl
    | with_reducible apply Frame.foldl_fst
    | with_reducible apply Frame.after (State.recordRetired_frame _ _)
    | with_reducible apply Frame.after (State.raiseService_frame _ _ _ _ _ _)
    | with_reducible apply Frame.after (State.captureOnly_frame _ _)
    | with_reducible apply Frame.after (State.putMirror_frame _ _)
    | with_reducible apply Frame.after (State.logEvent_frame _ _ _ _ _ _)
    | decide
    | intro _ _ _
    | fail_if_no_progress (refine Frame.upd ?_)
    | split

theorem State.firstTables_frame (s : State) : Frame [.trans] s (State.firstTables s) := by
  unfold State.firstTables
  try dsimp only
  repeat' first
    | with_reducible assumption
    | with_reducible apply Frame.refl
    | with_reducible refine Frame.ite (fun _ => ?_) (fun _ => ?_)
    | with_reducible apply Frame.foldl
    | with_reducible apply Frame.foldl_fst
    | decide
    | intro _ _ _
    | fail_if_no_progress (refine Frame.upd ?_)
    | split

theorem State.endStep3_frame (kind) (s : State) : Frame [.pins, .ret, .boot, .flashA, .flashB, .log, .trans, .sb] s (State.endStep3 kind s) := by
  unfold State.endStep3
  try dsimp only
  repeat' first
    | with_reducible assumption
    | with_reducible apply Frame.refl
    | with_reducible refine Frame.ite (fun _ => ?_) (fun _ => ?_)
    | with_reducible apply Frame.foldl
    | with_reducible apply Frame.foldl_fst
    | with_reducible apply Frame.after (State.firstTables_frame _)
    | with_reducible apply Frame.after (State.logEvent_frame _ _ _ _ _ _)
    | decide
    | intro _ _ _
    | fail_if_no_progress (refine Frame.upd ?_)
    | split

theorem State.coreQuorum_frame (s : State) : Frame [.ret, .cause, .flashA, .flashB, .log, .flt, .host, .cmds, .stop] s (State.coreQuorum s) := by
  unfold State.coreQuorum
  try dsimp only
  repeat' first
    | with_reducible assumption
    | with_reducible apply Frame.refl
    | with_reducible refine Frame.ite (fun _ => ?_) (fun _ => ?_)
    | with_reducible apply Frame.foldl
    | with_reducible apply Frame.foldl_fst
    | with_reducible apply Frame.after (State.raise_quiet (by first | with_reducible exact calm_src (by decide) (by decide) | with_reducible exact calm_bundle _ (by decide) | with_reducible exact calm_access (by assumption) | with_reducible exact calm_unmapped (by assumption) | with_reducible exact calm_scu _ | with_reducible exact calm_unmappedSource _))
    | with_reducible apply Frame.after (State.raise_frame _ _ _)
    | decide
    | intro _ _ _
    | fail_if_no_progress (refine Frame.upd ?_)
    | split

theorem State.coldStart_keeps (katOk idA idB) (s : State) : Keeps s (State.coldStart katOk idA idB s) := by
  unfold State.coldStart
  dsimp only
  refine Keeps.trans ?_ ((State.coreQuorum_frame ..).keeps (by decide))
  refine Keeps.trans ?_ ((State.endStep3_frame ..).keeps (by decide))
  refine Keeps.trans ?_ ((State.foretell_frame ..).keeps (by decide))
  refine Keeps.trans ?_ ((State.reraise_frame ..).keeps (by decide))
  refine Keeps.trans ?_ (rebuilt_keeps ..)
  refine Keeps.trans ?_ ((State.logCause_frame ..).keeps (by decide))
  refine Keeps.trans ?_ ((State.retireEighths_frame ..).keeps (by decide))
  refine Keeps.trans ?_ ((State.endStates_frame ..).keeps (by decide))
  refine Keeps.trans ?_ ((Frame.upd (ps := [.ret]) (Frame.refl _ _)).keeps (by decide))
  refine Keeps.trans ?_ ((State.settleSecurity_frame ..).keeps (by decide))
  refine Keeps.trans ?_ ((State.settleFlash_frame ..).keeps (by decide))
  exact ⟨rfl, fun _ => ⟨by rfl, by rfl, by rfl, by rfl, by rfl, by rfl, by rfl, by rfl, fun _ => rfl⟩⟩

theorem State.softReset_keeps (kind keepLink keepConfig) (s : State) : Keeps s (State.softReset kind keepLink keepConfig s) := by
  unfold State.softReset
  dsimp only
  refine Keeps.trans ?_ ((State.coreQuorum_frame ..).keeps (by decide))
  refine Keeps.trans ?_ ((State.endStep3_frame ..).keeps (by decide))
  refine Keeps.trans ?_ ((State.reraise_frame ..).keeps (by decide))
  have k : ∀ u : State, Keeps u (State.rebuild false keepLink keepConfig ((u.endStates).retireEighths s.ret.faultList)) := fun u =>
    (((State.endStates_frame ..).keeps (by decide)).trans ((State.retireEighths_frame ..).keeps (by decide))).trans (State.rebuild_keeps ..)
  have h0 : ∀ a b : Flash, Keeps s ({ s with flashA := a, flashB := b } : State) := fun a b =>
    (Frame.upd (ps := [.flashA, .flashB]) (Frame.refl _ s)).keeps (by decide)
  have w : ∀ {u : State} {es : List Engine}, Keeps s u → (Inv s → es.length = 24) → Keeps s ({ u with engines := es } : State) := fun h l =>
    ⟨h.pending, fun i0 => let i := h.inv i0; ⟨i.memory, i.tiles, i.hubBundles, l i0, i.els, i.cxl, i.models, i.scu, i.down⟩⟩
  split
  · split
    · exact w ((h0 _ _).trans (k _)) (fun i => by simp [State.rebuild, i.engines])
    · exact (h0 _ _).trans (k _)
  · refine ((h0 _ _).trans (k _)).trans ⟨rfl, fun i => ⟨i.memory, i.tiles, i.hubBundles, i.engines, i.els, i.cxl, i.models, i.scu, fun _ => rfl⟩⟩

end Sys2Proof.Machine
end

