-- ==== Sys2Proof/Laws/Space.lean ====
section
/-! SUPPORT. What each operation of Machine/Space.lean can change: one frame each. -/

set_option Elab.async false
namespace Sys2Proof.Machine

theorem State.modSession_frame (i) (f) (s : State) : Frame [.sessions] s (State.modSession i f s) := by
  unfold State.modSession
  try dsimp only
  repeat' first
    | with_reducible assumption
    | with_reducible apply Frame.refl
    | with_reducible refine Frame.ite (fun _ => ?_) (fun _ => ?_)
    | with_reducible apply Frame.foldl
    | with_reducible apply Frame.foldl_fst
    | decide
    | intro _ _ _
    | fail_if_no_progress (refine Frame.upd ?_)
    | split

theorem State.modModel_frame (i) (f) (s : State) : Frame [.models] s (State.modModel i f s) := by
  unfold State.modModel
  try dsimp only
  repeat' first
    | with_reducible assumption
    | with_reducible apply Frame.refl
    | with_reducible refine Frame.ite (fun _ => ?_) (fun _ => ?_)
    | with_reducible apply Frame.foldl
    | with_reducible apply Frame.foldl_fst
    | decide
    | intro _ _ _
    | fail_if_no_progress (refine Frame.upd ?_)
    | split

theorem State.dropLaunch_frame (cid) (s : State) : Frame [.cel, .launches] s (State.dropLaunch cid s) := by
  unfold State.dropLaunch
  try dsimp only
  repeat' first
    | with_reducible assumption
    | with_reducible apply Frame.refl
    | with_reducible refine Frame.ite (fun _ => ?_) (fun _ => ?_)
    | with_reducible apply Frame.foldl
    | with_reducible apply Frame.foldl_fst
    | decide
    | intro _ _ _
    | fail_if_no_progress (refine Frame.upd ?_)
    | split

theorem State.requeueUnits_frame (n) (s : State) : Frame [.cel] s (State.requeueUnits n s) := by
  unfold State.requeueUnits
  try dsimp only
  repeat' first
    | with_reducible assumption
    | with_reducible apply Frame.refl
    | with_reducible refine Frame.ite (fun _ => ?_) (fun _ => ?_)
    | with_reducible apply Frame.foldl
    | with_reducible apply Frame.foldl_fst
    | decide
    | intro _ _ _
    | fail_if_no_progress (refine Frame.upd ?_)
    | split

theorem State.loseStripes_frame (pl) (s : State) : Frame [.models] s (State.loseStripes pl s) := by
  unfold State.loseStripes
  try dsimp only
  repeat' first
    | with_reducible assumption
    | with_reducible apply Frame.refl
    | with_reducible refine Frame.ite (fun _ => ?_) (fun _ => ?_)
    | with_reducible apply Frame.foldl
    | with_reducible apply Frame.foldl_fst
    | decide
    | intro _ _ _
    | fail_if_no_progress (refine Frame.upd ?_)
    | split

theorem State.loseMoves_frame (pl) (s : State) : Frame [.cel] s (State.loseMoves pl s) := by
  unfold State.loseMoves
  try dsimp only
  repeat' first
    | with_reducible assumption
    | with_reducible apply Frame.refl
    | with_reducible refine Frame.ite (fun _ => ?_) (fun _ => ?_)
    | with_reducible apply Frame.foldl
    | with_reducible apply Frame.foldl_fst
    | decide
    | intro _ _ _
    | fail_if_no_progress (refine Frame.upd ?_)
    | split

theorem State.loseBytes_frame (base) (len) (s : State) : Frame [.mem, .bytes] s (State.loseBytes base len s) := by
  unfold State.loseBytes
  try dsimp only
  repeat' first
    | with_reducible assumption
    | with_reducible apply Frame.refl
    | with_reducible refine Frame.ite (fun _ => ?_) (fun _ => ?_)
    | with_reducible apply Frame.foldl
    | with_reducible apply Frame.foldl_fst
    | decide
    | intro _ _ _
    | fail_if_no_progress (refine Frame.upd ?_)
    | split

theorem State.modCxl_frame (p) (f) (s : State) : Frame [.cxl] s (State.modCxl p f s) := by
  unfold State.modCxl
  try dsimp only
  repeat' first
    | with_reducible assumption
    | with_reducible apply Frame.refl
    | with_reducible refine Frame.ite (fun _ => ?_) (fun _ => ?_)
    | with_reducible apply Frame.foldl
    | with_reducible apply Frame.foldl_fst
    | decide
    | intro _ _ _
    | fail_if_no_progress (refine Frame.upd ?_)
    | split

theorem State.noteGen_frame (kind) (gen) (s : State) : Frame [.ret] s (State.noteGen kind gen s) := by
  unfold State.noteGen
  try dsimp only
  repeat' first
    | with_reducible assumption
    | with_reducible apply Frame.refl
    | with_reducible refine Frame.ite (fun _ => ?_) (fun _ => ?_)
    | with_reducible apply Frame.foldl
    | with_reducible apply Frame.foldl_fst
    | decide
    | intro _ _ _
    | fail_if_no_progress (refine Frame.upd ?_)
    | split

/-- The report of a failed access, from a source that is no S3 source. -/
theorem State.reportAccess_quiet {src : Nat} {l : List Extent} {cids : List Nat} (h : severityOf src ≠ 3) {s : State} :
    Frame [.ret, .cause, .flashA, .flashB, .log, .flt, .host, .cmds, .mem] s (State.reportAccess src l cids s) := by
  unfold State.reportAccess
  refine Frame.ite (fun _ => Frame.refl _ _) (fun _ => Frame.ite (fun _ => ?_) (fun _ => (State.raiseOn_quiet h).mono (by decide)))
  exact Frame.after (State.raiseOn_quiet h) (by decide) (Frame.upd (Frame.refl _ s))

theorem State.requeueRuns_frame (n) (s : State) : Frame [.cel] s (State.requeueRuns n s) := by
  unfold State.requeueRuns
  try dsimp only
  repeat' first
    | with_reducible assumption
    | with_reducible apply Frame.refl
    | with_reducible refine Frame.ite (fun _ => ?_) (fun _ => ?_)
    | with_reducible apply Frame.foldl
    | with_reducible apply Frame.foldl_fst
    | decide
    | intro _ _ _
    | fail_if_no_progress (refine Frame.upd ?_)
    | split

theorem State.settleEpoch_frame (k) (s : State) : Frame [.models] s (State.settleEpoch k s) := by
  unfold State.settleEpoch
  try dsimp only
  repeat' first
    | with_reducible assumption
    | with_reducible apply Frame.refl
    | with_reducible refine Frame.ite (fun _ => ?_) (fun _ => ?_)
    | with_reducible apply Frame.foldl
    | with_reducible apply Frame.foldl_fst
    | with_reducible apply Frame.after (State.modModel_frame _ _ _)
    | decide
    | intro _ _ _
    | fail_if_no_progress (refine Frame.upd ?_)
    | split

theorem State.dropRun_frame (cid) (s : State) : Frame [.cel, .models, .sessions, .runs, .trans] s (State.dropRun cid s) := by
  unfold State.dropRun
  try dsimp only
  repeat' first
    | with_reducible assumption
    | with_reducible apply Frame.refl
    | with_reducible refine Frame.ite (fun _ => ?_) (fun _ => ?_)
    | with_reducible apply Frame.foldl
    | with_reducible apply Frame.foldl_fst
    | with_reducible apply Frame.after (State.settleEpoch_frame _ _)
    | decide
    | intro _ _ _
    | fail_if_no_progress (refine Frame.upd ?_)
    | split

theorem State.dropSession_frame (i) (s : State) : Frame [.cel, .models, .sessions, .sessionGen, .migs] s (State.dropSession i s) := by
  unfold State.dropSession
  try dsimp only
  repeat' first
    | with_reducible assumption
    | with_reducible apply Frame.refl
    | with_reducible refine Frame.ite (fun _ => ?_) (fun _ => ?_)
    | with_reducible apply Frame.foldl
    | with_reducible apply Frame.foldl_fst
    | with_reducible apply Frame.after (State.settleEpoch_frame _ _)
    | decide
    | intro _ _ _
    | fail_if_no_progress (refine Frame.upd ?_)
    | split

theorem State.joinQueue_frame (c) (s : State) : Frame [.sessions] s (State.joinQueue c s) := by
  unfold State.joinQueue
  try dsimp only
  repeat' first
    | with_reducible assumption
    | with_reducible apply Frame.refl
    | with_reducible refine Frame.ite (fun _ => ?_) (fun _ => ?_)
    | with_reducible apply Frame.foldl
    | with_reducible apply Frame.foldl_fst
    | with_reducible apply Frame.after (State.modSession_frame _ _ _)
    | decide
    | intro _ _ _
    | fail_if_no_progress (refine Frame.upd ?_)
    | split

theorem State.settleHeld_frame (cid) (s : State) : Frame [.models] s (State.settleHeld cid s) := by
  unfold State.settleHeld
  try dsimp only
  repeat' first
    | with_reducible assumption
    | with_reducible apply Frame.refl
    | with_reducible refine Frame.ite (fun _ => ?_) (fun _ => ?_)
    | with_reducible apply Frame.foldl
    | with_reducible apply Frame.foldl_fst
    | with_reducible apply Frame.after (State.settleEpoch_frame _ _)
    | decide
    | intro _ _ _
    | fail_if_no_progress (refine Frame.upd ?_)
    | split

theorem State.failWork_frame (cid) (status) (source) (s : State) : Frame [.cel, .cmds, .models, .sessions, .runs, .launches, .trans] s (State.failWork cid status source s) := by
  unfold State.failWork
  try dsimp only
  repeat' first
    | with_reducible assumption
    | with_reducible apply Frame.refl
    | with_reducible refine Frame.ite (fun _ => ?_) (fun _ => ?_)
    | with_reducible apply Frame.foldl
    | with_reducible apply Frame.foldl_fst
    | with_reducible apply Frame.after (State.dropLaunch_frame _ _)
    | with_reducible apply Frame.after (State.settleHeld_frame _ _)
    | with_reducible apply Frame.after (State.dropRun_frame _ _)
    | with_reducible apply Frame.after (State.endWork_frame _ _ _ _)
    | decide
    | intro _ _ _
    | fail_if_no_progress (refine Frame.upd ?_)
    | split

theorem State.suspectLaunches_frame (n) (source) (s : State) : Frame [.cel, .cmds, .models, .sessions, .runs, .launches, .trans] s (State.suspectLaunches n source s) := by
  unfold State.suspectLaunches
  try dsimp only
  repeat' first
    | with_reducible assumption
    | with_reducible apply Frame.refl
    | with_reducible refine Frame.ite (fun _ => ?_) (fun _ => ?_)
    | with_reducible apply Frame.foldl
    | with_reducible apply Frame.foldl_fst
    | with_reducible apply Frame.after (State.failWork_frame _ _ _ _)
    | decide
    | intro _ _ _
    | fail_if_no_progress (refine Frame.upd ?_)
    | split

theorem State.breakSession_frame (status) (source) (i) (s : State) : Frame [.cel, .cmds, .models, .sessions, .sessionGen, .migs, .runs, .launches, .trans] s (State.breakSession status source i s) := by
  unfold State.breakSession
  try dsimp only
  repeat' first
    | with_reducible assumption
    | with_reducible apply Frame.refl
    | with_reducible refine Frame.ite (fun _ => ?_) (fun _ => ?_)
    | with_reducible apply Frame.foldl
    | with_reducible apply Frame.foldl_fst
    | with_reducible apply Frame.after (State.dropSession_frame _ _)
    | with_reducible apply Frame.after (State.modSession_frame _ _ _)
    | with_reducible apply Frame.after (State.failWork_frame _ _ _ _)
    | with_reducible apply Frame.after (State.failCmd_frame _ _ _ _)
    | decide
    | intro _ _ _
    | fail_if_no_progress (refine Frame.upd ?_)
    | split

theorem State.modRun_frame (cid) (f) (s : State) : Frame [.runs] s (State.modRun cid f s) := by
  unfold State.modRun
  try dsimp only
  repeat' first
    | with_reducible assumption
    | with_reducible apply Frame.refl
    | with_reducible refine Frame.ite (fun _ => ?_) (fun _ => ?_)
    | with_reducible apply Frame.foldl
    | with_reducible apply Frame.foldl_fst
    | decide
    | intro _ _ _
    | fail_if_no_progress (refine Frame.upd ?_)
    | split

theorem State.blame_frame (cid) (hit) (status) (source) (s : State) : Frame [.runs] s (State.blame cid hit status source s) := by
  unfold State.blame
  try dsimp only
  repeat' first
    | with_reducible assumption
    | with_reducible apply Frame.refl
    | with_reducible refine Frame.ite (fun _ => ?_) (fun _ => ?_)
    | with_reducible apply Frame.foldl
    | with_reducible apply Frame.foldl_fst
    | with_reducible apply Frame.after (State.modRun_frame _ _ _)
    | decide
    | intro _ _ _
    | fail_if_no_progress (refine Frame.upd ?_)
    | split

theorem State.blameSite_frame (cid) (n) (status) (source) (s : State) : Frame [.runs] s (State.blameSite cid n status source s) := by
  unfold State.blameSite
  try dsimp only
  repeat' first
    | with_reducible assumption
    | with_reducible apply Frame.refl
    | with_reducible refine Frame.ite (fun _ => ?_) (fun _ => ?_)
    | with_reducible apply Frame.foldl
    | with_reducible apply Frame.foldl_fst
    | with_reducible apply Frame.after (State.modRun_frame _ _ _)
    | decide
    | intro _ _ _
    | fail_if_no_progress (refine Frame.upd ?_)
    | split

theorem State.blameBlocks_frame (p) (status) (source) (s : State) : Frame [.runs] s (State.blameBlocks p status source s) := by
  unfold State.blameBlocks
  try dsimp only
  repeat' first
    | with_reducible assumption
    | with_reducible apply Frame.refl
    | with_reducible refine Frame.ite (fun _ => ?_) (fun _ => ?_)
    | with_reducible apply Frame.foldl
    | with_reducible apply Frame.foldl_fst
    | with_reducible apply Frame.after (State.blame_frame _ _ _ _ _)
    | decide
    | intro _ _ _
    | fail_if_no_progress (refine Frame.upd ?_)
    | split

theorem State.loseBlocks_frame (pl) (status) (source) (s : State) : Frame [.cel, .cmds, .models, .sessions, .sessionGen, .migs, .runs, .launches, .trans] s (State.loseBlocks pl status source s) := by
  unfold State.loseBlocks
  try dsimp only
  repeat' first
    | with_reducible assumption
    | with_reducible apply Frame.refl
    | with_reducible refine Frame.ite (fun _ => ?_) (fun _ => ?_)
    | with_reducible apply Frame.foldl
    | with_reducible apply Frame.foldl_fst
    | with_reducible apply Frame.after (State.breakSession_frame _ _ _ _)
    | with_reducible apply Frame.after (State.blameBlocks_frame _ _ _ _)
    | decide
    | intro _ _ _
    | fail_if_no_progress (refine Frame.upd ?_)
    | split

theorem State.failNeeding_frame (pl) (source) (s : State) : Frame [.cel, .cmds, .models, .sessions, .runs, .launches, .trans] s (State.failNeeding pl source s) := by
  unfold State.failNeeding
  try dsimp only
  repeat' first
    | with_reducible assumption
    | with_reducible apply Frame.refl
    | with_reducible refine Frame.ite (fun _ => ?_) (fun _ => ?_)
    | with_reducible apply Frame.foldl
    | with_reducible apply Frame.foldl_fst
    | with_reducible apply Frame.after (State.failWork_frame _ _ _ _)
    | with_reducible apply Frame.after (State.blame_frame _ _ _ _ _)
    | decide
    | intro _ _ _
    | fail_if_no_progress (refine Frame.upd ?_)
    | split

theorem State.loseSite_frame (n) (source) (s : State) : Frame [.cel, .cmds, .mem, .bytes, .models, .sessions, .sessionGen, .migs, .runs, .launches, .trans] s (State.loseSite n source s) := by
  unfold State.loseSite
  try dsimp only
  repeat' first
    | with_reducible assumption
    | with_reducible apply Frame.refl
    | with_reducible refine Frame.ite (fun _ => ?_) (fun _ => ?_)
    | with_reducible apply Frame.foldl
    | with_reducible apply Frame.foldl_fst
    | with_reducible apply Frame.after (State.failNeeding_frame _ _ _)
    | with_reducible apply Frame.after (State.loseStripes_frame _ _)
    | with_reducible apply Frame.after (State.loseBlocks_frame _ _ _ _)
    | with_reducible apply Frame.after (State.loseBytes_frame _ _ _)
    | with_reducible apply Frame.after (State.loseMoves_frame _ _)
    | decide
    | intro _ _ _
    | fail_if_no_progress (refine Frame.upd ?_)
    | split

theorem State.losePort_frame (p) (source) (s : State) : Frame [.cel, .cmds, .mem, .bytes, .models, .sessions, .sessionGen, .migs, .runs, .launches, .trans] s (State.losePort p source s) := by
  unfold State.losePort
  try dsimp only
  repeat' first
    | with_reducible assumption
    | with_reducible apply Frame.refl
    | with_reducible refine Frame.ite (fun _ => ?_) (fun _ => ?_)
    | with_reducible apply Frame.foldl
    | with_reducible apply Frame.foldl_fst
    | with_reducible apply Frame.after (State.failNeeding_frame _ _ _)
    | with_reducible apply Frame.after (State.loseStripes_frame _ _)
    | with_reducible apply Frame.after (State.loseBlocks_frame _ _ _ _)
    | with_reducible apply Frame.after (State.loseBytes_frame _ _ _)
    | with_reducible apply Frame.after (State.loseMoves_frame _ _)
    | decide
    | intro _ _ _
    | fail_if_no_progress (refine Frame.upd ?_)
    | split

theorem State.cacheCheck_frame (n) (g) (written) (s : State) : Frame [.mem] s (State.cacheCheck n g written s) := by
  unfold State.cacheCheck
  try dsimp only
  repeat' first
    | with_reducible assumption
    | with_reducible apply Frame.refl
    | with_reducible refine Frame.ite (fun _ => ?_) (fun _ => ?_)
    | with_reducible apply Frame.foldl
    | with_reducible apply Frame.foldl_fst
    | decide
    | intro _ _ _
    | fail_if_no_progress (refine Frame.upd ?_)
    | split

theorem State.touchExtent_frame (write) (e) (s : State) : Frame [.mem] s (State.touchExtent write e s) := by
  unfold State.touchExtent
  try dsimp only
  repeat' first
    | with_reducible assumption
    | with_reducible apply Frame.refl
    | with_reducible refine Frame.ite (fun _ => ?_) (fun _ => ?_)
    | with_reducible apply Frame.foldl
    | with_reducible apply Frame.foldl_fst
    | with_reducible apply Frame.after (State.cacheCheck_frame _ _ _ _)
    | decide
    | intro _ _ _
    | fail_if_no_progress (refine Frame.upd ?_)
    | split

theorem State.touch_frame (write) (l) (s : State) : Frame [.mem] s (State.touch write l s) := by
  unfold State.touch
  try dsimp only
  repeat' first
    | with_reducible assumption
    | with_reducible apply Frame.refl
    | with_reducible refine Frame.ite (fun _ => ?_) (fun _ => ?_)
    | with_reducible apply Frame.foldl
    | with_reducible apply Frame.foldl_fst
    | with_reducible apply Frame.after (State.touchExtent_frame _ _ _)
    | decide
    | intro _ _ _
    | fail_if_no_progress (refine Frame.upd ?_)
    | split

theorem State.overwrite_frame (l) (s : State) : Frame [.mem] s (State.overwrite l s) := by
  unfold State.overwrite
  try dsimp only
  repeat' first
    | with_reducible assumption
    | with_reducible apply Frame.refl
    | with_reducible refine Frame.ite (fun _ => ?_) (fun _ => ?_)
    | with_reducible apply Frame.foldl
    | with_reducible apply Frame.foldl_fst
    | with_reducible apply Frame.after (State.touch_frame _ _ _)
    | decide
    | intro _ _ _
    | fail_if_no_progress (refine Frame.upd ?_)
    | split

theorem State.writeMem_frame (l) (v) (s : State) : Frame [.mem, .bytes] s (State.writeMem l v s) := by
  unfold State.writeMem
  try dsimp only
  repeat' first
    | with_reducible assumption
    | with_reducible apply Frame.refl
    | with_reducible refine Frame.ite (fun _ => ?_) (fun _ => ?_)
    | with_reducible apply Frame.foldl
    | with_reducible apply Frame.foldl_fst
    | with_reducible apply Frame.after (State.overwrite_frame _ _)
    | decide
    | intro _ _ _
    | fail_if_no_progress (refine Frame.upd ?_)
    | split

end Sys2Proof.Machine
end

