-- ==== Sys2Proof/Laws/Sites.lean ====
section
/-! SUPPORT. What each operation of Machine/Sites.lean can change: one frame each. -/

set_option Elab.async false
namespace Sys2Proof.Machine

theorem State.takeSpare_frame (lost) (role) (left) (s : State) : Frame [.pins, .ret, .cause, .flashA, .flashB, .log, .svc, .tiles, .host] s (State.takeSpare lost role left s) := by
  unfold State.takeSpare
  try dsimp only
  repeat' first
    | with_reducible assumption
    | with_reducible apply Frame.refl
    | with_reducible refine Frame.ite (fun _ => ?_) (fun _ => ?_)
    | with_reducible apply Frame.foldl
    | with_reducible apply Frame.foldl_fst
    | with_reducible apply Frame.after (State.raiseService_frame _ _ _ _ _ _)
    | with_reducible apply Frame.after (State.modTile_frame _ _ _)
    | decide
    | intro _ _ _
    | fail_if_no_progress (refine Frame.upd ?_)
    | split

theorem State.faceDown_frame (n) (s : State) : Frame [.tiles, .hubBundles, .engines, .trans] s (State.faceDown n s) := by
  unfold State.faceDown
  try dsimp only
  repeat' first
    | with_reducible assumption
    | with_reducible apply Frame.refl
    | with_reducible refine Frame.ite (fun _ => ?_) (fun _ => ?_)
    | with_reducible apply Frame.foldl
    | with_reducible apply Frame.foldl_fst
    | with_reducible apply Frame.after (State.modBundle_frame _ _ _)
    | with_reducible apply Frame.after (State.sendHome_frame _ _)
    | decide
    | intro _ _ _
    | fail_if_no_progress (refine Frame.upd ?_)
    | split

theorem State.startDrain_frame (n) (s : State) : Frame [.tiles] s (State.startDrain n s) := by
  unfold State.startDrain
  try dsimp only
  repeat' first
    | with_reducible assumption
    | with_reducible apply Frame.refl
    | with_reducible refine Frame.ite (fun _ => ?_) (fun _ => ?_)
    | with_reducible apply Frame.foldl
    | with_reducible apply Frame.foldl_fst
    | with_reducible apply Frame.after (State.modTile_frame _ _ _)
    | decide
    | intro _ _ _
    | fail_if_no_progress (refine Frame.upd ?_)
    | split

theorem State.handOver_frame (b) (s : State) : Frame [.tiles, .hubBundles, .engines, .trans] s (State.handOver b s) := by
  unfold State.handOver
  try dsimp only
  repeat' first
    | with_reducible assumption
    | with_reducible apply Frame.refl
    | with_reducible refine Frame.ite (fun _ => ?_) (fun _ => ?_)
    | with_reducible apply Frame.foldl
    | with_reducible apply Frame.foldl_fst
    | with_reducible apply Frame.after (State.modBundle_frame _ _ _)
    | with_reducible apply Frame.after (State.sendHome_frame _ _)
    | decide
    | intro _ _ _
    | fail_if_no_progress (refine Frame.upd ?_)
    | split

theorem State.distrustStripes_frame (n) (s : State) : Frame [.models] s (State.distrustStripes n s) := by
  unfold State.distrustStripes
  try dsimp only
  repeat' first
    | with_reducible assumption
    | with_reducible apply Frame.refl
    | with_reducible refine Frame.ite (fun _ => ?_) (fun _ => ?_)
    | with_reducible apply Frame.foldl
    | with_reducible apply Frame.foldl_fst
    | decide
    | intro _ _ _
    | fail_if_no_progress (refine Frame.upd ?_)
    | split

theorem State.loseQueues_frame (n) (s : State) : Frame [.trans] s (State.loseQueues n s) := by
  unfold State.loseQueues
  try dsimp only
  repeat' first
    | with_reducible assumption
    | with_reducible apply Frame.refl
    | with_reducible refine Frame.ite (fun _ => ?_) (fun _ => ?_)
    | with_reducible apply Frame.foldl
    | with_reducible apply Frame.foldl_fst
    | decide
    | intro _ _ _
    | fail_if_no_progress (refine Frame.upd ?_)
    | split

theorem State.isolateSite_frame (n) (s : State) : Frame [.pins, .ret, .cause, .flashA, .flashB, .log, .flt, .svc, .tiles, .hubBundles, .engines, .cel, .host, .cmds, .mem, .bytes, .models, .sessions, .sessionGen, .migs, .runs, .launches, .trans] s (State.isolateSite n s) := by
  unfold State.isolateSite
  try dsimp only
  repeat' first
    | with_reducible assumption
    | with_reducible apply Frame.refl
    | with_reducible refine Frame.ite (fun _ => ?_) (fun _ => ?_)
    | with_reducible apply Frame.foldl
    | with_reducible apply Frame.foldl_fst
    | with_reducible apply Frame.after (State.suspectLaunches_frame _ _ _)
    | with_reducible apply Frame.after (State.assignStreams_frame _)
    | with_reducible apply Frame.after (State.requeueUnits_frame _ _)
    | with_reducible apply Frame.after (State.loseQueues_frame _ _)
    | with_reducible apply Frame.after (State.engineOut_frame _ _ _)
    | with_reducible apply Frame.after (State.putMirror_frame _ _)
    | with_reducible apply Frame.after (State.takeSpare_frame _ _ _ _)
    | with_reducible apply Frame.after (State.faceDown_frame _ _)
    | with_reducible apply Frame.after (State.logEvent_frame _ _ _ _ _ _)
    | with_reducible apply Frame.after (State.loseSite_frame _ _ _)
    | with_reducible apply Frame.after (State.modTile_frame _ _ _)
    | with_reducible apply Frame.after (State.retable_frame _)
    | with_reducible apply Frame.after (State.raise_quiet (by first | with_reducible exact calm_src (by decide) (by decide) | with_reducible exact calm_bundle _ (by decide) | with_reducible exact calm_access (by assumption) | with_reducible exact calm_unmapped (by assumption) | with_reducible exact calm_scu _ | with_reducible exact calm_unmappedSource _))
    | with_reducible apply Frame.after (State.retry_frame _)
    | decide
    | intro _ _ _
    | fail_if_no_progress (refine Frame.upd ?_)
    | split

theorem State.retireBundle_frame (b) (s : State) : Frame [.pins, .ret, .cause, .flashA, .flashB, .log, .flt, .svc, .tiles, .hubBundles, .engines, .cel, .host, .cmds, .mem, .bytes, .models, .sessions, .sessionGen, .migs, .runs, .launches, .trans] s (State.retireBundle b s) := by
  unfold State.retireBundle
  try dsimp only
  repeat' first
    | with_reducible assumption
    | with_reducible apply Frame.refl
    | with_reducible refine Frame.ite (fun _ => ?_) (fun _ => ?_)
    | with_reducible apply Frame.foldl
    | with_reducible apply Frame.foldl_fst
    | with_reducible apply Frame.after (State.raiseService_frame _ _ _ _ _ _)
    | with_reducible apply Frame.after (State.isolateSite_frame _ _)
    | with_reducible apply Frame.after (State.engineOut_frame _ _ _)
    | with_reducible apply Frame.after (State.modBundle_frame _ _ _)
    | with_reducible apply Frame.after (State.putMirror_frame _ _)
    | with_reducible apply Frame.after (State.handOver_frame _ _)
    | with_reducible apply Frame.after (State.logEvent_frame _ _ _ _ _ _)
    | with_reducible apply Frame.after (State.retable_frame _)
    | with_reducible apply Frame.after (State.raise_quiet (by first | with_reducible exact calm_src (by decide) (by decide) | with_reducible exact calm_bundle _ (by decide) | with_reducible exact calm_access (by assumption) | with_reducible exact calm_unmapped (by assumption) | with_reducible exact calm_scu _ | with_reducible exact calm_unmappedSource _))
    | decide
    | intro _ _ _
    | fail_if_no_progress (refine Frame.upd ?_)
    | split

theorem State.saveCluster_frame (n) (cid) (index) (s : State) : Frame [.mem, .launches] s (State.saveCluster n cid index s) := by
  unfold State.saveCluster
  try dsimp only
  repeat' first
    | with_reducible assumption
    | with_reducible apply Frame.refl
    | with_reducible refine Frame.ite (fun _ => ?_) (fun _ => ?_)
    | with_reducible apply Frame.foldl
    | with_reducible apply Frame.foldl_fst
    | with_reducible apply Frame.after (State.overwrite_frame _ _)
    | decide
    | intro _ _ _
    | fail_if_no_progress (refine Frame.upd ?_)
    | split

theorem State.saveClusters_frame (n) (s : State) : Frame [.mem, .launches] s (State.saveClusters n s) := by
  unfold State.saveClusters
  try dsimp only
  repeat' first
    | with_reducible assumption
    | with_reducible apply Frame.refl
    | with_reducible refine Frame.ite (fun _ => ?_) (fun _ => ?_)
    | with_reducible apply Frame.foldl
    | with_reducible apply Frame.foldl_fst
    | with_reducible apply Frame.after (State.saveCluster_frame _ _ _ _)
    | decide
    | intro _ _ _
    | fail_if_no_progress (refine Frame.upd ?_)
    | split

theorem State.firstRoles_frame (s : State) : Frame [.tiles] s (State.firstRoles s) := by
  unfold State.firstRoles
  try dsimp only
  repeat' first
    | with_reducible assumption
    | with_reducible apply Frame.refl
    | with_reducible refine Frame.ite (fun _ => ?_) (fun _ => ?_)
    | with_reducible apply Frame.foldl
    | with_reducible apply Frame.foldl_fst
    | with_reducible apply Frame.after (State.modTile_frame _ _ _)
    | decide
    | intro _ _ _
    | fail_if_no_progress (refine Frame.upd ?_)
    | split

theorem State.darken_frame (n) (s : State) : Frame [.pins, .ret, .cause, .flashA, .flashB, .log, .svc, .tiles, .cel, .host] s (State.darken n s) := by
  unfold State.darken
  try dsimp only
  repeat' first
    | with_reducible assumption
    | with_reducible apply Frame.refl
    | with_reducible refine Frame.ite (fun _ => ?_) (fun _ => ?_)
    | with_reducible apply Frame.foldl
    | with_reducible apply Frame.foldl_fst
    | with_reducible apply Frame.after (State.assignStreams_frame _)
    | with_reducible apply Frame.after (State.takeSpare_frame _ _ _ _)
    | with_reducible apply Frame.after (State.modTile_frame _ _ _)
    | decide
    | intro _ _ _
    | fail_if_no_progress (refine Frame.upd ?_)
    | split

theorem State.retireSite_frame (n) (s : State) : Frame [.pins, .ret, .cause, .flashA, .flashB, .log, .flt, .svc, .tiles, .cel, .host, .cmds] s (State.retireSite n s) := by
  unfold State.retireSite
  try dsimp only
  repeat' first
    | with_reducible assumption
    | with_reducible apply Frame.refl
    | with_reducible refine Frame.ite (fun _ => ?_) (fun _ => ?_)
    | with_reducible apply Frame.foldl
    | with_reducible apply Frame.foldl_fst
    | with_reducible apply Frame.after (State.putMirror_frame _ _)
    | with_reducible apply Frame.after (State.logEvent_frame _ _ _ _ _ _)
    | with_reducible apply Frame.after (State.modTile_frame _ _ _)
    | with_reducible apply Frame.after (State.darken_frame _ _)
    | with_reducible apply Frame.after (State.raise_quiet (by first | with_reducible exact calm_src (by decide) (by decide) | with_reducible exact calm_bundle _ (by decide) | with_reducible exact calm_access (by assumption) | with_reducible exact calm_unmapped (by assumption) | with_reducible exact calm_scu _ | with_reducible exact calm_unmappedSource _))
    | decide
    | intro _ _ _
    | fail_if_no_progress (refine Frame.upd ?_)
    | split

theorem State.retireTile_frame (n) (routerOk) (s : State) : Frame [.pins, .ret, .cause, .flashA, .flashB, .log, .flt, .svc, .tiles, .hubBundles, .engines, .cel, .host, .cmds, .mem, .bytes, .models, .sessions, .sessionGen, .migs, .runs, .launches, .trans] s (State.retireTile n routerOk s) := by
  unfold State.retireTile
  try dsimp only
  repeat' first
    | with_reducible assumption
    | with_reducible apply Frame.refl
    | with_reducible refine Frame.ite (fun _ => ?_) (fun _ => ?_)
    | with_reducible apply Frame.foldl
    | with_reducible apply Frame.foldl_fst
    | with_reducible apply Frame.after (State.isolateSite_frame _ _)
    | with_reducible apply Frame.after (State.retireSite_frame _ _)
    | decide
    | intro _ _ _
    | fail_if_no_progress (refine Frame.upd ?_)
    | split

theorem State.retireCell_frame (n) (k) (source) (s : State) : Frame [.pins, .ret, .cause, .flashA, .flashB, .log, .flt, .svc, .tiles, .hubBundles, .engines, .cel, .host, .cmds, .mem, .bytes, .models, .sessions, .sessionGen, .migs, .runs, .launches, .trans] s (State.retireCell n k source s) := by
  unfold State.retireCell
  try dsimp only
  repeat' first
    | with_reducible assumption
    | with_reducible apply Frame.refl
    | with_reducible refine Frame.ite (fun _ => ?_) (fun _ => ?_)
    | with_reducible apply Frame.foldl
    | with_reducible apply Frame.foldl_fst
    | with_reducible apply Frame.after (State.raiseService_frame _ _ _ _ _ _)
    | with_reducible apply Frame.after (State.retireTile_frame _ _ _)
    | with_reducible apply Frame.after (State.putMirror_frame _ _)
    | with_reducible apply Frame.after (State.logEvent_frame _ _ _ _ _ _)
    | with_reducible apply Frame.after (State.modTile_frame _ _ _)
    | decide
    | intro _ _ _
    | fail_if_no_progress (refine Frame.upd ?_)
    | split

theorem State.endInjection_frame (s : State) : Frame [.flt] s (State.endInjection s) := by
  unfold State.endInjection
  try dsimp only
  repeat' first
    | with_reducible assumption
    | with_reducible apply Frame.refl
    | with_reducible refine Frame.ite (fun _ => ?_) (fun _ => ?_)
    | with_reducible apply Frame.foldl
    | with_reducible apply Frame.foldl_fst
    | decide
    | intro _ _ _
    | fail_if_no_progress (refine Frame.upd ?_)
    | split

theorem State.partialReset_frame (n) (source) (s : State) : Frame [.pins, .ret, .cause, .flashA, .flashB, .log, .flt, .svc, .tiles, .hubBundles, .engines, .cel, .host, .cmds, .mem, .bytes, .models, .sessions, .sessionGen, .migs, .runs, .launches, .trans] s (State.partialReset n source s) := by
  unfold State.partialReset
  try dsimp only
  repeat' first
    | with_reducible assumption
    | with_reducible apply Frame.refl
    | with_reducible refine Frame.ite (fun _ => ?_) (fun _ => ?_)
    | with_reducible apply Frame.foldl
    | with_reducible apply Frame.foldl_fst
    | with_reducible apply Frame.after (State.distrustStripes_frame _ _)
    | with_reducible apply Frame.after (State.suspectLaunches_frame _ _ _)
    | with_reducible apply Frame.after (State.assignStreams_frame _)
    | with_reducible apply Frame.after (State.endInjection_frame _)
    | with_reducible apply Frame.after (State.requeueUnits_frame _ _)
    | with_reducible apply Frame.after (State.failNeeding_frame _ _ _)
    | with_reducible apply Frame.after (State.loseBlocks_frame _ _ _ _)
    | with_reducible apply Frame.after (State.loseBytes_frame _ _ _)
    | with_reducible apply Frame.after (State.loseMoves_frame _ _)
    | with_reducible apply Frame.after (State.modBundle_frame _ _ _)
    | with_reducible apply Frame.after (State.takeSpare_frame _ _ _ _)
    | with_reducible apply Frame.after (State.modTile_frame _ _ _)
    | with_reducible apply Frame.after (State.retable_frame _)
    | decide
    | intro _ _ _
    | fail_if_no_progress (refine Frame.upd ?_)
    | split

end Sys2Proof.Machine
end

