-- ==== Sys2Proof/Laws/Startup.lean ====
section
/-! SUPPORT. What each operation of Machine/Startup.lean can change: one frame each. -/

set_option Elab.async false
namespace Sys2Proof.Machine

theorem State.applyMap_frame (b) (failed) (m) (s : State) : Frame [.pins, .ret, .cause, .flashA, .flashB, .log, .flt, .svc, .tiles, .hubBundles, .engines, .host, .cmds] s (State.applyMap b failed m s) := by
  unfold State.applyMap
  try dsimp only
  repeat' first
    | with_reducible assumption
    | with_reducible apply Frame.refl
    | with_reducible refine Frame.ite (fun _ => ?_) (fun _ => ?_)
    | with_reducible apply Frame.foldl
    | with_reducible apply Frame.foldl_fst
    | with_reducible apply Frame.after (State.raiseService_frame _ _ _ _ _ _)
    | with_reducible apply Frame.after (State.modBundle_frame _ _ _)
    | with_reducible apply Frame.after (State.putMirror_frame _ _)
    | with_reducible apply Frame.after (State.raise_quiet (by first | with_reducible exact calm_src (by decide) (by decide) | with_reducible exact calm_bundle _ (by decide) | with_reducible exact calm_access (by assumption) | with_reducible exact calm_unmapped (by assumption) | with_reducible exact calm_scu _ | with_reducible exact calm_unmappedSource _))
    | decide
    | intro _ _ _
    | fail_if_no_progress (refine Frame.upd ?_)
    | split

theorem State.atStep_frame (k) (s : State) : Frame [.boot] s (State.atStep k s) := by
  unfold State.atStep
  try dsimp only
  repeat' first
    | with_reducible assumption
    | with_reducible apply Frame.refl
    | with_reducible refine Frame.ite (fun _ => ?_) (fun _ => ?_)
    | with_reducible apply Frame.foldl
    | with_reducible apply Frame.foldl_fst
    | decide
    | intro _ _ _
    | fail_if_no_progress (refine Frame.upd ?_)
    | split

theorem State.clockLoss_keeps (source) (s : State) : Keeps s (State.clockLoss source s) := by
  unfold State.clockLoss
  split
  · exact (State.powerLost_keeps s).trans ⟨rfl, fun i => ⟨i.memory, i.tiles, i.hubBundles, i.engines, i.els, i.cxl, i.models, i.scu, fun _ => rfl⟩⟩
  · exact Keeps.refl s

theorem State.engineReset_frame (e) (s : State) : Frame [.flt, .tiles, .hubBundles, .engines] s (State.engineReset e s) := by
  unfold State.engineReset
  try dsimp only
  repeat' first
    | with_reducible assumption
    | with_reducible apply Frame.refl
    | with_reducible refine Frame.ite (fun _ => ?_) (fun _ => ?_)
    | with_reducible apply Frame.foldl
    | with_reducible apply Frame.foldl_fst
    | with_reducible apply Frame.after (State.endInjection_frame _)
    | with_reducible apply Frame.after (State.modBundle_frame _ _ _)
    | with_reducible apply Frame.after (State.modEngine_frame _ _ _)
    | decide
    | intro _ _ _
    | fail_if_no_progress (refine Frame.upd ?_)
    | split

theorem State.failMemory_frame (n) (device) (s : State) : Frame [.pins, .ret, .cause, .flashA, .flashB, .log, .flt, .svc, .tiles, .cel, .host, .cmds, .mem, .bytes, .models, .sessions, .sessionGen, .migs, .runs, .launches, .trans] s (State.failMemory n device s) := by
  unfold State.failMemory
  try dsimp only
  repeat' first
    | with_reducible assumption
    | with_reducible apply Frame.refl
    | with_reducible refine Frame.ite (fun _ => ?_) (fun _ => ?_)
    | with_reducible apply Frame.foldl
    | with_reducible apply Frame.foldl_fst
    | with_reducible apply Frame.after (State.raiseService_frame _ _ _ _ _ _)
    | with_reducible apply Frame.after (State.putMirror_frame _ _)
    | with_reducible apply Frame.after (State.logEvent_frame _ _ _ _ _ _)
    | with_reducible apply Frame.after (State.loseSite_frame _ _ _)
    | with_reducible apply Frame.after (State.modTile_frame _ _ _)
    | with_reducible apply Frame.after (State.raise_quiet (by first | with_reducible exact calm_src (by decide) (by decide) | with_reducible exact calm_bundle _ (by decide) | with_reducible exact calm_access (by assumption) | with_reducible exact calm_unmapped (by assumption) | with_reducible exact calm_scu _ | with_reducible exact calm_unmappedSource _))
    | decide
    | intro _ _ _
    | fail_if_no_progress (refine Frame.upd ?_)
    | split

theorem State.recordWires_frame (b) (found) (s : State) : Frame [.ret, .flashA, .flashB, .log] s (State.recordWires b found s) := by
  unfold State.recordWires
  try dsimp only
  repeat' first
    | with_reducible assumption
    | with_reducible apply Frame.refl
    | with_reducible refine Frame.ite (fun _ => ?_) (fun _ => ?_)
    | with_reducible apply Frame.foldl
    | with_reducible apply Frame.foldl_fst
    | with_reducible apply Frame.after (State.putMirror_frame _ _)
    | decide
    | intro _ _ _
    | fail_if_no_progress (refine Frame.upd ?_)
    | split

theorem State.startEngine_frame (b) (s : State) : Frame [.engines] s (State.startEngine b s) := by
  unfold State.startEngine
  try dsimp only
  repeat' first
    | with_reducible assumption
    | with_reducible apply Frame.refl
    | with_reducible refine Frame.ite (fun _ => ?_) (fun _ => ?_)
    | with_reducible apply Frame.foldl
    | with_reducible apply Frame.foldl_fst
    | with_reducible apply Frame.after (State.modEngine_frame _ _ _)
    | decide
    | intro _ _ _
    | fail_if_no_progress (refine Frame.upd ?_)
    | split

theorem State.noteBlock_frame (b) (l) (s : State) : Frame [.tiles, .hubBundles, .engines] s (State.noteBlock b l s) := by
  unfold State.noteBlock
  try dsimp only
  repeat' first
    | with_reducible assumption
    | with_reducible apply Frame.refl
    | with_reducible refine Frame.ite (fun _ => ?_) (fun _ => ?_)
    | with_reducible apply Frame.foldl
    | with_reducible apply Frame.foldl_fst
    | with_reducible apply Frame.after (State.modBundle_frame _ _ _)
    | decide
    | intro _ _ _
    | fail_if_no_progress (refine Frame.upd ?_)
    | split

theorem State.noteTemps_frame (n) (a) (b) (s : State) : Frame [.tiles, .mem] s (State.noteTemps n a b s) := by
  unfold State.noteTemps
  try dsimp only
  repeat' first
    | with_reducible assumption
    | with_reducible apply Frame.refl
    | with_reducible refine Frame.ite (fun _ => ?_) (fun _ => ?_)
    | with_reducible apply Frame.foldl
    | with_reducible apply Frame.foldl_fst
    | with_reducible apply Frame.after (State.modTile_frame _ _ _)
    | decide
    | intro _ _ _
    | fail_if_no_progress (refine Frame.upd ?_)
    | split

theorem State.noteDevice_frame (k) (id) (s : State) : Frame [.ret, .flashA, .flashB, .log] s (State.noteDevice k id s) := by
  unfold State.noteDevice
  try dsimp only
  repeat' first
    | with_reducible assumption
    | with_reducible apply Frame.refl
    | with_reducible refine Frame.ite (fun _ => ?_) (fun _ => ?_)
    | with_reducible apply Frame.foldl
    | with_reducible apply Frame.foldl_fst
    | with_reducible apply Frame.after (State.putMirror_frame _ _)
    | decide
    | intro _ _ _
    | fail_if_no_progress (refine Frame.upd ?_)
    | split

theorem State.startInline_frame (b) (s : State) : Frame [.ret, .cause, .flashA, .flashB, .log, .flt, .tiles, .hubBundles, .engines, .host, .cmds] s (State.startInline b s) := by
  unfold State.startInline
  try dsimp only
  repeat' first
    | with_reducible assumption
    | with_reducible apply Frame.refl
    | with_reducible refine Frame.ite (fun _ => ?_) (fun _ => ?_)
    | with_reducible apply Frame.foldl
    | with_reducible apply Frame.foldl_fst
    | with_reducible apply Frame.after (State.modBundle_frame _ _ _)
    | with_reducible apply Frame.after (State.raiseFor_quiet (by first | with_reducible exact calm_src (by decide) (by decide) | with_reducible exact calm_bundle _ (by decide) | with_reducible exact calm_access (by assumption) | with_reducible exact calm_unmapped (by assumption) | with_reducible exact calm_scu _ | with_reducible exact calm_unmappedSource _))
    | decide
    | intro _ _ _
    | fail_if_no_progress (refine Frame.upd ?_)
    | split

theorem State.armFixed_frame (n) (st) (s : State) : Frame [.tiles, .hubBundles, .engines] s (State.armFixed n st s) := by
  unfold State.armFixed
  try dsimp only
  repeat' first
    | with_reducible assumption
    | with_reducible apply Frame.refl
    | with_reducible refine Frame.ite (fun _ => ?_) (fun _ => ?_)
    | with_reducible apply Frame.foldl
    | with_reducible apply Frame.foldl_fst
    | with_reducible apply Frame.after (State.modBundle_frame _ _ _)
    | decide
    | intro _ _ _
    | fail_if_no_progress (refine Frame.upd ?_)
    | split

theorem State.bundleServed_frame (a) (b) (s : State) : Frame [.tiles, .hubBundles, .engines, .trans] s (State.bundleServed a b s) := by
  unfold State.bundleServed
  try dsimp only
  repeat' first
    | with_reducible assumption
    | with_reducible apply Frame.refl
    | with_reducible refine Frame.ite (fun _ => ?_) (fun _ => ?_)
    | with_reducible apply Frame.foldl
    | with_reducible apply Frame.foldl_fst
    | with_reducible apply Frame.after (State.retable_frame _)
    | with_reducible apply Frame.after (State.retry_frame _)
    | decide
    | intro _ _ _
    | fail_if_no_progress (refine Frame.upd ?_)
    | split

theorem State.beginTraining_frame (s : State) : Frame [.boot, .tiles] s (State.beginTraining s) := by
  unfold State.beginTraining
  try dsimp only
  repeat' first
    | with_reducible assumption
    | with_reducible apply Frame.refl
    | with_reducible refine Frame.ite (fun _ => ?_) (fun _ => ?_)
    | with_reducible apply Frame.foldl
    | with_reducible apply Frame.foldl_fst
    | with_reducible apply Frame.after (State.atStep_frame _ _)
    | decide
    | intro _ _ _
    | fail_if_no_progress (refine Frame.upd ?_)
    | split

theorem State.loseTrip_frame (s : State) : Frame [.ret] s (State.loseTrip s) := by
  unfold State.loseTrip
  try dsimp only
  repeat' first
    | with_reducible assumption
    | with_reducible apply Frame.refl
    | with_reducible refine Frame.ite (fun _ => ?_) (fun _ => ?_)
    | with_reducible apply Frame.foldl
    | with_reducible apply Frame.foldl_fst
    | decide
    | intro _ _ _
    | fail_if_no_progress (refine Frame.upd ?_)
    | split

end Sys2Proof.Machine
end

