-- ==== Sys2Proof/Laws/BringUp.lean ====
section
/-! SUPPORT. What each operation of Machine/BringUp.lean can change: one frame each. -/

set_option Elab.async false
namespace Sys2Proof.Machine

theorem State.chooseDirection_frame (e) (s : State) : Frame [.engines, .els] s (State.chooseDirection e s) := by
  unfold State.chooseDirection
  try dsimp only
  repeat' first
    | with_reducible assumption
    | with_reducible apply Frame.refl
    | with_reducible refine Frame.ite (fun _ => ?_) (fun _ => ?_)
    | with_reducible apply Frame.foldl
    | with_reducible apply Frame.foldl_fst
    | with_reducible apply Frame.after (State.failAttempt_frame _ _)
    | with_reducible apply Frame.after (State.sendMaps_frame _ _ _ _)
    | with_reducible apply Frame.after (State.sendWord_frame _ _ _)
    | with_reducible apply Frame.after (State.modDir_frame _ _ _ _)
    | decide
    | intro _ _ _
    | fail_if_no_progress (refine Frame.upd ?_)
    | split

theorem State.learn_frame (e) (h) (s : State) : Frame [.trans] s (State.learn e h s) := by
  unfold State.learn
  try dsimp only
  repeat' first
    | with_reducible assumption
    | with_reducible apply Frame.refl
    | with_reducible refine Frame.ite (fun _ => ?_) (fun _ => ?_)
    | with_reducible apply Frame.foldl
    | with_reducible apply Frame.foldl_fst
    | with_reducible apply Frame.after (State.setRoute_frame _ _)
    | decide
    | intro _ _ _
    | fail_if_no_progress (refine Frame.upd ?_)
    | split

theorem State.unlearn_frame (e) (r) (s : State) : Frame [.ret, .cause, .flashA, .flashB, .log, .flt, .host, .cmds, .trans] s (State.unlearn e r s) := by
  unfold State.unlearn
  try dsimp only
  repeat' first
    | with_reducible assumption
    | with_reducible apply Frame.refl
    | with_reducible refine Frame.ite (fun _ => ?_) (fun _ => ?_)
    | with_reducible apply Frame.foldl
    | with_reducible apply Frame.foldl_fst
    | with_reducible apply Frame.after (State.raise_quiet (by first | with_reducible exact calm_src (by decide) (by decide) | with_reducible exact calm_bundle _ (by decide) | with_reducible exact calm_access (by assumption) | with_reducible exact calm_unmapped (by assumption) | with_reducible exact calm_scu _ | with_reducible exact calm_unmappedSource _))
    | decide
    | intro _ _ _
    | fail_if_no_progress (refine Frame.upd ?_)
    | split

theorem State.linkUp_frame (e) (s : State) : Frame [.pins, .ret, .boot, .cause, .flashA, .flashB, .log, .flt, .svc, .engines, .host, .cmds, .trans] s (State.linkUp e s) := by
  unfold State.linkUp
  try dsimp only
  repeat' first
    | with_reducible assumption
    | with_reducible apply Frame.refl
    | with_reducible refine Frame.ite (fun _ => ?_) (fun _ => ?_)
    | with_reducible apply Frame.foldl
    | with_reducible apply Frame.foldl_fst
    | with_reducible apply Frame.after (State.runService_frame _ _ _)
    | with_reducible apply Frame.after (State.modEngine_frame _ _ _)
    | with_reducible apply Frame.after (State.reroute_frame _ _)
    | with_reducible apply Frame.after (State.unlearn_frame _ _ _)
    | with_reducible apply Frame.after (State.atStep_frame _ _)
    | with_reducible apply Frame.after (State.learn_frame _ _ _)
    | decide
    | intro _ _ _
    | fail_if_no_progress (refine Frame.upd ?_)
    | split

theorem State.directionSet_frame (e) (side) (s : State) : Frame [.pins, .ret, .boot, .cause, .flashA, .flashB, .log, .flt, .svc, .engines, .host, .cmds, .trans] s (State.directionSet e side s) := by
  unfold State.directionSet
  try dsimp only
  repeat' first
    | with_reducible assumption
    | with_reducible apply Frame.refl
    | with_reducible refine Frame.ite (fun _ => ?_) (fun _ => ?_)
    | with_reducible apply Frame.foldl
    | with_reducible apply Frame.foldl_fst
    | with_reducible apply Frame.after (State.modEngine_frame _ _ _)
    | with_reducible apply Frame.after (State.linkUp_frame _ _)
    | with_reducible apply Frame.after (State.modDir_frame _ _ _ _)
    | decide
    | intro _ _ _
    | fail_if_no_progress (refine Frame.upd ?_)
    | split

theorem State.tableTaps_frame (e) (r) (s : State) : Frame [.ret, .cause, .flashA, .flashB, .log, .flt, .engines, .host, .cmds] s (State.tableTaps e r s) := by
  unfold State.tableTaps
  try dsimp only
  repeat' first
    | with_reducible assumption
    | with_reducible apply Frame.refl
    | with_reducible refine Frame.ite (fun _ => ?_) (fun _ => ?_)
    | with_reducible apply Frame.foldl
    | with_reducible apply Frame.foldl_fst
    | with_reducible apply Frame.after (State.modEngine_frame _ _ _)
    | with_reducible apply Frame.after (State.raise_quiet (by first | with_reducible exact calm_src (by decide) (by decide) | with_reducible exact calm_bundle _ (by decide) | with_reducible exact calm_access (by assumption) | with_reducible exact calm_unmapped (by assumption) | with_reducible exact calm_scu _ | with_reducible exact calm_unmappedSource _))
    | decide
    | intro _ _ _
    | fail_if_no_progress (refine Frame.upd ?_)
    | split

theorem State.notePassing_frame (e) (passing) (s : State) : Frame [.engines] s (State.notePassing e passing s) := by
  unfold State.notePassing
  try dsimp only
  repeat' first
    | with_reducible assumption
    | with_reducible apply Frame.refl
    | with_reducible refine Frame.ite (fun _ => ?_) (fun _ => ?_)
    | with_reducible apply Frame.foldl
    | with_reducible apply Frame.foldl_fst
    | with_reducible apply Frame.after (State.modEngine_frame _ _ _)
    | decide
    | intro _ _ _
    | fail_if_no_progress (refine Frame.upd ?_)
    | split

theorem State.onFfeAck_frame (e) (ring) (pre) (post) (_limit) (s : State) : Frame [.engines] s (State.onFfeAck e ring pre post _limit s) := by
  unfold State.onFfeAck
  try dsimp only
  repeat' first
    | with_reducible assumption
    | with_reducible apply Frame.refl
    | with_reducible refine Frame.ite (fun _ => ?_) (fun _ => ?_)
    | with_reducible apply Frame.foldl
    | with_reducible apply Frame.foldl_fst
    | with_reducible apply Frame.after (State.modEngine_frame _ _ _)
    | decide
    | intro _ _ _
    | fail_if_no_progress (refine Frame.upd ?_)
    | split

theorem State.onFfeReq_frame (e) (ring) (post) (action) (s : State) : Frame [.engines] s (State.onFfeReq e ring post action s) := by
  unfold State.onFfeReq
  try dsimp only
  repeat' first
    | with_reducible assumption
    | with_reducible apply Frame.refl
    | with_reducible refine Frame.ite (fun _ => ?_) (fun _ => ?_)
    | with_reducible apply Frame.foldl
    | with_reducible apply Frame.foldl_fst
    | with_reducible apply Frame.after (State.modEngine_frame _ _ _)
    | with_reducible apply Frame.after (State.sendWord_frame _ _ _)
    | decide
    | intro _ _ _
    | fail_if_no_progress (refine Frame.upd ?_)
    | split

theorem State.startAttempt_frame (e) (attempt) (h) (s : State) : Frame [.engines, .els] s (State.startAttempt e attempt h s) := by
  unfold State.startAttempt
  try dsimp only
  repeat' first
    | with_reducible assumption
    | with_reducible apply Frame.refl
    | with_reducible refine Frame.ite (fun _ => ?_) (fun _ => ?_)
    | with_reducible apply Frame.foldl
    | with_reducible apply Frame.foldl_fst
    | with_reducible apply Frame.after (State.probeLasers_frame _ _)
    | with_reducible apply Frame.after (State.modEngine_frame _ _ _)
    | with_reducible apply Frame.after (State.sendWord_frame _ _ _)
    | decide
    | intro _ _ _
    | fail_if_no_progress (refine Frame.upd ?_)
    | split

theorem State.portFound_frame (e) (h) (s : State) : Frame [.ret, .cause, .flashA, .flashB, .log, .flt, .engines, .els, .host, .cmds] s (State.portFound e h s) := by
  unfold State.portFound
  try dsimp only
  repeat' first
    | with_reducible assumption
    | with_reducible apply Frame.refl
    | with_reducible refine Frame.ite (fun _ => ?_) (fun _ => ?_)
    | with_reducible apply Frame.foldl
    | with_reducible apply Frame.foldl_fst
    | with_reducible apply Frame.after (State.startAttempt_frame _ _ _ _)
    | with_reducible apply Frame.after (State.raise_quiet (by first | with_reducible exact calm_src (by decide) (by decide) | with_reducible exact calm_bundle _ (by decide) | with_reducible exact calm_access (by assumption) | with_reducible exact calm_unmapped (by assumption) | with_reducible exact calm_scu _ | with_reducible exact calm_unmappedSource _))
    | decide
    | intro _ _ _
    | fail_if_no_progress (refine Frame.upd ?_)
    | split

theorem State.onHello_frame (e) (word) (s : State) : Frame [.ret, .cause, .flashA, .flashB, .log, .flt, .tiles, .hubBundles, .engines, .els, .host, .cmds, .trans] s (State.onHello e word s) := by
  unfold State.onHello
  try dsimp only
  repeat' first
    | with_reducible assumption
    | with_reducible apply Frame.refl
    | with_reducible refine Frame.ite (fun _ => ?_) (fun _ => ?_)
    | with_reducible apply Frame.foldl
    | with_reducible apply Frame.foldl_fst
    | with_reducible apply Frame.after (State.startAttempt_frame _ _ _ _)
    | with_reducible apply Frame.after (State.portFound_frame _ _ _)
    | with_reducible apply Frame.after (State.linkDown_frame _ _)
    | decide
    | intro _ _ _
    | fail_if_no_progress (refine Frame.upd ?_)
    | split

theorem State.onMap_frame (e) (slot) (dir) (fibre) (lambda) (effective) (s : State) : Frame [.engines] s (State.onMap e slot dir fibre lambda effective s) := by
  unfold State.onMap
  try dsimp only
  repeat' first
    | with_reducible assumption
    | with_reducible apply Frame.refl
    | with_reducible refine Frame.ite (fun _ => ?_) (fun _ => ?_)
    | with_reducible apply Frame.foldl
    | with_reducible apply Frame.foldl_fst
    | with_reducible apply Frame.after (State.sendWord_frame _ _ _)
    | with_reducible apply Frame.after (State.modDir_frame _ _ _ _)
    | decide
    | intro _ _ _
    | fail_if_no_progress (refine Frame.upd ?_)
    | split

theorem State.onRateWidth_frame (e) (rate) (width) (dir) (effective) (s : State) : Frame [.engines] s (State.onRateWidth e rate width dir effective s) := by
  unfold State.onRateWidth
  try dsimp only
  repeat' first
    | with_reducible assumption
    | with_reducible apply Frame.refl
    | with_reducible refine Frame.ite (fun _ => ?_) (fun _ => ?_)
    | with_reducible apply Frame.foldl
    | with_reducible apply Frame.foldl_fst
    | with_reducible apply Frame.after (State.sendWord_frame _ _ _)
    | with_reducible apply Frame.after (State.modDir_frame _ _ _ _)
    | decide
    | intro _ _ _
    | fail_if_no_progress (refine Frame.upd ?_)
    | split

theorem State.portAbsent_frame (e) (s : State) : Frame [.ret, .boot, .cause, .flashA, .flashB, .log, .flt, .engines, .els, .host, .cmds] s (State.portAbsent e s) := by
  unfold State.portAbsent
  try dsimp only
  repeat' first
    | with_reducible assumption
    | with_reducible apply Frame.refl
    | with_reducible refine Frame.ite (fun _ => ?_) (fun _ => ?_)
    | with_reducible apply Frame.foldl
    | with_reducible apply Frame.foldl_fst
    | with_reducible apply Frame.after (State.probeLasers_frame _ _)
    | with_reducible apply Frame.after (State.modEngine_frame _ _ _)
    | with_reducible apply Frame.after (State.atStep_frame _ _)
    | with_reducible apply Frame.after (State.raise_quiet (by first | with_reducible exact calm_src (by decide) (by decide) | with_reducible exact calm_bundle _ (by decide) | with_reducible exact calm_access (by assumption) | with_reducible exact calm_unmapped (by assumption) | with_reducible exact calm_scu _ | with_reducible exact calm_unmappedSource _))
    | decide
    | intro _ _ _
    | fail_if_no_progress (refine Frame.upd ?_)
    | split

theorem State.switchMaps_frame (e) (side) (s : State) : Frame [.ret, .cause, .flashA, .flashB, .log, .flt, .engines, .host, .cmds] s (State.switchMaps e side s) := by
  unfold State.switchMaps
  try dsimp only
  repeat' first
    | with_reducible assumption
    | with_reducible apply Frame.refl
    | with_reducible refine Frame.ite (fun _ => ?_) (fun _ => ?_)
    | with_reducible apply Frame.foldl
    | with_reducible apply Frame.foldl_fst
    | with_reducible apply Frame.after (State.modEngine_frame _ _ _)
    | with_reducible apply Frame.after (State.raiseWave_quiet (by decide) (by decide))
    | with_reducible apply Frame.after (State.modDir_frame _ _ _ _)
    | decide
    | intro _ _ _
    | fail_if_no_progress (refine Frame.upd ?_)
    | split

theorem State.rateTaps_frame (e) (old) (new) (s : State) : Frame [.ret, .cause, .flashA, .flashB, .log, .flt, .engines, .host, .cmds] s (State.rateTaps e old new s) := by
  unfold State.rateTaps
  try dsimp only
  repeat' first
    | with_reducible assumption
    | with_reducible apply Frame.refl
    | with_reducible refine Frame.ite (fun _ => ?_) (fun _ => ?_)
    | with_reducible apply Frame.foldl
    | with_reducible apply Frame.foldl_fst
    | with_reducible apply Frame.after (State.modEngine_frame _ _ _)
    | with_reducible apply Frame.after (State.tableTaps_frame _ _ _)
    | decide
    | intro _ _ _
    | fail_if_no_progress (refine Frame.upd ?_)
    | split

theorem State.rateStep_frame (e) (r) (s : State) : Frame [.ret, .cause, .flashA, .flashB, .log, .flt, .engines, .host, .cmds] s (State.rateStep e r s) := by
  unfold State.rateStep
  try dsimp only
  repeat' first
    | with_reducible assumption
    | with_reducible apply Frame.refl
    | with_reducible refine Frame.ite (fun _ => ?_) (fun _ => ?_)
    | with_reducible apply Frame.foldl
    | with_reducible apply Frame.foldl_fst
    | with_reducible apply Frame.after (State.modEngine_frame _ _ _)
    | with_reducible apply Frame.after (State.rateTaps_frame _ _ _ _)
    | decide
    | intro _ _ _
    | fail_if_no_progress (refine Frame.upd ?_)
    | split

theorem State.agreeRate_frame (e) (r) (s : State) : Frame [.engines] s (State.agreeRate e r s) := by
  unfold State.agreeRate
  try dsimp only
  repeat' first
    | with_reducible assumption
    | with_reducible apply Frame.refl
    | with_reducible refine Frame.ite (fun _ => ?_) (fun _ => ?_)
    | with_reducible apply Frame.foldl
    | with_reducible apply Frame.foldl_fst
    | with_reducible apply Frame.after (State.modEngine_frame _ _ _)
    | decide
    | intro _ _ _
    | fail_if_no_progress (refine Frame.upd ?_)
    | split

theorem State.stepWork_frame (e) (k) (s : State) : Frame [.ret, .cause, .flashA, .flashB, .log, .flt, .engines, .els, .host, .cmds, .free] s (State.stepWork e k s) := by
  unfold State.stepWork
  try dsimp only
  repeat' first
    | with_reducible assumption
    | with_reducible apply Frame.refl
    | with_reducible refine Frame.ite (fun _ => ?_) (fun _ => ?_)
    | with_reducible apply Frame.foldl
    | with_reducible apply Frame.foldl_fst
    | with_reducible apply Frame.after (State.chooseDirection_frame _ _)
    | with_reducible apply Frame.after (State.agreeRate_frame _ _ _)
    | with_reducible apply Frame.after (State.runLasers_frame _ _)
    | with_reducible apply Frame.after (State.rateStep_frame _ _ _)
    | with_reducible apply Frame.after (State.rateTaps_frame _ _ _ _)
    | decide
    | intro _ _ _
    | fail_if_no_progress (refine Frame.upd ?_)
    | split

theorem State.enterStep_frame (e) (k) (s : State) : Frame [.ret, .cause, .flashA, .flashB, .log, .flt, .engines, .els, .host, .cmds, .free] s (State.enterStep e k s) := by
  unfold State.enterStep
  try dsimp only
  repeat' first
    | with_reducible assumption
    | with_reducible apply Frame.refl
    | with_reducible refine Frame.ite (fun _ => ?_) (fun _ => ?_)
    | with_reducible apply Frame.foldl
    | with_reducible apply Frame.foldl_fst
    | with_reducible apply Frame.after (State.modEngine_frame _ _ _)
    | with_reducible apply Frame.after (State.stepWork_frame _ _ _)
    | decide
    | intro _ _ _
    | fail_if_no_progress (refine Frame.upd ?_)
    | split

theorem State.startNext_frame (e) (s : State) : Frame [.ret, .cause, .flashA, .flashB, .log, .flt, .engines, .els, .host, .cmds, .free] s (State.startNext e s) := by
  unfold State.startNext
  try dsimp only
  repeat' first
    | with_reducible assumption
    | with_reducible apply Frame.refl
    | with_reducible refine Frame.ite (fun _ => ?_) (fun _ => ?_)
    | with_reducible apply Frame.foldl
    | with_reducible apply Frame.foldl_fst
    | with_reducible apply Frame.after (State.enterStep_frame _ _ _)
    | with_reducible apply Frame.after (State.sendWord_frame _ _ _)
    | decide
    | intro _ _ _
    | fail_if_no_progress (refine Frame.upd ?_)
    | split

theorem State.stepDone_frame (e) (s : State) : Frame [.ret, .cause, .flashA, .flashB, .log, .flt, .engines, .els, .host, .cmds, .free] s (State.stepDone e s) := by
  unfold State.stepDone
  try dsimp only
  repeat' first
    | with_reducible assumption
    | with_reducible apply Frame.refl
    | with_reducible refine Frame.ite (fun _ => ?_) (fun _ => ?_)
    | with_reducible apply Frame.foldl
    | with_reducible apply Frame.foldl_fst
    | with_reducible apply Frame.after (State.modEngine_frame _ _ _)
    | with_reducible apply Frame.after (State.startNext_frame _ _)
    | with_reducible apply Frame.after (State.sendWord_frame _ _ _)
    | decide
    | intro _ _ _
    | fail_if_no_progress (refine Frame.upd ?_)
    | split

theorem State.onTrain_frame (e) (step) (status) (_rate) (passing) (s : State) : Frame [.ret, .cause, .flashA, .flashB, .log, .flt, .tiles, .hubBundles, .engines, .els, .host, .cmds, .trans, .free] s (State.onTrain e step status _rate passing s) := by
  unfold State.onTrain
  try dsimp only
  repeat' first
    | with_reducible assumption
    | with_reducible apply Frame.refl
    | with_reducible refine Frame.ite (fun _ => ?_) (fun _ => ?_)
    | with_reducible apply Frame.foldl
    | with_reducible apply Frame.foldl_fst
    | with_reducible apply Frame.after (State.failAttempt_frame _ _)
    | with_reducible apply Frame.after (State.notePassing_frame _ _ _)
    | with_reducible apply Frame.after (State.endChange_frame _ _ _)
    | with_reducible apply Frame.after (State.enterStep_frame _ _ _)
    | with_reducible apply Frame.after (State.modEngine_frame _ _ _)
    | with_reducible apply Frame.after (State.startNext_frame _ _)
    | with_reducible apply Frame.after (State.linkDown_frame _ _)
    | with_reducible apply Frame.after (State.stepDone_frame _ _)
    | decide
    | intro _ _ _
    | fail_if_no_progress (refine Frame.upd ?_)
    | split

theorem State.takeWait_frame (e) (s : State) : Frame [.ret, .cause, .flashA, .flashB, .log, .flt, .engines, .els, .host, .cmds] s (State.takeWait e s) := by
  unfold State.takeWait
  try dsimp only
  repeat' first
    | with_reducible assumption
    | with_reducible apply Frame.refl
    | with_reducible refine Frame.ite (fun _ => ?_) (fun _ => ?_)
    | with_reducible apply Frame.foldl
    | with_reducible apply Frame.foldl_fst
    | with_reducible apply Frame.after (State.probeLasers_frame _ _)
    | with_reducible apply Frame.after (State.modEngine_frame _ _ _)
    | with_reducible apply Frame.after (State.rateStep_frame _ _ _)
    | decide
    | intro _ _ _
    | fail_if_no_progress (refine Frame.upd ?_)
    | split

theorem State.beforeFrame_frame (e) (s : State) : Frame [.ret, .cause, .flashA, .flashB, .log, .flt, .engines, .els, .host, .cmds, .free] s (State.beforeFrame e s) := by
  unfold State.beforeFrame
  try dsimp only
  repeat' first
    | with_reducible assumption
    | with_reducible apply Frame.refl
    | with_reducible refine Frame.ite (fun _ => ?_) (fun _ => ?_)
    | with_reducible apply Frame.foldl
    | with_reducible apply Frame.foldl_fst
    | with_reducible apply Frame.after (State.stepDone_frame _ _)
    | with_reducible apply Frame.after (State.takeWait_frame _ _)
    | decide
    | intro _ _ _
    | fail_if_no_progress (refine Frame.upd ?_)
    | split

theorem State.adaptTaps_frame (e) (w) (frame) (tb) (s : State) : Frame [.engines, .free] s (State.adaptTaps e w frame tb s) := by
  unfold State.adaptTaps
  try dsimp only
  repeat' first
    | with_reducible assumption
    | with_reducible apply Frame.refl
    | with_reducible refine Frame.ite (fun _ => ?_) (fun _ => ?_)
    | with_reducible apply Frame.foldl
    | with_reducible apply Frame.foldl_fst
    | with_reducible apply Frame.after (State.modEngine_frame _ _ _)
    | with_reducible apply Frame.after (State.sendWord_frame _ _ _)
    | with_reducible apply Frame.after (State.spend_frame _ _)
    | decide
    | intro _ _ _
    | fail_if_no_progress (refine Frame.upd ?_)
    | split

end Sys2Proof.Machine
end

