-- ==== Sys2Proof/Laws/Cellarer.lean ====
section
/-! SUPPORT. What each operation of Machine/Cellarer.lean can change: one frame each. -/

set_option Elab.async false
namespace Sys2Proof.Machine

theorem State.startMove_frame (b) (dest) (ext) (s : State) : Frame [.tiles, .hubBundles, .engines, .cel, .trans, .free] s (State.startMove b dest ext s) := by
  unfold State.startMove
  try dsimp only
  repeat' first
    | with_reducible assumption
    | with_reducible apply Frame.refl
    | with_reducible refine Frame.ite (fun _ => ?_) (fun _ => ?_)
    | with_reducible apply Frame.foldl
    | with_reducible apply Frame.foldl_fst
    | with_reducible apply Frame.after (State.request_frame _ _)
    | with_reducible apply Frame.after (State.spend_frame _ _)
    | decide
    | intro _ _ _
    | fail_if_no_progress (refine Frame.upd ?_)
    | split

theorem State.takeLease_frame (peer) (block) (s : State) : Frame [.tiles, .hubBundles, .engines, .trans, .free] s (State.takeLease peer block s) := by
  unfold State.takeLease
  try dsimp only
  repeat' first
    | with_reducible assumption
    | with_reducible apply Frame.refl
    | with_reducible refine Frame.ite (fun _ => ?_) (fun _ => ?_)
    | with_reducible apply Frame.foldl
    | with_reducible apply Frame.foldl_fst
    | with_reducible apply Frame.after (State.request_frame _ _)
    | with_reducible apply Frame.after (State.spend_frame _ _)
    | decide
    | intro _ _ _
    | fail_if_no_progress (refine Frame.upd ?_)
    | split

theorem moveSome_frame (ok dest k l) (s : State) : Frame [.tiles, .hubBundles, .engines, .cel, .trans, .free] s (moveSome ok dest k l s) := by
  induction k generalizing l s with
  | zero => unfold moveSome; exact Frame.refl _ s
  | succ k ih =>
    cases l with
    | nil => unfold moveSome; exact Frame.refl _ s
    | cons b l =>
      unfold moveSome
      split
      · exact Frame.refl _ s
      · split
        · exact Frame.refl _ s
        · refine Frame.trans ?_ (ih _ _)
          refine Frame.step ?_ (State.startMove_frame ..) (by decide)
          try dsimp only
          split
          · exact (State.takeLease_frame ..).mono (by decide)
          · exact Frame.refl _ s

theorem State.endMove_frame (move) (s : State) : Frame [.cel] s (State.endMove move s) := by
  unfold State.endMove
  try dsimp only
  repeat' first
    | with_reducible assumption
    | with_reducible apply Frame.refl
    | with_reducible refine Frame.ite (fun _ => ?_) (fun _ => ?_)
    | with_reducible apply Frame.foldl
    | with_reducible apply Frame.foldl_fst
    | decide
    | intro _ _ _
    | fail_if_no_progress (refine Frame.upd ?_)
    | split

theorem State.moveRole_frame (n) (r) (s : State) : Frame [.tiles] s (State.moveRole n r s) := by
  unfold State.moveRole
  try dsimp only
  repeat' first
    | with_reducible assumption
    | with_reducible apply Frame.refl
    | with_reducible refine Frame.ite (fun _ => ?_) (fun _ => ?_)
    | with_reducible apply Frame.foldl
    | with_reducible apply Frame.foldl_fst
    | with_reducible apply Frame.after (State.startDrain_frame _ _)
    | with_reducible apply Frame.after (State.modTile_frame _ _ _)
    | decide
    | intro _ _ _
    | fail_if_no_progress (refine Frame.upd ?_)
    | split

theorem State.placeCluster_frame (cid) (index) (n) (cells) (s : State) : Frame [.launches] s (State.placeCluster cid index n cells s) := by
  unfold State.placeCluster
  try dsimp only
  repeat' first
    | with_reducible assumption
    | with_reducible apply Frame.refl
    | with_reducible refine Frame.ite (fun _ => ?_) (fun _ => ?_)
    | with_reducible apply Frame.foldl
    | with_reducible apply Frame.foldl_fst
    | decide
    | intro _ _ _
    | fail_if_no_progress (refine Frame.upd ?_)
    | split

theorem makeMoves_frame (k w) (acc : State × List Nat) : Frame [.tiles] acc.1 (makeMoves k w acc).1 := by
  induction k generalizing w acc with
  | zero => unfold makeMoves; exact Frame.refl _ _
  | succ k ih =>
    unfold makeMoves
    split
    · split
      · exact ((State.moveRole_frame ..).mono (by decide)).trans (ih _ (_, _))
      · exact Frame.refl _ _
    · exact Frame.refl _ _

theorem State.planRoles_frame (s : State) : Frame [.tiles, .cel] s (State.planRoles s) := by
  unfold State.planRoles
  try dsimp only
  repeat' first
    | with_reducible assumption
    | with_reducible apply Frame.refl
    | with_reducible refine Frame.ite (fun _ => ?_) (fun _ => ?_)
    | with_reducible apply Frame.foldl
    | with_reducible apply Frame.foldl_fst
    | with_reducible apply Frame.after (makeMoves_frame _ _ _)
    | with_reducible apply Frame.after (State.moveRole_frame _ _ _)
    | decide
    | intro _ _ _
    | fail_if_no_progress (refine Frame.upd ?_)
    | split

theorem State.replaceShard_frame {model} {index} {epoch} {s : State} {t : State} (h : State.replaceShard model index epoch s = some t) : Frame [.mem, .models] s t := by
  unfold State.replaceShard at h
  try dsimp only at h
  repeat' (first | (cases h; done) | split at h | (obtain ⟨_, _, rfl⟩ := Option.map_eq_some_iff.mp h))
  all_goals (try cases h)
  all_goals repeat' first
    | with_reducible assumption
    | with_reducible apply Frame.refl
    | with_reducible refine Frame.ite (fun _ => ?_) (fun _ => ?_)
    | with_reducible apply Frame.foldl
    | with_reducible apply Frame.foldl_fst
    | with_reducible apply Frame.after (State.overwrite_frame _ _)
    | with_reducible apply Frame.after (State.modModel_frame _ _ _)
    | decide
    | intro _ _ _
    | fail_if_no_progress (refine Frame.upd ?_)
    | split

theorem State.setShare_frame (s : State) : Frame [.cel] s (State.setShare s) := by
  unfold State.setShare
  try dsimp only
  repeat' first
    | with_reducible assumption
    | with_reducible apply Frame.refl
    | with_reducible refine Frame.ite (fun _ => ?_) (fun _ => ?_)
    | with_reducible apply Frame.foldl
    | with_reducible apply Frame.foldl_fst
    | decide
    | intro _ _ _
    | fail_if_no_progress (refine Frame.upd ?_)
    | split

theorem State.releaseLease_frame (l) (s : State) : Frame [.tiles, .hubBundles, .engines, .cel, .trans, .free] s (State.releaseLease l s) := by
  unfold State.releaseLease
  try dsimp only
  repeat' first
    | with_reducible assumption
    | with_reducible apply Frame.refl
    | with_reducible refine Frame.ite (fun _ => ?_) (fun _ => ?_)
    | with_reducible apply Frame.foldl
    | with_reducible apply Frame.foldl_fst
    | with_reducible apply Frame.after (State.request_frame _ _)
    | with_reducible apply Frame.after (State.spend_frame _ _)
    | decide
    | intro _ _ _
    | fail_if_no_progress (refine Frame.upd ?_)
    | split

theorem State.tidyLeases_frame (block) (s : State) : Frame [.tiles, .hubBundles, .engines, .cel, .trans, .free] s (State.tidyLeases block s) := by
  unfold State.tidyLeases
  try dsimp only
  repeat' first
    | with_reducible assumption
    | with_reducible apply Frame.refl
    | with_reducible refine Frame.ite (fun _ => ?_) (fun _ => ?_)
    | with_reducible apply Frame.foldl
    | with_reducible apply Frame.foldl_fst
    | with_reducible apply Frame.after (State.releaseLease_frame _ _)
    | decide
    | intro _ _ _
    | fail_if_no_progress (refine Frame.upd ?_)
    | split

theorem State.releaseOrphans_frame (s : State) : Frame [.tiles, .hubBundles, .engines, .cel, .trans, .free] s (State.releaseOrphans s) := by
  unfold State.releaseOrphans
  try dsimp only
  repeat' first
    | with_reducible assumption
    | with_reducible apply Frame.refl
    | with_reducible refine Frame.ite (fun _ => ?_) (fun _ => ?_)
    | with_reducible apply Frame.foldl
    | with_reducible apply Frame.foldl_fst
    | with_reducible apply Frame.after (State.releaseLease_frame _ _)
    | decide
    | intro _ _ _
    | fail_if_no_progress (refine Frame.upd ?_)
    | split

theorem State.planBlocks_frame (s : State) : Frame [.tiles, .hubBundles, .engines, .cel, .trans, .free] s (State.planBlocks s) := by
  unfold State.planBlocks
  try dsimp only
  repeat' first
    | with_reducible assumption
    | with_reducible apply Frame.refl
    | with_reducible refine Frame.ite (fun _ => ?_) (fun _ => ?_)
    | with_reducible apply Frame.foldl
    | with_reducible apply Frame.foldl_fst
    | with_reducible apply Frame.after (State.releaseOrphans_frame _)
    | with_reducible apply Frame.after (moveSome_frame _ _ _ _ _)
    | decide
    | intro _ _ _
    | fail_if_no_progress (refine Frame.upd ?_)
    | split

theorem State.caskWork_frame (cid) (s : State) : Frame [.tiles] s (State.caskWork cid s) := by
  unfold State.caskWork
  try dsimp only
  repeat' first
    | with_reducible assumption
    | with_reducible apply Frame.refl
    | with_reducible refine Frame.ite (fun _ => ?_) (fun _ => ?_)
    | with_reducible apply Frame.foldl
    | with_reducible apply Frame.foldl_fst
    | with_reducible apply Frame.after (State.modTile_frame _ _ _)
    | decide
    | intro _ _ _
    | fail_if_no_progress (refine Frame.upd ?_)
    | split

end Sys2Proof.Machine
end

