-- ==== Sys2Proof/Laws/State.lean ====
section
/-! SUPPORT. Field by field, what each update of the state leaves, and the command table under an update. -/

set_option Elab.async false
namespace Sys2Proof.Machine

@[simp] theorem State.modTile_pending (n f) (s : State) : (State.modTile n f s).pending = s.pending := rfl
@[simp] theorem State.modTile_pins (n f) (s : State) : (State.modTile n f s).pins = s.pins := rfl
@[simp] theorem State.modTile_ret (n f) (s : State) : (State.modTile n f s).ret = s.ret := rfl
@[simp] theorem State.modTile_boot (n f) (s : State) : (State.modTile n f s).boot = s.boot := rfl
@[simp] theorem State.modTile_settings (n f) (s : State) : (State.modTile n f s).settings = s.settings := rfl
@[simp] theorem State.modTile_boardOk (n f) (s : State) : (State.modTile n f s).boardOk = s.boardOk := rfl
@[simp] theorem State.modTile_flashA (n f) (s : State) : (State.modTile n f s).flashA = s.flashA := rfl
@[simp] theorem State.modTile_flashB (n f) (s : State) : (State.modTile n f s).flashB = s.flashB := rfl
@[simp] theorem State.modTile_log (n f) (s : State) : (State.modTile n f s).log = s.log := rfl
@[simp] theorem State.modTile_sec (n f) (s : State) : (State.modTile n f s).sec = s.sec := rfl
@[simp] theorem State.modTile_flt (n f) (s : State) : (State.modTile n f s).flt = s.flt := rfl
@[simp] theorem State.modTile_svc (n f) (s : State) : (State.modTile n f s).svc = s.svc := rfl
@[simp] theorem State.modTile_hubBundles (n f) (s : State) : (State.modTile n f s).hubBundles = s.hubBundles := rfl
@[simp] theorem State.modTile_engines (n f) (s : State) : (State.modTile n f s).engines = s.engines := rfl
@[simp] theorem State.modTile_els (n f) (s : State) : (State.modTile n f s).els = s.els := rfl
@[simp] theorem State.modTile_th (n f) (s : State) : (State.modTile n f s).th = s.th := rfl
@[simp] theorem State.modTile_cel (n f) (s : State) : (State.modTile n f s).cel = s.cel := rfl
@[simp] theorem State.modTile_host (n f) (s : State) : (State.modTile n f s).host = s.host := rfl
@[simp] theorem State.modTile_mem (n f) (s : State) : (State.modTile n f s).mem = s.mem := rfl
@[simp] theorem State.modTile_cxl (n f) (s : State) : (State.modTile n f s).cxl = s.cxl := rfl
@[simp] theorem State.modTile_models (n f) (s : State) : (State.modTile n f s).models = s.models := rfl
@[simp] theorem State.modTile_sessions (n f) (s : State) : (State.modTile n f s).sessions = s.sessions := rfl
@[simp] theorem State.modTile_sessionGen (n f) (s : State) : (State.modTile n f s).sessionGen = s.sessionGen := rfl
@[simp] theorem State.modTile_migs (n f) (s : State) : (State.modTile n f s).migs = s.migs := rfl
@[simp] theorem State.modTile_graphs (n f) (s : State) : (State.modTile n f s).graphs = s.graphs := rfl
@[simp] theorem State.modTile_graphGen (n f) (s : State) : (State.modTile n f s).graphGen = s.graphGen := rfl
@[simp] theorem State.modTile_kernels (n f) (s : State) : (State.modTile n f s).kernels = s.kernels := rfl
@[simp] theorem State.modTile_kernelGen (n f) (s : State) : (State.modTile n f s).kernelGen = s.kernelGen := rfl
@[simp] theorem State.modTile_runs (n f) (s : State) : (State.modTile n f s).runs = s.runs := rfl
@[simp] theorem State.modTile_launches (n f) (s : State) : (State.modTile n f s).launches = s.launches := rfl
@[simp] theorem State.modTile_trans (n f) (s : State) : (State.modTile n f s).trans = s.trans := rfl
@[simp] theorem State.modTile_scu (n f) (s : State) : (State.modTile n f s).scu = s.scu := rfl
@[simp] theorem State.modTile_sb (n f) (s : State) : (State.modTile n f s).sb = s.sb := rfl
@[simp] theorem State.modTile_free (n f) (s : State) : (State.modTile n f s).free = s.free := rfl

@[simp] theorem State.modEngine_pending (e f) (s : State) : (State.modEngine e f s).pending = s.pending := rfl
@[simp] theorem State.modEngine_pins (e f) (s : State) : (State.modEngine e f s).pins = s.pins := rfl
@[simp] theorem State.modEngine_ret (e f) (s : State) : (State.modEngine e f s).ret = s.ret := rfl
@[simp] theorem State.modEngine_boot (e f) (s : State) : (State.modEngine e f s).boot = s.boot := rfl
@[simp] theorem State.modEngine_settings (e f) (s : State) : (State.modEngine e f s).settings = s.settings := rfl
@[simp] theorem State.modEngine_boardOk (e f) (s : State) : (State.modEngine e f s).boardOk = s.boardOk := rfl
@[simp] theorem State.modEngine_flashA (e f) (s : State) : (State.modEngine e f s).flashA = s.flashA := rfl
@[simp] theorem State.modEngine_flashB (e f) (s : State) : (State.modEngine e f s).flashB = s.flashB := rfl
@[simp] theorem State.modEngine_log (e f) (s : State) : (State.modEngine e f s).log = s.log := rfl
@[simp] theorem State.modEngine_sec (e f) (s : State) : (State.modEngine e f s).sec = s.sec := rfl
@[simp] theorem State.modEngine_flt (e f) (s : State) : (State.modEngine e f s).flt = s.flt := rfl
@[simp] theorem State.modEngine_svc (e f) (s : State) : (State.modEngine e f s).svc = s.svc := rfl
@[simp] theorem State.modEngine_tiles (e f) (s : State) : (State.modEngine e f s).tiles = s.tiles := rfl
@[simp] theorem State.modEngine_hubBundles (e f) (s : State) : (State.modEngine e f s).hubBundles = s.hubBundles := rfl
@[simp] theorem State.modEngine_els (e f) (s : State) : (State.modEngine e f s).els = s.els := rfl
@[simp] theorem State.modEngine_th (e f) (s : State) : (State.modEngine e f s).th = s.th := rfl
@[simp] theorem State.modEngine_cel (e f) (s : State) : (State.modEngine e f s).cel = s.cel := rfl
@[simp] theorem State.modEngine_host (e f) (s : State) : (State.modEngine e f s).host = s.host := rfl
@[simp] theorem State.modEngine_mem (e f) (s : State) : (State.modEngine e f s).mem = s.mem := rfl
@[simp] theorem State.modEngine_cxl (e f) (s : State) : (State.modEngine e f s).cxl = s.cxl := rfl
@[simp] theorem State.modEngine_models (e f) (s : State) : (State.modEngine e f s).models = s.models := rfl
@[simp] theorem State.modEngine_sessions (e f) (s : State) : (State.modEngine e f s).sessions = s.sessions := rfl
@[simp] theorem State.modEngine_sessionGen (e f) (s : State) : (State.modEngine e f s).sessionGen = s.sessionGen := rfl
@[simp] theorem State.modEngine_migs (e f) (s : State) : (State.modEngine e f s).migs = s.migs := rfl
@[simp] theorem State.modEngine_graphs (e f) (s : State) : (State.modEngine e f s).graphs = s.graphs := rfl
@[simp] theorem State.modEngine_graphGen (e f) (s : State) : (State.modEngine e f s).graphGen = s.graphGen := rfl
@[simp] theorem State.modEngine_kernels (e f) (s : State) : (State.modEngine e f s).kernels = s.kernels := rfl
@[simp] theorem State.modEngine_kernelGen (e f) (s : State) : (State.modEngine e f s).kernelGen = s.kernelGen := rfl
@[simp] theorem State.modEngine_runs (e f) (s : State) : (State.modEngine e f s).runs = s.runs := rfl
@[simp] theorem State.modEngine_launches (e f) (s : State) : (State.modEngine e f s).launches = s.launches := rfl
@[simp] theorem State.modEngine_trans (e f) (s : State) : (State.modEngine e f s).trans = s.trans := rfl
@[simp] theorem State.modEngine_scu (e f) (s : State) : (State.modEngine e f s).scu = s.scu := rfl
@[simp] theorem State.modEngine_sb (e f) (s : State) : (State.modEngine e f s).sb = s.sb := rfl
@[simp] theorem State.modEngine_free (e f) (s : State) : (State.modEngine e f s).free = s.free := rfl

@[simp] theorem State.modCmd_pending (cid f) (s : State) : (State.modCmd cid f s).pending = s.pending := rfl
@[simp] theorem State.modCmd_pins (cid f) (s : State) : (State.modCmd cid f s).pins = s.pins := rfl
@[simp] theorem State.modCmd_ret (cid f) (s : State) : (State.modCmd cid f s).ret = s.ret := rfl
@[simp] theorem State.modCmd_boot (cid f) (s : State) : (State.modCmd cid f s).boot = s.boot := rfl
@[simp] theorem State.modCmd_settings (cid f) (s : State) : (State.modCmd cid f s).settings = s.settings := rfl
@[simp] theorem State.modCmd_boardOk (cid f) (s : State) : (State.modCmd cid f s).boardOk = s.boardOk := rfl
@[simp] theorem State.modCmd_flashA (cid f) (s : State) : (State.modCmd cid f s).flashA = s.flashA := rfl
@[simp] theorem State.modCmd_flashB (cid f) (s : State) : (State.modCmd cid f s).flashB = s.flashB := rfl
@[simp] theorem State.modCmd_log (cid f) (s : State) : (State.modCmd cid f s).log = s.log := rfl
@[simp] theorem State.modCmd_sec (cid f) (s : State) : (State.modCmd cid f s).sec = s.sec := rfl
@[simp] theorem State.modCmd_flt (cid f) (s : State) : (State.modCmd cid f s).flt = s.flt := rfl
@[simp] theorem State.modCmd_svc (cid f) (s : State) : (State.modCmd cid f s).svc = s.svc := rfl
@[simp] theorem State.modCmd_tiles (cid f) (s : State) : (State.modCmd cid f s).tiles = s.tiles := rfl
@[simp] theorem State.modCmd_hubBundles (cid f) (s : State) : (State.modCmd cid f s).hubBundles = s.hubBundles := rfl
@[simp] theorem State.modCmd_engines (cid f) (s : State) : (State.modCmd cid f s).engines = s.engines := rfl
@[simp] theorem State.modCmd_els (cid f) (s : State) : (State.modCmd cid f s).els = s.els := rfl
@[simp] theorem State.modCmd_th (cid f) (s : State) : (State.modCmd cid f s).th = s.th := rfl
@[simp] theorem State.modCmd_cel (cid f) (s : State) : (State.modCmd cid f s).cel = s.cel := rfl
@[simp] theorem State.modCmd_mem (cid f) (s : State) : (State.modCmd cid f s).mem = s.mem := rfl
@[simp] theorem State.modCmd_cxl (cid f) (s : State) : (State.modCmd cid f s).cxl = s.cxl := rfl
@[simp] theorem State.modCmd_models (cid f) (s : State) : (State.modCmd cid f s).models = s.models := rfl
@[simp] theorem State.modCmd_sessions (cid f) (s : State) : (State.modCmd cid f s).sessions = s.sessions := rfl
@[simp] theorem State.modCmd_sessionGen (cid f) (s : State) : (State.modCmd cid f s).sessionGen = s.sessionGen := rfl
@[simp] theorem State.modCmd_migs (cid f) (s : State) : (State.modCmd cid f s).migs = s.migs := rfl
@[simp] theorem State.modCmd_graphs (cid f) (s : State) : (State.modCmd cid f s).graphs = s.graphs := rfl
@[simp] theorem State.modCmd_graphGen (cid f) (s : State) : (State.modCmd cid f s).graphGen = s.graphGen := rfl
@[simp] theorem State.modCmd_kernels (cid f) (s : State) : (State.modCmd cid f s).kernels = s.kernels := rfl
@[simp] theorem State.modCmd_kernelGen (cid f) (s : State) : (State.modCmd cid f s).kernelGen = s.kernelGen := rfl
@[simp] theorem State.modCmd_runs (cid f) (s : State) : (State.modCmd cid f s).runs = s.runs := rfl
@[simp] theorem State.modCmd_launches (cid f) (s : State) : (State.modCmd cid f s).launches = s.launches := rfl
@[simp] theorem State.modCmd_trans (cid f) (s : State) : (State.modCmd cid f s).trans = s.trans := rfl
@[simp] theorem State.modCmd_scu (cid f) (s : State) : (State.modCmd cid f s).scu = s.scu := rfl
@[simp] theorem State.modCmd_sb (cid f) (s : State) : (State.modCmd cid f s).sb = s.sb := rfl
@[simp] theorem State.modCmd_free (cid f) (s : State) : (State.modCmd cid f s).free = s.free := rfl

@[simp] theorem State.spend_pending (k) (s : State) : (State.spend k s).pending = s.pending := rfl
@[simp] theorem State.spend_pins (k) (s : State) : (State.spend k s).pins = s.pins := rfl
@[simp] theorem State.spend_ret (k) (s : State) : (State.spend k s).ret = s.ret := rfl
@[simp] theorem State.spend_boot (k) (s : State) : (State.spend k s).boot = s.boot := rfl
@[simp] theorem State.spend_settings (k) (s : State) : (State.spend k s).settings = s.settings := rfl
@[simp] theorem State.spend_boardOk (k) (s : State) : (State.spend k s).boardOk = s.boardOk := rfl
@[simp] theorem State.spend_flashA (k) (s : State) : (State.spend k s).flashA = s.flashA := rfl
@[simp] theorem State.spend_flashB (k) (s : State) : (State.spend k s).flashB = s.flashB := rfl
@[simp] theorem State.spend_log (k) (s : State) : (State.spend k s).log = s.log := rfl
@[simp] theorem State.spend_sec (k) (s : State) : (State.spend k s).sec = s.sec := rfl
@[simp] theorem State.spend_flt (k) (s : State) : (State.spend k s).flt = s.flt := rfl
@[simp] theorem State.spend_svc (k) (s : State) : (State.spend k s).svc = s.svc := rfl
@[simp] theorem State.spend_tiles (k) (s : State) : (State.spend k s).tiles = s.tiles := rfl
@[simp] theorem State.spend_hubBundles (k) (s : State) : (State.spend k s).hubBundles = s.hubBundles := rfl
@[simp] theorem State.spend_engines (k) (s : State) : (State.spend k s).engines = s.engines := rfl
@[simp] theorem State.spend_els (k) (s : State) : (State.spend k s).els = s.els := rfl
@[simp] theorem State.spend_th (k) (s : State) : (State.spend k s).th = s.th := rfl
@[simp] theorem State.spend_cel (k) (s : State) : (State.spend k s).cel = s.cel := rfl
@[simp] theorem State.spend_host (k) (s : State) : (State.spend k s).host = s.host := rfl
@[simp] theorem State.spend_mem (k) (s : State) : (State.spend k s).mem = s.mem := rfl
@[simp] theorem State.spend_cxl (k) (s : State) : (State.spend k s).cxl = s.cxl := rfl
@[simp] theorem State.spend_models (k) (s : State) : (State.spend k s).models = s.models := rfl
@[simp] theorem State.spend_sessions (k) (s : State) : (State.spend k s).sessions = s.sessions := rfl
@[simp] theorem State.spend_sessionGen (k) (s : State) : (State.spend k s).sessionGen = s.sessionGen := rfl
@[simp] theorem State.spend_migs (k) (s : State) : (State.spend k s).migs = s.migs := rfl
@[simp] theorem State.spend_graphs (k) (s : State) : (State.spend k s).graphs = s.graphs := rfl
@[simp] theorem State.spend_graphGen (k) (s : State) : (State.spend k s).graphGen = s.graphGen := rfl
@[simp] theorem State.spend_kernels (k) (s : State) : (State.spend k s).kernels = s.kernels := rfl
@[simp] theorem State.spend_kernelGen (k) (s : State) : (State.spend k s).kernelGen = s.kernelGen := rfl
@[simp] theorem State.spend_runs (k) (s : State) : (State.spend k s).runs = s.runs := rfl
@[simp] theorem State.spend_launches (k) (s : State) : (State.spend k s).launches = s.launches := rfl
@[simp] theorem State.spend_trans (k) (s : State) : (State.spend k s).trans = s.trans := rfl
@[simp] theorem State.spend_scu (k) (s : State) : (State.spend k s).scu = s.scu := rfl
@[simp] theorem State.spend_sb (k) (s : State) : (State.spend k s).sb = s.sb := rfl

@[simp] theorem State.endCmd_pending (cid d) (s : State) : (State.endCmd cid d s).pending = s.pending := rfl
@[simp] theorem State.endCmd_pins (cid d) (s : State) : (State.endCmd cid d s).pins = s.pins := rfl
@[simp] theorem State.endCmd_ret (cid d) (s : State) : (State.endCmd cid d s).ret = s.ret := rfl
@[simp] theorem State.endCmd_boot (cid d) (s : State) : (State.endCmd cid d s).boot = s.boot := rfl
@[simp] theorem State.endCmd_settings (cid d) (s : State) : (State.endCmd cid d s).settings = s.settings := rfl
@[simp] theorem State.endCmd_boardOk (cid d) (s : State) : (State.endCmd cid d s).boardOk = s.boardOk := rfl
@[simp] theorem State.endCmd_flashA (cid d) (s : State) : (State.endCmd cid d s).flashA = s.flashA := rfl
@[simp] theorem State.endCmd_flashB (cid d) (s : State) : (State.endCmd cid d s).flashB = s.flashB := rfl
@[simp] theorem State.endCmd_log (cid d) (s : State) : (State.endCmd cid d s).log = s.log := rfl
@[simp] theorem State.endCmd_sec (cid d) (s : State) : (State.endCmd cid d s).sec = s.sec := rfl
@[simp] theorem State.endCmd_flt (cid d) (s : State) : (State.endCmd cid d s).flt = s.flt := rfl
@[simp] theorem State.endCmd_svc (cid d) (s : State) : (State.endCmd cid d s).svc = s.svc := rfl
@[simp] theorem State.endCmd_tiles (cid d) (s : State) : (State.endCmd cid d s).tiles = s.tiles := rfl
@[simp] theorem State.endCmd_hubBundles (cid d) (s : State) : (State.endCmd cid d s).hubBundles = s.hubBundles := rfl
@[simp] theorem State.endCmd_engines (cid d) (s : State) : (State.endCmd cid d s).engines = s.engines := rfl
@[simp] theorem State.endCmd_els (cid d) (s : State) : (State.endCmd cid d s).els = s.els := rfl
@[simp] theorem State.endCmd_th (cid d) (s : State) : (State.endCmd cid d s).th = s.th := rfl
@[simp] theorem State.endCmd_cel (cid d) (s : State) : (State.endCmd cid d s).cel = s.cel := rfl
@[simp] theorem State.endCmd_mem (cid d) (s : State) : (State.endCmd cid d s).mem = s.mem := rfl
@[simp] theorem State.endCmd_cxl (cid d) (s : State) : (State.endCmd cid d s).cxl = s.cxl := rfl
@[simp] theorem State.endCmd_models (cid d) (s : State) : (State.endCmd cid d s).models = s.models := rfl
@[simp] theorem State.endCmd_sessions (cid d) (s : State) : (State.endCmd cid d s).sessions = s.sessions := rfl
@[simp] theorem State.endCmd_sessionGen (cid d) (s : State) : (State.endCmd cid d s).sessionGen = s.sessionGen := rfl
@[simp] theorem State.endCmd_migs (cid d) (s : State) : (State.endCmd cid d s).migs = s.migs := rfl
@[simp] theorem State.endCmd_graphs (cid d) (s : State) : (State.endCmd cid d s).graphs = s.graphs := rfl
@[simp] theorem State.endCmd_graphGen (cid d) (s : State) : (State.endCmd cid d s).graphGen = s.graphGen := rfl
@[simp] theorem State.endCmd_kernels (cid d) (s : State) : (State.endCmd cid d s).kernels = s.kernels := rfl
@[simp] theorem State.endCmd_kernelGen (cid d) (s : State) : (State.endCmd cid d s).kernelGen = s.kernelGen := rfl
@[simp] theorem State.endCmd_runs (cid d) (s : State) : (State.endCmd cid d s).runs = s.runs := rfl
@[simp] theorem State.endCmd_launches (cid d) (s : State) : (State.endCmd cid d s).launches = s.launches := rfl
@[simp] theorem State.endCmd_trans (cid d) (s : State) : (State.endCmd cid d s).trans = s.trans := rfl
@[simp] theorem State.endCmd_scu (cid d) (s : State) : (State.endCmd cid d s).scu = s.scu := rfl
@[simp] theorem State.endCmd_sb (cid d) (s : State) : (State.endCmd cid d s).sb = s.sb := rfl
@[simp] theorem State.endCmd_free (cid d) (s : State) : (State.endCmd cid d s).free = s.free := rfl

@[simp] theorem State.finishCmd_pending (cid st l) (s : State) : (State.finishCmd cid st l s).pending = s.pending := rfl
@[simp] theorem State.finishCmd_pins (cid st l) (s : State) : (State.finishCmd cid st l s).pins = s.pins := rfl
@[simp] theorem State.finishCmd_ret (cid st l) (s : State) : (State.finishCmd cid st l s).ret = s.ret := rfl
@[simp] theorem State.finishCmd_boot (cid st l) (s : State) : (State.finishCmd cid st l s).boot = s.boot := rfl
@[simp] theorem State.finishCmd_settings (cid st l) (s : State) : (State.finishCmd cid st l s).settings = s.settings := rfl
@[simp] theorem State.finishCmd_boardOk (cid st l) (s : State) : (State.finishCmd cid st l s).boardOk = s.boardOk := rfl
@[simp] theorem State.finishCmd_flashA (cid st l) (s : State) : (State.finishCmd cid st l s).flashA = s.flashA := rfl
@[simp] theorem State.finishCmd_flashB (cid st l) (s : State) : (State.finishCmd cid st l s).flashB = s.flashB := rfl
@[simp] theorem State.finishCmd_log (cid st l) (s : State) : (State.finishCmd cid st l s).log = s.log := rfl
@[simp] theorem State.finishCmd_sec (cid st l) (s : State) : (State.finishCmd cid st l s).sec = s.sec := rfl
@[simp] theorem State.finishCmd_flt (cid st l) (s : State) : (State.finishCmd cid st l s).flt = s.flt := rfl
@[simp] theorem State.finishCmd_svc (cid st l) (s : State) : (State.finishCmd cid st l s).svc = s.svc := rfl
@[simp] theorem State.finishCmd_tiles (cid st l) (s : State) : (State.finishCmd cid st l s).tiles = s.tiles := rfl
@[simp] theorem State.finishCmd_hubBundles (cid st l) (s : State) : (State.finishCmd cid st l s).hubBundles = s.hubBundles := rfl
@[simp] theorem State.finishCmd_engines (cid st l) (s : State) : (State.finishCmd cid st l s).engines = s.engines := rfl
@[simp] theorem State.finishCmd_els (cid st l) (s : State) : (State.finishCmd cid st l s).els = s.els := rfl
@[simp] theorem State.finishCmd_th (cid st l) (s : State) : (State.finishCmd cid st l s).th = s.th := rfl
@[simp] theorem State.finishCmd_cel (cid st l) (s : State) : (State.finishCmd cid st l s).cel = s.cel := rfl
@[simp] theorem State.finishCmd_mem (cid st l) (s : State) : (State.finishCmd cid st l s).mem = s.mem := rfl
@[simp] theorem State.finishCmd_cxl (cid st l) (s : State) : (State.finishCmd cid st l s).cxl = s.cxl := rfl
@[simp] theorem State.finishCmd_models (cid st l) (s : State) : (State.finishCmd cid st l s).models = s.models := rfl
@[simp] theorem State.finishCmd_sessions (cid st l) (s : State) : (State.finishCmd cid st l s).sessions = s.sessions := rfl
@[simp] theorem State.finishCmd_sessionGen (cid st l) (s : State) : (State.finishCmd cid st l s).sessionGen = s.sessionGen := rfl
@[simp] theorem State.finishCmd_migs (cid st l) (s : State) : (State.finishCmd cid st l s).migs = s.migs := rfl
@[simp] theorem State.finishCmd_graphs (cid st l) (s : State) : (State.finishCmd cid st l s).graphs = s.graphs := rfl
@[simp] theorem State.finishCmd_graphGen (cid st l) (s : State) : (State.finishCmd cid st l s).graphGen = s.graphGen := rfl
@[simp] theorem State.finishCmd_kernels (cid st l) (s : State) : (State.finishCmd cid st l s).kernels = s.kernels := rfl
@[simp] theorem State.finishCmd_kernelGen (cid st l) (s : State) : (State.finishCmd cid st l s).kernelGen = s.kernelGen := rfl
@[simp] theorem State.finishCmd_runs (cid st l) (s : State) : (State.finishCmd cid st l s).runs = s.runs := rfl
@[simp] theorem State.finishCmd_launches (cid st l) (s : State) : (State.finishCmd cid st l s).launches = s.launches := rfl
@[simp] theorem State.finishCmd_trans (cid st l) (s : State) : (State.finishCmd cid st l s).trans = s.trans := rfl
@[simp] theorem State.finishCmd_scu (cid st l) (s : State) : (State.finishCmd cid st l s).scu = s.scu := rfl
@[simp] theorem State.finishCmd_sb (cid st l) (s : State) : (State.finishCmd cid st l s).sb = s.sb := rfl
@[simp] theorem State.finishCmd_free (cid st l) (s : State) : (State.finishCmd cid st l s).free = s.free := rfl

@[simp] theorem State.failCmd_pending (cid st src) (s : State) : (State.failCmd cid st src s).pending = s.pending := rfl
@[simp] theorem State.failCmd_pins (cid st src) (s : State) : (State.failCmd cid st src s).pins = s.pins := rfl
@[simp] theorem State.failCmd_ret (cid st src) (s : State) : (State.failCmd cid st src s).ret = s.ret := rfl
@[simp] theorem State.failCmd_boot (cid st src) (s : State) : (State.failCmd cid st src s).boot = s.boot := rfl
@[simp] theorem State.failCmd_settings (cid st src) (s : State) : (State.failCmd cid st src s).settings = s.settings := rfl
@[simp] theorem State.failCmd_boardOk (cid st src) (s : State) : (State.failCmd cid st src s).boardOk = s.boardOk := rfl
@[simp] theorem State.failCmd_flashA (cid st src) (s : State) : (State.failCmd cid st src s).flashA = s.flashA := rfl
@[simp] theorem State.failCmd_flashB (cid st src) (s : State) : (State.failCmd cid st src s).flashB = s.flashB := rfl
@[simp] theorem State.failCmd_log (cid st src) (s : State) : (State.failCmd cid st src s).log = s.log := rfl
@[simp] theorem State.failCmd_sec (cid st src) (s : State) : (State.failCmd cid st src s).sec = s.sec := rfl
@[simp] theorem State.failCmd_flt (cid st src) (s : State) : (State.failCmd cid st src s).flt = s.flt := rfl
@[simp] theorem State.failCmd_svc (cid st src) (s : State) : (State.failCmd cid st src s).svc = s.svc := rfl
@[simp] theorem State.failCmd_tiles (cid st src) (s : State) : (State.failCmd cid st src s).tiles = s.tiles := rfl
@[simp] theorem State.failCmd_hubBundles (cid st src) (s : State) : (State.failCmd cid st src s).hubBundles = s.hubBundles := rfl
@[simp] theorem State.failCmd_engines (cid st src) (s : State) : (State.failCmd cid st src s).engines = s.engines := rfl
@[simp] theorem State.failCmd_els (cid st src) (s : State) : (State.failCmd cid st src s).els = s.els := rfl
@[simp] theorem State.failCmd_th (cid st src) (s : State) : (State.failCmd cid st src s).th = s.th := rfl
@[simp] theorem State.failCmd_cel (cid st src) (s : State) : (State.failCmd cid st src s).cel = s.cel := rfl
@[simp] theorem State.failCmd_mem (cid st src) (s : State) : (State.failCmd cid st src s).mem = s.mem := rfl
@[simp] theorem State.failCmd_cxl (cid st src) (s : State) : (State.failCmd cid st src s).cxl = s.cxl := rfl
@[simp] theorem State.failCmd_models (cid st src) (s : State) : (State.failCmd cid st src s).models = s.models := rfl
@[simp] theorem State.failCmd_sessions (cid st src) (s : State) : (State.failCmd cid st src s).sessions = s.sessions := rfl
@[simp] theorem State.failCmd_sessionGen (cid st src) (s : State) : (State.failCmd cid st src s).sessionGen = s.sessionGen := rfl
@[simp] theorem State.failCmd_migs (cid st src) (s : State) : (State.failCmd cid st src s).migs = s.migs := rfl
@[simp] theorem State.failCmd_graphs (cid st src) (s : State) : (State.failCmd cid st src s).graphs = s.graphs := rfl
@[simp] theorem State.failCmd_graphGen (cid st src) (s : State) : (State.failCmd cid st src s).graphGen = s.graphGen := rfl
@[simp] theorem State.failCmd_kernels (cid st src) (s : State) : (State.failCmd cid st src s).kernels = s.kernels := rfl
@[simp] theorem State.failCmd_kernelGen (cid st src) (s : State) : (State.failCmd cid st src s).kernelGen = s.kernelGen := rfl
@[simp] theorem State.failCmd_runs (cid st src) (s : State) : (State.failCmd cid st src s).runs = s.runs := rfl
@[simp] theorem State.failCmd_launches (cid st src) (s : State) : (State.failCmd cid st src s).launches = s.launches := rfl
@[simp] theorem State.failCmd_trans (cid st src) (s : State) : (State.failCmd cid st src s).trans = s.trans := rfl
@[simp] theorem State.failCmd_scu (cid st src) (s : State) : (State.failCmd cid st src s).scu = s.scu := rfl
@[simp] theorem State.failCmd_sb (cid st src) (s : State) : (State.failCmd cid st src s).sb = s.sb := rfl
@[simp] theorem State.failCmd_free (cid st src) (s : State) : (State.failCmd cid st src s).free = s.free := rfl

@[simp] theorem State.startCmd_pending (cid) (s : State) : (State.startCmd cid s).pending = s.pending := rfl
@[simp] theorem State.startCmd_pins (cid) (s : State) : (State.startCmd cid s).pins = s.pins := rfl
@[simp] theorem State.startCmd_ret (cid) (s : State) : (State.startCmd cid s).ret = s.ret := rfl
@[simp] theorem State.startCmd_boot (cid) (s : State) : (State.startCmd cid s).boot = s.boot := rfl
@[simp] theorem State.startCmd_settings (cid) (s : State) : (State.startCmd cid s).settings = s.settings := rfl
@[simp] theorem State.startCmd_boardOk (cid) (s : State) : (State.startCmd cid s).boardOk = s.boardOk := rfl
@[simp] theorem State.startCmd_flashA (cid) (s : State) : (State.startCmd cid s).flashA = s.flashA := rfl
@[simp] theorem State.startCmd_flashB (cid) (s : State) : (State.startCmd cid s).flashB = s.flashB := rfl
@[simp] theorem State.startCmd_log (cid) (s : State) : (State.startCmd cid s).log = s.log := rfl
@[simp] theorem State.startCmd_sec (cid) (s : State) : (State.startCmd cid s).sec = s.sec := rfl
@[simp] theorem State.startCmd_flt (cid) (s : State) : (State.startCmd cid s).flt = s.flt := rfl
@[simp] theorem State.startCmd_svc (cid) (s : State) : (State.startCmd cid s).svc = s.svc := rfl
@[simp] theorem State.startCmd_tiles (cid) (s : State) : (State.startCmd cid s).tiles = s.tiles := rfl
@[simp] theorem State.startCmd_hubBundles (cid) (s : State) : (State.startCmd cid s).hubBundles = s.hubBundles := rfl
@[simp] theorem State.startCmd_engines (cid) (s : State) : (State.startCmd cid s).engines = s.engines := rfl
@[simp] theorem State.startCmd_els (cid) (s : State) : (State.startCmd cid s).els = s.els := rfl
@[simp] theorem State.startCmd_th (cid) (s : State) : (State.startCmd cid s).th = s.th := rfl
@[simp] theorem State.startCmd_cel (cid) (s : State) : (State.startCmd cid s).cel = s.cel := rfl
@[simp] theorem State.startCmd_mem (cid) (s : State) : (State.startCmd cid s).mem = s.mem := rfl
@[simp] theorem State.startCmd_cxl (cid) (s : State) : (State.startCmd cid s).cxl = s.cxl := rfl
@[simp] theorem State.startCmd_models (cid) (s : State) : (State.startCmd cid s).models = s.models := rfl
@[simp] theorem State.startCmd_sessions (cid) (s : State) : (State.startCmd cid s).sessions = s.sessions := rfl
@[simp] theorem State.startCmd_sessionGen (cid) (s : State) : (State.startCmd cid s).sessionGen = s.sessionGen := rfl
@[simp] theorem State.startCmd_migs (cid) (s : State) : (State.startCmd cid s).migs = s.migs := rfl
@[simp] theorem State.startCmd_graphs (cid) (s : State) : (State.startCmd cid s).graphs = s.graphs := rfl
@[simp] theorem State.startCmd_graphGen (cid) (s : State) : (State.startCmd cid s).graphGen = s.graphGen := rfl
@[simp] theorem State.startCmd_kernels (cid) (s : State) : (State.startCmd cid s).kernels = s.kernels := rfl
@[simp] theorem State.startCmd_kernelGen (cid) (s : State) : (State.startCmd cid s).kernelGen = s.kernelGen := rfl
@[simp] theorem State.startCmd_runs (cid) (s : State) : (State.startCmd cid s).runs = s.runs := rfl
@[simp] theorem State.startCmd_launches (cid) (s : State) : (State.startCmd cid s).launches = s.launches := rfl
@[simp] theorem State.startCmd_trans (cid) (s : State) : (State.startCmd cid s).trans = s.trans := rfl
@[simp] theorem State.startCmd_scu (cid) (s : State) : (State.startCmd cid s).scu = s.scu := rfl
@[simp] theorem State.startCmd_sb (cid) (s : State) : (State.startCmd cid s).sb = s.sb := rfl
@[simp] theorem State.startCmd_free (cid) (s : State) : (State.startCmd cid s).free = s.free := rfl

@[simp] theorem State.markCmd_pending (src cid) (s : State) : (State.markCmd src cid s).pending = s.pending := rfl
@[simp] theorem State.markCmd_pins (src cid) (s : State) : (State.markCmd src cid s).pins = s.pins := rfl
@[simp] theorem State.markCmd_ret (src cid) (s : State) : (State.markCmd src cid s).ret = s.ret := rfl
@[simp] theorem State.markCmd_boot (src cid) (s : State) : (State.markCmd src cid s).boot = s.boot := rfl
@[simp] theorem State.markCmd_settings (src cid) (s : State) : (State.markCmd src cid s).settings = s.settings := rfl
@[simp] theorem State.markCmd_boardOk (src cid) (s : State) : (State.markCmd src cid s).boardOk = s.boardOk := rfl
@[simp] theorem State.markCmd_flashA (src cid) (s : State) : (State.markCmd src cid s).flashA = s.flashA := rfl
@[simp] theorem State.markCmd_flashB (src cid) (s : State) : (State.markCmd src cid s).flashB = s.flashB := rfl
@[simp] theorem State.markCmd_log (src cid) (s : State) : (State.markCmd src cid s).log = s.log := rfl
@[simp] theorem State.markCmd_sec (src cid) (s : State) : (State.markCmd src cid s).sec = s.sec := rfl
@[simp] theorem State.markCmd_flt (src cid) (s : State) : (State.markCmd src cid s).flt = s.flt := rfl
@[simp] theorem State.markCmd_svc (src cid) (s : State) : (State.markCmd src cid s).svc = s.svc := rfl
@[simp] theorem State.markCmd_tiles (src cid) (s : State) : (State.markCmd src cid s).tiles = s.tiles := rfl
@[simp] theorem State.markCmd_hubBundles (src cid) (s : State) : (State.markCmd src cid s).hubBundles = s.hubBundles := rfl
@[simp] theorem State.markCmd_engines (src cid) (s : State) : (State.markCmd src cid s).engines = s.engines := rfl
@[simp] theorem State.markCmd_els (src cid) (s : State) : (State.markCmd src cid s).els = s.els := rfl
@[simp] theorem State.markCmd_th (src cid) (s : State) : (State.markCmd src cid s).th = s.th := rfl
@[simp] theorem State.markCmd_cel (src cid) (s : State) : (State.markCmd src cid s).cel = s.cel := rfl
@[simp] theorem State.markCmd_mem (src cid) (s : State) : (State.markCmd src cid s).mem = s.mem := rfl
@[simp] theorem State.markCmd_cxl (src cid) (s : State) : (State.markCmd src cid s).cxl = s.cxl := rfl
@[simp] theorem State.markCmd_models (src cid) (s : State) : (State.markCmd src cid s).models = s.models := rfl
@[simp] theorem State.markCmd_sessions (src cid) (s : State) : (State.markCmd src cid s).sessions = s.sessions := rfl
@[simp] theorem State.markCmd_sessionGen (src cid) (s : State) : (State.markCmd src cid s).sessionGen = s.sessionGen := rfl
@[simp] theorem State.markCmd_migs (src cid) (s : State) : (State.markCmd src cid s).migs = s.migs := rfl
@[simp] theorem State.markCmd_graphs (src cid) (s : State) : (State.markCmd src cid s).graphs = s.graphs := rfl
@[simp] theorem State.markCmd_graphGen (src cid) (s : State) : (State.markCmd src cid s).graphGen = s.graphGen := rfl
@[simp] theorem State.markCmd_kernels (src cid) (s : State) : (State.markCmd src cid s).kernels = s.kernels := rfl
@[simp] theorem State.markCmd_kernelGen (src cid) (s : State) : (State.markCmd src cid s).kernelGen = s.kernelGen := rfl
@[simp] theorem State.markCmd_runs (src cid) (s : State) : (State.markCmd src cid s).runs = s.runs := rfl
@[simp] theorem State.markCmd_launches (src cid) (s : State) : (State.markCmd src cid s).launches = s.launches := rfl
@[simp] theorem State.markCmd_trans (src cid) (s : State) : (State.markCmd src cid s).trans = s.trans := rfl
@[simp] theorem State.markCmd_scu (src cid) (s : State) : (State.markCmd src cid s).scu = s.scu := rfl
@[simp] theorem State.markCmd_sb (src cid) (s : State) : (State.markCmd src cid s).sb = s.sb := rfl
@[simp] theorem State.markCmd_free (src cid) (s : State) : (State.markCmd src cid s).free = s.free := rfl

@[simp] theorem State.modTile_tiles (n f) (s : State) : (State.modTile n f s).tiles = modAt s.tiles n f := rfl
@[simp] theorem State.modEngine_engines (e f) (s : State) : (State.modEngine e f s).engines = modAt s.engines e f := rfl
@[simp] theorem State.spend_free (k) (s : State) : (State.spend k s).free = s.free + k := rfl

theorem find_map_cid (l : List Cmd) (cid : Nat) (f : Cmd → Cmd) (hf : ∀ c, (f c).cid = c.cid) :
    (l.map (fun c => if c.cid = cid then f c else c)).find? (fun c => c.cid == cid) = (l.find? (fun c => c.cid == cid)).map f := by
  induction l with
  | nil => rfl
  | cons c t ih =>
    by_cases h : c.cid = cid
    · simp [h, hf]
    · simp [h, ih]

/-- An update of one entry, read back. -/
theorem cmdAt_modCmd (s : State) (cid : Nat) (f : Cmd → Cmd) (hf : ∀ c, (f c).cid = c.cid) :
    cmdAt (s.modCmd cid f) cid = (cmdAt s cid).map f := find_map_cid s.host.cmds cid f hf

theorem Cmd.finish_cid (d : Done) (c : Cmd) : (c.finish d).cid = c.cid := by
  unfold Cmd.finish; split <;> rfl

@[simp] theorem cmdAt_startCmd (s : State) (cid : Nat) : cmdAt (s.startCmd cid) cid = (cmdAt s cid).map (fun c => { c with started := true, reading := false }) :=
  cmdAt_modCmd s cid _ (fun _ => rfl)

@[simp] theorem cmdAt_endCmd (s : State) (cid : Nat) (d : Done) : cmdAt (s.endCmd cid d) cid = (cmdAt s cid).map (Cmd.finish d) :=
  cmdAt_modCmd s cid _ (Cmd.finish_cid d)

@[simp] theorem cmdAt_finishCmd (s : State) (cid : Nat) (st : Status) (l : List (Nat × Nat × Nat)) :
    cmdAt (s.finishCmd cid st l) cid = (cmdAt s cid).map (Cmd.finish { status := st, source := 0, result := resultOf l, writes := [] }) :=
  cmdAt_endCmd s cid _

/-- An entry that may act is in the table, has not ended and carries its opcode. -/
theorem actable_cmdAt {s : State} {cid op : Nat} {c : Cmd} (h : actable s cid op = some c) : cmdAt s cid = some c ∧ c.done = none ∧ c.opcode = op := by
  unfold actable at h
  split at h
  · split at h
    · rename_i hc hk; cases h; exact ⟨hc, by simpa using hk.2.2.1, hk.1⟩
    · cases h
  · cases h

end Sys2Proof.Machine
end

