-- ==== Sys2Proof/Laws/Complete.lean ====
section
/-! SUPPORT. What a command that acts does, and how its entry ends. -/

set_option Elab.async false
namespace Sys2Proof
open Machine

/-- A command that acts runs its body on the state in which it has started. -/
theorem Acts.command {s : State} {cid op : Nat} {c : Cmd} (h : Acts s cid op c) (body : Cmd → State → State) :
    s.command cid op body = body c (s.startCmd cid) := by
  unfold State.command; rw [h.1]

/-- An open host may be read. -/
theorem mayRead_of_open {s : State} (h : hostOpen s = true) (q : HostReq) : mayRead s q = true := by unfold mayRead; simp [h]

/-- A command that reads host memory runs its body once check 5 lets it through and its read can be issued. -/
theorem Acts.hostCommand {s : State} {cid op : Nat} {c : Cmd} (h : Acts s cid op c) (ho : mayRead s (.command cid) = true)
    (hn : readsAhead s c true = false) {check : Cmd → State → Option State}
    (hk : (c.accepted || c.started) = true ∨ check c (s.startCmd cid) = none) (body : Cmd → State → State) :
    s.hostCommand cid op check body = body c (s.startCmd cid) := by
  unfold State.hostCommand; rw [h.command]
  have e : (if (c.accepted || c.started) then none else check c (s.startCmd cid)) = none := by
    rcases hk with hk | hk <;> simp [hk]
  simp only [e, ho, hn]; rfl

/-- What check 5 completes is the command's result. -/
theorem Acts.hostStop {s u : State} {cid op : Nat} {c : Cmd} (h : Acts s cid op c) (hf : (c.accepted || c.started) = false)
    {check : Cmd → State → Option State} (hk : check c (s.startCmd cid) = some u) (body : Cmd → State → State) :
    s.hostCommand cid op check body = u := by
  unfold State.hostCommand; rw [h.command]; simp [hf, hk]

theorem Acts.entry {s : State} {cid op : Nat} {c : Cmd} (h : Acts s cid op c) : cmdAt s cid = some c := (actable_cmdAt h.1).1

theorem Acts.live {s : State} {cid op : Nat} {c : Cmd} (h : Acts s cid op c) : c.done = none := (actable_cmdAt h.1).2.1

/-- An entry that is live and unmarked ends as it is told to. -/
theorem ended_endCmd {t : State} {cid : Nat} {c : Cmd} {d : Done} (h : cmdAt t cid = some c) (hd : c.done = none) (hm : c.marked = none) :
    Ended (t.endCmd cid d) cid d.status d.result ∧ EndedAs (t.endCmd cid d) cid d.status ∧ Wrote (t.endCmd cid d) cid d.writes := by
  have e : cmdAt (t.endCmd cid d) cid = some { c with done := some d } := by
    rw [cmdAt_endCmd, h]; simp [Cmd.finish, hd, hm]
  exact ⟨by simp [Ended, e], by simp [EndedAs, e], by simp [Wrote, e]⟩

end Sys2Proof
end

