-- ==== Sys2Proof/Laws/Cxl.lean ====
section
/-! SUPPORT. What each operation of Machine/Cxl.lean can change: one frame each. -/

set_option Elab.async false
namespace Sys2Proof.Machine

theorem State.moveShard_frame (r) (room) (model) (index) (epoch) (s : State) : Frame [.ret, .cause, .flashA, .flashB, .log, .flt, .host, .cmds, .mem, .models] s (State.moveShard r room model index epoch s) := by
  unfold State.moveShard
  try dsimp only
  repeat' first
    | with_reducible assumption
    | with_reducible apply Frame.refl
    | with_reducible refine Frame.ite (fun _ => ?_) (fun _ => ?_)
    | with_reducible apply Frame.foldl
    | with_reducible apply Frame.foldl_fst
    | with_reducible apply Frame.after (State.reportAccess_quiet (by first | with_reducible exact calm_src (by decide) (by decide) | with_reducible exact calm_bundle _ (by decide) | with_reducible exact calm_access (by assumption) | with_reducible exact calm_unmapped (by assumption) | with_reducible exact calm_scu _ | with_reducible exact calm_unmappedSource _))
    | with_reducible apply Frame.after (State.overwrite_frame _ _)
    | with_reducible apply Frame.after (State.modModel_frame _ _ _)
    | with_reducible apply Frame.after (State.touch_frame _ _ _)
    | decide
    | intro _ _ _
    | fail_if_no_progress (refine Frame.upd ?_)
    | split

theorem State.moveShards_frame (r) (room) (s : State) : Frame [.ret, .cause, .flashA, .flashB, .log, .flt, .cel, .host, .cmds, .mem, .models] s (State.moveShards r room s) := by
  unfold State.moveShards
  try dsimp only
  repeat' first
    | with_reducible assumption
    | with_reducible apply Frame.refl
    | with_reducible refine Frame.ite (fun _ => ?_) (fun _ => ?_)
    | with_reducible apply Frame.foldl
    | with_reducible apply Frame.foldl_fst
    | with_reducible apply Frame.after (State.assignStreams_frame _)
    | with_reducible apply Frame.after (State.moveShard_frame _ _ _ _ _ _)
    | decide
    | intro _ _ _
    | fail_if_no_progress (refine Frame.upd ?_)
    | split

theorem State.moveBlocksFrom_frame (r) (s : State) : Frame [.tiles, .hubBundles, .engines, .cel, .trans, .free] s (State.moveBlocksFrom r s) := by
  unfold State.moveBlocksFrom
  try dsimp only
  repeat' first
    | with_reducible assumption
    | with_reducible apply Frame.refl
    | with_reducible refine Frame.ite (fun _ => ?_) (fun _ => ?_)
    | with_reducible apply Frame.foldl
    | with_reducible apply Frame.foldl_fst
    | with_reducible apply Frame.after (moveSome_frame _ _ _ _ _)
    | decide
    | intro _ _ _
    | fail_if_no_progress (refine Frame.upd ?_)
    | split

theorem State.cancelEvacuation_frame (p) (s : State) : Frame [.cel, .cxl] s (State.cancelEvacuation p s) := by
  unfold State.cancelEvacuation
  try dsimp only
  repeat' first
    | with_reducible assumption
    | with_reducible apply Frame.refl
    | with_reducible refine Frame.ite (fun _ => ?_) (fun _ => ?_)
    | with_reducible apply Frame.foldl
    | with_reducible apply Frame.foldl_fst
    | with_reducible apply Frame.after (State.modCxl_frame _ _ _)
    | decide
    | intro _ _ _
    | fail_if_no_progress (refine Frame.upd ?_)
    | split

theorem State.moveHandle_frame (r) (index) (s : State) : Frame [.mem, .bytes] s (State.moveHandle r index s) := by
  unfold State.moveHandle
  try dsimp only
  repeat' first
    | with_reducible assumption
    | with_reducible apply Frame.refl
    | with_reducible refine Frame.ite (fun _ => ?_) (fun _ => ?_)
    | with_reducible apply Frame.foldl
    | with_reducible apply Frame.foldl_fst
    | with_reducible apply Frame.after (State.overwrite_frame _ _)
    | decide
    | intro _ _ _
    | fail_if_no_progress (refine Frame.upd ?_)
    | split

theorem State.moveCopies_frame (p) (s : State) : Frame [.models] s (State.moveCopies p s) := by
  unfold State.moveCopies
  try dsimp only
  repeat' first
    | with_reducible assumption
    | with_reducible apply Frame.refl
    | with_reducible refine Frame.ite (fun _ => ?_) (fun _ => ?_)
    | with_reducible apply Frame.foldl
    | with_reducible apply Frame.foldl_fst
    | with_reducible apply Frame.after (State.modModel_frame _ _ _)
    | decide
    | intro _ _ _
    | fail_if_no_progress (refine Frame.upd ?_)
    | split

theorem State.mediaEvent_frame (p) (ev) (s : State) : Frame [.ret, .cause, .flashA, .flashB, .log, .flt, .tiles, .hubBundles, .engines, .cel, .host, .cmds, .mem, .cxl, .models, .trans, .free] s (State.mediaEvent p ev s) := by
  unfold State.mediaEvent
  try dsimp only
  repeat' first
    | with_reducible assumption
    | with_reducible apply Frame.refl
    | with_reducible refine Frame.ite (fun _ => ?_) (fun _ => ?_)
    | with_reducible apply Frame.foldl
    | with_reducible apply Frame.foldl_fst
    | with_reducible apply Frame.after (State.moveBlocksFrom_frame _ _)
    | with_reducible apply Frame.after (State.moveShards_frame _ _ _)
    | with_reducible apply Frame.after (State.modCxl_frame _ _ _)
    | with_reducible apply Frame.after (State.raise_quiet (by first | with_reducible exact calm_src (by decide) (by decide) | with_reducible exact calm_bundle _ (by decide) | with_reducible exact calm_access (by assumption) | with_reducible exact calm_unmapped (by assumption) | with_reducible exact calm_scu _ | with_reducible exact calm_unmappedSource _))
    | decide
    | intro _ _ _
    | fail_if_no_progress (refine Frame.upd ?_)
    | split

theorem State.surpriseRemoval_frame (p) (keep) (s : State) : Frame [.ret, .cause, .flashA, .flashB, .log, .flt, .cel, .host, .cmds, .mem, .bytes, .cxl, .models, .sessions, .sessionGen, .migs, .runs, .launches, .trans] s (State.surpriseRemoval p keep s) := by
  unfold State.surpriseRemoval
  try dsimp only
  repeat' first
    | with_reducible assumption
    | with_reducible apply Frame.refl
    | with_reducible refine Frame.ite (fun _ => ?_) (fun _ => ?_)
    | with_reducible apply Frame.foldl
    | with_reducible apply Frame.foldl_fst
    | with_reducible apply Frame.after (State.losePort_frame _ _ _)
    | with_reducible apply Frame.after (State.modCxl_frame _ _ _)
    | with_reducible apply Frame.after (State.raise_quiet (by first | with_reducible exact calm_src (by decide) (by decide) | with_reducible exact calm_bundle _ (by decide) | with_reducible exact calm_access (by assumption) | with_reducible exact calm_unmapped (by assumption) | with_reducible exact calm_scu _ | with_reducible exact calm_unmappedSource _))
    | decide
    | intro _ _ _
    | fail_if_no_progress (refine Frame.upd ?_)
    | split

theorem State.moveBlocksOff_frame (p) (s : State) : Frame [.tiles, .hubBundles, .engines, .cel, .trans, .free] s (State.moveBlocksOff p s) := by
  unfold State.moveBlocksOff
  try dsimp only
  repeat' first
    | with_reducible assumption
    | with_reducible apply Frame.refl
    | with_reducible refine Frame.ite (fun _ => ?_) (fun _ => ?_)
    | with_reducible apply Frame.foldl
    | with_reducible apply Frame.foldl_fst
    | with_reducible apply Frame.after (moveSome_frame _ _ _ _ _)
    | decide
    | intro _ _ _
    | fail_if_no_progress (refine Frame.upd ?_)
    | split

theorem State.moveTemps_frame (r) (s : State) : Frame [.mem, .bytes, .runs] s (State.moveTemps r s) := by
  unfold State.moveTemps
  try dsimp only
  repeat' first
    | with_reducible assumption
    | with_reducible apply Frame.refl
    | with_reducible refine Frame.ite (fun _ => ?_) (fun _ => ?_)
    | with_reducible apply Frame.foldl
    | with_reducible apply Frame.foldl_fst
    | with_reducible apply Frame.after (State.overwrite_frame _ _)
    | decide
    | intro _ _ _
    | fail_if_no_progress (refine Frame.upd ?_)
    | split

theorem State.leaveBad_frame (s : State) : Frame [.ret, .cause, .flashA, .flashB, .log, .flt, .tiles, .hubBundles, .engines, .cel, .host, .cmds, .mem, .models, .trans, .free] s (State.leaveBad s) := by
  unfold State.leaveBad
  try dsimp only
  repeat' first
    | with_reducible assumption
    | with_reducible apply Frame.refl
    | with_reducible refine Frame.ite (fun _ => ?_) (fun _ => ?_)
    | with_reducible apply Frame.foldl
    | with_reducible apply Frame.foldl_fst
    | with_reducible apply Frame.after (State.moveBlocksFrom_frame _ _)
    | with_reducible apply Frame.after (State.moveShards_frame _ _ _)
    | decide
    | intro _ _ _
    | fail_if_no_progress (refine Frame.upd ?_)
    | split

theorem State.stopMovesTo_frame (p) (s : State) : Frame [.cel] s (State.stopMovesTo p s) := by
  unfold State.stopMovesTo
  try dsimp only
  repeat' first
    | with_reducible assumption
    | with_reducible apply Frame.refl
    | with_reducible refine Frame.ite (fun _ => ?_) (fun _ => ?_)
    | with_reducible apply Frame.foldl
    | with_reducible apply Frame.foldl_fst
    | decide
    | intro _ _ _
    | fail_if_no_progress (refine Frame.upd ?_)
    | split

theorem State.evacuate_frame (p) (s : State) : Frame [.tiles, .hubBundles, .engines, .cel, .cxl, .trans, .free] s (State.evacuate p s) := by
  unfold State.evacuate
  try dsimp only
  repeat' first
    | with_reducible assumption
    | with_reducible apply Frame.refl
    | with_reducible refine Frame.ite (fun _ => ?_) (fun _ => ?_)
    | with_reducible apply Frame.foldl
    | with_reducible apply Frame.foldl_fst
    | with_reducible apply Frame.after (State.moveBlocksOff_frame _ _)
    | with_reducible apply Frame.after (State.stopMovesTo_frame _ _)
    | with_reducible apply Frame.after (State.modCxl_frame _ _ _)
    | decide
    | intro _ _ _
    | fail_if_no_progress (refine Frame.upd ?_)
    | split

theorem State.askOffline_frame (p) (s : State) : Frame [.tiles, .hubBundles, .engines, .cel, .cxl, .trans, .free] s (State.askOffline p s).1 := by
  unfold State.askOffline
  try dsimp only
  repeat' first
    | with_reducible assumption
    | with_reducible apply Frame.refl
    | with_reducible refine Frame.ite (fun _ => ?_) (fun _ => ?_)
    | with_reducible apply Frame.foldl
    | with_reducible apply Frame.foldl_fst
    | with_reducible apply Frame.after (State.cancelEvacuation_frame _ _)
    | with_reducible apply Frame.after (State.evacuate_frame _ _)
    | decide
    | intro _ _ _
    | fail_if_no_progress (refine Frame.upd ?_)
    | split

theorem State.shardToPeer_frame (model) (index) (epoch) (s : State) : Frame [.tiles, .hubBundles, .engines, .models, .trans, .free] s (State.shardToPeer model index epoch s) := by
  unfold State.shardToPeer
  try dsimp only
  repeat' first
    | with_reducible assumption
    | with_reducible apply Frame.refl
    | with_reducible refine Frame.ite (fun _ => ?_) (fun _ => ?_)
    | with_reducible apply Frame.foldl
    | with_reducible apply Frame.foldl_fst
    | with_reducible apply Frame.after (State.modModel_frame _ _ _)
    | with_reducible apply Frame.after (State.request_frame _ _)
    | with_reducible apply Frame.after (State.spend_frame _ _)
    | decide
    | intro _ _ _
    | fail_if_no_progress (refine Frame.upd ?_)
    | split

theorem State.shardsToPeers_frame (r) (s : State) : Frame [.tiles, .hubBundles, .engines, .models, .trans, .free] s (State.shardsToPeers r s) := by
  unfold State.shardsToPeers
  try dsimp only
  repeat' first
    | with_reducible assumption
    | with_reducible apply Frame.refl
    | with_reducible refine Frame.ite (fun _ => ?_) (fun _ => ?_)
    | with_reducible apply Frame.foldl
    | with_reducible apply Frame.foldl_fst
    | with_reducible apply Frame.after (State.shardToPeer_frame _ _ _ _)
    | decide
    | intro _ _ _
    | fail_if_no_progress (refine Frame.upd ?_)
    | split

theorem State.moveImages_frame (p) (s : State) : Frame [.mem, .launches] s (State.moveImages p s) := by
  unfold State.moveImages
  try dsimp only
  repeat' first
    | with_reducible assumption
    | with_reducible apply Frame.refl
    | with_reducible refine Frame.ite (fun _ => ?_) (fun _ => ?_)
    | with_reducible apply Frame.foldl
    | with_reducible apply Frame.foldl_fst
    | with_reducible apply Frame.after (State.overwrite_frame _ _)
    | decide
    | intro _ _ _
    | fail_if_no_progress (refine Frame.upd ?_)
    | split

theorem State.clearPort_frame (p) (s : State) : Frame [.ret, .cause, .flashA, .flashB, .log, .flt, .tiles, .hubBundles, .engines, .cel, .host, .cmds, .mem, .bytes, .models, .runs, .launches, .trans, .free] s (State.clearPort p s) := by
  unfold State.clearPort
  try dsimp only
  repeat' first
    | with_reducible assumption
    | with_reducible apply Frame.refl
    | with_reducible refine Frame.ite (fun _ => ?_) (fun _ => ?_)
    | with_reducible apply Frame.foldl
    | with_reducible apply Frame.foldl_fst
    | with_reducible apply Frame.after (State.shardsToPeers_frame _ _)
    | with_reducible apply Frame.after (State.moveCopies_frame _ _)
    | with_reducible apply Frame.after (State.moveHandle_frame _ _ _)
    | with_reducible apply Frame.after (State.moveImages_frame _ _)
    | with_reducible apply Frame.after (State.moveShards_frame _ _ _)
    | with_reducible apply Frame.after (State.moveTemps_frame _ _)
    | decide
    | intro _ _ _
    | fail_if_no_progress (refine Frame.upd ?_)
    | split

/-- The event of a presence is none that stops the module. -/
theorem calm_presence (p : Nat) : severityOf (presenceSource p) ≠ 3 := by
  unfold presenceSource
  have hk : 5 + Config.presenceChecker % 43 < 64 := by omega
  have h : ∀ k < 43, severityOf (4 * 4096 + (5 + k)) ≠ 3 := by decide
  rw [severity_srcId _ _ hk]
  exact h _ (Nat.mod_lt _ (by decide))

end Sys2Proof.Machine
end

