-- ==== Sys2Proof/Laws/General.lean ====
section
/-! SUPPORT. What each operation of Machine/General.lean can change: one frame each. -/

set_option Elab.async false
namespace Sys2Proof.Machine

theorem State.badAccessBy_frame {cid} {read} {l} {s : State} {t : State} (h : State.badAccessBy cid read l s = some t) : Frame [.ret, .cause, .flashA, .flashB, .log, .flt, .host, .cmds, .mem] s t := by
  unfold State.badAccessBy at h
  try dsimp only at h
  repeat' (first | (cases h; done) | split at h | (obtain ⟨_, _, rfl⟩ := Option.map_eq_some_iff.mp h))
  all_goals (try cases h)
  all_goals repeat' first
    | with_reducible assumption
    | with_reducible apply Frame.refl
    | with_reducible refine Frame.ite (fun _ => ?_) (fun _ => ?_)
    | with_reducible apply Frame.foldl
    | with_reducible apply Frame.foldl_fst
    | with_reducible apply Frame.after (State.reportAccess_quiet (by first | with_reducible exact calm_src (by decide) (by decide) | with_reducible exact calm_bundle _ (by decide) | with_reducible exact calm_access (by assumption) | with_reducible exact calm_unmapped (by assumption) | with_reducible exact calm_scu _ | with_reducible exact calm_unmappedSource _))
    | with_reducible apply Frame.after (State.failCmd_frame _ _ _ _)
    | decide
    | intro _ _ _
    | fail_if_no_progress (refine Frame.upd ?_)
    | split

theorem State.command_frame {ps : List Part} {s0 s : State} {cid op} {body : Cmd → State → State} (h : Frame ps s0 s)
    (hb : ∀ c u, Frame ps s0 u → Frame ps s0 (body c u)) (hm : ∀ p ∈ [Part.cmds], p ∈ ps) : Frame ps s0 (State.command s cid op body) := by
  unfold State.command
  split
  · exact hb _ _ (h.step (State.startCmd_frame ..) hm)
  · exact h

theorem State.finishBytes_frame (cid) (status) (bytes) (s : State) : Frame [.cmds] s (State.finishBytes cid status bytes s) := by
  unfold State.finishBytes
  try dsimp only
  repeat' first
    | with_reducible assumption
    | with_reducible apply Frame.refl
    | with_reducible refine Frame.ite (fun _ => ?_) (fun _ => ?_)
    | with_reducible apply Frame.foldl
    | with_reducible apply Frame.foldl_fst
    | with_reducible apply Frame.after (State.endCmd_frame _ _ _)
    | decide
    | intro _ _ _
    | fail_if_no_progress (refine Frame.upd ?_)
    | split

theorem State.finishWrites_frame (cid) (status) (fields) (writes) (s : State) : Frame [.cmds] s (State.finishWrites cid status fields writes s) := by
  unfold State.finishWrites
  try dsimp only
  repeat' first
    | with_reducible assumption
    | with_reducible apply Frame.refl
    | with_reducible refine Frame.ite (fun _ => ?_) (fun _ => ?_)
    | with_reducible apply Frame.foldl
    | with_reducible apply Frame.foldl_fst
    | with_reducible apply Frame.after (State.endCmd_frame _ _ _)
    | decide
    | intro _ _ _
    | fail_if_no_progress (refine Frame.upd ?_)
    | split

theorem State.hostCommand_frame {ps : List Part} {s0 s : State} {cid op} {check : Cmd → State → Option State} {body : Cmd → State → State}
    (h : Frame ps s0 s) (hc : ∀ c u v, Frame ps s0 u → check c u = some v → Frame ps s0 v) (hb : ∀ c u, Frame ps s0 u → Frame ps s0 (body c u))
    (hm : ∀ p ∈ [Part.cmds], p ∈ ps) (hs : op = 0x22 ∨ op = 0x23 → ∀ p ∈ [Part.sessions], p ∈ ps := by decide) :
    Frame ps s0 (State.hostCommand s cid op check body) := by
  unfold State.hostCommand
  refine State.command_frame h (fun c u hu => ?_) hm
  split
  · rename_i v hv
    split at hv
    · cases hv
    · exact hc c u v hu hv
  · exact Frame.ite (fun _ => hb c u hu) (fun _ => Frame.ite (fun _ => h) (fun _ =>
      Frame.ite (fun ho => (h.step (State.modCmd_frame ..) hm).step (State.joinQueue_frame ..) (hs ho)) (fun _ => h.step (State.modCmd_frame ..) hm)))

theorem State.commandReading_frame {ps : List Part} {s0 s : State} {cid op reads} {check : Cmd → State → Option State} {body : Cmd → State → State}
    (h : Frame ps s0 s) (hc : ∀ c u v, Frame ps s0 u → check c u = some v → Frame ps s0 v) (hb : ∀ c u, Frame ps s0 u → Frame ps s0 (body c u))
    (hm : ∀ p ∈ [Part.cmds], p ∈ ps) (hs : op = 0x22 ∨ op = 0x23 → ∀ p ∈ [Part.sessions], p ∈ ps := by decide) :
    Frame ps s0 (State.commandReading s cid op reads check body) := by
  unfold State.commandReading
  refine Frame.ite (fun _ => State.hostCommand_frame h hc hb hm hs) (fun _ => State.command_frame h (fun c u hu => ?_) hm)
  cases hv : check c u with
  | none => exact hb c u hu
  | some v => exact hc c u v hu hv

theorem State.setFeature_frame {ps : List Part} {s0 s : State} {cid op} {body : Cmd → State → State} (h : Frame ps s0 s)
    (hb : ∀ c u, Frame ps s0 u → Frame ps s0 (body c u)) (hm : ∀ p ∈ [Part.cmds], p ∈ ps) : Frame ps s0 (State.setFeature s cid op body) := by
  unfold State.setFeature
  split
  · split
    · exact State.command_frame h hb hm
    · exact h
  · exact h

end Sys2Proof.Machine
end

