-- ==== Sys2Proof/Laws/Diagnostics.lean ====
section
/-! SUPPORT. What each operation of Machine/Diagnostics.lean can change: one frame each. -/

set_option Elab.async false
namespace Sys2Proof.Machine

theorem State.force_frame (cid) (s : State) : Frame [.tiles, .hubBundles, .engines, .cel, .host, .cmds, .models, .sessions, .sessionGen, .migs, .runs, .launches, .trans, .free] s (State.force cid s) := by
  unfold State.force
  try dsimp only
  repeat' first
    | with_reducible assumption
    | with_reducible apply Frame.refl
    | with_reducible refine Frame.ite (fun _ => ?_) (fun _ => ?_)
    | with_reducible apply Frame.foldl
    | with_reducible apply Frame.foldl_fst
    | with_reducible apply Frame.after (State.releaseOrphans_frame _)
    | with_reducible apply Frame.after (State.dropSession_frame _ _)
    | decide
    | intro _ _ _
    | fail_if_no_progress (refine Frame.upd ?_)
    | split

theorem State.forceCommand_frame {ps : List Part} {s0 s : State} {cid op} {act : State → State} (h : Frame ps s0 s)
    (hb : ∀ u, Frame ps s0 u → Frame ps s0 (act u)) (hm : ∀ p ∈ ([.tiles, .hubBundles, .engines, .cel, .host, .cmds, .models, .sessions, .sessionGen, .migs, .runs, .launches, .trans, .free] : List Part), p ∈ ps) :
    Frame ps s0 (State.forceCommand s cid op act) := by
  have hh : ∀ p ∈ [Part.cmds], p ∈ ps := fun p hp => hm p (by revert p; decide)
  unfold State.forceCommand
  repeat' first
    | with_reducible assumption
    | with_reducible refine Frame.step ?_ (State.finishCmd_frame ..) hh
    | with_reducible refine Frame.step ?_ (State.startCmd_frame ..) hh
    | with_reducible refine Frame.step ?_ (State.force_frame ..) (fun p hp => hm p (by revert p; decide))
    | with_reducible refine hb _ ?_
    | (refine Frame.step ?_ (Frame.upd (Frame.refl [Part.host] _)) (fun p hp => hm p (by revert p; decide)); assumption)
    | split

theorem State.powerCommand_frame {ps : List Part} {s0 s : State} {cid op} {act : State → State} (h : Frame ps s0 s)
    (hb : ∀ u, Frame ps s0 u → Frame ps s0 (act u)) (hm : ∀ p ∈ [Part.cmds], p ∈ ps) : Frame ps s0 (State.powerCommand s cid op act) := by
  unfold State.powerCommand
  repeat' first
    | with_reducible assumption
    | with_reducible refine Frame.step ?_ (State.finishCmd_frame ..) hm
    | with_reducible refine hb _ ?_
    | with_reducible refine State.command_frame ?_ (fun _ _ _ => ?_) hm
    | split

theorem State.remapTiles_frame (s : State) : Frame [.tiles] s (State.remapTiles s) := by
  unfold State.remapTiles
  try dsimp only
  repeat' first
    | with_reducible assumption
    | with_reducible apply Frame.refl
    | with_reducible refine Frame.ite (fun _ => ?_) (fun _ => ?_)
    | with_reducible apply Frame.foldl
    | with_reducible apply Frame.foldl_fst
    | decide
    | intro _ _ _
    | fail_if_no_progress (refine Frame.upd ?_)
    | split

theorem State.selftest_frame {ps : List Part} {s0 s : State} {cid op} {body : Cmd → State → State} (h : Frame ps s0 s)
    (hb : ∀ c u, Frame ps s0 u → Frame ps s0 (body c u)) (hm : ∀ p ∈ [Part.cmds], p ∈ ps) : Frame ps s0 (State.selftest s cid op body) := by
  unfold State.selftest
  split
  · split
    · exact State.command_frame h hb hm
    · exact h
  · exact h

theorem State.shutDown_frame (data) (s : State) : Frame [.pins, .ret, .boot, .flashA, .flashB, .log, .tiles, .engines, .els, .mem, .bytes, .runs, .launches] s (State.shutDown data s) := by
  unfold State.shutDown
  try dsimp only
  repeat' first
    | with_reducible assumption
    | with_reducible apply Frame.refl
    | with_reducible refine Frame.ite (fun _ => ?_) (fun _ => ?_)
    | with_reducible apply Frame.foldl
    | with_reducible apply Frame.foldl_fst
    | with_reducible apply Frame.after (State.commitOpen_frame _)
    | with_reducible apply Frame.after (State.lasersOff_frame _)
    | with_reducible apply Frame.after (State.loseLocal_frame _)
    | with_reducible apply Frame.after (State.holdDies_frame _)
    | with_reducible apply Frame.after (State.logEvent_frame _ _ _ _ _ _)
    | decide
    | intro _ _ _
    | fail_if_no_progress (refine Frame.upd ?_)
    | split

theorem State.takeIndex_frame (s : State) : Frame [.ret, .cause, .flashA, .flashB, .log, .sec, .flt, .host, .cmds] s (State.takeIndex s) := by
  unfold State.takeIndex
  try dsimp only
  repeat' first
    | with_reducible assumption
    | with_reducible apply Frame.refl
    | with_reducible refine Frame.ite (fun _ => ?_) (fun _ => ?_)
    | with_reducible apply Frame.foldl
    | with_reducible apply Frame.foldl_fst
    | with_reducible apply Frame.after (State.reserveBatch_frame _)
    | decide
    | intro _ _ _
    | fail_if_no_progress (refine Frame.upd ?_)
    | split

end Sys2Proof.Machine
end

