-- ==== Sys2Proof/Laws/Thermal.lean ====
section
/-! SUPPORT. What each operation of Machine/Thermal.lean can change: one frame each. -/

set_option Elab.async false
namespace Sys2Proof.Machine

theorem State.foresee_frame (e) (side) (slot) (w) (s : State) : Frame [.pins, .ret, .cause, .flashA, .flashB, .log, .svc, .engines, .host, .free] s (State.foresee e side slot w s) := by
  unfold State.foresee
  try dsimp only
  repeat' first
    | with_reducible assumption
    | with_reducible apply Frame.refl
    | with_reducible refine Frame.ite (fun _ => ?_) (fun _ => ?_)
    | with_reducible apply Frame.foldl
    | with_reducible apply Frame.foldl_fst
    | with_reducible apply Frame.after (State.startChange_frame _ _ _ _)
    | with_reducible apply Frame.after (State.modOeRing_frame _ _ _ _)
    | with_reducible apply Frame.after (State.raiseOnce_frame _ _ _ _)
    | with_reducible apply Frame.after (State.sendMaps_frame _ _ _ _)
    | with_reducible apply Frame.after (State.modDir_frame _ _ _ _)
    | with_reducible apply Frame.after (State.spend_frame _ _)
    | decide
    | intro _ _ _
    | fail_if_no_progress (refine Frame.upd ?_)
    | split

theorem State.markSensor_frame (x) (broken) (s : State) : Frame [.tiles, .engines, .th] s (State.markSensor x broken s) := by
  unfold State.markSensor
  try dsimp only
  repeat' first
    | with_reducible assumption
    | with_reducible apply Frame.refl
    | with_reducible refine Frame.ite (fun _ => ?_) (fun _ => ?_)
    | with_reducible apply Frame.foldl
    | with_reducible apply Frame.foldl_fst
    | with_reducible apply Frame.after (State.modEngine_frame _ _ _)
    | with_reducible apply Frame.after (State.modTile_frame _ _ _)
    | decide
    | intro _ _ _
    | fail_if_no_progress (refine Frame.upd ?_)
    | split

theorem State.sensorFails_frame (x) (s : State) : Frame [.pins, .ret, .cause, .flashA, .flashB, .log, .flt, .svc, .tiles, .hubBundles, .engines, .th, .cel, .host, .cmds, .mem, .bytes, .models, .sessions, .sessionGen, .migs, .runs, .launches, .trans, .stop] s (State.sensorFails x s) := by
  unfold State.sensorFails
  try dsimp only
  repeat' first
    | with_reducible assumption
    | with_reducible apply Frame.refl
    | with_reducible refine Frame.ite (fun _ => ?_) (fun _ => ?_)
    | with_reducible apply Frame.foldl
    | with_reducible apply Frame.foldl_fst
    | with_reducible apply Frame.after (State.markSensor_frame _ _ _)
    | with_reducible apply Frame.after (State.retireTile_frame _ _ _)
    | with_reducible apply Frame.after (State.engineOut_frame _ _ _)
    | with_reducible apply Frame.after (State.raiseOnce_frame _ _ _ _)
    | with_reducible apply Frame.after (State.raiseFor_quiet (by first | with_reducible exact calm_src (by decide) (by decide) | with_reducible exact calm_bundle _ (by decide) | with_reducible exact calm_access (by assumption) | with_reducible exact calm_unmapped (by assumption) | with_reducible exact calm_scu _ | with_reducible exact calm_unmappedSource _))
    | with_reducible apply Frame.after (State.raiseFor_frame _ _ _ _)
    | with_reducible apply Frame.after (State.raise_quiet (by first | with_reducible exact calm_src (by decide) (by decide) | with_reducible exact calm_bundle _ (by decide) | with_reducible exact calm_access (by assumption) | with_reducible exact calm_unmapped (by assumption) | with_reducible exact calm_scu _ | with_reducible exact calm_unmappedSource _))
    | with_reducible apply Frame.after (State.raise_frame _ _ _)
    | decide
    | intro _ _ _
    | fail_if_no_progress (refine Frame.upd ?_)
    | split

theorem State.setCeiling_frame (c) (s : State) : Frame [.ret, .cause, .flashA, .flashB, .log, .flt, .th, .host, .cmds] s (State.setCeiling c s) := by
  unfold State.setCeiling
  try dsimp only
  repeat' first
    | with_reducible assumption
    | with_reducible apply Frame.refl
    | with_reducible refine Frame.ite (fun _ => ?_) (fun _ => ?_)
    | with_reducible apply Frame.foldl
    | with_reducible apply Frame.foldl_fst
    | with_reducible apply Frame.after (State.raise_quiet (by first | with_reducible exact calm_src (by decide) (by decide) | with_reducible exact calm_bundle _ (by decide) | with_reducible exact calm_access (by assumption) | with_reducible exact calm_unmapped (by assumption) | with_reducible exact calm_scu _ | with_reducible exact calm_unmappedSource _))
    | decide
    | intro _ _ _
    | fail_if_no_progress (refine Frame.upd ?_)
    | split

theorem State.trip_keeps (kind source reading) (s : State) : Keeps s (State.trip kind source reading s) := by
  unfold State.trip
  split
  · exact Keeps.refl s
  · exact (State.powerLost_keeps s).trans ⟨rfl, fun i => ⟨i.memory, i.tiles, i.hubBundles, i.engines, i.els, i.cxl, i.models, i.scu, fun _ => rfl⟩⟩

end Sys2Proof.Machine
end

