-- ==== Sys2Proof/Laws/Tiles.lean ====
section
/-! SUPPORT. What each operation of Machine/Tiles.lean can change: one frame each. -/

set_option Elab.async false
namespace Sys2Proof.Machine

theorem State.cellOut_frame (n) (k) (source) (s : State) : Frame [.pins, .ret, .cause, .flashA, .flashB, .log, .flt, .svc, .tiles, .hubBundles, .engines, .cel, .host, .cmds, .mem, .bytes, .models, .sessions, .sessionGen, .migs, .runs, .launches, .trans] s (State.cellOut n k source s) := by
  unfold State.cellOut
  try dsimp only
  repeat' first
    | with_reducible assumption
    | with_reducible apply Frame.refl
    | with_reducible refine Frame.ite (fun _ => ?_) (fun _ => ?_)
    | with_reducible apply Frame.foldl
    | with_reducible apply Frame.foldl_fst
    | with_reducible apply Frame.after (State.retireCell_frame _ _ _ _)
    | with_reducible apply Frame.after (State.startDrain_frame _ _)
    | with_reducible apply Frame.after (State.modTile_frame _ _ _)
    | decide
    | intro _ _ _
    | fail_if_no_progress (refine Frame.upd ?_)
    | split

theorem State.katFailed_frame (n) (k) (ev) (s : State) : Frame [.pins, .ret, .cause, .flashA, .flashB, .log, .flt, .svc, .tiles, .hubBundles, .engines, .cel, .host, .cmds, .mem, .bytes, .models, .sessions, .sessionGen, .migs, .runs, .launches, .trans, .stop] s (State.katFailed n k ev s) := by
  unfold State.katFailed
  try dsimp only
  repeat' first
    | with_reducible assumption
    | with_reducible apply Frame.refl
    | with_reducible refine Frame.ite (fun _ => ?_) (fun _ => ?_)
    | with_reducible apply Frame.foldl
    | with_reducible apply Frame.foldl_fst
    | with_reducible apply Frame.after (State.capture_quiet (by first | exact calm_src (by decide) (by decide) | exact calm_bundle _ (by decide)))
    | with_reducible apply Frame.after (State.capture_frame _ _)
    | with_reducible apply Frame.after (State.cellOut_frame _ _ _ _)
    | with_reducible apply Frame.after (State.markCmd_frame _ _ _)
    | decide
    | intro _ _ _
    | fail_if_no_progress (refine Frame.upd ?_)
    | split

theorem State.leaveStore_frame (n) (cid) (v) (s : State) : Frame [.cel, .cmds, .mem, .bytes, .models, .sessions, .runs, .launches, .trans] s (State.leaveStore n cid v s) := by
  unfold State.leaveStore
  try dsimp only
  repeat' first
    | with_reducible assumption
    | with_reducible apply Frame.refl
    | with_reducible refine Frame.ite (fun _ => ?_) (fun _ => ?_)
    | with_reducible apply Frame.foldl
    | with_reducible apply Frame.foldl_fst
    | with_reducible apply Frame.after (State.failWork_frame _ _ _ _)
    | with_reducible apply Frame.after (State.writeMem_frame _ _ _)
    | with_reducible apply Frame.after (State.modRun_frame _ _ _)
    | decide
    | intro _ _ _
    | fail_if_no_progress (refine Frame.upd ?_)
    | split

theorem State.clearStore_frame (n) (s : State) : Frame [.cel, .cmds, .mem, .bytes, .models, .sessions, .runs, .launches, .trans] s (State.clearStore n s) := by
  unfold State.clearStore
  try dsimp only
  repeat' first
    | with_reducible assumption
    | with_reducible apply Frame.refl
    | with_reducible refine Frame.ite (fun _ => ?_) (fun _ => ?_)
    | with_reducible apply Frame.foldl
    | with_reducible apply Frame.foldl_fst
    | with_reducible apply Frame.after (State.leaveStore_frame _ _ _ _)
    | decide
    | intro _ _ _
    | fail_if_no_progress (refine Frame.upd ?_)
    | split

end Sys2Proof.Machine
end

