-- ==== Sys2Proof/Laws/FaultRows.lean ====
section
/-! SUPPORT. What each operation of Machine/FaultRows.lean can change: one frame each. -/

set_option Elab.async false
namespace Sys2Proof.Machine

theorem State.firmwareEvent_frame (ev) (s : State) : Frame [.cel, .cmds, .models, .sessions, .sessionGen, .migs, .runs, .launches, .trans] s (State.firmwareEvent ev s) := by
  unfold State.firmwareEvent
  try dsimp only
  repeat' first
    | with_reducible assumption
    | with_reducible apply Frame.refl
    | with_reducible refine Frame.ite (fun _ => ?_) (fun _ => ?_)
    | with_reducible apply Frame.foldl
    | with_reducible apply Frame.foldl_fst
    | with_reducible apply Frame.after (State.breakSession_frame _ _ _ _)
    | with_reducible apply Frame.after (State.modSession_frame _ _ _)
    | with_reducible apply Frame.after (State.failWork_frame _ _ _ _)
    | decide
    | intro _ _ _
    | fail_if_no_progress (refine Frame.upd ?_)
    | split

theorem State.retireCore_frame (c) (s : State) : Frame [.ret, .cause, .flashA, .flashB, .log, .flt, .host, .cmds, .stop] s (State.retireCore c s) := by
  unfold State.retireCore
  try dsimp only
  repeat' first
    | with_reducible assumption
    | with_reducible apply Frame.refl
    | with_reducible refine Frame.ite (fun _ => ?_) (fun _ => ?_)
    | with_reducible apply Frame.foldl
    | with_reducible apply Frame.foldl_fst
    | with_reducible apply Frame.after (State.putMirror_frame _ _)
    | with_reducible apply Frame.after (State.logEvent_frame _ _ _ _ _ _)
    | with_reducible apply Frame.after (State.raise_quiet (by first | with_reducible exact calm_src (by decide) (by decide) | with_reducible exact calm_bundle _ (by decide) | with_reducible exact calm_access (by assumption) | with_reducible exact calm_unmapped (by assumption) | with_reducible exact calm_scu _ | with_reducible exact calm_unmappedSource _))
    | with_reducible apply Frame.after (State.raise_frame _ _ _)
    | decide
    | intro _ _ _
    | fail_if_no_progress (refine Frame.upd ?_)
    | split

theorem State.retire_frame (st) (s : State) : Frame [.pins, .ret, .cause, .flashA, .flashB, .log, .flt, .svc, .tiles, .hubBundles, .engines, .els, .th, .cel, .host, .cmds, .mem, .bytes, .models, .sessions, .sessionGen, .migs, .runs, .launches, .trans, .stop] s (State.retire st s) := by
  unfold State.retire
  try dsimp only
  repeat' first
    | with_reducible assumption
    | with_reducible apply Frame.refl
    | with_reducible refine Frame.ite (fun _ => ?_) (fun _ => ?_)
    | with_reducible apply Frame.foldl
    | with_reducible apply Frame.foldl_fst
    | with_reducible apply Frame.after (State.retireBundle_frame _ _)
    | with_reducible apply Frame.after (State.retireLaser_frame _ _ _ _)
    | with_reducible apply Frame.after (State.markSensor_frame _ _ _)
    | with_reducible apply Frame.after (State.retireCore_frame _ _)
    | with_reducible apply Frame.after (State.retireRing_frame _ _ _)
    | with_reducible apply Frame.after (State.retireTile_frame _ _ _)
    | with_reducible apply Frame.after (State.putMirror_frame _ _)
    | with_reducible apply Frame.after (State.logEvent_frame _ _ _ _ _ _)
    | with_reducible apply Frame.after (State.cellOut_frame _ _ _ _)
    | with_reducible apply Frame.after (State.raise_quiet (by first | with_reducible exact calm_src (by decide) (by decide) | with_reducible exact calm_bundle _ (by decide) | with_reducible exact calm_access (by assumption) | with_reducible exact calm_unmapped (by assumption) | with_reducible exact calm_scu _ | with_reducible exact calm_unmappedSource _))
    | with_reducible apply Frame.after (State.raise_frame _ _ _)
    | decide
    | intro _ _ _
    | fail_if_no_progress (refine Frame.upd ?_)
    | split

theorem State.sensorBack_frame (res) (s : State) : Frame [.tiles, .engines, .th] s (State.sensorBack res s) := by
  unfold State.sensorBack
  try dsimp only
  repeat' first
    | with_reducible assumption
    | with_reducible apply Frame.refl
    | with_reducible refine Frame.ite (fun _ => ?_) (fun _ => ?_)
    | with_reducible apply Frame.foldl
    | with_reducible apply Frame.foldl_fst
    | with_reducible apply Frame.after (State.markSensor_frame _ _ _)
    | decide
    | intro _ _ _
    | fail_if_no_progress (refine Frame.upd ?_)
    | split

theorem State.coreBack_frame (res) (s : State) : Frame [.flt] s (State.coreBack res s) := by
  unfold State.coreBack
  try dsimp only
  repeat' first
    | with_reducible assumption
    | with_reducible apply Frame.refl
    | with_reducible refine Frame.ite (fun _ => ?_) (fun _ => ?_)
    | with_reducible apply Frame.foldl
    | with_reducible apply Frame.foldl_fst
    | decide
    | intro _ _ _
    | fail_if_no_progress (refine Frame.upd ?_)
    | split

theorem State.actOnFailure_frame (ev) (s : State) : Frame [.pins, .ret, .cause, .flashA, .flashB, .log, .sec, .flt, .svc, .tiles, .hubBundles, .engines, .th, .cel, .host, .cmds, .mem, .bytes, .models, .sessions, .sessionGen, .migs, .runs, .launches, .trans, .free, .stop] s (State.actOnFailure ev s) := by
  unfold State.actOnFailure
  try dsimp only
  repeat' first
    | with_reducible assumption
    | with_reducible apply Frame.refl
    | with_reducible refine Frame.ite (fun _ => ?_) (fun _ => ?_)
    | with_reducible apply Frame.foldl
    | with_reducible apply Frame.foldl_fst
    | with_reducible apply Frame.after (State.wrongChannel_frame _ _ _ _ _ _)
    | with_reducible apply Frame.after (State.retireGroup_frame _ _ _ _)
    | with_reducible apply Frame.after (State.sensorFails_frame _ _)
    | with_reducible apply Frame.after (State.startInline_frame _ _)
    | with_reducible apply Frame.after (State.katFailed_frame _ _ _ _)
    | with_reducible apply Frame.after (State.modOeRing_frame _ _ _ _)
    | with_reducible apply Frame.after (State.capture_quiet (by first | exact calm_src (by decide) (by decide) | exact calm_bundle _ (by decide)))
    | with_reducible apply Frame.after (State.capture_frame _ _)
    | decide
    | intro _ _ _
    | fail_if_no_progress (refine Frame.upd ?_)
    | split

end Sys2Proof.Machine
end

