-- ==== Sys2Proof/Laws/FlashRows.lean ====
section
/-! SUPPORT. What each operation of Machine/FlashRows.lean can change: one frame each. -/

set_option Elab.async false
namespace Sys2Proof.Machine

theorem State.captureUnlogged_frame (src) (s : State) : Frame [.cause, .flt, .host] s (State.captureUnlogged src s) := by
  unfold State.captureUnlogged
  try dsimp only
  repeat' first
    | with_reducible assumption
    | with_reducible apply Frame.refl
    | with_reducible refine Frame.ite (fun _ => ?_) (fun _ => ?_)
    | with_reducible apply Frame.foldl
    | with_reducible apply Frame.foldl_fst
    | with_reducible apply Frame.after (State.raiseCause_frame _ _)
    | decide
    | intro _ _ _
    | fail_if_no_progress (refine Frame.upd ?_)
    | split

theorem State.opSettled_frame (op) (s : State) : Frame [.ret, .flashA, .flashB, .log, .sec, .cmds] s (State.opSettled op s) := by
  unfold State.opSettled
  try dsimp only
  repeat' first
    | with_reducible assumption
    | with_reducible apply Frame.refl
    | with_reducible refine Frame.ite (fun _ => ?_) (fun _ => ?_)
    | with_reducible apply Frame.foldl
    | with_reducible apply Frame.foldl_fst
    | with_reducible apply Frame.after (State.finishCmd_frame _ _ _ _)
    | with_reducible apply Frame.after (State.logEvent_frame _ _ _ _ _ _)
    | decide
    | intro _ _ _
    | fail_if_no_progress (refine Frame.upd ?_)
    | split

theorem State.carryOps_frame (i) (l) (s : State) : Frame [.ret, .flashA, .flashB, .log, .sec, .cmds] s (State.carryOps i l s) := by
  unfold State.carryOps
  try dsimp only
  repeat' first
    | with_reducible assumption
    | with_reducible apply Frame.refl
    | with_reducible refine Frame.ite (fun _ => ?_) (fun _ => ?_)
    | with_reducible apply Frame.foldl
    | with_reducible apply Frame.foldl_fst
    | with_reducible apply Frame.after (State.opSettled_frame _ _)
    | with_reducible apply Frame.after (State.modFlash_frame _ _ _)
    | decide
    | intro _ _ _
    | fail_if_no_progress (refine Frame.upd ?_)
    | split

theorem State.loseOps_frame (l) (s : State) : Frame [.cmds] s (State.loseOps l s) := by
  unfold State.loseOps
  try dsimp only
  repeat' first
    | with_reducible assumption
    | with_reducible apply Frame.refl
    | with_reducible refine Frame.ite (fun _ => ?_) (fun _ => ?_)
    | with_reducible apply Frame.foldl
    | with_reducible apply Frame.foldl_fst
    | with_reducible apply Frame.after (State.finishCmd_frame _ _ _ _)
    | decide
    | intro _ _ _
    | fail_if_no_progress (refine Frame.upd ?_)
    | split

theorem State.failFlash_frame (i) (s : State) : Frame [.ret, .cause, .flashA, .flashB, .log, .sec, .flt, .host, .cmds] s (State.failFlash i s) := by
  unfold State.failFlash
  try dsimp only
  repeat' first
    | with_reducible assumption
    | with_reducible apply Frame.refl
    | with_reducible refine Frame.ite (fun _ => ?_) (fun _ => ?_)
    | with_reducible apply Frame.foldl
    | with_reducible apply Frame.foldl_fst
    | with_reducible apply Frame.after (State.captureUnlogged_frame _ _)
    | with_reducible apply Frame.after (State.commitRecord_frame _ _)
    | with_reducible apply Frame.after (State.raiseCause_frame _ _)
    | with_reducible apply Frame.after (State.putMirror_frame _ _)
    | with_reducible apply Frame.after (State.carryOps_frame _ _ _)
    | with_reducible apply Frame.after (State.modFlash_frame _ _ _)
    | with_reducible apply Frame.after (State.loseOps_frame _ _)
    | with_reducible apply Frame.after (State.raise_quiet (by first | with_reducible exact calm_src (by decide) (by decide) | with_reducible exact calm_bundle _ (by decide) | with_reducible exact calm_access (by assumption) | with_reducible exact calm_unmapped (by assumption) | with_reducible exact calm_scu _ | with_reducible exact calm_unmappedSource _))
    | decide
    | intro _ _ _
    | fail_if_no_progress (refine Frame.upd ?_)
    | split

theorem State.opDone_frame (i) (op) (s : State) : Frame [.ret, .flashA, .flashB, .log, .sec, .cmds] s (State.opDone i op s) := by
  unfold State.opDone
  try dsimp only
  repeat' first
    | with_reducible assumption
    | with_reducible apply Frame.refl
    | with_reducible refine Frame.ite (fun _ => ?_) (fun _ => ?_)
    | with_reducible apply Frame.foldl
    | with_reducible apply Frame.foldl_fst
    | with_reducible apply Frame.after (State.opSettled_frame _ _)
    | with_reducible apply Frame.after (State.modFlash_frame _ _ _)
    | decide
    | intro _ _ _
    | fail_if_no_progress (refine Frame.upd ?_)
    | split

theorem State.reportDropped_frame (s : State) : Frame [.ret, .cause, .flashA, .flashB, .log, .flt, .host, .cmds] s (State.reportDropped s) := by
  unfold State.reportDropped
  try dsimp only
  repeat' first
    | with_reducible assumption
    | with_reducible apply Frame.refl
    | with_reducible refine Frame.ite (fun _ => ?_) (fun _ => ?_)
    | with_reducible apply Frame.foldl
    | with_reducible apply Frame.foldl_fst
    | with_reducible apply Frame.after (State.raise_quiet (by first | with_reducible exact calm_src (by decide) (by decide) | with_reducible exact calm_bundle _ (by decide) | with_reducible exact calm_access (by assumption) | with_reducible exact calm_unmapped (by assumption) | with_reducible exact calm_scu _ | with_reducible exact calm_unmappedSource _))
    | decide
    | intro _ _ _
    | fail_if_no_progress (refine Frame.upd ?_)
    | split

end Sys2Proof.Machine
end

