-- ==== Sys2Proof/Laws/Frames.lean ====
section
/-! SUPPORT. What each operation of Machine/Frames.lean can change: one frame each. -/

set_option Elab.async false
namespace Sys2Proof.Machine

theorem State.takeWord_frame (e) (w) (s : State) : Frame [.ret, .cause, .flashA, .flashB, .log, .flt, .tiles, .hubBundles, .engines, .els, .host, .cmds, .trans, .free] s (State.takeWord e w s) := by
  unfold State.takeWord
  try dsimp only
  repeat' first
    | with_reducible assumption
    | with_reducible apply Frame.refl
    | with_reducible refine Frame.ite (fun _ => ?_) (fun _ => ?_)
    | with_reducible apply Frame.foldl
    | with_reducible apply Frame.foldl_fst
    | with_reducible apply Frame.after (State.onRateWidth_frame _ _ _ _ _ _)
    | with_reducible apply Frame.after (State.resumeSlot_frame _ _ _ _ _)
    | with_reducible apply Frame.after (State.pauseSlot_frame _ _ _ _ _)
    | with_reducible apply Frame.after (State.onFfeAck_frame _ _ _ _ _ _)
    | with_reducible apply Frame.after (State.onFfeReq_frame _ _ _ _ _)
    | with_reducible apply Frame.after (State.onHello_frame _ _ _)
    | with_reducible apply Frame.after (State.onTrain_frame _ _ _ _ _ _)
    | with_reducible apply Frame.after (State.onMap_frame _ _ _ _ _ _ _)
    | decide
    | intro _ _ _
    | fail_if_no_progress (refine Frame.upd ?_)
    | split

theorem State.takeNewWord_frame (e) (w) (s : State) : Frame [.ret, .cause, .flashA, .flashB, .log, .flt, .tiles, .hubBundles, .engines, .els, .host, .cmds, .trans, .free] s (State.takeNewWord e w s) := by
  unfold State.takeNewWord
  try dsimp only
  repeat' first
    | with_reducible assumption
    | with_reducible apply Frame.refl
    | with_reducible refine Frame.ite (fun _ => ?_) (fun _ => ?_)
    | with_reducible apply Frame.foldl
    | with_reducible apply Frame.foldl_fst
    | with_reducible apply Frame.after (State.modEngine_frame _ _ _)
    | with_reducible apply Frame.after (State.takeWord_frame _ _ _)
    | decide
    | intro _ _ _
    | fail_if_no_progress (refine Frame.upd ?_)
    | split

end Sys2Proof.Machine
end

