-- ==== Sys2Proof/Laws/Runs.lean ====
section
/-! SUPPORT. What each operation of Machine/Runs.lean can change: one frame each. -/

set_option Elab.async false
namespace Sys2Proof.Machine

theorem State.appendRow_frame {session} {layer} {isV} {t_} {pos} {row} {s : State} {t : State} (h : State.appendRow session layer isV t_ pos row s = some t) : Frame [.cel, .mem] s t := by
  unfold State.appendRow at h
  try dsimp only at h
  repeat' (first | (cases h; done) | split at h | (obtain ⟨_, _, rfl⟩ := Option.map_eq_some_iff.mp h))
  all_goals (try cases h)
  all_goals repeat' first
    | with_reducible assumption
    | with_reducible apply Frame.refl
    | with_reducible refine Frame.ite (fun _ => ?_) (fun _ => ?_)
    | with_reducible apply Frame.foldl
    | with_reducible apply Frame.foldl_fst
    | with_reducible apply Frame.after (State.overwrite_frame _ _)
    | decide
    | intro _ _ _
    | fail_if_no_progress (refine Frame.upd ?_)
    | split

theorem State.appendRows_frame {session layer isV d pos rows} {s t : State} (h : State.appendRows session layer isV d pos rows s = some t) :
    Frame [.cel, .mem] s t := by
  unfold State.appendRows at h
  exact Frame.foldl_bind (fun _ _ _ e => State.appendRow_frame e) h

theorem appendStep_frame {s t : State} {r x} (h : appendStep s r x = .ok t) : Frame [.cel, .mem] s t := by
  unfold appendStep at h
  generalize appendTensors s r = l at h
  have gen : ∀ (l : List (TensorDesc × Nat × Bool)) (a : Appended), (∀ u, a = .ok u → Frame [.cel, .mem] s u) →
      ∀ v, l.foldl (fun acc p => match acc with
        | .ok t =>
          match r.vals.find? (fun v => v.id == p.1.id) with
          | none => .wrongRows p.1.id
          | some v =>
            if v.dims.getD 0 0 ≠ r.tokens then .wrongRows p.1.id
            else match t.appendRows x.index p.2.1 p.2.2 p.1 x.position (rowsOfVal p.1 v) with
              | some u => .ok u
              | none => .noRoom
        | e => e) a = .ok v → Frame [.cel, .mem] s v := by
    intro l
    induction l with
    | nil => exact fun a ha v e => ha v e
    | cons p l ih =>
      intro a ha v e
      refine ih _ ?_ v e
      intro u hu
      cases a with
      | ok w =>
        dsimp only at hu
        split at hu
        · cases hu
        · split at hu
          · cases hu
          · split at hu
            · rename_i hr
              cases hu
              exact (ha w rfl).trans (State.appendRows_frame hr)
            · cases hu
      | wrongRows i => cases hu
      | noRoom => cases hu
  exact gen l (.ok s) (fun u e => by cases e; exact Frame.refl _ _) t h

theorem State.writeOutputs_frame (r) (s : State) : Frame [.mem, .bytes] s (State.writeOutputs r s) := by
  unfold State.writeOutputs
  try dsimp only
  repeat' first
    | with_reducible assumption
    | with_reducible apply Frame.refl
    | with_reducible refine Frame.ite (fun _ => ?_) (fun _ => ?_)
    | with_reducible apply Frame.foldl
    | with_reducible apply Frame.foldl_fst
    | with_reducible apply Frame.after (State.writeMem_frame _ _ _)
    | decide
    | intro _ _ _
    | fail_if_no_progress (refine Frame.upd ?_)
    | split

theorem State.closeRun_frame (r) (status) (source) (failed) (needed) (s : State) : Frame [.cel, .cmds, .models, .sessions, .runs, .trans] s (State.closeRun r status source failed needed s) := by
  unfold State.closeRun
  try dsimp only
  repeat' first
    | with_reducible assumption
    | with_reducible apply Frame.refl
    | with_reducible refine Frame.ite (fun _ => ?_) (fun _ => ?_)
    | with_reducible apply Frame.foldl
    | with_reducible apply Frame.foldl_fst
    | with_reducible apply Frame.after (State.modSession_frame _ _ _)
    | with_reducible apply Frame.after (State.dropRun_frame _ _)
    | with_reducible apply Frame.after (State.modCmd_frame _ _ _)
    | decide
    | intro _ _ _
    | fail_if_no_progress (refine Frame.upd ?_)
    | split

theorem State.noteReads_frame (r) (op) (ts) (s : State) : Frame [.tiles, .cel, .mem, .models, .runs] s (State.noteReads r op ts s) := by
  unfold State.noteReads
  try dsimp only
  repeat' first
    | with_reducible assumption
    | with_reducible apply Frame.refl
    | with_reducible refine Frame.ite (fun _ => ?_) (fun _ => ?_)
    | with_reducible apply Frame.foldl
    | with_reducible apply Frame.foldl_fst
    | with_reducible apply Frame.after (State.caskWork_frame _ _)
    | with_reducible apply Frame.after (State.modModel_frame _ _ _)
    | with_reducible apply Frame.after (State.modRun_frame _ _ _)
    | with_reducible apply Frame.after (State.touch_frame _ _ _)
    | decide
    | intro _ _ _
    | fail_if_no_progress (refine Frame.upd ?_)
    | split

theorem State.peerLost_frame (session) (peer) (status) (source) (s : State) : Frame [.cel, .cmds, .models, .sessions, .sessionGen, .migs, .runs, .launches, .trans] s (State.peerLost session peer status source s) := by
  unfold State.peerLost
  try dsimp only
  repeat' first
    | with_reducible assumption
    | with_reducible apply Frame.refl
    | with_reducible refine Frame.ite (fun _ => ?_) (fun _ => ?_)
    | with_reducible apply Frame.foldl
    | with_reducible apply Frame.foldl_fst
    | with_reducible apply Frame.after (State.breakSession_frame _ _ _ _)
    | with_reducible apply Frame.after (State.blameBlocks_frame _ _ _ _)
    | decide
    | intro _ _ _
    | fail_if_no_progress (refine Frame.upd ?_)
    | split

theorem calm_fetchFrom {s : State} {by_ : Option Nat} {l r : List Extent} {o : Operand} {st : Status} {src : Nat}
    (h : fetchFrom s by_ l o = .lost st src r) : severityOf src ≠ 3 := by
  unfold fetchFrom at h
  repeat' (first | (cases h; done) | split at h)
  cases h; exact calm_access (by assumption)

theorem calm_fetchBound {s : State} {r : Run} {by_ : Option Nat} {d : TensorDesc} {st : Status} {src : Nat} {l : List Extent}
    (h : fetchBound s r by_ d = .lost st src l) : severityOf src ≠ 3 := by
  unfold fetchBound at h
  repeat' (first | (cases h; done) | exact calm_fetchFrom h | split at h)
  cases h; decide

theorem calm_fetchWeight {s : State} {r : Run} {by_ : Option Nat} {d : TensorDesc} {st : Status} {src : Nat} {l : List Extent}
    (h : fetchWeight s r by_ d = .lost st src l) : severityOf src ≠ 3 := by
  unfold fetchWeight at h
  dsimp only at h
  repeat' (first | (cases h; done) | exact calm_fetchFrom h | split at h)
  all_goals (cases h; decide)

theorem calm_fetchCache {s : State} {r : Run} {op : Nat} {d : TensorDesc} {x : Session} {layer : Nat} {isV : Bool} {st : Status} {src : Nat}
    {l : List Extent} (h : fetchCache s r op d x layer isV = .lost st src l) : severityOf src ≠ 3 := by
  unfold fetchCache at h
  dsimp only at h
  repeat' (first | (cases h; done) | split at h)
  all_goals (cases h; exact calm_access (by assumption))

/-- An input that cannot be read names no S3 source. -/
theorem calm_fetchTensor {s : State} {r : Run} {op : Nat} {d : TensorDesc} {st : Status} {src : Nat} {l : List Extent}
    (h : fetchTensor s r op d = .lost st src l) : severityOf src ≠ 3 := by
  unfold fetchTensor at h
  repeat' (first | (cases h; done) | exact calm_fetchFrom h | exact calm_fetchCache h | exact calm_fetchBound h | exact calm_fetchWeight h | split at h)

theorem calm_fetchAll {s : State} {r : Run} {op : Nat} {ts : List TensorDesc} {st : Status} {src : Nat} {l : List Extent}
    (h : fetchAll s r op ts = .error (.lost st src l)) : severityOf src ≠ 3 := by
  induction ts with
  | nil => cases h
  | cons t ts ih =>
    unfold fetchAll at h
    split at h
    · split at h <;> [cases h; (cases h; exact ih (by assumption))]
    · exact calm_fetchTensor (Except.error.inj h)

theorem State.closeFailed_frame (r) (s : State) : Frame [.cel, .cmds, .models, .sessions, .runs, .trans] s (State.closeFailed r s) := by
  unfold State.closeFailed
  try dsimp only
  repeat' first
    | with_reducible assumption
    | with_reducible apply Frame.refl
    | with_reducible refine Frame.ite (fun _ => ?_) (fun _ => ?_)
    | with_reducible apply Frame.foldl
    | with_reducible apply Frame.foldl_fst
    | with_reducible apply Frame.after (State.closeRun_frame _ _ _ _ _ _)
    | decide
    | intro _ _ _
    | fail_if_no_progress (refine Frame.upd ?_)
    | split

theorem State.settleRun_frame (cid) (s : State) : Frame [.ret, .cause, .flashA, .flashB, .log, .flt, .tiles, .cel, .host, .cmds, .mem, .bytes, .models, .sessions, .runs, .trans] s (State.settleRun cid s) := by
  unfold State.settleRun
  try dsimp only
  repeat' first
    | with_reducible assumption
    | with_reducible apply Frame.refl
    | with_reducible refine Frame.ite (fun _ => ?_) (fun _ => ?_)
    | with_reducible apply Frame.foldl
    | with_reducible apply Frame.foldl_fst
    | with_reducible apply Frame.after (appendStep_frame (by assumption))
    | with_reducible apply Frame.after (State.reportAccess_quiet (by first | with_reducible exact calm_src (by decide) (by decide) | with_reducible exact calm_bundle _ (by decide) | with_reducible exact calm_access (by assumption) | with_reducible exact calm_unmapped (by assumption) | with_reducible exact calm_scu _ | with_reducible exact calm_unmappedSource _))
    | with_reducible apply Frame.after (State.writeOutputs_frame _ _)
    | with_reducible apply Frame.after (State.closeFailed_frame _ _)
    | with_reducible apply Frame.after (State.caskWork_frame _ _)
    | with_reducible apply Frame.after (State.closeRun_frame _ _ _ _ _ _)
    | decide
    | intro _ _ _
    | fail_if_no_progress (refine Frame.upd ?_)
    | split

theorem State.opFailed_frame (cid) (op) (status) (data) (s : State) : Frame [.ret, .cause, .flashA, .flashB, .log, .flt, .tiles, .cel, .host, .cmds, .mem, .bytes, .models, .sessions, .runs, .trans] s (State.opFailed cid op status data s) := by
  unfold State.opFailed
  try dsimp only
  repeat' first
    | with_reducible assumption
    | with_reducible apply Frame.refl
    | with_reducible refine Frame.ite (fun _ => ?_) (fun _ => ?_)
    | with_reducible apply Frame.foldl
    | with_reducible apply Frame.foldl_fst
    | with_reducible apply Frame.after (State.settleRun_frame _ _)
    | with_reducible apply Frame.after (State.modRun_frame _ _ _)
    | decide
    | intro _ _ _
    | fail_if_no_progress (refine Frame.upd ?_)
    | split

theorem State.settleRuns_frame (s : State) : Frame [.ret, .cause, .flashA, .flashB, .log, .flt, .tiles, .cel, .host, .cmds, .mem, .bytes, .models, .sessions, .runs, .trans] s (State.settleRuns s) := by
  unfold State.settleRuns
  try dsimp only
  repeat' first
    | with_reducible assumption
    | with_reducible apply Frame.refl
    | with_reducible refine Frame.ite (fun _ => ?_) (fun _ => ?_)
    | with_reducible apply Frame.foldl
    | with_reducible apply Frame.foldl_fst
    | with_reducible apply Frame.after (State.settleRun_frame _ _)
    | decide
    | intro _ _ _
    | fail_if_no_progress (refine Frame.upd ?_)
    | split

theorem State.recordSuspect_frame (cid) (op) (s : State) : Frame [.ret, .cause, .flashA, .flashB, .log, .flt, .tiles, .cel, .host, .cmds, .mem, .bytes, .models, .sessions, .runs, .trans] s (State.recordSuspect cid op s) := by
  unfold State.recordSuspect
  try dsimp only
  repeat' first
    | with_reducible assumption
    | with_reducible apply Frame.refl
    | with_reducible refine Frame.ite (fun _ => ?_) (fun _ => ?_)
    | with_reducible apply Frame.foldl
    | with_reducible apply Frame.foldl_fst
    | with_reducible apply Frame.after (State.opFailed_frame _ _ _ _ _)
    | with_reducible apply Frame.after (State.capture_quiet (by first | exact calm_src (by decide) (by decide) | exact calm_bundle _ (by decide)))
    | decide
    | intro _ _ _
    | fail_if_no_progress (refine Frame.upd ?_)
    | split

theorem State.putTemp_frame (cid) (site) (v) (s : State) : Frame [.mem, .bytes, .runs] s (State.putTemp cid site v s) := by
  unfold State.putTemp
  try dsimp only
  repeat' first
    | with_reducible assumption
    | with_reducible apply Frame.refl
    | with_reducible refine Frame.ite (fun _ => ?_) (fun _ => ?_)
    | with_reducible apply Frame.foldl
    | with_reducible apply Frame.foldl_fst
    | with_reducible apply Frame.after (State.writeMem_frame _ _ _)
    | with_reducible apply Frame.after (State.modRun_frame _ _ _)
    | decide
    | intro _ _ _
    | fail_if_no_progress (refine Frame.upd ?_)
    | split

theorem State.putTemps_frame (cid) (site) (ts) (outs) (s : State) : Frame [.mem, .bytes, .runs] s (State.putTemps cid site ts outs s) := by
  unfold State.putTemps
  try dsimp only
  repeat' first
    | with_reducible assumption
    | with_reducible apply Frame.refl
    | with_reducible refine Frame.ite (fun _ => ?_) (fun _ => ?_)
    | with_reducible apply Frame.foldl
    | with_reducible apply Frame.foldl_fst
    | with_reducible apply Frame.after (State.putTemp_frame _ _ _ _)
    | decide
    | intro _ _ _
    | fail_if_no_progress (refine Frame.upd ?_)
    | split

theorem State.runOp_frame (cid) (op) (code) (f) (s : State) : Frame [.ret, .cause, .flashA, .flashB, .log, .flt, .tiles, .cel, .host, .cmds, .mem, .bytes, .models, .sessions, .sessionGen, .migs, .runs, .launches, .trans, .free] s (State.runOp cid op code f s) := by
  unfold State.runOp
  try dsimp only
  repeat' first
    | with_reducible assumption
    | with_reducible apply Frame.refl
    | with_reducible refine Frame.ite (fun _ => ?_) (fun _ => ?_)
    | with_reducible apply Frame.foldl
    | with_reducible apply Frame.foldl_fst
    | with_reducible apply Frame.after (State.recordSuspect_frame _ _ _)
    | with_reducible apply Frame.after (State.reportAccess_quiet (by first | with_reducible exact calm_src (by decide) (by decide) | with_reducible exact calm_bundle _ (by decide) | with_reducible exact calm_access (by assumption) | with_reducible exact calm_unmapped (by assumption) | with_reducible exact calm_scu _ | with_reducible exact calm_unmappedSource _ | with_reducible exact calm_fetchAll (by assumption)))
    | with_reducible apply Frame.after (State.noteReads_frame _ _ _ _)
    | with_reducible apply Frame.after (State.settleRun_frame _ _)
    | with_reducible apply Frame.after (State.opFailed_frame _ _ _ _ _)
    | with_reducible apply Frame.after (State.peerLost_frame _ _ _ _ _)
    | with_reducible apply Frame.after (State.putTemps_frame _ _ _ _ _)
    | with_reducible apply Frame.after (State.modRun_frame _ _ _)
    | with_reducible apply Frame.after (State.spend_frame _ _)
    | decide
    | intro _ _ _
    | fail_if_no_progress (refine Frame.upd ?_)
    | split

theorem State.queueUnits_frame (cid) (role) (s : State) : Frame [.cel] s (State.queueUnits cid role s) := by
  unfold State.queueUnits
  try dsimp only
  repeat' first
    | with_reducible assumption
    | with_reducible apply Frame.refl
    | with_reducible refine Frame.ite (fun _ => ?_) (fun _ => ?_)
    | with_reducible apply Frame.foldl
    | with_reducible apply Frame.foldl_fst
    | decide
    | intro _ _ _
    | fail_if_no_progress (refine Frame.upd ?_)
    | split

theorem State.beginRun_frame (cid) (role) (s : State) : Frame [.ret, .cause, .flashA, .flashB, .log, .flt, .tiles, .hubBundles, .engines, .cel, .host, .cmds, .mem, .bytes, .models, .sessions, .runs, .trans, .free] s (State.beginRun cid role s) := by
  unfold State.beginRun
  try dsimp only
  repeat' first
    | with_reducible assumption
    | with_reducible apply Frame.refl
    | with_reducible refine Frame.ite (fun _ => ?_) (fun _ => ?_)
    | with_reducible apply Frame.foldl
    | with_reducible apply Frame.foldl_fst
    | with_reducible apply Frame.after (State.queueUnits_frame _ _ _)
    | with_reducible apply Frame.after (State.settleRun_frame _ _)
    | with_reducible apply Frame.after (State.writeMem_frame _ _ _)
    | with_reducible apply Frame.after (State.request_frame _ _)
    | with_reducible apply Frame.after (State.modRun_frame _ _ _)
    | with_reducible apply Frame.after (State.spend_frame _ _)
    | decide
    | intro _ _ _
    | fail_if_no_progress (refine Frame.upd ?_)
    | split

theorem State.addRun_frame (r) (role) (s : State) : Frame [.cel, .runs] s (State.addRun r role s) := by
  unfold State.addRun
  try dsimp only
  repeat' first
    | with_reducible assumption
    | with_reducible apply Frame.refl
    | with_reducible refine Frame.ite (fun _ => ?_) (fun _ => ?_)
    | with_reducible apply Frame.foldl
    | with_reducible apply Frame.foldl_fst
    | with_reducible apply Frame.after (State.queueUnits_frame _ _ _)
    | decide
    | intro _ _ _
    | fail_if_no_progress (refine Frame.upd ?_)
    | split

end Sys2Proof.Machine
end

