-- ==== Sys2Proof/Laws/GraphRows.lean ====
section
/-! SUPPORT. What each operation of Machine/GraphRows.lean can change: one frame each. -/

set_option Elab.async false
namespace Sys2Proof.Machine

theorem State.sendParts_frame (cid) (op) (code) (s : State) : Frame [.tiles, .hubBundles, .engines, .runs, .trans] s (State.sendParts cid op code s) := by
  unfold State.sendParts
  try dsimp only
  repeat' first
    | with_reducible assumption
    | with_reducible apply Frame.refl
    | with_reducible refine Frame.ite (fun _ => ?_) (fun _ => ?_)
    | with_reducible apply Frame.foldl
    | with_reducible apply Frame.foldl_fst
    | with_reducible apply Frame.after (State.request_frame _ _)
    | with_reducible apply Frame.after (State.modRun_frame _ _ _)
    | decide
    | intro _ _ _
    | fail_if_no_progress (refine Frame.upd ?_)
    | split

theorem State.runCollective_frame (cid) (op) (code) (parts) (f) (s : State) : Frame [.ret, .cause, .flashA, .flashB, .log, .flt, .tiles, .hubBundles, .engines, .cel, .host, .cmds, .mem, .bytes, .models, .sessions, .sessionGen, .migs, .runs, .launches, .trans, .free] s (State.runCollective cid op code parts f s) := by
  unfold State.runCollective
  try dsimp only
  repeat' first
    | with_reducible assumption
    | with_reducible apply Frame.refl
    | with_reducible refine Frame.ite (fun _ => ?_) (fun _ => ?_)
    | with_reducible apply Frame.foldl
    | with_reducible apply Frame.foldl_fst
    | with_reducible apply Frame.after (State.sendParts_frame _ _ _ _)
    | with_reducible apply Frame.after (State.runOp_frame _ _ _ _ _)
    | decide
    | intro _ _ _
    | fail_if_no_progress (refine Frame.upd ?_)
    | split

theorem State.runMatrix_frame (cid) (op) (code) (residue) (f) (s : State) : Frame [.ret, .cause, .flashA, .flashB, .log, .flt, .tiles, .cel, .host, .cmds, .mem, .bytes, .models, .sessions, .sessionGen, .migs, .runs, .launches, .trans, .free] s (State.runMatrix cid op code residue f s) := by
  unfold State.runMatrix
  try dsimp only
  repeat' first
    | with_reducible assumption
    | with_reducible apply Frame.refl
    | with_reducible refine Frame.ite (fun _ => ?_) (fun _ => ?_)
    | with_reducible apply Frame.foldl
    | with_reducible apply Frame.foldl_fst
    | with_reducible apply Frame.after (State.opFailed_frame _ _ _ _ _)
    | with_reducible apply Frame.after (State.capture_quiet (by first | exact calm_src (by decide) (by decide) | exact calm_bundle _ (by decide)))
    | with_reducible apply Frame.after (State.runOp_frame _ _ _ _ _)
    | decide
    | intro _ _ _
    | fail_if_no_progress (refine Frame.upd ?_)
    | split

theorem State.tryBegin_frame (cid) (role) (s : State) : Frame [.ret, .cause, .flashA, .flashB, .log, .flt, .tiles, .hubBundles, .engines, .cel, .host, .cmds, .mem, .bytes, .models, .sessions, .runs, .trans, .free] s (State.tryBegin cid role s) := by
  unfold State.tryBegin
  try dsimp only
  repeat' first
    | with_reducible assumption
    | with_reducible apply Frame.refl
    | with_reducible refine Frame.ite (fun _ => ?_) (fun _ => ?_)
    | with_reducible apply Frame.foldl
    | with_reducible apply Frame.foldl_fst
    | with_reducible apply Frame.after (State.beginRun_frame _ _ _)
    | decide
    | intro _ _ _
    | fail_if_no_progress (refine Frame.upd ?_)
    | split

theorem graphRunStop_frame {c} {s : State} {t : State} (h : graphRunStop c s = some t) : Frame [.cmds] s t := by
  unfold graphRunStop at h
  try dsimp only at h
  repeat' (first | (cases h; done) | split at h | (obtain ⟨_, _, rfl⟩ := Option.map_eq_some_iff.mp h))
  all_goals (try cases h)
  all_goals repeat' first
    | with_reducible assumption
    | with_reducible apply Frame.refl
    | with_reducible refine Frame.ite (fun _ => ?_) (fun _ => ?_)
    | with_reducible apply Frame.foldl
    | with_reducible apply Frame.foldl_fst
    | with_reducible apply Frame.after (State.finishCmd_frame _ _ _ _)
    | decide
    | intro _ _ _
    | fail_if_no_progress (refine Frame.upd ?_)
    | split

end Sys2Proof.Machine
end

