-- ==== Sys2Proof/Laws/Host.lean ====
section
/-! SUPPORT. What each operation of Machine/Host.lean can change: one frame each. -/

set_option Elab.async false
namespace Sys2Proof.Machine

theorem State.badAccess_frame (data) (s : State) : Frame [.ret, .cause, .flashA, .flashB, .log, .flt, .host, .cmds] s (State.badAccess data s) := by
  unfold State.badAccess
  try dsimp only
  repeat' first
    | with_reducible assumption
    | with_reducible apply Frame.refl
    | with_reducible refine Frame.ite (fun _ => ?_) (fun _ => ?_)
    | with_reducible apply Frame.foldl
    | with_reducible apply Frame.foldl_fst
    | with_reducible apply Frame.after (State.raise_quiet (by first | with_reducible exact calm_src (by decide) (by decide) | with_reducible exact calm_bundle _ (by decide) | with_reducible exact calm_access (by assumption) | with_reducible exact calm_unmapped (by assumption) | with_reducible exact calm_scu _ | with_reducible exact calm_unmappedSource _))
    | decide
    | intro _ _ _
    | fail_if_no_progress (refine Frame.upd ?_)
    | split

theorem State.bar4Events_frame (off) (n) (s : State) : Frame [.ret, .cause, .flashA, .flashB, .log, .flt, .host, .cmds] s (State.bar4Events off n s) := by
  unfold State.bar4Events
  try dsimp only
  repeat' first
    | with_reducible assumption
    | with_reducible apply Frame.refl
    | with_reducible refine Frame.ite (fun _ => ?_) (fun _ => ?_)
    | with_reducible apply Frame.foldl
    | with_reducible apply Frame.foldl_fst
    | with_reducible apply Frame.after (State.badAccess_frame _ _)
    | with_reducible apply Frame.after (State.raise_quiet (by first | with_reducible exact calm_src (by decide) (by decide) | with_reducible exact calm_bundle _ (by decide) | with_reducible exact calm_access (by assumption) | with_reducible exact calm_unmapped (by assumption) | with_reducible exact calm_scu _ | with_reducible exact calm_unmappedSource _))
    | decide
    | intro _ _ _
    | fail_if_no_progress (refine Frame.upd ?_)
    | split

theorem State.bar4Store_frame (s : State) (off l) : Frame [.mem, .bytes] s (State.bar4Store s off l) := by
  induction l generalizing s off with
  | nil => exact Frame.refl _ s
  | cons b l ih =>
    unfold State.bar4Store
    split
    · refine Frame.trans ?_ (ih _ _)
      exact Frame.ite (fun _ => (State.writeMem_frame ..).mono (by decide)) (fun _ => Frame.refl _ s)
    · exact ih _ _

theorem State.flushVector_frame (v) (s : State) : Frame [.host] s (State.flushVector v s) := by
  unfold State.flushVector
  try dsimp only
  repeat' first
    | with_reducible assumption
    | with_reducible apply Frame.refl
    | with_reducible refine Frame.ite (fun _ => ?_) (fun _ => ?_)
    | with_reducible apply Frame.foldl
    | with_reducible apply Frame.foldl_fst
    | with_reducible apply Frame.after (State.send_frame _ _)
    | decide
    | intro _ _ _
    | fail_if_no_progress (refine Frame.upd ?_)
    | split

theorem State.flushVectors_frame (s : State) : Frame [.host] s (State.flushVectors s) := by
  unfold State.flushVectors
  try dsimp only
  repeat' first
    | with_reducible assumption
    | with_reducible apply Frame.refl
    | with_reducible refine Frame.ite (fun _ => ?_) (fun _ => ?_)
    | with_reducible apply Frame.foldl
    | with_reducible apply Frame.foldl_fst
    | with_reducible apply Frame.after (State.flushVector_frame _ _)
    | decide
    | intro _ _ _
    | fail_if_no_progress (refine Frame.upd ?_)
    | split

theorem State.modRing_frame (r) (f) (s : State) : Frame [.host] s (State.modRing r f s) := by
  unfold State.modRing
  try dsimp only
  repeat' first
    | with_reducible assumption
    | with_reducible apply Frame.refl
    | with_reducible refine Frame.ite (fun _ => ?_) (fun _ => ?_)
    | with_reducible apply Frame.foldl
    | with_reducible apply Frame.foldl_fst
    | decide
    | intro _ _ _
    | fail_if_no_progress (refine Frame.upd ?_)
    | split

theorem State.ringError_frame (r) (cause) (s : State) : Frame [.ret, .cause, .flashA, .flashB, .log, .flt, .host, .cmds] s (State.ringError r cause s) := by
  unfold State.ringError
  try dsimp only
  repeat' first
    | with_reducible assumption
    | with_reducible apply Frame.refl
    | with_reducible refine Frame.ite (fun _ => ?_) (fun _ => ?_)
    | with_reducible apply Frame.foldl
    | with_reducible apply Frame.foldl_fst
    | with_reducible apply Frame.after (State.raiseCause_frame _ _)
    | with_reducible apply Frame.after (State.modRing_frame _ _ _)
    | with_reducible apply Frame.after (State.raise_quiet (by first | with_reducible exact calm_src (by decide) (by decide) | with_reducible exact calm_bundle _ (by decide) | with_reducible exact calm_access (by assumption) | with_reducible exact calm_unmapped (by assumption) | with_reducible exact calm_scu _ | with_reducible exact calm_unmappedSource _))
    | decide
    | intro _ _ _
    | fail_if_no_progress (refine Frame.upd ?_)
    | split

theorem State.hostReadFailed_frame (req) (status) (source) (s : State) : Frame [.ret, .cause, .flashA, .flashB, .log, .flt, .cel, .host, .cmds, .models, .sessions, .runs, .launches, .trans] s (State.hostReadFailed req status source s) := by
  unfold State.hostReadFailed
  try dsimp only
  repeat' first
    | with_reducible assumption
    | with_reducible apply Frame.refl
    | with_reducible refine Frame.ite (fun _ => ?_) (fun _ => ?_)
    | with_reducible apply Frame.foldl
    | with_reducible apply Frame.foldl_fst
    | with_reducible apply Frame.after (State.ringError_frame _ _ _)
    | with_reducible apply Frame.after (State.failWork_frame _ _ _ _)
    | decide
    | intro _ _ _
    | fail_if_no_progress (refine Frame.upd ?_)
    | split

theorem State.interrupt_frame (r) (s : State) : Frame [.host] s (State.interrupt r s) := by
  unfold State.interrupt
  try dsimp only
  repeat' first
    | with_reducible assumption
    | with_reducible apply Frame.refl
    | with_reducible refine Frame.ite (fun _ => ?_) (fun _ => ?_)
    | with_reducible apply Frame.foldl
    | with_reducible apply Frame.foldl_fst
    | with_reducible apply Frame.after (State.sendVector_frame _ _)
    | with_reducible apply Frame.after (State.modRing_frame _ _ _)
    | decide
    | intro _ _ _
    | fail_if_no_progress (refine Frame.upd ?_)
    | split

theorem State.maybeInterrupt_frame (r) (asked) (s : State) : Frame [.host] s (State.maybeInterrupt r asked s) := by
  unfold State.maybeInterrupt
  try dsimp only
  repeat' first
    | with_reducible assumption
    | with_reducible apply Frame.refl
    | with_reducible refine Frame.ite (fun _ => ?_) (fun _ => ?_)
    | with_reducible apply Frame.foldl
    | with_reducible apply Frame.foldl_fst
    | with_reducible apply Frame.after (State.interrupt_frame _ _)
    | decide
    | intro _ _ _
    | fail_if_no_progress (refine Frame.upd ?_)
    | split

theorem State.postCompletion_frame (c) (d) (s : State) : Frame [.host] s (State.postCompletion c d s) := by
  unfold State.postCompletion
  try dsimp only
  repeat' first
    | with_reducible assumption
    | with_reducible apply Frame.refl
    | with_reducible refine Frame.ite (fun _ => ?_) (fun _ => ?_)
    | with_reducible apply Frame.foldl
    | with_reducible apply Frame.foldl_fst
    | with_reducible apply Frame.after (State.maybeInterrupt_frame _ _ _)
    | with_reducible apply Frame.after (State.modRing_frame _ _ _)
    | with_reducible apply Frame.after (State.send_frame _ _)
    | decide
    | intro _ _ _
    | fail_if_no_progress (refine Frame.upd ?_)
    | split

theorem State.takeSeq_frame (s : State) : Frame [.host] s (State.takeSeq s) := by
  unfold State.takeSeq
  try dsimp only
  repeat' first
    | with_reducible assumption
    | with_reducible apply Frame.refl
    | with_reducible refine Frame.ite (fun _ => ?_) (fun _ => ?_)
    | with_reducible apply Frame.foldl
    | with_reducible apply Frame.foldl_fst
    | decide
    | intro _ _ _
    | fail_if_no_progress (refine Frame.upd ?_)
    | split

theorem State.rejectFetched_frame (c) (st) (s : State) : Frame [.host] s (State.rejectFetched c st s) := by
  unfold State.rejectFetched
  try dsimp only
  repeat' first
    | with_reducible assumption
    | with_reducible apply Frame.refl
    | with_reducible refine Frame.ite (fun _ => ?_) (fun _ => ?_)
    | with_reducible apply Frame.foldl
    | with_reducible apply Frame.foldl_fst
    | with_reducible apply Frame.after (State.postCompletion_frame _ _ _)
    | with_reducible apply Frame.after (State.takeSeq_frame _)
    | decide
    | intro _ _ _
    | fail_if_no_progress (refine Frame.upd ?_)
    | split

theorem State.release_frame (s : State) : Frame [.host, .cmds] s (State.release s) := by
  unfold State.release
  try dsimp only
  repeat' first
    | with_reducible assumption
    | with_reducible apply Frame.refl
    | with_reducible refine Frame.ite (fun _ => ?_) (fun _ => ?_)
    | with_reducible apply Frame.foldl
    | with_reducible apply Frame.foldl_fst
    | decide
    | intro _ _ _
    | fail_if_no_progress (refine Frame.upd ?_)
    | split

theorem State.takeTurn_frame (r) (s : State) : Frame [.host] s (State.takeTurn r s) := by
  unfold State.takeTurn
  try dsimp only
  repeat' first
    | with_reducible assumption
    | with_reducible apply Frame.refl
    | with_reducible refine Frame.ite (fun _ => ?_) (fun _ => ?_)
    | with_reducible apply Frame.foldl
    | with_reducible apply Frame.foldl_fst
    | decide
    | intro _ _ _
    | fail_if_no_progress (refine Frame.upd ?_)
    | split

theorem State.writeRingCtrl_frame (r) (v) (s : State) : Frame [.ret, .cause, .flashA, .flashB, .log, .flt, .host, .cmds] s (State.writeRingCtrl r v s) := by
  unfold State.writeRingCtrl
  try dsimp only
  repeat' first
    | with_reducible assumption
    | with_reducible apply Frame.refl
    | with_reducible refine Frame.ite (fun _ => ?_) (fun _ => ?_)
    | with_reducible apply Frame.foldl
    | with_reducible apply Frame.foldl_fst
    | with_reducible apply Frame.after (State.ringError_frame _ _ _)
    | with_reducible apply Frame.after (State.modRing_frame _ _ _)
    | decide
    | intro _ _ _
    | fail_if_no_progress (refine Frame.upd ?_)
    | split

theorem State.tailDoorbell_frame (ring) (v) (s : State) : Frame [.ret, .cause, .flashA, .flashB, .log, .flt, .host, .cmds] s (State.tailDoorbell ring v s) := by
  unfold State.tailDoorbell
  try dsimp only
  repeat' first
    | with_reducible assumption
    | with_reducible apply Frame.refl
    | with_reducible refine Frame.ite (fun _ => ?_) (fun _ => ?_)
    | with_reducible apply Frame.foldl
    | with_reducible apply Frame.foldl_fst
    | with_reducible apply Frame.after (State.badAccess_frame _ _)
    | with_reducible apply Frame.after (State.ringError_frame _ _ _)
    | with_reducible apply Frame.after (State.modRing_frame _ _ _)
    | decide
    | intro _ _ _
    | fail_if_no_progress (refine Frame.upd ?_)
    | split

theorem State.headDoorbell_frame (ring) (v) (s : State) : Frame [.ret, .cause, .flashA, .flashB, .log, .flt, .host, .cmds] s (State.headDoorbell ring v s) := by
  unfold State.headDoorbell
  try dsimp only
  repeat' first
    | with_reducible assumption
    | with_reducible apply Frame.refl
    | with_reducible refine Frame.ite (fun _ => ?_) (fun _ => ?_)
    | with_reducible apply Frame.foldl
    | with_reducible apply Frame.foldl_fst
    | with_reducible apply Frame.after (State.badAccess_frame _ _)
    | with_reducible apply Frame.after (State.interrupt_frame _ _)
    | with_reducible apply Frame.after (State.ringError_frame _ _ _)
    | with_reducible apply Frame.after (State.modRing_frame _ _ _)
    | with_reducible apply Frame.after (State.raise_quiet (by first | with_reducible exact calm_src (by decide) (by decide) | with_reducible exact calm_bundle _ (by decide) | with_reducible exact calm_access (by assumption) | with_reducible exact calm_unmapped (by assumption) | with_reducible exact calm_scu _ | with_reducible exact calm_unmappedSource _))
    | decide
    | intro _ _ _
    | fail_if_no_progress (refine Frame.upd ?_)
    | split

theorem State.writeBar2_frame (offset) (v) (s : State) : Frame [.ret, .cause, .flashA, .flashB, .log, .flt, .host, .cmds] s (State.writeBar2 offset v s) := by
  unfold State.writeBar2
  try dsimp only
  repeat' first
    | with_reducible assumption
    | with_reducible apply Frame.refl
    | with_reducible refine Frame.ite (fun _ => ?_) (fun _ => ?_)
    | with_reducible apply Frame.foldl
    | with_reducible apply Frame.foldl_fst
    | with_reducible apply Frame.after (State.headDoorbell_frame _ _ _)
    | with_reducible apply Frame.after (State.tailDoorbell_frame _ _ _)
    | decide
    | intro _ _ _
    | fail_if_no_progress (refine Frame.upd ?_)
    | split

theorem State.hostChange_frame (f) (s : State) : Frame [.host, .cmds] s (State.hostChange f s) := by
  unfold State.hostChange
  try dsimp only
  repeat' first
    | with_reducible assumption
    | with_reducible apply Frame.refl
    | with_reducible refine Frame.ite (fun _ => ?_) (fun _ => ?_)
    | with_reducible apply Frame.foldl
    | with_reducible apply Frame.foldl_fst
    | with_reducible apply Frame.after (State.release_frame _)
    | decide
    | intro _ _ _
    | fail_if_no_progress (refine Frame.upd ?_)
    | split

end Sys2Proof.Machine
end

