-- ==== Sys2Proof/Laws/Idle.lean ====
section
/-! SUPPORT. What each operation of Machine/Idle.lean can change: one frame each. -/

set_option Elab.async false
namespace Sys2Proof.Machine

theorem State.idle_frame (s : State) : Frame [.ret, .tiles, .hubBundles, .engines, .cel, .cmds, .launches] s (State.idle s) := by
  unfold State.idle
  try dsimp only
  repeat' first
    | with_reducible assumption
    | with_reducible apply Frame.refl
    | with_reducible refine Frame.ite (fun _ => ?_) (fun _ => ?_)
    | with_reducible apply Frame.foldl
    | with_reducible apply Frame.foldl_fst
    | with_reducible apply Frame.after (State.endStopped_frame _)
    | decide
    | intro _ _ _
    | fail_if_no_progress (refine Frame.upd ?_)
    | split

end Sys2Proof.Machine
end

