-- ==== Sys2Proof/Laws/KernelInstr.lean ====
section
/-! SUPPORT. What each operation of Machine/KernelInstr.lean can change: one frame each. -/

set_option Elab.async false
namespace Sys2Proof.Machine

theorem State.globalFails_quiet {x : KCtx} {src : Nat} {l : List Extent} {s : State} (h : severityOf src ≠ 3) :
    Frame [.ret, .cause, .flashA, .flashB, .log, .flt, .cel, .host, .cmds, .mem, .models, .sessions, .runs, .launches, .trans] s (State.globalFails x src l s) :=
  Frame.after (State.failWork_frame ..) (by decide) ((State.reportAccess_quiet h).mono (by decide))

theorem State.kernelFault_frame (x) (code) (s : State) : Frame [.launches] s (State.kernelFault x code s) := by
  unfold State.kernelFault
  try dsimp only
  repeat' first
    | with_reducible assumption
    | with_reducible apply Frame.refl
    | with_reducible refine Frame.ite (fun _ => ?_) (fun _ => ?_)
    | with_reducible apply Frame.foldl
    | with_reducible apply Frame.foldl_fst
    | with_reducible apply Frame.after (State.kernelError_frame _ _ _)
    | decide
    | intro _ _ _
    | fail_if_no_progress (refine Frame.upd ?_)
    | split

theorem State.access_frame {ps : List Part} {s0 : State} {x space slot n read write offs} {s : State} {go : State → State} (h : Frame ps s0 s)
    (hb : ∀ u, Frame ps s0 u → Frame ps s0 (go u)) (hm : ∀ p ∈ ([.ret, .cause, .flashA, .flashB, .log, .flt, .cel, .host, .cmds, .mem, .models, .sessions, .runs, .launches, .trans] : List Part), p ∈ ps) :
    Frame ps s0 (State.access x space slot n read write offs s go) := by
  unfold State.access
  dsimp only
  repeat' first
    | exact h
    | exact hb _ h
    | exact hb _ (h.step (State.touch_frame ..) (fun p hp => hm p (by revert p; decide)))
    | exact h.step (State.kernelFault_frame ..) (fun p hp => hm p (by revert p; decide))
    | exact h.step (State.globalFails_quiet (calm_access (by assumption))) (fun p hp => hm p (by revert p; decide))
    | split

theorem State.putWarp_frame (x) (w) (g) (store) (s : State) : Frame [.launches] s (State.putWarp x w g store s) := by
  unfold State.putWarp
  try dsimp only
  repeat' first
    | with_reducible assumption
    | with_reducible apply Frame.refl
    | with_reducible refine Frame.ite (fun _ => ?_) (fun _ => ?_)
    | with_reducible apply Frame.foldl
    | with_reducible apply Frame.foldl_fst
    | with_reducible apply Frame.after (State.modLaunch_frame _ _ _)
    | decide
    | intro _ _ _
    | fail_if_no_progress (refine Frame.upd ?_)
    | split

theorem State.advance_frame (x) (w) (s : State) : Frame [.launches] s (State.advance x w s) := by
  unfold State.advance
  try dsimp only
  repeat' first
    | with_reducible assumption
    | with_reducible apply Frame.refl
    | with_reducible refine Frame.ite (fun _ => ?_) (fun _ => ?_)
    | with_reducible apply Frame.foldl
    | with_reducible apply Frame.foldl_fst
    | with_reducible apply Frame.after (State.putWarp_frame _ _ _ _ _)
    | decide
    | intro _ _ _
    | fail_if_no_progress (refine Frame.upd ?_)
    | split

theorem State.kernel_frame {α : Type} {ps : List Part} {s : State} {r} {sel : KOp → Option α} {f : KCtx → α → State}
    (hb : ∀ x a, Frame ps s (f x a)) (hm : ∀ p ∈ [Part.launches], p ∈ ps) : Frame ps s (State.kernel s r sel f) := by
  unfold State.kernel
  repeat' first
    | with_reducible exact Frame.refl _ _
    | exact hb _ _
    | exact (State.advance_frame ..).mono hm
    | split

theorem State.putTile_frame (x) (t) (s : State) : Frame [.cel, .cmds, .launches] s (State.putTile x t s) := by
  unfold State.putTile
  try dsimp only
  repeat' first
    | with_reducible assumption
    | with_reducible apply Frame.refl
    | with_reducible refine Frame.ite (fun _ => ?_) (fun _ => ?_)
    | with_reducible apply Frame.foldl
    | with_reducible apply Frame.foldl_fst
    | with_reducible apply Frame.after (State.endLaunch_frame _ _ _)
    | with_reducible apply Frame.after (State.modLaunch_frame _ _ _)
    | with_reducible apply Frame.after (State.putWarp_frame _ _ _ _ _)
    | decide
    | intro _ _ _
    | fail_if_no_progress (refine Frame.upd ?_)
    | split

theorem State.settleCluster_frame (cid) (index) (s : State) : Frame [.cel, .cmds, .launches] s (State.settleCluster cid index s) := by
  unfold State.settleCluster
  try dsimp only
  repeat' first
    | with_reducible assumption
    | with_reducible apply Frame.refl
    | with_reducible refine Frame.ite (fun _ => ?_) (fun _ => ?_)
    | with_reducible apply Frame.foldl
    | with_reducible apply Frame.foldl_fst
    | with_reducible apply Frame.after (State.settleLaunch_frame _ _)
    | with_reducible apply Frame.after (State.modLaunch_frame _ _ _)
    | decide
    | intro _ _ _
    | fail_if_no_progress (refine Frame.upd ?_)
    | split

theorem State.spaceWrite_frame (x) (space) (slot) (l) (w) (s : State) : Frame [.mem, .bytes, .launches] s (State.spaceWrite x space slot l w s) := by
  unfold State.spaceWrite
  try dsimp only
  repeat' first
    | with_reducible assumption
    | with_reducible apply Frame.refl
    | with_reducible refine Frame.ite (fun _ => ?_) (fun _ => ?_)
    | with_reducible apply Frame.foldl
    | with_reducible apply Frame.foldl_fst
    | with_reducible apply Frame.after (State.writeMem_frame _ _ _)
    | with_reducible apply Frame.after (State.putWarp_frame _ _ _ _ _)
    | decide
    | intro _ _ _
    | fail_if_no_progress (refine Frame.upd ?_)
    | split

theorem State.laneEvent_frame (x) (chk) (touched) (s : State) : Frame [.ret, .cause, .flashA, .flashB, .log, .flt, .host, .cmds, .stop] s (State.laneEvent x chk touched s) := by
  unfold State.laneEvent
  try dsimp only
  repeat' first
    | with_reducible assumption
    | with_reducible apply Frame.refl
    | with_reducible refine Frame.ite (fun _ => ?_) (fun _ => ?_)
    | with_reducible apply Frame.foldl
    | with_reducible apply Frame.foldl_fst
    | with_reducible apply Frame.after (State.capture_quiet (by first | exact calm_src (by decide) (by decide) | exact calm_bundle _ (by decide)))
    | with_reducible apply Frame.after (State.capture_frame _ _)
    | decide
    | intro _ _ _
    | fail_if_no_progress (refine Frame.upd ?_)
    | split

/-- An event of a lane that is none of those that stop the module. -/
theorem State.laneEvent_quiet {x chk touched} (hk : chk < 64) (h : severityOf (1 * 4096 + chk) ≠ 3) {s : State} :
    Frame [.ret, .cause, .flashA, .flashB, .log, .flt, .host, .cmds] s (State.laneEvent x chk touched s) := State.capture_quiet (calm_src hk h)

theorem State.recordEvent_frame (x) (s : State) : Frame [.ret, .cause, .flashA, .flashB, .log, .flt, .host, .cmds] s (State.recordEvent x s) := by
  unfold State.recordEvent
  try dsimp only
  repeat' first
    | with_reducible assumption
    | with_reducible apply Frame.refl
    | with_reducible refine Frame.ite (fun _ => ?_) (fun _ => ?_)
    | with_reducible apply Frame.foldl
    | with_reducible apply Frame.foldl_fst
    | with_reducible apply Frame.after (State.laneEvent_quiet (by decide) (by decide))
    | decide
    | intro _ _ _
    | fail_if_no_progress (refine Frame.upd ?_)
    | split

theorem State.residueEvents_frame (x) (residue) (s : State) : Frame [.ret, .cause, .flashA, .flashB, .log, .flt, .host, .cmds, .free] s (State.residueEvents x residue s).1 := by
  unfold State.residueEvents
  try dsimp only
  repeat' first
    | with_reducible assumption
    | with_reducible apply Frame.refl
    | with_reducible refine Frame.ite (fun _ => ?_) (fun _ => ?_)
    | with_reducible apply Frame.foldl
    | with_reducible apply Frame.foldl_fst
    | with_reducible apply Frame.after (State.laneEvent_quiet (by decide) (by decide))
    | with_reducible apply Frame.after (State.spend_frame _ _)
    | decide
    | intro _ _ _
    | fail_if_no_progress (refine Frame.upd ?_)
    | split

end Sys2Proof.Machine
end

