-- ==== Sys2Proof/Laws/Sessions.lean ====
section
/-! SUPPORT. What each operation of Machine/Sessions.lean can change: one frame each. -/

set_option Elab.async false
namespace Sys2Proof.Machine

theorem State.stopStep_frame (cid) (x) (status) (s : State) : Frame [.cel, .cmds, .models, .sessions, .runs, .trans] s (State.stopStep cid x status s) := by
  unfold State.stopStep
  try dsimp only
  repeat' first
    | with_reducible assumption
    | with_reducible apply Frame.refl
    | with_reducible refine Frame.ite (fun _ => ?_) (fun _ => ?_)
    | with_reducible apply Frame.foldl
    | with_reducible apply Frame.foldl_fst
    | with_reducible apply Frame.after (State.finishCmd_frame _ _ _ _)
    | with_reducible apply Frame.after (State.dropRun_frame _ _)
    | decide
    | intro _ _ _
    | fail_if_no_progress (refine Frame.upd ?_)
    | split

theorem State.discardBlocks_frame (x) (s : State) : Frame [.tiles, .hubBundles, .engines, .cel, .trans, .free] s (State.discardBlocks x s) := by
  unfold State.discardBlocks
  try dsimp only
  repeat' first
    | with_reducible assumption
    | with_reducible apply Frame.refl
    | with_reducible refine Frame.ite (fun _ => ?_) (fun _ => ?_)
    | with_reducible apply Frame.foldl
    | with_reducible apply Frame.foldl_fst
    | with_reducible apply Frame.after (State.releaseOrphans_frame _)
    | decide
    | intro _ _ _
    | fail_if_no_progress (refine Frame.upd ?_)
    | split

theorem State.tryStep_frame (cid) (role) (s : State) : Frame [.ret, .cause, .flashA, .flashB, .log, .flt, .tiles, .hubBundles, .engines, .cel, .host, .cmds, .mem, .bytes, .models, .sessions, .runs, .trans, .free] s (State.tryStep cid role s) := by
  unfold State.tryStep
  try dsimp only
  repeat' first
    | with_reducible assumption
    | with_reducible apply Frame.refl
    | with_reducible refine Frame.ite (fun _ => ?_) (fun _ => ?_)
    | with_reducible apply Frame.foldl
    | with_reducible apply Frame.foldl_fst
    | with_reducible apply Frame.after (State.discardBlocks_frame _ _)
    | with_reducible apply Frame.after (State.modSession_frame _ _ _)
    | with_reducible apply Frame.after (State.beginRun_frame _ _ _)
    | with_reducible apply Frame.after (State.stopStep_frame _ _ _ _)
    | with_reducible apply Frame.after (State.dropRun_frame _ _)
    | with_reducible apply Frame.after (State.failCmd_frame _ _ _ _)
    | decide
    | intro _ _ _
    | fail_if_no_progress (refine Frame.upd ?_)
    | split

theorem State.acceptStep_frame (c) (rebuild) (role) (binds) (s : State) : Frame [.ret, .cause, .flashA, .flashB, .log, .flt, .tiles, .hubBundles, .engines, .cel, .host, .cmds, .mem, .bytes, .models, .sessions, .runs, .trans, .free] s (State.acceptStep c rebuild role binds s) := by
  unfold State.acceptStep
  try dsimp only
  repeat' first
    | with_reducible assumption
    | with_reducible apply Frame.refl
    | with_reducible refine Frame.ite (fun _ => ?_) (fun _ => ?_)
    | with_reducible apply Frame.foldl
    | with_reducible apply Frame.foldl_fst
    | with_reducible apply Frame.after (State.modSession_frame _ _ _)
    | with_reducible apply Frame.after (State.finishCmd_frame _ _ _ _)
    | with_reducible apply Frame.after (State.failCmd_frame _ _ _ _)
    | with_reducible apply Frame.after (State.tryStep_frame _ _ _)
    | with_reducible apply Frame.after (State.addRun_frame _ _ _)
    | decide
    | intro _ _ _
    | fail_if_no_progress (refine Frame.upd ?_)
    | split

theorem State.freeSession_frame (x) (s : State) : Frame [.tiles, .hubBundles, .engines, .cel, .models, .sessions, .sessionGen, .migs, .trans, .free] s (State.freeSession x s) := by
  unfold State.freeSession
  try dsimp only
  repeat' first
    | with_reducible assumption
    | with_reducible apply Frame.refl
    | with_reducible refine Frame.ite (fun _ => ?_) (fun _ => ?_)
    | with_reducible apply Frame.foldl
    | with_reducible apply Frame.foldl_fst
    | with_reducible apply Frame.after (State.releaseOrphans_frame _)
    | with_reducible apply Frame.after (State.dropSession_frame _ _)
    | decide
    | intro _ _ _
    | fail_if_no_progress (refine Frame.upd ?_)
    | split

theorem State.restoreBlock_frame {m} {session} {rec_} {s : State} {t : State} (h : State.restoreBlock m session rec_ s = some t) : Frame [.tiles, .hubBundles, .engines, .cel, .mem, .trans, .free] s t := by
  unfold State.restoreBlock at h
  try dsimp only at h
  repeat' (first | (cases h; done) | split at h | (obtain ⟨_, _, rfl⟩ := Option.map_eq_some_iff.mp h))
  all_goals (try cases h)
  all_goals repeat' first
    | with_reducible assumption
    | with_reducible apply Frame.refl
    | with_reducible refine Frame.ite (fun _ => ?_) (fun _ => ?_)
    | with_reducible apply Frame.foldl
    | with_reducible apply Frame.foldl_fst
    | with_reducible apply Frame.after (State.overwrite_frame _ _)
    | with_reducible apply Frame.after (State.takeLease_frame _ _ _)
    | decide
    | intro _ _ _
    | fail_if_no_progress (refine Frame.upd ?_)
    | split

theorem restoreImage_frame {s t : State} {k img st x} (h : restoreImage s k img st = .ok (t, x)) : Frame [.ret, .tiles, .hubBundles, .engines, .cel, .mem, .sessions, .trans, .free] s t := by
  unfold restoreImage at h
  dsimp only at h
  repeat' (first | (cases h; done) | split at h)
  all_goals
    cases h
    refine Frame.trans ?_ (Frame.foldl_bind (fun _ _ _ e => (State.restoreBlock_frame e).mono (by decide)) (by assumption))
    refine Frame.after (State.spend_frame ..) (by decide) ?_
    refine Frame.after (State.noteGen_frame ..) (by decide) ?_
    exact Frame.upd (Frame.refl _ _)

theorem State.restore_frame (cid) (k) (img) (s : State) : Frame [.ret, .tiles, .hubBundles, .engines, .cel, .cmds, .mem, .sessions, .trans, .free] s (State.restore cid k img s) := by
  unfold State.restore
  try dsimp only
  repeat' first
    | with_reducible assumption
    | with_reducible apply Frame.refl
    | with_reducible refine Frame.ite (fun _ => ?_) (fun _ => ?_)
    | with_reducible apply Frame.foldl
    | with_reducible apply Frame.foldl_fst
    | with_reducible refine Frame.after (restoreImage_frame (by assumption)) (by decide) ?_
    | with_reducible apply Frame.after (State.finishCmd_frame _ _ _ _)
    | with_reducible apply Frame.after (State.caskWork_frame _ _)
    | with_reducible apply Frame.after (State.setShare_frame _)
    | decide
    | intro _ _ _
    | fail_if_no_progress (refine Frame.upd ?_)
    | split

theorem State.sessionCommand_frame {ps : List Part} {s0 s : State} {cid op check accepts} {act : Cmd → Session → State → State} (h : Frame ps s0 s)
    (hb : ∀ c x u, Frame ps s0 u → Frame ps s0 (act c x u)) (hm : ∀ p ∈ [Part.cmds, Part.sessions], p ∈ ps) :
    Frame ps s0 (State.sessionCommand s cid op check accepts act) := by
  have hh : ∀ p ∈ [Part.cmds], p ∈ ps := fun p hp => hm p (by revert p; decide)
  have hs : ∀ p ∈ [Part.sessions], p ∈ ps := fun p hp => hm p (by revert p; decide)
  unfold State.sessionCommand
  refine State.command_frame h (fun _ _ _ => ?_) hh
  repeat' first
    | with_reducible assumption
    | with_reducible refine Frame.step ?_ (State.failCmd_frame ..) hh
    | with_reducible refine Frame.step ?_ (State.modSession_frame ..) hs
    | with_reducible refine hb _ _ _ ?_
    | split
    | dsimp only

/-- Reading a session's blocks fails with no S3 source. -/
theorem calm_blocksSource {s : State} {i src : Nat} (h : blocksSource s i = some src) : severityOf src ≠ 3 := by
  unfold blocksSource at h; exact calm_access h

theorem State.snapshot_frame (c) (x) (s : State) : Frame [.ret, .cause, .flashA, .flashB, .log, .flt, .tiles, .cel, .host, .cmds, .mem, .bytes, .models, .sessions, .sessionGen, .migs, .runs, .launches, .trans] s (State.snapshot c x s) := by
  unfold State.snapshot
  try dsimp only
  repeat' first
    | with_reducible assumption
    | with_reducible apply Frame.refl
    | with_reducible refine Frame.ite (fun _ => ?_) (fun _ => ?_)
    | with_reducible apply Frame.foldl
    | with_reducible apply Frame.foldl_fst
    | with_reducible apply Frame.after (State.finishWrites_frame _ _ _ _ _)
    | with_reducible apply Frame.after (State.reportAccess_quiet (by first | with_reducible exact calm_src (by decide) (by decide) | with_reducible exact calm_bundle _ (by decide) | with_reducible exact calm_access (by assumption) | with_reducible exact calm_unmapped (by assumption) | with_reducible exact calm_scu _ | with_reducible exact calm_unmappedSource _ | with_reducible exact calm_blocksSource (by assumption)))
    | with_reducible apply Frame.after (State.badAccessBy_frame (by assumption))
    | with_reducible apply Frame.after (State.finishCmd_frame _ _ _ _)
    | with_reducible apply Frame.after (State.caskWork_frame _ _)
    | with_reducible apply Frame.after (State.peerLost_frame _ _ _ _ _)
    | with_reducible apply Frame.after (State.writeMem_frame _ _ _)
    | with_reducible apply Frame.after (State.failCmd_frame _ _ _ _)
    | with_reducible apply Frame.after (State.touch_frame _ _ _)
    | decide
    | intro _ _ _
    | fail_if_no_progress (refine Frame.upd ?_)
    | split

theorem acceptStop_frame {rebuild} {role} {c} {s : State} {t : State} (h : acceptStop rebuild role c s = some t) : Frame [.cmds] s t := by
  unfold acceptStop at h
  try dsimp only at h
  repeat' (first | (cases h; done) | split at h | (obtain ⟨_, _, rfl⟩ := Option.map_eq_some_iff.mp h))
  all_goals (try cases h)
  all_goals repeat' first
    | with_reducible assumption
    | with_reducible apply Frame.refl
    | with_reducible refine Frame.ite (fun _ => ?_) (fun _ => ?_)
    | with_reducible apply Frame.foldl
    | with_reducible apply Frame.foldl_fst
    | with_reducible apply Frame.after (State.finishCmd_frame _ _ _ _)
    | with_reducible apply Frame.after (State.failCmd_frame _ _ _ _)
    | decide
    | intro _ _ _
    | fail_if_no_progress (refine Frame.upd ?_)
    | split

theorem State.stepCommand_frame (s : State) (cid) (op) (rebuild) (role) (binds) : Frame [.ret, .cause, .flashA, .flashB, .log, .flt, .tiles, .hubBundles, .engines, .cel, .host, .cmds, .mem, .bytes, .models, .sessions, .runs, .trans, .free] s (State.stepCommand s cid op rebuild role binds) := by
  unfold State.stepCommand
  try dsimp only
  repeat' first
    | with_reducible assumption
    | with_reducible apply Frame.refl
    | with_reducible refine Frame.ite (fun _ => ?_) (fun _ => ?_)
    | with_reducible apply Frame.after (State.settleHeld_frame _ _) (by decide)
    | with_reducible refine State.commandReading_frame ?_ (fun _ _ _ hu hv => by
        split at hv
        · cases hv; exact Frame.refl _ _
        · exact Frame.after (acceptStop_frame hv) (by decide) hu) (fun _ _ _ => ?_) (by decide) (fun _ => by decide)
    | with_reducible apply Frame.after (State.acceptStep_frame _ _ _ _ _)
    | with_reducible apply Frame.after (State.tryStep_frame _ _ _)
    | decide
    | split

end Sys2Proof.Machine
end

