-- ==== Sys2Proof/Laws/Migrations.lean ====
section
/-! SUPPORT. What each operation of Machine/Migrations.lean can change: one frame each. -/

set_option Elab.async false
namespace Sys2Proof.Machine

theorem State.dropMig_frame (cid) (s : State) : Frame [.migs] s (State.dropMig cid s) := by
  unfold State.dropMig
  try dsimp only
  repeat' first
    | with_reducible assumption
    | with_reducible apply Frame.refl
    | with_reducible refine Frame.ite (fun _ => ?_) (fun _ => ?_)
    | with_reducible apply Frame.foldl
    | with_reducible apply Frame.foldl_fst
    | decide
    | intro _ _ _
    | fail_if_no_progress (refine Frame.upd ?_)
    | split

theorem State.discardTarget_frame (m) (status) (err) (s : State) : Frame [.tiles, .hubBundles, .engines, .cel, .cmds, .models, .sessions, .sessionGen, .migs, .trans, .free] s (State.discardTarget m status err s) := by
  unfold State.discardTarget
  try dsimp only
  repeat' first
    | with_reducible assumption
    | with_reducible apply Frame.refl
    | with_reducible refine Frame.ite (fun _ => ?_) (fun _ => ?_)
    | with_reducible apply Frame.foldl
    | with_reducible apply Frame.foldl_fst
    | with_reducible apply Frame.after (State.releaseOrphans_frame _)
    | with_reducible apply Frame.after (State.dropSession_frame _ _)
    | with_reducible apply Frame.after (State.finishCmd_frame _ _ _ _)
    | with_reducible apply Frame.after (State.dropMig_frame _ _)
    | decide
    | intro _ _ _
    | fail_if_no_progress (refine Frame.upd ?_)
    | split

theorem State.endMigrate_frame (m) (status) (source) (target) (s : State) : Frame [.cmds, .trans] s (State.endMigrate m status source target s) := by
  unfold State.endMigrate
  try dsimp only
  repeat' first
    | with_reducible assumption
    | with_reducible apply Frame.refl
    | with_reducible refine Frame.ite (fun _ => ?_) (fun _ => ?_)
    | with_reducible apply Frame.foldl
    | with_reducible apply Frame.foldl_fst
    | with_reducible apply Frame.after (State.dropRequests_frame _ _)
    | with_reducible apply Frame.after (State.endCmd_frame _ _ _)
    | decide
    | intro _ _ _
    | fail_if_no_progress (refine Frame.upd ?_)
    | split

theorem State.undoMigrate_frame (m) (status) (source) (target) (s : State) : Frame [.cmds, .sessions, .migs, .trans] s (State.undoMigrate m status source target s) := by
  unfold State.undoMigrate
  try dsimp only
  repeat' first
    | with_reducible assumption
    | with_reducible apply Frame.refl
    | with_reducible refine Frame.ite (fun _ => ?_) (fun _ => ?_)
    | with_reducible apply Frame.foldl
    | with_reducible apply Frame.foldl_fst
    | with_reducible apply Frame.after (State.endMigrate_frame _ _ _ _ _)
    | with_reducible apply Frame.after (State.modSession_frame _ _ _)
    | with_reducible apply Frame.after (State.dropMig_frame _ _)
    | decide
    | intro _ _ _
    | fail_if_no_progress (refine Frame.upd ?_)
    | split

theorem State.failMigration_frame (cid) (status) (source) (s : State) : Frame [.cmds, .sessions, .migs, .trans] s (State.failMigration cid status source s) := by
  unfold State.failMigration
  try dsimp only
  repeat' first
    | with_reducible assumption
    | with_reducible apply Frame.refl
    | with_reducible refine Frame.ite (fun _ => ?_) (fun _ => ?_)
    | with_reducible apply Frame.foldl
    | with_reducible apply Frame.foldl_fst
    | with_reducible apply Frame.after (State.undoMigrate_frame _ _ _ _ _)
    | decide
    | intro _ _ _
    | fail_if_no_progress (refine Frame.upd ?_)
    | split

theorem State.modMig_frame (cid) (f) (s : State) : Frame [.migs] s (State.modMig cid f s) := by
  unfold State.modMig
  try dsimp only
  repeat' first
    | with_reducible assumption
    | with_reducible apply Frame.refl
    | with_reducible refine Frame.ite (fun _ => ?_) (fun _ => ?_)
    | with_reducible apply Frame.foldl
    | with_reducible apply Frame.foldl_fst
    | decide
    | intro _ _ _
    | fail_if_no_progress (refine Frame.upd ?_)
    | split

theorem State.sendCtrl_frame (peer) (s : State) : Frame [.tiles, .hubBundles, .engines, .trans, .free] s (State.sendCtrl peer s) := by
  unfold State.sendCtrl
  try dsimp only
  repeat' first
    | with_reducible assumption
    | with_reducible apply Frame.refl
    | with_reducible refine Frame.ite (fun _ => ?_) (fun _ => ?_)
    | with_reducible apply Frame.foldl
    | with_reducible apply Frame.foldl_fst
    | with_reducible apply Frame.after (State.request_frame _ _)
    | with_reducible apply Frame.after (State.spend_frame _ _)
    | decide
    | intro _ _ _
    | fail_if_no_progress (refine Frame.upd ?_)
    | split

theorem State.sendImage_frame (m) (x) (s : State) : Frame [.ret, .cause, .flashA, .flashB, .log, .flt, .tiles, .hubBundles, .engines, .host, .cmds, .mem, .sessions, .migs, .trans, .free] s (State.sendImage m x s) := by
  unfold State.sendImage
  try dsimp only
  repeat' first
    | with_reducible assumption
    | with_reducible apply Frame.refl
    | with_reducible refine Frame.ite (fun _ => ?_) (fun _ => ?_)
    | with_reducible apply Frame.foldl
    | with_reducible apply Frame.foldl_fst
    | with_reducible apply Frame.after (State.reportAccess_quiet (by first | with_reducible exact calm_src (by decide) (by decide) | with_reducible exact calm_bundle _ (by decide) | with_reducible exact calm_access (by assumption) | with_reducible exact calm_unmapped (by assumption) | with_reducible exact calm_scu _ | with_reducible exact calm_unmappedSource _ | with_reducible exact calm_blocksSource (by assumption)))
    | with_reducible apply Frame.after (State.undoMigrate_frame _ _ _ _ _)
    | with_reducible apply Frame.after (State.modSession_frame _ _ _)
    | with_reducible apply Frame.after (State.caskWork_frame _ _)
    | with_reducible apply Frame.after (State.request_frame _ _)
    | with_reducible apply Frame.after (State.modMig_frame _ _ _)
    | with_reducible apply Frame.after (State.spend_frame _ _)
    | with_reducible apply Frame.after (State.touch_frame _ _ _)
    | decide
    | intro _ _ _
    | fail_if_no_progress (refine Frame.upd ?_)
    | split

theorem State.migrateReady_frame (cid) (s : State) : Frame [.tiles, .hubBundles, .engines, .sessions, .migs, .trans, .free] s (State.migrateReady cid s) := by
  unfold State.migrateReady
  try dsimp only
  repeat' first
    | with_reducible assumption
    | with_reducible apply Frame.refl
    | with_reducible refine Frame.ite (fun _ => ?_) (fun _ => ?_)
    | with_reducible apply Frame.foldl
    | with_reducible apply Frame.foldl_fst
    | with_reducible apply Frame.after (State.modSession_frame _ _ _)
    | with_reducible apply Frame.after (State.sendCtrl_frame _ _)
    | with_reducible apply Frame.after (State.modMig_frame _ _ _)
    | decide
    | intro _ _ _
    | fail_if_no_progress (refine Frame.upd ?_)
    | split

theorem State.migrateRefused_frame (cid) (status) (s : State) : Frame [.cmds, .sessions, .migs, .trans] s (State.migrateRefused cid status s) := by
  unfold State.migrateRefused
  try dsimp only
  repeat' first
    | with_reducible assumption
    | with_reducible apply Frame.refl
    | with_reducible refine Frame.ite (fun _ => ?_) (fun _ => ?_)
    | with_reducible apply Frame.foldl
    | with_reducible apply Frame.foldl_fst
    | with_reducible apply Frame.after (State.undoMigrate_frame _ _ _ _ _)
    | decide
    | intro _ _ _
    | fail_if_no_progress (refine Frame.upd ?_)
    | split

theorem State.migrateCommit_frame (cid) (s : State) : Frame [.tiles, .hubBundles, .engines, .cmds, .sessions, .migs, .trans, .free] s (State.migrateCommit cid s) := by
  unfold State.migrateCommit
  try dsimp only
  repeat' first
    | with_reducible assumption
    | with_reducible apply Frame.refl
    | with_reducible refine Frame.ite (fun _ => ?_) (fun _ => ?_)
    | with_reducible apply Frame.foldl
    | with_reducible apply Frame.foldl_fst
    | with_reducible apply Frame.after (State.modSession_frame _ _ _)
    | with_reducible apply Frame.after (State.finishCmd_frame _ _ _ _)
    | with_reducible apply Frame.after (State.sendCtrl_frame _ _)
    | with_reducible apply Frame.after (State.dropMig_frame _ _)
    | decide
    | intro _ _ _
    | fail_if_no_progress (refine Frame.upd ?_)
    | split

theorem State.migrateDone_frame (cid) (s : State) : Frame [.tiles, .hubBundles, .engines, .cel, .cmds, .models, .sessions, .sessionGen, .migs, .trans, .free] s (State.migrateDone cid s) := by
  unfold State.migrateDone
  try dsimp only
  repeat' first
    | with_reducible assumption
    | with_reducible apply Frame.refl
    | with_reducible refine Frame.ite (fun _ => ?_) (fun _ => ?_)
    | with_reducible apply Frame.foldl
    | with_reducible apply Frame.foldl_fst
    | with_reducible apply Frame.after (State.freeSession_frame _ _)
    | with_reducible apply Frame.after (State.endMigrate_frame _ _ _ _ _)
    | decide
    | intro _ _ _
    | fail_if_no_progress (refine Frame.upd ?_)
    | split

theorem State.migrateCtrl_frame (peer) (operand) (s : State) : Frame [.tiles, .hubBundles, .engines, .cel, .cmds, .models, .sessions, .sessionGen, .migs, .trans, .free] s (State.migrateCtrl peer operand s) := by
  unfold State.migrateCtrl
  try dsimp only
  repeat' first
    | with_reducible assumption
    | with_reducible apply Frame.refl
    | with_reducible refine Frame.ite (fun _ => ?_) (fun _ => ?_)
    | with_reducible apply Frame.foldl
    | with_reducible apply Frame.foldl_fst
    | (rename_i h; obtain ⟨_, _, rfl⟩ := Option.map_eq_some_iff.mp h)
    | with_reducible apply Frame.after (State.migrateRefused_frame _ _ _)
    | with_reducible apply Frame.after (State.migrateCommit_frame _ _)
    | with_reducible apply Frame.after (State.migrateReady_frame _ _)
    | with_reducible apply Frame.after (State.migrateDone_frame _ _)
    | decide
    | intro _ _ _
    | fail_if_no_progress (refine Frame.upd ?_)
    | split

theorem State.imageCame_frame (peer) (operand) (s : State) : Frame [.migs] s (State.imageCame peer operand s) := by
  unfold State.imageCame
  try dsimp only
  repeat' first
    | with_reducible assumption
    | with_reducible apply Frame.refl
    | with_reducible refine Frame.ite (fun _ => ?_) (fun _ => ?_)
    | with_reducible apply Frame.foldl
    | with_reducible apply Frame.foldl_fst
    | with_reducible apply Frame.after (State.modMig_frame _ _ _)
    | decide
    | intro _ _ _
    | fail_if_no_progress (refine Frame.upd ?_)
    | split

end Sys2Proof.Machine
end

