-- ==== Sys2Proof/Laws/Models.lean ====
section
/-! SUPPORT. What each operation of Machine/Models.lean can change: one frame each. -/

set_option Elab.async false
namespace Sys2Proof.Machine

theorem State.claimSlot_frame (i) (c) (manifest) (mf) (s : State) : Frame [.models] s (State.claimSlot i c manifest mf s) := by
  unfold State.claimSlot
  exact State.modModel_frame _ _ _

theorem State.loadFails_frame (cid) (status) (err) (s : State) : Frame [.cmds] s (State.loadFails cid status err s) := by
  unfold State.loadFails
  try dsimp only
  repeat' first
    | with_reducible assumption
    | with_reducible apply Frame.refl
    | with_reducible refine Frame.ite (fun _ => ?_) (fun _ => ?_)
    | with_reducible apply Frame.foldl
    | with_reducible apply Frame.foldl_fst
    | with_reducible apply Frame.after (State.finishCmd_frame _ _ _ _)
    | decide
    | intro _ _ _
    | fail_if_no_progress (refine Frame.upd ?_)
    | split

theorem State.placeCopies_frame {k epoch} {s t : State} (h : State.placeCopies k epoch s = some t) : Frame [.mem, .models] s t := by
  unfold State.placeCopies at h
  refine Frame.foldl_bind ?_ h
  intro x u v e
  split at e
  · obtain ⟨_, _, rfl⟩ := Option.map_eq_some_iff.mp e
    exact Frame.after (State.overwrite_frame ..) (by decide) ((State.modModel_frame ..).mono (by decide))
  · cases e; exact Frame.refl _ _

theorem State.placeLocal_frame {k} {x} {s : State} {t : State} (h : State.placeLocal k x s = some t) : Frame [.mem, .models] s t := by
  rw [State.placeLocal] at h
  generalize shardExtents s (modelStripes (modelAt s k)) x.data.length = o at h
  cases o with
  | none => cases h
  | some l => rw [← Option.some.inj h]; exact Frame.after (State.overwrite_frame ..) (by decide) ((State.modModel_frame ..).mono (by decide))

theorem State.placeSpilled_frame {k} {x} {s : State} {t : State} (h : State.placeSpilled k x s = some t) : Frame [.mem, .models] s t := by
  unfold State.placeSpilled at h
  obtain ⟨_, _, rfl⟩ := Option.map_eq_some_iff.mp h
  exact Frame.after (State.overwrite_frame ..) (by decide) ((State.modModel_frame ..).mono (by decide))

theorem State.placeStaging_frame {k} {spilled} {s : State} {t : State} (h : State.placeStaging k spilled s = some t) : Frame [.models] s t := by
  unfold State.placeStaging at h
  obtain ⟨_, _, rfl⟩ := Option.map_eq_some_iff.mp h
  exact State.modModel_frame _ _ _

theorem placeEach_frame {ps : List Part} {f : Shard → State → Option State} {l} {s t : State}
    (k : ∀ x u v, f x u = some v → Frame ps u v) (h : placeEach f l s = some t) : Frame ps s t := by
  unfold placeEach at h
  exact Frame.foldl_bind k h

theorem placeRest_frame {slot shards spilled} {s t : State} (h : placeRest slot shards spilled s = some t) : Frame [.mem, .models] s t := by
  unfold placeRest at h
  obtain ⟨u, hu, ht⟩ := Option.bind_eq_some_iff.mp h
  exact (placeEach_frame (ps := [.mem, .models]) (f := State.placeLocal slot)
    (fun x u v (e : State.placeLocal slot x u = some v) => State.placeLocal_frame (k := slot) (x := x) (s := u) (t := v) e) hu).trans
    ((State.placeStaging_frame ht).mono (by decide))

theorem placeModel_fits {slot strict shards} {s t : State} (h : placeModel slot strict shards s = .fits t) : Frame [.mem, .models] s t := by
  unfold placeModel at h
  split at h
  · cases h; exact placeRest_frame (by assumption)
  · dsimp only at h
    repeat' (first | (cases h; done) | split at h)

theorem placeModel_spilled {slot strict shards} {s t : State} (h : placeModel slot strict shards s = .spilled t) : Frame [.mem, .models] s t := by
  unfold placeModel at h
  split at h
  · cases h
  · dsimp only at h
    split at h
    · cases h
    · split at h
      · rename_i hf
        split at h
        · rename_i hp
          cases h
          obtain ⟨k, _, hk⟩ := List.exists_of_findSome?_eq_some hf
          obtain ⟨u, hu, e⟩ := Option.map_eq_some_iff.mp hk
          cases e
          exact (placeRest_frame hu).trans (placeEach_frame (fun _ _ _ e => State.placeSpilled_frame e) hp)
        · cases h
      · cases h

end Sys2Proof.Machine
end

