-- ==== Sys2Proof/Laws/Placement.lean ====
section
/-! SUPPORT. What each operation of Machine/Placement.lean can change: one frame each. -/

set_option Elab.async false
namespace Sys2Proof.Machine

theorem dmaStop_frame {c} {s : State} {t : State} (h : dmaStop c s = some t) : Frame [.cmds] s t := by
  unfold dmaStop at h
  try dsimp only at h
  repeat' (first | (cases h; done) | split at h | (obtain ⟨_, _, rfl⟩ := Option.map_eq_some_iff.mp h))
  all_goals (try cases h)
  all_goals repeat' first
    | with_reducible assumption
    | with_reducible apply Frame.refl
    | with_reducible refine Frame.ite (fun _ => ?_) (fun _ => ?_)
    | with_reducible apply Frame.foldl
    | with_reducible apply Frame.foldl_fst
    | with_reducible apply Frame.after (State.finishCmd_frame _ _ _ _)
    | decide
    | intro _ _ _
    | fail_if_no_progress (refine Frame.upd ?_)
    | split

end Sys2Proof.Machine
end

