-- ==== Sys2Proof/Laws/Plans.lean ====
section
/-! SUPPORT. What each operation of Machine/Plans.lean can change: one frame each. -/

set_option Elab.async false
namespace Sys2Proof.Machine

theorem State.planInputs_frame (loads) (s : State) : Frame [.cel] s (State.planInputs loads s) := by
  unfold State.planInputs
  try dsimp only
  repeat' first
    | with_reducible assumption
    | with_reducible apply Frame.refl
    | with_reducible refine Frame.ite (fun _ => ?_) (fun _ => ?_)
    | with_reducible apply Frame.foldl
    | with_reducible apply Frame.foldl_fst
    | decide
    | intro _ _ _
    | fail_if_no_progress (refine Frame.upd ?_)
    | split

theorem State.keepReports_frame (s : State) : Frame [.cel] s (State.keepReports s) := by
  unfold State.keepReports
  try dsimp only
  repeat' first
    | with_reducible assumption
    | with_reducible apply Frame.refl
    | with_reducible refine Frame.ite (fun _ => ?_) (fun _ => ?_)
    | with_reducible apply Frame.foldl
    | with_reducible apply Frame.foldl_fst
    | decide
    | intro _ _ _
    | fail_if_no_progress (refine Frame.upd ?_)
    | split

end Sys2Proof.Machine
end

