-- ==== Sys2Proof/Laws/Scus.lean ====
section
/-! SUPPORT. What each operation of Machine/Scus.lean can change: one frame each. -/

set_option Elab.async false
namespace Sys2Proof.Machine

theorem State.scuCondition_frame (u) (k) (s : State) : Frame [.ret, .cause, .flashA, .flashB, .log, .flt, .host, .cmds] s (State.scuCondition u k s) := by
  unfold State.scuCondition
  try dsimp only
  repeat' first
    | with_reducible assumption
    | with_reducible apply Frame.refl
    | with_reducible refine Frame.ite (fun _ => ?_) (fun _ => ?_)
    | with_reducible apply Frame.foldl
    | with_reducible apply Frame.foldl_fst
    | with_reducible apply Frame.after (State.raise_quiet (by first | with_reducible exact calm_src (by decide) (by decide) | with_reducible exact calm_bundle _ (by decide) | with_reducible exact calm_access (by assumption) | with_reducible exact calm_unmapped (by assumption) | with_reducible exact calm_scu _ | with_reducible exact calm_unmappedSource _))
    | decide
    | intro _ _ _
    | fail_if_no_progress (refine Frame.upd ?_)
    | split

theorem State.modScu_frame (u) (f) (s : State) : Frame [.scu] s (State.modScu u f s) := by
  unfold State.modScu
  try dsimp only
  repeat' first
    | with_reducible assumption
    | with_reducible apply Frame.refl
    | with_reducible refine Frame.ite (fun _ => ?_) (fun _ => ?_)
    | with_reducible apply Frame.foldl
    | with_reducible apply Frame.foldl_fst
    | decide
    | intro _ _ _
    | fail_if_no_progress (refine Frame.upd ?_)
    | split

theorem State.closeRecord_frame (u) (bytes) (incomplete) (s : State) : Frame [.ret, .cause, .flashA, .flashB, .log, .flt, .host, .cmds, .scu] s (State.closeRecord u bytes incomplete s) := by
  unfold State.closeRecord
  try dsimp only
  repeat' first
    | with_reducible assumption
    | with_reducible apply Frame.refl
    | with_reducible refine Frame.ite (fun _ => ?_) (fun _ => ?_)
    | with_reducible apply Frame.foldl
    | with_reducible apply Frame.foldl_fst
    | with_reducible apply Frame.after (State.scuCondition_frame _ _ _)
    | with_reducible apply Frame.after (State.modScu_frame _ _ _)
    | decide
    | intro _ _ _
    | fail_if_no_progress (refine Frame.upd ?_)
    | split

theorem State.stopScu_frame (u) (s : State) : Frame [.ret, .cause, .flashA, .flashB, .log, .flt, .host, .cmds, .scu] s (State.stopScu u s) := by
  unfold State.stopScu
  try dsimp only
  repeat' first
    | with_reducible assumption
    | with_reducible apply Frame.refl
    | with_reducible refine Frame.ite (fun _ => ?_) (fun _ => ?_)
    | with_reducible apply Frame.foldl
    | with_reducible apply Frame.foldl_fst
    | with_reducible apply Frame.after (State.closeRecord_frame _ _ _ _)
    | with_reducible apply Frame.after (State.modScu_frame _ _ _)
    | decide
    | intro _ _ _
    | fail_if_no_progress (refine Frame.upd ?_)
    | split

theorem State.writeScuCtrl_frame (u) (v) (s : State) : Frame [.ret, .cause, .flashA, .flashB, .log, .flt, .host, .cmds, .scu] s (State.writeScuCtrl u v s) := by
  unfold State.writeScuCtrl
  try dsimp only
  repeat' first
    | with_reducible assumption
    | with_reducible apply Frame.refl
    | with_reducible refine Frame.ite (fun _ => ?_) (fun _ => ?_)
    | with_reducible apply Frame.foldl
    | with_reducible apply Frame.foldl_fst
    | with_reducible apply Frame.after (State.stopScu_frame _ _)
    | with_reducible apply Frame.after (State.modScu_frame _ _ _)
    | decide
    | intro _ _ _
    | fail_if_no_progress (refine Frame.upd ?_)
    | split

theorem closeFixed_frame (u i k l) (s : State) : Frame [.ret, .cause, .flashA, .flashB, .log, .flt, .host, .cmds, .scu] s (closeFixed u i k l s) := by
  induction k generalizing l s with
  | zero => unfold closeFixed; exact (State.modScu_frame ..).mono (by decide)
  | succ k ih =>
    unfold closeFixed
    dsimp only
    split
    · exact (State.modScu_frame ..).mono (by decide)
    · exact ((State.closeRecord_frame ..).mono (by decide)).trans (ih _ _)

end Sys2Proof.Machine
end

