-- ==== Sys2Proof/Laws/Transactions.lean ====
section
/-! SUPPORT. What each operation of Machine/Transactions.lean can change: one frame each. -/

set_option Elab.async false
namespace Sys2Proof.Machine

theorem State.abandonMove_frame (block) (s : State) : Frame [.tiles, .hubBundles, .engines, .cel, .trans, .free] s (State.abandonMove block s) := by
  unfold State.abandonMove
  try dsimp only
  repeat' first
    | with_reducible assumption
    | with_reducible apply Frame.refl
    | with_reducible refine Frame.ite (fun _ => ?_) (fun _ => ?_)
    | with_reducible apply Frame.foldl
    | with_reducible apply Frame.foldl_fst
    | with_reducible apply Frame.after (State.tidyLeases_frame _ _)
    | decide
    | intro _ _ _
    | fail_if_no_progress (refine Frame.upd ?_)
    | split

theorem State.cachePut_frame (c) (s : State) : Frame [.trans] s (State.cachePut c s) := by
  unfold State.cachePut
  try dsimp only
  repeat' first
    | with_reducible assumption
    | with_reducible apply Frame.refl
    | with_reducible refine Frame.ite (fun _ => ?_) (fun _ => ?_)
    | with_reducible apply Frame.foldl
    | with_reducible apply Frame.foldl_fst
    | decide
    | intro _ _ _
    | fail_if_no_progress (refine Frame.upd ?_)
    | split

theorem State.endRequest_frame (slot) (s : State) : Frame [.tiles, .hubBundles, .engines, .trans] s (State.endRequest slot s) := by
  unfold State.endRequest
  try dsimp only
  repeat' first
    | with_reducible assumption
    | with_reducible apply Frame.refl
    | with_reducible refine Frame.ite (fun _ => ?_) (fun _ => ?_)
    | with_reducible apply Frame.foldl
    | with_reducible apply Frame.foldl_fst
    | with_reducible apply Frame.after (State.request_frame _ _)
    | decide
    | intro _ _ _
    | fail_if_no_progress (refine Frame.upd ?_)
    | split

theorem State.releaseLeases_frame (source) (s : State) : Frame [.trans] s (State.releaseLeases source s) := by
  unfold State.releaseLeases
  try dsimp only
  repeat' first
    | with_reducible assumption
    | with_reducible apply Frame.refl
    | with_reducible refine Frame.ite (fun _ => ?_) (fun _ => ?_)
    | with_reducible apply Frame.foldl
    | with_reducible apply Frame.foldl_fst
    | decide
    | intro _ _ _
    | fail_if_no_progress (refine Frame.upd ?_)
    | split

theorem State.keepalive_frame (source) (operand) (s : State) : Frame [.trans] s (State.keepalive source operand s) := by
  unfold State.keepalive
  try dsimp only
  repeat' first
    | with_reducible assumption
    | with_reducible apply Frame.refl
    | with_reducible refine Frame.ite (fun _ => ?_) (fun _ => ?_)
    | with_reducible apply Frame.foldl
    | with_reducible apply Frame.foldl_fst
    | with_reducible apply Frame.after (State.releaseLeases_frame _ _)
    | decide
    | intro _ _ _
    | fail_if_no_progress (refine Frame.upd ?_)
    | split

theorem State.leaseFor_frame (source) (operand) (s : State) : Frame [.trans] s (State.leaseFor source operand s).1 := by
  unfold State.leaseFor
  try dsimp only
  repeat' first
    | with_reducible assumption
    | with_reducible apply Frame.refl
    | with_reducible refine Frame.ite (fun _ => ?_) (fun _ => ?_)
    | with_reducible apply Frame.foldl
    | with_reducible apply Frame.foldl_fst
    | decide
    | intro _ _ _
    | fail_if_no_progress (refine Frame.upd ?_)
    | split

theorem State.sendBlock_frame (block) (peer) (s : State) : Frame [.ret, .cause, .flashA, .flashB, .log, .flt, .tiles, .hubBundles, .engines, .cel, .host, .cmds, .mem, .trans, .free] s (State.sendBlock block peer s) := by
  unfold State.sendBlock
  try dsimp only
  repeat' first
    | with_reducible assumption
    | with_reducible apply Frame.refl
    | with_reducible refine Frame.ite (fun _ => ?_) (fun _ => ?_)
    | with_reducible apply Frame.foldl
    | with_reducible apply Frame.foldl_fst
    | with_reducible apply Frame.after (State.reportAccess_quiet (by first | with_reducible exact calm_src (by decide) (by decide) | with_reducible exact calm_bundle _ (by decide) | with_reducible exact calm_access (by assumption) | with_reducible exact calm_unmapped (by assumption) | with_reducible exact calm_scu _ | with_reducible exact calm_unmappedSource _ | with_reducible exact calm_blocksSource (by assumption)))
    | with_reducible apply Frame.after (State.abandonMove_frame _ _)
    | with_reducible apply Frame.after (State.request_frame _ _)
    | with_reducible apply Frame.after (State.spend_frame _ _)
    | with_reducible apply Frame.after (State.touch_frame _ _ _)
    | decide
    | intro _ _ _
    | fail_if_no_progress (refine Frame.upd ?_)
    | split

theorem State.respond_frame (m) (code) (operand) (data) (s : State) : Frame [.tiles, .hubBundles, .engines, .trans] s (State.respond m code operand data s) := by
  unfold State.respond
  try dsimp only
  repeat' first
    | with_reducible assumption
    | with_reducible apply Frame.refl
    | with_reducible refine Frame.ite (fun _ => ?_) (fun _ => ?_)
    | with_reducible apply Frame.foldl
    | with_reducible apply Frame.foldl_fst
    | with_reducible apply Frame.after (State.sendMsg_frame _ _)
    | decide
    | intro _ _ _
    | fail_if_no_progress (refine Frame.upd ?_)
    | split

theorem State.takeDelivered_frame (e) (m) (s : State) : Frame [.tiles, .hubBundles, .engines, .trans] s (State.takeDelivered e m s) := by
  unfold State.takeDelivered
  try dsimp only
  repeat' first
    | with_reducible assumption
    | with_reducible apply Frame.refl
    | with_reducible refine Frame.ite (fun _ => ?_) (fun _ => ?_)
    | with_reducible apply Frame.foldl
    | with_reducible apply Frame.foldl_fst
    | with_reducible apply Frame.after (State.modLink_frame _ _ _)
    | decide
    | intro _ _ _
    | fail_if_no_progress (refine Frame.upd ?_)
    | split

theorem State.transit_frame (e) (m) (s : State) : Frame [.ret, .cause, .flashA, .flashB, .log, .flt, .tiles, .hubBundles, .engines, .host, .cmds, .trans] s (State.transit e m s) := by
  unfold State.transit
  try dsimp only
  repeat' first
    | with_reducible assumption
    | with_reducible apply Frame.refl
    | with_reducible refine Frame.ite (fun _ => ?_) (fun _ => ?_)
    | with_reducible apply Frame.foldl
    | with_reducible apply Frame.foldl_fst
    | with_reducible apply Frame.after (State.sendFrom_frame _ _ _)
    | with_reducible apply Frame.after (State.raise_quiet (by first | with_reducible exact calm_src (by decide) (by decide) | with_reducible exact calm_bundle _ (by decide) | with_reducible exact calm_access (by assumption) | with_reducible exact calm_unmapped (by assumption) | with_reducible exact calm_scu _ | with_reducible exact calm_unmappedSource _))
    | decide
    | intro _ _ _
    | fail_if_no_progress (refine Frame.upd ?_)
    | split

theorem State.modRequest_frame (slot) (f) (s : State) : Frame [.trans] s (State.modRequest slot f s) := by
  unfold State.modRequest
  try dsimp only
  repeat' first
    | with_reducible assumption
    | with_reducible apply Frame.refl
    | with_reducible refine Frame.ite (fun _ => ?_) (fun _ => ?_)
    | with_reducible apply Frame.foldl
    | with_reducible apply Frame.foldl_fst
    | decide
    | intro _ _ _
    | fail_if_no_progress (refine Frame.upd ?_)
    | split

theorem State.blockRequestFails_frame (q) (block) (status) (source) (s : State) : Frame [.tiles, .hubBundles, .engines, .cel, .cmds, .models, .sessions, .sessionGen, .migs, .runs, .launches, .trans, .free] s (State.blockRequestFails q block status source s) := by
  unfold State.blockRequestFails
  try dsimp only
  repeat' first
    | with_reducible assumption
    | with_reducible apply Frame.refl
    | with_reducible refine Frame.ite (fun _ => ?_) (fun _ => ?_)
    | with_reducible apply Frame.foldl
    | with_reducible apply Frame.foldl_fst
    | with_reducible apply Frame.after (State.abandonMove_frame _ _)
    | with_reducible apply Frame.after (State.peerLost_frame _ _ _ _ _)
    | decide
    | intro _ _ _
    | fail_if_no_progress (refine Frame.upd ?_)
    | split

theorem State.requestFails_frame (q) (status) (source) (s : State) : Frame [.tiles, .hubBundles, .engines, .cel, .cmds, .models, .sessions, .sessionGen, .migs, .runs, .launches, .trans, .free] s (State.requestFails q status source s) := by
  unfold State.requestFails
  try dsimp only
  repeat' first
    | with_reducible assumption
    | with_reducible apply Frame.refl
    | with_reducible refine Frame.ite (fun _ => ?_) (fun _ => ?_)
    | with_reducible apply Frame.foldl
    | with_reducible apply Frame.foldl_fst
    | with_reducible apply Frame.after (State.blockRequestFails_frame _ _ _ _ _)
    | with_reducible apply Frame.after (State.failMigration_frame _ _ _ _)
    | with_reducible apply Frame.after (State.dropRequests_frame _ _)
    | with_reducible apply Frame.after (State.failWork_frame _ _ _ _)
    | with_reducible apply Frame.after (State.peerLost_frame _ _ _ _ _)
    | with_reducible apply Frame.after (State.modRun_frame _ _ _)
    | with_reducible apply Frame.after (State.blame_frame _ _ _ _ _)
    | decide
    | intro _ _ _
    | fail_if_no_progress (refine Frame.upd ?_)
    | split

theorem State.granted_frame (block) (peer) (s : State) : Frame [.ret, .cause, .flashA, .flashB, .log, .flt, .tiles, .hubBundles, .engines, .cel, .host, .cmds, .mem, .trans, .free] s (State.granted block peer s) := by
  unfold State.granted
  try dsimp only
  repeat' first
    | with_reducible assumption
    | with_reducible apply Frame.refl
    | with_reducible refine Frame.ite (fun _ => ?_) (fun _ => ?_)
    | with_reducible apply Frame.foldl
    | with_reducible apply Frame.foldl_fst
    | with_reducible apply Frame.after (State.tidyLeases_frame _ _)
    | with_reducible apply Frame.after (State.sendBlock_frame _ _ _)
    | decide
    | intro _ _ _
    | fail_if_no_progress (refine Frame.upd ?_)
    | split

theorem State.requestDone_frame (q) (s : State) : Frame [.ret, .cause, .flashA, .flashB, .log, .flt, .tiles, .hubBundles, .engines, .cel, .host, .cmds, .mem, .bytes, .models, .sessions, .runs, .trans, .free] s (State.requestDone q s) := by
  unfold State.requestDone
  try dsimp only
  repeat' first
    | with_reducible assumption
    | with_reducible apply Frame.refl
    | with_reducible refine Frame.ite (fun _ => ?_) (fun _ => ?_)
    | with_reducible apply Frame.foldl
    | with_reducible apply Frame.foldl_fst
    | with_reducible apply Frame.after (State.settleRun_frame _ _)
    | with_reducible apply Frame.after (State.granted_frame _ _ _)
    | decide
    | intro _ _ _
    | fail_if_no_progress (refine Frame.upd ?_)
    | split

theorem State.takeResponse_frame (m) (s : State) : Frame [.ret, .cause, .flashA, .flashB, .log, .flt, .tiles, .hubBundles, .engines, .cel, .host, .cmds, .mem, .bytes, .models, .sessions, .sessionGen, .migs, .runs, .launches, .trans, .free] s (State.takeResponse m s) := by
  unfold State.takeResponse
  try dsimp only
  repeat' first
    | with_reducible assumption
    | with_reducible apply Frame.refl
    | with_reducible refine Frame.ite (fun _ => ?_) (fun _ => ?_)
    | with_reducible apply Frame.foldl
    | with_reducible apply Frame.foldl_fst
    | with_reducible apply Frame.after (State.requestFails_frame _ _ _ _)
    | with_reducible apply Frame.after (State.requestDone_frame _ _)
    | with_reducible apply Frame.after (State.endRequest_frame _ _)
    | with_reducible apply Frame.after (State.modRequest_frame _ _ _)
    | with_reducible apply Frame.after (State.spend_frame _ _)
    | decide
    | intro _ _ _
    | fail_if_no_progress (refine Frame.upd ?_)
    | split

theorem State.joinCame_frame (source) (operand) (s : State) : Frame [.trans] s (State.joinCame source operand s) := by
  unfold State.joinCame
  try dsimp only
  repeat' first
    | with_reducible assumption
    | with_reducible apply Frame.refl
    | with_reducible refine Frame.ite (fun _ => ?_) (fun _ => ?_)
    | with_reducible apply Frame.foldl
    | with_reducible apply Frame.foldl_fst
    | decide
    | intro _ _ _
    | fail_if_no_progress (refine Frame.upd ?_)
    | split

theorem State.servedRead_frame (source) (a) (n) (s : State) : Frame [.cel] s (State.servedRead source a n s) := by
  unfold State.servedRead
  try dsimp only
  repeat' first
    | with_reducible assumption
    | with_reducible apply Frame.refl
    | with_reducible refine Frame.ite (fun _ => ?_) (fun _ => ?_)
    | with_reducible apply Frame.foldl
    | with_reducible apply Frame.foldl_fst
    | decide
    | intro _ _ _
    | fail_if_no_progress (refine Frame.upd ?_)
    | split

theorem State.runRequest_frame (m) (s : State) : Frame [.ret, .cause, .flashA, .flashB, .log, .flt, .tiles, .hubBundles, .engines, .cel, .host, .cmds, .mem, .bytes, .models, .sessions, .sessionGen, .migs, .trans, .free] s (State.runRequest m s).1 := by
  unfold State.runRequest
  try dsimp only
  repeat' first
    | with_reducible assumption
    | with_reducible apply Frame.refl
    | with_reducible refine Frame.ite (fun _ => ?_) (fun _ => ?_)
    | with_reducible apply Frame.foldl
    | with_reducible apply Frame.foldl_fst
    | with_reducible apply Frame.after (State.reportAccess_quiet (by first | with_reducible exact calm_src (by decide) (by decide) | with_reducible exact calm_bundle _ (by decide) | with_reducible exact calm_access (by assumption) | with_reducible exact calm_unmapped (by assumption) | with_reducible exact calm_scu _ | with_reducible exact calm_unmappedSource _))
    | with_reducible apply Frame.after (State.migrateCtrl_frame _ _ _)
    | with_reducible apply Frame.after (State.servedRead_frame _ _ _ _)
    | with_reducible apply Frame.after (State.imageCame_frame _ _ _)
    | with_reducible apply Frame.after (State.keepalive_frame _ _ _)
    | with_reducible apply Frame.after (State.joinCame_frame _ _ _)
    | with_reducible apply Frame.after (State.leaseFor_frame _ _ _)
    | with_reducible apply Frame.after (State.writeMem_frame _ _ _)
    | with_reducible apply Frame.after (State.spend_frame _ _)
    | with_reducible apply Frame.after (State.touch_frame _ _ _)
    | decide
    | intro _ _ _
    | fail_if_no_progress (refine Frame.upd ?_)
    | split

theorem State.takeRequest_frame (m) (s : State) : Frame [.ret, .cause, .flashA, .flashB, .log, .flt, .tiles, .hubBundles, .engines, .cel, .host, .cmds, .mem, .bytes, .models, .sessions, .sessionGen, .migs, .trans, .free] s (State.takeRequest m s) := by
  unfold State.takeRequest
  try dsimp only
  repeat' first
    | with_reducible assumption
    | with_reducible apply Frame.refl
    | with_reducible refine Frame.ite (fun _ => ?_) (fun _ => ?_)
    | with_reducible apply Frame.foldl
    | with_reducible apply Frame.foldl_fst
    | with_reducible apply Frame.after (State.runRequest_frame _ _)
    | with_reducible apply Frame.after (State.cachePut_frame _ _)
    | with_reducible apply Frame.after (State.respond_frame _ _ _ _ _)
    | decide
    | intro _ _ _
    | fail_if_no_progress (refine Frame.upd ?_)
    | split

end Sys2Proof.Machine
end

