-- ==== Sys2Proof/Laws/Vector.lean ====
section
/-! SUPPORT. What a function of the vector unit can answer (R129). -/
set_option Elab.async false
namespace Sys2Proof.Machine

/-- Where the manual gives the exact value, the answer is a word within 2 ULP of it, or the exact value rounded. -/
theorem vecFn_spec {f : VecFn} {a : Nat} {x : Int} (h : f.exact (fval a) = some x) :
    withinUlps x (vecFn f a) = true ∨ vecFn f a = fround (.fin (decide (x < 0)) x.natAbs (-400)) := by
  unfold vecFn
  simp only [h]
  split
  · exact Or.inl ‹_›
  · exact Or.inr rfl

end Sys2Proof.Machine
end

