-- ==== Sys2Proof/WellFormed.lean ====
section
/-! DEFINITION. Which commands are well formed: operands within the ranges that the manual gives their fields. A sender cannot form another one; `exec` is
defined on every term all the same. -/
namespace Sys2Proof

/-- Wires of a bundle: 64 data, 4 spare, VLD and FCK (R353). -/
def wiresOk (l : List Nat) : Bool := l.all (fun w => decide (w < 70))

/-- Fields of HELLO (Table 14-2). -/
def helloOk (h : HelloWord) : Bool :=
  decide (h.generation < 16) && decide (h.maxRate < 4) && decide (h.moduleId < 4096) && decide (h.plane < 2)

/-- A signed 16-bit reading. -/
def reading16Ok (v : Int) : Bool := decide (-32768 ≤ v) && decide (v < 32768)

/-- Whether every operand lies in the range of its field. -/
def Instr.wf : Instr → Bool
  | .coldReset _ _ _ => true
  | .powerDown => true
  | .warmReset => true
  | .perstDeassert => true
  | .functionLevelReset => true
  | .rowRelease _ _ => true
  | .tilePositionReport _ _ => true
  | .laneTest _ a b _ _ _ _ => wiresOk a && wiresOk b
  | .cellSetup _ => true
  | .cellSetupDone _ _ => true
  | .gddr7TrainingDone _ _ _ a b x y => decide (a < 2 ^ 32) && decide (b < 2 ^ 32) && decide (x < 256) && decide (y < 256)
  | .moduleReady _ => true
  | .refclkLost => true
  | .refclkRestored _ _ _ => true
  | .hubPllUnlock => true
  | .tilePllUnlock _ => true
  | .forwardedClockStop _ => true
  | .enginePllUnlock _ => true
  | .tileRetire _ _ => true
  | .siteIsolate _ => true
  | .slotEnd _ _ => true
  | .katResult _ _ => true
  | .tileControllerWatchdog _ => true
  | .coreWatchdog _ => true
  | .cellarerPlan l => l.rows.length == 8
  | .drainAbandon _ => true
  | .drainEnd _ => true
  | .workUnitAssign _ l => l.length == 8
  | .workUnitComplete _ => true
  | .blockMoveSwitch _ _ => true
  | .blockMoveSourceFree _ => true
  | .stripeReloadDone _ _ => true
  | .shardPrefetch _ k => decide (k < 65536)
  | .nop _ => true
  | .identify _ => true
  | .getStatus _ => true
  | .setFeatureBar4Aperture _ => true
  | .setFeatureCxlPortOffline _ => true
  | .setFeaturePowerCap _ => true
  | .setFeatureThrottleStart _ => true
  | .getFeature _ => true
  | .modelLoad _ _ _ => true
  | .modelLoadStage _ _ _ => true
  | .modelUnload _ => true
  | .modelEpochCommit _ => true
  | .modelQuery _ => true
  | .sessionOpen _ => true
  | .sessionClose _ => true
  | .prefill _ b => b.length % 16 == 0
  | .prefillRebuild _ b => b.length % 16 == 0
  | .decode _ b => b.length % 16 == 0
  | .sessionSnapshot _ => true
  | .sessionRestore _ _ => true
  | .sessionRestoreRemote _ => true
  | .sessionMigrate _ => true
  | .migrationJoinTimeout _ => true
  | .migrationImageReceived _ _ => true
  | .migrationReady _ => true
  | .migrationRefusal _ _ => true
  | .migrationCommit _ => true
  | .migrationDone _ => true
  | .migrationDoneTimeout _ => true
  | .migrationCommitResend _ => true
  | .migrationTargetTimeout _ => true
  | .graphLoad _ _ => true
  | .graphRun _ b p => b.length % 16 == 0 && p.length % 2 == 0
  | .collectiveJoinTimeout _ => true
  | .matmul _ _ _ => true
  | .batchMatmul _ _ _ => true
  | .attention _ _ _ => true
  | .add _ _ => true
  | .sub _ _ => true
  | .mul _ _ => true
  | .div _ _ => true
  | .fma _ _ => true
  | .max _ _ => true
  | .min _ _ => true
  | .abs _ _ => true
  | .neg _ _ => true
  | .exp _ _ => true
  | .log _ _ => true
  | .sqrt _ _ => true
  | .rsqrt _ _ => true
  | .tanh _ _ => true
  | .sigmoid _ _ => true
  | .gelu _ _ => true
  | .silu _ _ => true
  | .clamp _ _ => true
  | .reduceSum _ _ => true
  | .reduceMax _ _ => true
  | .reduceMin _ _ => true
  | .softmax _ _ => true
  | .layernorm _ _ => true
  | .rmsnorm _ _ => true
  | .convert _ _ => true
  | .transpose _ _ => true
  | .reshape _ _ => true
  | .slice _ _ => true
  | .concat _ _ => true
  | .gather _ _ => true
  | .hashPartition _ _ => true
  | .sort _ _ => true
  | .joinProbe _ _ => true
  | .stringSimilarity _ _ => true
  | .filter _ _ => true
  | .tableGather _ _ => true
  | .allReduce _ _ _ => true
  | .reduceScatter _ _ _ => true
  | .allGather _ _ _ => true
  | .broadcast _ _ _ => true
  | .finalise _ _ => true
  | .recordMerge _ _ _ _ => true
  | .kernelLoad _ _ => true
  | .kernelLaunch _ _ _ => true
  | .kernelTimeLimit _ => true
  | .kernelNop _ => true
  | .bra _ => true
  | .join _ => true
  | .exit _ => true
  | .intOp _ _ => true
  | .fpOp _ _ => true
  | .cvt _ _ _ => true
  | .cvtBlk _ => true
  | .ld _ => true
  | .st _ => true
  | .memCopy _ => true
  | .memCopyDone _ _ => true
  | .waitCopy _ => true
  | .atom _ _ => true
  | .mma _ _ => true
  | .accZero _ => true
  | .accStore _ => true
  | .accExport _ => true
  | .accMerge _ => true
  | .accDeposit _ => true
  | .bar _ => true
  | .fence _ => true
  | .sreg _ => true
  | .dmaCopy _ _ => true
  | .memAlloc _ => true
  | .memFree _ => true
  | .rolePlan _ => true
  | .placementQuery _ => true
  | .selftestSummary _ => true
  | .selftestFull _ _ _ => true
  | .marginTest _ l => l.all (fun p => decide (p.1 ≤ 64) && decide (p.2 ≤ 64))
  | .faultInject _ => true
  | .logRead _ => true
  | .settingsRead _ => true
  | .settingsWrite _ _ => true
  | .attest _ => true
  | .restart _ => true
  | .restartForce _ => true
  | .shutdown _ => true
  | .shutdownForce _ => true
  | .ringEnable _ _ => true
  | .ringDisable _ _ => true
  | .submissionTailDoorbell _ _ => true
  | .completionHeadDoorbell _ _ => true
  | .descriptorFetch _ d => d.length == 64
  | .fenceRelease _ => true
  | .commandComplete _ => true
  | .irqCoalesceTimeout _ => true
  | .msixUnmask _ => true
  | .bar4Read o n => decide (0 < n) && decide (o + n ≤ 2 ^ 39)
  | .bar4Write o d => decide (0 < d.length) && decide (o + d.length ≤ 2 ^ 39)
  | .barAccessInvalid b _ n _ => (b == 0 || b == 2 || b == 4) && decide (0 < n)
  | .registerWrite o n _ => (n == 4 || n == 8) && decide (o + n ≤ 2 ^ 24)
  | .fltClearRearm => true
  | .fltClearAll => true
  | .fltClearOne _ => true
  | .hostMasterResume => true
  | .hostLinkDown => true
  | .hostLinkRetrain w r => [1, 2, 4, 8, 16].contains w && decide (1 ≤ r) && decide (r ≤ 6)
  | .hostReadCompletion _ _ => true
  | .hostCompletionTimeout _ => true
  | .gddr7Read _ o _ _ _ _ => o % 64 == 0 && decide (o < 0x1E0000000)
  | .gddr7Write _ o d _ _ _ _ => decide (0 < d.length) && decide (o + d.length ≤ 0x200000000)
  | .scrubGroup _ _ l => l.length == 15
  | .gddr7Refresh _ _ _ => true
  | .gddr7TempRead _ a b => decide (a < 256) && decide (b < 256)
  | .recentre _ _ _ => true
  | .channelRetrainDone _ _ _ _ => true
  | .cxlPresenceDetect _ => true
  | .cxlLinkUp _ r w _ => decide (r < 256) && [1, 2, 4, 8, 16].contains w
  | .cxlDiscoveryDone _ => true
  | .cxlLinkDown _ => true
  | .cxlAccessTimeout _ _ => true
  | .cxlLinkDownTimeout _ => true
  | .cxlEventLogPoll _ _ => true
  | .cxlAttentionButton _ => true
  | .cxlAttentionLedTimeout _ => true
  | .cxlEvacuationDone _ => true
  | .cxlSurpriseRemoval _ => true
  | .dataFlitReceive _ k f => f.length == 128 && decide (k < 32)
  | .linkFlitReceive _ k f => f.length == 128 && decide (k < 32)
  | .fillerFlitReceive _ k f => f.length == 128 && decide (k < 32)
  | .linkFlitTimer _ => true
  | .replayTimerExpiry _ _ => true
  | .nakResend _ => true
  | .inlineCheckDone _ l => wiresOk l
  | .phaseTrack _ l => l.all (fun p => decide (p.1 < 70))
  | .frameTransmit _ => true
  | .frameReceive _ _ _ b => b.length == 4224
  | .pause _ _ _ => true
  | .resume _ _ _ => true
  | .map _ _ _ _ _ f => decide (f < 2048)
  | .rateWidth _ _ _ _ f => decide (f < 65536)
  | .effectiveFrame _ _ => true
  | .liveChangeTimeout _ _ => true
  | .ffeReq _ _ _ a => decide (a < 3)
  | .ffeAck _ _ p q _ => decide (p ≤ 12) && decide (q ≤ 20)
  | .hello _ h => helloOk h
  | .train _ k u _ l => decide (k ≤ 8) && decide (u < 3) && decide (l.length ≤ 4)
  | .bringupTimeout _ => true
  | .bringupRetry _ => true
  | .portAbsentListen _ h => match h with | some x => helloOk x | none => true
  | .idleFreeze _ => true
  | .trainingBlock _ _ => true
  | .linkErrorBucket _ _ => true
  | .routeRestore _ => true
  | .transactionRequest _ m => decide (m.length ≤ 4200)
  | .transactionResponse m => decide (m.length ≤ 4200)
  | .requestTimeout k => decide (k < 4096)
  | .requestRetry k => decide (k < 4096)
  | .cacheEntryExpiry u m k => decide (u ≤ 128) && decide (m < 8192) && decide (k < 4096)
  | .leaseKeepaliveSend => true
  | .leaseKeepalive m _ => decide (m < 8192)
  | .leaseExpiry m => decide (m < 8192)
  | .elsPresence _ _ _ => true
  | .elsMonitorPoll _ _ => true
  | .elsInterrupt _ _ => true
  | .elsTimeout _ => true
  | .ringIdentityCheck _ _ _ => true
  | .ringLockLost _ _ => true
  | .slotErrorBurst _ _ => true
  | .ringLocked _ _ h _ _ => decide (h < 65536)
  | .relockTimeout _ _ _ => true
  | .ringRetry _ _ _ _ h => decide (h < 65536)
  | .feedForwardUpdate _ => true
  | .ringSweep _ l => l.length == 72 && l.all (fun o => o.all (fun h => decide (h < 65536)))
  | .laserExcursion _ _ p => reading16Ok p
  | .laserLow _ _ p _ => reading16Ok p
  | .laserRestore _ _ => true
  | .openFibre _ _ => true
  | .spareMarginTest _ _ h w => decide (h ≤ 64) && decide (w ≤ 64)
  | .sensorSample d l => (match d with | .engine _ => l.length == 4 | _ => l.length == 8) && l.all reading16Ok
  | .thermalCeilingUpdate _ => true
  | .issueRateStep _ => true
  | .powerTelemetrySample w _ => decide (w < 65536)
  | .powerLoop w => decide (w < 65536)
  | .overcurrentTrip => true
  | .thermalTrip _ r => decide (r < 256)
  | .backstopTrip _ r => decide (r < 256)
  | .tripSensorPoll h => reading16Ok h
  | .tripRestart _ _ _ => true
  | .thermalShutdown _ r => decide (r < 256)
  | .inputRangeTrip => true
  | .inputRangeRestart _ _ _ => true
  | .flashWritesRefused => true
  | .flashWritesAllowed => true
  | .ageingPoint d l => match d with | .engine _ => l.length == 1 | _ => l.length == 4
  | .opticalPoint _ _ p => decide (p.eyeWidth ≤ 64) && decide (p.eyeHeight ≤ 64)
  | .faultCapture l => l.all (fun e => decide (e.source < 0xFFFF))
  | .faultStateRestExpiry _ => true
  | .logRecordTimeout => true
  | .flashOpDone _ _ => true
  | .scuEnable _ _ => true
  | .scuDisable _ => true
  | .scuRecordClose _ _ _ _ => true
  | .scuResultRead _ => true
  | .smbusBlockRead _ => true
  | .i3cPrivateRead _ => true
  | .smbusAlertResponse => true
  | .sidebandRefresh => true
  | .standbySupplyLoss => true
  | .standbySupplyReturn => true
  | .configurationWrite _ => true
  | .wireFillerError _ w => decide (w < 70)
  | .cxlMemReadResponse _ _ _ => true

end Sys2Proof
end

