-- ==== Sys2Proof/Tests/Slice0.lean ====
section
/-! SUPPORT. Tests: ill-formed commands that the check refuses, single steps whose expected results come from the manual, and for the statements with
hypotheses concrete states and operands that meet them. -/
set_option Elab.async false
set_option linter.all false
set_option maxRecDepth 20000

namespace Sys2Proof.Tests
open Sys2Proof Sys2Proof.Machine

/-! ## Small states -/

/-- A descriptor of 64 bytes with the given fields (offset, size, value). -/
def desc (l : List (Nat × Nat × Nat)) : List Byte :=
  (List.range 64).map (fun k => l.foldl (fun b x => if x.1 ≤ k ∧ k < x.1 + x.2.1 then BitVec.ofNat 8 (x.2.2 / 256 ^ (k - x.1)) else b) 0)

/-- The module ready, its host link up. -/
def base : State :=
  { State.reset with
    boot := { State.reset.boot with ready := true, fwUp := true, barReadable := true, everReset := true, step := 9 },
    pins := { State.reset.pins with pwrgd := true, readyOut := true, regulators := true },
    host := { State.reset.host with linkUp := true, busMaster := true } }

/-- Entry 1 of a command table, with a descriptor. -/
def cmd (l : List (Nat × Nat × Nat)) : Cmd :=
  { cid := 1, ring := 0, slot := 0, desc := desc l, aliveSeen := 0, aliveAt := 0, seq := some 0, started := false, core := 0, done := none, marked := none }

/-- The same entry, begun. -/
def begun (l : List (Nat × Nat × Nat)) : Cmd := { cmd l with started := true }

/-- A state in which one entry fills the command table. -/
def with1 (s : State) (c : Cmd) : State := { s with host := { s.host with cmds := [c] } }

/-- Tile 0 changed. -/
def onTile (f : Tile → Tile) : State := { base with tiles := modAt base.tiles 0 f }

/-- Engine 0 changed. -/
def onEngine (f : Engine → Engine) : State := { base with engines := modAt base.engines 0 f }

/-- CXL port 0 changed. -/
def onPort (f : CxlPort → CxlPort) : State := { base with cxl := modAt base.cxl 0 f }

/-- Ring 0 of the host changed. -/
def onRing (f : Ring → Ring) : State := { base with host := { base.host with rings := modAt base.host.rings 0 f } }

/-- Stream check unit 0 changed. -/
def onScu (f : Scu → Scu) : State := { base with scu := modAt base.scu 0 f }

/-- A compute tile at work, with its memory. -/
def serving (x : Tile) : Tile := { x with state := .compute, inReset := false, memInService := true, idValid := true, setupDone := true }

/-- A module with one site in service. -/
def stocked : State := onTile serving

/-- A memory handle of 64 KiB at the start of site 0. -/
def h0 : MemHandle := { index := 0, gen := 1, size := 65536, tier := 1, extents := [⟨siteBase 0, 65536⟩] }

/-- A module with that handle. -/
def stored : State := { stocked with mem := { stocked.mem with handles := [h0] } }

/-- An operation with one input and one output. -/
def op0 (code : Nat) : OpDesc := { opcode := code, fast := false, conv := 0, ins := [0], outs := [1], attr := List.replicate 16 0 }

/-- A tensor of one FP32 element. -/
def tensor (id kind : Nat) : TensorDesc :=
  { id, kind, cls := 0, format := 0, rank := 1, blockAxis := 255, dynamic := false, isPartial := false, columns := 0, ref := 0, dims := [1] }

/-- A graph of one operation. -/
def g0 (code : Nat) : Graph :=
  { allExact := false, tensors := [tensor 0 2, tensor 1 2], ops := [op0 code], colls := [], attrs := [], consts := [], crc := 0 }

/-- A run of that graph as entry 1. -/
def run0 (code : Nat) : Run :=
  { cid := 1, graph := g0 code, graphIndex := some 0, model := none, epoch := 0, seed := 0, inst := 0, bound := [],
    vals := [{ id := 0, dims := [1], bytes := [0, 0, 0x80, 0x3F], records := [] }], temps := [], opsDone := [], opsFailed := [], session := none, sessionGen := 1, reached := [], tokens := 0,
    rebuild := false, rowsAddr := 0, begun := false, rank := 0, modules := [0], spilledRead := false }

/-- A ready model. -/
def m0 : Model := { Model.reset with state := .ready, current := 1 }

/-- A module with that model in slot 0. -/
def modelled : State := { stocked with models := setAt stocked.models 0 m0 }

/-- An open session on that model. -/
def x0 : Session :=
  { index := 0, generation := 1, state := .open, pinned := false, epochChanged := false, model := 0, openEpoch := 1, lastEpoch := 0, position := 0,
    maxBlocks := 4, blockTable := 0, seed := 0, lastInstance := 0, steps := 0, stepRing := none, prior := .open, queue := [] }

/-- A module with that session. -/
def sess (x : Session) : State := { modelled with sessions := [x] }

/-- A step of that session as entry 1, begun by none. -/
def step0 (rebuild : Bool) : Run := { run0 0x0210 with session := some 0, model := some 0, rebuild, tokens := 1 }

/-- A migration of entry 1. -/
def mig (isSource joined ready : Bool) : Migration :=
  { cid := 1, isSource, session := some 0, model := 0, modelGen := 1, peer := 5, tag := 0, joined, ready, size := 0 }

/-- Factory settings as far as a test needs them: module 7 of plane 0, with a route to module 5. -/
def settings0 : Settings :=
  { version := 1, signer := 0, slot := 0, flash := 0, powerClass := 1, forceExact := false, moduleRole := .none, hopLimit := 4, moduleId := 7,
    throttleStart := 95, spareMask := 0, weightLimit := 64, powerCap := 3200, altEngine := List.replicate 24 0x1F, caskPeers := [], ownerKey := [],
    routes := [], bytes := [] }

/-- A module that reaches module 5 over engine 0. -/
def routed (s : State) : State :=
  { s with
    settings := some settings0
    engines := modAt s.engines 0 (fun x => { x with state := .up, started := true, inReset := false })
    trans := { s.trans with routes := [{ dest := 5, valid := true, learned := true, eng0 := 0, eng1 := 0x1F, hops := 1, using_ := 1, alt := 0x1F }] } }

/-- A migration of session x in a module, whose entry is live. -/
def migrating (m : Migration) : State := with1 { routed (sess x0) with migs := [m] } (begun [(0, 1, 0x26)])

/-- A graph of one operation on a constant input, which needs no binding. -/
def gNone : Graph := { g0 0x0210 with tensors := [tensor 0 3, tensor 1 2], consts := [0, 0, 0x80, 0x3F] }

/-- A kernel of one word. -/
def kernelOf (o : KOp) (w : DWord) : Kernel :=
  { allExact := false, code := [{ op := o, word := w }], warps := 1, regs := 16, accUnits := 32, barriers := 1, cellStore := 65536, tileStore := 4096,
    groups := 1, entry := 0, slots := [], perCell := 1 }

/-- A kernel that does nothing. -/
def kernel0 : Kernel := kernelOf .nop 0x0007FF0000000000

/-- The accumulator after one contribution of 1. -/
def accP : Acc := Acc.empty

/-- Its record. -/
def recP : List Byte := accP.bytes

/-- A partial tensor of one element. -/
def valP : TensorVal := { id := 1, dims := [1], bytes := [], records := [accP] }

/-- A run that waits for the records of a partial tensor. -/
def runP : Run := { run0 0x0600 with begun := true, vals := [valP], opsDone := [0] }

/-- The input of a run. -/
def opnd : Operand := { desc := tensor 0 2, dims := [1], val := { id := 0, dims := [1], bytes := [0, 0, 0x80, 0x3F], records := [] } }

/-- A tile that has left the mesh. -/
def isolated (x : Tile) : Tile := { x with state := .isolated }

/-- Start-up at its last step: tile 0 as given, every other site isolated, no light on any engine. -/
def starting (f : Tile → Tile) : State :=
  { base with
    boot := { base.boot with inProgress := some .cold, ready := false, step := 8 }
    settings := some settings0
    tiles := modAt (base.tiles.map isolated) 0 f
    engines := base.engines.map (fun x => { x with state := .noLight }) }

/-- A work unit of entry 1. -/
def unit0 (site : Option Nat) : WorkUnit :=
  { id := 0, cid := 1, op := 0, kind := .mash, group := .none, site, cells := [], cxlInputs := false, peers := [], weightSite := none, work := 1 }

/-- A sealed block in site 0. -/
def block0 : KvBlock :=
  { id := 0, session := 0, layer := 0, isV := false, firstRow := 0, rows := 1, sealed := true, sealOrder := 0, heat := 0, place := .site 0,
    extent := ⟨siteBase 0, 65536⟩, data := [] }

/-- Its move to port 0. -/
def move0 (switched : Bool) : Move :=
  { id := 0, block := 0, dest := .cxl 0, destExtent := ⟨portBase 0, 65536⟩, switched, oldPlace := .site 0, oldExtent := ⟨siteBase 0, 65536⟩, readers := 0 }

/-- A tensor of a model with 4 bytes of data. -/
def shard0 (lost : Bool) : Shard :=
  { index := 0, format := 0, rank := 1, blockAxis := 255, refRank := 0, dims := [1], dataOffset := 0, dataCrc := 0, epoch := 1, spilled := false,
    stripes := [], lost, cxlCopy := [], copyLost := false, data := [0, 0, 0, 0] }

/-- 32 active threads. -/
def all32 : List Bool := List.replicate 32 true

/-- Only thread 0. -/
def lane0 : List Bool := true :: List.replicate 31 false

/-- A warp at its first word, every register 0. -/
def warp0 : Warp :=
  { slot := 0, pc := 0, active := all32, stack := [], threads := List.replicate 32 { regs := List.replicate 16 0, preds := List.replicate 7 false }, counters := List.replicate 8 0,
    copies := [], waiting := none, exited := false }

/-- The same warp with p0 set in thread 0 alone. -/
def warpHalf : Warp := { warp0 with threads := { regs := List.replicate 16 0, preds := List.replicate 7 true } :: warp0.threads.drop 1 }

/-- The same warp inside a divergence level. -/
def warpIn (other : Option (Nat × List Bool)) (join : Nat) : Warp := { warp0 with stack := [{ join, other, before := all32 }] }

/-- A group of one warp. -/
def group0 (w : Warp) : Group := { cell := 0, written := [], warps := [w], store := [], tiles := [{ base := 0, exact := true, records := List.replicate 1024 Acc.empty, values := [] }, { base := 8, exact := false, records := [], values := List.replicate 1024 0 }] }

/-- A cluster on site 0. -/
def cluster0 (w : Warp) : Cluster := { index := 0, site := some 0, started := true, saved := false, groups := [group0 w], store := [], image := [], ended := false }

/-- A launch of a kernel as entry 1, with one warp. -/
def launch0 (k : Kernel) (w : Warp) : Launch :=
  { cid := 1, kernel := k, kernelIndex := 0, clusterCount := 1, seed := 0, inst := 0, slots := [], params := [], timeLimit := 0, begun := true,
    clusters := [cluster0 w], ranFast := false, error := none }

/-- A module that runs it. -/
def kstate (k : Kernel) (w : Warp) : State := with1 { stored with launches := [launch0 k w] } (begun [(0, 1, 0x33)])

/-- Its warp. -/
def ref0 : WarpRef := { launch := 1, cluster := 0, group := 0, warp := 0 }

/-- What that warp sees. -/
def ctx (o : KOp) (w : DWord) (y : Warp) : KCtx :=
  { ref := ref0, l := launch0 (kernelOf o w) y, c := cluster0 y, g := group0 y, w := y, op := o, word := w.toNat }

/-- A kernel that declares one global slot, which may be written. -/
def kernelG (o : KOp) (w : DWord) : Kernel := { kernelOf o w with slots := [(0, 2, 16)] }

/-- The same warp with 16 in g3. -/
def warpCopy : Warp := { warp0 with threads := List.replicate 32 { regs := (List.replicate 16 (0 : Word)).set 3 16, preds := List.replicate 7 false } }

/-- A copy into cell store. -/
def copy0 : Copy := { counter := 0, toStore := true, slot := 0, offset := 0, tile := false, place := 0, len := 16 }

/-- A warp with that copy in flight. -/
def warpCopying : Warp := { warp0 with copies := [copy0], counters := [1, 0, 0, 0, 0, 0, 0, 0] }

/-- A launch whose slot 0 is bound to the handle. -/
def launchG (o : KOp) (w : DWord) (y : Warp) : Launch := { launch0 (kernelG o w) y with slots := [handleWord 1 1 0] }

/-- A module that runs it. -/
def kstateG (o : KOp) (w : DWord) (y : Warp) : State := with1 { stored with launches := [launchG o w y] } (begun [(0, 1, 0x33)])

/-- What its warp sees. -/
def ctxG (o : KOp) (w : DWord) (y : Warp) : KCtx :=
  { ref := ref0, l := launchG o w y, c := cluster0 y, g := group0 y, w := y, op := o, word := w.toNat }

/-- The exact tile and the Fast tile of the group. -/
def tileE : AccTile := { base := 0, exact := true, records := List.replicate 1024 Acc.empty, values := [] }
def tileF : AccTile := { base := 8, exact := false, records := [], values := List.replicate 1024 0 }

/-- Ring 0 enabled with one descriptor waiting. -/
def ringOn (x : Ring) : Ring := { x with state := .enabled, enable := true, sqBase := 0x1000, cqBase := 0x2000, sqTail := 1 }

/-- The descriptor of a NOP with the lap bit, and with the fence bit beside it. -/
def nopDesc : List Byte := desc [(0, 1, 1), (2, 1, 1)]
def nopFence : List Byte := desc [(0, 1, 1), (2, 1, 5)]

/-- An end with OK. -/
def doneOk : Done := { status := .ok, source := 0, result := List.replicate 40 0, writes := [] }

/-- Aperture 0 bound to the handle. -/
def apertured : State := { stored with host := { stored.host with apertures := setAt stored.host.apertures 0 ⟨BitVec.ofNat 64 (handleWord 1 1 0), 0⟩ } }

/-- A flit of a kind on a virtual channel, with its check code for a sequence number. -/
def flit (vc kind framing len seq : Nat) (payload : List Byte) : List Byte :=
  let head := leBytes 4 (vc * 2 ^ 29 + kind * 2 ^ 27 + framing * 2 ^ 25 + 0x3FFF * 2 ^ 11 + len * 16) ++ payload ++ List.replicate (120 - payload.length) 0
  head ++ leBytes 4 (crc32c (head ++ leBytes 2 seq))

/-- Media events without and with a region. -/
def ev0 : MediaEvent := { data := 0, region := none }
def ev1 : MediaEvent := { data := 0, region := some (64, 64) }

/-- The first hub bundle and its partner in service. -/
def onHub (f : BundleDir → BundleDir) : State :=
  { base with
    hubBundles := modAt base.hubBundles 0 (fun d => f { d with state := .full })
    tiles := base.tiles.map (fun x => { x with state := .compute, inReset := false, bundles := x.bundles.map (fun d => { d with state := .full }) }) }

/-- Engine 0 with its link up. -/
def lit (x : Engine) : Engine := { x with state := .up, started := true, inReset := false, elsPresent := true }

/-- The control field of a received FRAME word of number 0, and a frame that carries it. -/
def ctl0 : List Bool := List.replicate 32 false ++ msbBits 8 (crc8 (List.replicate 32 false))
def frame0 : List Bool :=
  let head := true :: marker ++ [true] ++ (ctl0.foldl (fun c b => c.put b) LineCode.start).sent.reverse
  head ++ List.replicate (4224 - head.length) false

/-- Ring 0 of engine 0 as given, its link as given. -/
def onOe (f : Engine → Engine) (g : OeRingRec → OeRingRec) : State := onEngine (fun x => f { x with rings := modAt x.rings 0 g })

/-- A module whose ELS devices match. -/
def matching (s : State) : State := { s with els := s.els.map (fun x => { x with matched := true }) }

/-- Engine 0 with its link up and its laser inputs in a mode. -/
def lasing (f : LaserInput → LaserInput) : State :=
  onEngine (fun x => { lit x with elsPresent := true, lasers := x.lasers.map f })

/-- A locked ring that carries slot 0. -/
def lockedRing (q : OeRingRec) : OeRingRec := { q with state := .locked, heater := 30000, slot := 0, toneOk := true, tone := some 0 }

/-- Engine 0 in training at a step of Table 14-3. -/
def training (step : Nat) (x : Engine) : Engine :=
  { x with state := .training, started := true, inReset := false, elsPresent := true, bringUp := { x.bringUp with step, selfDone := true } }

/-- A partner of the same generation. -/
def hello0 : HelloWord := { generation := 2, maxRate := 3, adaptive := true, moduleId := 5, plane := 0 }

/-- A live change of width. -/
def change0 (rateChange switched : Bool) : LiveChange := { rate := 1, width := 24, effective := 0, rateChange, switched }

/-- A message of 24 bytes and its data: destination, source, operation, hops, slot and generation, response code, operand. -/
def message (dst src op hops tag resp operand : Nat) (data : List Byte) : List Byte :=
  leBytes 2 dst ++ leBytes 2 src ++ leBytes 1 op ++ leBytes 1 hops ++ leBytes 2 tag ++ leBytes 1 0x80 ++ leBytes 1 0x80 ++ leBytes 1 0 ++ leBytes 1 resp
    ++ leBytes 4 data.length ++ leBytes 8 operand ++ data

/-- An outstanding request with slot 3 and generation 1. -/
def request0 (cid : Option Nat) : Request := { slot := 3, gen := 1, cid, block := none, message := message 5 7 0x01 4 0x1003 0 0 [] }

/-- A module that reaches another and has that request. -/
def asking (cid : Option Nat) : State :=
  let s := routed stocked
  { s with trans := { s.trans with requests := [request0 cid] } }

/-- Settings of CLASS_S. -/
def classSState : State := { base with settings := some { settings0 with powerClass := 2 } }

/-- A tripped module. -/
def trippedBy (k : TripKind) : State := { base with ret := { base.ret with tripped := true, tripKind := k, coolSince := some 600 } }

/-- An event of an S1 checker, and one of an S3 checker. -/
def evS1 : FaultEvent := { source := srcId 5 0 7 }
def evS3 : FaultEvent := { source := 0x7002 }

/-- A fault state of tile 0. -/
def state0 (injectedOnly : Bool) : FaultState := { res := .tile 0, source := srcId 1 0 0x20, severity := 2, injectedOnly, holdsFirst := false }

/-- A module with that state open. -/
def faulty (injectedOnly : Bool) : State := { base with flt := { base.flt with open_ := [state0 injectedOnly] } }

/-- A log record. -/
def rec0 : LogRec :=
  { opTime := 0, cycles := 0, severity := 1, injected := false, deferred := false, retained := false, data := 0, number := 0, source := 0, event := 0, repeats := 0 }

/-- Flash A with an operation at its front. -/
def flashing (op : FlashOp) (errors : Nat) : State := { base with flashA := { base.flashA with queue := [op], errors } }

/-- A running unit with a 32-bit CRC. -/
def scuOn (x : Scu) : Scu := { x with enable := true, width := 32 }

/-- An entry of a unit's FIFO. -/
def entry0 : ScuEntry := { value := 1, mismatch := false, incomplete := false, repeat_ := false, skip := false, length := 1 }

/-- A sample of a ring. -/
def point0 : OpticalPointData := { rxPower := 0, laserPower := 0, heater := 0, eyeWidth := 64, eyeHeight := 64 }

/-! ## Images and operations -/

/-- A value that a match has found. -/
theorem exists_ok {ε α : Type} (x : Except ε α) (h : x.toBool = true) : ∃ v, x = .ok v := by
  cases x with
  | ok v => exact ⟨v, rfl⟩
  | error e => cases h

/-- Bytes with the check code of the whole in the four bytes at an offset, which hold zeros. -/
def sealed (off : Nat) (m : List Byte) : List Byte := overlay off (leBytes 4 (crc32c m)) m

/-- A tensor entry of a graph: one FP32 element, dense. -/
def tensorBytes (id kind flags : Nat) : List Byte :=
  leBytes 4 id ++ leBytes 1 kind ++ leBytes 3 0x010000 ++ leBytes 1 0xFF ++ leBytes 1 flags ++ leBytes 6 0 ++ leBytes 8 1 ++ List.replicate 40 0

/-- A graph binary of one NEG, whose INPUT is dynamic. -/
def graphImage : List Byte :=
  sealed 0x3C (leBytes 4 0x52474C51 ++ leBytes 2 1 ++ leBytes 2 64 ++ leBytes 4 240 ++ leBytes 4 0 ++ leBytes 4 2 ++ leBytes 4 64 ++ leBytes 4 1
    ++ leBytes 4 192 ++ List.replicate 32 0 ++ tensorBytes 0 0 1 ++ tensorBytes 1 1 1
    ++ leBytes 2 0x0211 ++ leBytes 2 0 ++ leBytes 1 1 ++ leBytes 1 1 ++ leBytes 2 0 ++ leBytes 4 0 ++ List.replicate 12 0xFF ++ leBytes 4 1
    ++ List.replicate 4 0xFF ++ List.replicate 16 0)

/-- A manifest of one FP32 tensor, one layer and that graph twice. -/
def manifest0 : List Byte :=
  sealed 0x3C (leBytes 4 0x464E4D51 ++ leBytes 2 1 ++ leBytes 2 64 ++ leBytes 4 624 ++ leBytes 4 1 ++ leBytes 4 64 ++ leBytes 4 1 ++ leBytes 4 128
    ++ leBytes 4 144 ++ leBytes 4 240 ++ leBytes 4 384 ++ leBytes 4 240 ++ List.replicate 20 0
    ++ leBytes 1 0 ++ leBytes 1 1 ++ leBytes 1 0xFF ++ List.replicate 5 0 ++ leBytes 8 0 ++ leBytes 8 4 ++ leBytes 8 1 ++ List.replicate 24 0
    ++ leBytes 4 (crc32c [0, 0, 0, 0]) ++ leBytes 4 0
    ++ leBytes 4 0 ++ leBytes 4 0 ++ leBytes 4 1 ++ leBytes 4 1 ++ graphImage ++ graphImage)

/-- A kernel image of one word, which reads a special register. -/
def kernelImage : List Byte :=
  sealed 0x3C (leBytes 4 0x4B4C4351 ++ leBytes 2 1 ++ leBytes 2 64 ++ leBytes 4 328 ++ leBytes 4 0 ++ leBytes 4 64 ++ leBytes 4 1 ++ leBytes 4 72
    ++ leBytes 1 1 ++ leBytes 1 16 ++ leBytes 1 0 ++ leBytes 1 0 ++ leBytes 4 0 ++ leBytes 4 0 ++ leBytes 1 1 ++ List.replicate 23 0
    ++ leBytes 8 0x9007000000000000 ++ List.replicate 256 0)

/-- An image of a session without blocks. -/
def sessionImage0 : List Byte :=
  let m := leBytes 4 0x50534C51 ++ leBytes 2 1 ++ leBytes 2 128 ++ leBytes 8 128 ++ leBytes 4 0 ++ leBytes 4 1 ++ leBytes 8 0 ++ leBytes 4 0 ++ leBytes 4 1
    ++ List.replicate 84 0
  m ++ leBytes 4 (crc32c m)

/-- A dense FP32 tensor inside a graph. -/
def dense (id : Nat) (dims : List Nat) : TensorDesc := { tensor id 2 with rank := dims.length, dims }

/-- A table tensor inside a graph, whose columns are described at an offset of the attribute bytes. -/
def table (id cols ref : Nat) (dims : List Nat) : TensorDesc := { tensor id 2 with cls := 1, rank := 2, columns := cols, ref, dims }

/-- A run of one operation, its inputs at hand. -/
def opRun (code : Nat) (ins : List (TensorDesc × List Byte)) (outs : List TensorDesc) (attr attrs : List Byte) : Run :=
  { run0 code with
    begun := true
    graph := { g0 code with tensors := ins.map (·.1) ++ outs, attrs,
                            ops := [{ op0 code with ins := ins.map (·.1.id), outs := outs.map (·.id), attr }] }
    vals := ins.map (fun p => { id := p.1.id, dims := p.1.dims, bytes := p.2, records := [] }) }

/-- A module that runs it. -/
def runningOp (r : Run) : State :=
  with1 { stocked with runs := [r], cel := { stocked.cel with units := [unit0 (some 0)] } } (begun [(0, 1, 0x31)])

/-- Some state meets the hypotheses of an operation that a run names. -/
def Completes (code : Nat) (f : OpEnv → List Operand → List TensorDesc → OpResult) : Prop :=
  ∃ s run op r o ins outs, opReady s run op code = some (r, o) ∧ fetchAll s r op (opInputs r o) = .ok ins ∧ f (envOf s r o) ins (opOutputs r o) = .ok outs

/-- The same, as a check. -/
def completes (s : State) (code : Nat) (f : OpEnv → List Operand → List TensorDesc → OpResult) : Bool :=
  match opReady s 1 0 code with
  | some (r, o) => match fetchAll s r 0 (opInputs r o) with
    | .ok ins => match f (envOf s r o) ins (opOutputs r o) with
      | .ok _ => true
      | .fail _ _ => false
    | .error _ => false
  | none => false

/-- The check finds such a state. -/
theorem completes_spec {code : Nat} {f : OpEnv → List Operand → List TensorDesc → OpResult} (s : State) (h : completes s code f = true) :
    Completes code f := by
  unfold completes at h
  split at h
  · next r o h1 =>
    split at h
    · next ins h2 =>
      split at h
      · next outs h3 => exact ⟨s, 1, 0, r, o, ins, outs, h1, h2, h3⟩
      · cases h
    · cases h
  · cases h

/-- One FP32 element, 1.0. -/
def one32 : List Byte := [0, 0, 0x80, 0x3F]

/-- Elementwise operations of one, two and three inputs. -/
def unary (code : Nat) (attr : List Byte) : State := runningOp (opRun code [(dense 0 [1], one32)] [dense 9 [1]] attr [])
def binary (code : Nat) : State := runningOp (opRun code [(dense 0 [1], one32), (dense 1 [1], one32)] [dense 9 [1]] [] [])
def square (code n : Nat) (attr : List Byte) : State :=
  runningOp (opRun code ((List.range n).map (fun k => (dense k [1, 1], one32))) [dense 9 [1, 1]] attr [])

/-- Columns of a table: one I64 column. -/
def col64 : List Byte := [1, 0, 8, 0, 0, 0, 0, 0]

/-- A run of one collective among modules, of a tensor of n elements. -/
def collectiveRun (code : Nat) (modules : List Nat) (n : Nat) : Run :=
  let r := opRun code [(dense 0 [n], (List.replicate n one32).flatten)] [dense 9 [n]] [0, 0, 0, 0, 0, 0] []
  { r with modules, graph := { r.graph with colls := [{ id := 0, participants := modules.length, planeB := false, joinTimeout := 1 }] } }

/-- A module that runs it. -/
def collective (code : Nat) (modules : List Nat) (n : Nat) : State :=
  with1 { routed stocked with runs := [collectiveRun code modules n], cel := { stocked.cel with units := [unit0 (some 0)] } } (begun [(0, 1, 0x31)])

/-- A manifest to stand where a check finds none. -/
def default0 : Manifest := { prefill := g0 0, decode := g0 0, layers := [] }

/-- What a check has found, or something in its place. -/
def okOr {ε α : Type} (d : α) : Except ε α → α
  | .ok v => v
  | .error _ => d

/-- A settings image under the vendor key: CLASS_L, eight spare sites, no route; its mark is all zeros. -/
def settingsImage0 : List Byte :=
  sealed 0x3C (leBytes 4 0x54534C51 ++ leBytes 2 1 ++ leBytes 2 64 ++ leBytes 4 3076 ++ leBytes 4 2 ++ leBytes 4 0 ++ leBytes 4 256 ++ List.replicate 40 0
    ++ [1, 0, 0, 4] ++ leBytes 2 7 ++ [95, 0] ++ leBytes 8 0xFF ++ List.replicate 16 0 ++ List.replicate 24 0x1F ++ List.replicate 136 0)
  ++ List.replicate 2820 0

/-- A plan without loads. -/
def noLoads : PlanLoads := { rows := List.replicate 8 0, bundles := [], sites := [], ports := [], engines := [] }

/-- The lane-test block that an end sends when it kept no map. -/
def block (b : BundleEnd) : List Byte := mapBlock b false none

/-- The block of an end whose direction has no failed wire. -/
def fullBlock (b : BundleEnd) : List Byte := mapBlock b false (some ([], (List.replicate 4 .free, none)))

/-- A module whose tiles are out of reset. -/
def waking : State := { base with tiles := base.tiles.map (fun x => { x with inReset := false }) }

/-- A warp whose other path of a divergence is still to run. -/
def warpRest : Warp := { warpIn (some (7, lane0)) 0 with active := false :: List.replicate 31 true }

/-- A broadcast of which this module is not the root. -/
def joiningRun : Run := { collectiveRun 0x0603 [5, 7] 1 with rank := 1 }

/-- A module that runs it. -/
def joining : State := { collective 0x0603 [5, 7] 1 with runs := [joiningRun] }

/-- A command to restore an image from a handle. -/
def imageCmd : Cmd := cmd [(0, 1, 0x25), (8, 8, handleWord 0 1 0), (0x10, 1, 1), (0x18, 8, handleWord 1 1 0), (0x28, 8, 128)]

/-- A module whose handle holds the image of a session. -/
def imaged : State :=
  with1 { modelled with mem := { stored.mem with cells := writePieces [] [⟨siteBase 0, 128⟩] sessionImage0 } } imageCmd

/-- A SOFTMAX in the fast form. -/
def fastSoftmax : State :=
  let r := opRun 0x0303 [(dense 0 [1], one32)] [dense 9 [1]] [0] []
  runningOp { r with graph := { r.graph with ops := r.graph.ops.map (fun o => { o with fast := true }) } }

/-- A module that runs an attention. -/
def attending : State :=
  runningOp (opRun 0x0102 [(dense 0 [1, 1], one32), (dense 1 [1, 1], one32), (dense 2 [1, 1], one32), (dense 3 [1, 1], [0, 0, 0x80, 0xFF])]
    [dense 9 [1, 1]] [0, 0, 0x80, 0x3F, 0, 0] [])

/-- The same with its operations in the fast form. -/
def fastForm (s : State) : State :=
  { s with runs := s.runs.map (fun r => { r with graph := { r.graph with ops := r.graph.ops.map (fun o => { o with fast := true }) } }) }

/-- Some state meets the hypotheses of an Exact operation on which the residue lane reports, before and after the report is captured. -/
def Reported (code : Nat) (f : OpEnv → List Operand → List TensorDesc → OpResult) : Prop :=
  ∃ s r o ins, opReady s 1 0 code = some (r, o) ∧ opExact s r.graph o = true ∧ fetchAll s r 0 (opInputs r o) = .ok ins
    ∧ completes (s.capture [laneEvent s 1 0 1 []]) code f = true

/-- The same, as a check. -/
def reported (s : State) (code : Nat) (f : OpEnv → List Operand → List TensorDesc → OpResult) : Bool :=
  match opReady s 1 0 code with
  | some (r, o) => match fetchAll s r 0 (opInputs r o) with
    | .ok _ => opExact s r.graph o && completes (s.capture [laneEvent s 1 0 1 []]) code f
    | .error _ => false
  | none => false

/-- The check finds such a state. -/
theorem reported_spec {code : Nat} {f : OpEnv → List Operand → List TensorDesc → OpResult} (s : State) (h : reported s code f = true) :
    Reported code f := by
  unfold reported at h
  split at h
  · next r o h1 =>
    split at h
    · next ins h2 =>
      rw [Bool.and_eq_true] at h
      exact ⟨s, r, o, ins, h1, h.1, h2, h.2⟩
    · cases h
  · cases h

/-- Whether an operation runs without the residue lane, and completes. -/
def unmonitored (s : State) (code : Nat) (f : OpEnv → List Operand → List TensorDesc → OpResult) : Bool :=
  match opReady s 1 0 code with
  | some (r, o) => !opExact s r.graph o && completes s code f
  | none => false

/-- The check finds such a state. -/
theorem unmonitored_spec {code : Nat} {f : OpEnv → List Operand → List TensorDesc → OpResult} (s : State) (h : unmonitored s code f = true) :
    ∃ s r o, opReady s 1 0 code = some (r, o) ∧ opExact s r.graph o = false ∧ completes s code f = true := by
  unfold unmonitored at h
  split at h
  · next r o h1 =>
    rw [Bool.and_eq_true, Bool.not_eq_true'] at h
    exact ⟨s, r, o, h1, h.1, h.2⟩
  · cases h

/-! ## Ill-formed commands, which the check refuses -/

theorem test_wf_wires :
    Instr.wf (.laneTest (.hub 0) [70] [] true true [] []) = false ∧ Instr.wf (.laneTest (.hub 0) [] [70] true true [] []) = false
    ∧ Instr.wf (.inlineCheckDone (.hub 0) [70]) = false ∧ Instr.wf (.phaseTrack (.hub 0) [(70, true)]) = false
    ∧ Instr.wf (.wireFillerError (.hub 0) 70) = false := by decide

theorem test_wf_plans_and_lists :
    Instr.wf (.cellarerPlan { rows := [0, 0, 0, 0, 0, 0, 0], bundles := [], sites := [], ports := [], engines := [] }) = false ∧ Instr.wf (.workUnitAssign 0 []) = false ∧ Instr.wf (.shardPrefetch 0 65536) = false
    ∧ Instr.wf (.prefill 1 [0]) = false ∧ Instr.wf (.prefillRebuild 1 [0]) = false ∧ Instr.wf (.decode 1 [0]) = false
    ∧ Instr.wf (.graphRun 1 [0] []) = false ∧ Instr.wf (.graphRun 1 [] [0]) = false ∧ Instr.wf (.marginTest 1 [(65, 0)]) = false
    ∧ Instr.wf (.marginTest 1 [(0, 65)]) = false := by decide

theorem test_wf_host :
    Instr.wf (.descriptorFetch 0 [0]) = false ∧ Instr.wf (.bar4Read 0 0) = false ∧ Instr.wf (.bar4Read (2 ^ 39) 1) = false
    ∧ Instr.wf (.bar4Write 0 []) = false ∧ Instr.wf (.bar4Write (2 ^ 39) [0]) = false ∧ Instr.wf (.barAccessInvalid 1 0 4 false) = false
    ∧ Instr.wf (.barAccessInvalid 0 0 0 false) = false ∧ Instr.wf (.registerWrite 0 2 0) = false ∧ Instr.wf (.registerWrite (2 ^ 24) 4 0) = false
    ∧ Instr.wf (.hostLinkRetrain 3 6) = false ∧ Instr.wf (.hostLinkRetrain 16 7) = false := by decide

theorem test_wf_memory :
    Instr.wf (.gddr7Read 0 1 .hub none [] 0) = false ∧ Instr.wf (.gddr7Read 0 0x1E0000000 .hub none [] 0) = false
    ∧ Instr.wf (.gddr7Write 0 0 [] .hub none [] 0) = false ∧ Instr.wf (.gddr7Write 0 0x200000000 [0] .hub none [] 0) = false
    ∧ Instr.wf (.gddr7TrainingDone 0 false false (2 ^ 32) 0 0 0) = false ∧ Instr.wf (.gddr7TrainingDone 0 false false 0 0 256 0) = false ∧ Instr.wf (.scrubGroup 0 0 []) = false ∧ Instr.wf (.gddr7TempRead 0 256 0) = false
    ∧ Instr.wf (.gddr7TempRead 0 0 256) = false ∧ Instr.wf (.cxlLinkUp 0 256 8 0) = false ∧ Instr.wf (.cxlLinkUp 0 0 3 0) = false := by decide

theorem test_wf_link_words :
    Instr.wf (.dataFlitReceive (.optical 0) 0 [0]) = false ∧ Instr.wf (.dataFlitReceive (.optical 0) 32 (List.replicate 128 0)) = false
    ∧ Instr.wf (.linkFlitReceive (.optical 0) 0 [0]) = false ∧ Instr.wf (.linkFlitReceive (.optical 0) 32 (List.replicate 128 0)) = false
    ∧ Instr.wf (.fillerFlitReceive (.optical 0) 0 [0]) = false ∧ Instr.wf (.fillerFlitReceive (.optical 0) 32 (List.replicate 128 0)) = false
    ∧ Instr.wf (.frameReceive 0 0 0 [true]) = false ∧ Instr.wf (.map 0 0 true 0 0 2048) = false ∧ Instr.wf (.rateWidth 0 0 0 true 65536) = false
    ∧ Instr.wf (.ffeReq 0 0 true 3) = false ∧ Instr.wf (.ffeAck 0 0 13 0 false) = false ∧ Instr.wf (.ffeAck 0 0 0 21 false) = false := by decide

theorem test_wf_bring_up :
    Instr.wf (.hello 0 { hello0 with generation := 16 }) = false ∧ Instr.wf (.hello 0 { hello0 with maxRate := 4 }) = false
    ∧ Instr.wf (.hello 0 { hello0 with moduleId := 4096 }) = false ∧ Instr.wf (.portAbsentListen 0 (some { hello0 with plane := 2 })) = false
    ∧ Instr.wf (.train 0 9 0 0 []) = false ∧ Instr.wf (.train 0 0 3 0 []) = false ∧ Instr.wf (.train 0 0 0 0 [[], [], [], [], []]) = false := by decide

theorem test_wf_transactions :
    Instr.wf (.transactionRequest 0 (List.replicate 4201 0)) = false ∧ Instr.wf (.transactionResponse (List.replicate 4201 0)) = false := by decide +kernel

theorem test_wf_slots_and_sources :
    Instr.wf (.requestTimeout 4096) = false ∧ Instr.wf (.requestRetry 4096) = false ∧ Instr.wf (.cacheEntryExpiry 129 0 0) = false
    ∧ Instr.wf (.cacheEntryExpiry 0 8192 0) = false ∧ Instr.wf (.cacheEntryExpiry 0 0 4096) = false ∧ Instr.wf (.leaseKeepalive 8192 0) = false
    ∧ Instr.wf (.leaseExpiry 8192) = false := by decide

theorem test_wf_optics :
    Instr.wf (.ringLocked 0 0 65536 none true) = false ∧ Instr.wf (.ringRetry 0 0 true true 65536) = false ∧ Instr.wf (.ringSweep 0 []) = false
    ∧ Instr.wf (.ringSweep 0 (List.replicate 72 [65536])) = false ∧ Instr.wf (.laserExcursion 0 0 32768) = false
    ∧ Instr.wf (.laserLow 0 0 (-32769) []) = false ∧ Instr.wf (.spareMarginTest 0 0 65 0) = false ∧ Instr.wf (.spareMarginTest 0 0 0 65) = false
    ∧ Instr.wf (.opticalPoint 0 0 { point0 with eyeWidth := 65 }) = false ∧ Instr.wf (.opticalPoint 0 0 { point0 with eyeHeight := 65 }) = false := by decide

theorem test_wf_sensors :
    Instr.wf (.sensorSample .hub [0]) = false ∧ Instr.wf (.sensorSample (.engine 0) (List.replicate 8 0)) = false
    ∧ Instr.wf (.sensorSample (.tile 0) (List.replicate 8 32768)) = false ∧ Instr.wf (.powerTelemetrySample 65536 true) = false
    ∧ Instr.wf (.powerLoop 65536) = false ∧ Instr.wf (.thermalTrip (.hub 0) 256) = false ∧ Instr.wf (.backstopTrip (.hub 0) 256) = false
    ∧ Instr.wf (.thermalShutdown (.hub 0) 256) = false ∧ Instr.wf (.tripSensorPoll 32768) = false ∧ Instr.wf (.ageingPoint (.engine 0) []) = false
    ∧ Instr.wf (.ageingPoint .hub [0]) = false ∧ Instr.wf (.faultCapture [{ source := 65536 }]) = false := by decide

/-! ## Words: the table gives its rows no bits, so none spells a command -/

theorem test_decode_none : decodeTableWord 0 0 = none ∧ decodeTableWord 64 0xFFFF = none := by decide

theorem test_fetch_word_leaves_state : (base.withFetchWord 32 7).pending = base.pending := by decide

/-! ## Steps and values that the manual's worked examples give -/

/-- The state after one command. -/
def after (c : Instr) (s : State) : State :=
  match step { s with pending := [c] } with
  | .next t => t
  | _ => s

/-- 0.01 as the nearest FP32. -/
def hundredth : Machine.Num := fval 0x3C23D70A

/-- The block of Chapter 3's example. -/
def block32 : List (Machine.Num × Nat) :=
  [(.fin false 500 0, 0), (.fin false 300 0, 0), (.fin false 13 0, 0), (.fin false 17 (-3), 0), (hundredth, 0)] ++ List.replicate 27 (Machine.Num.zero, 0)

/-- Table 3-8 under SCALE_MX. -/
theorem test_block_scale_mx :
    (encodeBlock (.blockF e4m3) ⟨.rne, true, false⟩ block32).1 = 0x7F
    ∧ (encodeBlock (.blockF e4m3) ⟨.rne, true, false⟩ block32).2.take 5 = [0x7E, 0x79, 0x55, 0x40, 0x05] := by decide +kernel

/-- Table 3-8 under SCALE_NOCLIP. -/
theorem test_block_scale_noclip :
    (encodeBlock (.blockF e4m3) ⟨.rne, true, true⟩ block32).1 = 0x80
    ∧ (encodeBlock (.blockF e4m3) ⟨.rne, true, true⟩ block32).2.take 5 = [0x78, 0x71, 0x4D, 0x38, 0x03] := by decide +kernel

/-- Placement A of Chapter 4's example: bin 34 ends at 1, the count is 3. -/
theorem test_exact_sum :
    let a := ((Acc.empty.add (.fin false (2 ^ 34) (-10))).add (.fin false (2 ^ 18) (-18))).add (.fin true (2 ^ 34) (-10))
    a.top = some 34 ∧ a.bin0 = 1 ∧ a.count = 3 ∧ a.res0 = 1 := by decide +kernel

/-- Placement B: the two records and their merge. -/
theorem test_record_merge :
    let a := Acc.empty.add (.fin false (2 ^ 34) (-10))
    let b := (Acc.empty.add (.fin false (2 ^ 18) (-18))).add (.fin true (2 ^ 34) (-10))
    a.bin0 = 16777216 ∧ a.top = some 34 ∧ a.count = 1 ∧ a.res0 = 1 ∧ b.bin0 = -16777215 ∧ b.count = 2 ∧ b.res0 = 0
    ∧ (a.merge b).bin0 = 1 ∧ (a.merge b).count = 3 ∧ (a.merge b).res0 = 1 := by decide +kernel

/-- Chapter 9: offset 0x1000 lies in group 4, on device a, channel 2. -/
theorem test_gddr_group : groupOf 0x1000 = 4 ∧ groupDevice 4 = 0 ∧ groupChannel 4 = 2 := by decide

/-- Chapter 17: the checkers of cell C9 of site 21; Chapter 18: the ECC checker of that site. -/
theorem test_source_ids : srcId 1 21 2 = 0x1542 ∧ srcId 1 21 5 = 0x1545 ∧ srcId 3 21 0 = 0x3540 ∧ severityOf 0x1542 = 2 ∧ severityOf 0x1545 = 0 := by decide

/-- Chapter 10: HUB_RING_CTRL of ring 3 takes 0x800A_0000; a base of zero puts the ring into ERROR (R290). -/
theorem test_ring_enable :
    let r (s : State) := ringAt (after (.registerWrite 0x100D0 4 0x800A0000) s) 3
    let s := { base with host := { base.host with rings := modAt base.host.rings 3 (fun x => { x with sqBase := 0x1000, cqBase := 0x2000 }) } }
    (r s).sizeLog2 = 10 ∧ (r s).weight = 0 ∧ (r s).state = .enabled ∧ (r base).state = .error ∧ (r base).errorCause = 1 := by decide +kernel

/-- Chapter 12: the straps of T25, col 2, row 5, rotation 3, mirror 1, match R357; another rotation does not. -/
theorem test_straps :
    strapRotation (2 + 5 * 8 + 3 * 64 + 256) = (2 + 5) % 4 ∧ strapMirror (2 + 5 * 8 + 3 * 64 + 256) = true ∧ strapsOk 42 (2 + 5 * 8 + 2 * 64 + 256 + 512) = false := by
  decide

/-- Unit 0 as Chapter 20's driver sets it, before SCU_CTRL. -/
def rowUnit (x : Scu) : Scu := { x with frame := 128, poly := 0x1EDC6F41, init := 0xFFFFFFFF, xorout := 0, expect := 0xB798B438, aliveReg := 0x20 }

/-- SCU_CTRL = 0xA807_BE20: its fields, and the unit runs. -/
theorem test_scu_enable :
    let u := scuAt (after (.scuEnable 0 0xA807BE20) (onScu rowUnit)) 0
    u.enable = true ∧ u.tap = 0x14 ∧ u.refin = true ∧ u.refout = true ∧ u.fixed = true ∧ u.captureExceptions = true ∧ u.compare = true
    ∧ u.aliveEnable = true ∧ u.width = 32 := by decide +kernel

/-- The residue of a row that ends with its CRC-32C. -/
theorem test_scu_residue :
    recordCrc ((rowUnit Scu.reset).configure 0xA807BE20) (List.replicate 124 0x5A ++ leBytes 4 (crc32c (List.replicate 124 0x5A))) = 0xB798B438 := by
  decide +kernel

/-- R531: PERST# released leaves all else; R562: power away leaves a module that is not ready. -/
theorem test_pins : (after .perstDeassert base).pins.perst = false ∧ (after .powerDown base).pins.pwrgd = false ∧ (after .powerDown base).boot.ready = false := by
  decide +kernel

/-- An empty queue idles. -/
theorem test_idle : (match step { base with pending := [] } with | .next t => t.ret.opTime == base.ret.opTime + 1 && t.pending.isEmpty | _ => false) = true := by
  decide +kernel


/-- R129: e = 2.718281828… is 0x402DF854 in FP32, and two units of its last place away lies the last word above that keeps to the bound. -/
theorem test_exp_of_one : ((VecFn.exp.exact (fval 0x3F800000)).map (fun x => [0x402DF853, 0x402DF854, 0x402DF856, 0x402DF857].map (withinUlps x)))
    = some [true, true, true, false] := by decide +kernel

/-- R129: GELU in its erf form of 1 is 0.8413447…, 0x3F57625F; the tanh form would give 0x3F57585C. -/
theorem test_gelu_of_one : ((VecFn.gelu.exact (fval 0x3F800000)).map (fun x => [0x3F57625F, 0x3F57585C].map (withinUlps x)))
    = some [true, false] := by decide +kernel

/-! ## States and operands that meet the hypotheses of the statements

`witness_<statement>_<k>` is for clause k of the statement. -/

theorem witness_generalAndMemoryCommandsComplete_1 :
    ∃ (s : State) (cid : Nat) (c : _), Acts s cid 0x01 c := by
  refine ⟨with1 base (cmd [(0, 1, 0x01)]), 1, (cmd [(0, 1, 0x01)]), ?_⟩
  repeat' apply And.intro
  all_goals first | with_reducible rfl | decide | (show (_ : Nat) < _; decide) | rfl

theorem witness_generalAndMemoryCommandsComplete_2 :
    ∃ (s : State) (cid : Nat) (c : _), Acts s cid 0x02 c := by
  refine ⟨with1 base (cmd [(0, 1, 0x02)]), 1, (cmd [(0, 1, 0x02)]), ?_⟩
  repeat' apply And.intro
  all_goals first | with_reducible rfl | decide | (show (_ : Nat) < _; decide) | rfl

theorem witness_generalAndMemoryCommandsComplete_3 :
    ∃ (s : State) (cid : Nat) (c : _), Acts s cid 0x03 c := by
  refine ⟨with1 base (cmd [(0, 1, 0x03)]), 1, (cmd [(0, 1, 0x03)]), ?_⟩
  repeat' apply And.intro
  all_goals first | with_reducible rfl | decide | (show (_ : Nat) < _; decide) | rfl

theorem witness_generalAndMemoryCommandsComplete_4 :
    ∃ (s : State) (cid : Nat) (c : _), Acts s cid 0x04 c ∧ c.arg 8 2 = 1 ∧ (c.arg 0x18 8 = 0 ∨ ∃ x, memHandle s (c.arg 0x18 8) = some x ∧ c.arg 0x20 8 < x.size) := by
  refine ⟨with1 stored (cmd [(0, 1, 0x04), (8, 2, 1), (0x10, 1, 15), (0x18, 8, handleWord 1 1 0), (0x20, 8, 65535)]), 1, (cmd [(0, 1, 0x04), (8, 2, 1), (0x10, 1, 15), (0x18, 8, handleWord 1 1 0), (0x20, 8, 65535)]), ?_⟩
  repeat' apply And.intro
  all_goals first | with_reducible rfl | decide | (show (_ : Nat) < _; decide) | rfl | (right; exact ⟨h0, by decide, by decide⟩)

theorem witness_generalAndMemoryCommandsComplete_5 :
    ∃ (s : State) (cid : Nat) (c : _), Acts s cid 0x04 c ∧ c.arg 8 2 = 2 ∧ c.arg 0x10 1 < s.cxl.length ∧ (cxlAt s (c.arg 0x10 1)).state = .inService ∧ evacuable s (c.arg 0x10 1) = true := by
  refine ⟨with1 (onPort (fun p => { p with state := .inService, mapped := 65536 })) (cmd [(0, 1, 0x04), (8, 2, 2)]), 1, (cmd [(0, 1, 0x04), (8, 2, 2)]), ?_⟩
  repeat' apply And.intro
  all_goals first | with_reducible rfl | decide | (show (_ : Nat) < _; decide) | rfl

theorem witness_generalAndMemoryCommandsComplete_6 :
    ∃ (s : State) (cid : Nat) (c : _), Acts s cid 0x04 c ∧ c.arg 8 2 = 3 ∧ c.arg 0x10 2 ≤ classMax s := by
  refine ⟨with1 base (cmd [(0, 1, 0x04), (8, 2, 3), (0x10, 2, 3200)]), 1, (cmd [(0, 1, 0x04), (8, 2, 3), (0x10, 2, 3200)]), ?_⟩
  repeat' apply And.intro
  all_goals first | with_reducible rfl | decide | (show (_ : Nat) < _; decide) | rfl

theorem witness_generalAndMemoryCommandsComplete_7 :
    ∃ (s : State) (cid : Nat) (c : _), Acts s cid 0x04 c ∧ c.arg 8 2 = 4 := by
  refine ⟨with1 base (cmd [(0, 1, 0x04), (8, 2, 4), (0x10, 1, 95)]), 1, (cmd [(0, 1, 0x04), (8, 2, 4), (0x10, 1, 95)]), ?_⟩
  repeat' apply And.intro
  all_goals first | with_reducible rfl | decide | (show (_ : Nat) < _; decide) | rfl

theorem witness_generalAndMemoryCommandsComplete_8 :
    ∃ (s : State) (cid : Nat) (c : _), Acts s cid 0x05 c := by
  refine ⟨with1 base (cmd [(0, 1, 0x05), (8, 2, 4)]), 1, (cmd [(0, 1, 0x05), (8, 2, 4)]), ?_⟩
  repeat' apply And.intro
  all_goals first | with_reducible rfl | decide | (show (_ : Nat) < _; decide) | rfl

theorem witness_generalAndMemoryCommandsComplete_9 :
    ∃ (s : State) (cid : Nat) (c : _) (i : _) (l : _), Acts s cid 0x41 c ∧ c.arg 8 8 ≤ 2 ^ 42 ∧ freeIndex (s.mem.handles.map (·.index)) 65536 = some i ∧ allocExtents s (roundUp (c.arg 8 8) 65536) (c.arg 0x10 1) = some l ∧ memWaits s l = false := by
  refine ⟨with1 stocked (cmd [(0, 1, 0x41), (8, 8, 65536), (0x10, 1, 1)]), 1, (cmd [(0, 1, 0x41), (8, 8, 65536), (0x10, 1, 1)]), 0, [⟨siteBase 0, 65536⟩], ?_⟩
  repeat' apply And.intro
  all_goals first | with_reducible rfl | decide | (show (_ : Nat) < _; decide) | rfl

theorem witness_generalAndMemoryCommandsComplete_10 :
    ∃ (s : State) (cid : Nat) (c : _) (x : _), Acts s cid 0x42 c ∧ memHandle s (c.arg 8 8) = some x ∧ memInUse (s.startCmd cid) (c.arg 8 8) x.index = false := by
  refine ⟨with1 stored (cmd [(0, 1, 0x42), (8, 8, handleWord 1 1 0)]), 1, (cmd [(0, 1, 0x42), (8, 8, handleWord 1 1 0)]), h0, ?_⟩
  repeat' apply And.intro
  all_goals first | with_reducible rfl | decide | (show (_ : Nat) < _; decide) | rfl

theorem witness_generalAndMemoryCommandsComplete_11 :
    ∃ (s : State) (cid : Nat) (c : _) (i : _) (g : _) (k : _), Acts s cid 0x42 c ∧ memHandle s (c.arg 8 8) = none ∧ graphHandle s (c.arg 8 8) = some (i, g, k) ∧ s.runs.any (fun r => r.graphIndex == some i) = false ∧ namedInFlight (s.startCmd cid) (c.arg 8 8) = false := by
  refine ⟨with1 { base with graphs := [(0, 1, g0 0x0210)] } (cmd [(0, 1, 0x42), (8, 8, handleWord 2 1 0)]), 1, (cmd [(0, 1, 0x42), (8, 8, handleWord 2 1 0)]), 0, 1, g0 0x0210, ?_⟩
  repeat' apply And.intro
  all_goals first | with_reducible rfl | decide | (show (_ : Nat) < _; decide) | rfl

theorem witness_generalAndMemoryCommandsComplete_12 :
    ∃ (s : State) (cid : Nat) (c : _) (i : _) (g : _) (k : _), Acts s cid 0x42 c ∧ memHandle s (c.arg 8 8) = none ∧ graphHandle s (c.arg 8 8) = none ∧ kernelHandle s (c.arg 8 8) = some (i, g, k) ∧ s.launches.any (fun l => l.kernelIndex == i) = false ∧ namedInFlight (s.startCmd cid) (c.arg 8 8) = false := by
  refine ⟨with1 { base with kernels := [(0, 1, kernel0)] } (cmd [(0, 1, 0x42), (8, 8, handleWord 3 1 0)]), 1, (cmd [(0, 1, 0x42), (8, 8, handleWord 3 1 0)]), 0, 1, kernel0, ?_⟩
  repeat' apply And.intro
  all_goals first | with_reducible rfl | decide | (show (_ : Nat) < _; decide) | rfl

theorem witness_testLogAndPowerCommandsComplete_1 :
    ∃ (s : State) (cid : Nat) (c : _), Acts s cid 0x60 c ∧ c.arg 8 1 = 0 := by
  refine ⟨with1 base (cmd [(0, 1, 0x60)]), 1, (cmd [(0, 1, 0x60)]), ?_⟩
  repeat' apply And.intro
  all_goals first | with_reducible rfl | decide | (show (_ : Nat) < _; decide) | rfl

theorem witness_testLogAndPowerCommandsComplete_2 :
    ∃ (s : State) (cid : Nat) (ms : Nat) (c : _), Acts s cid 0x60 c ∧ c.arg 8 1 = 1 ∧ c.started = true ∧ ms ≤ 500 ∧ (∀ n ∈ computeSites s, (tileAt s n).draining = false) := by
  refine ⟨with1 base (begun [(0, 1, 0x60), (8, 1, 1)]), 1, 500, (begun [(0, 1, 0x60), (8, 1, 1)]), ?_⟩
  repeat' apply And.intro
  all_goals first | with_reducible rfl | decide | (show (_ : Nat) < _; decide) | rfl

theorem witness_testLogAndPowerCommandsComplete_3 :
    ∃ (s : State) (cid : Nat) (c : _), Acts s cid 0x60 c ∧ c.arg 8 1 = 1 ∧ c.started = false ∧ s.sessions = [] ∧ running (s.startCmd cid) cid [0x31, 0x33] = false ∧ fullRunning (s.startCmd cid) cid = false := by
  refine ⟨with1 base (cmd [(0, 1, 0x60), (8, 1, 1)]), 1, (cmd [(0, 1, 0x60), (8, 1, 1)]), ?_⟩
  repeat' apply And.intro
  all_goals first | with_reducible rfl | decide | (show (_ : Nat) < _; decide) | rfl

theorem witness_testLogAndPowerCommandsComplete_4 :
    ∃ (s : State) (cid : Nat) (c : _) (eyes : List (Nat × Nat)), Acts s cid 0x61 c ∧ c.started = true ∧ eyes.length = (maskLambdas (c.arg 0x10 8)).length := by
  refine ⟨with1 base (begun [(0, 1, 0x61), (0x10, 8, 1)]), 1, (begun [(0, 1, 0x61), (0x10, 8, 1)]), [(64, 64)], ?_⟩
  repeat' apply And.intro
  all_goals first | with_reducible rfl | decide | (show (_ : Nat) < _; decide) | rfl

theorem witness_testLogAndPowerCommandsComplete_5 :
    ∃ (s : State) (cid : Nat) (c : _), Acts s cid 0x62 c ∧ injectable (c.arg 8 2) = true ∧ selftestRunning (s.startCmd cid) = false ∧ sourceGone s (c.arg 8 2) = false := by
  refine ⟨with1 base (cmd [(0, 1, 0x62), (8, 2, 0x1001), (0xA, 1, 1)]), 1, (cmd [(0, 1, 0x62), (8, 2, 0x1001), (0xA, 1, 1)]), ?_⟩
  repeat' apply And.intro
  all_goals first | with_reducible rfl | decide | (show (_ : Nat) < _; decide) | rfl

theorem witness_testLogAndPowerCommandsComplete_6 :
    ∃ (s : State) (cid : Nat) (c : _), Acts s cid 0x70 c ∧ 32 * c.arg 0x10 4 ≤ c.arg 0x20 4 := by
  refine ⟨with1 base (cmd [(0, 1, 0x70), (0x10, 4, 2), (0x20, 4, 64)]), 1, (cmd [(0, 1, 0x70), (0x10, 4, 2), (0x20, 4, 64)]), ?_⟩
  repeat' apply And.intro
  all_goals first | with_reducible rfl | decide | (show (_ : Nat) < _; decide) | rfl

theorem witness_testLogAndPowerCommandsComplete_7 :
    ∃ (s : State) (cid : Nat) (c : _), Acts s cid 0x71 c ∧ (settingsBytes s (c.arg 8 1)).length ≤ c.arg 0x18 4 := by
  refine ⟨with1 base (cmd [(0, 1, 0x71)]), 1, (cmd [(0, 1, 0x71)]), ?_⟩
  repeat' apply And.intro
  all_goals first | with_reducible rfl | decide | (show (_ : Nat) < _; decide) | rfl

theorem witness_testLogAndPowerCommandsComplete_9 :
    ∃ (s : State) (cid : Nat) (c : _), Acts s cid 0x73 c ∧ 13097 ≤ c.arg 0x30 4 ∧ s.sec.cryptoOk = true ∧ 0 < s.sec.batchLeft ∧ s.sec.batchLeft ≠ 257 := by
  refine ⟨with1 { base with sec := { base.sec with cryptoOk := true, batchLeft := 1 } } (cmd [(0, 1, 0x73), (0x30, 4, 13097)]), 1, (cmd [(0, 1, 0x73), (0x30, 4, 13097)]), ?_⟩
  repeat' apply And.intro
  all_goals first | with_reducible rfl | decide | (show (_ : Nat) < _; decide) | rfl

theorem witness_testLogAndPowerCommandsComplete_10 :
    ∃ (s : State) (cid : Nat) (c : _), Acts s cid 0x7E c ∧ c.flag 0 = false ∧ s.sessions = [] ∧ othersInFlight (s.startCmd cid) cid = false ∧ tooHot s = false ∧ flashWriting s = false := by
  refine ⟨with1 base (cmd [(0, 1, 0x7E)]), 1, (cmd [(0, 1, 0x7E)]), ?_⟩
  repeat' apply And.intro
  all_goals first | with_reducible rfl | decide | (show (_ : Nat) < _; decide) | rfl

theorem witness_testLogAndPowerCommandsComplete_11 :
    ∃ (s : State) (cid : Nat) (c : _), Acts s cid 0x7E c ∧ c.flag 0 = true ∧ tooHot s = false ∧ flashWriting s = false := by
  refine ⟨with1 base (cmd [(0, 1, 0x7E), (3, 1, 1)]), 1, (cmd [(0, 1, 0x7E), (3, 1, 1)]), ?_⟩
  repeat' apply And.intro
  all_goals first | with_reducible rfl | decide | (show (_ : Nat) < _; decide) | rfl

theorem witness_testLogAndPowerCommandsComplete_12 :
    ∃ (s : State) (cid : Nat) (c : _), Acts s cid 0x7F c ∧ c.flag 0 = false ∧ s.sessions = [] ∧ othersInFlight (s.startCmd cid) cid = false ∧ flashWriting s = false := by
  refine ⟨with1 base (cmd [(0, 1, 0x7F)]), 1, (cmd [(0, 1, 0x7F)]), ?_⟩
  repeat' apply And.intro
  all_goals first | with_reducible rfl | decide | (show (_ : Nat) < _; decide) | rfl

theorem witness_testLogAndPowerCommandsComplete_13 :
    ∃ (s : State) (cid : Nat) (c : _), Acts s cid 0x7F c ∧ c.flag 0 = true ∧ flashWriting s = false := by
  refine ⟨with1 base (cmd [(0, 1, 0x7F), (3, 1, 1)]), 1, (cmd [(0, 1, 0x7F), (3, 1, 1)]), ?_⟩
  repeat' apply And.intro
  all_goals first | with_reducible rfl | decide | (show (_ : Nat) < _; decide) | rfl

theorem witness_modelCopyAndPlacementCommandsComplete_1 :
    ∃ (s : State) (cid : Nat) (c : _) (source : List Byte) (v : _) (ns : _) (nd : _) (from_ : List Extent) (to_ : List Extent) (out : List Byte), Acts s cid 0x40 c ∧ (c.arg 8 1 = 0 → ActsReading s cid 0x40 c ∧ source.length = ns) ∧ (if c.arg 0xA 1 = c.arg 0xB 1 then some conv0 else convOf (c.arg 0xC 1)) = some v ∧ v.round ≠ .sr ∧ ns = dmaBytes (c.arg 0xA 1 == c.arg 0xB 1) (c.arg 0xA 1) (c.arg 0x30 8) ∧ nd = dmaBytes (c.arg 0xA 1 == c.arg 0xB 1) (c.arg 0xB 1) (c.arg 0x30 8) ∧ dmaSideOk s (c.arg 8 1) (c.arg 0x10 8) (c.arg 0x18 8) ns = true ∧ dmaSideOk s (c.arg 9 1) (c.arg 0x20 8) (c.arg 0x28 8) nd = true ∧ from_ = (if c.arg 8 1 = 0 then [] else dmaPieces s (c.arg 0x10 8) (c.arg 0x18 8) ns) ∧ to_ = (if c.arg 9 1 = 0 then [] else dmaPieces s (c.arg 0x20 8) (c.arg 0x28 8) nd) ∧ memWaits s (from_ ++ to_) = false ∧ accessSource s none true from_ = none ∧ accessSource s none false to_ = none ∧ out = dmaConvert (c.arg 0xA 1) (c.arg 0xB 1) v (c.arg 0x30 8) (if c.arg 8 1 = 0 then source else readPieces s.mem.cells from_) := by
  refine ⟨with1 stored (cmd [(0, 1, 0x40), (8, 1, 0), (9, 1, 1), (0x20, 8, handleWord 1 1 0), (0x28, 8, 65534), (0x30, 8, 2)]), 1, (cmd [(0, 1, 0x40), (8, 1, 0), (9, 1, 1), (0x20, 8, handleWord 1 1 0), (0x28, 8, 65534), (0x30, 8, 2)]), [1, 2], conv0, 2, 2, [], [⟨siteBase 0 + 65534, 2⟩], [1, 2], ?_⟩
  repeat' apply And.intro
  all_goals first | with_reducible rfl | decide | (show (_ : Nat) < _; decide) | rfl | (exact fun _ => ⟨⟨⟨by decide, rfl⟩, by decide, by decide⟩, by decide⟩)

theorem witness_modelCopyAndPlacementCommandsComplete_4 :
    ∃ (s : State) (cid : Nat) (c : _) (i : _), Acts s cid 0x11 c ∧ modelHandle s (c.arg 8 8) = some i ∧ s.sessions.any (fun x => x.model == i) = false ∧ s.runs.any (fun r => r.model == some i) = false ∧ modelAwaited (s.startCmd cid) i = false := by
  refine ⟨with1 modelled (cmd [(0, 1, 0x11), (8, 8, handleWord 0 1 0)]), 1, (cmd [(0, 1, 0x11), (8, 8, handleWord 0 1 0)]), 0, ?_⟩
  repeat' apply And.intro
  all_goals first | with_reducible rfl | decide | (show (_ : Nat) < _; decide) | rfl

theorem witness_modelCopyAndPlacementCommandsComplete_5 :
    ∃ (s : State) (cid : Nat) (c : _) (i : _), Acts s cid 0x12 c ∧ modelHandle s (c.arg 8 8) = some i ∧ ((modelAt s i).retained = 0 ∨ retainedUsed s i = false) ∧ (modelAt s i).staged = true ∧ (modelAt s i).current < 0xFFFFFFFF := by
  refine ⟨with1 { modelled with models := setAt modelled.models 0 { m0 with staged := true, current := 0xFFFFFFFE } } (cmd [(0, 1, 0x12), (8, 8, handleWord 0 1 0)]), 1, (cmd [(0, 1, 0x12), (8, 8, handleWord 0 1 0)]), 0, ?_⟩
  repeat' apply And.intro
  all_goals first | with_reducible rfl | decide | (show (_ : Nat) < _; decide) | rfl

theorem witness_modelCopyAndPlacementCommandsComplete_6 :
    ∃ (s : State) (cid : Nat) (c : _) (i : _), Acts s cid 0x13 c ∧ modelHandle s (c.arg 8 8) = some i := by
  refine ⟨with1 modelled (cmd [(0, 1, 0x13), (8, 8, handleWord 0 1 0)]), 1, (cmd [(0, 1, 0x13), (8, 8, handleWord 0 1 0)]), 0, ?_⟩
  repeat' apply And.intro
  all_goals first | with_reducible rfl | decide | (show (_ : Nat) < _; decide) | rfl

theorem witness_modelCopyAndPlacementCommandsComplete_7 :
    ∃ (s : State) (cid : Nat) (c : _) (b : _), Acts s cid 0x50 c ∧ (b = (if bit 2 (c.arg 0x14 1) then Bounds.reset else { minM := c.arg 8 2, maxM := c.arg 0xA 2, minD := c.arg 0xC 2, maxD := c.arg 0xE 2, minC := c.arg 0x10 2, maxC := c.arg 0x12 2 })) ∧ b.minM ≤ b.maxM ∧ b.minD ≤ b.maxD ∧ b.minC ≤ b.maxC ∧ b.minM + b.minD + b.minC ≤ (computeSites s).length ∧ (bit 1 (c.arg 0x14 1) = false ∨ (s.sessions = [] ∧ s.runs = [] ∧ s.launches = [] ∧ (s.startCmd cid).host.cmds.any (fun d => d.waits && (d.opcode == 0x31 || d.opcode == 0x33)) = false)) := by
  refine ⟨with1 stocked (cmd [(0, 1, 0x50), (8, 2, 1), (0xA, 2, 1)]), 1, (cmd [(0, 1, 0x50), (8, 2, 1), (0xA, 2, 1)]), (if bit 2 (((cmd [(0, 1, 0x50), (8, 2, 1), (0xA, 2, 1)])).arg 0x14 1) then Bounds.reset else { minM := ((cmd [(0, 1, 0x50), (8, 2, 1), (0xA, 2, 1)])).arg 8 2, maxM := ((cmd [(0, 1, 0x50), (8, 2, 1), (0xA, 2, 1)])).arg 0xA 2, minD := ((cmd [(0, 1, 0x50), (8, 2, 1), (0xA, 2, 1)])).arg 0xC 2, maxD := ((cmd [(0, 1, 0x50), (8, 2, 1), (0xA, 2, 1)])).arg 0xE 2, minC := ((cmd [(0, 1, 0x50), (8, 2, 1), (0xA, 2, 1)])).arg 0x10 2, maxC := ((cmd [(0, 1, 0x50), (8, 2, 1), (0xA, 2, 1)])).arg 0x12 2 }), ?_⟩
  repeat' apply And.intro
  all_goals first | with_reducible rfl | decide | (show (_ : Nat) < _; decide) | rfl | (exact Or.inl (by decide))

theorem witness_modelCopyAndPlacementCommandsComplete_8 :
    ∃ (s : State) (cid : Nat) (c : _) (l : _), Acts s cid 0x51 c ∧ placementReport s (c.arg 8 1) (c.arg 0x10 8) = some l ∧ l.length ≤ c.arg 0x20 4 := by
  refine ⟨with1 base (cmd [(0, 1, 0x51), (0x20, 4, 65536)]), 1, (cmd [(0, 1, 0x51), (0x20, 4, 65536)]), moduleReport (with1 base (cmd [(0, 1, 0x51), (0x20, 4, 65536)])), ?_⟩
  repeat' apply And.intro
  all_goals first | with_reducible rfl | decide | (show (_ : Nat) < _; decide) | rfl

theorem witness_sessionCommandsComplete_1 :
    ∃ (s : State) (cid : Nat) (c : _) (k : _) (i : _), Acts s cid 0x20 c ∧ modelHandle s (c.arg 8 8) = some k ∧ (modelAt s k).state = .ready ∧ selftestRunning (s.startCmd cid) = false ∧ freeIndex (s.sessions.map (·.index)) 65536 = some i ∧ admits s.setShare (c.arg 0x10 4) = true := by
  refine ⟨with1 modelled (cmd [(0, 1, 0x20), (8, 8, handleWord 0 1 0), (0x10, 4, 1)]), 1, (cmd [(0, 1, 0x20), (8, 8, handleWord 0 1 0), (0x10, 4, 1)]), 0, 0, ?_⟩
  repeat' apply And.intro
  all_goals first | with_reducible rfl | decide | (show (_ : Nat) < _; decide) | rfl

theorem witness_sessionCommandsComplete_2 :
    ∃ (s : State) (cid : Nat) (c : _) (x : _), Acts s cid 0x21 c ∧ sessionHandle s (c.arg 8 8) = some x ∧ x.state ≠ .closing ∧ sessionQueue s x = [] := by
  refine ⟨with1 (sess x0) (cmd [(0, 1, 0x21), (8, 8, handleWord 0 1 0)]), 1, (cmd [(0, 1, 0x21), (8, 8, handleWord 0 1 0)]), x0, ?_⟩
  repeat' apply And.intro
  all_goals first | with_reducible rfl | decide | (show (_ : Nat) < _; decide) | rfl

theorem witness_sessionCommandsComplete_3 :
    ∃ (s : State) (cid : Nat) (binds : List Byte) (r : _) (x : _), runOf s cid = some r ∧ r.begun = false ∧ openOps r ≠ [] ∧ r.rebuild = false ∧ sessionOf s r = some x ∧ (sessionQueue s x).head? = some cid ∧ runWaits s r = false ∧ goingOut s x.index = false ∧ stepAccepts false x.state = true ∧ blocksAt s r (x.position + r.tokens) ≤ x.maxBlocks ∧ cacheFits s r x (x.position + r.tokens) = true := by
  refine ⟨with1 { sess { x0 with queue := [1] } with runs := [step0 false] } (begun [(0, 1, 0x22)]), 1, [], step0 false, { x0 with queue := [1] }, ?_⟩
  repeat' apply And.intro
  all_goals first | with_reducible rfl | decide | (show (_ : Nat) < _; decide) | rfl

theorem witness_sessionCommandsComplete_4 :
    ∃ (s : State) (cid : Nat) (binds : List Byte) (r : _) (x : _), runOf s cid = some r ∧ r.begun = false ∧ openOps r ≠ [] ∧ r.rebuild = true ∧ sessionOf s r = some x ∧ (sessionQueue s x).head? = some cid ∧ runWaits s r = false ∧ goingOut s x.index = false ∧ stepAccepts true x.state = true ∧ blocksAt s r r.tokens ≤ x.maxBlocks ∧ cacheFits s r x r.tokens = true := by
  refine ⟨with1 { sess { x0 with queue := [1] } with runs := [step0 true] } (begun [(0, 1, 0x22)]), 1, [], step0 true, { x0 with queue := [1] }, ?_⟩
  repeat' apply And.intro
  all_goals first | with_reducible rfl | decide | (show (_ : Nat) < _; decide) | rfl

theorem witness_sessionCommandsComplete_5 :
    ∃ (s : State) (cid : Nat) (binds : List Byte) (r : _) (x : _), runOf s cid = some r ∧ r.begun = false ∧ openOps r ≠ [] ∧ r.rebuild = false ∧ sessionOf s r = some x ∧ (sessionQueue s x).head? = some cid ∧ runWaits s r = false ∧ goingOut s x.index = false ∧ stepAccepts false x.state = true ∧ blocksAt s r (x.position + r.tokens) ≤ x.maxBlocks ∧ cacheFits s r x (x.position + r.tokens) = true := by
  refine ⟨with1 { sess { x0 with queue := [1] } with runs := [step0 false] } (begun [(0, 1, 0x23)]), 1, [], step0 false, { x0 with queue := [1] }, ?_⟩
  repeat' apply And.intro
  all_goals first | with_reducible rfl | decide | (show (_ : Nat) < _; decide) | rfl

theorem witness_sessionCommandsComplete_6 :
    ∃ (s : State) (cid : Nat) (c : _) (x : _), Acts s cid 0x24 c ∧ c.arg 0x10 1 = 0 ∧ sessionHandle s (c.arg 8 8) = some x ∧ (x.state = .open ∨ x.state = .broken ∨ x.state = .inDoubt) ∧ sessionQueue s x = [] ∧ blocksWait s x.index = false ∧ blocksAbsent s x.index = none ∧ blocksSource s x.index = none ∧ sessionBytes (blocksHeld s x.index) ≤ c.arg 0x28 8 := by
  refine ⟨with1 (sess x0) (cmd [(0, 1, 0x24), (8, 8, handleWord 0 1 0), (0x28, 8, 128)]), 1, (cmd [(0, 1, 0x24), (8, 8, handleWord 0 1 0), (0x28, 8, 128)]), x0, ?_⟩
  repeat' apply And.intro
  all_goals first | with_reducible rfl | decide | (show (_ : Nat) < _; decide) | rfl

theorem witness_sessionCommandsComplete_7 :
    ∃ (s : State) (cid : Nat) (c : _) (x : _) (h : _) (l : _), Acts s cid 0x24 c ∧ c.arg 0x10 1 ≠ 0 ∧ sessionHandle s (c.arg 8 8) = some x ∧ (x.state = .open ∨ x.state = .broken ∨ x.state = .inDoubt) ∧ sessionQueue s x = [] ∧ blocksWait s x.index = false ∧ blocksAbsent s x.index = none ∧ blocksSource s x.index = none ∧ memHandle s (c.arg 0x18 8) = some h ∧ sessionBytes (blocksHeld s x.index) ≤ Nat.min (c.arg 0x28 8) (h.size - c.arg 0x20 8) ∧ l = pieces h.extents (c.arg 0x20 8) (sessionBytes (blocksHeld s x.index)) ∧ memWaits s l = false ∧ accessSource s none false l = none := by
  refine ⟨with1 { sess x0 with mem := stored.mem } (cmd [(0, 1, 0x24), (8, 8, handleWord 0 1 0), (0x10, 1, 1), (0x18, 8, handleWord 1 1 0), (0x28, 8, 128)]), 1, (cmd [(0, 1, 0x24), (8, 8, handleWord 0 1 0), (0x10, 1, 1), (0x18, 8, handleWord 1 1 0), (0x28, 8, 128)]), x0, h0, [⟨siteBase 0, 128⟩], ?_⟩
  repeat' apply And.intro
  all_goals first | with_reducible rfl | decide | (show (_ : Nat) < _; decide) | rfl | (exact Or.inl (by decide))

theorem witness_migrationRowsComplete_1 :
    ∃ (s : State) (cid : Nat) (c : _) (k : _), Acts s cid 0x25 c ∧ c.arg 0x10 1 = 2 ∧ migOf s cid false = none ∧ modelHandle s (c.arg 8 8) = some k := by
  refine ⟨with1 modelled (cmd [(0, 1, 0x25), (0x10, 1, 2), (8, 8, handleWord 0 1 0)]), 1, (cmd [(0, 1, 0x25), (0x10, 1, 2), (8, 8, handleWord 0 1 0)]), 0, ?_⟩
  repeat' apply And.intro
  all_goals first | with_reducible rfl | decide | (show (_ : Nat) < _; decide) | rfl

theorem witness_migrationRowsComplete_2 :
    ∃ (s : State) (cid : Nat) (c : _) (x : _), Acts s cid 0x26 c ∧ migOf s cid true = none ∧ sessionHandle s (c.arg 8 8) = some x ∧ x.state = .open ∧ sessionQueue s x = [] ∧ c.arg 0x10 2 ≠ ownId s := by
  refine ⟨with1 (routed (sess x0)) (cmd [(0, 1, 0x26), (8, 8, handleWord 0 1 0), (0x10, 2, 5)]), 1, (cmd [(0, 1, 0x26), (8, 8, handleWord 0 1 0), (0x10, 2, 5)]), x0, ?_⟩
  repeat' apply And.intro
  all_goals first | with_reducible rfl | decide | (show (_ : Nat) < _; decide) | rfl

theorem witness_migrationRowsComplete_3 :
    ∃ (s : State) (cid : Nat) (m : _) (i : _) (x : _), migOf s cid true = some m ∧ m.joined = false ∧ reachable s m.peer = true ∧ m.session = some i ∧ sessionAt s i = some x ∧ blocksWait s x.index = false ∧ blocksSource s x.index = none := by
  refine ⟨migrating (mig true false false), 1, mig true false false, 0, x0, ?_⟩
  repeat' apply And.intro
  all_goals first | with_reducible rfl | decide | (show (_ : Nat) < _; decide) | rfl

theorem witness_migrationRowsComplete_4 :
    ∃ (s : State) (cid : Nat) (c : _) (m : _), Live s cid c ∧ migOf s cid true = some m ∧ m.joined = false := by
  refine ⟨migrating (mig true false false), 1, begun [(0, 1, 0x26)], mig true false false, ?_⟩
  repeat' apply And.intro
  all_goals first | with_reducible rfl | decide | (show (_ : Nat) < _; decide) | rfl

theorem witness_migrationRowsComplete_5 :
    ∃ (s : State) (cid : Nat) (c : _) (m : _), Live s cid c ∧ migOf s cid true = none ∧ migOf s cid false = some m ∧ m.joined = false ∧ m.ready = false := by
  refine ⟨migrating (mig false false false), 1, begun [(0, 1, 0x26)], mig false false false, ?_⟩
  repeat' apply And.intro
  all_goals first | with_reducible rfl | decide | (show (_ : Nat) < _; decide) | rfl

theorem witness_migrationRowsComplete_7 :
    ∃ (s : State) (cid : Nat) (m : _) (i : _) (x : _), migOf s cid true = some m ∧ m.joined = true ∧ m.ready = false ∧ m.session = some i ∧ sessionAt s i = some x := by
  refine ⟨migrating (mig true true false), 1, mig true true false, 0, x0, ?_⟩
  repeat' apply And.intro
  all_goals first | with_reducible rfl | decide | (show (_ : Nat) < _; decide) | rfl

theorem witness_migrationRowsComplete_8 :
    ∃ (s : State) (cid : Nat) (c : _) (m : _) (status : Byte) (st : _), Live s cid c ∧ migOf s cid true = some m ∧ m.joined = true ∧ m.ready = false ∧ Status.ofCode status.toNat = some st ∧ refusalStatus st = true := by
  refine ⟨migrating (mig true true false), 1, begun [(0, 1, 0x26)], mig true true false, (BitVec.ofNat 8 Status.retryLater.code), .retryLater, ?_⟩
  repeat' apply And.intro
  all_goals first | with_reducible rfl | decide | (show (_ : Nat) < _; decide) | rfl

theorem witness_migrationRowsComplete_9 :
    ∃ (s : State) (cid : Nat) (c : _) (m : _) (i : _) (x : _), Live s cid c ∧ migOf s cid false = some m ∧ m.ready = true ∧ m.session = some i ∧ sessionAt s i = some x := by
  refine ⟨migrating (mig false true true), 1, begun [(0, 1, 0x26)], mig false true true, 0, x0, ?_⟩
  repeat' apply And.intro
  all_goals first | with_reducible rfl | decide | (show (_ : Nat) < _; decide) | rfl

theorem witness_migrationRowsComplete_10 :
    ∃ (s : State) (cid : Nat) (c : _) (m : _) (i : _) (x : _), Live s cid c ∧ migOf s cid true = some m ∧ m.ready = true ∧ m.session = some i ∧ sessionAt s i = some x := by
  refine ⟨migrating (mig true true true), 1, begun [(0, 1, 0x26)], mig true true true, 0, x0, ?_⟩
  repeat' apply And.intro
  all_goals first | with_reducible rfl | decide | (show (_ : Nat) < _; decide) | rfl

theorem witness_migrationRowsComplete_11 :
    ∃ (s : State) (cid : Nat) (c : _) (m : _), Live s cid c ∧ migOf s cid true = some m ∧ m.ready = true := by
  refine ⟨migrating (mig true true true), 1, begun [(0, 1, 0x26)], mig true true true, ?_⟩
  repeat' apply And.intro
  all_goals first | with_reducible rfl | decide | (show (_ : Nat) < _; decide) | rfl

theorem witness_migrationRowsComplete_12 :
    ∃ (s : State) (session : Nat) (m : _), s.migs.find? (fun m => m.isSource && m.session == some session && m.ready) = some m ∧ isLive s m.cid = false ∧ reachable s m.peer = true := by
  refine ⟨{ migrating (mig true true true) with host := base.host }, 0, mig true true true, ?_⟩
  repeat' apply And.intro
  all_goals first | with_reducible rfl | decide | (show (_ : Nat) < _; decide) | rfl

theorem witness_migrationRowsComplete_13 :
    ∃ (s : State) (cid : Nat) (c : _) (m : _) (i : _), Live s cid c ∧ migOf s cid false = some m ∧ m.joined = true ∧ m.session = some i := by
  refine ⟨migrating (mig false true false), 1, begun [(0, 1, 0x26)], mig false true false, 0, ?_⟩
  repeat' apply And.intro
  all_goals first | with_reducible rfl | decide | (show (_ : Nat) < _; decide) | rfl

theorem witness_graphCommandsComplete_2 :
    ∃ (s : State) (cid : Nat) (c : _) (binds : List Byte) (participants : List Byte) (i : _) (gen : _) (g : _) (l : _) (m : _) (rank : _) (ms : _), ActsReading s cid 0x31 c ∧ runOf s cid = none ∧ binds.length = 16 * c.arg 0x24 4 ∧ graphHandle s (c.arg 8 8) = some (i, gen, g) ∧ runModel s g (c.arg 0x10 8) c.heldEpoch = .ok m ∧ bindingsOf s g [] (c.arg 0x24 4) binds = some l ∧ (if c.arg 0x30 8 = 0 then some (0, [ownId s % 4096]) else participantsOf s g participants) = some (rank, ms) ∧ selftestRunning (s.startCmd cid) = false ∧ bindsBusy (s.startCmd cid) cid l = false ∧ (s.runs.filter (fun r => r.graphIndex == some i)).length + waitingOn (s.startCmd cid) 0x31 (c.arg 8 8) < 64 ∧ overloaded (s.startCmd cid) .mash = false ∧ (g.tensors.any (fun t => t.kind == 4) && modelAway s (c.arg 0x10 8)) = false ∧ g.ops ≠ [] := by
  refine ⟨with1 { stocked with graphs := [(0, 1, gNone)] } (cmd [(0, 1, 0x31), (8, 8, handleWord 2 1 0)]), 1, (cmd [(0, 1, 0x31), (8, 8, handleWord 2 1 0)]), [], [], 0, 1, gNone, [], none, 0, [4095], ?_⟩
  repeat' apply And.intro
  all_goals first | with_reducible rfl | decide | (show (_ : Nat) < _; decide) | rfl

theorem witness_graphCommandsComplete_3 :
    ∃ (s : State) (cid : Nat) (binds : List Byte) (participants : List Byte) (r : _), runOf s cid = some r ∧ r.begun = false ∧ openOps r ≠ [] ∧ runWaits s r = false := by
  refine ⟨with1 { stocked with runs := [run0 0x0210] } (begun [(0, 1, 0x31)]), 1, [], [], run0 0x0210, ?_⟩
  repeat' apply And.intro
  all_goals first | with_reducible rfl | decide | (show (_ : Nat) < _; decide) | rfl

theorem witness_graphCommandsComplete_4 :
    ∃ (s : State) (cid : Nat) (c : _) (r : Run) (op : _) (o : OpDesc), Live s cid c ∧ runOf s cid = some r ∧ r.begun = true ∧ openOps r = [op] ∧ r.graph.ops[op]? = some o ∧ r.reached.contains op = true ∧ joinMissing s r o = true ∧ (∀ x ∈ r.opsFailed, op < x.1) := by
  refine ⟨with1 { stocked with runs := [{ run0 0x0600 with begun := true, modules := [0, 1], reached := [0] }] } (begun [(0, 1, 0x31)]), 1, begun [(0, 1, 0x31)], { run0 0x0600 with begun := true, modules := [0, 1], reached := [0] }, 0, op0 0x0600, ?_⟩
  repeat' apply And.intro
  all_goals first | with_reducible rfl | decide | (show (_ : Nat) < _; decide) | rfl

theorem witness_graphCommandsComplete_5 :
    ∃ (s : State) (run : Nat) (op : Nat) (elem : Nat) (record : List Byte) (r : Run) (v : TensorVal) (a : Machine.Acc), runOf s run = some r ∧ partialVal r op = some v ∧ v.records[elem]? = some a ∧ recordOk record = true ∧ (a.merge (accOf record)).residuesOk = true ∧ (a.merge (accOf record)).count ≤ contribLimit ∧ s.flt.injecting (srcId 1 (cellOf s run op).1 4) = false := by
  refine ⟨with1 { stocked with runs := [runP] } (begun [(0, 1, 0x31)]), 1, 0, 0, recP, runP, valP, accP, ?_⟩
  repeat' apply And.intro
  all_goals first | with_reducible rfl | decide | (show (_ : Nat) < _; decide) | rfl

theorem witness_resetRowsComplete_3 :
    ∃ (s : State), s.pins.pwrgd = true ∧ s.pins.perst = false ∧ s.boot.everReset = true ∧ discarded s .warm = false := by
  refine ⟨base, ?_⟩
  repeat' apply And.intro
  all_goals first | with_reducible rfl | decide | (show (_ : Nat) < _; decide) | rfl

theorem witness_resetRowsComplete_4 :
    ∃ (s : State), (¬ (s.pins.pwrgd = true ∧ s.pins.perst = false ∧ s.boot.everReset = true ∧ discarded s .warm = false)) := by
  refine ⟨State.reset, ?_⟩
  repeat' apply And.intro
  all_goals first | with_reducible rfl | decide | (show (_ : Nat) < _; decide) | rfl

theorem witness_resetRowsComplete_6 :
    ∃ (s : State), configReach s = true ∧ discarded s .module = false := by
  refine ⟨base, ?_⟩
  repeat' apply And.intro
  all_goals first | with_reducible rfl | decide | (show (_ : Nat) < _; decide) | rfl

theorem witness_resetRowsComplete_7 :
    ∃ (s : State), (configReach s = false ∨ discarded s .module = true) := by
  refine ⟨State.reset, ?_⟩
  repeat' apply And.intro
  all_goals first | with_reducible rfl | decide | (show (_ : Nat) < _; decide) | rfl

theorem witness_startUpRowsComplete_1 :
    ∃ (s : State) (row : Fin 8) (ageing : List Nat), s.tiles.length = 64 := by
  refine ⟨base, 7, [], ?_⟩
  repeat' apply And.intro
  all_goals first | with_reducible rfl | decide | (show (_ : Nat) < _; decide) | rfl

theorem witness_startUpRowsComplete_2 :
    ∃ (s : State) (site : SiteId) (straps : BitVec 10), s.tiles.length = 64 ∧ plannedState s site ≠ .isolated ∧ (tileAt s site).inReset = false ∧ strapsOk site.val straps.toNat = true ∧ sameReport s site.val straps.toNat = [] := by
  refine ⟨onTile (fun x => { x with inReset := false }), 0, 0, ?_⟩
  repeat' apply And.intro
  all_goals first | with_reducible rfl | decide | (show (_ : Nat) < _; decide) | rfl

theorem witness_startUpRowsComplete_3 :
    ∃ (s : State) (site : SiteId) (straps : BitVec 10), s.tiles.length = 64 ∧ plannedState s site ≠ .isolated ∧ (tileAt s site).inReset = false ∧ (strapsOk site.val straps.toNat = false ∨ sameReport s site.val straps.toNat ≠ []) := by
  refine ⟨onTile (fun x => { x with inReset := false }), 0, 1, ?_⟩
  repeat' apply And.intro
  all_goals first | with_reducible rfl | decide | (show (_ : Nat) < _; decide) | rfl

theorem witness_startUpRowsComplete_4 :
    ∃ (s : State) (b : BundleEnd) (p : BundleEnd) (fh : List Nat) (ft : List Nat) (bh : List Byte) (bt : List Byte) (here : List Byte) (there : List Byte) (fa : List Nat) (ma : List SpareUse × Option Nat) (fb : List Nat) (mb : List SpareUse × Option Nat), HasEnd s b ∧ HasEnd s p ∧ peerEnd b = some p ∧ peerEnd p = some b ∧ bundleRecorded s b = false ∧ endReady s b = true ∧ endReady s p = true ∧ here = arriving s p ft bh ∧ there = arriving s b fh bt ∧ blockOk here = true ∧ blockOk there = true ∧ blockFrom p here = true ∧ blockFrom b there = true ∧ settledMap ((s.startEngine b).startEngine p) b fh there here = some (fa, ma) ∧ settledMap ((s.startEngine b).startEngine p) p ft here there = some (fb, mb) := by
  refine ⟨waking, .tile 9 4, .tile 10 15, [], [], fullBlock (.tile 10 15), fullBlock (.tile 9 4), arriving (waking) (.tile 10 15) ([]) (fullBlock (.tile 10 15)), arriving (waking) (.tile 9 4) ([]) (fullBlock (.tile 9 4)), [], (List.replicate 4 .free, none), [], (List.replicate 4 .free, none), ?_⟩
  repeat' apply And.intro
  all_goals first | with_reducible rfl | decide +kernel | rfl

theorem witness_startUpRowsComplete_5 :
    ∃ (s : State) (b : BundleEnd) (p : BundleEnd) (fh : List Nat) (ft : List Nat) (fckOk : Bool) (flitsOk : Bool) (bh : List Byte) (bt : List Byte) (here : List Byte) (there : List Byte), HasEnd s b ∧ HasEnd s p ∧ peerEnd b = some p ∧ peerEnd p = some b ∧ bundleRecorded s b = false ∧ endReady s b = true ∧ endReady s p = true ∧ here = arriving s p ft bh ∧ there = arriving s b fh bt ∧ (blockOk here = true → blockFrom p here = true) ∧ (blockOk there = true → blockFrom b there = true) ∧ (fckOk = false ∨ flitsOk = false ∨ blockOk here = false ∨ blockOk there = false ∨ settledMap ((s.startEngine b).startEngine p) b fh there here = none ∨ settledMap ((s.startEngine b).startEngine p) p ft here there = none) := by
  refine ⟨waking, .tile 9 4, .tile 10 15, [], [], true, false, block (.tile 10 15), block (.tile 9 4), arriving (waking) (.tile 10 15) ([]) (block (.tile 10 15)), arriving (waking) (.tile 9 4) ([]) (block (.tile 9 4)), ?_⟩
  repeat' apply And.intro
  all_goals first | with_reducible rfl | decide +kernel | rfl

theorem witness_startUpRowsComplete_6 :
    ∃ (s : State) (b : BundleEnd) (p : BundleEnd) (m : _) (fh : List Nat) (ft : List Nat) (fckOk : Bool) (flitsOk : Bool) (bh : List Byte) (bt : List Byte) (here : List Byte) (there : List Byte), s.tiles.length = 64 ∧ m < 64 ∧ peerEnd b = some p ∧ bundleRecorded s b = false ∧ endReady s b = true ∧ endReady s p = true ∧ here = arriving s p ft bh ∧ there = arriving s b fh bt ∧ ((blockOk here = true ∧ blockFrom p here = false ∧ m ∈ checkedSite b) ∨ (blockOk there = true ∧ blockFrom b there = false ∧ m ∈ checkedSite p)) := by
  refine ⟨waking, .tile 9 4, .tile 10 15, 9, [], [], true, true, block (.tile 9 4), block (.tile 9 4), arriving (waking) (.tile 10 15) ([]) (block (.tile 9 4)), arriving (waking) (.tile 9 4) ([]) (block (.tile 9 4)), ?_⟩
  repeat' apply And.intro
  all_goals first | with_reducible rfl | decide +kernel | rfl

theorem witness_startUpRowsComplete_7 :
    ∃ (s : State) (b : BundleEnd) (fh : List Nat) (ft : List Nat) (fckOk : Bool) (flitsOk : Bool) (bh : List Byte) (bt : List Byte), (∀ p, peerEnd b = some p → bundleRecorded s b = true ∨ endReady s b = false ∨ endReady s p = false) := by
  refine ⟨base, .tile 0 12, [], [], true, true, [], [], ?_⟩
  repeat' apply And.intro
  all_goals first | with_reducible rfl | decide | (show (_ : Nat) < _; decide) | rfl | (intro p h; exact Or.inr (Or.inl (by decide)))

theorem witness_startUpRowsComplete_8 :
    ∃ (s : State) (site : SiteId), s.tiles.length = 64 ∧ (tileAt s site).state = .compute ∧ (tileAt s site).inReset = false := by
  refine ⟨stocked, 0, ?_⟩
  repeat' apply And.intro
  all_goals first | with_reducible rfl | decide | (show (_ : Nat) < _; decide) | rfl

theorem witness_startUpRowsComplete_9 :
    ∃ (s : State) (site : SiteId), (¬ ((tileAt s site).state = .compute ∧ (tileAt s site).inReset = false)) := by
  refine ⟨base, 0, ?_⟩
  repeat' apply And.intro
  all_goals first | with_reducible rfl | decide | (show (_ : Nat) < _; decide) | rfl

theorem witness_startUpRowsComplete_10 :
    ∃ (s : State) (site : SiteId) (k : _), s.tiles.length = 64 ∧ (tileAt s site).settingUp = true ∧ (tileAt s site).state = .compute ∧ (tileAt s site).retiring = false ∧ (liveCells (tileAt s site)).getLast? = some k := by
  refine ⟨onTile (fun x => { serving x with settingUp := true }), 0, 32, ?_⟩
  repeat' apply And.intro
  all_goals first | with_reducible rfl | decide | (show (_ : Nat) < _; decide) | rfl

theorem witness_startUpRowsComplete_11 :
    ∃ (s : State) (site : SiteId), s.tiles.length = 64 ∧ (tileAt s site).settingUp = true ∧ (tileAt s site).state = .compute ∧ (tileAt s site).retiring = true := by
  refine ⟨onTile (fun t => { t with settingUp := true, state := .compute, retiring := true }), 0, ?_⟩
  repeat' apply And.intro
  all_goals first | with_reducible rfl | decide | (show (_ : Nat) < _; decide) | rfl

theorem witness_startUpRowsComplete_12 :
    ∃ (s : State) (site : SiteId) (failed : List CellId), s.tiles.length = 64 ∧ (tileAt s site).settingUp = true := by
  refine ⟨onTile (fun x => { serving x with settingUp := true }), 0, [32], ?_⟩
  repeat' apply And.intro
  all_goals first | with_reducible rfl | decide | (show (_ : Nat) < _; decide) | rfl

theorem witness_startUpRowsComplete_13 :
    ∃ (s : State) (site : SiteId) (idA : Nat) (idB : Nat) (ta : Nat) (tb : Nat), s.tiles.length = 64 ∧ (tileAt s site).state ≠ .isolated ∧ (tileAt s site).memFailed = false := by
  refine ⟨stocked, 0, 0, 0, 0, 0, ?_⟩
  repeat' apply And.intro
  all_goals first | with_reducible rfl | decide | (show (_ : Nat) < _; decide) | rfl

theorem witness_startUpRowsComplete_14 :
    ∃ (s : State) (site : SiteId) (a : Bool) (b : Bool) (idA : Nat) (idB : Nat) (ta : Nat) (tb : Nat), s.tiles.length = 64 ∧ (tileAt s site).state ≠ .isolated ∧ (tileAt s site).memFailed = false ∧ (a || b) = true := by
  refine ⟨stocked, 0, false, true, 0, 0, 0, 0, ?_⟩
  repeat' apply And.intro
  all_goals first | with_reducible rfl | decide | (show (_ : Nat) < _; decide) | rfl

theorem witness_startUpRowsComplete_15 :
    ∃ (s : State) (ms : Nat), readyDue s ms = true ∧ computeSites s ≠ [] := by
  refine ⟨starting serving, 7500, ?_⟩
  repeat' apply And.intro
  all_goals first | with_reducible rfl | decide | (show (_ : Nat) < _; decide) | rfl

theorem witness_startUpRowsComplete_16 :
    ∃ (s : State) (ms : Nat), readyDue s ms = true ∧ computeSites s = [] := by
  refine ⟨starting isolated, 7500, ?_⟩
  repeat' apply And.intro
  all_goals first | with_reducible rfl | decide | (show (_ : Nat) < _; decide) | rfl

theorem witness_clockRowsComplete_1 :
    ∃ (s : State), s.pins.pwrgd = true ∧ s.ret.clockStop = none ∧ s.ret.tripped = false := by
  refine ⟨base, ?_⟩
  repeat' apply And.intro
  all_goals first | with_reducible rfl | decide | (show (_ : Nat) < _; decide) | rfl

theorem witness_clockRowsComplete_2 :
    ∃ (s : State), s.ret.tripped = true := by
  refine ⟨trippedBy .thermal, ?_⟩
  repeat' apply And.intro
  all_goals first | with_reducible rfl | decide | (show (_ : Nat) < _; decide) | rfl

theorem witness_clockRowsComplete_3 :
    ∃ (s : State) (src : _) (katOk : Bool) (idA : Bool) (idB : Bool), s.pins.pwrgd = true ∧ s.ret.clockStop = some src := by
  refine ⟨{ base with ret := { base.ret with clockStop := some (srcId 0 0 6) } }, srcId 0 0 6, true, true, true, ?_⟩
  repeat' apply And.intro
  all_goals first | with_reducible rfl | decide | (show (_ : Nat) < _; decide) | rfl

theorem witness_clockRowsComplete_4 :
    ∃ (s : State), s.pins.pwrgd = true ∧ s.ret.clockStop = none ∧ s.ret.tripped = false := by
  refine ⟨base, ?_⟩
  repeat' apply And.intro
  all_goals first | with_reducible rfl | decide | (show (_ : Nat) < _; decide) | rfl

theorem witness_clockRowsComplete_5 :
    ∃ (s : State) (site : SiteId), s.tiles.length = 64 := by
  refine ⟨base, 63, ?_⟩
  repeat' apply And.intro
  all_goals first | with_reducible rfl | decide | (show (_ : Nat) < _; decide) | rfl

theorem witness_clockRowsComplete_6 :
    ∃ (s : State) (b : BundleEnd) (n : SiteId) (i : _), s.tiles.length = 64 ∧ peerEnd b = some (.tile n i) ∧ (tileAt s n).clockLost = true := by
  refine ⟨{ base with tiles := modAt base.tiles 10 (fun x => { x with clockLost := true }) }, .tile 9 4, 10, 15, ?_⟩
  repeat' apply And.intro
  all_goals first | with_reducible rfl | decide | (show (_ : Nat) < _; decide) | rfl

theorem witness_clockRowsComplete_7 :
    ∃ (s : State) (b : BundleEnd) (n : SiteId) (i : _), s.tiles.length = 64 ∧ peerEnd b = some (.tile n i) ∧ (tileAt s n).clockLost = false := by
  refine ⟨base, .tile 9 4, 10, 15, ?_⟩
  repeat' apply And.intro
  all_goals first | with_reducible rfl | decide | (show (_ : Nat) < _; decide) | rfl

theorem witness_clockRowsComplete_8 :
    ∃ (s : State) (e : EngineId) (u : _), s.engines.length = 24 ∧ u = (if (engineAt s e).state = .up then s.linkDown e else s) := by
  refine ⟨base, 23, (if (engineAt (base) (23)).state = .up then (base).linkDown (23) else (base)), ?_⟩
  repeat' apply And.intro
  all_goals first | with_reducible rfl | decide | (show (_ : Nat) < _; decide) | rfl

theorem witness_tileRowsComplete_1 :
    ∃ (s : State) (site : SiteId), s.tiles.length = 64 ∧ (tileAt s site).state = .compute ∧ hasBundle s site = true ∧ (tileAt s site).retiring = false := by
  refine ⟨stocked, 0, ?_⟩
  repeat' apply And.intro
  all_goals first | with_reducible rfl | decide | (show (_ : Nat) < _; decide) | rfl

theorem witness_tileRowsComplete_2 :
    ∃ (s : State) (site : SiteId), (tileAt s site).state = .compute ∧ hasBundle s site = true ∧ (tileAt s site).retiring = true := by
  refine ⟨onTile (fun x => { serving x with retiring := true }), 0, ?_⟩
  repeat' apply And.intro
  all_goals first | with_reducible rfl | decide | (show (_ : Nat) < _; decide) | rfl

theorem witness_tileRowsComplete_3 :
    ∃ (s : State) (site : SiteId) (routerOk : Bool), s.tiles.length = 64 ∧ (tileAt s site).state = .compute ∧ (¬ (routerOk = true ∧ hasBundle s site = true)) := by
  refine ⟨stocked, 0, false, ?_⟩
  repeat' apply And.intro
  all_goals first | with_reducible rfl | decide | (show (_ : Nat) < _; decide) | rfl

theorem witness_tileRowsComplete_4 :
    ∃ (s : State) (site : SiteId), s.tiles.length = 64 ∧ (tileAt s site).state ≠ .isolated := by
  refine ⟨stocked, 0, ?_⟩
  repeat' apply And.intro
  all_goals first | with_reducible rfl | decide | (show (_ : Nat) < _; decide) | rfl

theorem witness_tileRowsComplete_5 :
    ∃ (s : State) (site : SiteId) (copyError : Bool) (cs : _) (ct : _), s.tiles.length = 64 ∧ (tileAt s site).sampling = some cs ∧ (tileAt s site).samples = true ∧ (tileAt s site).katPassed = true ∧ nextCell (liveCells (tileAt s site)) cs = some ct := by
  refine ⟨onTile (fun x => { serving x with rotating := true, sampling := some 32, logical := List.range 32, katPassed := true }), 0, false, 32, 0, ?_⟩
  repeat' apply And.intro
  all_goals first | with_reducible rfl | decide | (show (_ : Nat) < _; decide) | rfl

theorem witness_tileRowsComplete_6 :
    ∃ (s : State) (site : SiteId) (k : _), s.tiles.length = 64 ∧ (tileAt s site).sampling = some k ∧ (tileAt s site).samples = true ∧ (tileAt s site).katPassed = false := by
  refine ⟨onTile (fun x => { serving x with rotating := true, sampling := some 32, logical := List.range 32, katPassed := false }), 0, 32, ?_⟩
  repeat' apply And.intro
  all_goals first | with_reducible rfl | decide | (show (_ : Nat) < _; decide) | rfl

theorem witness_tileRowsComplete_7 :
    ∃ (s : State) (site : SiteId) (k : _), s.tiles.length = 64 ∧ (tileAt s site).sampling = some k ∧ (tileAt s site).samples = true ∧ (tileAt s site).katPassed = false := by
  refine ⟨onTile (fun x => { serving x with rotating := true, sampling := some 32, logical := List.range 32, katPassed := false }), 0, 32, ?_⟩
  repeat' apply And.intro
  all_goals first | with_reducible rfl | decide | (show (_ : Nat) < _; decide) | rfl

theorem witness_tileRowsComplete_8 :
    ∃ (s : State) (site : SiteId), s.tiles.length = 64 ∧ (tileAt s site).state ≠ .isolated ∧ (tileAt s site).idValid = true := by
  refine ⟨stocked, 0, ?_⟩
  repeat' apply And.intro
  all_goals first | with_reducible rfl | decide | (show (_ : Nat) < _; decide) | rfl

theorem witness_tileRowsComplete_9 :
    ∃ (s : State) (core : CoreId), coreOut s core.val = false := by
  refine ⟨base, 3, ?_⟩
  repeat' apply And.intro
  all_goals first | with_reducible rfl | decide | (show (_ : Nat) < _; decide) | rfl

theorem witness_tileRowsComplete_10 :
    ∃ (s : State) (core : CoreId), coreOut s core.val = true := by
  refine ⟨{ base with flt := { base.flt with coresReset := [3] } }, 3, ?_⟩
  repeat' apply And.intro
  all_goals first | with_reducible rfl | decide | (show (_ : Nat) < _; decide) | rfl

theorem witness_tileRowsComplete_11 :
    ∃ (s : State) (site : SiteId), s.tiles.length = 64 ∧ (tileAt s site).draining = true ∧ (tileAt s site).drainAbandoned = false := by
  refine ⟨onTile (fun x => { serving x with draining := true }), 0, ?_⟩
  repeat' apply And.intro
  all_goals first | with_reducible rfl | decide | (show (_ : Nat) < _; decide) | rfl

theorem witness_tileRowsComplete_12 :
    ∃ (s : State) (site : SiteId), s.tiles.length = 64 ∧ (tileAt s site).draining = true ∧ (tileAt s site).drainAbandoned = true ∧ copiesAt s site = false ∧ memWaitsBy s (some site.val) (freshImages s (s.saveClusters site)) = false := by
  refine ⟨onTile (fun x => { serving x with draining := true, drainAbandoned := true }), 0, ?_⟩
  repeat' apply And.intro
  all_goals first | with_reducible rfl | decide | (show (_ : Nat) < _; decide) | rfl

theorem witness_cellarerRowsComplete_1 :
    ∃ (s : State) (loads : PlanLoads), s.boot.ready = true := by
  refine ⟨base, noLoads, ?_⟩
  repeat' apply And.intro
  all_goals first | with_reducible rfl | decide | (show (_ : Nat) < _; decide) | rfl

theorem witness_cellarerRowsComplete_2 :
    ∃ (s : State) (loads : PlanLoads), s.boot.ready = false := by
  refine ⟨State.reset, noLoads, ?_⟩
  repeat' apply And.intro
  all_goals first | with_reducible rfl | decide | (show (_ : Nat) < _; decide) | rfl

theorem witness_cellarerRowsComplete_3 :
    ∃ (s : State) (unit : Nat) (loads : List Nat) (u : _) (n : _), s.cel.units.find? (fun u => u.id == unit && u.site.isNone && workBegun s u.cid && !selftestRunning s) = some u ∧ chooseTile s (unitNow s u) loads = some n ∧ memWaitsBy s (some n) (clusterImage s u.cid u.op) = false ∧ accessSource s (some n) true (clusterImage s u.cid u.op) = none := by
  refine ⟨{ stocked with cel := { stocked.cel with units := [unit0 none] }, runs := [{ run0 0x0210 with begun := true }] }, 0, List.replicate 8 0, unit0 none, 0, ?_⟩
  repeat' apply And.intro
  all_goals first | with_reducible rfl | decide | (show (_ : Nat) < _; decide) | rfl

theorem witness_cellarerRowsComplete_4 :
    ∃ (s : State) (unit : Nat) (u : _), s.cel.units.find? (fun u => u.id == unit && u.site.isSome) = some u ∧ unitDone s u = true := by
  refine ⟨{ stocked with cel := { stocked.cel with units := [unit0 (some 0)] }, runs := [{ run0 0x0210 with opsDone := [0] }] }, 0, unit0 (some 0), ?_⟩
  repeat' apply And.intro
  all_goals first | with_reducible rfl | decide | (show (_ : Nat) < _; decide) | rfl

theorem witness_cellarerRowsComplete_5 :
    ∃ (s : State) (move : Nat) (m : _) (b : _), s.cel.moves.find? (fun m => m.id == move && !m.switched) = some m ∧ (s.trans.requests ++ s.trans.waiting).any (fun q => q.cid.isNone && q.block == some m.block) = false ∧ s.cel.blocks.find? (fun b => b.id == m.block) = some b ∧ (movePieces b m).2.any (movedToBad s) = false ∧ memWaits s ((movePieces b m).1 ++ (movePieces b m).2) = false ∧ accessSource s none true (movePieces b m).1 = none ∧ accessSource s none false (movePieces b m).2 = none := by
  refine ⟨{ stored with cxl := modAt stored.cxl 0 (fun p => { p with linkUp := true, state := .inService, mapped := 65536 }), cel := { stored.cel with blocks := [block0], moves := [move0 false] } }, 0, move0 false, block0, ?_⟩
  repeat' apply And.intro
  all_goals first | with_reducible rfl | decide | (show (_ : Nat) < _; decide) | rfl

theorem witness_cellarerRowsComplete_6 :
    ∃ (s : State) (move : Nat) (m : _), s.cel.moves.find? (fun m => m.id == move && m.switched) = some m ∧ s.runs.any (fun r => r.cid + 1 == m.readers) = false := by
  refine ⟨{ stored with cel := { stored.cel with blocks := [block0], moves := [move0 true] } }, 0, move0 true, ?_⟩
  repeat' apply And.intro
  all_goals first | with_reducible rfl | decide | (show (_ : Nat) < _; decide) | rfl

theorem witness_cellarerRowsComplete_7 :
    ∃ (s : State) (model : Fin 64), s.models.length = 64 ∧ (modelAt s model).state = .reloading ∧ (∀ x ∈ (modelAt s model).shards, x.lost = false) ∧ ((modelAt s model).cxlCopySource = true ∨ hostOpen s = true) ∧ memWaits s ((modelAt s model).shards.flatMap (·.stripes)) = false := by
  refine ⟨{ stocked with models := setAt stocked.models 0 { m0 with state := .reloading, shards := [shard0 false] } }, 0, ?_⟩
  repeat' apply And.intro
  all_goals first | with_reducible rfl | decide | (show (_ : Nat) < _; decide) | rfl

theorem witness_cellarerRowsComplete_8 :
    ∃ (s : State) (model : Fin 64) (u : _), s.models.length = 64 ∧ (modelAt s model).state = .reloading ∧ ((modelAt s model).cxlCopySource && (modelAt s model).shards.any (fun x => x.lost && x.copyLost)) = false ∧ (if (modelAt s model).cxlCopySource then memWaits s (((modelAt s model).shards.filter (·.lost)).flatMap (·.cxlCopy)) else !hostOpen s) = false ∧ ((modelAt s model).shards.filter (·.lost)).foldl (fun acc x => acc.bind (State.replaceShard model x.index x.epoch)) (some s) = some u ∧ memWaits s ((modelAt u model).shards.flatMap (·.stripes)) = false := by
  refine ⟨{ stocked with models := setAt stocked.models 0 { m0 with state := .reloading, shards := [shard0 true] } }, 0, (((modelAt ({ stocked with models := setAt stocked.models 0 { m0 with state := .reloading, shards := [shard0 true] } }) 0).shards.filter (·.lost)).foldl (fun acc x => acc.bind (State.replaceShard 0 x.index x.epoch)) (some ({ stocked with models := setAt stocked.models 0 { m0 with state := .reloading, shards := [shard0 true] } }))).getD ({ stocked with models := setAt stocked.models 0 { m0 with state := .reloading, shards := [shard0 true] } }), ?_⟩
  repeat' apply And.intro
  all_goals first | with_reducible rfl | decide | (show (_ : Nat) < _; decide) | rfl

theorem witness_cellarerRowsComplete_9 :
    ∃ (s : State) (model : Fin 64), s.models.length = 64 ∧ (modelAt s model).state = .reloading := by
  refine ⟨{ stocked with models := setAt stocked.models 0 { m0 with state := .reloading, shards := [shard0 true] } }, 0, ?_⟩
  repeat' apply And.intro
  all_goals first | with_reducible rfl | decide | (show (_ : Nat) < _; decide) | rfl

theorem witness_cellarerRowsComplete_10 :
    ∃ (s : State) (model : Fin 64) (k : Nat) (x : _), s.models.length = 64 ∧ (modelAt s model).shards.find? (fun x => x.index == k && x.spilled && !x.lost && x.atPeer.isNone) = some x ∧ k ∈ nextSpilled (modelAt s model) ∧ (∀ p ∈ (modelAt s model).prefetched, p.1 ≠ k) ∧ memWaits s (x.stripes ++ stagingPieces (modelAt s model) (stagingHalf (modelAt s model)) x.data.length) = false := by
  refine ⟨{ stocked with models := setAt stocked.models 0 { m0 with shards := [{ shard0 false with spilled := true }] } }, 0, 0, { shard0 false with spilled := true }, ?_⟩
  repeat' apply And.intro
  all_goals first | with_reducible rfl | decide | (show (_ : Nat) < _; decide) | rfl

theorem witness_kernelCommandsComplete_2 :
    ∃ (s : State) (cid : Nat) (c : _) (slots : List Byte) (params : List Byte) (i : _) (g : _) (k : _), ActsReading s cid 0x33 c ∧ launchOf s cid = none ∧ slots.length = 128 ∧ params.length = 256 ∧ kernelHandle s (c.arg 8 8) = some (i, g, k) ∧ selftestRunning (s.startCmd cid) = false ∧ (∀ l : Launch, l.slots = (List.range 16).map (fun j => field (8 * j) 8 slots) → l.kernel = k → usesBusy (s.startCmd cid) cid (launchUses s l).2 = false) ∧ (s.launches.filter (fun q => q.kernelIndex == i)).length + waitingOn (s.startCmd cid) 0x33 (c.arg 8 8) < 64 ∧ overloaded (s.startCmd cid) .mash = false ∧ slotsOk s k ((List.range 16).map (fun j => field (8 * j) 8 slots)) = true := by
  refine ⟨with1 { stocked with kernels := [(0, 1, kernel0)] } (cmd [(0, 1, 0x33), (8, 8, handleWord 3 1 0), (0x10, 4, 1)]), 1, cmd [(0, 1, 0x33), (8, 8, handleWord 3 1 0), (0x10, 4, 1)], List.replicate 128 0, List.replicate 256 0, 0, 1, kernel0, ?_⟩
  repeat' apply And.intro
  all_goals first | with_reducible rfl | decide | (show (_ : Nat) < _; decide) | rfl | (intro l _ _; rfl)

theorem witness_kernelCommandsComplete_3 :
    ∃ (s : State) (cid : Nat) (slots : List Byte) (params : List Byte) (l : _), launchOf s cid = some l ∧ l.begun = false ∧ usesWait s cid (launchUses s l).1 (launchUses s l).2 = false := by
  refine ⟨with1 { stocked with launches := [{ launch0 kernel0 warp0 with begun := false }] } (begun [(0, 1, 0x33)]), 1, [], [], { launch0 kernel0 warp0 with begun := false }, ?_⟩
  repeat' apply And.intro
  all_goals first | with_reducible rfl | decide | (show (_ : Nat) < _; decide) | rfl

theorem witness_kernelCommandsComplete_4 :
    ∃ (s : State) (cid : Nat) (c : _) (l : _), Live s cid c ∧ launchOf s cid = some l ∧ l.clusters.any (·.started) = true := by
  refine ⟨kstate kernel0 warp0, 1, begun [(0, 1, 0x33)], launch0 kernel0 warp0, ?_⟩
  repeat' apply And.intro
  all_goals first | with_reducible rfl | decide | (show (_ : Nat) < _; decide) | rfl

theorem witness_warpAndRegisterInstructionsComplete_1 :
    ∃ (s : State) (r : WarpRef) (x : _), Issues s r .nop x := by
  refine ⟨kstate (kernelOf (.nop) 0x0007FF0000000000) warp0, ref0, ctx (.nop) 0x0007FF0000000000 warp0, ?_⟩
  repeat' apply And.intro
  all_goals first | with_reducible rfl | decide | (show (_ : Nat) < _; decide) | rfl

theorem witness_warpAndRegisterInstructionsComplete_2 :
    ∃ (s : State) (r : WarpRef) (x : _), Issues s r .bra x ∧ (lanesLess x.w.active ((List.range 32).map (fun k => x.lanes.contains k))).any id = false := by
  refine ⟨kstate (kernelOf (.bra) 0x1007000000000000) warp0, ref0, ctx (.bra) 0x1007000000000000 warp0, ?_⟩
  repeat' apply And.intro
  all_goals first | with_reducible rfl | decide | (show (_ : Nat) < _; decide) | rfl

theorem witness_warpAndRegisterInstructionsComplete_3 :
    ∃ (s : State) (r : WarpRef) (x : _), Issues s r .bra x ∧ (lanesLess x.w.active ((List.range 32).map (fun k => x.lanes.contains k))).any id = true ∧ x.w.stack.length < 32 := by
  refine ⟨kstate (kernelOf (.bra) 0x1000000000000000) warpHalf, ref0, ctx (.bra) 0x1000000000000000 warpHalf, ?_⟩
  repeat' apply And.intro
  all_goals first | with_reducible rfl | decide | (show (_ : Nat) < _; decide) | rfl

theorem witness_warpAndRegisterInstructionsComplete_4 :
    ∃ (s : State) (r : WarpRef) (x : _), Issues s r .join x ∧ x.w.stack = [] := by
  refine ⟨kstate (kernelOf (.join) 0x0007000000000000) warp0, ref0, ctx (.join) 0x0007000000000000 warp0, ?_⟩
  repeat' apply And.intro
  all_goals first | with_reducible rfl | decide | (show (_ : Nat) < _; decide) | rfl

theorem witness_warpAndRegisterInstructionsComplete_5 :
    ∃ (s : State) (r : WarpRef) (x : _) (d : Diverged) (l : List Diverged), Issues s r .join x ∧ x.w.stack = d :: l ∧ d.join ≠ x.w.pc := by
  refine ⟨kstate (kernelOf (.join) 0x0007000000000000) (warpIn none 5), ref0, ctx (.join) 0x0007000000000000 (warpIn none 5), { join := 5, other := none, before := all32 }, [], ?_⟩
  repeat' apply And.intro
  all_goals first | with_reducible rfl | decide | (show (_ : Nat) < _; decide) | rfl

theorem witness_warpAndRegisterInstructionsComplete_6 :
    ∃ (s : State) (r : WarpRef) (x : _) (d : Diverged) (l : List Diverged) (p : Nat) (m : _), Issues s r .join x ∧ x.w.stack = d :: l ∧ d.join = x.w.pc ∧ d.other = some (p, m) ∧ m.any id = true := by
  refine ⟨kstate (kernelOf (.join) 0x0007000000000000) (warpIn (some (7, lane0)) 0), ref0, ctx (.join) 0x0007000000000000 (warpIn (some (7, lane0)) 0), { join := 0, other := some (7, lane0), before := all32 }, [], 7, lane0, ?_⟩
  repeat' apply And.intro
  all_goals first | with_reducible rfl | decide | (show (_ : Nat) < _; decide) | rfl

theorem witness_warpAndRegisterInstructionsComplete_7 :
    ∃ (s : State) (r : WarpRef) (x : _) (d : Diverged) (l : List Diverged), Issues s r .join x ∧ x.w.stack = d :: l ∧ d.join = x.w.pc ∧ (∀ p m, d.other = some (p, m) → m.any id = false) := by
  refine ⟨kstate (kernelOf (.join) 0x0007000000000000) (warpIn none 0), ref0, ctx (.join) 0x0007000000000000 (warpIn none 0), { join := 0, other := none, before := all32 }, [], ?_⟩
  repeat' apply And.intro
  all_goals first | with_reducible rfl | decide | (show (_ : Nat) < _; decide) | rfl | (intro p m h; cases h)

theorem witness_warpAndRegisterInstructionsComplete_8 :
    ∃ (s : State) (r : WarpRef) (x : _), Issues s r .exit x ∧ (x.w.dropLanes ((List.range 32).map (fun k => x.lanes.contains k))).active.any id = true := by
  refine ⟨kstate (kernelOf (.exit) 0x0000000000000000) warpHalf, ref0, ctx (.exit) 0x0000000000000000 warpHalf, ?_⟩
  repeat' apply And.intro
  all_goals first | with_reducible rfl | decide | (show (_ : Nat) < _; decide) | rfl

theorem witness_warpAndRegisterInstructionsComplete_9 :
    ∃ (s : State) (r : WarpRef) (x : _) (y : _), Issues s r .exit x ∧ y = x.w.dropLanes ((List.range 32).map (fun k => x.lanes.contains k)) ∧ y.active.any id = false ∧ (y.unwind y.stack).exited = false := by
  refine ⟨kstate (kernelOf (.exit) 0x0007000000000000) (warpRest), ref0, ctx (.exit) 0x0007000000000000 (warpRest), (ctx (.exit) 0x0007000000000000 (warpRest)).w.dropLanes ((List.range 32).map (fun k => (ctx (.exit) 0x0007000000000000 (warpRest)).lanes.contains k)), ?_⟩
  repeat' apply And.intro
  all_goals first | with_reducible rfl | decide | (show (_ : Nat) < _; decide) | rfl

theorem witness_warpAndRegisterInstructionsComplete_10 :
    ∃ (s : State) (r : WarpRef) (x : _) (y : _), Issues s r .exit x ∧ y = x.w.dropLanes ((List.range 32).map (fun k => x.lanes.contains k)) ∧ y.active.any id = false ∧ (y.unwind y.stack).exited = true := by
  refine ⟨kstate (kernelOf (.exit) 0x0007000000000000) (warp0), ref0, ctx (.exit) 0x0007000000000000 (warp0), (ctx (.exit) 0x0007000000000000 (warp0)).w.dropLanes ((List.range 32).map (fun k => (ctx (.exit) 0x0007000000000000 (warp0)).lanes.contains k)), ?_⟩
  repeat' apply And.intro
  all_goals first | with_reducible rfl | decide | (show (_ : Nat) < _; decide) | rfl

theorem witness_warpAndRegisterInstructionsComplete_11 :
    ∃ (s : State) (r : WarpRef) (op : IntOp) (x : _), Issues s r (.int op) x ∧ kImm x.word = true := by
  refine ⟨kstate (kernelOf (.int .add) 0x1807000000000000) warp0, ref0, .add, ctx (.int .add) 0x1807000000000000 warp0, ?_⟩
  repeat' apply And.intro
  all_goals first | with_reducible rfl | decide | (show (_ : Nat) < _; decide) | rfl

theorem witness_warpAndRegisterInstructionsComplete_12 :
    ∃ (s : State) (r : WarpRef) (op : IntOp) (x : _), Issues s r (.int op) x ∧ kImm x.word = false ∧ bits 7 0 x.word ≠ 1 := by
  refine ⟨kstate (kernelOf (.int .add) 0x1007000000000000) warp0, ref0, .add, ctx (.int .add) 0x1007000000000000 warp0, ?_⟩
  repeat' apply And.intro
  all_goals first | with_reducible rfl | decide | (show (_ : Nat) < _; decide) | rfl

theorem witness_warpAndRegisterInstructionsComplete_13 :
    ∃ (s : State) (r : WarpRef) (op : IntOp) (x : _), Issues s r (.int op) x ∧ kImm x.word = false ∧ bits 7 0 x.word = 1 := by
  refine ⟨kstate (kernelOf (.int .add) 0x1007000000000001) warp0, ref0, .add, ctx (.int .add) 0x1007000000000001 warp0, ?_⟩
  repeat' apply And.intro
  all_goals first | with_reducible rfl | decide | (show (_ : Nat) < _; decide) | rfl

theorem witness_warpAndRegisterInstructionsComplete_14 :
    ∃ (s : State) (r : WarpRef) (op : FpOp) (x : _), Issues s r (.fp op) x ∧ kImm x.word = true := by
  refine ⟨kstate (kernelOf (.fp .add) 0x2807000000000000) (warp0), ref0, .add, ctx (.fp .add) 0x2807000000000000 (warp0), ?_⟩
  repeat' apply And.intro
  all_goals first | with_reducible rfl | decide | (show (_ : Nat) < _; decide) | rfl

theorem witness_warpAndRegisterInstructionsComplete_15 :
    ∃ (s : State) (r : WarpRef) (op : FpOp) (x : _), Issues s r (.fp op) x ∧ kImm x.word = false ∧ bits 7 0 x.word ≠ 1 := by
  refine ⟨kstate (kernelOf (.fp .add) 0x2007000000000000) (warp0), ref0, .add, ctx (.fp .add) 0x2007000000000000 (warp0), ?_⟩
  repeat' apply And.intro
  all_goals first | with_reducible rfl | decide | (show (_ : Nat) < _; decide) | rfl

theorem witness_warpAndRegisterInstructionsComplete_16 :
    ∃ (s : State) (r : WarpRef) (op : FpOp) (x : _), Issues s r (.fp op) x ∧ kImm x.word = false ∧ bits 7 0 x.word = 1 ∧ (∀ v, op ≠ .cmp v) := by
  refine ⟨kstate (kernelOf (.fp .add) 0x2007000000000001) (warp0), ref0, .add, ctx (.fp .add) 0x2007000000000001 (warp0), ?_⟩
  repeat' apply And.intro
  all_goals first | with_reducible rfl | decide | (show (_ : Nat) < _; decide) | rfl | (intro v h; cases h)

theorem witness_warpAndRegisterInstructionsComplete_17 :
    ∃ (s : State) (r : _) (v : Rel) (x : _), Issues s r (.fp (.cmp v)) x ∧ kImm x.word = false ∧ bits 7 0 x.word = 1 := by
  refine ⟨kstate (kernelOf (.fp (.cmp .eq)) 0x2007000000000001) (warp0), ref0, .eq, ctx (.fp (.cmp .eq)) 0x2007000000000001 (warp0), ?_⟩
  repeat' apply And.intro
  all_goals first | with_reducible rfl | decide | (show (_ : Nat) < _; decide) | rfl

theorem witness_warpAndRegisterInstructionsComplete_18 :
    ∃ (s : State) (r : WarpRef) (src : CvtType) (dst : CvtType) (x : _) (n : _) (v : _), Issues s r (.cvt src dst) x ∧ n = (if bits 7 0 x.word = 1 then 64 else 32) ∧ (v = (fun ty : CvtType => if cvtIsInt ty then n / 32 else 1)) := by
  refine ⟨kstate (kernelOf (.cvt .fp32 .fp32) 0x0007000000000000) (warp0), ref0, .fp32, .fp32, ctx (.cvt .fp32 .fp32) 0x0007000000000000 (warp0), (if bits 7 0 (ctx (.cvt .fp32 .fp32) 0x0007000000000000 (warp0)).word = 1 then 64 else 32), (fun ty : CvtType => if cvtIsInt ty then ((if bits 7 0 (ctx (.cvt .fp32 .fp32) 0x0007000000000000 (warp0)).word = 1 then 64 else 32)) / 32 else 1), ?_⟩
  repeat' apply And.intro
  all_goals first | with_reducible rfl | decide | (show (_ : Nat) < _; decide) | rfl

theorem witness_warpAndRegisterInstructionsComplete_19 :
    ∃ (s : State) (r : WarpRef) (x : _), Issues s r .fence x := by
  refine ⟨kstate (kernelOf (.fence) 0x0007000000000000) warp0, ref0, ctx (.fence) 0x0007000000000000 warp0, ?_⟩
  repeat' apply And.intro
  all_goals first | with_reducible rfl | decide | (show (_ : Nat) < _; decide) | rfl

theorem witness_warpAndRegisterInstructionsComplete_20 :
    ∃ (s : State) (r : WarpRef) (code : _) (x : _), Issues s r (.sreg code) x := by
  refine ⟨kstate (kernelOf (.sreg 0) 0x0007000000000000) warp0, ref0, 0, ctx (.sreg 0) 0x0007000000000000 warp0, ?_⟩
  repeat' apply And.intro
  all_goals first | with_reducible rfl | decide | (show (_ : Nat) < _; decide) | rfl

theorem witness_warpAndRegisterInstructionsComplete_21 :
    ∃ (s : State) (r : WarpRef) (x : _), Issues s r .bar x ∧ (bits 11 5 x.word ≤ arrivals (setAt x.g.warps r.warp { x.w with waiting := some (bits 15 12 x.word, bits 11 5 x.word) }) (bits 15 12 x.word)) := by
  refine ⟨kstate (kernelOf (.bar) 0x0007000000000020) warp0, ref0, ctx (.bar) 0x0007000000000020 warp0, ?_⟩
  repeat' apply And.intro
  all_goals first | with_reducible rfl | decide | (show (_ : Nat) < _; decide) | rfl

theorem witness_warpAndRegisterInstructionsComplete_22 :
    ∃ (s : State) (r : WarpRef) (x : _), Issues s r .bar x ∧ (arrivals (setAt x.g.warps r.warp { x.w with waiting := some (bits 15 12 x.word, bits 11 5 x.word) }) (bits 15 12 x.word) < bits 11 5 x.word) := by
  refine ⟨kstate (kernelOf (.bar) 0x0007000000000040) warp0, ref0, ctx (.bar) 0x0007000000000040 warp0, ?_⟩
  repeat' apply And.intro
  all_goals first | with_reducible rfl | decide | (show (_ : Nat) < _; decide) | rfl

theorem witness_warpAndRegisterInstructionsComplete_23 :
    ∃ (s : State) (r : WarpRef) (x : _), Issues s r .waitCopy x ∧ x.w.counters.getD (bits 15 13 x.word) 0 ≤ bits 12 0 x.word := by
  refine ⟨kstate (kernelOf (.waitCopy) 0x0007000000000000) warp0, ref0, ctx (.waitCopy) 0x0007000000000000 warp0, ?_⟩
  repeat' apply And.intro
  all_goals first | with_reducible rfl | decide | (show (_ : Nat) < _; decide) | rfl

theorem witness_warpAndRegisterInstructionsComplete_24 :
    ∃ (s : State) (r : WarpRef) (x : _), Issues s r .waitCopy x ∧ bits 12 0 x.word < x.w.counters.getD (bits 15 13 x.word) 0 := by
  refine ⟨kstate (kernelOf (.waitCopy) 0x0007000000000000) (warpCopying), ref0, ctx (.waitCopy) 0x0007000000000000 (warpCopying), ?_⟩
  repeat' apply And.intro
  all_goals first | with_reducible rfl | decide | (show (_ : Nat) < _; decide) | rfl

theorem witness_warpAndRegisterInstructionsComplete_25 :
    ∃ (s : State) (r : _) (x : _) (c : Instr), warpCtx s r = some x ∧ x.lanes = [] ∧ RowOf r x.op c := by
  refine ⟨kstate (kernelOf (.fence) 0x0000000000000000) (warp0), ref0, ctx (.fence) 0x0000000000000000 (warp0), .fence ref0, ?_⟩
  repeat' apply And.intro
  all_goals first | with_reducible rfl | decide | (show (_ : Nat) < _; decide) | rfl | (simp [RowOf]; rfl)

theorem witness_kernelMemoryInstructionsComplete_1 :
    ∃ (s : State) (r : WarpRef) (x : _), Issues s r .ld x ∧ Reaches s x (kSpace x.word) (kSlot x.word) (kSize x.word) true false (x.lanes.map (fun k => (x.w.thread k).addr x.word)) := by
  refine ⟨kstateG (.ld) 0x0007010000004000 warp0, ref0, ctxG (.ld) 0x0007010000004000 warp0, ?_⟩
  repeat' apply And.intro
  all_goals first | with_reducible rfl | decide | (show (_ : Nat) < _; decide) | rfl

theorem witness_kernelMemoryInstructionsComplete_2 :
    ∃ (s : State) (r : WarpRef) (x : _) (l : _), Issues s r .st x ∧ l = x.lanes.map (fun k => ((x.w.thread k).addr x.word, leBytes (kSize x.word) ((x.w.thread k).words (kSrc1 x.word) ((kSize x.word + 3) / 4)))) ∧ Reaches s x (kSpace x.word) (kSlot x.word) (kSize x.word) false true (l.map (·.1)) := by
  refine ⟨kstateG (.st) 0x0007000001004000 warp0, ref0, ctxG (.st) 0x0007000001004000 warp0, (ctxG (.st) 0x0007000001004000 warp0).lanes.map (fun k => (((ctxG (.st) 0x0007000001004000 warp0).w.thread k).addr (ctxG (.st) 0x0007000001004000 warp0).word, leBytes (kSize (ctxG (.st) 0x0007000001004000 warp0).word) (((ctxG (.st) 0x0007000001004000 warp0).w.thread k).words (kSrc1 (ctxG (.st) 0x0007000001004000 warp0).word) ((kSize (ctxG (.st) 0x0007000001004000 warp0).word + 3) / 4)))), ?_⟩
  repeat' apply And.intro
  all_goals first | with_reducible rfl | decide | (show (_ : Nat) < _; decide) | rfl

theorem witness_kernelMemoryInstructionsComplete_3 :
    ∃ (s : State) (r : WarpRef) (op : AtomOp) (x : _) (ops : _) (f : _), Issues s r (.atom op) x ∧ (kSize x.word = 4 ∨ kSize x.word = 8) ∧ (kSpace x.word = 1 ∨ kSpace x.word = 2) ∧ ops = x.lanes.map (fun k => (k, (x.w.thread k).addr x.word, (x.w.thread k).words (kSrc1 x.word) (kSize x.word / 4), (x.w.thread k).words (kSrc1 x.word + kSize x.word / 4) (kSize x.word / 4))) ∧ f = atomFold op (kSize x.word) (fun o => spaceRead s x (kSpace x.word) (kSlot x.word) o (kSize x.word)) ops ([], []) ∧ Reaches s x (kSpace x.word) (kSlot x.word) (kSize x.word) true true (ops.map (fun p => p.2.1)) := by
  refine ⟨kstateG (.atom .add) 0x0007010001044000 warp0, ref0, .add, ctxG (.atom .add) 0x0007010001044000 warp0, (ctxG (.atom .add) 0x0007010001044000 warp0).lanes.map (fun k => (k, ((ctxG (.atom .add) 0x0007010001044000 warp0).w.thread k).addr (ctxG (.atom .add) 0x0007010001044000 warp0).word, ((ctxG (.atom .add) 0x0007010001044000 warp0).w.thread k).words (kSrc1 (ctxG (.atom .add) 0x0007010001044000 warp0).word) (kSize (ctxG (.atom .add) 0x0007010001044000 warp0).word / 4), ((ctxG (.atom .add) 0x0007010001044000 warp0).w.thread k).words (kSrc1 (ctxG (.atom .add) 0x0007010001044000 warp0).word + kSize (ctxG (.atom .add) 0x0007010001044000 warp0).word / 4) (kSize (ctxG (.atom .add) 0x0007010001044000 warp0).word / 4))), atomFold (.add) (kSize (ctxG (.atom .add) 0x0007010001044000 warp0).word) (fun o => spaceRead (kstateG (.atom .add) 0x0007010001044000 warp0) (ctxG (.atom .add) 0x0007010001044000 warp0) (kSpace (ctxG (.atom .add) 0x0007010001044000 warp0).word) (kSlot (ctxG (.atom .add) 0x0007010001044000 warp0).word) o (kSize (ctxG (.atom .add) 0x0007010001044000 warp0).word)) ((ctxG (.atom .add) 0x0007010001044000 warp0).lanes.map (fun k => (k, ((ctxG (.atom .add) 0x0007010001044000 warp0).w.thread k).addr (ctxG (.atom .add) 0x0007010001044000 warp0).word, ((ctxG (.atom .add) 0x0007010001044000 warp0).w.thread k).words (kSrc1 (ctxG (.atom .add) 0x0007010001044000 warp0).word) (kSize (ctxG (.atom .add) 0x0007010001044000 warp0).word / 4), ((ctxG (.atom .add) 0x0007010001044000 warp0).w.thread k).words (kSrc1 (ctxG (.atom .add) 0x0007010001044000 warp0).word + kSize (ctxG (.atom .add) 0x0007010001044000 warp0).word / 4) (kSize (ctxG (.atom .add) 0x0007010001044000 warp0).word / 4)))) ([], []), ?_⟩
  repeat' apply And.intro
  all_goals first | with_reducible rfl | decide | (show (_ : Nat) < _; decide) | rfl

theorem witness_kernelMemoryInstructionsComplete_4 :
    ∃ (s : State) (r : WarpRef) (toStore : Bool) (counter : Fin 8) (x : _) (off : _) (place : _) (len : _), Issues s r (.memCopy toStore counter) x ∧ off = x.lead.reg64 (kSrc0 x.word) ∧ place = x.lead.reg (kSrc1 x.word) ∧ len = x.lead.reg (kSrc1 x.word + 1) ∧ kSpace x.word ≤ 1 ∧ 16 ≤ len ∧ len ≤ 2 ^ 20 ∧ place + len ≤ spaceSize s x (kSpace x.word) (kSlot x.word) ∧ off + len ≤ spaceSize s x 2 (kSlot x.word) ∧ (toStore = true ∨ (x.l.kernel.slots.getD (kSlot x.word) (0, 0, 0)).2.1 = 2) := by
  refine ⟨kstateG (.memCopy true 7) 0x0007000002000000 warpCopy, ref0, true, 7, ctxG (.memCopy true 7) 0x0007000002000000 warpCopy, (ctxG (.memCopy true 7) 0x0007000002000000 warpCopy).lead.reg64 (kSrc0 (ctxG (.memCopy true 7) 0x0007000002000000 warpCopy).word), (ctxG (.memCopy true 7) 0x0007000002000000 warpCopy).lead.reg (kSrc1 (ctxG (.memCopy true 7) 0x0007000002000000 warpCopy).word), (ctxG (.memCopy true 7) 0x0007000002000000 warpCopy).lead.reg (kSrc1 (ctxG (.memCopy true 7) 0x0007000002000000 warpCopy).word + 1), ?_⟩
  repeat' apply And.intro
  all_goals first | with_reducible rfl | decide | (show (_ : Nat) < _; decide) | rfl

theorem witness_kernelMemoryInstructionsComplete_5 :
    ∃ (s : State) (r : WarpRef) (copy : Nat) (l : Launch) (c : Cluster) (g : Group) (y : Warp) (q : Copy) (x : KCtx), warpAt s r = some (l, c, g, y) ∧ y.copies[copy]? = some q ∧ y.exited = false ∧ y.waiting = none ∧ (x = ({ ref := r, l := l, c := c, g := g, w := y, op := .nop, word := 0 } : KCtx)) ∧ (q.toStore = true ∨ l.error = none) ∧ memWaitsBy s c.site (slotPieces s x q.slot q.offset q.len) = false ∧ accessSource s c.site q.toStore (slotPieces s x q.slot q.offset q.len) = none := by
  refine ⟨kstateG .nop 0x0007000000000000 (warpCopying), ref0, 0, launchG .nop 0x0007000000000000 (warpCopying), cluster0 (warpCopying), group0 (warpCopying), warpCopying, copy0, { ref := ref0, l := launchG .nop 0x0007000000000000 (warpCopying), c := cluster0 (warpCopying), g := group0 (warpCopying), w := warpCopying, op := .nop, word := 0 }, ?_⟩
  repeat' apply And.intro
  all_goals first | with_reducible rfl | decide | (show (_ : Nat) < _; decide) | rfl | (exact Or.inl rfl)

theorem witness_kernelMemoryInstructionsComplete_6 :
    ∃ (s : State) (r : WarpRef) (copy : Nat) (l : Launch) (c : Cluster) (g : Group) (y : Warp) (q : Copy) (x : KCtx), warpAt s r = some (l, c, g, y) ∧ y.copies[copy]? = some q ∧ (y.exited = true ∨ y.waiting.isSome = true) ∧ (x = ({ ref := r, l := l, c := c, g := g, w := y, op := .nop, word := 0 } : KCtx)) ∧ (q.toStore = true ∨ l.error = none) ∧ memWaitsBy s c.site (slotPieces s x q.slot q.offset q.len) = false ∧ accessSource s c.site q.toStore (slotPieces s x q.slot q.offset q.len) = none := by
  refine ⟨kstateG .nop 0x0007000000000000 ({ warpCopying with exited := true }), ref0, 0, launchG .nop 0x0007000000000000 ({ warpCopying with exited := true }), cluster0 ({ warpCopying with exited := true }), group0 ({ warpCopying with exited := true }), { warpCopying with exited := true }, copy0, { ref := ref0, l := launchG .nop 0x0007000000000000 ({ warpCopying with exited := true }), c := cluster0 ({ warpCopying with exited := true }), g := group0 ({ warpCopying with exited := true }), w := { warpCopying with exited := true }, op := .nop, word := 0 }, ?_⟩
  repeat' apply And.intro
  all_goals first | with_reducible rfl | decide | (show (_ : Nat) < _; decide) | rfl | (exact Or.inl rfl)

theorem witness_kernelMemoryInstructionsComplete_7 :
    ∃ (s : State) (r : WarpRef) (x : _), Issues s r .cvtBlk x ∧ x.lead.reg (kSrc0 x.word) + (cvtBlkImage x).1.length ≤ x.l.kernel.cellStore ∧ x.lead.reg (kSrc0 x.word + 1) + 1 ≤ x.l.kernel.cellStore := by
  refine ⟨kstateG (.cvtBlk) 0x0007000001020300 warp0, ref0, ctxG (.cvtBlk) 0x0007000001020300 warp0, ?_⟩
  repeat' apply And.intro
  all_goals first | with_reducible rfl | decide | (show (_ : Nat) < _; decide) | rfl

theorem witness_accumulatorInstructionsComplete_1 :
    ∃ (s : State) (r : WarpRef) (x : _) (fa : _) (fb : _) (as : List (List Elem)) (bs : List (List Elem)) (tile : AccTile) (residue : Residue) (seen : Residue) (u : AccTile), Issues s r .mma x ∧ x.lanes.length = 32 ∧ fa = bits 18 15 x.word ∧ fb = bits 14 11 x.word ∧ baseOk x.l.kernel.accUnits (wantExact s x (bit 10 x.word)) (bits 23 19 x.word) = true ∧ operandCode x fa ((x.w.thread 0).reg (kSrc0 x.word)) ((x.w.thread 0).reg (kSrc0 x.word + 1)) = none ∧ operandCode x fb ((x.w.thread 0).reg (kSrc1 x.word)) ((x.w.thread 0).reg (kSrc1 x.word + 1)) = none ∧ as = (List.range 32).map (operandRow x.g.store fa ((x.w.thread 0).reg (kSrc0 x.word)) ((x.w.thread 0).reg (kSrc0 x.word + 1))) ∧ bs = (List.range 32).map (operandRow x.g.store fb ((x.w.thread 0).reg (kSrc1 x.word)) ((x.w.thread 0).reg (kSrc1 x.word + 1))) ∧ (if bit 9 x.word then some (freshTile (bits 23 19 x.word) (wantExact s x (bit 10 x.word))) else x.g.tileAt (bits 23 19 x.word) (wantExact s x (bit 10 x.word))) = some tile ∧ tile.exact = wantExact s x (bit 10 x.word) ∧ seen = injectedResidue s (x.physical s).1 residue ∧ u = stepTile (if tile.exact = true then skippedElement s seen else none) fa fb as bs tile ∧ u.within := by
  refine ⟨kstateG (.mma) 0x0007000000059E00 warp0, ref0, ctxG (.mma) 0x0007000000059E00 warp0, bits 18 15 (ctxG (.mma) 0x0007000000059E00 warp0).word, bits 14 11 (ctxG (.mma) 0x0007000000059E00 warp0).word, (List.range 32).map (operandRow (ctxG (.mma) 0x0007000000059E00 warp0).g.store (bits 18 15 (ctxG (.mma) 0x0007000000059E00 warp0).word) (((ctxG (.mma) 0x0007000000059E00 warp0).w.thread 0).reg (kSrc0 (ctxG (.mma) 0x0007000000059E00 warp0).word)) (((ctxG (.mma) 0x0007000000059E00 warp0).w.thread 0).reg (kSrc0 (ctxG (.mma) 0x0007000000059E00 warp0).word + 1))), (List.range 32).map (operandRow (ctxG (.mma) 0x0007000000059E00 warp0).g.store (bits 14 11 (ctxG (.mma) 0x0007000000059E00 warp0).word) (((ctxG (.mma) 0x0007000000059E00 warp0).w.thread 0).reg (kSrc1 (ctxG (.mma) 0x0007000000059E00 warp0).word)) (((ctxG (.mma) 0x0007000000059E00 warp0).w.thread 0).reg (kSrc1 (ctxG (.mma) 0x0007000000059E00 warp0).word + 1))), freshTile 0 false, Residue.clean, injectedResidue (kstateG (.mma) 0x0007000000059E00 warp0) ((ctxG (.mma) 0x0007000000059E00 warp0).physical (kstateG (.mma) 0x0007000000059E00 warp0)).1 (Residue.clean), stepTile (if (freshTile 0 false).exact = true then skippedElement (kstateG (.mma) 0x0007000000059E00 warp0) (injectedResidue (kstateG (.mma) 0x0007000000059E00 warp0) ((ctxG (.mma) 0x0007000000059E00 warp0).physical (kstateG (.mma) 0x0007000000059E00 warp0)).1 (Residue.clean)) else none) (bits 18 15 (ctxG (.mma) 0x0007000000059E00 warp0).word) (bits 14 11 (ctxG (.mma) 0x0007000000059E00 warp0).word) ((List.range 32).map (operandRow (ctxG (.mma) 0x0007000000059E00 warp0).g.store (bits 18 15 (ctxG (.mma) 0x0007000000059E00 warp0).word) (((ctxG (.mma) 0x0007000000059E00 warp0).w.thread 0).reg (kSrc0 (ctxG (.mma) 0x0007000000059E00 warp0).word)) (((ctxG (.mma) 0x0007000000059E00 warp0).w.thread 0).reg (kSrc0 (ctxG (.mma) 0x0007000000059E00 warp0).word + 1)))) ((List.range 32).map (operandRow (ctxG (.mma) 0x0007000000059E00 warp0).g.store (bits 14 11 (ctxG (.mma) 0x0007000000059E00 warp0).word) (((ctxG (.mma) 0x0007000000059E00 warp0).w.thread 0).reg (kSrc1 (ctxG (.mma) 0x0007000000059E00 warp0).word)) (((ctxG (.mma) 0x0007000000059E00 warp0).w.thread 0).reg (kSrc1 (ctxG (.mma) 0x0007000000059E00 warp0).word + 1)))) (freshTile 0 false), ?_⟩
  repeat' apply And.intro
  all_goals first | with_reducible rfl | decide | (show (_ : Nat) < _; decide) | rfl

theorem witness_accumulatorInstructionsComplete_2 :
    ∃ (s : State) (r : WarpRef) (x : _), Issues s r .accZero x ∧ baseOk x.l.kernel.accUnits (wantExact s x (bit 10 x.word)) (bits 15 11 x.word) = true := by
  refine ⟨kstateG (.accZero) 0x0007000000000000 warp0, ref0, ctxG (.accZero) 0x0007000000000000 warp0, ?_⟩
  repeat' apply And.intro
  all_goals first | with_reducible rfl | decide | (show (_ : Nat) < _; decide) | rfl

theorem witness_accumulatorInstructionsComplete_3 :
    ∃ (s : State) (r : WarpRef) (x : _) (tile : _), Issues s r .accStore x ∧ x.accTile s (kDst x.word) = some tile ∧ x.lead.reg (kSrc0 x.word) + (accStoreImage x tile).length ≤ x.l.kernel.cellStore := by
  refine ⟨kstateG (.accStore) 0x0007000000000000 warp0, ref0, ctxG (.accStore) 0x0007000000000000 warp0, tileE, ?_⟩
  repeat' apply And.intro
  all_goals first | with_reducible rfl | decide | (show (_ : Nat) < _; decide) | rfl

theorem witness_accumulatorInstructionsComplete_4 :
    ∃ (s : State) (r : WarpRef) (x : _) (tile : _), Issues s r .accExport x ∧ x.accTile s (kDst x.word) = some tile ∧ bits 15 14 x.word ≤ 1 ∧ x.lead.reg (kSrc0 x.word) + tile.image.length ≤ spaceSize s x (bits 15 14 x.word) 0 := by
  refine ⟨kstateG (.accExport) 0x0007080000000000 warp0, ref0, ctxG (.accExport) 0x0007080000000000 warp0, tileF, ?_⟩
  repeat' apply And.intro
  all_goals first | with_reducible rfl | decide | (show (_ : Nat) < _; decide) | rfl

theorem witness_accumulatorInstructionsComplete_5 :
    ∃ (s : State) (r : WarpRef) (x : _) (tile : _) (m : _), Issues s r .accMerge x ∧ x.accTile s (kDst x.word) = some tile ∧ m = mergeTile s x (bits 15 14 x.word) (x.lead.reg (kSrc0 x.word)) tile ∧ x.lead.reg (kSrc0 x.word) + 1024 * (if tile.exact then 48 else 4) ≤ spaceSize s x (bits 15 14 x.word) 0 ∧ m.1.within := by
  refine ⟨kstateG (.accMerge) 0x0007080000000000 warp0, ref0, ctxG (.accMerge) 0x0007080000000000 warp0, tileF, mergeTile (kstateG (.accMerge) 0x0007080000000000 warp0) (ctxG (.accMerge) 0x0007080000000000 warp0) (bits 15 14 (ctxG (.accMerge) 0x0007080000000000 warp0).word) ((ctxG (.accMerge) 0x0007080000000000 warp0).lead.reg (kSrc0 (ctxG (.accMerge) 0x0007080000000000 warp0).word)) (tileF), ?_⟩
  repeat' apply And.intro
  all_goals first | with_reducible rfl | decide | (show (_ : Nat) < _; decide) | rfl

theorem witness_accumulatorInstructionsComplete_6 :
    ∃ (s : State) (r : WarpRef) (x : _) (tile : _) (l : _), Issues s r .accDeposit x ∧ x.g.tileAt (kDst x.word) true = some tile ∧ tile.exact = true ∧ l = (x.lanes.drop (bnat (s.flt.injecting (srcId 1 (x.physical s).1 3)))).foldl (fun l k => modAt l ((x.w.thread k).reg (kSrc1 x.word) % 1024) (Acc.add (fval ((x.w.thread k).reg (kSrc0 x.word))))) tile.records ∧ (({ tile with records := l } : AccTile).within) := by
  refine ⟨kstateG (.accDeposit) 0x0007000000000000 warp0, ref0, ctxG (.accDeposit) 0x0007000000000000 warp0, tileE, ((ctxG (.accDeposit) 0x0007000000000000 warp0).lanes.drop (bnat ((kstateG (.accDeposit) 0x0007000000000000 warp0).flt.injecting (srcId 1 ((ctxG (.accDeposit) 0x0007000000000000 warp0).physical (kstateG (.accDeposit) 0x0007000000000000 warp0)).1 3)))).foldl (fun l k => modAt l (((ctxG (.accDeposit) 0x0007000000000000 warp0).w.thread k).reg (kSrc1 (ctxG (.accDeposit) 0x0007000000000000 warp0).word) % 1024) (Acc.add (fval (((ctxG (.accDeposit) 0x0007000000000000 warp0).w.thread k).reg (kSrc0 (ctxG (.accDeposit) 0x0007000000000000 warp0).word))))) (tileE).records, ?_⟩
  repeat' apply And.intro
  all_goals first | with_reducible rfl | decide | (show (_ : Nat) < _; decide) | rfl

theorem witness_ringRowsComplete_1 :
    ∃ (s : State) (ring : RingNo) (value : Word), hostReach s = true ∧ ring.val < s.host.rings.length ∧ (ringAt s ring).state = .disabled ∧ bit 31 value.toNat = true ∧ (ringAt s ring).sqBase ≠ 0 ∧ (ringAt s ring).cqBase ≠ 0 ∧ 4 ≤ bits 20 16 value.toNat ∧ bits 20 16 value.toNat ≤ 16 := by
  refine ⟨onRing (fun x => { x with sqBase := 0x1000, cqBase := 0x2000 }), 0, 0x80100000, ?_⟩
  repeat' apply And.intro
  all_goals first | with_reducible rfl | decide | (show (_ : Nat) < _; decide) | rfl

theorem witness_ringRowsComplete_2 :
    ∃ (s : State) (ring : RingNo) (value : Word), hostReach s = true ∧ ring.val < s.host.rings.length ∧ (ringAt s ring).state = .enabled ∧ bit 31 value.toNat = false := by
  refine ⟨onRing ringOn, 0, 0, ?_⟩
  repeat' apply And.intro
  all_goals first | with_reducible rfl | decide | (show (_ : Nat) < _; decide) | rfl

theorem witness_ringRowsComplete_3 :
    ∃ (s : State) (ring : RingNo) (value : Word), hostReach s = true ∧ ring.val < s.host.rings.length ∧ (ringAt s ring).state = .enabled ∧ value.toNat < (ringAt s ring).entries := by
  refine ⟨onRing ringOn, 0, 15, ?_⟩
  repeat' apply And.intro
  all_goals first | with_reducible rfl | decide | (show (_ : Nat) < _; decide) | rfl

theorem witness_ringRowsComplete_4 :
    ∃ (s : State) (ring : RingNo) (value : Word) (used : _), hostReach s = true ∧ ring.val < s.host.rings.length ∧ (ringAt s ring).state ≠ .disabled ∧ value.toNat < (ringAt s ring).entries ∧ used = (value.toNat + (ringAt s ring).entries - (ringAt s ring).cqHead) % (ringAt s ring).entries ∧ used ≤ ((ringAt s ring).cqTail + (ringAt s ring).entries - (ringAt s ring).cqHead) % (ringAt s ring).entries := by
  refine ⟨onRing (fun x => { ringOn x with cqTail := 1, inFlight := 1 }), 0, 1, 1, ?_⟩
  repeat' apply And.intro
  all_goals first | with_reducible rfl | decide | (show (_ : Nat) < _; decide) | rfl

theorem witness_ringRowsComplete_5 :
    ∃ (s : State) (ring : RingNo) (desc : List Byte), ring.val < s.host.rings.length ∧ fetching s = true ∧ arbiter s = some ring.val ∧ desc.length = 64 ∧ bit 0 (field 2 1 desc) = (ringAt s ring).lap ∧ field 1 1 desc = (ringAt s ring).aliveExpected ∧ staticChecks s.boot.ready desc = none ∧ mustWait s ring (bit 2 (field 2 1 desc)) = false ∧ (∀ c ∈ s.host.cmds, c.cid ≠ s.host.nextCid) := by
  refine ⟨onRing ringOn, 0, nopDesc, ?_⟩
  repeat' apply And.intro
  all_goals first | with_reducible rfl | decide | (show (_ : Nat) < _; decide) | rfl

theorem witness_ringRowsComplete_6 :
    ∃ (s : State) (ring : RingNo) (desc : List Byte), ring.val < s.host.rings.length ∧ fetching s = true ∧ arbiter s = some ring.val ∧ desc.length = 64 ∧ bit 0 (field 2 1 desc) = (ringAt s ring).lap ∧ field 1 1 desc = (ringAt s ring).aliveExpected ∧ staticChecks s.boot.ready desc = none ∧ mustWait s ring (bit 2 (field 2 1 desc)) = true ∧ (∀ c ∈ s.host.cmds, c.cid ≠ s.host.nextCid) := by
  refine ⟨{ onRing ringOn with host := { (onRing ringOn).host with cmds := [cmd [(0, 1, 1)]] } }, 0, nopFence, ?_⟩
  repeat' apply And.intro
  all_goals first | with_reducible rfl | decide | (show (_ : Nat) < _; decide) | rfl

theorem witness_ringRowsComplete_7 :
    ∃ (s : State) (cid : Nat) (c : _), cmdAt s cid = some c ∧ c.seq = none ∧ c.done = none ∧ (bit 2 (c.arg 2 1) && !(s.host.cmds.filter (fun d => d.ring == c.ring && decide (d.cid < cid))).isEmpty) = false ∧ (s.host.cmds.filter (fun d => d.ring == c.ring && decide (d.cid < cid))).any (fun d => bit 2 (d.arg 2 1)) = false := by
  refine ⟨with1 base { cmd [(0, 1, 1)] with seq := none }, 1, { cmd [(0, 1, 1)] with seq := none }, ?_⟩
  repeat' apply And.intro
  all_goals first | with_reducible rfl | decide | (show (_ : Nat) < _; decide) | rfl

theorem witness_ringRowsComplete_8 :
    ∃ (s : State) (cid : Nat) (e : Cmd) (c : Cmd) (d : _), cmdAt s cid = some e ∧ (c = (if e.seq.isSome then e else { e with seq := some s.host.acceptSeq.toNat })) ∧ e.done = some d ∧ (s.host.forcing ≠ some cid ∨ s.host.cmds.length = 1) ∧ (¬ (c.opcode = 0x7E ∧ d.status = .ok)) ∧ c.ring < s.host.rings.length ∧ hostOpen s = true := by
  refine ⟨with1 base { cmd [(0, 1, 1)] with done := some doneOk }, 1, { cmd [(0, 1, 1)] with done := some doneOk }, (if ({ cmd [(0, 1, 1)] with done := some doneOk }).seq.isSome then ({ cmd [(0, 1, 1)] with done := some doneOk }) else { ({ cmd [(0, 1, 1)] with done := some doneOk }) with seq := some (with1 base { cmd [(0, 1, 1)] with done := some doneOk }).host.acceptSeq.toNat }), doneOk, ?_⟩
  repeat' apply And.intro
  all_goals first | with_reducible rfl | decide | (show (_ : Nat) < _; decide) | rfl | (exact Or.inl (by decide))

theorem witness_ringRowsComplete_9 :
    ∃ (s : State) (cid : Nat) (c : _) (d : _), cmdAt s cid = some c ∧ c.done = some d ∧ (s.host.forcing ≠ some cid ∨ s.host.cmds.length = 1) ∧ c.opcode = 0x7E ∧ d.status = .ok := by
  refine ⟨with1 base { cmd [(0, 1, 0x7E)] with done := some doneOk }, 1, { cmd [(0, 1, 0x7E)] with done := some doneOk }, doneOk, ?_⟩
  repeat' apply And.intro
  all_goals first | with_reducible rfl | decide | (show (_ : Nat) < _; decide) | rfl

theorem witness_ringRowsComplete_10 :
    ∃ (s : State) (ring : RingNo), ring.val < s.host.rings.length ∧ (ringAt s ring).liveEnable = true ∧ (ringAt s ring).irqArmed = true ∧ (ringAt s ring).liveDelay ≠ 0 ∧ 0 < (ringAt s ring).unsignalled := by
  refine ⟨onRing (fun x => { ringOn x with liveEnable := true, irqArmed := true, liveDelay := 1, unsignalled := 1 }), 0, ?_⟩
  repeat' apply And.intro
  all_goals first | with_reducible rfl | decide | (show (_ : Nat) < _; decide) | rfl

theorem witness_hostLinkRowsComplete_1 :
    ∃ (s : State) (v : Fin 2048), hostReach s = true := by
  refine ⟨base, 0, ?_⟩
  repeat' apply And.intro
  all_goals first | with_reducible rfl | decide | (show (_ : Nat) < _; decide) | rfl

theorem witness_hostLinkRowsComplete_2 :
    ∃ (s : State), configReach s = true := by
  refine ⟨base, ?_⟩
  repeat' apply And.intro
  all_goals first | with_reducible rfl | decide | (show (_ : Nat) < _; decide) | rfl

theorem witness_hostLinkRowsComplete_3 :
    ∃ (s : State) (off : Nat) (n : Nat), hostReach s = true ∧ s.boot.ready = true ∧ bar4Waits s off n = false := by
  refine ⟨apertured, 0, 4, ?_⟩
  repeat' apply And.intro
  all_goals first | with_reducible rfl | decide | (show (_ : Nat) < _; decide) | rfl

theorem witness_hostLinkRowsComplete_4 :
    ∃ (s : State) (off : Nat) (n : Nat), hostReach s = true ∧ s.boot.ready = false := by
  refine ⟨{ base with boot := { base.boot with ready := false } }, 0, 4, ?_⟩
  repeat' apply And.intro
  all_goals first | with_reducible rfl | decide | (show (_ : Nat) < _; decide) | rfl

theorem witness_hostLinkRowsComplete_5 :
    ∃ (s : State) (off : Nat) (data : List Byte), hostReach s = true ∧ s.boot.ready = true ∧ bar4Ok s off data.length = true ∧ bar4Unmapped s off data.length = false ∧ bar4Waits s off data.length = false ∧ off / (2 ^ s.host.bar4Log2 / 16) = (off + data.length - 1) / (2 ^ s.host.bar4Log2 / 16) := by
  refine ⟨apertured, 65532, [1, 2, 3, 4], ?_⟩
  repeat' apply And.intro
  all_goals first | with_reducible rfl | decide | (show (_ : Nat) < _; decide) | rfl

theorem witness_hostLinkRowsComplete_6 :
    ∃ (s : State) (off : Nat) (data : List Byte), hostReach s = true ∧ s.boot.ready = true := by
  refine ⟨apertured, 65532, [1, 2, 3, 4], ?_⟩
  repeat' apply And.intro
  all_goals first | with_reducible rfl | decide | (show (_ : Nat) < _; decide) | rfl

theorem witness_hostLinkRowsComplete_7 :
    ∃ (s : State), configReach s = true := by
  refine ⟨base, ?_⟩
  repeat' apply And.intro
  all_goals first | with_reducible rfl | decide | (show (_ : Nat) < _; decide) | rfl

theorem witness_hostLinkRowsComplete_8 :
    ∃ (s : State), s.host.linkUp = true ∧ s.pins.perst = false := by
  refine ⟨base, ?_⟩
  repeat' apply And.intro
  all_goals first | with_reducible rfl | decide | (show (_ : Nat) < _; decide) | rfl

theorem witness_hostLinkRowsComplete_9 :
    ∃ (s : State) (width : Nat) (rate : Nat), (width = 16 ∨ width = 8 ∨ width = 4) ∧ 1 ≤ rate ∧ rate ≤ 6 ∧ s.pins.perst = false ∧ s.boot.everReset = true := by
  refine ⟨base, 4, 6, ?_⟩
  repeat' apply And.intro
  all_goals first | with_reducible rfl | decide | (show (_ : Nat) < _; decide) | rfl | (exact Or.inr (Or.inr rfl))

theorem witness_hostLinkRowsComplete_10 :
    ∃ (s : State) (cid : Nat), hostReadDue s (.command cid) = true ∧ s.host.linkUp = true ∧ NoneFailed s cid := by
  refine ⟨with1 base (cmd [(0, 1, 0x10)]), 1, ?_⟩
  repeat' apply And.intro
  all_goals first | with_reducible rfl | decide | (show (_ : Nat) < _; decide) | rfl | ((intro r h; cases h))

theorem witness_hostLinkRowsComplete_11 :
    ∃ (s : State) (cid : Nat) (c : _) (o : ReadOutcome), Live s cid c ∧ NoneFailed s cid ∧ hostReadDue s (.command cid) = true ∧ s.host.linkUp = true ∧ o ≠ .poisoned := by
  refine ⟨with1 base (cmd [(0, 1, 0x10)]), 1, cmd [(0, 1, 0x10)], .completerAbort, ?_⟩
  repeat' apply And.intro
  all_goals first | with_reducible rfl | decide | (show (_ : Nat) < _; decide) | rfl | ((intro r h; cases h))

theorem witness_hostLinkRowsComplete_12 :
    ∃ (s : State) (ring : RingNo) (o : ReadOutcome), hostReadDue s (.fetch ring) = true ∧ ring.val < s.host.rings.length ∧ s.host.linkUp = true := by
  refine ⟨onRing ringOn, 0, .completerAbort, ?_⟩
  repeat' apply And.intro
  all_goals first | with_reducible rfl | decide | (show (_ : Nat) < _; decide) | rfl

theorem witness_hostLinkRowsComplete_13 :
    ∃ (s : State) (cid : Nat) (c : _), Live s cid c ∧ NoneFailed s cid ∧ hostReadDue s (.command cid) = true ∧ s.host.linkUp = true := by
  refine ⟨with1 base (cmd [(0, 1, 0x10)]), 1, cmd [(0, 1, 0x10)], ?_⟩
  repeat' apply And.intro
  all_goals first | with_reducible rfl | decide | (show (_ : Nat) < _; decide) | rfl | ((intro r h; cases h))

theorem witness_hostLinkRowsComplete_14 :
    ∃ (s : State) (ring : RingNo), hostReadDue s (.fetch ring) = true ∧ ring.val < s.host.rings.length ∧ s.host.linkUp = true := by
  refine ⟨onRing ringOn, 0, ?_⟩
  repeat' apply And.intro
  all_goals first | with_reducible rfl | decide | (show (_ : Nat) < _; decide) | rfl

theorem witness_hostLinkRowsComplete_15 :
    ∃ (s : State) (on : Bool), configReach s = true := by
  refine ⟨base, true, ?_⟩
  repeat' apply And.intro
  all_goals first | with_reducible rfl | decide | (show (_ : Nat) < _; decide) | rfl

theorem witness_hostLinkRowsComplete_16 :
    ∃ (s : State) (on : Bool), configReach s = true := by
  refine ⟨base, true, ?_⟩
  repeat' apply And.intro
  all_goals first | with_reducible rfl | decide | (show (_ : Nat) < _; decide) | rfl

theorem witness_hostLinkRowsComplete_17 :
    ∃ (s : State) (k : Nat), configReach s = true ∧ 28 ≤ k ∧ k ≤ 36 := by
  refine ⟨base, 28, ?_⟩
  repeat' apply And.intro
  all_goals first | with_reducible rfl | decide | (show (_ : Nat) < _; decide) | rfl

theorem witness_hostLinkRowsComplete_18 :
    ∃ (s : State) (on : Bool), configReach s = true := by
  refine ⟨base, true, ?_⟩
  repeat' apply And.intro
  all_goals first | with_reducible rfl | decide | (show (_ : Nat) < _; decide) | rfl

theorem witness_hostLinkRowsComplete_19 :
    ∃ (s : State) (v : Nat) (on : Bool), configReach s = true ∧ v < 2048 := by
  refine ⟨base, 2047, true, ?_⟩
  repeat' apply And.intro
  all_goals first | with_reducible rfl | decide | (show (_ : Nat) < _; decide) | rfl

theorem witness_hostLinkRowsComplete_20 :
    ∃ (s : State) (on : Bool), configReach s = true := by
  refine ⟨base, true, ?_⟩
  repeat' apply And.intro
  all_goals first | with_reducible rfl | decide | (show (_ : Nat) < _; decide) | rfl

theorem witness_hostLinkRowsComplete_21 :
    ∃ (s : State) (c : Bool) (n : Bool) (f : Bool), configReach s = true := by
  refine ⟨base, true, false, true, ?_⟩
  repeat' apply And.intro
  all_goals first | with_reducible rfl | decide | (show (_ : Nat) < _; decide) | rfl

theorem witness_hostLinkRowsComplete_22 :
    ∃ (s : State) (c : Bool) (n : Bool) (f : Bool), configReach s = true := by
  refine ⟨base, true, false, true, ?_⟩
  repeat' apply And.intro
  all_goals first | with_reducible rfl | decide | (show (_ : Nat) < _; decide) | rfl

theorem witness_hostLinkRowsComplete_23 :
    ∃ (s : State) (w : ConfigChange), configReach s = false := by
  refine ⟨State.reset, .busMaster true, ?_⟩
  repeat' apply And.intro
  all_goals first | with_reducible rfl | decide | (show (_ : Nat) < _; decide) | rfl

theorem witness_registerRowsComplete_1 :
    ∃ (s : State) (off : Nat) (value : DWord), hostReach s = true ∧ bar0Form off 4 = true ∧ (bar0Word s off).isSome = true := by
  refine ⟨base, 0x14, 0x7F, ?_⟩
  repeat' apply And.intro
  all_goals first | with_reducible rfl | decide | (show (_ : Nat) < _; decide) | rfl

theorem witness_registerRowsComplete_2 :
    ∃ (s : State) (off : Nat) (value : DWord), hostReach s = true ∧ bar0Form off 8 = true ∧ (bar0Word s off).isSome = true := by
  refine ⟨base, 0x10000, 0x12345000, ?_⟩
  repeat' apply And.intro
  all_goals first | with_reducible rfl | decide | (show (_ : Nat) < _; decide) | rfl

theorem witness_registerRowsComplete_3 :
    ∃ (s : State) (value : DWord), hostReach s = true := by
  refine ⟨base, 0x7F, ?_⟩
  repeat' apply And.intro
  all_goals first | with_reducible rfl | decide | (show (_ : Nat) < _; decide) | rfl

theorem witness_registerRowsComplete_4 :
    ∃ (s : State) (value : DWord), hostReach s = true := by
  refine ⟨base, 0x7F, ?_⟩
  repeat' apply And.intro
  all_goals first | with_reducible rfl | decide | (show (_ : Nat) < _; decide) | rfl

theorem witness_registerRowsComplete_5 :
    ∃ (s : State) (bar : Nat) (off : Nat) (n : Nat), hostReach s = true ∧ invalidAccess s bar off n = true := by
  refine ⟨base, 0, 2, 4, ?_⟩
  repeat' apply And.intro
  all_goals first | with_reducible rfl | decide | (show (_ : Nat) < _; decide) | rfl

theorem witness_registerRowsComplete_6 :
    ∃ (s : State) (bar : Nat) (off : Nat) (n : Nat), hostReach s = true ∧ invalidAccess s bar off n = true := by
  refine ⟨base, 2, 2, 4, ?_⟩
  repeat' apply And.intro
  all_goals first | with_reducible rfl | decide | (show (_ : Nat) < _; decide) | rfl

theorem witness_registerRowsComplete_7 :
    ∃ (s : State) (off : Nat) (n : Nat), hostReach s = true ∧ invalidAccess s 2 off n = false := by
  refine ⟨base, 0, 4, ?_⟩
  repeat' apply And.intro
  all_goals first | with_reducible rfl | decide | (show (_ : Nat) < _; decide) | rfl

theorem witness_registerRowsComplete_8 :
    ∃ (s : State), hostReach s = true := by
  refine ⟨base, ?_⟩
  repeat' apply And.intro
  all_goals first | with_reducible rfl | decide | (show (_ : Nat) < _; decide) | rfl

theorem witness_registerRowsComplete_9 :
    ∃ (s : State), hostReach s = true := by
  refine ⟨base, ?_⟩
  repeat' apply And.intro
  all_goals first | with_reducible rfl | decide | (show (_ : Nat) < _; decide) | rfl

theorem witness_registerRowsComplete_10 :
    ∃ (s : State) (source : BitVec 16), hostReach s = true := by
  refine ⟨base, 0xFFFF, ?_⟩
  repeat' apply And.intro
  all_goals first | with_reducible rfl | decide | (show (_ : Nat) < _; decide) | rfl

theorem witness_localMemoryRowsComplete_1 :
    ∃ (s : State) (site : SiteId) (x : Nat) (b : Issuer) (cid : Option Nat) (errors : ByteErrors) (fails : Nat), siteOffset s site x 1 = true ∧ retrainingNow s site (groupDevice (groupOf x)) (groupChannel (groupOf x)) = false ∧ edcHeld s site fails = false ∧ seenPoison s site (poisonOf s (siteBase site + x / 64 * 64)) = 0 ∧ eccOutcome (seenErrors s site errors) = .clean := by
  refine ⟨stocked, 0, 0x1DFFFFFC0, .hub, none, [], 4, ?_⟩
  repeat' apply And.intro
  all_goals first | with_reducible rfl | decide | (show (_ : Nat) < _; decide) | rfl

theorem witness_localMemoryRowsComplete_2 :
    ∃ (s : State) (site : SiteId) (x : Nat) (b : Issuer) (cid : Option Nat) (errors : ByteErrors) (fails : Nat), siteOffset s site x 1 = true ∧ retrainingNow s site (groupDevice (groupOf x)) (groupChannel (groupOf x)) = false ∧ edcHeld s site fails = false ∧ seenPoison s site (poisonOf s (siteBase site + x / 64 * 64)) = 0 ∧ eccOutcome (seenErrors s site errors) = .corrected := by
  refine ⟨stocked, 0, 0, .hub, none, [(0, 1)], 0, ?_⟩
  repeat' apply And.intro
  all_goals first | with_reducible rfl | decide | (show (_ : Nat) < _; decide) | rfl

theorem witness_localMemoryRowsComplete_3 :
    ∃ (s : State) (site : SiteId) (x : Nat) (b : Issuer) (cid : Nat) (c : _) (errors : ByteErrors) (fails : Nat), Live s cid c ∧ siteOffset s site x 1 = true ∧ retrainingNow s site (groupDevice (groupOf x)) (groupChannel (groupOf x)) = false ∧ edcHeld s site fails = false ∧ seenPoison s site (poisonOf s (siteBase site + x / 64 * 64)) = 0 ∧ eccOutcome (seenErrors s site errors) = .uncorrectable ∧ markCounts s (srcId 3 site 1) cid = true := by
  refine ⟨with1 stocked (begun [(0, 1, 0x10)]), 0, 0, .hub, 1, begun [(0, 1, 0x10)], [(0, 1), (1, 1)], 0, ?_⟩
  repeat' apply And.intro
  all_goals first | with_reducible rfl | decide | (show (_ : Nat) < _; decide) | rfl

theorem witness_localMemoryRowsComplete_4 :
    ∃ (s : State) (site : SiteId) (x : Nat) (b : Issuer) (cid : Nat) (c : _) (errors : ByteErrors) (fails : Nat), Live s cid c ∧ siteOffset s site x 1 = true ∧ retrainingNow s site (groupDevice (groupOf x)) (groupChannel (groupOf x)) = false ∧ edcHeld s site fails = false ∧ seenPoison s site (poisonOf s (siteBase site + x / 64 * 64)) = 3 ∧ markCounts s (srcId 3 site 1) cid = true := by
  refine ⟨with1 { stocked with mem := { stocked.mem with poison := [(siteBase 0, 3)] } } (begun [(0, 1, 0x10)]), 0, 0, .hub, 1, begun [(0, 1, 0x10)], [], 0, ?_⟩
  repeat' apply And.intro
  all_goals first | with_reducible rfl | decide | (show (_ : Nat) < _; decide) | rfl

theorem witness_localMemoryRowsComplete_5 :
    ∃ (s : State) (site : SiteId) (x : Nat) (b : Issuer) (cid : Nat) (c : _) (errors : ByteErrors) (fails : Nat), Live s cid c ∧ siteOffset s site x 1 = true ∧ retrainingNow s site (groupDevice (groupOf x)) (groupChannel (groupOf x)) = false ∧ edcHeld s site fails = false ∧ seenPoison s site (poisonOf s (siteBase site + x / 64 * 64)) ≠ 0 ∧ seenPoison s site (poisonOf s (siteBase site + x / 64 * 64)) ≠ 3 ∧ markCounts s (srcId 3 site 4) cid = true := by
  refine ⟨with1 { stocked with mem := { stocked.mem with poison := [(siteBase 0, 1)] } } (begun [(0, 1, 0x10)]), 0, 0, .hub, 1, begun [(0, 1, 0x10)], [], 0, ?_⟩
  repeat' apply And.intro
  all_goals first | with_reducible rfl | decide | (show (_ : Nat) < _; decide) | rfl

theorem witness_localMemoryRowsComplete_6 :
    ∃ (s : State) (site : SiteId) (x : Nat) (b : Issuer) (cid : Option Nat) (errors : ByteErrors) (fails : Nat), siteOffset s site x 1 = true ∧ (retrainingNow s site (groupDevice (groupOf x)) (groupChannel (groupOf x)) = true ∨ edcHeld s site fails = true) := by
  refine ⟨stocked, 0, 0, .hub, none, [], 5, ?_⟩
  repeat' apply And.intro
  all_goals first | with_reducible rfl | decide | (show (_ : Nat) < _; decide) | rfl | (exact Or.inr (by decide))

theorem witness_localMemoryRowsComplete_7 :
    ∃ (s : State) (site : SiteId) (x : Nat) (b : Issuer) (cid : Option Nat) (errors : ByteErrors) (fails : Nat), siteOffset s site x 1 = false := by
  refine ⟨base, 0, 0, .hub, none, [], 0, ?_⟩
  repeat' apply And.intro
  all_goals first | with_reducible rfl | decide | (show (_ : Nat) < _; decide) | rfl

theorem witness_localMemoryRowsComplete_8 :
    ∃ (s : State) (site : SiteId) (x : Nat) (data : List Byte) (b : Issuer) (cid : Option Nat) (errors : List ByteErrors) (fails : Nat), data ≠ [] ∧ x % 64 = 0 ∧ data.length % 64 = 0 ∧ siteOffset s site x data.length = true ∧ onRetraining s ⟨siteBase site + x, data.length⟩ = false ∧ edcHeld s site fails = false := by
  refine ⟨stocked, 0, 0, List.replicate 64 7, .hub, none, [], 4, ?_⟩
  repeat' apply And.intro
  all_goals first | with_reducible rfl | decide | (show (_ : Nat) < _; decide) | rfl

theorem witness_localMemoryRowsComplete_9 :
    ∃ (s : State) (site : SiteId) (x : Nat) (data : List Byte) (b : Issuer) (cid : Option Nat) (errors : List ByteErrors) (fails : Nat), Memory.wf s.mem.cells = true ∧ data ≠ [] ∧ siteOffset s site x data.length = true ∧ onRetraining s ⟨siteBase site + x, data.length⟩ = false ∧ edcHeld s site fails = false ∧ (∀ k, eccOutcome (seenErrors s site (errors.getD k [])) = .clean → seenErrors s site (errors.getD k []) = []) := by
  refine ⟨stocked, 0, 0x1DFFFFFFF, [7], .hub, none, [], 4, ?_⟩
  repeat' apply And.intro
  all_goals first | with_reducible rfl | decide | (show (_ : Nat) < _; decide) | rfl | (exact fun k _ => by rfl)

theorem witness_localMemoryRowsComplete_10 :
    ∃ (s : State) (site : SiteId) (x : Nat) (data : List Byte) (b : Issuer) (cid : Option Nat) (errors : List ByteErrors) (fails : Nat), data ≠ [] ∧ siteOffset s site x data.length = true ∧ (onRetraining s ⟨siteBase site + x, data.length⟩ = true ∨ edcHeld s site fails = true) := by
  refine ⟨stocked, 0, 0, [7], .hub, none, [], 5, ?_⟩
  repeat' apply And.intro
  all_goals first | with_reducible rfl | decide | (show (_ : Nat) < _; decide) | rfl | (exact Or.inr (by decide))

theorem witness_localMemoryRowsComplete_11 :
    ∃ (s : State) (site : SiteId) (x : Nat) (data : List Byte) (b : Issuer) (cid : Option Nat) (errors : List ByteErrors) (fails : Nat), data ≠ [] ∧ siteOffset s site x data.length = false := by
  refine ⟨base, 0, 0, [7], .hub, none, [], 0, ?_⟩
  repeat' apply And.intro
  all_goals first | with_reducible rfl | decide | (show (_ : Nat) < _; decide) | rfl

theorem witness_localMemoryRowsComplete_12 :
    ∃ (s : State) (site : SiteId) (device : Fin 2) (found : List ByteErrors) (i : _), siteMapped s site = true ∧ scrubDue s (controller site device) = true ∧ (lookupKey (controller site device) s.mem.scrubNext).getD 0 = i ∧ retrainingNow s site device (groupChannel (2 * i + device.val)) = false := by
  refine ⟨stocked, 0, 1, List.replicate 15 [], 0, ?_⟩
  repeat' apply And.intro
  all_goals first | with_reducible rfl | decide | (show (_ : Nat) < _; decide) | rfl

theorem witness_localMemoryRowsComplete_13 :
    ∃ (s : State) (site : SiteId) (device : Fin 2) (found : List ByteErrors), scrubDue s (controller site device) = false := by
  refine ⟨{ stocked with mem := { stocked.mem with scrubStart := [(0, 0)] } }, 0, 0, List.replicate 15 [], ?_⟩
  repeat' apply And.intro
  all_goals first | with_reducible rfl | decide | (show (_ : Nat) < _; decide) | rfl

theorem witness_localMemoryRowsComplete_14 :
    ∃ (s : State) (site : SiteId) (device : Fin 2) (bank : Nat), selfRefresh (tileAt s site) = false := by
  refine ⟨stocked, 0, 1, 15, ?_⟩
  repeat' apply And.intro
  all_goals first | with_reducible rfl | decide | (show (_ : Nat) < _; decide) | rfl

theorem witness_localMemoryRowsComplete_15 :
    ∃ (s : State) (site : SiteId) (a : Nat) (b : Nat), s.tiles.length = 64 := by
  refine ⟨base, 63, 255, 0, ?_⟩
  repeat' apply And.intro
  all_goals first | with_reducible rfl | decide | (show (_ : Nat) < _; decide) | rfl

theorem witness_localMemoryRowsComplete_16 :
    ∃ (s : State) (site : SiteId) (device : Fin 2) (channel : Fin 4), recentreDue s site device channel = true := by
  refine ⟨stocked, 0, 1, 3, ?_⟩
  repeat' apply And.intro
  all_goals first | with_reducible rfl | decide | (show (_ : Nat) < _; decide) | rfl

theorem witness_localMemoryRowsComplete_17 :
    ∃ (s : State) (site : SiteId) (device : Fin 2) (channel : Fin 4), recentreDue s site device channel = false := by
  refine ⟨{ stocked with mem := { stocked.mem with recentred := [(7, 0, 0)] } }, 0, 1, 3, ?_⟩
  repeat' apply And.intro
  all_goals first | with_reducible rfl | decide | (show (_ : Nat) < _; decide) | rfl

theorem witness_localMemoryRowsComplete_18 :
    ∃ (s : State) (site : SiteId) (device : Fin 2) (channel : Fin 4), retrainingNow s site device channel = true := by
  refine ⟨{ stocked with mem := { stocked.mem with retraining := [(0, 1, 3)] } }, 0, 1, 3, ?_⟩
  repeat' apply And.intro
  all_goals first | with_reducible rfl | decide | (show (_ : Nat) < _; decide) | rfl

theorem witness_localMemoryRowsComplete_19 :
    ∃ (s : State) (site : SiteId) (device : Fin 2) (channel : Fin 4) (a : HeldAccess), s.mem.retraining = [(site.val, device.val, channel.val)] ∧ s.runs = [] ∧ s.mem.heldAccesses = [a] ∧ a.write = true ∧ a.offset % 64 = 0 ∧ a.data.length % 64 = 0 ∧ siteOffset s a.site a.offset a.data.length = true := by
  refine ⟨{ stocked with mem := { stocked.mem with retraining := [(0, 1, 3)], heldAccesses := [{ site := 0, offset := 0, write := true, data := List.replicate 64 7, by_ := .hub, cid := none }] } }, 0, 1, 3, { site := 0, offset := 0, write := true, data := List.replicate 64 7, by_ := .hub, cid := none }, ?_⟩
  repeat' apply And.intro
  all_goals first | with_reducible rfl | decide | (show (_ : Nat) < _; decide) | rfl

theorem witness_localMemoryRowsComplete_20 :
    ∃ (s : State) (site : SiteId) (device : Fin 2) (channel : Fin 4), s.flt.injecting (srcId 3 site 2) = true := by
  refine ⟨{ stocked with flt := { stocked.flt with inject := [(srcId 3 0 2, 2)] } }, 0, 1, 3, ?_⟩
  repeat' apply And.intro
  all_goals first | with_reducible rfl | decide | (show (_ : Nat) < _; decide) | rfl

theorem witness_localMemoryRowsComplete_21 :
    ∃ (s : State) (site : SiteId) (device : Fin 2) (channel : Fin 4), s.tiles.length = 64 ∧ retrainingNow s site device channel = true ∧ s.flt.injecting (srcId 3 site 2) = false := by
  refine ⟨{ stocked with mem := { stocked.mem with retraining := [(0, 1, 3)] } }, 0, 1, 3, ?_⟩
  repeat' apply And.intro
  all_goals first | with_reducible rfl | decide | (show (_ : Nat) < _; decide) | rfl

theorem witness_cxlRowsComplete_1 :
    ∃ (s : State) (p : PortId), s.cxl.length = 4 ∧ ((cxlAt s p).state = .empty ∨ (cxlAt s p).state = .off) ∧ (cxlAt s p).linkUp = false := by
  refine ⟨base, 3, ?_⟩
  repeat' apply And.intro
  all_goals first | with_reducible rfl | decide | (show (_ : Nat) < _; decide) | rfl

theorem witness_cxlRowsComplete_2 :
    ∃ (s : State) (p : PortId) (rate : Nat) (width : Nat) (capacity : Nat), s.cxl.length = 4 ∧ (cxlAt s p).slotPower = true ∧ (cxlAt s p).linkUp = false ∧ cxlTrains rate width = true ∧ ((cxlAt s p).waiting = false ∨ (cxlAt s p).state = .empty) := by
  refine ⟨onPort (fun p => { p with slotPower := true }), 0, 64, 16, 65536, ?_⟩
  repeat' apply And.intro
  all_goals first | with_reducible rfl | decide | (show (_ : Nat) < _; decide) | rfl

theorem witness_cxlRowsComplete_3 :
    ∃ (s : State) (p : PortId) (rate : Nat) (width : Nat) (capacity : Nat), s.cxl.length = 4 ∧ (cxlAt s p).slotPower = true ∧ (cxlAt s p).linkUp = false ∧ cxlTrains rate width = true ∧ (cxlAt s p).waiting = true ∧ (cxlAt s p).state ≠ .empty := by
  refine ⟨onPort (fun p => { p with slotPower := true, waiting := true, state := .inService }), 0, 64, 16, 65536, ?_⟩
  repeat' apply And.intro
  all_goals first | with_reducible rfl | decide | (show (_ : Nat) < _; decide) | rfl

theorem witness_cxlRowsComplete_4 :
    ∃ (s : State) (p : PortId), s.cxl.length = 4 ∧ (cxlAt s p).discovering = true ∧ (cxlAt s p).linkUp = true := by
  refine ⟨onPort (fun p => { p with discovering := true, linkUp := true }), 0, ?_⟩
  repeat' apply And.intro
  all_goals first | with_reducible rfl | decide | (show (_ : Nat) < _; decide) | rfl

theorem witness_cxlRowsComplete_5 :
    ∃ (s : State) (p : PortId), s.cxl.length = 4 ∧ (cxlAt s p).linkUp = true := by
  refine ⟨onPort (fun p => { p with linkUp := true, state := .inService }), 0, ?_⟩
  repeat' apply And.intro
  all_goals first | with_reducible rfl | decide | (show (_ : Nat) < _; decide) | rfl

theorem witness_cxlRowsComplete_6 :
    ∃ (s : State) (p : PortId) (cid : Nat) (c : _), Live s cid c ∧ NoneFailed s cid ∧ accessesPort s p c = true := by
  refine ⟨with1 { onPort (fun p => { p with linkUp := true }) with mem := { base.mem with handles := [{ h0 with extents := [⟨portBase 0, 65536⟩] }] } } (begun [(0, 1, 0x40), (8, 1, 1), (0x10, 8, handleWord 1 1 0)]), 0, 1, begun [(0, 1, 0x40), (8, 1, 1), (0x10, 8, handleWord 1 1 0)], ?_⟩
  repeat' apply And.intro
  all_goals first | with_reducible rfl | decide | (show (_ : Nat) < _; decide) | rfl | (intro r h; cases h)

theorem witness_cxlRowsComplete_7 :
    ∃ (s : State) (p : PortId) (cid : Nat), (cmdAt s cid).any (accessesPort s p) = false := by
  refine ⟨with1 base (begun [(0, 1, 0x01)]), 0, 1, ?_⟩
  repeat' apply And.intro
  all_goals first | with_reducible rfl | decide | (show (_ : Nat) < _; decide) | rfl

theorem witness_cxlRowsComplete_8 :
    ∃ (s : State) (p : PortId), s.cxl.length = 4 ∧ (cxlAt s p).waiting = true := by
  refine ⟨onPort (fun p => { p with waiting := true, state := .inService }), 0, ?_⟩
  repeat' apply And.intro
  all_goals first | with_reducible rfl | decide | (show (_ : Nat) < _; decide) | rfl

theorem witness_cxlRowsComplete_9 :
    ∃ (s : State) (p : PortId) (ev : MediaEvent), (cxlAt s p).linkUp = true ∧ ((cxlAt s p).state = .inService ∨ (cxlAt s p).state = .evacuating) := by
  refine ⟨onPort (fun p => { p with linkUp := true, state := .inService }), 0, ev0, ?_⟩
  repeat' apply And.intro
  all_goals first | with_reducible rfl | decide | (show (_ : Nat) < _; decide) | rfl

theorem witness_cxlRowsComplete_10 :
    ∃ (s : State) (p : PortId) (ev : MediaEvent) (off : _) (len : _), s.cxl.length = 4 ∧ (cxlAt s p).linkUp = true ∧ ((cxlAt s p).state = .inService ∨ (cxlAt s p).state = .evacuating) ∧ ev.region = some (off, len) := by
  refine ⟨onPort (fun p => { p with linkUp := true, state := .inService }), 0, ev1, 64, 64, ?_⟩
  repeat' apply And.intro
  all_goals first | with_reducible rfl | decide | (show (_ : Nat) < _; decide) | rfl

theorem witness_cxlRowsComplete_11 :
    ∃ (s : State) (p : PortId), s.cxl.length = 4 ∧ (cxlAt s p).state = .inService ∧ evacuable s p = true := by
  refine ⟨onPort (fun p => { p with state := .inService }), 0, ?_⟩
  repeat' apply And.intro
  all_goals first | with_reducible rfl | decide | (show (_ : Nat) < _; decide) | rfl

theorem witness_cxlRowsComplete_12 :
    ∃ (s : State) (p : PortId), s.cxl.length = 4 ∧ (cxlAt s p).state = .inService ∧ evacuable s p = false := by
  refine ⟨{ onPort (fun p => { p with state := .inService }) with mem := { base.mem with handles := [{ h0 with extents := [⟨portBase 0, 65536⟩] }] } }, 0, ?_⟩
  repeat' apply And.intro
  all_goals first | with_reducible rfl | decide | (show (_ : Nat) < _; decide) | rfl

theorem witness_cxlRowsComplete_13 :
    ∃ (s : State) (p : PortId), s.cxl.length = 4 ∧ (cxlAt s p).state = .evacuating := by
  refine ⟨onPort (fun p => { p with state := .evacuating }), 0, ?_⟩
  repeat' apply And.intro
  all_goals first | with_reducible rfl | decide | (show (_ : Nat) < _; decide) | rfl

theorem witness_cxlRowsComplete_14 :
    ∃ (s : State) (p : PortId), s.cxl.length = 4 := by
  refine ⟨base, 0, ?_⟩
  repeat' apply And.intro
  all_goals first | with_reducible rfl | decide | (show (_ : Nat) < _; decide) | rfl

theorem witness_cxlRowsComplete_15 :
    ∃ (s : State) (p : PortId), (cxlAt s p).waiting = true := by
  refine ⟨onPort (fun p => { p with waiting := true }), 0, ?_⟩
  repeat' apply And.intro
  all_goals first | with_reducible rfl | decide | (show (_ : Nat) < _; decide) | rfl

theorem witness_cxlRowsComplete_16 :
    ∃ (s : State) (p : PortId), s.cxl.length = 4 ∧ (cxlAt s p).state = .evacuating ∧ (cxlAt s p).waiting = false ∧ s.cel.blocks.any (fun b => b.place == .cxl p.val) = false ∧ s.cel.moves.any (fun m => m.oldPlace == .cxl p.val) = false ∧ portContent (s.clearPort p) p + portCopies (s.clearPort p) p = 0 := by
  refine ⟨onPort (fun p => { p with state := .evacuating }), 0, ?_⟩
  repeat' apply And.intro
  all_goals first | with_reducible rfl | decide | (show (_ : Nat) < _; decide) | rfl

theorem witness_cxlRowsComplete_17 :
    ∃ (s : State) (p : PortId), s.cxl.length = 4 ∧ (cxlAt s p).present = true ∧ (cxlAt s p).slotPower = true := by
  refine ⟨onPort (fun p => { p with state := .evacuating, present := true, slotPower := true }), 0, ?_⟩
  repeat' apply And.intro
  all_goals first | with_reducible rfl | decide | (show (_ : Nat) < _; decide) | rfl

theorem witness_cxlRowsComplete_18 :
    ∃ (s : State) (p : PortId), s.cxl.length = 4 ∧ ((cxlAt s p).present = false ∨ (cxlAt s p).slotPower = false) := by
  refine ⟨base, 0, ?_⟩
  repeat' apply And.intro
  all_goals first | with_reducible rfl | decide | (show (_ : Nat) < _; decide) | rfl | (exact Or.inl (by decide))

theorem witness_cxlRowsComplete_19 :
    ∃ (s : State) (p : PortId) (cid : Nat) (c : _), Live s cid c ∧ (cxlAt s p).linkUp = true ∧ consumesPort s p c = true ∧ markCounts s (srcId 4 p 1) cid = true := by
  refine ⟨with1 { onPort (fun p => { p with linkUp := true }) with mem := { base.mem with handles := [{ h0 with extents := [⟨portBase 0, 65536⟩] }] } } (begun [(0, 1, 0x40), (8, 1, 1), (0x10, 8, handleWord 1 1 0)]), 0, 1, begun [(0, 1, 0x40), (8, 1, 1), (0x10, 8, handleWord 1 1 0)], ?_⟩
  repeat' apply And.intro
  all_goals first | with_reducible rfl | decide | (show (_ : Nat) < _; decide) | rfl

theorem witness_cxlRowsComplete_20 :
    ∃ (s : State) (p : PortId) (cid : Nat), (cxlAt s p).linkUp = true := by
  refine ⟨onPort (fun p => { p with linkUp := true }), 0, 1, ?_⟩
  repeat' apply And.intro
  all_goals first | with_reducible rfl | decide | (show (_ : Nat) < _; decide) | rfl

theorem witness_linkLayerRowsComplete_1 :
    ∃ (s : State) (link : LinkRef) (slot : Nat) (flit : List Byte), HasLink s link ∧ linkLive s link = true ∧ heldBack s link flit = false ∧ crcInverted s link = false ∧ flitOk flit (linkAt s link).rxExpected = true ∧ flitKind flit = 1 ∧ (linkAt s link).rxHeld.getD (flitVc flit) 0 < vcBuffer (isOptical link) (flitVc flit) ∧ (isOptical link = false ∨ flitFraming flit = 1 ∨ flitFraming flit = 3 ∨ ((partSoFar (linkAt s link) (flitVc flit)).getD []).length + flitLen flit ≤ 4200) := by
  refine ⟨onHub id, .bundle (.hub 0), 0, flit 1 1 3 24 0 (List.replicate 24 0), ?_⟩
  repeat' apply And.intro
  all_goals first | with_reducible rfl | decide | (show (_ : Nat) < _; decide) | rfl

theorem witness_linkLayerRowsComplete_2 :
    ∃ (s : State) (link : LinkRef) (slot : Nat) (flit : List Byte), HasLink s link ∧ linkLive s link = true ∧ heldBack s link flit = false ∧ ((flitOk flit (linkAt s link).rxExpected && flitKind flit == 1) = false ∨ crcInverted s link = true) := by
  refine ⟨onHub id, .bundle (.hub 0), 0, List.replicate 128 0, ?_⟩
  repeat' apply And.intro
  all_goals first | with_reducible rfl | decide | (show (_ : Nat) < _; decide) | rfl

theorem witness_linkLayerRowsComplete_3 :
    ∃ (s : State) (link : LinkRef) (slot : Nat) (flit : List Byte), HasLink s link ∧ linkLive s link = true ∧ crcInverted s link = false ∧ flitOk flit 0x8000 = true ∧ flitKind flit = 2 ∧ linkNak flit = none := by
  refine ⟨onHub id, .bundle (.hub 0), 0, flit 0 2 0 0 0x8000 [], ?_⟩
  repeat' apply And.intro
  all_goals first | with_reducible rfl | decide | (show (_ : Nat) < _; decide) | rfl

theorem witness_linkLayerRowsComplete_4 :
    ∃ (s : State) (link : LinkRef) (slot : Nat) (flit : List Byte) (n : _) (l : LinkEnd) (h : Nat × Nat × List Byte), HasLink s link ∧ linkLive s link = true ∧ crcInverted s link = false ∧ flitOk flit 0x8000 = true ∧ flitKind flit = 2 ∧ linkNak flit = some n ∧ holding s link = false ∧ l = ((linkAt s link).ack (flitAck flit)).ack ((n + 16383) % 16384) ∧ l.held.head? = some h ∧ l.replayCounter + 1 < 16 := by
  refine ⟨onHub (fun d => { d with link := { d.link with txSeq := 1, held := [(0, 0, [])] } }), .bundle (.hub 0), 0, flit 0 2 0 0 0x8000 [0, 0x80], 0, ((linkAt (onHub (fun d => { d with link := { d.link with txSeq := 1, held := [(0, 0, [])] } })) (.bundle (.hub 0))).ack (flitAck (flit 0 2 0 0 0x8000 [0, 0x80]))).ack (((0) + 16383) % 16384), (0, 0, []), ?_⟩
  repeat' apply And.intro
  all_goals first | with_reducible rfl | decide | (show (_ : Nat) < _; decide) | rfl

theorem witness_linkLayerRowsComplete_5 :
    ∃ (s : State) (e : EngineId) (slot : Nat) (flit : List Byte), linkLive s (.optical e) = true ∧ crcInverted s (.optical e) = false ∧ flitOk flit 0x8000 = true ∧ flitKind flit = 0 := by
  refine ⟨onEngine lit, 0, 0, flit 0 0 0 0 0x8000 [], ?_⟩
  repeat' apply And.intro
  all_goals first | with_reducible rfl | decide | (show (_ : Nat) < _; decide) | rfl

theorem witness_linkLayerRowsComplete_6 :
    ∃ (s : State) (link : LinkRef), HasLink s link ∧ linkLive s link = true ∧ (0 < (linkAt s link).ackPending ∨ (linkAt s link).rxReleased ≠ (linkAt s link).rxReported) := by
  refine ⟨onHub (fun d => { d with link := { d.link with ackPending := 1 } }), .bundle (.hub 0), ?_⟩
  repeat' apply And.intro
  all_goals first | with_reducible rfl | decide | (show (_ : Nat) < _; decide) | rfl

theorem witness_linkLayerRowsComplete_7 :
    ∃ (s : State) (link : LinkRef) (age : Nat) (h : _), HasLink s link ∧ linkLive s link = true ∧ holding s link = false ∧ (linkAt s link).held.head? = some h ∧ (linkAt s link).replayCounter + 1 < 16 := by
  refine ⟨onHub (fun d => { d with link := { d.link with txSeq := 1, held := [(0, 0, [])] } }), .bundle (.hub 0), 0, (0, 0, []), ?_⟩
  repeat' apply And.intro
  all_goals first | with_reducible rfl | decide | (show (_ : Nat) < _; decide) | rfl

theorem witness_linkLayerRowsComplete_8 :
    ∃ (s : State) (link : LinkRef), HasLink s link ∧ linkLive s link = true ∧ (linkAt s link).nakOutstanding = true ∧ changing s link = false := by
  refine ⟨onHub (fun d => { d with link := { d.link with nakOutstanding := true } }), .bundle (.hub 0), ?_⟩
  repeat' apply And.intro
  all_goals first | with_reducible rfl | decide | (show (_ : Nat) < _; decide) | rfl

theorem witness_linkLayerRowsComplete_9 :
    ∃ (s : State) (link : LinkRef) (slot : Nat) (flit : List Byte), heldBack s link flit = true := by
  refine ⟨onHub (fun d => { d with checking := true }), .bundle (.hub 0), 0, [], ?_⟩
  repeat' apply And.intro
  all_goals first | with_reducible rfl | decide | (show (_ : Nat) < _; decide) | rfl

theorem witness_bundleWireRowsComplete_1 :
    ∃ (s : State) (b : BundleEnd) (failed : List Nat) (m : List SpareUse × Option Nat), HasEnd s b ∧ (bundleAt s b).checking = true ∧ (bundleAt s b).tempRetired = false ∧ chooseMap (recordedWires s b ++ (bundleAt s b).failed ++ (failed ++ strayed (bundleAt s b)).eraseDups).eraseDups (bundleAt s b).dropped (bundleAt s b).spares = some m := by
  refine ⟨onHub (fun d => { d with checking := true }), .hub 0, [63], (chooseMap [63] none (List.replicate 4 .free)).getD ([], none), ?_⟩
  repeat' apply And.intro
  all_goals first | with_reducible rfl | decide | (show (_ : Nat) < _; decide) | rfl

theorem witness_bundleWireRowsComplete_2 :
    ∃ (s : State) (b : BundleEnd) (failed : List Nat), (bundleAt s b).checking = true ∧ (bundleAt s b).tempRetired = false ∧ chooseMap (recordedWires s b ++ (bundleAt s b).failed ++ (failed ++ strayed (bundleAt s b)).eraseDups).eraseDups (bundleAt s b).dropped (bundleAt s b).spares = none ∧ bundleInjected s b = false := by
  refine ⟨onHub (fun d => { d with checking := true }), .hub 0, List.range 64, ?_⟩
  repeat' apply And.intro
  all_goals first | with_reducible rfl | decide | (show (_ : Nat) < _; decide) | rfl

theorem witness_bundleWireRowsComplete_3 :
    ∃ (s : State) (b : _) (wire : Nat) (up : Bool), HasEnd s b ∧ (bundleAt s b).live = true ∧ wire < 70 := by
  refine ⟨onHub id, .hub 0, 69, true, ?_⟩
  repeat' apply And.intro
  all_goals first | with_reducible rfl | decide | (show (_ : Nat) < _; decide) | rfl

theorem witness_bundleWireRowsComplete_4 :
    ∃ (s : State) (b : BundleEnd) (wire : Nat), HasEnd s b ∧ (bundleAt s b).live = true ∧ wire < 64 ∧ (bundleAt s b).dropped ≠ some (wire / 16) ∧ (bundleAt s b).failed.contains wire = false ∧ (bundleAt s b).checking = false := by
  refine ⟨onHub id, .hub 0, 63, ?_⟩
  repeat' apply And.intro
  all_goals first | with_reducible rfl | decide | (show (_ : Nat) < _; decide) | rfl

theorem witness_bundleWireRowsComplete_5 :
    ∃ (s : State) (b : _) (k : _), k < 4 ∧ HasEnd s b ∧ (bundleAt s b).live = true ∧ (bundleAt s b).spares.getD k .free ≠ .valid ∧ (bundleAt s b).failed.contains (64 + k) = false ∧ (bundleAt s b).checking = false := by
  refine ⟨onHub id, .hub 0, 3, ?_⟩
  repeat' apply And.intro
  all_goals first | with_reducible rfl | decide | (show (_ : Nat) < _; decide) | rfl

theorem witness_frameRowsComplete_1 :
    ∃ (s : State) (e : EngineId) (u : _), e.val < s.engines.length ∧ u = s.beforeFrame e ∧ sendingWaves (engineAt u e) ≠ [] ∧ (engineAt u e).started = true := by
  refine ⟨onEngine lit, 0, (onEngine lit).beforeFrame (0), ?_⟩
  repeat' apply And.intro
  all_goals first | with_reducible rfl | decide | (show (_ : Nat) < _; decide) | rfl

theorem witness_frameRowsComplete_2 :
    ∃ (s : State) (e : EngineId) (f : Fin 2) (l : Fin 18) (bits_ : List Bool) (ctl : _), e.val < s.engines.length ∧ (engineAt s e).started = true ∧ bits_.length = 4224 ∧ (bits_.drop 1).take 16 = marker ∧ ctl = (unstuff (bits_.drop 18) true 1).take 40 ∧ ctl.length = 40 ∧ crc8 (ctl.take 32) = ofMsb (ctl.drop 32) ∧ ofMsb ((ctl.drop 5).take 4) = 0 ∧ ((List.range 36).find? (fun v => (engineAt s e).rx.frameLock.getD v false)).getD (18 * f.val + l.val) = 18 * f.val + l.val := by
  refine ⟨onEngine lit, 0, 0, 0, frame0, ctl0, ?_⟩
  repeat' apply And.intro
  all_goals first | with_reducible rfl | decide | (show (_ : Nat) < _; decide) | rfl

theorem witness_frameRowsComplete_3 :
    ∃ (s : State) (e : EngineId) (f : Fin 2) (l : Fin 18) (bits_ : List Bool), e.val < s.engines.length ∧ (engineAt s e).started = true ∧ bits_.length = 4224 ∧ (bits_.drop 1).take 16 ≠ marker ∧ 18 * f.val + l.val < (engineAt s e).rx.markerMiss.length ∧ (engineAt s e).rx.markerMiss.getD (18 * f.val + l.val) 0 < 3 := by
  refine ⟨onEngine lit, 0, 0, 0, List.replicate 4224 false, ?_⟩
  repeat' apply And.intro
  all_goals first | with_reducible rfl | decide | (show (_ : Nat) < _; decide) | rfl

theorem witness_ringAndSlotRowsComplete_1 :
    ∃ (s : State) (e : EngineId) (slot : Fin 32) (dir : Bool) (side : _), e.val < s.engines.length ∧ side = sideOfDir dir ∧ (engineAt s e).state = .up ∧ slot.val < (dirOf (engineAt s e) side).width ∧ (dirOf (engineAt s e) side).paused.contains slot.val = false ∧ (dirOf (engineAt s e) side).paused.length < 4 := by
  refine ⟨onEngine lit, 0, 31, true, 0, ?_⟩
  repeat' apply And.intro
  all_goals first | with_reducible rfl | decide | (show (_ : Nat) < _; decide) | rfl

theorem witness_ringAndSlotRowsComplete_2 :
    ∃ (s : State) (e : EngineId) (slot : Fin 32) (dir : Bool) (side : _), e.val < s.engines.length ∧ side = sideOfDir dir ∧ (dirOf (engineAt s e) side).paused.contains slot.val = true := by
  refine ⟨onEngine (fun x => { lit x with tx := { x.tx with paused := [31] } }), 0, 31, true, 0, ?_⟩
  repeat' apply And.intro
  all_goals first | with_reducible rfl | decide | (show (_ : Nat) < _; decide) | rfl

theorem witness_ringAndSlotRowsComplete_3 :
    ∃ (s : State) (e : EngineId) (slot : Fin 32), e.val < s.engines.length ∧ (engineAt s e).state = .up ∧ slot.val < (engineAt s e).rx.width ∧ (engineAt s e).rx.paused.contains slot.val = false ∧ (engineAt s e).rx.paused.length < 4 := by
  refine ⟨onEngine lit, 0, 31, ?_⟩
  repeat' apply And.intro
  all_goals first | with_reducible rfl | decide | (show (_ : Nat) < _; decide) | rfl

theorem witness_ringAndSlotRowsComplete_4 :
    ∃ (s : State) (e : EngineId) (r : OeRing) (dom : Option (Fin 18)), HasRing s e r ∧ (waveRing (engineAt s e) r).state = .locked ∧ dom = some (Fin.ofNat 18 r) ∧ toneTaken (engineAt s e) r (r.val % 18) (waveRing (engineAt s e) r).heater = false ∧ ToneAlone (engineAt s e) r (waveRing (engineAt s e) r).heater dom := by
  refine ⟨onOe lit lockedRing, 0, 0, some 0, ?_⟩
  repeat' apply And.intro
  all_goals first | with_reducible rfl | decide | (show (_ : Nat) < _; decide) | rfl | (unfold ToneAlone; decide +kernel)

theorem witness_ringAndSlotRowsComplete_5 :
    ∃ (s : State) (e : EngineId) (r : OeRing) (dom : Option (Fin 18)), HasRing s e r ∧ (waveRing (engineAt s e) r).state = .locked ∧ (dom ≠ some (Fin.ofNat 18 r) ∨ toneTaken (engineAt s e) r (r.val % 18) (waveRing (engineAt s e) r).heater = true) ∧ (waveRing (engineAt s e) r).fromLast = false ∧ ToneAlone (engineAt s e) r (waveRing (engineAt s e) r).heater dom := by
  refine ⟨onOe lit lockedRing, 0, 0, some 1, ?_⟩
  repeat' apply And.intro
  all_goals first | with_reducible rfl | decide | (show (_ : Nat) < _; decide) | rfl | (first | (left; decide) | (unfold ToneAlone; decide +kernel))

theorem witness_ringAndSlotRowsComplete_6 :
    ∃ (s : State) (e : EngineId) (r : OeRing), HasRing s e r ∧ ((waveRing (engineAt s e) r).state = .locked ∨ (waveRing (engineAt s e) r).state = .paused) := by
  refine ⟨onOe lit (fun q => { lockedRing q with state := .paused }), 0, 0, ?_⟩
  repeat' apply And.intro
  all_goals first | with_reducible rfl | decide | (show (_ : Nat) < _; decide) | rfl | (right; decide)

theorem witness_ringAndSlotRowsComplete_7 :
    ∃ (s : State) (e : EngineId) (r : OeRing) (heater : Nat) (dom : Option (Fin 18)) (lit : Bool), HasRing s e r ∧ relocking (waveRing (engineAt s e) r) = true ∧ inWindow heater = true ∧ dom = some (Fin.ofNat 18 r) ∧ toneTaken (engineAt s e) r (r.val % 18) heater = false ∧ ToneAlone (engineAt s e) r heater dom := by
  refine ⟨onOe lit (fun q => { q with state := .searching }), 0, 0, 5000, some 0, true, ?_⟩
  repeat' apply And.intro
  all_goals first | with_reducible rfl | decide | (show (_ : Nat) < _; decide) | rfl | ((unfold ToneAlone; decide +kernel))

theorem witness_ringAndSlotRowsComplete_8 :
    ∃ (s : State) (e : EngineId) (r : OeRing) (heater : Nat) (dom : Option (Fin 18)) (lit : Bool), HasRing s e r ∧ relocking (waveRing (engineAt s e) r) = true ∧ inWindow heater = true ∧ (dom ≠ some (Fin.ofNat 18 r) ∨ toneTaken (engineAt s e) r (r.val % 18) heater = true) ∧ (waveRing (engineAt s e) r).tries < 3 ∧ (waveRing (engineAt s e) r).fromLast = false ∧ ToneAlone (engineAt s e) r heater dom := by
  refine ⟨onOe lit (fun q => { q with state := .searching }), 0, 0, 60535, none, true, ?_⟩
  repeat' apply And.intro
  all_goals first | with_reducible rfl | decide | (show (_ : Nat) < _; decide) | rfl | (first | exact Or.inl (by decide) | (unfold ToneAlone; decide +kernel))

theorem witness_ringAndSlotRowsComplete_9 :
    ∃ (s : State) (e : EngineId) (r : OeRing) (heater : Nat) (dom : Option (Fin 18)) (lit : Bool), HasRing s e r ∧ relocking (waveRing (engineAt s e) r) = true ∧ inWindow heater = true ∧ (dom ≠ some (Fin.ofNat 18 r) ∨ toneTaken (engineAt s e) r (r.val % 18) heater = true) ∧ 3 ≤ (waveRing (engineAt s e) r).tries ∧ (waveRing (engineAt s e) r).fromLast = false ∧ ToneAlone (engineAt s e) r heater dom := by
  refine ⟨onOe lit (fun q => { q with state := .searching, tries := 3 }), 0, 0, 60535, none, false, ?_⟩
  repeat' apply And.intro
  all_goals first | with_reducible rfl | decide | (show (_ : Nat) < _; decide) | rfl | (first | exact Or.inl (by decide) | (unfold ToneAlone; decide +kernel))

theorem witness_ringAndSlotRowsComplete_10 :
    ∃ (s : State) (e : EngineId) (r : OeRing) (tone : Bool), HasRing s e r ∧ relocking (waveRing (engineAt s e) r) = true := by
  refine ⟨onOe lit (fun q => { q with state := .searching }), 0, 0, true, ?_⟩
  repeat' apply And.intro
  all_goals first | with_reducible rfl | decide | (show (_ : Nat) < _; decide) | rfl

theorem witness_ringAndSlotRowsComplete_11 :
    ∃ (s : State) (e : EngineId) (r : OeRing) (tone : Bool) (heater : Nat), HasRing s e r ∧ ((waveRing (engineAt s e) r).state = .failed ∨ (waveRing (engineAt s e) r).state = .dark) ∧ inWindow heater = true := by
  refine ⟨onOe lit (fun q => { q with state := .failed }), 0, 0, true, 5000, ?_⟩
  repeat' apply And.intro
  all_goals first | with_reducible rfl | decide | (show (_ : Nat) < _; decide) | rfl

theorem witness_ringAndSlotRowsComplete_12 :
    ∃ (s : State) (e : EngineId) (r : OeRing) (tone : Bool) (heater : Nat), HasRing s e r ∧ ((waveRing (engineAt s e) r).state = .failed ∨ (waveRing (engineAt s e) r).state = .dark) := by
  refine ⟨onOe lit (fun q => { q with state := .failed }), 0, 0, true, 5000, ?_⟩
  repeat' apply And.intro
  all_goals first | with_reducible rfl | decide | (show (_ : Nat) < _; decide) | rfl

theorem witness_ringAndSlotRowsComplete_13 :
    ∃ (s : State) (e : EngineId) (orders : List (List Nat)), e.val < s.engines.length ∧ (engineAt s e).rings.length = 72 ∧ orders.length = 72 ∧ s.boot.down = false := by
  refine ⟨base, 0, List.replicate 72 [], ?_⟩
  repeat' apply And.intro
  all_goals first | with_reducible rfl | decide | (show (_ : Nat) < _; decide) | rfl

theorem witness_ringAndSlotRowsComplete_14 :
    ∃ (s : State) (e : EngineId), e.val < s.engines.length ∧ (engineAt s e).rings.length = 72 := by
  refine ⟨base, 0, ?_⟩
  repeat' apply And.intro
  all_goals first | with_reducible rfl | decide | (show (_ : Nat) < _; decide) | rfl

theorem witness_ringAndSlotRowsComplete_15 :
    ∃ (s : State) (e : EngineId) (r : OeRing) (h : Nat) (w : Nat), (waveRing (engineAt s e) r).state = .locked ∧ (waveRing (engineAt s e) r).slot = 0x3E ∧ (w < 20 ∨ h < 16) := by
  refine ⟨onOe lit (fun q => { lockedRing q with slot := 0x3E }), 0, 0, 15, 20, ?_⟩
  repeat' apply And.intro
  all_goals first | with_reducible rfl | decide | (show (_ : Nat) < _; decide) | rfl

theorem witness_ringAndSlotRowsComplete_16 :
    ∃ (s : State) (e : EngineId) (r : OeRing) (h : Nat) (w : Nat), (waveRing (engineAt s e) r).state = .locked ∧ (waveRing (engineAt s e) r).slot = 0x3E ∧ 20 ≤ w ∧ 16 ≤ h := by
  refine ⟨onOe lit (fun q => { lockedRing q with slot := 0x3E }), 0, 0, 16, 20, ?_⟩
  repeat' apply And.intro
  all_goals first | with_reducible rfl | decide | (show (_ : Nat) < _; decide) | rfl

theorem witness_ringAndSlotRowsComplete_17 :
    ∃ (s : State) (e : EngineId) (r : OeRing) (heater : Nat) (dom : Option (Fin 18)) (lit : Bool), HasRing s e r ∧ relocking (waveRing (engineAt s e) r) = true ∧ inWindow heater = true ∧ (dom ≠ some (Fin.ofNat 18 r) ∨ toneTaken (engineAt s e) r (r.val % 18) heater = true) ∧ (waveRing (engineAt s e) r).fromLast = true ∧ ToneAlone (engineAt s e) r heater dom := by
  refine ⟨onOe lit (fun q => { q with state := .searching, fromLast := true }), 0, 0, 5000, none, true, ?_⟩
  repeat' apply And.intro
  all_goals first | with_reducible rfl | decide | (show (_ : Nat) < _; decide) | rfl | (first | (left; decide) | (unfold ToneAlone; decide +kernel))

theorem witness_ringAndSlotRowsComplete_18 :
    ∃ (s : State) (e : EngineId) (r : OeRing) (v : OeRing) (heater : Nat) (lit : Bool), HasRing s e r ∧ HasRing s e v ∧ r.val / 18 = v.val / 18 ∧ r ≠ v ∧ relocking (waveRing (engineAt s e) r) = true ∧ inWindow heater = true ∧ toneTaken (engineAt s e) r (r.val % 18) heater = false ∧ (waveRing (engineAt s e) v).state = .locked ∧ (waveRing (engineAt s e) v).tone = some (r.val % 18) ∧ heater < (waveRing (engineAt s e) v).toneCode ∧ (∀ k < 18, k ≠ r.val % 18 → k ≠ v.val % 18 → (waveRing (engineAt s e) (r.val / 18 * 18 + k)).toneCode ≤ heater) := by
  refine ⟨onEngine (fun x => { lit x with rings := modAt (modAt x.rings 0 (fun q => { q with state := .searching })) 1 (fun q => { lockedRing q with toneCode := 6000 }) }), 0, 0, 1, 5000, true, ?_⟩
  repeat' apply And.intro
  all_goals first | with_reducible rfl | decide | (show (_ : Nat) < _; decide) | rfl

theorem witness_laserRowsComplete_1 :
    ∃ (s : State) (e : EngineId) (f : Fin 2) (power : Int), HasLaser s e f ∧ (laserOf s e f).mode ≠ .off := by
  refine ⟨lasing (fun l => { l with mode := .run }), 0, 1, 0, ?_⟩
  repeat' apply And.intro
  all_goals first | with_reducible rfl | decide | (show (_ : Nat) < _; decide) | rfl

theorem witness_laserRowsComplete_2 :
    ∃ (s : State) (e : EngineId) (f : Fin 2) (power : Int) (lost : List (Fin 18)), HasLaser s e f ∧ (engineAt s e).rings.length = 72 ∧ (laserOf s e f).mode ≠ .off := by
  refine ⟨lasing (fun l => { l with mode := .run }), 0, 1, 0, [17], ?_⟩
  repeat' apply And.intro
  all_goals first | with_reducible rfl | decide | (show (_ : Nat) < _; decide) | rfl

theorem witness_laserRowsComplete_3 :
    ∃ (s : State) (e : EngineId) (f : Fin 2), HasLaser s e f ∧ (laserOf s e f).retired = false ∧ (engineAt s e).elsPresent = true ∧ (laserOf s e f).ramp = true ∧ (elsOf s (enginePort e)).matched = true ∧ (laserOf s e f).mode = .off := by
  refine ⟨matching (lasing (fun l => { l with mode := .off, ramp := true })), 0, 1, ?_⟩
  repeat' apply And.intro
  all_goals first | with_reducible rfl | decide | (show (_ : Nat) < _; decide) | rfl

theorem witness_laserRowsComplete_4 :
    ∃ (s : State) (e : EngineId) (f : Fin 2), HasLaser s e f ∧ (laserOf s e f).retired = false ∧ (engineAt s e).elsPresent = true ∧ (laserOf s e f).ramp = true ∧ (elsOf s (enginePort e)).matched = true ∧ (laserOf s e f).mode = .probe ∧ ((engineAt s e).state = .up ∨ 2 ≤ (engineAt s e).bringUp.step) := by
  refine ⟨matching (lasing (fun l => { l with mode := .probe, ramp := true })), 0, 1, ?_⟩
  repeat' apply And.intro
  all_goals first | with_reducible rfl | decide | (show (_ : Nat) < _; decide) | rfl

theorem witness_laserRowsComplete_5 :
    ∃ (s : State) (e : EngineId) (f : Fin 2), HasLaser s e f ∧ (engineAt s e).started = true ∧ (engineAt s e).inReset = false ∧ (engineAt s e).state = .up := by
  refine ⟨lasing (fun l => { l with mode := .run }), 0, 1, ?_⟩
  repeat' apply And.intro
  all_goals first | with_reducible rfl | decide | (show (_ : Nat) < _; decide) | rfl

theorem witness_laserRowsComplete_6 :
    ∃ (s : State) (e : EngineId) (f : Fin 2), HasLaser s e f ∧ (engineAt s e).started = true ∧ (engineAt s e).inReset = false ∧ (engineAt s e).state = .training ∧ 0 < (engineAt s e).bringUp.step := by
  refine ⟨onEngine (fun x => { training 1 x with elsPresent := true, lasers := x.lasers.map (fun l => { l with mode := .run }) }), 0, 1, ?_⟩
  repeat' apply And.intro
  all_goals first | with_reducible rfl | decide | (show (_ : Nat) < _; decide) | rfl

theorem witness_laserRowsComplete_7 :
    ∃ (s : State) (p : ElsId), s.engines.length = 24 ∧ s.els.length = 6 ∧ s.boot.down = false := by
  refine ⟨base, 5, ?_⟩
  repeat' apply And.intro
  all_goals first | with_reducible rfl | decide | (show (_ : Nat) < _; decide) | rfl

theorem witness_laserRowsComplete_8 :
    ∃ (s : State) (p : ElsId) (grid : Bool) (tones : Bool), s.engines.length = 24 ∧ s.els.length = 6 ∧ s.boot.down = false ∧ (grid && tones) = false := by
  refine ⟨base, 5, true, false, ?_⟩
  repeat' apply And.intro
  all_goals first | with_reducible rfl | decide | (show (_ : Nat) < _; decide) | rfl

theorem witness_laserRowsComplete_9 :
    ∃ (s : State) (p : ElsId) (failed : List (Fin 8 × Fin 18)), s.els.length = 6 ∧ (elsOf s p).present = true := by
  refine ⟨{ base with els := modAt base.els 5 (fun x => { x with present := true }) }, 5, [], ?_⟩
  repeat' apply And.intro
  all_goals first | with_reducible rfl | decide | (show (_ : Nat) < _; decide) | rfl

theorem witness_laserRowsComplete_10 :
    ∃ (s : State) (p : ElsId), s.els.length = 6 ∧ (elsOf s p).present = true := by
  refine ⟨{ base with els := modAt base.els 5 (fun x => { x with present := true, failed := [(0, 1)] }) }, 5, ?_⟩
  repeat' apply And.intro
  all_goals first | with_reducible rfl | decide | (show (_ : Nat) < _; decide) | rfl

theorem witness_laserRowsComplete_11 :
    ∃ (s : State) (p : ElsId) (failed : List (Fin 8 × Fin 18)), s.els.length = 6 ∧ (elsOf s p).present = true := by
  refine ⟨{ base with els := modAt base.els 5 (fun x => { x with present := true }) }, 5, [], ?_⟩
  repeat' apply And.intro
  all_goals first | with_reducible rfl | decide | (show (_ : Nat) < _; decide) | rfl

theorem witness_laserRowsComplete_12 :
    ∃ (s : State) (p : ElsId), s.engines.length = 24 ∧ s.els.length = 6 ∧ (elsOf s p).present = true := by
  refine ⟨{ base with els := modAt base.els 5 (fun x => { x with present := true }) }, 5, ?_⟩
  repeat' apply And.intro
  all_goals first | with_reducible rfl | decide | (show (_ : Nat) < _; decide) | rfl

theorem witness_laserRowsComplete_13 :
    ∃ (s : State) (e : EngineId) (f : Fin 2), HasLaser s e f ∧ (laserOf s e f).retired = false ∧ (engineAt s e).elsPresent = true ∧ (laserOf s e f).ramp = true ∧ (elsOf s (enginePort e)).matched = true ∧ (laserOf s e f).mode = .run ∧ (laserOf s e f).setting < (laserOf s e f).atten := by
  refine ⟨matching (lasing (fun l => { l with mode := .run, ramp := true, atten := 1, setting := 0 })), 0, 1, ?_⟩
  repeat' apply And.intro
  all_goals first | with_reducible rfl | decide | (show (_ : Nat) < _; decide) | rfl

theorem witness_laserRowsComplete_14 :
    ∃ (s : State) (e : EngineId) (f : Fin 2), HasLaser s e f ∧ (laserOf s e f).retired = false ∧ (engineAt s e).elsPresent = true ∧ (laserOf s e f).ramp = true ∧ (elsOf s (enginePort e)).matched = true ∧ (laserOf s e f).mode = .run ∧ (laserOf s e f).atten ≤ (laserOf s e f).setting := by
  refine ⟨matching (lasing (fun l => { l with mode := .run, ramp := true, atten := 0, setting := 0 })), 0, 1, ?_⟩
  repeat' apply And.intro
  all_goals first | with_reducible rfl | decide | (show (_ : Nat) < _; decide) | rfl

theorem witness_liveChangeRowsComplete_1 :
    ∃ (s : State) (e : EngineId) (slot : Fin 32) (dir : Bool) (f : Fin 2) (l : Fin 18) (eff : Nat) (side : _), e.val < s.engines.length ∧ takesWords (engineAt s e) = true ∧ side = sideOfDir dir ∧ (dirOf (engineAt s e) side).maps.any (fun x => x.1 == slot.val && x.2.1 == 18 * f.val + l.val) = false := by
  refine ⟨onEngine lit, 0, 31, true, 1, 17, 2047, 0, ?_⟩
  repeat' apply And.intro
  all_goals first | with_reducible rfl | decide | (show (_ : Nat) < _; decide) | rfl

theorem witness_liveChangeRowsComplete_2 :
    ∃ (s : State) (e : EngineId) (slot : Fin 32) (dir : Bool) (f : Fin 2) (l : Fin 18) (eff : Nat) (side : _), takesWords (engineAt s e) = true ∧ side = sideOfDir dir ∧ (dirOf (engineAt s e) side).maps.any (fun x => x.1 == slot.val && x.2.1 == 18 * f.val + l.val) = true := by
  refine ⟨onEngine (fun x => { lit x with tx := { x.tx with maps := [(31, 35, 0)] } }), 0, 31, true, 1, 17, 0, 0, ?_⟩
  repeat' apply And.intro
  all_goals first | with_reducible rfl | decide | (show (_ : Nat) < _; decide) | rfl

theorem witness_liveChangeRowsComplete_3 :
    ∃ (s : State) (e : EngineId) (rate : Fin 4) (width : Fin 4) (eff : Nat), e.val < s.engines.length ∧ takesWords (engineAt s e) = true ∧ (engineAt s e).tx.change = none ∧ rateAllowed (engineAt s e).bringUp rate = true := by
  refine ⟨onEngine lit, 0, 3, 3, 65535, ?_⟩
  repeat' apply And.intro
  all_goals first | with_reducible rfl | decide | (show (_ : Nat) < _; decide) | rfl

theorem witness_liveChangeRowsComplete_4 :
    ∃ (s : State) (e : EngineId) (rate : Fin 4) (width : Fin 4) (eff : Nat) (c : _), e.val < s.engines.length ∧ takesWords (engineAt s e) = true ∧ (engineAt s e).tx.change = some c ∧ rateAllowed (engineAt s e).bringUp rate = true := by
  refine ⟨onEngine (fun x => { lit x with tx := { x.tx with change := some (change0 false false) } }), 0, 0, 0, 0, change0 false false, ?_⟩
  repeat' apply And.intro
  all_goals first | with_reducible rfl | decide | (show (_ : Nat) < _; decide) | rfl

theorem witness_liveChangeRowsComplete_5 :
    ∃ (s : State) (e : EngineId) (dir : Bool) (c : _) (side : _), e.val < s.engines.length ∧ side = bnat dir ∧ (engineAt s e).state = .up ∧ (dirOf (engineAt s e) side).change = some c ∧ c.switched = false ∧ c.rateChange = false ∧ reached (engineAt s e) side c.effective 65536 = true ∧ (dirOf (engineAt s e) side).deferred = [] ∧ (dirOf (engineAt s e) side).paused.length ≤ 4 := by
  refine ⟨onEngine (fun x => { lit x with tx := { x.tx with change := some (change0 false false) } }), 0, false, change0 false false, 0, ?_⟩
  repeat' apply And.intro
  all_goals first | with_reducible rfl | decide | (show (_ : Nat) < _; decide) | rfl

theorem witness_liveChangeRowsComplete_6 :
    ∃ (s : State) (e : EngineId) (dir : Bool) (c : _) (side : _), e.val < s.engines.length ∧ side = bnat dir ∧ (engineAt s e).state = .up ∧ (dirOf (engineAt s e) side).change = some c ∧ c.switched = false ∧ c.rateChange = true ∧ reached (engineAt s e) side c.effective 65536 = true := by
  refine ⟨onEngine (fun x => { lit x with tx := { x.tx with change := some (change0 true false) } }), 0, false, change0 true false, 0, ?_⟩
  repeat' apply And.intro
  all_goals first | with_reducible rfl | decide | (show (_ : Nat) < _; decide) | rfl

theorem witness_liveChangeRowsComplete_7 :
    ∃ (s : State) (e : EngineId) (dir : Bool) (c : _) (side : _), e.val < s.engines.length ∧ side = bnat dir ∧ (engineAt s e).state = .training ∧ (dirOf (engineAt s e) side).change = some c ∧ c.switched = false ∧ reached (engineAt s e) side c.effective 65536 = true ∧ (if side = 0 then (engineAt s e).bringUp.rxSet else (engineAt s e).bringUp.txSet) = true := by
  refine ⟨onEngine (fun x => { training 8 x with bringUp := { x.bringUp with rxSet := true, txSet := true }, tx := { x.tx with change := some (change0 false false) } }), 0, false, change0 false false, 0, ?_⟩
  repeat' apply And.intro
  all_goals first | with_reducible rfl | decide | (show (_ : Nat) < _; decide) | rfl

theorem witness_liveChangeRowsComplete_8 :
    ∃ (s : State) (e : EngineId) (dir : Bool) (side : _) (m : _), e.val < s.engines.length ∧ side = bnat dir ∧ takesWords (engineAt s e) = true ∧ (dirOf (engineAt s e) side).change = none ∧ (dirOf (engineAt s e) side).maps.head? = some m ∧ reached (engineAt s e) side m.2.2 2048 = true := by
  refine ⟨onEngine (fun x => { lit x with tx := { x.tx with maps := [(31, 35, 0)] } }), 0, false, 0, (31, 35, 0), ?_⟩
  repeat' apply And.intro
  all_goals first | with_reducible rfl | decide | (show (_ : Nat) < _; decide) | rfl

theorem witness_liveChangeRowsComplete_9 :
    ∃ (s : State) (e : EngineId) (dir : Bool), e.val < s.engines.length ∧ (dirOf (engineAt s e) (bnat dir)).change.isSome = true ∧ (engineAt s e).state = .up := by
  refine ⟨onEngine (fun x => { lit x with tx := { x.tx with change := some (change0 true true) } }), 0, false, ?_⟩
  repeat' apply And.intro
  all_goals first | with_reducible rfl | decide | (show (_ : Nat) < _; decide) | rfl

theorem witness_liveChangeRowsComplete_10 :
    ∃ (s : State) (e : EngineId) (dir : Bool), e.val < s.engines.length ∧ (dirOf (engineAt s e) (bnat dir)).change.isSome = true ∧ (engineAt s e).state = .training := by
  refine ⟨onEngine (fun x => { training 8 x with tx := { x.tx with change := some (change0 true true) } }), 0, false, ?_⟩
  repeat' apply And.intro
  all_goals first | with_reducible rfl | decide | (show (_ : Nat) < _; decide) | rfl

theorem witness_liveChangeRowsComplete_11 :
    ∃ (s : State) (e : EngineId) (ring : Fin 36) (post : Bool) (action : Nat), e.val < s.engines.length ∧ ring.val < (engineAt s e).ffe.length ∧ takesWords (engineAt s e) = true ∧ isForerunner (engineAt s e).bringUp = false ∧ action ≤ 2 := by
  refine ⟨onEngine lit, 0, 35, true, 2, ?_⟩
  repeat' apply And.intro
  all_goals first | with_reducible rfl | decide | (show (_ : Nat) < _; decide) | rfl

theorem witness_liveChangeRowsComplete_12 :
    ∃ (s : State) (e : EngineId) (ring : Fin 36) (pre : Nat) (post : Nat) (limit : Bool), e.val < s.engines.length ∧ ring.val < (engineAt s e).ffe.length ∧ takesWords (engineAt s e) = true ∧ isForerunner (engineAt s e).bringUp = false := by
  refine ⟨onEngine lit, 0, 35, 12, 20, true, ?_⟩
  repeat' apply And.intro
  all_goals first | with_reducible rfl | decide | (show (_ : Nat) < _; decide) | rfl

theorem witness_liveChangeRowsComplete_13 :
    ∃ (s : State) (e : EngineId), e.val < s.engines.length ∧ (engineAt s e).state = .up := by
  refine ⟨onEngine lit, 0, ?_⟩
  repeat' apply And.intro
  all_goals first | with_reducible rfl | decide | (show (_ : Nat) < _; decide) | rfl

theorem witness_liveChangeRowsComplete_14 :
    ∃ (s : State) (e : EngineId) (ring : Fin 36), e.val < s.engines.length ∧ (engineAt s e).state = .up ∧ (waveRing (engineAt s e) ring).state = .locked ∧ (waveRing (engineAt s e) ring).slot < (engineAt s e).tx.width := by
  refine ⟨onOe lit lockedRing, 0, 0, ?_⟩
  repeat' apply And.intro
  all_goals first | with_reducible rfl | decide | (show (_ : Nat) < _; decide) | rfl

theorem witness_liveChangeRowsComplete_15 :
    ∃ (s : State) (e : EngineId) (c : _), e.val < s.engines.length ∧ (engineAt s e).state = .up ∧ (engineAt s e).rx.change = some c ∧ c.switched = true ∧ c.rateChange = true ∧ relocked (engineAt s e).rx = true ∧ (engineAt s e).rx.deferred = [] ∧ (engineAt s e).rx.paused.length ≤ 4 := by
  refine ⟨onEngine (fun x => { lit x with rx := { x.rx with change := some (change0 true true), frameLock := List.replicate 36 true } }), 0, change0 true true, ?_⟩
  repeat' apply And.intro
  all_goals first | with_reducible rfl | decide | (show (_ : Nat) < _; decide) | rfl

theorem witness_liveChangeRowsComplete_16 :
    ∃ (s : State) (e : EngineId) (dir : Bool) (c : _) (side : _), side = bnat dir ∧ (dirOf (engineAt s e) side).change = some c ∧ c.switched = false ∧ reached (engineAt s e) side c.effective 65536 = false := by
  refine ⟨onEngine (fun x => { lit x with tx := { x.tx with change := some { change0 false false with effective := 1 } } }), 0, false, { change0 false false with effective := 1 }, 0, ?_⟩
  repeat' apply And.intro
  all_goals first | with_reducible rfl | decide | (show (_ : Nat) < _; decide) | rfl

theorem witness_bringUpRowsComplete_1 :
    ∃ (s : State) (e : EngineId) (w : HelloWord), e.val < s.engines.length ∧ (engineAt s e).state = .up := by
  refine ⟨onEngine lit, 0, hello0, ?_⟩
  repeat' apply And.intro
  all_goals first | with_reducible rfl | decide | (show (_ : Nat) < _; decide) | rfl

theorem witness_bringUpRowsComplete_2 :
    ∃ (s : State) (e : EngineId) (w : HelloWord), e.val < s.engines.length ∧ (engineAt s e).state = .portAbsent := by
  refine ⟨onEngine (fun x => { x with state := .portAbsent }), 0, hello0, ?_⟩
  repeat' apply And.intro
  all_goals first | with_reducible rfl | decide | (show (_ : Nat) < _; decide) | rfl

theorem witness_bringUpRowsComplete_3 :
    ∃ (s : State) (e : EngineId) (w : HelloWord), e.val < s.engines.length ∧ (engineAt s e).state = .training ∧ (engineAt s e).bringUp.step ≠ 0 := by
  refine ⟨onEngine (training 1), 0, hello0, ?_⟩
  repeat' apply And.intro
  all_goals first | with_reducible rfl | decide | (show (_ : Nat) < _; decide) | rfl

theorem witness_bringUpRowsComplete_4 :
    ∃ (s : State) (e : EngineId) (step : Nat) (rate : Fin 4) (passing : List (List (Fin 36))) (b : _), e.val < s.engines.length ∧ (engineAt s e).state = .training ∧ b = (engineAt (s.notePassing e passing) e).bringUp ∧ 1 ≤ b.step ∧ step = b.step ∧ b.selfDone = true ∧ stepAfter b < 8 := by
  refine ⟨onEngine (training 1), 0, 1, 0, [], (engineAt ((onEngine (training 1)).notePassing (0) ([])) (0)).bringUp, ?_⟩
  repeat' apply And.intro
  all_goals first | with_reducible rfl | decide | (show (_ : Nat) < _; decide) | rfl

theorem witness_bringUpRowsComplete_5 :
    ∃ (s : State) (e : EngineId) (step : Nat) (rate : Fin 4) (passing : List (List (Fin 36))) (b : _) (r : Nat) (w : Nat), e.val < s.engines.length ∧ (engineAt s e).state = .training ∧ b = (engineAt (s.notePassing e passing) e).bringUp ∧ 1 ≤ b.step ∧ step = b.step ∧ b.selfDone = true ∧ step < 8 ∧ stepAfter b = 8 ∧ chooseRate b (lockedLambdas (engineAt s e) 1) = some (r, w) := by
  refine ⟨onEngine (fun x => { training 7 x with rings := x.rings.map lockedRing, bringUp := { x.bringUp with step := 7, selfDone := true, partner := some hello0, passing := List.replicate 4 (List.range 36) } }), 0, 7, 3, [], (engineAt ((onEngine (fun x => { training 7 x with rings := x.rings.map lockedRing, bringUp := { x.bringUp with step := 7, selfDone := true, partner := some hello0, passing := List.replicate 4 (List.range 36) } })).notePassing (0) ([])) (0)).bringUp, 3, 32, ?_⟩
  repeat' apply And.intro
  all_goals first | with_reducible rfl | decide | (show (_ : Nat) < _; decide) | rfl

theorem witness_bringUpRowsComplete_6 :
    ∃ (s : State) (e : EngineId) (step : Nat) (rate : Fin 4) (passing : List (List (Fin 36))) (b : BringUp), e.val < s.engines.length ∧ (engineAt s e).state = .training ∧ b = (engineAt (s.notePassing e passing) e).bringUp ∧ 1 ≤ b.step ∧ step = b.step ∧ b.selfDone = false ∧ step < 8 ∧ workDone (engineAt (s.notePassing e passing) e) = false := by
  refine ⟨onEngine (fun x => { training 1 x with bringUp := { (training 1 x).bringUp with selfDone := false } }), 0, 1, 0, [], (engineAt ((onEngine (fun x => { training 1 x with bringUp := { (training 1 x).bringUp with selfDone := false } })).notePassing (0) ([])) (0)).bringUp, ?_⟩
  repeat' apply And.intro
  all_goals first | with_reducible rfl | decide | (show (_ : Nat) < _; decide) | rfl

theorem witness_bringUpRowsComplete_7 :
    ∃ (s : State) (e : EngineId) (step : Nat) (rate : Fin 4) (u : _), e.val < s.engines.length ∧ (engineAt s e).state = .training ∧ u = s.stepDone e ∧ 1 ≤ (engineAt u e).bringUp.step ∧ nextStep (engineAt u e).bringUp step = true ∧ step < 8 := by
  refine ⟨onEngine (training 1), 0, 2, 0, (onEngine (training 1)).stepDone (0), ?_⟩
  repeat' apply And.intro
  all_goals first | with_reducible rfl | decide | (show (_ : Nat) < _; decide) | rfl

theorem witness_bringUpRowsComplete_8 :
    ∃ (s : State) (e : EngineId) (step : Nat) (rate : Fin 4), e.val < s.engines.length ∧ (engineAt s e).state = .training ∧ 1 ≤ (engineAt s e).bringUp.step ∧ 1 ≤ step := by
  refine ⟨onEngine (training 1), 0, 8, 0, ?_⟩
  repeat' apply And.intro
  all_goals first | with_reducible rfl | decide | (show (_ : Nat) < _; decide) | rfl

theorem witness_bringUpRowsComplete_9 :
    ∃ (s : State) (e : EngineId) (rate : Fin 4) (passing : List (List (Fin 36))), e.val < s.engines.length ∧ (engineAt s e).state = .up := by
  refine ⟨onEngine lit, 0, 0, [], ?_⟩
  repeat' apply And.intro
  all_goals first | with_reducible rfl | decide | (show (_ : Nat) < _; decide) | rfl

theorem witness_bringUpRowsComplete_10 :
    ∃ (s : State) (e : EngineId) (step : Nat) (rate : Fin 4) (passing : List (List (Fin 36))) (c : _), e.val < s.engines.length ∧ (engineAt s e).state = .up ∧ (engineAt s e).tx.change = some c ∧ c.switched = true ∧ c.rateChange = true ∧ (engineAt s e).tx.deferred = [] ∧ (engineAt s e).tx.paused.length ≤ 4 := by
  refine ⟨onEngine (fun x => { lit x with tx := { x.tx with change := some (change0 true true) } }), 0, 8, 0, [], change0 true true, ?_⟩
  repeat' apply And.intro
  all_goals first | with_reducible rfl | decide | (show (_ : Nat) < _; decide) | rfl

theorem witness_bringUpRowsComplete_11 :
    ∃ (s : State) (e : EngineId), e.val < s.engines.length ∧ (engineAt s e).state = .training ∧ 1 ≤ (engineAt s e).bringUp.step := by
  refine ⟨onEngine (training 8), 0, ?_⟩
  repeat' apply And.intro
  all_goals first | with_reducible rfl | decide | (show (_ : Nat) < _; decide) | rfl

theorem witness_bringUpRowsComplete_12 :
    ∃ (s : State) (e : EngineId), e.val < s.engines.length ∧ (engineAt s e).state = .training ∧ (engineAt s e).bringUp.step = 0 ∧ (engineAt s e).bringUp.attempt ≤ 3 := by
  refine ⟨onEngine (fun x => { training 0 x with bringUp := { x.bringUp with attempt := 3 } }), 0, ?_⟩
  repeat' apply And.intro
  all_goals first | with_reducible rfl | decide | (show (_ : Nat) < _; decide) | rfl

theorem witness_bringUpRowsComplete_13 :
    ∃ (s : State) (e : EngineId), e.val < s.engines.length ∧ (engineAt s e).state = .training ∧ (engineAt s e).bringUp.step = 0 ∧ 3 < (engineAt s e).bringUp.attempt := by
  refine ⟨onEngine (fun x => { training 0 x with bringUp := { x.bringUp with attempt := 4 } }), 0, ?_⟩
  repeat' apply And.intro
  all_goals first | with_reducible rfl | decide | (show (_ : Nat) < _; decide) | rfl

theorem witness_bringUpRowsComplete_14 :
    ∃ (s : State) (e : EngineId) (w : HelloWord), e.val < s.engines.length ∧ (engineAt s e).state = .portAbsent := by
  refine ⟨onEngine (fun x => { x with state := .portAbsent }), 0, hello0, ?_⟩
  repeat' apply And.intro
  all_goals first | with_reducible rfl | decide | (show (_ : Nat) < _; decide) | rfl

theorem witness_bringUpRowsComplete_16 :
    ∃ (s : State) (e : EngineId) (positions : Nat) (l : _), e.val < s.engines.length ∧ (engineAt s e).state = .up ∧ l = (((engineAt s e).slotFailed, (engineAt s e).positions + positions) :: (engineAt s e).buckets).take 16 ∧ total (l.map (·.1.length)) * 1000000 ≤ total (l.map (·.2)) := by
  refine ⟨onEngine lit, 0, 0, (((engineAt (onEngine lit) (0)).slotFailed, (engineAt (onEngine lit) (0)).positions + (0)) :: (engineAt (onEngine lit) (0)).buckets).take 16, ?_⟩
  repeat' apply And.intro
  all_goals first | with_reducible rfl | decide | (show (_ : Nat) < _; decide) | rfl

theorem witness_bringUpRowsComplete_17 :
    ∃ (s : State) (e : EngineId) (positions : Nat) (l : _), e.val < s.engines.length ∧ (engineAt s e).state = .up ∧ l = (((engineAt s e).slotFailed, (engineAt s e).positions + positions) :: (engineAt s e).buckets).take 16 ∧ total (l.map (·.2)) < total (l.map (·.1.length)) * 1000000 := by
  refine ⟨onEngine (fun x => { lit x with slotFailed := [0] }), 0, 999999, (((engineAt (onEngine (fun x => { lit x with slotFailed := [0] })) (0)).slotFailed, (engineAt (onEngine (fun x => { lit x with slotFailed := [0] })) (0)).positions + (999999)) :: (engineAt (onEngine (fun x => { lit x with slotFailed := [0] })) (0)).buckets).take 16, ?_⟩
  repeat' apply And.intro
  all_goals first | with_reducible rfl | decide | (show (_ : Nat) < _; decide) | rfl

theorem witness_bringUpRowsComplete_18 :
    ∃ (s : State) (e : EngineId), e.val < s.engines.length ∧ (engineAt s e).state = .up ∧ (engineAt s e).restoring = true := by
  refine ⟨onEngine (fun x => { lit x with restoring := true }), 0, ?_⟩
  repeat' apply And.intro
  all_goals first | with_reducible rfl | decide | (show (_ : Nat) < _; decide) | rfl

theorem witness_bringUpRowsComplete_19 :
    ∃ (s : State) (e : EngineId) (w : HelloWord), (engineAt s e).state = .training ∧ (engineAt s e).bringUp.step = 0 := by
  refine ⟨onEngine (training 0), 0, hello0, ?_⟩
  repeat' apply And.intro
  all_goals first | with_reducible rfl | decide | (show (_ : Nat) < _; decide) | rfl

theorem witness_transactionRowsComplete_1 :
    ∃ (s : State) (e : EngineId) (m : List Byte) (unit : Nat) (a : Nat) (u : Option Nat), (engineAt s e).state = .up ∧ messageOk m = true ∧ wrongVc s e m = false ∧ ownId s ≠ 0xFFFF ∧ msgDst m = ownId s ∧ msgOp m = 0x02 ∧ unit = field 8 1 m ∧ unitHere s unit = true ∧ cacheAt s unit (msgSrc m) (msgTag m % 4096) = none ∧ ((cacheSources s unit).length < 16 ∨ (cacheSources s unit).contains (msgSrc m) = true) ∧ 24 < m.length ∧ u = (if unit = 0x80 then none else some (unit % 64)) ∧ a = msgOperand m % 2 ^ 48 ∧ memWaitsBy s u [⟨a, m.length - 24⟩] = false ∧ accessSource s u false [⟨a, m.length - 24⟩] = none := by
  refine ⟨routed stocked, 0, message 7 5 0x02 4 0x1003 0 (siteBase 0) [9], 0x80, siteBase 0, none, ?_⟩
  repeat' apply And.intro
  all_goals first | with_reducible rfl | decide | (show (_ : Nat) < _; decide) | rfl | (exact Or.inl (by decide))

theorem witness_transactionRowsComplete_2 :
    ∃ (s : State) (e : EngineId) (m : List Byte) (unit : Nat) (c : _), (engineAt s e).state = .up ∧ messageOk m = true ∧ wrongVc s e m = false ∧ ownId s ≠ 0xFFFF ∧ msgDst m = ownId s ∧ bit 7 (msgOp m) = false ∧ msgOp m ≠ 0x01 ∧ unit = field 8 1 m ∧ unitHere s unit = true ∧ cacheAt s unit (msgSrc m) (msgTag m % 4096) = some c ∧ c.gen = msgTag m / 4096 := by
  refine ⟨{ routed stocked with trans := { (routed stocked).trans with cache := [{ unit := 0x80, source := 5, slot := 3, gen := 1, code := 0 }] } }, 0, message 7 5 0x02 4 0x1003 0 (siteBase 0) [9], 0x80, { unit := 0x80, source := 5, slot := 3, gen := 1, code := 0 }, ?_⟩
  repeat' apply And.intro
  all_goals first | with_reducible rfl | decide | (show (_ : Nat) < _; decide) | rfl

theorem witness_transactionRowsComplete_3 :
    ∃ (s : State) (e : EngineId) (m : List Byte) (unit : Nat) (a : Nat) (n : Nat) (u : Option Nat), (engineAt s e).state = .up ∧ messageOk m = true ∧ wrongVc s e m = false ∧ ownId s ≠ 0xFFFF ∧ msgDst m = ownId s ∧ msgOp m = 0x01 ∧ unit = field 8 1 m ∧ unitHere s unit = true ∧ cacheAt s unit (msgSrc m) (msgTag m % 4096) = none ∧ ((cacheSources s unit).length < 16 ∨ (cacheSources s unit).contains (msgSrc m) = true) ∧ a = msgOperand m % 2 ^ 48 ∧ n = msgOperand m / 2 ^ 48 ∧ 1 ≤ n ∧ n ≤ 4096 ∧ u = (if unit = 0x80 then none else some (unit % 64)) ∧ memWaitsBy s u [⟨a, n⟩] = false ∧ accessSource s u true [⟨a, n⟩] = none := by
  refine ⟨routed stocked, 0, message 7 5 0x01 4 0x1003 0 (siteBase 0 + 4096 * 2 ^ 48) [], 0x80, siteBase 0, 4096, none, ?_⟩
  repeat' apply And.intro
  all_goals first | with_reducible rfl | decide | (show (_ : Nat) < _; decide) | rfl | (exact Or.inl (by decide))

theorem witness_transactionRowsComplete_4 :
    ∃ (s : State) (e : EngineId) (m : List Byte), (engineAt s e).state = .up ∧ messageOk m = true ∧ wrongVc s e m = false ∧ ownId s ≠ 0xFFFF ∧ msgDst m ≠ ownId s ∧ msgHops m = 0 := by
  refine ⟨routed stocked, 0, message 6 5 0x02 0 0x1003 0 0 [9], ?_⟩
  repeat' apply And.intro
  all_goals first | with_reducible rfl | decide | (show (_ : Nat) < _; decide) | rfl

theorem witness_transactionRowsComplete_5 :
    ∃ (s : State) (e : EngineId) (m : List Byte), e.val < s.engines.length ∧ (engineAt s e).state = .up ∧ (messageOk m = false ∨ wrongVc s e m = true) := by
  refine ⟨routed stocked, 0, [], ?_⟩
  repeat' apply And.intro
  all_goals first | with_reducible rfl | decide | (show (_ : Nat) < _; decide) | rfl

theorem witness_transactionRowsComplete_6 :
    ∃ (s : State) (m : List Byte) (slot : _) (q : _), messageOk m = true ∧ (∀ e, arrivedOn s m = some e → wrongVc s e m = false) ∧ ownId s ≠ 0xFFFF ∧ msgDst m = ownId s ∧ bit 7 (msgOp m) = true ∧ slot = msgTag m % 4096 ∧ requestAt s slot = some q ∧ q.gen = msgTag m / 4096 ∧ msgResp m = 0 ∧ q.cid = none ∧ q.block = none ∧ s.trans.waiting = [] := by
  refine ⟨asking none, message 7 5 0x81 4 0x1003 0 0 [], 3, request0 none, ?_⟩
  repeat' apply And.intro
  all_goals first | with_reducible rfl | decide | (show (_ : Nat) < _; decide) | rfl

theorem witness_transactionRowsComplete_7 :
    ∃ (s : State) (m : List Byte) (slot : _) (q : _) (cid : Nat) (c : _), messageOk m = true ∧ (∀ e, arrivedOn s m = some e → wrongVc s e m = false) ∧ ownId s ≠ 0xFFFF ∧ msgDst m = ownId s ∧ bit 7 (msgOp m) = true ∧ slot = msgTag m % 4096 ∧ requestAt s slot = some q ∧ q.gen = msgTag m / 4096 ∧ (msgResp m = 3 ∨ msgResp m = 5) ∧ q.cid = some cid ∧ q.block = none ∧ Live s cid c ∧ NoneFailed s cid ∧ migOf s cid true = none := by
  refine ⟨with1 (asking (some 1)) (begun [(0, 1, 0x10)]), message 7 5 0x81 4 0x1003 3 0 [], 3, request0 (some 1), 1, begun [(0, 1, 0x10)], ?_⟩
  repeat' apply And.intro
  all_goals first | with_reducible rfl | decide | (show (_ : Nat) < _; decide) | rfl | ((intro r h; cases h))

theorem witness_transactionRowsComplete_8 :
    ∃ (s : State) (m : List Byte) (slot : _) (q : _), messageOk m = true ∧ (∀ e, arrivedOn s m = some e → wrongVc s e m = false) ∧ ownId s ≠ 0xFFFF ∧ msgDst m = ownId s ∧ bit 7 (msgOp m) = true ∧ slot = msgTag m % 4096 ∧ requestAt s slot = some q ∧ q.gen ≠ msgTag m / 4096 := by
  refine ⟨asking none, message 7 5 0x81 4 0x2003 2 0 [], 3, request0 none, ?_⟩
  repeat' apply And.intro
  all_goals first | with_reducible rfl | decide | (show (_ : Nat) < _; decide) | rfl

theorem witness_transactionRowsComplete_9 :
    ∃ (s : State) (m : List Byte) (slot : _) (q : _), messageOk m = true ∧ (∀ e, arrivedOn s m = some e → wrongVc s e m = false) ∧ ownId s ≠ 0xFFFF ∧ msgDst m = ownId s ∧ bit 7 (msgOp m) = true ∧ slot = msgTag m % 4096 ∧ requestAt s slot = some q ∧ q.gen = msgTag m / 4096 ∧ msgResp m = 2 ∧ answerWaits s m = false := by
  refine ⟨asking none, message 7 5 0x81 4 0x1003 2 0 [], 3, request0 none, ?_⟩
  repeat' apply And.intro
  all_goals first | with_reducible rfl | decide | (show (_ : Nat) < _; decide) | rfl

theorem witness_transactionRowsComplete_10 :
    ∃ (s : State) (slot : Nat) (q : _) (cid : Nat) (c : _), requestAt s slot = some q ∧ q.cid = some cid ∧ q.block = none ∧ Live s cid c ∧ NoneFailed s cid ∧ migOf s cid true = none := by
  refine ⟨with1 (asking (some 1)) (begun [(0, 1, 0x10)]), 3, request0 (some 1), 1, begun [(0, 1, 0x10)], ?_⟩
  repeat' apply And.intro
  all_goals first | with_reducible rfl | decide | (show (_ : Nat) < _; decide) | rfl | ((intro r h; cases h))

theorem witness_transactionRowsComplete_11 :
    ∃ (s : State) (slot : Nat), requestAt s slot = none := by
  refine ⟨base, 4095, ?_⟩
  repeat' apply And.intro
  all_goals first | with_reducible rfl | decide | (show (_ : Nat) < _; decide) | rfl

theorem witness_transactionRowsComplete_12 :
    ∃ (s : State) (slot : Nat) (q : Request) (e : Nat), requestAt s slot = some q ∧ q.busy = true ∧ routeFor s (msgDst q.message) (field 9 1 q.message) (msgVc (msgOp q.message)) = some e := by
  refine ⟨{ asking none with trans := { (asking none).trans with requests := [{ request0 none with busy := true }] } }, 3, { request0 none with busy := true }, 0, ?_⟩
  repeat' apply And.intro
  all_goals first | with_reducible rfl | decide | (show (_ : Nat) < _; decide) | rfl

theorem witness_transactionRowsComplete_13 :
    ∃ (s : State) (slot : Nat), (∀ q, requestAt s slot = some q → q.busy = false) := by
  refine ⟨asking none, 3, ?_⟩
  repeat' apply And.intro
  all_goals first | with_reducible rfl | decide | (show (_ : Nat) < _; decide) | rfl | (intro q h; have e : requestAt (asking none) 3 = some (request0 none) := (by decide); rw [e] at h; cases h; rfl)

theorem witness_transactionRowsComplete_15 :
    ∃ (s : State) (p : _) (e : _), holdsLeases s = true ∧ caskPeers s = [p] ∧ p < 8192 ∧ s.trans.waiting = [] ∧ freeIndex (s.trans.requests.map (·.slot)) tagSlots ≠ none ∧ routeFor s p 0x80 (msgVc 0x11) = some e := by
  refine ⟨{ routed stocked with settings := some { settings0 with caskPeers := [5] }, cel := { stocked.cel with blocks := [{ block0 with place := .remote 5 }] } }, 5, 0, ?_⟩
  repeat' apply And.intro
  all_goals first | with_reducible rfl | decide | (show (_ : Nat) < _; decide) | rfl

theorem witness_transactionRowsComplete_16 :
    ∃ (s : State), holdsLeases s = false := by
  refine ⟨base, ?_⟩
  repeat' apply And.intro
  all_goals first | with_reducible rfl | decide | (show (_ : Nat) < _; decide) | rfl

theorem witness_thermalControlRowsComplete_1 :
    ∃ (s : State) (site : SiteId) (readings : List Int) (h : _) (r : _) (m : _) (bad : _), site.val < s.tiles.length ∧ (tileAt s site).state ≠ .isolated ∧ readings.length = 8 ∧ judge readings (tileAt s site).thermal.history (tileAt s site).thermal.rangeCount (tileAt s site).thermal.medianCount (tileAt s site).thermal.broken = (h, r, m, bad) ∧ (∀ k ∈ bad, (tileAt s site).thermal.broken.getD k false = true) := by
  refine ⟨base, 63, List.replicate 8 200, (judge (List.replicate 8 200) [] (List.replicate 8 0) (List.replicate 8 0) (List.replicate 8 false)).1, (judge (List.replicate 8 200) [] (List.replicate 8 0) (List.replicate 8 0) (List.replicate 8 false)).2.1, (judge (List.replicate 8 200) [] (List.replicate 8 0) (List.replicate 8 0) (List.replicate 8 false)).2.2.1, (judge (List.replicate 8 200) [] (List.replicate 8 0) (List.replicate 8 0) (List.replicate 8 false)).2.2.2, ?_⟩
  repeat' apply And.intro
  all_goals first | with_reducible rfl | decide | (show (_ : Nat) < _; decide) | rfl

theorem witness_thermalControlRowsComplete_2 :
    ∃ (s : State) (site : SiteId) (readings : List Int), (tileAt s site).state = .isolated := by
  refine ⟨{ base with tiles := base.tiles.map isolated }, 63, List.replicate 8 200, ?_⟩
  repeat' apply And.intro
  all_goals first | with_reducible rfl | decide | (show (_ : Nat) < _; decide) | rfl

theorem witness_thermalControlRowsComplete_3 :
    ∃ (s : State) (readings : List Int) (h : _) (r : _) (m : _) (bad : _), readings.length = 8 ∧ judge readings s.th.hubHistory s.th.hubRange s.th.hubMedian s.th.hubBroken = (h, r, m, bad) ∧ (∀ k ∈ bad, s.th.hubBroken.getD k false = true) := by
  refine ⟨base, List.replicate 8 200, (judge (List.replicate 8 200) [] (List.replicate 8 0) (List.replicate 8 0) (List.replicate 8 false)).1, (judge (List.replicate 8 200) [] (List.replicate 8 0) (List.replicate 8 0) (List.replicate 8 false)).2.1, (judge (List.replicate 8 200) [] (List.replicate 8 0) (List.replicate 8 0) (List.replicate 8 false)).2.2.1, (judge (List.replicate 8 200) [] (List.replicate 8 0) (List.replicate 8 0) (List.replicate 8 false)).2.2.2, ?_⟩
  repeat' apply And.intro
  all_goals first | with_reducible rfl | decide | (show (_ : Nat) < _; decide) | rfl

theorem witness_thermalControlRowsComplete_4 :
    ∃ (s : State) (e : EngineId) (readings : List Int) (h : _) (r : _) (m : _) (bad : _), e.val < s.engines.length ∧ readings.length = 4 ∧ judge readings (engineAt s e).sensorHistory (engineAt s e).sensorRange (engineAt s e).sensorMedian (engineAt s e).sensorBroken = (h, r, m, bad) ∧ (∀ k ∈ bad, (engineAt s e).sensorBroken.getD k false = true) := by
  refine ⟨base, 23, List.replicate 4 200, (judge (List.replicate 4 200) [] (List.replicate 4 0) (List.replicate 4 0) (List.replicate 4 false)).1, (judge (List.replicate 4 200) [] (List.replicate 4 0) (List.replicate 4 0) (List.replicate 4 false)).2.1, (judge (List.replicate 4 200) [] (List.replicate 4 0) (List.replicate 4 0) (List.replicate 4 false)).2.2.1, (judge (List.replicate 4 200) [] (List.replicate 4 0) (List.replicate 4 0) (List.replicate 4 false)).2.2.2, ?_⟩
  repeat' apply And.intro
  all_goals first | with_reducible rfl | decide | (show (_ : Nat) < _; decide) | rfl

theorem witness_thermalControlRowsComplete_5 :
    ∃ (s : State) (readings : List Int) (h : _) (r : _) (m : _) (bad : _), readings.length = 8 ∧ s.th.hubBroken.length = 8 ∧ judge readings s.th.hubHistory s.th.hubRange s.th.hubMedian s.th.hubBroken = (h, r, m, bad) := by
  refine ⟨base, List.replicate 8 200, (judge (List.replicate 8 200) [] (List.replicate 8 0) (List.replicate 8 0) (List.replicate 8 false)).1, (judge (List.replicate 8 200) [] (List.replicate 8 0) (List.replicate 8 0) (List.replicate 8 false)).2.1, (judge (List.replicate 8 200) [] (List.replicate 8 0) (List.replicate 8 0) (List.replicate 8 false)).2.2.1, (judge (List.replicate 8 200) [] (List.replicate 8 0) (List.replicate 8 0) (List.replicate 8 false)).2.2.2, ?_⟩
  repeat' apply And.intro
  all_goals first | with_reducible rfl | decide | (show (_ : Nat) < _; decide) | rfl

theorem witness_thermalControlRowsComplete_6 :
    ∃ (s : State) (site : SiteId) (x : _) (used : _), site.val < s.tiles.length ∧ x = (excesses s site).foldl max ((excesses s site).headD 0) ∧ used = (if 100 < (x - (tileAt s site).thermal.xUsed).natAbs then x else (tileAt s site).thermal.xUsed) := by
  refine ⟨stocked, 0, (excesses (stocked) (0)).foldl max ((excesses (stocked) (0)).headD 0), (if 100 < (((excesses (stocked) (0)).foldl max ((excesses (stocked) (0)).headD 0)) - (tileAt (stocked) (0)).thermal.xUsed).natAbs then ((excesses (stocked) (0)).foldl max ((excesses (stocked) (0)).headD 0)) else (tileAt (stocked) (0)).thermal.xUsed), ?_⟩
  repeat' apply And.intro
  all_goals first | with_reducible rfl | decide | (show (_ : Nat) < _; decide) | rfl

theorem witness_thermalControlRowsComplete_7 :
    ∃ (s : State) (site : SiteId) (top : _), site.val < s.tiles.length ∧ (tileAt s site).state = .compute ∧ top = Nat.min (tileAt s site).thermal.ceiling s.th.cP := by
  refine ⟨stocked, 0, 64, ?_⟩
  repeat' apply And.intro
  all_goals first | with_reducible rfl | decide | (show (_ : Nat) < _; decide) | rfl

theorem witness_thermalControlRowsComplete_8 :
    ∃ (s : State) (watts : Nat), watts ≤ capInForce s := by
  refine ⟨base, 3200, ?_⟩
  repeat' apply And.intro
  all_goals first | with_reducible rfl | decide | (show (_ : Nat) < _; decide) | rfl

theorem witness_thermalControlRowsComplete_9 :
    ∃ (s : State) (watts : Nat), capInForce s < watts := by
  refine ⟨base, 3201, ?_⟩
  repeat' apply And.intro
  all_goals first | with_reducible rfl | decide | (show (_ : Nat) < _; decide) | rfl

theorem witness_thermalControlRowsComplete_11 :
    ∃ (s : State) (p : Nat) (watts : Nat), p = (if s.th.telemetryFault then planningUnits s else 2432 * watts) := by
  refine ⟨base, 0, 0, ?_⟩
  repeat' apply And.intro
  all_goals first | with_reducible rfl | decide | (show (_ : Nat) < _; decide) | rfl

theorem witness_thermalControlRowsComplete_12 :
    ∃ (s : State) (d : DieRef) (slowdown : List Nat), slowdown ≠ [] ∧ (match d with | .tile n => n.val < s.tiles.length | .engine e => e.val < s.engines.length | .hub => True) ∧ dieThere s d = true ∧ pointDue s true ((ageingOf s d).points.getLast?.map (·.1)) = true := by
  refine ⟨base, .hub, [5, 9], ?_⟩
  repeat' apply And.intro
  all_goals first | with_reducible rfl | decide | (show (_ : Nat) < _; decide) | rfl | (exact True.intro)

theorem witness_thermalControlRowsComplete_13 :
    ∃ (s : State) (d : DieRef) (slowdown : List Nat), (slowdown = [] ∨ dieThere s d = false ∨ pointDue s true ((ageingOf s d).points.getLast?.map (·.1)) = false) := by
  refine ⟨base, .hub, [], ?_⟩
  repeat' apply And.intro
  all_goals first | with_reducible rfl | decide | (show (_ : Nat) < _; decide) | rfl | (exact Or.inl rfl)

theorem witness_thermalControlRowsComplete_14 :
    ∃ (s : State) (e : EngineId) (r : OeRing) (point : OpticalPointData), HasRing s e r ∧ pointDue s false ((waveRing (engineAt s e) r).points.getLast?.map (·.1)) = true := by
  refine ⟨onOe lit lockedRing, 0, 0, point0, ?_⟩
  repeat' apply And.intro
  all_goals first | with_reducible rfl | decide | (show (_ : Nat) < _; decide) | rfl

theorem witness_thermalControlRowsComplete_15 :
    ∃ (s : State) (e : EngineId) (r : OeRing) (point : OpticalPointData), pointDue s false ((waveRing (engineAt s e) r).points.getLast?.map (·.1)) = false := by
  refine ⟨onOe lit (fun q => { lockedRing q with points := [(0, point0)] }), 0, 0, point0, ?_⟩
  repeat' apply And.intro
  all_goals first | with_reducible rfl | decide | (show (_ : Nat) < _; decide) | rfl

theorem witness_tripRowsComplete_1 :
    ∃ (s : State), s.pins.pwrgd = true ∧ s.ret.tripped = false := by
  refine ⟨base, ?_⟩
  repeat' apply And.intro
  all_goals first | with_reducible rfl | decide | (show (_ : Nat) < _; decide) | rfl

theorem witness_tripRowsComplete_2 :
    ∃ (s : State) (x : SensorRef) (reading : Nat), s.pins.pwrgd = true ∧ s.ret.tripped = false ∧ classS s = false ∧ sensorBroken s x = false ∧ 110 ≤ reading := by
  refine ⟨base, .hub 7, 110, ?_⟩
  repeat' apply And.intro
  all_goals first | with_reducible rfl | decide | (show (_ : Nat) < _; decide) | rfl

theorem witness_tripRowsComplete_3 :
    ∃ (s : State) (x : SensorRef) (reading : Nat), (classS s = true ∨ sensorBroken s x = true ∨ reading < 110) := by
  refine ⟨base, .hub 7, 109, ?_⟩
  repeat' apply And.intro
  all_goals first | with_reducible rfl | decide | (show (_ : Nat) < _; decide) | rfl

theorem witness_tripRowsComplete_4 :
    ∃ (s : State) (x : SensorRef) (reading : Nat), s.pins.pwrgd = true ∧ s.ret.tripped = false ∧ classS s = true ∧ sensorBroken s x = false ∧ 120 ≤ reading := by
  refine ⟨classSState, .hub 7, 120, ?_⟩
  repeat' apply And.intro
  all_goals first | with_reducible rfl | decide | (show (_ : Nat) < _; decide) | rfl

theorem witness_tripRowsComplete_5 :
    ∃ (s : State) (x : SensorRef) (reading : Nat), (classS s = false ∨ sensorBroken s x = true ∨ reading < 120) := by
  refine ⟨classSState, .hub 7, 119, ?_⟩
  repeat' apply And.intro
  all_goals first | with_reducible rfl | decide | (show (_ : Nat) < _; decide) | rfl

theorem witness_tripRowsComplete_6 :
    ∃ (s : State) (hottest : Int), s.ret.tripped = true ∧ s.pins.refclk = true := by
  refine ⟨trippedBy .thermal, 279, ?_⟩
  repeat' apply And.intro
  all_goals first | with_reducible rfl | decide | (show (_ : Nat) < _; decide) | rfl

theorem witness_tripRowsComplete_7 :
    ∃ (s : State) (x : SensorRef) (reading : Nat), twiceHot s x = false := by
  refine ⟨classSState, .hub 7, 110, ?_⟩
  repeat' apply And.intro
  all_goals first | with_reducible rfl | decide | (show (_ : Nat) < _; decide) | rfl

theorem witness_tripRowsComplete_8 :
    ∃ (s : State) (katOk : Bool) (idA : Bool) (idB : Bool), s.ret.tripped = true ∧ (s.ret.tripKind = .thermal ∨ s.ret.tripKind = .overcurrent) ∧ 600 ≤ s.ret.coolSince.getD 0 ∧ s.pins.pwrgd = true := by
  refine ⟨trippedBy .overcurrent, true, true, true, ?_⟩
  repeat' apply And.intro
  all_goals first | with_reducible rfl | decide | (show (_ : Nat) < _; decide) | rfl

theorem witness_tripRowsComplete_9 :
    ∃ (s : State) (katOk : Bool) (idA : Bool) (idB : Bool), s.ret.tripKind = .backstop := by
  refine ⟨trippedBy .backstop, true, true, true, ?_⟩
  repeat' apply And.intro
  all_goals first | with_reducible rfl | decide | (show (_ : Nat) < _; decide) | rfl

theorem witness_tripRowsComplete_10 :
    ∃ (s : State) (x : SensorRef) (reading : Nat), classS s = true ∧ sensorBroken s x = false ∧ 110 ≤ reading ∧ twiceHot s x = true ∧ s.boot.hot = false ∧ s.boot.fwUp = true := by
  refine ⟨{ classSState with th := { classSState.th with hubHistory := List.replicate 8 [440, 440] } }, .hub 7, 110, ?_⟩
  repeat' apply And.intro
  all_goals first | with_reducible rfl | decide | (show (_ : Nat) < _; decide) | rfl

theorem witness_tripRowsComplete_11 :
    ∃ (s : State), s.pins.pwrgd = true ∧ s.ret.tripped = false := by
  refine ⟨base, ?_⟩
  repeat' apply And.intro
  all_goals first | with_reducible rfl | decide | (show (_ : Nat) < _; decide) | rfl

theorem witness_tripRowsComplete_12 :
    ∃ (s : State), (s.pins.pwrgd = false ∨ s.ret.tripped = true) := by
  refine ⟨State.reset, ?_⟩
  repeat' apply And.intro
  all_goals first | with_reducible rfl | decide | (show (_ : Nat) < _; decide) | rfl

theorem witness_tripRowsComplete_13 :
    ∃ (s : State) (katOk : Bool) (idA : Bool) (idB : Bool), s.ret.tripped = true ∧ s.ret.tripKind = .inputRange ∧ s.pins.pwrgd = true := by
  refine ⟨trippedBy .inputRange, true, true, true, ?_⟩
  repeat' apply And.intro
  all_goals first | with_reducible rfl | decide | (show (_ : Nat) < _; decide) | rfl

theorem witness_tripRowsComplete_14 :
    ∃ (s : State) (katOk : Bool) (idA : Bool) (idB : Bool), s.ret.tripKind ≠ .inputRange := by
  refine ⟨base, true, true, true, ?_⟩
  repeat' apply And.intro
  all_goals first | with_reducible rfl | decide | (show (_ : Nat) < _; decide) | rfl

theorem witness_faultAndFlashRowsComplete_1 :
    ∃ (s : State) (events : List FaultEvent), received s events ≠ [] := by
  refine ⟨base, [evS1], ?_⟩
  repeat' apply And.intro
  all_goals first | with_reducible rfl | decide | (show (_ : Nat) < _; decide) | rfl

theorem witness_faultAndFlashRowsComplete_2 :
    ∃ (s : State) (events : List FaultEvent), (∃ ev ∈ received s events, severityOf ev.source = 3) := by
  refine ⟨base, [evS3], ?_⟩
  repeat' apply And.intro
  all_goals first | with_reducible rfl | decide | (show (_ : Nat) < _; decide) | rfl | (exact ⟨evS3, by decide, by decide⟩)

theorem witness_faultAndFlashRowsComplete_3 :
    ∃ (s : State) (events : List FaultEvent), received s events = [] := by
  refine ⟨base, [], ?_⟩
  repeat' apply And.intro
  all_goals first | with_reducible rfl | decide | (show (_ : Nat) < _; decide) | rfl

theorem witness_faultAndFlashRowsComplete_4 :
    ∃ (s : State) (res : Resource) (st : _), openState s.flt (resourceKey res) = some st ∧ unrested s (resourceKey res) = false ∧ st.injectedOnly = true := by
  refine ⟨faulty true, .tile 0, state0 true, ?_⟩
  repeat' apply And.intro
  all_goals first | with_reducible rfl | decide | (show (_ : Nat) < _; decide) | rfl

theorem witness_faultAndFlashRowsComplete_5 :
    ∃ (s : State) (res : Resource) (st : _), openState s.flt (resourceKey res) = some st ∧ unrested s (resourceKey res) = false ∧ st.injectedOnly = false := by
  refine ⟨faulty false, .tile 0, state0 false, ?_⟩
  repeat' apply And.intro
  all_goals first | with_reducible rfl | decide | (show (_ : Nat) < _; decide) | rfl

theorem witness_faultAndFlashRowsComplete_6 :
    ∃ (s : State) (res : Resource), (openState s.flt (resourceKey res) = none ∨ unrested s (resourceKey res) = true) := by
  refine ⟨base, .tile 0, ?_⟩
  repeat' apply And.intro
  all_goals first | with_reducible rfl | decide | (show (_ : Nat) < _; decide) | rfl

theorem witness_faultAndFlashRowsComplete_7 :
    ∃ (s : State), s.ret.openRec.isSome = true ∧ s.ret.openAt + 60 ≤ s.ret.opTime := by
  refine ⟨{ base with ret := { base.ret with openRec := some rec0, opTime := 60 } }, ?_⟩
  repeat' apply And.intro
  all_goals first | with_reducible rfl | decide | (show (_ : Nat) < _; decide) | rfl

theorem witness_faultAndFlashRowsComplete_8 :
    ∃ (s : State) (i : Fin 2) (r : _) (l : _), (flashAt s i).queue = .log r :: l ∧ (flashAt s i).failed = false ∧ (s.log.refused && (flashAt s i).paused) = false := by
  refine ⟨flashing (.log rec0) 0, 0, rec0, [], ?_⟩
  repeat' apply And.intro
  all_goals first | with_reducible rfl | decide | (show (_ : Nat) < _; decide) | rfl

theorem witness_faultAndFlashRowsComplete_9 :
    ∃ (s : State) (m : Mirror) (l : List FlashOp), s.flashA.queue = .mirror m :: l ∧ s.flashA.failed = false ∧ (s.log.refused && s.flashA.paused) = false ∧ s.flashB.failed = false := by
  refine ⟨flashing (.mirror (.retiredCore 0)) 0, .retiredCore 0, [], ?_⟩
  repeat' apply And.intro
  all_goals first | with_reducible rfl | decide | (show (_ : Nat) < _; decide) | rfl

theorem witness_faultAndFlashRowsComplete_10 :
    ∃ (s : State) (i : Fin 2) (op : FlashOp) (l : List FlashOp), (flashAt s i).queue = op :: l ∧ (flashAt s i).failed = false ∧ (s.log.refused && (flashAt s i).paused) = false ∧ (flashAt s i).errors = 0 := by
  refine ⟨flashing (.log rec0) 0, 0, .log rec0, [], ?_⟩
  repeat' apply And.intro
  all_goals first | with_reducible rfl | decide | (show (_ : Nat) < _; decide) | rfl

theorem witness_faultAndFlashRowsComplete_11 :
    ∃ (s : State) (i : Fin 2) (op : FlashOp) (l : List FlashOp), (flashAt s i).queue = op :: l ∧ (flashAt s i).failed = false ∧ (s.log.refused && (flashAt s i).paused) = false ∧ (flashAt s i).errors ≠ 0 := by
  refine ⟨flashing (.log rec0) 1, 0, .log rec0, [], ?_⟩
  repeat' apply And.intro
  all_goals first | with_reducible rfl | decide | (show (_ : Nat) < _; decide) | rfl

theorem witness_faultAndFlashRowsComplete_12 :
    ∃ (s : State) (i : Fin 2) (ok : Bool), s.log.refused = true ∧ (flashAt s i).paused = true := by
  refine ⟨{ base with log := { base.log with refused := true }, flashA := { base.flashA with paused := true } }, 0, true, ?_⟩
  repeat' apply And.intro
  all_goals first | with_reducible rfl | decide | (show (_ : Nat) < _; decide) | rfl

theorem witness_faultAndFlashRowsComplete_13 :
    ∃ (s : State) (v : Int), flashSensor s = some v ∧ s.log.refused = false ∧ (v < 0 ∨ 340 < v) := by
  refine ⟨{ base with th := { base.th with hubHistory := List.replicate 8 [-1] }, log := { base.log with refused := false } }, -1, ?_⟩
  repeat' apply And.intro
  all_goals first | with_reducible rfl | decide | (show (_ : Nat) < _; decide) | rfl

theorem witness_faultAndFlashRowsComplete_14 :
    ∃ (s : State) (v : Int), flashSensor s = some v ∧ s.log.refused = true ∧ 8 ≤ v ∧ v ≤ 332 := by
  refine ⟨{ base with th := { base.th with hubHistory := List.replicate 8 [332] }, log := { base.log with refused := true } }, 332, ?_⟩
  repeat' apply And.intro
  all_goals first | with_reducible rfl | decide | (show (_ : Nat) < _; decide) | rfl

theorem witness_faultAndFlashRowsComplete_17 :
    ∃ (s : State), s.ret.powered = true ∧ s.pins.alertOut = true := by
  refine ⟨{ base with pins := { base.pins with alertOut := true } }, ?_⟩
  repeat' apply And.intro
  all_goals first | with_reducible rfl | decide | (show (_ : Nat) < _; decide) | rfl

theorem witness_faultAndFlashRowsComplete_18 :
    ∃ (s : State), (s.ret.powered = false ∨ s.pins.alertOut = false) := by
  refine ⟨base, ?_⟩
  repeat' apply And.intro
  all_goals first | with_reducible rfl | decide | (show (_ : Nat) < _; decide) | rfl

theorem witness_faultAndFlashRowsComplete_19 :
    ∃ (s : State), s.ret.powered = true ∧ s.sb.hubRunning = true := by
  refine ⟨{ base with sb := { base.sb with hubRunning := true } }, ?_⟩
  repeat' apply And.intro
  all_goals first | with_reducible rfl | decide | (show (_ : Nat) < _; decide) | rfl

theorem witness_faultAndFlashRowsComplete_21 :
    ∃ (s : State), s.ret.powered = false := by
  refine ⟨{ base with ret := { base.ret with powered := false } }, ?_⟩
  repeat' apply And.intro
  all_goals first | with_reducible rfl | decide | (show (_ : Nat) < _; decide) | rfl

theorem witness_streamCheckRowsComplete_1 :
    ∃ (s : State) (u : ScuId) (v : Word), u.val < s.scu.length ∧ (scuAt s u).enable = false ∧ v.getLsbD 31 = true ∧ ((scuAt s u).configure v.toNat).valid = true := by
  refine ⟨onScu (fun x => { x with aliveReg := 8 }), 0, 0x80010020, ?_⟩
  repeat' apply And.intro
  all_goals first | with_reducible rfl | decide | (show (_ : Nat) < _; decide) | rfl

theorem witness_streamCheckRowsComplete_2 :
    ∃ (s : State) (u : ScuId) (v : Word), u.val < s.scu.length ∧ (scuAt s u).enable = false ∧ v.getLsbD 31 = true ∧ ((scuAt s u).configure v.toNat).valid = false := by
  refine ⟨base, 15, 0x80000007, ?_⟩
  repeat' apply And.intro
  all_goals first | with_reducible rfl | decide | (show (_ : Nat) < _; decide) | rfl

theorem witness_streamCheckRowsComplete_3 :
    ∃ (s : State) (u : ScuId) (v : Word), (scuAt s u).enable = true ∧ v.getLsbD 31 = true := by
  refine ⟨onScu scuOn, 0, 0x80000000, ?_⟩
  repeat' apply And.intro
  all_goals first | with_reducible rfl | decide | (show (_ : Nat) < _; decide) | rfl

theorem witness_streamCheckRowsComplete_4 :
    ∃ (s : State) (u : ScuId), u.val < s.scu.length ∧ (scuAt s u).enable = true := by
  refine ⟨onScu scuOn, 0, ?_⟩
  repeat' apply And.intro
  all_goals first | with_reducible rfl | decide | (show (_ : Nat) < _; decide) | rfl

theorem witness_streamCheckRowsComplete_5 :
    ∃ (s : State) (u : ScuId) (bytes : List Byte) (ok : Bool), u.val < s.scu.length ∧ (scuAt s u).enable = true ∧ (scuAt s u).delivers s = true ∧ (scuAt s u).fixed = false := by
  refine ⟨onScu scuOn, 0, [1], true, ?_⟩
  repeat' apply And.intro
  all_goals first | with_reducible rfl | decide | (show (_ : Nat) < _; decide) | rfl

theorem witness_streamCheckRowsComplete_6 :
    ∃ (s : State) (u : ScuId) (bytes : List Byte) (ok : Bool), u.val < s.scu.length ∧ (scuAt s u).enable = true ∧ (scuAt s u).delivers s = true ∧ (scuAt s u).fixed = true ∧ (scuAt s u).partialBytes.length + bytes.length < (scuAt s u).frame.toNat := by
  refine ⟨onScu (fun x => { scuOn x with fixed := true, frame := 2 }), 0, [1], true, ?_⟩
  repeat' apply And.intro
  all_goals first | with_reducible rfl | decide | (show (_ : Nat) < _; decide) | rfl

theorem witness_streamCheckRowsComplete_7 :
    ∃ (s : State) (u : ScuId) (bytes : List Byte) (ok : Bool), u.val < s.scu.length ∧ (scuAt s u).enable = true ∧ (scuAt s u).delivers s = true ∧ (scuAt s u).fixed = true ∧ (scuAt s u).partialBytes.length + bytes.length = (scuAt s u).frame.toNat ∧ 0 < (scuAt s u).frame.toNat := by
  refine ⟨onScu (fun x => { scuOn x with fixed := true, frame := 2 }), 0, [1, 2], true, ?_⟩
  repeat' apply And.intro
  all_goals first | with_reducible rfl | decide | (show (_ : Nat) < _; decide) | rfl

theorem witness_streamCheckRowsComplete_8 :
    ∃ (s : State) (u : ScuId), u.val < s.scu.length ∧ (scuAt s u).fifo = [] := by
  refine ⟨base, 15, ?_⟩
  repeat' apply And.intro
  all_goals first | with_reducible rfl | decide | (show (_ : Nat) < _; decide) | rfl

theorem witness_streamCheckRowsComplete_9 :
    ∃ (s : State) (u : ScuId) (x : _) (l : List ScuEntry), u.val < s.scu.length ∧ (scuAt s u).fifo = x :: l := by
  refine ⟨onScu (fun x => { x with fifo := [entry0] }), 0, entry0, [], ?_⟩
  repeat' apply And.intro
  all_goals first | with_reducible rfl | decide | (show (_ : Nat) < _; decide) | rfl

theorem witness_storesStayInTheirPieces_22 :
    ∃ (s : State) (site : SiteId), (∀ r ∈ s.runs, ∀ p ∈ r.temps, p.store ≠ some site.val) := by
  refine ⟨base, 0, ?_⟩
  repeat' apply And.intro
  all_goals first | with_reducible rfl | decide | (show (_ : Nat) < _; decide) | rfl | (intro r h; cases h)

theorem witness_stepRunsTheFrontCommand :
    ∃ (c : Instr) (rest : List Instr) (s : State), s.pending = c :: rest := ⟨.powerDown, [.warmReset], { base with pending := [.powerDown, .warmReset] }, rfl⟩

theorem witness_emptyQueueOnlyPassesTime_1 :
    ∃ s : State, s.pending = [] ∧ s.pins.pwrgd = true ∧ s.ret.powered = true := ⟨base, rfl, rfl, by decide⟩

theorem witness_emptyQueueOnlyPassesTime_2 :
    ∃ s : State, s.pending = [] ∧ s.pins.pwrgd = false := ⟨State.reset, rfl, rfl⟩

theorem witness_emptyQueueOnlyPassesTime_3 :
    ∃ s : State, s.pending = [] ∧ s.ret.powered = false := ⟨{ base with ret := { base.ret with powered := false } }, rfl, rfl⟩

theorem witness_everyStepKeepsTheForm :
    ∃ s t : State, step s = .next t ∧ Inv s ∧ s.pending ≠ [] := by
  obtain ⟨t, h⟩ : ∃ t, step { stored with pending := [.powerDown] } = .next t := ⟨_, rfl⟩
  exact ⟨_, t, h, ⟨by decide +kernel, by decide, by decide, by decide, by decide, by decide, by decide, by decide, by decide⟩, by decide⟩

theorem witness_noCommandReadiesADownModule :
    ∃ (c : Instr) (s t : State), s.boot.down = true ∧ exec c s = .next t := ⟨.moduleReady 1, { base with boot := { base.boot with down := true, ready := false } }, _, rfl, rfl⟩

theorem witness_onlyRestartOrPowerEndsDown :
    ∃ (c : Instr) (s t : State), s.boot.down = true ∧ exec c s = .next t ∧ t.boot.down = false := ⟨.powerDown, { base with boot := { base.boot with down := true, ready := false } }, _, rfl, rfl, by decide +kernel⟩

theorem witness_stopStaysUntilColdReset :
    ∃ (c : Instr) (s t : State), s.boot.stopped = true ∧ exec c s = .next t ∧ t.boot.stopped = false := ⟨.powerDown, { base with boot := { base.boot with stopped := true } }, _, rfl, rfl, by decide +kernel⟩

theorem witness_settingsInForceStay :
    ∃ (c : Instr) (s t : State), exec c s = .next t ∧ ¬ coldRow c := ⟨.warmReset, base, _, rfl, fun h => h⟩

theorem witness_graphCommandsComplete_1 :
    ∃ s cid c image g i, ActsReading s cid 0x30 c ∧ image.length = c.arg 0x10 4 ∧ checkGraph image = .good g
      ∧ freeIndex (s.graphs.map (·.1)) 1024 = some i := by
  have h : (match checkGraph graphImage with | .good _ => true | .bad _ _ _ _ => false) = true := by decide +kernel
  cases hg : checkGraph graphImage with
  | good g => exact ⟨with1 base (cmd [(0, 1, 0x30), (0x10, 4, 240)]), 1, cmd [(0, 1, 0x30), (0x10, 4, 240)], graphImage, g, 0, ⟨⟨by decide, rfl⟩, by decide, by decide⟩, by decide +kernel, hg, by decide⟩
  | bad a b c d => rw [hg] at h; cases h

theorem witness_kernelCommandsComplete_1 :
    ∃ s cid c image k i, ActsReading s cid 0x32 c ∧ image.length = c.arg 0x10 4 ∧ checkKernel image = .ok k
      ∧ freeIndex (s.kernels.map (·.1)) 1024 = some i := by
  obtain ⟨k, hk⟩ := exists_ok (checkKernel kernelImage) (by decide +kernel)
  exact ⟨with1 base (cmd [(0, 1, 0x32), (0x10, 4, 328)]), 1, cmd [(0, 1, 0x32), (0x10, 4, 328)], kernelImage, k, 0, ⟨⟨by decide, rfl⟩, by decide, by decide⟩, by decide +kernel, hk, by decide⟩

theorem witness_modelCopyAndPlacementCommandsComplete_2 :
    ∃ s cid c manifest weights i mf v, ActsReading s cid 0x10 c ∧ c.flag 1 = false ∧ c.arg 0x1C 1 ≠ 1 ∧ loadData c manifest weights = true
      ∧ s.models.length = 64 ∧ freeSlot s = some i ∧ checkManifest false manifest weights = .ok mf
      ∧ placeModel i (c.flag 0) (manifestShards 1 manifest weights) ((s.startCmd cid).claimSlot i c manifest mf) = .fits v := by
  obtain ⟨mf, hm⟩ := exists_ok (checkManifest false manifest0 [0, 0, 0, 0]) (by decide +kernel)
  have h : (match placeModel 0 false (manifestShards 1 manifest0 [0, 0, 0, 0])
      (((with1 stocked (cmd [(0, 1, 0x10), (0x18, 4, 624), (0x28, 8, 4)])).startCmd 1).claimSlot 0 (cmd [(0, 1, 0x10), (0x18, 4, 624), (0x28, 8, 4)]) manifest0 mf) with | .fits _ => true | _ => false) = true := by
    have e : mf = okOr default0 (checkManifest false manifest0 [0, 0, 0, 0]) := by rw [hm]; rfl
    rw [e]
    decide +kernel
  split at h
  · next v hv =>
    exact ⟨with1 stocked (cmd [(0, 1, 0x10), (0x18, 4, 624), (0x28, 8, 4)]), 1, cmd [(0, 1, 0x10), (0x18, 4, 624), (0x28, 8, 4)], manifest0, [0, 0, 0, 0], 0, mf, v, ⟨⟨by decide, rfl⟩, by decide, by decide⟩, by decide, by decide, by decide +kernel,
      by decide, by decide, hm, hv⟩
  · cases h

theorem witness_modelCopyAndPlacementCommandsComplete_3 :
    ∃ s cid c manifest weights i mf v, ActsReading s cid 0x10 c ∧ c.flag 1 = true ∧ c.arg 0x1C 1 ≠ 1 ∧ loadData c manifest weights = true
      ∧ modelHandle s (c.arg 8 8) = some i ∧ commitInFlight (s.startCmd cid) (c.arg 8 8) = false ∧ checkManifest true manifest weights = .ok mf
      ∧ stagedMatch (modelAt s i) manifest = none
      ∧ placeEach (State.placeLocal i) (manifestShards ((modelAt s i).current + 1) manifest weights) ((s.startCmd cid).modModel i (fun m =>
          { m with staged := true
                   shards := m.shards.filter (fun x => !(x.epoch == (modelAt s i).current + 1
                     && (manifestShards ((modelAt s i).current + 1) manifest weights).any (fun y => y.index == x.index))) })) = some v := by
  obtain ⟨mf, hm⟩ := exists_ok (checkManifest true manifest0 [0, 0, 0, 0]) (by decide +kernel)
  refine ⟨with1 { modelled with models := setAt modelled.models 0 { m0 with shards := [shard0 false] } } (cmd [(0, 1, 0x10), (3, 1, 2), (8, 8, handleWord 0 1 0), (0x18, 4, 624), (0x28, 8, 4)]), 1, cmd [(0, 1, 0x10), (3, 1, 2), (8, 8, handleWord 0 1 0), (0x18, 4, 624), (0x28, 8, 4)], manifest0, [0, 0, 0, 0], 0, mf, Option.get _ ?_, ⟨⟨by decide, rfl⟩, by decide, by decide⟩, by decide, by decide,
    by decide +kernel, by decide, by decide, hm, by decide +kernel, (Option.some_get _).symm⟩
  decide +kernel

theorem witness_sessionCommandsComplete_8 :
    ∃ s cid c k image v x, ActsReading s cid 0x25 c ∧ c.arg 0x10 1 = 0 ∧ image.length = c.arg 0x28 8 ∧ modelHandle s (c.arg 8 8) = some k
      ∧ restoreImage ((s.startCmd cid).caskWork cid).setShare k image .open = .ok (v, x) := by
  obtain ⟨⟨v, x⟩, h⟩ := exists_ok (restoreImage (((with1 modelled (cmd [(0, 1, 0x25), (8, 8, handleWord 0 1 0), (0x28, 8, 128)])).startCmd 1).caskWork 1).setShare 0 sessionImage0 .open) (by decide +kernel)
  exact ⟨with1 modelled (cmd [(0, 1, 0x25), (8, 8, handleWord 0 1 0), (0x28, 8, 128)]), 1, cmd [(0, 1, 0x25), (8, 8, handleWord 0 1 0), (0x28, 8, 128)], 0, sessionImage0, v, x, ⟨⟨by decide, rfl⟩, by decide, by decide⟩, by decide, by decide +kernel, by decide, h⟩

theorem witness_migrationRowsComplete_6 :
    ∃ s cid m image v x, migOf s cid false = some m ∧ m.ready = false ∧ restoreImage (s.caskWork cid).setShare m.model image .migrating = .ok (v, x) := by
  obtain ⟨⟨v, x⟩, h⟩ := exists_ok (restoreImage ((migrating (mig false true false)).caskWork 1).setShare 0 sessionImage0 .migrating) (by decide +kernel)
  exact ⟨migrating (mig false true false), 1, mig false true false, sessionImage0, v, x, by decide, by decide, h⟩

theorem witness_matrixOperationsComplete_1 :
    Completes 0x0100 (one opMatmul) ∧ Reported 0x0100 (one opMatmul) ∧ ∃ s r o, opReady s 1 0 0x0100 = some (r, o) ∧ opExact s r.graph o = false ∧ completes s 0x0100 (one opMatmul) = true :=
  ⟨completes_spec (square 0x0100 2 []) (by decide +kernel), reported_spec (square 0x0100 2 []) (by decide +kernel), unmonitored_spec (fastForm (square 0x0100 2 [])) (by decide +kernel)⟩

theorem witness_matrixOperationsComplete_2 :
    Completes 0x0101 (one opMatmul) ∧ Reported 0x0101 (one opMatmul) ∧ ∃ s r o, opReady s 1 0 0x0101 = some (r, o) ∧ opExact s r.graph o = false ∧ completes s 0x0101 (one opMatmul) = true :=
  ⟨completes_spec (square 0x0101 2 []) (by decide +kernel), reported_spec (square 0x0101 2 []) (by decide +kernel), unmonitored_spec (fastForm (square 0x0101 2 [])) (by decide +kernel)⟩

theorem witness_matrixOperationsComplete_3 :
    Completes 0x0102 (one opAttention) ∧ Reported 0x0102 (one opAttention) ∧ ∃ s r o, opReady s 1 0 0x0102 = some (r, o) ∧ opExact s r.graph o = false ∧ completes s 0x0102 (one opAttention) = true :=
  ⟨completes_spec (attending) (by decide +kernel), reported_spec (attending) (by decide +kernel), unmonitored_spec (fastForm (attending)) (by decide +kernel)⟩

theorem witness_elementwiseOperationsComplete_1 :
    Completes 0x0200 (one (opBinary fadd)) := 
  completes_spec (binary 0x0200) (by decide +kernel)

theorem witness_elementwiseOperationsComplete_2 :
    Completes 0x0201 (one (opBinary fsub)) := 
  completes_spec (binary 0x0201) (by decide +kernel)

theorem witness_elementwiseOperationsComplete_3 :
    Completes 0x0202 (one (opBinary fmul)) := 
  completes_spec (binary 0x0202) (by decide +kernel)

theorem witness_elementwiseOperationsComplete_4 :
    Completes 0x0203 (one (opBinary fdiv)) := 
  completes_spec (binary 0x0203) (by decide +kernel)

theorem witness_elementwiseOperationsComplete_5 :
    Completes 0x0204 (one (opFma)) := 
  completes_spec (square 0x0204 3 []) (by decide +kernel)

theorem witness_elementwiseOperationsComplete_6 :
    Completes 0x0205 (one (opBinary fmax)) := 
  completes_spec (binary 0x0205) (by decide +kernel)

theorem witness_elementwiseOperationsComplete_7 :
    Completes 0x0206 (one (opBinary fmin)) := 
  completes_spec (binary 0x0206) (by decide +kernel)

theorem witness_elementwiseOperationsComplete_8 :
    Completes 0x0210 (one (opUnary fabs)) := 
  completes_spec (unary 0x0210 []) (by decide +kernel)

theorem witness_elementwiseOperationsComplete_9 :
    Completes 0x0211 (one (opUnary fneg)) := 
  completes_spec (unary 0x0211 []) (by decide +kernel)

theorem witness_elementwiseOperationsComplete_10 :
    Completes 0x0212 (one (opUnary (vecFn .exp))) := 
  completes_spec (unary 0x0212 []) (by decide +kernel)

theorem witness_elementwiseOperationsComplete_11 :
    Completes 0x0213 (one (opUnary (vecFn .log))) := 
  completes_spec (unary 0x0213 []) (by decide +kernel)

theorem witness_elementwiseOperationsComplete_12 :
    Completes 0x0214 (one (opUnary fsqrt)) := 
  completes_spec (unary 0x0214 []) (by decide +kernel)

theorem witness_elementwiseOperationsComplete_13 :
    Completes 0x0215 (one (opUnary (vecFn .rsqrt))) := 
  completes_spec (unary 0x0215 []) (by decide +kernel)

theorem witness_elementwiseOperationsComplete_14 :
    Completes 0x0216 (one (opUnary (vecFn .tanh))) := 
  completes_spec (unary 0x0216 []) (by decide +kernel)

theorem witness_elementwiseOperationsComplete_15 :
    Completes 0x0217 (one (opUnary (vecFn .sigmoid))) := 
  completes_spec (unary 0x0217 []) (by decide +kernel)

theorem witness_elementwiseOperationsComplete_16 :
    Completes 0x0218 (one (opUnary (vecFn .gelu))) := 
  completes_spec (unary 0x0218 []) (by decide +kernel)

theorem witness_elementwiseOperationsComplete_17 :
    Completes 0x0219 (one (opUnary (vecFn .silu))) := 
  completes_spec (unary 0x0219 []) (by decide +kernel)

theorem witness_elementwiseOperationsComplete_18 :
    Completes 0x021A (one opClamp) := 
  completes_spec (unary 0x021A [0, 0, 0, 0, 0, 0, 0x80, 0x3F]) (by decide +kernel)

theorem witness_reductionAndCopyOperationsComplete_1 :
    Completes 0x0300 (one opReduceSum) := 
  completes_spec (unary 0x0300 [0]) (by decide +kernel)

theorem witness_reductionAndCopyOperationsComplete_2 :
    Completes 0x0301 (one (opReduceBy fmax)) := 
  completes_spec (unary 0x0301 [0]) (by decide +kernel)

theorem witness_reductionAndCopyOperationsComplete_3 :
    Completes 0x0302 (one (opReduceBy fmin)) := 
  completes_spec (unary 0x0302 [0]) (by decide +kernel)

theorem witness_reductionAndCopyOperationsComplete_4 :
    Completes 0x0303 (one opSoftmax) := 
  completes_spec fastSoftmax (by decide +kernel)

theorem witness_reductionAndCopyOperationsComplete_5 :
    Completes 0x0304 (one (opNorm true)) := 
  completes_spec (square 0x0304 3 [0, 0, 0, 0]) (by decide +kernel)

theorem witness_reductionAndCopyOperationsComplete_6 :
    Completes 0x0305 (one (opNorm false)) := 
  completes_spec (square 0x0305 2 [0, 0, 0, 0]) (by decide +kernel)

theorem witness_reductionAndCopyOperationsComplete_7 :
    Completes 0x0400 (one opConvert) := 
  completes_spec (unary 0x0400 []) (by decide +kernel)

theorem witness_reductionAndCopyOperationsComplete_8 :
    Completes 0x0401 (one opTranspose) := 
  completes_spec (unary 0x0401 [0, 0, 0, 0, 0, 0]) (by decide +kernel)

theorem witness_reductionAndCopyOperationsComplete_9 :
    Completes 0x0402 (one opReshape) := 
  completes_spec (unary 0x0402 []) (by decide +kernel)

theorem witness_reductionAndCopyOperationsComplete_10 :
    Completes 0x0403 (one opSlice) := 
  completes_spec (unary 0x0403 (List.replicate 48 0 ++ leBytes 8 1 ++ List.replicate 40 0)) (by decide +kernel)

theorem witness_reductionAndCopyOperationsComplete_11 :
    Completes 0x0404 (one opConcat) := 
  completes_spec (unary 0x0404 [0]) (by decide +kernel)

theorem witness_reductionAndCopyOperationsComplete_12 :
    Completes 0x0405 (one opGather) := 
  completes_spec (runningOp (opRun 0x0405 [(dense 0 [1], one32), (table 1 1 0 [1, 8], List.replicate 8 0)] [dense 9 [1]] [] col64)) (by decide +kernel)

theorem witness_relationalAndCollectiveOperationsComplete_1 :
    Completes 0x0500 (fun v ins outs => match outs with
      | [p, q] => opHashPartition v ins p q
      | _ => .fail .badDescriptor 0) := 
  completes_spec (runningOp (opRun 0x0500 [(table 0 1 0 [1, 8], [7, 0, 0, 0, 0, 0, 0, 0])] [table 8 1 0 [1, 8], table 9 1 0 [2, 8]] ([1, 0, 0, 0, 1, 0, 0, 0, 0] ++ leBytes 8 0) col64)) (by decide +kernel)

theorem witness_relationalAndCollectiveOperationsComplete_2 :
    Completes 0x0501 (one opSort) := 
  completes_spec (runningOp (opRun 0x0501 [(table 0 1 0 [1, 8], [7, 0, 0, 0, 0, 0, 0, 0])] [table 9 1 0 [1, 8]] [1, 0, 0, 0, 0, 0, 0, 0, 0] col64)) (by decide +kernel)

theorem witness_relationalAndCollectiveOperationsComplete_3 :
    Completes 0x0502 (one opJoinProbe) := 
  completes_spec (runningOp (opRun 0x0502 [(table 0 1 0 [1, 8], [7, 0, 0, 0, 0, 0, 0, 0]), (table 1 1 0 [1, 8], [7, 0, 0, 0, 0, 0, 0, 0])] [table 9 2 8 [1, 16]] ([1, 0, 0, 0, 0, 0, 0, 0, 0, 0] ++ leBytes 8 1) (col64 ++ [6, 0, 8, 0, 0, 0, 0, 0, 6, 0, 8, 0, 8, 0, 0, 0]))) (by decide +kernel)

theorem witness_relationalAndCollectiveOperationsComplete_4 :
    Completes 0x0503 (one opStringSimilarity) := 
  completes_spec (runningOp (opRun 0x0503 [(table 0 2 8 [1, 16], List.replicate 16 0), (table 1 1 0 [1, 8], List.replicate 8 0x61), (table 2 1 0 [1, 8], List.replicate 8 0x62)] [table 9 3 8 [1, 24]] [0, 0, 0] ([5, 0, 8, 0, 0, 0, 0, 0, 6, 0, 8, 0, 0, 0, 0, 0, 6, 0, 8, 0, 8, 0, 0, 0, 4, 0, 4, 0, 16, 0, 0, 0]))) (by decide +kernel)

theorem witness_relationalAndCollectiveOperationsComplete_5 :
    Completes 0x0504 (one opFilter) := 
  completes_spec (runningOp (opRun 0x0504 [(table 0 1 0 [1, 8], one32 ++ [0, 0, 0, 0])] [table 9 1 0 [1, 8]] [0, 0, 0, 0, 0] [4, 0, 4, 0, 0, 0, 0, 0])) (by decide +kernel)

theorem witness_relationalAndCollectiveOperationsComplete_6 :
    Completes 0x0505 (one opTableGather) := 
  completes_spec (runningOp (opRun 0x0505 [(table 0 1 0 [1, 8], [7, 0, 0, 0, 0, 0, 0, 0]), (table 1 1 0 [1, 8], List.replicate 8 0)] [table 9 1 0 [1, 8]] [] col64)) (by decide +kernel)

theorem witness_relationalAndCollectiveOperationsComplete_7 :
    ∃ s parts r, runOf s 1 = some r ∧ (ownParts r 0 parts).length + 1 = r.modules.length
      ∧ completes (State.sendParts 1 0 0x0600 s) 0x0600 (one (opReduce false (ownParts r 0 parts))) = true := ⟨collective 0x0600 [7, 5] 1, [(({ crc := 0, id := 0, inst := 0 } : CollTag), one32)], collectiveRun 0x0600 [7, 5] 1, by decide +kernel, by decide +kernel, by decide +kernel⟩

theorem witness_relationalAndCollectiveOperationsComplete_8 :
    ∃ s parts r, runOf s 1 = some r ∧ (ownParts r 0 parts).length + 1 = r.modules.length
      ∧ completes (State.sendParts 1 0 0x0601 s) 0x0601 (one (opReduce true (ownParts r 0 parts))) = true := ⟨collective 0x0601 [7, 5, 3] 3, [(({ crc := 0, id := 0, inst := 0 } : CollTag), one32 ++ one32 ++ one32), (({ crc := 0, id := 0, inst := 0 } : CollTag), one32 ++ one32 ++ one32)], collectiveRun 0x0601 [7, 5, 3] 3, by decide +kernel, by decide +kernel, by decide +kernel⟩

theorem witness_relationalAndCollectiveOperationsComplete_9 :
    ∃ s parts r, runOf s 1 = some r ∧ (ownParts r 0 parts).length + 1 = r.modules.length
      ∧ completes (State.sendParts 1 0 0x0602 s) 0x0602 (one (opAllGather (ownParts r 0 parts))) = true := ⟨collective 0x0602 [7, 5] 1, [(({ crc := 0, id := 0, inst := 0 } : CollTag), one32)], collectiveRun 0x0602 [7, 5] 1, by decide +kernel, by decide +kernel, by decide +kernel⟩

theorem witness_relationalAndCollectiveOperationsComplete_10 :
    ∃ s r, runOf s 1 = some r ∧ isRoot r 0 = true ∧ completes (State.sendParts 1 0 0x0603 s) 0x0603 (one (opBroadcast [])) = true :=
  ⟨collective 0x0603 [7, 5] 1, collectiveRun 0x0603 [7, 5] 1, by decide +kernel, by decide +kernel, by decide +kernel⟩

theorem witness_relationalAndCollectiveOperationsComplete_11 :
    ∃ s root r l, runOf s 1 = some r ∧ isRoot r 0 = false ∧ ownParts r 0 [root] = [l]
      ∧ completes (State.sendParts 1 0 0x0603 s) 0x0603 (one (opBroadcast l)) = true :=
  ⟨joining, (({ crc := 0, id := 0, inst := 0 } : CollTag), one32), joiningRun, one32, by decide +kernel, by decide +kernel, by decide +kernel, by decide +kernel⟩

theorem witness_relationalAndCollectiveOperationsComplete_12 :
    Completes 0x0604 (one opFinalise) := 
  completes_spec (runningOp { opRun 0x0604 [] [dense 9 [1]] [] [] with vals := [valP], graph := { g0 0x0604 with tensors := [{ tensor 1 2 with isPartial := true }, dense 9 [1]], ops := [{ op0 0x0604 with ins := [1], outs := [9] }] } }) (by decide +kernel)

theorem witness_kernelRowsChangeOnlyTheirParts_20 :
    ∃ q r : WarpRef, q ≠ r := ⟨ref0, { ref0 with warp := 1 }, by decide⟩

theorem witness_otherSite :
    ∃ (site : SiteId) (n : Nat), n ≠ site.val := ⟨63, 0, by decide⟩

theorem witness_otherPort :
    ∃ (p : PortId) (n : Nat), n ≠ p.val := ⟨3, 0, by decide⟩

theorem witness_otherEngine :
    ∃ (e : EngineId) (n : Nat), n ≠ e.val := ⟨23, 0, by decide⟩

theorem witness_otherRing :
    ∃ ring other : RingNo, other ≠ ring := ⟨0, 1, by decide⟩

theorem witness_otherUnit :
    ∃ (u : ScuId) (n : Nat), n ≠ u.val := ⟨15, 0, by decide⟩

theorem witness_otherEntry :
    ∃ cid k : Nat, k ≠ cid := ⟨1, 0, by decide⟩

theorem witness_hostLinkRowsChangeOnlyTheirParts_19 :
    ∃ s cid c d, cmdAt s cid = some c ∧ c.done = some d ∧ c.opcode ≠ 0x7E := ⟨with1 base ({ begun [(0, 1, 0x01)] with done := some doneOk }), 1, { begun [(0, 1, 0x01)] with done := some doneOk }, doneOk, by decide, by decide, by decide⟩

theorem witness_storesStayInTheirPieces_1 :
    ∃ s cid c l, Acts s cid 0x41 c ∧ allocExtents s (roundUp (c.arg 8 8) 65536) (c.arg 0x10 1) = some l := by
  refine ⟨with1 stocked (cmd [(0, 1, 0x41), (8, 8, 65536), (0x10, 1, 1)]), 1, cmd [(0, 1, 0x41), (8, 8, 65536), (0x10, 1, 1)], [⟨siteBase 0, 65536⟩], ?_⟩
  repeat' apply And.intro
  all_goals first | with_reducible rfl | decide | decide +kernel

theorem witness_storesStayInTheirPieces_2 :
    ∃ s cid c x, Acts s cid 0x42 c ∧ memHandle s (c.arg 8 8) = some x := by
  refine ⟨with1 stored (cmd [(0, 1, 0x42), (8, 8, handleWord 1 1 0)]), 1, cmd [(0, 1, 0x42), (8, 8, handleWord 1 1 0)], h0, ?_⟩
  repeat' apply And.intro
  all_goals first | with_reducible rfl | decide | decide +kernel

theorem witness_storesStayInTheirPieces_3 :
    ∃ s cid c, actable s cid 0x40 = some c ∧ c.arg 9 1 ≠ 0 := by
  refine ⟨with1 stored (cmd [(0, 1, 0x40), (8, 1, 0), (9, 1, 1), (0x20, 8, handleWord 1 1 0), (0x28, 8, 65534), (0x30, 8, 2)]), 1, cmd [(0, 1, 0x40), (8, 1, 0), (9, 1, 1), (0x20, 8, handleWord 1 1 0), (0x28, 8, 65534), (0x30, 8, 2)], ?_⟩
  repeat' apply And.intro
  all_goals first | with_reducible rfl | decide | decide +kernel

theorem witness_storesStayInTheirPieces_4 :
    ∃ s cid, actable s cid 0x40 = none := by
  refine ⟨base, 1, ?_⟩
  repeat' apply And.intro
  all_goals first | with_reducible rfl | decide | decide +kernel

theorem witness_storesStayInTheirPieces_10 :
    ∃ s r x, warpCtx s r = some x ∧ kSpace x.word = 2 := by
  refine ⟨kstateG .st 0x3007000000080000 warp0, ref0, ctxG .st 0x3007000000080000 warp0, ?_⟩
  repeat' apply And.intro
  all_goals first | with_reducible rfl | decide | decide +kernel

theorem witness_storesStayInTheirPieces_11 :
    ∃ s r x, warpCtx s r = some x ∧ kSpace x.word = 2 := by
  refine ⟨kstateG (.atom .add) 0x5007000000080000 warp0, ref0, ctxG (.atom .add) 0x5007000000080000 warp0, ?_⟩
  repeat' apply And.intro
  all_goals first | with_reducible rfl | decide | decide +kernel

theorem witness_storesStayInTheirPieces_12 :
    ∃ (s : State) (r : WarpRef) (copy : Nat) (l : Launch) (c : Cluster) (g : Group) (y : Warp) (q : Copy), warpAt s r = some (l, c, g, y) ∧ y.copies[copy]? = some q ∧ q.toStore = false := by
  refine ⟨kstateG .nop 0 { warpCopying with copies := [{ copy0 with toStore := false }] }, ref0, 0, launchG .nop 0 { warpCopying with copies := [{ copy0 with toStore := false }] }, cluster0 { warpCopying with copies := [{ copy0 with toStore := false }] }, group0 { warpCopying with copies := [{ copy0 with toStore := false }] }, { warpCopying with copies := [{ copy0 with toStore := false }] }, { copy0 with toStore := false }, ?_⟩
  repeat' apply And.intro
  all_goals first | with_reducible rfl | decide | decide +kernel

theorem witness_storesStayInTheirPieces_13 :
    ∃ s r x, warpCtx s r = some x ∧ bits 15 14 x.word ≤ 1 := by
  refine ⟨kstate (kernelOf .accExport 0x7207000000000000) warp0, ref0, ctx .accExport 0x7207000000000000 warp0, ?_⟩
  repeat' apply And.intro
  all_goals first | with_reducible rfl | decide | decide +kernel

theorem witness_storesStayInTheirPieces_15 :
    ∃ s cid c x h, cmdAt s cid = some c ∧ sessionHandle s (c.arg 8 8) = some x ∧ memHandle s (c.arg 0x18 8) = some h := by
  refine ⟨with1 { sess x0 with mem := { modelled.mem with handles := [h0] } } (begun [(0, 1, 0x24), (8, 8, handleWord 0 1 0), (0x10, 1, 1), (0x18, 8, handleWord 1 1 0), (0x28, 8, 65536)]), 1, begun [(0, 1, 0x24), (8, 8, handleWord 0 1 0), (0x10, 1, 1), (0x18, 8, handleWord 1 1 0), (0x28, 8, 65536)], x0, h0, ?_⟩
  repeat' apply And.intro
  all_goals first | with_reducible rfl | decide | decide +kernel

theorem witness_storesStayInTheirPieces_16 :
    ∃ s run r, runOf s run = some r ∧ s.mem.handles ≠ [] := by
  refine ⟨with1 { stored with runs := [run0 0x0211] } (begun []), 1, run0 0x0211, ?_⟩
  repeat' apply And.intro
  all_goals first | with_reducible rfl | decide | decide +kernel

theorem witness_resetsOfStreamCheckUnits_2 :
    ∃ s : State, s.pins.pwrgd = true ∧ s.pins.perst = false ∧ s.boot.everReset = true ∧ discarded s .warm = false := by
  refine ⟨{ base with boot := { base.boot with everReset := true }, pins := { base.pins with perst := false } }, ?_⟩
  repeat' apply And.intro
  all_goals first | with_reducible rfl | decide | decide +kernel

theorem witness_resetsOfStreamCheckUnits_3 :
    ∃ s : State, configReach s = true ∧ discarded s .module = false := by
  refine ⟨base, ?_⟩
  repeat' apply And.intro
  all_goals first | with_reducible rfl | decide | decide +kernel

theorem witness_resetsOfStreamCheckUnits_4 :
    ∃ s cid c d, cmdAt s cid = some c ∧ c.done = some d ∧ c.opcode = 0x7E ∧ d.status = .ok ∧ (s.host.forcing = some cid → s.host.cmds.length = 1) := by
  refine ⟨with1 base ({ begun [(0, 1, 0x7E)] with done := some doneOk }), 1, { begun [(0, 1, 0x7E)] with done := some doneOk }, doneOk, ?_⟩
  repeat' apply And.intro
  all_goals first | with_reducible rfl | decide | decide +kernel

theorem witness_injectedEventsAndFaultStates_2 :
    ∃ (s : State) (res : Resource) (st : FaultState), openState s.flt (resourceKey res) = some st ∧ unrested s (resourceKey res) = false ∧ st.injectedOnly = true := by
  refine ⟨faulty true, .tile 0, state0 true, ?_⟩
  repeat' apply And.intro
  all_goals first | with_reducible rfl | decide | decide +kernel

theorem witness_injectedEventsAndFaultStates_3 :
    ∃ s : State, s.ret.faultList ≠ [] ∧ ∀ st ∈ s.ret.faultList, st.injectedOnly = true := by
  refine ⟨{ base with ret := { base.ret with faultList := [state0 true] } }, ?_⟩
  repeat' apply And.intro
  all_goals first | with_reducible rfl | decide | decide +kernel

theorem witness_injectedEventsAndFaultStates_4 :
    ∃ (f : Faults) (ev : FaultEvent) (res : Resource) (st : FaultState), eventOpens ev = some res ∧ openState f res = some st ∧ ev.injected = false := by
  refine ⟨(faulty true).flt, { source := srcId 1 0 6, resource := some (.tile 0) }, .tile 0, state0 true, ?_⟩
  repeat' apply And.intro
  all_goals first | with_reducible rfl | decide | decide +kernel

theorem witness_injectedEventsAndFaultStates_5 :
    ∃ (s : State) (res : Resource) (st : FaultState), openState s.flt (resourceKey res) = some st ∧ unrested s (resourceKey res) = false ∧ st.injectedOnly = false := by
  refine ⟨faulty false, .tile 0, state0 false, ?_⟩
  repeat' apply And.intro
  all_goals first | with_reducible rfl | decide | decide +kernel

theorem witness_mergingOfRecords :
    ∃ a b c : Acc, a.formed ∧ b.formed ∧ c.formed ∧ a.top ≠ none ∧ a.top ≠ b.top := by
  refine ⟨Acc.empty.add (fval 0x3F800000), Acc.empty.add (fval 0x7F000000), Acc.empty, ?_⟩
  unfold Acc.formed
  decide +kernel

theorem witness_contributionsInAnyOrder :
    ∃ l k : List Machine.Num, l.Perm k ∧ l ≠ k := ⟨[fval 0x3F800000, fval 0x40000000], [fval 0x40000000, fval 0x3F800000], .swap _ _ _, by decide +kernel⟩

theorem witness_recordsRoundTrip :
    ∃ a : Acc, a.fits ∧ a.top ≠ none := by
  refine ⟨Acc.empty.add (fval 0x3F800000), ?_⟩
  unfold Acc.fits Acc.formed
  decide +kernel

/-- Whether a mark verifies is a free value: where it does, the other hypotheses hold as well. -/
theorem witness_testLogAndPowerCommandsComplete_8
    (accepts : Config.xmssVerify Config.vendorKey (settingsImage0.take 256) (Machine.slice 256 2820 settingsImage0) = true) :
    ∃ s cid c image, ActsReading s cid 0x72 c ∧ c.started = false ∧ s.log.refused = false ∧ running (s.startCmd cid) cid [0x72] = false
      ∧ image.length = c.arg 0x10 4 ∧ 64 ≤ image.length ∧ headerOk image = true ∧ field 8 4 image = image.length
      ∧ signatureOk s.sec.ownerKey image = true ∧ fieldsOk image = true ∧ versionOk s (field 0xC 4 image) = true ∧ s.flashA.failed = false := by
  have m : field 0x14 4 settingsImage0 = 256 := by decide +kernel
  have k : field 0x10 1 settingsImage0 = 0 := by decide +kernel
  have sig : signatureOk (with1 { base with settings := some settings0 } (cmd [(0, 1, 0x72), (0x10, 4, 3076)])).sec.ownerKey settingsImage0 = true := by
    unfold signatureOk
    rw [m, k]
    exact accepts
  exact ⟨with1 { base with settings := some settings0 } (cmd [(0, 1, 0x72), (0x10, 4, 3076)]), 1, cmd [(0, 1, 0x72), (0x10, 4, 3076)], settingsImage0, ⟨⟨by decide, rfl⟩, by decide, by decide⟩, by decide, by decide, by decide, by decide +kernel,
    by decide +kernel, by decide +kernel, by decide +kernel, sig, by decide +kernel, by decide +kernel, by decide⟩

theorem witness_emptyQueueOnlyPassesTime_4 :
    ∃ (s : State) (l : Launch) (c : Cmd), s.pending = [] ∧ l ∈ s.launches ∧ l.error.isSome = true ∧ Live s l.cid c := by
  refine ⟨with1 { stored with launches := [{ launch0 kernel0 warp0 with error := some { code := 1, cluster := 0, group := 0, warp := 0, word := 0 } }] } (begun [(0, 1, 0x33)]),
    { launch0 kernel0 warp0 with error := some { code := 1, cluster := 0, group := 0, warp := 0, word := 0 } }, begun [(0, 1, 0x33)], rfl, List.mem_singleton.mpr rfl, rfl, ?_⟩
  repeat' apply And.intro
  all_goals first | with_reducible rfl | decide | decide +kernel

theorem witness_sessionCommandsComplete_9 :
    ∃ s cid c k image h l v x, Acts s cid 0x25 c ∧ c.arg 0x10 1 ≠ 0 ∧ c.arg 0x10 1 ≠ 2 ∧ modelHandle s (c.arg 8 8) = some k
      ∧ memHandle s (c.arg 0x18 8) = some h ∧ c.arg 0x20 8 + c.arg 0x28 8 ≤ h.size ∧ l = pieces h.extents (c.arg 0x20 8) (c.arg 0x28 8)
      ∧ memWaits s l = false ∧ accessSource s none true l = none
      ∧ restoreImage (((s.startCmd cid).touch false l).caskWork cid).setShare k (readPieces s.mem.cells l) .open = .ok (v, x) ∧ image = ([] : List Byte) := by
  obtain ⟨⟨v, x⟩, h⟩ := exists_ok (restoreImage (((imaged.startCmd 1).touch false [⟨siteBase 0, 128⟩]).caskWork 1).setShare 0 (readPieces imaged.mem.cells [⟨siteBase 0, 128⟩]) .open)
    (by decide +kernel)
  exact ⟨imaged, 1, imageCmd, 0, [], h0, [⟨siteBase 0, 128⟩], v, x, ⟨by decide, rfl⟩, by decide, by decide, by decide, by decide, by decide, by decide,
    by decide, by decide +kernel, h, rfl⟩

theorem witness_storesStayInTheirPieces_7 :
    ∃ (s : State) (site : SiteId) (errors : List ByteErrors), ∀ k, seenErrors s site (errors.getD k []) = []
      ∨ eccOutcome (seenErrors s site (errors.getD k [])) ≠ .clean := ⟨stocked, 63, [], fun _ => Or.inl rfl⟩

theorem witness_storesStayInTheirPieces_8 :
    ∃ (s : State) (model : Fin 64) (k : Nat) (x : Shard), (modelAt s model).shards.find? (fun x => x.index == k && x.spilled && !x.lost && x.atPeer.isNone) = some x :=
  ⟨{ stocked with models := setAt stocked.models 0 { m0 with shards := [{ shard0 false with spilled := true }] } }, 0, 0, { shard0 false with spilled := true }, rfl⟩

theorem witness_storesStayInTheirPieces_17 :
    ∃ s run r, runOf s run = some r ∧ s.mem.handles ≠ [] := by
  refine ⟨with1 { stored with runs := [run0 0x0100] } (begun []), 1, run0 0x0100, ?_⟩
  repeat' apply And.intro
  all_goals first | with_reducible rfl | decide | decide +kernel

theorem witness_storesStayInTheirPieces_18 :
    ∃ s run r, runOf s run = some r ∧ s.mem.handles ≠ [] := by
  refine ⟨with1 { stored with runs := [run0 0x0600] } (begun []), 1, run0 0x0600, ?_⟩
  repeat' apply And.intro
  all_goals first | with_reducible rfl | decide | decide +kernel

theorem witness_storesStayInTheirPieces_19 :
    ∃ s run r, runOf s run = some r ∧ s.mem.handles ≠ [] := by
  refine ⟨with1 { stored with runs := [run0 0x0603] } (begun []), 1, run0 0x0603, ?_⟩
  repeat' apply And.intro
  all_goals first | with_reducible rfl | decide | decide +kernel

theorem witness_storesStayInTheirPieces_20 :
    ∃ s run r, runOf s run = some r ∧ s.mem.handles ≠ [] := by
  refine ⟨with1 { stored with runs := [run0 0x0600] } (begun []), 1, run0 0x0600, ?_⟩
  repeat' apply And.intro
  all_goals first | with_reducible rfl | decide | decide +kernel

theorem witness_lineCodingIsUndone_4 : ∃ t d : Nat, t < 16 ∧ d < 64 := ⟨15, 63, by decide, by decide⟩

theorem witness_lineCodingIsUndone_5 : ∃ g b : Nat, g < 4 ∧ b < 3072 := ⟨3, 3071, by decide, by decide⟩

theorem witness_panelAndMemoryRowsChangeOnlyTheirParts_46 :
    ∃ (s : State) (site : SiteId) (n : Nat), n ≠ site.val ∧ (tileAt s site).retiring = false := ⟨State.reset, 63, 0, by decide, rfl⟩

end Sys2Proof.Tests
end

section
/-! The registers of the fault collector and the host's read data after a report, and the rows of BAR0 (O30). -/

namespace Sys2Proof

/-- No module stop touches the collector, so a frame that does not list it keeps it. -/
theorem Frame.flt_eq {ps : List Part} {s t : Machine.State} (h : Frame ps s t) (hp : Part.flt ∉ ps) : t.flt = s.flt :=
  h.stop .flt hp (by decide)

/-- No module stop touches what the host has read, so a frame that does not list the host link keeps it. -/
theorem Frame.readData_eq {ps : List Part} {s t : Machine.State} (h : Frame ps s t) (hp : Part.host ∉ ps) :
    t.host.readData = s.host.readData := by
  have kept : ({ t.host with cmds := [] } : Machine.HostLink) = { s.host with cmds := [] } := h.stop .host hp (by decide)
  exact (congrArg Machine.HostLink.readData kept :)

end Sys2Proof

namespace Sys2Proof.Machine

/-! ## Sticky bits after a cycle of the collector (R492) -/

theorem mem_addOnce {α : Type} [DecidableEq α] {a x : α} {l : List α} : a ∈ addOnce x l ↔ a ∈ l ∨ a = x := by
  unfold addOnce
  split
  next hx => exact ⟨.inl, fun h => h.elim id (fun e => e ▸ hx)⟩
  next => simp

@[simp] theorem Faults.enter_sticky (isFirst : Bool) (ev : FaultEvent) (f : Faults) : (f.enter isFirst ev).sticky = f.sticky := by
  unfold Faults.enter
  cases eventOpens ev with
  | none => rfl
  | some r => dsimp only; cases openState f r <;> rfl

@[simp] theorem Faults.takeFirst_sticky (now cycles : Nat) (evs : List FaultEvent) (f : Faults) :
    (f.takeFirst now cycles evs).sticky = f.sticky := by
  unfold Faults.takeFirst
  split
  · rfl
  · cases firstOf evs <;> rfl

theorem Faults.foldl_enter_sticky (isFirst : FaultEvent → Bool) (evs : List FaultEvent) (f : Faults) :
    (evs.foldl (fun g e => g.enter (isFirst e) e) f).sticky = f.sticky := by
  induction evs generalizing f with
  | nil => rfl
  | cons e evs ih => simp [ih]

theorem Faults.capture_sticky (now cycles : Nat) (evs : List FaultEvent) (f : Faults) :
    (f.capture now cycles evs).sticky = evs.foldl (fun l e => addOnce e.source l) f.sticky := by
  simp only [Faults.capture, Faults.takeFirst_sticky]
  exact Faults.foldl_enter_sticky _ evs _

theorem mem_foldl_addOnce_source {x : Nat} {evs : List FaultEvent} {l : List Nat} :
    x ∈ evs.foldl (fun l e => addOnce e.source l) l ↔ x ∈ l ∨ ∃ e ∈ evs, e.source = x := by
  induction evs generalizing l with
  | nil => simp
  | cons e evs ih => simp [ih, mem_addOnce, or_assoc, eq_comm]

theorem State.captureOnly_flt (evs : List FaultEvent) (s : State) :
    (s.captureOnly evs).flt = s.flt.capture s.ret.opTime s.ret.cycles (s.flt.marking evs) := by
  have marked (u : State) (l : List FaultEvent) : ((u.logEvents l).markEvents l).flt = u.flt :=
    ((State.markEvents_frame ..).flt_eq (by decide)).trans ((State.logEvents_frame ..).flt_eq (by decide))
  unfold State.captureOnly
  dsimp only
  split
  · rw [(State.raiseCause_frame ..).flt_eq (by decide), marked]
  · rw [marked]

/-- A stop of the module leaves the registers of the collector as its cycle set them (R490, R492). -/
theorem State.capture_flt (evs : List FaultEvent) (s : State) :
    (s.capture evs).flt = s.flt.capture s.ret.opTime s.ret.cycles (s.flt.marking evs) := by
  rw [← State.captureOnly_flt]
  unfold State.capture
  dsimp only
  split
  · exact (State.moduleStop_frame ..).flt_eq (by decide)
  · rfl

theorem State.mem_capture_sticky {x : Nat} {evs : List FaultEvent} {s : State} :
    x ∈ (s.capture evs).flt.sticky ↔ x ∈ s.flt.sticky ∨ ∃ e ∈ evs, e.source = x := by
  rw [State.capture_flt, Faults.capture_sticky, mem_foldl_addOnce_source]
  simp [Faults.marking]

theorem State.mem_raise_sticky {x source data : Nat} {s : State} :
    x ∈ (s.raise source data).flt.sticky ↔ x ∈ s.flt.sticky ∨ source = x := by
  simp [State.raise, State.mem_capture_sticky]

/-! ## What the host has read after a report -/

@[simp] theorem State.send_readData (m : HostMsg) (s : State) : (s.send m).host.readData = s.host.readData := by
  unfold State.send; split <;> rfl

@[simp] theorem State.sendVector_readData (v : Nat) (s : State) : (s.sendVector v).host.readData = s.host.readData := by
  unfold State.sendVector; split
  · rfl
  · exact State.send_readData _ s

@[simp] theorem State.raiseCause_readData (k : Nat) (s : State) : (s.raiseCause k).host.readData = s.host.readData := by
  unfold State.raiseCause; dsimp only; split
  · rfl
  · exact State.sendVector_readData 0 _

@[simp] theorem State.captureOnly_readData (evs : List FaultEvent) (s : State) :
    (s.captureOnly evs).host.readData = s.host.readData := by
  have marked (u : State) (l : List FaultEvent) : ((u.logEvents l).markEvents l).host.readData = u.host.readData :=
    ((State.markEvents_frame ..).readData_eq (by decide)).trans ((State.logEvents_frame ..).readData_eq (by decide))
  unfold State.captureOnly
  dsimp only
  split
  · rw [State.raiseCause_readData, marked]
  · rw [marked]

@[simp] theorem State.capture_readData (evs : List FaultEvent) (s : State) : (s.capture evs).host.readData = s.host.readData := by
  rw [← State.captureOnly_readData evs s]
  unfold State.capture
  dsimp only
  split
  · exact (State.moduleStop_frame ..).readData_eq (by decide)
  · rfl

/-! ## Accesses that no register answers (R278, R571) -/

theorem State.badAccess_sticky (data : Nat) (s : State) : srcId 5 0 7 ∈ (s.badAccess data).flt.sticky :=
  State.mem_raise_sticky.mpr (.inr rfl)

@[simp] theorem State.badAccess_readData (data : Nat) (s : State) : (s.badAccess data).host.readData = s.host.readData :=
  State.capture_readData _ s

theorem exec_barAccessInvalid_of_invalid {s : State} {bar off n : Nat} (write : Bool) (hr : hostReach s = true)
    (hi : invalidAccess s bar off n = true) :
    exec (.barAccessInvalid bar off n write) s = .next (if write then s.badAccess 0
      else { s.badAccess 0 with host := { (s.badAccess 0).host with readData := invalidRead bar off n } }) := by
  change execBarAccessInvalid bar off n write s = _
  cases write <;> simp [execBarAccessInvalid, hr, hi]

theorem exec_barAccessInvalid_of_reserved_read {s : State} {off n : Nat} (hr : hostReach s = true)
    (hi : invalidAccess s 2 off n = false) :
    exec (.barAccessInvalid 2 off n false) s = .next { s with host := { s.host with readData := List.replicate n 0 } } := by
  change execBarAccessInvalid 2 off n false s = _
  simp [execBarAccessInvalid, hr, hi]

/-! ## Register writes (R13) -/

/-- A write that a register takes acts on the word at its offset, and one of 8 bytes on the next word as well. -/
theorem exec_registerWrite_of_mapped {s : State} {off size : Nat} (value : DWord) (hr : hostReach s = true)
    (hf : bar0Form off size = true) (hm : (bar0Word s off).isSome = true) :
    exec (.registerWrite off size value) s = .next (if size = 8
      then (s.writeReg off (value.toNat % 2 ^ 32)).writeReg (off + 4) (value.toNat / 2 ^ 32)
      else s.writeReg off (value.toNat % 2 ^ 32)) := by
  have hn : (bar0Word s off).isNone = false := by simpa using hm
  change execRegisterWrite off size value s = _
  simp only [execRegisterWrite, hr, hf, hn, Bool.not_true, Bool.false_or, Bool.false_eq_true, if_false]
  split <;> rfl

theorem exec_registerWrite_four {s : State} {off : Nat} (value : DWord) (hr : hostReach s = true) (hf : bar0Form off 4 = true)
    (hm : (bar0Word s off).isSome = true) :
    exec (.registerWrite off 4 value) s = .next (s.writeReg off (value.toNat % 2 ^ 32)) :=
  exec_registerWrite_of_mapped value hr hf hm

theorem exec_registerWrite_eight {s : State} {off : Nat} (value : DWord) (hr : hostReach s = true) (hf : bar0Form off 8 = true)
    (hm : (bar0Word s off).isSome = true) :
    exec (.registerWrite off 8 value) s
      = .next ((s.writeReg off (value.toNat % 2 ^ 32)).writeReg (off + 4) (value.toNat / 2 ^ 32)) :=
  exec_registerWrite_of_mapped value hr hf hm

/-- The bits of HUB_EVENT_CAUSE clear by writing 1 (R13). -/
theorem State.writeReg_cause (v : Nat) (s : State) :
    s.writeReg 0x14 v = { s with boot := { s.boot with cause := s.boot.cause &&& ~~~(BitVec.ofNat 7 v) } } := rfl

theorem State.writeReg_mask (v : Nat) (s : State) :
    s.writeReg 0x18 v = { s with boot := { s.boot with mask := BitVec.ofNat 7 v } } := rfl

/-! ## The clears of the fault collector (R493, R496) -/

theorem exec_fltClearRearm {s : State} (hr : hostReach s = true) : exec .fltClearRearm s = .next s.rearm := if_pos hr

theorem exec_fltClearAll {s : State} (hr : hostReach s = true) : exec .fltClearAll s = .next s.clearSticky := if_pos hr

theorem exec_fltClearOne {s : State} (source : BitVec 16) (hr : hostReach s = true) :
    exec (.fltClearOne source) s = .next (s.clearOne source.toNat) := if_pos hr

theorem State.rearm_open_length (s : State) : s.rearm.flt.open_.length = s.flt.open_.length := List.length_map _

end Sys2Proof.Machine

section
open Sys2Proof Sys2Proof.Machine

/-- Settles O30: each row is the meaning of its command where the host reaches the BARs, and a report of the collector sets the
sticky bit of its source and leaves what the host has read. -/
theorem registerRowsComplete : Obligations.RegisterRowsComplete := by
  refine ⟨?four, ?eight, ?cause, ?mask, ?invalidWrite, ?invalidRead, ?reservedRead, ?rearm, ?clearAll, ?clearOne⟩
  case four => exact fun s off value hr hf hm => ⟨_, exec_registerWrite_four value hr hf hm, rfl⟩
  case eight => exact fun s off value hr hf hm => ⟨_, exec_registerWrite_eight value hr hf hm, rfl⟩
  case cause =>
    intro s value hr
    refine ⟨_, exec_registerWrite_four value hr (by decide) rfl, ?_⟩
    rw [State.writeReg_cause]
    exact ⟨rfl, rfl⟩
  case mask =>
    intro s value hr
    refine ⟨_, exec_registerWrite_four value hr (by decide) rfl, ?_⟩
    rw [State.writeReg_mask]
    exact ⟨rfl, rfl⟩
  case invalidWrite =>
    exact fun s bar off n hr hi =>
      ⟨_, exec_barAccessInvalid_of_invalid true hr hi, State.badAccess_sticky 0 s, State.badAccess_readData 0 s⟩
  case invalidRead =>
    exact fun s bar off n hr hi => ⟨_, exec_barAccessInvalid_of_invalid false hr hi, State.badAccess_sticky 0 s, rfl⟩
  case reservedRead => exact fun s off n hr hi => ⟨_, exec_barAccessInvalid_of_reserved_read hr hi, rfl, rfl⟩
  case rearm => exact fun s hr => ⟨_, exec_fltClearRearm hr, rfl, rfl, rfl, rfl, rfl, s.rearm_open_length⟩
  case clearAll => exact fun s hr => ⟨_, exec_fltClearAll hr, rfl, rfl, rfl, rfl⟩
  case clearOne => exact fun s source hr => ⟨_, exec_fltClearOne source hr, rfl, rfl⟩

end
end

section
/-! A failed known-answer test of a sampling cell whose number no tile has (O22). -/

namespace Sys2Proof.Machine

/-- A compute tile whose sampling cell is numbered 40, beyond the 33 cells of R47; nothing in the hypotheses of the statement shuts it out. -/
def oversampled : State :=
  State.reset.modTile 0 (fun t => { t with state := .compute, setupDone := true, rotating := true, sampling := some 40 })

/-- The row retires the cell of the number modulo 33, and no other. -/
theorem oversampled_katResult_retires_seven :
    ∃ t, exec (.katResult 0 false) oversampled = .next t ∧ (tileAt t 0).retiredCells = [7] :=
  ⟨_, rfl, by decide +kernel⟩

end Sys2Proof.Machine

section
open Sys2Proof Sys2Proof.Machine

/-- Refutes O22: KAT_RESULT takes the sampling cell modulo 33 (`Fin.ofNat 33`), so where a state records cell 40 as sampling, the failed
test retires cell 7, and 40 is not among the retired cells. The clause lacks the bound k < 33. -/
theorem not_tileRowsComplete : ¬ Obligations.TileRowsComplete := by
  unfold Obligations.TileRowsComplete
  rintro ⟨-, -, -, -, -, -, failedTest, -⟩
  obtain ⟨t, ht, retired⟩ := oversampled_katResult_retires_seven
  obtain ⟨u, hu, hk, -⟩ := failedTest oversampled 0 40 rfl rfl rfl rfl
  obtain rfl : t = u := Host.Outcome.next.inj (ht.symm.trans hu)
  exact absurd (retired ▸ hk) (by decide)

end
end
section
/-! What traffic, reports and the upkeep of memory leave of the panel: every field of its sites and bundles that the rows of start-up and of the
clocks set (O20, O21). -/

set_option Elab.async false
namespace Sys2Proof.Machine

/-! ## One element of a list changed -/

theorem modAt_eq_modify {α : Type} (l : List α) (n : Nat) (f : α → α) : modAt l n f = l.modify n f := by
  induction l generalizing n with
  | nil => simp [modAt]
  | cons x l ih => cases n <;> simp [modAt, ih]

theorem getD_modAt {α : Type} (l : List α) (n m : Nat) (f : α → α) (d : α) :
    (modAt l n f).getD m d = if n = m ∧ m < l.length then f (l.getD m d) else l.getD m d := by
  simp only [modAt_eq_modify, List.getD_eq_getElem?_getD, List.getElem?_modify]
  rcases lt_or_ge m l.length with h | h <;> by_cases e : n = m <;> simp [h, e, Nat.not_lt.mpr]

theorem getD_modAt_same {α : Type} {l : List α} {n : Nat} (h : n < l.length) (f : α → α) (d : α) :
    (modAt l n f).getD n d = f (l.getD n d) := by
  rw [getD_modAt, if_pos ⟨rfl, h⟩]

theorem getD_modAt_ne {α : Type} {n m : Nat} (h : n ≠ m) (l : List α) (f : α → α) (d : α) : (modAt l n f).getD m d = l.getD m d := by
  rw [getD_modAt, if_neg (fun e => h e.1)]

/-- A change that a view of the elements does not see. -/
theorem map_modAt_of_eq {α β : Type} {v : α → β} {f : α → α} (h : ∀ x, v (f x) = v x) (l : List α) (n : Nat) :
    (modAt l n f).map v = l.map v := by
  induction l generalizing n with
  | nil => rfl
  | cons x l ih => cases n <;> simp [modAt, ih, h]

/-- A fold whose every step leaves a view of the state leaves it. -/
theorem foldl_view {α σ β : Type} {v : σ → β} {g : σ → α → σ} (h : ∀ t x, v (g t x) = v t) (l : List α) (s : σ) :
    v (l.foldl g s) = v s := by
  induction l generalizing s with
  | nil => rfl
  | cons x l ih => exact (ih _).trans (h s x)

/-! ## Tiles, engines and bundle ends after a change of one -/

theorem tileAt_modTile_same {s : State} {n : Nat} (h : n < s.tiles.length) (f : Tile → Tile) :
    tileAt (s.modTile n f) n = f (tileAt s n) := getD_modAt_same h f _

theorem tileAt_modTile_ne {n m : Nat} (h : n ≠ m) (s : State) (f : Tile → Tile) : tileAt (s.modTile n f) m = tileAt s m :=
  getD_modAt_ne h s.tiles f _

theorem engineAt_modEngine_same {s : State} {e : Nat} (h : e < s.engines.length) (f : Engine → Engine) :
    engineAt (s.modEngine e f) e = f (engineAt s e) := getD_modAt_same h f _

theorem engineAt_modEngine_ne {e k : Nat} (h : e ≠ k) (s : State) (f : Engine → Engine) :
    engineAt (s.modEngine e f) k = engineAt s k := getD_modAt_ne h s.engines f _

@[simp] theorem State.modTile_tiles_length (n : Nat) (f : Tile → Tile) (s : State) : (s.modTile n f).tiles.length = s.tiles.length :=
  modAt_length ..

theorem bundleAt_modBundle_same {s : State} {b : BundleEnd} (h : HasEnd s b) (f : BundleDir → BundleDir) :
    bundleAt (s.modBundle b f) b = f (bundleAt s b) := by
  cases b with
  | tile n i =>
    simp only [State.modBundle, bundleAt, tileAt_modTile_same h.1]
    exact getD_modAt_same h.2 f _
  | hub b => exact getD_modAt_same h f _
  | engine e k =>
    simp only [State.modBundle, bundleAt, engineAt_modEngine_same h.1]
    exact getD_modAt_same h.2 f _

theorem tileAt_modTile (n m : Nat) (f : Tile → Tile) (s : State) :
    tileAt (s.modTile n f) m = if n = m ∧ m < s.tiles.length then f (tileAt s m) else tileAt s m := getD_modAt s.tiles n m f _

theorem engineAt_modEngine (e k : Nat) (f : Engine → Engine) (s : State) :
    engineAt (s.modEngine e f) k = if e = k ∧ k < s.engines.length then f (engineAt s k) else engineAt s k := getD_modAt s.engines e k f _

theorem bundleAt_modBundle_ne {a b : BundleEnd} (h : a ≠ b) (s : State) (f : BundleDir → BundleDir) :
    bundleAt (s.modBundle a f) b = bundleAt s b := by
  cases a <;> cases b
  case tile.tile n i m j =>
    simp only [State.modBundle, bundleAt, tileAt_modTile]
    split
    next e => exact getD_modAt_ne (fun k => h (by rw [Fin.ext e.1, Fin.ext k])) ..
    next => rfl
  case hub.hub b c => exact getD_modAt_ne (fun k => h (by rw [Fin.ext k])) ..
  case engine.engine e k d j =>
    simp only [State.modBundle, bundleAt, engineAt_modEngine]
    split
    next q => exact getD_modAt_ne (fun r => h (by rw [Fin.ext q.1, Fin.ext r])) ..
    next => rfl
  all_goals rfl

end Sys2Proof.Machine
end
section
/-! Views of the panel: its sites, its bundles, and what reports, traffic and the upkeep of memory leave of them. -/

set_option Elab.async false
namespace Sys2Proof.Machine

/-- A bundle direction but for its link, its inline check and what a lane test starts anew. -/
def BundleDir.plain (d : BundleDir) : BundleDir :=
  { d with link := LinkEnd.reset, checking := false, inlineChecks := 0, recentFails := 0, kept := false, phase := [] }

/-- A tile but for its bundles, its ageing, what its cells have run and the groups that its memory has retired. -/
def Tile.plain (t : Tile) : Tile := { t with bundles := [], ageing := Ageing.reset 0, seqRange := [], ran := [], retiredGroups := [] }

/-- The sites of the panel. -/
def sites (s : State) : List Tile := s.tiles.map Tile.plain

/-- The panel as traffic leaves it: its sites, its bundles, and which memories have been trained. -/
structure Panel where
  sites : List Tile
  siteBundles : List (List BundleDir)
  hubBundles : List BundleDir
  engineBundles : List (List BundleDir)
  trained : List Nat

def panel (s : State) : Panel where
  sites := sites s
  siteBundles := s.tiles.map (fun t => t.bundles.map BundleDir.plain)
  hubBundles := s.hubBundles.map BundleDir.plain
  engineBundles := s.engines.map (fun x => x.bundles.map BundleDir.plain)
  trained := s.mem.trainedOnce

theorem sites_of_panel {s t : State} (h : panel t = panel s) : sites t = sites s := congrArg Panel.sites h

theorem trained_of_panel {s t : State} (h : panel t = panel s) : t.mem.trainedOnce = s.mem.trainedOnce := congrArg Panel.trained h

theorem tiles_length_of_sites {s t : State} (h : sites t = sites s) : t.tiles.length = s.tiles.length := by
  simpa [sites] using congrArg List.length h

/-- What a field of a tile that its plain form keeps is, where the sites are the same. -/
theorem tileAt_congr {β : Type} (π : Tile → β) (hπ : ∀ x, π x.plain = π x) {s t : State} (h : sites t = sites s) (n : Nat) :
    π (tileAt t n) = π (tileAt s n) := by
  have plain (u : State) : (tileAt u n).plain = (sites u).getD n (Tile.reset n).plain := (List.getD_map _ _ _).symm
  rw [← hπ, plain, h, ← plain, hπ]

/-- What a field of a bundle direction that its plain form keeps is, where the panel is the same. -/
theorem bundleAt_congr {β : Type} (π : BundleDir → β) (hπ : ∀ d, π d.plain = π d) {s t : State} (h : panel t = panel s) (b : BundleEnd) :
    π (bundleAt t b) = π (bundleAt s b) := by
  have entry (l : List BundleDir) (i : Nat) : (l.getD i BundleDir.reset).plain = (l.map BundleDir.plain).getD i BundleDir.reset.plain :=
    (List.getD_map _ _ _).symm
  suffices key : (bundleAt t b).plain = (bundleAt s b).plain by rw [← hπ, key, hπ]
  cases b with
  | tile n i =>
    have row (u : State) : (tileAt u n).bundles.map BundleDir.plain = (panel u).siteBundles.getD n ((Tile.reset n).bundles.map BundleDir.plain) :=
      (List.getD_map _ _ (fun x : Tile => x.bundles.map BundleDir.plain)).symm
    simp only [bundleAt, entry, row, h]
  | hub b => exact (entry _ _).trans ((congrArg (fun p : Panel => p.hubBundles.getD b _) h).trans (entry _ _).symm)
  | engine e k =>
    have row (u : State) : (engineAt u e).bundles.map BundleDir.plain
        = (panel u).engineBundles.getD e ((Engine.reset e).bundles.map BundleDir.plain) :=
      (List.getD_map _ _ (fun x : Engine => x.bundles.map BundleDir.plain)).symm
    simp only [bundleAt, entry, row, h]

/-- The parts that hold what the panel shows. -/
def panelParts : List Part := [.tiles, .hubBundles, .engines, .mem, .stop]

theorem panel_of_frame {ps : List Part} {s t : State} (h : Frame ps s t) (hp : ∀ p ∈ panelParts, p ∉ ps) : panel t = panel s := by
  have out {p : Part} (k : p ∈ panelParts) : p.same s t := h.exact (hp .stop (by decide)) (hp p k)
  have tiles : t.tiles = s.tiles := out (p := .tiles) (by decide)
  have hub : t.hubBundles = s.hubBundles := out (p := .hubBundles) (by decide)
  have engines : t.engines = s.engines := out (p := .engines) (by decide)
  have mem : ({ t.mem with cells := [] } : MemSys) = { s.mem with cells := [] } := out (p := .mem) (by decide)
  have trained : t.mem.trainedOnce = s.mem.trainedOnce := (congrArg MemSys.trainedOnce mem :)
  simp only [panel, sites, tiles, hub, engines, trained]

theorem panel_foldl {α : Type} {g : State → α → State} (h : ∀ t x, panel (g t x) = panel t) (l : List α) (s : State) :
    panel (l.foldl g s) = panel s := foldl_view h l s

theorem panel_ite {c : Prop} [Decidable c] {s t u : State} (h : panel t = panel s) (k : panel u = panel s) :
    panel (if c then t else u) = panel s := by split <;> assumption

theorem sites_modTile {f : Tile → Tile} (h : ∀ t, (f t).plain = t.plain) (n : Nat) (s : State) : sites (s.modTile n f) = sites s :=
  map_modAt_of_eq h s.tiles n

theorem panel_modTile {f : Tile → Tile} (h : ∀ t, (f t).plain = t.plain) (hb : ∀ t, (f t).bundles = t.bundles) (n : Nat) (s : State) :
    panel (s.modTile n f) = panel s := by
  have bundles : (modAt s.tiles n f).map (fun t => t.bundles.map BundleDir.plain) = s.tiles.map (fun t => t.bundles.map BundleDir.plain) :=
    map_modAt_of_eq (fun t => by rw [hb]) s.tiles n
  simp only [panel, sites_modTile h, State.modTile_hubBundles, State.modTile_engines, State.modTile_mem]
  simp only [State.modTile, bundles]

theorem panel_modEngine {f : Engine → Engine} (h : ∀ x, (f x).bundles = x.bundles) (e : Nat) (s : State) :
    panel (s.modEngine e f) = panel s := by
  have bundles : (modAt s.engines e f).map (fun x => x.bundles.map BundleDir.plain) = s.engines.map (fun x => x.bundles.map BundleDir.plain) :=
    map_modAt_of_eq (fun x => by rw [h]) s.engines e
  simp only [panel, sites, State.modEngine_tiles, State.modEngine_hubBundles, State.modEngine_mem]
  simp only [State.modEngine, bundles]

/-- A change of a bundle direction leaves every site. -/
@[simp] theorem sites_modBundle (b : BundleEnd) (f : BundleDir → BundleDir) (s : State) : sites (s.modBundle b f) = sites s := by
  cases b with
  | tile n i => exact sites_modTile (f := fun t => { t with bundles := modAt t.bundles i f }) (fun _ => rfl) n s
  | hub b => rfl
  | engine e k => rfl

theorem panel_modBundle {f : BundleDir → BundleDir} (h : ∀ d, (f d).plain = d.plain) (b : BundleEnd) (s : State) :
    panel (s.modBundle b f) = panel s := by
  cases b with
  | tile n i =>
    have row (t : Tile) : (modAt t.bundles i f).map BundleDir.plain = t.bundles.map BundleDir.plain := map_modAt_of_eq h ..
    have bundles : (s.modBundle (.tile n i) f).tiles.map (fun t => t.bundles.map BundleDir.plain)
        = s.tiles.map (fun t => t.bundles.map BundleDir.plain) := map_modAt_of_eq row s.tiles n
    simp only [panel, sites_modBundle, bundles]
    rfl
  | hub b => simp only [panel, State.modBundle, map_modAt_of_eq h]; rfl
  | engine e k =>
    have row (x : Engine) : (modAt x.bundles k f).map BundleDir.plain = x.bundles.map BundleDir.plain := map_modAt_of_eq h ..
    have bundles : (s.modBundle (.engine e k) f).engines.map (fun x => x.bundles.map BundleDir.plain)
        = s.engines.map (fun x => x.bundles.map BundleDir.plain) := map_modAt_of_eq row s.engines e
    simp only [panel, sites_modBundle, bundles]
    rfl

end Sys2Proof.Machine
end
section
/-! Traffic keeps the panel: messages over the mesh, requests, new tables, and an optical link that goes down. -/

set_option Elab.async false
namespace Sys2Proof.Machine

/-! ## Reports -/

@[simp] theorem panel_raise {src : Nat} (h : severityOf src ≠ 3) (data : Nat) (s : State) : panel (s.raise src data) = panel s :=
  panel_of_frame (State.raise_quiet h) (by decide)

@[simp] theorem panel_raiseOn {src : Nat} (h : severityOf src ≠ 3) (data : Nat) (cids : List Nat) (s : State) :
    panel (s.raiseOn src data cids) = panel s := panel_of_frame (State.raiseOn_quiet h) (by decide)

@[simp] theorem panel_raiseFor {src : Nat} (h : severityOf src ≠ 3) (data : Nat) (r : Resource) (s : State) :
    panel (s.raiseFor src data r) = panel s := panel_of_frame (State.raiseFor_quiet h) (by decide)

@[simp] theorem panel_raiseService (level cause resource : Nat) (hours : Option Nat) (predicted : Bool) (s : State) :
    panel (s.raiseService level cause resource hours predicted) = panel s := panel_of_frame (State.raiseService_frame ..) (by decide)

@[simp] theorem panel_logEvent (event source severity : Nat) (injected : Bool) (data : DWord) (s : State) :
    panel (s.logEvent event source severity injected data) = panel s := panel_of_frame (State.logEvent_frame ..) (by decide)

@[simp] theorem panel_putMirror (m : Mirror) (s : State) : panel (s.putMirror m) = panel s :=
  panel_of_frame (State.putMirror_frame ..) (by decide)

/-! ## Messages on the mesh -/

theorem panel_arrive (f : Flight) (s : State) : panel (s.arrive f) = panel s := by
  unfold State.arrive
  cases f.dst with
  | engine e => exact panel_modEngine (by intro; rfl) e s
  | site n => rfl
  | hub => rfl

/-- A change of a bundle end's link alone. -/
theorem panel_modBundle_link (b : BundleEnd) (f : LinkEnd → LinkEnd) (s : State) :
    panel (s.modBundle b (fun d => { d with link := f d.link })) = panel s := panel_modBundle (by intro; rfl) b s

theorem panel_tryHop {f : Flight} {here : Station} {s t : State} (h : s.tryHop f here = some t) : panel t = panel s := by
  unfold State.tryHop at h
  split at h
  · cases h; exact panel_arrive f s
  · split at h
    · cases h
    · split at h
      next b _ => cases h; exact panel_modBundle_link b (·.queue f.vc f.message) s
      next => cases h

@[simp] theorem panel_hop (f : Flight) (here : Station) (s : State) : panel (s.hop f here) = panel s := by
  unfold State.hop
  split
  next h => exact panel_tryHop h
  next =>
    split
    next h => exact panel_tryHop h
    next => rfl

@[simp] theorem panel_queueMsg (src : Station) (e : Nat) (m : List Byte) (s : State) : panel (s.queueMsg src e m) = panel s :=
  panel_hop _ _ s

@[simp] theorem panel_sendFrom (src : Station) (m : List Byte) (s : State) : panel (s.sendFrom src m) = panel s := by
  unfold State.sendFrom
  split
  · exact panel_queueMsg ..
  · rfl

@[simp] theorem panel_retable (s : State) : panel s.retable = panel s :=
  panel_foldl (g := fun t f => t.hop { redirect t f with table := s.trans.meshTable + 1, home := false } f.src) (fun t _ => panel_hop _ _ t) ..

@[simp] theorem panel_retry (s : State) : panel s.retry = panel s :=
  panel_foldl (g := fun t f => t.hop { redirect t f with table := t.trans.meshTable, home := false } f.src) (fun t _ => panel_hop _ _ t) ..

/-! ## Requests -/

theorem panel_issue {q : Request} {s t : State} (h : s.issue q = some t) : panel t = panel s := by
  obtain ⟨k, _, rfl⟩ := Option.map_eq_some_iff.mp h
  exact panel_sendFrom ..

theorem panel_issueAll (l : List Request) (s : State) : panel (issueAll l s) = panel s := by
  induction l generalizing s with
  | nil => rfl
  | cons q l ih =>
    unfold issueAll
    split
    next t h => exact (ih t).trans (panel_issue h)
    next => rfl

@[simp] theorem panel_request (l : List Request) (s : State) : panel (s.request l) = panel s := panel_issueAll _ s

/-! ## Link down -/

theorem panel_reroute (e : Nat) (s : State) : panel (s.reroute e) = panel s := panel_of_frame (State.reroute_frame ..) (by decide)

theorem panel_resendOrDrop (e : Nat) (m : List Byte) (age : Nat) (acc : State × Nat) :
    panel (State.resendOrDrop e m age acc).1 = panel acc.1 := by
  unfold State.resendOrDrop
  dsimp only
  split
  · rfl
  · split
    · split
      · rfl
      · exact panel_queueMsg ..
    · rfl

@[simp] theorem panel_linkDown (e : Nat) (s : State) : panel (s.linkDown e) = panel s := by
  have resent (l : List (Nat × List Byte)) (acc : State × Nat) :
      panel (l.foldl (fun a m => State.resendOrDrop e m.2 m.1 a) acc).1 = panel acc.1 :=
    foldl_view (v := fun a : State × Nat => panel a.1) (fun a m => panel_resendOrDrop e m.2 m.1 a) l acc
  have cut {f : Engine → Engine} (hf : ∀ x, (f x).bundles = x.bundles) :
      panel (((s.modEngine e f).raise (srcId 2 e 0x0D) 0).reroute e) = panel s := by
    rw [panel_reroute, panel_raise (calm_src (by decide) (by decide)), panel_modEngine hf]
  unfold State.linkDown
  dsimp only
  split
  · exact (resent _ _).trans (cut (by intro; rfl))
  · exact (panel_raise (calm_src (by decide) (by decide)) _ _).trans ((resent _ _).trans (cut (by intro; rfl)))

@[simp] theorem panel_setLinkState (e : Nat) (st : LinkState) (s : State) : panel (s.setLinkState e st) = panel s := by
  unfold State.setLinkState
  refine (panel_modEngine (by intro; rfl) e _).trans ?_
  split
  · exact panel_linkDown e s
  · rfl

@[simp] theorem panel_engineOut (e : Nat) (own : Bool) (s : State) : panel (s.engineOut e own) = panel s := by
  have calm : severityOf (srcId 2 e 0x0B) ≠ 3 := calm_src (by decide) (by decide)
  unfold State.engineOut
  split
  · rfl
  · dsimp only
    split <;> simp [calm]

end Sys2Proof.Machine
end
section
/-! The upkeep of memory keeps the panel: moves, checks of granules, accesses that waited, and the ends of runs. -/

set_option Elab.async false
namespace Sys2Proof.Machine

/-! ## Module memory -/

theorem panel_cacheCheck (n g written : Nat) (s : State) : panel (s.cacheCheck n g written) = panel s := rfl

@[simp] theorem panel_touch (write : Bool) (l : List Extent) (s : State) : panel (s.touch write l) = panel s := by
  refine panel_foldl (fun t e => ?_) l s
  unfold State.touchExtent
  dsimp only
  split
  · exact panel_foldl (fun u _ => panel_cacheCheck _ _ _ u) ..
  · rfl

@[simp] theorem panel_overwrite (l : List Extent) (s : State) : panel (s.overwrite l) = panel s := panel_touch ..

@[simp] theorem panel_writeMem (l : List Extent) (v : List Byte) (s : State) : panel (s.writeMem l v) = panel s := panel_overwrite ..

theorem panel_reportAccess {src : Nat} (h : severityOf src ≠ 3) (l : List Extent) (cids : List Nat) (s : State) :
    panel (s.reportAccess src l cids) = panel s := by
  unfold State.reportAccess
  split
  · rfl
  · split
    · exact panel_raiseOn h ..
    · exact panel_raiseOn h ..

/-! ## Moves (R213) -/

theorem panel_startMove (b : KvBlock) (dest : Place) (ext : Extent) (s : State) : panel (s.startMove b dest ext) = panel s := by
  unfold State.startMove
  dsimp only
  split
  · exact panel_request ..
  · rfl

theorem panel_moveSome (ok : State → Bool) (dest : State → Option (Place × Extent)) (k : Nat) (l : List KvBlock) (s : State) :
    panel (moveSome ok dest k l s) = panel s := by
  induction k generalizing l s with
  | zero => rfl
  | succ k ih =>
    cases l with
    | nil => rfl
    | cons b l =>
      unfold moveSome
      split
      · rfl
      · split
        · rfl
        next p e _ =>
          refine (ih l _).trans ((panel_startMove ..).trans ?_)
          cases p with
          | remote x => exact panel_request ..
          | site n => rfl
          | cxl p => rfl

@[simp] theorem panel_moveBlocksFrom (r : Extent) (s : State) : panel (s.moveBlocksFrom r) = panel s := panel_moveSome ..

theorem panel_moveShard (r : Extent) (room : State → List Extent) (model index epoch : Nat) (s : State) :
    panel (s.moveShard r room model index epoch) = panel s := by
  unfold State.moveShard
  split
  · rfl
  · split
    · rfl
    · dsimp only
      split
      · rfl
      · split
        next h => exact panel_reportAccess (calm_access h) ..
        next => exact (panel_overwrite ..).trans (panel_touch ..)

@[simp] theorem panel_moveShards (r : Extent) (room : State → List Extent) (s : State) : panel (s.moveShards r room) = panel s := by
  unfold State.moveShards
  dsimp only
  split
  · rfl
  · exact panel_foldl (fun t (x : Nat × Nat × Nat) => panel_moveShard r room x.1 x.2.1 x.2.2 t) ..

/-! ## Granules (R256–R259) -/

theorem panel_retireGroup (n g source : Nat) (s : State) : panel (s.retireGroup n g source) = panel s := by
  have retired : panel ((((s.modTile n (fun t => { t with retiredGroups := t.retiredGroups ++ [g] })).putMirror (.retiredGroup n g)).raise
      (srcId 3 n 5) g).logEvent 0x0003 source (severityOf source) false (retireData 9 n 0 g)) = panel s := by
    rw [panel_logEvent, panel_raise (calm_src (by decide) (by decide)), panel_putMirror]
    exact panel_modTile (by intro; rfl) (by intro; rfl) n s
  unfold State.retireGroup
  dsimp only
  split
  · rfl
  · split
    · exact panel_raiseService ..
    · generalize State.logEvent _ _ _ _ _ _ = u at retired ⊢
      have moved := fun l : List GroupErrors => ((panel_moveShards (groupExtent n g) weightFree _).trans
        (panel_moveBlocksFrom (groupExtent n g) { u with mem := { u.mem with groupErrors := l } })).trans retired
      exact panel_ite ((panel_raiseService ..).trans (moved _)) (moved _)

theorem panel_outGroup (injected : Bool) (n g source : Nat) (s : State) : panel (s.outGroup injected n g source) = panel s := by
  unfold State.outGroup
  split
  · exact panel_retireGroup ..
  · split
    · rfl
    · exact (panel_moveShards ..).trans (panel_moveBlocksFrom ..)

theorem panel_noteCorrected (injected : Bool) (n g : Nat) (s : State) : panel (s.noteCorrected injected n g) = panel s :=
  panel_ite ((panel_outGroup ..).trans rfl) rfl

theorem panel_checkGranule (n x : Nat) (errors : ByteErrors) (cids : List Nat) (s : State) : panel (s.checkGranule n x errors cids) = panel s := by
  unfold State.checkGranule
  dsimp only
  split
  · split
    · unfold State.groupPasses
      split <;> rfl
    · exact (panel_noteCorrected ..).trans (panel_raise (calm_src (by decide) (by decide)) ..)
    · exact (panel_outGroup ..).trans (panel_raiseOn (calm_src (by decide) (by decide)) ..)
  · exact panel_foldl (fun t c => panel_of_frame (State.markCmd_frame _ c t) (by decide)) ..
  · exact panel_raiseOn (calm_src (by decide) (by decide)) ..

theorem panel_readGranule (n x : Nat) (cid : Option Nat) (errors : ByteErrors) (s : State) : panel (s.readGranule n x cid errors) = panel s :=
  (panel_checkGranule ..).trans (panel_touch ..)

theorem panel_readForWrite (n x : Nat) (cid : Option Nat) (errors : ByteErrors) (s : State) : panel (s.readForWrite n x cid errors) = panel s := by
  unfold State.readForWrite
  dsimp only
  split
  · exact panel_checkGranule ..
  · exact panel_checkGranule ..

theorem panel_writeGranules (n x : Nat) (data : List Byte) (cid : Option Nat) (errors : List ByteErrors) (s : State) :
    panel (s.writeGranules n x data cid errors) = panel s := by
  refine (panel_writeMem ..).trans (panel_foldl (fun t p => ?_) ..)
  split
  · rfl
  · exact panel_readForWrite ..

/-! ## Accesses that waited (R264) -/

theorem panel_resume (a : HeldAccess) (s : State) : panel (s.resume a) = panel s := by
  unfold State.resume
  dsimp only
  generalize (if a.write = true then a.data.length else 1) = len
  split
  · exact panel_raiseOn (calm_unmappedSource _) ..
  · split
    · rfl
    · split
      · exact panel_writeGranules ..
      · exact panel_readGranule ..

@[simp] theorem panel_resumeAll (s : State) : panel s.resumeAll = panel s :=
  panel_foldl (fun t a => panel_resume a t) s.mem.heldAccesses { s with mem := { s.mem with heldAccesses := [] } }

theorem resumeAll_of_nil {s : State} (h : s.mem.heldAccesses = []) : s.resumeAll = s := by
  have same : ({ s.mem with heldAccesses := [] } : MemSys) = s.mem := by rw [← h]
  unfold State.resumeAll
  rw [h, same]
  rfl

/-! ## Runs -/

theorem panel_caskWork (cid : Nat) (s : State) : panel (s.caskWork cid) = panel s := by
  unfold State.caskWork
  split
  · split
    · exact panel_modTile (by intro; rfl) (by intro; rfl) ..
    · rfl
  · rfl

theorem panel_appendRow {session layer : Nat} {isV : Bool} {d : TensorDesc} {pos : Nat} {row : List Elem} {s t : State}
    (h : s.appendRow session layer isV d pos row = some t) : panel t = panel s := by
  unfold State.appendRow at h
  dsimp only at h
  split at h
  · cases h; exact panel_overwrite ..
  · split at h
    · cases h
    · cases h; exact panel_overwrite ..

theorem panel_appendRows {session layer : Nat} {isV : Bool} {d : TensorDesc} {pos : Nat} {rows : List (List Elem)} {s t : State}
    (h : s.appendRows session layer isV d pos rows = some t) : panel t = panel s := by
  refine List.foldlRecOn (motive := fun a => ∀ u, a = some u → panel u = panel s) _ _ (fun u e => by cases e; rfl) (fun a ih i _ u e => ?_) t h
  obtain ⟨v, hv, hu⟩ := Option.bind_eq_some_iff.mp e
  exact (panel_appendRow hu).trans (ih v hv)

theorem panel_appendStep {s t : State} {r : Run} {x : Session} (h : appendStep s r x = .ok t) : panel t = panel s := by
  unfold appendStep at h
  refine List.foldlRecOn (motive := fun a : Appended => ∀ u, a = .ok u → panel u = panel s) _ _ (fun u e => by cases e; rfl)
    (fun a ih p _ u e => ?_) t h
  cases a with
  | ok v =>
    dsimp only at e
    split at e
    · cases e
    · split at e
      · cases e
      · split at e
        next w hw => cases e; exact (panel_appendRows hw).trans (ih v rfl)
        next => cases e
  | wrongRows id => cases e
  | noRoom => cases e

theorem panel_writeOutputs (r : Run) (s : State) : panel (s.writeOutputs r) = panel s := by
  refine panel_foldl (fun t b => ?_) ..
  split
  · split
    · exact panel_writeMem ..
    · rfl
  · rfl

theorem panel_closeRun (r : Run) (status : Status) (source failed needed : Nat) (s : State) :
    panel (s.closeRun r status source failed needed) = panel s := panel_of_frame (State.closeRun_frame ..) (by decide)

theorem panel_settleRun (cid : Nat) (s : State) : panel (s.settleRun cid) = panel s := by
  unfold State.settleRun
  split
  · rfl
  · split
    · rfl
    · split
      · exact panel_of_frame (State.closeFailed_frame ..) (by decide)
      · exact panel_closeRun ..
      · split
        · rfl
        · split
          next h => exact (panel_closeRun ..).trans (panel_reportAccess (calm_access h) ..)
          next =>
            dsimp only
            split
            · exact (panel_closeRun ..).trans (panel_writeOutputs ..)
            · split
              next h =>
                split
                · rfl
                · rw [panel_closeRun, panel_writeOutputs, panel_caskWork, panel_appendStep h]
              · exact panel_closeRun ..
              · exact panel_closeRun ..

@[simp] theorem panel_settleRuns (s : State) : panel s.settleRuns = panel s := panel_foldl (fun t c => panel_settleRun c t) ..

theorem settleRuns_of_nil {s : State} (h : s.runs = []) : s.settleRuns = s := by
  unfold State.settleRuns
  rw [h]
  rfl

/-! ## A site's memory lost, and its ageing -/

@[simp] theorem panel_loseBytes (base len : Nat) (s : State) : panel (s.loseBytes base len) = panel s := rfl

@[simp] theorem panel_loseSite (n source : Nat) (s : State) : panel (s.loseSite n source) = panel s := by
  unfold State.loseSite
  rw [panel_loseBytes, panel_of_frame (State.loseStripes_frame ..) (by decide), panel_of_frame (State.loseMoves_frame ..) (by decide),
    panel_of_frame (State.loseBlocks_frame ..) (by decide), panel_of_frame (State.failNeeding_frame ..) (by decide)]

theorem panel_agePoint (d : DieRef) (slowdown : List Nat) (s : State) : panel (s.agePoint d slowdown) = panel s := by
  have set (a : Ageing) (m : Mirror) : panel ((s.setAgeing d a).putMirror m) = panel s := by
    rw [panel_putMirror]
    cases d with
    | tile n => exact panel_modTile (by intro; rfl) (by intro; rfl) ..
    | hub => rfl
    | engine e => exact panel_modEngine (by intro; rfl) ..
  have told (n k : Nat) (hk : k = 9 ∨ k = 10) (u : State) : panel (u.raise (srcId 6 n k) 0) = panel u := by
    rcases hk with rfl | rfl <;> exact panel_raise (calm_src (by decide) (by decide)) ..
  unfold State.agePoint
  dsimp only
  refine (panel_of_frame (State.predict_frame ..) (by decide)).trans ?_
  cases d with
  | tile n =>
    dsimp only
    split
    · split
      · rw [told _ _ (.inr rfl), told _ _ (.inl rfl), set]
      · rw [told _ _ (.inr rfl), set]
    · split
      · rw [told _ _ (.inl rfl), set]
      · exact set ..
  | hub => exact set ..
  | engine e => exact set ..

end Sys2Proof.Machine
end
section
/-! What isolation and retirement leave of the other tiles: a site that is ISOLATED stays so, and retired cells and stopped bundles stay. -/

set_option Elab.async false
namespace Sys2Proof.Machine

/-- y is x after others have been isolated or retired. -/
structure Tile.Lasts (x y : Tile) : Prop where
  isolated : x.state = .isolated → y.state = .isolated
  retired : ∀ k ∈ x.retiredCells, k ∈ y.retiredCells
  stopped : ∀ i ∈ x.stopped, i ∈ y.stopped

theorem Tile.Lasts.refl (x : Tile) : x.Lasts x := ⟨id, fun _ => id, fun _ => id⟩

theorem Tile.Lasts.trans {x y z : Tile} (h : x.Lasts y) (k : y.Lasts z) : x.Lasts z :=
  ⟨fun e => k.isolated (h.isolated e), fun i e => k.retired i (h.retired i e), fun i e => k.stopped i (h.stopped i e)⟩

/-- Every tile of t is the tile of s after others have been isolated or retired. -/
structure SitesLast (s t : State) : Prop where
  length : t.tiles.length = s.tiles.length
  tile : ∀ n, (tileAt s n).Lasts (tileAt t n)

theorem SitesLast.refl (s : State) : SitesLast s s := ⟨rfl, fun _ => .refl _⟩

theorem SitesLast.trans {s t u : State} (h : SitesLast s t) (k : SitesLast t u) : SitesLast s u :=
  ⟨k.length.trans h.length, fun n => (h.tile n).trans (k.tile n)⟩

theorem SitesLast.of_sites {s t : State} (h : sites t = sites s) : SitesLast s t where
  length := tiles_length_of_sites h
  tile n := by
    have state := tileAt_congr Tile.state (fun _ => rfl) h n
    have retired := tileAt_congr Tile.retiredCells (fun _ => rfl) h n
    have stopped := tileAt_congr Tile.stopped (fun _ => rfl) h n
    exact ⟨fun e => state.trans e, fun _ e => retired ▸ e, fun _ e => stopped ▸ e⟩

theorem SitesLast.of_panel {s t : State} (h : panel t = panel s) : SitesLast s t := .of_sites (sites_of_panel h)

theorem SitesLast.modTile {n : Nat} {f : Tile → Tile} {s : State} (h : (tileAt s n).Lasts (f (tileAt s n))) : SitesLast s (s.modTile n f) where
  length := State.modTile_tiles_length n f s
  tile m := by
    rw [tileAt_modTile]
    split
    next e => exact e.1 ▸ h
    next => exact .refl _

theorem SitesLast.foldl {α : Type} {g : State → α → State} (h : ∀ t x, SitesLast t (g t x)) (l : List α) (s : State) :
    SitesLast s (l.foldl g s) := by
  induction l generalizing s with
  | nil => exact .refl s
  | cons x l ih => exact (h s x).trans (ih _)

theorem SitesLast.ite {c : Prop} [Decidable c] {s t u : State} (h : SitesLast s t) (k : SitesLast s u) : SitesLast s (if c then t else u) := by
  split <;> assumption

/-! ## Isolation (R26, R579) -/

theorem sites_faceDown (n : Nat) (s : State) : sites (s.faceDown n) = sites s := by
  refine foldl_view (fun t b => ?_) (tileEnds n) s
  cases peerEnd b with
  | none => rfl
  | some p => exact sites_modBundle p BundleDir.dropped' t

theorem State.takeSpare_last (lost : Nat) (role : Role) (left : List Nat) (s : State) : SitesLast s (s.takeSpare lost role left) := by
  unfold State.takeSpare
  cases left with
  | nil => exact .of_panel (panel_raiseService ..)
  | cons n rest =>
    refine .trans (.modTile ?_) (.of_panel (panel_raiseService ..))
    dsimp only
    split
    next h => exact ⟨fun e => absurd (h.symm.trans e) (by decide), fun _ => id, fun _ => id⟩
    next => exact ⟨id, fun _ => id, fun _ => id⟩

theorem panel_assignStreams (s : State) : panel s.assignStreams = panel s := panel_of_frame (State.assignStreams_frame s) (by decide)

/-- A tile whose site has left the mesh (R26). -/
def Tile.gone (t : Tile) : Tile :=
  { t with state := .isolated, inReset := true, memInService := false, role := .none, nextRole := none, setupDone := false, settingUp := false,
           sampling := none, logical := [], rotating := false, draining := false, retiring := false, idValid := false, training := false,
           bundles := t.bundles.map BundleDir.dropped' }

/-- An isolation as its tile sees it: out of the mesh, then only reports, traffic and the loss of its memory, then its spare. -/
theorem State.isolateSite_sites (n : Nat) (s : State) :
    ∃ u, sites u = sites (s.modTile n Tile.gone)
      ∧ s.isolateSite n = (if inCompute s n then u.takeSpare n (tileAt s n).heldRole (without (· == n) (sparesLeft s)) else u).assignStreams := by
  have out (t : State) : panel (t.retable) = panel t := panel_retable t
  have lost (src : Nat) (t : State) : panel (((t.suspectLaunches n src).requeueUnits n).loseSite n src) = panel t := by
    rw [panel_loseSite, panel_of_frame (State.requeueUnits_frame ..) (by decide), panel_of_frame (State.suspectLaunches_frame ..) (by decide)]
  have engines (t : State) : panel ((siteEngines n).foldl (fun u e => u.engineOut e true) t) = panel t :=
    panel_foldl (fun u e => panel_engineOut e true u) ..
  refine ⟨_, ?_, rfl⟩
  refine (sites_of_panel ((panel_retry _).trans ((engines _).trans (panel_retable _)))).trans ((sites_faceDown n _).trans (sites_of_panel ?_))
  rw [lost, panel_logEvent, panel_raise (calm_src (by decide) (by decide)), panel_putMirror]
  rfl

theorem State.isolateSite_last (n : Nat) (s : State) : SitesLast s (s.isolateSite n) := by
  obtain ⟨u, hu, h⟩ := s.isolateSite_sites n
  have gone : SitesLast s u := .trans (.modTile (f := Tile.gone) ⟨fun _ => rfl, fun _ => id, fun _ => id⟩) (.of_sites hu)
  rw [h]
  exact (SitesLast.ite (gone.trans (State.takeSpare_last ..)) gone).trans (.of_panel (panel_assignStreams _))

theorem State.isolateSite_isolated {n : Nat} {s : State} (h : n < s.tiles.length) : (tileAt (s.isolateSite n) n).state = .isolated := by
  obtain ⟨u, hu, e⟩ := s.isolateSite_sites n
  have gone : (tileAt u n).state = .isolated :=
    (tileAt_congr Tile.state (fun _ => rfl) hu n).trans (by rw [tileAt_modTile_same h]; rfl)
  rw [e, tileAt_congr Tile.state (fun _ => rfl) (sites_of_panel (panel_assignStreams _))]
  split
  · exact ((State.takeSpare_last ..).tile n).isolated gone
  · exact gone

/-- Of several sites isolated in turn each is ISOLATED in the end. -/
theorem foldl_isolateSite_isolated {m : Nat} {l : List Nat} {s : State} (hm : m ∈ l) (h : m < s.tiles.length) :
    (tileAt (l.foldl (fun t n => t.isolateSite n) s) m).state = .isolated := by
  induction l generalizing s with
  | nil => cases hm
  | cons n l ih =>
    have last := State.isolateSite_last n s
    cases hm with
    | head => exact ((SitesLast.foldl (fun t n => t.isolateSite_last n) l _).tile m).isolated (State.isolateSite_isolated h)
    | tail _ hl => exact ih hl (last.length ▸ h)

/-! ## Retirement (R25, R63–R65, R366) -/

theorem State.darken_last {n : Nat} {s : State} (h : (tileAt s n).state ≠ .isolated) : SitesLast s (s.darken n) := by
  unfold State.darken
  dsimp only
  refine .trans ?_ (.of_panel (panel_assignStreams _))
  have dark : SitesLast s (s.modTile n (fun t =>
      { t with state := .retired, retiring := false, role := .none, nextRole := none, settingUp := false, setupDone := false, sampling := none,
               logical := [], rotating := false, draining := false, drainAbandoned := false, leavingCells := [] })) :=
    .modTile ⟨fun e => absurd e h, fun _ => id, fun _ => id⟩
  exact .ite (dark.trans (State.takeSpare_last ..)) dark

theorem State.retireSite_last {n : Nat} {s : State} (h : (tileAt s n).state ≠ .isolated) : SitesLast s (s.retireSite n) := by
  unfold State.retireSite
  dsimp only
  have told (u : State) : panel (((u.putMirror (.retiredSite n false)).raise (srcId 1 n 0x0A) 0).logEvent 0x0003 (srcId 1 n 0x0A) 1 false
      (retireData 1 n 0 0)) = panel u := by
    rw [panel_logEvent, panel_raise (calm_src (by decide) (by decide)), panel_putMirror]
  refine .trans ?_ (.of_panel (told _))
  split
  · exact .modTile ⟨id, fun _ => id, fun _ => id⟩
  · exact State.darken_last h

theorem State.retireTile_last (n : Nat) (routerOk : Bool) (s : State) : SitesLast s (s.retireTile n routerOk) := by
  unfold State.retireTile
  dsimp only
  split
  · exact .refl s
  next h =>
    split
    · exact .ite (.refl s) (State.retireSite_last h)
    · exact State.isolateSite_last n s

theorem panel_retireCell_record (n k source : Nat) (s : State) :
    panel ((s.putMirror (.retiredCell n k)).logEvent 0x0003 source (severityOf source) false (retireData 3 n k 0)) = panel s := by
  rw [panel_logEvent, panel_putMirror]

/-- After a cell has been recorded as retired, its tile is served, or retires with it. -/
theorem State.retireCell_last_of_added (n k source : Nat) (s : State) (h : (tileAt s n).retiredCells.contains k = false) :
    SitesLast (s.modTile n (fun t => { t with retiredCells := t.retiredCells ++ [k], leavingCells := t.leavingCells ++ [k] }))
      (s.retireCell n k source) := by
  unfold State.retireCell
  dsimp only
  rw [h, if_neg Bool.false_ne_true]
  refine .trans (.of_panel (panel_retireCell_record n k source _)) ?_
  split
  · exact .of_panel (panel_raiseService ..)
  · exact State.retireTile_last ..

theorem State.retireCell_last (n k source : Nat) (s : State) : SitesLast s (s.retireCell n k source) := by
  cases h : (tileAt s n).retiredCells.contains k with
  | true =>
    unfold State.retireCell
    dsimp only
    rw [h]
    exact .refl s
  | false => exact .trans (.modTile ⟨id, fun _ e => List.mem_append_left _ e, fun _ => id⟩) (State.retireCell_last_of_added n k source s h)

theorem State.retireCell_retired {n : Nat} {s : State} (h : n < s.tiles.length) (k source : Nat) :
    k ∈ (tileAt (s.retireCell n k source) n).retiredCells := by
  cases hk : (tileAt s n).retiredCells.contains k with
  | true => exact ((State.retireCell_last n k source s).tile n).retired k (List.contains_iff_mem.mp hk)
  | false =>
    refine ((State.retireCell_last_of_added n k source s hk).tile n).retired k ?_
    rw [tileAt_modTile_same h]
    exact List.mem_append_right _ List.mem_cons_self

end Sys2Proof.Machine
end
section
/-! What the log leaves of the hub's records and of the clock: a report writes no record but the place of the log, and neither reports nor
records touch REFCLK or the stop that the retained domain has latched. -/

set_option Elab.async false
namespace Sys2Proof.Machine

/-- Whether REFCLK is there, and the clock stop that the retained domain has latched (R490). -/
def clock (s : State) : Bool × Option Nat := (s.pins.refclk, s.ret.clockStop)

/-- The entry that names the active log and its next number (R522). -/
def Mirror.isLogHead : Mirror → Bool
  | .logHead _ _ => true
  | _ => false

/-- The records that the hub holds, but for the place of its log. -/
def records (s : State) : List Mirror := without Mirror.isLogHead s.log.held

/-- What writing the log leaves: the records and the clock. -/
def ledger (s : State) : List Mirror × Bool × Option Nat := (records s, clock s)

theorem records_of_ledger {s t : State} (h : ledger t = ledger s) : records t = records s := congrArg Prod.fst h

theorem clock_of_ledger {s t : State} (h : ledger t = ledger s) : clock t = clock s := congrArg Prod.snd h

/-- The parts that hold what the ledger shows. -/
def ledgerParts : List Part := [.log, .pins, .ret, .stop]

theorem ledger_of_frame {ps : List Part} {s t : State} (h : Frame ps s t) (hp : ∀ p ∈ ledgerParts, p ∉ ps) : ledger t = ledger s := by
  have out {p : Part} (k : p ∈ ledgerParts) : p.same s t := h.exact (hp .stop (by decide)) (hp p k)
  have log : t.log = s.log := out (p := .log) (by decide)
  have pins : t.pins = s.pins := out (p := .pins) (by decide)
  have ret : t.ret = s.ret := out (p := .ret) (by decide)
  simp only [ledger, records, clock, log, pins, ret]

/-- A frame without the log leaves the records. -/
theorem records_of_frame {ps : List Part} {s t : State} (h : Frame ps s t) (hs : Part.stop ∉ ps) (hl : Part.log ∉ ps) : records t = records s := by
  have log : t.log = s.log := h.exact hs (p := .log) hl
  simp only [records, log]

theorem ledger_foldl {α : Type} {g : State → α → State} (h : ∀ t x, ledger (g t x) = ledger t) (l : List α) (s : State) :
    ledger (l.foldl g s) = ledger s := foldl_view h l s

theorem clock_foldl {α : Type} {g : State → α → State} (h : ∀ t x, clock (g t x) = clock t) (l : List α) (s : State) :
    clock (l.foldl g s) = clock s := foldl_view h l s

/-! ## Records put into flash (R513) -/

theorem ledger_modFlash (i : Nat) (f : Flash → Flash) (s : State) : ledger (s.modFlash i f) = ledger s :=
  ledger_of_frame (State.modFlash_frame ..) (by decide)

theorem ledger_enqueueBoth (op : FlashOp) (s : State) : ledger (s.enqueueBoth op) = ledger s :=
  ledger_of_frame (State.enqueueBoth_frame ..) (by decide)

@[simp] theorem queueMirror_held (m : Mirror) (g : LogState) : (queueMirror m g).held = g.held := by
  unfold queueMirror
  split
  · rfl
  · split
    · rfl
    · split
      · rfl
      · split <;> rfl

theorem State.putMirror_held (m : Mirror) (s : State) : (s.putMirror m).log.held = addMirror m s.log.held := by
  unfold State.putMirror
  dsimp only
  split
  · rfl
  · split
    · exact queueMirror_held ..
    · exact congrArg LogState.held ((State.enqueueBoth_frame _ _).exact (by decide) (p := .log) (by decide))

@[simp] theorem clock_putMirror (m : Mirror) (s : State) : clock (s.putMirror m) = clock s := by
  unfold State.putMirror
  dsimp only
  split
  · rfl
  · split
    · rfl
    · exact (clock_of_ledger (ledger_enqueueBoth ..)).trans rfl

theorem sameKey_logHead (a n : Nat) (m : Mirror) : Mirror.sameKey (.logHead a n) m = m.isLogHead := by
  cases m <;> rfl

/-- The place of the log replaces itself alone. -/
theorem records_putMirror_logHead (a n : Nat) (s : State) : records (s.putMirror (.logHead a n)) = records s := by
  have key : without (Mirror.sameKey (.logHead a n)) s.log.held = records s := by
    simp only [records, without, sameKey_logHead]
  rw [records, State.putMirror_held]
  show without _ (without _ _ ++ [_]) = _
  rw [key]
  simp [records, without, Mirror.isLogHead]

theorem ledger_putMirror_logHead (a n : Nat) (s : State) : ledger (s.putMirror (.logHead a n)) = ledger s :=
  Prod.ext (records_putMirror_logHead a n s) (clock_putMirror _ s)

/-! ## The log (R518–R524) -/

@[simp] theorem queueRecord_held (r : LogRec) (g : LogState) : (queueRecord r g).held = g.held := by
  unfold queueRecord
  split
  · rfl
  · dsimp only
    split <;> rfl

theorem ledger_commitRecord (r : LogRec) (s : State) : ledger (s.commitRecord r) = ledger s := by
  unfold State.commitRecord
  dsimp only
  split
  · rfl
  · split
    · simp only [ledger, records, clock, queueRecord_held]
    · generalize hu : (if (flashAt s s.log.active).nextPlace % 2048 = 0 then s.putMirror (.logHead s.log.active s.log.next) else s) = u
      have head : ledger u = ledger s := by
        rw [← hu]
        split
        · exact ledger_putMirror_logHead ..
        · rfl
      exact (ledger_modFlash _ _ u).trans head

theorem ledger_commitOpen (s : State) : ledger s.commitOpen = ledger s := by
  unfold State.commitOpen
  split
  · rfl
  · exact ledger_commitRecord ..

@[simp] theorem ledger_logEvent (event source severity : Nat) (injected : Bool) (data : DWord) (s : State) :
    ledger (s.logEvent event source severity injected data) = ledger s := by
  unfold State.logEvent
  dsimp only
  split
  · split
    · rfl
    · exact ledger_commitOpen s
  · rfl

theorem ledger_logEvents (evs : List FaultEvent) (s : State) : ledger (s.logEvents evs) = ledger s :=
  ledger_foldl (fun t _ => ledger_logEvent _ _ _ _ _ t) ..

theorem ledger_raiseCause (k : Nat) (s : State) : ledger (s.raiseCause k) = ledger s := ledger_of_frame (State.raiseCause_frame ..) (by decide)

@[simp] theorem ledger_captureOnly (evs : List FaultEvent) (s : State) : ledger (s.captureOnly evs) = ledger s := by
  have marked (u : State) (l : List FaultEvent) : ledger ((u.logEvents l).markEvents l) = ledger u :=
    (ledger_of_frame (State.markEvents_frame ..) (by decide)).trans (ledger_logEvents l u)
  unfold State.captureOnly
  dsimp only
  split
  · exact (ledger_raiseCause ..).trans (marked ..)
  · exact marked ..

theorem ledger_moduleStop (source : Nat) (s : State) : ledger (s.moduleStop source) = ledger s := by
  refine (ledger_commitOpen _ :)

@[simp] theorem ledger_capture (evs : List FaultEvent) (s : State) : ledger (s.capture evs) = ledger s := by
  unfold State.capture
  dsimp only
  split
  · exact (ledger_moduleStop ..).trans (ledger_captureOnly ..)
  · exact ledger_captureOnly ..

@[simp] theorem ledger_raise (source data : Nat) (s : State) : ledger (s.raise source data) = ledger s := ledger_capture ..

@[simp] theorem ledger_raiseRequest (q : ServiceReq) (s : State) : ledger (s.raiseRequest q) = ledger s := by
  unfold State.raiseRequest
  dsimp only
  refine (ledger_raiseCause ..).trans ((ledger_logEvent ..).trans ?_)
  split <;> rfl

@[simp] theorem ledger_raiseService (level cause resource : Nat) (hours : Option Nat) (predicted : Bool) (s : State) :
    ledger (s.raiseService level cause resource hours predicted) = ledger s := ledger_raiseRequest ..

/-! ## Links and engines -/

theorem ledger_linkDown (e : Nat) (s : State) : ledger (s.linkDown e) = ledger s := by
  have resent (l : List (Nat × List Byte)) (acc : State × Nat) :
      ledger (l.foldl (fun a m => State.resendOrDrop e m.2 m.1 a) acc).1 = ledger acc.1 :=
    foldl_view (v := fun a : State × Nat => ledger a.1) (fun a m => ledger_of_frame (State.resendOrDrop_frame e m.2 m.1 a) (by decide)) l acc
  have rerouted (u : State) : ledger (u.reroute e) = ledger u := ledger_foldl (fun t _ => ledger_raise _ _ t) ..
  have cut (f : Engine → Engine) : ledger (((s.modEngine e f).raise (srcId 2 e 0x0D) 0).reroute e) = ledger s := by
    rw [rerouted, ledger_raise]
    rfl
  unfold State.linkDown
  dsimp only
  split
  · exact (resent _ _).trans (cut _)
  · exact (ledger_raise ..).trans ((resent _ _).trans (cut _))

@[simp] theorem ledger_setLinkState (e : Nat) (st : LinkState) (s : State) : ledger (s.setLinkState e st) = ledger s := by
  unfold State.setLinkState
  dsimp only
  split
  · exact ledger_linkDown e s
  · rfl

@[simp] theorem ledger_engineOut (e : Nat) (own : Bool) (s : State) : ledger (s.engineOut e own) = ledger s := by
  unfold State.engineOut
  split
  · rfl
  · dsimp only
    split <;> simp

end Sys2Proof.Machine
end
section
/-! Bundles that are recorded as retired stay so, through reports, retirements and isolations. -/

set_option Elab.async false
namespace Sys2Proof.Machine

theorem mem_records {m : Mirror} {s : State} : m ∈ records s ↔ m ∈ s.log.held ∧ m.isLogHead = false := by
  simp [records, without]

theorem recordedBundle_iff {b : BundleEnd} {s : State} : recordedBundle s b = true ↔ Mirror.retiredBundle b ∈ s.log.held := by
  simp [recordedBundle]

theorem recordedBundle_of_records {s t : State} (h : records t = records s) (b : BundleEnd) : recordedBundle t b = recordedBundle s b := by
  have held (u : State) : recordedBundle u b = true ↔ Mirror.retiredBundle b ∈ records u := by
    rw [recordedBundle_iff, mem_records]
    exact (and_iff_left rfl).symm
  rw [Bool.eq_iff_iff, held, held, h]

theorem findSome?_filter {α β : Type} {f : α → Option β} {p : α → Bool} (h : ∀ x, p x = false → f x = none) (l : List α) :
    (l.filter p).findSome? f = l.findSome? f := by
  induction l with
  | nil => rfl
  | cons x l ih =>
    cases hp : p x with
    | true => rw [List.filter_cons_of_pos hp, List.findSome?_cons, List.findSome?_cons, ih]
    | false => rw [List.filter_cons_of_neg (by simp [hp]), List.findSome?_cons, h x hp, ih]

/-- What an entry says of a site (R27). -/
def Mirror.ofSite (n : Nat) : Mirror → Option Bool
  | .retiredSite k i => if k = n then some i else none
  | _ => none

theorem recordedSite_eq (s : State) (n : Nat) : recordedSite s n = s.log.held.findSome? (Mirror.ofSite n) := rfl

theorem recordedSite_of_records {s t : State} (h : records t = records s) (n : Nat) : recordedSite t n = recordedSite s n := by
  have silent (m : Mirror) (hm : (!m.isLogHead) = false) : m.ofSite n = none := by
    cases m with
    | retiredSite k i => cases hm
    | _ => rfl
  have held (u : State) : recordedSite u n = (records u).findSome? (Mirror.ofSite n) := (findSome?_filter silent u.log.held).symm
  rw [held, held, h]

/-! ## An entry put into flash (R513) -/

theorem mem_dropNth {kind : Mirror → Bool} {x : Mirror} (hx : kind x = false) (most k : Nat) (l : List Mirror) :
    x ∈ dropNth kind most k l ↔ x ∈ l := by
  induction l generalizing most k with
  | nil => rfl
  | cons m l ih =>
    have other (h : kind m = true) : x ≠ m := fun e => by rw [e, h] at hx; cases hx
    unfold dropNth
    split
    next h => split <;> [split; skip] <;> simp [ih, other h]
    next => simp [ih]

/-- A history drops points alone. -/
theorem mem_trimHistory_retiredBundle {b : BundleEnd} (m : Mirror) (l : List Mirror) :
    Mirror.retiredBundle b ∈ trimHistory m l ↔ Mirror.retiredBundle b ∈ l := by
  unfold trimHistory
  split
  · exact mem_dropNth rfl ..
  · exact mem_dropNth rfl ..
  · rfl

/-- The record of a retired bundle stays, and joins with its own entry. -/
theorem recordedBundle_putMirror (m : Mirror) (b : BundleEnd) (s : State) :
    recordedBundle (s.putMirror m) b = true ↔ recordedBundle s b = true ∨ m = .retiredBundle b := by
  have own (h : Mirror.sameKey m (.retiredBundle b) = true) : m = .retiredBundle b := by
    cases m <;> simp_all [Mirror.sameKey]
  rw [recordedBundle_iff, recordedBundle_iff, State.putMirror_held, addMirror, mem_trimHistory_retiredBundle]
  simp only [without, List.mem_append, List.mem_filter, Bool.not_eq_true', List.mem_singleton]
  constructor
  · rintro (⟨h, _⟩ | h)
    · exact .inl h
    · exact .inr h.symm
  · rintro (h | h)
    · cases hk : Mirror.sameKey m (.retiredBundle b) with
      | false => exact .inl ⟨h, rfl⟩
      | true => exact .inr (own hk).symm
    · exact .inr h.symm

/-! ## The records of bundles that stay -/

/-- Every bundle end that s records as retired t records so. -/
def BundlesStay (s t : State) : Prop := ∀ b, recordedBundle s b = true → recordedBundle t b = true

theorem BundlesStay.refl (s : State) : BundlesStay s s := fun _ => id

theorem BundlesStay.trans {s t u : State} (h : BundlesStay s t) (k : BundlesStay t u) : BundlesStay s u := fun b e => k b (h b e)

theorem BundlesStay.of_records {s t : State} (h : records t = records s) : BundlesStay s t := fun b => (recordedBundle_of_records h b).trans

theorem BundlesStay.of_ledger {s t : State} (h : ledger t = ledger s) : BundlesStay s t := .of_records (records_of_ledger h)

theorem BundlesStay.putMirror (m : Mirror) (s : State) : BundlesStay s (s.putMirror m) := fun b h => (recordedBundle_putMirror m b s).mpr (.inl h)

theorem BundlesStay.foldl {α : Type} {g : State → α → State} (h : ∀ t x, BundlesStay t (g t x)) (l : List α) (s : State) :
    BundlesStay s (l.foldl g s) := by
  induction l generalizing s with
  | nil => exact .refl s
  | cons x l ih => exact (h s x).trans (ih _)

theorem BundlesStay.ite {c : Prop} [Decidable c] {s t u : State} (h : BundlesStay s t) (k : BundlesStay s u) :
    BundlesStay s (if c then t else u) := by split <;> assumption

theorem records_takeSpare (lost : Nat) (role : Role) (left : List Nat) (s : State) : records (s.takeSpare lost role left) = records s := by
  unfold State.takeSpare
  cases left with
  | nil => exact records_of_ledger (ledger_raiseService ..)
  | cons n rest => exact records_of_ledger (ledger_raiseService ..)

theorem State.isolateSite_bundles (n : Nat) (s : State) : BundlesStay s (s.isolateSite n) := by
  have put (t : State) : BundlesStay t (((t.putMirror (.retiredSite n true)).raise (srcId 1 n 0x0B) 0).logEvent 0x0003 (srcId 1 n 0x0B) 1 false
      (retireData 2 n 0 0)) := (BundlesStay.putMirror _ t).trans (.of_ledger ((ledger_logEvent ..).trans (ledger_raise ..)))
  have lost (t : State) : records (((t.suspectLaunches n (srcId 1 n 0x0B)).requeueUnits n).loseSite n (srcId 1 n 0x0B)) = records t := by
    rw [records_of_frame (State.loseSite_frame ..) (by decide) (by decide), records_of_frame (State.requeueUnits_frame ..) (by decide) (by decide),
      records_of_frame (State.suspectLaunches_frame ..) (by decide) (by decide)]
  have cut (t : State) : records (t.faceDown n).retable = records t := by
    rw [records_of_frame (State.retable_frame ..) (by decide) (by decide), records_of_frame (State.faceDown_frame ..) (by decide) (by decide)]
  have engines (t : State) : records ((siteEngines n).foldl (fun u e => u.engineOut e true) t) = records t :=
    records_of_ledger (ledger_foldl (fun u e => ledger_engineOut e true u) ..)
  have spare (c : Bool) (r : Role) (l : List Nat) (t : State) : records (if c then t.takeSpare n r l else t).assignStreams = records t := by
    rw [records_of_frame (State.assignStreams_frame _) (by decide) (by decide)]
    cases c
    · rfl
    · exact records_takeSpare ..
  unfold State.isolateSite
  refine (put ((s.loseQueues n).modTile n Tile.gone)).trans (.of_records ?_)
  dsimp only
  rw [spare, records_of_frame (State.retry_frame _) (by decide) (by decide), engines, cut, lost]
  rfl

/-- The messages of an end that retires go on over another bundle, or home (R370). -/
theorem records_handOver (b : BundleEnd) (s : State) : records (s.handOver b) = records s :=
  records_of_frame (State.handOver_frame b s) (by decide) (by decide)

/-- Both ends of a bundle that retires are recorded. -/
theorem State.retireBundle_recorded {b p : BundleEnd} (hp : peerEnd b = some p) (s : State) :
    recordedBundle (s.retireBundle b) b = true ∧ recordedBundle (s.retireBundle b) p = true := by
  have put (x y : BundleEnd) (t : State) : recordedBundle ((t.putMirror (.retiredBundle x)).modBundle x
      (fun d => { d with state := .retired, checking := false })) y = true ↔ recordedBundle t y = true ∨ y = x := by
    rw [recordedBundle_of_records (records_of_frame (State.modBundle_frame ..) (by decide) (by decide)), recordedBundle_putMirror,
      Mirror.retiredBundle.injEq]
    exact or_congr_right eq_comm
  have told (t : State) (src data res : Nat) (d : DWord) : records (((t.raise src data).logEvent 0x0003 src 1 false d).raiseService 2 3 res none false)
      = records t :=
    records_of_ledger (by rw [ledger_raiseService, ledger_logEvent, ledger_raise])
  have moved (t : State) : records (([b, p].foldl (fun u x => u.handOver x) t).retable) = records t := by
    rw [records_of_frame (State.retable_frame ..) (by decide) (by decide)]
    exact (records_handOver p _).trans (records_handOver b t)
  suffices both : ∃ u, (recordedBundle u b = true ∧ recordedBundle u p = true) ∧ BundlesStay u (s.retireBundle b) by
    obtain ⟨u, ⟨hb, hp⟩, stay⟩ := both
    exact ⟨stay b hb, stay p hp⟩
  unfold State.retireBundle
  rw [hp]
  refine ⟨_, ⟨(put p b _).mpr (.inl ((put b b s).mpr (.inr rfl))), (put p p _).mpr (.inr rfl)⟩,
    .trans (.of_records ((moved _).trans (told _ _ _ _ _))) (.foldl (fun u x => ?_) _ _)⟩
  cases x with
  | tile n i => exact .ite (.refl u) (u.isolateSite_bundles n)
  | engine e k => exact .ite (.refl u) (.of_ledger (ledger_engineOut ..))
  | hub i => exact .refl u

end Sys2Proof.Machine
end
section
/-! A cold reset through step 3 (R531, R533): the clock runs again, the cause of the stop is reported, the step is 4. -/

set_option Elab.async false
namespace Sys2Proof.Machine

/-! ## The clock stays until its stop is logged -/

theorem clock_settleFlash (idA idB : Bool) (s : State) : clock (s.settleFlash idA idB) = clock s := by
  have answered (c : Bool) (src : Nat) (t : State) : clock (if c then t.raise src 0 else t) = clock t := by
    cases c
    · rfl
    · exact clock_of_ledger (ledger_raise ..)
  have copies (l : List LogRec) (t : State) : clock (l.foldl (fun u r => u.commitRecord { r with retained := true }) t) = clock t :=
    clock_foldl (fun u r => clock_of_ledger (ledger_commitRecord ..)) l t
  unfold State.settleFlash
  extract_lets s1 s2 h _ s3 s4 _ s5 _ s6 s7
  have h5 : clock s5 = clock s := copies _ _
  have h6 : clock s6 = clock s5 := by
    simp only [s6]
    split
    · exact clock_of_ledger (ledger_commitRecord ..)
    · rfl
  exact (answered ..).trans ((answered ..).trans (h6.trans h5))

theorem clock_reserveBatch (s : State) : clock s.reserveBatch = clock s := by
  unfold State.reserveBatch
  split
  · rfl
  · split
    · dsimp only
      split
      · rfl
      · exact clock_of_ledger (ledger_raise ..)
    · exact clock_of_ledger (ledger_modFlash ..)

theorem clock_settleSecurity (katOk : Bool) (s : State) : clock (s.settleSecurity katOk) = clock s := by
  have told (src data : Nat) (t : State) : clock (t.raise src data) = clock t := clock_of_ledger (ledger_raise ..)
  unfold State.settleSecurity
  extract_lets key pick x _ s1 s2 s3 board s4 s5 _ s6 s7
  clear_value x
  have h2 : clock s2 = clock s := by
    simp only [s2]
    split
    · exact clock_foldl (fun t p => told _ _ t) ..
    · exact told ..
  have h3 : clock s3 = clock s2 := by
    simp only [s3]
    split
    · exact told ..
    · rfl
  have h5 : clock s5 = clock s3 := by
    simp only [s5]
    split
    · rfl
    · exact told ..
  have h6 : clock s6 = clock s5 := by
    simp only [s6]
    split
    · split
      · rfl
      · exact (told ..).trans (clock_putMirror ..)
    · rfl
  have h7 : clock s7 = clock s6 := by
    simp only [s7]
    split
    · rfl
    · exact told ..
  rw [clock_reserveBatch, h7, h6, h5, h3, h2]

theorem clock_endStates (s : State) : clock s.endStates = clock s :=
  clock_foldl (fun _ _ => (clock_of_ledger (ledger_logEvent ..)).trans (clock_putMirror ..)) ..

theorem clock_recordRetired (n : Nat) (s : State) : clock (s.recordRetired n) = clock s := by
  unfold State.recordRetired
  split
  · rfl
  · exact clock_putMirror ..

theorem clock_retireEighths (states : List FaultState) (s : State) : clock (s.retireEighths states) = clock s := by
  have noted (e src sev d) (t : State) : clock (t.logEvent e src sev false d) = clock t := clock_of_ledger (ledger_logEvent ..)
  have told (evs : List FaultEvent) (t : State) : clock (t.captureOnly evs) = clock t := clock_of_ledger (ledger_captureOnly ..)
  have asked (a b c) (t : State) : clock (t.raiseService a b c none false) = clock t := clock_of_ledger (ledger_raiseService ..)
  refine clock_foldl (fun t st => ?_) _ _
  split
  · rfl
  · dsimp only
    split
    next n k =>
      split
      · rw [clock_recordRetired, asked, clock_putMirror, noted]
      · rw [asked, clock_putMirror, noted]
    next n => rw [told, clock_recordRetired, noted]
    next b =>
      rw [clock_foldl _, told, clock_foldl (fun u x => clock_putMirror ..), noted]
      intro u x
      cases x with
      | tile n i =>
        dsimp only
        split
        · rw [told, clock_putMirror]
        · rfl
      | engine e k =>
        dsimp only
        split
        · exact told ..
        · rfl
      | hub i => rfl
    next => rw [told, clock_putMirror, noted]
    next => rw [clock_putMirror, noted]
    next => rw [clock_putMirror, noted]
    next => rw [told, clock_putMirror, noted]

/-! ## The cause of the stop is logged (R490) -/

theorem State.captureOnly_sticky {x : Nat} {evs : List FaultEvent} {s : State} :
    x ∈ (s.captureOnly evs).flt.sticky ↔ x ∈ s.flt.sticky ∨ ∃ e ∈ evs, e.source = x := by
  rw [State.captureOnly_flt, Faults.capture_sticky, mem_foldl_addOnce_source]
  simp [Faults.marking]

/-- The latched stop ends with its report. -/
theorem State.logCause_of_stop {src : Nat} {s : State} (h : s.ret.clockStop = some src) :
    clock s.logCause = (s.pins.refclk, none) ∧ src ∈ s.logCause.flt.sticky := by
  unfold State.logCause
  extract_lets kind _ s1
  have h1 : clock s1 = clock s := by
    simp only [s1]
    split
    · exact clock_of_ledger (ledger_logEvent ..)
    · rfl
  have stop : s1.ret.clockStop = some src := (congrArg Prod.snd h1).trans h
  rw [stop]
  refine ⟨(clock_of_ledger (ledger_captureOnly ..)).trans ?_, State.captureOnly_sticky.mpr (.inr ⟨_, List.mem_singleton_self _, rfl⟩)⟩
  exact congrArg (·, none) (congrArg Prod.fst h1 : s1.pins.refclk = s.pins.refclk)

/-! ## The end of step 3 -/

theorem clock_predictAt (level cause resource key : Nat) (hours : Option Nat) (s : State) :
    clock (s.predictAt level cause resource key hours) = clock s := by
  have asked (q : ServiceReq) (t : State) : clock (t.raiseRequest q) = clock t := clock_of_ledger (ledger_raiseRequest ..)
  unfold State.predictAt
  extract_lets mine
  split
  · split
    · rfl
    · exact asked ..
  · split
    · rfl
    · split
      · exact asked ..
      · split
        · split <;> rfl
        · rfl

theorem clock_foretell (s : State) : clock s.foretell = clock s := by
  refine clock_foldl (fun t m => ?_) _ _
  cases m with
  | ageing d p h => exact clock_predictAt ..
  | optical e r p h => exact (clock_predictAt ..).trans (clock_predictAt ..)
  | _ => rfl

theorem clock_reraiseSites (lost compute spares : List Nat) (s : State) : clock (State.reraiseSites lost compute spares s) = clock s := by
  have asked (a b c) (t : State) : clock (t.raiseService a b c none false) = clock t := clock_of_ledger (ledger_raiseService ..)
  induction lost generalizing compute spares s with
  | nil => rfl
  | cons n l ih =>
    unfold State.reraiseSites
    split
    · split <;> exact (ih ..).trans (asked ..)
    · exact ih ..

theorem clock_reraise (s : State) : clock s.reraise = clock s := by
  have asked (a b c) (t : State) : clock (t.raiseService a b c none false) = clock t := clock_of_ledger (ledger_raiseService ..)
  unfold State.reraise
  extract_lets lost s1
  have h1 : clock s1 = clock s := clock_reraiseSites ..
  refine (clock_foldl (fun t m => ?_) _ _).trans h1
  cases m with
  | retiredCell | retiredBundle | failedMemory | retiredRing => exact asked ..
  | retiredSensor x =>
    cases x with
    | tile n k => exact asked ..
    | hub k => rfl
    | engine e k => rfl
  | _ => rfl

/-- The step of start-up and the kind of the last reset. -/
def startUp (s : State) : Nat × ResetKind := (s.boot.step, s.boot.lastKind)

theorem startUp_of_frame {ps : List Part} {s t : State} (h : Frame ps s t) (hs : Part.stop ∉ ps) (hb : Part.boot ∉ ps) : startUp t = startUp s := by
  have boot : ({ t.boot with cause := 0 } : Boot) = { s.boot with cause := 0 } := h.exact hs (p := .boot) hb
  exact Prod.ext (congrArg Boot.step boot :) (congrArg Boot.lastKind boot :)

theorem startUp_moduleStop (source : Nat) (s : State) : startUp (s.moduleStop source) = startUp s := by
  have before : startUp (((s.endAll .internal source).lasersOff.holdDies.loseLocal).commitOpen) = startUp s := by
    rw [startUp_of_frame (State.commitOpen_frame _) (by decide) (by decide), startUp_of_frame (State.loseLocal_frame _) (by decide) (by decide),
      startUp_of_frame (State.holdDies_frame _) (by decide) (by decide), startUp_of_frame (State.lasersOff_frame _) (by decide) (by decide),
      startUp_of_frame (State.endAll_frame ..) (by decide) (by decide)]
  unfold State.moduleStop
  exact before

theorem startUp_raise (source data : Nat) (s : State) : startUp (s.raise source data) = startUp s := by
  have only (evs : List FaultEvent) : startUp (s.captureOnly evs) = startUp s :=
    startUp_of_frame (State.captureOnly_frame ..) (by decide) (by decide)
  unfold State.raise State.capture
  dsimp only
  split
  · exact (startUp_moduleStop ..).trans (only _)
  · exact only _

/-- The end of step 3: the sequence goes on from where it is. -/
theorem State.endStep3_view (kind : ResetKind) (s : State) :
    clock (s.endStep3 kind) = clock s ∧ startUp (s.endStep3 kind) = (s.boot.step, kind) ∧ (s.endStep3 kind).flt = s.flt := by
  unfold State.endStep3
  extract_lets s1
  have frame := State.logEvent_frame 0x0010 0xFFFF 0 false (startData kind.code s.settings) s.firstTables
  have clk : clock s1 = clock s := clock_of_ledger (ledger_logEvent ..)
  have step : s1.boot.step = s.boot.step := congrArg Prod.fst (startUp_of_frame frame (by decide) (by decide))
  have flt : s1.flt = s.flt := frame.exact (by decide) (p := .flt) (by decide)
  exact ⟨clk, congrArg (·, kind) step, flt⟩

theorem State.coreQuorum_view (s : State) :
    clock s.coreQuorum = clock s ∧ startUp s.coreQuorum = startUp s ∧ ∀ x ∈ s.flt.sticky, x ∈ s.coreQuorum.flt.sticky := by
  unfold State.coreQuorum
  split
  · exact ⟨clock_of_ledger (ledger_raise ..), startUp_raise .., fun x h => State.mem_raise_sticky.mpr (.inl h)⟩
  · exact ⟨rfl, rfl, fun x h => h⟩

theorem State.reraise_flt (s : State) : s.reraise.flt = s.flt := (State.reraise_frame s).exact (by decide) (p := .flt) (by decide)

theorem State.foretell_flt (s : State) : s.foretell.flt = s.flt := (State.foretell_frame s).exact (by decide) (p := .flt) (by decide)

theorem startUp_reraise (s : State) : startUp s.reraise = startUp s := startUp_of_frame (State.reraise_frame s) (by decide) (by decide)

theorem startUp_foretell (s : State) : startUp s.foretell = startUp s := startUp_of_frame (State.foretell_frame s) (by decide) (by decide)

/-- A cold reset that ends a clock stop (R490). -/
theorem State.coldStart_of_stop {src : Nat} {s : State} (h : s.ret.clockStop = some src) (katOk idA idB : Bool) :
    clock (s.coldStart katOk idA idB) = (s.pins.refclk, none) ∧ startUp (s.coldStart katOk idA idB) = (4, .cold)
      ∧ src ∈ (s.coldStart katOk idA idB).flt.sticky := by
  unfold State.coldStart
  extract_lets _ _ _ _ _ base states s1 _ s1a s2 keep cause s3 _ s4
  have h1 : clock s1 = clock s := (clock_settleSecurity ..).trans (clock_settleFlash ..)
  have before : clock (s1a.endStates.retireEighths states) = clock s :=
    (clock_retireEighths ..).trans ((clock_endStates s1a).trans h1)
  obtain ⟨c2, sticky⟩ := State.logCause_of_stop ((congrArg Prod.snd before : _ = s.ret.clockStop).trans h)
  have c4 : clock s4 = (s.pins.refclk, none) :=
    (c2 : clock s2 = _).trans (congrArg (·, none) (congrArg Prod.fst before : _ = s.pins.refclk))
  have f4 : s4.reraise.foretell.flt = s4.flt := (State.foretell_flt _).trans (State.reraise_flt s4)
  have k4 : startUp s4.reraise.foretell = startUp s4 := (startUp_foretell _).trans (startUp_reraise s4)
  obtain ⟨ce, ke, fe⟩ := State.endStep3_view .cold s4.reraise.foretell
  obtain ⟨cq, kq, fq⟩ := (s4.reraise.foretell.endStep3 .cold).coreQuorum_view
  refine ⟨?_, ?_, fq src ?_⟩
  · rw [cq, ce, clock_foretell, clock_reraise, c4]
  · rw [kq, ke, show s4.reraise.foretell.boot.step = 4 from congrArg Prod.fst k4]
  · rw [fe, f4]
    exact sticky

end Sys2Proof.Machine
end
section
/-! The rows of the clocks (R33, R490). -/

set_option Elab.async false
namespace Sys2Proof.Machine

/-- The state after a clock stop that the retained domain has latched (R490). -/
def State.stopClock (source : Nat) (s : State) : State :=
  { s.powerLost with ret := { s.powerLost.ret with clockStop := some source }, boot := { s.powerLost.boot with stopped := true } }

theorem State.clockLoss_of_running {s : State} (hg : s.pins.pwrgd = true) (hc : s.ret.clockStop = none) (ht : s.ret.tripped = false)
    {source : Nat} : s.clockLoss source = s.stopClock source := by
  simp [State.clockLoss, State.stopClock, hg, hc, ht]

/-- The state without its REFCLK. -/
def State.noRefclk (s : State) : State := { s with pins := { s.pins with refclk := false } }

theorem execRefclkLost_of_running {s : State} (hg : s.pins.pwrgd = true) (hc : s.ret.clockStop = none) (ht : s.ret.tripped = false) :
    execRefclkLost s = .next (s.noRefclk.stopClock (srcId 0 0 6)) := by
  have stops : s.noRefclk.clockLoss (srcId 0 0 6) = s.noRefclk.stopClock (srcId 0 0 6) :=
    State.clockLoss_of_running (s := s.noRefclk) hg hc ht
  have untripped : ¬ s.ret.tripped = true := by simp [ht]
  exact congrArg Host.Outcome.next ((congrArg State.loseTrip stops).trans (if_neg untripped))

/-- The state with its REFCLK. -/
def State.withRefclk (s : State) : State := { s with pins := { s.pins with refclk := true } }

theorem execRefclkRestored_of_stop {src : Nat} {s : State} (hg : s.pins.pwrgd = true) (hc : s.ret.clockStop = some src) (katOk idA idB : Bool) :
    execRefclkRestored katOk idA idB s = .next (s.withRefclk.coldStart katOk idA idB) :=
  if_pos (by simp [hg, hc])

theorem State.coldStart_restarts {src : Nat} {s : State} (h : s.ret.clockStop = some src) (katOk idA idB : Bool) :
    (s.coldStart katOk idA idB).pins.refclk = s.pins.refclk ∧ (s.coldStart katOk idA idB).ret.clockStop = none
      ∧ (s.coldStart katOk idA idB).boot.lastKind = .cold ∧ (s.coldStart katOk idA idB).boot.step = 4
      ∧ src ∈ (s.coldStart katOk idA idB).flt.sticky := by
  obtain ⟨clk, start, sticky⟩ := State.coldStart_of_stop h katOk idA idB
  simp only [clock, startUp, Prod.mk.injEq] at clk start
  obtain ⟨refclk, stop⟩ := clk
  obtain ⟨step, kind⟩ := start
  exact ⟨refclk, stop, kind, step, sticky⟩

theorem engines_length_of_panel {s t : State} (h : panel t = panel s) : t.engines.length = s.engines.length := by
  simpa [panel] using congrArg (fun p : Panel => p.engineBundles.length) h

/-- An engine reset changes the tile's ends of the engine's bundles and no other engine. -/
theorem State.engineReset_engines (e : Nat) (s : State) : ∃ f, (s.engineReset e).engines = (s.modEngine e f).engines ∧
    (f (engineAt s e)).state = (if siteLost s e || engineCut s e || engineBlind (engineAt s e) then .outOfService else (engineAfter false s e).state)
      ∧ (f (engineAt s e)).started = true ∧ (f (engineAt s e)).inReset = false ∧ (f (engineAt s e)).linkDowns = (engineAt s e).linkDowns := by
  unfold State.engineReset
  refine ⟨_, foldl_view (v := State.engines) (fun t k => ?_) _ _, rfl, rfl, rfl, rfl⟩
  exact State.modTile_engines ..

/-- A tile whose clock is lost and whose bundle stops is one that has stopped, ISOLATED or not (R33). -/
theorem forwardedClockStop_stopped {s : State} {b : BundleEnd} {n : SiteId} {i : Fin 16} (hl : s.tiles.length = 64) (hp : peerEnd b = some (.tile n i))
    (lost : (tileAt s n).clockLost = true) : Answers (.forwardedClockStop b) s (fun t => i.val ∈ (tileAt t n).stopped) := by
  have calm : panel (s.raise (bundleSource 0x30 b) 0) = panel s := panel_raise (calm_bundle b (by decide)) ..
  have tiles : n.val < (s.raise (bundleSource 0x30 b) 0).tiles.length := by
    rw [tiles_length_of_sites (sites_of_panel calm), hl]
    exact n.isLt
  generalize hu : (s.raise (bundleSource 0x30 b) 0).modTile n (fun t => { t with stopped := addOnce i.val t.stopped }) = u
  have stopped : i.val ∈ (tileAt u n).stopped := by
    rw [← hu, tileAt_modTile_same tiles]
    exact mem_addOnce.mpr (.inr rfl)
  have retabled (c : Bool) (t : State) : SitesLast t (if c then t.retable else t) := .ite (.of_panel (panel_retable t)) (.refl t)
  have cut := (SitesLast.of_sites (sites_modBundle b (fun d => { d with state := .down }) u)).trans (retabled (endStation b == .hub) _)
  obtain ⟨v, last, row⟩ : ∃ v, SitesLast u v ∧ exec (.forwardedClockStop b) s
      = if (sendingEnds v n).all (fun k => (tileAt v n).stopped.contains k) then .next (v.isolateSite n) else .next v := by
    have row : exec (.forwardedClockStop b) s = execForwardedClockStop b s := rfl
    rw [row, execForwardedClockStop, hp]
    simp only [lost, if_true, hu]
    exact ⟨_, cut, rfl⟩
  rw [Answers, row]
  split
  · exact ⟨_, rfl, ((last.trans (State.isolateSite_last ..)).tile n).stopped _ stopped⟩
  · exact ⟨_, rfl, (last.tile n).stopped _ stopped⟩

end Sys2Proof.Machine
end
section
open Sys2Proof Sys2Proof.Machine

/-- Settles O21: a clock stop is the loss of power with its source latched, a restart is a cold reset that logs it (`coldStart_of_stop`), and the
bundles of a tile whose clock runs are retired at both ends. -/
theorem clockRowsComplete : Obligations.ClockRowsComplete := by
  refine ⟨fun s hg hc ht => ?lost, fun s ht => ?tripped, fun s src katOk idA idB hg hc => ?restored, fun s hg hc ht => ?hub,
    fun s site hl => ?tile, fun s b n i hl hp lost => forwardedClockStop_stopped hl hp lost, fun s b n i hl hp runs => ?retires,
    fun s e u hl hu => ?engine⟩
  case lost => exact ⟨_, execRefclkLost_of_running hg hc ht, rfl, rfl, rfl, rfl, rfl, rfl, rfl⟩
  case tripped =>
    refine ⟨_, rfl, ?_⟩
    simp [State.clockLoss, State.loseTrip, ht]
  case restored =>
    obtain ⟨refclk, stop, kind, step, sticky⟩ := State.coldStart_restarts (s := s.withRefclk) hc katOk idA idB
    exact ⟨_, execRefclkRestored_of_stop hg hc katOk idA idB, refclk, stop, kind, step, sticky⟩
  case hub => exact ⟨_, congrArg Host.Outcome.next (State.clockLoss_of_running hg hc ht), rfl, rfl, rfl, rfl⟩
  case tile => exact ⟨_, rfl, congrArg Tile.clockLost (tileAt_modTile_same (by rw [hl]; exact site.isLt) _)⟩
  case retires =>
    have row : exec (.forwardedClockStop b) s = .next (s.retireBundle b) := by
      show execForwardedClockStop b s = _
      simp [execForwardedClockStop, hp, runs]
    exact ⟨_, row, State.retireBundle_recorded hp s⟩
  case engine =>
    have row : exec (.enginePllUnlock e) s = .next ((u.engineReset e).modEngine e (fun x => { x with clockLost := true })) := by rw [hu]; rfl
    have length : e.val < u.engines.length := by
      have kept : panel u = panel s := by
        rw [hu]
        exact panel_ite (panel_linkDown ..) rfl
      rw [engines_length_of_panel kept, hl]
      exact e.isLt
    obtain ⟨f, engines, hstate, hstarted, hreset, hdowns⟩ := u.engineReset_engines e
    have reset : engineAt (u.engineReset e) e = f (engineAt u e) := by
      rw [engineAt, engines]
      exact engineAt_modEngine_same length f
    have after : engineAt ((u.engineReset e).modEngine e (fun x => { x with clockLost := true })) e = { f (engineAt u e) with clockLost := true } := by
      rw [engineAt_modEngine_same (by rw [engines]; simpa [State.modEngine, modAt_eq_modify] using length), reset]
    refine ⟨_, row, ?_⟩
    dsimp only
    rw [after]
    exact ⟨hstate, hstarted, hreset, rfl, hdowns⟩

end
section
/-! Start-up steps 4 and 5 (R46, R359): the rows that release the tiles and take their reports. -/

set_option Elab.async false
namespace Sys2Proof.Machine

@[simp] theorem panel_atStep (k : Nat) (s : State) : panel (s.atStep k) = panel s := by
  unfold State.atStep
  split <;> rfl

@[simp] theorem panel_spend (k : Nat) (s : State) : panel (s.spend k) = panel s := rfl

@[simp] theorem records_atStep (k : Nat) (s : State) : records (s.atStep k) = records s := by
  unfold State.atStep
  split <;> rfl

/-- The fixed ends that face a site are no tile's. -/
theorem sites_armFixed (n : Nat) (st : BundleState) (s : State) : sites (s.armFixed n st) = sites s := by
  refine foldl_view (v := sites) (fun t b => ?_) _ _
  dsimp only
  split
  · exact sites_modBundle ..
  · exact sites_modBundle ..
  · rfl

theorem records_armFixed (n : Nat) (st : BundleState) (s : State) : records (s.armFixed n st) = records s :=
  records_of_frame (State.armFixed_frame ..) (by decide) (by decide)

/-! ## ROW_RELEASE -/

/-- A tile of a row that has been released: in the mesh and out of reset, unless it is recorded as ISOLATED. -/
def Released (s : State) (n : Nat) : Prop :=
  if recordedSite s n = some true then (tileAt s n).state = .isolated else (tileAt s n).inReset = false

theorem Released.congr {s t : State} (hr : records t = records s) {n : Nat} (hs : (tileAt t n).state = (tileAt s n).state)
    (hi : (tileAt t n).inReset = (tileAt s n).inReset) : Released t n ↔ Released s n := by
  rw [Released, Released, recordedSite_of_records hr, hs, hi]

theorem Released.congr_sites {s t : State} (hr : records t = records s) (hs : sites t = sites s) (n : Nat) : Released t n ↔ Released s n :=
  Released.congr hr (tileAt_congr Tile.state (fun _ => rfl) hs n) (tileAt_congr Tile.inReset (fun _ => rfl) hs n)

/-- One tile of a row is released. -/
def State.releaseTile (s : State) (n : Nat) : State :=
  let t := s.armFixed n .down
  if recordedSite t n = some true then
    (siteEngines n).foldl (fun u e => u.setLinkState e .outOfService) ((t.modTile n (fun x => { x with state := .isolated })).faceDown n)
  else t.modTile n (fun x => { x with inReset := false })

/-- A release leaves the records and changes its own tile alone. -/
theorem State.releaseTile_view (s : State) (n : Nat) : records (s.releaseTile n) = records s ∧
    sites (s.releaseTile n) = sites ((s.armFixed n .down).modTile n (fun x =>
      if recordedSite s n = some true then { x with state := .isolated } else { x with inReset := false })) := by
  have engines (t : State) : ledger ((siteEngines n).foldl (fun u e => u.setLinkState e .outOfService) t) = ledger t :=
    ledger_foldl (fun u e => ledger_setLinkState ..) ..
  have links (t : State) : panel ((siteEngines n).foldl (fun u e => u.setLinkState e .outOfService) t) = panel t :=
    panel_foldl (fun u e => panel_setLinkState ..) ..
  have armed := records_armFixed n .down s
  unfold State.releaseTile
  dsimp only
  rw [recordedSite_of_records armed]
  split
  · refine ⟨(records_of_ledger (engines _)).trans ((records_of_frame (State.faceDown_frame ..) (by decide) (by decide)).trans armed), ?_⟩
    exact (sites_of_panel (links _)).trans (sites_faceDown n _)
  · exact ⟨armed, rfl⟩

theorem State.releaseTile_length (s : State) (n : Nat) : (s.releaseTile n).tiles.length = s.tiles.length := by
  rw [tiles_length_of_sites (s.releaseTile_view n).2, State.modTile_tiles_length, tiles_length_of_sites (sites_armFixed ..)]

theorem State.releaseTile_released {s : State} {n : Nat} (h : n < s.tiles.length) : Released (s.releaseTile n) n := by
  obtain ⟨hr, hs⟩ := s.releaseTile_view n
  have tile {β : Type} (π : Tile → β) (hπ : ∀ x, π x.plain = π x) := tileAt_congr π hπ hs n
  have same := tileAt_modTile_same (s := s.armFixed n .down) (by rw [tiles_length_of_sites (sites_armFixed ..)]; exact h)
    (fun x => if recordedSite s n = some true then { x with state := .isolated } else { x with inReset := false })
  rw [Released, recordedSite_of_records hr, tile Tile.state (fun _ => rfl), tile Tile.inReset (fun _ => rfl), same]
  split <;> rfl

theorem State.releaseTile_other {s : State} {n m : Nat} (h : n ≠ m) : Released (s.releaseTile n) m ↔ Released s m := by
  obtain ⟨hr, hs⟩ := s.releaseTile_view n
  have other {β : Type} (π : Tile → β) (hπ : ∀ x, π x.plain = π x) : π (tileAt (s.releaseTile n) m) = π (tileAt s m) := by
    rw [tileAt_congr π hπ hs, tileAt_modTile_ne h, tileAt_congr π hπ (sites_armFixed ..)]
  exact Released.congr hr (other Tile.state (fun _ => rfl)) (other Tile.inReset (fun _ => rfl))

theorem foldl_releaseTile {l : List Nat} {s : State} {m : Nat} (h : m < s.tiles.length) (hm : m ∈ l ∨ Released s m) :
    Released (l.foldl State.releaseTile s) m := by
  induction l generalizing s with
  | nil => exact hm.resolve_left List.not_mem_nil
  | cons n l ih =>
    refine ih ((s.releaseTile_length n).symm ▸ h) ?_
    by_cases e : n = m
    · exact .inr (e ▸ State.releaseTile_released (e ▸ h))
    · exact hm.imp (fun k => (List.mem_cons.mp k).resolve_left (Ne.symm e)) (State.releaseTile_other e).mpr

theorem foldl_releaseTile_records (l : List Nat) (s : State) : records (l.foldl State.releaseTile s) = records s :=
  foldl_view (fun t n => (t.releaseTile_view n).1) l s

/-- The dies of a row that have left reset are measured (R474). -/
def State.measureRow (row : Nat) (x : Nat → Nat) (s : State) : State :=
  (List.range 8).foldl (fun t c =>
    let n := 8 * row + c
    if (tileAt t n).inReset then t else t.agePoint (.tile (Fin.ofNat 64 n)) [x c]) s

theorem panel_measureRow (row : Nat) (x : Nat → Nat) (s : State) : panel (s.measureRow row x) = panel s :=
  panel_foldl (fun _ _ => panel_ite rfl (panel_agePoint ..)) ..

/-- The tiles of a row. -/
def rowSites (row : Fin 8) : List Nat := (List.range 8).map (fun c => 8 * row.val + c)

theorem execRowRelease_eq (row : Fin 8) (ageing : List Nat) (s : State) :
    ∃ x, execRowRelease row ageing s = .next (((((rowSites row).foldl State.releaseTile s).measureRow row x).atStep 4).spend 8) := ⟨_, rfl⟩

theorem rowRelease_released {s : State} (hl : s.tiles.length = 64) (row : Fin 8) (ageing : List Nat) :
    Answers (.rowRelease row ageing) s (fun t => ∀ c < 8,
      if recordedSite s (8 * row.val + c) = some true then (tileAt t (8 * row.val + c)).state = .isolated
      else (tileAt t (8 * row.val + c)).inReset = false) := by
  obtain ⟨x, row_eq⟩ := execRowRelease_eq row ageing s
  refine ⟨_, row_eq, fun c hc => ?_⟩
  generalize hu : (rowSites row).foldl State.releaseTile s = u
  have released : Released u (8 * row.val + c) := by
    rw [← hu]
    exact foldl_releaseTile (by omega) (.inl (List.mem_map.mpr ⟨c, List.mem_range.mpr hc, rfl⟩))
  have recorded : recordedSite u (8 * row.val + c) = recordedSite s (8 * row.val + c) := by
    rw [← hu]
    exact recordedSite_of_records (foldl_releaseTile_records _ s) _
  have kept : sites (((u.measureRow row x).atStep 4).spend 8) = sites u :=
    sites_of_panel ((panel_spend ..).trans ((panel_atStep ..).trans (panel_measureRow ..)))
  rw [Released, recorded] at released
  rw [tileAt_congr Tile.state (fun _ => rfl) kept, tileAt_congr Tile.inReset (fun _ => rfl) kept]
  exact released

/-! ## TILE_POSITION_REPORT -/

theorem firstRoles_last (s : State) : SitesLast s s.firstRoles := by
  unfold State.firstRoles
  refine .ite (.refl s) (.foldl (fun t n => .modTile ?_) _ _)
  split
  · exact ⟨id, fun _ => id, fun _ => id⟩
  · exact .refl _

/-- A report that fails isolates its site and every other that reported the position. -/
theorem tilePositionReport_rejected {s : State} (hl : s.tiles.length = 64) {site : SiteId} {straps : BitVec 10} (planned : plannedState s site ≠ .isolated)
    (awake : (tileAt s site).inReset = false)
    (bad : strapsOk site.val straps.toNat = false ∨ sameReport s site.val straps.toNat ≠ []) :
    Answers (.tilePositionReport site straps) s (fun t => (tileAt t site).state = .isolated
      ∧ ∀ m ∈ sameReport s site.val straps.toNat, (tileAt t m).state = .isolated) := by
  generalize hu : s.modTile site (fun t => { t with reported := some (8 * strapRow straps.toNat + strapCol straps.toNat) }) = u
  have length : u.tiles.length = 64 := by rw [← hu, State.modTile_tiles_length, hl]
  have before : SitesLast s u := hu ▸ .modTile ⟨id, fun _ => id, fun _ => id⟩
  have row : exec (.tilePositionReport site straps) s
      = .next (((sameReport s site.val straps.toNat).filter (fun m => (tileAt s m).state != .isolated)).foldl (fun t m => t.isolateSite m)
          (u.isolateSite site)).firstRoles := by
    have fails : (!strapsOk site.val straps.toNat || !(sameReport s site.val straps.toNat).isEmpty) = true := by
      simpa using bad
    show execTilePositionReport site straps s = _
    simp only [execTilePositionReport, planned, awake, fails, hu, if_true, if_false, or_self, Bool.false_eq_true]
  have others (t : State) (l : List Nat) : SitesLast t (l.foldl (fun t m => t.isolateSite m) t).firstRoles :=
    (SitesLast.foldl (fun t m => t.isolateSite_last m) l t).trans (firstRoles_last _)
  refine ⟨_, row, ((others _ _).tile site).isolated (State.isolateSite_isolated (by omega)), fun m hm => ?_⟩
  have range : m < 64 := List.mem_range.mp (List.mem_filter.mp hm).1
  by_cases out : (tileAt s m).state = .isolated
  · exact ((before.trans ((State.isolateSite_last site u).trans (others _ _))).tile m).isolated out
  · have listed : m ∈ (sameReport s site.val straps.toNat).filter (fun m => (tileAt s m).state != .isolated) :=
      List.mem_filter.mpr ⟨hm, by simpa using out⟩
    have isolated := foldl_isolateSite_isolated (s := u.isolateSite site) listed (by rw [(State.isolateSite_last site u).length]; omega)
    exact ((firstRoles_last _).tile m).isolated isolated

/-- What a report that is accepted sets at its tile, as TILE_ID shows it (R359). -/
def Tile.identity (t : Tile) : SiteState × Bool × Nat × Nat × Nat × Bool := (t.state, t.idValid, t.col, t.row, t.rotation, t.mirror)

theorem tilePositionReport_accepted {s : State} (hl : s.tiles.length = 64) {site : SiteId} {straps : BitVec 10} (planned : plannedState s site ≠ .isolated)
    (awake : (tileAt s site).inReset = false) (good : strapsOk site.val straps.toNat = true) (alone : sameReport s site.val straps.toNat = []) :
    Answers (.tilePositionReport site straps) s (fun t => (tileAt t site).identity = (plannedState s site, true, strapCol straps.toNat,
      strapRow straps.toNat, strapRotation straps.toNat, strapMirror straps.toNat)) := by
  have row : exec (.tilePositionReport site straps) s = execTilePositionReport site straps s := rfl
  rw [Answers, row]
  simp only [execTilePositionReport, planned, awake, good, alone, if_false, or_self, Bool.false_eq_true, List.isEmpty_nil, Bool.not_true]
  refine ⟨_, rfl, ?_⟩
  rw [tileAt_congr Tile.identity (fun _ => rfl) ((sites_of_panel (panel_atStep ..)).trans (sites_armFixed ..)), tileAt_modTile_same (by simp [hl])]
  rfl

end Sys2Proof.Machine
end
section
/-! LANE_TEST (R361–R372): what the test of a bundle leaves at its two ends, and what it records of them. -/

set_option Elab.async false
namespace Sys2Proof.Machine

/-! ## The ends of the panel -/

/-- How many ends each die has. -/
def ends (s : State) : List Nat × Nat × List Nat :=
  (s.tiles.map (fun t => t.bundles.length), s.hubBundles.length, s.engines.map (fun x => x.bundles.length))

theorem hasEnd_of_ends {s t : State} (h : ends t = ends s) (b : BundleEnd) : HasEnd t b ↔ HasEnd s b := by
  simp only [ends, Prod.mk.injEq] at h
  obtain ⟨tiles, hub, engines⟩ := h
  have tileCount : t.tiles.length = s.tiles.length := by simpa using congrArg List.length tiles
  have engineCount : t.engines.length = s.engines.length := by simpa using congrArg List.length engines
  cases b with
  | tile n i =>
    have row (u : State) : (tileAt u n).bundles.length = (u.tiles.map (fun t => t.bundles.length)).getD n (Tile.reset n).bundles.length :=
      (List.getD_map _ _ (fun x : Tile => x.bundles.length)).symm
    simp only [HasEnd, row, tiles, tileCount]
  | hub k => simp only [HasEnd, hub]
  | engine e k =>
    have row (u : State) : (engineAt u e).bundles.length = (u.engines.map (fun x => x.bundles.length)).getD e (Engine.reset e).bundles.length :=
      (List.getD_map _ _ (fun x : Engine => x.bundles.length)).symm
    simp only [HasEnd, row, engines, engineCount]

theorem ends_of_panel {s t : State} (h : panel t = panel s) : ends t = ends s := by
  have count (u : State) : ends u = ((panel u).siteBundles.map List.length, (panel u).hubBundles.length, (panel u).engineBundles.map List.length) := by
    simp [ends, panel, Function.comp_def]
  rw [count, count, h]

@[simp] theorem ends_modBundle (b : BundleEnd) (f : BundleDir → BundleDir) (s : State) : ends (s.modBundle b f) = ends s := by
  cases b with
  | tile n i =>
    have row := map_modAt_of_eq (v := fun t : Tile => t.bundles.length) (f := fun t => { t with bundles := modAt t.bundles i f })
      (fun t => modAt_length ..) s.tiles n
    exact congrArg (·, _, _) row
  | hub k => exact congrArg (fun x => (_, x, _)) (modAt_length ..)
  | engine e k =>
    have row := map_modAt_of_eq (v := fun x : Engine => x.bundles.length) (f := fun x => { x with bundles := modAt x.bundles k f })
      (fun x => modAt_length ..) s.engines e
    exact congrArg (_, _, ·) row

/-- No end faces itself: the two ends of a bundle stand at different sides of their dies. -/
theorem ne_of_peerEnd {b p : BundleEnd} (h : peerEnd b = some p) : b ≠ p := by
  rintro rfl
  cases b with
  | hub k => cases h
  | engine e k => cases h
  | tile n i =>
    have turned {m : Nat}
        (k : some (BundleEnd.tile (Fin.ofNat 64 m) (Fin.ofNat 16 (4 * ((i.val / 4 + 2) % 4) + (3 - i.val % 4)))) = some (.tile n i)) : False := by
      have port := congrArg Fin.val (BundleEnd.tile.inj (Option.some.inj k)).2
      simp only [Fin.ofNat] at port
      omega
    have hub {c : Prop} [Decidable c] {k : Fin 16} : (if c then some (BundleEnd.hub k) else none) ≠ some (.tile n i) := by
      split <;> simp
    have engine {c : Prop} [Decidable c] {e : EngineId} {k : Fin 3} : (if c then none else some (BundleEnd.engine e k)) ≠ some (.tile n i) := by
      split <;> simp
    simp only [peerEnd] at h
    split at h <;> split at h
    · exact engine h
    · exact turned h
    · exact engine h
    · exact turned h
    · exact engine h
    · exact turned h
    · exact hub h
    · exact turned h

/-! ## What each step of the row leaves -/

@[simp] theorem panel_startEngine (b : BundleEnd) (s : State) : panel (s.startEngine b) = panel s := by
  cases b with
  | engine e k => exact panel_ite rfl (panel_modEngine (by intro; rfl) ..)
  | _ => rfl

@[simp] theorem panel_recordWires (b : BundleEnd) (found : List Nat) (s : State) : panel (s.recordWires b found) = panel s :=
  panel_of_frame (State.recordWires_frame ..) (by decide)

@[simp] theorem panel_bundleServed (a b : BundleEnd) (s : State) : panel (s.bundleServed a b) = panel s :=
  panel_ite (panel_retable s) (panel_retry s)

@[simp] theorem panel_startInline (b : BundleEnd) (s : State) : panel (s.startInline b) = panel s := by
  refine panel_ite rfl ((panel_raiseFor (calm_bundle b (by decide)) ..).trans (panel_modBundle ?_ ..))
  intro d
  rfl

/-- A direction under a map (R363). -/
def BundleDir.mapped (failed : List Nat) (m : List SpareUse × Option Nat) (d : BundleDir) : BundleDir :=
  { d with state := if m.2.isSome then .degraded else .full, spares := m.1, failed := failed, dropped := m.2, checking := false }

theorem panel_applyMap (b : BundleEnd) (failed : List Nat) (m : List SpareUse × Option Nat) (s : State) :
    panel (s.applyMap b failed m) = panel (s.modBundle b (BundleDir.mapped failed m)) := by
  have told (base data : Nat) (hb : base = 0x20 ∨ base = 0x30) (t : State) : panel (t.raise (bundleSource base b) data) = panel t :=
    panel_raise (calm_bundle b hb) ..
  unfold State.applyMap
  extract_lets was s1 s2 s3
  have h2 : panel s2 = panel s1 := panel_ite rfl (panel_putMirror ..)
  have h3 : panel s3 = panel s1 := panel_ite ((told _ _ (.inl rfl) _).trans h2) h2
  exact panel_ite ((panel_raiseService ..).trans ((told _ _ (.inr rfl) _).trans h3)) h3

theorem log_beginTraining (s : State) : s.beginTraining.log = s.log := by
  unfold State.beginTraining State.atStep
  split
  · split <;> rfl
  · rfl

/-- The sites that begin to train keep all but that. -/
theorem tileAt_beginTraining {β : Type} (π : Tile → β) (hπ : ∀ x, π { x with training := true } = π x) (s : State) (n : Nat) :
    π (tileAt s.beginTraining n) = π (tileAt s n) := by
  have entry (l : List Tile) (f : Tile → Tile) (hf : ∀ x, π (f x) = π x) : π ((l.map f).getD n (Tile.reset n)) = π (l.getD n (Tile.reset n)) := by
    simp only [List.getD_eq_getElem?_getD, List.getElem?_map]
    cases l[n]? with
    | none => rfl
    | some x => exact hf x
  have step (k : Nat) (t : State) : (t.atStep k).tiles = t.tiles := by
    unfold State.atStep
    split <;> rfl
  unfold State.beginTraining
  split
  · rw [tileAt, step]
    refine entry _ _ fun x => ?_
    split
    · rfl
    · exact hπ x
  · rfl

theorem bundleAt_beginTraining (s : State) (b : BundleEnd) : bundleAt s.beginTraining b = bundleAt s b := by
  have engines : s.beginTraining.engines = s.engines := by
    unfold State.beginTraining State.atStep
    split
    · split <;> rfl
    · rfl
  have hub : s.beginTraining.hubBundles = s.hubBundles := by
    unfold State.beginTraining State.atStep
    split
    · split <;> rfl
    · rfl
  cases b with
  | tile n i => exact congrArg (fun l : List BundleDir => l.getD i BundleDir.reset) (tileAt_beginTraining Tile.bundles (by intro; rfl) s n)
  | hub k => rw [bundleAt, hub]; rfl
  | engine e k => rw [bundleAt, engineAt, engines]; rfl

/-! ## The outcomes -/

/-- The state, the spares and the dropped group of a direction. -/
def BundleDir.width (d : BundleDir) : BundleState × List SpareUse × Option Nat := (d.state, d.spares, d.dropped)

/-- What a map makes of a direction. -/
def mapWidth (m : List SpareUse × Option Nat) : BundleState × List SpareUse × Option Nat :=
  (if m.2.isSome then .degraded else .full, m.1, m.2)

/-- A bundle whose ends have taken their maps and noted the blocks that they have received. -/
def Served (t : State) (b p : BundleEnd) (ma mb : List SpareUse × Option Nat) (here there : List Byte) : Prop :=
  (bundleAt t b).width = mapWidth ma ∧ (bundleAt t p).width = mapWidth mb ∧ (bundleAt t b).block = here ∧ (bundleAt t p).block = there

/-- A direction that starts anew after its test. -/
def BundleDir.fresh (d : BundleDir) : BundleDir :=
  { d with link := { LinkEnd.reset with txQueue := d.link.txQueue }, recentFails := 0, kept := false, phase := [] }

/-- The two ends of a bundle come into service under their maps. -/
def State.serve (b p : BundleEnd) (fa : List Nat) (ma : List SpareUse × Option Nat) (fb : List Nat) (mb : List SpareUse × Option Nat)
    (here there : List Byte) (s : State) : State :=
  (((((s.applyMap b fa ma).applyMap p fb mb).modBundle b BundleDir.fresh).modBundle p BundleDir.fresh).noteBlock b here).noteBlock p there

theorem State.serve_served {s : State} {b p : BundleEnd} (hb : HasEnd s b) (hp : HasEnd s p) (ne : b ≠ p)
    (fa : List Nat) (ma : List SpareUse × Option Nat) (fb : List Nat) (mb : List SpareUse × Option Nat) (here there : List Byte) :
    Served (s.serve b p fa ma fb mb here there) b p ma mb here there := by
  have mapEnds (c : BundleEnd) (f : List Nat) (m : List SpareUse × Option Nat) (t : State) : ends (t.applyMap c f m) = ends t :=
    (ends_of_panel (panel_applyMap ..)).trans (ends_modBundle ..)
  have width (c d : BundleEnd) (f : List Nat) (m : List SpareUse × Option Nat) (t : State) :
      (bundleAt (t.applyMap c f m) d).width = (bundleAt (t.modBundle c (BundleDir.mapped f m)) d).width :=
    bundleAt_congr BundleDir.width (fun _ => rfl) (panel_applyMap ..) d
  generalize h1 : s.applyMap b fa ma = s1
  generalize h2 : s1.applyMap p fb mb = s2
  have e2 : ends s2 = ends s := by rw [← h2, mapEnds, ← h1, mapEnds]
  have b1 : (bundleAt s1 b).width = mapWidth ma := by
    rw [← h1, width, bundleAt_modBundle_same hb]
    rfl
  have b2 : (bundleAt s2 b).width = mapWidth ma := by
    rw [← h2, width, bundleAt_modBundle_ne ne.symm, b1]
  have p2 : (bundleAt s2 p).width = mapWidth mb := by
    rw [← h2, width, bundleAt_modBundle_same ((hasEnd_of_ends (by rw [← h1, mapEnds]) p).mpr hp)]
    rfl
  have has {t : State} (ht : ends t = ends s) {c : BundleEnd} (hc : HasEnd s c) : HasEnd t c := (hasEnd_of_ends ht c).mpr hc
  have atB : bundleAt (s.serve b p fa ma fb mb here there) b = { (bundleAt s2 b).fresh with block := here } := by
    simp only [State.serve, State.noteBlock, h1, h2]
    rw [bundleAt_modBundle_ne ne.symm, bundleAt_modBundle_same (has (by simp [e2]) hb), bundleAt_modBundle_ne ne.symm,
      bundleAt_modBundle_same (has e2 hb)]
  have atP : bundleAt (s.serve b p fa ma fb mb here there) p = { (bundleAt s2 p).fresh with block := there } := by
    simp only [State.serve, State.noteBlock, h1, h2]
    rw [bundleAt_modBundle_same (has (by simp [e2]) hp), bundleAt_modBundle_ne ne, bundleAt_modBundle_same (has (by simp [e2]) hp),
      bundleAt_modBundle_ne ne]
  refine ⟨?_, ?_, ?_, ?_⟩
  · rw [atB]
    exact b2
  · rw [atP]
    exact p2
  · rw [atB]
  · rw [atP]

theorem Served.of_panel {s t : State} (h : panel t = panel s) {b p : BundleEnd} {ma mb : List SpareUse × Option Nat} {here there : List Byte}
    (hs : Served s b p ma mb here there) : Served t b p ma mb here there := by
  have width := bundleAt_congr BundleDir.width (fun _ => rfl) h
  have block := bundleAt_congr BundleDir.block (fun _ => rfl) h
  simpa only [Served, width, block] using hs

/-- A bundle that fails its test is recorded at both ends (R366). -/
theorem recorded_of_failed {b p c : BundleEnd} (hb : peerEnd b = some p) (hp : peerEnd p = some b) (hc : c = b ∨ c = p) (s : State) :
    recordedBundle (((s.retireBundle c).atStep 6).beginTraining) b = true ∧ recordedBundle (((s.retireBundle c).atStep 6).beginTraining) p = true := by
  have log (d : BundleEnd) : recordedBundle (((s.retireBundle c).atStep 6).beginTraining) d = recordedBundle (s.retireBundle c) d := by
    rw [recordedBundle, log_beginTraining]
    exact recordedBundle_of_records (records_atStep ..) d
  rw [log, log]
  rcases hc with rfl | rfl
  · exact State.retireBundle_recorded hb s
  · exact (State.retireBundle_recorded hp s).symm

end Sys2Proof.Machine
end
section
/-! The three outcomes of LANE_TEST: a bundle in service, a bundle that is retired, a site whose identity check fails (R364–R366). -/

set_option Elab.async false
namespace Sys2Proof.Machine

/-- What follows the maps of a bundle in service, whatever wires are recorded or checked inline, leaves its ends. -/
theorem Served.complete {s : State} {b p x y : BundleEnd} {ma mb : List SpareUse × Option Nat} {here there : List Byte} {fx fy : List Nat}
    (h : Served s b p ma mb here there) :
    Served ((((((s.recordWires x fx).recordWires y fy).bundleServed b p).atStep 6)).beginTraining) b p ma mb here there := by
  have panel : panel ((((s.recordWires x fx).recordWires y fy).bundleServed b p).atStep 6) = panel s := by
    rw [panel_atStep, panel_bundleServed, panel_recordWires, panel_recordWires]
  rw [Served, bundleAt_beginTraining, bundleAt_beginTraining]
  exact h.of_panel panel

theorem laneTest_served {s : State} {b p : BundleEnd} {fh ft : List Nat} {bh bt : List Byte} {fa fb : List Nat} {ma mb : List SpareUse × Option Nat}
    (hb : HasEnd s b) (hp : HasEnd s p) (peer : peerEnd b = some p) (recorded : bundleRecorded s b = false)
    (readyB : endReady s b = true) (readyP : endReady s p = true)
    (okHere : blockOk (arriving s p ft bh) = true) (okThere : blockOk (arriving s b fh bt) = true)
    (fromHere : blockFrom p (arriving s p ft bh) = true) (fromThere : blockFrom b (arriving s b fh bt) = true)
    (mapB : settledMap ((s.startEngine b).startEngine p) b fh (arriving s b fh bt) (arriving s p ft bh) = some (fa, ma))
    (mapP : settledMap ((s.startEngine b).startEngine p) p ft (arriving s p ft bh) (arriving s b fh bt) = some (fb, mb)) :
    Answers (.laneTest b fh ft true true bh bt) s (fun t => Served t b p ma mb (arriving s p ft bh) (arriving s b fh bt)) := by
  have row : exec (.laneTest b fh ft true true bh bt) s = execLaneTest b fh ft true true bh bt s := rfl
  have started : panel ((s.startEngine b).startEngine p) = panel s := by rw [panel_startEngine, panel_startEngine]
  have has {c : BundleEnd} (hc : HasEnd s c) : HasEnd ((s.startEngine b).startEngine p) c := (hasEnd_of_ends (ends_of_panel started) c).mpr hc
  rw [Answers, row]
  simp only [execLaneTest, peer, recorded, readyB, readyP, okHere, okThere, fromHere, fromThere, mapB, mapP, Bool.not_true, Bool.and_false,
    Bool.or_self, Bool.false_eq_true, if_false]
  refine ⟨_, rfl, Served.complete (.of_panel ?_ (State.serve_served (has hb) (has hp) (ne_of_peerEnd peer) fa ma fb mb _ _))⟩
  have inline (c : Bool) (d : BundleEnd) (t : State) : panel (if c then t.startInline d else t) = panel t := panel_ite (panel_startInline ..) rfl
  exact (inline ..).trans (inline ..)

theorem laneTest_retired {s : State} {b p : BundleEnd} {fh ft : List Nat} {fckOk flitsOk : Bool} {bh bt : List Byte}
    (peer : peerEnd b = some p) (peer' : peerEnd p = some b) (recorded : bundleRecorded s b = false)
    (readyB : endReady s b = true) (readyP : endReady s p = true)
    (fromHere : blockOk (arriving s p ft bh) = true → blockFrom p (arriving s p ft bh) = true)
    (fromThere : blockOk (arriving s b fh bt) = true → blockFrom b (arriving s b fh bt) = true)
    (fails : fckOk = false ∨ flitsOk = false ∨ blockOk (arriving s p ft bh) = false ∨ blockOk (arriving s b fh bt) = false
      ∨ settledMap ((s.startEngine b).startEngine p) b fh (arriving s b fh bt) (arriving s p ft bh) = none
      ∨ settledMap ((s.startEngine b).startEngine p) p ft (arriving s p ft bh) (arriving s b fh bt) = none) :
    Answers (.laneTest b fh ft fckOk flitsOk bh bt) s (fun t => recordedBundle t b = true ∧ recordedBundle t p = true) := by
  have row : exec (.laneTest b fh ft fckOk flitsOk bh bt) s = execLaneTest b fh ft fckOk flitsOk bh bt s := rfl
  have right {l : List Byte} {c : BundleEnd} (h : blockOk l = true → blockFrom c l = true) : (blockOk l && !blockFrom c l) = false := by
    cases k : blockOk l
    · rfl
    · simp [h k]
  rw [Answers, row]
  simp only [execLaneTest, peer, recorded, readyB, readyP, right fromHere, right fromThere, Bool.not_true, Bool.or_self, Bool.false_eq_true, if_false]
  split
  next mapB mapP =>
    split
    · refine ⟨_, rfl, recorded_of_failed peer peer' ?_ _⟩
      split
      · exact .inr rfl
      · exact .inl rfl
    · split
      · exact ⟨_, rfl, recorded_of_failed peer peer' (.inr rfl) _⟩
      · simp_all
  · exact ⟨_, rfl, recorded_of_failed peer peer' (.inl rfl) _⟩
  · exact ⟨_, rfl, recorded_of_failed peer peer' (.inr rfl) _⟩

theorem laneTest_isolates {s : State} {b p : BundleEnd} {m : Nat} {fh ft : List Nat} {fckOk flitsOk : Bool} {bh bt : List Byte}
    (hl : s.tiles.length = 64) (hm : m < 64) (peer : peerEnd b = some p) (recorded : bundleRecorded s b = false)
    (readyB : endReady s b = true) (readyP : endReady s p = true)
    (wrong : (blockOk (arriving s p ft bh) = true ∧ blockFrom p (arriving s p ft bh) = false ∧ m ∈ checkedSite b)
      ∨ (blockOk (arriving s b fh bt) = true ∧ blockFrom b (arriving s b fh bt) = false ∧ m ∈ checkedSite p)) :
    Answers (.laneTest b fh ft fckOk flitsOk bh bt) s (fun t => (tileAt t m).state = .isolated) := by
  have row : exec (.laneTest b fh ft fckOk flitsOk bh bt) s = execLaneTest b fh ft fckOk flitsOk bh bt s := rfl
  have either : (blockOk (arriving s p ft bh) && !blockFrom p (arriving s p ft bh) || blockOk (arriving s b fh bt) && !blockFrom b (arriving s b fh bt))
      = true := by
    rcases wrong with ⟨ok, foreign, _⟩ | ⟨ok, foreign, _⟩ <;> simp [ok, foreign]
  rw [Answers, row]
  simp only [execLaneTest, peer, recorded, readyB, readyP, either, Bool.not_true, Bool.or_self, Bool.false_eq_true, if_false, if_true]
  refine ⟨_, rfl, ?_⟩
  rw [tileAt_beginTraining Tile.state (by intro; rfl)]
  refine foldl_isolateSite_isolated (List.mem_eraseDups.mpr (List.mem_append.mpr ?_)) ?_
  · rcases wrong with ⟨ok, foreign, listed⟩ | ⟨ok, foreign, listed⟩
    · exact .inl (by simpa [ok, foreign] using listed)
    · exact .inr (by simpa [ok, foreign] using listed)
  · rw [tiles_length_of_sites ((sites_modBundle ..).trans (sites_modBundle ..)), hl]
    exact hm

theorem laneTest_idle {s : State} {b : BundleEnd} {fh ft : List Nat} {fckOk flitsOk : Bool} {bh bt : List Byte}
    (idle : ∀ p, peerEnd b = some p → bundleRecorded s b = true ∨ endReady s b = false ∨ endReady s p = false) :
    Answers (.laneTest b fh ft fckOk flitsOk bh bt) s (fun t => t = s) := by
  have row : exec (.laneTest b fh ft fckOk flitsOk bh bt) s = execLaneTest b fh ft fckOk flitsOk bh bt s := rfl
  rw [Answers, row, execLaneTest]
  cases peer : peerEnd b with
  | none => exact ⟨_, rfl, rfl⟩
  | some p =>
    have out : (bundleRecorded s b || !endReady s b || !endReady s p) = true := by
      rcases idle p peer with h | h | h <;> simp [h]
    simp only [out, if_true]
    exact ⟨_, rfl, rfl⟩

end Sys2Proof.Machine
end
section
/-! Start-up steps 7 to 9: the set-up of cells (R58), the training of memory (R263, R265) and the module ready (R535). -/

set_option Elab.async false
namespace Sys2Proof.Machine

@[simp] theorem tileAt_atStep (k : Nat) (s : State) (n : Nat) : tileAt (s.atStep k) n = tileAt s n := by
  unfold State.atStep
  split <;> rfl

@[simp] theorem atStep_mem (k : Nat) (s : State) : (s.atStep k).mem = s.mem := by
  unfold State.atStep
  split <;> rfl

@[simp] theorem atStep_runs (k : Nat) (s : State) : (s.atStep k).runs = s.runs := by
  unfold State.atStep
  split <;> rfl

/-! ## Cell set-up (R58) -/

theorem cellSetup_started {s : State} (hl : s.tiles.length = 64) {site : SiteId} (compute : (tileAt s site).state = .compute)
    (awake : (tileAt s site).inReset = false) :
    Answers (.cellSetup site) s (fun t => (tileAt t site).settingUp = true ∧ (tileAt t site).setupDone = false ∧ (tileAt t site).logical = []
      ∧ (tileAt t site).sampling = none) := by
  refine ⟨_, if_pos ⟨compute, awake⟩, ?_⟩
  dsimp only
  rw [tileAt_atStep, tileAt_modTile_same (by rw [hl]; exact site.isLt)]
  exact ⟨rfl, rfl, rfl, rfl⟩

theorem cellSetupDone_mapped {s : State} (hl : s.tiles.length = 64) {site : SiteId} {k : Nat} (setting : (tileAt s site).settingUp = true)
    (compute : (tileAt s site).state = .compute) (retiring : (tileAt s site).retiring = false) (last : (liveCells (tileAt s site)).getLast? = some k) :
    Answers (.cellSetupDone site []) s (fun t => (tileAt t site).setupDone = true ∧ (tileAt t site).sampling = some k
      ∧ (tileAt t site).logical = (liveCells (tileAt s site)).dropLast ∧ (tileAt t site).rotating = true) := by
  have row : exec (.cellSetupDone site []) s = execCellSetupDone site [] s := rfl
  rw [Answers, row]
  simp only [execCellSetupDone, setting, retiring, compute, List.foldl_nil, Bool.true_eq_false, Bool.false_eq_true, if_false, if_true]
  refine ⟨_, rfl, ?_⟩
  rw [tileAt_atStep, tileAt_modTile_same (by rw [hl]; exact site.isLt)]
  simp only [Tile.mapCells, last, and_self]

theorem cellSetupDone_retiring {s : State} (hl : s.tiles.length = 64) {site : SiteId} (setting : (tileAt s site).settingUp = true)
    (retiring : (tileAt s site).retiring = true) :
    Answers (.cellSetupDone site []) s (fun t => (tileAt t site).settingUp = false
      ∧ (tileAt t site).setupDone = (tileAt s site).setupDone ∧ (tileAt t site).logical = (tileAt s site).logical) := by
  have row : exec (.cellSetupDone site []) s = execCellSetupDone site [] s := rfl
  rw [Answers, row]
  simp only [execCellSetupDone, setting, retiring, List.foldl_nil, Bool.true_eq_false, if_false, if_true]
  refine ⟨_, rfl, ?_⟩
  rw [tileAt_atStep, tileAt_modTile_same (by rw [hl]; exact site.isLt)]
  exact ⟨rfl, rfl, rfl⟩

/-- A cell that fails its test is reported and retired (R63, R504). -/
def State.failCell (site : Nat) (s : State) (k : CellId) : State :=
  (s.raise (srcId 1 site 0) (rangeData (tileAt s site) k)).retireCell site k (srcId 1 site 0)

theorem State.failCell_report (site : Nat) (s : State) (k : CellId) :
    panel (s.raise (srcId 1 site 0) (rangeData (tileAt s site) k)) = panel s := panel_raise (calm_src (by decide) (by decide)) ..

theorem State.failCell_last (site : Nat) (s : State) (k : CellId) : SitesLast s (s.failCell site k) :=
  .trans (.of_panel (s.failCell_report site k)) (State.retireCell_last ..)

theorem State.failCell_retired {site : Nat} {s : State} (h : site < s.tiles.length) (k : CellId) :
    k.val ∈ (tileAt (s.failCell site k) site).retiredCells :=
  State.retireCell_retired (by rw [tiles_length_of_sites (sites_of_panel (s.failCell_report site k))]; exact h) ..

theorem foldl_failCell_retired {site : Nat} {failed : List CellId} {s : State} (h : site < s.tiles.length) {k : CellId} (hk : k ∈ failed) :
    k.val ∈ (tileAt (failed.foldl (State.failCell site) s) site).retiredCells := by
  induction failed generalizing s with
  | nil => cases hk
  | cons c l ih =>
    have last := s.failCell_last site c
    cases hk with
    | head => exact ((SitesLast.foldl (fun t x => t.failCell_last site x) l _).tile site).retired _ (State.failCell_retired h k)
    | tail _ hl => exact ih (last.length ▸ h) hl

theorem Tile.mapCells_lasts (t : Tile) : t.Lasts { t.mapCells with sweeps := 0, sweepPos := 0 } := by
  unfold Tile.mapCells
  split <;> exact ⟨id, fun _ => id, fun _ => id⟩

theorem cellSetupDone_failed {s : State} (hl : s.tiles.length = 64) {site : SiteId} (failed : List CellId)
    (setting : (tileAt s site).settingUp = true) :
    Answers (.cellSetupDone site failed) s (fun t => ∀ k ∈ failed, k.val ∈ (tileAt t site).retiredCells) := by
  generalize hu : failed.foldl (State.failCell site) s = u
  have retired : ∀ k ∈ failed, k.val ∈ (tileAt u site).retiredCells := by
    rw [← hu]
    exact fun k hk => foldl_failCell_retired (by rw [hl]; exact site.isLt) hk
  obtain ⟨t, row, last⟩ : ∃ t, exec (.cellSetupDone site failed) s = .next t ∧ SitesLast u t := by
    have row : exec (.cellSetupDone site failed) s = execCellSetupDone site failed s := rfl
    have fold : failed.foldl (fun t k => (t.raise (srcId 1 site 0) (rangeData (tileAt t site) k)).retireCell site k (srcId 1 site 0)) s = u := hu
    have step (t : State) : SitesLast t (t.atStep 7) := .of_panel (panel_atStep 7 t)
    rw [row]
    simp only [execCellSetupDone, setting, Bool.true_eq_false, if_false, fold]
    split
    · exact ⟨_, rfl, .trans (.modTile ⟨id, fun _ => id, fun _ => id⟩) (step _)⟩
    · split
      · exact ⟨_, rfl, .trans (.modTile (Tile.mapCells_lasts _)) (step _)⟩
      · exact ⟨_, rfl, step u⟩
  exact ⟨t, row, fun k hk => (last.tile site).retired _ (retired k hk)⟩

/-! ## Memory training (R252, R263, R265) -/

theorem readByte_clearRange_same {m : ByteMap} {a n x : Nat} (h : a ≤ x) (h' : x < a + n) : readByte (clearRange m a n) x = 0 := by
  induction m with
  | nil => rfl
  | cons c m ih =>
    rw [clearRange, List.filter_cons]
    split
    next keep =>
      have ne : c.1 ≠ x := by
        rintro rfl
        simp [h, h'] at keep
      rw [readByte, if_neg ne]
      exact ih
    next => exact ih

@[simp] theorem panel_noteDevice (k id : Nat) (s : State) : panel (s.noteDevice k id) = panel s := panel_ite rfl (panel_putMirror ..)

/-- The two devices of a site have told their temperatures and what they are (R252). -/
def State.noteSite (n idA idB ta tb : Nat) (s : State) : State := ((s.noteTemps n ta tb).noteDevice (2 * n) idA).noteDevice (2 * n + 1) idB

theorem State.noteSite_panel (n idA idB ta tb : Nat) (s : State) : panel (s.noteSite n idA idB ta tb) = panel (s.noteTemps n ta tb) := by
  rw [State.noteSite, panel_noteDevice, panel_noteDevice]

theorem State.noteSite_length (n idA idB ta tb : Nat) (s : State) : (s.noteSite n idA idB ta tb).tiles.length = s.tiles.length :=
  (tiles_length_of_sites (sites_of_panel (s.noteSite_panel n idA idB ta tb))).trans (State.modTile_tiles_length ..)

theorem State.noteSite_temp {n : Nat} {s : State} (h : n < s.tiles.length) (idA idB ta tb : Nat) :
    (tileAt (s.noteSite n idA idB ta tb) n).thermal.gddrTemp = Nat.max ta tb := by
  have noted := tileAt_congr (fun t => t.thermal.gddrTemp) (fun _ => rfl) (sites_of_panel (s.noteSite_panel n idA idB ta tb)) n
  exact noted.trans (congrArg (fun t : Tile => t.thermal.gddrTemp) (getD_modAt_same h _ _))

/-- What the devices have told holds no access back and ends no run. -/
theorem State.noteSite_idle (n idA idB ta tb : Nat) (s : State) :
    (s.noteSite n idA idB ta tb).mem.heldAccesses = s.mem.heldAccesses ∧ (s.noteSite n idA idB ta tb).runs = s.runs := by
  have device (k id : Nat) (t : State) : (t.noteDevice k id).mem.heldAccesses = t.mem.heldAccesses ∧ (t.noteDevice k id).runs = t.runs := by
    have frame := State.noteDevice_frame k id t
    have mem : ({ (t.noteDevice k id).mem with cells := [] } : MemSys) = { t.mem with cells := [] } := frame.exact (by decide) (p := .mem) (by decide)
    exact ⟨(congrArg MemSys.heldAccesses mem :), frame.exact (by decide) (p := .runs) (by decide)⟩
  obtain ⟨m1, r1⟩ := device (2 * n) idA (s.noteTemps n ta tb)
  obtain ⟨m2, r2⟩ := device (2 * n + 1) idB ((s.noteTemps n ta tb).noteDevice (2 * n) idA)
  exact ⟨m2.trans m1, r2.trans r1⟩

/-- A site's memory comes into service, zeroed where it has not been trained before (R263). -/
def State.serveMemory (n : Nat) (trained : Bool) (s : State) : State :=
  let s1 := if trained then s else s.loseBytes (siteBase n) siteUsable
  let s2 := s1.modTile n (fun t => { t with memInService := true, training := false })
  { s2 with mem := { s2.mem with trainedOnce := addOnce n s2.mem.trainedOnce } }

theorem State.serveMemory_tile {n : Nat} {s : State} (h : n < s.tiles.length) (trained : Bool) :
    tileAt (s.serveMemory n trained) n = { tileAt s n with memInService := true, training := false } := by
  have tiles : (s.serveMemory n trained).tiles = (s.modTile n (fun t => { t with memInService := true, training := false })).tiles := by
    cases trained <;> rfl
  rw [tileAt, tiles]
  exact tileAt_modTile_same h _

theorem State.serveMemory_idle (n : Nat) (trained : Bool) (s : State) :
    (s.serveMemory n trained).mem.heldAccesses = s.mem.heldAccesses ∧ (s.serveMemory n trained).runs = s.runs := by
  cases trained <;> exact ⟨rfl, rfl⟩

/-- A memory that has not been trained before holds zero bytes. -/
theorem State.serveMemory_zero {n a : Nat} (h : siteBase n ≤ a) (h' : a < siteBase n + siteUsable) (s : State) :
    readByte (s.serveMemory n false).mem.cells a = 0 := readByte_clearRange_same h h'

theorem State.serveMemory_trained (n : Nat) (trained : Bool) (s : State) : n ∈ (s.serveMemory n trained).mem.trainedOnce :=
  mem_addOnce.mpr (.inr rfl)

theorem gddr7TrainingDone_ok {s : State} (hl : s.tiles.length = 64) {site : SiteId} (there : (tileAt s site).state ≠ .isolated)
    (works : (tileAt s site).memFailed = false) (idA idB ta tb : Nat) :
    Answers (.gddr7TrainingDone site false false idA idB ta tb) s (fun t => (tileAt t site).memInService = true ∧ (tileAt t site).training = false
      ∧ (tileAt t site).thermal.gddrTemp = Nat.max ta tb ∧ site.val ∈ t.mem.trainedOnce
      ∧ (site.val ∉ s.mem.trainedOnce → s.mem.heldAccesses = [] → s.runs = [] →
          ∀ a, siteBase site ≤ a → a < siteBase site + siteUsable → readByte t.mem.cells a = 0)) := by
  generalize hu : (s.noteSite site idA idB ta tb).serveMemory site (s.mem.trainedOnce.contains site.val) = u
  have row : exec (.gddr7TrainingDone site false false idA idB ta tb) s = .next (u.atStep 7).resumeAll.settleRuns := by
    show execGddr7TrainingDone site false false idA idB ta tb s = _
    simp only [execGddr7TrainingDone, there, works, or_self, Bool.false_eq_true, if_false]
    rw [← hu]
    rfl
  have range : site.val < s.tiles.length := by rw [hl]; exact site.isLt
  have tile : tileAt u site = { tileAt (s.noteSite site idA idB ta tb) site with memInService := true, training := false } := by
    rw [← hu]
    exact State.serveMemory_tile (by rw [State.noteSite_length]; exact range) _
  have kept : panel (u.atStep 7).resumeAll.settleRuns = panel u := by simp
  have field {β : Type} (π : Tile → β) (hπ : ∀ x, π x.plain = π x) := tileAt_congr π hπ (sites_of_panel kept) site
  refine ⟨_, row, ?_, ?_, ?_, ?_, fun fresh held runs a ha ha' => ?_⟩
  · rw [field Tile.memInService (fun _ => rfl), tile]
  · rw [field Tile.training (fun _ => rfl), tile]
  · have temp := field (fun t => t.thermal.gddrTemp) (fun _ => rfl)
    rw [temp, tile]
    exact State.noteSite_temp range ..
  · rw [trained_of_panel kept, ← hu]
    exact State.serveMemory_trained ..
  · obtain ⟨noted, notedRuns⟩ := s.noteSite_idle site idA idB ta tb
    obtain ⟨served, servedRuns⟩ := (s.noteSite site idA idB ta tb).serveMemory_idle site (s.mem.trainedOnce.contains site.val)
    rw [hu] at served servedRuns
    have resumed : (u.atStep 7).resumeAll = u.atStep 7 := resumeAll_of_nil (by rw [atStep_mem, served, noted, held])
    have settled : (u.atStep 7).settleRuns = u.atStep 7 := settleRuns_of_nil (by rw [atStep_runs, servedRuns, notedRuns, runs])
    have untrained : s.mem.trainedOnce.contains site.val = false := by simpa using fresh
    rw [resumed, settled, atStep_mem, ← hu, untrained]
    exact State.serveMemory_zero ha ha' _

theorem failMemory_view (n device : Nat) (s : State) : panel (s.failMemory n device) = panel (s.modTile n (fun t =>
    { t with memInService := false, memFailed := true, failedDevice := (tileAt s n).failedDevice ||| device, training := false })) := by
  unfold State.failMemory
  dsimp only
  rw [panel_loseSite, panel_raiseService, panel_logEvent, panel_raise (calm_src (by decide) (by decide)), panel_putMirror]
  rfl

theorem gddr7TrainingDone_failed {s : State} (hl : s.tiles.length = 64) {site : SiteId} (there : (tileAt s site).state ≠ .isolated)
    (works : (tileAt s site).memFailed = false) {a b : Bool} (fails : (a || b) = true) (idA idB ta tb : Nat) :
    Answers (.gddr7TrainingDone site a b idA idB ta tb) s (fun t => (tileAt t site).memInService = false ∧ (tileAt t site).memFailed = true) := by
  have row : exec (.gddr7TrainingDone site a b idA idB ta tb) s
      = .next ((((s.noteSite site idA idB ta tb).failMemory site (bnat a + 2 * bnat b)).atStep 7).resumeAll.settleRuns) := by
    show execGddr7TrainingDone site a b idA idB ta tb s = _
    simp only [execGddr7TrainingDone, there, works, fails, or_self, Bool.false_eq_true, if_false, if_true]
    rfl
  have kept : panel ((((s.noteSite site idA idB ta tb).failMemory site (bnat a + 2 * bnat b)).atStep 7).resumeAll.settleRuns)
      = panel ((s.noteSite site idA idB ta tb).failMemory site (bnat a + 2 * bnat b)) := by simp
  have sites := sites_of_panel (kept.trans (failMemory_view ..))
  have same := tileAt_modTile_same (s := s.noteSite site idA idB ta tb) (n := site) (by rw [State.noteSite_length, hl]; exact site.isLt)
  refine ⟨_, row, ?_, ?_⟩
  · rw [tileAt_congr Tile.memInService (fun _ => rfl) sites, same]
  · rw [tileAt_congr Tile.memFailed (fun _ => rfl) sites, same]

/-! ## Ready (R535) -/

theorem State.raiseCause_bit (k : Nat) (hk : k < 7) (s : State) : (s.raiseCause k).boot.cause.getLsbD k = true := by
  have bit : (s.boot.cause ||| (1#7 <<< k)).getLsbD k = true := by simp [hk]
  have sent (t : State) : (t.sendVector 0).boot.cause = t.boot.cause := (State.sendVector_frame 0 t).exact (by decide) (p := .cause) (by decide)
  unfold State.raiseCause
  dsimp only
  split
  · exact bit
  · rw [sent]
    exact bit

/-- The module is ready. -/
def State.readyAt (ms : Nat) (s : State) : State :=
  { s with boot := { s.boot with step := 9, ready := true, readyMs := Nat.min ms 65535, inProgress := none }, pins := { s.pins with readyOut := true } }

theorem moduleReady_ready {s : State} {ms : Nat} (due : readyDue s ms = true) (compute : computeSites s ≠ []) :
    Answers (.moduleReady ms) s (fun t => t.boot.ready = true ∧ t.boot.step = 9 ∧ t.boot.readyMs = Nat.min ms 65535 ∧ t.boot.inProgress = none
      ∧ t.pins.readyOut = true ∧ t.boot.cause.getLsbD 0 = true) := by
  have row : exec (.moduleReady ms) s
      = .next (((s.readyAt ms).logEvent 0x0011 0xFFFF 0 false (BitVec.ofNat 64 (ms % 2 ^ 32))).raiseCause 0) := by
    have nonempty : ¬ (computeSites ({ s with boot := { s.boot with step := 9 } } : State)).isEmpty = true := by
      show ¬ (computeSites s).isEmpty = true
      simpa using compute
    show execModuleReady ms s = _
    simp only [execModuleReady, due, Bool.true_eq_false, if_false]
    exact if_neg nonempty
  generalize hu : (s.readyAt ms).logEvent 0x0011 0xFFFF 0 false (BitVec.ofNat 64 (ms % 2 ^ 32)) = u at row
  have logged : Frame [.ret, .flashA, .flashB, .log] (s.readyAt ms) u := hu ▸ State.logEvent_frame ..
  have raised := State.raiseCause_frame 0 u
  have boot : ({ (u.raiseCause 0).boot with cause := 0 } : Boot) = { (s.readyAt ms).boot with cause := 0 } :=
    (raised.exact (by decide) (p := .boot) (by decide)).trans (logged.exact (by decide) (p := .boot) (by decide))
  have pins : (u.raiseCause 0).pins = (s.readyAt ms).pins :=
    (raised.exact (by decide) (p := .pins) (by decide)).trans (logged.exact (by decide) (p := .pins) (by decide))
  exact ⟨_, row, (congrArg Boot.ready boot :), (congrArg Boot.step boot :), (congrArg Boot.readyMs boot :), (congrArg Boot.inProgress boot :),
    congrArg Pins.readyOut pins, u.raiseCause_bit 0 (by decide)⟩

theorem moduleReady_empty {s : State} {ms : Nat} (due : readyDue s ms = true) (compute : computeSites s = []) :
    Answers (.moduleReady ms) s (fun t => t = { s with boot := { s.boot with step := 9 } }) := by
  have empty : (computeSites ({ s with boot := { s.boot with step := 9 } } : State)).isEmpty = true := by
    show (computeSites s).isEmpty = true
    rw [compute]
    rfl
  refine ⟨_, ?_, rfl⟩
  show execModuleReady ms s = _
  simp only [execModuleReady, due, Bool.true_eq_false, if_false]
  exact if_pos empty

end Sys2Proof.Machine
end
section
open Sys2Proof Sys2Proof.Machine

/-- Settles O20, clause by clause: what each row sets at its site or bundle stands through the reports, the traffic and the upkeep of memory that
follow it in the same row (the views `sites`, `panel` and `records`), and a site once ISOLATED stays so (`SitesLast`). -/
theorem startUpRowsComplete : Obligations.StartUpRowsComplete := by
  refine ⟨fun s row ageing hl => rowRelease_released hl row ageing, fun s site straps hl planned awake good alone => ?accepted,
    fun s site straps hl planned awake bad => tilePositionReport_rejected hl planned awake bad, ?served, ?retired, ?isolates,
    fun s b fh ft fckOk flitsOk bh bt idle => laneTest_idle idle, fun s site hl compute awake => cellSetup_started hl compute awake,
    fun s site idle => ⟨_, if_neg idle, rfl⟩, fun s site k hl setting compute retiring last => cellSetupDone_mapped hl setting compute retiring last,
    fun s site hl setting _ retiring => cellSetupDone_retiring hl setting retiring,
    fun s site failed hl setting => cellSetupDone_failed hl failed setting,
    fun s site idA idB ta tb hl there works => gddr7TrainingDone_ok hl there works idA idB ta tb,
    fun s site a b idA idB ta tb hl there works fails => gddr7TrainingDone_failed hl there works fails idA idB ta tb,
    fun s ms due compute => moduleReady_ready due compute, fun s ms due compute => moduleReady_empty due compute⟩
  case accepted =>
    obtain ⟨t, row, shown⟩ := tilePositionReport_accepted hl planned awake good alone
    simp only [Tile.identity, Prod.mk.injEq] at shown
    exact ⟨t, row, shown⟩
  case served =>
    intro s b p fh ft bh bt here there fa ma fb mb hb hp peer _ recorded readyB readyP eHere eThere okHere okThere fromHere fromThere mapB mapP
    subst eHere eThere
    obtain ⟨t, row, atB, atP, blockB, blockP⟩ := laneTest_served hb hp peer recorded readyB readyP okHere okThere fromHere fromThere mapB mapP
    simp only [BundleDir.width, mapWidth, Prod.mk.injEq] at atB atP
    obtain ⟨stateB, sparesB, droppedB⟩ := atB
    obtain ⟨stateP, sparesP, droppedP⟩ := atP
    exact ⟨t, row, stateB, sparesB, droppedB, stateP, sparesP, droppedP, blockB, blockP⟩
  case retired =>
    intro s b p fh ft fckOk flitsOk bh bt here there _ _ peer peer' recorded readyB readyP eHere eThere fromHere fromThere fails
    subst eHere eThere
    exact laneTest_retired peer peer' recorded readyB readyP fromHere fromThere fails
  case isolates =>
    intro s b p m fh ft fckOk flitsOk bh bt here there hl hm peer recorded readyB readyP eHere eThere wrong
    subst eHere eThere
    exact laneTest_isolates hl hm peer recorded readyB readyP wrong

end
section
/-! What decides where data is placed and whether memory answers: two views of the state, and what reads and writes of module memory leave of them. -/

set_option Elab.async false
namespace Sys2Proof.Machine

/-! ## Placing -/

/-- A run but for what it has computed: the tensors that it keeps, its ended operations and its spilled reads. -/
def Run.placing (r : Run) : Run := { r with vals := [], opsDone := [], spilledRead := false }

/-- The state but for what neither the choice of a place (log 59) nor an access to memory looks at. -/
def State.placing (s : State) : State :=
  { s with free := 0, runs := s.runs.map Run.placing, models := s.models.map (fun m => { m with lastSpilled := none }),
           mem := { s.mem with poison := [], checkCache := [] }, cel := { s.cel with kvRead := 0 } }

theorem usedExtents_placing (s : State) : usedExtents s.placing = usedExtents s := by
  simp only [usedExtents, tempExtents, State.placing, List.flatMap_map]
  rfl

theorem siteFree_placing (s : State) (n : Nat) : siteFree s.placing n = siteFree s n := by
  simp only [siteFree, usedExtents_placing]
  rfl

theorem localFree_placing (s : State) : localFree s.placing = localFree s := by
  simp only [localFree, funext (siteFree_placing s)]

theorem portFree_placing (s : State) (p : Nat) : portFree s.placing p = portFree s p := by
  simp only [portFree, usedExtents_placing]
  rfl

theorem cxlFree_placing (s : State) : cxlFree s.placing = cxlFree s := by
  simp only [cxlFree, funext (portFree_placing s)]

theorem tempPlace_placing (s : State) (site : Option Nat) (v : TensorVal) : tempPlace s.placing site v = tempPlace s site v := by
  simp only [tempPlace, siteFree_placing, localFree_placing, cxlFree_placing]

/-! ## Reaching memory -/

/-- The state but for the content of memory, the runs, and what placing does not look at: what an access waits for or fails by. -/
def State.reach (s : State) : State :=
  { s.placing with runs := [], models := [], mem := { s.placing.mem with cells := [] } }

theorem reach_of_placing {s t : State} (h : s.placing = t.placing) : s.reach = t.reach :=
  congrArg (fun u : State => ({ u with runs := [], models := [], mem := { u.mem with cells := [] } } : State)) h

/-- What can be told from the view is the same where the view is. -/
theorem eq_of_reach {β : Type} (g : State → β) (hg : ∀ u, g u.reach = g u) {s t : State} (h : s.reach = t.reach) : g s = g t := by
  rw [← hg s, h, hg t]

theorem memWaits_of_reach {s t : State} (h : s.reach = t.reach) (l : List Extent) : memWaits s l = memWaits t l :=
  eq_of_reach (memWaits · l) (fun _ => rfl) h

theorem accessSource_write_of_reach {s t : State} (h : s.reach = t.reach) (by_ : Option Nat) (l : List Extent) :
    accessSource s by_ false l = accessSource t by_ false l := eq_of_reach (accessSource · by_ false l) (fun _ => rfl) h

theorem outputPieces_of_reach {s t : State} (h : s.reach = t.reach) (r : Run) : outputPieces s r = outputPieces t r :=
  eq_of_reach (outputPieces · r) (fun _ => rfl) h

theorem requestsOf_of_reach {s t : State} (h : s.reach = t.reach) (cid : Nat) : requestsOf s cid = requestsOf t cid :=
  eq_of_reach (requestsOf · cid) (fun _ => rfl) h

theorem cmdAt_of_reach {s t : State} (h : s.reach = t.reach) (cid : Nat) : cmdAt s cid = cmdAt t cid :=
  eq_of_reach (cmdAt · cid) (fun _ => rfl) h

/-! ## Accesses to memory -/

@[simp] theorem State.touch_placing (write : Bool) (l : List Extent) (s : State) : (s.touch write l).placing = s.placing := by
  refine foldl_view (v := State.placing) (fun t e => ?_) l s
  unfold State.touchExtent
  dsimp only
  split
  · exact foldl_view (v := State.placing) (by intros; rfl) ..
  · rfl

theorem State.writeMem_placing (l : List Extent) (v : List Byte) (s : State) :
    (s.writeMem l v).placing = { s.placing with mem := { s.placing.mem with cells := writePieces s.placing.mem.cells l v } } :=
  State.touch_placing true l _

@[simp] theorem State.writeMem_reach (l : List Extent) (v : List Byte) (s : State) : (s.writeMem l v).reach = s.reach := by
  simp only [State.reach, State.writeMem_placing]

theorem State.writeMem_placing_congr {s t : State} (h : s.placing = t.placing) (l : List Extent) (v : List Byte) :
    (s.writeMem l v).placing = (t.writeMem l v).placing := by
  rw [State.writeMem_placing, h, ← State.writeMem_placing]

/-- A change of a run that its places do not see. -/
theorem State.modRun_placing {f : Run → Run} (h : ∀ r, (f r).placing = r.placing) (cid : Nat) (s : State) :
    (s.modRun cid f).placing = s.placing := by
  have runs : (s.runs.map (fun r => if r.cid = cid then f r else r)).map Run.placing = s.runs.map Run.placing := by
    rw [List.map_map]
    exact List.map_congr_left (fun r _ => by simp only [Function.comp]; split <;> simp [h])
  simp only [State.placing, State.modRun, runs]

/-- A fold whose every step takes states that place alike to states that place alike. -/
theorem foldl_placing_congr {α : Type} {g : State → α → State}
    (step : ∀ x {s t : State}, s.placing = t.placing → (g s x).placing = (g t x).placing) (l : List α) {s t : State}
    (h : s.placing = t.placing) : (l.foldl g s).placing = (l.foldl g t).placing := by
  induction l generalizing s t with
  | nil => exact h
  | cons x l ih => exact ih (step x h)

/-! ## TEMP tensors and outputs (R144, R147) -/

/-- A change of a run's places. -/
theorem State.placing_modRun {f : Run → Run} (h : ∀ r, (f r).placing = f r.placing) (cid : Nat) (s : State) :
    (s.modRun cid f).placing = s.placing.modRun cid f := by
  have runs : (s.runs.map (fun r => if r.cid = cid then f r else r)).map Run.placing
      = (s.runs.map Run.placing).map (fun r => if r.cid = cid then f r else r) := by
    simp only [List.map_map]
    refine List.map_congr_left (fun r _ => ?_)
    rw [Function.comp_apply, Function.comp_apply, apply_ite Run.placing, h]
    rfl
  simp only [State.placing, State.modRun, runs]

theorem State.putTemp_placing_congr (cid : Nat) (site : Option Nat) (v : TensorVal) {s t : State} (h : s.placing = t.placing) :
    (s.putTemp cid site v).placing = (t.putTemp cid site v).placing := by
  have place : tempPlace s site v = tempPlace t site v := by rw [← tempPlace_placing, h, tempPlace_placing]
  unfold State.putTemp
  rw [place]
  refine State.writeMem_placing_congr ?_ ..
  rw [State.placing_modRun (by intro; rfl), State.placing_modRun (by intro; rfl), h]

theorem State.putTemps_placing_congr (cid : Nat) (site : Option Nat) (ts : List TensorDesc) (outs : List TensorVal) {s t : State}
    (h : s.placing = t.placing) : (s.putTemps cid site ts outs).placing = (t.putTemps cid site ts outs).placing :=
  foldl_placing_congr (fun v _ _ => State.putTemp_placing_congr cid site v) _ h

@[simp] theorem State.putTemps_reach (cid : Nat) (site : Option Nat) (ts : List TensorDesc) (outs : List TensorVal) (s : State) :
    (s.putTemps cid site ts outs).reach = s.reach :=
  foldl_view (v := State.reach) (fun t _ => State.writeMem_reach _ _ (t.modRun cid _)) _ s

theorem State.writeOutputs_placing_congr (r : Run) {s t : State} (h : s.placing = t.placing) :
    (s.writeOutputs r).placing = (t.writeOutputs r).placing := by
  refine foldl_placing_congr (fun b s t h => ?_) r.bound h
  have handles : s.mem.handles = t.mem.handles := (congrArg (fun u : State => u.mem.handles) h :)
  rw [handles]
  split
  · split
    · exact State.writeMem_placing_congr h ..
    · exact h
  · exact h

theorem State.writeOutputs_cells_congr (r : Run) {s t : State} (h : s.placing = t.placing) :
    (s.writeOutputs r).mem.cells = (t.writeOutputs r).mem.cells :=
  (congrArg (fun u : State => u.mem.cells) (State.writeOutputs_placing_congr r h) :)

/-! ## What reading the inputs of an operation leaves -/

theorem sessionOf_of_none {r : Run} (h : r.session = none) (s : State) : sessionOf s r = none := by simp [sessionOf, h]

theorem State.modModel_lastSpilled_placing (k : Nat) (x : Option Nat) (s : State) :
    (s.modModel k (fun m => { m with lastSpilled := x })).placing = s.placing := by
  have models : (modAt s.models k (fun m => { m with lastSpilled := x })).map (fun m => ({ m with lastSpilled := none } : Model))
      = s.models.map (fun m => { m with lastSpilled := none }) := map_modAt_of_eq (by intro; rfl) ..
  simp only [State.placing, State.modModel, models]


/-- What a run without a session reads leaves every place and every access as it was: no cache serves it. -/
theorem State.noteReads_placing {r : Run} (h : r.session = none) (op : Nat) (ts : List TensorDesc) (s : State) :
    (s.noteReads r op ts).placing = s.placing := by
  have read (t : State) (k : Nat) (f : KvBlock → KvBlock) (same : t.placing = s.placing) (cool : ∀ b, f b = b) :
      ({ t with cel := { s.cel with kvRead := k, blocks := s.cel.blocks.map f } } : State).placing = s.placing := by
    rw [List.map_id'' cool]
    exact congrArg (fun u : State => ({ u with cel := { s.cel with kvRead := 0 } } : State)) same
  unfold State.noteReads
  simp only [sessionOf_of_none h]
  refine read _ _ _ ?_ (fun b => by simp)
  rw [State.modRun_placing (by intro; rfl), State.touch_placing]
  simp only [List.isEmpty_nil, if_true]
  split
  · exact State.modModel_lastSpilled_placing ..
  · rfl

/-- Whatever an operation reads, its run stays, but for the note of a spilled read. -/
theorem State.noteReads_runs (r : Run) (op : Nat) (ts : List TensorDesc) (s : State) :
    ∃ spilled : Bool, (s.noteReads r op ts).runs = (s.modRun r.cid (fun q => { q with spilledRead := q.spilledRead || spilled })).runs := by
  have noted (t : State) (cel : Cellarer) (spilled : Bool) (same : t.runs = s.runs) :
      ∃ b : Bool, ({ t.modRun r.cid (fun q => { q with spilledRead := q.spilledRead || spilled }) with cel } : State).runs
        = (s.modRun r.cid (fun q => { q with spilledRead := q.spilledRead || b })).runs :=
    ⟨spilled, by simp only [State.modRun, same]⟩
  have touched (l : List Extent) (t : State) : (t.touch false l).runs = t.runs := (State.touch_frame false l t).exact (by decide) (p := .runs) (by decide)
  have served (t : State) : (t.caskWork r.cid).runs = t.runs := (State.caskWork_frame r.cid t).exact (by decide) (p := .runs) (by decide)
  unfold State.noteReads
  refine noted _ _ _ ?_
  rw [touched, apply_ite State.runs, served, ite_self]
  split <;> rfl

end Sys2Proof.Machine
end
section
/-! What an operation of a run leaves (R144): its outputs and their places, and the end of the run where it was the last (R147, R148). -/

set_option Elab.async false
namespace Sys2Proof.Machine

/-! ## The run in the table -/

theorem runOf_cid {s : State} {cid : Nat} {r : Run} (h : runOf s cid = some r) : r.cid = cid := by
  simpa using List.find?_some h

theorem runOf_modRun {f : Run → Run} (hf : ∀ q, (f q).cid = q.cid) (s : State) (cid : Nat) :
    runOf (s.modRun cid f) cid = (runOf s cid).map f := by
  have search (q : Run) : ((if q.cid = cid then f q else q).cid == cid) = (q.cid == cid) := by split <;> simp [hf]
  unfold runOf State.modRun
  simp only [List.find?_map, Function.comp_def, search]
  cases e : s.runs.find? (fun r => r.cid == cid) with
  | none => rfl
  | some r => simp [runOf_cid (s := s) e]

theorem runOf_of_runs {s t : State} (h : s.runs = t.runs) (cid : Nat) : runOf s cid = runOf t cid := by rw [runOf, h, runOf]

/-- The run, but for where its TEMP tensors are and whether it has read a spilled shard. -/
def RunsAs (s : State) (cid : Nat) (q : Run) : Prop :=
  ∃ temps spilled, runOf s cid = some { q with temps, spilledRead := spilled }

theorem RunsAs.putTemp {s : State} {cid : Nat} {q : Run} (site : Option Nat) (v : TensorVal) (h : RunsAs s cid q) :
    RunsAs (s.putTemp cid site v) cid q := by
  obtain ⟨temps, spilled, at_⟩ := h
  have stored (l : List Extent) (b : List Byte) (t : State) : (t.writeMem l b).runs = t.runs :=
    (State.writeMem_frame l b t).exact (by decide) (p := .runs) (by decide)
  refine ⟨temps ++ [tempPlace s site v], spilled, ?_⟩
  rw [State.putTemp, runOf_of_runs (stored ..), runOf_modRun (by intro; rfl), at_]
  rfl

theorem RunsAs.putTemps {s : State} {cid : Nat} {q : Run} (site : Option Nat) (ts : List TensorDesc) (outs : List TensorVal)
    (h : RunsAs s cid q) : RunsAs (s.putTemps cid site ts outs) cid q :=
  List.foldlRecOn (motive := fun t => RunsAs t cid q) _ _ h (fun _ kept v _ => kept.putTemp site v)

/-! ## The state once the outputs are kept -/

/-- What runOp makes of a state in which an operation is ready and its outputs are computed, before the run settles. -/
def State.ranOp (cid op : Nat) (r : Run) (o : OpDesc) (outs : List TensorVal) (s : State) : State :=
  (((s.noteReads r op (opInputs r o)).spend (2 ^ 48)).modRun cid (fun q => q.after op outs)).putTemps cid (opSite s cid op) r.graph.tensors outs

theorem opReady_run {s : State} {cid op code : Nat} {r : Run} {o : OpDesc} (h : opReady s cid op code = some (r, o)) :
    runOf s cid = some r ∧ r.begun = true := by
  unfold opReady at h
  split at h
  · split at h
    · split at h
      next here _ _ _ ready => cases h; exact ⟨here, ready.1⟩
      next => cases h
    · cases h
  · cases h

/-- An operation that is ready, whose inputs are there and whose places need not wait, leaves the state of `ranOp` to settle. -/
theorem State.runOp_of_ok {s : State} {cid op code : Nat} {f : OpEnv → List Operand → List TensorDesc → OpResult} {r : Run} {o : OpDesc}
    {ins : List Operand} {outs : List TensorVal} (ready : opReady s cid op code = some (r, o))
    (inputs : fetchAll s r op (opInputs r o) = .ok ins) (result : f (envOf s r o) ins (opOutputs r o) = .ok outs)
    (room : memWaits s (newTemps r (s.ranOp cid op r o outs)) = false) :
    s.runOp cid op code f = (s.ranOp cid op r o outs).settleRun cid := by
  unfold opInputs at inputs
  unfold opOutputs at result
  simp only [State.runOp, ready, inputs, result]
  exact if_neg (Bool.eq_false_iff.mp room)

theorem State.ranOp_runsAs {s : State} {cid op : Nat} {r : Run} (o : OpDesc) (outs : List TensorVal) (h : runOf s cid = some r) :
    RunsAs (s.ranOp cid op r o outs) cid (r.after op outs) := by
  refine RunsAs.putTemps _ _ _ ?_
  obtain ⟨spilled, noted⟩ := s.noteReads_runs r op (opInputs r o)
  rw [runOf_cid h] at noted
  refine ⟨r.temps, r.spilledRead || spilled, ?_⟩
  have read : runOf ((s.noteReads r op (opInputs r o)).spend (2 ^ 48)) cid = runOf (s.noteReads r op (opInputs r o)) cid := rfl
  rw [runOf_modRun (by intro; rfl), read, runOf_of_runs noted, runOf_modRun (by intro; rfl), h]
  rfl

/-- Where the run is no step, its places and what its accesses wait for are those of the state before the operation. -/
theorem State.ranOp_placing {r : Run} (h : r.session = none) (cid op : Nat) (o : OpDesc) (outs : List TensorVal) (s : State) :
    (s.ranOp cid op r o outs).placing = (s.putTemps cid (opSite s cid op) r.graph.tensors outs).placing := by
  refine State.putTemps_placing_congr _ _ _ _ ?_
  rw [State.modRun_placing (by intro; rfl)]
  exact s.noteReads_placing h op _

theorem State.ranOp_reach {r : Run} (h : r.session = none) (cid op : Nat) (o : OpDesc) (outs : List TensorVal) (s : State) :
    (s.ranOp cid op r o outs).reach = s.reach :=
  (reach_of_placing (s.ranOp_placing h cid op o outs)).trans (s.putTemps_reach ..)

/-! ## The end of a run (R147, R148) -/

theorem State.settleRun_of_open {s : State} {cid : Nat} {r : Run} (h : runOf s cid = some r) (o : openOps r ≠ []) : s.settleRun cid = s := by
  have busy : (openOps r).isEmpty = false := by simpa using o
  unfold State.settleRun
  rw [h]
  exact if_pos (by simp [busy])

/-- What does not depend on the models is as before once epochs have settled. -/
theorem settleEpochs_view {β : Type} {v : State → β} (hv : ∀ (t : State) k f, v (t.modModel k f) = v t) (l : List Nat) (s : State) :
    v (l.foldl (fun t k => t.settleEpoch k) s) = v s := by
  refine foldl_view (fun t k => ?_) l s
  unfold State.settleEpoch
  dsimp only
  split
  · rfl
  · exact hv ..

@[simp] theorem State.dropRun_mem (cid : Nat) (s : State) : (s.dropRun cid).mem = s.mem := settleEpochs_view (by intros; rfl) ..

@[simp] theorem cmdAt_dropRun (cid : Nat) (s : State) : cmdAt (s.dropRun cid) cid = cmdAt s cid :=
  settleEpochs_view (v := (cmdAt · cid)) (by intros; rfl) ..

@[simp] theorem runOf_dropRun (cid : Nat) (s : State) : runOf (s.dropRun cid) cid = none := by
  refine (settleEpochs_view (v := (runOf · cid)) (by intros; rfl) ..).trans ?_
  simp [runOf, without]

theorem State.closeRun_of_plain {r : Run} (h : r.session = none) (st : Status) (source failed needed : Nat) (s : State) :
    s.closeRun r st source failed needed = (s.modCmd r.cid (runEnd s r st source failed needed)).dropRun r.cid := by
  simp [State.closeRun, sessionOf_of_none h]

theorem runEnd_cid (s : State) (r : Run) (st : Status) (source failed needed : Nat) (c : Cmd) :
    (runEnd s r st source failed needed c).cid = c.cid := by
  unfold runEnd
  dsimp only
  split
  · split <;> exact Cmd.finish_cid ..
  · exact Cmd.finish_cid ..

theorem runEnd_done {s : State} {r : Run} {c : Cmd} (sound : r.opsFailed = []) (live : c.done = none) (unmarked : c.marked = none) (st : Status)
    (source failed needed : Nat) : (runEnd s r st source failed needed c).done.map (·.status) = some st := by
  simp [runEnd, firstFailed, sound, Cmd.finish, live, unmarked]

theorem State.closeRun_endedAs {s : State} {r : Run} {c : Cmd} (plain : r.session = none) (sound : r.opsFailed = []) (live : Live s r.cid c)
    (st : Status) (source failed needed : Nat) : EndedAs (s.closeRun r st source failed needed) r.cid st := by
  obtain ⟨entry, done, unmarked⟩ := live
  rw [State.closeRun_of_plain plain, EndedAs, cmdAt_dropRun, cmdAt_modCmd _ _ _ (runEnd_cid _ _ _ _ _ _), entry]
  exact runEnd_done sound done unmarked st source failed needed

theorem State.closeRun_runOf (r : Run) (st : Status) (source failed needed : Nat) (s : State) :
    runOf (s.closeRun r st source failed needed) r.cid = none := runOf_dropRun ..

theorem State.closeRun_mem {r : Run} (plain : r.session = none) (st : Status) (source failed needed : Nat) (s : State) :
    (s.closeRun r st source failed needed).mem = s.mem := by
  rw [State.closeRun_of_plain plain, State.dropRun_mem, State.modCmd_mem]

/-- A run that is no step, has nothing left to run, no failure, no mark and no request, and whose outputs can be written, ends with them. -/
theorem State.settleRun_of_done {s : State} {cid : Nat} {r : Run} (h : runOf s cid = some r) (begun : r.begun = true) (done : openOps r = [])
    (sound : r.opsFailed = []) (idle : requestsOf s cid = []) (unmarked : (cmdAt s cid).bind (·.marked) = none)
    (flows : memWaits s (outputPieces s r) = false) (mapped : accessSource s none false (outputPieces s r) = none) (plain : r.session = none) :
    s.settleRun cid = (s.writeOutputs r).closeRun r (if r.spilledRead then .okSpilled else .ok) 0 0xFFFFFFFF 0 := by
  simp [State.settleRun, h, begun, done, idle, firstFailed, sound, unmarked, flows, mapped, sessionOf_of_none plain]

/-- Such a run's command ends with OK or OK_SPILLED, the run is gone, and memory holds its outputs. -/
theorem State.settleRun_ends {s : State} {r : Run} {c : Cmd} (h : runOf s r.cid = some r) (begun : r.begun = true) (done : openOps r = [])
    (sound : r.opsFailed = []) (idle : requestsOf s r.cid = []) (live : Live s r.cid c) (flows : memWaits s (outputPieces s r) = false)
    (mapped : accessSource s none false (outputPieces s r) = none) (plain : r.session = none) :
    (EndedAs (s.settleRun r.cid) r.cid .ok ∨ EndedAs (s.settleRun r.cid) r.cid .okSpilled) ∧ runOf (s.settleRun r.cid) r.cid = none
      ∧ (s.settleRun r.cid).mem.cells = (s.writeOutputs r).mem.cells := by
  obtain ⟨entry, open_, unmarked⟩ := live
  have written : Live (s.writeOutputs r) r.cid c := by
    have cmds : (s.writeOutputs r).host.cmds = s.host.cmds := (State.writeOutputs_frame r s).exact (by decide) (p := .cmds) (by decide)
    exact ⟨by rw [cmdAt, cmds]; exact entry, open_, unmarked⟩
  rw [State.settleRun_of_done h begun done sound idle (by rw [entry]; exact unmarked) flows mapped plain]
  refine ⟨?_, State.closeRun_runOf .., by rw [State.closeRun_mem plain]⟩
  have ended := fun st => State.closeRun_endedAs plain sound written st 0 0xFFFFFFFF 0
  split
  · exact .inr (ended _)
  · exact .inl (ended _)

/-! ## The row of an operation -/

/-- A row that runs an operation from u completes it as Table 5-5 and R144 say: the run keeps its outputs, and ends with its last one. -/
theorem computesFrom_of_runOp {s u : State} {row : Instr} {run op code : Nat} {f : OpEnv → List Operand → List TensorDesc → OpResult}
    (h : exec row s = .next (u.runOp run op code f)) : ComputesFrom s u row run op code f := by
  intro r o ins outs ready inputs result room
  obtain ⟨here, begun⟩ := opReady_run ready
  obtain rfl : r.cid = run := runOf_cid here
  obtain ⟨temps, spilled, kept⟩ := State.ranOp_runsAs (op := op) o outs here
  refine ⟨_, h.trans (congrArg _ (State.runOp_of_ok ready inputs result room)), fun more => ?_, fun c live last sound idle plain flows mapped => ?_⟩
  · rw [State.settleRun_of_open kept more, kept]
    rfl
  · have reach := u.ranOp_reach plain r.cid op o outs
    have pieces : outputPieces (u.ranOp r.cid op r o outs) r = outputPieces u r := outputPieces_of_reach reach r
    obtain ⟨ended, gone, cells⟩ := State.settleRun_ends (r := { r.after op outs with temps, spilledRead := spilled }) kept begun last sound
      ((requestsOf_of_reach reach _).trans idle) ⟨(cmdAt_of_reach reach _).trans live.1, live.2⟩
      (((memWaits_of_reach reach _).trans (congrArg _ pieces)).trans flows)
      (((accessSource_write_of_reach reach none _).trans (congrArg _ pieces)).trans mapped) plain
    exact ⟨ended, gone, cells.trans (State.writeOutputs_cells_congr (r.after op outs) (u.ranOp_placing plain r.cid op o outs))⟩

/-- A row that runs an operation of one output, and needs nothing from other modules, computes it. -/
theorem computes_of_runOp {row : Nat → Nat → Instr} {code : Nat} {f : OpEnv → List Operand → TensorDesc → OpResult}
    (h : ∀ run op s, exec (row run op) s = .next (s.runOp run op code (one f))) : Computes row code f :=
  fun s run op => computesFrom_of_runOp (h run op s)

end Sys2Proof.Machine
end
section
open Sys2Proof Sys2Proof.Machine

/-- Settles O17: each row runs its operation by `runOp`, whose outputs are kept and whose last operation ends the run (`computes_of_runOp`). -/
theorem reductionAndCopyOperationsComplete : Obligations.ReductionAndCopyOperationsComplete := by
  refine ⟨?sum, ?max, ?min, ?softmax, ?layernorm, ?rmsnorm, ?convert, ?transpose, ?reshape, ?slice, ?concat, ?gather⟩
  all_goals exact computes_of_runOp (by intros; rfl)

end
section
/-! The accumulator of Exact mode takes contributions in any order (R103): a contribution is a few effects, each of which moves the window up and
adds to a bin, or counts and sets flags, and any two of them commute. -/

set_option Elab.async false
namespace Sys2Proof.Machine

/-- A fold over a permuted list is the same where its steps commute in the states that it goes through. -/
theorem foldl_eq_of_perm {α β : Type} {f : β → α → β} {P : β → Prop} (keeps : ∀ b x, P b → P (f b x))
    (comm : ∀ b x y, P b → f (f b x) y = f (f b y) x) {l k : List α} (h : l.Perm k) {b : β} (hb : P b) : l.foldl f b = k.foldl f b := by
  induction h generalizing b with
  | nil => rfl
  | cons x _ ih => exact ih (keeps b x hb)
  | swap x y l => exact congrArg (l.foldl f) (comm b y x hb)
  | trans _ _ ih1 ih2 => exact (ih1 hb).trans (ih2 hb)

/-! ## Bins and residues (R101, R115) -/

theorem wrap64_add_wrap64 (a b : Int) : wrap64 (wrap64 a + b) = wrap64 (a + b) := Int.bmod_add_bmod ..

theorem mod255_add_mod255 (a b : Int) : mod255 (mod255 a + b) = mod255 (a + b) := by unfold mod255; omega

/-- Two pieces reach their bins in either order, also one bin. -/
theorem Acc.addBin_comm (d e : Nat) (v w : Int) (a : Acc) : (a.addBin d v).addBin e w = (a.addBin e w).addBin d v := by
  match d, e with
  | 0, 0 | 1, 1 | 2, 2 | 3, 3 => simp [Acc.addBin, wrap64_add_wrap64, mod255_add_mod255, add_right_comm]
  | 0, 1 | 0, 2 | 0, 3 | 1, 0 | 1, 2 | 1, 3 | 2, 0 | 2, 1 | 2, 3 | 3, 0 | 3, 1 | 3, 2 => rfl
  | 0, _ + 4 | 1, _ + 4 | 2, _ + 4 | 3, _ + 4 | _ + 4, _ => rfl

/-! ## The window (R102) -/

/-- Every bin one place further below the top; the lowest is discarded. -/
def Acc.sink (a : Acc) : Acc :=
  { a with bin0 := 0, bin1 := a.bin0, bin2 := a.bin1, bin3 := a.bin2, res0 := 0, res1 := a.res0, res2 := a.res1, res3 := a.res2 }

/-- A bin below the top sinks with its content. -/
theorem Acc.sink_addBin (d : Nat) (v : Int) (a : Acc) : (a.addBin d v).sink = a.sink.addBin (d + 1) v := by
  match d with
  | 0 | 1 | 2 | 3 | _ + 4 => rfl

theorem Acc.iterate_sink_addBin (n d : Nat) (v : Int) (a : Acc) : Acc.sink^[n] (a.addBin d v) = (Acc.sink^[n] a).addBin (d + n) v := by
  induction n with
  | zero => rfl
  | succ n ih => rw [Function.iterate_succ_apply', ih, Acc.sink_addBin, ← Function.iterate_succ_apply' Acc.sink, add_assoc]

/-- Four places below its bin nothing is left of the window. -/
theorem Acc.iterate_sink_of_four_le {n : Nat} (h : 4 ≤ n) (a : Acc) :
    Acc.sink^[n] a = { a with bin0 := 0, bin1 := 0, bin2 := 0, bin3 := 0, res0 := 0, res1 := 0, res2 := 0, res3 := 0 } := by
  obtain ⟨k, rfl⟩ := Nat.exists_eq_add_of_le' h
  rw [Function.iterate_add_apply]
  exact Function.iterate_fixed rfl k

/-- To move the window up is to let the bins sink below the new top. -/
theorem Acc.raise_of_top {a : Acc} {t : Nat} (h : a.top = some t) (j : Nat) :
    a.raise j = { Acc.sink^[j - t] a with top := some (max t j) } := by
  have higher {n : Nat} (e : j - t = n + 1) : max t j = j := max_eq_right (by omega)
  unfold Acc.raise
  rw [h]
  dsimp only
  match e : j - t with
  | 0 => rw [max_eq_left (by omega), ← h]; rfl
  | 1 | 2 | 3 => rw [higher e]; rfl
  | n + 4 => rw [higher e, Acc.iterate_sink_of_four_le (by omega)]; rfl

/-- A window that reaches a bin does not move up to it. -/
theorem Acc.raise_of_le {a : Acc} {t j : Nat} (h : a.top = some t) (le : j ≤ t) : a.raise j = a := by
  rw [Acc.raise_of_top h, Nat.sub_eq_zero_of_le le, max_eq_left le, ← h]
  rfl

theorem Acc.raise_of_none {a : Acc} (h : a.top = none) (j : Nat) : a.raise j = { a with top := some j } := by unfold Acc.raise; rw [h]

@[simp] theorem Acc.iterate_sink_top (n : Nat) (a : Acc) : (Acc.sink^[n] a).top = a.top := by
  induction n with
  | zero => rfl
  | succ n ih => rw [Function.iterate_succ_apply']; exact ih

theorem Acc.sink_withTop (t : Option Nat) (n : Nat) (a : Acc) : Acc.sink^[n] { a with top := t } = { Acc.sink^[n] a with top := t } := by
  induction n with
  | zero => rfl
  | succ n ih => rw [Function.iterate_succ_apply', ih, Function.iterate_succ_apply']; rfl

theorem Acc.raise_top (j : Nat) (a : Acc) : (a.raise j).top = some (max (a.top.getD j) j) := by
  cases h : a.top with
  | none => simp [Acc.raise_of_none h]
  | some t => simp [Acc.raise_of_top h]

@[simp] theorem Acc.addBin_top (d : Nat) (v : Int) (a : Acc) : (a.addBin d v).top = a.top := by
  match d with
  | 0 | 1 | 2 | 3 | _ + 4 => rfl

theorem Acc.addBin_withTop (t : Option Nat) (d : Nat) (v : Int) (a : Acc) : ({ a with top := t } : Acc).addBin d v = { a.addBin d v with top := t } := by
  match d with
  | 0 | 1 | 2 | 3 | _ + 4 => rfl

/-- A piece that is in its bin when the window moves up stands as many places lower. -/
theorem Acc.raise_addBin {a : Acc} {t : Nat} (h : a.top = some t) (k d : Nat) (v : Int) :
    (a.addBin d v).raise k = (a.raise k).addBin (d + (k - t)) v := by
  rw [Acc.raise_of_top ((Acc.addBin_top ..).trans h), Acc.raise_of_top h, Acc.iterate_sink_addBin]
  exact (Acc.addBin_withTop ..).symm

/-- An accumulator that has received no piece holds nothing that could sink. -/
def Acc.clear (a : Acc) : Prop := a.top = none → a.sink = a

theorem Acc.raise_comm {a : Acc} (clear : a.clear) (j k : Nat) : (a.raise j).raise k = (a.raise k).raise j := by
  cases h : a.top with
  | none =>
    have still (n : Nat) : Acc.sink^[n] a = a := Function.iterate_fixed (clear h) n
    simp only [Acc.raise_of_none h, Acc.raise_of_top (a := { a with top := some _ }) rfl, Acc.sink_withTop, still, max_comm]
  | some t =>
    have twice (j k : Nat) : (a.raise j).raise k = { Acc.sink^[max j k - t] a with top := some (max t (max j k)) } := by
      have sum : k - max t j + (j - t) = max j k - t := by omega
      rw [Acc.raise_of_top h, Acc.raise_of_top (t := max t j) rfl, Acc.sink_withTop, ← Function.iterate_add_apply, sum, max_assoc]
    rw [twice, twice, max_comm]

/-! ## One piece (R102, R103) -/

/-- The signed value of a piece. -/
def signed (neg : Bool) (p : Nat) : Int := if neg then -(p : Int) else p

/-- A piece moves the window up to its bin where it lies above, and is added there. -/
theorem Acc.piece_of_ne {p : Nat} (h : p ≠ 0) (j : Nat) (neg : Bool) (a : Acc) :
    a.piece j neg p = (a.raise j).addBin (max (a.top.getD j) j - j) (signed neg p) := by
  unfold Acc.piece
  rw [if_neg h]
  cases e : a.top with
  | none => dsimp only; rw [Acc.raise_top, e]; rfl
  | some t =>
    dsimp only
    split
    · rw [Acc.raise_top, e]; rfl
    next above =>
      have le : j ≤ t := not_lt.mp above
      rw [Acc.raise_of_le e le, e]
      dsimp only [Option.getD_some]
      rw [max_eq_left le]
      rfl

theorem Acc.piece_zero (j : Nat) (neg : Bool) (a : Acc) : a.piece j neg 0 = a := rfl

/-- Two pieces in turn: the window moves up to both, and each stands as far below the top as its bin does. -/
theorem Acc.piece_piece {p q : Nat} (hp : p ≠ 0) (hq : q ≠ 0) (j k : Nat) (m n : Bool) (a : Acc) :
    (a.piece j m p).piece k n q = (((a.raise j).raise k).addBin ((((a.raise j).raise k).top.getD 0) - j) (signed m p)).addBin
      ((((a.raise j).raise k).top.getD 0) - k) (signed n q) := by
  have top := Acc.raise_top j a
  have top' := Acc.raise_top k (a.raise j)
  have place : max (a.top.getD j) j - j + (k - max (a.top.getD j) j) = max (max (a.top.getD j) j) k - j := by omega
  rw [Acc.piece_of_ne hq, Acc.piece_of_ne hp, Acc.raise_addBin top, Acc.addBin_top, top', top]
  simp only [Option.getD_some, place]

theorem Acc.piece_comm {a : Acc} (clear : a.clear) (j k p q : Nat) (m n : Bool) :
    (a.piece j m p).piece k n q = (a.piece k n q).piece j m p := by
  by_cases hp : p = 0
  · rw [hp, Acc.piece_zero, Acc.piece_zero]
  by_cases hq : q = 0
  · rw [hq, Acc.piece_zero, Acc.piece_zero]
  rw [Acc.piece_piece hp hq, Acc.piece_piece hq hp, Acc.raise_comm clear, Acc.addBin_comm]

theorem Acc.clear_piece {a : Acc} (clear : a.clear) (j : Nat) (neg : Bool) (p : Nat) : (a.piece j neg p).clear := by
  by_cases hp : p = 0
  · rwa [hp]
  · intro unset
    rw [Acc.piece_of_ne hp, Acc.addBin_top, Acc.raise_top] at unset
    cases unset

/-! ## Counts and flags (R104, R105) -/

/-- Contributions counted, and flags set. -/
def Acc.tally (n : Nat) (x y z : Bool) (a : Acc) : Acc :=
  { a with count := a.count + n, nan := a.nan || x, posInf := a.posInf || y, negInf := a.negInf || z }

theorem Acc.raise_tally (j n : Nat) (x y z : Bool) (a : Acc) : (a.tally n x y z).raise j = (a.raise j).tally n x y z := by
  unfold Acc.raise
  cases h : a.top with
  | none => simp [Acc.tally, h]
  | some t =>
    have top : (a.tally n x y z).top = some t := h
    rw [top]
    dsimp only
    split <;> rfl

theorem Acc.addBin_tally (d n : Nat) (v : Int) (x y z : Bool) (a : Acc) : (a.tally n x y z).addBin d v = (a.addBin d v).tally n x y z := by
  match d with
  | 0 | 1 | 2 | 3 | _ + 4 => rfl

theorem Acc.piece_tally (j p n : Nat) (neg x y z : Bool) (a : Acc) : (a.tally n x y z).piece j neg p = (a.piece j neg p).tally n x y z := by
  by_cases hp : p = 0
  · rw [hp, Acc.piece_zero, Acc.piece_zero]
  · have top : (a.tally n x y z).top = a.top := rfl
    rw [Acc.piece_of_ne hp, Acc.piece_of_ne hp, Acc.raise_tally, Acc.addBin_tally, top]

/-! ## A contribution as effects -/

/-- What a contribution does to an accumulator, piece by piece. -/
inductive Effect where
  | piece (j : Nat) (neg : Bool) (p : Nat)
  | tally (n : Nat) (x y z : Bool)

/-- The accumulator after an effect. -/
def Effect.on : Effect → Acc → Acc
  | .piece j neg p => Acc.piece j neg p
  | .tally n x y z => Acc.tally n x y z

theorem Effect.on_clear (e : Effect) {a : Acc} (h : a.clear) : (e.on a).clear := by
  cases e with
  | piece j neg p => exact Acc.clear_piece h j neg p
  | tally n x y z => exact fun unset => congrArg (Acc.tally n x y z) (h unset)

theorem Effect.on_comm (e f : Effect) {a : Acc} (h : a.clear) : f.on (e.on a) = e.on (f.on a) := by
  match e, f with
  | .piece .., .piece .. => exact Acc.piece_comm h ..
  | .piece .., .tally .. => exact (Acc.piece_tally ..).symm
  | .tally .., .piece .. => exact Acc.piece_tally ..
  | .tally .., .tally .. => simp [Effect.on, Acc.tally, add_right_comm, Bool.or_right_comm]

/-- The effects of a contribution, in the order of the pseudocode of R102. -/
def effects : Num → List Effect
  | .fin neg m e =>
    if m = 0 then []
    else
      let j0 := (e + 1088).toNat / 32
      let x := m * 2 ^ ((e + 1088).toNat % 32)
      [.piece (j0 + 3) neg (bits 127 96 x), .piece (j0 + 2) neg (bits 95 64 x), .piece (j0 + 1) neg (bits 63 32 x), .piece j0 neg (bits 31 0 x),
        .tally 1 false false false]
  | .nan => [.tally 0 true false false]
  | .inf false => [.tally 0 false true false]
  | .inf true => [.tally 0 false false true]

/-- A contribution has its effects, one after the other. -/
theorem Acc.add_eq_effects (x : Num) (a : Acc) : a.add x = (effects x).foldl (fun a e => e.on a) a := by
  match x with
  | .nan | .inf false | .inf true => simp [Acc.add, Acc.mark, effects, Effect.on, Acc.tally]
  | .fin neg m e =>
    unfold Acc.add Acc.deposit effects
    dsimp only
    split
    · rfl
    · simp [Effect.on, Acc.tally]

theorem foldl_add_eq_effects (l : List Num) (a : Acc) :
    l.foldl (fun a x => a.add x) a = (l.flatMap effects).foldl (fun a e => e.on a) a := by
  simp only [Acc.add_eq_effects, List.foldl_flatMap]

end Sys2Proof.Machine
end
section
open Sys2Proof Sys2Proof.Machine

/-- Settles O58: the effects of permuted contributions are permuted, and effects commute in every accumulator that a fold from the empty one goes
through. -/
theorem contributionsInAnyOrder : Obligations.ContributionsInAnyOrder := by
  intro l k perm
  rw [foldl_add_eq_effects, foldl_add_eq_effects]
  exact foldl_eq_of_perm (P := Acc.clear) (fun _ e h => e.on_clear h) (fun _ e f h => e.on_comm f h) (perm.flatMap_right effects) (fun _ => rfl)

end

section
/-! The 48 bytes of a record (Table 4-2): each field reads back what was put there, and the whole passes the checks of a receiver (R109). -/

set_option Elab.async false
namespace Sys2Proof.Machine

/-! ## Numbers in bytes (R7) -/

@[simp] theorem leBytes_length (n v : Nat) : (leBytes n v).length = n := by
  induction n generalizing v with
  | zero => rfl
  | succ n ih => simp [leBytes, ih]

theorem leNat_leBytes {n v : Nat} (h : v < 256 ^ n) : leNat (leBytes n v) = v := by
  induction n generalizing v with
  | zero => simpa [leBytes, leNat, eq_comm] using h
  | succ n ih =>
    have rest : v / 256 < 256 ^ n := Nat.div_lt_of_lt_mul (by rwa [← pow_succ'])
    simp only [leBytes, leNat, ih rest, BitVec.toNat_ofNat]
    omega

theorem leBytes_zero (n : Nat) : leBytes n 0 = List.replicate n 0 := by
  induction n with
  | zero => rfl
  | succ n ih => rw [leBytes, Nat.zero_div, ih]; rfl

theorem ofSigned_lt (v : Int) : ofSigned 64 v < 256 ^ 8 := by unfold ofSigned; omega

theorem toSigned_ofSigned {v : Int} (h : -(2 ^ 63 : Int) ≤ v ∧ v < 2 ^ 63) : toSigned 64 (ofSigned 64 v) = v := by
  unfold toSigned ofSigned
  split <;> omega

/-! ## Fields of bytes laid end to end -/

theorem slice_leBytes_append_past {off k : Nat} (h : k ≤ off) (n v : Nat) (l : List Byte) :
    slice off n (leBytes k v ++ l) = slice (off - k) n l := by
  simp [slice, List.drop_append, List.drop_eq_nil_of_le, h]

theorem slice_leBytes_append (n v : Nat) (l : List Byte) : slice 0 n (leBytes n v ++ l) = leBytes n v := by
  simp [slice]

theorem slice_leBytes (n v : Nat) : slice 0 n (leBytes n v) = leBytes n v := by simp [slice, List.take_of_length_le]

/-- A field whose bytes are those of a number that fits reads as the number. -/
theorem field_of_slice {off n v : Nat} {l : List Byte} (h : slice off n l = leBytes n v) (fits : v < 256 ^ n) : field off n l = v := by
  rw [field, h, leNat_leBytes fits]

/-! ## Where the fields of a record are (Table 4-2) -/

namespace Acc
variable (a : Acc)

theorem bytes_length : a.bytes.length = 48 := by simp [Acc.bytes]

/-- The flag byte of a record. -/
def flagByte : Nat := bnat a.nan + 2 * bnat a.posInf + 4 * bnat a.negInf

theorem flagByte_lt : a.flagByte < 8 := by
  unfold flagByte
  cases a.nan <;> cases a.posInf <;> cases a.negInf <;> decide

theorem flagByte_bits : bit 0 a.flagByte = a.nan ∧ bit 1 a.flagByte = a.posInf ∧ bit 2 a.flagByte = a.negInf := by
  unfold flagByte
  cases a.nan <;> cases a.posInf <;> cases a.negInf <;> decide

theorem slice_bins : slice 0 8 a.bytes = leBytes 8 (ofSigned 64 a.bin0) ∧ slice 8 8 a.bytes = leBytes 8 (ofSigned 64 a.bin1)
    ∧ slice 16 8 a.bytes = leBytes 8 (ofSigned 64 a.bin2) ∧ slice 24 8 a.bytes = leBytes 8 (ofSigned 64 a.bin3) := by
  simp [Acc.bytes, slice_leBytes_append_past, slice_leBytes_append]

theorem slice_residues : slice 0x28 1 a.bytes = leBytes 1 a.res0 ∧ slice 0x29 1 a.bytes = leBytes 1 a.res1
    ∧ slice 0x2A 1 a.bytes = leBytes 1 a.res2 ∧ slice 0x2B 1 a.bytes = leBytes 1 a.res3 := by
  simp [Acc.bytes, slice_leBytes_append_past, slice_leBytes_append]

theorem slice_head : slice 0x20 1 a.bytes = leBytes 1 (a.top.getD 0xFF) ∧ slice 0x21 1 a.bytes = leBytes 1 a.flagByte
    ∧ slice 0x24 4 a.bytes = leBytes 4 a.count := by
  simp [Acc.bytes, flagByte, slice_leBytes_append_past, slice_leBytes_append]

theorem slice_reserved : slice 0x22 2 a.bytes = leBytes 2 0 ∧ slice 0x2C 4 a.bytes = leBytes 4 0 := by
  simp [Acc.bytes, slice_leBytes_append_past, slice_leBytes_append, slice_leBytes]

variable {a}

/-! ## Reading a record -/

theorem residue_lt (h : a.residuesOk = true) : a.res0 < 255 ∧ a.res1 < 255 ∧ a.res2 < 255 ∧ a.res3 < 255 := by
  have below (v : Int) : mod255 v < 255 := by unfold mod255; omega
  simp only [residuesOk, Bool.and_eq_true, beq_iff_eq] at h
  obtain ⟨⟨⟨h0, h1⟩, h2⟩, h3⟩ := h
  exact ⟨h0 ▸ below _, h1 ▸ below _, h2 ▸ below _, h3 ▸ below _⟩

/-- The head of a record: the top, the flags and the count. -/
theorem field_head (h : a.fits) : field 0x20 1 a.bytes = a.top.getD 0xFF ∧ field 0x21 1 a.bytes = a.flagByte ∧ field 0x24 4 a.bytes = a.count := by
  obtain ⟨top, flags, count⟩ := a.slice_head
  obtain ⟨-, topFits, -, countFits, -⟩ := h
  have topByte : a.top.getD 0xFF < 256 := by
    cases e : a.top with
    | none => decide
    | some t => have := topFits t e; simp; omega
  exact ⟨field_of_slice top topByte, field_of_slice flags (a.flagByte_lt.trans (by decide)), field_of_slice count countFits⟩

theorem field_residues (h : a.fits) : field 0x28 1 a.bytes = a.res0 ∧ field 0x29 1 a.bytes = a.res1 ∧ field 0x2A 1 a.bytes = a.res2
    ∧ field 0x2B 1 a.bytes = a.res3 := by
  obtain ⟨s0, s1, s2, s3⟩ := a.slice_residues
  obtain ⟨r0, r1, r2, r3⟩ := residue_lt h.1.1
  exact ⟨field_of_slice s0 (by omega), field_of_slice s1 (by omega), field_of_slice s2 (by omega), field_of_slice s3 (by omega)⟩

theorem signed_bins (h : a.fits) : toSigned 64 (field 0 8 a.bytes) = a.bin0 ∧ toSigned 64 (field 8 8 a.bytes) = a.bin1
    ∧ toSigned 64 (field 16 8 a.bytes) = a.bin2 ∧ toSigned 64 (field 24 8 a.bytes) = a.bin3 := by
  obtain ⟨s0, s1, s2, s3⟩ := a.slice_bins
  obtain ⟨-, -, -, -, bins⟩ := h
  rw [field_of_slice s0 (ofSigned_lt _), field_of_slice s1 (ofSigned_lt _), field_of_slice s2 (ofSigned_lt _), field_of_slice s3 (ofSigned_lt _)]
  exact ⟨toSigned_ofSigned (bins _ (by simp)), toSigned_ofSigned (bins _ (by simp)), toSigned_ofSigned (bins _ (by simp)),
    toSigned_ofSigned (bins _ (by simp))⟩

/-- The top of a record: 0xFF stands for an accumulator that has received no piece. -/
theorem top_of_getD (h : a.fits) : (if a.top.getD 0xFF = 0xFF then none else some (a.top.getD 0xFF)) = a.top := by
  obtain ⟨-, topFits, -⟩ := h
  cases e : a.top with
  | none => rfl
  | some t => have := topFits t e; exact if_neg (by simp; omega)

theorem accOf_bytes (h : a.fits) : accOf a.bytes = a := by
  obtain ⟨top, flags, count⟩ := field_head h
  obtain ⟨r0, r1, r2, r3⟩ := field_residues h
  obtain ⟨b0, b1, b2, b3⟩ := signed_bins h
  obtain ⟨nan, pos, neg⟩ := a.flagByte_bits
  simp only [accOf, top, flags, count, r0, r1, r2, r3, b0, b1, b2, b3, nan, pos, neg, top_of_getD h]

/-- A record of an accumulator that has received no piece is zero but for its top and its flags. -/
theorem zeroes_of_top_none (h : a.fits) (unset : a.top = none) :
    zeroes 0 32 a.bytes = true ∧ zeroes 0x28 4 a.bytes = true ∧ zeroes 0x24 4 a.bytes = true := by
  obtain ⟨⟨residues, bins⟩, -, counted, -⟩ := h
  obtain ⟨b0, b1, b2, b3⟩ := bins unset
  have count := counted unset
  simp only [residuesOk, b0, b1, b2, b3, Bool.and_eq_true, beq_iff_eq] at residues
  obtain ⟨⟨⟨r0, r1⟩, r2⟩, r3⟩ := residues
  have zero : mod255 0 = 0 := rfl
  have empty : ofSigned 64 0 = 0 := rfl
  simp [zeroes, slice, Acc.bytes, b0, b1, b2, b3, count, ← r0, ← r1, ← r2, ← r3, zero, empty, leBytes]

theorem recordOk_bytes (h : a.fits) : recordOk a.bytes = true := by
  obtain ⟨top, flags, count⟩ := field_head h
  have reserved : zeroes 0x22 2 a.bytes = true ∧ zeroes 0x2C 4 a.bytes = true := by
    simp [zeroes, a.slice_reserved, leBytes_zero]
  have inRange : (decide (a.top.getD 0xFF ≤ 66) || a.top.getD 0xFF == 0xFF) = true := by
    obtain ⟨-, topFits, -⟩ := h
    cases e : a.top with
    | none => rfl
    | some t => simp [topFits t e]
  have idle : (a.top.getD 0xFF != 0xFF || (zeroes 0 32 a.bytes && zeroes 0x28 4 a.bytes && zeroes 0x24 4 a.bytes)) = true := by
    cases e : a.top with
    | none =>
      obtain ⟨bins, residues, counted⟩ := zeroes_of_top_none h e
      rw [bins, residues, counted]; rfl
    | some t => obtain ⟨-, topFits, -⟩ := h; have := topFits t e; simp; omega
  simp only [recordOk, accOf_bytes h, bytes_length, top, flags, a.flagByte_lt, inRange, idle, h.1.1, reserved,
    beq_self_eq_true, decide_true, Bool.and_self]

end Acc

end Sys2Proof.Machine
end
section
open Sys2Proof Sys2Proof.Machine

/-- Settles O59: every field of a record reads back the number that was put there (`Acc.accOf_bytes`), and so its residues agree with its bins. -/
theorem recordsRoundTrip : Obligations.RecordsRoundTrip :=
  fun a fits => ⟨a.bytes_length, Acc.recordOk_bytes fits, Acc.accOf_bytes fits⟩

end

section
/-! A matrix product under each report of its residue lane (R114–R116, R130, R132), and the end of a run whose lowest operation has failed (R148). -/

set_option Elab.async false
namespace Sys2Proof.Machine

/-! ## What the residue lane makes of a product -/

/-- Where nothing counts that the lane reports, the product runs as any operation. -/
theorem State.runMatrix_of_clean {s : State} {cid op code : Nat} {residue : Residue} {f : OpEnv → List Operand → TensorDesc → OpResult}
    (h : injectedResidue s (cellOf s cid op).1 residue = .clean ∨ ∀ r o, opReady s cid op code = some (r, o) → opExact s r.graph o = false) :
    s.runMatrix cid op code residue f = s.runOp cid op code (one f) := by
  unfold State.runMatrix
  cases ready : opReady s cid op code with
  | none => simp [State.runOp, ready]
  | some p =>
    obtain ⟨r, o⟩ := p
    dsimp only
    split
    · rfl
    · rcases h with clean | fast
      · simp [clean]
      · simp [fast r o ready]

theorem State.runMatrix_of_retried {s : State} {cid op code : Nat} {residue : Residue} {f : OpEnv → List Operand → TensorDesc → OpResult} {r : Run}
    {o : OpDesc} {ins : List Operand} (ready : opReady s cid op code = some (r, o)) (exact : opExact s r.graph o = true)
    (inputs : fetchAll s r op (opInputs r o) = .ok ins) (seen : injectedResidue s (cellOf s cid op).1 residue = .retried) :
    s.runMatrix cid op code residue f = (s.capture [Sys2Proof.laneEvent s cid op 1 []]).runOp cid op code (one f) := by
  unfold opInputs at inputs
  simp [State.runMatrix, ready, inputs, exact, seen, Sys2Proof.laneEvent]

/-- A mismatch whose repeat did not match, or a failed piece check: the event of check `check`, and the operation has failed. -/
theorem State.runMatrix_of_suspect {s : State} {cid op code check : Nat} {residue : Residue} {f : OpEnv → List Operand → TensorDesc → OpResult} {r : Run}
    {o : OpDesc} {ins : List Operand} (ready : opReady s cid op code = some (r, o)) (exact : opExact s r.graph o = true)
    (inputs : fetchAll s r op (opInputs r o) = .ok ins)
    (seen : (injectedResidue s (cellOf s cid op).1 residue = .mismatch ∧ check = 2)
      ∨ (injectedResidue s (cellOf s cid op).1 residue = .pieceCheck ∧ check = 3)) :
    s.runMatrix cid op code residue f = (s.capture [Sys2Proof.laneEvent s cid op check [cid]]).opFailed cid op .resultSuspect
      (Sys2Proof.laneEvent s cid op check [cid]).source := by
  unfold opInputs at inputs
  obtain ⟨seen, rfl⟩ | ⟨seen, rfl⟩ := seen <;> simp [State.runMatrix, ready, inputs, exact, seen, Sys2Proof.laneEvent]

/-! ## Entries after a report -/

/-- The ends of the entries of the command table. -/
def cmdEnds (s : State) : List (Nat × Option Done) := s.host.cmds.map (fun c => (c.cid, c.done))

theorem done_of_cmdEnds {s t : State} (h : cmdEnds s = cmdEnds t) (cid : Nat) : (cmdAt s cid).map (·.done) = (cmdAt t cid).map (·.done) := by
  have found (u : State) : (cmdAt u cid).map (·.done) = ((cmdEnds u).find? (fun p => p.1 == cid)).map (·.2) := by
    simp [cmdAt, cmdEnds, List.find?_map, Function.comp_def]
  rw [found, found, h]

theorem cmdEnds_of_frame {ps : List Part} {s t : State} (h : Frame ps s t) (stop : Part.stop ∉ ps) (cmds : Part.cmds ∉ ps) : cmdEnds t = cmdEnds s := by
  have same : t.host.cmds = s.host.cmds := h.exact stop (p := .cmds) cmds
  rw [cmdEnds, same, cmdEnds]

theorem cmdEnds_markCmd (src cid : Nat) (s : State) : cmdEnds (s.markCmd src cid) = cmdEnds s := by
  simp only [cmdEnds, State.markCmd, State.modCmd, List.map_map]
  refine List.map_congr_left (fun c _ => ?_)
  dsimp only [Function.comp]
  split
  · split <;> rfl
  · rfl

/-- A mark ends no command (R489). -/
theorem cmdEnds_markEvents (evs : List FaultEvent) (s : State) : cmdEnds (s.markEvents evs) = cmdEnds s := by
  unfold State.markEvents
  split
  · rfl
  · refine foldl_view (fun t e => ?_) _ s
    split
    · exact foldl_view (fun u c => cmdEnds_markCmd _ c u) _ t
    · rfl

theorem cmdEnds_captureOnly (evs : List FaultEvent) (s : State) : cmdEnds (s.captureOnly evs) = cmdEnds s := by
  have marked (u : State) (l : List FaultEvent) : cmdEnds ((u.logEvents l).markEvents l) = cmdEnds u :=
    (cmdEnds_markEvents ..).trans (cmdEnds_of_frame (State.logEvents_frame ..) (by decide) (by decide))
  unfold State.captureOnly
  dsimp only
  split
  · exact (cmdEnds_of_frame (State.raiseCause_frame ..) (by decide) (by decide)).trans (marked ..)
  · exact marked ..

/-- An event that is no S3 ends no command. -/
theorem cmdEnds_capture_quiet {e : FaultEvent} (h : severityOf e.source ≠ 3) (s : State) : cmdEnds (s.capture [e]) = cmdEnds s := by
  have calm : [e].filter (fun e => severityOf e.source == 3) = [] := by simp [h]
  unfold State.capture
  rw [calm]
  exact cmdEnds_captureOnly ..

/-! ## The end of a run whose lowest operation has failed (R148) -/

theorem firstFailed_mem {r : Run} {y : Nat × Status × Nat} (h : firstFailed r = some y) : y ∈ r.opsFailed := by
  refine List.foldlRecOn (motive := fun m => ∀ y, m = some y → y ∈ r.opsFailed) r.opsFailed _ (fun _ h => by cases h)
    (fun m earlier x member y h => ?_) y h
  cases m with
  | none => cases h; exact member
  | some z =>
    dsimp only at h
    split at h
    · cases h; exact member
    · exact earlier y h

/-- An operation below every one that has failed is the first failed one. -/
theorem firstFailed_failing {r : Run} {op source : Nat} (h : ∀ x ∈ r.opsFailed, op < x.1) :
    firstFailed (r.failing op source) = some (op, .resultSuspect, source) := by
  simp only [firstFailed, Run.failing, List.foldl_append, List.foldl_cons, List.foldl_nil]
  split
  · rfl
  next y found =>
    exact if_pos (h y (firstFailed_mem found))

theorem firstFailed_failing_isSome (r : Run) (op source : Nat) : ∃ x, firstFailed (r.failing op source) = some x := by
  simp only [firstFailed, Run.failing, List.foldl_append, List.foldl_cons, List.foldl_nil]
  split
  · exact ⟨_, rfl⟩
  · split <;> exact ⟨_, rfl⟩

theorem State.settleRun_of_failed {s : State} {cid : Nat} {r : Run} {x : Nat × Status × Nat} (h : runOf s cid = some r) (begun : r.begun = true)
    (done : openOps r = []) (failed : firstFailed r = some x) : s.settleRun cid = s.closeRun r x.2.1 x.2.2 x.1 0 := by
  have lost : r.opsFailed.isEmpty = false := by
    cases e : r.opsFailed with
    | nil => simp [firstFailed, e] at failed
    | cons => rfl
  simp [State.settleRun, h, begun, done, failed, lost, State.closeFailed]

/-- A run that a suspect result ends gives its entry RESULT_SUSPECT, whether the operation or a mark comes first (R148, R352). -/
theorem runEnd_suspect {s : State} {r : Run} {c : Cmd} {i x : Nat} (failed : firstFailed r = some (i, .resultSuspect, x)) (open_ : c.done = none)
    (source named needed : Nat) : (runEnd s r .resultSuspect source named needed c).done.map (·.status) = some .resultSuspect := by
  unfold runEnd
  simp only [failed]
  split
  next first =>
    obtain ⟨src, marked⟩ := Option.isSome_iff_exists.mp (Bool.and_eq_true_iff.mp first).1
    simp [Cmd.finish, open_, marked]
  next => simp [Cmd.finish, open_]

theorem State.closeRun_suspect {s : State} {r : Run} {c : Cmd} {i x : Nat} (failed : firstFailed r = some (i, .resultSuspect, x))
    (entry : cmdAt s r.cid = some c) (open_ : c.done = none) (source named needed : Nat) :
    EndedAs (s.closeRun r .resultSuspect source named needed) r.cid .resultSuspect := by
  have left (t : State) (same : cmdAt t r.cid = some c) :
      EndedAs ((t.modCmd r.cid (runEnd t r .resultSuspect source named needed)).dropRun r.cid) r.cid .resultSuspect := by
    rw [EndedAs, cmdAt_dropRun, cmdAt_modCmd _ _ _ (runEnd_cid _ _ _ _ _ _), same]
    exact runEnd_suspect failed open_ source named needed
  unfold State.closeRun
  refine left _ ?_
  split <;> exact entry

/-! ## A product that fails -/

/-- The operation that the lane's event names has failed: its run keeps it as failed, and ends with RESULT_SUSPECT where nothing else can run. -/
theorem State.opFailed_suspect {s : State} {cid op : Nat} {r : Run} {e : FaultEvent} (here : runOf s cid = some r) (begun : r.begun = true)
    (calm : severityOf e.source ≠ 3) {t : State} (ht : t = (s.capture [e]).opFailed cid op .resultSuspect e.source) {q : Run}
    (hq : q = r.failing op e.source) :
    e.source ∈ t.flt.sticky ∧ (openOps q ≠ [] → (runOf t cid).map (·.opsFailed) = some q.opsFailed)
      ∧ (∀ c, Live s cid c → openOps q = [] → (∀ x ∈ r.opsFailed, op < x.1) → runOf t cid = none ∧ EndedAs t cid .resultSuspect) := by
  obtain rfl : r.cid = cid := runOf_cid here
  have runs : (s.capture [e]).runs = s.runs := (State.capture_quiet calm).exact (by decide) (p := .runs) (by decide)
  have failed : runOf ((s.capture [e]).modRun r.cid (Run.fail op .resultSuspect e.source)) r.cid = some q := by
    rw [runOf_modRun (by intro; rfl), runOf_of_runs runs, here, hq]; rfl
  have sticky : e.source ∈ ((s.capture [e]).modRun r.cid (Run.fail op .resultSuspect e.source)).flt.sticky :=
    State.mem_capture_sticky.mpr (.inr ⟨e, List.mem_singleton_self e, rfl⟩)
  have working : q.begun = true := hq ▸ begun
  unfold State.opFailed at ht
  by_cases more : openOps q = []
  · obtain ⟨x, first⟩ := firstFailed_failing_isSome r op e.source
    rw [← hq] at first
    have ends := State.settleRun_of_failed failed working more first
    refine ⟨?_, fun k => absurd more k, fun c live _ lowest => ?_⟩
    · rw [ht, ends, (State.closeRun_frame ..).flt_eq (by decide)]
      exact sticky
    · have first := firstFailed_failing (source := e.source) lowest
      rw [← hq] at first
      have same : q.cid = r.cid := hq ▸ rfl
      have entry := done_of_cmdEnds (cmdEnds_capture_quiet calm s) r.cid
      obtain ⟨at_, open_, -⟩ := live
      rw [at_, Option.map_some, open_, Option.map_eq_some_iff] at entry
      obtain ⟨d, found, unended⟩ := entry
      rw [ht, State.settleRun_of_failed failed working more first, ← same]
      exact ⟨State.closeRun_runOf .., State.closeRun_suspect first (same ▸ found) unended ..⟩
  · rw [ht, State.settleRun_of_open failed more]
    exact ⟨sticky, fun _ => by rw [failed]; rfl, fun c _ k => absurd k more⟩

/-- A row of the matrix unit computes its product under every report of the residue lane. -/
theorem matrixComputes_of_runMatrix {row : Nat → Nat → Residue → Instr} {code : Nat} {f : OpEnv → List Operand → TensorDesc → OpResult}
    (h : ∀ run op residue s, exec (row run op residue) s = .next (s.runMatrix run op code residue f)) : MatrixComputes row code f := by
  refine ⟨fun s run op residue clean => ?clean, fun s run op residue r o ins ready exact inputs seen => ?retried,
    fun s run op residue check r o ins q ready exact inputs seen failing => ?suspect⟩
  case clean => exact computesFrom_of_runOp ((h ..).trans (congrArg _ (State.runMatrix_of_clean clean)))
  case retried => exact computesFrom_of_runOp ((h ..).trans (congrArg _ (State.runMatrix_of_retried ready exact inputs seen)))
  case suspect =>
    obtain ⟨here, begun⟩ := opReady_run ready
    have calm : severityOf (laneEvent s run op check [run]).source ≠ 3 := by
      obtain ⟨-, rfl⟩ | ⟨-, rfl⟩ := seen <;> exact calm_src (by decide) (by decide)
    exact ⟨_, (h ..).trans (congrArg _ (State.runMatrix_of_suspect ready exact inputs seen)), State.opFailed_suspect here begun calm rfl failing⟩

end Sys2Proof.Machine
end
section
open Sys2Proof Sys2Proof.Machine

/-- Settles O15: each row is `runMatrix`, which runs the product as any operation, or lets it fail, as the residue lane reports. -/
theorem matrixOperationsComplete : Obligations.MatrixOperationsComplete :=
  ⟨matrixComputes_of_runMatrix (by intros; rfl), matrixComputes_of_runMatrix (by intros; rfl), matrixComputes_of_runMatrix (by intros; rfl)⟩

end

section
/-! Where a warp stands after an instruction: its launch, its cluster and its group, read back (R149, R183). -/

set_option Elab.async false
namespace Sys2Proof.Machine

/-- The first element that p finds among elements of which some have been changed, none of them in what p looks at. -/
theorem find?_map_ite {α : Type} {p : α → Bool} {q : α → Prop} [DecidablePred q] {f : α → α} (hf : ∀ y, p (f y) = p y)
    (hq : ∀ y, p y = true → q y) (l : List α) : (l.map (fun y => if q y then f y else y)).find? p = (l.find? p).map f := by
  induction l with
  | nil => rfl
  | cons y l ih =>
    have same : p (if q y then f y else y) = p y := by split <;> simp [hf]
    rw [List.map_cons, List.find?_cons, List.find?_cons, same]
    cases e : p y with
    | true => simp [hq y e]
    | false => exact ih

theorem launchOf_modLaunch {f : Launch → Launch} (hf : ∀ l, (f l).cid = l.cid) (s : State) (cid : Nat) :
    launchOf (s.modLaunch cid f) cid = (launchOf s cid).map f :=
  find?_map_ite (fun l => by simp [hf]) (fun _ h => by simpa using h) s.launches

/-- A warp that stands at an instruction is in its group, its cluster and its launch. -/
structure Stands (s : State) (x : KCtx) : Prop where
  launch : launchOf s x.ref.launch = some x.l
  cluster : x.l.clusters.find? (fun c => c.index == x.ref.cluster && c.started && !c.ended) = some x.c
  group : x.c.groups[x.ref.group]? = some x.g
  warp : x.g.warps[x.ref.warp]? = some x.w

theorem stands_of_warpCtx {s : State} {r : WarpRef} {x : KCtx} (h : warpCtx s r = some x) : x.ref = r ∧ Stands s x := by
  unfold warpCtx at h
  split at h
  next l c g w at_ =>
    split at h
    · cases h
    · obtain ⟨k, -, rfl⟩ := Option.map_eq_some_iff.mp h
      simp only [warpAt, Option.bind_eq_some_iff, Option.map_eq_some_iff, Prod.mk.injEq] at at_
      obtain ⟨_, launch, _, cluster, _, group, _, warp, rfl, rfl, rfl, rfl⟩ := at_
      exact ⟨rfl, launch, cluster, group, warp⟩
  · cases h

theorem Stands.of_launches {s t : State} {x : KCtx} (h : Stands s x) (same : t.launches = s.launches) : Stands t x :=
  ⟨by rw [launchOf, same]; exact h.launch, h.cluster, h.group, h.warp⟩

theorem getElem?_setAt {α : Type} {l : List α} {n : Nat} {a : α} (h : l[n]? = some a) (v : α) : (setAt l n v)[n]? = some v := by
  rw [setAt, modAt_eq_modify, List.getElem?_modify_eq, h]; rfl

/-- The cluster of an instruction with a group and the tile store written back. -/
def KCtx.cluster (x : KCtx) (w : Warp) (g : Group) (store : List Host.Cell) : Cluster :=
  { x.c with store, groups := setAt x.c.groups x.ref.group { g with warps := setAt g.warps x.ref.warp w } }

/-- A warp that is written back, with its group and the store of its cluster, is read so. -/
theorem warpAt_putWarp {s : State} {x : KCtx} (h : Stands s x) (w : Warp) {g : Group} (members : g.warps = x.g.warps) (store : List Host.Cell) :
    ∃ l, warpAt (s.putWarp x w g store) x.ref = some (l, x.cluster w g store, { g with warps := setAt g.warps x.ref.warp w }, w) := by
  rw [warpAt, State.putWarp, launchOf_modLaunch (by intro; rfl), h.launch]
  simp only [Option.map_some, Option.bind_some]
  rw [find?_map_ite (by intro; rfl) (fun c found => by simp only [Bool.and_eq_true, beq_iff_eq] at found; exact found.1.1), h.cluster]
  simp only [Option.map_some, Option.bind_some, getElem?_setAt h.group, getElem?_setAt (members ▸ h.warp)]
  exact ⟨_, rfl⟩

theorem warpIs_putWarp {s : State} {x : KCtx} {P : Warp → Group → Prop} (h : Stands s x) {w : Warp} {g : Group} (members : g.warps = x.g.warps)
    (store : List Host.Cell) (holds : P w { g with warps := setAt g.warps x.ref.warp w }) : WarpIs (s.putWarp x w g store) x.ref P := by
  obtain ⟨l, at_⟩ := warpAt_putWarp h w members store
  exact ⟨_, at_, holds⟩

theorem tileStoreIs_putWarp {s : State} {x : KCtx} (h : Stands s x) (w : Warp) {g : Group} (members : g.warps = x.g.warps) (store : List Host.Cell) :
    TileStoreIs (s.putWarp x w g store) x.ref store := by
  obtain ⟨l, at_⟩ := warpAt_putWarp h w members store
  rw [TileStoreIs, at_]
  rfl

/-- A change of a launch that leaves its clusters leaves its warps. -/
theorem warpIs_modLaunch {s : State} {r : WarpRef} {P : Warp → Group → Prop} {f : Launch → Launch} (h : WarpIs s r P) (cid : ∀ l, (f l).cid = l.cid)
    (clusters : ∀ l, (f l).clusters = l.clusters) : WarpIs (s.modLaunch r.launch f) r P := by
  obtain ⟨⟨l, c, g, w⟩, at_, holds⟩ := h
  refine ⟨(f l, c, g, w), ?_, holds⟩
  simp only [warpAt, Option.bind_eq_some_iff, Option.map_eq_some_iff, Prod.mk.injEq] at at_
  obtain ⟨_, launch, _, cluster, _, group, _, warp, rfl, rfl, rfl, rfl⟩ := at_
  simp [warpAt, launchOf_modLaunch cid, launch, clusters, cluster, group, warp]

/-- A tile within the limit of R104 is kept, and the warp goes on. -/
theorem warpIs_putTile {s : State} {x : KCtx} (h : Stands s x) {u : AccTile} (within : u.within) :
    WarpIs (s.putTile x u) x.ref (fun w g => w = x.w.next ∧ g.tiles = setTile u x.g.tiles) := by
  unfold AccTile.within at within
  unfold State.putTile
  rw [within, if_neg Bool.false_ne_true]
  refine warpIs_modLaunch (warpIs_putWarp h ?_ _ ?_) (fun _ => rfl) (fun _ => rfl)
  · rfl
  · exact ⟨rfl, rfl⟩

/-! ## An instruction that some threads execute -/

/-- A row acts where its warp stands at its operation and some threads execute it. -/
theorem State.kernel_of_issues {s : State} {r : WarpRef} {o : KOp} {x : KCtx} (h : Issues s r o x) (f : KCtx → Unit → State) :
    s.kernel r (isOp o) f = f x () := by
  obtain ⟨at_, op, lanes⟩ := h
  simp [State.kernel, at_, isOp, op, lanes]

/-- What an instruction's meaning leaves is what its row answers. -/
theorem answers_of_kernel {s : State} {r : WarpRef} {o : KOp} {x : KCtx} {c : Instr} {P : State → Prop} {f : KCtx → Unit → State} (h : Issues s r o x)
    (row : exec c s = .next (s.kernel r (isOp o) f)) (holds : P (f x ())) : Answers c s P :=
  ⟨_, row.trans (congrArg _ (State.kernel_of_issues h f)), holds⟩

theorem stands_of_issues {s : State} {r : WarpRef} {o : KOp} {x : KCtx} (h : Issues s r o x) : x.ref = r ∧ Stands s x := stands_of_warpCtx h.1

/-! ## Reports on the way (R115, R116) -/

theorem State.laneEvent_launches {chk : Nat} (hk : chk < 64) (calm : severityOf (1 * 4096 + chk) ≠ 3) (x : KCtx) (touched : List Nat) (s : State) :
    (s.laneEvent x chk touched).launches = s.launches :=
  (State.laneEvent_quiet hk calm).exact (by decide) (p := .launches) (by decide)

theorem State.recordEvent_launches (x : KCtx) (s : State) : (s.recordEvent x).launches = s.launches :=
  State.laneEvent_launches (by decide) (by decide) ..

theorem State.residueEvents_launches (x : KCtx) (residue : Residue) (s : State) : (s.residueEvents x residue).1.launches = s.launches :=
  (State.residueEvents_frame ..).exact (by decide) (p := .launches) (by decide)

/-- The element that a step discards is the one that its lane's report costs (R116). -/
theorem State.residueEvents_skip (x : KCtx) (residue : Residue) (s : State) :
    (s.residueEvents x residue).2 = skippedElement s (injectedResidue s (x.physical s).1 residue) := by
  unfold State.residueEvents
  cases injectedResidue s (x.physical s).1 residue <;> rfl

/-- What the lane of a step reports leaves the launches: an Exact step's events, or nothing in the fast form. -/
theorem laneReport_launches (exact : Bool) (x : KCtx) (residue : Residue) (s : State) :
    (if exact = true then s.residueEvents x residue else (s, none)).1.launches = s.launches := by
  split
  · exact State.residueEvents_launches ..
  · rfl

theorem laneReport_skip (exact : Bool) (x : KCtx) (residue : Residue) (s : State) :
    (if exact = true then s.residueEvents x residue else (s, none)).2
      = if exact = true then skippedElement s (injectedResidue s (x.physical s).1 residue) else none := by
  split
  · exact State.residueEvents_skip ..
  · rfl

theorem freshTile_within (base : Nat) (exact : Bool) : (freshTile base exact).within := by
  cases exact with
  | false => rfl
  | true =>
    refine List.any_eq_false.mpr (fun a member => ?_)
    rw [List.eq_of_mem_replicate (n := 1024) member]
    decide

/-! ## Bytes that an instruction stores (R168) -/

/-- Bytes stored in the cell store: the group keeps the tiles, and the warp goes on. -/
theorem warpIs_spaceWrite_cell {s : State} {x : KCtx} (h : Stands s x) (slot a : Nat) (l : List Byte) :
    WarpIs (s.spaceWrite x 0 slot [(a, l)] x.w.next) x.ref (fun w g => w = x.w.next ∧ g.tiles = x.g.tiles ∧ g.store = writeBytes x.g.store a l) :=
  warpIs_putWarp (g := { x.g with store := writeBytes x.g.store a l }) h rfl _ ⟨rfl, rfl, rfl⟩

/-- Bytes stored in the tile store: the group stays as it is, and the warp goes on. -/
theorem warpIs_spaceWrite_tile {s : State} {x : KCtx} (h : Stands s x) (slot a : Nat) (l : List Byte) :
    WarpIs (s.spaceWrite x 1 slot [(a, l)] x.w.next) x.ref (fun w g => w = x.w.next ∧ g.tiles = x.g.tiles)
      ∧ TileStoreIs (s.spaceWrite x 1 slot [(a, l)] x.w.next) x.ref (writeBytes x.c.store a l) :=
  ⟨warpIs_putWarp h rfl _ ⟨rfl, rfl⟩, tileStoreIs_putWarp h _ rfl _⟩

/-- Bytes stored in one of the two stores are there, and the warp goes on with its tiles. -/
theorem spaceWrite_stores {s : State} {x : KCtx} {space : Nat} (h : Stands s x) (local_ : space ≤ 1) (a : Nat) (l : List Byte) :
    WarpIs (s.spaceWrite x space 0 [(a, l)] x.w.next) x.ref (fun w g => w = x.w.next ∧ g.tiles = x.g.tiles
        ∧ (space = 0 → g.store = writeBytes x.g.store a l))
      ∧ (space = 1 → TileStoreIs (s.spaceWrite x space 0 [(a, l)] x.w.next) x.ref (writeBytes x.c.store a l)) := by
  obtain rfl | rfl : space = 0 ∨ space = 1 := by omega
  · obtain ⟨q, at_, warp, tiles, store⟩ := warpIs_spaceWrite_cell h 0 a l
    exact ⟨⟨q, at_, warp, tiles, fun _ => store⟩, fun tile => absurd tile (by decide)⟩
  · obtain ⟨⟨q, at_, warp, tiles⟩, store⟩ := warpIs_spaceWrite_tile h 0 a l
    exact ⟨⟨q, at_, warp, tiles, fun cell => absurd cell (by decide)⟩, fun _ => store⟩

end Sys2Proof.Machine
end
section
open Sys2Proof Sys2Proof.Machine

/-- Settles O27: under its hypotheses each row puts a tile or bytes back with its warp (`warpIs_putTile`, `warpIs_spaceWrite_cell`), and a report of the
lane on the way leaves the launches as they were. -/
theorem accumulatorInstructionsComplete : Obligations.AccumulatorInstructionsComplete := by
  refine ⟨?mma, ?accZero, ?accStore, ?accExport, ?accMerge, ?accDeposit⟩
  case mma =>
    intro s r x fa fb as bs tile residue seen u issues lanes hfa hfb base codeA codeB has hbs start form hseen hu within
    obtain ⟨rfl, stands⟩ := stands_of_issues issues
    subst hfa hfb has hbs hseen hu
    refine answers_of_kernel issues rfl ?_
    simp only [← form] at base start ⊢
    simp only [lanes, base, codeA, codeB, start, ne_eq, not_true_eq_false, Bool.true_eq_false, or_self, if_false, laneReport_skip]
    exact warpIs_putTile (stands.of_launches (laneReport_launches ..)) within
  case accZero =>
    intro s r x issues base
    obtain ⟨rfl, stands⟩ := stands_of_issues issues
    refine answers_of_kernel issues rfl ?_
    dsimp only
    rw [if_pos base]
    exact warpIs_putTile stands (freshTile_within ..)
  case accStore =>
    intro s r x tile issues at_ room
    obtain ⟨rfl, stands⟩ := stands_of_issues issues
    refine answers_of_kernel issues rfl ?_
    have reported : Stands (s.recordEvent x) x := stands.of_launches (State.recordEvent_launches x s)
    simp only [at_, if_neg (not_lt.mpr room)]
    split
    · exact warpIs_spaceWrite_cell reported ..
    · exact warpIs_spaceWrite_cell stands ..
  case accExport =>
    intro s r x tile issues at_ space room
    obtain ⟨rfl, stands⟩ := stands_of_issues issues
    refine answers_of_kernel issues rfl ?_
    simp only [at_, if_neg (not_lt.mpr room)]
    exact spaceWrite_stores stands space ..
  case accMerge =>
    intro s r x tile m issues at_ merged room within
    obtain ⟨rfl, stands⟩ := stands_of_issues issues
    subst merged
    refine answers_of_kernel issues rfl ?_
    simp only [at_, if_neg (not_lt.mpr room)]
    split
    · exact warpIs_putTile stands within
    · exact warpIs_putTile (stands.of_launches (State.recordEvent_launches x s)) within
  case accDeposit =>
    intro s r x tile l issues at_ exact deposited within
    obtain ⟨rfl, stands⟩ := stands_of_issues issues
    subst deposited
    refine answers_of_kernel issues rfl ?_
    simp only [at_, exact, Bool.not_true, Bool.false_eq_true, if_false] at within ⊢
    refine warpIs_putTile (stands.of_launches ?_) within
    split
    · exact State.laneEvent_launches (by decide) (by decide) ..
    · rfl

end
section
open Sys2Proof Sys2Proof.Machine

/-- Settles O16: each row runs its operation by `runOp`, which keeps its output and ends the run with its last operation
(`computes_of_runOp`). -/
theorem elementwiseOperationsComplete : Obligations.ElementwiseOperationsComplete := by
  refine ⟨?add, ?sub, ?mul, ?div, ?fma, ?max, ?min, ?abs, ?neg, ?exp, ?log, ?sqrt, ?rsqrt, ?tanh, ?sigmoid, ?gelu, ?silu, ?clamp⟩
  all_goals exact computes_of_runOp (by intros; rfl)

end
section
/-! The collectives of a run: what a row runs once the parts that it needs have come (R139-R141). -/

set_option Elab.async false
namespace Sys2Proof.Machine

/-- With a part of every other participant, a collective is reached and then runs on them (R139, R140). -/
theorem State.runCollective_of_all {s : State} {cid op : Nat} {r : Run} {parts : List (CollTag × List Byte)} (here : runOf s cid = some r)
    (all : (ownParts r op parts).length + 1 = r.modules.length) (code : Nat) (f : List (List Byte) → OpEnv → List Operand → TensorDesc → OpResult) :
    s.runCollective cid op code parts f = (s.sendParts cid op code).runOp cid op code (one (f (ownParts r op parts))) := by
  simp only [State.runCollective, here, all, if_true]

/-- A row that is a collective computes it from the parts of all other participants. -/
theorem computesFrom_of_runCollective {s : State} {row : Instr} {run op code : Nat} {parts : List (CollTag × List Byte)}
    {f : List (List Byte) → OpEnv → List Operand → TensorDesc → OpResult} {r : Run} (here : runOf s run = some r)
    (all : (ownParts r op parts).length + 1 = r.modules.length) (h : exec row s = .next (s.runCollective run op code parts f)) :
    ComputesFrom s (s.sendParts run op code) row run op code (one (f (ownParts r op parts))) :=
  computesFrom_of_runOp (h.trans (congrArg _ (State.runCollective_of_all here all code f)))

/-- The root of a BROADCAST needs no part (R141). -/
theorem exec_broadcast_of_root {s : State} {run op : Nat} {r : Run} (here : runOf s run = some r) (isroot : isRoot r op = true)
    (root : CollTag × List Byte) :
    exec (.broadcast run op root) s = .next ((s.sendParts run op 0x0603).runOp run op 0x0603 (one (opBroadcast []))) := by
  show execBroadcast run op root s = _
  simp only [execBroadcast, here, isroot]

/-- Another participant of a BROADCAST runs on what came under its triple (R140, R141). -/
theorem exec_broadcast_of_part {s : State} {run op : Nat} {r : Run} {root : CollTag × List Byte} {l : List Byte} (here : runOf s run = some r)
    (other : isRoot r op = false) (part : ownParts r op [root] = [l]) :
    exec (.broadcast run op root) s = .next ((s.sendParts run op 0x0603).runOp run op 0x0603 (one (opBroadcast l))) := by
  show execBroadcast run op root s = _
  simp only [execBroadcast, here, other, part]

end Sys2Proof.Machine
end
section
open Sys2Proof Sys2Proof.Machine

/-- Settles O18: a relational operation and FINALISE run as any other (`computes_of_runOp`); a collective is reached, sends its part and
then runs on what the other participants have sent (`computesFrom_of_runCollective`). -/
theorem relationalAndCollectiveOperationsComplete : Obligations.RelationalAndCollectiveOperationsComplete := by
  refine ⟨?partition, ?sort, ?join, ?similarity, ?filter, ?gatherRows, ?reduce, ?scatter, ?gather, ?root, ?part, ?finalise⟩
  case partition => exact fun s run op => computesFrom_of_runOp rfl
  case reduce => exact fun s run op parts r here all => computesFrom_of_runCollective here all rfl
  case scatter => exact fun s run op parts r here all => computesFrom_of_runCollective here all rfl
  case gather => exact fun s run op parts r here all => computesFrom_of_runCollective here all rfl
  case root => exact fun s run op root r here isroot => computesFrom_of_runOp (exec_broadcast_of_root here isroot root)
  case part => exact fun s run op root r l here other part => computesFrom_of_runOp (exec_broadcast_of_part here other part)
  case sort | join | similarity | filter | gatherRows | finalise => exact computes_of_runOp (by intros; rfl)

end
section
/-! What a plan of the Cellarer sets before it moves anything (R192, R193), which its later parts leave. -/

set_option Elab.async false
namespace Sys2Proof.Machine

/-- The count of a plan and its inputs (R192). -/
def State.planSet (s : State) : Nat × Nat × Nat × PlanLoads × Option Role × Role × Nat × Nat :=
  (s.cel.plan, s.cel.kvRate, s.cel.kvRead, s.cel.loads, s.cel.newRole, s.cel.moduleRole, s.cel.wMash, s.cel.wDraught)

theorem State.planSet_of_cel {s t : State} (h : t.cel = s.cel) : t.planSet = s.planSet := by rw [planSet, h, planSet]

@[simp] theorem State.request_cel (l : List Request) (s : State) : (s.request l).cel = s.cel :=
  (State.request_frame l s).exact (by decide) (p := .cel) (by decide)

@[simp] theorem State.requested_cel (l : List Request) (k : Nat) (s : State) : ((s.request l).spend k).cel = s.cel := State.request_cel l s

/-! ## Roles (R194-R202) -/

theorem makeMoves_cel (k : Nat) (w : Wanted) (acc : State × List Nat) : (makeMoves k w acc).1.cel = acc.1.cel :=
  (makeMoves_frame k w acc).exact (by decide) (p := .cel) (by decide)

theorem foldl_moveRole_cel (l : List Nat) (r : Role) (s : State) : (l.foldl (fun (u : State) k => u.moveRole k r) s).cel = s.cel :=
  foldl_view (v := State.cel) (fun t k => (State.moveRole_frame k r t).exact (by decide) (p := .cel) (by decide)) l s

@[simp] theorem State.planRoles_planSet (s : State) : s.planRoles.planSet = s.planSet := by
  unfold State.planRoles
  dsimp only
  split <;> simp only [State.planSet, makeMoves_cel, foldl_moveRole_cel]

/-! ## Blocks and leases (R210-R214) -/

theorem State.releaseLease_cel (l : HeldLease) (s : State) :
    (s.releaseLease l).cel = { s.cel with heldLeases := s.cel.heldLeases.erase l } := by
  unfold State.releaseLease
  dsimp only
  split
  · exact State.requested_cel ..
  · rfl

theorem State.releaseLease_planSet (l : HeldLease) (s : State) : (s.releaseLease l).planSet = s.planSet := by
  simp only [State.planSet, State.releaseLease_cel]

@[simp] theorem State.releaseOrphans_planSet (s : State) : s.releaseOrphans.planSet = s.planSet :=
  foldl_view (fun t l => State.releaseLease_planSet l t) _ s

theorem State.startMove_planSet (b : KvBlock) (dest : Place) (ext : Extent) (s : State) : (s.startMove b dest ext).planSet = s.planSet := by
  unfold State.startMove
  dsimp only
  split
  · exact (State.planSet_of_cel (State.requested_cel ..)).trans rfl
  · rfl

theorem State.takeLease_planSet (peer block : Nat) (s : State) : (s.takeLease peer block).planSet = s.planSet :=
  State.planSet_of_cel (State.requested_cel ..)

@[simp] theorem moveSome_planSet (ok : State → Bool) (dest : State → Option (Place × Extent)) (k : Nat) (l : List KvBlock) (s : State) :
    (moveSome ok dest k l s).planSet = s.planSet := by
  induction k generalizing l s with
  | zero => rw [moveSome]
  | succ k ih =>
    cases l with
    | nil => rw [moveSome]; exact Nat.succ_ne_zero k
    | cons b l =>
      rw [moveSome]
      split
      · rfl
      · split
        · rfl
        · dsimp only
          rw [ih, State.startMove_planSet]
          split
          · exact State.takeLease_planSet ..
          · rfl

@[simp] theorem State.planBlocks_planSet (s : State) : s.planBlocks.planSet = s.planSet := by
  unfold State.planBlocks
  simp only [apply_ite State.planSet, moveSome_planSet, State.releaseOrphans_planSet, ite_self]

/-! ## The plan -/

/-- In a module that is ready a plan keeps its count and inputs to its end (R193). -/
theorem execCellarerPlan_planSet {s : State} (ready : s.boot.ready = true) (loads : PlanLoads) :
    ∃ t, exec (.cellarerPlan loads) s = .next t ∧ t.planSet = (s.planInputs loads).planSet := by
  refine ⟨_, if_neg (by simp [ready]), ?_⟩
  have shared (u : State) : u.setShare.planSet = u.planSet := rfl
  have streams (u : State) : u.assignStreams.planSet = u.planSet := rfl
  have reports (u : State) : u.keepReports.planSet = u.planSet := by rw [State.keepReports, State.planSet, State.planSet]
  rw [reports, State.planBlocks_planSet, shared, streams, State.planRoles_planSet]
  rfl

end Sys2Proof.Machine
end
section
/-! Where the Cellarer puts a unit (R199), a block (R213), a stripe (R206, R207) and a spilled shard (R218). -/

set_option Elab.async false
namespace Sys2Proof.Machine

/-! ## Accesses to memory -/

@[simp] theorem State.touch_cel (write : Bool) (l : List Extent) (s : State) : (s.touch write l).cel = s.cel :=
  (State.touch_frame write l s).exact (by decide) (p := .cel) (by decide)

@[simp] theorem State.touch_tiles (write : Bool) (l : List Extent) (s : State) : (s.touch write l).tiles = s.tiles :=
  (State.touch_frame write l s).exact (by decide) (p := .tiles) (by decide)

@[simp] theorem State.touch_cells (write : Bool) (l : List Extent) (s : State) : (s.touch write l).mem.cells = s.mem.cells :=
  (congrArg (fun u : State => u.mem.cells) (State.touch_placing write l s) :)

@[simp] theorem State.overwrite_cel (l : List Extent) (s : State) : (s.overwrite l).cel = s.cel := State.touch_cel ..

@[simp] theorem State.overwrite_models (l : List Extent) (s : State) : (s.overwrite l).models = s.models :=
  (State.overwrite_frame l s).exact (by decide) (p := .models) (by decide)

@[simp] theorem State.touch_models (write : Bool) (l : List Extent) (s : State) : (s.touch write l).models = s.models :=
  (State.touch_frame write l s).exact (by decide) (p := .models) (by decide)

@[simp] theorem State.writeMem_models (l : List Extent) (v : List Byte) (s : State) : (s.writeMem l v).models = s.models :=
  State.overwrite_models ..

@[simp] theorem State.writeMem_cells (l : List Extent) (v : List Byte) (s : State) :
    (s.writeMem l v).mem.cells = writePieces s.mem.cells l v := State.touch_cells ..

/-! ## Work units (R144, R199, R464) -/

theorem foldl_noteRun_cel (n cid q : Nat) (l : List Nat) (s : State) :
    (l.foldl (fun (t : State) k => t.modTile n (Tile.noteRun k cid q)) s).cel = s.cel :=
  foldl_view (v := State.cel) (by intros; rfl) l s

theorem foldl_noteRun_tiles_length (n cid q : Nat) (l : List Nat) (s : State) :
    (l.foldl (fun (t : State) k => t.modTile n (Tile.noteRun k cid q)) s).tiles.length = s.tiles.length :=
  foldl_view (v := fun t : State => t.tiles.length) (by intros; exact State.modTile_tiles_length ..) l s

/-- A unit that a row finds by its number is one of the queue and has that number. -/
theorem mem_units_of_queued {s : State} {p : WorkUnit → Bool} {unit : Nat} {u : WorkUnit}
    (queued : s.cel.units.find? (fun u => u.id == unit && p u) = some u) : u ∈ s.cel.units ∧ u.id = unit := by
  have named := List.find?_some queued
  simp only [Bool.and_eq_true, beq_iff_eq] at named
  exact ⟨List.mem_of_find?_eq_some queued, named.1⟩

/-- A queued unit whose tile is chosen goes there with its cells, and a tile without work begins from rate zero (R199, R464; log 89). -/
theorem execWorkUnitAssign_assigns {s : State} {unit n : Nat} {loads : List Nat} {u : WorkUnit}
    (queued : s.cel.units.find? (fun u => u.id == unit && u.site.isNone && workBegun s u.cid && !selftestRunning s) = some u)
    (tile : chooseTile s (unitNow s u) loads = some n) (flows : memWaitsBy s (some n) (clusterImage s u.cid u.op) = false)
    (mapped : accessSource s (some n) true (clusterImage s u.cid u.op) = none) :
    Answers (.workUnitAssign unit loads) s (fun t => t.cel.units = s.cel.units.map (fun x =>
        if x.id = unit then { x with site := some n, cells := unitCells s u n } else x)
      ∧ (n < s.tiles.length → s.cel.units.any (fun x => x.site == some n) = false → (tileAt t n).thermal.issueRate = 0)) := by
  show ∃ t, execWorkUnitAssign unit loads s = .next t ∧ _
  have placed (v : State) (l : List Extent) (cells : List Nat) : ((v.touch false l).placeCluster u.cid u.op n cells).cel = v.cel := State.touch_cel ..
  have tileKept (v : State) (l : List Extent) (cells : List Nat) :
      tileAt ((v.touch false l).placeCluster u.cid u.op n cells) n = tileAt v n :=
    congrArg (fun l : List Tile => l.getD n (Tile.reset n)) (State.touch_tiles ..)
  have rateKept (v : State) (f : Tile → Tile) : (v.modTile n f).cel = v.cel := rfl
  simp only [execWorkUnitAssign, queued, tile, flows, mapped, Bool.false_eq_true, if_false]
  refine ⟨_, rfl, ?units, fun there idle => ?rate⟩
  case units =>
    rw [placed, apply_ite State.cel, rateKept, ite_self]
    split
    · rw [foldl_noteRun_cel]
    · rfl
  case rate =>
    rw [tileKept, if_neg (Bool.eq_false_iff.mp idle), tileAt_modTile_same]
    split
    · rwa [foldl_noteRun_tiles_length]
    · exact there

/-! ## Block moves (R213) -/

/-- Leases that are given back leave every block and every move. -/
theorem State.tidyLeases_moves (block : Nat) (s : State) :
    ((s.tidyLeases block).cel.moves, (s.tidyLeases block).cel.blocks) = (s.cel.moves, s.cel.blocks) :=
  foldl_view (v := fun t : State => (t.cel.moves, t.cel.blocks)) (fun t l => by simp only [State.releaseLease_cel]) _ s

/-- The block that a copy was made of is where the copy is, and the move knows where it was (R213). -/
theorem execBlockMoveSwitch_switches {s : State} {move : Nat} {m : Move} {b : KvBlock}
    (moving : s.cel.moves.find? (fun m => m.id == move && !m.switched) = some m)
    (copied : (s.trans.requests ++ s.trans.waiting).any (fun q => q.cid.isNone && q.block == some m.block) = false)
    (block : s.cel.blocks.find? (fun b => b.id == m.block) = some b) (good : (movePieces b m).2.any (movedToBad s) = false)
    (flows : memWaits s ((movePieces b m).1 ++ (movePieces b m).2) = false) (read : accessSource s none true (movePieces b m).1 = none)
    (written : accessSource s none false (movePieces b m).2 = none) :
    Answers (.blockMoveSwitch move true) s (fun t =>
      t.cel.blocks = s.cel.blocks.map (fun x => if x.id = b.id then { x with place := m.dest, extent := m.destExtent } else x)
      ∧ ∃ q ∈ t.cel.moves, q.id = move ∧ q.switched = true ∧ q.oldPlace = b.place) := by
  show ∃ t, execBlockMoveSwitch move true s = .next t ∧ _
  have named := List.find?_some moving
  simp only [Bool.and_eq_true, beq_iff_eq] at named
  simp only [execBlockMoveSwitch, moving, copied, block, good, flows, read, written, Bool.false_eq_true, if_false, Option.orElse_none]
  refine ⟨_, rfl, by simp only [State.overwrite_cel, State.touch_cel], ?_⟩
  simp only [State.overwrite_cel, State.touch_cel]
  exact ⟨_, List.mem_map_of_mem (List.mem_of_find?_eq_some moving), by rw [if_pos named.1]; exact ⟨named.1, rfl, rfl⟩⟩

/-! ## Models that reload (R207, R239, R272) -/

theorem modelAt_modModel_same {s : State} {k : Nat} (h : k < s.models.length) (f : Model → Model) :
    modelAt (s.modModel k f) k = f (modelAt s k) := getD_modAt_same h f _

theorem State.replaceShard_models_length {model index epoch : Nat} {s t : State} (h : s.replaceShard model index epoch = some t) :
    t.models.length = s.models.length := by
  unfold State.replaceShard at h
  split at h
  · cases h; rfl
  · obtain ⟨l, -, rfl⟩ := Option.map_eq_some_iff.mp h
    rw [State.overwrite_models]
    exact modAt_length ..

theorem foldl_replaceShard_models_length {model : Nat} {l : List Shard} {s t : State}
    (h : l.foldl (fun acc x => acc.bind (State.replaceShard model x.index x.epoch)) (some s) = some t) : t.models.length = s.models.length := by
  refine List.foldlRecOn (motive := fun o : Option State => ∀ u, o = some u → u.models.length = s.models.length) l _
    (fun u e => by cases e; rfl) (fun o kept x _ u e => ?_) t h
  obtain ⟨v, here, placed⟩ := Option.bind_eq_some_iff.mp e
  exact (State.replaceShard_models_length placed).trans (kept v here)

/-- Once its lost shards are in their places, a model whose source can be read and whose memory need not wait is READY with them (R207). -/
theorem execStripeReloadDone_ready {s u : State} {model : Fin 64} (has : s.models.length = 64) (reloading : (modelAt s model).state = .reloading)
    (copies : ((modelAt s model).cxlCopySource && (modelAt s model).shards.any (fun x => x.lost && x.copyLost)) = false)
    (source : (if (modelAt s model).cxlCopySource then memWaits s (((modelAt s model).shards.filter (·.lost)).flatMap (·.cxlCopy))
      else !hostOpen s) = false)
    (placed : ((modelAt s model).shards.filter (·.lost)).foldl (fun acc x => acc.bind (State.replaceShard model x.index x.epoch)) (some s) = some u)
    (flows : memWaits s ((modelAt u model).shards.flatMap (·.stripes)) = false) :
    Answers (.stripeReloadDone model true) s (fun t => (modelAt t model).state = .ready ∧ (modelAt t model).shards = (modelAt u model).shards) := by
  have here : model.val < u.models.length := by rw [foldl_replaceShard_models_length placed, has]; exact model.isLt
  refine ⟨(u.modModel model (fun m => { m with state := .ready })).assignStreams, ?_, ?_⟩
  · show execStripeReloadDone model true s = _
    simp only [execStripeReloadDone, reloading, copies, source, placed, flows]
    simp
  · have ready : modelAt (u.modModel model (fun m => { m with state := .ready })).assignStreams model = { modelAt u model with state := .ready } :=
      modelAt_modModel_same here _
    exact ⟨by rw [ready], by rw [ready]⟩

/-- A source that does not verify makes the model FAILED (R239). -/
theorem execStripeReloadDone_failed {s : State} {model : Fin 64} (has : s.models.length = 64) (reloading : (modelAt s model).state = .reloading) :
    Answers (.stripeReloadDone model false) s (fun t => (modelAt t model).state = .failed) := by
  refine ⟨s.modModel model (fun m => { m with state := .failed }), ?_, ?_⟩
  · show execStripeReloadDone model false s = _
    simp [execStripeReloadDone, reloading]
  · exact congrArg Model.state (modelAt_modModel_same (by rw [has]; exact model.isLt) _)

/-! ## Spilled shards (R218) -/

/-- One of the next two spilled shards, read where it lies, is in a half of the staging area (R218). -/
theorem execShardPrefetch_stages {s : State} {model : Fin 64} {k : Nat} {x : Shard} (has : s.models.length = 64)
    (spilled : (modelAt s model).shards.find? (fun x => x.index == k && x.spilled && !x.lost && x.atPeer.isNone) = some x)
    (next : k ∈ nextSpilled (modelAt s model)) (fresh : ∀ p ∈ (modelAt s model).prefetched, p.1 ≠ k)
    (flows : memWaits s (x.stripes ++ stagingPieces (modelAt s model) (stagingHalf (modelAt s model)) x.data.length) = false) :
    Answers (.shardPrefetch model k) s (fun t => (k, stagingHalf (modelAt s model)) ∈ (modelAt t model).prefetched
      ∧ (modelAt t model).state = (modelAt s model).state
      ∧ t.mem.cells = writePieces s.mem.cells (stagingPieces (modelAt s model) (stagingHalf (modelAt s model)) x.data.length) x.data) := by
  have unread : (modelAt s model).prefetched.any (fun p => p.1 == k) = false := by simpa using fun a b h => fresh (a, b) h
  have waiting : (!(nextSpilled (modelAt s model)).contains k) = false := by simpa using next
  have there (l : List Extent) (u : State) (same : u.models = s.models) : model.val < (u.writeMem l x.data).models.length := by
    rw [State.writeMem_models, same, has]
    exact model.isLt
  show ∃ t, execShardPrefetch model k s = .next t ∧ _
  simp only [execShardPrefetch, spilled, waiting, unread, flows, Bool.or_self, Bool.false_eq_true, if_false]
  refine ⟨_, rfl, ?half, ?state, ?cells⟩
  case half =>
    rw [modelAt_modModel_same (there _ _ (State.touch_models ..))]
    exact List.mem_append_right _ (List.mem_singleton_self _)
  case state =>
    rw [modelAt_modModel_same (there _ _ (State.touch_models ..))]
    exact congrArg (fun l : List Model => (l.getD model Model.reset).state) ((State.writeMem_models ..).trans (State.touch_models ..))
  case cells => exact (State.writeMem_cells ..).trans (by rw [State.touch_cells])

end Sys2Proof.Machine
end
section
open Sys2Proof Sys2Proof.Machine

/-- Settles O23: a plan keeps the inputs that it begins with (`execCellarerPlan_planSet`); a unit, a block, a stripe and a shard are put where
the row of each says, and nothing that follows in the row moves them. -/
theorem cellarerRowsComplete : Obligations.CellarerRowsComplete := by
  refine ⟨?plan, ?notReady, ?assign, ?complete, ?switch, ?free, ?whole, ?reload, ?bad, ?prefetch⟩
  case plan =>
    intro s loads ready
    obtain ⟨t, next, set⟩ := execCellarerPlan_planSet ready loads
    simp only [State.planSet, State.planInputs, Prod.mk.injEq] at set
    obtain ⟨plan, kvRate, kvRead, kept, newRole, moduleRole, mash, draught⟩ := set
    refine ⟨t, next, plan, kvRate, kvRead, kept, newRole, moduleRole, fun later => ?_, fun first r ratio => ?_⟩
    · rw [mash, draught, if_neg later]
      exact ⟨rfl, rfl⟩
    · rw [mash, draught, if_pos first, ratio]
      exact ⟨rfl, rfl⟩
  case notReady =>
    intro s loads notReady
    exact ⟨s, if_pos notReady, rfl⟩
  case assign =>
    intro s unit loads u n queued tile flows mapped
    obtain ⟨t, next, units, rate⟩ := execWorkUnitAssign_assigns queued tile flows mapped
    obtain ⟨listed, named⟩ := mem_units_of_queued (p := fun u => u.site.isNone && workBegun s u.cid && !selftestRunning s)
      (by simpa only [Bool.and_assoc] using queued)
    refine ⟨t, next, ⟨{ u with site := some n, cells := unitCells s u n }, ?_, named, rfl, rfl, rfl⟩, rate⟩
    rw [units]
    exact List.mem_map.mpr ⟨u, listed, if_pos named⟩
  case complete =>
    intro s unit u placed done
    refine ⟨{ s with cel := { s.cel with units := without (fun x => x.id == unit) s.cel.units } }, ?_, rfl⟩
    show execWorkUnitComplete unit s = _
    simp only [execWorkUnitComplete, placed, done, if_true]
  case switch =>
    intro s move m b moving copied block good flows read written
    obtain ⟨t, next, blocks, moved⟩ := execBlockMoveSwitch_switches moving copied block good flows read written
    refine ⟨t, next, fun x listed named => ?_, by rw [blocks, List.length_map], moved⟩
    rw [blocks] at listed
    obtain ⟨y, -, rfl⟩ := List.mem_map.mp listed
    by_cases same : y.id = b.id
    · rw [if_pos same]
      exact ⟨rfl, rfl⟩
    · rw [if_neg same] at named
      exact absurd named same
  case free =>
    intro s move m moving unread
    refine ⟨(s.endMove move).tidyLeases m.block, ?_, ?_⟩
    · show execBlockMoveSourceFree move s = _
      simp only [execBlockMoveSourceFree, moving, unread, Bool.false_eq_true, if_false]
    · exact Prod.mk.inj (State.tidyLeases_moves m.block (s.endMove move))
  case whole =>
    intro s model has reloading whole source flows
    have none_lost : (modelAt s model).shards.filter (·.lost) = [] := by simpa using whole
    refine execStripeReloadDone_ready has reloading ?_ ?_ (by rw [none_lost]; rfl) flows
    · simpa using fun _ x listed lost => absurd lost (by simp [whole x listed])
    · rcases source with copy | open_
      · rw [if_pos copy, none_lost]
        rfl
      · rw [none_lost, open_]
        split <;> rfl
  case reload =>
    intro s model u has reloading copies source placed flows
    exact execStripeReloadDone_ready has reloading copies source placed flows
  case bad =>
    intro s model has reloading
    exact execStripeReloadDone_failed has reloading
  case prefetch =>
    intro s model k x has spilled next fresh flows
    exact execShardPrefetch_stages has spilled next fresh flows

end
section
/-! How a run is accepted and begins (R142-R146), and how it ends where a participant has not joined (R140, R148). -/

set_option Elab.async false
namespace Sys2Proof.Machine

/-! ## A command that may read host memory -/

/-- A command that may act, and may read, runs its body once check 5 lets it through, in whichever form it takes. -/
theorem commandReading_of_actsReading {s : State} {cid op : Nat} {c : Cmd} (h : ActsReading s cid op c) (reads : Bool)
    {check : Cmd → State → Option State} (passes : check c (s.startCmd cid) = none) (body : Cmd → State → State) :
    s.commandReading cid op reads check body = body c (s.startCmd cid) := by
  obtain ⟨acts, open_, free⟩ := h
  unfold State.commandReading
  split
  · exact acts.hostCommand (mayRead_of_open open_ _) free (.inr passes) body
  · rw [acts.command, passes, Option.getD_none]

/-- A command that acts ends as it is told to, where nothing else of its body has changed its entry. -/
theorem ended_finishCmd {s t : State} {cid op : Nat} {c : Cmd} (h : Acts s cid op c) (same : cmdAt t cid = cmdAt (s.startCmd cid) cid)
    (st : Status) (fields : List (Nat × Nat × Nat)) : Ended (t.finishCmd cid st fields) cid st (resultOf fields) := by
  rw [cmdAt_startCmd, h.entry] at same
  exact (ended_endCmd same h.live h.2).1

/-! ## GRAPH_LOAD (R120, R322) -/

/-- The state with a graph under its handle, and the generation that it took. -/
def State.keepGraph (i gen : Nat) (g : Graph) (s : State) : State := ({ s with graphs := s.graphs ++ [(i, gen, g)] } : State).noteGen 2 gen

/-- A binary that passes the checks is kept under the lowest free index (R120, R322). -/
theorem execGraphLoad_keeps {s : State} {cid : Nat} {c : Cmd} {image : List Byte} {g : Graph} {i : Nat} (acts : ActsReading s cid 0x30 c)
    (whole : image.length = c.arg 0x10 4) (good : checkGraph image = .good g) (free : freeIndex (s.graphs.map (·.1)) 1024 = some i) :
    exec (.graphLoad cid image) s = .next (((s.startCmd cid).keepGraph i (genOf s.graphGen i) g).finishCmd cid .ok
      [(0x14, 8, handleWord 2 (genOf s.graphGen i) i), (0x1C, 4, g.crc), (0x20, 4, 0xFFFFFFFF)]) := by
  obtain ⟨acts, open_, first⟩ := acts
  have free' : freeIndex ((s.startCmd cid).graphs.map (·.1)) 1024 = some i := free
  show execGraphLoad cid image s = _
  rw [execGraphLoad, acts.hostCommand (mayRead_of_open open_ _) first (.inr rfl), if_neg (not_not_intro whole), good]
  simp only [free']
  rfl

/-! ## The operations that can still run -/

/-- A run of which nothing has ended or failed has its first operation still to run. -/
theorem openOps_of_fresh {r : Run} (done : r.opsDone = []) (sound : r.opsFailed = []) (some_ : r.graph.ops ≠ []) : openOps r ≠ [] := by
  obtain ⟨n, count⟩ := Nat.exists_eq_succ_of_ne_zero (mt List.length_eq_zero_iff.mp some_)
  obtain ⟨o, first⟩ : ∃ o, r.graph.ops[0]? = some o := ⟨_, List.getElem?_eq_getElem (by omega)⟩
  unfold openOps
  dsimp only
  rw [count, List.range_succ_eq_map, List.foldl_cons]
  refine List.foldlRecOn (motive := fun acc : List Nat × List Nat => acc.2 ≠ []) _ _ ?first (fun acc kept i _ => ?later)
  case first => simp [first, done, sound]
  case later =>
    split
    · exact kept
    · split
      · exact kept
      · split
        · exact kept
        · exact List.append_ne_nil_of_right_ne_nil _ (List.cons_ne_nil _ _)

/-! ## A run that begins (R144, R146) -/

/-- What an operation of a run becomes does not look at whether the run has begun. -/
theorem runUnits_begun (s : State) (r : Run) (cid : Nat) (f : Run → Run) (role : Role) :
    runUnits (s.modRun cid f) { r with begun := true } role = runUnits s r role := rfl

theorem runOf_queueUnits (s : State) (cid k : Nat) (role : Role) : runOf (s.queueUnits k role) cid = runOf s cid :=
  runOf_of_runs ((State.queueUnits_frame k role s).exact (by decide) (p := .runs) (by decide)) cid

theorem State.queueUnits_units {s : State} {cid : Nat} {r : Run} (here : runOf s cid = some r) (role : Role) :
    (s.queueUnits cid role).cel.units = without (fun u => u.cid == cid) s.cel.units ++ runUnits s r role := by
  simp only [State.queueUnits, here]

/-- What a run that begins writes and sends leaves every run. -/
theorem State.writeAndRequest_runs (l : List Extent) (v : List Byte) (k : Nat) (q : List Request) (s : State) :
    (((s.writeMem l v).spend k).request q).runs = s.runs :=
  ((State.request_frame q _).exact (by decide) (p := .runs) (by decide)).trans
    ((State.writeMem_frame l v s).exact (by decide) (p := .runs) (by decide))

/-- It leaves the units that are queued. -/
theorem State.writeAndRequest_cel (l : List Extent) (v : List Byte) (k : Nat) (q : List Request) (s : State) :
    (((s.writeMem l v).spend k).request q).cel = s.cel :=
  (State.request_cel q _).trans ((State.writeMem_frame l v s).exact (by decide) (p := .cel) (by decide))

theorem State.beginRun_of_open {s : State} {cid : Nat} {r : Run} (here : runOf s cid = some r) (more : openOps r ≠ []) (role : Role) :
    runOf (s.beginRun cid role) cid = some { r with begun := true }
      ∧ (s.beginRun cid role).cel.units = without (fun u => u.cid == cid) s.cel.units ++ runUnits s r role := by
  have begun : runOf (s.modRun cid (fun q => { q with begun := true })) cid = some { r with begun := true } := by
    rw [runOf_modRun (by intro; rfl), here]
    rfl
  have written (l : List Extent) (v : List Byte) (k : Nat) (q : List Request) :
      runOf (((((s.modRun cid (fun q => { q with begun := true })).queueUnits cid role).writeMem l v).spend k).request q) cid
        = some { r with begun := true } := by
    rw [runOf_of_runs (State.writeAndRequest_runs ..), runOf_queueUnits, begun]
  simp only [State.beginRun, here]
  rw [State.settleRun_of_open (written ..) more]
  refine ⟨written .., ?_⟩
  rw [State.writeAndRequest_cel, State.queueUnits_units begun, runUnits_begun]
  rfl

/-- A run that need not wait begins (R146). -/
theorem State.tryBegin_of_free {s : State} {cid : Nat} {r : Run} (here : runOf s cid = some r) (fresh : r.begun = false)
    (free : runWaits s r = false) (role : Role) : s.tryBegin cid role = s.beginRun cid role := by
  simp [State.tryBegin, here, fresh, free]

/-- Whether an accepted run begins or waits, it is in the table as it was accepted. -/
theorem runOf_tryBegin {s : State} {cid : Nat} {r : Run} (here : runOf s cid = some r) (more : openOps r ≠ []) (role : Role) :
    ∃ begun, runOf (s.tryBegin cid role) cid = some { r with begun } := by
  simp only [State.tryBegin, here]
  split
  · exact ⟨r.begun, here⟩
  · exact ⟨true, (State.beginRun_of_open here more role).1⟩

/-! ## GRAPH_RUN (R142-R146) -/

/-- The run that an accepted GRAPH_RUN makes. -/
def graphRunOf (c : Cmd) (cid i : Nat) (g : Graph) (l : List Binding) (m : Option (Nat × Nat)) (rank : Nat) (ms : List Nat) : Run :=
  { newRun cid g l (BitVec.ofNat 64 (c.arg 0x18 8)) (BitVec.ofNat 32 (c.arg 0x20 4)) (c.arg 0x38 8) with
    graphIndex := some i, model := m.map (·.1), epoch := (m.map (·.2)).getD 0, rank, modules := ms }

theorem runOf_addRun {s : State} {r : Run} (new : runOf s r.cid = none) (role : Role) : runOf (s.addRun r role) r.cid = some r := by
  rw [State.addRun, runOf_queueUnits]
  unfold runOf at new ⊢
  simp [List.find?_append, new]

theorem runOf_settleHeld (s : State) (cid k : Nat) : runOf (s.settleHeld k) cid = runOf s cid :=
  runOf_of_runs ((State.settleHeld_frame k s).exact (by decide) (p := .runs) (by decide)) cid

/-- Check 5 lets a GRAPH_RUN through whose graph is live, free and not too much for its group (R146, R216, R324). -/
theorem graphRunStop_eq_none {s : State} {c : Cmd} {i gen : Nat} {g : Graph} (graph : graphHandle s (c.arg 8 8) = some (i, gen, g))
    (idle : selftestRunning s = false)
    (few : (s.runs.filter (fun r => r.graphIndex == some i)).length + waitingOn s 0x31 (c.arg 8 8) < 64)
    (light : overloaded s .mash = false) (ready : (g.tensors.any (fun t => t.kind == 4) && modelAway s (c.arg 0x10 8)) = false) :
    graphRunStop c s = none := by
  simp [graphRunStop, graph, idle, few, light, ready]

/-- A GRAPH_RUN whose checks pass is accepted (R142-R146). -/
theorem execGraphRun_accepts {s : State} {cid : Nat} {c : Cmd} {binds participants : List Byte} {i gen : Nat} {g : Graph} {l : List Binding}
    {m : Option (Nat × Nat)} {rank : Nat} {ms : List Nat} (acts : ActsReading s cid 0x31 c) (new : runOf s cid = none)
    (passes : graphRunStop c (s.startCmd cid) = none) (whole : binds.length = 16 * c.arg 0x24 4)
    (graph : graphHandle s (c.arg 8 8) = some (i, gen, g)) (model : runModel s g (c.arg 0x10 8) c.heldEpoch = .ok m)
    (bound : bindingsOf s g [] (c.arg 0x24 4) binds = some l)
    (members : (if c.arg 0x30 8 = 0 then some (0, [ownId s % 4096]) else participantsOf s g participants) = some (rank, ms))
    (free : bindsBusy (s.startCmd cid) cid l = false) :
    exec (.graphRun cid binds participants) s
      = .next ((((s.startCmd cid).addRun (graphRunOf c cid i g l m rank ms) .mash).tryBegin cid .mash).settleHeld cid) := by
  have graph' : graphHandle (s.startCmd cid) (c.arg 8 8) = some (i, gen, g) := graph
  have model' : runModel (s.startCmd cid) g (c.arg 0x10 8) c.heldEpoch = .ok m := model
  have bound' : bindingsOf (s.startCmd cid) g [] (c.arg 0x24 4) binds = some l := bound
  have members' : (if c.arg 0x30 8 = 0 then some (0, [ownId (s.startCmd cid) % 4096]) else participantsOf (s.startCmd cid) g participants)
    = some (rank, ms) := members
  show execGraphRun cid binds participants s = _
  simp only [execGraphRun, new]
  rw [commandReading_of_actsReading acts _ passes]
  simp only [whole, ne_eq, not_true_eq_false, if_false, graph', model', bound', members', free, Bool.false_eq_true]
  rfl

/-! ## A participant that has not joined (R140, R148) -/

/-- An operation below every one that has failed is the first failed one, whatever its status. -/
theorem firstFailed_fail {r : Run} {op : Nat} (h : ∀ x ∈ r.opsFailed, op < x.1) (st : Status) (source : Nat) :
    firstFailed (r.fail op st source) = some (op, st, source) := by
  simp only [firstFailed, Run.fail, List.foldl_append, List.foldl_cons, List.foldl_nil]
  split
  · rfl
  next y found => exact if_pos (h y (firstFailed_mem found))

/-- The entry of a run that ends is what `runEnd` makes of it. -/
theorem cmdAt_closeRun {s : State} {r : Run} {c : Cmd} (entry : cmdAt s r.cid = some c) (st : Status) (source failed needed : Nat) :
    ∃ u, cmdAt (s.closeRun r st source failed needed) r.cid = some (runEnd u r st source failed needed c) := by
  have left (t : State) (same : cmdAt t r.cid = some c) :
      ∃ u, cmdAt ((t.modCmd r.cid (runEnd t r st source failed needed)).dropRun r.cid) r.cid = some (runEnd u r st source failed needed c) := by
    rw [cmdAt_dropRun, cmdAt_modCmd _ _ _ (runEnd_cid _ _ _ _ _ _), same]
    exact ⟨t, rfl⟩
  refine left _ ?_
  split <;> exact entry

/-- An unmarked run ends as its first failed operation did (R148). -/
theorem runEnd_failed {s : State} {r : Run} {c : Cmd} {i x : Nat} {st : Status} (first : firstFailed r = some (i, st, x)) (open_ : c.done = none)
    (unmarked : c.marked = none) (status : Status) (source named needed : Nat) :
    (runEnd s r status source named needed c).done.map (·.status) = some st := by
  simp [runEnd, first, markFirst, unmarked, Cmd.finish, open_]

/-- A run that ends as its first failed operation did is gone, and its entry has the status of that operation (R148). -/
theorem State.closeFailed_ends {s : State} {r : Run} {c : Cmd} {i x : Nat} {st : Status} (first : firstFailed r = some (i, st, x))
    (live : Live s r.cid c) : runOf (s.closeFailed r) r.cid = none ∧ EndedAs (s.closeFailed r) r.cid st := by
  obtain ⟨entry, open_, unmarked⟩ := live
  simp only [State.closeFailed, first]
  obtain ⟨u, ended⟩ := cmdAt_closeRun entry st x i 0
  refine ⟨State.closeRun_runOf .., ?_⟩
  rw [EndedAs, ended]
  exact runEnd_failed first open_ unmarked ..

end Sys2Proof.Machine
end
section
open Sys2Proof Sys2Proof.Machine

/-- Settles O14: a graph that is checked is kept; a run that is accepted is in the table, begun or waiting (`runOf_tryBegin`); the operation
whose participant is missing decides how its run ends (`State.closeFailed_ends`); a record that arrives is merged into its element. -/
theorem graphCommandsComplete : Obligations.GraphCommandsComplete := by
  refine ⟨?load, ?accept, ?begin, ?missing, ?merge⟩
  case load =>
    intro s cid c image g i acts whole good free
    exact ⟨_, execGraphLoad_keeps acts whole good free, rfl, ended_finishCmd acts.1 rfl ..⟩
  case accept =>
    intro s cid c binds participants i gen g l m rank ms acts new whole graph model bound members idle unused few light ready some_
    have passes : graphRunStop c (s.startCmd cid) = none := graphRunStop_eq_none graph idle few light ready
    have added : runOf ((s.startCmd cid).addRun (graphRunOf c cid i g l m rank ms) .mash) cid = some (graphRunOf c cid i g l m rank ms) :=
      runOf_addRun new .mash
    obtain ⟨begun, kept⟩ := runOf_tryBegin added (openOps_of_fresh rfl rfl some_) .mash
    refine ⟨_, execGraphRun_accepts acts new passes whole graph model bound members unused, ?_, ?_⟩
    all_goals
      rw [runOf_settleHeld, kept]
      rfl
  case begin =>
    intro s cid binds participants r here fresh more free
    have next : exec (.graphRun cid binds participants) s = .next (s.tryBegin cid .mash) := by
      show execGraphRun cid binds participants s = _
      simp only [execGraphRun, here]
    obtain ⟨begun, units⟩ := State.beginRun_of_open here more .mash
    rw [State.tryBegin_of_free here fresh free] at next
    exact ⟨_, next, by rw [begun, Option.map_some], by rw [units, List.length_append]⟩
  case missing =>
    intro s cid c r op o live here begun last named reached missing lowest
    obtain rfl : r.cid = cid := runOf_cid here
    refine ⟨(s.closeFailed (r.fail op .peerAbsent 0)).dropRequests r.cid, ?_, ?_⟩
    · show execCollectiveJoinTimeout r.cid s = _
      simp [execCollectiveJoinTimeout, here, last, begun, List.contains_iff_mem.mp reached, named, missing]
    · exact State.closeFailed_ends (r := r.fail op .peerAbsent 0) (firstFailed_fail lowest .peerAbsent 0) live
  case merge =>
    intro s run op elem record r v a here partial_ element ok sound few calm
    show ∃ t, execRecordMerge run op elem record s = .next t ∧ _
    simp only [execRecordMerge, here, partial_, element, ok, sound, calm, if_neg (not_lt.mpr few), Bool.not_false, Bool.and_self, if_true]
    refine ⟨_, rfl, ?_⟩
    rw [runOf_modRun (by intro; rfl), here]
    rfl

end
section
/-! What the instructions of a warp leave (R149-R174): the warp written back, its threads lane by lane, and the barriers and ends that its cluster
settles. -/

set_option Elab.async false
namespace Sys2Proof.Machine

/-! ## Which threads an instruction reaches -/

/-- A warp that issues has not exited and waits at no barrier. -/
theorem running_of_warpCtx {s : State} {r : WarpRef} {x : KCtx} (h : warpCtx s r = some x) : x.w.exited = false ∧ x.w.waiting = none := by
  unfold warpCtx at h
  split at h
  next l c g w at_ =>
    split at h
    · cases h
    next going =>
      obtain ⟨k, -, rfl⟩ := Option.map_eq_some_iff.mp h
      simp only [Bool.or_eq_true, not_or, Bool.not_eq_true, Option.isSome_eq_false_iff, Option.isNone_iff_eq_none] at going
      exact ⟨going.1.1.2, going.1.2⟩
  · cases h

/-- A row acts where its warp stands at an operation that it selects and some threads execute it. -/
theorem State.kernel_of_selects {α : Type} {s : State} {r : WarpRef} {o : KOp} {x : KCtx} {sel : KOp → Option α} {a : α} (h : Issues s r o x)
    (chosen : sel o = some a) (f : KCtx → α → State) : s.kernel r sel f = f x a := by
  obtain ⟨at_, rfl, lanes⟩ := h
  simp [State.kernel, at_, chosen, lanes]

/-- As `answers_of_kernel`, for a row that selects more than one operation. -/
theorem answers_of_selects {α : Type} {s : State} {r : WarpRef} {o : KOp} {x : KCtx} {c : Instr} {P : State → Prop} {sel : KOp → Option α} {a : α}
    {f : KCtx → α → State} (h : Issues s r o x) (row : exec c s = .next (s.kernel r sel f)) (chosen : sel o = some a) (holds : P (f x a)) :
    Answers c s P := ⟨_, row.trans (congrArg _ (State.kernel_of_selects h chosen f)), holds⟩

/-- Where no thread executes an instruction the warp only moves on (Table 6-4). -/
theorem State.kernel_of_idle {α : Type} {s : State} {r : WarpRef} {x : KCtx} {sel : KOp → Option α} {a : α} (at_ : warpCtx s r = some x)
    (idle : x.lanes = []) (chosen : sel x.op = some a) (f : KCtx → α → State) : s.kernel r sel f = s.advance x x.w := by
  simp [State.kernel, at_, chosen, idle]

theorem warpIs_advance {s : State} {x : KCtx} {P : Warp → Group → Prop} (h : Stands s x) {w : Warp}
    (holds : P w.next { x.g with warps := setAt x.g.warps x.ref.warp w.next }) : WarpIs (s.advance x w) x.ref P :=
  warpIs_putWarp h rfl _ holds

/-- The row of an operation is the meaning of an instruction that selects it. -/
theorem kernel_of_rowOf {r : WarpRef} {o : KOp} {c : Instr} (h : RowOf r o c) (s : State) :
    ∃ (α : Type) (sel : KOp → Option α) (f : KCtx → α → State), exec c s = .next (s.kernel r sel f) ∧ (sel o).isSome = true := by
  rcases h with ⟨rfl, rfl⟩ | ⟨rfl, rfl⟩ | ⟨rfl, rfl⟩ | ⟨_, rfl, rfl⟩ | ⟨_, rfl, rfl⟩ | ⟨_, _, rfl, rfl⟩ | ⟨rfl, rfl⟩ | ⟨rfl, rfl⟩ | ⟨rfl, rfl⟩
    | ⟨_, _, rfl, rfl⟩ | ⟨_, rfl, rfl⟩ | ⟨_, rfl, rfl⟩ | ⟨rfl, rfl⟩ | ⟨rfl, rfl⟩ | ⟨rfl, rfl⟩ | ⟨rfl, rfl⟩ | ⟨rfl, rfl⟩ | ⟨rfl, rfl⟩ | ⟨rfl, rfl⟩ | ⟨rfl, rfl⟩
    | ⟨_, rfl, rfl⟩ | ⟨rfl, rfl⟩
  all_goals exact ⟨_, _, _, rfl, by simp [isOp]⟩

/-- A row that no thread executes: its warp goes on, its group's store and tiles and module memory stay. -/
theorem answers_of_idle {s : State} {r : WarpRef} {x : KCtx} {c : Instr} (at_ : warpCtx s r = some x) (idle : x.lanes = []) (row : RowOf r x.op c) :
    Answers c s (fun t => WarpIs t r (fun w g => w = x.w.next ∧ g.store = x.g.store ∧ g.tiles = x.g.tiles) ∧ t.mem = s.mem) := by
  obtain ⟨α, sel, f, meaning, selected⟩ := kernel_of_rowOf row s
  obtain ⟨a, chosen⟩ := Option.isSome_iff_exists.mp selected
  obtain ⟨rfl, stands⟩ := stands_of_warpCtx at_
  exact ⟨_, meaning.trans (congrArg _ (State.kernel_of_idle at_ idle chosen f)), warpIs_advance stands ⟨rfl, rfl, rfl⟩, rfl⟩

/-! ## Threads, lane by lane (R153) -/

/-- The warp goes on with the thread of each executing lane changed. -/
theorem stepped_each (x : KCtx) {f g : Nat → Thread → Thread} (same : ∀ k y, f k y = g k y) : Stepped x g (x.each f).next := by
  obtain rfl : f = g := funext fun k => funext (same k)
  refine ⟨rfl, by simp [Warp.next, KCtx.each], fun k inside => ?_⟩
  simp [Warp.next, KCtx.each, Warp.thread, List.getD_eq_getElem?_getD, inside]

/-- A row that changes the thread of each executing lane, and nothing else of the warp. -/
theorem answers_of_each {s : State} {r : WarpRef} {o : KOp} {x : KCtx} {c : Instr} {f : KCtx → Nat → Thread → Thread} {g : Nat → Thread → Thread}
    (h : Issues s r o x) (row : exec c s = .next (s.kernel r (isOp o) (fun x _ => s.advance x (x.each (f x))))) (same : ∀ k y, f x k y = g k y) :
    Answers c s (fun t => WarpIs t r (fun w _ => Stepped x g w)) := by
  obtain ⟨rfl, stands⟩ := stands_of_issues h
  exact answers_of_kernel h row (warpIs_advance stands (stepped_each x same))

/-- A row that moves its warp on. -/
theorem answers_of_next {s : State} {r : WarpRef} {o : KOp} {x : KCtx} {c : Instr} (h : Issues s r o x)
    (row : exec c s = .next (s.kernel r (isOp o) (fun x _ => s.advance x x.w))) :
    Answers c s (fun t => WarpIs t r (fun w _ => w = x.w.next)) := by
  obtain ⟨rfl, stands⟩ := stands_of_issues h
  exact answers_of_kernel h row (warpIs_advance stands rfl)

/-- Only a comparison gives a predicate (Table 6-5). -/
theorem fpLane_value {op : FpOp} (h : ∀ v, op ≠ .cmp v) (a b c : Nat) : ∃ v, fpLane op a b c = .value v := by
  cases op with
  | cmp v => exact absurd rfl (h v)
  | _ => exact ⟨_, rfl⟩

/-! ## Barriers and the end of a cluster (R157, R172, R173, R180) -/

/-- Where a path has no thread left the warp goes on elsewhere, or exits; it comes to no barrier by that. -/
theorem Warp.unwind_waiting (w : Warp) (l : List Diverged) : (w.unwind l).waiting = w.waiting := by
  induction l with
  | nil => rfl
  | cons d l ih =>
    simp only [Warp.unwind]
    split
    · split
      · rfl
      · split
        · rfl
        · exact ih
    · split
      · rfl
      · exact ih

/-- A warp among those of its group once the barriers whose count is reached have let theirs go. -/
def Warp.released (l : List Warp) (w : Warp) : Warp :=
  match w.waiting with
  | some (i, n) => if n ≤ arrivals l i then { w with waiting := none, pc := w.pc + 1 } else w
  | none => w

theorem releaseBarriers_eq (l : List Warp) : releaseBarriers l = l.map (Warp.released l) := rfl

theorem Warp.released_of_running {l : List Warp} {w : Warp} (h : w.waiting = none) : w.released l = w := by
  simp [Warp.released, h]

theorem Warp.released_of_reached {l : List Warp} {w : Warp} {i n : Nat} (h : w.waiting = some (i, n)) (reached : n ≤ arrivals l i) :
    w.released l = { w with waiting := none, pc := w.pc + 1 } := by
  simp [Warp.released, h, reached]

theorem Warp.released_of_waiting {l : List Warp} {w : Warp} {i n : Nat} (h : w.waiting = some (i, n)) (short : arrivals l i < n) :
    w.released l = w := by
  simp [Warp.released, h, not_le.mpr short]

theorem Warp.released_exited (l : List Warp) (w : Warp) : (w.released l).exited = w.exited := by
  unfold Warp.released; repeat' split
  all_goals rfl

theorem Warp.released_copies (l : List Warp) (w : Warp) : (w.released l).copies = w.copies := by
  unfold Warp.released; repeat' split
  all_goals rfl

theorem Warp.released_counters (l : List Warp) (w : Warp) : (w.released l).counters = w.counters := by
  unfold Warp.released; repeat' split
  all_goals rfl

/-- A cluster whose barriers have been looked at. -/
def Cluster.released (c : Cluster) : Cluster := { c with groups := c.groups.map (fun g => { g with warps := releaseBarriers g.warps }) }

/-- Whether a cluster's warps have all exited, with no copy in flight. -/
def Cluster.over (c : Cluster) : Bool := c.started && c.groups.all (fun g => g.warps.all (fun w => w.exited && w.copies.isEmpty))

/-- A cluster after its barriers have been looked at, and its end where it is over. -/
def Cluster.settled (c : Cluster) : Cluster :=
  if c.released.over then { c.released with ended := true, groups := [], store := [] } else c.released

/-- A cluster after those of an index have settled. -/
def Cluster.settledAt (index : Nat) (c : Cluster) : Cluster := if c.index ≠ index then c else c.settled

/-- A launch whose clusters of an index have settled. -/
def Launch.settledAt (index : Nat) (l : Launch) : Launch := { l with clusters := l.clusters.map (Cluster.settledAt index) }

theorem State.settleCluster_eq (cid index : Nat) (s : State) :
    s.settleCluster cid index = (s.modLaunch cid (Launch.settledAt index)).settleLaunch cid := rfl

theorem launchOf_settledAt (s : State) (cid index : Nat) :
    launchOf (s.modLaunch cid (Launch.settledAt index)) cid = (launchOf s cid).map (Launch.settledAt index) :=
  launchOf_modLaunch (f := Launch.settledAt index) (fun _ => rfl) s cid

/-- A cluster that a reference finds has its index, and has not ended. -/
theorem found_cluster {l : List Cluster} {i : Nat} {c : Cluster} (h : l.find? (fun c => c.index == i && c.started && !c.ended) = some c) :
    c.index = i ∧ c.ended = false := by
  have found := List.find?_some h
  simp only [Bool.and_eq_true, beq_iff_eq, Bool.not_eq_true'] at found
  exact ⟨found.1.1, found.2⟩

/-- The first element that p finds is found again after a change under which what p passes over is passed over still. -/
theorem find?_map_of_miss {α : Type} {p : α → Bool} {f : α → α} (miss : ∀ y, p y = false → p (f y) = false) {l : List α} {c : α}
    (h : l.find? p = some c) (hit : p (f c) = true) : (l.map f).find? p = some (f c) := by
  induction l with
  | nil => cases h
  | cons y l ih =>
    rw [List.find?_cons] at h
    rw [List.map_cons, List.find?_cons]
    cases e : p y with
    | true =>
      obtain rfl : y = c := by simpa [e] using h
      simp [hit]
    | false => simpa [miss y e] using ih (by simpa [e] using h)

/-- A cluster with a warp that has not exited goes on. -/
theorem Cluster.settled_of_going {c : Cluster} {i j : Nat} {g : Group} {w : Warp} (group : c.groups[i]? = some g) (warp : g.warps[j]? = some w)
    (going : w.exited = false) : c.settled = c.released := by
  have still : c.released.over = false := by
    have member : { g with warps := releaseBarriers g.warps } ∈ c.released.groups := List.mem_map_of_mem (List.mem_of_getElem? group)
    have out : w.released g.warps ∈ releaseBarriers g.warps := List.mem_map_of_mem (List.mem_of_getElem? warp)
    refine Bool.eq_false_iff.mpr fun gone => ?_
    simp only [Cluster.over, Bool.and_eq_true, List.all_eq_true] at gone
    have exited := (gone.2 _ member _ out).1
    rw [Warp.released_exited, going] at exited
    cases exited
  rw [Cluster.settled, still, if_neg Bool.false_ne_true]

/-- A cluster that is passed over, by its index, its start or its end, is passed over once it has settled. -/
theorem Cluster.settledAt_missed {c : Cluster} {i : Nat} (h : (c.index == i && c.started && !c.ended) = false) :
    ((c.settledAt i).index == i && (c.settledAt i).started && !(c.settledAt i).ended) = false := by
  unfold Cluster.settledAt Cluster.settled
  split
  · exact h
  · split
    · simp
    · exact h

/-- A launch with a cluster that has not ended goes on. -/
theorem State.settleLaunch_of_going {s : State} {cid : Nat} {l : Launch} {c : Cluster} (launch : launchOf s cid = some l) (member : c ∈ l.clusters)
    (going : c.ended = false) : s.settleLaunch cid = s := by
  have some_ : l.clusters.all (·.ended) = false := List.all_eq_false.mpr ⟨c, member, by simp [going]⟩
  simp [State.settleLaunch, launch, some_]

/-- A warp that has not exited stays in the table when its cluster settles; a barrier whose count is reached lets it go. -/
theorem warpAt_settleCluster {s : State} {r : WarpRef} {l : Launch} {c : Cluster} {g : Group} {w : Warp} (h : warpAt s r = some (l, c, g, w))
    (going : w.exited = false) :
    ∃ l, warpAt (s.settleCluster r.launch r.cluster) r
      = some (l, c.released, { g with warps := releaseBarriers g.warps }, w.released g.warps) := by
  simp only [warpAt, Option.bind_eq_some_iff, Option.map_eq_some_iff, Prod.mk.injEq] at h
  obtain ⟨l, launch, c, cluster, g, group, w, warp, rfl, rfl, rfl, rfl⟩ := h
  obtain ⟨index, open_⟩ := found_cluster cluster
  have settles : c.settledAt r.cluster = c.released := by
    rw [Cluster.settledAt, if_neg (not_not_intro index), Cluster.settled_of_going group warp going]
  have kept : (l.settledAt r.cluster).clusters.find? (fun c => c.index == r.cluster && c.started && !c.ended) = some c.released := by
    rw [← settles]
    refine find?_map_of_miss (p := fun c => c.index == r.cluster && c.started && !c.ended) (f := Cluster.settledAt r.cluster)
      (fun y => Cluster.settledAt_missed) cluster ?_
    rw [settles]
    exact (List.find?_some cluster :)
  have changed : launchOf (s.modLaunch r.launch (Launch.settledAt r.cluster)) r.launch = some (l.settledAt r.cluster) := by
    rw [launchOf_settledAt, launch, Option.map_some]
  have member : c.released ∈ (l.settledAt r.cluster).clusters := List.mem_of_find?_eq_some kept
  rw [State.settleCluster_eq, State.settleLaunch_of_going changed member open_, warpAt, changed]
  simp only [Option.bind_some, kept, Cluster.released, List.getElem?_map, group, Option.map_some, releaseBarriers_eq, warp]
  exact ⟨_, rfl⟩

theorem warpIs_settleCluster {s : State} {r : WarpRef} {P Q : Warp → Group → Prop} (h : WarpIs s r P) (going : ∀ w g, P w g → w.exited = false)
    (holds : ∀ w g, P w g → Q (w.released g.warps) { g with warps := releaseBarriers g.warps }) :
    WarpIs (s.settleCluster r.launch r.cluster) r Q := by
  obtain ⟨⟨l, c, g, w⟩, at_, p⟩ := h
  obtain ⟨l', settled⟩ := warpAt_settleCluster at_ (going w g p)
  exact ⟨_, settled, holds w g p⟩

/-- What a warp and its group are, once it has been written back and its cluster has settled. -/
theorem warpIs_settled_putWarp {s : State} {x : KCtx} {Q : Warp → Group → Prop} (h : Stands s x) {w : Warp} {g : Group} (members : g.warps = x.g.warps)
    (store : List Host.Cell) (going : w.exited = false)
    (holds : Q (w.released (setAt g.warps x.ref.warp w)) { g with warps := releaseBarriers (setAt g.warps x.ref.warp w) }) :
    WarpIs ((s.putWarp x w g store).settleCluster x.ref.launch x.ref.cluster) x.ref Q := by
  refine warpIs_settleCluster (P := fun v q => v = w ∧ q = { g with warps := setAt g.warps x.ref.warp w })
    (warpIs_putWarp h members store ⟨rfl, rfl⟩) ?_ ?_
  · rintro _ _ ⟨rfl, rfl⟩
    exact going
  · rintro _ _ ⟨rfl, rfl⟩
    exact holds

/-! ## Every warp under a reference, where several clusters of a launch have one index -/

/-- Every warp that a reference names, whichever of its launch's clusters of that index it is in. -/
def EveryWarp (s : State) (r : WarpRef) (Q : Warp → Prop) : Prop :=
  ∀ l, launchOf s r.launch = some l → ∀ c ∈ l.clusters, c.index = r.cluster → ∀ g, c.groups[r.group]? = some g → ∀ w, g.warps[r.warp]? = some w → Q w

theorem EveryWarp.warpAt {s : State} {r : WarpRef} {Q : Warp → Prop} (h : EveryWarp s r Q) : ∀ q, warpAt s r = some q → Q q.2.2.2 := by
  rintro ⟨l, c, g, w⟩ at_
  simp only [Machine.warpAt, Option.bind_eq_some_iff, Option.map_eq_some_iff, Prod.mk.injEq] at at_
  obtain ⟨l, launch, c, cluster, g, group, w, warp, rfl, rfl, rfl, rfl⟩ := at_
  exact h l launch c (List.mem_of_find?_eq_some cluster) (found_cluster cluster).1 g group w warp

theorem eq_of_getElem?_setAt {α : Type} {l : List α} {n : Nat} {v w : α} (h : (setAt l n v)[n]? = some w) : w = v := by
  rw [setAt, modAt_eq_modify, List.getElem?_modify_eq] at h
  obtain ⟨_, -, rfl⟩ := Option.map_eq_some_iff.mp h
  rfl

/-- A warp that is written back stands in every cluster of its index. -/
theorem everyWarp_putWarp {s : State} {x : KCtx} {Q : Warp → Prop} {w : Warp} (holds : Q w) (g : Group) (store : List Host.Cell) :
    EveryWarp (s.putWarp x w g store) x.ref Q := by
  intro l launch c member index g' group w' warp
  rw [State.putWarp, launchOf_modLaunch (by intro; rfl)] at launch
  obtain ⟨l, -, rfl⟩ := Option.map_eq_some_iff.mp launch
  obtain ⟨c, -, rfl⟩ := List.mem_map.mp member
  by_cases same : c.index = x.ref.cluster
  · rw [if_pos same] at group
    obtain rfl := eq_of_getElem?_setAt group
    obtain rfl := eq_of_getElem?_setAt warp
    exact holds
  · rw [if_neg same] at index
    exact absurd index same

theorem launchOf_dropLaunch (cid : Nat) (s : State) : launchOf (s.dropLaunch cid) cid = none := by
  simp [launchOf, State.dropLaunch, without]

/-- What a release keeps of every warp stands when the cluster settles; a launch that ends has no warps. -/
theorem everyWarp_settleCluster {s : State} {r : WarpRef} {Q : Warp → Prop} (h : EveryWarp s r Q) (keeps : ∀ l w, Q w → Q (w.released l)) :
    EveryWarp (s.settleCluster r.launch r.cluster) r Q := by
  have settled : EveryWarp (s.modLaunch r.launch (Launch.settledAt r.cluster)) r Q := by
    intro l launch c member index g group w warp
    rw [launchOf_settledAt] at launch
    obtain ⟨l, here, rfl⟩ := Option.map_eq_some_iff.mp launch
    obtain ⟨c, inside, rfl⟩ := List.mem_map.mp member
    rw [Cluster.settledAt] at index group
    split at group
    next other =>
      rw [if_pos other] at index
      exact absurd index other
    next own =>
      rw [Cluster.settled] at group
      split at group
      · cases group
      · rw [Cluster.released, List.getElem?_map] at group
        obtain ⟨g, at_, rfl⟩ := Option.map_eq_some_iff.mp group
        rw [releaseBarriers_eq, List.getElem?_map] at warp
        obtain ⟨w, stood, rfl⟩ := Option.map_eq_some_iff.mp warp
        exact keeps _ _ (h l here c inside (not_not.mp own) g at_ w stood)
  rw [State.settleCluster_eq, State.settleLaunch]
  split
  · split
    next l launch _ =>
      intro l' here
      have same : l.cid = r.launch := by simpa using List.find?_some launch
      rw [State.endLaunch, same, launchOf_dropLaunch] at here
      cases here
    · exact settled
  · exact settled

/-- A cluster that settles leaves module memory. -/
@[simp] theorem State.settleCluster_mem (cid index : Nat) (s : State) : (s.settleCluster cid index).mem = s.mem := by
  rw [State.settleCluster_eq, State.settleLaunch]
  split
  · split <;> rfl
  · rfl

end Sys2Proof.Machine
end
section
open Sys2Proof Sys2Proof.Machine

/-- Settles O25: a row writes its warp back (`warpIs_putWarp`, `warpIs_advance`), with the threads of its executing lanes changed where it computes
(`stepped_each`); EXIT and BAR then settle the cluster, which leaves a warp that goes on but for its barrier (`warpIs_settled_putWarp`), and a warp
that no thread is left in has exited in every cluster of its index (`EveryWarp`). -/
theorem warpAndRegisterInstructionsComplete : Obligations.WarpAndRegisterInstructionsComplete := by
  refine ⟨?nop, ?braUniform, ?braDivergent, ?joinEmpty, ?joinPassed, ?joinOther, ?joinLast, ?exitSome, ?exitUnwound, ?exitWhole, ?intImm, ?intReg, ?intWide,
    ?fpImm, ?fpReg, ?fpWide, ?fpWideCmp, ?cvt, ?fence, ?sreg, ?barReached, ?barWaits, ?waitDone, ?waitStalls, ?idle⟩
  case nop =>
    intro s r x issues
    exact answers_of_next issues rfl
  case braUniform =>
    intro s r x issues uniform
    obtain ⟨rfl, stands⟩ := stands_of_issues issues
    refine answers_of_kernel issues rfl ?_
    simp only [uniform, Bool.not_false, if_true]
    exact warpIs_putWarp stands rfl _ rfl
  case braDivergent =>
    intro s r x issues divergent room
    obtain ⟨rfl, stands⟩ := stands_of_issues issues
    refine answers_of_kernel issues rfl ?_
    simp only [divergent, Bool.not_true, Bool.false_eq_true, if_false, if_neg (not_le.mpr room)]
    exact warpIs_putWarp stands rfl _ ⟨rfl, rfl, rfl⟩
  case joinEmpty =>
    intro s r x issues empty
    obtain ⟨rfl, stands⟩ := stands_of_issues issues
    refine answers_of_kernel issues rfl (warpIs_putWarp stands rfl _ ?_)
    simp [empty, Warp.atJoin]
  case joinPassed =>
    intro s r x d l issues top other
    obtain ⟨rfl, stands⟩ := stands_of_issues issues
    refine answers_of_kernel issues rfl (warpIs_putWarp stands rfl _ ?_)
    simp [top, Warp.atJoin, other]
  case joinOther =>
    intro s r x d l p m issues top named other some_
    obtain ⟨rfl, stands⟩ := stands_of_issues issues
    refine answers_of_kernel issues rfl (warpIs_putWarp stands rfl _ ?_)
    simp only [top, Warp.atJoin, named, other, some_, ne_eq, not_true_eq_false, if_false, if_true]
  case joinLast =>
    intro s r x d l issues top named none_
    obtain ⟨rfl, stands⟩ := stands_of_issues issues
    refine answers_of_kernel issues rfl (warpIs_putWarp stands rfl _ ?_)
    simp only [top, Warp.atJoin, named, ne_eq, not_true_eq_false, if_false]
    split
    next p m other => rw [if_neg (by simp [none_ p m other])]
    · rfl
  case exitSome =>
    intro s r x issues left
    obtain ⟨going, ready⟩ := running_of_warpCtx issues.1
    obtain ⟨rfl, stands⟩ := stands_of_issues issues
    refine answers_of_kernel issues rfl ?_
    simp only [left, if_true]
    exact warpIs_settled_putWarp stands rfl _ going (Warp.released_of_running ready)
  case exitUnwound =>
    intro s r x y issues dropped none_ going
    subst dropped
    obtain ⟨-, ready⟩ := running_of_warpCtx issues.1
    obtain ⟨rfl, stands⟩ := stands_of_issues issues
    refine answers_of_kernel issues rfl ?_
    simp only [none_, Bool.false_eq_true, if_false]
    exact warpIs_settled_putWarp stands rfl _ going (Warp.released_of_running ((Warp.unwind_waiting ..).trans ready))
  case exitWhole =>
    intro s r x y issues dropped none_ whole
    subst dropped
    obtain ⟨rfl, stands⟩ := stands_of_issues issues
    refine answers_of_kernel issues rfl ?_
    simp only [none_, Bool.false_eq_true, if_false]
    exact (everyWarp_settleCluster (everyWarp_putWarp whole _ _) (fun l w gone => (Warp.released_exited l w).trans gone)).warpAt
  case intImm =>
    intro s r op x issues imm
    exact answers_of_each issues rfl (by simp [imm])
  case intReg =>
    intro s r op x issues reg narrow
    exact answers_of_each issues rfl (by simp [reg, narrow])
  case intWide =>
    intro s r op x issues reg wide
    exact answers_of_each issues rfl (by simp [reg, wide])
  case fpImm =>
    intro s r op x issues imm
    exact answers_of_each issues rfl (by simp [imm])
  case fpReg =>
    intro s r op x issues reg narrow
    have form : (bits 7 0 x.word == 1) = false := beq_false_of_ne narrow
    exact answers_of_each issues rfl (by simp [reg, form])
  case fpWide =>
    intro s r op x issues reg wide value
    refine answers_of_each issues rfl (fun k y => ?_)
    obtain ⟨v, lane⟩ := fpLane_value value (y.reg (kSrc0 x.word)) (y.reg (kSrc1 x.word)) (y.reg (kSrc2 x.word))
    simp only [reg, wide, Bool.not_false, beq_self_eq_true, Bool.and_self, Bool.false_eq_true, if_false, lane]
    rfl
  case fpWideCmp =>
    intro s r v x issues reg wide
    exact answers_of_each issues rfl (by simp [reg, wide, fpLane, Thread.result])
  case cvt =>
    intro s r src dst x n v issues bits words
    subst bits words
    exact answers_of_each issues rfl (fun _ _ => rfl)
  case fence =>
    intro s r x issues
    exact answers_of_next issues rfl
  case sreg =>
    intro s r code x issues
    obtain ⟨rfl, stands⟩ := stands_of_issues issues
    exact answers_of_selects issues rfl rfl (warpIs_advance stands (stepped_each x (fun _ _ => rfl)))
  case barReached =>
    intro s r x issues reached
    obtain ⟨going, ready⟩ := running_of_warpCtx issues.1
    obtain ⟨rfl, stands⟩ := stands_of_issues issues
    refine answers_of_kernel issues rfl (warpIs_settled_putWarp stands rfl _ going ?_)
    rw [Warp.released_of_reached rfl reached, ← ready]
  case barWaits =>
    intro s r x issues short
    obtain ⟨going, -⟩ := running_of_warpCtx issues.1
    obtain ⟨rfl, stands⟩ := stands_of_issues issues
    exact answers_of_kernel issues rfl (warpIs_settled_putWarp stands rfl _ going (Warp.released_of_waiting rfl short))
  case waitDone =>
    intro s r x issues done
    obtain ⟨rfl, stands⟩ := stands_of_issues issues
    refine answers_of_kernel issues rfl ?_
    simp only [done, if_true]
    exact warpIs_advance stands rfl
  case waitStalls =>
    intro s r x issues more
    refine answers_of_kernel issues rfl ?_
    simp only [not_le.mpr more, if_false]
  case idle =>
    intro s r x c at_ idle row
    exact answers_of_idle at_ idle row

end
section
/-! What the memory instructions of a kernel reach and store (R156-R161): an access that goes through, bytes written to a space with the warp, and a copy
that ends. -/

set_option Elab.async false
namespace Sys2Proof.Machine

/-! ## Accesses that go through (R158) -/

@[simp] theorem State.writeMem_launches (l : List Extent) (v : List Byte) (s : State) : (s.writeMem l v).launches = s.launches :=
  (State.writeMem_frame l v s).exact (by decide) (p := .launches) (by decide)

@[simp] theorem State.touch_launches (write : Bool) (l : List Extent) (s : State) : (s.touch write l).launches = s.launches :=
  (State.touch_frame write l s).exact (by decide) (p := .launches) (by decide)

/-- An access that goes through leaves the launches and the content of memory to what follows, and all of the state where it is not a global one. -/
theorem State.access_of_reaches {s : State} {x : KCtx} {space slot n : Nat} {read write : Bool} {offs : List Nat}
    (h : Reaches s x space slot n read write offs) (go : State → State) :
    ∃ u : State, s.access x space slot n read write offs go = go u ∧ u.launches = s.launches ∧ u.mem.cells = s.mem.cells
      ∧ u.mem.handles = s.mem.handles ∧ (space < 2 → u = s) := by
  obtain ⟨lawful, global_⟩ := h
  by_cases far : space = 2
  · obtain ⟨may, flows, mapped⟩ := global_ far
    have goes : ¬(space = 2 ∧ write = true ∧ x.l.error.isSome = true) := fun ⟨_, w, e⟩ => by simp [may w] at e
    have touched := State.touch_placing false (offs.flatMap (fun o => slotPieces s x slot o n)) s
    refine ⟨s.touch false (offs.flatMap (fun o => slotPieces s x slot o n)), ?_, ?_, ?_, ?_, fun near => absurd far (by omega)⟩
    · simp only [State.access, lawful, if_neg goes, if_pos far, flows, mapped, Bool.false_eq_true, if_false]
    · exact State.touch_launches ..
    · exact (congrArg (fun u : State => u.mem.cells) touched :)
    · exact (congrArg (fun u : State => u.mem.handles) touched :)
  · refine ⟨s, ?_, rfl, rfl, rfl, fun _ => rfl⟩
    simp only [State.access, lawful, far, false_and, if_false]

theorem slotPieces_of_handles {s t : State} (h : t.mem.handles = s.mem.handles) (x : KCtx) (slot off n : Nat) :
    slotPieces t x slot off n = slotPieces s x slot off n := by
  simp only [slotPieces, memHandle, h]

/-! ## Bytes written to a space (R156, R161) -/

/-- Whatever is written, the warp is written back with its group. -/
theorem State.spaceWrite_putWarp (x : KCtx) (space slot : Nat) (l : List (Nat × List Byte)) (w : Warp) (s : State) :
    ∃ (u : State) (g : Group) (store : List Host.Cell), s.spaceWrite x space slot l w = u.putWarp x w g store := by
  match space with
  | 0 => exact ⟨_, _, _, rfl⟩
  | 1 => exact ⟨_, _, _, rfl⟩
  | _ + 2 => exact ⟨_, _, _, rfl⟩

/-- Writes of module memory, one after another. -/
theorem writeMem_foldl (s : State) (x : KCtx) (slot : Nat) (l : List (Nat × List Byte)) (u : State) :
    (l.foldl (fun t p => t.writeMem (slotPieces s x slot p.1 p.2.length) p.2) u).mem.cells
        = l.foldl (fun m p => writePieces m (slotPieces s x slot p.1 p.2.length) p.2) u.mem.cells
      ∧ (l.foldl (fun t p => t.writeMem (slotPieces s x slot p.1 p.2.length) p.2) u).launches = u.launches := by
  constructor
  · exact (List.foldl_hom (fun t : State => t.mem.cells) (fun t p => (State.writeMem_cells _ p.2 t).symm)).symm
  · exact foldl_view (v := State.launches) (fun t p => State.writeMem_launches _ p.2 t) l u

/-- From s to t bytes have been stored in a space, the cell store, the tile store or module memory, and the warp has been written back. -/
structure Stored (s : State) (x : KCtx) (space slot : Nat) (l : List (Nat × List Byte)) (w : Warp) (t : State) : Prop where
  warp : WarpIs t x.ref (fun v g => v = w ∧ g.store = if space = 0 then l.foldl (fun m p => writeBytes m p.1 p.2) x.g.store else x.g.store)
  near : space < 2 → t.mem = s.mem
  tile : space = 1 → TileStoreIs t x.ref (l.foldl (fun m p => writeBytes m p.1 p.2) x.c.store)
  far : space = 2 → t.mem.cells = l.foldl (fun m p => writePieces m (slotPieces s x slot p.1 p.2.length) p.2) s.mem.cells

theorem stored_spaceWrite {s : State} {x : KCtx} (h : Stands s x) (space slot : Nat) (l : List (Nat × List Byte)) (w : Warp) :
    Stored s x space slot l w (s.spaceWrite x space slot l w) := by
  match space with
  | 0 =>
    exact ⟨warpIs_putWarp (g := { x.g with store := l.foldl (fun m p => writeBytes m p.1 p.2) x.g.store }) h rfl _ ⟨rfl, rfl⟩, fun _ => rfl,
      fun tile => absurd tile (by decide), fun far => absurd far (by decide)⟩
  | 1 => exact ⟨warpIs_putWarp h rfl _ ⟨rfl, rfl⟩, fun _ => rfl, fun _ => tileStoreIs_putWarp h w rfl _, fun far => absurd far (by decide)⟩
  | k + 2 =>
    obtain ⟨cells, launches⟩ := writeMem_foldl s x slot l s
    exact ⟨warpIs_putWarp (h.of_launches launches) rfl _ ⟨rfl, rfl⟩, fun near => absurd near (by omega), fun tile => absurd tile (by omega), fun _ => cells⟩

/-- An access that goes through stores what it writes. -/
theorem stored_access {s : State} {x : KCtx} {space slot n : Nat} {read write : Bool} {offs : List Nat} (h : Stands s x)
    (reaches : Reaches s x space slot n read write offs) (l : List (Nat × List Byte)) (w : Warp) :
    Stored s x space slot l w (s.access x space slot n read write offs (fun u => u.spaceWrite x space slot l w)) := by
  obtain ⟨u, through, launches, cells, handles, same⟩ := State.access_of_reaches reaches (fun u => u.spaceWrite x space slot l w)
  obtain ⟨warp, near, tile, far⟩ := stored_spaceWrite (h.of_launches launches) space slot l w
  rw [through]
  refine ⟨warp, fun local_ => (near local_).trans (congrArg State.mem (same local_)), tile, fun global_ => ?_⟩
  rw [far global_, cells]
  simp only [slotPieces_of_handles handles]

/-! ## A copy that ends (R161) -/

theorem stands_of_warpAt {s : State} {r : WarpRef} {l : Launch} {c : Cluster} {g : Group} {w : Warp} (h : warpAt s r = some (l, c, g, w)) (op : KOp)
    (word : Nat) : Stands s { ref := r, l, c, g, w, op, word } := by
  simp only [warpAt, Option.bind_eq_some_iff, Option.map_eq_some_iff, Prod.mk.injEq] at h
  obtain ⟨l, launch, c, cluster, g, group, w, warp, rfl, rfl, rfl, rfl⟩ := h
  exact ⟨launch, cluster, group, warp⟩

theorem tileStoreIs_settleCluster {s : State} {r : WarpRef} {P : Warp → Group → Prop} {m : List Host.Cell} (h : TileStoreIs s r m) (warp : WarpIs s r P)
    (going : ∀ w g, P w g → w.exited = false) : TileStoreIs (s.settleCluster r.launch r.cluster) r m := by
  obtain ⟨⟨l, c, g, w⟩, at_, p⟩ := warp
  obtain ⟨l', settled⟩ := warpAt_settleCluster at_ (going w g p)
  rw [TileStoreIs, at_] at h
  rw [TileStoreIs, settled]
  exact h

/-- A warp whose copy has ended: it is in flight no more, and its counter is one less. -/
def Warp.copied (copy : Nat) (q : Copy) (w : Warp) : Warp :=
  { w with copies := w.copies.eraseIdx copy, counters := modAt w.counters q.counter (· - 1) }

/-- A copy's data written where it goes, with its warp. -/
def State.copyWritten (x : KCtx) (copy : Nat) (q : Copy) (s : State) : State :=
  if q.toStore then
    (s.touch false (slotPieces s x q.slot q.offset q.len)).spaceWrite x (bnat q.tile) 0 [(q.place, spaceRead s x 2 q.slot q.offset q.len)] (x.w.copied copy q)
  else s.spaceWrite x 2 q.slot [(q.offset, spaceRead s x (bnat q.tile) 0 q.place q.len)] (x.w.copied copy q)

/-- The data of a copy are where it takes them: in the cell store, the tile store, or module memory. -/
theorem copyWritten_stores {s : State} {x : KCtx} (h : Stands s x) (copy : Nat) (q : Copy) :
    WarpIs (s.copyWritten x copy q) x.ref (fun v g => v = x.w.copied copy q
        ∧ (q.toStore = true → q.tile = false → g.store = writeBytes x.g.store q.place (spaceRead s x 2 q.slot q.offset q.len)))
      ∧ (q.toStore = true → q.tile = true →
          TileStoreIs (s.copyWritten x copy q) x.ref (writeBytes x.c.store q.place (spaceRead s x 2 q.slot q.offset q.len)))
      ∧ (q.toStore = false → (s.copyWritten x copy q).mem.cells = writePieces s.mem.cells
          (slotPieces s x q.slot q.offset (spaceRead s x (bnat q.tile) 0 q.place q.len).length) (spaceRead s x (bnat q.tile) 0 q.place q.len)) := by
  unfold State.copyWritten
  cases direction : q.toStore with
  | true =>
    obtain ⟨⟨z, at_, warp, store⟩, -, tile, -⟩ := stored_spaceWrite (h.of_launches (State.touch_launches false _ s)) (bnat q.tile) 0
      [(q.place, spaceRead s x 2 q.slot q.offset q.len)] (x.w.copied copy q)
    refine ⟨⟨z, at_, warp, fun _ cell => ?_⟩, fun _ inTile => tile (by rw [inTile]; rfl), fun out => absurd out (by decide)⟩
    rw [store, cell]
    rfl
  | false =>
    obtain ⟨⟨z, at_, warp, -⟩, -, -, far⟩ := stored_spaceWrite h 2 q.slot [(q.offset, spaceRead s x (bnat q.tile) 0 q.place q.len)] (x.w.copied copy q)
    exact ⟨⟨z, at_, warp, fun into => absurd into (by decide)⟩, fun into => absurd into (by decide), fun _ => far rfl⟩

theorem everyWarp_copyWritten {Q : Warp → Prop} {x : KCtx} {copy : Nat} {q : Copy} (holds : Q (x.w.copied copy q)) (s : State) :
    EveryWarp (s.copyWritten x copy q) x.ref Q := by
  unfold State.copyWritten
  split
  all_goals
    obtain ⟨u, g, store, written⟩ := State.spaceWrite_putWarp x _ _ _ (x.w.copied copy q) _
    rw [written]
    exact everyWarp_putWarp holds g store

/-- A copy whose memory neither waits nor fails ends (R161). -/
theorem execMemCopyDone_ends {s : State} {r : WarpRef} {copy : Nat} {l : Launch} {c : Cluster} {g : Group} {y : Warp} {q : Copy} {x : KCtx}
    (at_ : warpAt s r = some (l, c, g, y)) (flying : y.copies[copy]? = some q) (hx : x = { ref := r, l := l, c := c, g := g, w := y, op := .nop, word := 0 })
    (may : q.toStore = true ∨ l.error = none) (flows : memWaitsBy s c.site (slotPieces s x q.slot q.offset q.len) = false)
    (mapped : accessSource s c.site q.toStore (slotPieces s x q.slot q.offset q.len) = none) :
    exec (.memCopyDone r copy) s = .next ((s.copyWritten x copy q).settleCluster r.launch r.cluster) := by
  subst hx
  have goes : (!q.toStore && l.error.isSome) = false := by rcases may with h | h <;> simp [h]
  show execMemCopyDone r copy s = _
  simp only [execMemCopyDone, at_, flying, flows, goes, mapped, Bool.or_self, Bool.false_eq_true, if_false]
  rfl

end Sys2Proof.Machine
end
section
open Sys2Proof Sys2Proof.Machine

/-- Settles O26: an access that keeps to its hypotheses goes through (`State.access_of_reaches`), what it writes is stored with its warp (`Stored`),
and a copy that ends has its data written before its cluster settles (`execMemCopyDone_ends`, `copyWritten_stores`). -/
theorem kernelMemoryInstructionsComplete : Obligations.KernelMemoryInstructionsComplete := by
  refine ⟨?ld, ?st, ?atom, ?memCopy, ?copyDone, ?copyDoneWaiting, ?cvtBlk⟩
  case ld =>
    intro s r x issues reaches
    obtain ⟨rfl, stands⟩ := stands_of_issues issues
    refine answers_of_kernel issues rfl ?_
    obtain ⟨u, through, launches, -⟩ := State.access_of_reaches reaches _
    rw [through]
    exact warpIs_advance (stands.of_launches launches) (stepped_each x (fun _ _ => rfl))
  case st =>
    intro s r x l issues stores reaches
    obtain ⟨rfl, stands⟩ := stands_of_issues issues
    subst stores
    refine answers_of_kernel issues rfl ?_
    obtain ⟨⟨z, at_, warp, store⟩, near, tile, far⟩ := stored_access stands reaches _ x.w.next
    exact ⟨z, at_, warp, store, near, tile, far⟩
  case atom =>
    intro s r op x ops f issues size space hops hf reaches
    obtain ⟨rfl, stands⟩ := stands_of_issues issues
    subst hops hf
    refine answers_of_kernel issues rfl ?_
    have sized : (kSize x.word == 4 || kSize x.word == 8) = true := by simpa using size
    have placed : (kSpace x.word == 1 || kSpace x.word == 2) = true := by simpa using space
    simp only [sized, placed, Bool.not_true, Bool.or_self, Bool.false_eq_true, if_false]
    obtain ⟨⟨z, at_, warp, -⟩, -, tile, far⟩ := stored_access stands reaches _ _
    exact ⟨⟨z, at_, warp ▸ stepped_each x (fun _ _ => rfl)⟩, tile, far⟩
  case memCopy =>
    intro s r toStore counter x off place len issues hoff hplace hlen space least_ most room fits writable
    obtain ⟨rfl, stands⟩ := stands_of_issues issues
    subst hoff hplace hlen
    refine answers_of_selects issues rfl rfl ?_
    have lawful : ¬(1 < kSpace x.word ∨ x.lead.reg (kSrc1 x.word + 1) < 16 ∨ 2 ^ 20 < x.lead.reg (kSrc1 x.word + 1)
        ∨ spaceSize s x (kSpace x.word) (kSlot x.word) < x.lead.reg (kSrc1 x.word) + x.lead.reg (kSrc1 x.word + 1)
        ∨ spaceSize s x 2 (kSlot x.word) < x.lead.reg64 (kSrc0 x.word) + x.lead.reg (kSrc1 x.word + 1)) := by omega
    have may : (!toStore && (x.l.kernel.slots.getD (kSlot x.word) (0, 0, 0)).2.1 != 2) = false := by
      rcases writable with rfl | h
      · rfl
      · rw [h, bne_self_eq_false, Bool.and_false]
    simp only [if_neg lawful, may, Bool.false_eq_true, if_false]
    exact warpIs_advance stands ⟨rfl, rfl, rfl⟩
  case copyDone =>
    intro s r copy l c g y q x at_ flying going ready hx may flows mapped
    have stands : Stands s x := hx ▸ stands_of_warpAt at_ .nop 0
    obtain ⟨warp, tile, far⟩ := copyWritten_stores stands copy q
    have row := execMemCopyDone_ends at_ flying hx may flows mapped
    subst hx
    refine ⟨_, row, warpIs_settleCluster warp ?_ ?_, fun into inTile => tileStoreIs_settleCluster (tile into inTile) warp ?_,
      fun out => by rw [State.settleCluster_mem, far out]⟩
    · rintro _ _ ⟨rfl, -⟩
      exact going
    · rintro _ h ⟨rfl, store⟩
      have still : (y.copied copy q).released h.warps = y.copied copy q := Warp.released_of_running ready
      exact ⟨(congrArg Warp.copies still :), (congrArg Warp.pc still :), (congrArg Warp.counters still :), store⟩
    · rintro _ _ ⟨rfl, -⟩
      exact going
  case copyDoneWaiting =>
    intro s r copy l c g y q x at_ flying resting hx may flows mapped
    have row := execMemCopyDone_ends at_ flying hx may flows mapped
    subst hx
    have ended : EveryWarp (s.copyWritten { ref := r, l, c, g, w := y, op := .nop, word := 0 } copy q) r
        (fun w => w.copies = y.copies.eraseIdx copy ∧ w.counters = modAt y.counters q.counter (· - 1)) := everyWarp_copyWritten ⟨rfl, rfl⟩ s
    exact ⟨_, row, (everyWarp_settleCluster ended (fun l w ⟨copies, counters⟩ =>
      ⟨(Warp.released_copies l w).trans copies, (Warp.released_counters l w).trans counters⟩)).warpAt⟩
  case cvtBlk =>
    intro s r x issues elements scale
    obtain ⟨rfl, stands⟩ := stands_of_issues issues
    refine answers_of_kernel issues rfl ?_
    simp only [not_lt.mpr elements, not_lt.mpr scale, or_self, if_false]
    obtain ⟨⟨z, at_, warp, store⟩, -⟩ := stored_spaceWrite stands 0 0 _ x.w.next
    exact ⟨z, at_, warp, store⟩

end
section
/-! How a kernel is kept, how a launch is accepted and begins (R163, R178, R179, R323, R324, R329), and how one that has run too long ends (R186). -/

set_option Elab.async false
namespace Sys2Proof.Machine

/-! ## KERNEL_LOAD (R163, R323) -/

/-- The state with a kernel under its handle, and the generation that it took. -/
def State.keepKernel (i gen : Nat) (k : Kernel) (s : State) : State := ({ s with kernels := s.kernels ++ [(i, gen, k)] } : State).noteGen 3 gen

/-- An image that passes the checks is kept under the lowest free index (R163, R323). -/
theorem execKernelLoad_keeps {s : State} {cid : Nat} {c : Cmd} {image : List Byte} {k : Kernel} {i : Nat} (acts : ActsReading s cid 0x32 c)
    (whole : image.length = c.arg 0x10 4) (good : checkKernel image = .ok k) (free : freeIndex (s.kernels.map (·.1)) 1024 = some i) :
    exec (.kernelLoad cid image) s = .next (((s.startCmd cid).keepKernel i (genOf s.kernelGen i) k).finishCmd cid .ok
      [(0x14, 8, handleWord 3 (genOf s.kernelGen i) i), (0x1C, 1, k.perCell), (0x1D, 1, (clusterNeeds k).1), (0x20, 4, 0xFFFFFFFF)]) := by
  obtain ⟨acts, open_, first⟩ := acts
  have free' : freeIndex ((s.startCmd cid).kernels.map (·.1)) 1024 = some i := free
  show execKernelLoad cid image s = _
  rw [execKernelLoad, acts.hostCommand (mayRead_of_open open_ _) first (.inr rfl), if_neg (not_not_intro whole), good]
  simp only [free']
  rfl

/-! ## A launch that is accepted, and one that begins (R178, R179, R324, R329) -/

/-- The launch that an accepted KERNEL_LAUNCH makes. -/
def kernelLaunchOf (c : Cmd) (cid i : Nat) (k : Kernel) (slots params : List Byte) : Launch :=
  { cid, kernel := k, kernelIndex := i, clusterCount := c.arg 0x10 4, seed := BitVec.ofNat 64 (c.arg 0x18 8), inst := BitVec.ofNat 32 (c.arg 0x20 4),
    slots := (List.range 16).map (fun j => field (8 * j) 8 slots), params, timeLimit := c.arg 0x14 4, begun := false, clusters := [], ranFast := false,
    error := none }

/-- The clusters of a launch that begins: none has a site yet. -/
def Launch.fresh (l : Launch) : List Cluster :=
  (List.range l.clusterCount).map (fun i =>
    { index := i, site := none, started := false, saved := false, groups := [], store := [], image := [], ended := false })

/-- A launch that need not wait begins (R179). -/
theorem State.beginLaunch_of_free {s : State} {cid : Nat} {l : Launch} (here : launchOf s cid = some l) (fresh : l.begun = false)
    (free : usesWait s cid (launchUses s l).1 (launchUses s l).2 = false) :
    s.beginLaunch cid = s.modLaunch cid (fun q => { q with begun := true, clusters := l.fresh }) := by
  simp only [State.beginLaunch, here, fresh, free, Bool.or_self, Bool.false_eq_true, if_false]
  rfl

/-- Whether a launch begins or waits, its entry is there as it was accepted, but for its clusters, and the units stay. -/
theorem launchOf_beginLaunch {s : State} {cid : Nat} {l : Launch} (here : launchOf s cid = some l) :
    (∃ begun clusters, launchOf (s.beginLaunch cid) cid = some { l with begun, clusters }) ∧ (s.beginLaunch cid).cel = s.cel := by
  simp only [State.beginLaunch, here]
  split
  · exact ⟨⟨l.begun, l.clusters, here⟩, rfl⟩
  · refine ⟨⟨true, l.fresh, ?_⟩, rfl⟩
    rw [launchOf_modLaunch (by intro; rfl), here]
    rfl

theorem launchOf_addLaunch {s : State} {l : Launch} (new : launchOf s l.cid = none) : launchOf (s.addLaunch l) l.cid = some l := by
  unfold launchOf at new ⊢
  simp [State.addLaunch, List.find?_append, new]

/-- A launch brings one unit for each cluster (R149, R150). -/
theorem State.addLaunch_units_length (l : Launch) (s : State) : (s.addLaunch l).cel.units.length = s.cel.units.length + l.clusterCount := by
  simp [State.addLaunch]

/-- Check 5 lets a KERNEL_LAUNCH through whose kernel is live, with launches to spare, and whose group is not overloaded (R179, R216, R324). -/
theorem launchStop_eq_none {s : State} {c : Cmd} {i gen : Nat} {k : Kernel} (kernel : kernelHandle s (c.arg 8 8) = some (i, gen, k))
    (idle : selftestRunning s = false)
    (few : (s.launches.filter (fun q => q.kernelIndex == i)).length + waitingOn s 0x33 (c.arg 8 8) < 64) (light : overloaded s .mash = false) :
    launchStop c s = none := by
  simp [launchStop, kernel, idle, few, light]

/-- A KERNEL_LAUNCH whose checks pass is accepted (R178, R179, R324, R329). -/
theorem execKernelLaunch_accepts {s : State} {cid : Nat} {c : Cmd} {slots params : List Byte} {i gen : Nat} {k : Kernel}
    (acts : ActsReading s cid 0x33 c) (new : launchOf s cid = none) (passes : launchStop c (s.startCmd cid) = none) (blocks : slots.length = 128 ∧ params.length = 256)
    (kernel : kernelHandle s (c.arg 8 8) = some (i, gen, k))
    (unused : usesBusy (s.startCmd cid) cid (launchUses s (kernelLaunchOf c cid i k slots params)).2 = false)
    (bound : slotsOk s k ((List.range 16).map (fun j => field (8 * j) 8 slots)) = true) :
    exec (.kernelLaunch cid slots params) s
      = .next (((s.startCmd cid).addLaunch (kernelLaunchOf c cid i k slots params)).beginLaunch cid) := by
  obtain ⟨acts, open_, first⟩ := acts
  obtain ⟨sized, given⟩ := blocks
  have kernel' : kernelHandle (s.startCmd cid) (c.arg 8 8) = some (i, gen, k) := kernel
  have unused' : usesBusy (s.startCmd cid) cid (launchUses (s.startCmd cid) (kernelLaunchOf c cid i k slots params)).2 = false := unused
  have bound' : slotsOk (s.startCmd cid) k (kernelLaunchOf c cid i k slots params).slots = true := bound
  show execKernelLaunch cid slots params s = _
  simp only [execKernelLaunch, new]
  rw [acts.hostCommand (mayRead_of_open open_ _) first (.inr passes), if_neg (by simp [sized, given])]
  simp only [kernel']
  unfold kernelLaunchOf at unused' bound' ⊢
  simp only [unused', bound', Bool.not_true, Bool.false_eq_true, if_false]

/-! ## A launch that has run too long (R181, R186) -/

/-- The launch of a command once an error has been raised for it; the lowest place counts. -/
theorem launchOf_kernelError {s : State} {cid : Nat} {l : Launch} (here : launchOf s cid = some l) (e : KernelError) :
    launchOf (s.kernelError cid e) cid
      = some { l with error := some (match l.error with | some d => if e.before d then e else d | none => e) } := by
  rw [State.kernelError, launchOf_modLaunch (by intro; rfl), here]
  rfl

/-- A launch that has run past its limit with no error raises error 7 somewhere (R186, Table 6-10). -/
theorem execKernelTimeLimit_raises {s : State} {cid : Nat} {l : Launch} (here : launchOf s cid = some l) (sound : l.error = none)
    (started : l.clusters.any (·.started) = true) :
    ∃ e : KernelError, e.code = 7 ∧ exec (.kernelTimeLimit cid) s = .next ((s.kernelError cid e).spend 1) := by
  refine ⟨{ code := 7, cluster := (freshWord s).toNat % 2 ^ 32, group := (freshWord s).toNat / 2 ^ 32 % 256,
            warp := (freshWord s).toNat / 2 ^ 40 % 256, word := (freshWord s).toNat / 2 ^ 48 }, rfl, ?_⟩
  show execKernelTimeLimit cid s = _
  simp only [execKernelTimeLimit, here, sound, started, Option.isNone_none, Bool.and_self, if_true]

/-- A launch has ended by an error: it is in the table no more, and its command has BAD_DESCRIPTOR. -/
def Stopped (s : State) (cid : Nat) : Prop := launchOf s cid = none ∧ EndedAs s cid .badDescriptor

theorem cmdAt_modCmd_ne {s : State} {cid k : Nat} {f : Cmd → Cmd} (hf : ∀ c, (f c).cid = c.cid) (other : k ≠ cid) :
    cmdAt (s.modCmd k f) cid = cmdAt s cid := by
  simp only [cmdAt, State.modCmd]
  induction s.host.cmds with
  | nil => rfl
  | cons c l ih =>
    by_cases own : c.cid = k
    · simp [own, hf, other, ih]
    · simp [own, List.find?_cons, ih]

theorem cmdAt_endLaunch_ne {s : State} {l : Launch} {cid : Nat} (other : l.cid ≠ cid) (st : Status) :
    cmdAt (s.endLaunch l st) cid = cmdAt s cid :=
  cmdAt_modCmd_ne (Cmd.finish_cid _) other

theorem cmdAt_endLaunch_self (s : State) (l : Launch) (st : Status) :
    cmdAt (s.endLaunch l st) l.cid
      = (cmdAt s l.cid).map (Cmd.finish { status := st, source := 0, result := resultOf (launchFields l), writes := [] }) :=
  cmdAt_finishCmd s l.cid st (launchFields l)

theorem launchOf_endLaunch_of_none {s : State} {cid : Nat} (h : launchOf s cid = none) (l : Launch) (st : Status) :
    launchOf (s.endLaunch l st) cid = none := by
  refine List.find?_eq_none.mpr fun q member => List.find?_eq_none.mp h q ?_
  exact (List.mem_filter.mp member).1

/-- A live command whose launch ends by an error has that for its end. -/
theorem stopped_endLaunch {s : State} {l : Launch} {c : Cmd} (live : Live s l.cid c) : Stopped (s.endLaunch l .badDescriptor) l.cid := by
  obtain ⟨entry, open_, unmarked⟩ := live
  refine ⟨launchOf_dropLaunch .., ?_⟩
  rw [EndedAs, cmdAt_endLaunch_self, entry]
  simp [Cmd.finish, open_, unmarked]

/-- The first end of a command stays. -/
theorem Stopped.endLaunch {s : State} {cid : Nat} (h : Stopped s cid) (l : Launch) (st : Status) : Stopped (s.endLaunch l st) cid := by
  obtain ⟨gone, ended⟩ := h
  refine ⟨launchOf_endLaunch_of_none gone l st, ?_⟩
  by_cases own : l.cid = cid
  · subst own
    rw [EndedAs] at ended ⊢
    rw [cmdAt_endLaunch_self, ← ended]
    cases entry : cmdAt s l.cid with
    | none => rfl
    | some c =>
      cases done : c.done with
      | none => simp [entry, done] at ended
      | some d => simp [Cmd.finish, done]
  · rw [EndedAs, cmdAt_endLaunch_ne own]
    exact ended

/-- Of the launches that end by an error, a command's own ends it, whichever end before or after. -/
theorem stopped_foldl_endLaunch {s : State} {cid : Nat} {c : Cmd} {L : List Launch} (live : Live s cid c) (own : ∃ l ∈ L, l.cid = cid) :
    Stopped (L.foldl (fun t l => t.endLaunch l .badDescriptor) s) cid := by
  induction L generalizing s with
  | nil =>
    obtain ⟨_, member, -⟩ := own
    cases member
  | cons l L ih =>
    by_cases same : l.cid = cid
    · subst same
      exact List.foldlRecOn (motive := fun t => Stopped t l.cid) L _ (stopped_endLaunch live) (fun t stopped q _ => stopped.endLaunch q _)
    · refine ih ⟨(cmdAt_endLaunch_ne same _).trans live.1, live.2⟩ ?_
      obtain ⟨q, member, own⟩ := own
      rcases List.mem_cons.mp member with rfl | later
      · exact absurd own same
      · exact ⟨q, later, own⟩

/-- In the next step on an empty queue a launch that an error has stopped ends (R186; log 62). -/
theorem step_ends_stopped {s : State} {cid : Nat} {c : Cmd} {l : Launch} (live : Live s cid c) (here : launchOf s cid = some l)
    (stopped : l.error.isSome = true) :
    ∃ u, step { s with pending := [] } = .next u ∧ launchOf u cid = none ∧ EndedAs u cid .badDescriptor := by
  have ends : Stopped ({ s with pending := [] } : State).endStopped cid :=
    stopped_foldl_endLaunch (s := { s with pending := [] }) live
      ⟨l, List.mem_filter.mpr ⟨List.mem_of_find?_eq_some here, stopped⟩, by simpa using List.find?_some here⟩
  refine ⟨_, rfl, ?_⟩
  show Stopped (State.idle { s with pending := [] }) cid
  unfold State.idle
  dsimp only
  split
  · exact ends
  · exact ends

end Sys2Proof.Machine
end
section
open Sys2Proof Sys2Proof.Machine

/-- Settles O24: a kernel that is checked is kept; a launch that is accepted is in the table, begun or waiting (`launchOf_beginLaunch`); past its time
limit it has an error, by which the next step on an empty queue ends it (`step_ends_stopped`). -/
theorem kernelCommandsComplete : Obligations.KernelCommandsComplete := by
  refine ⟨?load, ?accept, ?begin, ?limit⟩
  case load =>
    intro s cid c image k i acts whole good free
    exact ⟨_, execKernelLoad_keeps acts whole good free, rfl, ended_finishCmd acts.1 rfl ..⟩
  case accept =>
    intro s cid c slots params i g k acts new sized given kernel idle unused few light bound
    have passes : launchStop c (s.startCmd cid) = none := launchStop_eq_none kernel idle few light
    have added : launchOf ((s.startCmd cid).addLaunch (kernelLaunchOf c cid i k slots params)) cid = some (kernelLaunchOf c cid i k slots params) :=
      launchOf_addLaunch new
    obtain ⟨⟨begun, clusters, kept⟩, units⟩ := launchOf_beginLaunch added
    refine ⟨_, execKernelLaunch_accepts acts new passes ⟨sized, given⟩ kernel (unused _ rfl rfl) bound, ?_, ?_⟩
    · rw [kept]
      rfl
    · rw [units, State.addLaunch_units_length]
      rfl
  case begin =>
    intro s cid slots params l here fresh free
    have row : exec (.kernelLaunch cid slots params) s = .next (s.beginLaunch cid) := by
      show execKernelLaunch cid slots params s = _
      simp only [execKernelLaunch, here]
    rw [State.beginLaunch_of_free here fresh free] at row
    refine ⟨_, row, ?_, rfl⟩
    rw [launchOf_modLaunch (by intro; rfl), here]
    simp [Launch.fresh]
  case limit =>
    intro s cid c l live here started
    cases error : l.error with
    | none =>
      obtain ⟨e, code, row⟩ := execKernelTimeLimit_raises here error started
      have raised : launchOf ((s.kernelError cid e).spend 1) cid = some { l with error := some e } := by
        have kept := launchOf_kernelError here e
        rw [error] at kept
        exact kept
      exact ⟨_, row, ⟨e, by rw [raised, Option.map_some], fun _ => code⟩, step_ends_stopped (s := (s.kernelError cid e).spend 1) live raised rfl⟩
    | some d =>
      have row : exec (.kernelTimeLimit cid) s = .next s := by
        show execKernelTimeLimit cid s = _
        simp [execKernelTimeLimit, here, error]
      exact ⟨s, row, ⟨d, by rw [here, Option.map_some, error], fun none_ => by cases none_⟩, step_ends_stopped live here (by rw [error]; rfl)⟩

end
section
/-! A byte store that is not in canonical form, under a write of less than a granule (R256; O52). -/

set_option Elab.async false
namespace Sys2Proof.Machine

/-- Site 0 serves its memory, and the byte store lists address 0 twice, the zero first: not the canonical form, which nothing in the hypotheses of the
statement asks for. -/
def doublyListed : State :=
  { State.reset.modTile 0 (fun t => { t with state := .compute, memInService := true }) with
    mem := { State.reset.mem with cells := [(0, 0), (0, 7)] } }

/-- A write of the byte at address 1 reads the granule around it and writes it back: that removes the first entry of address 0, and the second is read. -/
theorem doublyListed_gddr7Write_uncovers :
    ∃ t, exec (.gddr7Write 0 1 [1] .hub none [] 0) doublyListed = .next t ∧ readByte t.mem.cells 0 = 7 :=
  ⟨_, rfl, by decide +kernel⟩

end Sys2Proof.Machine

section
open Sys2Proof Sys2Proof.Machine

/-- Refutes O52: a write of less than a granule reads the granule and writes it back (`State.readForWrite`), which in a store that lists an address twice,
the zero first, removes the first entry, so that the byte of another address reads 7 where it read 0. The clause that keeps a GDDR7_WRITE to the bytes
written lacks the canonical form of the store (`Memory.wf`). -/
theorem not_storesStayInTheirPieces : ¬ Obligations.StoresStayInTheirPieces := by
  unfold Obligations.StoresStayInTheirPieces
  rintro ⟨-, -, -, -, -, -, written, -⟩
  obtain ⟨t, row, uncovered⟩ := doublyListed_gddr7Write_uncovers
  obtain ⟨u, answer, kept⟩ := written doublyListed 0 1 [1] .hub none [] 0 (fun _ => .inl rfl)
  obtain rfl : t = u := Host.Outcome.next.inj (row.symm.trans answer)
  have outside : Outside [⟨siteBase (0 : SiteId) + 1, 1⟩] 0 := by simp [Outside]
  exact absurd (uncovered.symm.trans (kept 0 outside)) (by decide)

end
end
section
/-! What traffic and reports leave of the rest of the module: the fields of the state that a message on its way sets (R370, R453), and memory under
a report (R491-R494). -/

set_option Elab.async false
namespace Sys2Proof.Machine

/-! ## Messages on their way (R36, R370) -/

/-- What a message that is sent may set: what bundles and engines hold, and the lists of messages. -/
structure MessageTraffic where
  tiles : List Tile
  hubBundles : List BundleDir
  engines : List Engine
  arrived : List (Nat × List Byte)
  flights : List Flight
  sent : List (Nat × List Byte)

/-- The state with another traffic. -/
def State.withTraffic (x : MessageTraffic) (s : State) : State :=
  { s with tiles := x.tiles, hubBundles := x.hubBundles, engines := x.engines,
           trans := { s.trans with arrived := x.arrived, flights := x.flights, sentMessages := x.sent } }

/-- From s to t only the traffic has changed, every optical link is in the state it was in, and these are the messages sent. -/
def Carries (s t : State) (sent : List (Nat × List Byte)) : Prop :=
  ∃ x : MessageTraffic, t = s.withTraffic x ∧ x.sent = sent ∧ x.engines.map Engine.state = s.engines.map Engine.state

theorem Carries.refl (s : State) : Carries s s s.trans.sentMessages := ⟨⟨s.tiles, s.hubBundles, s.engines, _, _, _⟩, rfl, rfl, rfl⟩

/-- What the traffic is no part of is as before. -/
theorem Carries.view {s t : State} {sent : List (Nat × List Byte)} (h : Carries s t sent) {β : Type} (v : State → β)
    (hv : ∀ x, v (s.withTraffic x) = v s) : v t = v s := by
  obtain ⟨x, rfl, -, -⟩ := h
  exact hv x

theorem Carries.sent {s t : State} {sent : List (Nat × List Byte)} (h : Carries s t sent) : t.trans.sentMessages = sent := by
  obtain ⟨x, rfl, same, -⟩ := h
  exact same

theorem Carries.linkState {s t : State} {sent : List (Nat × List Byte)} (h : Carries s t sent) (e : Nat) :
    (engineAt t e).state = (engineAt s e).state := by
  obtain ⟨x, rfl, -, states⟩ := h
  have entry (l : List Engine) : (l.getD e (Engine.reset e)).state = (l.map Engine.state).getD e (Engine.reset e).state := (List.getD_map _ _ _).symm
  exact (entry x.engines).trans ((congrArg (fun l : List LinkState => l.getD e (Engine.reset e).state) states).trans (entry s.engines).symm)

theorem carries_arrive (f : Flight) (s : State) : Carries s (s.arrive f) s.trans.sentMessages := by
  unfold State.arrive
  cases f.dst with
  | engine e => exact ⟨⟨s.tiles, s.hubBundles, _, _, _, _⟩, rfl, rfl, map_modAt_of_eq (by intro; rfl) s.engines e⟩
  | site n => exact ⟨⟨s.tiles, s.hubBundles, s.engines, _, _, _⟩, rfl, rfl, rfl⟩
  | hub => exact ⟨⟨s.tiles, s.hubBundles, s.engines, _, _, _⟩, rfl, rfl, rfl⟩

theorem carries_hopOver (b : BundleEnd) (g : BundleDir → BundleDir) (f : Flight) (s : State) :
    Carries s ((s.modBundle b g).noteFlight f) s.trans.sentMessages := by
  cases b with
  | tile n i => exact ⟨⟨_, s.hubBundles, s.engines, _, _, _⟩, rfl, rfl, rfl⟩
  | hub b => exact ⟨⟨s.tiles, _, s.engines, _, _, _⟩, rfl, rfl, rfl⟩
  | engine e k => exact ⟨⟨s.tiles, s.hubBundles, _, _, _, _⟩, rfl, rfl, map_modAt_of_eq (by intro; rfl) s.engines e⟩

theorem carries_tryHop {f : Flight} {here : Station} {s t : State} (h : s.tryHop f here = some t) : Carries s t s.trans.sentMessages := by
  unfold State.tryHop at h
  split at h
  · cases h
    exact carries_arrive f s
  · split at h
    · cases h
    · split at h
      next b _ =>
        cases h
        exact carries_hopOver b _ f s
      next => cases h

theorem carries_hop (f : Flight) (here : Station) (s : State) : Carries s (s.hop f here) s.trans.sentMessages := by
  unfold State.hop
  split
  next h => exact carries_tryHop h
  next =>
    split
    next h => exact carries_tryHop h
    next => exact ⟨⟨s.tiles, s.hubBundles, s.engines, _, _, _⟩, rfl, rfl, rfl⟩

theorem carries_queueMsg (src : Station) (e : Nat) (m : List Byte) (s : State) :
    Carries s (s.queueMsg src e m) (s.trans.sentMessages ++ [(e, m)]) := by
  obtain ⟨x, entered, sent, states⟩ :=
    carries_hop { src, dst := .engine e, vc := msgVc (msgOp m), table := s.trans.meshTable, home := false, message := m } src s
  exact ⟨{ x with sent := x.sent ++ [(e, m)] }, by rw [State.queueMsg, State.enter, entered]; rfl, by rw [sent], states⟩

/-- A message with a route leaves by the engine of its route (R453). -/
theorem carries_sendMsg {s : State} {m : List Byte} {e : Nat} (route : routeFor s (msgDst m) (field 9 1 m) (msgVc (msgOp m)) = some e) :
    Carries s (s.sendMsg m) (s.trans.sentMessages ++ [(e, m)]) := by
  rw [State.sendMsg, State.sendFrom, route]
  exact carries_queueMsg ..

/-- Whether it has a route or not, a message that is sent sets the traffic alone. -/
theorem sendMsg_carries (m : List Byte) (s : State) : ∃ sent, Carries s (s.sendMsg m) sent := by
  cases route : routeFor s (msgDst m) (field 9 1 m) (msgVc (msgOp m)) with
  | some e => exact ⟨_, carries_sendMsg route⟩
  | none => exact ⟨_, by rw [State.sendMsg, State.sendFrom, route]; exact .refl s⟩

/-- A message taken from its link sets the traffic alone. -/
theorem carries_takeDelivered (e : Nat) (m : List Byte) (s : State) : Carries s (s.takeDelivered e m) s.trans.sentMessages :=
  ⟨⟨s.tiles, s.hubBundles, _, _, _, _⟩, rfl, rfl, map_modAt_of_eq (by intro; rfl) s.engines _⟩

/-! ## Memory under a report (R491-R494) -/

theorem State.modFlash_mem (i : Nat) (f : Flash → Flash) (s : State) : (s.modFlash i f).mem = s.mem := by
  unfold State.modFlash
  split <;> rfl

theorem State.putMirror_mem (m : Mirror) (s : State) : (s.putMirror m).mem = s.mem := by
  unfold State.putMirror
  dsimp only
  split
  · rfl
  · split
    · rfl
    · unfold State.enqueueBoth
      split <;> exact State.modFlash_mem ..

theorem State.commitRecord_mem (r : LogRec) (s : State) : (s.commitRecord r).mem = s.mem := by
  unfold State.commitRecord
  dsimp only
  split
  · rfl
  · split
    · rfl
    · refine (State.modFlash_mem ..).trans ?_
      split
      · exact State.putMirror_mem ..
      · rfl

theorem State.logEvent_mem (event source severity : Nat) (injected : Bool) (data : DWord) (s : State) :
    (s.logEvent event source severity injected data).mem = s.mem := by
  unfold State.logEvent
  dsimp only
  split
  · split
    · rfl
    · show s.commitOpen.mem = s.mem
      unfold State.commitOpen
      split
      · rfl
      · exact State.commitRecord_mem ..
  · rfl

theorem State.markEvents_mem (evs : List FaultEvent) (s : State) : (s.markEvents evs).mem = s.mem := by
  unfold State.markEvents
  split
  · rfl
  · refine foldl_view (v := State.mem) (fun t e => ?_) _ s
    split
    · exact foldl_view (v := State.mem) (by intros; rfl) _ t
    · rfl

theorem State.raiseCause_mem (k : Nat) (s : State) : (s.raiseCause k).mem = s.mem := by
  unfold State.raiseCause State.sendVector State.send
  dsimp only
  repeat' split
  all_goals rfl

theorem State.captureOnly_mem (evs : List FaultEvent) (s : State) : (s.captureOnly evs).mem = s.mem := by
  have marked (u : State) (l : List FaultEvent) : ((u.logEvents l).markEvents l).mem = u.mem :=
    (State.markEvents_mem ..).trans (foldl_view (v := State.mem) (fun t e => State.logEvent_mem _ _ _ _ _ t) l u)
  unfold State.captureOnly
  dsimp only
  split
  · exact (State.raiseCause_mem ..).trans (marked ..)
  · exact marked ..

/-- An event that is no S3 leaves memory. -/
theorem State.raise_mem {source : Nat} (calm : severityOf source ≠ 3) (data : Nat) (s : State) : (s.raise source data).mem = s.mem := by
  have none_ : [({ source, data := BitVec.ofNat 64 data } : FaultEvent)].filter (fun e => severityOf e.source == 3) = [] := by simp [calm]
  rw [State.raise, State.capture, none_]
  exact State.captureOnly_mem ..

/-! ## A link that goes down (R443, R444) -/

/-- An engine whose link has been cut: bring-up starts again. -/
def Engine.cutLink (y : Engine) (rate : Nat) : Engine :=
  { y with state := .training, restoring := true, link := y.link.cleared, rxFlits := [], linkDowns := satAdd y.linkDowns 1 255,
           txWords := [(trainWord 0 2 rate, 3)], bringUp := { BringUp.reset with step := 1, wait := some (0, 3), partner := y.bringUp.partner },
           tx := { y.tx with change := none, deferred := [], maps := [], tbDue := [] },
           rx := { y.rx with change := none, deferred := [], maps := [], frozen := false } }

/-- A message held on the link goes on another way, or is dropped (R443). -/
theorem State.resendOrDrop_keeps {P : State → Prop} (queued : ∀ src k m t, P t → P (t.queueMsg src k m)) (e age : Nat) (m : List Byte) {acc : State × Nat}
    (h : P acc.1) : P (State.resendOrDrop e m age acc).1 := by
  unfold State.resendOrDrop
  dsimp only
  split
  · exact h
  · split
    · split
      · exact h
      · exact queued _ _ _ _ h
    · exact h

/-- What a cut, quiet reports, messages sent again and new routes keep, a link that goes down keeps. -/
theorem State.linkDown_keeps {P : State → Prop} {e : Nat} {s : State} (cut : P (s.modEngine e (fun y => y.cutLink y.tx.rate)))
    (raised : ∀ source data t, severityOf source ≠ 3 → P t → P (t.raise source data)) (queued : ∀ src k m t, P t → P (t.queueMsg src k m))
    (routed : ∀ t routes discarded, P t → P { t with trans := { t.trans with routes, discarded } }) : P (s.linkDown e) := by
  have rerouted (t : State) (h : P t) : P (t.reroute e) :=
    List.foldlRecOn (motive := P) _ _ (routed t _ t.trans.discarded h) (fun u keeps p _ => raised _ _ u (calm_src (by decide) (by decide)) keeps)
  have resent (l : List (Nat × List Byte)) (acc : State × Nat) (h : P acc.1) : P (l.foldl (fun a m => State.resendOrDrop e m.2 m.1 a) acc).1 :=
    List.foldlRecOn (motive := fun a : State × Nat => P a.1) _ _ h (fun _ keeps m _ => State.resendOrDrop_keeps queued e m.1 m.2 keeps)
  have down := resent (regroup ((engineAt s e).link.held.map (fun h => h.2) ++ (engineAt s e).link.txQueue.map (fun q => (0, q.2)))) (_, 0)
    (rerouted _ (raised (srcId 2 e 0x0D) 0 _ (calm_src (by decide) (by decide)) cut))
  unfold State.linkDown
  dsimp only
  split
  · exact down
  · exact raised _ _ _ (calm_src (by decide) (by decide)) (routed _ _ _ down)

end Sys2Proof.Machine
end
section
/-! Requests that other modules send here, and responses to those sent from here (R448-R452): each is taken from the link that brought it, and the
tables of transactions change as it says. -/

set_option Elab.async false
namespace Sys2Proof.Machine

/-! ## A message taken from its link -/

/-- A request for this module whose memory answers is taken (R450, R452). -/
theorem execTransactionRequest_takes {s : State} {e : EngineId} {m : List Byte} (up : (engineAt s e).state = .up) (ok : messageOk m = true)
    (channel : wrongVc s e m = false) (named : ownId s ≠ 0xFFFF) (mine : msgDst m = ownId s) (request : bit 7 (msgOp m) = false)
    (flows : memWaitsBy s (requestUnit m) (requestPieces m) = false) :
    exec (.transactionRequest e m) s = .next ((s.takeDelivered e m).takeRequest m) := by
  have up' : (engineAt (s.takeDelivered e m) e).state = .up := ((carries_takeDelivered ..).linkState e).trans up
  have named' : ¬ownId (s.takeDelivered e m) = 0xFFFF := named
  have mine' : msgDst m = ownId (s.takeDelivered e m) := mine
  have flows' : memWaitsBy (s.takeDelivered e m) (requestUnit m) (requestPieces m) = false := flows
  show execTransactionRequest e m s = _
  simp only [execTransactionRequest, up', ok, channel, request, flows', Bool.not_true, Bool.or_self, Bool.false_eq_true, ne_eq, not_true_eq_false,
    if_false, if_neg named', if_neg (not_not_intro mine')]

/-- One whose memory waits leaves the module as it is (R264, R268). -/
theorem execTransactionRequest_waits {s : State} {e : EngineId} {m : List Byte} (up : (engineAt s e).state = .up) (ok : messageOk m = true)
    (channel : wrongVc s e m = false) (named : ownId s ≠ 0xFFFF) (mine : msgDst m = ownId s)
    (waits : memWaitsBy s (requestUnit m) (requestPieces m) = true) : exec (.transactionRequest e m) s = .next s := by
  have up' : (engineAt (s.takeDelivered e m) e).state = .up := ((carries_takeDelivered ..).linkState e).trans up
  have named' : ¬ownId (s.takeDelivered e m) = 0xFFFF := named
  have mine' : msgDst m = ownId (s.takeDelivered e m) := mine
  have waits' : memWaitsBy (s.takeDelivered e m) (requestUnit m) (requestPieces m) = true := waits
  show execTransactionRequest e m s = _
  simp only [execTransactionRequest, up', ok, channel, waits', Bool.not_true, Bool.or_self, Bool.or_true, Bool.false_eq_true, ne_eq,
    not_true_eq_false, if_true, if_false, if_neg named', if_neg (not_not_intro mine')]

/-! ## A request executed once, and its repeats (R450) -/

/-- The entry of a request in the completion cache. -/
def entryOf (m : List Byte) (code : Nat) : CacheEntry :=
  { unit := field 8 1 m, source := msgSrc m, slot := msgTag m % 4096, gen := msgTag m / 4096, code }

/-- Whether a unit has a cache set for a source module (R450). -/
def HasCacheSet (s : State) (unit source : Nat) : Prop := (cacheSources s unit).length < 16 ∨ (cacheSources s unit).contains source = true

/-- A request that is new at its unit is executed, cached and answered. -/
theorem State.takeRequest_new {s t : State} {m data : List Byte} {code operand : Nat} (here : unitHere s (field 8 1 m) = true)
    (new : cacheAt s (field 8 1 m) (msgSrc m) (msgTag m % 4096) = none) (room : HasCacheSet s (field 8 1 m) (msgSrc m))
    (run : s.runRequest m = (t, code, operand, data)) : s.takeRequest m = (t.cachePut (entryOf m code)).respond m code operand data := by
  have turned : ¬(16 ≤ (cacheSources s (field 8 1 m)).length ∧ (cacheSources s (field 8 1 m)).contains (msgSrc m) = false) := by
    rintro ⟨full, absent⟩
    rcases room with few | there
    · omega
    · rw [absent] at there
      cases there
  simp only [State.takeRequest, here, new, run, if_neg turned, Bool.not_true, Bool.false_eq_true, if_false]
  rfl

/-- One that is known, and no READ, is answered again and changes nothing. -/
theorem State.takeRequest_repeated {s : State} {m : List Byte} {c : CacheEntry} (here : unitHere s (field 8 1 m) = true)
    (known : cacheAt s (field 8 1 m) (msgSrc m) (msgTag m % 4096) = some c) (gen : c.gen = msgTag m / 4096) (noRead : msgOp m ≠ 0x01) :
    s.takeRequest m = s.respond m 1 c.code [] := by
  simp only [State.takeRequest, here, known, gen, noRead, Bool.not_true, Bool.false_eq_true, if_true, if_false]

theorem respond_carries (m : List Byte) (code operand : Nat) (data : List Byte) (s : State) :
    ∃ sent, Carries s (s.respond m code operand data) sent := by
  unfold State.respond
  split
  · exact ⟨_, .refl s⟩
  · exact sendMsg_carries ..

/-- The entry that is written is the one that its request finds. -/
theorem cacheAt_cachePut (c : CacheEntry) (s : State) : cacheAt (s.cachePut c) c.unit c.source c.slot = some c := by
  simp [cacheAt, State.cachePut]

/-- Of what has gone nothing is found. -/
theorem find_without {α : Type} (p : α → Bool) (l : List α) : (without p l).find? p = none := by
  simp only [List.find?_eq_none]
  intro x kept
  simpa using (List.mem_filter.mp kept).2

/-- An entry that goes is the only one. -/
theorem cacheAt_without_ne {unit source slot u m k : Nat} (other : (u, m, k) ≠ (unit, source, slot)) (l : List CacheEntry) :
    (without (fun c : CacheEntry => c.unit == unit && c.source == source && c.slot == slot) l).find?
        (fun c => c.unit == u && c.source == m && c.slot == k) = l.find? (fun c => c.unit == u && c.source == m && c.slot == k) := by
  rw [without, List.find?_filter]
  congr 1
  funext c
  by_cases asked : c.unit = u ∧ c.source = m ∧ c.slot = k
  · obtain ⟨rfl, rfl, rfl⟩ := asked
    have kept : (c.unit == unit && c.source == source && c.slot == slot) = false := by
      refine Bool.eq_false_iff.mpr fun all => other ?_
      simp only [Bool.and_eq_true, beq_iff_eq] at all
      obtain ⟨⟨rfl, rfl⟩, rfl⟩ := all
      rfl
    simp [kept]
  · have missed : (c.unit == u && c.source == m && c.slot == k) = false := by simpa [and_assoc] using asked
    simp [missed]

/-- What a new request leaves, once it has been executed and cached. -/
theorem execTransactionRequest_executes {s t : State} {e : EngineId} {m data : List Byte} {code operand : Nat} (up : (engineAt s e).state = .up)
    (ok : messageOk m = true) (channel : wrongVc s e m = false) (named : ownId s ≠ 0xFFFF) (mine : msgDst m = ownId s)
    (request : bit 7 (msgOp m) = false) (flows : memWaitsBy s (requestUnit m) (requestPieces m) = false) (here : unitHere s (field 8 1 m) = true)
    (new : cacheAt s (field 8 1 m) (msgSrc m) (msgTag m % 4096) = none) (room : HasCacheSet s (field 8 1 m) (msgSrc m))
    (run : (s.takeDelivered e m).runRequest m = (t, code, operand, data)) :
    Answers (.transactionRequest e m) s (fun u => u.mem = t.mem ∧ u.cel = t.cel
      ∧ cacheAt u (field 8 1 m) (msgSrc m) (msgTag m % 4096) = some (entryOf m code)) := by
  obtain ⟨sent, carried⟩ := respond_carries m code operand data (t.cachePut (entryOf m code))
  have taken : (s.takeDelivered e m).takeRequest m = _ := State.takeRequest_new here new room run
  refine ⟨_, execTransactionRequest_takes up ok channel named mine request flows, ?_⟩
  rw [taken]
  exact ⟨carried.view State.mem (fun _ => rfl), carried.view State.cel (fun _ => rfl),
    (carried.view (cacheAt · _ _ _) (fun _ => rfl)).trans (cacheAt_cachePut (entryOf m code) t)⟩

/-- A WRITE of some bytes to memory that is there stores them (R448). -/
theorem State.runRequest_write {s : State} {m : List Byte} (op : msgOp m = 0x02) (some_ : 24 < m.length)
    (mapped : accessSource s (requestUnit m) false [⟨msgOperand m % 2 ^ 48, m.length - 24⟩] = none) :
    s.runRequest m = (s.writeMem [⟨msgOperand m % 2 ^ 48, m.length - 24⟩] (m.drop 24), 0, 0, []) := by
  simp only [State.runRequest, op, mapped, if_neg (show ¬m.length = 24 by omega), Option.isSome_none, Bool.false_eq_true, if_false]

/-- A READ of up to 4,096 bytes of memory that is there answers them, and counts those of leased blocks (R448, Table 7-3). -/
theorem State.runRequest_read {s : State} {m : List Byte} {n : Nat} (op : msgOp m = 0x01) (size : n = msgOperand m / 2 ^ 48) (some_ : 1 ≤ n)
    (few : n ≤ 4096) (mapped : accessSource s (requestUnit m) true [⟨msgOperand m % 2 ^ 48, n⟩] = none) :
    s.runRequest m = ((s.touch false [⟨msgOperand m % 2 ^ 48, n⟩]).servedRead (msgSrc m) (msgOperand m % 2 ^ 48) n, 0, 0,
      readPieces s.mem.cells [⟨msgOperand m % 2 ^ 48, n⟩]) := by
  subst size
  simp only [State.runRequest, op, mapped, if_neg (show ¬msgOperand m / 2 ^ 48 = 0 by omega), if_neg (not_lt.mpr few)]

/-- An access leaves the poison of every granule (R256). -/
theorem State.touch_poison (write : Bool) (l : List Extent) (s : State) : (s.touch write l).mem.poison = s.mem.poison := by
  refine foldl_view (v := fun t : State => t.mem.poison) (fun t e => ?_) l s
  unfold State.touchExtent
  dsimp only
  split
  · exact foldl_view (v := fun t : State => t.mem.poison) (by intros; rfl) ..
  · rfl

/-- The bytes of leased blocks that a READ names count once (Table 7-3). -/
theorem State.servedRead_touch (source a n : Nat) (l : List Extent) (s : State) :
    ((s.touch false l).servedRead source a n).cel.kvRead = s.cel.kvRead + leasedBytes s source a n := by
  have leases : (s.touch false l).trans = s.trans := (State.touch_frame false l s).exact (by decide) (p := .trans) (by decide)
  simp only [State.servedRead, State.touch_cel, leasedBytes, leases]

/-! ## Messages that end at the link or go on (R451, R452) -/

/-- A transit message with no hops left is reported and dropped (R452). -/
theorem execTransactionRequest_spent {s : State} {e : EngineId} {m : List Byte} (up : (engineAt s e).state = .up) (ok : messageOk m = true)
    (channel : wrongVc s e m = false) (named : ownId s ≠ 0xFFFF) (other : msgDst m ≠ ownId s) (spent : msgHops m = 0) :
    exec (.transactionRequest e m) s = .next ((s.takeDelivered e m).raise (srcId 2 e 0x11) (msgDst m)) := by
  have up' : (engineAt (s.takeDelivered e m) e).state = .up := ((carries_takeDelivered ..).linkState e).trans up
  have named' : ¬ownId (s.takeDelivered e m) = 0xFFFF := named
  have other' : msgDst m ≠ ownId (s.takeDelivered e m) := other
  show execTransactionRequest e m s = _
  simp only [execTransactionRequest, up', ok, channel, spent, State.transit, Bool.not_true, Bool.or_self, Bool.false_eq_true, ne_eq, not_true_eq_false,
    if_true, if_false, if_neg named', if_pos other']

/-- A message that breaks Tables 15-7 and 15-8, or comes on a channel that is not its own, ends its link (R442, R451). -/
theorem execTransactionRequest_protocol {s : State} {e : EngineId} {m : List Byte} (up : (engineAt s e).state = .up)
    (bad : messageOk m = false ∨ wrongVc s e m = true) :
    exec (.transactionRequest e m) s = .next ((s.takeDelivered e m).protocol (.optical e)) := by
  have up' : (engineAt (s.takeDelivered e m) e).state = .up := ((carries_takeDelivered ..).linkState e).trans up
  have bad' : (!messageOk m || wrongVc s e m) = true := by
    rcases bad with h | h <;> simp [h]
  show execTransactionRequest e m s = _
  simp only [execTransactionRequest, up', bad', ne_eq, not_true_eq_false, if_true, if_false]

/-- A PROTOCOL event is reported, takes its link down and leaves memory (R442). -/
theorem State.protocol_optical {s : State} {e : EngineId} (has : e.val < s.engines.length) :
    (engineAt (s.protocol (.optical e)) e).state = .training ∧ srcId 2 e 0x0F ∈ (s.protocol (.optical e)).flt.sticky
      ∧ (s.protocol (.optical e)).mem = s.mem := by
  have calm : severityOf (srcId 2 e 0x0F) ≠ 3 := calm_src (by decide) (by decide)
  have quiet {source : Nat} (h : severityOf source ≠ 3) (data : Nat) (t : State) : (t.raise source data).engines = t.engines :=
    (State.raise_quiet h).exact (by decide) (p := .engines) (by decide)
  refine State.linkDown_keeps (P := fun t => (engineAt t e).state = .training ∧ srcId 2 e 0x0F ∈ t.flt.sticky ∧ t.mem = s.mem)
    ?cut ?raised ?queued ?routed
  case cut =>
    refine ⟨?_, State.mem_raise_sticky.mpr (.inr rfl), State.raise_mem calm 0 s⟩
    rw [engineAt_modEngine_same (by rwa [quiet calm])]
    rfl
  case raised =>
    rintro source data t calm ⟨training, reported, kept⟩
    exact ⟨by rw [engineAt, quiet calm]; exact training, State.mem_raise_sticky.mpr (.inl reported), (State.raise_mem calm data t).trans kept⟩
  case queued =>
    rintro src k m t ⟨training, reported, kept⟩
    have carried := carries_queueMsg src k m t
    exact ⟨(carried.linkState e).trans training, by rwa [carried.view State.flt (fun _ => rfl)], (carried.view State.mem (fun _ => rfl)).trans kept⟩
  case routed =>
    exact fun t routes discarded kept => kept

end Sys2Proof.Machine
end
section
/-! Responses, and how a request that was sent from here ends (R449); the completion cache, keepalives and leases (R450, R454). -/

set_option Elab.async false
namespace Sys2Proof.Machine

/-! ## A response taken from its link (R449) -/

/-- The state once a response has been taken from the link that brought it, where one did. -/
def State.takeArrived (m : List Byte) (s : State) : State :=
  match arrivedOn s m with
  | some e => s.takeDelivered e m
  | none => s

theorem takeArrived_carries (m : List Byte) (s : State) : Carries s (s.takeArrived m) s.trans.sentMessages := by
  unfold State.takeArrived
  split
  · exact carries_takeDelivered ..
  · exact .refl s

theorem answerWaits_of_unblocked {s : State} {m : List Byte} {q : Request} (found : requestAt s (msgTag m % 4096) = some q) (plain : q.block = none) :
    answerWaits s m = false := by
  simp [answerWaits, found, plain]

/-- A message is a response for this module, has come as Tables 15-7 and 15-8 say, and names the slot (R449, R451). -/
structure Responds (s : State) (m : List Byte) (slot : Nat) (q : Request) : Prop where
  ok : messageOk m = true
  channel : ∀ e, arrivedOn s m = some e → wrongVc s e m = false
  named : ownId s ≠ 0xFFFF
  mine : msgDst m = ownId s
  response : bit 7 (msgOp m) = true
  tag : slot = msgTag m % 4096
  found : requestAt s slot = some q

/-- A response for this module is taken, unless its block waits. -/
theorem Responds.unfold {s : State} {m : List Byte} {slot : Nat} {q : Request} (h : Responds s m slot q) :
    execTransactionResponse m s = if (!answerWaits (s.takeArrived m) m) = true then .next ((s.takeArrived m).takeResponse m) else .next s := by
  have carried := takeArrived_carries m s
  have named : ¬ownId (s.takeArrived m) = 0xFFFF := by rw [carried.view ownId (fun _ => rfl)]; exact h.named
  have mine : msgDst m = ownId (s.takeArrived m) := by rw [carried.view ownId (fun _ => rfl)]; exact h.mine
  have channel : ((arrivedOn s m).isSome && wrongVc s ((arrivedOn s m).getD 0) m) = false := by
    cases hit : arrivedOn s m with
    | none => rfl
    | some e => exact h.channel e hit
  have taken : execTransactionResponse m s = (if (!messageOk m || ((arrivedOn s m).isSome && wrongVc s ((arrivedOn s m).getD 0) m)) = true
      then .next (if (arrivedOn s m).isSome then (s.takeArrived m).protocol (.optical (Fin.ofNat 24 ((arrivedOn s m).getD 0))) else s.takeArrived m)
      else if ownId (s.takeArrived m) = 0xFFFF then .next (s.takeArrived m)
      else if msgDst m ≠ ownId (s.takeArrived m) then .next ((s.takeArrived m).transit ((arrivedOn s m).getD 0) m)
      else if (bit 7 (msgOp m) && !answerWaits (s.takeArrived m) m) = true then .next ((s.takeArrived m).takeResponse m) else .next s) := rfl
  rw [taken]
  simp only [h.ok, channel, h.response, if_neg named, if_neg (not_not_intro mine), Bool.not_true, Bool.or_self, Bool.true_and,
    Bool.false_eq_true, if_false]

theorem execTransactionResponse_takes {s : State} {m : List Byte} {slot : Nat} {q : Request} (h : Responds s m slot q)
    (flows : answerWaits s m = false) : exec (.transactionResponse m) s = .next ((s.takeArrived m).takeResponse m) := by
  have flows' : answerWaits (s.takeArrived m) m = false := by
    unfold State.takeArrived
    split <;> exact flows
  show execTransactionResponse m s = _
  rw [h.unfold, flows']
  simp

/-- One whose block waits leaves the module as it is (R264, R268). -/
theorem execTransactionResponse_waits {s : State} {m : List Byte} {slot : Nat} {q : Request} (h : Responds s m slot q)
    (waits : answerWaits s m = true) : exec (.transactionResponse m) s = .next s := by
  have waits' : answerWaits (s.takeArrived m) m = true := by
    unfold State.takeArrived
    split <;> exact waits
  show execTransactionResponse m s = _
  rw [h.unfold, waits']
  simp

/-- The request that a response finds, once it has been taken from its link. -/
theorem Responds.found_taken {s : State} {m : List Byte} {slot : Nat} {q : Request} (h : Responds s m slot q) :
    requestAt (s.takeArrived m) slot = some q :=
  ((takeArrived_carries m s).view (requestAt · slot) (fun _ => rfl)).trans h.found

/-! ## The table of requests (R449) -/

/-- A request that its unit answered with UNIT_BUSY, or that has been sent again. -/
def Request.marked (busy : Bool) (q : Request) : Request := { q with busy }

theorem requestAt_slot {s : State} {slot : Nat} {q : Request} (h : requestAt s slot = some q) : q.slot = slot := by
  simpa using List.find?_some h

/-- A change that keeps slots changes the request of its slot alone. -/
theorem requestAt_modRequest {f : Request → Request} (keeps : ∀ q, (f q).slot = q.slot) (slot k : Nat) (s : State) :
    requestAt (s.modRequest slot f) k = (requestAt s k).map (fun q => if q.slot = slot then f q else q) := by
  have same : (fun q : Request => q.slot == k) ∘ (fun q => if q.slot = slot then f q else q) = fun q => q.slot == k := by
    funext q
    by_cases own : q.slot = slot <;> simp [own, keeps]
  simp only [requestAt, State.modRequest, List.find?_map, same]

theorem requestAt_modRequest_same {f : Request → Request} (keeps : ∀ q, (f q).slot = q.slot) {s : State} {slot : Nat} {q : Request}
    (h : requestAt s slot = some q) : requestAt (s.modRequest slot f) slot = some (f q) := by
  simp [requestAt_modRequest keeps, h, requestAt_slot h]

theorem requestAt_modRequest_ne {f : Request → Request} (keeps : ∀ q, (f q).slot = q.slot) {slot k : Nat} (other : k ≠ slot) (s : State) :
    requestAt (s.modRequest slot f) k = requestAt s k := by
  rw [requestAt_modRequest keeps]
  cases found : requestAt s k with
  | none => rfl
  | some q =>
    have own : ¬q.slot = slot := by rw [requestAt_slot found]; exact other
    simp [own]

theorem requestAt_marked_same {s : State} {slot : Nat} {q : Request} (h : requestAt s slot = some q) (busy : Bool) :
    requestAt (s.modRequest slot (Request.marked busy)) slot = some { q with busy } := requestAt_modRequest_same (by intro; rfl) h

theorem requestAt_marked_ne {slot k : Nat} (other : k ≠ slot) (busy : Bool) (s : State) :
    requestAt (s.modRequest slot (Request.marked busy)) k = requestAt s k := requestAt_modRequest_ne (by intro; rfl) other s

/-- With no request that waits, the end of one frees its slot and nothing more. -/
theorem State.endRequest_of_idle {s : State} (idle : s.trans.waiting = []) (slot : Nat) :
    s.endRequest slot = { s with trans := { s.trans with requests := without (fun q => q.slot == slot) s.trans.requests, waiting := [] } } := by
  simp [State.endRequest, State.request, idle, issueAll]

theorem requestAt_endRequest_same {s : State} (idle : s.trans.waiting = []) (slot : Nat) : requestAt (s.endRequest slot) slot = none := by
  rw [State.endRequest_of_idle idle]
  simp [requestAt, without]

theorem requestAt_endRequest_ne {s : State} (idle : s.trans.waiting = []) {slot k : Nat} (other : k ≠ slot) :
    requestAt (s.endRequest slot) k = requestAt s k := by
  rw [State.endRequest_of_idle idle]
  simp only [requestAt, without, List.find?_filter]
  congr 1
  funext q
  by_cases own : q.slot = k
  · simp [own, other]
  · simp [own]

/-! ## A request that fails ends its command (R449) -/

theorem cmdAt_of_cmds {s t : State} (h : t.host.cmds = s.host.cmds) (cid : Nat) : cmdAt t cid = cmdAt s cid := by rw [cmdAt, h, cmdAt]

theorem endOf_cid (s : State) (status : Status) (source : Nat) (c : Cmd) : (endOf s status source c).cid = c.cid := by
  unfold endOf
  split
  · exact runEnd_cid ..
  · split <;> exact Cmd.finish_cid ..
  · exact Cmd.finish_cid ..

/-- Work that is given up ends with the status, unless an operation has failed with another or an error has stopped its launch. -/
theorem endOf_done {s : State} {c : Cmd} {status : Status}
    (sound : ∀ r, runOf s c.cid = some r → r.opsFailed = [] ∨ ∃ i x, firstFailed r = some (i, status, x))
    (unstopped : ∀ l, launchOf s c.cid = some l → l.error = none) (open_ : c.done = none) (unmarked : c.marked = none) (source : Nat) :
    (endOf s status source c).done.map (·.status) = some status := by
  unfold endOf
  split
  next run =>
    rcases sound _ run with none_ | ⟨i, x, first⟩
    · exact runEnd_done none_ open_ unmarked ..
    · exact runEnd_failed first open_ unmarked ..
  next launch => simp [unstopped _ launch, Cmd.finish, open_, unmarked]
  next => simp [Cmd.finish, open_, unmarked]

/-- The entry of a command whose work has failed is as `endOf` leaves it. -/
theorem cmdAt_failWork (cid : Nat) (status : Status) (source : Nat) (s : State) :
    cmdAt (s.failWork cid status source) cid = (cmdAt s cid).map (endOf s status source) := by
  have held (t : State) : cmdAt (t.settleHeld cid) cid = cmdAt t cid :=
    cmdAt_of_cmds ((State.settleHeld_frame cid t).exact (by decide) (p := .cmds) (by decide)) cid
  rw [State.failWork, held]
  exact (cmdAt_dropRun ..).trans (cmdAt_modCmd s cid _ (endOf_cid s status source))

theorem State.failWork_endedAs {s : State} {cid : Nat} {c : Cmd} {status : Status} (live : Live s cid c)
    (sound : ∀ r, runOf s cid = some r → r.opsFailed = [] ∨ ∃ i x, firstFailed r = some (i, status, x))
    (unstopped : ∀ l, launchOf s cid = some l → l.error = none) (source : Nat) : EndedAs (s.failWork cid status source) cid status := by
  obtain ⟨entry, open_, unmarked⟩ := live
  obtain rfl : c.cid = cid := by simpa using List.find?_some entry
  have ended := endOf_done (source := source) sound unstopped open_ unmarked
  simpa [EndedAs, cmdAt_failWork, entry] using ended

/-- A request that serves no block and no migration ends its command with the status of its failure. -/
theorem State.requestFails_endedAs {s : State} {q : Request} {cid : Nat} {c : Cmd} (owner : q.cid = some cid) (plain : q.block = none)
    (live : Live s cid c) (sound : NoneFailed s cid) (settled : migOf s cid true = none) (status : Status) (source : Nat) :
    EndedAs (s.requestFails q status source) cid status := by
  obtain ⟨whole, unstopped⟩ := sound
  have ended : EndedAs ((match q.op with | some i => s.modRun cid (Run.fail i status source) | none => s).failWork cid status source) cid status := by
    cases q.op with
    | none => exact State.failWork_endedAs live (fun r run => .inl (whole r run)) unstopped source
    | some i =>
      refine State.failWork_endedAs (s := s.modRun cid (Run.fail i status source)) live (fun r run => .inr ?_) unstopped source
      rw [runOf_modRun (by intro; rfl)] at run
      obtain ⟨r0, before, rfl⟩ := Option.map_eq_some_iff.mp run
      exact ⟨i, source, firstFailed_fail (by simp [whole r0 before]) status source⟩
  simp only [State.requestFails, owner, plain, settled, Option.isSome_none, Bool.false_eq_true, if_false]
  exact ended

/-- The same once it has left its slot. -/
theorem State.endRequest_fails_endedAs {s : State} {q : Request} {cid : Nat} {c : Cmd} (owner : q.cid = some cid) (plain : q.block = none)
    (live : Live s cid c) (sound : NoneFailed s cid) (settled : migOf s cid true = none) (slot : Nat) (status : Status) (source : Nat) :
    EndedAs ((s.endRequest slot).requestFails q status source) cid status := by
  have frame := State.endRequest_frame slot s
  have cmds : (s.endRequest slot).host.cmds = s.host.cmds := frame.exact (by decide) (p := .cmds) (by decide)
  have runs : (s.endRequest slot).runs = s.runs := frame.exact (by decide) (p := .runs) (by decide)
  have launches : (s.endRequest slot).launches = s.launches := frame.exact (by decide) (p := .launches) (by decide)
  have migs : (s.endRequest slot).migs = s.migs := frame.exact (by decide) (p := .migs) (by decide)
  refine State.requestFails_endedAs (c := c) owner plain ?live ?sound ?settled status source
  case live => simpa only [Live, cmdAt, cmds] using live
  case sound => simpa only [NoneFailed, runOf, launchOf, runs, launches] using sound
  case settled => simpa only [migOf, migs] using settled

/-! ## Keepalives (R454) -/

/-- A tag takes the place of another in a message. -/
theorem tagMsg_makeMsg (slot gen dst src op hops tag dstUnit srcUnit tflags resp operand : Nat) (data : List Byte) :
    tagMsg slot gen (makeMsg dst src op hops tag dstUnit srcUnit tflags resp operand data)
      = makeMsg dst src op hops (slot + 4096 * gen) dstUnit srcUnit tflags resp operand data := rfl

section
variable (dst src op hops tag dstUnit srcUnit tflags resp operand : Nat) (data : List Byte)

theorem msgDst_makeMsg (fits : dst < 2 ^ 16) :
    msgDst (makeMsg dst src op hops tag dstUnit srcUnit tflags resp operand data) = dst := field_of_slice (n := 2) rfl fits

theorem msgOp_makeMsg (fits : op < 2 ^ 8) :
    msgOp (makeMsg dst src op hops tag dstUnit srcUnit tflags resp operand data) = op := field_of_slice (n := 1) rfl fits

theorem srcUnit_makeMsg (fits : srcUnit < 2 ^ 8) :
    field 9 1 (makeMsg dst src op hops tag dstUnit srcUnit tflags resp operand data) = srcUnit := field_of_slice (n := 1) rfl fits

theorem msgOperand_makeMsg (fits : operand < 2 ^ 64) :
    msgOperand (makeMsg dst src op hops tag dstUnit srcUnit tflags resp operand data) = operand := field_of_slice (n := 8) rfl fits

end

/-- The message of a request of the hub. -/
theorem requestTo_message (s : State) (cid block : Option Nat) (dst op operand : Nat) (data : List Byte) :
    ∃ hops, (requestTo s cid block dst op operand data).message = makeMsg dst (ownId s) op hops 0 0x80 0x80 0 0 operand data := ⟨_, rfl⟩

/-- A request leaves as it is issued, where a slot is free and a route is there (R449). -/
theorem State.request_sends {s : State} {q : Request} {e : Nat} (idle : s.trans.waiting = [])
    (free : freeIndex (s.trans.requests.map (·.slot)) tagSlots ≠ none)
    (route : ∀ k g, routeFor s (msgDst (tagMsg k g q.message)) (field 9 1 (tagMsg k g q.message)) (msgVc (msgOp (tagMsg k g q.message))) = some e) :
    ∃ k g, (s.request [q]).trans.sentMessages = s.trans.sentMessages ++ [(e, tagMsg k g q.message)] := by
  obtain ⟨k, slot⟩ := Option.ne_none_iff_exists'.mp free
  have issued : ∃ g t, s.issue q = some t ∧ t.trans.sentMessages = s.trans.sentMessages ++ [(e, tagMsg k g q.message)] := by
    refine ⟨((lookupKey k s.trans.slotGen).getD 0 + 1) % 16, _, by rw [State.issue, slot]; rfl, ?_⟩
    exact (carries_sendMsg (by exact route k _)).sent
  obtain ⟨g, t, issued, sent⟩ := issued
  refine ⟨k, g, ?_⟩
  simpa [State.request, idle, issueAll, issued] using sent

/-- A keepalive goes to its peer under the operand of this module. -/
theorem State.request_keepalive {s : State} {p e : Nat} (fits : p < 2 ^ 16) (idle : s.trans.waiting = [])
    (free : freeIndex (s.trans.requests.map (·.slot)) tagSlots ≠ none) (route : routeFor s p 0x80 (msgVc 0x11) = some e) :
    ((s.request [requestTo s none none p 0x11 (keepaliveOperand s) []]).trans.sentMessages.map (fun q => (q.1, msgDst q.2, msgOp q.2, msgOperand q.2)))
      = s.trans.sentMessages.map (fun q => (q.1, msgDst q.2, msgOp q.2, msgOperand q.2)) ++ [(e, p, 0x11, keepaliveOperand s)] := by
  have operand : keepaliveOperand s < 2 ^ 64 := by
    unfold keepaliveOperand
    omega
  obtain ⟨hops, message⟩ := requestTo_message s none none p 0x11 (keepaliveOperand s) []
  have op (k g : Nat) : msgOp (tagMsg k g (requestTo s none none p 0x11 (keepaliveOperand s) []).message) = 0x11 := by
    rw [message, tagMsg_makeMsg]; exact msgOp_makeMsg (fits := by decide) ..
  have dst (k g : Nat) : msgDst (tagMsg k g (requestTo s none none p 0x11 (keepaliveOperand s) []).message) = p := by
    rw [message, tagMsg_makeMsg]; exact msgDst_makeMsg (fits := fits) ..
  have unit (k g : Nat) : field 9 1 (tagMsg k g (requestTo s none none p 0x11 (keepaliveOperand s) []).message) = 0x80 := by
    rw [message, tagMsg_makeMsg]; exact srcUnit_makeMsg (fits := by decide) ..
  have word (k g : Nat) : msgOperand (tagMsg k g (requestTo s none none p 0x11 (keepaliveOperand s) []).message) = keepaliveOperand s := by
    rw [message, tagMsg_makeMsg]; exact msgOperand_makeMsg (fits := operand) ..
  obtain ⟨k, g, sent⟩ := State.request_sends idle free (fun k g => by rw [dst, unit, op]; exact route)
  rw [sent, List.map_append, List.map_singleton, dst, op, word]

theorem lookupKey_setKey {α : Type} (k : Nat) (v : α) (l : List (Nat × α)) : lookupKey k (setKey k v l) = some v := by
  simp [setKey, lookupKey]

theorem lookupKey_without {α : Type} (k : Nat) (l : List (Nat × α)) : lookupKey k (without (fun p => p.1 == k) l) = none := by
  induction l with
  | nil => rfl
  | cons p l ih =>
    by_cases own : p.1 = k
    · simpa [without, own] using ih
    · simpa [without, own, lookupKey] using ih

/-- After a keepalive every lease of its module is under the operand that it brought. -/
theorem State.keepalive_operand (source : Nat) (operand : DWord) (s : State) {l : Lease} (held : l ∈ (s.keepalive source operand).trans.leases)
    (own : l.owner = source) : l.operand = some operand := by
  obtain ⟨l0, -, rfl⟩ := List.mem_map.mp held
  by_cases before : l0.owner = source
  · simp [before]
  · simp [before] at own

/-- An operand that differs from the one of a lease releases the leases of the module (R454). -/
theorem State.keepalive_releases {s : State} {source : Nat} {operand : DWord}
    (differs : ∃ l ∈ s.trans.leases, l.owner = source ∧ l.operand.isSome = true ∧ l.operand ≠ some operand) {l : Lease}
    (held : l ∈ (s.keepalive source operand).trans.leases) : l.owner ≠ source := by
  have other : s.trans.leases.any (fun l => l.owner == source && l.operand.isSome && l.operand != some operand) = true := by
    simpa [and_assoc] using differs
  simp only [State.keepalive, other, if_true, State.releaseLeases, without, List.mem_map, List.mem_filter] at held
  obtain ⟨l0, ⟨-, kept⟩, rfl⟩ := held
  have kept : l0.owner ≠ source := by simpa using kept
  simp [kept]

/-- A lease of another module stays as it is. -/
theorem State.keepalive_others {s : State} {source : Nat} (operand : DWord) {l : Lease} (held : l ∈ s.trans.leases) (other : l.owner ≠ source) :
    l ∈ (s.keepalive source operand).trans.leases := by
  refine List.mem_map.mpr ⟨l, ?_, if_neg other⟩
  split
  · exact List.mem_filter.mpr ⟨held, by simpa using other⟩
  · exact held

end Sys2Proof.Machine
end
section
open Sys2Proof Sys2Proof.Machine

/-- Settles O40: a request that is taken is executed once or answered again, a response finds the request of its slot, and the other rows are
changes of the tables of transactions. -/
theorem transactionRowsComplete : Obligations.TransactionRowsComplete := by
  refine ⟨?write, ?repeated, ?read, ?spent, ?malformed, ?answered, ?failed, ?stale, ?busy, ?timeout, ?timeoutNone, ?retry, ?retryNone, ?expiry,
    ?keepaliveSend, ?keepaliveNone, ?keepalive, ?leaseExpiry⟩
  case write =>
    rintro s e m _ _ _ up ok channel named mine op rfl here new room some_ rfl rfl flows mapped
    have request : bit 7 (msgOp m) = false := by rw [op]; rfl
    have flows' : memWaitsBy s (requestUnit m) (requestPieces m) = false := by rw [requestPieces, op]; exact flows
    obtain ⟨t, taken, mem, -, entry⟩ := execTransactionRequest_executes up ok channel named mine request flows' here new room
      (State.runRequest_write op some_ mapped)
    exact ⟨t, taken, (congrArg MemSys.cells mem).trans (by rw [State.writeMem_cells, State.writeMem_cells]; rfl), by rw [entry]; rfl⟩
  case repeated =>
    rintro s e m _ c up ok channel named mine request noRead rfl here known gen
    by_cases flows : memWaitsBy s (requestUnit m) (requestPieces m) = false
    · refine ⟨_, execTransactionRequest_takes up ok channel named mine request flows, ?_⟩
      rw [State.takeRequest_repeated (s := s.takeDelivered e m) here known gen noRead]
      obtain ⟨sent, carried⟩ := respond_carries m 1 c.code [] (s.takeDelivered e m)
      exact ⟨carried.view State.mem (fun _ => rfl), carried.view (·.trans.cache) (fun _ => rfl), carried.view (·.trans.leases) (fun _ => rfl)⟩
    · exact ⟨s, execTransactionRequest_waits up ok channel named mine (by simpa using flows), rfl, rfl, rfl⟩
  case read =>
    rintro s e m _ _ n _ up ok channel named mine op rfl here new room rfl size some_ few rfl flows mapped
    have request : bit 7 (msgOp m) = false := by rw [op]; rfl
    have flows' : memWaitsBy s (requestUnit m) (requestPieces m) = false := by rw [requestPieces, op, ← size]; exact flows
    obtain ⟨t, taken, mem, cel, entry⟩ := execTransactionRequest_executes up ok channel named mine request flows' here new room
      (State.runRequest_read op size some_ few mapped)
    refine ⟨t, taken, (congrArg MemSys.cells mem).trans (State.touch_cells ..), (congrArg MemSys.poison mem).trans (State.touch_poison ..), ?_,
      by rw [entry]; rfl⟩
    exact (congrArg Cellarer.kvRead cel).trans (State.servedRead_touch (msgSrc m) (msgOperand m % 2 ^ 48) n _ (s.takeDelivered e m))
  case spent =>
    rintro s e m up ok channel named other hops
    have calm : severityOf (srcId 2 e 0x11) ≠ 3 := calm_src (by decide) (by decide)
    have trans : ((s.takeDelivered e m).raise (srcId 2 e 0x11) (msgDst m)).trans = (s.takeDelivered e m).trans :=
      (State.raise_quiet calm).exact (by decide) (p := .trans) (by decide)
    exact ⟨_, execTransactionRequest_spent up ok channel named other hops, State.mem_raise_sticky.mpr (.inr rfl), State.raise_mem calm ..,
      (congrArg Trans.sentMessages trans :)⟩
  case malformed =>
    rintro s e m has up bad
    exact ⟨_, execTransactionRequest_protocol up bad, State.protocol_optical (s := s.takeDelivered e m) (has.trans_eq (modAt_length ..).symm)⟩
  case answered =>
    rintro s m slot q ok channel named mine response tag found gen done owner plain idle
    have answer : Responds s m slot q := ⟨ok, channel, named, mine, response, tag, found⟩
    have ended : (s.takeArrived m).takeResponse m = (s.takeArrived m).endRequest slot := by
      simp [State.takeResponse, answer.found_taken, gen, done, State.requestDone, owner, plain, tag.symm]
    have carried := takeArrived_carries m s
    have idle' : (s.takeArrived m).trans.waiting = [] := (carried.view (·.trans.waiting) (fun _ => rfl)).trans idle
    refine ⟨_, execTransactionResponse_takes answer (answerWaits_of_unblocked (tag ▸ found) plain), ?_⟩
    rw [ended]
    exact ⟨requestAt_endRequest_same idle' slot,
      fun k other => (requestAt_endRequest_ne idle' other).trans (carried.view (requestAt · k) (fun _ => rfl))⟩
  case failed =>
    rintro s m slot q cid c ok channel named mine response tag found gen code owner plain live sound settled
    have answer : Responds s m slot q := ⟨ok, channel, named, mine, response, tag, found⟩
    have ended : (s.takeArrived m).takeResponse m
        = ((s.takeArrived m).endRequest slot).requestFails q (if msgResp m = 3 then .peerAbsent else .linkLost) 0 := by
      rcases code with absent | lost
      · simp [State.takeResponse, answer.found_taken, gen, absent, tag.symm]
      · simp [State.takeResponse, answer.found_taken, gen, lost, tag.symm]
    have carried := takeArrived_carries m s
    refine ⟨_, execTransactionResponse_takes answer (answerWaits_of_unblocked (tag ▸ found) plain), ?_⟩
    rw [ended]
    refine State.endRequest_fails_endedAs (c := c) owner plain ?live ?sound ?settled ..
    case live => exact (carried.view (Live · cid c) (fun _ => rfl)).mpr live
    case sound => exact (carried.view (NoneFailed · cid) (fun _ => rfl)).mpr sound
    case settled => exact (carried.view (migOf · cid true) (fun _ => rfl)).trans settled
  case stale =>
    rintro s m slot q ok channel named mine response tag found other
    have answer : Responds s m slot q := ⟨ok, channel, named, mine, response, tag, found⟩
    have carried := takeArrived_carries m s
    by_cases flows : answerWaits s m = false
    · refine ⟨_, execTransactionResponse_takes answer flows, ?_⟩
      have kept : (s.takeArrived m).takeResponse m = s.takeArrived m := by simp [State.takeResponse, answer.found_taken, tag.symm, other]
      rw [kept]
      exact ⟨carried.view (·.trans.requests) (fun _ => rfl), carried.view State.host (fun _ => rfl)⟩
    · exact ⟨s, execTransactionResponse_waits answer (by simpa using flows), rfl, rfl⟩
  case busy =>
    rintro s m slot q ok channel named mine response tag found gen code flows
    have answer : Responds s m slot q := ⟨ok, channel, named, mine, response, tag, found⟩
    have carried := takeArrived_carries m s
    have marked : (s.takeArrived m).takeResponse m = (s.takeArrived m).modRequest slot (Request.marked true) := by
      simp only [State.takeResponse, ← tag, answer.found_taken, gen, code, ne_eq, not_true_eq_false, if_false]
      rfl
    refine ⟨_, execTransactionResponse_takes answer flows, ?_⟩
    rw [marked]
    exact ⟨requestAt_marked_same answer.found_taken true,
      fun k other => (requestAt_marked_ne other true _).trans (carried.view (requestAt · k) (fun _ => rfl)),
      carried.view State.host (fun _ => rfl)⟩
  case timeout =>
    rintro s slot q cid c found owner plain live sound settled
    refine ⟨_, ?_, State.endRequest_fails_endedAs owner plain live sound settled slot .linkLost 0⟩
    show execRequestTimeout slot s = _
    rw [execRequestTimeout, found]
  case timeoutNone =>
    rintro s slot none_
    refine ⟨s, ?_, rfl⟩
    show execRequestTimeout slot s = _
    rw [execRequestTimeout, none_]
  case retry =>
    rintro s slot q e found busy route
    have carried := carries_sendMsg (s := s.modRequest slot (Request.marked false)) (m := q.message) route
    refine ⟨_, ?_, carried.sent, ?_, fun k other => ?_⟩
    · show execRequestRetry slot s = _
      simp only [execRequestRetry, found, busy, if_true]
      rfl
    · exact (carried.view (requestAt · slot) (fun _ => rfl)).trans (requestAt_marked_same found false)
    · exact (carried.view (requestAt · k) (fun _ => rfl)).trans (requestAt_marked_ne other false s)
  case retryNone =>
    rintro s slot idle
    refine ⟨s, ?_, rfl⟩
    show execRequestRetry slot s = _
    cases found : requestAt s slot with
    | none => simp [execRequestRetry, found]
    | some q => simp [execRequestRetry, found, idle q found]
  case expiry =>
    rintro s unit source slot
    refine ⟨_, rfl, ?_, fun u m k other => ?_⟩
    · exact find_without _ s.trans.cache
    · exact cacheAt_without_ne other s.trans.cache
  case keepaliveSend =>
    rintro s p e holds peers fits idle free route
    refine ⟨_, ?_, State.request_keepalive (by omega) idle free route⟩
    show execLeaseKeepaliveSend s = _
    rw [execLeaseKeepaliveSend, holds, peers]
    rfl
  case keepaliveNone =>
    rintro s none_
    refine ⟨s, ?_, rfl⟩
    show execLeaseKeepaliveSend s = _
    rw [execLeaseKeepaliveSend, none_]
    rfl
  case keepalive =>
    rintro s source operand
    exact ⟨s.keepalive source operand, rfl, lookupKey_setKey .., fun l held own => State.keepalive_operand source operand s held own,
      fun differs l held => State.keepalive_releases differs held, fun l held other => State.keepalive_others operand held other⟩
  case leaseExpiry =>
    rintro s source
    refine ⟨_, rfl, fun l held => ?_, lookupKey_without .., fun l held other => ?_⟩
    · simpa using (List.mem_filter.mp held).2
    · exact List.mem_filter.mpr ⟨held, by simpa using other⟩
end
section
/-! Sessions (R215, R223-R231, R246, R247): what a command of a session finds, how a step begins, and what images are made of. -/

set_option Elab.async false
namespace Sys2Proof.Machine

/-! ## A command of a session (R228, R229) -/

/-- A command that starts is as live as it was. -/
theorem isLive_startCmd (s : State) (cid : Nat) : isLive (s.startCmd cid) = isLive s := by
  funext k
  by_cases own : k = cid
  · subst own
    rw [isLive, isLive, cmdAt_startCmd]
    cases cmdAt s k <;> rfl
  · rw [isLive, isLive, State.startCmd, cmdAt_modCmd_ne (by intro; rfl) (Ne.symm own)]

theorem sessionQueue_startCmd (s : State) (cid : Nat) (x : Session) : sessionQueue (s.startCmd cid) x = sessionQueue s x := by
  rw [sessionQueue, isLive_startCmd, sessionQueue]

/-- The entry of a session with these commands in its queue. -/
def Session.queued (l : List Nat) (y : Session) : Session := { y with queue := l }

/-- The state in which a command that starts is the only one of its session. -/
def State.startFor (cid : Nat) (x : Session) (s : State) : State := (s.startCmd cid).modSession x.index (Session.queued [cid])

/-- A command whose session has no other in flight acts at once. -/
theorem State.sessionCommand_of_idle {s : State} {cid op : Nat} {c : Cmd} {x : Session} {check : Cmd → State → Bool} {accepts : SessState → Bool}
    (acts : Acts s cid op c) (named : sessionHandle s (c.arg 8 8) = some x) (idle : sessionQueue s x = []) (passes : check c (s.startCmd cid) = true)
    (accepted : accepts x.state = true) (act : Cmd → Session → State → State) :
    s.sessionCommand cid op check accepts act = act c (x.queued [cid]) (s.startFor cid x) := by
  have named' : sessionHandle (s.startCmd cid) (c.arg 8 8) = some x := named
  simp only [State.sessionCommand, acts.command, named', sessionQueue_startCmd, idle, passes, accepted, List.contains_nil, List.head?_nil,
    Option.map_none, Option.getD_none, Bool.not_true, Bool.or_self, Bool.false_eq_true, and_false, List.nil_append, List.isEmpty_nil, if_true, if_false]
  rfl

/-! ## Opening (R215, R224, R318) -/

/-- A session that can be opened joins the directory, and its command reports its handle. -/
theorem execSessionOpen_opens {s : State} {cid k i : Nat} {c : Cmd} (acts : Acts s cid 0x20 c) (named : modelHandle s (c.arg 8 8) = some k)
    (ready : (modelAt s k).state = .ready) (idle : selftestRunning (s.startCmd cid) = false)
    (free : freeIndex (s.sessions.map (·.index)) 65536 = some i) (room : admits s.setShare (c.arg 0x10 4) = true) :
    Answers (.sessionOpen cid) s (fun t =>
      t.sessions = s.sessions ++ [newSession s i k (c.arg 0x10 4) (modelAt s k).current (c.flag 0) (BitVec.ofNat 64 (c.arg 0x18 8))]
      ∧ Ended t cid .ok (resultOf [(0x14, 8, handleWord 0 (genOf s.sessionGen i) i), (0x1C, 4, (modelAt s k).current)])) := by
  have named' : modelHandle (s.startCmd cid).setShare (c.arg 8 8) = some k := named
  have ready' : (modelAt (s.startCmd cid).setShare k).state = .ready := ready
  have idle' : selftestRunning (s.startCmd cid).setShare = false := idle
  have free' : freeIndex ((s.startCmd cid).setShare.sessions.map (·.index)) 65536 = some i := free
  have room' : admits (s.startCmd cid).setShare (c.arg 0x10 4) = true := room
  show ∃ t, execSessionOpen cid s = .next t ∧ _
  simp only [execSessionOpen, acts.command, named', ready', idle', free', room', ne_eq, not_true_eq_false, Bool.not_true, Bool.false_eq_true, if_false]
  exact ⟨_, rfl, rfl, ended_finishCmd acts rfl ..⟩

/-! ## Closing (R223, R231) -/

/-- Leases that are given back leave every block. -/
theorem State.releaseOrphans_blocks (s : State) : s.releaseOrphans.cel.blocks = s.cel.blocks :=
  foldl_view (v := fun t : State => t.cel.blocks) (fun t l => by simp only [State.releaseLease_cel]) _ s

/-- A session that is freed is gone, and every block of it. -/
theorem State.freeSession_gone (x : Session) (s : State) :
    sessionAt (s.freeSession x) x.index = none ∧ ∀ b ∈ (s.freeSession x).cel.blocks, b.session ≠ x.index := by
  have dropped : (s.dropSession x.index).sessions = without (fun y => y.index == x.index) s.sessions :=
    settleEpochs_view (v := State.sessions) (by intros; rfl) ..
  have cleared : (s.dropSession x.index).cel.blocks = without (fun b => b.session == x.index) s.cel.blocks :=
    settleEpochs_view (v := fun t : State => t.cel.blocks) (by intros; rfl) ..
  have sessions : (s.freeSession x).sessions = (s.dropSession x.index).sessions :=
    (State.releaseOrphans_frame _).exact (by decide) (p := .sessions) (by decide)
  refine ⟨?_, fun b held => ?_⟩
  · simp [sessionAt, sessions, dropped, without]
  · rw [State.freeSession, State.releaseOrphans_blocks, cleared] at held
    simpa using (List.mem_filter.mp held).2

/-- A session that is closed is gone, and its command ends. -/
theorem execSessionClose_closes {s : State} {cid : Nat} {c : Cmd} {x : Session} (acts : Acts s cid 0x21 c)
    (named : sessionHandle s (c.arg 8 8) = some x) (open_ : x.state ≠ .closing) (idle : sessionQueue s x = []) :
    Answers (.sessionClose cid) s (fun t => sessionAt t x.index = none ∧ (∀ b ∈ t.cel.blocks, b.session ≠ x.index) ∧ EndedAs t cid .ok) := by
  obtain ⟨gone, cleared⟩ := State.freeSession_gone (x.queued [cid]) (s.startFor cid x)
  have entry : cmdAt ((s.startFor cid x).freeSession (x.queued [cid])) cid = cmdAt (s.startCmd cid) cid :=
    cmdAt_of_cmds ((State.freeSession_frame ..).exact (by decide) (p := .cmds) (by decide)) cid
  rw [cmdAt_startCmd, acts.entry] at entry
  show ∃ t, execSessionClose cid s = .next t ∧ _
  rw [execSessionClose, State.sessionCommand_of_idle (accepts := fun st => st != .closing) acts named idle rfl (bne_iff_ne.mpr open_)]
  exact ⟨_, rfl, gone, cleared, (ended_endCmd entry acts.live acts.2).2.1⟩

/-! ## A step that begins (R146, R229) -/

/-- The entry of a session whose step begins at a row. -/
def Session.enterStep (ring : Option Nat) (pos : Nat) (y : Session) : Session :=
  { y with state := .stepping, prior := y.state, stepRing := ring, position := pos }

/-- A run that begins leaves sessions and blocks, while operations of it are to come. -/
theorem State.beginRun_keeps {s : State} {cid : Nat} {r : Run} (here : runOf s cid = some r) (more : openOps r ≠ []) (role : Role) :
    (s.beginRun cid role).sessions = s.sessions ∧ (s.beginRun cid role).cel.blocks = s.cel.blocks := by
  have begun : runOf (s.modRun cid (fun q => { q with begun := true })) cid = some { r with begun := true } := by
    rw [runOf_modRun (by intro; rfl), here]
    rfl
  have queued : ((s.modRun cid (fun q => { q with begun := true })).queueUnits cid role).cel.blocks = s.cel.blocks := by
    simp only [State.queueUnits, begun]
    rfl
  have sessions : ((s.modRun cid (fun q => { q with begun := true })).queueUnits cid role).sessions = s.sessions :=
    (State.queueUnits_frame cid role _).exact (by decide) (p := .sessions) (by decide)
  have written (l : List Extent) (v : List Byte) (k : Nat) (q : List Request) :
      runOf (((((s.modRun cid (fun q => { q with begun := true })).queueUnits cid role).writeMem l v).spend k).request q) cid
        = some { r with begun := true } := by
    rw [runOf_of_runs (State.writeAndRequest_runs ..), runOf_queueUnits, begun]
  simp only [State.beginRun, here]
  rw [State.settleRun_of_open (written ..) more, State.writeAndRequest_cel, queued]
  exact ⟨((State.request_frame ..).exact (by decide) (p := .sessions) (by decide)).trans
    (((State.writeMem_frame ..).exact (by decide) (p := .sessions) (by decide)).trans sessions), rfl⟩

/-- A session that has been changed is found again. -/
theorem sessionAt_modSession {f : Session → Session} (keeps : ∀ y, (f y).index = y.index) (i : Nat) (s : State) :
    sessionAt (s.modSession i f) i = (sessionAt s i).map f := by
  have search (y : Session) : ((if y.index = i then f y else y).index == i) = (y.index == i) := by split <;> simp [keeps]
  unfold sessionAt State.modSession
  simp only [List.find?_map, Function.comp_def, search]
  cases found : s.sessions.find? (fun y => y.index == i) with
  | none => rfl
  | some y =>
    have own : y.index = i := by simpa using List.find?_some found
    simp [own]

/-- The session of a run is in the directory. -/
theorem sessionAt_of_sessionOf {s : State} {r : Run} {x : Session} (h : sessionOf s r = some x) : ∃ y, sessionAt s x.index = some y := by
  obtain ⟨found, -⟩ := Option.filter_eq_some_iff.mp h
  obtain ⟨i, -, entry⟩ := Option.bind_eq_some_iff.mp found
  obtain rfl : x.index = i := by simpa [sessionAt] using List.find?_some entry
  exact ⟨x, entry⟩

/-- An accepted step is the next of its session, and no more is in its way. -/
structure StepReady (s : State) (cid : Nat) (r : Run) (x : Session) (pos : Nat) : Prop where
  here : runOf s cid = some r
  fresh : r.begun = false
  more : openOps r ≠ []
  session : sessionOf s r = some x
  turn : (sessionQueue s x).head? = some cid
  free : runWaits s r = false
  stays : goingOut s x.index = false
  accepts : stepAccepts r.rebuild x.state = true
  start : pos = if r.rebuild then 0 else x.position
  small : blocksAt s r (pos + r.tokens) ≤ x.maxBlocks
  fits : cacheFits s r x (pos + r.tokens) = true

/-- Such a step begins, with the blocks of its session discarded first when it rebuilds them (R235). -/
theorem StepReady.tryStep {s : State} {cid pos : Nat} {r : Run} {x : Session} (h : StepReady s cid r x pos) (role : Role) :
    s.tryStep cid role
      = ((if r.rebuild then s.discardBlocks x else s).modSession x.index (Session.enterStep (ringOf s cid) pos)).beginRun cid role := by
  obtain ⟨here, fresh, more, session, turn, free, stays, accepts, rfl, small, fits⟩ := h
  simp only [State.tryStep, here, session, fresh, turn, free, stays, accepts, fits, decide_eq_false (not_lt.mpr small), bne_self_eq_false,
    Bool.or_self, Bool.false_eq_true, Bool.not_true, if_false]
  rfl

theorem State.stepCommand_of_run {s : State} {cid : Nat} {r : Run} (here : runOf s cid = some r) (op : Nat) (rebuild : Bool) (role : Role)
    (binds : List Byte) : s.stepCommand cid op rebuild role binds = s.tryStep cid role := by
  rw [State.stepCommand, here]

/-- What a step that has begun shows: its run, its session, and the blocks of that. -/
theorem StepReady.begins {s : State} {cid pos : Nat} {r : Run} {x : Session} (h : StepReady s cid r x pos) (role : Role) :
    (runOf (s.tryStep cid role) cid).map (·.begun) = some true
      ∧ (sessionAt (s.tryStep cid role) x.index).map (fun y => (y.state, y.position)) = some (.stepping, pos)
      ∧ (s.tryStep cid role).cel.blocks = (if r.rebuild then s.discardBlocks x else s).cel.blocks := by
  have keeps : (if r.rebuild then s.discardBlocks x else s).runs = s.runs ∧ (if r.rebuild then s.discardBlocks x else s).sessions = s.sessions := by
    split
    · exact ⟨(State.discardBlocks_frame x s).exact (by decide) (p := .runs) (by decide),
        (State.discardBlocks_frame x s).exact (by decide) (p := .sessions) (by decide)⟩
    · exact ⟨rfl, rfl⟩
  rw [h.tryStep]
  generalize (if r.rebuild then s.discardBlocks x else s) = t at keeps ⊢
  obtain ⟨runs, sessions⟩ := keeps
  have here : runOf (t.modSession x.index (Session.enterStep (ringOf s cid) pos)) cid = some r := (runOf_of_runs runs cid).trans h.here
  obtain ⟨begun, -⟩ := State.beginRun_of_open here h.more role
  obtain ⟨kept, blocks⟩ := State.beginRun_keeps here h.more role
  obtain ⟨y, entry⟩ := sessionAt_of_sessionOf h.session
  refine ⟨by rw [begun, Option.map_some], ?_, blocks⟩
  have found : sessionAt t x.index = some y := by rw [sessionAt, sessions]; exact entry
  have entered : sessionAt ((t.modSession x.index (Session.enterStep (ringOf s cid) pos)).beginRun cid role) x.index
      = some (y.enterStep (ringOf s cid) pos) := by
    rw [sessionAt, kept]
    exact (sessionAt_modSession (by intro; rfl) x.index t).trans (by rw [found, Option.map_some])
  rw [entered]
  rfl

/-- The same of its session's state alone. -/
theorem StepReady.steps {s : State} {cid pos : Nat} {r : Run} {x : Session} (h : StepReady s cid r x pos) (role : Role) :
    (runOf (s.tryStep cid role) cid).map (·.begun) = some true ∧ (sessionAt (s.tryStep cid role) x.index).map (·.state) = some .stepping := by
  obtain ⟨begun, entered, -⟩ := h.begins role
  exact ⟨begun, by simpa [Function.comp_def] using congrArg (Option.map Prod.fst) entered⟩

/-- Blocks that are discarded are gone. -/
theorem State.discardBlocks_gone {x : Session} {s : State} {b : KvBlock} (held : b ∈ (s.discardBlocks x).cel.blocks) : b.session ≠ x.index := by
  rw [State.discardBlocks, State.releaseOrphans_blocks] at held
  simpa using (List.mem_filter.mp held).2

/-! ## Memory under the work of the cask (R189) -/

/-- Work that the cask takes up is noted at a site alone. -/
theorem caskWork_tiles (cid : Nat) (s : State) :
    ∃ ts, s.caskWork cid = { s with tiles := ts } ∧ ts.map Tile.plain = s.tiles.map Tile.plain := by
  refine ⟨(s.caskWork cid).tiles, ?_, sites_of_panel (panel_caskWork cid s)⟩
  unfold State.caskWork
  repeat' split
  all_goals rfl

theorem addrMapped_caskWork (cid : Nat) (s : State) : addrMapped (s.caskWork cid) = addrMapped s := by
  funext a
  have sites := sites_of_panel (panel_caskWork cid s)
  have mapped (n : Nat) : siteMapped (s.caskWork cid) n = siteMapped s n := by
    have trained := tileAt_congr Tile.memInService (fun _ => rfl) sites n
    have failed := tileAt_congr Tile.memFailed (fun _ => rfl) sites n
    have there := tileAt_congr Tile.state (fun _ => rfl) sites n
    simp only [siteMapped, trained, failed, there]
  obtain ⟨ts, work, -⟩ := caskWork_tiles cid s
  have ports (p : Nat) : cxlAt (s.caskWork cid) p = cxlAt s p := by rw [work]; rfl
  simp only [addrMapped, mapped, ports]

theorem memWaits_caskWork (cid : Nat) (l : List Extent) (s : State) : memWaits (s.caskWork cid) l = memWaits s l := by
  have mapped := addrMapped_caskWork cid s
  obtain ⟨ts, work, -⟩ := caskWork_tiles cid s
  simp only [memWaits, memWaitsBy, cutOff, mapped]
  rw [work]
  rfl

theorem accessSource_caskWork (cid : Nat) (by_ : Option Nat) (read : Bool) (l : List Extent) (s : State) :
    accessSource (s.caskWork cid) by_ read l = accessSource s by_ read l := by
  have mapped := addrMapped_caskWork cid s
  have poison : (s.caskWork cid).mem = s.mem := by
    obtain ⟨ts, work, -⟩ := caskWork_tiles cid s
    rw [work]
  simp only [accessSource, mapped, poison]

/-- An access fails after a read as before it (R256). -/
theorem accessSource_touch (write : Bool) (l : List Extent) (by_ : Option Nat) (read : Bool) (m : List Extent) (s : State) :
    accessSource (s.touch write l) by_ read m = accessSource s by_ read m := by
  have mapped : addrMapped (s.touch write l) = addrMapped s := eq_of_reach addrMapped (fun _ => rfl) (reach_of_placing (State.touch_placing write l s))
  simp only [accessSource, mapped, State.touch_poison]

/-! ## Snapshots (R246) -/

/-- The state in which a snapshot of a session is made, once its blocks have been read. -/
def State.snapped (cid i : Nat) (s : State) : State := (s.caskWork cid).touch false (blockPieces s i)

section
variable (cid i : Nat) (s : State)

theorem State.snapped_reach : (s.snapped cid i).reach = (s.caskWork cid).reach := reach_of_placing (State.touch_placing ..)

theorem State.snapped_cel : (s.snapped cid i).cel = s.cel :=
  (State.touch_cel ..).trans ((State.caskWork_frame cid s).exact (by decide) (p := .cel) (by decide))

theorem State.snapped_models : (s.snapped cid i).models = s.models :=
  (State.touch_models ..).trans ((State.caskWork_frame cid s).exact (by decide) (p := .models) (by decide))

theorem State.snapped_cells : (s.snapped cid i).mem.cells = s.mem.cells := by
  obtain ⟨ts, work, -⟩ := caskWork_tiles cid s
  rw [State.snapped, State.touch_cells, work]

theorem cmdAt_snapped (k : Nat) : cmdAt (s.snapped cid i) k = cmdAt s k := by
  obtain ⟨ts, work, -⟩ := caskWork_tiles cid s
  rw [cmdAt_of_reach (State.snapped_reach cid i s), work]
  rfl

theorem memHandle_snapped (h : Nat) : memHandle (s.snapped cid i) h = memHandle s h := by
  obtain ⟨ts, work, -⟩ := caskWork_tiles cid s
  rw [eq_of_reach (memHandle · h) (fun _ => rfl) (State.snapped_reach cid i s), work]
  rfl

theorem memWaits_snapped (l : List Extent) : memWaits (s.snapped cid i) l = memWaits s l :=
  (memWaits_of_reach (State.snapped_reach cid i s) l).trans (memWaits_caskWork cid l s)

theorem accessSource_snapped (read : Bool) (l : List Extent) : accessSource (s.snapped cid i) none read l = accessSource s none read l :=
  (accessSource_touch ..).trans (accessSource_caskWork ..)

theorem blocksWait_snapped (k : Nat) : blocksWait (s.snapped cid i) k = blocksWait s k := by
  have out : goingOut (s.snapped cid i) k = goingOut s k := by
    obtain ⟨ts, work, -⟩ := caskWork_tiles cid s
    rw [eq_of_reach (goingOut · k) (fun _ => rfl) (State.snapped_reach cid i s), work]
    rfl
  have where_ : blockPieces (s.snapped cid i) k = blockPieces s k := by simp only [blockPieces, State.snapped_cel]
  rw [blocksWait, memWaits_snapped, where_, out, blocksWait]

theorem blocksSource_snapped (k : Nat) : blocksSource (s.snapped cid i) k = blocksSource s k := by
  have where_ : blockPieces (s.snapped cid i) k = blockPieces s k := by simp only [blockPieces, State.snapped_cel]
  rw [blocksSource, accessSource_snapped, where_, blocksSource]

theorem blocksAbsent_snapped (k : Nat) : blocksAbsent (s.snapped cid i) k = blocksAbsent s k := by
  obtain ⟨ts, work, -⟩ := caskWork_tiles cid s
  rw [eq_of_reach (blocksAbsent · k) (fun _ => rfl) (State.snapped_reach cid i s), work]
  rfl

theorem blocksHeld_snapped (k : Nat) : blocksHeld (s.snapped cid i) k = blocksHeld s k := by
  simp only [blocksHeld, State.snapped_cel]

/-- An image does not show the queue of its session. -/
theorem sessionImage_snapped (x : Session) (l : List Nat) : sessionImage (s.snapped cid i) (x.queued l) = sessionImage s x := by
  simp only [sessionImage, imageHead, imageBlocks, blocksHeld, modelAt, State.snapped_cel, State.snapped_models]
  rfl

end

/-- The blocks of a session can be copied: nothing waits, and every peer and every granule is there. -/
structure Copyable (s : State) (i : Nat) : Prop where
  flows : blocksWait s i = false
  present : blocksAbsent s i = none
  sound : blocksSource s i = none

theorem Copyable.snapped {s : State} {i : Nat} (h : Copyable s i) (cid k : Nat) : Copyable (s.snapped cid k) i where
  flows := (blocksWait_snapped ..).trans h.flows
  present := (blocksAbsent_snapped ..).trans h.present
  sound := (blocksSource_snapped ..).trans h.sound

/-- A snapshot for the host, in a buffer that takes it. -/
theorem Copyable.toHost {s : State} {c : Cmd} {y : Session} (h : Copyable s y.index) (kind : c.arg 0x10 1 = 0)
    (room : sessionBytes (blocksHeld s y.index) ≤ c.arg 0x28 8) :
    s.snapshot c y = (s.snapped c.cid y.index).finishWrites c.cid .ok (snapshotFields (s.snapped c.cid y.index) y)
      [(c.arg 0x18 8, sessionImage (s.snapped c.cid y.index) y)] := by
  obtain ⟨flows, present, sound⟩ := h.snapped c.cid y.index
  have read : (s.caskWork c.cid).touch false (blockPieces s y.index) = s.snapped c.cid y.index := rfl
  simp only [State.snapshot, read, flows, present, sound, blocksHeld_snapped, kind, if_neg (not_lt.mpr room), Bool.false_eq_true, if_true, if_false]

/-- A snapshot for module memory, in a handle that takes it. -/
theorem Copyable.toModule {s : State} {c : Cmd} {y : Session} {m : MemHandle} {to_ : List Extent} (h : Copyable s y.index)
    (kind : c.arg 0x10 1 ≠ 0) (named : memHandle s (c.arg 0x18 8) = some m)
    (room : sessionBytes (blocksHeld s y.index) ≤ Nat.min (c.arg 0x28 8) (m.size - c.arg 0x20 8))
    (where_ : to_ = pieces m.extents (c.arg 0x20 8) (sessionBytes (blocksHeld s y.index))) (waits : memWaits s to_ = false)
    (mapped : accessSource s none false to_ = none) :
    s.snapshot c y = ((s.snapped c.cid y.index).writeMem to_ (sessionImage (s.snapped c.cid y.index) y)).finishCmd c.cid .ok
      (snapshotFields (s.snapped c.cid y.index) y) := by
  obtain ⟨flows, present, sound⟩ := h.snapped c.cid y.index
  have read : (s.caskWork c.cid).touch false (blockPieces s y.index) = s.snapped c.cid y.index := rfl
  subst where_
  simp only [State.snapshot, read, flows, present, sound, blocksHeld_snapped, memHandle_snapped, memWaits_snapped, named, waits, kind,
    State.badAccessBy, accessSource_snapped, mapped, if_neg (not_lt.mpr room), Option.getD_none, Bool.false_eq_true, if_false]

/-- A snapshot of a session with no other command in flight is made at once. -/
theorem execSessionSnapshot_acts {s : State} {cid : Nat} {c : Cmd} {x : Session} (acts : Acts s cid 0x24 c)
    (named : sessionHandle s (c.arg 8 8) = some x) (state : x.state = .open ∨ x.state = .broken ∨ x.state = .inDoubt)
    (idle : sessionQueue s x = []) : exec (.sessionSnapshot cid) s = .next ((s.startFor cid x).snapshot c (x.queued [cid])) := by
  have accepted : (x.state == .open || x.state == .stepping || x.state == .broken || x.state == .inDoubt) = true := by
    rcases state with h | h | h <;> rw [h] <;> rfl
  show execSessionSnapshot cid s = _
  rw [execSessionSnapshot, State.sessionCommand_of_idle acts named idle rfl accepted]

/-- What a command that makes a snapshot writes and reports is the end of its entry. -/
theorem snapped_ends {s t : State} {cid : Nat} {c : Cmd} {x : Session} (acts : Acts s cid 0x24 c)
    (same : t.host.cmds = ((s.startFor cid x).snapped cid x.index).host.cmds) (d : Done) :
    EndedAs (t.endCmd cid d) cid d.status ∧ Wrote (t.endCmd cid d) cid d.writes := by
  have entry := (cmdAt_of_cmds same cid).trans ((cmdAt_snapped cid x.index (s.startFor cid x) cid).trans (cmdAt_startCmd s cid))
  rw [acts.entry] at entry
  exact (ended_endCmd entry acts.live acts.2).2

theorem cid_of_acts {s : State} {cid op : Nat} {c : Cmd} (acts : Acts s cid op c) : c.cid = cid := by
  simpa using List.find?_some acts.entry

/-! ## Restored sessions (R247) -/

/-- A session restored is in the directory, in the state asked for. -/
theorem restoreImage_session {s t : State} {k : Nat} {img : List Byte} {st : SessState} {x : Session} (h : restoreImage s k img st = .ok (t, x)) :
    x ∈ t.sessions ∧ x.state = st := by
  unfold restoreImage at h
  extract_lets m pinned epoch n pos at h
  split at h
  · cases h
  split at h
  · cases h
  split at h
  · cases h
  split at h
  · cases h
  next i _ =>
    extract_lets x0 y at h
    split at h
    · cases h
    split at h
    next restored =>
      obtain ⟨rfl, rfl⟩ := Prod.mk.inj (Except.ok.inj h)
      have sessions := (Frame.foldl_bind (fun _ _ _ e => State.restoreBlock_frame e) restored).exact (by decide) (p := .sessions) (by decide)
      exact ⟨sessions.symm.subst (motive := (_ ∈ ·)) (List.mem_append_right _ (List.mem_singleton_self _)), rfl⟩
    next => cases h

/-- An image that restores, where the memory of its blocks answers. -/
theorem State.restore_ok {s v : State} {cid k : Nat} {img : List Byte} {x : Session}
    (restored : restoreImage (s.caskWork cid).setShare k img .open = .ok (v, x))
    (flows : memWaits s (blockPieces v x.index) = false) :
    s.restore cid k img = v.finishCmd cid .ok (restoreFields (some x) 0xFFFFFFFF) := by
  have flows' : memWaits (s.caskWork cid).setShare (blockPieces v x.index) = false := (memWaits_caskWork cid _ s).trans flows
  simp only [State.restore, restored, flows', Bool.false_eq_true, if_false]

/-- The command of a restored session ends with its fields. -/
theorem restored_ends {s u v : State} {cid op k : Nat} {c : Cmd} {img : List Byte} {x : Session} (acts : Acts s cid op c)
    (same : cmdAt u cid = cmdAt (s.startCmd cid) cid) (restored : restoreImage (u.caskWork cid).setShare k img .open = .ok (v, x)) :
    Ended (v.finishCmd cid .ok (restoreFields (some x) 0xFFFFFFFF)) cid .ok (resultOf (restoreFields (some x) 0xFFFFFFFF)) := by
  have cmds : v.host.cmds = u.host.cmds :=
    ((restoreImage_frame restored).exact (by decide) (p := .cmds) (by decide)).trans
      ((State.caskWork_frame cid u).exact (by decide) (p := .cmds) (by decide))
  exact ended_finishCmd acts ((cmdAt_of_cmds cmds cid).trans same) ..

theorem memWaits_touch (write : Bool) (l m : List Extent) (s : State) : memWaits (s.touch write l) m = memWaits s m :=
  memWaits_of_reach (reach_of_placing (State.touch_placing write l s)) m

/-- A restore from a host buffer that has been read whole. -/
theorem execSessionRestore_fromHost {s : State} {cid k : Nat} {c : Cmd} {image : List Byte} (acts : ActsReading s cid 0x25 c)
    (kind : c.arg 0x10 1 = 0) (whole : image.length = c.arg 0x28 8) (named : modelHandle s (c.arg 8 8) = some k) :
    exec (.sessionRestore cid image) s = .next ((s.startCmd cid).restore cid k image) := by
  have named' : modelHandle (s.startCmd cid) (c.arg 8 8) = some k := named
  show execSessionRestore cid image s = _
  simp only [execSessionRestore, acts.1.entry, kind, whole, OfNat.zero_ne_ofNat, if_false]
  rw [commandReading_of_actsReading acts _ (by rw [named']; rfl)]
  simp only [named', ne_eq, not_true_eq_false, and_false, if_true, if_false]

/-- A restore from a memory handle whose bytes can be read. -/
theorem execSessionRestore_fromModule {s : State} {cid k : Nat} {c : Cmd} {image : List Byte} {h : MemHandle} {l : List Extent}
    (acts : Acts s cid 0x25 c) (kind : c.arg 0x10 1 ≠ 0) (local_ : c.arg 0x10 1 ≠ 2) (named : modelHandle s (c.arg 8 8) = some k)
    (handle : memHandle s (c.arg 0x18 8) = some h) (inside : c.arg 0x20 8 + c.arg 0x28 8 ≤ h.size)
    (where_ : l = pieces h.extents (c.arg 0x20 8) (c.arg 0x28 8)) (waits : memWaits s l = false) (mapped : accessSource s none true l = none) :
    exec (.sessionRestore cid image) s = .next (((s.startCmd cid).touch false l).restore cid k (readPieces s.mem.cells l)) := by
  subst where_
  have named' : modelHandle (s.startCmd cid) (c.arg 8 8) = some k := named
  have handle' : memHandle (s.startCmd cid) (c.arg 0x18 8) = some h := handle
  have waits' : memWaits (s.startCmd cid) (pieces h.extents (c.arg 0x20 8) (c.arg 0x28 8)) = false := waits
  have mapped' : accessSource (s.startCmd cid) none true (pieces h.extents (c.arg 0x20 8) (c.arg 0x28 8)) = none := mapped
  show execSessionRestore cid image s = _
  simp only [execSessionRestore, acts.entry, local_, State.commandReading, beq_eq_false_iff_ne.mpr kind, Bool.false_eq_true, if_false, acts.command,
    named', handle', waits', State.badAccessBy, mapped', kind, false_and, if_neg (not_lt.mpr inside), Option.isNone_some, Option.getD_none]
  rfl

end Sys2Proof.Machine
end
section
open Sys2Proof Sys2Proof.Machine

/-- Settles O12: a command of a session with no other in flight acts at once, a step whose turn has come begins, an image is the same after its
blocks have been read, and a restored session stands in the directory. -/
theorem sessionCommandsComplete : Obligations.SessionCommandsComplete := by
  refine ⟨fun s cid c k i => execSessionOpen_opens, fun s cid c x => execSessionClose_closes, ?prefill, ?rebuild, ?decode, ?toHost, ?toModule,
    ?fromHost, ?fromModule⟩
  case prefill =>
    intro s cid binds r x here fresh more plain session turn free stays accepts small fits
    have ready : StepReady s cid r x x.position :=
      ⟨here, fresh, more, session, turn, free, stays, by rwa [plain], by rw [plain]; rfl, small, fits⟩
    exact ⟨_, congrArg Host.Outcome.next (State.stepCommand_of_run here ..), ready.steps .mash⟩
  case rebuild =>
    intro s cid binds r x here fresh more again session turn free stays accepts small fits
    have ready : StepReady s cid r x 0 :=
      ⟨here, fresh, more, session, turn, free, stays, by rwa [again], by rw [again]; rfl, by rwa [Nat.zero_add], by rwa [Nat.zero_add]⟩
    obtain ⟨begun, entered, blocks⟩ := ready.begins .mash
    refine ⟨_, congrArg Host.Outcome.next (State.stepCommand_of_run here ..), begun, entered, fun b held => ?_⟩
    rw [blocks, again] at held
    exact State.discardBlocks_gone held
  case decode =>
    intro s cid binds r x here fresh more plain session turn free stays accepts small fits
    have ready : StepReady s cid r x x.position :=
      ⟨here, fresh, more, session, turn, free, stays, by rwa [plain], by rw [plain]; rfl, small, fits⟩
    exact ⟨_, congrArg Host.Outcome.next (State.stepCommand_of_run here ..), ready.steps .draught⟩
  case toHost =>
    intro s cid c x acts kind named state idle flows present sound room
    obtain rfl := cid_of_acts acts
    have blocks : Copyable (s.startFor c.cid x) (x.queued [c.cid]).index := ⟨flows, present, sound⟩
    have image : sessionImage ((s.startFor c.cid x).snapped c.cid x.index) (x.queued [c.cid]) = sessionImage s x := sessionImage_snapped ..
    refine ⟨_, (execSessionSnapshot_acts acts named state idle).trans (congrArg _ (blocks.toHost kind room)), ?_⟩
    obtain ⟨ended, written⟩ := snapped_ends (x := x) acts rfl _
    exact ⟨ended, written.trans (by rw [← image]; rfl)⟩
  case toModule =>
    intro s cid c x m l acts kind named state idle flows present sound handle room where_ waits mapped
    obtain rfl := cid_of_acts acts
    have blocks : Copyable (s.startFor c.cid x) (x.queued [c.cid]).index := ⟨flows, present, sound⟩
    have image : sessionImage ((s.startFor c.cid x).snapped c.cid x.index) (x.queued [c.cid]) = sessionImage s x := sessionImage_snapped ..
    refine ⟨_, (execSessionSnapshot_acts acts named state idle).trans (congrArg _ (blocks.toModule kind handle room where_ waits mapped)), ?_, ?_⟩
    · exact (snapped_ends (x := x) acts ((State.writeMem_frame ..).exact (by decide) (p := .cmds) (by decide)) _).1
    · refine (State.writeMem_cells ..).trans ?_
      rw [State.snapped_cells]
      exact congrArg _ image
  case fromHost =>
    intro s cid c k image v x acts kind whole named restored flows
    obtain ⟨there, state⟩ := restoreImage_session restored
    refine ⟨v.finishCmd cid .ok (restoreFields (some x) 0xFFFFFFFF), ?_, there, state, restored_ends acts.1 rfl restored⟩
    rw [← State.restore_ok (s := s.startCmd cid) restored flows]
    exact execSessionRestore_fromHost acts kind whole named
  case fromModule =>
    intro s cid c k image h l v x acts kind local_ named handle inside where_ waits mapped restored flows
    obtain ⟨there, state⟩ := restoreImage_session restored
    have touched : (((s.startCmd cid).touch false l).host.cmds) = (s.startCmd cid).host.cmds :=
      (State.touch_frame ..).exact (by decide) (p := .cmds) (by decide)
    refine ⟨v.finishCmd cid .ok (restoreFields (some x) 0xFFFFFFFF), ?_, there, state, restored_ends acts (cmdAt_of_cmds touched cid) restored⟩
    rw [← State.restore_ok (s := (s.startCmd cid).touch false l) restored (by rw [memWaits_touch]; exact flows)]
    exact execSessionRestore_fromModule acts kind local_ named handle inside where_ waits mapped
end
section
/-! Copies, models and placement (R200, R219, R236-R243, R330, R333, R334): what a load leaves of the epochs of a model, and how each command ends. -/

set_option Elab.async false
namespace Sys2Proof.Machine

/-! ## The end of a command -/

/-- A command that acts ends as it is told to, where nothing else of its body has changed its entry. -/
theorem ends_of_acts {s t : State} {cid op : Nat} {c : Cmd} (acts : Acts s cid op c) (same : t.host.cmds = (s.startCmd cid).host.cmds) (d : Done) :
    Ended (t.endCmd cid d) cid d.status d.result ∧ EndedAs (t.endCmd cid d) cid d.status ∧ Wrote (t.endCmd cid d) cid d.writes := by
  have entry := cmdAt_of_cmds same cid
  rw [cmdAt_startCmd, acts.entry] at entry
  exact ended_endCmd entry acts.live acts.2

/-! ## DMA_COPY (R330) -/

/-- The conversion of a copy, and both of its sides in their handles. -/
structure CopyAccepted (s : State) (c : Cmd) (v : Conv) : Prop where
  conv : (if c.arg 0xA 1 = c.arg 0xB 1 then some conv0 else convOf (c.arg 0xC 1)) = some v
  rounds : v.round ≠ .sr
  source : dmaSideOk s (c.arg 8 1) (c.arg 0x10 8) (c.arg 0x18 8) (dmaBytes (c.arg 0xA 1 == c.arg 0xB 1) (c.arg 0xA 1) (c.arg 0x30 8)) = true
  target : dmaSideOk s (c.arg 9 1) (c.arg 0x20 8) (c.arg 0x28 8) (dmaBytes (c.arg 0xA 1 == c.arg 0xB 1) (c.arg 0xB 1) (c.arg 0x30 8)) = true

theorem CopyAccepted.passes {s : State} {c : Cmd} {v : Conv} (h : CopyAccepted s c v) : dmaStop c s = none := by
  obtain ⟨conv, rounds, source, target⟩ := h
  simp only [dmaStop, beq_iff_eq, conv, source, target, bne_iff_ne.mpr rounds, Bool.and_self, if_true]

/-- The command of a copy has its body run, whichever side is at the host. -/
theorem commandReading_of_source {s : State} {cid : Nat} {c : Cmd} (acts : Acts s cid 0x40 c) (reads : c.arg 8 1 = 0 → ActsReading s cid 0x40 c)
    {check : Cmd → State → Option State} (passes : check c (s.startCmd cid) = none) (body : Cmd → State → State) :
    s.commandReading cid 0x40 (((cmdAt s cid).map (fun c => c.arg 8 1 == 0)).getD false) check body = body c (s.startCmd cid) := by
  by_cases host : c.arg 8 1 = 0
  · exact commandReading_of_actsReading (reads host) _ passes body
  · rw [acts.entry, Option.map_some, Option.getD_some, beq_eq_false_iff_ne.mpr host]
    simp only [State.commandReading, Bool.false_eq_true, if_false, acts.command, passes, Option.getD_none]

/-- A copy that is accepted, and whose memory answers, converts what it reads and ends with the bytes written. -/
theorem execDmaCopy_copies {s : State} {cid : Nat} {c : Cmd} {source out : List Byte} {v : Conv} {from_ to_ : List Extent} {ns nd : Nat}
    (acts : Acts s cid 0x40 c) (reads : c.arg 8 1 = 0 → ActsReading s cid 0x40 c ∧ source.length = ns) (ok : CopyAccepted s c v)
    (bytesIn : ns = dmaBytes (c.arg 0xA 1 == c.arg 0xB 1) (c.arg 0xA 1) (c.arg 0x30 8))
    (bytesOut : nd = dmaBytes (c.arg 0xA 1 == c.arg 0xB 1) (c.arg 0xB 1) (c.arg 0x30 8))
    (where_ : from_ = if c.arg 8 1 = 0 then [] else dmaPieces s (c.arg 0x10 8) (c.arg 0x18 8) ns)
    (whither : to_ = if c.arg 9 1 = 0 then [] else dmaPieces s (c.arg 0x20 8) (c.arg 0x28 8) nd)
    (waits : memWaits s (from_ ++ to_) = false) (readable : accessSource s none true from_ = none) (writable : accessSource s none false to_ = none)
    (converted : out = dmaConvert (c.arg 0xA 1) (c.arg 0xB 1) v (c.arg 0x30 8) (if c.arg 8 1 = 0 then source else readPieces s.mem.cells from_)) :
    exec (.dmaCopy cid source) s = .next (if c.arg 9 1 = 0
      then ((s.startCmd cid).touch false from_).finishWrites cid .ok [(0x14, 8, nd)] [(c.arg 0x20 8 + c.arg 0x28 8, out)]
      else (((s.startCmd cid).touch false from_).writeMem to_ out).finishCmd cid .ok [(0x14, 8, nd)]) := by
  have passes : dmaStop c (s.startCmd cid) = none := CopyAccepted.passes (s := s.startCmd cid) ⟨ok.conv, ok.rounds, ok.source, ok.target⟩
  have whole : ¬(c.arg 8 1 = 0 ∧ source.length ≠ ns) := fun ⟨host, short⟩ => short (reads host).2
  have from' : (if c.arg 8 1 = 0 then [] else dmaPieces (s.startCmd cid) (c.arg 0x10 8) (c.arg 0x18 8) ns) = from_ := where_.symm
  have to' : (if c.arg 9 1 = 0 then [] else dmaPieces (s.startCmd cid) (c.arg 0x20 8) (c.arg 0x28 8) nd) = to_ := whither.symm
  have waits' : memWaits (s.startCmd cid) (from_ ++ to_) = false := waits
  have reading : (s.startCmd cid).badAccessBy cid true from_ = none := by
    have readable' : accessSource (s.startCmd cid) none true from_ = none := readable
    rw [State.badAccessBy, readable']
  have writing : (s.startCmd cid).badAccessBy cid false to_ = none := by
    have writable' : accessSource (s.startCmd cid) none false to_ = none := writable
    rw [State.badAccessBy, writable']
  have cells : (s.startCmd cid).mem.cells = s.mem.cells := rfl
  show execDmaCopy cid source s = _
  rw [execDmaCopy, commandReading_of_source acts (fun host => (reads host).1) passes]
  simp only [← bytesIn, ← bytesOut, if_neg whole, from', to', waits', reading, writing, beq_iff_eq, ok.conv, Option.getD_some, cells, ← converted,
    Bool.false_eq_true, if_false]

/-! ## Epochs of models (R242) -/

/-- The state, the current epoch and the staging of a model: what placing its shards leaves. -/
def Model.phase (m : Model) : ModelState × Nat × Bool := (m.state, m.current, m.staged)

/-- The phases of the models. -/
def phases (s : State) : List (ModelState × Nat × Bool) := s.models.map Model.phase

theorem phase_of_phases {s t : State} (h : phases t = phases s) (i : Nat) : (modelAt t i).phase = (modelAt s i).phase := by
  have entry (u : State) : (modelAt u i).phase = (phases u).getD i Model.reset.phase := (List.getD_map _ _ _).symm
  rw [entry, h, entry]

theorem phases_modModel {f : Model → Model} (keeps : ∀ m, (f m).phase = m.phase) (i : Nat) (s : State) : phases (s.modModel i f) = phases s :=
  map_modAt_of_eq keeps s.models i

theorem phases_placeLocal {k : Nat} {x : Shard} {s t : State} (h : s.placeLocal k x = some t) : phases t = phases s := by
  unfold State.placeLocal at h
  dsimp only at h
  split at h
  · cases h
    exact (congrArg (List.map Model.phase) (State.overwrite_models ..)).trans (phases_modModel (by intro; rfl) k s)
  · cases h

theorem phases_placeEach {k : Nat} {l : List Shard} {s t : State} (h : placeEach (State.placeLocal k) l s = some t) : phases t = phases s := by
  induction l generalizing s with
  | nil => cases h; rfl
  | cons x l ih =>
    rw [placeEach, List.foldl_cons, Option.bind_some] at h
    cases first : s.placeLocal k x with
    | none =>
      have stuck : l.foldl (fun acc x => acc.bind (State.placeLocal k x)) none = none := List.foldlRecOn (motive := (· = none)) _ _ rfl
        (fun acc none_ x _ => by rw [none_]; rfl)
      rw [first, stuck] at h
      cases h
    | some u =>
      rw [first] at h
      exact (ih h).trans (phases_placeLocal first)

/-- A model placed without spilling keeps its phase. -/
theorem phases_placeModel {i : Nat} {strict : Bool} {l : List Shard} {s t : State} (h : placeModel i strict l s = .fits t) : phases t = phases s := by
  unfold placeModel at h
  split at h
  next placed =>
    cases h
    obtain ⟨u, shards, staging⟩ := Option.bind_eq_some_iff.mp placed
    obtain ⟨_, _, rfl⟩ := Option.map_eq_some_iff.mp staging
    exact (phases_modModel (by intro; rfl) i u).trans (phases_placeEach shards)
  next =>
    dsimp only at h
    repeat' split at h
    all_goals cases h

theorem phases_settleEpoch (k : Nat) (s : State) : phases (s.settleEpoch k) = phases s := by
  unfold State.settleEpoch
  dsimp only
  split
  · rfl
  · exact phases_modModel (by intro; rfl) k s

/-! ## Loading and unloading (R217, R238, R240, R241, R316) -/

/-- A handle names a slot of the table. -/
theorem modelHandle_lt {s : State} {h i : Nat} (named : modelHandle s h = some i) : i < s.models.length := by
  by_contra beyond
  have empty : modelAt s i = Model.reset := List.getD_eq_default _ _ (not_lt.mp beyond)
  unfold modelHandle at named
  split at named
  · split at named
    next taken =>
      cases named
      rw [empty] at taken
      exact taken.2.1 rfl
    · cases named
  · cases named

theorem freeSlot_lt {s : State} {i : Nat} (free : freeSlot s = some i) : i < 64 := List.mem_range.mp (List.mem_of_find?_eq_some free)

/-- A load whose weights fit leaves its slot READY at epoch 1 (R217, R238). -/
theorem execModelLoad_loads {s v : State} {cid i : Nat} {c : Cmd} {manifest weights : List Byte} {mf : Manifest} (acts : ActsReading s cid 0x10 c)
    (fresh : c.flag 1 = false) (plain : c.arg 0x1C 1 ≠ 1) (data : loadData c manifest weights = true) (slots : s.models.length = 64)
    (free : freeSlot s = some i) (good : checkManifest false manifest weights = .ok mf)
    (placed : placeModel i (c.flag 0) (manifestShards 1 manifest weights) ((s.startCmd cid).claimSlot i c manifest mf) = .fits v)
    (flows : memWaits s (placedPieces (modelAt v i).shards) = false) :
    Answers (.modelLoad cid manifest weights) s (fun t => (modelAt t i).state = .ready ∧ (modelAt t i).current = 1 ∧ EndedAs t cid .ok) := by
  have free' : freeSlot (s.startCmd cid) = some i := free
  have flows' : memWaits (s.startCmd cid) (placedPieces (modelAt v i).shards) = false := flows
  have claimed : (modelAt ((s.startCmd cid).claimSlot i c manifest mf) i).phase = (.ready, 1, false) :=
    congrArg Model.phase (modelAt_modModel_same (s := s.startCmd cid) (slots ▸ freeSlot_lt free) _)
  have kept := (phase_of_phases (phases_placeModel placed) i).trans claimed
  simp only [Model.phase, Prod.mk.injEq] at kept
  obtain ⟨state, current, -⟩ := kept
  have cmds : v.host.cmds = (s.startCmd cid).host.cmds := (placeModel_fits placed).exact (by decide) (p := .cmds) (by decide)
  show ∃ t, execModelLoad cid manifest weights s = .next t ∧ _
  rw [execModelLoad, acts.1.hostCommand (mayRead_of_open acts.2.1 _) acts.2.2 (.inr (by simp only [fresh, free', Bool.false_eq_true, if_false]))]
  simp only [fresh, data, free', good, placed, beq_eq_false_iff_ne.mpr plain, flows', Bool.not_true, Bool.or_self, Bool.false_eq_true, if_false]
  exact ⟨_, rfl, state, current, (ends_of_acts acts.1 (by exact cmds) _).2.1⟩

/-- A model with an epoch staged, whose new shards take the place of those staged before (R241). -/
def Model.stage (next : Nat) (new : List Shard) (m : Model) : Model :=
  { m with staged := true, shards := m.shards.filter (fun x => !(x.epoch == next && new.any (fun y => y.index == x.index))) }

/-- A staged load leaves the model at its current epoch, with an epoch staged (R241). -/
theorem execModelLoadStage_stages {s v : State} {cid i : Nat} {c : Cmd} {manifest weights : List Byte} {mf : Manifest} (acts : ActsReading s cid 0x10 c)
    (stage : c.flag 1 = true) (plain : c.arg 0x1C 1 ≠ 1) (data : loadData c manifest weights = true) (named : modelHandle s (c.arg 8 8) = some i)
    (settled : commitInFlight (s.startCmd cid) (c.arg 8 8) = false) (good : checkManifest true manifest weights = .ok mf)
    (alike : stagedMatch (modelAt s i) manifest = none)
    (placed : placeEach (State.placeLocal i) (manifestShards ((modelAt s i).current + 1) manifest weights)
      ((s.startCmd cid).modModel i (Model.stage ((modelAt s i).current + 1) (manifestShards ((modelAt s i).current + 1) manifest weights))) = some v)
    (flows : memWaits s (placedPieces ((modelAt v i).shards.filter (fun x => x.epoch == (modelAt s i).current + 1))) = false) :
    Answers (.modelLoadStage cid manifest weights) s (fun t => (modelAt t i).staged = true ∧ (modelAt t i).current = (modelAt s i).current
      ∧ EndedAs t cid .ok) := by
  have named' : modelHandle (s.startCmd cid) (c.arg 8 8) = some i := named
  have alike' : stagedMatch (modelAt (s.startCmd cid) i) manifest = none := alike
  have epoch : (modelAt (s.startCmd cid) i).current = (modelAt s i).current := rfl
  have flows' : memWaits (s.startCmd cid) (placedPieces ((modelAt v i).shards.filter (fun x => x.epoch == (modelAt s i).current + 1))) = false := flows
  have before : (modelAt v i).phase = ((modelAt s i).state, (modelAt s i).current, true) :=
    (phase_of_phases (phases_placeEach placed) i).trans (congrArg Model.phase (modelAt_modModel_same (s := s.startCmd cid) (modelHandle_lt named) _))
  simp only [Model.phase, Prod.mk.injEq] at before
  obtain ⟨-, current, staged⟩ := before
  unfold Model.stage at placed
  have cmds : v.host.cmds = (s.startCmd cid).host.cmds :=
    ((placeEach_frame (fun _ _ _ e => State.placeLocal_frame e) placed).exact (by decide) (p := .cmds) (by decide)).trans rfl
  show ∃ t, execModelLoadStage cid manifest weights s = .next t ∧ _
  rw [execModelLoadStage, acts.1.hostCommand (mayRead_of_open acts.2.1 _) acts.2.2
    (.inr (by simp only [stage, named', settled, Option.isNone_some, Bool.not_true, Bool.false_eq_true, if_false]))]
  simp only [stage, data, named', good, alike', epoch, placed, plain, Option.bind_some, flows', Bool.not_true, Bool.or_self, Bool.false_eq_true, if_false]
  exact ⟨_, rfl, staged, current, (ends_of_acts acts.1 (by exact cmds) _).2.1⟩

/-- A model that nothing uses leaves its slot (R240). -/
theorem execModelUnload_unloads {s : State} {cid i : Nat} {c : Cmd} (acts : Acts s cid 0x11 c) (named : modelHandle s (c.arg 8 8) = some i)
    (noSession : s.sessions.any (fun x => x.model == i) = false) (noRun : s.runs.any (fun r => r.model == some i) = false)
    (unawaited : modelAwaited (s.startCmd cid) i = false) :
    Answers (.modelUnload cid) s (fun t => (modelAt t i).state = .empty ∧ (modelAt t i).shards = [] ∧ EndedAs t cid .ok) := by
  have named' : modelHandle (s.startCmd cid) (c.arg 8 8) = some i := named
  have noSession' : (s.startCmd cid).sessions.any (fun x => x.model == i) = false := noSession
  have noRun' : (s.startCmd cid).runs.any (fun r => r.model == some i) = false := noRun
  have freed := modelAt_modModel_same (s := s.startCmd cid) (modelHandle_lt named) (fun m => { Model.reset with gen := m.gen + 1 })
  show ∃ t, execModelUnload cid s = .next t ∧ _
  simp only [execModelUnload, acts.command, named', noSession', noRun', unawaited, Bool.or_self, Bool.false_eq_true, if_false]
  exact ⟨_, rfl, congrArg Model.state freed, congrArg Model.shards freed, (ends_of_acts acts rfl _).2.1⟩

/-! ## Commit (R242, R243) -/

/-- A command that starts waits at no host read: a retained epoch without users has none then. -/
theorem retainedUsed_startCmd {s : State} {k : Nat} (unused : retainedUsed s k = false) (cid : Nat) : retainedUsed (s.startCmd cid) k = false := by
  simp only [retainedUsed, Bool.or_eq_false_iff] at unused ⊢
  obtain ⟨⟨waiting, runs⟩, pinned⟩ := unused
  refine ⟨⟨?_, runs⟩, pinned⟩
  rw [List.any_eq_false] at waiting ⊢
  intro c started
  obtain ⟨c0, before, rfl⟩ := List.mem_map.mp started
  split
  · simp [Cmd.waits]
  · exact waiting c0 before

/-- A model whose staged epoch becomes the current one (R242). -/
def Model.commit (m : Model) : Model := { m with current := m.current + 1, retained := m.current, staged := false }

/-- A commit makes the staged epoch the current one (R242). -/
theorem execModelEpochCommit_commits {s : State} {cid i : Nat} {c : Cmd} (acts : Acts s cid 0x12 c) (named : modelHandle s (c.arg 8 8) = some i)
    (unused : (modelAt s i).retained = 0 ∨ retainedUsed s i = false) (staged : (modelAt s i).staged = true)
    (few : (modelAt s i).current < 0xFFFFFFFF) :
    Answers (.modelEpochCommit cid) s (fun t => (modelAt t i).current = (modelAt s i).current + 1 ∧ (modelAt t i).staged = false
      ∧ EndedAs t cid .ok) := by
  have named' : modelHandle (s.startCmd cid) (c.arg 8 8) = some i := named
  have same : modelAt (s.startCmd cid) i = modelAt s i := rfl
  have free : ¬((modelAt s i).retained ≠ 0 ∧ retainedUsed (s.startCmd cid) i = true) := by
    rintro ⟨kept, used⟩
    rcases unused with none_ | unused
    · exact kept none_
    · rw [retainedUsed_startCmd unused] at used
      cases used
  have committed : (modelAt (((s.startCmd cid).modModel i Model.commit).settleEpoch i) i).phase
      = ((modelAt s i).state, (modelAt s i).current + 1, false) :=
    (phase_of_phases (phases_settleEpoch i _) i).trans (congrArg Model.phase (modelAt_modModel_same (s := s.startCmd cid) (modelHandle_lt named) _))
  simp only [Model.phase, Prod.mk.injEq] at committed
  obtain ⟨-, current, unstaged⟩ := committed
  have cmds : (((s.startCmd cid).modModel i Model.commit).settleEpoch i).host.cmds = (s.startCmd cid).host.cmds :=
    (State.settleEpoch_frame i _).exact (by decide) (p := .cmds) (by decide)
  show ∃ t, execModelEpochCommit cid s = .next t ∧ _
  simp only [execModelEpochCommit, acts.command, named', same, if_neg free, staged, if_neg (not_le.mpr few), Bool.not_true, Bool.false_eq_true, if_false]
  exact ⟨_, rfl, current, unstaged, (ends_of_acts acts cmds _).2.1⟩

/-! ## ROLE_PLAN (R200, R333) -/

/-- A plan with bounds that the module meets, and a role that nothing forbids to change, is taken for the next plan. -/
theorem execRolePlan_plans {s : State} {cid : Nat} {c : Cmd} {b : Bounds} (acts : Acts s cid 0x50 c)
    (bounds : b = (if bit 2 (c.arg 0x14 1) then Bounds.reset
      else { minM := c.arg 8 2, maxM := c.arg 0xA 2, minD := c.arg 0xC 2, maxD := c.arg 0xE 2, minC := c.arg 0x10 2, maxC := c.arg 0x12 2 }))
    (mash : b.minM ≤ b.maxM) (draught : b.minD ≤ b.maxD) (cask : b.minC ≤ b.maxC) (sites : b.minM + b.minD + b.minC ≤ (computeSites s).length)
    (idle : bit 1 (c.arg 0x14 1) = false ∨ (s.sessions = [] ∧ s.runs = [] ∧ s.launches = []
      ∧ (s.startCmd cid).host.cmds.any (fun d => d.waits && (d.opcode == 0x31 || d.opcode == 0x33)) = false)) :
    Answers (.rolePlan cid) s (fun t => t.cel.bounds = b ∧ t.cel.freeze = (bit 0 (c.arg 0x14 1) && !bit 2 (c.arg 0x14 1)) ∧ t.cel.boundsNew = true
      ∧ (bit 1 (c.arg 0x14 1) = true → roleGiven t = (Role.ofCode (c.arg 0x15 1)).getD .none) ∧ EndedAs t cid .ok) := by
  have ordered : ¬(b.maxM < b.minM ∨ b.maxD < b.minD ∨ b.maxC < b.minC) := by omega
  have enough : ¬(computeSites (s.startCmd cid)).length < b.minM + b.minD + b.minC := not_lt.mpr sites
  have quiet : ((bit 1 (c.arg 0x14 1) && roleGiven (s.startCmd cid) != (Role.ofCode (c.arg 0x15 1)).getD .none)
      && (!(s.startCmd cid).sessions.isEmpty || !(s.startCmd cid).runs.isEmpty || !(s.startCmd cid).launches.isEmpty
        || (s.startCmd cid).host.cmds.any (fun d => d.waits && (d.opcode == 0x31 || d.opcode == 0x33)))) = false := by
    rcases idle with same | ⟨noSession, noRun, noLaunch, noneWaits⟩
    · rw [same]; rfl
    · rw [show (s.startCmd cid).sessions = [] from noSession, show (s.startCmd cid).runs = [] from noRun,
        show (s.startCmd cid).launches = [] from noLaunch, noneWaits]
      exact Bool.and_false _
  show ∃ t, execRolePlan cid s = .next t ∧ _
  simp only [execRolePlan, acts.command, ← bounds, if_neg ordered, if_neg enough]
  rw [if_neg (Bool.eq_false_iff.mp quiet)]
  refine ⟨_, rfl, rfl, rfl, rfl, fun given => ?_, (ends_of_acts acts rfl _).2.1⟩
  show (if (bit 1 (c.arg 0x14 1) && roleGiven (s.startCmd cid) != (Role.ofCode (c.arg 0x15 1)).getD .none) = true
    then some ((Role.ofCode (c.arg 0x15 1)).getD .none) else s.cel.newRole).getD s.cel.moduleRole = _
  by_cases same : roleGiven (s.startCmd cid) = (Role.ofCode (c.arg 0x15 1)).getD .none
  · rw [if_neg (by simp [same])]
    exact same
  · rw [if_pos (by simp [given, same]), Option.getD_some]

end Sys2Proof.Machine
end
section
open Sys2Proof Sys2Proof.Machine

/-- Settles O11: each command reaches the end of its body, and neither placing nor settling epochs changes the phase that it gave its model. -/
theorem modelCopyAndPlacementCommandsComplete : Obligations.ModelCopyAndPlacementCommandsComplete := by
  refine ⟨?copy, fun s cid c manifest weights i mf v => execModelLoad_loads, fun s cid c manifest weights i mf v => execModelLoadStage_stages,
    fun s cid c i => execModelUnload_unloads, fun s cid c i => execModelEpochCommit_commits, ?query,
    fun s cid c b => execRolePlan_plans, ?placement⟩
  case copy =>
    rintro s cid c source v ns nd from_ to_ out acts reads conv rounds bytesIn bytesOut sideIn sideOut where_ whither waits readable writable converted
    have ok : CopyAccepted s c v := ⟨conv, rounds, by rwa [← bytesIn], by rwa [← bytesOut]⟩
    refine ⟨_, execDmaCopy_copies acts reads ok bytesIn bytesOut where_ whither waits readable writable converted, ?_⟩
    have touched : ((s.startCmd cid).touch false from_).host.cmds = (s.startCmd cid).host.cmds :=
      (State.touch_frame ..).exact (by decide) (p := .cmds) (by decide)
    by_cases host : c.arg 9 1 = 0
    · obtain ⟨ended, -, written⟩ := ends_of_acts acts touched
        { status := .ok, source := 0, result := resultOf [(0x14, 8, nd)], writes := [(c.arg 0x20 8 + c.arg 0x28 8, out)] }
      simp only [host, if_true]
      exact ⟨State.touch_cells .., written, ended⟩
    · obtain ⟨ended, -, written⟩ := ends_of_acts acts (((State.writeMem_frame to_ out _).exact (by decide) (p := .cmds) (by decide)).trans touched)
        { status := .ok, source := 0, result := resultOf [(0x14, 8, nd)], writes := [] }
      simp only [host, if_false]
      exact ⟨(State.writeMem_cells ..).trans (by rw [State.touch_cells]; rfl), written, ended⟩
  case query =>
    intro s cid c i acts named
    have named' : modelHandle (s.startCmd cid) (c.arg 8 8) = some i := named
    show ∃ t, execModelQuery cid s = .next t ∧ _
    simp only [execModelQuery, acts.command, named']
    exact ⟨_, rfl, ended_finishCmd acts rfl .ok _⟩
  case placement =>
    intro s cid c l acts report room
    have report' : placementReport (s.startCmd cid) (c.arg 8 1) (c.arg 0x10 8) = some l := report
    show ∃ t, execPlacementQuery cid s = .next t ∧ _
    simp only [execPlacementQuery, acts.command, report', if_neg (not_lt.mpr room)]
    obtain ⟨ended, -, written⟩ := ends_of_acts acts rfl
      { status := .ok, source := 0, result := resultOf [(0x14, 4, l.length), (0x18, 4, s.cel.plan)], writes := [(c.arg 0x18 8, l)] }
    exact ⟨_, rfl, written, ended⟩
end
section
/-! Migrations (R249–R251, Tables 8-9 and 15-8): what a row finds of a migration, and what is left once its command has ended. -/

set_option Elab.async false
namespace Sys2Proof.Machine

/-! ## The record of a migration -/

theorem migOf_of_migs {s t : State} (h : t.migs = s.migs) (cid : Nat) (source : Bool) : migOf t cid source = migOf s cid source := by
  rw [migOf, h, migOf]

theorem cid_of_migOf {s : State} {cid : Nat} {source : Bool} {m : Migration} (h : migOf s cid source = some m) : m.cid = cid := by
  have key := List.find?_some h
  simp only [Bool.and_eq_true, beq_iff_eq] at key
  exact key.1

/-- A migration that has been changed is found again. -/
theorem migOf_modMig {f : Migration → Migration} (keeps : ∀ m, (f m).cid = m.cid ∧ (f m).isSource = m.isSource) (cid : Nat) (source : Bool)
    (s : State) : migOf (s.modMig cid f) cid source = (migOf s cid source).map f := by
  have search (m : Migration) : ((if m.cid = cid then f m else m).cid == cid && (if m.cid = cid then f m else m).isSource == source)
      = (m.cid == cid && m.isSource == source) := by split <;> simp [keeps]
  have found : migOf (s.modMig cid f) cid source = (migOf s cid source).map (fun m => if m.cid = cid then f m else m) := by
    unfold migOf State.modMig
    simp only [List.find?_map, Function.comp_def, search]
  rw [found]
  cases own : migOf s cid source with
  | none => rfl
  | some m => simp only [Option.map_some, if_pos (cid_of_migOf own)]

/-- A migration that is over is gone, on both sides. -/
theorem State.dropMig_gone {cid : Nat} {s : State} : ∀ q ∈ (s.dropMig cid).migs, q.cid ≠ cid := by
  intro q held
  simpa using (List.mem_filter.mp held).2

/-! ## Messages to the other module (Table 15-8) -/

theorem sessionAt_of_sessions {s t : State} (h : t.sessions = s.sessions) (i : Nat) : sessionAt t i = sessionAt s i := by
  rw [sessionAt, h, sessionAt]

theorem State.sendCtrl_migs (peer : Nat) (s : State) : (s.sendCtrl peer).migs = s.migs :=
  (State.sendCtrl_frame peer s).exact (by decide) (p := .migs) (by decide)

theorem State.sendCtrl_sessions (peer : Nat) (s : State) : (s.sendCtrl peer).sessions = s.sessions :=
  (State.sendCtrl_frame peer s).exact (by decide) (p := .sessions) (by decide)

theorem State.sendCtrl_cmds (peer : Nat) (s : State) : (s.sendCtrl peer).host.cmds = s.host.cmds :=
  (State.sendCtrl_frame peer s).exact (by decide) (p := .cmds) (by decide)

/-! ## How the command of a migration ends (R250) -/

/-- A live entry ends as it is told to, where nothing has changed it before. -/
theorem endedAs_of_live {s t : State} {cid : Nat} {c : Cmd} (live : Live s cid c) (same : t.host.cmds = s.host.cmds) (d : Done) :
    EndedAs (t.endCmd cid d) cid d.status := by
  obtain ⟨entry, open_, unmarked⟩ := live
  exact (ended_endCmd ((cmdAt_of_cmds same cid).trans entry) open_ unmarked).2.1

theorem isLive_of_live {s : State} {cid : Nat} {c : Cmd} (live : Live s cid c) : isLive s cid = true := by
  obtain ⟨entry, open_, -⟩ := live
  simp [isLive, entry, open_]

/-- A source that gives up ends its command and forgets its migration. -/
theorem State.undoMigrate_ends {s : State} {m : Migration} {c : Cmd} (live : Live s m.cid c) (status : Status) (source target : Nat) :
    (∀ q ∈ (s.undoMigrate m status source target).migs, q.cid ≠ m.cid) ∧ EndedAs (s.undoMigrate m status source target) m.cid status := by
  refine ⟨State.dropMig_gone, ?_⟩
  unfold State.undoMigrate
  split <;> exact endedAs_of_live live rfl _

/-- A copy that is dropped with its leases is gone, and no command with it: a session is freed by its index alone (R231). -/
theorem State.dropCopy_gone (i : Nat) (s : State) :
    sessionAt (s.dropSession i).releaseOrphans i = none ∧ (s.dropSession i).releaseOrphans.host.cmds = s.host.cmds :=
  ⟨(State.freeSession_gone (newSession s i 0 0 0 false 0) s).1,
    (State.freeSession_frame (newSession s i 0 0 0 false 0) s).exact (by decide) (p := .cmds) (by decide)⟩

/-- A target that gives up ends its command and forgets its migration, and its copy is gone. -/
theorem State.discardTarget_ends {s : State} {m : Migration} {c : Cmd} (live : Live s m.cid c) (status : Status) (err : Nat) :
    (∀ q ∈ (s.discardTarget m status err).migs, q.cid ≠ m.cid) ∧ (∀ i, m.session = some i → sessionAt (s.discardTarget m status err) i = none)
      ∧ EndedAs (s.discardTarget m status err) m.cid status := by
  refine ⟨State.dropMig_gone, fun i copy => ?_, ?_⟩
  · simp only [State.discardTarget, copy]
    exact (State.dropCopy_gone i s).1
  · unfold State.discardTarget
    split
    next i _ => exact endedAs_of_live live (State.dropCopy_gone i s).2 _
    next => exact endedAs_of_live live rfl _

/-! ## The image is sent and received (Table 8-9, steps 1 and 2) -/

/-- The migration of a source that has joined, with an image of so many bytes to send. -/
def Migration.join (size : Nat) (m : Migration) : Migration := { m with joined := true, size }

/-- The entry of a session whose image is sent. -/
def Session.depart (y : Session) : Session := { y with state := .migrating, prior := y.state }

theorem blockPieces_caskWork (cid i : Nat) (s : State) : blockPieces (s.caskWork cid) i = blockPieces s i := by
  obtain ⟨ts, work, -⟩ := caskWork_tiles cid s
  rw [work]
  rfl

/-- An image that can be read is sent: its session departs, its migration joins, and the requests follow. -/
theorem State.sendImage_sends {s : State} {x : Session} (m : Migration) (flows : blocksWait s x.index = false)
    (sound : blocksSource s x.index = none) :
    ∃ size l, s.sendImage m x
      = ((((s.snapped m.cid x.index).modSession x.index Session.depart).modMig m.cid (Migration.join size)).request l).spend 1 := by
  have sound' : blocksSource (s.caskWork m.cid) x.index = none := by
    rw [blocksSource, accessSource_caskWork, blockPieces_caskWork]
    exact sound
  simp only [State.sendImage, flows, sound', blockPieces_caskWork, Bool.false_eq_true, if_false]
  exact ⟨_, _, rfl⟩

/-- The source has joined then, and its session is in MIGRATING. -/
theorem State.sendImage_joins {s : State} {m : Migration} {x y : Session} (here : migOf s m.cid true = some m)
    (entry : sessionAt s x.index = some y) (flows : blocksWait s x.index = false) (sound : blocksSource s x.index = none) :
    (migOf (s.sendImage m x) m.cid true).map (·.joined) = some true
      ∧ (sessionAt (s.sendImage m x) x.index).map (·.state) = some .migrating := by
  have read : Frame [.tiles, .mem] s (s.snapped m.cid x.index) :=
    ((State.caskWork_frame ..).mono (by decide)).trans ((State.touch_frame ..).mono (by decide))
  have here' : migOf (s.snapped m.cid x.index) m.cid true = some m :=
    (migOf_of_migs (read.exact (by decide) (p := .migs) (by decide)) ..).trans here
  have entry' : sessionAt (s.snapped m.cid x.index) x.index = some y :=
    (sessionAt_of_sessions (read.exact (by decide) (p := .sessions) (by decide)) _).trans entry
  obtain ⟨size, l, sends⟩ := State.sendImage_sends m flows sound
  have sent := State.request_frame l (((s.snapped m.cid x.index).modSession x.index Session.depart).modMig m.cid (Migration.join size))
  rw [sends]
  constructor
  · have joined : migOf (((s.snapped m.cid x.index).modSession x.index Session.depart).modMig m.cid (Migration.join size)) m.cid true
        = some (m.join size) := by
      rw [migOf_modMig (by intro _; exact ⟨rfl, rfl⟩)]
      exact congrArg (Option.map (Migration.join size)) here'
    have found := (migOf_of_migs (sent.exact (by decide) (p := .migs) (by decide)) m.cid true).trans joined
    exact congrArg (Option.map (·.joined)) found
  · have departed : sessionAt ((s.snapped m.cid x.index).modSession x.index Session.depart) x.index = some y.depart := by
      rw [sessionAt_modSession (by intro; rfl), entry', Option.map_some]
    have found := (sessionAt_of_sessions (sent.exact (by decide) (p := .sessions) (by decide)) x.index).trans departed
    exact congrArg (Option.map (·.state)) found

/-- An image that the target restores makes it READY, with the session that it has made. -/
theorem execMigrationImageReceived_restores {s v : State} {cid : Nat} {m : Migration} {image : List Byte} {x : Session}
    (here : migOf s cid false = some m) (waits : m.ready = false)
    (restored : restoreImage (s.caskWork cid).setShare m.model image .migrating = .ok (v, x)) (same : (modelAt s m.model).gen = m.modelGen)
    (flows : memWaits s (blockPieces v x.index) = false) :
    Answers (.migrationImageReceived cid image) s (fun t => (migOf t cid false).map (·.ready) = some true ∧ x ∈ t.sessions ∧ x.state = .migrating) := by
  obtain ⟨there, state⟩ := restoreImage_session restored
  have work := State.caskWork_frame cid s
  have same' : (modelAt (s.caskWork cid).setShare m.model).gen = m.modelGen := by
    rw [← same, modelAt, show (s.caskWork cid).setShare.models = s.models from work.exact (by decide) (p := .models) (by decide), modelAt]
  have flows' : memWaits (s.caskWork cid).setShare (blockPieces v x.index) = false := (memWaits_caskWork cid _ s).trans flows
  have here' : migOf v cid false = some m :=
    (migOf_of_migs (((restoreImage_frame restored).exact (by decide) (p := .migs) (by decide)).trans
      (work.exact (by decide) (p := .migs) (by decide))) ..).trans here
  show ∃ t, execMigrationImageReceived cid image s = .next t ∧ _
  simp only [execMigrationImageReceived, here, waits, same', restored, flows', ne_eq, not_true_eq_false, Bool.false_eq_true, if_false]
  refine ⟨_, rfl, ?_, ?_, state⟩
  · rw [migOf_of_migs (State.sendCtrl_migs ..), migOf_modMig (by intro _; exact ⟨rfl, rfl⟩), here']
    rfl
  · rw [State.sendCtrl_sessions]
    exact there

/-! ## READY, COMMIT and DONE (Table 8-9, steps 3 to 5) -/

/-- At READY the source is ready too, and its session is IN_DOUBT. -/
theorem State.migrateReady_doubts {s : State} {cid i : Nat} {m : Migration} {x : Session} (here : migOf s cid true = some m)
    (joined : m.joined = true) (waits : m.ready = false) (moves : m.session = some i) (entry : sessionAt s i = some x) :
    (migOf (s.migrateReady cid) cid true).map (·.ready) = some true ∧ (sessionAt (s.migrateReady cid) i).map (·.state) = some .inDoubt := by
  simp only [State.migrateReady, here, joined, waits, moves, Bool.not_true, Bool.or_self, Bool.false_eq_true, if_false]
  constructor
  · rw [migOf_of_migs (State.sendCtrl_migs ..), migOf_modMig (by intro _; exact ⟨rfl, rfl⟩),
      migOf_of_migs (show (s.modSession i _).migs = s.migs from rfl), here]
    rfl
  · rw [sessionAt_of_sessions (State.sendCtrl_sessions ..)]
    refine (congrArg (Option.map _) (sessionAt_modSession (by intro; rfl) i s)).trans ?_
    rw [entry]
    rfl

/-- At COMMIT the session of the target is OPEN, and its restore ends. -/
theorem State.migrateCommit_opens {s : State} {cid i : Nat} {c : Cmd} {m : Migration} {x : Session} (live : Live s cid c)
    (here : migOf s cid false = some m) (ready : m.ready = true) (made : m.session = some i) (entry : sessionAt s i = some x) :
    (∀ q ∈ (s.migrateCommit cid).migs, q.cid ≠ cid) ∧ (sessionAt (s.migrateCommit cid) i).map (·.state) = some .open
      ∧ EndedAs (s.migrateCommit cid) cid .ok := by
  obtain rfl : x.index = i := by simpa [sessionAt] using List.find?_some entry
  simp only [State.migrateCommit, here, ready, made, Option.bind_some, entry]
  refine ⟨State.dropMig_gone, ?_, ?_⟩
  · refine (congrArg (Option.map _) (sessionAt_of_sessions (State.sendCtrl_sessions ..) x.index)).trans ?_
    rw [sessionAt_modSession (by intro; rfl), entry]
    rfl
  · exact endedAs_of_live live (State.sendCtrl_cmds m.peer (s.modSession x.index _)) _

/-- At DONE the session of the source is freed, and its command ends. -/
theorem State.migrateDone_frees {s : State} {cid i : Nat} {c : Cmd} {m : Migration} {x : Session} (live : Live s cid c)
    (here : migOf s cid true = some m) (ready : m.ready = true) (moved : m.session = some i) (entry : sessionAt s i = some x) :
    sessionAt (s.migrateDone cid) i = none ∧ EndedAs (s.migrateDone cid) cid .ok := by
  obtain rfl : x.index = i := by simpa [sessionAt] using List.find?_some entry
  obtain rfl := cid_of_migOf here
  simp only [State.migrateDone, here, ready, isLive_of_live live, moved, Option.bind_some, entry, Bool.and_self]
  refine ⟨(State.freeSession_gone x _).1, ?_⟩
  rw [EndedAs, cmdAt_of_cmds ((State.freeSession_frame ..).exact (by decide) (p := .cmds) (by decide))]
  exact endedAs_of_live live rfl _

end Sys2Proof.Machine
end
section
open Sys2Proof Sys2Proof.Machine

/-- Settles O13: each row finds the migration that it names; what it sends changes no session, migration or command, and what it gives up is gone
with the end of its command. The wait for the join and its second row are the model's (log 34), and so are the messages' operands (log 20). -/
theorem migrationRowsComplete : Obligations.MigrationRowsComplete := by
  refine ⟨?restore, ?migrate, ?join, ?sourceAlone, ?targetAlone, fun s cid m image v x => execMigrationImageReceived_restores, ?ready, ?refusal,
    ?commit, ?done, ?doneTimeout, ?resend, ?targetTimeout⟩
  case restore =>
    intro s cid c k acts remote fresh named
    have named' : modelHandle (s.startCmd cid) (c.arg 8 8) = some k := named
    show ∃ t, execSessionRestoreRemote cid s = .next t ∧ _
    simp only [execSessionRestoreRemote, fresh, acts.entry, remote, acts.command, named', ne_eq, not_true_eq_false, if_false]
    exact ⟨_, rfl, rfl⟩
  case migrate =>
    intro s cid c x acts fresh named state idle away
    show ∃ t, execSessionMigrate cid s = .next t ∧ _
    simp only [execSessionMigrate, fresh]
    rw [State.sessionCommand_of_idle (accepts := fun st => st == .open || st == .stepping) acts named idle (decide_eq_true away) (by rw [state]; rfl)]
    exact ⟨_, rfl, rfl⟩
  case join =>
    intro s cid m i x here alone route moves entry flows sound
    obtain rfl : x.index = i := by simpa [sessionAt] using List.find?_some entry
    obtain rfl := cid_of_migOf here
    show ∃ t, execSessionMigrate m.cid s = .next t ∧ _
    simp only [execSessionMigrate, here, alone, route, moves, Option.bind_some, entry, Bool.not_true, Bool.or_self, Bool.false_eq_true, if_false]
    exact ⟨_, rfl, State.sendImage_joins here entry flows sound⟩
  case sourceAlone =>
    intro s cid c m live here alone
    obtain rfl := cid_of_migOf here
    show ∃ t, execMigrationJoinTimeout m.cid s = .next t ∧ _
    simp only [execMigrationJoinTimeout, here, alone, Bool.false_eq_true, if_false]
    exact ⟨_, rfl, State.undoMigrate_ends live ..⟩
  case targetAlone =>
    intro s cid c m live none_ here alone waits
    obtain rfl := cid_of_migOf here
    obtain ⟨dropped, -, ended⟩ := State.discardTarget_ends live .peerAbsent 0xFFFFFFFF
    show ∃ t, execMigrationJoinTimeout m.cid s = .next t ∧ _
    simp only [execMigrationJoinTimeout, none_, here, alone, waits, Bool.or_self, Bool.false_eq_true, if_false]
    exact ⟨_, rfl, dropped, ended⟩
  case ready =>
    intro s cid m i x here joined waits moves entry
    exact ⟨_, rfl, State.migrateReady_doubts here joined waits moves entry⟩
  case refusal =>
    intro s cid c m status st live here joined waits code refuses
    obtain rfl := cid_of_migOf here
    refine ⟨_, rfl, ?_⟩
    simp only [State.migrateRefused, here, code, joined, waits, refuses, Bool.not_false, Bool.and_self, if_true]
    exact State.undoMigrate_ends live ..
  case commit =>
    intro s cid c m i x live here ready made entry
    exact ⟨_, rfl, State.migrateCommit_opens live here ready made entry⟩
  case done =>
    intro s cid c m i x live here ready moved entry
    exact ⟨_, rfl, State.migrateDone_frees live here ready moved entry⟩
  case doneTimeout =>
    intro s cid c m live here ready
    obtain rfl := cid_of_migOf here
    show ∃ t, execMigrationDoneTimeout m.cid s = .next t ∧ _
    simp only [execMigrationDoneTimeout, here, ready, isLive_of_live live, Bool.and_self, if_true]
    exact ⟨_, rfl, rfl, rfl, endedAs_of_live live rfl _⟩
  case resend =>
    intro s session m here ended route
    show ∃ t, execMigrationCommitResend session s = .next t ∧ _
    simp only [execMigrationCommitResend, here, ended, route, Bool.not_false, Bool.and_self, if_true]
    exact ⟨_, rfl, rfl⟩
  case targetTimeout =>
    intro s cid c m i live here joined made
    obtain rfl := cid_of_migOf here
    obtain ⟨dropped, gone, ended⟩ := State.discardTarget_ends live .linkLost 0xFFFFFFFF
    show ∃ t, execMigrationTargetTimeout m.cid s = .next t ∧ _
    simp only [execMigrationTargetTimeout, here, joined, if_true]
    exact ⟨_, rfl, dropped, gone i made, ended⟩
end
section
/-! A write of no bytes that has waited for its channel, in a byte store that is not in canonical form (R256, R264; O31). -/

set_option Elab.async false
namespace Sys2Proof.Machine

/-- A write of no bytes at offset 0 of site 0, held while its channel was being retrained. -/
def emptyWrite : HeldAccess := { site := 0, offset := 0, write := true, data := [], by_ := .hub, cid := none }

/-- `doublyListed`, with channel 0 of device a being retrained and the empty write waiting for it. -/
def emptyWriteHeld : State :=
  { doublyListed with mem := { doublyListed.mem with retraining := [(0, 0, 0)], heldAccesses := [emptyWrite] } }

/-- An empty write covers no granule whole, so it goes on as the read-modify-write of the granule at its offset: that removes the zero entry of
address 0. -/
theorem emptyWriteHeld_channelRetrainDone_uncovers :
    ∃ t, exec (.channelRetrainDone 0 0 0 true) emptyWriteHeld = .next t ∧ t.mem.cells = [(0, 7)] :=
  ⟨_, rfl, by decide +kernel⟩

end Sys2Proof.Machine

section
open Sys2Proof Sys2Proof.Machine

/-- Refutes O31: the clause for one write that waits when its channel has been retrained asks for whole granules by `a.data.length % 64 = 0`, which a
write of no bytes meets. Such a write is resumed as a read-modify-write of its granule (`State.writeGranules`), and in a store that lists an address
twice, the zero first, this removes the first entry, where the clause says that the store is as it was. The clause lacks `a.data ≠ []`, which the
clauses of GDDR7_WRITE have. -/
theorem not_localMemoryRowsComplete : ¬ Obligations.LocalMemoryRowsComplete := by
  unfold Obligations.LocalMemoryRowsComplete
  rintro ⟨-, -, -, -, -, -, -, -, -, -, -, -, -, -, -, -, -, -, waited, -⟩
  obtain ⟨t, row, uncovered⟩ := emptyWriteHeld_channelRetrainDone_uncovers
  obtain ⟨u, answer, -, stored⟩ := waited emptyWriteHeld 0 0 0 emptyWrite rfl rfl rfl rfl rfl rfl (by decide)
  obtain rfl : t = u := Host.Outcome.next.inj (row.symm.trans answer)
  exact absurd (uncovered.symm.trans stored) (by decide)

end
end
section
/-! The ports of the CXL tier under its rows (R266-R272): one port changed, reports on the way, and commands that access it. -/

set_option Elab.async false
namespace Sys2Proof

/-- No module stop touches the CXL ports, so a frame that does not list them keeps them. -/
theorem Frame.cxl_eq {ps : List Part} {s t : Machine.State} (h : Frame ps s t) (hp : Part.cxl ∉ ps) : t.cxl = s.cxl := h.stop .cxl hp (by decide)

end Sys2Proof

namespace Sys2Proof.Machine

/-! ## One port changed -/

/-- A port that has been changed is so in every later state that keeps the ports. -/
theorem cxlAt_of_modCxl {s t : State} {p : PortId} {f : CxlPort → CxlPort} (four : s.cxl.length = 4) (kept : t.cxl = (s.modCxl p f).cxl) :
    cxlAt t p = f (cxlAt s p) := by
  rw [cxlAt, kept]
  exact getD_modAt_same (by omega) f _

theorem cxlAt_modCxl {s : State} (four : s.cxl.length = 4) (p : PortId) (f : CxlPort → CxlPort) : cxlAt (s.modCxl p f) p = f (cxlAt s p) :=
  cxlAt_of_modCxl four rfl

theorem cxlAt_congr {s t : State} (kept : t.cxl = s.cxl) (p : Nat) : cxlAt t p = cxlAt s p := by rw [cxlAt, kept, cxlAt]

/-- An evacuation changes the port before it moves blocks (R271). -/
theorem cxlAt_evacuate {s : State} (four : s.cxl.length = 4) (p : PortId) :
    cxlAt (s.evacuate p) p = { cxlAt s p with state := .evacuating, powerBlink := true } :=
  cxlAt_of_modCxl four (((State.moveBlocksOff_frame ..).cxl_eq (by decide)).trans ((State.stopMovesTo_frame ..).cxl_eq (by decide)))

theorem cxlAt_cancelEvacuation {s : State} (four : s.cxl.length = 4) (p : PortId) :
    cxlAt (s.cancelEvacuation p) p = { cxlAt s p with state := .inService, powerBlink := false } := cxlAt_of_modCxl four rfl

/-- A removal without warning empties the port, notes the removal and reports it (R272). -/
theorem State.surpriseRemoval_empties {s : State} (four : s.cxl.length = 4) (p : PortId) (keep : Bool) :
    cxlAt (s.surpriseRemoval p keep) p = { (cxlAt s p).emptied keep with surpriseRemoved := true }
      ∧ srcId 4 p 3 ∈ (s.surpriseRemoval p keep).flt.sticky := by
  unfold State.surpriseRemoval
  dsimp only
  have calm : severityOf (srcId 4 p 3) ≠ 3 := calm_src (by decide) (by decide)
  have raised : (s.raise (srcId 4 p 3) 0).cxl = s.cxl := (State.raise_quiet calm).cxl_eq (by decide)
  have noted : srcId 4 p 3 ∈ (s.raise (srcId 4 p 3) 0).flt.sticky := State.mem_raise_sticky.mpr (.inr rfl)
  have lost := State.losePort_frame p (srcId 4 p 3) (s.raise (srcId 4 p 3) 0)
  have ports := (lost.cxl_eq (by decide)).trans raised
  have faults := lost.flt_eq (by decide)
  generalize (s.raise (srcId 4 p 3) 0).losePort p (srcId 4 p 3) = u at ports faults ⊢
  constructor
  · rw [cxlAt_modCxl (ports ▸ four), cxlAt_congr ports]
  · exact faults.symm ▸ noted

/-! ## Sticky bits that stay (R492) -/

theorem State.mem_raiseOn_sticky {x source data : Nat} {cids : List Nat} {s : State} :
    x ∈ (s.raiseOn source data cids).flt.sticky ↔ x ∈ s.flt.sticky ∨ source = x := by
  simp [State.raiseOn, State.mem_capture_sticky]

theorem State.reportAccess_sticky {x : Nat} {s : State} (h : x ∈ s.flt.sticky) (src : Nat) (l : List Extent) (cids : List Nat) :
    x ∈ (s.reportAccess src l cids).flt.sticky := by
  unfold State.reportAccess
  split
  · exact h
  · split <;> exact State.mem_raiseOn_sticky.mpr (.inl h)

theorem State.moveShard_sticky {x : Nat} {s : State} (h : x ∈ s.flt.sticky) (r : Extent) (room : State → List Extent) (model index epoch : Nat) :
    x ∈ (s.moveShard r room model index epoch).flt.sticky := by
  have moved (from_ into : List Extent) (f : Model → Model) : (((s.touch false from_).modModel model f).overwrite into).flt = s.flt :=
    ((State.overwrite_frame ..).flt_eq (by decide)).trans
      (((State.modModel_frame ..).flt_eq (by decide)).trans ((State.touch_frame ..).flt_eq (by decide)))
  unfold State.moveShard
  split
  · exact h
  · split
    · exact h
    · dsimp only
      split
      · exact h
      · split
        · exact State.reportAccess_sticky h ..
        · rw [moved]
          exact h

/-- The moves of shards report accesses that fail, and clear nothing. -/
theorem State.moveShards_sticky {x : Nat} {s : State} (h : x ∈ s.flt.sticky) (r : Extent) (room : State → List Extent) :
    x ∈ (s.moveShards r room).flt.sticky := by
  unfold State.moveShards
  dsimp only
  split
  · exact h
  · rw [(State.assignStreams_frame _).flt_eq (by decide)]
    exact List.foldlRecOn (motive := fun t : State => x ∈ t.flt.sticky) _ _ h (fun t kept y _ => State.moveShard_sticky kept ..)

/-! ## Media events (R269) -/

theorem State.mediaEvent_sticky (p : Nat) (ev : MediaEvent) (s : State) : srcId 4 p 4 ∈ (s.mediaEvent p ev).flt.sticky := by
  have raised : srcId 4 p 4 ∈ (s.raise (srcId 4 p 4) ev.data.toNat).flt.sticky := State.mem_raise_sticky.mpr (.inr rfl)
  unfold State.mediaEvent
  dsimp only
  split
  · exact raised
  · refine State.moveShards_sticky ?_ ..
    rw [(State.moveBlocksFrom_frame ..).flt_eq (by decide)]
    exact raised

theorem State.mediaEvent_of_logged {p : Nat} {ev : MediaEvent} (logged : ev.region = none) (s : State) :
    s.mediaEvent p ev = s.raise (srcId 4 p 4) ev.data.toNat := by
  simp only [State.mediaEvent, logged]

/-- An uncorrectable region is noted before what lies in it moves. -/
theorem State.mediaEvent_bad {s : State} (four : s.cxl.length = 4) {p : PortId} {ev : MediaEvent} {off len : Nat} (region : ev.region = some (off, len)) :
    (portBase p + off, len) ∈ (cxlAt (s.mediaEvent p ev) p).bad := by
  have calm : severityOf (srcId 4 p 4) ≠ 3 := calm_src (by decide) (by decide)
  have ports : (s.raise (srcId 4 p 4) ev.data.toNat).cxl = s.cxl := (State.raise_quiet calm).cxl_eq (by decide)
  simp only [State.mediaEvent, region]
  rw [cxlAt_of_modCxl (ports ▸ four) (((State.moveShards_frame ..).cxl_eq (by decide)).trans ((State.moveBlocksFrom_frame ..).cxl_eq (by decide)))]
  exact mem_addOnce.mpr (.inr rfl)

/-- The log of an expander in service is read one event at a time. -/
theorem exec_cxlEventLogPoll_one {s : State} {p : PortId} (up : (cxlAt s p).linkUp = true)
    (serves : (cxlAt s p).state = .inService ∨ (cxlAt s p).state = .evacuating) (ev : MediaEvent) :
    exec (.cxlEventLogPoll p [ev]) s = .next (s.mediaEvent p ev) :=
  if_pos (by rcases serves with serves | serves <;> simp [up, serves])

/-! ## Commands that access a port (R268, R269) -/

theorem any_cmdAt_of_live {s : State} {cid : Nat} {c : Cmd} {f : Cmd → Bool} (live : Live s cid c) (holds : f c = true) :
    (cmdAt s cid).any f = true := by
  obtain ⟨entry, -, -⟩ := live
  rw [entry]
  exact holds

/-- What decides whether a mark counts: the runs, the launches and the units at work (R148, R181). -/
theorem markCounts_congr {s t : State} (runs : t.runs = s.runs) (launches : t.launches = s.launches) (cel : t.cel = s.cel) (src cid : Nat) :
    markCounts t src cid = markCounts s src cid := by
  simp only [markCounts, markOp, runs, launches, cel]

/-- A checker marks the entry of a live command, where the mark counts. -/
theorem State.markCmd_marks {s : State} {cid src : Nat} {c : Cmd} (entry : cmdAt s cid = some c) (unmarked : c.marked = none)
    (counts : markCounts s src cid = true) : (cmdAt (s.markCmd src cid) cid).bind (·.marked) = some src := by
  rw [State.markCmd, cmdAt_modCmd _ _ _ (fun c => by split <;> rfl), entry]
  simp [unmarked, counts]

/-- The state once a cycle of the collector has set its registers (R492, R493). -/
def State.registered (evs : List FaultEvent) (s : State) : State :=
  let f := s.flt.capture s.ret.opTime s.ret.cycles evs
  { s with flt := f, ret := { s.ret with faultList := f.open_ } }

/-- A cycle of the collector changes the command table by the marks of its events alone (R489). -/
theorem State.captureOnly_cmds (evs : List FaultEvent) (s : State) :
    ∃ u, Frame [.ret, .flashA, .flashB, .log, .flt] s u ∧ (s.captureOnly evs).host.cmds = (u.markEvents (s.flt.marking evs)).host.cmds := by
  have registers : Frame [.ret, .flt] s (s.registered (s.flt.marking evs)) := Frame.upd (Frame.refl _ s)
  refine ⟨(s.registered (s.flt.marking evs)).logEvents (s.flt.marking evs),
    Frame.after (State.logEvents_frame ..) (by decide) (registers.mono (by decide)), ?_⟩
  unfold State.captureOnly
  dsimp only
  split
  · exact (State.raiseCause_frame ..).exact (by decide) (p := .cmds) (by decide)
  · rfl

theorem State.capture_of_calm {e : FaultEvent} (calm : severityOf e.source ≠ 3) (s : State) : s.capture [e] = s.captureOnly [e] := by
  have none_ : [e].filter (fun e => severityOf e.source == 3) = [] := by simp [calm]
  rw [State.capture, none_]
  rfl

/-- A report of an S2 event marks the command that consumes what it is about (R489). -/
theorem State.raiseOn_marks {s : State} {cid src : Nat} {c : Cmd} (live : Live s cid c) (suspect : severityOf src = 2)
    (counts : markCounts s src cid = true) (data : Nat) : (cmdAt (s.raiseOn src data [cid]) cid).bind (·.marked) = some src := by
  obtain ⟨entry, -, unmarked⟩ := live
  obtain ⟨u, log, same⟩ := State.captureOnly_cmds [{ source := src, data := BitVec.ofNat 64 data, touched := [cid] }] s
  have only (e : FaultEvent) (source : e.source = src) (touched : e.touched = [cid]) : u.markEvents [e] = u.markCmd src cid := by
    simp [State.markEvents, sortBy, insertBy, source, touched, suspect]
  have kept := markCounts_congr (log.exact (by decide) (p := .runs) (by decide)) (log.exact (by decide) (p := .launches) (by decide))
    (log.exact (by decide) (p := .cel) (by decide)) src cid
  rw [State.raiseOn, State.capture_of_calm (by rw [suspect]; decide), cmdAt_of_cmds (same.trans (congrArg (·.host.cmds) (only _ rfl rfl)))]
  exact State.markCmd_marks ((cmdAt_of_cmds (log.exact (by decide) (p := .cmds) (by decide)) cid).trans entry) unmarked (kept.trans counts)

/-- A report that is about no command changes none. -/
theorem State.raise_cmds {src : Nat} (calm : severityOf src ≠ 3) (data : Nat) (s : State) : (s.raise src data).host.cmds = s.host.cmds := by
  obtain ⟨u, log, same⟩ := State.captureOnly_cmds [{ source := src, data := BitVec.ofNat 64 data }] s
  have only (e : FaultEvent) (touched : e.touched = []) : u.markEvents [e] = u := by
    simp [State.markEvents, sortBy, insertBy, touched]
  rw [State.raise, State.capture_of_calm calm, same, Faults.marking, List.map_singleton, only _ rfl]
  exact log.exact (by decide) (p := .cmds) (by decide)

/-- An access that times out ends its command, and the event of it stays (R268). -/
theorem State.failWork_raised {s : State} {cid src : Nat} {c : Cmd} (live : Live s cid c) (sound : NoneFailed s cid) (calm : severityOf src ≠ 3)
    (status : Status) : EndedAs ((s.raise src 0).failWork cid status src) cid status ∧ src ∈ ((s.raise src 0).failWork cid status src).flt.sticky := by
  have frame : Frame _ s (s.raise src 0) := State.raise_quiet calm
  have runs : (s.raise src 0).runs = s.runs := frame.exact (by decide) (p := .runs) (by decide)
  have launches : (s.raise src 0).launches = s.launches := frame.exact (by decide) (p := .launches) (by decide)
  obtain ⟨whole, unstopped⟩ := sound
  constructor
  · refine State.failWork_endedAs (c := c) ?live ?sound ?unstopped src
    case live => simpa only [Live, cmdAt, State.raise_cmds calm] using live
    case sound => simpa only [runOf, runs] using fun r run => .inl (whole r run)
    case unstopped => simpa only [launchOf, launches] using unstopped
  · rw [(State.failWork_frame ..).flt_eq (by decide)]
    exact State.mem_raise_sticky.mpr (.inr rfl)

end Sys2Proof.Machine

section
open Sys2Proof Sys2Proof.Machine

/-- Settles O32: each row changes its port by one `State.modCxl`, which the reports and moves around it keep (`cxlAt_of_modCxl`); a report sets the
sticky bit of its source and marks the command that it is about (`State.raiseOn_marks`), and nothing that follows clears a sticky bit. -/
theorem cxlRowsComplete : Obligations.CxlRowsComplete := by
  unfold Obligations.CxlRowsComplete
  refine ⟨?presence, ?linkUp, ?linkBack, ?discovery, ?linkDown, ?timeout, ?noAccess, ?downTimeout, ?logged, ?badRegion, ?evacuates, ?refused, ?cancelled,
    ?ledOut, ?waits, ?evacuated, ?removed, ?noPower, ?marks, ?poisoned, ?clean⟩
  case presence =>
    intro s p four vacant down
    refine ⟨_, if_pos ⟨vacant, down⟩, ?_⟩
    beta_reduce
    rw [cxlAt_of_modCxl four ((State.raise_quiet (calm_presence p)).cxl_eq (by decide))]
    exact ⟨rfl, rfl, rfl, rfl, State.mem_raise_sticky.mpr (.inr rfl)⟩
  case linkUp =>
    intro s p rate width capacity four power down trains fresh
    have new : ((cxlAt s p).waiting && (cxlAt s p).state != .empty) = false := by
      rcases fresh with fresh | fresh <;> simp [fresh]
    show ∃ t, execCxlLinkUp p rate width capacity s = .next t ∧ _
    simp only [execCxlLinkUp, power, down, trains, new, Bool.not_true, Bool.or_self, Bool.false_eq_true, if_false]
    refine ⟨_, rfl, ?_⟩
    rw [cxlAt_modCxl four]
    exact ⟨rfl, rfl, rfl, rfl, rfl⟩
  case linkBack =>
    intro s p rate width capacity four power down trains waiting held
    show ∃ t, execCxlLinkUp p rate width capacity s = .next t ∧ _
    simp only [execCxlLinkUp, power, down, trains, waiting, bne_iff_ne.mpr held, Bool.not_true, Bool.or_self, Bool.and_self, Bool.false_eq_true,
      if_false, if_true]
    refine ⟨_, rfl, ?_⟩
    rw [cxlAt_of_modCxl four (((State.settleRuns_frame _).cxl_eq (by decide)).trans ((State.leaveBad_frame _).cxl_eq (by decide)))]
    exact ⟨rfl, rfl, rfl, rfl⟩
  case discovery =>
    intro s p four discovering up
    show ∃ t, execCxlDiscoveryDone p s = .next t ∧ _
    simp only [execCxlDiscoveryDone, discovering, up, Bool.and_self, if_true]
    refine ⟨_, rfl, ?_⟩
    rw [cxlAt_modCxl (s := s.loseBytes ..) four]
    exact ⟨rfl, rfl, fun a => readByte_clearRange_same, fun a => readByte_clearRange_other⟩
  case linkDown =>
    intro s p four up
    refine ⟨_, if_pos up, ?_⟩
    beta_reduce
    rw [cxlAt_modCxl four]
    exact ⟨rfl, rfl, rfl⟩
  case timeout =>
    intro s p cid c live sound accesses
    exact ⟨_, if_pos (any_cmdAt_of_live live accesses), State.failWork_raised live sound (calm_src (by decide) (by decide)) _⟩
  case noAccess =>
    intro s p cid none_
    exact ⟨s, if_neg (ne_true_of_eq_false none_), rfl⟩
  case downTimeout =>
    intro s p four waiting
    obtain ⟨port, noted⟩ := State.surpriseRemoval_empties four p (cxlAt s p).present
    refine ⟨_, if_pos waiting, ?_⟩
    beta_reduce
    rw [port]
    exact ⟨rfl, rfl, rfl, rfl, noted⟩
  case logged =>
    intro s p ev up serves
    refine ⟨s.mediaEvent p ev, exec_cxlEventLogPoll_one up serves ev, State.mediaEvent_sticky .., fun none_ => ?_⟩
    rw [State.mediaEvent_of_logged none_]
    have report : Frame _ s (s.raise (srcId 4 p 4) ev.data.toNat) := State.raise_quiet (calm_src (by decide) (by decide))
    exact ⟨report.exact (by decide) (p := .cxl) (by decide), report.exact (by decide) (p := .models) (by decide),
      report.exact (by decide) (p := .cel) (by decide)⟩
  case badRegion =>
    intro s p ev off len four up serves region
    exact ⟨s.mediaEvent p ev, exec_cxlEventLogPoll_one up serves ev, State.mediaEvent_bad four region⟩
  case evacuates =>
    intro s p four serves room
    show ∃ t, execCxlAttentionButton p s = .next t ∧ _
    simp only [execCxlAttentionButton, State.askOffline, serves, room, if_true]
    refine ⟨_, rfl, ?_⟩
    rw [cxlAt_evacuate four]
    exact ⟨rfl, rfl⟩
  case refused =>
    intro s p four serves full
    show ∃ t, execCxlAttentionButton p s = .next t ∧ _
    simp only [execCxlAttentionButton, State.askOffline, serves, full, Bool.false_eq_true, if_false, if_true]
    refine ⟨_, rfl, ?_⟩
    rw [cxlAt_modCxl four]
    exact ⟨serves, rfl⟩
  case cancelled =>
    intro s p four leaving
    show ∃ t, execCxlAttentionButton p s = .next t ∧ _
    simp only [execCxlAttentionButton, State.askOffline, leaving, Bool.false_eq_true, if_false]
    refine ⟨_, rfl, ?_⟩
    rw [cxlAt_cancelEvacuation four]
    exact ⟨rfl, rfl⟩
  case ledOut =>
    intro s p four
    exact ⟨_, rfl, congrArg CxlPort.attention (cxlAt_modCxl four p _)⟩
  case waits =>
    intro s p waiting
    exact ⟨s, if_pos (.inr waiting), rfl⟩
  case evacuated =>
    intro s p four leaving up blocks moves empty
    have ports : ((s.clearPort p).loseBytes (portBase p) 0x40000000000).cxl.length = 4 := by
      rw [(State.loseBytes_frame ..).cxl_eq (by decide), (State.clearPort_frame ..).cxl_eq (by decide), four]
    show ∃ t, execCxlEvacuationDone p s = .next t ∧ _
    simp only [execCxlEvacuationDone, leaving, up, blocks, moves, empty, ne_eq, not_true_eq_false, Bool.false_eq_true, or_self, if_false]
    refine ⟨_, rfl, ?_⟩
    rw [cxlAt_modCxl ports]
    exact ⟨rfl, rfl, rfl, rfl⟩
  case removed =>
    intro s p four present power
    obtain ⟨port, noted⟩ := State.surpriseRemoval_empties four p false
    refine ⟨_, if_pos (by rw [present, power]; rfl), ?_⟩
    beta_reduce
    rw [port]
    exact ⟨rfl, rfl, rfl, noted⟩
  case noPower =>
    intro s p four off
    have out : ((cxlAt s p).present && (cxlAt s p).slotPower) = false := by
      rcases off with off | off <;> simp [off]
    refine ⟨_, if_neg (ne_true_of_eq_false out), ?_⟩
    beta_reduce
    rw [cxlAt_modCxl four]
    exact ⟨rfl, rfl, rfl⟩
  case marks =>
    intro s p cid c live up consumes counts
    show ∃ t, execCxlMemReadResponse p cid true s = .next t ∧ _
    simp only [execCxlMemReadResponse, up, any_cmdAt_of_live live consumes, Bool.and_self, if_true]
    exact ⟨_, rfl, State.raiseOn_marks live ((severity_srcId _ _ (by decide)).trans (by decide)) counts 0⟩
  case poisoned =>
    intro s p cid up
    exact ⟨_, if_pos (by rw [up]; rfl), State.mem_raiseOn_sticky.mpr (.inr rfl)⟩
  case clean =>
    intro s p cid
    exact ⟨s, rfl, rfl⟩

end
end

section
/-! The general and memory commands (Tables 11-3, 11-4, 11-10): each runs its body on the state in which it has started, and ends with its result (O9). -/

set_option Elab.async false
namespace Sys2Proof.Machine

/-! ## Features (R314, Table 11-4) -/

/-- A SET_FEATURE that acts runs the body of the row that its feature code names. -/
theorem setFeature_of_acts {s : State} {cid feature : Nat} {c : Cmd} (acts : Acts s cid 0x04 c) (names : c.arg 8 2 = feature)
    (body : Cmd → State → State) : s.setFeature cid feature body = body c (s.startCmd cid) := by
  rw [State.setFeature, acts.entry]
  exact (if_pos names).trans (acts.command body)

/-- The state with an aperture bound to a place of a handle. -/
def State.bindAperture (a h off : Nat) (s : State) : State :=
  { s with host := { s.host with apertures := setAt s.host.apertures a ⟨BitVec.ofNat 64 h, off⟩ } }

theorem execSetFeatureBar4Aperture_binds {s : State} {cid : Nat} {c : Cmd} (acts : Acts s cid 0x04 c) (names : c.arg 8 2 = 1)
    (bound : c.arg 0x18 8 = 0 ∨ ∃ x, memHandle s (c.arg 0x18 8) = some x ∧ c.arg 0x20 8 < x.size) :
    exec (.setFeatureBar4Aperture cid) s = .next (((s.startCmd cid).bindAperture (c.arg 0x10 1) (c.arg 0x18 8) (c.arg 0x20 8)).finishBytes cid .ok
      (featureValue (s.startCmd cid) 1 (c.arg 0x10 1))) := by
  show execSetFeatureBar4Aperture cid s = _
  rw [execSetFeatureBar4Aperture, setFeature_of_acts acts names]
  dsimp only
  rcases bound with unbound | ⟨x, handle, inside⟩
  · rw [if_pos unbound]
    rfl
  · have handle' : memHandle (s.startCmd cid) (c.arg 0x18 8) = some x := handle
    simp only [handle', if_pos inside, ite_self]
    rfl

/-- A port in the list that starts to be evacuated is EVACUATING (R271). -/
theorem cxlAt_evacuate_state {s : State} {p : Nat} (has : p < s.cxl.length) : (cxlAt (s.evacuate p) p).state = .evacuating := by
  have kept : (s.evacuate p).cxl = (s.modCxl p (fun x => { x with state := .evacuating, powerBlink := true })).cxl :=
    ((State.moveBlocksOff_frame ..).cxl_eq (by decide)).trans ((State.stopMovesTo_frame ..).cxl_eq (by decide))
  rw [cxlAt, kept]
  exact congrArg CxlPort.state (getD_modAt_same has _ _)

theorem execSetFeatureCxlPortOffline_evacuates {s : State} {cid : Nat} {c : Cmd} (acts : Acts s cid 0x04 c) (names : c.arg 8 2 = 2)
    (serves : (cxlAt s (c.arg 0x10 1)).state = .inService) (room : evacuable s (c.arg 0x10 1) = true) :
    exec (.setFeatureCxlPortOffline cid) s = .next (((s.startCmd cid).evacuate (c.arg 0x10 1)).finishBytes cid .ok
      (featureValue (s.startCmd cid) 2 (c.arg 0x10 1))) := by
  have serves' : (cxlAt (s.startCmd cid) (c.arg 0x10 1)).state = .inService := serves
  have room' : evacuable (s.startCmd cid) (c.arg 0x10 1) = true := room
  have asked : (s.startCmd cid).askOffline (c.arg 0x10 1) = ((s.startCmd cid).evacuate (c.arg 0x10 1), false) := by
    simp only [State.askOffline, serves', room', if_true]
  show execSetFeatureCxlPortOffline cid s = _
  rw [execSetFeatureCxlPortOffline, setFeature_of_acts acts names]
  simp only [asked]
  rfl

/-! ## Memory handles (R331, R332) -/

/-- Bytes cleared at pieces read as zero there. -/
theorem readByte_clearPieces_same {l : List Extent} {e : Extent} (member : e ∈ l) {a : Nat} (from_ : e.base ≤ a) (to_ : a < e.base + e.len)
    (m : ByteMap) : readByte (clearPieces m l) a = 0 := by
  have kept (m : ByteMap) (d : Extent) (zero : readByte m a = 0) : readByte (clearRange m d.base d.len) a = 0 := by
    by_cases inside : d.base ≤ a ∧ a < d.base + d.len
    · exact readByte_clearRange_same inside.1 inside.2
    · rw [readByte_clearRange_other (by omega), zero]
  induction l generalizing m with
  | nil => cases member
  | cons d l ih =>
    rcases List.mem_cons.mp member with rfl | later
    · exact List.foldlRecOn (motive := fun m => readByte m a = 0) l _ (readByte_clearRange_same from_ to_) (fun m zero d _ => kept m d zero)
    · exact ih later _

@[simp] theorem State.overwrite_handles (l : List Extent) (s : State) : (s.overwrite l).mem.handles = s.mem.handles :=
  (congrArg (·.mem.handles) (State.touch_placing true l { s with mem := { s.mem with poison := clearPoison l s.mem.poison } }) :)

@[simp] theorem State.overwrite_cells (l : List Extent) (s : State) : (s.overwrite l).mem.cells = s.mem.cells := State.touch_cells ..

@[simp] theorem genOf_bumpGen (i : Nat) (l : List (Nat × Nat)) : genOf (bumpGen i l) i = genOf l i + 1 := by
  rw [genOf, bumpGen, lookupKey_setKey, Option.getD_some]

theorem ne_of_mem_without {α : Type} {f : α → Nat} {i : Nat} {l : List α} {y : α} (h : y ∈ without (fun x => f x == i) l) : f y ≠ i := by
  simpa using (List.mem_filter.mp h).2

/-- The state with a new handle and its bytes cleared. -/
def State.keepHandle (h : MemHandle) (s : State) : State :=
  State.overwrite h.extents { s with mem := { s.mem with cells := clearPieces s.mem.cells h.extents, handles := s.mem.handles ++ [h] } }

theorem State.keepHandle_cmds (h : MemHandle) (s : State) : (s.keepHandle h).host.cmds = s.host.cmds :=
  ((State.overwrite_frame ..).exact (by decide) (p := .cmds) (by decide) :)

/-- The state without a memory handle, its bytes cleared. -/
def State.dropHandle (x : MemHandle) (s : State) : State :=
  { s with mem := { s.mem with cells := clearPieces s.mem.cells x.extents, handles := without (fun y => y.index == x.index) s.mem.handles,
                               handleGen := bumpGen x.index s.mem.handleGen } }

/-- The state without a graph. -/
def State.dropGraph (i : Nat) (s : State) : State :=
  { s with graphs := without (fun y => y.1 == i) s.graphs, graphGen := bumpGen i s.graphGen }

/-- The state without a kernel. -/
def State.dropKernel (i : Nat) (s : State) : State :=
  { s with kernels := without (fun y => y.1 == i) s.kernels, kernelGen := bumpGen i s.kernelGen }

theorem execMemAlloc_keeps {s : State} {cid i : Nat} {c : Cmd} {l : List Extent} (acts : Acts s cid 0x41 c) (fits : c.arg 8 8 ≤ 2 ^ 42)
    (free : freeIndex (s.mem.handles.map (·.index)) 65536 = some i) (room : allocExtents s (roundUp (c.arg 8 8) 65536) (c.arg 0x10 1) = some l)
    (flows : memWaits s l = false) :
    exec (.memAlloc cid) s = .next ((((s.startCmd cid).keepHandle
        { index := i, gen := genOf s.mem.handleGen i, size := roundUp (c.arg 8 8) 65536, tier := c.arg 0x10 1, extents := l }).noteGen 1
          (genOf s.mem.handleGen i)).finishCmd cid .ok
      [(0x14, 8, handleWord 1 (genOf s.mem.handleGen i) i), (0x1C, 8, roundUp (c.arg 8 8) 65536)]) := by
  have free' : freeIndex ((s.startCmd cid).mem.handles.map (·.index)) 65536 = some i := free
  have room' : allocExtents (s.startCmd cid) (roundUp (c.arg 8 8) 65536) (c.arg 0x10 1) = some l := room
  have flows' : memWaits (s.startCmd cid) l = false := flows
  show execMemAlloc cid s = _
  rw [execMemAlloc, acts.command]
  dsimp only
  rw [if_neg (by omega), free', room']
  simp only [flows']
  rfl

theorem execMemFree_memory {s : State} {cid : Nat} {c : Cmd} {x : MemHandle} (acts : Acts s cid 0x42 c) (named : memHandle s (c.arg 8 8) = some x)
    (unused : memInUse (s.startCmd cid) (c.arg 8 8) x.index = false) :
    exec (.memFree cid) s = .next (((s.startCmd cid).dropHandle x).finishCmd cid .ok []) := by
  have named' : memHandle (s.startCmd cid) (c.arg 8 8) = some x := named
  show execMemFree cid s = _
  rw [execMemFree, acts.command]
  simp only [named', unused]
  rfl

theorem execMemFree_graph {s : State} {cid i gen : Nat} {c : Cmd} {g : Graph} (acts : Acts s cid 0x42 c) (noMem : memHandle s (c.arg 8 8) = none)
    (named : graphHandle s (c.arg 8 8) = some (i, gen, g)) (idle : s.runs.any (fun r => r.graphIndex == some i) = false)
    (unused : namedInFlight (s.startCmd cid) (c.arg 8 8) = false) :
    exec (.memFree cid) s = .next (((s.startCmd cid).dropGraph i).finishCmd cid .ok []) := by
  have noMem' : memHandle (s.startCmd cid) (c.arg 8 8) = none := noMem
  have named' : graphHandle (s.startCmd cid) (c.arg 8 8) = some (i, gen, g) := named
  show execMemFree cid s = _
  rw [execMemFree, acts.command]
  simp only [noMem', named', State.startCmd_runs, idle, unused]
  rfl

theorem execMemFree_kernel {s : State} {cid i gen : Nat} {c : Cmd} {k : Kernel} (acts : Acts s cid 0x42 c) (noMem : memHandle s (c.arg 8 8) = none)
    (noGraph : graphHandle s (c.arg 8 8) = none) (named : kernelHandle s (c.arg 8 8) = some (i, gen, k))
    (idle : s.launches.any (fun l => l.kernelIndex == i) = false) (unused : namedInFlight (s.startCmd cid) (c.arg 8 8) = false) :
    exec (.memFree cid) s = .next (((s.startCmd cid).dropKernel i).finishCmd cid .ok []) := by
  have noMem' : memHandle (s.startCmd cid) (c.arg 8 8) = none := noMem
  have noGraph' : graphHandle (s.startCmd cid) (c.arg 8 8) = none := noGraph
  have named' : kernelHandle (s.startCmd cid) (c.arg 8 8) = some (i, gen, k) := named
  show execMemFree cid s = _
  rw [execMemFree, acts.command]
  simp only [noMem', noGraph', named', State.startCmd_launches, idle, unused]
  rfl

end Sys2Proof.Machine

section
open Sys2Proof Sys2Proof.Machine

/-- Settles O9: a command that acts runs its body on the state in which it has started (`Acts.command`, `setFeature_of_acts`), and nothing in a body
but the end itself touches its entry (`ends_of_acts`). -/
theorem generalAndMemoryCommandsComplete : Obligations.GeneralAndMemoryCommandsComplete := by
  unfold Obligations.GeneralAndMemoryCommandsComplete
  refine ⟨?nop, ?identify, ?getStatus, ?aperture, ?offline, ?powerCap, ?throttleStart, ?getFeature, ?alloc, ?freeMemory, ?freeGraph, ?freeKernel⟩
  case nop =>
    intro s cid c acts
    exact ⟨_, congrArg Host.Outcome.next (acts.command _), (ends_of_acts acts rfl _).1⟩
  case identify =>
    intro s cid c acts
    exact ⟨_, congrArg Host.Outcome.next (acts.command _), (ends_of_acts acts rfl _).1⟩
  case getStatus =>
    intro s cid c acts
    exact ⟨_, congrArg Host.Outcome.next (acts.command _), (ends_of_acts acts rfl _).1⟩
  case aperture =>
    intro s cid c acts names bound
    exact ⟨_, execSetFeatureBar4Aperture_binds acts names bound, rfl, (ends_of_acts acts rfl _).2.1⟩
  case offline =>
    intro s cid c acts names has serves room
    exact ⟨_, execSetFeatureCxlPortOffline_evacuates acts names serves room, cxlAt_evacuate_state (s := s.startCmd cid) has,
      (ends_of_acts acts ((State.evacuate_frame ..).exact (by decide) (p := .cmds) (by decide)) _).2.1⟩
  case powerCap =>
    intro s cid c acts names allowed
    refine ⟨_, congrArg Host.Outcome.next ((setFeature_of_acts acts names _).trans (if_neg (Nat.not_lt.mpr allowed))), rfl, (ends_of_acts acts rfl _).2.1⟩
  case throttleStart =>
    intro s cid c acts names
    exact ⟨_, congrArg Host.Outcome.next (setFeature_of_acts acts names _), rfl, (ends_of_acts acts rfl _).2.1⟩
  case getFeature =>
    intro s cid c acts
    exact ⟨_, congrArg Host.Outcome.next (acts.command _), (ends_of_acts acts rfl _).1⟩
  case alloc =>
    intro s cid c i l acts fits free room flows
    refine ⟨_, execMemAlloc_keeps acts fits free room flows, State.overwrite_handles .., fun e member a from_ to_ => ?_, ?ends⟩
    · exact (congrArg (readByte · a) (State.overwrite_cells ..)).trans (readByte_clearPieces_same member from_ to_ _)
    case ends => exact (ends_of_acts acts (State.keepHandle_cmds _ _) _).1
  case freeMemory =>
    intro s cid c x acts named unused
    exact ⟨_, execMemFree_memory acts named unused, fun y left => ne_of_mem_without left,
      fun e member a from_ to_ => readByte_clearPieces_same member from_ to_ _, genOf_bumpGen .., (ends_of_acts acts rfl _).2.1⟩
  case freeGraph =>
    intro s cid c i g k acts noMem named idle unused
    exact ⟨_, execMemFree_graph acts noMem named idle unused, fun y left => ne_of_mem_without left, genOf_bumpGen .., (ends_of_acts acts rfl _).2.1⟩
  case freeKernel =>
    intro s cid c i g k acts noMem noGraph named idle unused
    exact ⟨_, execMemFree_kernel acts noMem noGraph named idle unused, fun y left => ne_of_mem_without left, genOf_bumpGen ..,
      (ends_of_acts acts rfl _).2.1⟩

end
end

section
/-! What a command leaves of the other entries of the command table (R299, R302, R303; O53): the operations that a command is made of change its own
entry alone, and a frame without the table changes none. -/

set_option Elab.async false
namespace Sys2Proof.Machine

/-- From s to t no entry of the command table has changed but that of cid. -/
structure OthersKept (cid : Nat) (s t : State) : Prop where
  entry : ∀ k, k ≠ cid → cmdAt t k = cmdAt s k

theorem OthersKept.refl (cid : Nat) (s : State) : OthersKept cid s s := ⟨fun _ _ => rfl⟩

theorem OthersKept.trans {cid : Nat} {s t u : State} (h : OthersKept cid s t) (k : OthersKept cid t u) : OthersKept cid s u :=
  ⟨fun j other => (k.entry j other).trans (h.entry j other)⟩

/-- A frame that does not list the command table keeps every entry. -/
theorem OthersKept.frame {ps : List Part} {cid : Nat} {s t u : State} (h : OthersKept cid s t) (f : Frame ps t u)
    (hp : Part.stop ∉ ps ∧ Part.cmds ∉ ps := by decide) : OthersKept cid s u :=
  h.trans ⟨fun k _ => cmdAt_of_cmds (f.exact hp.1 (p := .cmds) hp.2) k⟩

theorem OthersKept.of_cmds {cid : Nat} {s t u : State} (h : OthersKept cid s t) (same : u.host.cmds = t.host.cmds) : OthersKept cid s u :=
  h.trans ⟨fun k _ => cmdAt_of_cmds same k⟩

theorem OthersKept.modCmd {cid : Nat} {s t : State} (h : OthersKept cid s t) {f : Cmd → Cmd} (hf : ∀ c, (f c).cid = c.cid) :
    OthersKept cid s (t.modCmd cid f) :=
  h.trans ⟨fun _ other => cmdAt_modCmd_ne hf other.symm⟩

theorem OthersKept.endCmd {cid : Nat} {s t : State} (h : OthersKept cid s t) (d : Done) : OthersKept cid s (t.endCmd cid d) :=
  h.modCmd (Cmd.finish_cid d)

/-- A command ends, with an update of the state that is none of the table. -/
theorem OthersKept.ends {cid : Nat} {s t u : State} (h : OthersKept cid s t) (same : u.host.cmds = t.host.cmds) (d : Done) :
    OthersKept cid s (u.endCmd cid d) := (h.of_cmds same).endCmd d

theorem OthersKept.finishCmd {cid : Nat} {s t : State} (h : OthersKept cid s t) (st : Status) (l : List (Nat × Nat × Nat)) :
    OthersKept cid s (t.finishCmd cid st l) := h.endCmd _

theorem OthersKept.finishBytes {cid : Nat} {s t : State} (h : OthersKept cid s t) (st : Status) (l : List Byte) :
    OthersKept cid s (t.finishBytes cid st l) := h.endCmd _

theorem OthersKept.finishWrites {cid : Nat} {s t : State} (h : OthersKept cid s t) (st : Status) (l : List (Nat × Nat × Nat))
    (w : List (Nat × List Byte)) : OthersKept cid s (t.finishWrites cid st l w) := h.endCmd _

theorem OthersKept.loadFails {cid : Nat} {s t : State} (h : OthersKept cid s t) (st : Status) (err : Nat) :
    OthersKept cid s (t.loadFails cid st err) := h.finishCmd ..

theorem OthersKept.startCmd (cid : Nat) (s : State) : OthersKept cid s (s.startCmd cid) := (OthersKept.refl cid s).modCmd (fun _ => rfl)

/-- A command keeps the other entries where its body does, which runs on a state that keeps them. -/
theorem OthersKept.command {cid op : Nat} {s : State} {body : Cmd → State → State}
    (hb : ∀ c t, OthersKept cid s t → OthersKept cid s (body c t)) : OthersKept cid s (s.command cid op body) := by
  unfold State.command
  split
  · exact hb _ _ (.startCmd cid s)
  · exact .refl cid s

/-- The same for a command that reads host memory and is no step of a session: what waits at its read is its own entry. -/
theorem OthersKept.hostCommand {cid op : Nat} {s : State} {check : Cmd → State → Option State} {body : Cmd → State → State}
    (hc : ∀ c t u, OthersKept cid s t → check c t = some u → OthersKept cid s u)
    (hb : ∀ c t, OthersKept cid s t → OthersKept cid s (body c t)) (noStep : ¬ (op = 0x22 ∨ op = 0x23)) :
    OthersKept cid s (s.hostCommand cid op check body) := by
  refine OthersKept.command (fun c t ht => ?_)
  dsimp only
  split
  next u hu =>
    split at hu
    · cases hu
    · exact hc c t u ht hu
  next =>
    split
    · exact hb c t ht
    · split
      · exact .refl cid s
      · exact (OthersKept.refl cid s).modCmd (fun _ => rfl)

/-- A row keeps the other entries of the command table. -/
def KeepsOthers (row : Nat → Instr) : Prop := ∀ s cid, ∃ t, exec (row cid) s = .next t ∧ OthersKept cid s t

theorem KeepsOthers.answers {row : Nat → Instr} (h : KeepsOthers row) (s : State) (cid k : Nat) (other : k ≠ cid) :
    Answers (row cid) s (fun t => cmdAt t k = cmdAt s k) := by
  obtain ⟨t, next, kept⟩ := h s cid
  exact ⟨t, next, kept.entry k other⟩

/-! ## Rows by their bodies -/

theorem OthersKept.setFeature {cid feature : Nat} {s : State} {body : Cmd → State → State}
    (hb : ∀ c t, OthersKept cid s t → OthersKept cid s (body c t)) : OthersKept cid s (s.setFeature cid feature body) := by
  unfold State.setFeature
  split
  · split
    · exact .command hb
    · exact .refl cid s
  · exact .refl cid s

theorem OthersKept.selftest {cid kind : Nat} {s : State} {body : Cmd → State → State}
    (hb : ∀ c t, OthersKept cid s t → OthersKept cid s (body c t)) : OthersKept cid s (s.selftest cid kind body) := by
  unfold State.selftest
  split
  · split
    · exact .command hb
    · exact .refl cid s
  · exact .refl cid s

theorem keepsOthers_nop : KeepsOthers .nop :=
  fun _ _ => ⟨_, rfl, .command fun _ _ h => h.finishCmd ..⟩

theorem keepsOthers_identify : KeepsOthers .identify :=
  fun _ _ => ⟨_, rfl, .command fun _ _ h => h.finishCmd ..⟩

theorem keepsOthers_getStatus : KeepsOthers .getStatus :=
  fun _ _ => ⟨_, rfl, .command fun _ _ h => (h.finishCmd ..).frame (State.spend_frame ..)⟩

theorem keepsOthers_setFeatureBar4Aperture : KeepsOthers .setFeatureBar4Aperture := by
  refine fun s cid => ⟨_, rfl, .setFeature fun c t h => ?_⟩
  dsimp only
  have bound : OthersKept cid s (((t.bindAperture (c.arg 0x10 1) (c.arg 0x18 8) (c.arg 0x20 8))).finishBytes cid .ok
    (featureValue t 1 (c.arg 0x10 1))) := h.ends (by rfl) _
  split
  · exact bound
  · split
    · split
      · exact bound
      · exact h.finishCmd ..
    · exact h.finishCmd ..

theorem keepsOthers_setFeaturePowerCap : KeepsOthers .setFeaturePowerCap := by
  refine fun s cid => ⟨_, rfl, .setFeature fun c t h => ?_⟩
  dsimp only
  split
  · exact h.finishCmd ..
  · exact h.ends (by rfl) _

theorem keepsOthers_setFeatureThrottleStart : KeepsOthers .setFeatureThrottleStart :=
  fun _ _ => ⟨_, rfl, .setFeature fun _ _ h => h.ends (by rfl) _⟩

theorem keepsOthers_getFeature : KeepsOthers .getFeature :=
  fun _ _ => ⟨_, rfl, .command fun _ _ h => h.finishBytes ..⟩

theorem keepsOthers_modelUnload : KeepsOthers .modelUnload := by
  refine fun s cid => ⟨_, rfl, .command fun c t h => ?_⟩
  split
  · exact h.finishCmd ..
  · split
    · exact h.finishCmd ..
    · exact ((h.frame (State.modModel_frame ..)).frame (State.assignStreams_frame _)).finishCmd ..

theorem keepsOthers_modelEpochCommit : KeepsOthers .modelEpochCommit := by
  refine fun s cid => ⟨_, rfl, .command fun c t h => ?_⟩
  split
  · exact h.finishCmd ..
  · dsimp only
    split
    · exact h.finishCmd ..
    · split
      · exact h.finishCmd ..
      · split
        · exact h.finishCmd ..
        · exact ((h.frame (State.modModel_frame ..)).frame (State.settleEpoch_frame ..)).finishCmd ..

theorem keepsOthers_modelQuery : KeepsOthers .modelQuery := by
  refine fun s cid => ⟨_, rfl, .command fun c t h => ?_⟩
  split <;> exact h.finishCmd ..

theorem keepsOthers_sessionOpen : KeepsOthers .sessionOpen := by
  refine fun s cid => ⟨_, rfl, .command fun c t h => ?_⟩
  replace h := h.frame (State.setShare_frame t)
  dsimp only
  generalize t.setShare = u at h ⊢
  split
  · exact h.finishCmd ..
  · split
    · exact h.finishCmd ..
    · split
      · exact h.finishCmd ..
      · split
        · exact h.finishCmd ..
        · split
          · exact h.finishCmd ..
          · exact h.ends (by rfl) _

theorem keepsOthers_memAlloc : KeepsOthers .memAlloc := by
  refine fun s cid => ⟨_, rfl, .command fun c t h => ?_⟩
  dsimp only
  split
  · exact h.finishCmd ..
  · split
    · split
      · exact h
      · exact h.ends (by exact ((State.overwrite_frame _ _).exact (by decide) (p := .cmds) (by decide))) _
    · exact h.finishCmd ..

theorem keepsOthers_memFree : KeepsOthers .memFree := by
  refine fun s cid => ⟨_, rfl, .command fun c t h => ?_⟩
  dsimp only
  split
  · split
    · exact h.finishCmd ..
    · exact h.ends (by rfl) _
  · split
    · exact h.finishCmd ..
    · exact h.ends (by rfl) _
  · split
    · exact h.finishCmd ..
    · exact h.ends (by rfl) _
  · exact h.finishCmd ..

theorem keepsOthers_rolePlan : KeepsOthers .rolePlan := by
  refine fun s cid => ⟨_, rfl, .command fun c t h => ?_⟩
  dsimp only
  refine iteInduction (fun _ => h.finishCmd ..) (fun _ => ?_)
  refine iteInduction (fun _ => h.finishCmd ..) (fun _ => ?_)
  refine iteInduction (fun _ => h.finishCmd ..) (fun _ => ?_)
  exact h.ends (by rfl) _

theorem keepsOthers_placementQuery : KeepsOthers .placementQuery := by
  refine fun s cid => ⟨_, rfl, .command fun c t h => ?_⟩
  split
  · exact h.finishCmd ..
  · dsimp only
    split
    · exact h.finishCmd ..
    · exact h.finishWrites ..

theorem keepsOthers_selftestSummary : KeepsOthers .selftestSummary :=
  fun _ _ => ⟨_, rfl, .selftest fun _ _ h => h.finishCmd ..⟩

theorem keepsOthers_faultInject : KeepsOthers .faultInject := by
  refine fun s cid => ⟨_, rfl, .command fun c t h => ?_⟩
  dsimp only
  split
  · exact h.finishCmd ..
  · split
    · exact h.finishCmd ..
    · split
      · exact h.finishCmd ..
      · exact h.ends (by rfl) _

theorem keepsOthers_logRead : KeepsOthers .logRead := by
  refine fun s cid => ⟨_, rfl, .command fun c t h => ?_⟩
  have shown (b : Bool) : OthersKept cid s (if b then t.commitOpen else t) := by
    split
    · exact h.frame (State.commitOpen_frame t)
    · exact h
  dsimp only
  split
  · exact (shown _).finishCmd ..
  · exact (shown _).finishWrites ..

theorem keepsOthers_settingsRead : KeepsOthers .settingsRead := by
  refine fun s cid => ⟨_, rfl, .command fun c t h => ?_⟩
  dsimp only
  split
  · exact h.finishCmd ..
  · exact h.finishWrites ..

/-- The rows whose only operand is their entry. -/
theorem keepsOthers_plain : ∀ row ∈ [Instr.nop, .identify, .getStatus, .setFeatureBar4Aperture, .setFeaturePowerCap, .setFeatureThrottleStart, .getFeature,
    .modelUnload, .modelEpochCommit, .modelQuery, .sessionOpen, .memAlloc, .memFree, .rolePlan, .placementQuery, .selftestSummary, .faultInject, .logRead,
    .settingsRead], KeepsOthers row := by
  simp only [List.forall_mem_cons]
  exact ⟨keepsOthers_nop, keepsOthers_identify, keepsOthers_getStatus, keepsOthers_setFeatureBar4Aperture, keepsOthers_setFeaturePowerCap,
    keepsOthers_setFeatureThrottleStart, keepsOthers_getFeature, keepsOthers_modelUnload, keepsOthers_modelEpochCommit, keepsOthers_modelQuery,
    keepsOthers_sessionOpen, keepsOthers_memAlloc, keepsOthers_memFree, keepsOthers_rolePlan, keepsOthers_placementQuery, keepsOthers_selftestSummary,
    keepsOthers_faultInject, keepsOthers_logRead, keepsOthers_settingsRead, nofun⟩

/-! ## Rows with an operand beside the entry -/

theorem keepsOthers_graphLoad (image : List Byte) : KeepsOthers (.graphLoad · image) := by
  refine fun s cid => ⟨_, rfl, .hostCommand (fun _ _ _ _ stops => nomatch stops) (fun c t h => ?_) (by decide)⟩
  split
  · exact .refl cid s
  · split
    · split <;> exact h.finishCmd ..
    · split
      · exact h.finishCmd ..
      · exact h.ends (by rfl) _

theorem keepsOthers_kernelLoad (image : List Byte) : KeepsOthers (.kernelLoad · image) := by
  refine fun s cid => ⟨_, rfl, .hostCommand (fun _ _ _ _ stops => nomatch stops) (fun c t h => ?_) (by decide)⟩
  split
  · exact .refl cid s
  · split
    · exact h.finishCmd ..
    · split
      · exact h.finishCmd ..
      · exact h.ends (by rfl) _

/-- What check 5 makes of a load: the row is that of the other form, or the load fails (R241, R316). -/
theorem OthersKept.loadStop {cid : Nat} {s t u v : State} (h : OthersKept cid s t) (stop : u = s ∨ ∃ st err, u = t.loadFails cid st err)
    (same : some u = some v) : OthersKept cid s v := by
  cases same
  rcases stop with rfl | ⟨st, err, rfl⟩
  · exact .refl cid _
  · exact h.loadFails ..

/-- Copies in the CXL tier, where a load asks for them (R239). -/
theorem OthersKept.copied {cid i epoch : Nat} {copy : Prop} [Decidable copy] {s v w : State} (h : OthersKept cid s v)
    (placed : (if copy then v.placeCopies i epoch else some v) = some w) : OthersKept cid s w := by
  split at placed
  · exact h.frame (State.placeCopies_frame placed)
  · cases placed
    exact h

/-- A load goes on from its copies, or fails for want of room for them. -/
theorem OthersKept.copies {cid i epoch : Nat} {copy : Prop} [Decidable copy] {s t v : State} {f : State → State} (h : OthersKept cid s v)
    (fails : OthersKept cid s t) (done : ∀ w, OthersKept cid s w → OthersKept cid s (f w)) :
    OthersKept cid s (match (if copy then v.placeCopies i epoch else some v) with
      | none => t
      | some w => f w) := by
  split
  next => exact fails
  next w placed => exact done w (h.copied placed)

theorem keepsOthers_modelLoad (manifest weights : List Byte) : KeepsOthers (.modelLoad · manifest weights) := by
  refine fun s cid => ⟨_, rfl, .hostCommand (fun c t u h stops => ?_) (fun c t h => ?_) (by decide)⟩
  · split at stops
    · exact h.loadStop (.inl rfl) stops
    · split at stops
      · exact h.loadStop (.inr ⟨_, _, rfl⟩) stops
      · cases stops
  · dsimp only
    split
    · exact .refl cid s
    · split
      · exact h.loadFails ..
      · split
        · exact h.loadFails ..
        next i _ _ mf _ =>
          have claimed : OthersKept cid s (t.claimSlot i c manifest mf) := h.frame (State.claimSlot_frame ..)
          have loaded (w u : State) (hw : OthersKept cid s w) (same : u.host.cmds = w.host.cmds) (st : Status) (l : List (Nat × Nat × Nat))
              (waits : Prop) [Decidable waits] : OthersKept cid s (if waits then t else u.assignStreams.finishCmd cid st l) := by
            split
            · exact h
            · exact ((hw.of_cmds same).frame (State.assignStreams_frame u)).finishCmd ..
          split
          next v fits => exact (claimed.frame (placeModel_fits fits)).copies (h.loadFails ..) (fun w hw => loaded w _ hw (by rfl) ..)
          next v spilled => exact (claimed.frame (placeModel_spilled spilled)).copies (h.loadFails ..) (fun w hw => loaded w _ hw (by rfl) ..)
          next => exact h.loadFails ..

theorem keepsOthers_modelLoadStage (manifest weights : List Byte) : KeepsOthers (.modelLoadStage · manifest weights) := by
  refine fun s cid => ⟨_, rfl, .hostCommand (fun c t u h stops => ?_) (fun c t h => ?_) (by decide)⟩
  · split at stops
    · exact h.loadStop (.inl rfl) stops
    · split at stops
      · exact h.loadStop (.inr ⟨_, _, rfl⟩) stops
      · split at stops
        · exact h.loadStop (.inr ⟨_, _, rfl⟩) stops
        · cases stops
  · dsimp only
    split
    · exact .refl cid s
    · split
      · exact h.loadFails ..
      · split
        · exact h.loadFails ..
        · exact h.loadFails ..
        · split
          · exact h.loadFails ..
          next i _ _ _ _ _ _ _ v placed =>
            obtain ⟨u, each, copied⟩ := Option.bind_eq_some_iff.mp placed
            have staged := (h.frame (State.modModel_frame ..)).frame (placeEach_frame (fun _ _ _ => State.placeLocal_frame) each)
            split
            · exact h
            · exact ((staged.copied copied).frame (State.assignStreams_frame v)).finishCmd ..

theorem keepsOthers_marginTest (eyes : List (Nat × Nat)) : KeepsOthers (.marginTest · eyes) := by
  refine fun s cid => ⟨_, rfl, .command fun c t h => ?_⟩
  dsimp only
  split
  · split
    · exact h.finishCmd ..
    · split
      · exact h.finishCmd ..
      · split
        · exact h.finishCmd ..
        · split
          · exact h.finishCmd ..
          · exact h.frame (State.modEngine_frame ..)
  · split
    · exact .refl cid s
    · exact (h.frame (State.modEngine_frame ..)).finishWrites ..

end Sys2Proof.Machine

section
open Sys2Proof Sys2Proof.Machine

/-- Settles O53: every body is made of operations on the command's own entry and of operations without the table, so that the other entries stay
(`OthersKept`), row by row. -/
theorem commandsKeepOtherEntries : Obligations.CommandsKeepOtherEntries := by
  unfold Obligations.CommandsKeepOtherEntries
  refine ⟨fun row member s cid k other => ?plain, fun row member s cid image k other => ?image, fun row member s cid m w k other => ?load,
    fun s cid eyes k other => (keepsOthers_marginTest eyes).answers s cid k other⟩
  case plain => exact (keepsOthers_plain row member).answers s cid k other
  case image =>
    have rows : ∀ row ∈ [Instr.graphLoad, .kernelLoad], KeepsOthers (row · image) := by
      simp only [List.forall_mem_cons]
      exact ⟨keepsOthers_graphLoad image, keepsOthers_kernelLoad image, nofun⟩
    exact (rows row member).answers s cid k other
  case load =>
    have rows : ∀ row ∈ [Instr.modelLoad, .modelLoadStage], KeepsOthers (row · m w) := by
      simp only [List.forall_mem_cons]
      exact ⟨keepsOthers_modelLoad m w, keepsOthers_modelLoadStage m w, nofun⟩
    exact (rows row member).answers s cid k other
end
end

section
/-! What the host link keeps while messages leave or are held and entries of the command table change (R280, R282, R307): its rings, its registers and
its configuration. -/

set_option Elab.async false
namespace Sys2Proof.Machine

/-! ## The lasting part of the host link -/

/-- The host link without its messages and the command table. -/
def HostLink.lasting (h : HostLink) : HostLink := { h with posted := [], held := [], pendingBits := [], cmds := [] }

/-- From s to t the host link has changed in its messages and the command table alone. -/
def HostLasts (s t : State) : Prop := t.host.lasting = s.host.lasting

theorem HostLasts.trans {s t u : State} (h : HostLasts s t) (k : HostLasts t u) : HostLasts s u := Eq.trans k h

/-- No module stop touches the host link, so a frame that does not list it keeps it, but for the command table. -/
theorem host_of_frame {ps : List Part} {s t : State} (h : Frame ps s t) (hp : Part.host ∉ ps) :
    ({ t.host with cmds := [] } : HostLink) = { s.host with cmds := [] } := h.stop .host hp (by decide)

theorem HostLasts.of_frame {ps : List Part} {s t : State} (h : Frame ps s t) (hp : Part.host ∉ ps) : HostLasts s t :=
  (congrArg HostLink.lasting (host_of_frame h hp) :)

theorem posted_of_frame {ps : List Part} {s t : State} (h : Frame ps s t) (hp : Part.host ∉ ps) : t.host.posted = s.host.posted :=
  (congrArg HostLink.posted (host_of_frame h hp) :)

/-- What is read of the lasting part alone is kept. -/
theorem HostLasts.get {α : Type} {s t : State} (h : HostLasts s t) (f : HostLink → α) (lasts : ∀ l, f l = f l.lasting) : f t.host = f s.host := by
  rw [lasts, h, ← lasts]

theorem HostLasts.ringAt {s t : State} (h : HostLasts s t) (r : Nat) : ringAt t r = Machine.ringAt s r := h.get (·.rings.getD r Ring.reset) (fun _ => rfl)

theorem HostLasts.hostOpen {s t : State} (h : HostLasts s t) : hostOpen t = Machine.hostOpen s :=
  h.get (fun l => l.busMaster && !l.d3hot && l.linkUp) (fun _ => rfl)

theorem HostLasts.vectorHeld {s t : State} (h : HostLasts s t) (v : Nat) : vectorHeld t v = Machine.vectorHeld s v :=
  h.get (fun l => !l.msixEnable || l.functionMask || l.vectorMask.contains v) (fun _ => rfl)

/-! ## Messages and reports -/

theorem State.send_lasts (m : HostMsg) (s : State) : HostLasts s (s.send m) := by
  unfold State.send
  split <;> rfl

theorem State.sendVector_lasts (v : Nat) (s : State) : HostLasts s (s.sendVector v) := by
  unfold State.sendVector
  split
  · rfl
  · exact State.send_lasts ..

theorem State.flushVector_lasts (v : Nat) (s : State) : HostLasts s (s.flushVector v) := by
  unfold State.flushVector
  split
  · exact State.send_lasts ..
  · rfl

theorem State.flushVectors_lasts (s : State) : HostLasts s s.flushVectors :=
  foldl_view (v := fun t : State => t.host.lasting) (fun t v => State.flushVector_lasts v t) s.host.pendingBits s

theorem State.raiseCause_lasts (k : Nat) (s : State) : HostLasts s (s.raiseCause k) := by
  unfold State.raiseCause
  dsimp only
  split
  · rfl
  · exact State.sendVector_lasts 0 _

/-- The state of a cycle of the collector before its cause is set: its registers, its records and its marks (R492, R494, R489). -/
def State.reported (evs : List FaultEvent) (s : State) : State := ((s.registered evs).logEvents evs).markEvents evs

theorem State.captureOnly_eq (evs : List FaultEvent) (s : State) :
    s.captureOnly evs = if causesFault s.flt (s.flt.marking evs) then (s.reported (s.flt.marking evs)).raiseCause 1 else s.reported (s.flt.marking evs) := rfl

/-- Its registers, its records and its marks are all that such a cycle changes. -/
theorem State.reported_frame (evs : List FaultEvent) (s : State) : Frame [.ret, .flashA, .flashB, .log, .flt, .cmds] s (s.reported evs) := by
  have registers : Frame [.ret, .flt] s (s.registered evs) := Frame.upd (Frame.refl _ s)
  exact ((registers.mono (by decide)).step (State.logEvents_frame ..) (by decide)).step (State.markEvents_frame ..) (by decide)

theorem State.reported_lasts (evs : List FaultEvent) (s : State) : HostLasts s (s.reported evs) := .of_frame (State.reported_frame ..) (by decide)

theorem State.captureOnly_lasts (evs : List FaultEvent) (s : State) : HostLasts s (s.captureOnly evs) := by
  rw [State.captureOnly_eq]
  split
  · exact .trans (State.reported_lasts ..) (State.raiseCause_lasts ..)
  · exact State.reported_lasts ..

theorem State.capture_lasts (evs : List FaultEvent) (s : State) : HostLasts s (s.capture evs) := by
  refine .trans (State.captureOnly_lasts evs s) ?_
  unfold State.capture
  dsimp only
  split
  · exact .of_frame (State.moduleStop_frame ..) (by decide)
  · rfl

theorem State.raise_lasts (source data : Nat) (s : State) : HostLasts s (s.raise source data) := State.capture_lasts ..

/-! ## Messages that leave -/

/-- An open host takes a message at once. -/
theorem State.send_of_open {s : State} (up : hostOpen s = true) (m : HostMsg) :
    s.send m = { s with host := { s.host with posted := s.host.posted ++ [m] } } := if_pos up

theorem State.send_posts {s : State} (up : hostOpen s = true) (m : HostMsg) : m ∈ (s.send m).host.posted := by
  rw [State.send_of_open up]
  exact List.mem_append_right _ (List.mem_singleton_self m)

/-- A closed host takes no message: it is held. -/
theorem State.send_posted_of_closed {s : State} (closed : hostOpen s = false) (m : HostMsg) : (s.send m).host.posted = s.host.posted := by
  rw [State.send, if_neg (by simp [closed])]

theorem State.sendVector_posted_of_closed {s : State} (closed : hostOpen s = false) (v : Nat) : (s.sendVector v).host.posted = s.host.posted := by
  unfold State.sendVector
  split
  · rfl
  · exact State.send_posted_of_closed closed _

theorem State.raiseCause_posted_of_closed {s : State} (closed : hostOpen s = false) (k : Nat) : (s.raiseCause k).host.posted = s.host.posted := by
  unfold State.raiseCause
  dsimp only
  split
  · rfl
  · exact State.sendVector_posted_of_closed (s := { s with boot := { s.boot with cause := s.boot.cause ||| (1#7 <<< k) } }) closed 0

theorem State.reported_posted (evs : List FaultEvent) (s : State) : (s.reported evs).host.posted = s.host.posted :=
  posted_of_frame (State.reported_frame ..) (by decide)

/-- A report posts nothing while the host is closed: what it would send is held (R280, R282). -/
theorem State.raise_posted_of_closed {s : State} (closed : hostOpen s = false) (source data : Nat) : (s.raise source data).host.posted = s.host.posted := by
  have collected (evs : List FaultEvent) : (s.captureOnly evs).host.posted = s.host.posted := by
    rw [State.captureOnly_eq]
    split
    · rw [State.raiseCause_posted_of_closed ((State.reported_lasts ..).hostOpen.trans closed), State.reported_posted]
    · exact State.reported_posted ..
  unfold State.raise State.capture
  dsimp only
  split
  · exact (posted_of_frame (State.moduleStop_frame ..) (by decide)).trans (collected _)
  · exact collected _

/-! ## Rings -/

theorem ringAt_modRing_same {s : State} {r : Nat} (present : r < s.host.rings.length) (f : Ring → Ring) :
    ringAt (s.modRing r f) r = f (ringAt s r) := getD_modAt_same present f Ring.reset

theorem State.modRing_rings_length (r : Nat) (f : Ring → Ring) (s : State) : (s.modRing r f).host.rings.length = s.host.rings.length :=
  modAt_length ..

theorem HostLasts.rings_length {s t : State} (h : HostLasts s t) : t.host.rings.length = s.host.rings.length := h.get (·.rings.length) (fun _ => rfl)

/-- A ring in error carries the cause (R293). -/
theorem ringAt_ringError {s : State} {r : Nat} (present : r < s.host.rings.length) (cause : Nat) :
    ringAt (s.ringError r cause) r = { ringAt s r with state := .error, errorCause := cause } := by
  rw [State.ringError, ((State.raise_lasts ..).trans (State.raiseCause_lasts ..)).ringAt, ringAt_modRing_same present]

end Sys2Proof.Machine
end

section
/-! The rows of the host link: its vectors, its configuration, BAR4 and the reads of host memory that fail (O29). -/

set_option Elab.async false
namespace Sys2Proof.Machine

/-! ## Vectors and configuration (R276, R280, R307) -/

/-- A pending vector that no mask holds any more is sent (R307). -/
theorem State.flushVector_posts {s : State} {v : Nat} (pending : v ∈ s.host.pendingBits) (free : vectorHeld s v = false) (up : hostOpen s = true) :
    HostMsg.msix v ∈ (s.flushVector v).host.posted := by
  rw [State.flushVector, if_pos (by simp [pending, free])]
  exact State.send_posts (by exact up) _

/-- The mask of a vector is cleared. -/
def State.unmask (v : Nat) (s : State) : State := { s with host := { s.host with vectorMask := without (· == v) s.host.vectorMask } }

theorem State.unmask_flushVector (v : Nat) (s : State) : v ∉ ((s.unmask v).flushVector v).host.vectorMask := by
  rw [(State.flushVector_lasts ..).get (·.vectorMask) (fun _ => rfl)]
  simp [State.unmask, without]

/-- A release sends what is held and issues the reads that waited; it changes nothing else of the link. -/
def HostLink.link (h : HostLink) : HostLink := { h.lasting with outstanding := [] }

theorem State.release_link (s : State) : s.release.host.link = s.host.link := by
  unfold State.release
  split <;> rfl

/-- Once the host is open, what was held leaves but for the vectors that a mask holds by now (R280). -/
theorem State.release_of_open {s : State} (up : hostOpen s = true) :
    s.release = { s with host := { s.host with posted := s.host.posted ++ s.host.held.filter (fun m => (m.masked s).isNone), held := [],
                                               pendingBits := (s.host.held.filterMap (HostMsg.masked s)).foldl (fun l v => addOnce v l) s.host.pendingBits,
                                               cmds := s.host.cmds.map (fun c => { c with reading := false }), outstanding := [] } } := if_pos up

theorem mem_foldl_addOnce {l m : List Nat} {v : Nat} : v ∈ l.foldl (fun a x => addOnce x a) m ↔ v ∈ m ∨ v ∈ l := by
  induction l generalizing m with
  | nil => simp
  | cons x l ih => simp only [List.foldl_cons, ih, mem_addOnce, List.mem_cons]; tauto

/-- A held message of a vector that a mask holds by now is pending. -/
theorem State.release_pends {s : State} {v : Nat} (up : hostOpen s = true) (held : HostMsg.msix v ∈ s.host.held) (masked : vectorHeld s v = true) :
    v ∈ s.release.host.pendingBits := by
  rw [State.release_of_open up]
  exact mem_foldl_addOnce.mpr (.inr (List.mem_filterMap.mpr ⟨_, held, if_pos masked⟩))

/-! ## Training (R282, R283) -/

/-- The link has trained at a width and a rate. -/
def State.train (width rate : Nat) (s : State) : State := { s with host := { s.host with linkUp := true, trained := true, width, rate } }

/-- The report of a degraded width (R283). -/
def State.reportWidth (width : Nat) (s : State) : State := if width = 16 then s else s.raise (srcId 5 0 1) width

theorem State.reportWidth_lasts (width : Nat) (s : State) : HostLasts s (s.reportWidth width) := by
  unfold State.reportWidth
  split
  · rfl
  · exact State.raise_lasts ..

theorem State.reportWidth_sticky {width : Nat} (narrow : width ≠ 16) (s : State) : srcId 5 0 1 ∈ (s.reportWidth width).flt.sticky := by
  rw [State.reportWidth, if_neg narrow]
  exact State.mem_raise_sticky.mpr (.inr rfl)

theorem linkStatus_trained (width rate : Nat) (s : State) : linkStatus (s.train width rate).release = rate + 16 * width :=
  congrArg (fun h : HostLink => h.rate + 16 * h.width) (State.release_link (s.train width rate))

/-- What a retraining leads to: the link at its width and rate, and the cause where either has changed. -/
theorem exec_hostLinkRetrain {s : State} {width rate : Nat} (wide : width = 16 ∨ width = 8 ∨ width = 4) (least : 1 ≤ rate) (most : rate ≤ 6)
    (running : s.pins.perst = false) (reset : s.boot.everReset = true) :
    exec (.hostLinkRetrain width rate) s = .next (if width = 16 ∧ rate + 16 * width = linkStatus s then (s.train width rate).release.reportWidth width
      else ((s.train width rate).release.reportWidth width).raiseCause 4) := by
  rw [← linkStatus_trained width rate s]
  exact if_neg (by rcases wide with rfl | rfl | rfl <;> simp [least, most, running, reset])

/-! ## BAR4 (R279, R285) -/

/-- What an offset of BAR4 reaches rests on the apertures and the handles. -/
theorem bar4Addr_congr {s t : State} (host : HostLasts s t) (handles : t.mem.handles = s.mem.handles) (off : Nat) : bar4Addr t off = bar4Addr s off := by
  have size := host.get (·.bar4Log2) (fun _ => rfl)
  have bound := host.get (·.apertures) (fun _ => rfl)
  simp only [bar4Addr, size, bound, memHandle, handles]

/-- The events of an access leave memory and what the offsets reach as they were. -/
theorem State.bar4Events_keeps (off n : Nat) (s : State) : HostLasts s (s.bar4Events off n) ∧ (s.bar4Events off n).mem = s.mem := by
  have reported (u : State) (src : Nat) (calm : severityOf src ≠ 3) (data : Nat) : HostLasts u (u.raise src data) ∧ (u.raise src data).mem = u.mem :=
    ⟨State.raise_lasts .., State.raise_mem calm ..⟩
  have access : HostLasts s (if bar4Ok s off n then s else s.badAccess 0) ∧ (if bar4Ok s off n then s else s.badAccess 0).mem = s.mem := by
    split
    · exact ⟨rfl, rfl⟩
    · exact reported s _ (calm_src (by decide) (by decide)) 0
  unfold State.bar4Events
  dsimp only
  split
  · obtain ⟨host, mem⟩ := reported (if bar4Ok s off n then s else s.badAccess 0) (srcId 0 0 0x0A) (calm_src (by decide) (by decide)) 0
    exact ⟨access.1.trans host, mem.trans access.2⟩
  · exact access

/-- An access that reaches mapped bytes alone has no event. -/
theorem State.bar4Events_of_reached {s : State} {off n : Nat} (reached : bar4Ok s off n = true) (mapped : bar4Unmapped s off n = false) :
    s.bar4Events off n = s := by simp [State.bar4Events, reached, mapped]

/-- Bytes written to pieces leave every byte outside them. -/
theorem readByte_writePieces_other {l : List Extent} {a : Nat} (outside : ∀ e ∈ l, ¬ (e.base ≤ a ∧ a < e.base + e.len)) (m : ByteMap)
    (v : List Byte) : readByte (writePieces m l v) a = readByte m a := by
  induction l generalizing m v with
  | nil => rfl
  | cons e l ih =>
    have apart := outside e List.mem_cons_self
    rw [writePieces, ih (fun x hx => outside x (List.mem_cons_of_mem _ hx)),
      readByte_writeBytes_other _ (by have := List.length_take_le e.len v; omega)]

theorem State.writeMem_lasts (l : List Extent) (v : List Byte) (s : State) : HostLasts s (s.writeMem l v) := .of_frame (State.writeMem_frame ..) (by decide)

theorem State.writeMem_handles (l : List Extent) (v : List Byte) (s : State) : (s.writeMem l v).mem.handles = s.mem.handles := State.overwrite_handles ..

/-- Bytes stored one by one change no byte that their offsets do not reach. -/
theorem State.bar4Store_other {s : State} {off a : Nat} {data : List Byte} (missed : ∀ k < data.length, bar4Addr s (off + k) ≠ some a) :
    readByte (s.bar4Store off data).mem.cells a = readByte s.mem.cells a := by
  induction data generalizing s off with
  | nil => rfl
  | cons b data ih =>
    have later : ∀ k < data.length, bar4Addr s (off + 1 + k) ≠ some a := fun k hk => by
      have := missed (k + 1) (by simpa using hk)
      rwa [← Nat.add_assoc, Nat.add_right_comm] at this
    have here : bar4Addr s off ≠ some a := missed 0 (by simp)
    unfold State.bar4Store
    split
    next x reach =>
      rw [reach, ne_eq, Option.some.injEq] at here
      split
      · rw [ih (fun k hk => by rw [bar4Addr_congr (State.writeMem_lasts ..) (State.writeMem_handles ..)]; exact later k hk), State.writeMem_cells,
          readByte_writePieces_other (by simpa using by omega)]
      · exact ih later
    next => exact ih later

/-! ## Host reads that fail (R281) -/

/-- A read that is due of a command is due of an entry that has not ended. -/
theorem entry_of_hostReadDue {s : State} {cid : Nat} (due : hostReadDue s (.command cid) = true) : ∃ c, cmdAt s cid = some c ∧ c.done = none := by
  obtain ⟨owned, -⟩ := Bool.and_eq_true_iff.mp due
  unfold readDue at owned
  dsimp only at owned
  split at owned
  next c entry =>
    obtain ⟨d, acts⟩ := Option.isSome_iff_exists.mp (show (actable s cid c.opcode).isSome = true by simp_all)
    obtain ⟨same, open_, -⟩ := actable_cmdAt acts
    exact ⟨d, same, open_⟩
  next => cases owned

theorem noneFailed_of_frame {ps : List Part} {s t : State} {cid : Nat} (sound : NoneFailed s cid) (frame : Frame ps s t) (quiet : Part.stop ∉ ps)
    (runs : Part.runs ∉ ps) (launches : Part.launches ∉ ps) : NoneFailed t cid := by
  have runs : t.runs = s.runs := frame.exact quiet (p := .runs) runs
  have launches : t.launches = s.launches := frame.exact quiet (p := .launches) launches
  simpa only [NoneFailed, runOf, launchOf, runs, launches] using sound

/-- A report that is about no command leaves a live entry as it was. -/
theorem live_raise {s : State} {cid src : Nat} {c : Cmd} (live : Live s cid c) (calm : severityOf src ≠ 3) (data : Nat) :
    Live (s.raise src data) cid c := by simpa only [Live, cmdAt, State.raise_cmds calm] using live

/-- A command whose work has failed has no run, no launch, and the registers of the collector are as before. -/
theorem State.failWork_ends (cid : Nat) (status : Status) (source : Nat) (s : State) :
    runOf (s.failWork cid status source) cid = none ∧ launchOf (s.failWork cid status source) cid = none
      ∧ (s.failWork cid status source).flt = s.flt ∧ HostLasts s (s.failWork cid status source) := by
  have settled (t : State) := State.settleHeld_frame cid t
  have frame := State.failWork_frame cid status source s
  refine ⟨?run, ?launch, frame.exact (by decide) (p := .flt) (by decide), .of_frame frame (by decide)⟩
  case run =>
    rw [State.failWork, runOf, (settled _).exact (by decide) (p := .runs) (by decide)]
    exact runOf_dropRun ..
  case launch =>
    rw [State.failWork, launchOf, (settled _).exact (by decide) (p := .launches) (by decide)]
    exact launchOf_dropLaunch ..

/-- A live command whose read of host memory is reported to have failed ends with the status that the report gives it. -/
theorem State.failWork_of_report {s : State} {cid src : Nat} {c : Cmd} (live : Live s cid c) (sound : NoneFailed s cid) (calm : severityOf src ≠ 3)
    (data : Nat) (status : Status) (source : Nat) :
    EndedAs ((s.raise src data).failWork cid status source) cid status ∧ src ∈ ((s.raise src data).failWork cid status source).flt.sticky := by
  have kept : NoneFailed (s.raise src data) cid := noneFailed_of_frame sound (State.raise_quiet calm) (by decide) (by decide) (by decide)
  obtain ⟨whole, unstopped⟩ := kept
  obtain ⟨-, -, registers, -⟩ := State.failWork_ends cid status source (s.raise src data)
  refine ⟨State.failWork_endedAs (live_raise live calm data) (fun r run => .inl (whole r run)) unstopped source, ?_⟩
  rw [registers]
  exact State.mem_raise_sticky.mpr (.inr rfl)

/-- An entry that a mark has reached ends with RESULT_SUSPECT whether the mark counts or not, where its work is given up with that status. -/
theorem endOf_suspect {s : State} {c : Cmd} (sound : NoneFailed s c.cid) (open_ : c.done = none) (source : Nat) :
    (endOf s .resultSuspect source c).done.map (·.status) = some .resultSuspect := by
  obtain ⟨whole, unstopped⟩ := sound
  have finished (d : Done) (suspect : d.status = .resultSuspect) : (c.finish d).done.map (·.status) = some .resultSuspect := by
    unfold Cmd.finish
    split
    next done => simp [open_] at done
    next => rfl
    next => exact congrArg some suspect
  unfold endOf
  split
  next r run =>
    have none_ : firstFailed r = none := by simp [firstFailed, whole r run]
    simp only [runEnd, none_]
    exact finished _ rfl
  next launch =>
    rw [if_neg (by simp [unstopped _ launch])]
    exact finished _ rfl
  next => exact finished _ rfl

/-- Marks change no entry's end. -/
theorem cmdAt_raiseOn_done (s : State) (cid src data : Nat) (suspect : severityOf src = 2) :
    (cmdAt (s.raiseOn src data [cid]) cid).map (·.done) = (cmdAt s cid).map (·.done) := by
  obtain ⟨u, log, same⟩ := State.captureOnly_cmds [{ source := src, data := BitVec.ofNat 64 data, touched := [cid] }] s
  have only (e : FaultEvent) (source : e.source = src) (touched : e.touched = [cid]) : u.markEvents [e] = u.markCmd src cid := by
    simp [State.markEvents, sortBy, insertBy, source, touched, suspect]
  rw [State.raiseOn, State.capture_of_calm (by rw [suspect]; decide), cmdAt_of_cmds (same.trans (congrArg (·.host.cmds) (only _ rfl rfl))),
    State.markCmd, cmdAt_modCmd _ _ _ (fun c => by split <;> rfl), cmdAt_of_cmds (log.exact (by decide) (p := .cmds) (by decide)), Option.map_map]
  congr 1
  funext c
  dsimp only [Function.comp_apply]
  split <;> rfl

/-- A command whose host read arrived poisoned is given up with RESULT_SUSPECT (R281, R489). -/
theorem State.failWork_of_poison {s : State} {cid src : Nat} {c : Cmd} (entry : cmdAt s cid = some c) (open_ : c.done = none) (sound : NoneFailed s cid)
    (suspect : severityOf src = 2) (data source : Nat) :
    EndedAs ((s.raiseOn src data [cid]).failWork cid .resultSuspect source) cid .resultSuspect := by
  have calm : severityOf src ≠ 3 := by rw [suspect]; decide
  have kept : NoneFailed (s.raiseOn src data [cid]) cid := noneFailed_of_frame sound (State.raiseOn_quiet calm) (by decide) (by decide) (by decide)
  have ends := cmdAt_raiseOn_done s cid src data suspect
  rw [entry, Option.map_some, open_] at ends
  obtain ⟨d, marked, done⟩ := Option.map_eq_some_iff.mp ends
  obtain rfl : d.cid = cid := by simpa using List.find?_some marked
  simpa [EndedAs, cmdAt_failWork, marked] using endOf_suspect kept done source

/-- The ring of a fetch that fails is in ERROR with cause 4 (R281, R293). -/
theorem ringAt_fetchFailed {s t : State} (lasts : HostLasts s t) {r : RingNo} (present : r.val < s.host.rings.length) (status : Status) (source : Nat) :
    (ringAt (t.hostReadFailed (.fetch r) status source) r).state = .error ∧ (ringAt (t.hostReadFailed (.fetch r) status source) r).errorCause = 4 := by
  rw [State.hostReadFailed, ringAt_ringError (by rw [lasts.rings_length]; exact present)]
  exact ⟨rfl, rfl⟩

end Sys2Proof.Machine

section
open Sys2Proof Sys2Proof.Machine

/-- Settles O29: the lasting part of the link (`HostLasts`) shows which registers a row leaves and which it sets; a read that fails gives up its command
(`State.failWork_of_report`, `State.failWork_of_poison`) or puts its ring in ERROR (`ringAt_fetchFailed`); a byte of BAR4 is stored where its offset
reaches (`State.bar4Store_other`). -/
theorem hostLinkRowsComplete : Obligations.HostLinkRowsComplete := by
  unfold Obligations.HostLinkRowsComplete
  refine ⟨?unmask, ?unmaskAll, ?read, ?readEarly, ?written, ?kept, ?resume, ?down, ?retrain, ?poisoned, ?failed, ?fetchFailed, ?timeout, ?fetchTimeout,
    ?busMaster, ?power, ?size, ?functionMask, ?vectorMask, ?msixEnable, ?report, ?clear, ?unreached⟩
  case unmask =>
    intro s v reach
    refine ⟨_, if_neg (by simp [reach]), State.unmask_flushVector v.val s, fun unmasked enabled pending up => ?_⟩
    refine State.flushVector_posts (by exact pending) ?_ (by exact up)
    simp [vectorHeld, unmasked, enabled, without]
  case unmaskAll =>
    intro s reach
    refine ⟨_, if_neg (by simp [reach]), ?_, ?_⟩
    · exact (State.flushVectors_lasts _).get (·.functionMask) (fun _ => rfl)
    · exact (State.flushVectors_lasts _).get (·.vectorMask) (fun _ => rfl)
  case read =>
    intro s off n reach ready waits
    exact ⟨_, (if_neg (by simp [reach])).trans ((if_neg (by simp [ready])).trans (if_neg (by simp [waits]))), rfl⟩
  case readEarly =>
    intro s off n reach early
    exact ⟨_, (if_neg (by simp [reach])).trans (if_pos (by simp [early])), rfl⟩
  case written =>
    intro s off data reach ready reached mapped waits within
    refine ⟨_, (if_neg (by simp [reach, ready, waits])).trans (if_pos (by simp [reached, mapped, within])), ?_⟩
    rw [State.bar4Events_of_reached reached mapped]
    exact State.writeMem_cells ..
  case kept =>
    intro s off data reach ready
    obtain ⟨host, mem⟩ := State.bar4Events_keeps off data.length s
    by_cases waits : bar4Waits s off data.length = true
    · exact ⟨s, if_pos (by simp [waits]), fun a _ _ => rfl⟩
    · have acts : (!hostReach s || !s.boot.ready || bar4Waits s off data.length) = false := by simp [reach, ready, waits]
      by_cases one : (bar4Ok s off data.length && !bar4Unmapped s off data.length
          && off / (2 ^ s.host.bar4Log2 / 16) == (off + data.length - 1) / (2 ^ s.host.bar4Log2 / 16)) = true
      · refine ⟨_, (if_neg (by rw [acts]; decide)).trans (if_pos one), fun a outside _ => ?_⟩
        rw [State.writeMem_cells, readByte_writePieces_other outside, mem]
      · refine ⟨_, (if_neg (by rw [acts]; decide)).trans (if_neg one), fun a _ missed => ?_⟩
        rw [State.bar4Store_other (fun k hk => by rw [bar4Addr_congr host (by rw [mem])]; exact missed k hk), mem]
  case resume =>
    intro s reach
    have up : hostOpen ({ s with host := { s.host with busMaster := true, d3hot := false, outstanding := readsOut s } } : State) = true := by
      simp only [configReach, Bool.and_eq_true] at reach
      simp [hostOpen, reach]
    have opened := congrArg State.host (State.release_of_open up)
    exact ⟨_, if_neg (by simp [reach]), congrArg HostLink.busMaster opened, congrArg HostLink.d3hot opened, congrArg HostLink.posted opened,
      congrArg HostLink.held opened, congrArg HostLink.outstanding opened, fun v held masked => State.release_pends up held masked⟩
  case down =>
    intro s up out
    have closed : hostOpen ({ s with host := { s.host with linkUp := false, outstanding := [] } } : State) = false := by simp [hostOpen]
    refine ⟨_, if_pos (by simp [up, out]), ?_, ?_, State.mem_raise_sticky.mpr (.inr rfl)⟩
    · exact (State.raise_lasts ..).get (·.linkUp) (fun _ => rfl)
    · exact State.raise_posted_of_closed closed ..
  case retrain =>
    intro s width rate wide least most running reset
    refine ⟨_, exec_hostLinkRetrain wide least most running reset, ?_⟩
    have link := State.release_link (s.train width rate)
    have reported := State.reportWidth_lasts width (s.train width rate).release
    by_cases same : width = 16 ∧ rate + 16 * width = linkStatus s
    · rw [if_pos same]
      refine ⟨?_, ?_, ?_, State.reportWidth_sticky (s := _), fun changed => absurd same (not_and_or.mpr changed)⟩
      · exact (reported.get (·.linkUp) (fun _ => rfl)).trans (congrArg HostLink.linkUp link)
      · exact (reported.get (·.width) (fun _ => rfl)).trans (congrArg HostLink.width link)
      · exact (reported.get (·.rate) (fun _ => rfl)).trans (congrArg HostLink.rate link)
    · rw [if_neg same]
      have lasts := reported.trans (State.raiseCause_lasts 4 _)
      refine ⟨?_, ?_, ?_, fun narrow => ?_, fun _ => State.raiseCause_bit 4 (by decide) _⟩
      · exact (lasts.get (·.linkUp) (fun _ => rfl)).trans (congrArg HostLink.linkUp link)
      · exact (lasts.get (·.width) (fun _ => rfl)).trans (congrArg HostLink.width link)
      · exact (lasts.get (·.rate) (fun _ => rfl)).trans (congrArg HostLink.rate link)
      · rw [(State.raiseCause_frame ..).flt_eq (by decide)]
        exact State.reportWidth_sticky narrow _
  case poisoned =>
    intro s cid due up sound
    obtain ⟨c, entry, open_⟩ := entry_of_hostReadDue due
    refine ⟨_, if_neg (by simp [due, up]), ?_⟩
    obtain ⟨run, launch, registers, lasts⟩ := State.failWork_ends cid .resultSuspect (srcId 5 0 2) ((s.aerError 1).raiseOn (srcId 5 0 2) 0 [cid])
    have suspect : severityOf (srcId 5 0 2) = 2 := (severity_srcId _ _ (by decide)).trans (by decide)
    refine ⟨State.failWork_of_poison (s := s.aerError 1) entry open_ sound suspect .., run, launch, ?_, ?_⟩
    · exact registers ▸ State.mem_raiseOn_sticky.mpr (.inr rfl)
    · exact ((State.capture_lasts ..).trans lasts).get (·.aerStatus.nonFatal) (fun _ => rfl)
  case failed =>
    intro s cid c o live sound due up clean
    obtain ⟨run, launch, -, -⟩ := State.failWork_ends cid .badDescriptor 0 (s.raise (srcId 5 0 3) 0)
    obtain ⟨ended, noted⟩ := State.failWork_of_report live sound (calm_src (c := 5) (n := 0) (k := 3) (by decide) (by decide)) 0 .badDescriptor 0
    refine ⟨_, (if_neg (by simp [due, up])).trans ?_, ended, run, launch, noted⟩
    cases o with
    | poisoned => exact absurd rfl clean
    | unsupportedRequest => rfl
    | completerAbort => rfl
  case fetchFailed =>
    intro s ring o due present up
    cases o with
    | poisoned => exact ⟨_, if_neg (by simp [due, up]), ringAt_fetchFailed (s := s.aerError 1) (State.capture_lasts ..) present ..⟩
    | unsupportedRequest => exact ⟨_, if_neg (by simp [due, up]), ringAt_fetchFailed (State.raise_lasts ..) present ..⟩
    | completerAbort => exact ⟨_, if_neg (by simp [due, up]), ringAt_fetchFailed (State.raise_lasts ..) present ..⟩
  case timeout =>
    intro s cid c live sound due up
    obtain ⟨run, launch, -, lasts⟩ := State.failWork_ends cid .linkLost (srcId 5 0 4) ((s.aerError 1).raise (srcId 5 0 4) 0)
    obtain ⟨ended, noted⟩ := State.failWork_of_report (s := s.aerError 1) live sound (calm_src (c := 5) (n := 0) (k := 4) (by decide) (by decide)) 0
      .linkLost (srcId 5 0 4)
    exact ⟨_, if_neg (by simp [due, up]), ended, run, launch, noted,
      ((State.raise_lasts ..).trans lasts).get (·.aerStatus.nonFatal) (fun _ => rfl)⟩
  case fetchTimeout =>
    intro s ring due present up
    exact ⟨_, if_neg (by simp [due, up]), ringAt_fetchFailed (s := s.aerError 1) (State.raise_lasts ..) present ..⟩
  case busMaster =>
    intro s on reach
    exact ⟨_, if_neg (by simp [reach]), congrArg HostLink.busMaster (State.release_link _)⟩
  case power =>
    intro s on reach
    exact ⟨_, if_neg (by simp [reach]), congrArg HostLink.d3hot (State.release_link _)⟩
  case size =>
    intro s k reach least most
    exact ⟨_, (if_neg (by simp [reach])).trans (if_pos ⟨least, most⟩), rfl⟩
  case functionMask =>
    intro s on reach
    exact ⟨_, if_neg (by simp [reach]), (State.flushVectors_lasts _).get (·.functionMask) (fun _ => rfl)⟩
  case vectorMask =>
    intro s v on reach known
    have row : exec (.configurationWrite (.vectorMask v on)) s = _ := (if_neg (by simp [reach])).trans (if_neg (Nat.not_le.mpr known))
    cases on with
    | true => exact ⟨_, row, by simp [mem_addOnce]⟩
    | false => exact ⟨_, row, fun masked => absurd masked (State.unmask_flushVector v s), fun on => absurd on (by decide)⟩
  case msixEnable =>
    intro s on reach
    exact ⟨_, if_neg (by simp [reach]), (State.flushVectors_lasts _).get (·.msixEnable) (fun _ => rfl)⟩
  case report =>
    intro s c n f reach
    exact ⟨_, if_neg (by simp [reach]), rfl⟩
  case clear =>
    intro s c n f reach
    exact ⟨_, if_neg (by simp [reach]), rfl⟩
  case unreached =>
    intro s w reach
    exact ⟨s, if_pos (by simp [reach]), rfl⟩

end
end

section
/-! The rows of the rings: their registers, the fetch of a descriptor and the completion of a command (R288–R308). -/

set_option Elab.async false
namespace Sys2Proof.Machine

/-! ## Registers and doorbells of a ring (R290–R293, R296, R297) -/

/-- A ring as HUB_RING_CTRL enables it. -/
def Ring.enabledBy (v : Nat) (x : Ring) : Ring :=
  Ring.start { x with enable := bit 31 v, weight := bits 27 24 v, sizeLog2 := bits 20 16 v, aliveInit := bits 15 8 v }

/-- A write that enables a ring in the state DISABLED starts it, where its base and size allow (R290). -/
theorem ringAt_writeRingCtrl_enables {s : State} {r v : Nat} (present : r < s.host.rings.length) (off : (ringAt s r).state = .disabled)
    (on : bit 31 v = true) (sq : (ringAt s r).sqBase ≠ 0) (cq : (ringAt s r).cqBase ≠ 0) (least : 4 ≤ bits 20 16 v) (most : bits 20 16 v ≤ 16) :
    ringAt (s.writeRingCtrl r v) r = (ringAt s r).enabledBy v := by
  have taken (u : State) (h : u.host.rings.length = s.host.rings.length) (f : Ring → Ring) : ringAt (u.modRing r f) r = f (ringAt u r) :=
    ringAt_modRing_same (h ▸ present) f
  have valid : (ringAt ((s.modRing r (fun x => { x with enable := bit 31 v, weight := bits 27 24 v })).modRing r
      (fun x => { x with sizeLog2 := bits 20 16 v, aliveInit := bits 15 8 v })) r).valid = true := by
    rw [taken _ (State.modRing_rings_length ..), taken _ rfl]
    simpa [Ring.valid, least, most] using ⟨sq, cq⟩
  simp only [State.writeRingCtrl, off, on, Bool.not_true, Bool.false_eq_true, if_false]
  rw [on] at valid
  rw [if_pos valid, taken _ (by simp only [State.modRing_rings_length]), taken _ (State.modRing_rings_length ..), taken _ rfl, Ring.enabledBy, on]

/-- A write that disables an enabled ring drains it (R292). -/
theorem ringAt_writeRingCtrl_disables {s : State} {r v : Nat} (present : r < s.host.rings.length) (on : (ringAt s r).state = .enabled)
    (off : bit 31 v = false) :
    ringAt (s.writeRingCtrl r v) r = Ring.settle { ringAt s r with enable := false, weight := bits 27 24 v, state := .draining, errorCause := 0 } := by
  simp only [State.writeRingCtrl, on, off, Bool.false_eq_true, if_false]
  refine (ringAt_modRing_same (s := s.modRing r _) (by rwa [State.modRing_rings_length]) _).trans ?_
  rw [ringAt_modRing_same present]

theorem Ring.settle_state (x : Ring) (draining : x.state = .draining) : x.settle.state = if x.inFlight = 0 then .disabled else .draining := by
  unfold Ring.settle
  by_cases empty : x.inFlight = 0 <;> simp [draining, empty]

/-- Settling a ring changes its state alone. -/
theorem Ring.settle_eq (x : Ring) : x.settle = { x with state := x.settle.state } := by
  unfold Ring.settle
  split <;> rfl

/-- The offsets of BAR2 name a ring's submission tail and its completion head (R296). -/
theorem State.writeBar2_tail (ring : RingNo) (v : Nat) (s : State) : s.writeBar2 (8 * ring) v = s.tailDoorbell ring v := by
  have := ring.isLt
  rw [State.writeBar2, if_neg (by omega), if_pos (by omega), Nat.mul_div_cancel_left _ (by decide)]

theorem State.writeBar2_head (ring : RingNo) (v : Nat) (s : State) : s.writeBar2 (8 * ring + 4) v = s.headDoorbell ring v := by
  have := ring.isLt
  rw [State.writeBar2, if_neg (by omega), if_neg (by omega), if_pos (by omega), show (8 * ring.val + 4) / 8 = ring.val by omega]

/-! ## Interrupts (R306, R307) -/

theorem ringAt_interrupt {s : State} {r : Nat} (present : r < s.host.rings.length) :
    ringAt (s.interrupt r) r = { ringAt s r with irqArmed := false, unsignalled := 0 } := by
  rw [State.interrupt, (State.sendVector_lasts ..).ringAt, ringAt_modRing_same present]

/-- A vector that no mask holds is posted at once by an open host. -/
theorem State.sendVector_posts {s : State} {v : Nat} (free : vectorHeld s v = false) (up : hostOpen s = true) :
    HostMsg.msix v ∈ (s.sendVector v).host.posted := by
  rw [State.sendVector, if_neg (by simp [free])]
  exact State.send_posts up _

/-- A vector that a mask holds is pending. -/
theorem State.sendVector_pends {s : State} {v : Nat} (masked : vectorHeld s v = true) : v ∈ (s.sendVector v).host.pendingBits := by
  rw [State.sendVector, if_pos masked]
  exact mem_addOnce.mpr (.inr rfl)

theorem State.send_keeps_posted {s : State} {x : HostMsg} (m : HostMsg) (sent : x ∈ s.host.posted) : x ∈ (s.send m).host.posted := by
  unfold State.send
  split
  · exact List.mem_append_left _ sent
  · exact sent

theorem State.sendVector_keeps_posted {s : State} {x : HostMsg} (v : Nat) (sent : x ∈ s.host.posted) : x ∈ (s.sendVector v).host.posted := by
  unfold State.sendVector
  split
  · exact sent
  · exact State.send_keeps_posted _ sent

/-- An interrupt of a ring that is due or not leaves what has been posted and the next number. -/
theorem State.maybeInterrupt_keeps (r : Nat) (asked : Bool) (s : State) :
    (∀ x ∈ s.host.posted, x ∈ (s.maybeInterrupt r asked).host.posted) ∧ (s.maybeInterrupt r asked).host.acceptSeq = s.host.acceptSeq := by
  unfold State.maybeInterrupt
  dsimp only
  split
  · exact ⟨fun x sent => State.sendVector_keeps_posted _ sent, (State.sendVector_lasts ..).get (·.acceptSeq) (fun _ => rfl)⟩
  · exact ⟨fun x sent => sent, rfl⟩

theorem ringAt_maybeInterrupt_cqTail {s : State} {r : Nat} (present : r < s.host.rings.length) (asked : Bool) :
    (ringAt (s.maybeInterrupt r asked) r).cqTail = (ringAt s r).cqTail := by
  unfold State.maybeInterrupt
  dsimp only
  split
  · rw [ringAt_interrupt present]
  · rfl

/-- A completion head that is in range frees its entries; an interrupt that it raises leaves them (R293, R297, R306). -/
theorem ringAt_headDoorbell {s : State} {r v used : Nat} (present : r < s.host.rings.length) (running : (ringAt s r).state ≠ .disabled)
    (small : v < (ringAt s r).entries) (freed : used = (v + (ringAt s r).entries - (ringAt s r).cqHead) % (ringAt s r).entries)
    (ready : used ≤ ((ringAt s r).cqTail + (ringAt s r).entries - (ringAt s r).cqHead) % (ringAt s r).entries) :
    (ringAt (s.headDoorbell r v) r).cqHead = v ∧ (ringAt (s.headDoorbell r v) r).inFlight = (ringAt s r).inFlight - used := by
  subst freed
  simp only [State.headDoorbell, running, if_false, Nat.not_le.mpr small, Nat.not_lt.mpr ready, or_self]
  split
  · rw [ringAt_interrupt (by rwa [State.modRing_rings_length]), ringAt_modRing_same present, Ring.settle_eq]
    exact ⟨rfl, rfl⟩
  · rw [ringAt_modRing_same present, Ring.settle_eq]
    exact ⟨rfl, rfl⟩

/-! ## The command table after a descriptor has arrived or left (R299, R302, R303) -/

/-- A new entry at the end of the table is found by its number. -/
theorem cmdAt_added {s : State} {l : List Cmd} {c : Cmd} (table : s.host.cmds = l ++ [c]) (new : ∀ d ∈ l, d.cid ≠ c.cid) :
    cmdAt s c.cid = some c := by
  have absent : l.find? (fun d => d.cid == c.cid) = none := List.find?_eq_none.mpr (fun d hd => by simpa using new d hd)
  rw [cmdAt, table, List.find?_append, absent]
  simp

theorem cmdAt_without {s : State} {cid : Nat} {l : List Cmd} (table : s.host.cmds = without (fun d => d.cid == cid) l) : cmdAt s cid = none := by
  rw [cmdAt, table]
  exact List.find?_eq_none.mpr (fun d hd => by simpa [without] using (List.mem_filter.mp hd).2)

/-- The entry that a fetch makes of a descriptor (R299). -/
def fetchedCmd (s : State) (ring : RingNo) (desc : List Byte) : Cmd :=
  { cid := s.host.nextCid, ring := ring, slot := (ringAt s ring).sqHead, desc, aliveSeen := field 1 1 desc, aliveAt := (ringAt s ring).aliveExpected,
    seq := none, started := false, core := servingCore s ring, done := none, marked := none }

/-- The state once a descriptor has passed the checks of its lap and its alive counter: the ring's turn, its head and its counters (R299, R300). -/
def State.fetchedFrom (ring : RingNo) (s : State) : State :=
  let s1 := (s.takeTurn ring).modRing ring Ring.fetched
  ({ s1 with host := { s1.host with nextCid := s.host.nextCid + 1, outstanding := without (· == .fetch ring) s.host.outstanding } } : State).modRing ring
    (fun x => { x with aliveExpected := (x.aliveExpected + 1) % 256 })

/-- The command table with an entry more. -/
def State.addCmd (c : Cmd) (s : State) : State := { s with host := { s.host with cmds := s.host.cmds ++ [c] } }

theorem ringAt_fetchedFrom {s : State} {ring : RingNo} (present : ring.val < s.host.rings.length) :
    ringAt (s.fetchedFrom ring) ring = { (ringAt s ring).fetched with aliveExpected := ((ringAt s ring).aliveExpected + 1) % 256 } := by
  have length : ((s.takeTurn ring).modRing ring Ring.fetched).host.rings.length = s.host.rings.length := State.modRing_rings_length ..
  refine (ringAt_modRing_same (by exact length ▸ present) _).trans ?_
  exact congrArg (fun x : Ring => { x with aliveExpected := (x.aliveExpected + 1) % 256 }) (ringAt_modRing_same (s := s.takeTurn ring) present Ring.fetched)

/-- A descriptor that passes the checks joins the table; it waits for a fence, or takes its number at once (R300, R302, R308). -/
theorem exec_descriptorFetch_of_good {s : State} {ring : RingNo} {desc : List Byte} (fetches : fetching s = true) (turn : arbiter s = some ring.val)
    (whole : desc.length = 64) (lap : bit 0 (field 2 1 desc) = (ringAt s ring).lap) (alive : field 1 1 desc = (ringAt s ring).aliveExpected)
    (good : staticChecks s.boot.ready desc = none) :
    exec (.descriptorFetch ring desc) s = .next (if mustWait s ring (bit 2 (field 2 1 desc)) then (s.fetchedFrom ring).addCmd (fetchedCmd s ring desc)
      else ((s.fetchedFrom ring).addCmd { fetchedCmd s ring desc with seq := some s.host.acceptSeq.toNat }).takeSeq) := by
  obtain ⟨takes, up⟩ := Bool.and_eq_true_iff.mp fetches
  change execDescriptorFetch ring desc s = _
  unfold execDescriptorFetch
  rw [if_neg (by simp [takes, mayRead_of_open up, turn, whole])]
  dsimp only
  rw [if_neg (by simp [lap, alive])]
  simp only [good]
  split <;> rfl

/-- A descriptor that no fence holds any more takes its number at the end of the table (R302, R308). -/
theorem exec_fenceRelease_of_free {s : State} {cid : Nat} {c : Cmd} (entry : cmdAt s cid = some c) (waiting : c.seq = none) (open_ : c.done = none)
    (first : (bit 2 (c.arg 2 1) && !(s.host.cmds.filter (fun d => d.ring == c.ring && decide (d.cid < cid))).isEmpty) = false)
    (free : (s.host.cmds.filter (fun d => d.ring == c.ring && decide (d.cid < cid))).any (fun d => bit 2 (d.arg 2 1)) = false) :
    exec (.fenceRelease cid) s = .next (({ s with host := { s.host with
      cmds := without (fun d => d.cid == cid) s.host.cmds ++ [{ c with seq := some s.host.acceptSeq.toNat }] } } : State).takeSeq) := by
  change execFenceRelease cid s = _
  unfold execFenceRelease
  simp only [entry, waiting, open_, first, free, Option.isSome_none, Bool.or_self, Bool.false_eq_true, if_false]

/-! ## The completion of a command (R303–R306) -/

/-- Messages in a row leave the lasting part of the link as it was. -/
theorem sends_lasts (l : List (Nat × List Byte)) (s : State) : HostLasts s (l.foldl (fun t w => t.send (.write w.1 w.2)) s) :=
  foldl_view (v := fun t : State => t.host.lasting) (fun t _ => State.send_lasts _ t) l s

/-- A completion is posted in its two writes; the ring's tail moves, and the next number stays (R303, R305). -/
theorem State.postCompletion_posts {s : State} {c : Cmd} (present : c.ring < s.host.rings.length) (up : hostOpen s = true) (d : Done) :
    (∀ b, b = completionBytes c (ringAt s c.ring).sqHead d (ringAt s c.ring).phase →
        HostMsg.write ((ringAt s c.ring).cqBase.toNat + 64 * (ringAt s c.ring).cqTail) (b.take 0x3C) ∈ (s.postCompletion c d).host.posted
        ∧ HostMsg.write ((ringAt s c.ring).cqBase.toNat + 64 * (ringAt s c.ring).cqTail + 0x3C) (b.drop 0x3C) ∈ (s.postCompletion c d).host.posted)
      ∧ (ringAt (s.postCompletion c d) c.ring).cqTail = ((ringAt s c.ring).cqTail + 1) % (ringAt s c.ring).entries
      ∧ (s.postCompletion c d).host.acceptSeq = s.host.acceptSeq := by
  have wrote := sends_lasts (d.writes.flatMap (fun w => payloads w.1 w.2)) s
  unfold State.postCompletion
  dsimp only
  generalize (d.writes.flatMap (fun w => payloads w.1 w.2)).foldl (fun t w => t.send (.write w.1 w.2)) s = u at wrote ⊢
  have first (m : HostMsg) : HostLasts s (u.send m) := wrote.trans (State.send_lasts m u)
  have both (m n : HostMsg) : HostLasts s ((u.send m).send n) := (first m).trans (State.send_lasts n _)
  have ring (m n : HostMsg) : c.ring < ((u.send m).send n).host.rings.length := by rw [(both m n).rings_length]; exact present
  refine ⟨fun b bytes => ?_, ?_, ?_⟩
  · subst bytes
    constructor
    · exact (State.maybeInterrupt_keeps ..).1 _ (State.send_keeps_posted _ (State.send_posts (wrote.hostOpen.trans up) _))
    · exact (State.maybeInterrupt_keeps ..).1 _ (State.send_posts ((first _).hostOpen.trans up) _)
  · rw [ringAt_maybeInterrupt_cqTail (by rw [State.modRing_rings_length]; exact ring ..), ringAt_modRing_same (ring ..)]
  · exact (State.maybeInterrupt_keeps ..).2.trans ((both _ _).get (·.acceptSeq) (fun _ => rfl))

/-- The table without a command; a forced command no longer waits (R303, R350). -/
def State.dropCmd (cid : Nat) (s : State) : State :=
  { s with host := { s.host with cmds := without (fun x => x.cid == cid) s.host.cmds,
                                 forcing := if s.host.forcing = some cid then none else s.host.forcing } }

/-- A command leaves the table, with its run and its launch. -/
def State.dropWork (cid : Nat) (s : State) : State := ((s.dropCmd cid).dropRun cid).dropLaunch cid

/-- An entry with its number in the serial order: one that ended while a fence held it takes the next (R302). -/
def Cmd.numbered (s : State) (e : Cmd) : Cmd := if e.seq.isSome then e else { e with seq := some s.host.acceptSeq.toNat }

/-- The state once a command has left the table and has its number. -/
def State.leave (cid : Nat) (e : Cmd) (s : State) : State := if e.seq.isSome then s.dropWork cid else (s.dropWork cid).takeSeq

theorem State.dropWork_lasts (cid : Nat) (s : State) : HostLasts (s.dropCmd cid) (s.dropWork cid) :=
  .trans (.of_frame (State.dropRun_frame cid _) (by decide)) (.of_frame (State.dropLaunch_frame cid _) (by decide))

theorem State.dropWork_cmds (cid : Nat) (s : State) : (s.dropWork cid).host.cmds = without (fun x => x.cid == cid) s.host.cmds :=
  ((State.dropRun_frame cid (s.dropCmd cid)).exact (by decide) (p := .cmds) (by decide) :)

/-- The command is gone, the next number is taken where it had none, and rings and registers of the link are as they were. -/
theorem State.leave_host (cid : Nat) (e : Cmd) (s : State) :
    cmdAt (s.leave cid e) cid = none ∧ (s.leave cid e).host.acceptSeq = (if e.seq.isSome then s.host.acceptSeq else s.host.acceptSeq + 1)
      ∧ (s.leave cid e).host.rings = s.host.rings ∧ hostOpen (s.leave cid e) = hostOpen s := by
  have lasts := State.dropWork_lasts cid s
  have number := lasts.get (·.acceptSeq) (fun _ => rfl)
  have rings := lasts.get (·.rings) (fun _ => rfl)
  have gone := cmdAt_without (State.dropWork_cmds cid s)
  unfold State.leave
  split
  · exact ⟨gone, number, rings, lasts.hostOpen⟩
  · exact ⟨gone, congrArg (· + 1) number, rings, lasts.hostOpen⟩

/-- The host link without rings, messages and what the command table goes by: the function's configuration and the state of the link. -/
def HostLink.function (h : HostLink) : HostLink := { h.lasting with rings := [], acceptSeq := 0, forcing := none }

theorem function_of_lasts {s t : State} (h : HostLasts s t) : t.host.function = s.host.function := h.get HostLink.function (fun _ => rfl)

/-- A completion leaves the configuration of the function. -/
theorem State.postCompletion_function (c : Cmd) (d : Done) (s : State) : (s.postCompletion c d).host.function = s.host.function := by
  have interrupted (r : Nat) (asked : Bool) (u : State) : (u.maybeInterrupt r asked).host.function = u.host.function := by
    unfold State.maybeInterrupt State.interrupt
    dsimp only
    split
    · exact (function_of_lasts (State.sendVector_lasts ..)).trans rfl
    · rfl
  have wrote := function_of_lasts (sends_lasts (d.writes.flatMap (fun w => payloads w.1 w.2)) s)
  unfold State.postCompletion
  dsimp only
  generalize (d.writes.flatMap (fun w => payloads w.1 w.2)).foldl (fun t w => t.send (.write w.1 w.2)) s = u at wrote ⊢
  have both (m n : HostMsg) : ((u.send m).send n).host.function = s.host.function :=
    (function_of_lasts ((State.send_lasts m u).trans (State.send_lasts n _))).trans wrote
  exact (interrupted ..).trans (both ..)

theorem State.leave_function (cid : Nat) (e : Cmd) (s : State) : (s.leave cid e).host.function = s.host.function := by
  have dropped : (s.dropWork cid).host.function = s.host.function := (function_of_lasts (State.dropWork_lasts cid s)).trans rfl
  unfold State.leave
  split
  · exact dropped
  · exact dropped

/-- A command that leaves with its completion changes no register of the collector and no retained value. -/
theorem State.leave_frame (cid : Nat) (e c : Cmd) (d : Done) (s : State) :
    Frame [.host, .cmds, .cel, .models, .sessions, .runs, .launches, .trans] s ((s.leave cid e).postCompletion c d) := by
  have taken : Frame [.host, .cmds] s (s.dropCmd cid) := Frame.upd (Frame.refl _ s)
  have dropped : Frame [.host, .cmds, .cel, .models, .sessions, .runs, .launches, .trans] s (s.dropWork cid) :=
    ((taken.mono (by decide)).step (State.dropRun_frame ..) (by decide)).step (State.dropLaunch_frame ..) (by decide)
  have numbered : Frame [.host, .cmds, .cel, .models, .sessions, .runs, .launches, .trans] s (s.leave cid e) := by
    unfold State.leave
    split
    · exact dropped
    · exact dropped.step (State.takeSeq_frame _) (by decide)
  exact numbered.step (State.postCompletion_frame ..) (by decide)

/-- What the completion of a command does: the entry leaves, its completion is posted, and a RESTART starts the module reset (R303–R306, R345). -/
theorem exec_commandComplete_of_done {s : State} {cid : Nat} {e : Cmd} {d : Done} (entry : cmdAt s cid = some e) (done : e.done = some d)
    (turn : s.host.forcing ≠ some cid ∨ s.host.cmds.length = 1) :
    exec (.commandComplete cid) s = .next (if e.opcode = 0x7E ∧ d.status = .ok
      then ((s.leave cid e).postCompletion (e.numbered s) d).softReset .module true true
      else (s.leave cid e).postCompletion (e.numbered s) d) := by
  have alone : ¬ (s.host.forcing = some cid ∧ s.host.cmds.length ≠ 1) := by tauto
  change execCommandComplete cid s = _
  unfold execCommandComplete
  simp only [entry, done, alone, if_false, State.leave, Cmd.numbered]
  cases seq : e.seq with
  | some n =>
    simp only [Option.isSome_some, if_true]
    split <;> rfl
  | none =>
    simp only [Option.isSome_none, Bool.false_eq_true, if_false]
    split <;> rfl

end Sys2Proof.Machine
end

section
/-! What reports, records and service requests leave when a module starts: its pins and its count of power cycles, the sticky bits, the host link but for
its messages, and what is empty (R492, R513, R519, R531). -/

set_option Elab.async false
namespace Sys2Proof.Machine

/-! ## The relation -/

/-- Power-good, PERST# and the count of power cycles. -/
def supply (s : State) : Bool × Bool × Nat := (s.pins.pwrgd, s.pins.perst, s.ret.cycles)

/-- No command, no run and no byte: the module as a reset leaves it. -/
structure Idle (s : State) : Prop where
  cmds : s.host.cmds = []
  runs : s.runs = []
  cells : s.mem.cells = []

/-- From s to t only reports, records and requests have been made. -/
structure Reported (s t : State) : Prop where
  supply : supply t = supply s
  sticky : ∀ x ∈ s.flt.sticky, x ∈ t.flt.sticky
  host : HostLasts s t
  idle : Idle s → Idle t

theorem Reported.refl (s : State) : Reported s s := ⟨rfl, fun _ h => h, rfl, id⟩

theorem Reported.trans {s t u : State} (h : Reported s t) (k : Reported t u) : Reported s u :=
  ⟨k.supply.trans h.supply, fun x hx => k.sticky x (h.sticky x hx), h.host.trans k.host, k.idle ∘ h.idle⟩

/-- A change that none of it shows. -/
theorem Reported.of_same {s t : State} (supply : Machine.supply t = Machine.supply s := by rfl) (sticky : t.flt.sticky = s.flt.sticky := by rfl)
    (host : HostLasts s t := by rfl) (cmds : t.host.cmds = s.host.cmds := by rfl) (runs : t.runs = s.runs := by rfl)
    (cells : t.mem.cells = s.mem.cells := by rfl) : Reported s t :=
  ⟨supply, fun _ h => sticky ▸ h, host, fun ⟨noCmds, noRuns, noCells⟩ => ⟨cmds.trans noCmds, runs.trans noRuns, cells.trans noCells⟩⟩

theorem Reported.foldl {α : Type} {g : State → α → State} (each : ∀ t x, Reported t (g t x)) (l : List α) (s : State) : Reported s (l.foldl g s) :=
  List.foldlRecOn (motive := Reported s) l g (Reported.refl s) (fun t kept x _ => kept.trans (each t x))

theorem Reported.ite {c : Prop} [Decidable c] {s t u : State} (h : Reported s t) (k : Reported s u) : Reported s (if c then t else u) := by
  split
  · exact h
  · exact k

/-- The parts that hold what the relation speaks of. -/
def reportedParts : List Part := [.pins, .flt, .host, .cmds, .runs, .stop]

theorem Reported.of_frame {ps : List Part} {s t : State} (h : Frame ps s t) (hp : ∀ p ∈ reportedParts, p ∉ ps) (cycles : t.ret.cycles = s.ret.cycles)
    (mem : t.mem = s.mem) : Reported s t := by
  have out {p : Part} (k : p ∈ reportedParts) : p.same s t := h.exact (hp .stop (by decide)) (hp p k)
  have pins : t.pins = s.pins := out (p := .pins) (by decide)
  have flt : t.flt = s.flt := out (p := .flt) (by decide)
  have cmds : t.host.cmds = s.host.cmds := out (p := .cmds) (by decide)
  have runs : t.runs = s.runs := out (p := .runs) (by decide)
  refine ⟨by simp only [Machine.supply, pins, cycles], fun x hx => flt ▸ hx, .of_frame h (hp .host (by decide)), ?_⟩
  rintro ⟨noCmds, noRuns, noCells⟩
  exact ⟨cmds.trans noCmds, runs.trans noRuns, mem ▸ noCells⟩

/-! ## Records (R513, R519, R522) -/

theorem State.modFlash_cycles (i : Nat) (f : Flash → Flash) (s : State) : (s.modFlash i f).ret.cycles = s.ret.cycles := by
  unfold State.modFlash
  split <;> rfl

theorem State.putMirror_cycles (m : Mirror) (s : State) : (s.putMirror m).ret.cycles = s.ret.cycles := by
  unfold State.putMirror State.enqueueBoth
  dsimp only
  split
  · rfl
  · split
    · rfl
    · split <;> exact State.modFlash_cycles ..

theorem State.commitRecord_cycles (r : LogRec) (s : State) : (s.commitRecord r).ret.cycles = s.ret.cycles := by
  unfold State.commitRecord
  dsimp only
  split
  · rfl
  · split
    · rfl
    · refine (State.modFlash_cycles ..).trans ?_
      split
      · exact State.putMirror_cycles ..
      · rfl

theorem State.commitOpen_cycles (s : State) : s.commitOpen.ret.cycles = s.ret.cycles := by
  unfold State.commitOpen
  split
  · rfl
  · exact State.commitRecord_cycles ..

theorem State.commitOpen_mem (s : State) : s.commitOpen.mem = s.mem := by
  unfold State.commitOpen
  split
  · rfl
  · exact State.commitRecord_mem ..

theorem State.logEvent_cycles (event source severity : Nat) (injected : Bool) (data : DWord) (s : State) :
    (s.logEvent event source severity injected data).ret.cycles = s.ret.cycles := by
  unfold State.logEvent
  dsimp only
  split
  · split
    · rfl
    · exact State.commitOpen_cycles s
  · rfl

theorem State.modFlash_reported (i : Nat) (f : Flash → Flash) (s : State) : Reported s (s.modFlash i f) :=
  .of_frame (State.modFlash_frame ..) (by decide) (State.modFlash_cycles ..) (State.modFlash_mem ..)

theorem State.putMirror_reported (m : Mirror) (s : State) : Reported s (s.putMirror m) :=
  .of_frame (State.putMirror_frame ..) (by decide) (State.putMirror_cycles ..) (State.putMirror_mem ..)

theorem State.commitRecord_reported (r : LogRec) (s : State) : Reported s (s.commitRecord r) :=
  .of_frame (State.commitRecord_frame ..) (by decide) (State.commitRecord_cycles ..) (State.commitRecord_mem ..)

theorem State.commitOpen_reported (s : State) : Reported s s.commitOpen :=
  .of_frame (State.commitOpen_frame _) (by decide) (State.commitOpen_cycles _) (State.commitOpen_mem _)

theorem State.logEvent_reported (event source severity : Nat) (injected : Bool) (data : DWord) (s : State) :
    Reported s (s.logEvent event source severity injected data) :=
  .of_frame (State.logEvent_frame ..) (by decide) (State.logEvent_cycles ..) (State.logEvent_mem ..)

/-! ## Reports and requests (R479, R490–R494) -/

theorem State.raiseCause_reported (k : Nat) (s : State) : Reported s (s.raiseCause k) := by
  have frame := State.raiseCause_frame k s
  have pins : (s.raiseCause k).pins = s.pins := frame.exact (by decide) (p := .pins) (by decide)
  have ret : (s.raiseCause k).ret = s.ret := frame.exact (by decide) (p := .ret) (by decide)
  have cmds : (s.raiseCause k).host.cmds = s.host.cmds := frame.exact (by decide) (p := .cmds) (by decide)
  have runs : (s.raiseCause k).runs = s.runs := frame.exact (by decide) (p := .runs) (by decide)
  refine ⟨by simp only [supply, pins, ret], fun x hx => (frame.flt_eq (by decide)).symm ▸ hx, State.raiseCause_lasts .., ?_⟩
  rintro ⟨noCmds, noRuns, noCells⟩
  exact ⟨cmds.trans noCmds, runs.trans noRuns, State.raiseCause_mem k s ▸ noCells⟩

/-- Marks change no entry of an empty table. -/
theorem State.markEvents_cmds_nil (evs : List FaultEvent) {s : State} (empty : s.host.cmds = []) : (s.markEvents evs).host.cmds = [] := by
  have marked (src cid : Nat) (u : State) (none_ : u.host.cmds = []) : (u.markCmd src cid).host.cmds = [] := by
    simp [State.markCmd, State.modCmd, none_]
  unfold State.markEvents
  split
  · exact empty
  · refine List.foldlRecOn (motive := fun u : State => u.host.cmds = []) _ _ empty (fun u none_ e _ => ?_)
    split
    · exact List.foldlRecOn (motive := fun u : State => u.host.cmds = []) _ _ none_ (fun u none_ c _ => marked _ c u none_)
    · exact none_

theorem State.captureOnly_cycles (evs : List FaultEvent) (s : State) : (s.captureOnly evs).ret.cycles = s.ret.cycles := by
  have reported (l : List FaultEvent) : (s.reported l).ret.cycles = s.ret.cycles := by
    have marks : (s.reported l).ret = ((s.registered l).logEvents l).ret := (State.markEvents_frame ..).exact (by decide) (p := .ret) (by decide)
    rw [marks]
    exact foldl_view (v := fun u : State => u.ret.cycles) (fun u e => State.logEvent_cycles _ _ _ _ _ u) l (s.registered l)
  rw [State.captureOnly_eq]
  split
  · rw [show _ = (s.reported _).ret from (State.raiseCause_frame ..).exact (by decide) (p := .ret) (by decide), reported]
  · exact reported _

theorem State.captureOnly_reported (evs : List FaultEvent) (s : State) : Reported s (s.captureOnly evs) := by
  have frame := State.captureOnly_frame evs s
  have pins : (s.captureOnly evs).pins = s.pins := frame.exact (by decide) (p := .pins) (by decide)
  have runs : (s.captureOnly evs).runs = s.runs := frame.exact (by decide) (p := .runs) (by decide)
  obtain ⟨u, log, marks⟩ := State.captureOnly_cmds evs s
  have before : u.host.cmds = s.host.cmds := log.exact (by decide) (p := .cmds) (by decide)
  refine ⟨by simp only [supply, pins, State.captureOnly_cycles], fun x hx => State.captureOnly_sticky.mpr (.inl hx), State.captureOnly_lasts .., ?_⟩
  rintro ⟨noCmds, noRuns, noCells⟩
  exact ⟨marks.trans (State.markEvents_cmds_nil _ (before.trans noCmds)), runs.trans noRuns, State.captureOnly_mem evs s ▸ noCells⟩

/-- A stop of the module ends what there is, and leaves what is empty. -/
theorem State.moduleStop_reported (source : Nat) (s : State) : Reported s (s.moduleStop source) := by
  have ended : Reported s (s.endAll .internal source) :=
    ⟨rfl, fun _ h => h, rfl, fun ⟨noCmds, noRuns, noCells⟩ => ⟨by simp [State.endAll, noCmds], noRuns, noCells⟩⟩
  have dark (u : State) : Reported u u.lasersOff := .of_frame (State.lasersOff_frame u) (by decide) rfl rfl
  have held (u : State) : Reported u u.holdDies := .of_frame (State.holdDies_frame u) (by decide) rfl rfl
  have lost (u : State) : Reported u u.loseLocal :=
    ⟨rfl, fun _ h => h, rfl, fun ⟨noCmds, noRuns, noCells⟩ => ⟨noCmds, noRuns, by simp [State.loseLocal, noCells]⟩⟩
  obtain ⟨supply, sticky, host, idle⟩ := (((ended.trans (dark _)).trans (held _)).trans (lost _)).trans (State.commitOpen_reported _)
  exact ⟨supply, sticky, host, fun idle_ => let ⟨cmds, _, cells⟩ := idle idle_; ⟨cmds, rfl, cells⟩⟩

theorem State.capture_reported (evs : List FaultEvent) (s : State) : Reported s (s.capture evs) := by
  unfold State.capture
  dsimp only
  split
  · exact (State.captureOnly_reported ..).trans (State.moduleStop_reported ..)
  · exact State.captureOnly_reported ..

theorem State.raise_reported (source data : Nat) (s : State) : Reported s (s.raise source data) := State.capture_reported ..

theorem State.raiseRequest_reported (q : ServiceReq) (s : State) : Reported s (s.raiseRequest q) := by
  have noted (c : Prop) [Decidable c] : Reported s (if c then { s with svc := addOnce q s.svc, pins := { s.pins with alertOut := true } }
      else { s with svc := addOnce q s.svc }) := .ite .of_same .of_same
  exact (noted _).trans ((State.logEvent_reported ..).trans (State.raiseCause_reported ..))

theorem State.raiseService_reported (level cause resource : Nat) (hours : Option Nat) (predicted : Bool) (s : State) :
    Reported s (s.raiseService level cause resource hours predicted) := State.raiseRequest_reported ..

/-- A list of requests in force that changes. -/
theorem Reported.svc (l : List ServiceReq) (s : State) : Reported s { s with svc := l } := .of_same

theorem State.predictAt_reported (level cause resource key : Nat) (hours : Option Nat) (s : State) :
    Reported s (s.predictAt level cause resource key hours) := by
  unfold State.predictAt
  dsimp only
  split
  · exact .ite (.refl s) (State.raiseRequest_reported ..)
  · exact .ite (.svc ..) (.ite (.trans (.svc _ s) (State.raiseRequest_reported ..)) (.ite (.ite (.svc ..) (.svc ..)) (.svc ..)))

/-! ## What a start does again (R480, R500, R581) -/

theorem State.foretell_reported (s : State) : Reported s s.foretell := by
  refine .foldl (fun t m => ?_) _ s
  cases m with
  | ageing d p h => exact State.predictAt_reported ..
  | optical e r p h => exact (State.predictAt_reported ..).trans (State.predictAt_reported ..)
  | _ => exact .refl t

theorem State.reraiseSites_reported (lost compute spares : List Nat) (s : State) : Reported s (State.reraiseSites lost compute spares s) := by
  induction lost generalizing compute spares s with
  | nil => exact .refl s
  | cons n l ih =>
    unfold State.reraiseSites
    split
    · split <;> exact (State.raiseService_reported ..).trans (ih ..)
    · exact ih ..

theorem State.reraise_reported (s : State) : Reported s s.reraise := by
  unfold State.reraise
  refine .trans (.trans (.svc _ s) (State.reraiseSites_reported ..)) (.foldl (fun t m => ?_) _ _)
  cases m with
  | retiredCell | retiredBundle | failedMemory | retiredRing => exact State.raiseService_reported ..
  | retiredSensor x =>
    cases x with
    | tile n k => exact State.raiseService_reported ..
    | hub k => exact .refl t
    | engine e k => exact .refl t
  | _ => exact .refl t

theorem State.endStates_reported (s : State) : Reported s s.endStates :=
  .trans (t := { s with ret := { s.ret with faultList := [] }, flt := { s.flt with open_ := [] } })
    .of_same
    (.foldl (fun t _ => (State.putMirror_reported _ t).trans (State.logEvent_reported ..)) _ _)

theorem State.recordRetired_reported (n : Nat) (s : State) : Reported s (s.recordRetired n) := .ite (.refl s) (State.putMirror_reported ..)

theorem State.retireEighths_reported (states : List FaultState) (s : State) : Reported s (s.retireEighths states) := by
  refine .foldl (fun t st => ?_) _ s
  have logged (d : DWord) : Reported t (t.logEvent 0x0003 st.source st.severity false d) := State.logEvent_reported ..
  dsimp only
  refine .ite (.refl t) ?_
  split
  next n k _ =>
    have asked (d : DWord) : Reported t (((t.logEvent 0x0003 st.source st.severity false d).putMirror (.retiredCell n k)).raiseService 1 2 n none false) :=
      (logged d).trans ((State.putMirror_reported ..).trans (State.raiseService_reported ..))
    exact .ite ((asked _).trans (State.recordRetired_reported ..)) (asked _)
  next n => exact (logged _).trans ((State.recordRetired_reported ..).trans (State.captureOnly_reported ..))
  next b =>
    refine (logged _).trans (.trans (.trans (.foldl (fun u x => State.putMirror_reported ..) _ _) (State.captureOnly_reported ..))
      (.foldl (fun u x => ?_) _ _))
    cases x with
    | tile n i => exact .ite ((State.putMirror_reported ..).trans (State.captureOnly_reported ..)) (.refl u)
    | engine e k => exact .ite (State.captureOnly_reported ..) (.refl u)
    | hub i => exact .refl u
  next => exact (logged _).trans ((State.putMirror_reported ..).trans (State.captureOnly_reported ..))
  next => exact (logged _).trans (State.putMirror_reported ..)
  next => exact (logged _).trans (State.putMirror_reported ..)
  next => exact (logged _).trans ((State.putMirror_reported ..).trans (State.captureOnly_reported ..))

/-! ## Step 3 of a cold reset (R511, R513, R534, R540, R469) -/

theorem State.settleFlash_reported (idA idB : Bool) (s : State) : Reported s (s.settleFlash idA idB) := by
  have answered (c : Bool) (src : Nat) (t : State) : Reported t (if c then t.raise src 0 else t) := .ite (State.raise_reported ..) (.refl t)
  unfold State.settleFlash
  extract_lets s1 s2 h _ s3 s4 _ s5 _ s6 s7
  have h4 : Reported s { s4 with ret := { s4.ret with copies := [], mirrorCopies := [] } } := .of_same
  have h5 : Reported s s5 := h4.trans (.foldl (fun u r => State.commitRecord_reported ..) _ _)
  have h6 : Reported s5 s6 := by
    simp only [s6]
    split
    · exact .trans (t := { s5 with ret := { s5.ret with openRec := none } }) .of_same (State.commitRecord_reported ..)
    · exact .refl s5
  exact (h5.trans h6).trans (.trans (answered ..) (answered ..))

theorem State.reserveBatch_reported (s : State) : Reported s s.reserveBatch := by
  have pending : Reported s { s with sec := { s.sec with reservationPending := true } } := .of_same
  exact .ite (.refl s) (.ite (.ite pending (pending.trans (State.raise_reported ..))) (State.modFlash_reported ..))

theorem State.settleSecurity_reported (katOk : Bool) (s : State) : Reported s (s.settleSecurity katOk) := by
  unfold State.settleSecurity
  extract_lets key pick x _ s1 s2 s3 board s4 s5 _ s6 s7
  clear_value x
  have told (src data : Nat) (t : State) : Reported t (t.raise src data) := State.raise_reported ..
  have h1 : Reported s s1 := .of_same
  have h2 : Reported s1 s2 := by
    simp only [s2]
    split
    · exact .foldl (fun t p => told _ _ t) ..
    · exact told ..
  have h3 : Reported s2 s3 := by
    simp only [s3]
    split
    · exact told ..
    · exact .refl s2
  have h4 : Reported s3 s4 := .of_same
  have h5 : Reported s4 s5 := by
    simp only [s5]
    split
    · exact .refl s4
    · exact told ..
  have h6 : Reported s5 s6 := by
    simp only [s6]
    split
    · split
      · exact .refl s5
      · refine .trans (.trans ?_ (State.putMirror_reported ..)) (told ..)
        exact .of_same
    · exact .refl s5
  have h7 : Reported s6 s7 := by
    simp only [s7]
    split
    · exact .refl s6
    · exact told ..
  exact ((((((h1.trans h2).trans h3).trans h4).trans h5).trans h6).trans h7).trans (State.reserveBatch_reported s7)

theorem State.logCause_reported (s : State) : Reported s s.logCause := by
  unfold State.logCause
  extract_lets kind _ s1
  have h1 : Reported s s1 := by
    simp only [s1]
    split
    · refine .trans ?_ (State.logEvent_reported ..)
      exact .of_same
    · exact .refl s
  refine h1.trans ?_
  split
  · refine .trans ?_ (State.captureOnly_reported ..)
    exact .of_same
  · exact .refl s1

/-! ## The end of step 3 -/

theorem State.endStep3_reported (kind : ResetKind) (s : State) : Reported s (s.endStep3 kind) := by
  obtain ⟨supply, sticky, host, idle⟩ := State.logEvent_reported 0x0010 0xFFFF 0 false (startData kind.code s.settings) s.firstTables
  exact ⟨supply, sticky, host, fun ⟨a, b, c⟩ => let ⟨x, y, z⟩ := idle ⟨a, b, c⟩; ⟨x, y, z⟩⟩

theorem State.coreQuorum_reported (s : State) : Reported s s.coreQuorum := .ite (State.raise_reported ..) (.refl s)

end Sys2Proof.Machine
end

section
/-! A reset of the whole module from start-up step 3 on: the sequence goes on, unless the quorum of control cores is lost (R531–R535, R562, R563). -/

set_option Elab.async false
namespace Sys2Proof.Machine

/-! ## The quorum of control cores (Table 17-7) -/

@[simp] theorem Faults.enter_coresRetired (isFirst : Bool) (ev : FaultEvent) (f : Faults) : (f.enter isFirst ev).coresRetired = f.coresRetired := by
  unfold Faults.enter
  cases eventOpens ev with
  | none => rfl
  | some r => dsimp only; cases openState f r <;> rfl

/-- The collector retires no core. -/
theorem Faults.capture_coresRetired (now cycles : Nat) (evs : List FaultEvent) (f : Faults) : (f.capture now cycles evs).coresRetired = f.coresRetired := by
  have taken (g : Faults) : (g.takeFirst now cycles evs).coresRetired = g.coresRetired := by
    unfold Faults.takeFirst
    split
    · rfl
    · cases firstOf evs <;> rfl
  refine (taken _).trans ?_
  exact foldl_view (v := Faults.coresRetired) (fun g e => Faults.enter_coresRetired _ e g) evs _

theorem State.coreQuorum_of_kept {s : State} (kept : quorumLost s = false) : s.coreQuorum = s := if_neg (of_decide_eq_false kept)

theorem quorumLost_coreQuorum (s : State) : quorumLost s.coreQuorum = quorumLost s := by
  unfold State.coreQuorum
  split
  · simp only [quorumLost, State.raise, State.capture_flt, Faults.capture_coresRetired]
  · rfl

/-- Start-up as a stop leaves it (R490). -/
def Boot.afterQuorum (lost : Bool) (b : Boot) : Boot := { b with stopped := b.stopped || lost, ready := b.ready && !lost, down := b.down || lost, cause := 0 }

theorem boot_of_frame {ps : List Part} {s t : State} (h : Frame ps s t) (hs : Part.stop ∉ ps) (hb : Part.boot ∉ ps) :
    ({ t.boot with cause := 0 } : Boot) = { s.boot with cause := 0 } := h.exact hs (p := .boot) hb

theorem State.moduleStop_boot (source : Nat) (s : State) : ({ (s.moduleStop source).boot with cause := 0 } : Boot) = s.boot.afterQuorum true := by
  have before : ({ ((s.endAll .internal source).lasersOff.holdDies.loseLocal.commitOpen).boot with cause := 0 } : Boot) = { s.boot with cause := 0 } := by
    rw [boot_of_frame (State.commitOpen_frame _) (by decide) (by decide), boot_of_frame (State.loseLocal_frame _) (by decide) (by decide),
      boot_of_frame (State.holdDies_frame _) (by decide) (by decide), boot_of_frame (State.lasersOff_frame _) (by decide) (by decide),
      boot_of_frame (State.endAll_frame ..) (by decide) (by decide)]
  have stopped := congrArg (fun b : Boot => { b with stopped := true, ready := false, down := true }) before
  simpa [Boot.afterQuorum, State.moduleStop] using stopped

/-- A start that finds the quorum lost stops the module; else nothing happens. -/
theorem State.coreQuorum_boot (s : State) : ({ s.coreQuorum.boot with cause := 0 } : Boot) = s.boot.afterQuorum (quorumLost s.coreQuorum) := by
  rw [quorumLost_coreQuorum]
  cases lost : quorumLost s with
  | false => simp [State.coreQuorum_of_kept lost, Boot.afterQuorum]
  | true =>
    have severe : severityOf (srcId 0 0 9) = 3 := (severity_srcId _ _ (by decide)).trans (by decide)
    have stops (e : FaultEvent) (source : e.source = srcId 0 0 9) : s.capture [e] = (s.captureOnly [e]).moduleStop e.source := by
      simp [State.capture, source, severe, firstOf]
    have reported (evs : List FaultEvent) : ({ (s.captureOnly evs).boot with cause := 0 } : Boot) = { s.boot with cause := 0 } :=
      boot_of_frame (State.captureOnly_frame ..) (by decide) (by decide)
    have row : s.coreQuorum = s.raise (srcId 0 0 9) 0 := if_pos (of_decide_eq_true lost)
    rw [row, State.raise, stops _ rfl, State.moduleStop_boot]
    exact (congrArg (Boot.afterQuorum true) (reported _) :)

/-! ## The end of a start -/

/-- From u, rebuilt by a reset, a start has come to t: it is at its step with its kind, and is stopped where the quorum of control cores is lost;
settings, sessions and graphs are as rebuilt, and so are the registers of the collector but for what the end of the start reports. -/
structure Starts (kind : ResetKind) (u t : State) : Prop where
  reported : Reported u t
  boot : ({ t.boot with cause := 0 } : Boot) =
    Boot.afterQuorum (quorumLost t) { u.boot with lastKind := kind, inProgress := if t.settings.isSome then some kind else none }
  settings : t.settings = u.settings
  sessions : t.sessions = u.sessions
  graphs : t.graphs = u.graphs
  faults : quorumLost t = false → t.flt = u.flt

/-- The end of step 3 after requests have been raised again. -/
theorem Starts.of_reraised {u v : State} (reported : Reported u v) {ps : List Part} (frame : Frame ps u v)
    (apart : ∀ p ∈ [Part.boot, .settings, .sessions, .graphs, .flt, .stop], p ∉ ps) (kind : ResetKind) :
    Starts kind u (v.endStep3 kind).coreQuorum := by
  have out {p : Part} (k : p ∈ [Part.boot, .settings, .sessions, .graphs, .flt, .stop]) : p.same u v := frame.exact (apart .stop (by decide)) (apart p k)
  have logged := State.logEvent_frame 0x0010 0xFFFF 0 false (startData kind.code v.settings) v.firstTables
  have ended := State.endStep3_frame kind v
  have quorum := State.coreQuorum_frame (v.endStep3 kind)
  have settings : (v.endStep3 kind).coreQuorum.settings = v.settings :=
    (quorum.stop .settings (by decide) (by decide)).trans (ended.exact (by decide) (p := .settings) (by decide))
  refine ⟨?_, ?_, settings.trans (out (p := .settings) (by decide)), ?_, ?_, fun kept => ?_⟩
  · exact reported.trans ((State.endStep3_reported ..).trans (State.coreQuorum_reported _))
  · have boot : ({ (v.endStep3 kind).boot with cause := 0 } : Boot)
        = { u.boot with cause := 0, lastKind := kind, inProgress := if v.settings.isSome then some kind else none } := by
      have same : (v.firstTables.logEvent 0x0010 0xFFFF 0 false (startData kind.code v.settings)).settings = v.settings :=
        logged.exact (by decide) (p := .settings) (by decide)
      have start := (boot_of_frame logged (by decide) (by decide)).trans (out (p := .boot) (by decide))
      rw [← same]
      exact congrArg (fun b : Boot => { b with lastKind := kind, inProgress :=
        if (v.firstTables.logEvent 0x0010 0xFFFF 0 false (startData kind.code v.settings)).settings.isSome then some kind else none }) start
    rw [State.coreQuorum_boot, settings]
    exact (congrArg (Boot.afterQuorum _) boot :)
  · have rebuilt : (v.endStep3 kind).sessions = u.sessions :=
      (ended.exact (by decide) (p := .sessions) (by decide)).trans (out (p := .sessions) (by decide))
    exact (quorum.stop .sessions (by decide) (by decide)).trans rebuilt
  · have rebuilt : (v.endStep3 kind).graphs = u.graphs :=
      (ended.exact (by decide) (p := .graphs) (by decide)).trans (out (p := .graphs) (by decide))
    exact (quorum.stop .graphs (by decide) (by decide)).trans rebuilt
  · rw [quorumLost_coreQuorum] at kept
    rw [State.coreQuorum_of_kept kept]
    exact (ended.exact (by decide) (p := .flt) (by decide)).trans (out (p := .flt) (by decide))

/-! ## Warm and module resets (R531, R533) -/

/-- The state before a warm or module reset rebuilds it: a flash write is cut off, the open fault states have ended (R532, R581). -/
def State.wound (kind : ResetKind) (s : State) : State :=
  (({ s with flashA := if kind = .warm then s.flashA.abandon else s.flashA,
             flashB := if kind = .warm then s.flashB.abandon else s.flashB } : State).endStates).retireEighths s.ret.faultList

/-- The state as a warm or module reset has rebuilt it. -/
def State.rebuilt (kind : ResetKind) (keepLink keepConfig : Bool) (s : State) : State :=
  let s1 := (s.wound kind).rebuild false keepLink keepConfig
  let back : State := if s.boot.down then { s1 with engines := (s.engines.zip s1.engines).map (fun p => Engine.searchAgain p.1 p.2) } else s1
  if keepConfig then back else { s1 with boot := { s1.boot with down := s.boot.down, hot := s.boot.hot } }

theorem State.softReset_starts (kind : ResetKind) (keepLink keepConfig : Bool) (s : State) :
    Starts kind (s.rebuilt kind keepLink keepConfig) (s.softReset kind keepLink keepConfig) :=
  Starts.of_reraised (State.reraise_reported _) (State.reraise_frame _) (by decide) kind

theorem State.wound_reported (kind : ResetKind) (s : State) : Reported s (s.wound kind) := by
  refine .trans (.trans ?_ (State.endStates_reported _)) (State.retireEighths_reported ..)
  exact .of_same

theorem State.wound_frame (kind : ResetKind) (s : State) :
    Frame [.pins, .ret, .cause, .flashA, .flashB, .log, .flt, .svc, .host, .cmds] s (s.wound kind) := by
  have cut : Frame [.flashA, .flashB] s ({ s with flashA := if kind = .warm then s.flashA.abandon else s.flashA,
                                                  flashB := if kind = .warm then s.flashB.abandon else s.flashB } : State) := Frame.upd (Frame.refl _ s)
  exact ((cut.mono (by decide)).step (State.endStates_frame _) (by decide)).step (State.retireEighths_frame ..) (by decide)

/-- Where no fault state was open, the registers of the collector stay. -/
theorem State.wound_flt {kind : ResetKind} {s : State} (closed : s.ret.faultList = []) : (s.wound kind).flt = { s.flt with open_ := [] } := by
  rw [State.wound, closed]
  show State.flt (State.endStates _) = _
  simp only [State.endStates, closed]
  rfl

/-- What a warm or module reset has rebuilt: step 3 of start-up, sticky bits as they were, nothing in the command table, in the sessions or in
memory, and the host link as far as the kind of the reset keeps it. -/
theorem State.rebuilt_view (kind : ResetKind) (keepLink keepConfig : Bool) (s : State) :
    ((s.rebuilt kind keepLink keepConfig).boot.ready = false ∧ (s.rebuilt kind keepLink keepConfig).boot.step = 4
      ∧ (s.rebuilt kind keepLink keepConfig).boot.stopped = s.boot.stopped
      ∧ (keepConfig = true → (s.rebuilt kind keepLink keepConfig).boot.down = false))
    ∧ (s.rebuilt kind keepLink keepConfig).flt = faultsAfter false (s.wound kind)
    ∧ (s.rebuilt kind keepLink keepConfig).host = hostAfter keepLink keepConfig (s.wound kind).host
    ∧ Idle (s.rebuilt kind keepLink keepConfig) ∧ (s.rebuilt kind keepLink keepConfig).sessions = []
    ∧ (s.rebuilt kind keepLink keepConfig).settings = s.settings ∧ (s.rebuilt kind keepLink keepConfig).pins.perst = s.pins.perst := by
  have frame := State.wound_frame kind s
  have stopped : (s.wound kind).boot.stopped = s.boot.stopped := (congrArg Boot.stopped (boot_of_frame frame (by decide) (by decide)) :)
  have settings : (s.wound kind).settings = s.settings := frame.exact (by decide) (p := .settings) (by decide)
  have perst : (s.wound kind).pins.perst = s.pins.perst := congrArg (fun x : Bool × Bool × Nat => x.2.1) (State.wound_reported kind s).supply
  unfold State.rebuilt
  dsimp only
  split
  · split <;> exact ⟨⟨rfl, rfl, stopped, fun _ => rfl⟩, rfl, rfl, ⟨rfl, rfl, rfl⟩, rfl, settings, perst⟩
  · next other => exact ⟨⟨rfl, rfl, stopped, fun same => absurd same other⟩, rfl, rfl, ⟨rfl, rfl, rfl⟩, rfl, settings, perst⟩

/-- What a warm or module reset of a state leads to (R531, R533): each value that it clears, keeps or counts. -/
structure SoftReset (kind : ResetKind) (keepLink keepConfig : Bool) (s t : State) : Prop where
  lastKind : t.boot.lastKind = kind
  step : t.boot.step = 4
  ready : t.boot.ready = false
  stopped : t.boot.stopped = (s.boot.stopped || quorumLost t)
  down : keepConfig = true → t.boot.down = quorumLost t
  sticky : ∀ x ∈ s.flt.sticky, x ∈ t.flt.sticky
  faults : s.ret.faultList = [] → quorumLost t = false →
    t.flt.sticky = s.flt.sticky ∧ t.flt.highest = s.flt.highest ∧ t.flt.firstSource = s.flt.firstSource
  settings : t.settings = s.settings
  idle : Idle t
  sessions : t.sessions = []
  perst : t.pins.perst = s.pins.perst
  host : t.host.lasting = (hostAfter keepLink keepConfig s.host).lasting

theorem State.softReset_view (kind : ResetKind) (keepLink keepConfig : Bool) (s : State) :
    SoftReset kind keepLink keepConfig s (s.softReset kind keepLink keepConfig) := by
  obtain ⟨reported, boot, settings, sessions, -, faults⟩ := State.softReset_starts kind keepLink keepConfig s
  obtain ⟨⟨ready, step, stopped, down⟩, flt, host, idle, noSessions, sameSettings, perst⟩ := State.rebuilt_view kind keepLink keepConfig s
  have wound := State.wound_reported kind s
  generalize s.softReset kind keepLink keepConfig = t at reported boot settings sessions faults ⊢
  refine ⟨?_, ?_, ?_, ?_, fun kept => ?_, fun x there => ?_, fun closed kept => ?_, settings.trans sameSettings, reported.idle idle,
    sessions.trans noSessions, ?_, ?_⟩
  · exact (congrArg Boot.lastKind boot :)
  · exact (congrArg Boot.step boot :).trans step
  · exact (congrArg Boot.ready boot :).trans (by simp [Boot.afterQuorum, ready])
  · exact (congrArg Boot.stopped boot :).trans (by simp [Boot.afterQuorum, stopped])
  · exact (congrArg Boot.down boot :).trans (by simp [Boot.afterQuorum, down kept])
  · exact reported.sticky x (flt ▸ wound.sticky x there)
  · rw [faults kept, flt]
    simp only [faultsAfter, Bool.false_eq_true, if_false, State.wound_flt closed, and_self]
  · exact (congrArg (fun x : Bool × Bool × Nat => x.2.1) reported.supply).trans perst
  · have lasting (h : HostLink) : (hostAfter keepLink keepConfig h).lasting = (hostAfter keepLink keepConfig h.lasting).lasting := rfl
    rw [reported.host, host, lasting, wound.host, ← lasting]

/-- A register of the host link after such a reset. -/
theorem SoftReset.register {kind : ResetKind} {keepLink keepConfig : Bool} {s t : State} (h : SoftReset kind keepLink keepConfig s t) {α : Type}
    (f : HostLink → α) (lasts : ∀ l, f l = f l.lasting) : f t.host = f (hostAfter keepLink keepConfig s.host) := by
  rw [lasts, h.host, ← lasts]

/-- Every vector is masked after a reset that does not keep the configuration. -/
theorem hostAfter_vectorMask (keepLink : Bool) (h : HostLink) : (hostAfter keepLink false h).vectorMask = List.range 2048 := by simp [hostAfter]

/-! ## Cold resets (R531, R533, R562) -/

/-- A cold reset comes to step 3 from a state without anything, the module's power cycle counted. -/
theorem State.coldStart_starts (katOk idA idB : Bool) (s : State) : ∃ u, Starts .cold u (s.coldStart katOk idA idB)
    ∧ supply u = (s.pins.pwrgd, s.pins.perst, (s.ret.cycles + 1) % 2 ^ 24) ∧ Idle u ∧ u.sessions = [] ∧ u.graphs = []
    ∧ u.boot.ready = false ∧ u.boot.step = 4 ∧ u.boot.stopped = false ∧ u.boot.down = false := by
  unfold State.coldStart
  extract_lets _ _ _ _ _ base states s1 _ s1a s2 keep cause s3 _ s4
  have h1 : Reported base s1 := (State.settleFlash_reported ..).trans (State.settleSecurity_reported ..)
  have h1a : Reported s1 s1a := .of_same
  have h2 : Reported s1a s2 := ((State.endStates_reported s1a).trans (State.retireEighths_reported ..)).trans (State.logCause_reported _)
  have supplied : supply s2 = supply base := ((h1.trans h1a).trans h2).supply
  clear h2
  clear_value s2
  refine ⟨s4, ?_, supplied, ⟨rfl, rfl, rfl⟩, rfl, rfl, rfl, rfl, rfl, rfl⟩
  have frame := (State.reraise_frame s4).trans (State.foretell_frame _)
  exact Starts.of_reraised ((State.reraise_reported s4).trans (State.foretell_reported _)) frame (by decide) .cold

end Sys2Proof.Machine

section
open Sys2Proof Sys2Proof.Machine

/-- Settles O19: a reset rebuilds the state and comes to the end of start-up step 3 (`Starts`), which only reports, records and requests have changed
since (`Reported`) unless the quorum of control cores is lost (`State.coreQuorum_boot`); the cold reset is `State.coldStart_starts`, the warm and the
module reset `State.softReset_view`. -/
theorem resetRowsComplete : Obligations.ResetRowsComplete := by
  unfold Obligations.ResetRowsComplete
  refine ⟨?cold, ?down, ?warm, ?noWarm, ?deassert, ?module, ?noModule⟩
  case cold =>
    intro s katOk idA idB
    have starts := State.coldStart_starts katOk idA idB { s with pins := { s.pins with pwrgd := true } }
    refine ⟨_, rfl, ?_⟩
    generalize State.coldStart katOk idA idB { s with pins := { s.pins with pwrgd := true } } = t at starts ⊢
    obtain ⟨u, ⟨reported, boot, -, sessions, graphs, -⟩, supplied, idle, noSessions, noGraphs, ready, step, stopped, down⟩ := starts
    have supply_ := reported.supply.trans supplied
    simp only [supply, Prod.mk.injEq] at supply_
    obtain ⟨power, -, cycles⟩ := supply_
    obtain ⟨cmds, runs, cells⟩ := reported.idle idle
    refine ⟨power, (congrArg Boot.lastKind boot :), (congrArg Boot.step boot :).trans step, ?_, ?_, ?_, cmds, sessions.trans noSessions,
      graphs.trans noGraphs, runs, cells, cycles, (congrArg Boot.inProgress boot :)⟩
    · exact (congrArg Boot.ready boot :).trans (by simp [Boot.afterQuorum, ready])
    · exact (congrArg Boot.stopped boot :).trans (by simp [Boot.afterQuorum, stopped])
    · exact (congrArg Boot.down boot :).trans (by simp [Boot.afterQuorum, down])
  case down =>
    intro s
    exact ⟨_, rfl, rfl, rfl, rfl, rfl, rfl, rfl, rfl, rfl, rfl, rfl⟩
  case warm =>
    intro s power high reset kept
    have view := State.softReset_view .warm false false { s with pins := { s.pins with perst := true } }
    obtain ⟨cmds, -, cells⟩ := view.idle
    exact ⟨_, if_pos (by simp [power, high, reset, kept]), view.perst, view.lastKind, view.step, view.ready, view.stopped, view.sticky, view.faults,
      view.settings, cmds, view.sessions, cells, view.register (·.linkUp) (fun _ => rfl)⟩
  case noWarm =>
    intro s other
    exact ⟨_, if_neg (by simpa using other), rfl⟩
  case deassert =>
    intro s
    exact ⟨_, rfl, rfl⟩
  case module =>
    intro s reach kept
    have view := State.softReset_view .module true false s
    obtain ⟨cmds, -, cells⟩ := view.idle
    exact ⟨_, if_neg (by simp [reach, kept]), view.lastKind, view.step, view.ready, view.stopped, view.sticky,
      fun closed kept => (view.faults closed kept).1, view.settings, view.register (·.msixTable) (fun _ => rfl),
      (view.register (·.vectorMask) (fun _ => rfl)).trans (hostAfter_vectorMask ..), view.register (·.busMaster) (fun _ => rfl),
      view.register (·.linkUp) (fun _ => rfl), cmds, view.sessions, cells⟩
  case noModule =>
    intro s other
    exact ⟨s, if_pos (by simpa using other), rfl⟩

end
end

section
open Sys2Proof Sys2Proof.Machine

/-- Settles O28: each row changes its ring by one function of the ring (`ringAt_modRing_same`), which messages leave (`HostLasts`); a descriptor that is
accepted joins the table (`exec_descriptorFetch_of_good`), one that completes leaves it with its two writes posted (`State.postCompletion_posts`), and a
RESTART then is a module reset that keeps the link and its configuration (`State.softReset_view`). -/
theorem ringRowsComplete : Obligations.RingRowsComplete := by
  unfold Obligations.RingRowsComplete
  refine ⟨?enable, ?disable, ?tail, ?head, ?fetch, ?waits, ?release, ?complete, ?restart, ?coalesce⟩
  case enable =>
    intro s ring value reach present off on sq cq least most
    refine ⟨_, if_pos reach, ?_⟩
    beta_reduce
    rw [ringAt_writeRingCtrl_enables present off on sq cq least most]
    exact ⟨rfl, rfl, rfl, rfl, rfl, rfl, rfl, rfl, rfl⟩
  case disable =>
    intro s ring value reach present on off
    refine ⟨_, if_pos reach, ?_⟩
    beta_reduce
    rw [ringAt_writeRingCtrl_disables present on off]
    refine ⟨Ring.settle_state _ rfl, ?_⟩
    rw [Ring.settle_eq]
  case tail =>
    intro s ring value reach present on small
    refine ⟨_, (if_pos reach).trans (congrArg Host.Outcome.next (State.writeBar2_tail ring _ s)), ?_⟩
    simp only [State.tailDoorbell, on, ne_eq, not_true_eq_false, if_false, Nat.not_le.mpr small]
    rw [ringAt_modRing_same present]
    exact ⟨rfl, on⟩
  case head =>
    intro s ring value used reach present running small freed ready
    refine ⟨_, (if_pos reach).trans (congrArg Host.Outcome.next (State.writeBar2_head ring _ s)), ?_⟩
    exact ringAt_headDoorbell present running small freed ready
  case fetch =>
    intro s ring desc present fetches turn whole lap alive good free new
    refine ⟨_, (exec_descriptorFetch_of_good fetches turn whole lap alive good).trans (congrArg Host.Outcome.next (if_neg (by simp [free]))), ?_⟩
    have entry := cmdAt_added (s := ((s.fetchedFrom ring).addCmd { fetchedCmd s ring desc with seq := some s.host.acceptSeq.toNat }).takeSeq) rfl new
    have ring_ := ringAt_fetchedFrom present
    refine ⟨?_, rfl, rfl, ?_⟩
    · exact (congrArg (Option.map _) entry :)
    · exact ⟨congrArg Ring.sqHead ring_, congrArg Ring.aliveExpected ring_, congrArg Ring.inFlight ring_⟩
  case waits =>
    intro s ring desc present fetches turn whole lap alive good waits new
    refine ⟨_, (exec_descriptorFetch_of_good fetches turn whole lap alive good).trans (congrArg Host.Outcome.next (if_pos waits)), ?_, rfl⟩
    exact (congrArg (Option.map _) (cmdAt_added (s := (s.fetchedFrom ring).addCmd (fetchedCmd s ring desc)) rfl new) :)
  case release =>
    intro s cid c entry waiting open_ first free
    obtain rfl : c.cid = cid := by simpa using List.find?_some entry
    exact ⟨_, exec_fenceRelease_of_free entry waiting open_ first free, cmdAt_added (c := { c with seq := some s.host.acceptSeq.toNat }) rfl
      (fun d there => by simpa [without] using (List.mem_filter.mp there).2), rfl⟩
  case complete =>
    intro s cid e c d entry numbered done turn plain present up
    obtain rfl : c = e.numbered s := numbered
    have same : (e.numbered s).opcode = e.opcode := by unfold Cmd.numbered; split <;> rfl
    obtain ⟨gone, number, rings, open_⟩ := State.leave_host cid e s
    have view (r : Nat) : ringAt (s.leave cid e) r = ringAt s r := congrArg (fun l : List Ring => l.getD r Ring.reset) rings
    obtain ⟨posts, tail, kept⟩ := State.postCompletion_posts (s := s.leave cid e) (rings ▸ present) (open_.trans up) d
    rw [view] at posts tail
    obtain ⟨first, last⟩ := posts _ rfl
    have table : cmdAt ((s.leave cid e).postCompletion (e.numbered s) d) cid = none :=
      (cmdAt_of_cmds ((State.postCompletion_frame ..).exact (by decide) (p := .cmds) (by decide)) cid).trans gone
    exact ⟨_, (exec_commandComplete_of_done entry done turn).trans (congrArg Host.Outcome.next (if_neg (same ▸ plain))), table, first, last, tail,
      kept.trans number⟩
  case restart =>
    intro s cid e d entry done turn restarts ok
    have frame := State.leave_frame cid e (e.numbered s) d s
    have flt : ((s.leave cid e).postCompletion (e.numbered s) d).flt = s.flt := frame.flt_eq (by decide)
    have ret : ((s.leave cid e).postCompletion (e.numbered s) d).ret = s.ret := frame.exact (by decide) (p := .ret) (by decide)
    have function := (State.postCompletion_function (e.numbered s) d (s.leave cid e)).trans (State.leave_function cid e s)
    have view := State.softReset_view .module true true ((s.leave cid e).postCompletion (e.numbered s) d)
    refine ⟨_, (exec_commandComplete_of_done entry done turn).trans (congrArg Host.Outcome.next (if_pos ⟨restarts, ok⟩)), view.lastKind, view.down rfl,
      view.step, view.idle.cmds, view.sessions, fun x there => view.sticky x (flt ▸ there), fun closed kept => ?_, ?_, ?_⟩
    · exact (view.faults (ret ▸ closed) kept).1.trans (congrArg Faults.sticky flt)
    · exact (view.register (·.busMaster) (fun _ => rfl)).trans (congrArg HostLink.busMaster function :)
    · exact (view.register (·.msixTable) (fun _ => rfl)).trans (congrArg HostLink.msixTable function :)
  case coalesce =>
    intro s ring present enabled armed delay waiting
    refine ⟨_, if_pos (by simp [enabled, armed, delay, waiting]), ?_⟩
    have ring_ := ringAt_interrupt present
    refine ⟨congrArg Ring.irqArmed ring_, congrArg Ring.unsignalled ring_, fun free up => ?_, fun masked => ?_⟩
    · exact State.sendVector_posts (by exact free) (by exact up)
    · exact State.sendVector_pends (by exact masked)

end

section
/-! What a row that neither resets the module nor takes its power or clock away keeps (O5, O7): the form of the state, a stop, and the state of being
down. It is a frame that lists every part, so that the frames of the operations compose to it whatever they list. -/

set_option Elab.async false
namespace Sys2Proof
open Machine

/-- Every part of the state. -/
def everyPart : List Part :=
  [.pending, .pins, .ret, .boot, .cause, .settings, .boardOk, .flashA, .flashB, .log, .sec, .flt, .svc, .tiles, .hubBundles, .engines, .els, .th, .cel,
    .host, .cmds, .mem, .bytes, .cxl, .models, .sessions, .sessionGen, .migs, .graphs, .graphGen, .kernels, .kernelGen, .runs, .launches, .trans, .scu,
    .sb, .free, .stop]

theorem mem_everyPart (p : Part) : p ∈ everyPart := by cases p <;> decide

theorem Frame.every {ps : List Part} {s t : State} (h : Frame ps s t) : Frame everyPart s t := h.mono (fun p _ => mem_everyPart p)

/-- One operation after another. -/
theorem Frame.onward {ps qs : List Part} {s t u : State} (h : Frame ps s t) (k : Frame qs t u) : Frame everyPart s u := h.every.trans k.every

/-- An operation after what has gone before. -/
theorem Frame.onto {qs : List Part} {s t u : State} (k : Frame qs t u) (h : Frame everyPart s t) : Frame everyPart s u := h.onward k

/-- What the form of the state is read of, with its stop. -/
def Machine.State.shape (s : State) : ByteMap × (Nat × Nat × Nat × Nat × Nat × Nat × Nat) × Bool × Bool × Bool :=
  (s.mem.cells, (s.tiles.length, s.hubBundles.length, s.engines.length, s.els.length, s.cxl.length, s.models.length, s.scu.length),
    s.boot.stopped, s.boot.down, s.boot.ready)

/-- An update of the state that the form does not see. -/
theorem Frame.of_shape {s t : State} (same : t.shape = s.shape) : Frame everyPart s t := by
  simp only [State.shape, Prod.mk.injEq] at same
  obtain ⟨cells, ⟨tiles, hub, engines, els, cxl, models, scu⟩, stopped, down, ready⟩ := same
  refine ⟨(stopped ▸ ·), (down ▸ ·), fun p other => absurd (mem_everyPart p) other, fun p other => absurd (mem_everyPart p) other, fun inv => ?_⟩
  exact ⟨cells ▸ inv.memory, tiles ▸ inv.tiles, hub ▸ inv.hubBundles, engines ▸ inv.engines, els ▸ inv.els, cxl ▸ inv.cxl, models ▸ inv.models,
    scu ▸ inv.scu, down ▸ ready ▸ inv.down⟩

theorem Inv.of_shape {s t : State} (inv : Inv s) (same : t.shape = s.shape) : Inv t := (Frame.of_shape same).inv inv

/-! ## Rows -/

/-- Where the row answers a next state, the form has stayed. -/
def RowKeeps (s : State) (o : Host.Outcome State Fault Refusal) : Prop := ∀ t, o = .next t → Frame everyPart s t

namespace RowKeeps
variable {s : State}

theorem next {t : State} (h : Frame everyPart s t) : RowKeeps s (.next t) := fun _ e => Host.Outcome.next.inj e ▸ h

theorem of_frame {ps : List Part} {t : State} (h : Frame ps s t) : RowKeeps s (.next t) := next h.every

theorem stay : RowKeeps s (.next s) := next (.refl _ s)

section
variable {c : Prop} [Decidable c] {o p : Host.Outcome State Fault Refusal}

theorem ite (h : RowKeeps s o) (k : RowKeeps s p) : RowKeeps s (if c then o else p) := by split <;> assumption

/-- A row that does nothing where its condition holds. -/
theorem skip (h : RowKeeps s o) : RowKeeps s (if c then .next s else o) := ite stay h

/-- A row that does nothing where its condition fails. -/
theorem only (h : RowKeeps s o) : RowKeeps s (if c then o else .next s) := ite h stay

end

theorem command {cid op : Nat} {body : Cmd → State → State} (h : ∀ c u, Frame everyPart s u → Frame everyPart s (body c u)) :
    RowKeeps s (.next (s.command cid op body)) := next (State.command_frame (.refl _ s) h (fun p _ => mem_everyPart p))

theorem setFeature {cid feature : Nat} {body : Cmd → State → State} (h : ∀ c u, Frame everyPart s u → Frame everyPart s (body c u)) :
    RowKeeps s (.next (s.setFeature cid feature body)) := next (State.setFeature_frame (.refl _ s) h (fun p _ => mem_everyPart p))

theorem selftest {cid kind : Nat} {body : Cmd → State → State} (h : ∀ c u, Frame everyPart s u → Frame everyPart s (body c u)) :
    RowKeeps s (.next (s.selftest cid kind body)) := next (State.selftest_frame (.refl _ s) h (fun p _ => mem_everyPart p))

theorem hostCommand {cid op : Nat} {check : Cmd → State → Option State} {body : Cmd → State → State}
    (stops : ∀ c u v, Frame everyPart s u → check c u = some v → Frame everyPart s v)
    (h : ∀ c u, Frame everyPart s u → Frame everyPart s (body c u)) : RowKeeps s (.next (s.hostCommand cid op check body)) :=
  next (State.hostCommand_frame (.refl _ s) stops h (fun p _ => mem_everyPart p) (fun _ p _ => mem_everyPart p))

theorem commandReading {cid op : Nat} {reads : Bool} {check : Cmd → State → Option State} {body : Cmd → State → State}
    (stops : ∀ c u v, Frame everyPart s u → check c u = some v → Frame everyPart s v)
    (h : ∀ c u, Frame everyPart s u → Frame everyPart s (body c u)) : RowKeeps s (.next (s.commandReading cid op reads check body)) :=
  next (State.commandReading_frame (.refl _ s) stops h (fun p _ => mem_everyPart p) (fun _ p _ => mem_everyPart p))

theorem sessionCommand {cid op : Nat} {check : Cmd → State → Bool} {accepts : SessState → Bool} {act : Cmd → Session → State → State}
    (h : ∀ c x u, Frame everyPart s u → Frame everyPart s (act c x u)) : RowKeeps s (.next (s.sessionCommand cid op check accepts act)) :=
  next (State.sessionCommand_frame (.refl _ s) h (fun p _ => mem_everyPart p))

/-- An instruction of a kernel. -/
theorem kernel {α : Type} {r : WarpRef} {sel : KOp → Option α} {f : KCtx → α → State} (h : ∀ x a, Frame everyPart s (f x a)) :
    RowKeeps s (.next (s.kernel r sel f)) := next (State.kernel_frame h (fun p _ => mem_everyPart p))

end RowKeeps

end Sys2Proof
end

section
/-! The rows of tiles, of the Cellarer, of CXL, of start-up and of local memory keep the form (O5). -/

set_option Elab.async false
namespace Sys2Proof.Machine
variable {s : State}

theorem State.reportAccess_frame (src : Nat) (l : List Extent) (cids : List Nat) (s : State) : Frame everyPart s (s.reportAccess src l cids) := by
  unfold State.reportAccess
  split
  · exact .refl ..
  · split
    · exact (State.raiseOn_frame ..).onto (.of_shape rfl)
    · exact (State.raiseOn_frame ..).every

/-! ## Tiles -/

@[simp] theorem execTileRetire_rowKeeps {site routerOk} : RowKeeps s (execTileRetire site routerOk s) := .only (.of_frame (State.retireTile_frame ..))

@[simp] theorem execSiteIsolate_rowKeeps {site} : RowKeeps s (execSiteIsolate site s) := .skip (.of_frame (State.isolateSite_frame ..))

theorem noteRuns_frame {site : SiteId} {k : Nat} (l : List WorkUnit) (s : State) :
    Frame [.tiles] s (l.foldl (fun u w => match (cmdAt u w.cid).bind (·.seq) with
      | some q => u.modTile site (Tile.noteRun k w.cid q)
      | none => u) s) := by
  refine Frame.foldl (fun u w h => ?_) l (.refl _ s)
  split
  · exact h.trans (State.modTile_frame ..)
  · exact h

@[simp] theorem execSlotEnd_rowKeeps {site copyError} : RowKeeps s (execSlotEnd site copyError s) := by
  unfold execSlotEnd
  dsimp only
  split
  · exact .stay
  · refine .skip ?_
    split
    · exact .stay
    · refine .ite (.next ((State.capture_frame ..).onto ?_)) (.next ?_)
      all_goals exact (State.modTile_frame ..).onward (noteRuns_frame ..)

@[simp] theorem execKatResult_rowKeeps {site pass} : RowKeeps s (execKatResult site pass s) := by
  unfold execKatResult
  dsimp only
  split
  · exact .stay
  · exact .skip (.ite (.next ((State.modTile_frame ..).onto (.of_shape rfl))) (.next ((State.katFailed_frame ..).onto (.of_shape rfl))))

@[simp] theorem execTileControllerWatchdog_rowKeeps {site} : RowKeeps s (execTileControllerWatchdog site s) := by
  refine .skip (.next ((State.partialReset_frame ..).onto ?_))
  exact Frame.foldl (fun u c h => (h.onward (State.blameSite_frame ..)).onward (State.failWork_frame ..)) _ (State.raiseFor_frame ..).every

@[simp] theorem execDrainAbandon_rowKeeps {site} : RowKeeps s (execDrainAbandon site s) :=
  .only (.next ((State.requeueRuns_frame ..).onward (State.modTile_frame ..)))

@[simp] theorem execDrainEnd_rowKeeps {site} : RowKeeps s (execDrainEnd site s) := by
  refine .only (.skip (.next ?_))
  have left := ((State.saveClusters_frame site.val s).onward (State.requeueUnits_frame site.val _)).onward (State.clearStore_frame site.val _)
  split
  · exact left.onward (State.darken_frame ..)
  · exact (left.onward (State.modTile_frame ..)).onward (State.assignStreams_frame _)

@[simp] theorem execCoreWatchdog_rowKeeps {core} : RowKeeps s (execCoreWatchdog core s) := by
  refine .skip (.next (Frame.foldl (fun u c h => h.onward (State.failWork_frame ..)) _ ?_))
  exact (State.capture_frame ..).onto (.of_shape rfl)

/-! ## The Cellarer -/

@[simp] theorem execCellarerPlan_rowKeeps {loads} : RowKeeps s (execCellarerPlan loads s) := by
  refine .skip (.next ?_)
  refine (State.keepReports_frame _).onto ((State.planBlocks_frame _).onto ((State.setShare_frame _).onto ?_))
  refine (State.assignStreams_frame _).onto ((State.planRoles_frame _).onto ?_)
  exact (State.planInputs_frame loads s).onward (.of_shape (by simp [State.shape]))

@[simp] theorem execWorkUnitAssign_rowKeeps {unit rowLoads} : RowKeeps s (execWorkUnitAssign unit rowLoads s) := by
  unfold execWorkUnitAssign
  split
  · exact .stay
  · split
    · exact .stay
    · refine .skip ?_
      split
      · exact .next ((State.reportAccess_frame ..).onward (State.failWork_frame ..))
      · refine .next ((State.placeCluster_frame ..).onto ((State.touch_frame ..).onto ?_))
        refine Frame.ite (fun _ => ?_) (fun _ => (State.modTile_frame ..).onto ?_)
        all_goals
          split
          · exact Frame.foldl (fun _ _ h => h.onward (State.modTile_frame ..)) _ (.of_shape rfl)
          · exact .of_shape rfl

@[simp] theorem execWorkUnitComplete_rowKeeps {unit} : RowKeeps s (execWorkUnitComplete unit s) := by
  unfold execWorkUnitComplete
  split
  · exact .stay
  · exact .only (.next (.of_shape rfl))

@[simp] theorem execBlockMoveSwitch_rowKeeps {move verified} : RowKeeps s (execBlockMoveSwitch move verified s) := by
  unfold execBlockMoveSwitch
  have ends (b : Nat) : RowKeeps s (.next ((s.endMove move).tidyLeases b)) := .next ((State.endMove_frame ..).onward (State.tidyLeases_frame ..))
  split
  · exact .stay
  · refine .skip ?_
    split
    · exact ends _
    · refine .ite (ends _) (.skip ?_)
      split
      · exact ends _
      · exact .next (((State.reportAccess_frame ..).onward (State.endMove_frame ..)).onward (State.tidyLeases_frame ..))
      · exact .next (((State.touch_frame ..).onward (State.overwrite_frame ..)).onward (.of_shape rfl))

@[simp] theorem execBlockMoveSourceFree_rowKeeps {move} : RowKeeps s (execBlockMoveSourceFree move s) := by
  unfold execBlockMoveSourceFree
  split
  · exact .stay
  · exact .skip (.next ((State.endMove_frame ..).onward (State.tidyLeases_frame ..)))

@[simp] theorem execStripeReloadDone_rowKeeps {model ok} : RowKeeps s (execStripeReloadDone model ok s) := by
  refine .skip (.ite (.of_frame (State.modModel_frame ..)) (.skip ?_))
  split
  next t reloaded =>
    have placed : Frame [.mem, .models] s t := Frame.foldl_bind (fun _ _ _ => State.replaceShard_frame) reloaded
    exact .skip (.next ((placed.onward (State.modModel_frame ..)).onward (State.assignStreams_frame _)))
  · exact .stay

@[simp] theorem execShardPrefetch_rowKeeps {model layerShard} : RowKeeps s (execShardPrefetch model layerShard s) := by
  unfold execShardPrefetch
  dsimp only
  split
  · exact .stay
  · exact .skip (.next (((State.touch_frame ..).onward (State.writeMem_frame ..)).onward (State.modModel_frame ..)))

/-! ## CXL -/

@[simp] theorem execCxlPresenceDetect_rowKeeps {p} : RowKeeps s (execCxlPresenceDetect p s) :=
  .only (.next ((State.modCxl_frame ..).onward (State.raise_frame ..)))

@[simp] theorem execCxlLinkUp_rowKeeps {p rate width capacity} : RowKeeps s (execCxlLinkUp p rate width capacity s) :=
  .skip (.ite (.next (((State.modCxl_frame ..).onward (State.leaveBad_frame _)).onward (State.settleRuns_frame _))) (.of_frame (State.modCxl_frame ..)))

@[simp] theorem execCxlDiscoveryDone_rowKeeps {p} : RowKeeps s (execCxlDiscoveryDone p s) :=
  .only (.next ((State.loseBytes_frame ..).onward (State.modCxl_frame ..)))

@[simp] theorem execCxlLinkDown_rowKeeps {p} : RowKeeps s (execCxlLinkDown p s) := .only (.of_frame (State.modCxl_frame ..))

@[simp] theorem execCxlAccessTimeout_rowKeeps {p cid} : RowKeeps s (execCxlAccessTimeout p cid s) :=
  .only (.next ((State.raise_frame ..).onward (State.failWork_frame ..)))

@[simp] theorem execCxlLinkDownTimeout_rowKeeps {p} : RowKeeps s (execCxlLinkDownTimeout p s) := .only (.of_frame (State.surpriseRemoval_frame ..))

@[simp] theorem execCxlEventLogPoll_rowKeeps {p events} : RowKeeps s (execCxlEventLogPoll p events s) :=
  .only (.next (Frame.foldl (fun _ _ h => h.onward (State.mediaEvent_frame ..)) events (.refl everyPart s)))

@[simp] theorem execCxlAttentionButton_rowKeeps {p} : RowKeeps s (execCxlAttentionButton p s) :=
  .ite (.next ((State.askOffline_frame p s).onward (State.modCxl_frame ..))) (.of_frame (State.askOffline_frame p s))

@[simp] theorem execCxlAttentionLedTimeout_rowKeeps {p} : RowKeeps s (execCxlAttentionLedTimeout p s) := .of_frame (State.modCxl_frame ..)

@[simp] theorem execCxlEvacuationDone_rowKeeps {p} : RowKeeps s (execCxlEvacuationDone p s) := by
  refine .skip (.ite (.of_frame (State.moveBlocksOff_frame ..)) (.ite (.of_frame (State.clearPort_frame ..)) (.next ?_)))
  exact ((State.clearPort_frame ..).onward (State.loseBytes_frame ..)).onward (State.modCxl_frame ..)

@[simp] theorem execCxlSurpriseRemoval_rowKeeps {p} : RowKeeps s (execCxlSurpriseRemoval p s) :=
  .ite (.of_frame (State.surpriseRemoval_frame ..)) (.of_frame (State.modCxl_frame ..))

@[simp] theorem execCxlMemReadResponse_rowKeeps {p cid poisoned} : RowKeeps s (execCxlMemReadResponse p cid poisoned s) := .only (.of_frame (State.raiseOn_frame ..))

/-! ## Start-up and clocks -/

@[simp] theorem execPerstDeassert_rowKeeps : RowKeeps s (execPerstDeassert s) := .next (.of_shape rfl)

@[simp] theorem execCellSetup_rowKeeps {site} : RowKeeps s (execCellSetup site s) := .only (.next ((State.modTile_frame ..).onward (State.atStep_frame ..)))

@[simp] theorem execModuleReady_rowKeeps {ms} : RowKeeps s (execModuleReady ms s) := by
  unfold execModuleReady
  split
  · exact .stay
  next due =>
    have up : s.boot.down = false := by
      simp only [readyDue, Bool.not_eq_false, Bool.and_eq_true, Bool.not_eq_true'] at due
      tauto
    refine .ite (.next (.of_shape rfl)) (.next ?_)
    refine (State.raiseCause_frame ..).onto ((State.logEvent_frame ..).onto (Frame.upd (.refl _ s) (wready := ?_)))
    simp [up]

@[simp] theorem execTilePllUnlock_rowKeeps {site} : RowKeeps s (execTilePllUnlock site s) := .of_frame (State.modTile_frame ..)

@[simp] theorem execEnginePllUnlock_rowKeeps {e} : RowKeeps s (execEnginePllUnlock e s) :=
  .next ((State.modEngine_frame ..).onto ((State.engineReset_frame ..).onto (Frame.ite (fun _ => (State.linkDown_frame ..).every) (fun _ => .refl ..))))

@[simp] theorem execForwardedClockStop_rowKeeps {at_} : RowKeeps s (execForwardedClockStop at_ s) := by
  unfold execForwardedClockStop
  split
  · exact .stay
  next n i =>
    refine .ite ?_ (.of_frame (State.retireBundle_frame ..))
    refine .ite (.next ((State.isolateSite_frame ..).onto ?_)) (.next ?_)
    all_goals
      refine Frame.ite (fun _ => (State.retable_frame _).onto ?_) (fun _ => ?_)
      all_goals exact ((State.raise_frame ..).onward (State.modTile_frame ..)).onward (State.modBundle_frame ..)
  · exact .ite (.next ((State.raise_frame ..).onward (State.modBundle_frame ..))) (.of_frame (State.retireBundle_frame ..))
  · exact .of_frame (State.retireBundle_frame ..)

@[simp] theorem execRowRelease_rowKeeps {row ageing} : RowKeeps s (execRowRelease row ageing s) := by
  refine .next ((State.spend_frame ..).onto ((State.atStep_frame ..).onto ?_))
  refine Frame.foldl (fun u c h => Frame.ite (fun _ => h) (fun _ => h.onward (State.agePoint_frame ..))) _ ?_
  refine Frame.foldl (fun u n h => ?_) _ (.refl everyPart s)
  have armed := h.onward (State.armFixed_frame n .down u)
  dsimp only
  split
  · exact Frame.foldl (fun _ _ k => k.onward (State.setLinkState_frame ..)) _
      ((armed.onward (State.modTile_frame ..)).onward (State.faceDown_frame ..))
  · exact armed.onward (State.modTile_frame ..)

@[simp] theorem execTilePositionReport_rowKeeps {site straps} : RowKeeps s (execTilePositionReport site straps s) := by
  refine .skip (.ite (.next ?misplaced) (.next ?placed))
  case misplaced =>
    refine (State.firstRoles_frame _).onto (Frame.foldl (fun _ _ h => h.onward (State.isolateSite_frame ..)) _ ?_)
    exact (State.modTile_frame ..).onward (State.isolateSite_frame ..)
  case placed =>
    exact (State.atStep_frame ..).onto ((State.armFixed_frame ..).onto ((State.modTile_frame ..).onward (State.modTile_frame ..)))

@[simp] theorem execLaneTest_rowKeeps {at_ failedHere failedThere fckOk flitsOk blockHere blockThere} :
    RowKeeps s (execLaneTest at_ failedHere failedThere fckOk flitsOk blockHere blockThere s) := by
  unfold execLaneTest
  dsimp only
  split
  · exact .stay
  next peer _ =>
    have up := (State.startEngine_frame at_ s).onward (State.startEngine_frame peer _)
    have noted {t : State} (h : Frame everyPart s t) : Frame everyPart s ((t.recordWires at_ failedHere).recordWires peer failedThere) :=
      (h.onward (State.recordWires_frame ..)).onward (State.recordWires_frame ..)
    have retired (b : BundleEnd) : RowKeeps s (.next ((((((s.startEngine at_).startEngine peer).recordWires at_ failedHere).recordWires peer
        failedThere).retireBundle b).atStep 6).beginTraining) :=
      .next ((((noted up).onward (State.retireBundle_frame ..)).onward (State.atStep_frame ..)).onward (State.beginTraining_frame _))
    refine .skip (.ite (.next ?astray) ?_)
    case astray =>
      refine (State.beginTraining_frame _).onto (Frame.foldl (fun _ _ h => h.onward (State.isolateSite_frame ..)) _ ?_)
      exact (State.modBundle_frame ..).onward (State.modBundle_frame ..)
    split
    · refine .ite (retired _) (.ite (retired _) (.next ?_))
      refine (State.beginTraining_frame _).onto ((State.atStep_frame ..).onto ((State.bundleServed_frame ..).onto (noted ?_)))
      have mapped {f g : BundleDir → BundleDir} {a b c d} {l m : List Byte} : Frame everyPart s
          ((((((((s.startEngine at_).startEngine peer).applyMap at_ a b).applyMap peer c d).modBundle at_ f).modBundle peer g).noteBlock at_ l).noteBlock
            peer m) :=
        (((((up.onward (State.applyMap_frame ..)).onward (State.applyMap_frame ..)).onward (State.modBundle_frame ..)).onward
          (State.modBundle_frame ..)).onward (State.noteBlock_frame ..)).onward (State.noteBlock_frame ..)
      refine Frame.ite (fun _ => (State.startInline_frame ..).onto ?_) (fun _ => ?_)
      all_goals exact Frame.ite (fun _ => (State.startInline_frame ..).onto mapped) (fun _ => mapped)
    · exact retired _
    · exact retired _

@[simp] theorem execCellSetupDone_rowKeeps {site failed} : RowKeeps s (execCellSetupDone site failed s) := by
  have out := Frame.foldl (fun u (k : CellId) h => (h.onward (State.raise_frame (srcId 1 site 0) (rangeData (tileAt u site) k) u)).onward
    (State.retireCell_frame site k (srcId 1 site 0) _)) failed (.refl everyPart s)
  refine .skip (.ite (.next ?_) (.ite (.next ?_) (.next ?_)))
  · exact (out.onward (State.modTile_frame ..)).onward (State.atStep_frame ..)
  · exact (out.onward (State.modTile_frame ..)).onward (State.atStep_frame ..)
  · exact out.onward (State.atStep_frame ..)

@[simp] theorem execGddr7TrainingDone_rowKeeps {site failA failB idA idB tempA tempB} :
    RowKeeps s (execGddr7TrainingDone site failA failB idA idB tempA tempB s) := by
  have noted := ((State.noteTemps_frame site.val tempA tempB s).onward (State.noteDevice_frame (2 * site.val) idA _)).onward
    (State.noteDevice_frame (2 * site.val + 1) idB _)
  have settled {t : State} (h : Frame everyPart s t) : RowKeeps s (.next (t.atStep 7).resumeAll.settleRuns) :=
    .next (((h.onward (State.atStep_frame ..)).onward (State.resumeAll_frame _)).onward (State.settleRuns_frame _))
  refine .skip (.ite (settled (noted.onward (State.failMemory_frame ..))) (settled ?_))
  refine Frame.onward (Frame.onto (State.modTile_frame ..) ?_) (.of_shape rfl)
  exact Frame.ite (fun _ => noted) (fun _ => noted.onward (State.loseBytes_frame ..))

/-! ## Local memory -/

@[simp] theorem execGddr7Read_rowKeeps {site offset by_ cid errors edcFails} : RowKeeps s (execGddr7Read site offset by_ cid errors edcFails s) := by
  refine .ite (.of_frame (State.raiseOn_frame ..)) (.ite (.of_frame (State.hold_frame ..)) ?_)
  have checked := State.edcCheck_frame site.val (groupOf offset) edcFails s
  exact .ite (.next (checked.onward (State.readGranule_frame ..))) (.next (checked.onward (State.hold_frame ..)))

@[simp] theorem execGddr7Write_rowKeeps {site offset data by_ cid errors edcFails} :
    RowKeeps s (execGddr7Write site offset data by_ cid errors edcFails s) := by
  refine .skip (.ite (.of_frame (State.raiseOn_frame ..)) (.ite (.of_frame (State.hold_frame ..)) ?_))
  have checked := State.edcCheck_frame site.val (groupOf offset) edcFails s
  exact .ite (.next (checked.onward (State.writeGranules_frame ..))) (.next (checked.onward (State.hold_frame ..)))

@[simp] theorem execScrubGroup_rowKeeps {site device found} : RowKeeps s (execScrubGroup site device found s) := by
  refine .skip (.next (Frame.foldl (fun _ _ h => h.onward (State.checkGranule_frame ..)) _ ?_))
  exact (State.scrubStep_frame ..).onto ((State.touch_frame ..).onto (.of_shape rfl))

@[simp] theorem execGddr7Refresh_rowKeeps {site device bank} : RowKeeps s (execGddr7Refresh site device bank s) := .skip (.next (.of_shape rfl))

@[simp] theorem execGddr7TempRead_rowKeeps {site tempA tempB} : RowKeeps s (execGddr7TempRead site tempA tempB s) := .of_frame (State.noteTemps_frame ..)

@[simp] theorem execRecentre_rowKeeps {site device channel} : RowKeeps s (execRecentre site device channel s) := .skip (.next (.of_shape rfl))

@[simp] theorem execChannelRetrainDone_rowKeeps {site device channel ok} : RowKeeps s (execChannelRetrainDone site device channel ok s) := by
  refine .skip (.next ((State.settleRuns_frame _).onto ((State.resumeAll_frame _).onto ((State.leaveBad_frame _).onto ?_))))
  refine Frame.ite (fun _ => ?_) (fun _ => (State.failMemory_frame ..).onto ?_)
  all_goals exact (State.modTile_frame ..).onto (.of_shape rfl)

end Sys2Proof.Machine
end

section
/-! The rows of rings, of the host link and of registers, and the commands to the module, keep the form (O5). -/

set_option Elab.async false
namespace Sys2Proof.Machine
variable {s : State}

/-! ## Rings and the host link -/

@[simp] theorem execRingEnable_rowKeeps {ring value} : RowKeeps s (execRingEnable ring value s) := .only (.of_frame (State.writeRingCtrl_frame ..))

@[simp] theorem execRingDisable_rowKeeps {ring value} : RowKeeps s (execRingDisable ring value s) := .only (.of_frame (State.writeRingCtrl_frame ..))

@[simp] theorem execSubmissionTailDoorbell_rowKeeps {ring value} : RowKeeps s (execSubmissionTailDoorbell ring value s) :=
  .only (.of_frame (State.writeBar2_frame ..))

@[simp] theorem execCompletionHeadDoorbell_rowKeeps {ring value} : RowKeeps s (execCompletionHeadDoorbell ring value s) :=
  .only (.of_frame (State.writeBar2_frame ..))

@[simp] theorem execIrqCoalesceTimeout_rowKeeps {ring} : RowKeeps s (execIrqCoalesceTimeout ring s) := .only (.of_frame (State.interrupt_frame ..))

@[simp] theorem execMsixUnmask_rowKeeps {vector} : RowKeeps s (execMsixUnmask vector s) := by
  unfold execMsixUnmask
  split
  · exact .skip (.next ((State.flushVector_frame ..).onto (.of_shape rfl)))
  · exact .skip (.next ((State.flushVectors_frame _).onto (.of_shape rfl)))

@[simp] theorem execDescriptorFetch_rowKeeps {ring desc} : RowKeeps s (execDescriptorFetch ring desc s) := by
  unfold execDescriptorFetch
  dsimp only
  have turn : Frame [.host] s ((s.takeTurn ring).modRing ring Ring.fetched) := (State.takeTurn_frame ..).trans (State.modRing_frame ..)
  refine .skip (.ite (.next ((State.rejectFetched_frame ..).onto ((State.raise_frame ..).onto (turn.onward (.of_shape rfl))))) ?_)
  split
  · exact .next ((State.rejectFetched_frame ..).onto (turn.onward (.of_shape rfl)))
  · exact .ite (.next (turn.onward (.of_shape rfl))) (.next ((State.takeSeq_frame _).onto (turn.onward (.of_shape rfl))))

@[simp] theorem execFenceRelease_rowKeeps {cid} : RowKeeps s (execFenceRelease cid s) := by
  unfold execFenceRelease
  split
  · exact .stay
  · exact .skip (.next ((State.takeSeq_frame _).onto (.of_shape rfl)))

@[simp] theorem execHostMasterResume_rowKeeps : RowKeeps s (execHostMasterResume s) := .skip (.of_frame (State.hostChange_frame ..))

@[simp] theorem execHostLinkDown_rowKeeps : RowKeeps s (execHostLinkDown s) := .only (.next ((State.raise_frame ..).onto (.of_shape rfl)))

@[simp] theorem execHostLinkRetrain_rowKeeps {width rate} : RowKeeps s (execHostLinkRetrain width rate s) := by
  unfold execHostLinkRetrain
  dsimp only
  refine .skip (.next (Frame.ite (fun _ => ?_) (fun _ => (State.raiseCause_frame ..).onto ?_)))
  all_goals
    refine Frame.ite (fun _ => ?_) (fun _ => (State.raise_frame ..).onto ?_)
    all_goals exact (State.release_frame _).onto (.of_shape rfl)

@[simp] theorem execHostReadCompletion_rowKeeps {req outcome} : RowKeeps s (execHostReadCompletion req outcome s) := by
  refine .skip ?_
  dsimp only
  split
  · exact .next (((State.aerError_frame ..).onward (State.raiseOn_frame ..)).onward (State.hostReadFailed_frame ..))
  · exact .next ((State.raise_frame ..).onward (State.hostReadFailed_frame ..))

@[simp] theorem execHostCompletionTimeout_rowKeeps {req} : RowKeeps s (execHostCompletionTimeout req s) :=
  .skip (.next (((State.aerError_frame ..).onward (State.raise_frame ..)).onward (State.hostReadFailed_frame ..)))

@[simp] theorem execConfigurationWrite_rowKeeps {change} : RowKeeps s (execConfigurationWrite change s) := by
  refine .skip ?_
  split
  · exact .of_frame (State.hostChange_frame ..)
  · exact .of_frame (State.hostChange_frame ..)
  · exact .only (.next (.of_shape rfl))
  · exact .next ((State.flushVectors_frame _).onto (.of_shape rfl))
  · exact .skip (.ite (.next (.of_shape rfl)) (.next ((State.flushVector_frame ..).onto (.of_shape rfl))))
  · exact .next ((State.flushVectors_frame _).onto (.of_shape rfl))
  · exact .next (.of_shape rfl)
  · exact .next (.of_shape rfl)

@[simp] theorem execBar4Read_rowKeeps {offset size} : RowKeeps s (execBar4Read offset size s) := by
  unfold execBar4Read
  dsimp only
  refine .skip (.ite (.next (.of_shape rfl)) (.skip (.next ?_)))
  split
  · exact ((State.bar4Events_frame offset size s).onward (State.reportAccess_frame ..)).onward (.of_shape rfl)
  · exact ((State.bar4Events_frame offset size s).onward (State.touch_frame ..)).onward (.of_shape rfl)

@[simp] theorem execBar4Write_rowKeeps {offset data} : RowKeeps s (execBar4Write offset data s) :=
  .skip (.ite (.next ((State.bar4Events_frame ..).onward (State.writeMem_frame ..))) (.next ((State.bar4Events_frame ..).onward (State.bar4Store_frame ..))))

/-! ## Registers -/

@[simp] theorem execRegisterWrite_rowKeeps {offset size value} : RowKeeps s (execRegisterWrite offset size value s) :=
  .skip (.ite (.of_frame (State.badAccess_frame ..)) (.ite (.next ((State.writeReg_frame ..).onward (State.writeReg_frame ..)))
    (.of_frame (State.writeReg_frame ..))))

@[simp] theorem execBarAccessInvalid_rowKeeps {bar offset size write} : RowKeeps s (execBarAccessInvalid bar offset size write s) := by
  refine .skip (.ite (.next (Frame.ite (fun _ => .of_shape rfl) (fun _ => .refl ..))) (.ite (.of_frame (State.badAccess_frame ..)) (.next ?_)))
  exact (State.badAccess_frame 0 s).onward (.of_shape rfl)

@[simp] theorem execFltClearRearm_rowKeeps : RowKeeps s (execFltClearRearm s) := .only (.of_frame (State.rearm_frame _))

@[simp] theorem execFltClearAll_rowKeeps : RowKeeps s (execFltClearAll s) := .only (.of_frame (State.clearSticky_frame _))

@[simp] theorem execFltClearOne_rowKeeps {source} : RowKeeps s (execFltClearOne source s) := .only (.of_frame (State.clearOne_frame ..))

/-! ## General and memory commands -/

@[simp] theorem execNop_rowKeeps {cid} : RowKeeps s (execNop cid s) := .command fun _ _ h => h.onward (State.finishCmd_frame ..)

@[simp] theorem execIdentify_rowKeeps {cid} : RowKeeps s (execIdentify cid s) := .command fun _ _ h => h.onward (State.finishCmd_frame ..)

@[simp] theorem execGetStatus_rowKeeps {cid} : RowKeeps s (execGetStatus cid s) :=
  .command fun _ _ h => (h.onward (State.finishCmd_frame ..)).onward (State.spend_frame ..)

@[simp] theorem execSetFeatureBar4Aperture_rowKeeps {cid} : RowKeeps s (execSetFeatureBar4Aperture cid s) := by
  refine .setFeature fun c u h => ?_
  refine Frame.ite (fun _ => (State.finishBytes_frame ..).onto (h.onward (.of_shape rfl))) (fun _ => ?_)
  split
  · exact Frame.ite (fun _ => (State.finishBytes_frame ..).onto (h.onward (.of_shape rfl))) (fun _ => h.onward (State.finishCmd_frame ..))
  · exact h.onward (State.finishCmd_frame ..)

@[simp] theorem execSetFeatureCxlPortOffline_rowKeeps {cid} : RowKeeps s (execSetFeatureCxlPortOffline cid s) :=
  .setFeature fun _ _ h => Frame.ite (fun _ => h.onward (State.finishCmd_frame ..))
    (fun _ => (h.onward (State.askOffline_frame ..)).onward (State.finishBytes_frame ..))

@[simp] theorem execSetFeaturePowerCap_rowKeeps {cid} : RowKeeps s (execSetFeaturePowerCap cid s) :=
  .setFeature fun _ _ h => Frame.ite (fun _ => h.onward (State.finishCmd_frame ..))
    (fun _ => (State.finishBytes_frame ..).onto (h.onward (.of_shape rfl)))

@[simp] theorem execSetFeatureThrottleStart_rowKeeps {cid} : RowKeeps s (execSetFeatureThrottleStart cid s) :=
  .setFeature fun _ _ h => (State.finishBytes_frame ..).onto (h.onward (.of_shape rfl))

@[simp] theorem execGetFeature_rowKeeps {cid} : RowKeeps s (execGetFeature cid s) := .command fun _ _ h => h.onward (State.finishBytes_frame ..)

@[simp] theorem execMemAlloc_rowKeeps {cid} : RowKeeps s (execMemAlloc cid s) := by
  refine .command fun c u h => Frame.ite (fun _ => h.onward (State.finishCmd_frame ..)) (fun _ => ?_)
  split
  · refine Frame.ite (fun _ => h) (fun _ => ?_)
    refine (State.finishCmd_frame ..).onto ((State.noteGen_frame ..).onto ((State.overwrite_frame ..).onto ?_))
    exact h.onward (Frame.upd (ps := [.mem, .bytes]) (.refl _ u))
  · exact h.onward (State.finishCmd_frame ..)

@[simp] theorem execMemFree_rowKeeps {cid} : RowKeeps s (execMemFree cid s) := by
  refine .command fun c u h => ?_
  dsimp only
  have busy : Frame everyPart s (u.finishCmd cid .busy []) := h.onward (State.finishCmd_frame ..)
  split
  · exact Frame.ite (fun _ => busy) (fun _ => (State.finishCmd_frame ..).onto (h.onward (Frame.upd (ps := [.mem, .bytes]) (.refl _ u))))
  · exact Frame.ite (fun _ => busy) (fun _ => (State.finishCmd_frame ..).onto (h.onward (.of_shape rfl)))
  · exact Frame.ite (fun _ => busy) (fun _ => (State.finishCmd_frame ..).onto (h.onward (.of_shape rfl)))
  · exact h.onward (State.finishCmd_frame ..)

@[simp] theorem execDmaCopy_rowKeeps {cid source} : RowKeeps s (execDmaCopy cid source s) := by
  refine .commandReading (fun c u v h stops => h.onward (dmaStop_frame stops)) (fun c u h => ?_)
  refine Frame.ite (fun _ => .refl ..) (fun _ => Frame.ite (fun _ => h) (fun _ => ?_))
  split
  next bad => exact h.onward (State.badAccessBy_frame bad)
  next bad => exact h.onward (State.badAccessBy_frame bad)
  · refine Frame.ite (fun _ => (State.finishWrites_frame ..).onto ?_) (fun _ => (State.finishCmd_frame ..).onto ((State.writeMem_frame ..).onto ?_))
    all_goals exact h.onward (State.touch_frame ..)

@[simp] theorem execRolePlan_rowKeeps {cid} : RowKeeps s (execRolePlan cid s) := by
  refine .command fun c u h => ?_
  have fails {st : Status} : Frame everyPart s (u.finishCmd cid st []) := h.onward (State.finishCmd_frame ..)
  refine Frame.ite (fun _ => fails) (fun _ => Frame.ite (fun _ => fails) (fun _ => Frame.ite (fun _ => fails) (fun _ => ?_)))
  exact (State.finishCmd_frame ..).onto (h.onward (.of_shape rfl))

@[simp] theorem execPlacementQuery_rowKeeps {cid} : RowKeeps s (execPlacementQuery cid s) := by
  refine .command fun c u h => ?_
  split
  · exact h.onward (State.finishCmd_frame ..)
  · exact Frame.ite (fun _ => h.onward (State.finishCmd_frame ..)) (fun _ => h.onward (State.finishWrites_frame ..))

/-! ## Test, log, settings, identity and power commands -/

@[simp] theorem execSelftestSummary_rowKeeps {cid} : RowKeeps s (execSelftestSummary cid s) := .selftest fun _ _ h => h.onward (State.finishCmd_frame ..)

@[simp] theorem execSelftestFull_rowKeeps {cid ms found} : RowKeeps s (execSelftestFull cid ms found s) := by
  refine .selftest fun c u h => Frame.ite (fun _ => ?begins) (fun _ => Frame.ite (fun _ => .refl ..) (fun _ => ?ends))
  case begins =>
    exact Frame.ite (fun _ => h.onward (State.finishCmd_frame ..)) (fun _ => Frame.foldl (fun _ _ k => k.onward (State.startDrain_frame ..)) _ h)
  case ends =>
    refine (State.finishCmd_frame ..).onto ((State.remapTiles_frame _).onto ?_)
    exact Frame.foldl (fun _ _ k => Frame.ite (fun _ => k.onward (State.actOnFailure_frame ..)) (fun _ => k)) _ (h.onward (.of_shape rfl))

@[simp] theorem execMarginTest_rowKeeps {cid eyes} : RowKeeps s (execMarginTest cid eyes s) := by
  refine .command fun c u h => Frame.ite (fun _ => ?begins) (fun _ => Frame.ite (fun _ => .refl ..) (fun _ => ?ends))
  case begins =>
    have fails {st : Status} {l : List (Nat × Nat × Nat)} : Frame everyPart s (u.finishCmd cid st l) := h.onward (State.finishCmd_frame ..)
    exact Frame.ite (fun _ => fails) (fun _ => Frame.ite (fun _ => fails) (fun _ => Frame.ite (fun _ => fails)
      (fun _ => Frame.ite (fun _ => fails) (fun _ => h.onward (State.modEngine_frame ..)))))
  case ends => exact (h.onward (State.modEngine_frame ..)).onward (State.finishWrites_frame ..)

@[simp] theorem execFaultInject_rowKeeps {cid} : RowKeeps s (execFaultInject cid s) := by
  refine .command fun c u h => ?_
  have fails {st : Status} : Frame everyPart s (u.finishCmd cid st []) := h.onward (State.finishCmd_frame ..)
  refine Frame.ite (fun _ => fails) (fun _ => Frame.ite (fun _ => fails) (fun _ => Frame.ite (fun _ => fails) (fun _ => ?_)))
  exact (State.finishCmd_frame ..).onto (h.onward (.of_shape rfl))

@[simp] theorem execLogRead_rowKeeps {cid} : RowKeeps s (execLogRead cid s) := by
  refine .command fun c u h => ?_
  have shown (b : Bool) : Frame everyPart s (if b then u.commitOpen else u) := Frame.ite (fun _ => h.onward (State.commitOpen_frame u)) (fun _ => h)
  exact Frame.ite (fun _ => (shown _).onward (State.finishCmd_frame ..)) (fun _ => (shown _).onward (State.finishWrites_frame ..))

@[simp] theorem execSettingsRead_rowKeeps {cid} : RowKeeps s (execSettingsRead cid s) :=
  .command fun _ _ h => Frame.ite (fun _ => h.onward (State.finishCmd_frame ..)) (fun _ => h.onward (State.finishWrites_frame ..))

@[simp] theorem execSettingsWrite_rowKeeps {cid image} : RowKeeps s (execSettingsWrite cid image s) := by
  refine .hostCommand (fun c u v h stops => ?_) (fun c u h => ?_)
  · split at stops
    · cases stops; exact h.onward (State.finishCmd_frame ..)
    · split at stops
      · cases stops; exact h.onward (State.finishCmd_frame ..)
      · cases stops
  · have fails {st : Status} : Frame everyPart s (u.finishCmd cid st []) := h.onward (State.finishCmd_frame ..)
    refine Frame.ite (fun _ => .refl ..) (fun _ => Frame.ite (fun _ => fails) (fun _ => Frame.ite (fun _ => ?unsigned) (fun _ => ?signed)))
    case unsigned => exact (h.onward (State.raise_frame ..)).onward (State.finishCmd_frame ..)
    case signed => exact Frame.ite (fun _ => fails) (fun _ => Frame.ite (fun _ => fails) (fun _ => h.onward (State.enqueueBoth_frame ..)))

@[simp] theorem execAttest_rowKeeps {cid} : RowKeeps s (execAttest cid s) := by
  refine .command fun c u h => ?_
  have fails {st : Status} {l : List (Nat × Nat × Nat)} : Frame everyPart s (u.finishCmd cid st l) := h.onward (State.finishCmd_frame ..)
  refine Frame.ite (fun _ => fails) (fun _ => Frame.ite (fun _ => h.onward (State.failCmd_frame ..)) (fun _ => Frame.ite (fun _ => ?empty) (fun _ => ?signs)))
  case empty => exact Frame.ite (fun _ => fails) (fun _ => Frame.ite (fun _ => fails) (fun _ => h))
  case signs => exact (h.onward (State.takeIndex_frame _)).onward (State.finishWrites_frame ..)

@[simp] theorem execRestart_rowKeeps {cid} : RowKeeps s (execRestart cid s) :=
  .next (State.powerCommand_frame (.refl ..) (fun _ h => h.onward (State.commitOpen_frame _)) (fun p _ => mem_everyPart p))

@[simp] theorem execRestartForce_rowKeeps {cid} : RowKeeps s (execRestartForce cid s) :=
  .next (State.forceCommand_frame (.refl ..) (fun _ h => h.onward (State.commitOpen_frame _)) (fun p _ => mem_everyPart p))

@[simp] theorem execShutdown_rowKeeps {cid} : RowKeeps s (execShutdown cid s) :=
  .next (State.powerCommand_frame (.refl ..) (fun _ h => h.onward (State.shutDown_frame ..)) (fun p _ => mem_everyPart p))

@[simp] theorem execShutdownForce_rowKeeps {cid} : RowKeeps s (execShutdownForce cid s) :=
  .next (State.forceCommand_frame (.refl ..) (fun _ h => h.onward (State.shutDown_frame ..)) (fun p _ => mem_everyPart p))

end Sys2Proof.Machine
end

section
/-! The rows of links, engines, lasers, bring-up and frames keep the form (O5). -/

set_option Elab.async false
namespace Sys2Proof.Machine
variable {s : State}

/-! ## Links and bundles -/

@[simp] theorem execDataFlitReceive_rowKeeps {link slot flit} : RowKeeps s (execDataFlitReceive link slot flit s) := by
  have taken := State.takeFlit_frame link flit s
  refine .skip (.ite (.next ((State.flitFailed_frame ..).onto ?_)) (.ite (.next (taken.onward (State.protocol_frame ..))) (.next ?_)))
  · exact Frame.ite (fun _ => taken.every) (fun _ => taken.onward (State.modFar_frame ..))
  · refine Frame.ite (fun _ => (State.passOn_frame ..).onto ?_) (fun _ => ?_)
    all_goals exact ((taken.onward (State.modLink_frame ..)).onward (State.modFar_frame ..)).onward (State.unfreeze_frame ..)

@[simp] theorem execLinkFlitReceive_rowKeeps {link slot flit} : RowKeeps s (execLinkFlitReceive link slot flit s) := by
  have taken := State.takeFlit_frame link flit s
  have reported {f g h : LinkEnd → LinkEnd} : Frame everyPart s
      (((((s.takeFlit link flit).modLink link f).modLink link g).unfreeze link).modFar link h) :=
    (((taken.onward (State.modLink_frame ..)).onward (State.modLink_frame ..)).onward (State.unfreeze_frame ..)).onward (State.modFar_frame ..)
  refine .skip (.ite (.next (taken.onward (State.flitFailed_frame ..))) ?_)
  dsimp only
  split
  · exact .next (reported.onward (State.takeNak_frame ..))
  · exact .next reported

@[simp] theorem execFillerFlitReceive_rowKeeps {link slot flit} : RowKeeps s (execFillerFlitReceive link slot flit s) :=
  .skip (.ite (.of_frame (State.takeFlit_frame ..)) (.next ((State.takeFlit_frame ..).onward (State.flitFailed_frame ..))))

@[simp] theorem execLinkFlitTimer_rowKeeps {link} : RowKeeps s (execLinkFlitTimer link s) := .only (.of_frame (State.modLink_frame ..))

@[simp] theorem execReplayTimerExpiry_rowKeeps {link age} : RowKeeps s (execReplayTimerExpiry link age s) := by
  refine .skip ?_
  split
  · exact .stay
  · exact .next (((State.modLink_frame ..).onward (State.replayEvent_frame ..)).onward (State.replayLimit_frame ..))

@[simp] theorem execNakResend_rowKeeps {link} : RowKeeps s (execNakResend link s) := .only (.of_frame (State.modLink_frame ..))

@[simp] theorem execWireFillerError_rowKeeps {at_ wire} : RowKeeps s (execWireFillerError at_ wire s) := .only (.of_frame (State.startInline_frame ..))

@[simp] theorem execPhaseTrack_rowKeeps {at_ moves} : RowKeeps s (execPhaseTrack at_ moves s) := .only (.of_frame (State.modBundle_frame ..))

@[simp] theorem execInlineCheckDone_rowKeeps {at_ failed} : RowKeeps s (execInlineCheckDone at_ failed s) := by
  refine .skip (.ite (.only (.of_frame (State.bundleBack_frame ..))) ?_)
  have noted := Frame.ite (c := bundleInjected s at_) (fun _ => .refl everyPart s)
    (fun _ => (State.recordWires_frame at_ (failed ++ strayed (bundleAt s at_)).eraseDups s).every)
  dsimp only
  split
  · exact .next (noted.onward (State.bundleOut_frame ..))
  · refine .next ((State.modFar_frame ..).onto ((State.modBundle_frame ..).onto ?_))
    split
    · exact (noted.onward (State.applyMap_frame ..)).onward (State.noteBlock_frame ..)
    · exact noted.onward (State.applyMap_frame ..)

/-! ## Engines: pauses, rings, lasers -/

@[simp] theorem execPause_rowKeeps {e slot dir} : RowKeeps s (execPause e slot dir s) := .of_frame (State.pauseSlot_frame ..)

@[simp] theorem execResume_rowKeeps {e slot dir} : RowKeeps s (execResume e slot dir s) := .of_frame (State.resumeSlot_frame ..)

@[simp] theorem execSlotErrorBurst_rowKeeps {e slot} : RowKeeps s (execSlotErrorBurst e slot s) :=
  .skip (.next ((State.raiseWave_frame ..).onward (State.pauseSlot_frame ..)))

@[simp] theorem execRingIdentityCheck_rowKeeps {e r dominant} : RowKeeps s (execRingIdentityCheck e r dominant s) :=
  .skip (.ite (.next ((State.modOeRing_frame ..).onward (State.settleTone_frame ..)))
    (.next (((State.modOeRing_frame ..).onward (State.wrongChannel_frame ..)).onward (State.settleTone_frame ..))))

@[simp] theorem execRingLockLost_rowKeeps {e r} : RowKeeps s (execRingLockLost e r s) := .only (.of_frame (State.lockLost_frame ..))

@[simp] theorem execRingLocked_rowKeeps {e r heater dominant tonePresent} : RowKeeps s (execRingLocked e r heater dominant tonePresent s) :=
  .skip (.ite (.next ((State.lockRing_frame ..).onward (State.settleTone_frame ..)))
    (.next ((State.wrongChannel_frame ..).onward (State.settleTone_frame ..))))

@[simp] theorem execRelockTimeout_rowKeeps {e r tonePresent} : RowKeeps s (execRelockTimeout e r tonePresent s) := .only (.of_frame (State.failRing_frame ..))

@[simp] theorem execRingRetry_rowKeeps {e r ok tonePresent heater} : RowKeeps s (execRingRetry e r ok tonePresent heater s) :=
  .skip (.ite (.next ((State.modOeRing_frame ..).onward (State.lockRing_frame ..)))
    (.ite (.next ((State.modOeRing_frame ..).onward (State.openRing_frame ..))) (.of_frame (State.modOeRing_frame ..))))

@[simp] theorem execRingSweep_rowKeeps {e orders} : RowKeeps s (execRingSweep e orders s) := by
  refine .skip (.next (Frame.foldl (fun u p h => Frame.ite (fun _ => h) (fun _ => ?_)) _ (State.modEngine_frame ..).every))
  split
  · exact h.onward (State.lockRing_frame ..)
  · exact h.onward (State.modOeRing_frame ..)

@[simp] theorem execFeedForwardUpdate_rowKeeps {e} : RowKeeps s (execFeedForwardUpdate e s) := by
  refine .next ((State.spend_frame ..).onto (Frame.foldl (fun u r h => ?_) _ (State.modEngine_frame ..).every))
  exact Frame.ite (fun _ => h) (fun _ => Frame.ite (fun _ => h.onward (State.modOeRing_frame ..))
    (fun _ => Frame.ite (fun _ => h.onward (State.lockLost_frame ..)) (fun _ => h)))

@[simp] theorem execLaserExcursion_rowKeeps {e f power} : RowKeeps s (execLaserExcursion e f power s) :=
  .skip (.next ((((State.setLaser_frame ..).onward (State.modEngine_frame ..)).onward (State.raiseFor_frame ..)).onward (State.failFibre_frame ..)))

@[simp] theorem execLaserLow_rowKeeps {e f power lost} : RowKeeps s (execLaserLow e f power lost s) :=
  .skip (.next (((State.modEngine_frame ..).onward (State.raise_frame ..)).onward (State.failFibre_frame ..)))

@[simp] theorem execLaserRestore_rowKeeps {e f} : RowKeeps s (execLaserRestore e f s) := by
  refine .skip ?_
  split
  · exact .of_frame (State.setLaser_frame ..)
  · exact .only (.next (((State.setLaser_frame ..).onward (State.modEngine_frame ..)).onward (State.spend_frame ..)))
  · exact .ite (.of_frame (State.setLaser_frame ..)) (.of_frame (State.modEngine_frame ..))

@[simp] theorem execOpenFibre_rowKeeps {e f} : RowKeeps s (execOpenFibre e f s) := by
  refine .skip ?_
  have dark {g : Engine → Engine} {src : Nat} : Frame everyPart s (((s.modEngine e g).probeLasers e).raise src f.val) :=
    ((State.modEngine_frame ..).onward (State.probeLasers_frame ..)).onward (State.raise_frame ..)
  split
  · exact .next (dark.onward (State.linkDown_frame ..))
  · exact .ite (.next (dark.onward (State.failAttempt_frame ..))) (.next dark)
  · exact .next dark

@[simp] theorem execElsPresence_rowKeeps {port gridOk toneOk} : RowKeeps s (execElsPresence port gridOk toneOk s) := by
  unfold execElsPresence
  dsimp only
  refine .skip ?_
  have there {g : Els → Els} {f : Engine → Engine} : Frame everyPart s
      ((portEngines port).foldl (fun t e => t.modEngine e f) { s with els := modAt s.els port g }) :=
    Frame.foldl (fun _ _ h => h.onward (State.modEngine_frame ..)) _ (.of_shape (by simp [State.shape]))
  refine .ite (.next (Frame.foldl (fun u e h => (State.beginBringUp_frame ..).onto ?_) _ there)) (.next ((State.elsFault_frame ..).onto ?_))
  · exact Frame.foldl (fun _ _ k => Frame.ite (fun _ => k.onward (State.setLaser_frame ..)) (fun _ => k)) _ h
  · exact Frame.foldl (fun _ _ h => ((h.onward (State.setLaser_frame ..)).onward (State.setLaser_frame ..)).onward (State.setLinkState_frame ..)) _ there

@[simp] theorem execElsMonitorPoll_rowKeeps {port failed} : RowKeeps s (execElsMonitorPoll port failed s) := .only (.of_frame (State.elsLost_frame ..))

@[simp] theorem execElsInterrupt_rowKeeps {port failed} : RowKeeps s (execElsInterrupt port failed s) := .only (.of_frame (State.elsLost_frame ..))

@[simp] theorem execElsTimeout_rowKeeps {port} : RowKeeps s (execElsTimeout port s) :=
  .skip (.next ((State.elsFault_frame ..).onto (Frame.foldl (fun _ _ h => (h.onward (State.setLinkState_frame ..)).onward (State.modEngine_frame ..)) _
    (.of_shape (by simp [State.shape])))))

@[simp] theorem execSpareMarginTest_rowKeeps {e r height width} : RowKeeps s (execSpareMarginTest e r height width s) :=
  .skip (.ite (.next ((State.raise_frame ..).onto (.of_shape rfl))) (.next (.of_shape rfl)))

/-! ## Bring-up and live changes -/

@[simp] theorem execRouteRestore_rowKeeps {e} : RowKeeps s (execRouteRestore e s) := .only (.next ((State.modEngine_frame ..).onward (State.reroute_frame ..)))

@[simp] theorem execHello_rowKeeps {e word} : RowKeeps s (execHello e word s) := .of_frame (State.onHello_frame ..)

@[simp] theorem execPortAbsentListen_rowKeeps {e heard} : RowKeeps s (execPortAbsentListen e heard s) := by
  unfold execPortAbsentListen
  split
  · exact .of_frame (State.portFound_frame ..)
  · exact .stay

@[simp] theorem execBringupTimeout_rowKeeps {e} : RowKeeps s (execBringupTimeout e s) := .only (.of_frame (State.failAttempt_frame ..))

@[simp] theorem execBringupRetry_rowKeeps {e} : RowKeeps s (execBringupRetry e s) :=
  .skip (.ite (.next ((State.modEngine_frame ..).onward (State.sendWord_frame ..))) (.of_frame (State.portAbsent_frame ..)))

@[simp] theorem execTrain_rowKeeps {e step status rate passing} : RowKeeps s (execTrain e step status rate passing s) := .of_frame (State.onTrain_frame ..)

@[simp] theorem execMap_rowKeeps {e slot dir fibre lambda effective} : RowKeeps s (execMap e slot dir fibre lambda effective s) := .of_frame (State.onMap_frame ..)

@[simp] theorem execRateWidth_rowKeeps {e rate width dir effective} : RowKeeps s (execRateWidth e rate width dir effective s) :=
  .of_frame (State.onRateWidth_frame ..)

@[simp] theorem execEffectiveFrame_rowKeeps {e dir} : RowKeeps s (execEffectiveFrame e dir s) := by
  refine .skip ?_
  dsimp only
  split
  next c _ =>
    refine .ite (.only (.of_frame (State.endChange_frame ..))) (.skip ?_)
    have switched := State.switchChange_frame e (bnat dir) c s
    have tapped := Frame.ite (c := (!c.rateChange) = true) (fun _ => switched.every) (fun _ =>
      Frame.ite (c := bnat dir = 0) (fun _ => switched.onward (State.rateTaps_frame e (engineAt s e).tx.rate c.rate _))
        (fun _ => switched.onward (State.modEngine_frame e (fun x => { x with ffe := x.ffe.map Ffe.anew }) _)))
    exact .ite (.next (tapped.onward (State.directionSet_frame ..))) (.ite (.next tapped) (.next (tapped.onward (State.endChange_frame ..))))
  · split
    · exact .stay
    · exact .only (.of_frame (State.switchMaps_frame ..))

@[simp] theorem execLiveChangeTimeout_rowKeeps {e dir} : RowKeeps s (execLiveChangeTimeout e dir s) := by
  refine .skip ?_
  have raised := State.raise_frame (srcId 2 e 0x12) (bnat dir) s
  split
  · exact .next (raised.onward (State.linkDown_frame ..))
  · exact .next (raised.onward (State.failAttempt_frame ..))
  · exact .stay

@[simp] theorem execFfeReq_rowKeeps {e ring post action} : RowKeeps s (execFfeReq e ring post action s) := .of_frame (State.onFfeReq_frame ..)

@[simp] theorem execFfeAck_rowKeeps {e ring pre post limit} : RowKeeps s (execFfeAck e ring pre post limit s) := .of_frame (State.onFfeAck_frame ..)

@[simp] theorem execIdleFreeze_rowKeeps {e} : RowKeeps s (execIdleFreeze e s) := .only (.of_frame (State.modDir_frame ..))

@[simp] theorem execTrainingBlock_rowKeeps {e ring} : RowKeeps s (execTrainingBlock e ring s) := .only (.of_frame (State.modDir_frame ..))

@[simp] theorem execLinkErrorBucket_rowKeeps {e positions} : RowKeeps s (execLinkErrorBucket e positions s) :=
  .skip (.ite (.next ((State.modEngine_frame ..).onward (State.linkDown_frame ..))) (.of_frame (State.modEngine_frame ..)))

@[simp] theorem execFrameTransmit_rowKeeps {e} : RowKeeps s (execFrameTransmit e s) :=
  .ite (.of_frame (State.beforeFrame_frame ..)) (.next (((State.beforeFrame_frame ..).onward (State.modEngine_frame ..)).onward (State.spend_frame ..)))

@[simp] theorem execFrameReceive_rowKeeps {e fibre lambda bits} : RowKeeps s (execFrameReceive e fibre lambda bits s) := by
  unfold execFrameReceive
  extract_lets _ _ _ _ _ _ _ word
  clear_value word
  refine .skip ?_
  split
  extract_lets s1 s2 _ s3 s4
  have counted : Frame everyPart s s1 := (State.modDir_frame ..).every
  have paused : Frame everyPart s s2 := Frame.ite (fun _ => (counted.onward (State.raiseWave_frame ..)).onward (State.pauseSlot_frame ..)) (fun _ => counted)
  have adapted : Frame everyPart s s3 := (paused.onward (State.modEngine_frame ..)).onward (State.adaptTaps_frame ..)
  have found : Frame everyPart s s4 :=
    Frame.ite (fun _ => (adapted.onward (State.modOeRing_frame ..)).onward (State.wrongChannel_frame ..)) (fun _ => adapted)
  split
  · exact .ite (.next found) (.next (found.onward (State.takeNewWord_frame ..)))
  · exact .next found

end Sys2Proof.Machine
end

section
/-! The rows of graphs, of kernels, of models and of sessions keep the form (O5). -/

set_option Elab.async false
namespace Sys2Proof.Machine
variable {s : State}

/-! ## Runs of graphs -/

@[simp] theorem execGraphLoad_rowKeeps {cid image} : RowKeeps s (execGraphLoad cid image s) := by
  refine .hostCommand (fun _ _ _ _ stops => nomatch stops) (fun c u h => Frame.ite (fun _ => .refl ..) (fun _ => ?_))
  split
  · exact Frame.ite (fun _ => h.onward (State.finishCmd_frame ..)) (fun _ => h.onward (State.finishCmd_frame ..))
  · split
    · exact h.onward (State.finishCmd_frame ..)
    · exact (State.finishCmd_frame ..).onto ((State.noteGen_frame ..).onto (h.onward (.of_shape rfl)))

@[simp] theorem execGraphRun_rowKeeps {cid binds participants} : RowKeeps s (execGraphRun cid binds participants s) := by
  unfold execGraphRun
  split
  · exact .of_frame (State.tryBegin_frame ..)
  · refine .next ((State.settleHeld_frame ..).onto (State.commandReading_frame (.refl ..) (fun c u v h stops => h.onward (graphRunStop_frame stops))
      (fun c u h => Frame.ite (fun _ => .refl ..) (fun _ => ?_)) (fun p _ => mem_everyPart p)))
    have stops {st : Status} {l : List (Nat × Nat × Nat)} : Frame everyPart s (u.finishCmd cid st l) := h.onward (State.finishCmd_frame ..)
    split
    · exact stops
    · split
      · exact stops
      · exact stops
      · exact stops
      · exact Frame.ite (fun _ => stops) (fun _ => (h.onward (State.addRun_frame ..)).onward (State.tryBegin_frame ..))

@[simp] theorem execCollectiveJoinTimeout_rowKeeps {cid} : RowKeeps s (execCollectiveJoinTimeout cid s) := by
  unfold execCollectiveJoinTimeout
  split
  · exact .stay
  · split
    · exact .next ((State.closeFailed_frame ..).onward (State.dropRequests_frame ..))
    · exact .stay

theorem rowKeeps_runMatrix {run op code residue f} : RowKeeps s (.next (s.runMatrix run op code residue f)) := .of_frame (State.runMatrix_frame ..)

theorem rowKeeps_runOp {run op code f} : RowKeeps s (.next (s.runOp run op code f)) := .of_frame (State.runOp_frame ..)

theorem rowKeeps_runCollective {run op code parts f} : RowKeeps s (.next (s.runCollective run op code parts f)) :=
  .of_frame (State.runCollective_frame ..)

@[simp] theorem execBroadcast_rowKeeps {run op root} : RowKeeps s (execBroadcast run op root s) := by
  unfold execBroadcast
  split
  · exact .stay
  · split
    · exact .next ((State.sendParts_frame ..).onward (State.runOp_frame ..))
    · exact .next ((State.sendParts_frame ..).onward (State.runOp_frame ..))
    · exact .of_frame (State.sendParts_frame ..)

@[simp] theorem execRecordMerge_rowKeeps {run op elem record} : RowKeeps s (execRecordMerge run op elem record s) := by
  unfold execRecordMerge
  split
  · exact .stay
  · split
    · exact .stay
    · split
      · exact .stay
      · exact .ite (.ite (.of_frame (State.opFailed_frame ..)) (.of_frame (State.modRun_frame ..))) (.of_frame (State.recordSuspect_frame ..))

/-! ## Kernels -/

theorem State.globalFails_frame (x : KCtx) (src : Nat) (l : List Extent) (s : State) : Frame everyPart s (s.globalFails x src l) :=
  (State.reportAccess_frame ..).onward (State.failWork_frame ..)

@[simp] theorem execKernelLoad_rowKeeps {cid image} : RowKeeps s (execKernelLoad cid image s) := by
  refine .hostCommand (fun _ _ _ _ stops => nomatch stops) (fun c u h => Frame.ite (fun _ => .refl ..) (fun _ => ?_))
  split
  · exact h.onward (State.finishCmd_frame ..)
  · split
    · exact h.onward (State.finishCmd_frame ..)
    · exact (State.finishCmd_frame ..).onto ((State.noteGen_frame ..).onto (h.onward (.of_shape rfl)))

@[simp] theorem execKernelLaunch_rowKeeps {cid slots params} : RowKeeps s (execKernelLaunch cid slots params s) := by
  unfold execKernelLaunch
  split
  · exact .of_frame (State.beginLaunch_frame ..)
  · refine .hostCommand (fun c u v h stops => h.onward (launchStop_frame stops)) (fun c u h => Frame.ite (fun _ => .refl ..) (fun _ => ?_))
    have fails {st : Status} : Frame everyPart s (u.finishCmd cid st []) := h.onward (State.finishCmd_frame ..)
    split
    · exact fails
    · exact Frame.ite (fun _ => fails) (fun _ => Frame.ite (fun _ => fails)
        (fun _ => (h.onward (State.addLaunch_frame ..)).onward (State.beginLaunch_frame ..)))

@[simp] theorem execKernelTimeLimit_rowKeeps {cid} : RowKeeps s (execKernelTimeLimit cid s) := by
  unfold execKernelTimeLimit
  split
  · exact .only (.next ((State.kernelError_frame ..).onward (State.spend_frame ..)))
  · exact .stay

@[simp] theorem execKernelNop_rowKeeps {w} : RowKeeps s (execKernelNop w s) := .kernel fun _ _ => (State.advance_frame ..).every

@[simp] theorem execBra_rowKeeps {w} : RowKeeps s (execBra w s) :=
  .kernel fun _ _ => Frame.ite (fun _ => (State.putWarp_frame ..).every)
    (fun _ => Frame.ite (fun _ => (State.kernelFault_frame ..).every) (fun _ => (State.putWarp_frame ..).every))

@[simp] theorem execJoin_rowKeeps {w} : RowKeeps s (execJoin w s) := .kernel fun _ _ => (State.putWarp_frame ..).every

@[simp] theorem execExit_rowKeeps {w} : RowKeeps s (execExit w s) := .kernel fun _ _ => (State.putWarp_frame ..).onward (State.settleCluster_frame ..)

@[simp] theorem execBar_rowKeeps {w} : RowKeeps s (execBar w s) := .kernel fun _ _ => (State.putWarp_frame ..).onward (State.settleCluster_frame ..)

@[simp] theorem execFence_rowKeeps {w} : RowKeeps s (execFence w s) := .kernel fun _ _ => (State.advance_frame ..).every

@[simp] theorem execSreg_rowKeeps {w} : RowKeeps s (execSreg w s) := .kernel fun _ _ => (State.advance_frame ..).every

@[simp] theorem execIntOp_rowKeeps {w op} : RowKeeps s (execIntOp w op s) := .kernel fun _ _ => (State.advance_frame ..).every

@[simp] theorem execFpOp_rowKeeps {w op} : RowKeeps s (execFpOp w op s) := .kernel fun _ _ => (State.advance_frame ..).every

@[simp] theorem execCvt_rowKeeps {w src dst} : RowKeeps s (execCvt w src dst s) := .kernel fun _ _ => (State.advance_frame ..).every

@[simp] theorem execCvtBlk_rowKeeps {w} : RowKeeps s (execCvtBlk w s) :=
  .kernel fun _ _ => Frame.ite (fun _ => (State.kernelFault_frame ..).every) (fun _ => (State.spaceWrite_frame ..).every)

@[simp] theorem execLd_rowKeeps {w} : RowKeeps s (execLd w s) :=
  .kernel fun _ _ => State.access_frame (.refl ..) (fun _ h => h.onward (State.advance_frame ..)) (fun p _ => mem_everyPart p)

@[simp] theorem execSt_rowKeeps {w} : RowKeeps s (execSt w s) :=
  .kernel fun _ _ => State.access_frame (.refl ..) (fun _ h => h.onward (State.spaceWrite_frame ..)) (fun p _ => mem_everyPart p)

@[simp] theorem execAtom_rowKeeps {w op} : RowKeeps s (execAtom w op s) :=
  .kernel fun _ _ => Frame.ite (fun _ => (State.kernelFault_frame ..).every)
    (fun _ => State.access_frame (.refl ..) (fun _ h => h.onward (State.spaceWrite_frame ..)) (fun p _ => mem_everyPart p))

@[simp] theorem execMemCopy_rowKeeps {w} : RowKeeps s (execMemCopy w s) :=
  .kernel fun _ _ => Frame.ite (fun _ => (State.kernelFault_frame ..).every)
    (fun _ => Frame.ite (fun _ => (State.kernelFault_frame ..).every) (fun _ => (State.advance_frame ..).every))

@[simp] theorem execMemCopyDone_rowKeeps {w copy} : RowKeeps s (execMemCopyDone w copy s) := by
  unfold execMemCopyDone
  split
  · exact .stay
  · split
    · exact .stay
    · refine .skip ?_
      split
      · exact .next (State.globalFails_frame ..)
      · exact .next ((State.settleCluster_frame ..).onto (Frame.ite (fun _ => (State.touch_frame ..).onward (State.spaceWrite_frame ..))
          (fun _ => (State.spaceWrite_frame ..).every)))

@[simp] theorem execWaitCopy_rowKeeps {w} : RowKeeps s (execWaitCopy w s) :=
  .kernel fun _ _ => Frame.ite (fun _ => (State.advance_frame ..).every) (fun _ => .refl ..)

@[simp] theorem execMma_rowKeeps {w residue} : RowKeeps s (execMma w residue s) := by
  refine .kernel fun x _ => ?_
  have fault {code : Nat} : Frame everyPart s (s.kernelFault x code) := (State.kernelFault_frame ..).every
  refine Frame.ite (fun _ => fault) (fun _ => ?_)
  split
  · exact fault
  · exact fault
  · split
    · exact fault
    · refine Frame.ite (fun _ => fault) (fun _ => ?_)
      dsimp only
      split
      · exact (State.residueEvents_frame ..).onward (State.putTile_frame ..)
      · exact (State.putTile_frame ..).every

@[simp] theorem execAccZero_rowKeeps {w} : RowKeeps s (execAccZero w s) :=
  .kernel fun _ _ => Frame.ite (fun _ => (State.putTile_frame ..).every) (fun _ => (State.kernelFault_frame ..).every)

@[simp] theorem execAccStore_rowKeeps {w} : RowKeeps s (execAccStore w s) := by
  refine .kernel fun x _ => ?_
  split
  · exact (State.kernelFault_frame ..).every
  · exact Frame.ite (fun _ => (State.kernelFault_frame ..).every)
      (fun _ => Frame.ite (fun _ => (State.recordEvent_frame ..).onward (State.spaceWrite_frame ..)) (fun _ => (State.spaceWrite_frame ..).every))

@[simp] theorem execAccExport_rowKeeps {w} : RowKeeps s (execAccExport w s) := by
  refine .kernel fun x _ => ?_
  dsimp only
  split
  · exact (State.kernelFault_frame ..).every
  · exact Frame.ite (fun _ => (State.kernelFault_frame ..).every) (fun _ => (State.spaceWrite_frame ..).every)

@[simp] theorem execAccMerge_rowKeeps {w} : RowKeeps s (execAccMerge w s) := by
  refine .kernel fun x _ => ?_
  split
  · exact (State.kernelFault_frame ..).every
  · exact Frame.ite (fun _ => (State.kernelFault_frame ..).every)
      (fun _ => Frame.ite (fun _ => (State.putTile_frame ..).every) (fun _ => (State.recordEvent_frame ..).onward (State.putTile_frame ..)))

@[simp] theorem execAccDeposit_rowKeeps {w} : RowKeeps s (execAccDeposit w s) := by
  refine .kernel fun x _ => ?_
  dsimp only
  split
  · exact (State.kernelFault_frame ..).every
  · exact Frame.ite (fun _ => (State.kernelFault_frame ..).every)
      (fun _ => (State.putTile_frame ..).onto (Frame.ite (fun _ => (State.laneEvent_frame ..).every) (fun _ => .refl ..)))

/-! ## Models -/

/-- Copies in the CXL tier, where a load asks for them (R239). -/
theorem copied_frame {copy : Prop} [Decidable copy] {i epoch : Nat} {u v : State} (h : Frame everyPart s u)
    (placed : (if copy then u.placeCopies i epoch else some u) = some v) : Frame everyPart s v := by
  split at placed
  · exact h.onward (State.placeCopies_frame placed)
  · exact Option.some.inj placed ▸ h

@[simp] theorem execModelLoad_rowKeeps {cid manifest weights} : RowKeeps s (execModelLoad cid manifest weights s) := by
  refine .hostCommand (fun c u v h stops => ?_) (fun c u h => Frame.ite (fun _ => .refl ..) (fun _ => ?_))
  · split at stops
    · exact Option.some.inj stops ▸ .refl ..
    · split at stops
      · exact Option.some.inj stops ▸ h.onward (State.loadFails_frame ..)
      · cases stops
  · have fails {st : Status} {err : Nat} : Frame everyPart s (u.loadFails cid st err) := h.onward (State.loadFails_frame ..)
    split
    · exact fails
    · split
      · exact fails
      next i _ _ mf _ =>
        have claimed := h.onward (State.claimSlot_frame i c manifest mf u)
        have loaded {v w : State} (hv : Frame everyPart s v) (same : w.shape = v.shape) {st : Status} {l : List (Nat × Nat × Nat)} {waits : Prop}
            [Decidable waits] : Frame everyPart s (if waits then u else w.assignStreams.finishCmd cid st l) :=
          Frame.ite (fun _ => h) (fun _ => (State.finishCmd_frame ..).onto ((State.assignStreams_frame w).onto (hv.onward (.of_shape same))))
        dsimp only
        split
        next v fits =>
          split
          · exact fails
          next copied => exact loaded (copied_frame (claimed.onward (placeModel_fits fits)) copied) (by rfl)
        next v spills =>
          split
          · exact fails
          next copied => exact loaded (copied_frame (claimed.onward (placeModel_spilled spills)) copied) (by rfl)
        · exact fails

@[simp] theorem execModelLoadStage_rowKeeps {cid manifest weights} : RowKeeps s (execModelLoadStage cid manifest weights s) := by
  refine .hostCommand (fun c u v h stops => ?_) (fun c u h => Frame.ite (fun _ => .refl ..) (fun _ => ?_))
  · split at stops
    · exact Option.some.inj stops ▸ .refl ..
    · split at stops
      · exact Option.some.inj stops ▸ h.onward (State.loadFails_frame ..)
      · split at stops
        · exact Option.some.inj stops ▸ h.onward (State.loadFails_frame ..)
        · cases stops
  · have fails {st : Status} {err : Nat} : Frame everyPart s (u.loadFails cid st err) := h.onward (State.loadFails_frame ..)
    split
    · exact fails
    · split
      · exact fails
      · exact fails
      · dsimp only
        split
        · exact fails
        next placed =>
          obtain ⟨v, each, copied⟩ := Option.bind_eq_some_iff.mp placed
          have staged := (h.onward (State.modModel_frame ..)).onward (placeEach_frame (fun _ _ _ => State.placeLocal_frame) each)
          refine Frame.ite (fun _ => h) (fun _ => (State.finishCmd_frame ..).onto ((State.assignStreams_frame _).onto ?_))
          exact copied_frame staged copied

@[simp] theorem execModelUnload_rowKeeps {cid} : RowKeeps s (execModelUnload cid s) := by
  refine .command fun c u h => ?_
  split
  · exact h.onward (State.finishCmd_frame ..)
  · exact Frame.ite (fun _ => h.onward (State.finishCmd_frame ..))
      (fun _ => ((h.onward (State.modModel_frame ..)).onward (State.assignStreams_frame _)).onward (State.finishCmd_frame ..))

@[simp] theorem execModelEpochCommit_rowKeeps {cid} : RowKeeps s (execModelEpochCommit cid s) := by
  refine .command fun c u h => ?_
  have fails {st : Status} : Frame everyPart s (u.finishCmd cid st []) := h.onward (State.finishCmd_frame ..)
  split
  · exact fails
  · exact Frame.ite (fun _ => fails) (fun _ => Frame.ite (fun _ => fails) (fun _ => Frame.ite (fun _ => fails)
      (fun _ => ((h.onward (State.modModel_frame ..)).onward (State.settleEpoch_frame ..)).onward (State.finishCmd_frame ..))))

@[simp] theorem execModelQuery_rowKeeps {cid} : RowKeeps s (execModelQuery cid s) := by
  refine .command fun c u h => ?_
  split <;> exact h.onward (State.finishCmd_frame ..)

/-! ## Sessions and migrations -/

@[simp] theorem execSessionOpen_rowKeeps {cid} : RowKeeps s (execSessionOpen cid s) := by
  refine .command fun c u h => ?_
  have shared := h.onward (State.setShare_frame u)
  have fails {st : Status} : Frame everyPart s (u.setShare.finishCmd cid st []) := shared.onward (State.finishCmd_frame ..)
  dsimp only
  split
  · exact fails
  · refine Frame.ite (fun _ => fails) (fun _ => Frame.ite (fun _ => fails) (fun _ => ?_))
    split
    · exact fails
    · refine Frame.ite (fun _ => fails) (fun _ => ?_)
      exact (State.finishCmd_frame ..).onto ((State.spend_frame ..).onto ((State.noteGen_frame ..).onto (shared.onward (.of_shape rfl))))

@[simp] theorem execSessionClose_rowKeeps {cid} : RowKeeps s (execSessionClose cid s) :=
  .sessionCommand fun _ _ _ h => (h.onward (State.freeSession_frame ..)).onward (State.finishCmd_frame ..)

@[simp] theorem execPrefill_rowKeeps {cid binds} : RowKeeps s (execPrefill cid binds s) := .of_frame (State.stepCommand_frame ..)

@[simp] theorem execPrefillRebuild_rowKeeps {cid binds} : RowKeeps s (execPrefillRebuild cid binds s) := .of_frame (State.stepCommand_frame ..)

@[simp] theorem execDecode_rowKeeps {cid binds} : RowKeeps s (execDecode cid binds s) := .of_frame (State.stepCommand_frame ..)

@[simp] theorem execSessionSnapshot_rowKeeps {cid} : RowKeeps s (execSessionSnapshot cid s) :=
  .sessionCommand fun _ _ _ h => h.onward (State.snapshot_frame ..)

@[simp] theorem execSessionRestore_rowKeeps {cid image} : RowKeeps s (execSessionRestore cid image s) := by
  unfold execSessionRestore
  split
  · exact .stay
  · refine .next (Frame.ite (fun _ => .refl ..) (fun _ => State.commandReading_frame (.refl ..) (fun c u v h stops => ?_) (fun c u h => ?_)
      (fun p _ => mem_everyPart p)))
    · split at stops
      · exact Option.some.inj stops ▸ h.onward (State.failCmd_frame ..)
      · cases stops
    · have fails : Frame everyPart s (u.failCmd cid .badDescriptor 0) := h.onward (State.failCmd_frame ..)
      refine Frame.ite (fun _ => .refl ..) (fun _ => ?_)
      split
      · exact fails
      · refine Frame.ite (fun _ => h.onward (State.restore_frame ..)) (fun _ => ?_)
        split
        · exact fails
        · refine Frame.ite (fun _ => fails) (fun _ => Frame.ite (fun _ => h) (fun _ => ?_))
          cases failed : u.badAccessBy cid true _ with
          | some v => exact h.onward (State.badAccessBy_frame failed)
          | none => exact (h.onward (State.touch_frame ..)).onward (State.restore_frame ..)

@[simp] theorem execSessionMigrate_rowKeeps {cid} : RowKeeps s (execSessionMigrate cid s) := by
  unfold execSessionMigrate
  split
  · refine .next (Frame.ite (fun _ => .refl ..) (fun _ => ?_))
    split
    · exact (State.sendImage_frame ..).every
    · exact .refl ..
  · exact .sessionCommand fun _ _ _ h => h.onward (.of_shape rfl)

@[simp] theorem execSessionRestoreRemote_rowKeeps {cid} : RowKeeps s (execSessionRestoreRemote cid s) := by
  unfold execSessionRestoreRemote
  split
  · exact .of_frame (State.modMig_frame ..)
  · split
    · exact .stay
    · refine .next (Frame.ite (fun _ => .refl ..) (fun _ => ?_))
      refine State.command_frame (.refl ..) (fun c u h => ?_) (fun p _ => mem_everyPart p)
      split
      · exact h.onward (State.failCmd_frame ..)
      · exact h.onward (.of_shape rfl)

@[simp] theorem execMigrationJoinTimeout_rowKeeps {cid} : RowKeeps s (execMigrationJoinTimeout cid s) := by
  unfold execMigrationJoinTimeout
  split
  · exact .next (Frame.ite (fun _ => .refl ..) (fun _ => (State.undoMigrate_frame ..).every))
  · exact .next (Frame.ite (fun _ => .refl ..) (fun _ => (State.discardTarget_frame ..).every))
  · exact .stay

@[simp] theorem execMigrationImageReceived_rowKeeps {cid image} : RowKeeps s (execMigrationImageReceived cid image s) := by
  unfold execMigrationImageReceived
  split
  · exact .stay
  · have shared := (State.caskWork_frame cid s).onward (State.setShare_frame _)
    refine .next (Frame.ite (fun _ => .refl ..) (fun _ => Frame.ite (fun _ => ?_) (fun _ => ?_)))
    · exact (shared.onward (State.sendCtrl_frame ..)).onward (State.discardTarget_frame ..)
    · split
      next restored =>
        exact Frame.ite (fun _ => .refl ..)
          (fun _ => ((shared.onward (restoreImage_frame restored)).onward (State.modMig_frame ..)).onward (State.sendCtrl_frame ..))
      · exact (shared.onward (State.sendCtrl_frame ..)).onward (State.discardTarget_frame ..)

@[simp] theorem execMigrationReady_rowKeeps {cid} : RowKeeps s (execMigrationReady cid s) := .of_frame (State.migrateReady_frame ..)

@[simp] theorem execMigrationRefusal_rowKeeps {cid status} : RowKeeps s (execMigrationRefusal cid status s) := .of_frame (State.migrateRefused_frame ..)

@[simp] theorem execMigrationCommit_rowKeeps {cid} : RowKeeps s (execMigrationCommit cid s) := .of_frame (State.migrateCommit_frame ..)

@[simp] theorem execMigrationDone_rowKeeps {cid} : RowKeeps s (execMigrationDone cid s) := .of_frame (State.migrateDone_frame ..)

@[simp] theorem execMigrationDoneTimeout_rowKeeps {cid} : RowKeeps s (execMigrationDoneTimeout cid s) := by
  unfold execMigrationDoneTimeout
  split
  · exact .stay
  · exact .next (Frame.ite (fun _ => (State.endMigrate_frame ..).every) (fun _ => .refl ..))

@[simp] theorem execMigrationCommitResend_rowKeeps {session} : RowKeeps s (execMigrationCommitResend session s) := by
  unfold execMigrationCommitResend
  split
  · exact .stay
  · exact .next (Frame.ite (fun _ => (State.sendCtrl_frame ..).every) (fun _ => .refl ..))

@[simp] theorem execMigrationTargetTimeout_rowKeeps {cid} : RowKeeps s (execMigrationTargetTimeout cid s) := by
  unfold execMigrationTargetTimeout
  split
  · exact .stay
  · exact .next (Frame.ite (fun _ => (State.discardTarget_frame ..).every) (fun _ => .refl ..))

end Sys2Proof.Machine
end

section
/-! The rows of transactions, of heat and power, of faults and flashes, of stream check units and of the sideband keep the form (O5). -/

set_option Elab.async false
namespace Sys2Proof.Machine
variable {s : State}

/-! ## Transactions -/

@[simp] theorem execTransactionRequest_rowKeeps {e message} : RowKeeps s (execTransactionRequest e message s) := by
  have taken := State.takeDelivered_frame e message s
  exact .skip (.ite (.next (taken.onward (State.protocol_frame ..))) (.ite (.of_frame taken) (.ite (.next (taken.onward (State.transit_frame ..)))
    (.skip (.next (taken.onward (State.takeRequest_frame ..)))))))

@[simp] theorem execTransactionResponse_rowKeeps {message} : RowKeeps s (execTransactionResponse message s) := by
  unfold execTransactionResponse
  extract_lets at_ e t
  clear_value at_
  have taken : Frame everyPart s t := by
    unfold t
    split
    · exact (State.takeDelivered_frame ..).every
    · exact .refl ..
  exact .ite (.next (Frame.ite (fun _ => taken.onward (State.protocol_frame ..)) (fun _ => taken))) (.ite (.next taken)
    (.ite (.next (taken.onward (State.transit_frame ..))) (.only (.next (taken.onward (State.takeResponse_frame ..))))))

@[simp] theorem execRequestTimeout_rowKeeps {slot} : RowKeeps s (execRequestTimeout slot s) := by
  unfold execRequestTimeout
  split
  · exact .stay
  · exact .next ((State.endRequest_frame ..).onward (State.requestFails_frame ..))

@[simp] theorem execRequestRetry_rowKeeps {slot} : RowKeeps s (execRequestRetry slot s) := by
  unfold execRequestRetry
  split
  · exact .stay
  · exact .next (Frame.ite (fun _ => (State.modRequest_frame ..).onward (State.sendMsg_frame ..)) (fun _ => .refl ..))

@[simp] theorem execCacheEntryExpiry_rowKeeps {unit source slot} : RowKeeps s (execCacheEntryExpiry unit source slot s) := .next (.of_shape rfl)

@[simp] theorem execLeaseKeepalive_rowKeeps {source operand} : RowKeeps s (execLeaseKeepalive source operand s) := .of_frame (State.keepalive_frame ..)

@[simp] theorem execLeaseExpiry_rowKeeps {source} : RowKeeps s (execLeaseExpiry source s) :=
  .next ((State.releaseLeases_frame source s).onward (.of_shape rfl))

@[simp] theorem execLeaseKeepaliveSend_rowKeeps : RowKeeps s (execLeaseKeepaliveSend s) :=
  .only (.next (Frame.foldl (fun _ _ h => h.onward (State.request_frame ..)) _ (.refl ..)))

/-! ## Heat, power and ageing -/

@[simp] theorem execSensorSample_rowKeeps {die readings} : RowKeeps s (execSensorSample die readings s) := by
  have judged {f : Nat → SensorRef} {l : List Nat} {t : State} (h : Frame everyPart s t) :
      Frame everyPart s (l.foldl (fun u k => u.sensorFails (f k)) t) := Frame.foldl (fun _ _ k => k.onward (State.sensorFails_frame ..)) l h
  unfold execSensorSample
  dsimp only
  refine .skip ?_
  split
  · exact .skip (.next (judged (State.modTile_frame ..).every))
  · exact .next (judged (.of_shape rfl))
  · exact .next (judged (State.modEngine_frame ..).every)

@[simp] theorem execThermalCeilingUpdate_rowKeeps {site} : RowKeeps s (execThermalCeilingUpdate site s) :=
  .ite (.next (((State.modTile_frame ..).onward (State.raise_frame ..)).onward (State.raiseCause_frame ..))) (.of_frame (State.modTile_frame ..))

@[simp] theorem execIssueRateStep_rowKeeps {site} : RowKeeps s (execIssueRateStep site s) := .skip (.of_frame (State.modTile_frame ..))

@[simp] theorem execPowerTelemetrySample_rowKeeps {watts ok} : RowKeeps s (execPowerTelemetrySample watts ok s) := by
  unfold execPowerTelemetrySample
  extract_lets _ s1 s2 p fast _ s3 s4
  have sampled : Frame everyPart s s1 := .of_shape rfl
  have reported : Frame everyPart s s2 := Frame.ite (fun _ => sampled.onward (State.raise_frame ..)) (fun _ => sampled)
  have limited : Frame everyPart s s3 := reported.onward (.of_shape rfl)
  have warned : Frame everyPart s s4 := Frame.ite (fun _ => limited.onward (State.raise_frame ..)) (fun _ => limited)
  exact .ite (.next (warned.onward (State.setCeiling_frame ..))) (.next warned)

@[simp] theorem execPowerLoop_rowKeeps {meanWatts} : RowKeeps s (execPowerLoop meanWatts s) := .next ((State.setCeiling_frame ..).onto (.of_shape rfl))

@[simp] theorem execTripSensorPoll_rowKeeps {hottest} : RowKeeps s (execTripSensorPoll hottest s) := .skip (.next (.of_shape rfl))

@[simp] theorem execThermalShutdown_rowKeeps {sensor reading} : RowKeeps s (execThermalShutdown sensor reading s) := by
  unfold execThermalShutdown
  extract_lets src s1 s2
  have ended : Frame everyPart s s2 :=
    (((State.raiseCause_frame ..).onward (State.captureOnly_frame ..)).onward (State.endAll_frame ..)).onward (State.shutDown_frame ..)
  exact .skip (.next (ended.trans (Frame.upd (.refl _ s2))))

@[simp] theorem execFlashWritesRefused_rowKeeps : RowKeeps s (execFlashWritesRefused s) := by
  unfold execFlashWritesRefused
  split
  · exact .only (.next ((State.raise_frame ..).onto (.of_shape rfl)))
  · exact .stay

@[simp] theorem execFlashWritesAllowed_rowKeeps : RowKeeps s (execFlashWritesAllowed s) := by
  unfold execFlashWritesAllowed
  split
  · refine .only (.next ((State.reportDropped_frame _).onto (Frame.foldl (fun _ _ h => h.onward (State.commitRecord_frame ..)) _ ?_)))
    refine Frame.foldl (fun _ _ h => h.onward (State.putMirror_frame ..)) _ ?_
    exact Frame.ite (fun _ => (State.reserveBatch_frame _).onto (.of_shape rfl)) (fun _ => .of_shape rfl)
  · exact .stay

@[simp] theorem execAgeingPoint_rowKeeps {die slowdown} : RowKeeps s (execAgeingPoint die slowdown s) := .skip (.of_frame (State.agePoint_frame ..))

@[simp] theorem execOpticalPoint_rowKeeps {e r point} : RowKeeps s (execOpticalPoint e r point s) := by
  refine .skip (.next ((State.predictLaser_frame ..).onto ((State.predict_frame ..).onto ?_)))
  refine Frame.ite (fun _ => (State.foresee_frame ..).onto ?_) (fun _ => ?_)
  all_goals exact (State.modOeRing_frame ..).onward (State.putMirror_frame ..)

/-! ## Faults and flashes -/

@[simp] theorem execFaultCapture_rowKeeps {events} : RowKeeps s (execFaultCapture events s) := by
  refine .skip (.next (Frame.foldl (fun _ _ h => h.onward (State.firmwareEvent_frame ..)) _ ((State.capture_frame ..).onto ?_)))
  exact Frame.foldl (fun _ _ h => h.onward (State.firmwareEvent_frame ..)) _
    (Frame.ite (fun _ => (State.aerError_frame ..).every) (fun _ => .refl ..))

@[simp] theorem execFaultStateRestExpiry_rowKeeps {resource} : RowKeeps s (execFaultStateRestExpiry resource s) := by
  unfold execFaultStateRestExpiry
  dsimp only
  split
  · exact .stay
  · refine .skip (.ite (.next ?_) (.ite (.next ((State.retire_frame ..).onto ((State.recordRecovery_frame ..).onto ?_)))
      (.next ((State.recordRecovery_frame ..).onto ?_))))
    all_goals exact (State.coreBack_frame ..).onto ((State.sensorBack_frame ..).onto (.of_shape rfl))

@[simp] theorem execLogRecordTimeout_rowKeeps : RowKeeps s (execLogRecordTimeout s) := .only (.of_frame (State.commitOpen_frame _))

@[simp] theorem execFlashOpDone_rowKeeps {flash ok} : RowKeeps s (execFlashOpDone flash ok s) := by
  unfold execFlashOpDone
  dsimp only
  split
  · exact .stay
  · exact .skip (.ite (.of_frame (State.opDone_frame ..)) (.ite (.next ((State.modFlash_frame ..).onward (State.raise_frame ..)))
      (.of_frame (State.failFlash_frame ..))))

/-! ## Stream check units and the sideband -/

@[simp] theorem execScuEnable_rowKeeps {u value} : RowKeeps s (execScuEnable u value s) := .of_frame (State.writeScuCtrl_frame ..)

@[simp] theorem execScuDisable_rowKeeps {u} : RowKeeps s (execScuDisable u s) := .only (.of_frame (State.stopScu_frame ..))

@[simp] theorem execScuRecordClose_rowKeeps {u bytes ok overrun} : RowKeeps s (execScuRecordClose u bytes ok overrun s) := by
  refine .skip (.ite (.next ((closeFixed_frame ..).onto ?_)) (.next ((State.closeRecord_frame ..).onto ?_)))
  all_goals exact Frame.ite (fun _ => (State.modScu_frame ..).onward (State.scuCondition_frame ..)) (fun _ => .refl ..)

@[simp] theorem execScuResultRead_rowKeeps {u} : RowKeeps s (execScuResultRead u s) := by
  unfold execScuResultRead
  split
  · exact .next ((State.modScu_frame u (fun x => { x with info := 0 }) s).onward (.of_shape rfl))
  next e l _ => exact .next ((State.modScu_frame u (fun x => { x with fifo := l, info := e.info }) s).onward (.of_shape rfl))

@[simp] theorem execSmbusBlockRead_rowKeeps {code} : RowKeeps s (execSmbusBlockRead code s) := .next (.of_shape rfl)

@[simp] theorem execI3cPrivateRead_rowKeeps {code} : RowKeeps s (execI3cPrivateRead code s) := .next (.of_shape rfl)

@[simp] theorem execSmbusAlertResponse_rowKeeps : RowKeeps s (execSmbusAlertResponse s) := .ite (.next (.of_shape rfl)) (.next (.of_shape rfl))

@[simp] theorem execSidebandRefresh_rowKeeps : RowKeeps s (execSidebandRefresh s) := .only (.next (.of_shape rfl))

@[simp] theorem execStandbySupplyLoss_rowKeeps : RowKeeps s (execStandbySupplyLoss s) := .next (.of_shape rfl)

@[simp] theorem execStandbySupplyReturn_rowKeeps : RowKeeps s (execStandbySupplyReturn s) := .skip (.next (.of_shape rfl))

/-! ## Resets that leave the module down (R346, R531, R533) -/

/-- A warm reset, and a module reset that is no RESTART, keep the state of being down, and a stop. -/
theorem State.softReset_every (kind : ResetKind) (keepLink : Bool) (s : State) : Frame everyPart s (s.softReset kind keepLink false) := by
  have boot := (State.softReset_starts kind keepLink false s).boot
  refine ⟨fun stopped => ?_, fun down => ?_, fun p other => absurd (mem_everyPart p) other, fun p other => absurd (mem_everyPart p) other,
    (State.softReset_keeps ..).inv⟩
  · rw [(State.softReset_view kind keepLink false s).stopped, stopped, Bool.true_or]
  · have rebuilt : (s.rebuilt kind keepLink false).boot.down = s.boot.down := rfl
    exact (congrArg Boot.down boot :).trans (by simp [Boot.afterQuorum, rebuilt, down])

@[simp] theorem execWarmReset_rowKeeps : RowKeeps s (execWarmReset s) :=
  .ite (.next ((State.softReset_every ..).onto (.of_shape rfl))) (.next (.of_shape rfl))

@[simp] theorem execFunctionLevelReset_rowKeeps : RowKeeps s (execFunctionLevelReset s) := .skip (.next (State.softReset_every ..))

/-- A command that completes keeps the form and the state of being down, or it is a RESTART, and the module reset that it asked for follows (R346). -/
theorem execCommandComplete_cases (cid : Nat) (s : State) : RowKeeps s (exec (.commandComplete cid) s)
    ∨ ∃ e u, cmdAt s cid = some e ∧ e.opcode = 0x7E ∧ Frame everyPart s u ∧ exec (.commandComplete cid) s = .next (u.softReset .module true true) := by
  have waits (same : execCommandComplete cid s = .next s) : RowKeeps s (exec (.commandComplete cid) s) := fun _ answers =>
    Host.Outcome.next.inj (same.symm.trans answers) ▸ .refl ..
  cases entry : cmdAt s cid with
  | none => exact .inl (waits (by simp [execCommandComplete, entry]))
  | some e =>
    cases done : e.done with
    | none => exact .inl (waits (by simp [execCommandComplete, entry, done]))
    | some d =>
      by_cases later : s.host.forcing = some cid ∧ s.host.cmds.length ≠ 1
      · exact .inl (waits (by simp [execCommandComplete, entry, done, later]))
      · have completes := exec_commandComplete_of_done entry done (by tauto)
        have left := State.leave_frame cid e (e.numbered s) d s
        by_cases restarts : e.opcode = 0x7E ∧ d.status = .ok
        · exact .inr ⟨e, _, rfl, restarts.1, left.every, completes.trans (congrArg Host.Outcome.next (if_pos restarts))⟩
        · rw [if_neg restarts] at completes
          exact .inl (completes ▸ .of_frame left)

end Sys2Proof.Machine
end

section
/-! Every command keeps the form (O5, O7): the rows that reset the module or take its power or clock away rebuild it, and the others keep it. -/

set_option Elab.async false
namespace Sys2Proof.Machine

/-- The rows that reset the module or take its power or clock away, as O7 lists them. -/
theorem row_of_coldRow {c : Instr} (cold : coldRow c) :
    (∃ a b d, c = .coldReset a b d) ∨ (∃ a b d, c = .tripRestart a b d) ∨ (∃ a b d, c = .inputRangeRestart a b d)
    ∨ (∃ a b d, c = .refclkRestored a b d) ∨ c = .powerDown ∨ c = .refclkLost ∨ c = .hubPllUnlock ∨ c = .overcurrentTrip ∨ c = .inputRangeTrip
    ∨ (∃ a b, c = .thermalTrip a b) ∨ (∃ a b, c = .backstopTrip a b) := by
  cases c
  case coldReset | tripRestart | inputRangeRestart | refclkRestored | powerDown | refclkLost | hubPllUnlock | overcurrentTrip | inputRangeTrip
      | thermalTrip | backstopTrip => simp
  all_goals exact False.elim cold

/-- Where the row answers a next state, that has the form. -/
def RowForms (o : Host.Outcome State Fault Refusal) : Prop := ∀ t, o = .next t → Inv t

theorem RowForms.next {t : State} (inv : Inv t) : RowForms (.next t) := fun _ e => Host.Outcome.next.inj e ▸ inv

theorem RowForms.ite {c : Prop} [Decidable c] {o p : Host.Outcome State Fault Refusal} (h : RowForms o) (k : RowForms p) :
    RowForms (if c then o else p) := by split <;> assumption

/-- The rows that reset the module or take its power or clock away rebuild the form of the state (R531, R562, R469, R490). -/
theorem exec_rowForms_of_coldRow {c : Instr} {s : State} (cold : coldRow c) (inv : Inv s) : RowForms (exec c s) := by
  have started {a b d} {u : State} (form : Inv u) : RowForms (.next (u.coldStart a b d)) := .next ((State.coldStart_keeps ..).inv form)
  have tripped {kind source reading} : Inv (s.trip kind source reading) := (State.trip_keeps ..).inv inv
  cases c
  case coldReset => exact started (inv.of_shape rfl)
  case powerDown => exact .next ((State.powerLost_keeps _).inv (inv.of_shape rfl))
  case refclkLost => exact .next ((State.loseTrip_frame _).inv ((State.clockLoss_keeps ..).inv (inv.of_shape rfl)))
  case refclkRestored => exact .ite (started (inv.of_shape rfl)) (.next (inv.of_shape rfl))
  case hubPllUnlock => exact .next ((State.clockLoss_keeps ..).inv inv)
  case overcurrentTrip => exact .next tripped
  case thermalTrip => exact .ite (.next inv) (.next tripped)
  case backstopTrip => exact .ite (.next inv) (.next tripped)
  case tripRestart => exact .ite (started inv) (.next inv)
  case inputRangeTrip => exact .next (tripped.of_shape rfl)
  case inputRangeRestart => exact .ite (started (inv.of_shape rfl)) (.next (inv.of_shape rfl))
  all_goals exact False.elim cold

/-- A row resets the module or takes its power or clock away, or it keeps the form and the state of being down, or it is the completion of a RESTART. -/
theorem exec_cases (c : Instr) (s : State) : coldRow c ∨ RowKeeps s (exec c s)
    ∨ ∃ cid e u, c = .commandComplete cid ∧ cmdAt s cid = some e ∧ e.opcode = 0x7E ∧ Frame everyPart s u
        ∧ exec c s = .next (u.softReset .module true true) := by
  cases c
  case coldReset | tripRestart | inputRangeRestart | refclkRestored | powerDown | refclkLost | hubPllUnlock | overcurrentTrip | inputRangeTrip
      | thermalTrip | backstopTrip => exact .inl trivial
  case commandComplete cid =>
    refine .inr ((execCommandComplete_cases cid s).imp_right ?_)
    rintro ⟨e, u, restart⟩
    exact ⟨cid, e, u, rfl, restart⟩
  case matmul | batchMatmul | attention => exact .inr (.inl rowKeeps_runMatrix)
  case allReduce | reduceScatter | allGather => exact .inr (.inl rowKeeps_runCollective)
  case add | sub | mul | div | fma | max | min | abs | neg | exp | log | sqrt | rsqrt | tanh | sigmoid | gelu | silu | clamp | reduceSum | reduceMax
      | reduceMin | softmax | layernorm | rmsnorm | convert | transpose | reshape | slice | concat | gather | hashPartition | sort | joinProbe
      | stringSimilarity | filter | tableGather | finalise => exact .inr (.inl rowKeeps_runOp)
  all_goals simp [exec]

/-- Every command keeps the form of the state. -/
theorem exec_inv {c : Instr} {s t : State} (next : exec c s = .next t) (inv : Inv s) : Inv t := by
  obtain cold | keeps | ⟨_, _, u, -, -, -, left, restarts⟩ := exec_cases c s
  · exact exec_rowForms_of_coldRow cold inv t next
  · exact (keeps t next).inv inv
  · exact Host.Outcome.next.inj (restarts.symm.trans next) ▸ (State.softReset_keeps ..).inv (left.inv inv)

/-- A module that is down and yet ready, which no state of the form is; nothing in the hypotheses of O6 shuts it out. -/
def downAndReady : State := { State.reset with boot := { State.reset.boot with down := true, ready := true } }

end Sys2Proof.Machine

section
open Sys2Proof Sys2Proof.Machine

/-- Settles O4: `reset_inv`. -/
theorem resetHasTheForm : Obligations.ResetHasTheForm := reset_inv

/-- Settles O5: a step on an empty queue changes none of it (`State.idle_frame`), and every command keeps it (`exec_inv`): the rows that reset the module
or take its power or clock away rebuild it, and every other row is made of operations whose frames keep it (`exec_cases`). -/
theorem everyStepKeepsTheForm : Obligations.EveryStepKeepsTheForm := by
  intro s t stepped inv
  unfold step at stepped
  split at stepped
  · exact Host.Outcome.next.inj stepped ▸ (State.idle_frame s).inv inv
  · exact exec_inv stepped (inv.of_shape rfl)

/-- Refutes O6: the clause is said of every state, and in one that is down and ready at once, which the form that O5 keeps shuts out, PERST_DEASSERT
leaves ready as it is. -/
theorem not_noCommandReadiesADownModule : ¬ Obligations.NoCommandReadiesADownModule := by
  intro unready
  have still : ({ downAndReady with pins := { downAndReady.pins with perst := false } } : State).boot.ready = false :=
    unready .perstDeassert downAndReady _ rfl rfl
  exact absurd still (by decide)

/-- Settles O7: a row that neither resets the module nor takes its power or clock away keeps the state of being down, unless it is the completion of a
RESTART (`exec_cases`). -/
theorem onlyRestartOrPowerEndsDown : Obligations.OnlyRestartOrPowerEndsDown := by
  intro c s t down next up
  obtain cold | keeps | ⟨cid, e, u, completes, entry, restart, -⟩ := exec_cases c s
  · exact .inr (row_of_coldRow cold)
  · exact absurd ((keeps t next).down down) (by simp [up])
  · exact .inl ⟨cid, completes, e, entry, restart⟩

end
end
section
/-! The test, log, settings, identity and power commands (Tables 11-11 to 11-15): each runs its body on the state in which it has started, and ends with
its result, or starts work that ends it later (O10). -/

set_option Elab.async false
namespace Sys2Proof.Machine

/-! ## Tests (R335-R339, R506, R508) -/

/-- A SELFTEST that acts runs the body of the row that its kind names. -/
theorem selftest_of_acts {s : State} {cid kind : Nat} {c : Cmd} (acts : Acts s cid 0x60 c) (names : c.arg 8 1 = kind) (body : Cmd → State → State) :
    s.selftest cid kind body = body c (s.startCmd cid) := by
  rw [State.selftest, acts.entry]
  exact (if_pos names).trans (acts.command body)

/-- The entry of a command that acts, once it has started. -/
theorem cmdAt_started {s t : State} {cid op : Nat} {c : Cmd} (acts : Acts s cid op c) (same : t.host.cmds = (s.startCmd cid).host.cmds) :
    (cmdAt t cid).map (·.started) = some true := by
  rw [cmdAt_of_cmds same, cmdAt_startCmd, acts.entry]
  rfl

/-- The state with the crypto block good again: what ends a full test that finds nothing. -/
def State.restoreCrypto (s : State) : State := { s with sec := { s.sec with cryptoOk := true } }

/-- A full test whose cells have drained, and which has found nothing, ends with the checks that it made (R506). -/
theorem execSelftestFull_passes {s : State} {cid ms : Nat} {c : Cmd} (acts : Acts s cid 0x60 c) (full : c.arg 8 1 = 1) (begun : c.started = true)
    (inTime : ms ≤ 500) (drained : ∀ n ∈ computeSites s, (tileAt s n).draining = false) :
    exec (.selftestFull cid ms { failures := [] }) s = .next (((s.startCmd cid).restoreCrypto.remapTiles).finishCmd cid .ok
      (selftestFields ((s.startCmd cid).restoreCrypto.remapTiles) (fullChecks s) 0 0xFFFF ms)) := by
  have none_ : (computeSites s).any (fun n => (tileAt s n).draining) = false := List.any_eq_false.mpr (fun n at_ => by simp [drained n at_])
  have none' : (computeSites (s.startCmd cid)).any (fun n => (tileAt (s.startCmd cid) n).draining) = false := none_
  show execSelftestFull cid ms _ s = _
  rw [execSelftestFull, selftest_of_acts acts full]
  simp only [begun, none', List.length_nil]
  rw [if_neg (by simp), if_neg (by simp; omega)]
  rfl

/-- The sites of a list start to drain. -/
theorem tileAt_foldl_startDrain {l : List Nat} {s : State} {n : Nat} (has : n < s.tiles.length)
    (which : n ∈ l ∨ (tileAt s n).draining = true) : (tileAt (l.foldl (fun u n => u.startDrain n) s) n).draining = true := by
  induction l generalizing s with
  | nil => simpa using which
  | cons k l ih =>
    refine ih (s := s.startDrain k) (by simpa [State.startDrain] using has) ?_
    rw [State.startDrain, tileAt_modTile]
    by_cases here : k = n
    · exact .inr (by rw [if_pos ⟨here, has⟩])
    · rw [if_neg (fun both => here both.1)]
      exact which.imp_left (fun h => (List.mem_cons.mp h).resolve_left (Ne.symm here))

/-- A full test that conflicts with no work in flight has every compute site drain (R336). -/
theorem execSelftestFull_begins {s : State} {cid : Nat} {c : Cmd} (acts : Acts s cid 0x60 c) (full : c.arg 8 1 = 1) (fresh : c.started = false)
    (closed : s.sessions = []) (idle : running (s.startCmd cid) cid [0x31, 0x33] = false) (alone : fullRunning (s.startCmd cid) cid = false)
    (ms : Nat) (found : SelftestFindings) :
    exec (.selftestFull cid ms found) s = .next ((computeSites s).foldl (fun u n => u.startDrain n) (s.startCmd cid)) := by
  have closed' : (s.startCmd cid).sessions = [] := closed
  show execSelftestFull cid ms found s = _
  rw [execSelftestFull, selftest_of_acts acts full]
  simp only [fresh, closed', idle, alone, List.isEmpty_nil, Bool.not_true, Bool.not_false, Bool.or_self, Bool.false_eq_true, if_false, if_true]
  rfl

/-- The state in which an engine is busy with no margin test. -/
def State.endMargin (e : Nat) (s : State) : State := s.modEngine e (fun x => { x with marginBusy := false })

theorem marginBusy_endMargin (e : Nat) (s : State) : (engineAt (s.endMargin e) e).marginBusy = false := by
  rw [State.endMargin, engineAt_modEngine]
  split
  · rfl
  · rename_i out
    have beyond : s.engines.length ≤ e := by simpa using out
    rw [engineAt, List.getD_eq_default _ _ beyond]
    rfl

@[simp] theorem marginRecord_length (rate b : Nat) (eye : Nat × Nat) : (marginRecord rate b eye).length = 8 := by
  simp [marginRecord, leBytes]

/-- The record of a margin test: eight bytes for each eye (R337). -/
theorem marginRecords_length {l : List Nat} {eyes : List (Nat × Nat)} (each : eyes.length = l.length) (rate : Nat) :
    ((l.zip eyes).flatMap (fun p => marginRecord rate p.1 p.2)).length = 8 * eyes.length := by
  simp only [List.length_flatMap, marginRecord_length, List.map_const', List.sum_replicate, List.length_zip, smul_eq_mul]
  omega

theorem execMarginTest_reports {s : State} {cid : Nat} {c : Cmd} {eyes : List (Nat × Nat)} (acts : Acts s cid 0x61 c) (begun : c.started = true)
    (each : eyes.length = (maskLambdas (c.arg 0x10 8)).length) :
    ∃ fields, exec (.marginTest cid eyes) s = .next (((s.startCmd cid).endMargin (c.arg 8 1)).finishWrites cid .ok fields
      [(c.arg 0x20 8, ((maskLambdas (c.arg 0x10 8)).zip eyes).flatMap (fun p => marginRecord (engineAt s (c.arg 8 1)).rx.rate p.1 p.2))]) := by
  show ∃ fields, execMarginTest cid eyes s = _
  rw [execMarginTest, acts.command]
  simp only [begun, each, ne_eq, not_true_eq_false, Bool.not_true, Bool.false_eq_true, if_false]
  exact ⟨_, rfl⟩

/-- The state with an inversion set at a source, or stopped there. -/
def State.setInjection (src mode : Nat) (s : State) : State :=
  { s with flt := { s.flt with inject := if mode = 0 then without (fun p => p.1 == src) s.flt.inject
                                         else (src, mode) :: without (fun p => p.1 == src) s.flt.inject } }

theorem lookupKey_setInjection (src mode : Nat) (s : State) :
    lookupKey src (s.setInjection src mode).flt.inject = if mode = 0 then none else some mode := by
  unfold State.setInjection
  dsimp only
  split
  · exact lookupKey_without ..
  · simp [lookupKey]

theorem execFaultInject_sets {s : State} {cid : Nat} {c : Cmd} (acts : Acts s cid 0x62 c) (known : injectable (c.arg 8 2) = true)
    (free : selftestRunning (s.startCmd cid) = false) (there : sourceGone s (c.arg 8 2) = false) :
    exec (.faultInject cid) s = .next (((s.startCmd cid).setInjection (c.arg 8 2) (c.arg 0xA 1)).finishCmd cid .ok
      [(0x14, 1, (lookupKey (c.arg 8 2) s.flt.inject).getD 0)]) := by
  have there' : sourceGone (s.startCmd cid) (c.arg 8 2) = false := there
  show execFaultInject cid s = _
  rw [execFaultInject, acts.command]
  simp only [known, free, there', Bool.not_true, Bool.false_eq_true, if_false]
  rfl

/-! ## The log (R340, R519) -/

theorem State.modFlash_startCmd (i : Nat) (f : Flash → Flash) (cid : Nat) (s : State) :
    (s.startCmd cid).modFlash i f = (s.modFlash i f).startCmd cid := by
  unfold State.modFlash
  split <;> rfl

theorem State.enqueueBoth_startCmd (op : FlashOp) (cid : Nat) (s : State) : (s.startCmd cid).enqueueBoth op = (s.enqueueBoth op).startCmd cid :=
  (ite_congr rfl (fun _ => State.modFlash_startCmd 1 _ cid s) (fun _ => State.modFlash_startCmd 0 _ cid s)).trans
    (apply_ite (State.startCmd cid) ..).symm

theorem State.putMirror_startCmd (m : Mirror) (cid : Nat) (s : State) : (s.startCmd cid).putMirror m = (s.putMirror m).startCmd cid := by
  refine .trans (ite_congr rfl (fun _ => ?_) (fun _ => ?_)) (apply_ite (State.startCmd cid) ..).symm
  · rfl
  · refine .trans (ite_congr rfl (fun _ => ?_) (fun _ => ?_)) (apply_ite (State.startCmd cid) ..).symm
    · rfl
    · exact State.enqueueBoth_startCmd _ cid { s with log := { s.log with held := addMirror m s.log.held } }

/-- A record is committed alike whether or not a command has started. -/
theorem State.commitRecord_startCmd (r : LogRec) (cid : Nat) (s : State) : (s.startCmd cid).commitRecord r = (s.commitRecord r).startCmd cid := by
  refine .trans (ite_congr rfl (fun _ => ?_) (fun _ => ?_)) (apply_ite (State.startCmd cid) ..).symm
  · rfl
  · refine .trans (ite_congr rfl (fun _ => ?_) (fun _ => ?_)) (apply_ite (State.startCmd cid) ..).symm
    · rfl
    · have headed (p : Prop) [Decidable p] (m : Mirror) :
          (if p then (s.startCmd cid).putMirror m else s.startCmd cid) = (if p then s.putMirror m else s).startCmd cid := by
        rw [State.putMirror_startCmd, apply_ite (State.startCmd cid)]
      dsimp only
      rw [headed, State.modFlash_startCmd]
      rfl

theorem State.commitOpen_startCmd (cid : Nat) (s : State) : (s.startCmd cid).commitOpen = s.commitOpen.startCmd cid := by
  unfold State.commitOpen
  rw [State.startCmd_ret]
  split
  · rfl
  · exact State.commitRecord_startCmd _ cid { s with ret := { s.ret with openRec := none } }

theorem State.modFlash_ret (i : Nat) (f : Flash → Flash) (s : State) : (s.modFlash i f).ret = s.ret := by
  unfold State.modFlash
  split <;> rfl

theorem State.putMirror_openRec (m : Mirror) (s : State) : (s.putMirror m).ret.openRec = s.ret.openRec := by
  unfold State.putMirror State.enqueueBoth
  dsimp only
  split
  · rfl
  · split
    · rfl
    · split <;> rw [State.modFlash_ret]

theorem State.commitRecord_openRec (r : LogRec) (s : State) : (s.commitRecord r).ret.openRec = s.ret.openRec := by
  unfold State.commitRecord
  split
  · rfl
  · split
    · rfl
    · dsimp only
      rw [State.modFlash_ret]
      split
      · exact State.putMirror_openRec ..
      · rfl

/-- A committed record is open no more. -/
theorem State.commitOpen_openRec (s : State) : s.commitOpen.ret.openRec = none := by
  unfold State.commitOpen
  split
  · assumption
  · exact State.commitRecord_openRec ..

theorem State.commitOpen_cmds (s : State) : s.commitOpen.host.cmds = s.host.cmds :=
  (State.commitOpen_frame s).exact (by decide) (p := .cmds) (by decide)

/-- The records that a LOG_READ picks: of the retained ring or the committed ones, from a number on, as many as asked for (R340). -/
def logPick (c : Cmd) (s : State) : List LogRec :=
  ((if bit 0 (c.arg 0x14 1) then s.ret.ring else committed s).filter (fun r => decide (c.arg 8 8 ≤ r.number))).take (c.arg 0x10 4)

/-- Where a LOG_READ puts the records that it picks. -/
def logWrites (c : Cmd) (s : State) : List (Nat × List Byte) :=
  if (logPick c s).isEmpty then [] else [(c.arg 0x18 8, (logPick c s).flatMap LogRec.bytes)]

/-- The state that a LOG_READ reads: with the open record committed, when it asks for that. -/
def State.logged (c : Cmd) (s : State) : State := if bit 1 (c.arg 0x14 1) then s.commitOpen else s

theorem State.logged_startCmd (c : Cmd) (cid : Nat) (s : State) : (s.startCmd cid).logged c = (s.logged c).startCmd cid := by
  unfold State.logged
  split
  · exact State.commitOpen_startCmd ..
  · rfl

theorem logWrites_startCmd (c : Cmd) (cid : Nat) (s : State) : logWrites c ((s.startCmd cid).logged c) = logWrites c (s.logged c) := by
  rw [State.logged_startCmd]
  rfl

theorem State.logged_cmds (c : Cmd) (s : State) : (s.logged c).host.cmds = s.host.cmds := by
  unfold State.logged
  split
  · exact State.commitOpen_cmds s
  · rfl

theorem execLogRead_reads {s : State} {cid : Nat} {c : Cmd} (acts : Acts s cid 0x70 c) (room : 32 * c.arg 0x10 4 ≤ c.arg 0x20 4) :
    ∃ fields, exec (.logRead cid) s = .next (((s.startCmd cid).logged c).finishWrites cid .ok fields (logWrites c ((s.startCmd cid).logged c))) := by
  show ∃ fields, execLogRead cid s = _
  rw [execLogRead, acts.command]
  dsimp only
  rw [if_neg (Nat.not_lt.mpr room)]
  exact ⟨_, rfl⟩

/-! ## Settings and identity (R341-R344, R513, R539-R542) -/

/-- An operation waits in the queue that it joins. -/
theorem mem_insertBy {α : Type} (lt : α → α → Bool) (x : α) (l : List α) : x ∈ insertBy lt x l := by
  induction l with
  | nil => exact List.mem_singleton_self x
  | cons y l ih =>
    rw [insertBy]
    split
    · exact List.mem_cons_self
    · exact List.mem_cons_of_mem _ ih

theorem Flash.mem_enqueue (op : FlashOp) (f : Flash) : op ∈ (f.enqueue op).queue := by
  unfold Flash.enqueue
  split
  · exact List.mem_singleton_self op
  · split
    · exact mem_insertBy ..
    · exact List.mem_cons_of_mem _ (mem_insertBy ..)

theorem State.mem_enqueueBoth_flashA {s : State} (good : s.flashA.failed = false) (op : FlashOp) : op ∈ (s.enqueueBoth op).flashA.queue := by
  rw [State.enqueueBoth, if_neg (by simp [good])]
  exact Flash.mem_enqueue op s.flashA

/-- An image that a SETTINGS_WRITE accepts, with all that R342 checks of it. -/
structure ImageAccepted (s : State) (image : List Byte) : Prop where
  long : 64 ≤ image.length
  header : headerOk image = true
  sized : field 8 4 image = image.length
  signed : signatureOk s.sec.ownerKey image = true
  fields : fieldsOk image = true
  newer : versionOk s (field 0xC 4 image) = true

theorem execSettingsWrite_starts {s : State} {cid : Nat} {c : Cmd} {image : List Byte} (acts : ActsReading s cid 0x72 c) (fresh : c.started = false)
    (open_ : s.log.refused = false) (alone : running (s.startCmd cid) cid [0x72] = false) (given : image.length = c.arg 0x10 4)
    (ok : ImageAccepted s image) (good : s.flashA.failed = false) :
    exec (.settingsWrite cid image) s = .next ((s.startCmd cid).enqueueBoth (.settings cid (targetSlot s) image)) := by
  obtain ⟨long, header, sized, signed, fields, newer⟩ := ok
  obtain ⟨acts, host, free⟩ := acts
  have sound : ¬(image.length < 64 ∨ headerOk image = false ∨ field 8 4 image ≠ image.length) := by simp [header, sized, long]
  have newer' : versionOk (s.startCmd cid) (field 0xC 4 image) = true := newer
  have writable : bothFailed (s.startCmd cid) = false := by rw [bothFailed, show (s.startCmd cid).flashA.failed = false from good, Bool.false_and]
  show execSettingsWrite cid image s = _
  rw [execSettingsWrite, acts.hostCommand (mayRead_of_open host _) free (.inr (by simp [open_, alone]))]
  simp only [fresh, given, bne_self_eq_false, Bool.or_self, Bool.false_eq_true, if_false, if_neg (given ▸ sound), State.startCmd_sec, signed, fields, newer',
    writable, Bool.not_true]
  rfl

/-- One index is used, and no batch is reserved where another than the 256th from the end is left (R539, R540). -/
theorem State.takeIndex_of_ne {s : State} (none_ : s.sec.batchLeft ≠ 257) :
    s.takeIndex = { s with sec := { s.sec with nextIndex := s.sec.nextIndex + 1, batchLeft := s.sec.batchLeft - 1 } } :=
  if_neg (fun reserve => none_ (by simpa using reserve))

theorem execAttest_signs {s : State} {cid : Nat} {c : Cmd} (acts : Acts s cid 0x73 c) (room : 13097 ≤ c.arg 0x30 4) (good : s.sec.cryptoOk = true)
    (left : 0 < s.sec.batchLeft) :
    ∃ bytes, exec (.attest cid) s = .next ((s.startCmd cid).takeIndex.finishWrites cid .ok [(0x14, 4, 13097), (0x18, 8, s.sec.nextIndex)]
      [(c.arg 0x28 8, bytes)]) := by
  have good' : (s.startCmd cid).sec.cryptoOk = true := good
  have left' : (s.startCmd cid).sec.batchLeft ≠ 0 := Nat.ne_of_gt left
  show ∃ bytes, execAttest cid s = _
  rw [execAttest, acts.command]
  simp only [if_neg (Nat.not_lt.mpr room), good', Bool.not_true, Bool.false_eq_true, if_false, if_neg left']
  exact ⟨_, rfl⟩

/-! ## RESTART and SHUTDOWN (R345-R350) -/

theorem numbered_of_acts {s : State} {cid op : Nat} {c : Cmd} (acts : Acts s cid op c) : c.opcode = op ∧ c.seq.isSome = true := by
  have actable_ := acts.1
  rw [actable, acts.entry] at actable_
  dsimp only at actable_
  split at actable_
  · rename_i may
    exact ⟨may.1, may.2.1⟩
  · cases actable_

/-- A RESTART or SHUTDOWN without FORCE, with nothing open, in flight or being written, acts and ends. -/
theorem powerCommand_of_acts {s : State} {cid op : Nat} {c : Cmd} (acts : Acts s cid op c) (polite : c.flag 0 = false) (closed : s.sessions = [])
    (alone : othersInFlight (s.startCmd cid) cid = false) (cool : ¬(op = 0x7E ∧ tooHot s = true)) (still : flashWriting s = false)
    (act : State → State) : s.powerCommand cid op act = (act (s.startCmd cid)).finishCmd cid .ok [] := by
  have cool' : ¬(op = 0x7E ∧ tooHot (s.startCmd cid) = true) := cool
  have still' : flashWriting (s.startCmd cid) = false := still
  rw [State.powerCommand, acts.entry]
  simp only [polite, acts.command, State.startCmd_sessions, closed, alone, if_neg cool', still', List.isEmpty_nil, Bool.not_true, Bool.or_self,
    Bool.and_false, Bool.false_eq_true, if_false]

/-- A RESTART or SHUTDOWN with FORCE, with nothing being written, acts after all that it ends (R350). -/
theorem forceCommand_of_acts {s : State} {cid op : Nat} {c : Cmd} (acts : Acts s cid op c) (forced : c.flag 0 = true)
    (cool : ¬(op = 0x7E ∧ tooHot s = true)) (still : flashWriting s = false) (act : State → State) :
    s.forceCommand cid op act = (act ((s.startCmd cid).force cid)).finishCmd cid .ok [] := by
  obtain ⟨opcode, seq⟩ := numbered_of_acts acts
  have may : ¬(c.opcode ≠ op ∨ c.seq.isNone = true ∨ c.done.isSome = true) := by
    simp [opcode, acts.live, Option.isSome_iff_ne_none.mp seq]
  rw [State.forceCommand, acts.entry]
  simp only [forced, if_neg may, if_neg cool, still, Bool.not_true, Bool.false_eq_true, if_false]

/-- What FORCE leaves: no session, run or launch, and its own entry. -/
structure Forced (cid : Nat) (s t : State) : Prop where
  sessions : t.sessions = []
  runs : t.runs = []
  launches : t.launches = []
  forcing : t.host.forcing = some cid
  entry : cmdAt t cid = cmdAt s cid
  up : t.boot.fwUp = s.boot.fwUp

theorem fwUp_of_frame {ps : List Part} {s t : State} (h : Frame ps s t) (hs : Part.stop ∉ ps) (hb : Part.boot ∉ ps) : t.boot.fwUp = s.boot.fwUp :=
  (congrArg (fun b : Boot => b.fwUp) (boot_of_frame h hs hb) :)

theorem forcing_of_frame {ps : List Part} {s t : State} (h : Frame ps s t) (hs : Part.stop ∉ ps) (hh : Part.host ∉ ps) :
    t.host.forcing = s.host.forcing := (congrArg (fun k : HostLink => k.forcing) (h.exact hs (p := .host) hh) :)

/-- What FORCE leaves stands after operations on other parts. -/
theorem Forced.of_frame {cid : Nat} {ps : List Part} {s t u : State} (h : Forced cid s t) (k : Frame ps t u)
    (others : ∀ p ∈ ([.stop, .boot, .host, .cmds, .sessions, .runs, .launches] : List Part), p ∉ ps) : Forced cid s u := by
  have out := others _ (.head _)
  obtain ⟨sessions, runs, launches, forcing, entry, up⟩ := h
  exact ⟨(k.exact out (p := .sessions) (others _ (by decide))).trans sessions, (k.exact out (p := .runs) (others _ (by decide))).trans runs,
    (k.exact out (p := .launches) (others _ (by decide))).trans launches, (forcing_of_frame k out (others _ (by decide))).trans forcing,
    (cmdAt_of_cmds (k.exact out (p := .cmds) (others _ (by decide))) cid).trans entry, (fwUp_of_frame k out (others _ (by decide))).trans up⟩

/-- The state in which FORCE has ended every command but its own. -/
def State.endOthers (cid : Nat) (s : State) : State :=
  { s with host := { s.host with forcing := some cid, cmds := s.host.cmds.map (fun c => if c.cid = cid then c else endOf s .retryLater 0 c) } }

theorem cmdAt_endOthers (cid : Nat) (s : State) : cmdAt (s.endOthers cid) cid = cmdAt s cid := by
  simp only [cmdAt, State.endOthers]
  induction s.host.cmds with
  | nil => rfl
  | cons c l ih =>
    by_cases own : c.cid = cid
    · simp [own]
    · simp [own, endOf_cid, ih]

theorem State.dropSession_sessions (i : Nat) (s : State) : (s.dropSession i).sessions = without (fun x => x.index == i) s.sessions := by
  unfold State.dropSession
  exact (Frame.foldl (ps := [Part.models]) (fun u k h => h.trans (State.settleEpoch_frame k u)) _ (.refl ..)).exact (by decide) (p := .sessions) (by decide)

/-- Dropping every session of a list leaves none that it names. -/
theorem sessions_foldl_dropSession {l : List Session} {s : State} (named : ∀ x ∈ s.sessions, ∃ y ∈ l, y.index = x.index) :
    (l.foldl (fun t (x : Session) => t.dropSession x.index) s).sessions = [] := by
  induction l generalizing s with
  | nil => exact List.eq_nil_iff_forall_not_mem.mpr (fun x member => by simpa using named x member)
  | cons y l ih =>
    have left : (s.dropSession y.index).sessions = without (fun x => x.index == y.index) s.sessions :=
      State.dropSession_sessions y.index s
    refine ih (s := s.dropSession y.index) (fun x member => ?_)
    rw [left] at member
    obtain ⟨z, here, same⟩ := named x (List.mem_of_mem_filter member)
    rcases List.mem_cons.mp here with rfl | later
    · exact absurd same.symm (ne_of_mem_without (f := Session.index) member)
    · exact ⟨z, later, same⟩

theorem State.force_forced (cid : Nat) (s : State) : Forced cid s (s.force cid) := by
  have drops : Frame [.cel, .models, .sessions, .sessionGen, .migs] (s.endOthers cid)
      ((s.endOthers cid).sessions.foldl (fun t (x : Session) => t.dropSession x.index) (s.endOthers cid)) :=
    Frame.foldl (fun u x h => h.trans (State.dropSession_frame ..)) _ (.refl ..)
  have freed : Forced cid s { ((s.endOthers cid).sessions.foldl (fun t (x : Session) => t.dropSession x.index) (s.endOthers cid)) with
      runs := [], launches := [] } := {
    sessions := sessions_foldl_dropSession (fun x member => ⟨x, member, rfl⟩)
    runs := rfl
    launches := rfl
    forcing := forcing_of_frame drops (by decide) (by decide)
    entry := (cmdAt_of_cmds (drops.exact (by decide) (p := .cmds) (by decide)) cid).trans (cmdAt_endOthers cid s)
    up := (fwUp_of_frame drops (by decide) (by decide) :) }
  unfold State.force
  refine Forced.of_frame ?_ (State.releaseOrphans_frame _) (by decide)
  exact ⟨freed.sessions, rfl, rfl, freed.forcing, freed.entry, freed.up⟩

/-- A shutdown leaves fw_up (R346). -/
theorem State.shutDown_fwUp (data : Nat) (s : State) : (s.shutDown data).boot.fwUp = s.boot.fwUp :=
  calc (s.shutDown data).boot.fwUp
    _ = (((s.logEvent 0x0012 0xFFFF 0 false (BitVec.ofNat 64 data)).commitOpen).lasersOff).loseLocal.holdDies.boot.fwUp := rfl
    _ = (((s.logEvent 0x0012 0xFFFF 0 false (BitVec.ofNat 64 data)).commitOpen).lasersOff).loseLocal.boot.fwUp :=
      fwUp_of_frame (State.holdDies_frame _) (by decide) (by decide)
    _ = ((s.logEvent 0x0012 0xFFFF 0 false (BitVec.ofNat 64 data)).commitOpen).lasersOff.boot.fwUp :=
      fwUp_of_frame (State.loseLocal_frame _) (by decide) (by decide)
    _ = (s.logEvent 0x0012 0xFFFF 0 false (BitVec.ofNat 64 data)).commitOpen.boot.fwUp := fwUp_of_frame (State.lasersOff_frame _) (by decide) (by decide)
    _ = (s.logEvent 0x0012 0xFFFF 0 false (BitVec.ofNat 64 data)).boot.fwUp := fwUp_of_frame (State.commitOpen_frame _) (by decide) (by decide)
    _ = s.boot.fwUp := fwUp_of_frame (State.logEvent_frame ..) (by decide) (by decide)

theorem State.shutDown_cmds (data : Nat) (s : State) : (s.shutDown data).host.cmds = s.host.cmds :=
  (State.shutDown_frame data s).exact (by decide) (p := .cmds) (by decide)

theorem State.shutDown_sessions (data : Nat) (s : State) : (s.shutDown data).sessions = s.sessions :=
  (State.shutDown_frame data s).exact (by decide) (p := .sessions) (by decide)

/-- A forced command ends as it is told to, where what it does after FORCE leaves its entry. -/
theorem endedAs_of_forced {s t u : State} {cid op : Nat} {c : Cmd} (acts : Acts s cid op c) (h : Forced cid (s.startCmd cid) t)
    (same : u.host.cmds = t.host.cmds) (d : Done) : EndedAs (u.endCmd cid d) cid d.status := by
  have entry := (cmdAt_of_cmds same cid).trans h.entry
  rw [cmdAt_startCmd, acts.entry] at entry
  exact (ended_endCmd entry acts.live acts.2).2.1

end Sys2Proof.Machine
end

section
open Sys2Proof Sys2Proof.Machine

/-- Settles O10: a command that acts runs its body on the state in which it has started (`Acts.command`, `selftest_of_acts`, `powerCommand_of_acts`,
`forceCommand_of_acts`); its entry is left to its end by all that it does (`ends_of_acts`), and by what FORCE does to the others (`State.force_forced`). -/
theorem testLogAndPowerCommandsComplete : Obligations.TestLogAndPowerCommandsComplete := by
  unfold Obligations.TestLogAndPowerCommandsComplete
  refine ⟨?summary, ?fullEnds, ?fullBegins, ?margin, ?inject, ?logRead, ?settingsRead, ?settingsWrite, ?attest, ?restart, ?restartForce, ?shutdown,
    ?shutdownForce⟩
  case summary =>
    intro s cid c acts kind
    exact ⟨_, congrArg Host.Outcome.next (selftest_of_acts acts kind _), (ends_of_acts acts rfl _).1⟩
  case fullEnds =>
    intro s cid ms c acts kind begun inTime drained
    exact ⟨_, execSelftestFull_passes acts kind begun inTime drained, rfl, _, (ends_of_acts acts rfl _).1⟩
  case fullBegins =>
    intro s cid c acts kind fresh closed idle alone ms found
    have drains : Frame [.tiles] (s.startCmd cid) ((computeSites s).foldl (fun u n => u.startDrain n) (s.startCmd cid)) :=
      Frame.foldl (fun u n h => h.trans (State.startDrain_frame ..)) _ (.refl ..)
    refine ⟨_, execSelftestFull_begins acts kind fresh closed idle alone ms found,
      cmdAt_started acts (drains.exact (by decide) (p := .cmds) (by decide)), fun tiles n site => ?_⟩
    have inside : n < 64 := List.mem_range.mp (List.mem_of_mem_filter site)
    exact tileAt_foldl_startDrain (s := s.startCmd cid) (inside.trans_eq tiles.symm) (.inl site)
  case margin =>
    intro s cid c eyes acts begun each
    obtain ⟨fields, reports⟩ := execMarginTest_reports acts begun each
    exact ⟨_, reports, marginBusy_endMargin .., (ends_of_acts acts rfl _).2.1, _, (ends_of_acts acts rfl _).2.2, marginRecords_length each _⟩
  case inject =>
    intro s cid c acts known free there
    exact ⟨_, execFaultInject_sets acts known free there, lookupKey_setInjection .., (ends_of_acts acts rfl _).1⟩
  case logRead =>
    intro s cid c acts room
    obtain ⟨fields, reads⟩ := execLogRead_reads acts room
    have ends := (ends_of_acts acts (State.logged_cmds c (s.startCmd cid)) ⟨.ok, 0, resultOf fields, logWrites c ((s.startCmd cid).logged c)⟩).2
    rw [logWrites_startCmd] at ends reads
    exact ⟨_, reads, ends⟩
  case settingsRead =>
    intro s cid c acts room
    exact ⟨_, congrArg Host.Outcome.next ((acts.command _).trans (if_neg (Nat.not_lt.mpr room))), (ends_of_acts acts rfl _).2⟩
  case settingsWrite =>
    intro s cid c image acts fresh open_ alone given long header sized signed fields newer good
    exact ⟨_, execSettingsWrite_starts acts fresh open_ alone given ⟨long, header, sized, signed, fields, newer⟩ good,
      State.mem_enqueueBoth_flashA (s := s.startCmd cid) good _,
      cmdAt_started acts.1 ((State.enqueueBoth_frame ..).exact (by decide) (p := .cmds) (by decide))⟩
  case attest =>
    intro s cid c acts room good left whole
    obtain ⟨bytes, signs⟩ := execAttest_signs acts room good left
    rw [State.takeIndex_of_ne (s := s.startCmd cid) whole] at signs
    exact ⟨_, signs, rfl, rfl, (ends_of_acts acts rfl _).1⟩
  case restart =>
    intro s cid c acts polite closed alone cool still
    exact ⟨_, congrArg Host.Outcome.next (powerCommand_of_acts acts polite closed alone (by simp [cool]) still _), State.commitOpen_openRec _,
      (ends_of_acts acts (State.commitOpen_cmds _) _).2.1⟩
  case restartForce =>
    intro s cid c acts forced cool still
    have after := State.force_forced cid (s.startCmd cid)
    have ends := after.of_frame (State.commitOpen_frame _) (by decide)
    exact ⟨_, congrArg Host.Outcome.next (forceCommand_of_acts acts forced (by simp [cool]) still _), ends.sessions, ends.runs, ends.launches, ends.forcing,
      endedAs_of_forced acts after (State.commitOpen_cmds _) _⟩
  case shutdown =>
    intro s cid c acts polite closed alone still
    exact ⟨_, congrArg Host.Outcome.next (powerCommand_of_acts acts polite closed alone (by simp) still _), rfl, rfl, State.shutDown_fwUp ..,
      (ends_of_acts acts (State.shutDown_cmds ..) _).2.1⟩
  case shutdownForce =>
    intro s cid c acts forced still
    have after := State.force_forced cid (s.startCmd cid)
    exact ⟨_, congrArg Host.Outcome.next (forceCommand_of_acts acts forced (by simp) still _), rfl, rfl, (State.shutDown_fwUp ..).trans after.up,
      (State.shutDown_sessions ..).trans after.sessions, endedAs_of_forced acts after (State.shutDown_cmds ..) _⟩

end

section
/-! What a row answers, and the parts that it may change (O45–O51): every row answers a next state, in a frame that lists its parts; the frames of its
operations compose to it, each with the check that its parts are among those of the row. -/

set_option Elab.async false
namespace Sys2Proof
open Machine

section
variable {ps qs : List Part} {s t u : State}

/-- A frame within a longer list of parts. -/
theorem Frame.within (h : Frame qs s t) (sub : ∀ p ∈ qs, p ∈ ps := by decide) : Frame ps s t := h.mono sub

/-- An operation of fewer parts after what has gone before. -/
theorem Frame.andThen (h : Frame ps s t) (k : Frame qs t u) (sub : ∀ p ∈ qs, p ∈ ps := by decide) : Frame ps s u := h.step k sub

/-- An operation of fewer parts, after what has gone before. -/
theorem Frame.over (k : Frame qs t u) (h : Frame ps s t) (sub : ∀ p ∈ qs, p ∈ ps := by decide) : Frame ps s u := h.step k sub

/-- Two operations change the parts of either. -/
theorem Frame.append (h : Frame ps s t) (k : Frame qs t u) : Frame (ps ++ qs) s u :=
  (h.mono fun _ => List.mem_append_left _).trans (k.mono fun _ => List.mem_append_right _)

/-- An operation on every entry of a list. -/
theorem Frame.fold {α : Type} {g : State → α → State} (k : ∀ u x, Frame ps u (g u x)) (l : List α) : Frame ps s (l.foldl g s) :=
  Frame.foldl (fun u x h => h.trans (k u x)) l (.refl ..)

end

/-- The row answers a next state, and only the listed parts have changed. -/
def RowConfined (ps : List Part) (s : State) (o : Host.Outcome State Fault Refusal) : Prop := ∃ t, o = .next t ∧ Frame ps s t

namespace RowConfined
variable {ps qs : List Part} {s t : State}

theorem next (h : Frame ps s t) : RowConfined ps s (.next t) := ⟨t, rfl, h⟩

theorem of_frame (h : Frame qs s t) (sub : ∀ p ∈ qs, p ∈ ps := by decide) : RowConfined ps s (.next t) := ⟨t, rfl, h.mono sub⟩

theorem stay : RowConfined ps s (.next s) := next (.refl ..)

section
variable {c : Prop} [Decidable c] {o p : Host.Outcome State Fault Refusal}

theorem ite (h : RowConfined ps s o) (k : RowConfined ps s p) : RowConfined ps s (if c then o else p) := by split <;> assumption

/-- A row that does nothing where its condition holds. -/
theorem skip (h : RowConfined ps s o) : RowConfined ps s (if c then .next s else o) := ite stay h

/-- A row that does nothing where its condition fails. -/
theorem only (h : RowConfined ps s o) : RowConfined ps s (if c then o else .next s) := ite h stay

end

variable {cid : Nat}

theorem command {op : Nat} {body : Cmd → State → State} (h : ∀ c u, Frame ps s u → Frame ps s (body c u))
    (sub : ∀ p ∈ [Part.cmds], p ∈ ps := by decide) : RowConfined ps s (.next (s.command cid op body)) := next (State.command_frame (.refl ..) h sub)

theorem setFeature {feature : Nat} {body : Cmd → State → State} (h : ∀ c u, Frame ps s u → Frame ps s (body c u))
    (sub : ∀ p ∈ [Part.cmds], p ∈ ps := by decide) : RowConfined ps s (.next (s.setFeature cid feature body)) :=
  next (State.setFeature_frame (.refl ..) h sub)

theorem selftest {kind : Nat} {body : Cmd → State → State} (h : ∀ c u, Frame ps s u → Frame ps s (body c u))
    (sub : ∀ p ∈ [Part.cmds], p ∈ ps := by decide) : RowConfined ps s (.next (s.selftest cid kind body)) :=
  next (State.selftest_frame (.refl ..) h sub)

theorem hostCommand {op : Nat} {check : Cmd → State → Option State} {body : Cmd → State → State}
    (stops : ∀ c u v, Frame ps s u → check c u = some v → Frame ps s v) (h : ∀ c u, Frame ps s u → Frame ps s (body c u))
    (sub : ∀ p ∈ [Part.cmds], p ∈ ps := by decide) (steps : op = 0x22 ∨ op = 0x23 → ∀ p ∈ [Part.sessions], p ∈ ps := by decide) :
    RowConfined ps s (.next (s.hostCommand cid op check body)) := next (State.hostCommand_frame (.refl ..) stops h sub steps)

theorem commandReading {op : Nat} {reads : Bool} {check : Cmd → State → Option State} {body : Cmd → State → State}
    (stops : ∀ c u v, Frame ps s u → check c u = some v → Frame ps s v) (h : ∀ c u, Frame ps s u → Frame ps s (body c u))
    (sub : ∀ p ∈ [Part.cmds], p ∈ ps := by decide) (steps : op = 0x22 ∨ op = 0x23 → ∀ p ∈ [Part.sessions], p ∈ ps := by decide) :
    RowConfined ps s (.next (s.commandReading cid op reads check body)) := next (State.commandReading_frame (.refl ..) stops h sub steps)

theorem sessionCommand {op : Nat} {check : Cmd → State → Bool} {accepts : SessState → Bool} {act : Cmd → Session → State → State}
    (h : ∀ c x u, Frame ps s u → Frame ps s (act c x u)) (sub : ∀ p ∈ [Part.cmds, Part.sessions], p ∈ ps := by decide) :
    RowConfined ps s (.next (s.sessionCommand cid op check accepts act)) := next (State.sessionCommand_frame (.refl ..) h sub)

/-- An instruction of a kernel. -/
theorem kernel {α : Type} {r : WarpRef} {sel : KOp → Option α} {f : KCtx → α → State} (h : ∀ x a, Frame ps s (f x a))
    (sub : ∀ p ∈ [Part.launches], p ∈ ps := by decide) : RowConfined ps s (.next (s.kernel r sel f)) := next (State.kernel_frame h sub)

end RowConfined

end Sys2Proof
end

section
/-! The rows of tiles, of the Cellarer, of CXL, of start-up and of local memory change only their parts (O48). -/

set_option Elab.async false
namespace Sys2Proof.Machine
variable {s : State}

/-! ## Tiles -/

@[simp] theorem execTileRetire_confined {site routerOk} :
    RowConfined (eventParts.append (lossParts.append (linkParts.append [.pins, .svc]))) s (execTileRetire site routerOk s) :=
  .only (.of_frame (State.retireTile_frame ..))

@[simp] theorem execSiteIsolate_confined {site} :
    RowConfined (eventParts.append (lossParts.append (linkParts.append [.pins, .svc]))) s (execSiteIsolate site s) :=
  .skip (.of_frame (State.isolateSite_frame ..))

@[simp] theorem execSlotEnd_confined {site copyError} : RowConfined (eventParts.append [.tiles]) s (execSlotEnd site copyError s) := by
  unfold execSlotEnd
  dsimp only
  split
  · exact .stay
  · refine .skip ?_
    split
    · exact .stay
    · refine .ite (.next ((State.capture_quiet (calm_src (by decide) (by decide))).over ?_)) (.next ?_)
      all_goals exact (State.modTile_frame ..).within.andThen (noteRuns_frame ..)

@[simp] theorem execKatResult_confined {site pass} :
    RowConfined (eventParts.append (lossParts.append (linkParts.append [.pins, .svc, .stop]))) s (execKatResult site pass s) := by
  unfold execKatResult
  dsimp only
  split
  · exact .stay
  · exact .skip (.ite (.next ((State.modTile_frame ..).over (.upd (.refl ..)))) (.next ((State.katFailed_frame ..).over (.upd (.refl ..)))))

@[simp] theorem execTileControllerWatchdog_confined {site} :
    RowConfined (eventParts.append (lossParts.append (linkParts.append [.pins, .svc]))) s (execTileControllerWatchdog site s) := by
  refine .skip (.next ((State.partialReset_frame ..).over ?_))
  exact Frame.foldl (fun u c h => (h.andThen (State.blameSite_frame ..)).andThen (State.failWork_frame ..)) _ (State.raiseFor_quiet (calm_src
      (by decide) (by decide))).within

@[simp] theorem execDrainAbandon_confined {site} : RowConfined [.tiles, .cel] s (execDrainAbandon site s) :=
  .only (.next ((State.requeueRuns_frame ..).within.andThen (State.modTile_frame ..)))

@[simp] theorem execDrainEnd_confined {site} :
    RowConfined [.pins, .ret, .cause, .flashA, .flashB, .log, .svc, .tiles, .cel, .host, .cmds, .mem, .bytes, .models, .sessions, .runs, .launches, .trans]
      s (execDrainEnd site s) := by
  refine .only (.skip (.next ?_))
  have left := ((State.saveClusters_frame site.val s).append (State.requeueUnits_frame site.val _)).append (State.clearStore_frame site.val _)
  split
  · exact left.within.andThen (State.darken_frame ..)
  · exact (left.within.andThen (State.modTile_frame ..)).andThen (State.assignStreams_frame _)

@[simp] theorem execCoreWatchdog_confined {core} :
    RowConfined (eventParts.append [.cel, .models, .sessions, .runs, .launches, .trans]) s (execCoreWatchdog core s) := by
  refine .skip (.next (Frame.foldl (fun u c h => h.andThen (State.failWork_frame ..)) _ ?_))
  exact (State.capture_quiet (calm_src (by decide) (by decide))).over (.upd (.refl ..))

/-! ## The Cellarer -/

@[simp] theorem execCellarerPlan_confined {loads} : RowConfined (linkParts.append [.cel, .cxl, .free]) s (execCellarerPlan loads s) := by
  refine .skip (.next ?_)
  refine (State.keepReports_frame _).over ((State.planBlocks_frame _).over ((State.setShare_frame _).over ?_))
  refine (State.assignStreams_frame _).over ((State.planRoles_frame _).over ?_)
  exact .upd (State.planInputs_frame loads s).within

@[simp] theorem execWorkUnitAssign_confined {unit rowLoads} :
    RowConfined (eventParts.append [.tiles, .cel, .mem, .models, .sessions, .runs, .launches, .trans]) s (execWorkUnitAssign unit rowLoads s) := by
  unfold execWorkUnitAssign
  split
  · exact .stay
  · split
    · exact .stay
    · refine .skip ?_
      split
      next _ bad => exact .next ((State.reportAccess_quiet (calm_access bad)).within.andThen (State.failWork_frame ..))
      · refine .next ((State.placeCluster_frame ..).over ((State.touch_frame ..).over ?_))
        refine Frame.ite (fun _ => ?_) (fun _ => (State.modTile_frame ..).over ?_)
        all_goals
          split
          · exact Frame.foldl (fun _ _ h => h.andThen (State.modTile_frame ..)) _ (.upd (.refl ..))
          · exact .upd (.refl ..)

@[simp] theorem execWorkUnitComplete_confined {unit} : RowConfined [.cel] s (execWorkUnitComplete unit s) := by
  unfold execWorkUnitComplete
  split
  · exact .stay
  · exact .only (.next (.upd (.refl ..)))

@[simp] theorem execBlockMoveSwitch_confined {move verified} :
    RowConfined (eventParts.append (linkParts.append [.cel, .mem, .free])) s (execBlockMoveSwitch move verified s) := by
  unfold execBlockMoveSwitch
  have ends (b : Nat) : RowConfined (eventParts.append (linkParts.append [.cel, .mem, .free])) s (.next ((s.endMove move).tidyLeases b)) := .next
      ((State.endMove_frame ..).within.andThen (State.tidyLeases_frame ..))
  split
  · exact .stay
  · refine .skip ?_
    split
    · exact ends _
    · refine .ite (ends _) (.skip ?_)
      split
      · exact ends _
      next bad => exact .next (((State.reportAccess_quiet (calm_either bad)).within.andThen (State.endMove_frame ..)).andThen (State.tidyLeases_frame ..))
      · exact .next (((State.touch_frame ..).within.andThen (State.overwrite_frame ..)).upd)

@[simp] theorem execBlockMoveSourceFree_confined {move} : RowConfined (linkParts.append [.cel, .free]) s (execBlockMoveSourceFree move s) := by
  unfold execBlockMoveSourceFree
  split
  · exact .stay
  · exact .skip (.next ((State.endMove_frame ..).within.andThen (State.tidyLeases_frame ..)))

@[simp] theorem execStripeReloadDone_confined {model ok} : RowConfined [.cel, .mem, .models] s (execStripeReloadDone model ok s) := by
  refine .skip (.ite (.of_frame (State.modModel_frame ..)) (.skip ?_))
  split
  next t reloaded =>
    have placed : Frame [.mem, .models] s t := Frame.foldl_bind (fun _ _ _ => State.replaceShard_frame) reloaded
    exact .skip (.next ((placed.within.andThen (State.modModel_frame ..)).andThen (State.assignStreams_frame _)))
  · exact .stay

@[simp] theorem execShardPrefetch_confined {model layerShard} : RowConfined [.mem, .bytes, .models] s (execShardPrefetch model layerShard s) := by
  unfold execShardPrefetch
  dsimp only
  split
  · exact .stay
  · exact .skip (.next (((State.touch_frame ..).within.andThen (State.writeMem_frame ..)).andThen (State.modModel_frame ..)))

/-! ## CXL -/

@[simp] theorem execCxlPresenceDetect_confined {p} : RowConfined (eventParts.append [.cxl]) s (execCxlPresenceDetect p s) :=
  .only (.next ((State.modCxl_frame ..).within.andThen (State.raise_quiet (calm_presence _))))

@[simp] theorem execCxlLinkUp_confined {p rate width capacity} :
    RowConfined (eventParts.append (linkParts.append [.cel, .mem, .bytes, .cxl, .models, .sessions, .runs, .free]))
      s (execCxlLinkUp p rate width capacity s) :=
  .skip (.ite (.next (((State.modCxl_frame ..).within.andThen (State.leaveBad_frame _)).andThen (State.settleRuns_frame _))) (.of_frame
      (State.modCxl_frame ..)))

@[simp] theorem execCxlDiscoveryDone_confined {p} : RowConfined [.mem, .bytes, .cxl] s (execCxlDiscoveryDone p s) :=
  .only (.next ((State.loseBytes_frame ..).within.andThen (State.modCxl_frame ..)))

@[simp] theorem execCxlLinkDown_confined {p} : RowConfined [.cxl] s (execCxlLinkDown p s) := .only (.of_frame (State.modCxl_frame ..))

@[simp] theorem execCxlAccessTimeout_confined {p cid} :
    RowConfined (eventParts.append [.cel, .models, .sessions, .runs, .launches, .trans]) s (execCxlAccessTimeout p cid s) :=
  .only (.next ((State.raise_quiet (calm_src (by decide) (by decide))).within.andThen (State.failWork_frame ..)))

@[simp] theorem execCxlLinkDownTimeout_confined {p} :
    RowConfined (eventParts.append (lossParts.append [.cxl, .trans])) s (execCxlLinkDownTimeout p s) :=
  .only (.of_frame (State.surpriseRemoval_frame ..))

@[simp] theorem execCxlEventLogPoll_confined {p events} :
    RowConfined (eventParts.append (linkParts.append [.cel, .mem, .cxl, .models, .free])) s (execCxlEventLogPoll p events s) :=
  .only (.next (Frame.foldl (fun _ _ h => h.andThen (State.mediaEvent_frame ..)) events (.refl _ s)))

@[simp] theorem execCxlAttentionButton_confined {p} : RowConfined (linkParts.append [.cel, .cxl, .free]) s (execCxlAttentionButton p s) :=
  .ite (.next ((State.askOffline_frame p s).within.andThen (State.modCxl_frame ..))) (.of_frame (State.askOffline_frame p s))

@[simp] theorem execCxlAttentionLedTimeout_confined {p} : RowConfined [.cxl] s (execCxlAttentionLedTimeout p s) := .of_frame (State.modCxl_frame ..)

@[simp] theorem execCxlEvacuationDone_confined {p} :
    RowConfined (eventParts.append (linkParts.append [.cel, .mem, .bytes, .cxl, .models, .runs, .launches, .free]))
      s (execCxlEvacuationDone p s) := by
  refine .skip (.ite (.of_frame (State.moveBlocksOff_frame ..)) (.ite (.of_frame (State.clearPort_frame ..)) (.next ?_)))
  exact ((State.clearPort_frame ..).within.andThen (State.loseBytes_frame ..)).andThen (State.modCxl_frame ..)

@[simp] theorem execCxlSurpriseRemoval_confined {p} : RowConfined (eventParts.append (lossParts.append [.cxl, .trans])) s (execCxlSurpriseRemoval p s) :=
  .ite (.of_frame (State.surpriseRemoval_frame ..)) (.of_frame (State.modCxl_frame ..))

@[simp] theorem execCxlMemReadResponse_confined {p cid poisoned} :
    RowConfined eventParts s (execCxlMemReadResponse p cid poisoned s) := .only (.of_frame (State.raiseOn_quiet (calm_src (by decide) (by decide))))

/-! ## Start-up and clocks -/

@[simp] theorem execPerstDeassert_confined : RowConfined [.pins] s (execPerstDeassert s) := .next (.upd (.refl ..))

@[simp] theorem execCellSetup_confined {site} :
    RowConfined [.boot, .tiles] s (execCellSetup site s) := .only (.next ((State.modTile_frame ..).within.andThen (State.atStep_frame ..)))

@[simp] theorem execModuleReady_confined {ms} : RowConfined [.pins, .ret, .boot, .cause, .flashA, .flashB, .log, .host] s (execModuleReady ms s) := by
  unfold execModuleReady
  split
  · exact .stay
  next due =>
    have up : s.boot.down = false := by
      simp only [readyDue, Bool.not_eq_false, Bool.and_eq_true, Bool.not_eq_true'] at due
      tauto
    refine .ite (.next (.upd (.refl ..))) (.next ?_)
    refine (State.raiseCause_frame ..).over ((State.logEvent_frame ..).over (Frame.upd (.refl _ s) (wready := ?_)))
    simp [up]

@[simp] theorem execTilePllUnlock_confined {site} : RowConfined [.tiles] s (execTilePllUnlock site s) := .of_frame (State.modTile_frame ..)

@[simp] theorem execEnginePllUnlock_confined {e} : RowConfined (eventParts.append linkParts) s (execEnginePllUnlock e s) :=
  .next ((State.modEngine_frame ..).over ((State.engineReset_frame ..).over (Frame.ite (fun _ => (State.linkDown_frame ..).within) (fun _ => .refl ..))))

@[simp] theorem execForwardedClockStop_confined {at_} :
    RowConfined (eventParts.append (lossParts.append (linkParts.append [.pins, .svc]))) s (execForwardedClockStop at_ s) := by
  unfold execForwardedClockStop
  split
  · exact .stay
  next n i =>
    refine .ite ?_ (.of_frame (State.retireBundle_frame ..))
    refine .ite (.next ((State.isolateSite_frame ..).over ?_)) (.next ?_)
    all_goals
      refine Frame.ite (fun _ => (State.retable_frame _).over ?_) (fun _ => ?_)
      all_goals exact (State.modBundle_frame ..).over ((State.modTile_frame ..).over (State.raise_quiet (calm_bundle _ (.inr rfl))).within)
  · exact .ite (.next ((State.modBundle_frame ..).over (State.raise_quiet (calm_bundle _ (.inr rfl))).within)) (.of_frame (State.retireBundle_frame ..))
  · exact .of_frame (State.retireBundle_frame ..)

@[simp] theorem execRowRelease_confined {row ageing} :
    RowConfined (eventParts.append (linkParts.append [.pins, .boot, .svc, .th, .free])) s (execRowRelease row ageing s) := by
  refine .next ((State.spend_frame ..).over ((State.atStep_frame ..).over ?_))
  refine Frame.foldl (fun u c h => Frame.ite (fun _ => h) (fun _ => h.andThen (State.agePoint_frame ..))) _ ?_
  refine Frame.foldl (fun u n h => ?_) _ (.refl _ s)
  have armed := h.andThen (State.armFixed_frame n .down u)
  dsimp only
  split
  · exact Frame.foldl (fun _ _ k => k.andThen (State.setLinkState_frame ..)) _
      ((armed.andThen (State.modTile_frame ..)).andThen (State.faceDown_frame ..))
  · exact armed.andThen (State.modTile_frame ..)

@[simp] theorem execTilePositionReport_confined {site straps} :
    RowConfined (eventParts.append (lossParts.append (linkParts.append [.pins, .boot, .svc]))) s (execTilePositionReport site straps s) := by
  refine .skip (.ite (.next ?misplaced) (.next ?placed))
  case misplaced =>
    refine (State.firstRoles_frame _).over (Frame.foldl (fun _ _ h => h.andThen (State.isolateSite_frame ..)) _ ?_)
    exact (State.modTile_frame ..).within.andThen (State.isolateSite_frame ..)
  case placed =>
    exact (State.atStep_frame ..).over ((State.armFixed_frame ..).over ((State.modTile_frame ..).over (State.modTile_frame ..).within))

@[simp] theorem execLaneTest_confined {at_ failedHere failedThere fckOk flitsOk blockHere blockThere} :
    RowConfined (eventParts.append (lossParts.append (linkParts.append [.pins, .boot, .svc]))) s
        (execLaneTest at_ failedHere failedThere fckOk flitsOk blockHere blockThere s) := by
  unfold execLaneTest
  dsimp only
  split
  · exact .stay
  next peer _ =>
    have up := (State.startEngine_frame at_ s).append (State.startEngine_frame peer _)
    have noted (t : State) := (State.recordWires_frame at_ failedHere t).append (State.recordWires_frame peer failedThere _)
    have retired (b : BundleEnd) : RowConfined (eventParts.append (lossParts.append (linkParts.append [.pins, .boot, .svc]))) s (.next
        ((((((s.startEngine at_).startEngine peer).recordWires at_ failedHere).recordWires peer
        failedThere).retireBundle b).atStep 6).beginTraining) :=
      .next (((((up.within.andThen (noted _)).andThen (State.retireBundle_frame ..)).andThen (State.atStep_frame ..)).andThen
          (State.beginTraining_frame _)))
    refine .skip (.ite (.next ?astray) ?_)
    case astray =>
      refine (State.beginTraining_frame _).over (Frame.foldl (fun _ _ h => h.andThen (State.isolateSite_frame ..)) _ ?_)
      exact (State.modBundle_frame ..).within.andThen (State.modBundle_frame ..)
    split
    · refine .ite (retired _) (.ite (retired _) (.next ?_))
      refine (State.beginTraining_frame _).over ((State.atStep_frame ..).over ((State.bundleServed_frame ..).over ((noted _).over ?_)))
      have mapped {f g : BundleDir → BundleDir} {a b c d} {l m : List Byte} : Frame _ s
          ((((((((s.startEngine at_).startEngine peer).applyMap at_ a b).applyMap peer c d).modBundle at_ f).modBundle peer g).noteBlock at_ l).noteBlock
            peer m) :=
        (((((up.append (State.applyMap_frame ..)).append (State.applyMap_frame ..)).append (State.modBundle_frame ..)).append
          (State.modBundle_frame ..)).append (State.noteBlock_frame ..)).append (State.noteBlock_frame ..)
      refine Frame.ite (fun _ => (State.startInline_frame ..).over ?_) (fun _ => ?_)
      all_goals exact Frame.ite (fun _ => (State.startInline_frame ..).over mapped.within) (fun _ => mapped.within)
    · exact retired _
    · exact retired _

@[simp] theorem execCellSetupDone_confined {site failed} :
    RowConfined (eventParts.append (lossParts.append (linkParts.append [.pins, .boot, .svc]))) s (execCellSetupDone site failed s) := by
  have out := Frame.fold (s := s) (fun u (k : CellId) => (State.raise_quiet (d := rangeData (tileAt u site) k)
    (calm_src (c := 1) (n := site) (k := 0) (by decide) (by decide))).append (State.retireCell_frame site k (srcId 1 site 0) _)) failed
  refine .skip (.ite (.next ?_) (.ite (.next ?_) (.next ?_)))
  · exact (out.within.andThen (State.modTile_frame ..)).andThen (State.atStep_frame ..)
  · exact (out.within.andThen (State.modTile_frame ..)).andThen (State.atStep_frame ..)
  · exact out.within.andThen (State.atStep_frame ..)

@[simp] theorem execGddr7TrainingDone_confined {site failA failB idA idB tempA tempB} :
    RowConfined (eventParts.append (lossParts.append (linkParts.append [.pins, .boot, .svc, .free]))) s
        (execGddr7TrainingDone site failA failB idA idB tempA tempB s) := by
  have noted := ((State.noteTemps_frame site.val tempA tempB s).append (State.noteDevice_frame (2 * site.val) idA _)).append
    (State.noteDevice_frame (2 * site.val + 1) idB _)
  have settled (t : State) := ((State.atStep_frame 7 t).append (State.resumeAll_frame _)).append (State.settleRuns_frame _)
  refine .skip (.ite (.next ((settled _).over (noted.within.andThen (State.failMemory_frame ..)))) (.next ((settled _).over ?_)))
  refine Frame.upd ((State.modTile_frame ..).over ?_)
  exact Frame.ite (fun _ => noted.within) (fun _ => noted.within.andThen (State.loseBytes_frame ..))

/-! ## Local memory -/

@[simp] theorem execGddr7Read_confined {site offset by_ cid errors edcFails} :
    RowConfined (eventParts.append (linkParts.append [.pins, .svc, .cel, .mem, .models, .free]))
      s (execGddr7Read site offset by_ cid errors edcFails s) := by
  refine .ite (.of_frame (State.raiseOn_quiet (calm_unmappedSource _))) (.ite (.of_frame (State.hold_frame ..)) ?_)
  have checked := State.edcCheck_frame site.val (groupOf offset) edcFails s
  exact .ite (.next (checked.within.andThen (State.readGranule_frame ..))) (.next (checked.within.andThen (State.hold_frame ..)))

@[simp] theorem execGddr7Write_confined {site offset data by_ cid errors edcFails} :
    RowConfined (eventParts.append (linkParts.append [.pins, .svc, .cel, .mem, .bytes, .models, .free])) s
        (execGddr7Write site offset data by_ cid errors edcFails s) := by
  refine .skip (.ite (.of_frame (State.raiseOn_quiet (calm_unmappedSource _))) (.ite (.of_frame (State.hold_frame ..)) ?_))
  have checked := State.edcCheck_frame site.val (groupOf offset) edcFails s
  exact .ite (.next (checked.within.andThen (State.writeGranules_frame ..))) (.next (checked.within.andThen (State.hold_frame ..)))

@[simp] theorem execScrubGroup_confined {site device found} :
    RowConfined (eventParts.append (linkParts.append [.pins, .svc, .cel, .mem, .models, .free])) s (execScrubGroup site device found s) := by
  refine .skip (.next (Frame.foldl (fun _ _ h => h.andThen (State.checkGranule_frame ..)) _ ?_))
  exact (State.scrubStep_frame ..).over ((State.touch_frame ..).over (.upd (.refl ..)))

@[simp] theorem execGddr7Refresh_confined {site device bank} : RowConfined [.mem] s (execGddr7Refresh site device bank s) := .skip (.next (.upd (.refl ..)))

@[simp] theorem execGddr7TempRead_confined {site tempA tempB} :
    RowConfined [.tiles, .mem] s (execGddr7TempRead site tempA tempB s) := .of_frame (State.noteTemps_frame ..)

@[simp] theorem execRecentre_confined {site device channel} : RowConfined [.mem] s (execRecentre site device channel s) := .skip (.next (.upd (.refl ..)))

@[simp] theorem execChannelRetrainDone_confined {site device channel ok} :
    RowConfined (eventParts.append (lossParts.append (linkParts.append [.pins, .svc, .free])))
      s (execChannelRetrainDone site device channel ok s) := by
  refine .skip (.next ((State.settleRuns_frame _).over ((State.resumeAll_frame _).over ((State.leaveBad_frame _).over ?_))))
  refine Frame.ite (fun _ => ?_) (fun _ => (State.failMemory_frame ..).over ?_)
  all_goals exact (State.modTile_frame ..).over (.upd (.refl ..))

end Sys2Proof.Machine
end

section
/-! The rows of rings, of the host link and of registers, and the commands to the module, change only their parts (O45, O49). -/

set_option Elab.async false
namespace Sys2Proof.Machine
variable {s : State}

/-! ## Rings and the host link -/

@[simp] theorem execRingEnable_confined {ring value} :
    RowConfined eventParts s (execRingEnable ring value s) := .only (.of_frame (State.writeRingCtrl_frame ..))

@[simp] theorem execRingDisable_confined {ring value} :
    RowConfined eventParts s (execRingDisable ring value s) := .only (.of_frame (State.writeRingCtrl_frame ..))

@[simp] theorem execSubmissionTailDoorbell_confined {ring value} : RowConfined eventParts s (execSubmissionTailDoorbell ring value s) :=
  .only (.of_frame (State.writeBar2_frame ..))

@[simp] theorem execCompletionHeadDoorbell_confined {ring value} : RowConfined eventParts s (execCompletionHeadDoorbell ring value s) :=
  .only (.of_frame (State.writeBar2_frame ..))

@[simp] theorem execIrqCoalesceTimeout_confined {ring} : RowConfined [.host] s (execIrqCoalesceTimeout ring s) := .only (.of_frame
    (State.interrupt_frame ..))

@[simp] theorem execMsixUnmask_confined {vector} : RowConfined [.host] s (execMsixUnmask vector s) := by
  unfold execMsixUnmask
  split
  · exact .skip (.next ((State.flushVector_frame ..).over (.upd (.refl ..))))
  · exact .skip (.next ((State.flushVectors_frame _).over (.upd (.refl ..))))

@[simp] theorem execDescriptorFetch_confined {ring desc} : RowConfined eventParts s (execDescriptorFetch ring desc s) := by
  unfold execDescriptorFetch
  extract_lets _ _ _ s1 _ s2 s3
  have turn : Frame [.host] s s1 := (State.takeTurn_frame ..).trans (State.modRing_frame ..)
  have fetched : Frame [.host] s s2 := .upd turn
  refine .skip (.ite (.next ((State.rejectFetched_frame ..).over ((State.raise_quiet (calm_src (by decide) (by decide))).over fetched.within))) ?_)
  have counted : Frame [.host] s s3 := fetched.trans (State.modRing_frame ..)
  split
  · exact .next ((State.rejectFetched_frame ..).over counted.within)
  · exact .ite (.next (.upd counted.within)) (.next ((State.takeSeq_frame _).over (.upd counted.within)))

@[simp] theorem execFenceRelease_confined {cid} : RowConfined [.host, .cmds] s (execFenceRelease cid s) := by
  unfold execFenceRelease
  split
  · exact .stay
  · exact .skip (.next ((State.takeSeq_frame _).over (.upd (.refl ..))))

@[simp] theorem execHostMasterResume_confined : RowConfined [.host, .cmds] s (execHostMasterResume s) := .skip (.of_frame (State.hostChange_frame ..))

@[simp] theorem execHostLinkDown_confined :
    RowConfined eventParts s (execHostLinkDown s) := .only (.next ((State.raise_quiet (calm_src (by decide) (by decide))).over (.upd (.refl ..))))

@[simp] theorem execHostLinkRetrain_confined {width rate} : RowConfined eventParts s (execHostLinkRetrain width rate s) := by
  unfold execHostLinkRetrain
  dsimp only
  refine .skip (.next (Frame.ite (fun _ => ?_) (fun _ => (State.raiseCause_frame ..).over ?_)))
  all_goals
    refine Frame.ite (fun _ => ?_) (fun _ => (State.raise_quiet (calm_src (by decide) (by decide))).over ?_)
    all_goals exact (State.release_frame _).over (.upd (.refl ..))

@[simp] theorem execHostReadCompletion_confined {req outcome} :
    RowConfined (eventParts.append [.cel, .models, .sessions, .runs, .launches, .trans]) s (execHostReadCompletion req outcome s) := by
  refine .skip ?_
  dsimp only
  split
  · exact .next (((State.aerError_frame ..).within.andThen (State.raiseOn_quiet (calm_src (by decide) (by decide)))).andThen
      (State.hostReadFailed_frame ..))
  · exact .next ((State.raise_quiet (calm_src (by decide) (by decide))).within.andThen (State.hostReadFailed_frame ..))

@[simp] theorem execHostCompletionTimeout_confined {req} :
    RowConfined (eventParts.append [.cel, .models, .sessions, .runs, .launches, .trans]) s (execHostCompletionTimeout req s) :=
  .skip (.next (((State.aerError_frame ..).within.andThen (State.raise_quiet (calm_src (by decide) (by decide)))).andThen (State.hostReadFailed_frame ..)))

@[simp] theorem execConfigurationWrite_confined {change} : RowConfined [.host, .cmds] s (execConfigurationWrite change s) := by
  refine .skip ?_
  split
  · exact .of_frame (State.hostChange_frame ..)
  · exact .of_frame (State.hostChange_frame ..)
  · exact .only (.next (.upd (.refl ..)))
  · exact .next ((State.flushVectors_frame _).over (.upd (.refl ..)))
  · exact .skip (.ite (.next (.upd (.refl ..))) (.next ((State.flushVector_frame ..).over (.upd (.refl ..)))))
  · exact .next ((State.flushVectors_frame _).over (.upd (.refl ..)))
  · exact .next (.upd (.refl ..))
  · exact .next (.upd (.refl ..))

@[simp] theorem execBar4Read_confined {offset size} : RowConfined (eventParts.append [.mem]) s (execBar4Read offset size s) := by
  unfold execBar4Read
  dsimp only
  refine .skip (.ite (.next (.upd (.refl ..))) (.skip (.next ?_)))
  split
  next bad => exact ((State.bar4Events_frame offset size s).within.andThen (State.reportAccess_quiet (calm_access bad))).upd
  · exact ((State.bar4Events_frame offset size s).within.andThen (State.touch_frame ..)).upd

@[simp] theorem execBar4Write_confined {offset data} : RowConfined (eventParts.append [.mem, .bytes]) s (execBar4Write offset data s) :=
  .skip (.ite (.next ((State.bar4Events_frame ..).within.andThen (State.writeMem_frame ..))) (.next ((State.bar4Events_frame ..).within.andThen
      (State.bar4Store_frame ..))))

/-! ## Registers -/

@[simp] theorem execRegisterWrite_confined {offset size value} :
    RowConfined (eventParts.append [.boot, .tiles, .hubBundles, .engines, .cxl, .scu]) s (execRegisterWrite offset size value s) :=
  .skip (.ite (.of_frame (State.badAccess_frame ..)) (.ite (.next ((State.writeReg_frame ..).within.andThen (State.writeReg_frame ..)))
    (.of_frame (State.writeReg_frame ..))))

@[simp] theorem execBarAccessInvalid_confined {bar offset size write} : RowConfined eventParts s (execBarAccessInvalid bar offset size write s) := by
  refine .skip (.ite (.next (Frame.ite (fun _ => .upd (.refl ..)) (fun _ => .refl ..))) (.ite (.of_frame (State.badAccess_frame ..)) (.next ?_)))
  exact .upd (State.badAccess_frame 0 s).within

@[simp] theorem execFltClearRearm_confined : RowConfined [.ret, .flt] s (execFltClearRearm s) := .only (.of_frame (State.rearm_frame _))

@[simp] theorem execFltClearAll_confined : RowConfined [.flt] s (execFltClearAll s) := .only (.of_frame (State.clearSticky_frame _))

@[simp] theorem execFltClearOne_confined {source} : RowConfined [.flt] s (execFltClearOne source s) := .only (.of_frame (State.clearOne_frame ..))

/-! ## General and memory commands -/

@[simp] theorem execNop_confined {cid} : RowConfined [.cmds] s (execNop cid s) := .command fun _ _ h => h.andThen (State.finishCmd_frame ..)

@[simp] theorem execIdentify_confined {cid} : RowConfined [.cmds] s (execIdentify cid s) := .command fun _ _ h => h.andThen (State.finishCmd_frame ..)

@[simp] theorem execGetStatus_confined {cid} : RowConfined [.cmds, .free] s (execGetStatus cid s) :=
  .command fun _ _ h => (h.andThen (State.finishCmd_frame ..)).andThen (State.spend_frame ..)

@[simp] theorem execSetFeatureBar4Aperture_confined {cid} : RowConfined [.host, .cmds] s (execSetFeatureBar4Aperture cid s) := by
  refine .setFeature fun c u h => ?_
  refine Frame.ite (fun _ => (State.finishBytes_frame ..).over (h.upd)) (fun _ => ?_)
  split
  · exact Frame.ite (fun _ => (State.finishBytes_frame ..).over (h.upd)) (fun _ => h.andThen (State.finishCmd_frame ..))
  · exact h.andThen (State.finishCmd_frame ..)

@[simp] theorem execSetFeatureCxlPortOffline_confined {cid} :
    RowConfined (linkParts.append [.cel, .cmds, .cxl, .free]) s (execSetFeatureCxlPortOffline cid s) :=
  .setFeature fun _ _ h => Frame.ite (fun _ => h.andThen (State.finishCmd_frame ..))
    (fun _ => (h.andThen (State.askOffline_frame ..)).andThen (State.finishBytes_frame ..))

@[simp] theorem execSetFeaturePowerCap_confined {cid} : RowConfined [.th, .cmds] s (execSetFeaturePowerCap cid s) :=
  .setFeature fun _ _ h => Frame.ite (fun _ => h.andThen (State.finishCmd_frame ..))
    (fun _ => (State.finishBytes_frame ..).over (h.upd))

@[simp] theorem execSetFeatureThrottleStart_confined {cid} : RowConfined [.th, .cmds] s (execSetFeatureThrottleStart cid s) :=
  .setFeature fun _ _ h => (State.finishBytes_frame ..).over (h.upd)

@[simp] theorem execGetFeature_confined {cid} : RowConfined [.cmds] s (execGetFeature cid s) := .command fun _ _ h => h.andThen (State.finishBytes_frame ..)

@[simp] theorem execMemAlloc_confined {cid} : RowConfined [.ret, .cmds, .mem, .bytes] s (execMemAlloc cid s) := by
  refine .command fun c u h => Frame.ite (fun _ => h.andThen (State.finishCmd_frame ..)) (fun _ => ?_)
  split
  · refine Frame.ite (fun _ => h) (fun _ => ?_)
    refine (State.finishCmd_frame ..).over ((State.noteGen_frame ..).over ((State.overwrite_frame ..).over ?_))
    exact h.andThen (Frame.upd (ps := [.mem, .bytes]) (.refl _ u))
  · exact h.andThen (State.finishCmd_frame ..)

@[simp] theorem execMemFree_confined {cid} : RowConfined [.cmds, .mem, .bytes, .graphs, .graphGen, .kernels, .kernelGen] s (execMemFree cid s) := by
  refine .command fun c u h => ?_
  dsimp only
  have busy : Frame _ s (u.finishCmd cid .busy []) := h.andThen (State.finishCmd_frame ..)
  split
  · exact Frame.ite (fun _ => busy) (fun _ => (State.finishCmd_frame ..).over (h.andThen (Frame.upd (ps := [.mem, .bytes]) (.refl _ u))))
  · exact Frame.ite (fun _ => busy) (fun _ => (State.finishCmd_frame ..).over (h.upd))
  · exact Frame.ite (fun _ => busy) (fun _ => (State.finishCmd_frame ..).over (h.upd))
  · exact h.andThen (State.finishCmd_frame ..)

@[simp] theorem execDmaCopy_confined {cid source} : RowConfined (eventParts.append [.mem, .bytes]) s (execDmaCopy cid source s) := by
  refine .commandReading (fun c u v h stops => h.andThen (dmaStop_frame stops)) (fun c u h => ?_)
  refine Frame.ite (fun _ => .refl ..) (fun _ => Frame.ite (fun _ => h) (fun _ => ?_))
  split
  next bad => exact h.andThen (State.badAccessBy_frame bad)
  next bad => exact h.andThen (State.badAccessBy_frame bad)
  · refine Frame.ite (fun _ => (State.finishWrites_frame ..).over ?_) (fun _ => (State.finishCmd_frame ..).over ((State.writeMem_frame ..).over ?_))
    all_goals exact h.andThen (State.touch_frame ..)

@[simp] theorem execRolePlan_confined {cid} : RowConfined [.cel, .cmds] s (execRolePlan cid s) := by
  refine .command fun c u h => ?_
  have fails {st : Status} : Frame _ s (u.finishCmd cid st []) := h.andThen (State.finishCmd_frame ..)
  refine Frame.ite (fun _ => fails) (fun _ => Frame.ite (fun _ => fails) (fun _ => Frame.ite (fun _ => fails) (fun _ => ?_)))
  exact (State.finishCmd_frame ..).over (h.upd)

@[simp] theorem execPlacementQuery_confined {cid} : RowConfined [.cmds] s (execPlacementQuery cid s) := by
  refine .command fun c u h => ?_
  split
  · exact h.andThen (State.finishCmd_frame ..)
  · exact Frame.ite (fun _ => h.andThen (State.finishCmd_frame ..)) (fun _ => h.andThen (State.finishWrites_frame ..))

/-! ## Test, log, settings, identity and power commands -/

@[simp] theorem execSelftestSummary_confined {cid} :
    RowConfined [.cmds] s (execSelftestSummary cid s) := .selftest fun _ _ h => h.andThen (State.finishCmd_frame ..)

@[simp] theorem execSelftestFull_confined {cid ms found} :
    RowConfined (eventParts.append (lossParts.append (linkParts.append [.pins, .sec, .svc, .th, .free, .stop])))
      s (execSelftestFull cid ms found s) := by
  refine .selftest fun c u h => Frame.ite (fun _ => ?begins) (fun _ => Frame.ite (fun _ => .refl ..) (fun _ => ?ends))
  case begins =>
    exact Frame.ite (fun _ => h.andThen (State.finishCmd_frame ..)) (fun _ => Frame.foldl (fun _ _ k => k.andThen (State.startDrain_frame ..)) _ h)
  case ends =>
    refine (State.finishCmd_frame ..).over ((State.remapTiles_frame _).over ?_)
    exact Frame.foldl (fun _ _ k => Frame.ite (fun _ => k.andThen (State.actOnFailure_frame ..)) (fun _ => k)) _ (h.upd)

@[simp] theorem execMarginTest_confined {cid eyes} : RowConfined [.engines, .cmds] s (execMarginTest cid eyes s) := by
  refine .command fun c u h => Frame.ite (fun _ => ?begins) (fun _ => Frame.ite (fun _ => .refl ..) (fun _ => ?ends))
  case begins =>
    have fails {st : Status} {l : List (Nat × Nat × Nat)} : Frame _ s (u.finishCmd cid st l) := h.andThen (State.finishCmd_frame ..)
    exact Frame.ite (fun _ => fails) (fun _ => Frame.ite (fun _ => fails) (fun _ => Frame.ite (fun _ => fails)
      (fun _ => Frame.ite (fun _ => fails) (fun _ => h.andThen (State.modEngine_frame ..)))))
  case ends => exact (h.andThen (State.modEngine_frame ..)).andThen (State.finishWrites_frame ..)

@[simp] theorem execFaultInject_confined {cid} : RowConfined [.flt, .cmds] s (execFaultInject cid s) := by
  refine .command fun c u h => ?_
  have fails {st : Status} : Frame _ s (u.finishCmd cid st []) := h.andThen (State.finishCmd_frame ..)
  refine Frame.ite (fun _ => fails) (fun _ => Frame.ite (fun _ => fails) (fun _ => Frame.ite (fun _ => fails) (fun _ => ?_)))
  exact (State.finishCmd_frame ..).over (h.upd)

@[simp] theorem execLogRead_confined {cid} : RowConfined [.ret, .flashA, .flashB, .log, .cmds] s (execLogRead cid s) := by
  refine .command fun c u h => ?_
  have shown (b : Bool) : Frame _ s (if b then u.commitOpen else u) := Frame.ite (fun _ => h.andThen (State.commitOpen_frame u)) (fun _ => h)
  exact Frame.ite (fun _ => (shown _).andThen (State.finishCmd_frame ..)) (fun _ => (shown _).andThen (State.finishWrites_frame ..))

@[simp] theorem execSettingsRead_confined {cid} : RowConfined [.cmds] s (execSettingsRead cid s) :=
  .command fun _ _ h => Frame.ite (fun _ => h.andThen (State.finishCmd_frame ..)) (fun _ => h.andThen (State.finishWrites_frame ..))

@[simp] theorem execSettingsWrite_confined {cid image} : RowConfined eventParts s (execSettingsWrite cid image s) := by
  refine .hostCommand (fun c u v h stops => ?_) (fun c u h => ?_)
  · split at stops
    · cases stops; exact h.andThen (State.finishCmd_frame ..)
    · split at stops
      · cases stops; exact h.andThen (State.finishCmd_frame ..)
      · cases stops
  · have fails {st : Status} : Frame _ s (u.finishCmd cid st []) := h.andThen (State.finishCmd_frame ..)
    refine Frame.ite (fun _ => .refl ..) (fun _ => Frame.ite (fun _ => fails) (fun _ => Frame.ite (fun _ => ?unsigned) (fun _ => ?signed)))
    case unsigned => exact (h.andThen (State.raise_quiet (calm_src (by decide) (by decide)))).andThen (State.finishCmd_frame ..)
    case signed => exact Frame.ite (fun _ => fails) (fun _ => Frame.ite (fun _ => fails) (fun _ => h.andThen (State.enqueueBoth_frame ..)))

@[simp] theorem execAttest_confined {cid} : RowConfined (eventParts.append [.sec]) s (execAttest cid s) := by
  refine .command fun c u h => ?_
  have fails {st : Status} {l : List (Nat × Nat × Nat)} : Frame _ s (u.finishCmd cid st l) := h.andThen (State.finishCmd_frame ..)
  refine Frame.ite (fun _ => fails) (fun _ => Frame.ite (fun _ => h.andThen (State.failCmd_frame ..)) (fun _ => Frame.ite (fun _ => ?empty) (fun _ =>
      ?signs)))
  case empty => exact Frame.ite (fun _ => fails) (fun _ => Frame.ite (fun _ => fails) (fun _ => h))
  case signs => exact (h.andThen (State.takeIndex_frame _)).andThen (State.finishWrites_frame ..)

@[simp] theorem execRestart_confined {cid} : RowConfined [.ret, .flashA, .flashB, .log, .cmds] s (execRestart cid s) :=
  .next (State.powerCommand_frame (.refl ..) (fun _ h => h.andThen (State.commitOpen_frame _)) (by decide))

@[simp] theorem execRestartForce_confined {cid} :
    RowConfined (linkParts.append [.ret, .flashA, .flashB, .log, .cel, .host, .cmds, .models, .sessions, .sessionGen, .migs, .runs, .launches, .free])
      s (execRestartForce cid s) :=
  .next (State.forceCommand_frame (.refl ..) (fun _ h => h.andThen (State.commitOpen_frame _)) (by decide))

@[simp] theorem execShutdown_confined {cid} :
    RowConfined [.pins, .ret, .boot, .flashA, .flashB, .log, .tiles, .engines, .els, .cmds, .mem, .bytes, .runs, .launches] s (execShutdown cid s) :=
  .next (State.powerCommand_frame (.refl ..) (fun _ h => h.andThen (State.shutDown_frame ..)) (by decide))

@[simp] theorem execShutdownForce_confined {cid} :
    RowConfined (lossParts.append (linkParts.append [.pins, .ret, .boot, .flashA, .flashB, .log, .els, .host, .cmds, .free]))
      s (execShutdownForce cid s) :=
  .next (State.forceCommand_frame (.refl ..) (fun _ h => h.andThen (State.shutDown_frame ..)) (by decide))

end Sys2Proof.Machine
end

section
/-! The rows of links, engines, lasers, bring-up and frames change only their parts (O50). -/

set_option Elab.async false
namespace Sys2Proof.Machine
variable {s : State}

/-! ## Links and bundles -/

@[simp] theorem execDataFlitReceive_confined {link slot flit} : RowConfined (eventParts.append linkParts) s (execDataFlitReceive link slot flit s) := by
  have taken := State.takeFlit_frame link flit s
  refine .skip (.ite (.next ((State.flitFailed_frame ..).over ?_)) (.ite (.next (taken.within.andThen (State.protocol_frame ..))) (.next ?_)))
  · exact Frame.ite (fun _ => taken.within) (fun _ => taken.within.andThen (State.modFar_frame ..))
  · refine Frame.ite (fun _ => (State.passOn_frame ..).over ?_) (fun _ => ?_)
    all_goals exact ((taken.within.andThen (State.modLink_frame ..)).andThen (State.modFar_frame ..)).andThen (State.unfreeze_frame ..)

@[simp] theorem execLinkFlitReceive_confined {link slot flit} :
    RowConfined (eventParts.append (lossParts.append (linkParts.append [.pins, .svc]))) s (execLinkFlitReceive link slot flit s) := by
  have taken := State.takeFlit_frame link flit s
  have reported {f g h : LinkEnd → LinkEnd} : Frame _ s
      (((((s.takeFlit link flit).modLink link f).modLink link g).unfreeze link).modFar link h) :=
    (((taken.append (State.modLink_frame ..)).append (State.modLink_frame ..)).append (State.unfreeze_frame ..)).append (State.modFar_frame ..)
  refine .skip (.ite (.next (taken.within.andThen (State.flitFailed_frame ..))) ?_)
  dsimp only
  split
  · exact .next (reported.within.andThen (State.takeNak_frame ..))
  · exact .next reported.within

@[simp] theorem execFillerFlitReceive_confined {link slot flit} :
    RowConfined (eventParts.append [.tiles, .hubBundles, .engines]) s (execFillerFlitReceive link slot flit s) :=
  .skip (.ite (.of_frame (State.takeFlit_frame ..)) (.next ((State.takeFlit_frame ..).within.andThen (State.flitFailed_frame ..))))

@[simp] theorem execLinkFlitTimer_confined {link} :
    RowConfined [.tiles, .hubBundles, .engines] s (execLinkFlitTimer link s) := .only (.of_frame (State.modLink_frame ..))

@[simp] theorem execReplayTimerExpiry_confined {link age} :
    RowConfined (eventParts.append (lossParts.append (linkParts.append [.pins, .svc]))) s (execReplayTimerExpiry link age s) := by
  refine .skip ?_
  split
  · exact .stay
  · exact .next (((State.modLink_frame ..).within.andThen (State.replayEvent_frame ..)).andThen (State.replayLimit_frame ..))

@[simp] theorem execNakResend_confined {link} :
    RowConfined [.tiles, .hubBundles, .engines] s (execNakResend link s) := .only (.of_frame (State.modLink_frame ..))

@[simp] theorem execWireFillerError_confined {at_ wire} :
    RowConfined (eventParts.append [.tiles, .hubBundles, .engines]) s (execWireFillerError at_ wire s) :=
  .only (.of_frame (State.startInline_frame ..))

@[simp] theorem execPhaseTrack_confined {at_ moves} :
    RowConfined [.tiles, .hubBundles, .engines] s (execPhaseTrack at_ moves s) := .only (.of_frame (State.modBundle_frame ..))

@[simp] theorem execInlineCheckDone_confined {at_ failed} :
    RowConfined (eventParts.append (lossParts.append (linkParts.append [.pins, .svc]))) s (execInlineCheckDone at_ failed s) := by
  refine .skip (.ite (.only (.of_frame (State.bundleBack_frame ..))) ?_)
  have noted := Frame.ite (c := bundleInjected s at_) (fun _ => .refl _ s)
    (fun _ => State.recordWires_frame at_ (failed ++ strayed (bundleAt s at_)).eraseDups s)
  dsimp only
  split
  · exact .next (noted.within.andThen (State.bundleOut_frame ..))
  · refine .next ((State.modFar_frame ..).over ((State.modBundle_frame ..).over ?_))
    split
    · exact (noted.within.andThen (State.applyMap_frame ..)).andThen (State.noteBlock_frame ..)
    · exact noted.within.andThen (State.applyMap_frame ..)

/-! ## Engines: pauses, rings, lasers -/

@[simp] theorem execPause_confined {e slot dir} : RowConfined [.engines] s (execPause e slot dir s) := .of_frame (State.pauseSlot_frame ..)

@[simp] theorem execResume_confined {e slot dir} : RowConfined [.engines] s (execResume e slot dir s) := .of_frame (State.resumeSlot_frame ..)

@[simp] theorem execSlotErrorBurst_confined {e slot} : RowConfined (eventParts.append [.engines]) s (execSlotErrorBurst e slot s) :=
  .skip (.next ((State.raiseWave_quiet (by decide) (by decide)).within.andThen (State.pauseSlot_frame ..)))

@[simp] theorem execRingIdentityCheck_confined {e r dominant} :
    RowConfined (eventParts.append (linkParts.append [.pins, .svc])) s (execRingIdentityCheck e r dominant s) :=
  .skip (.ite (.next ((State.modOeRing_frame ..).within.andThen (State.settleTone_frame ..)))
    (.next (((State.modOeRing_frame ..).within.andThen (State.wrongChannel_frame ..)).andThen (State.settleTone_frame ..))))

@[simp] theorem execRingLockLost_confined {e r} :
    RowConfined (eventParts.append [.engines]) s (execRingLockLost e r s) := .only (.of_frame (State.lockLost_frame ..))

@[simp] theorem execRingLocked_confined {e r heater dominant tonePresent} :
    RowConfined (eventParts.append (linkParts.append [.pins, .svc])) s (execRingLocked e r heater dominant tonePresent s) :=
  .skip (.ite (.next ((State.lockRing_frame ..).within.andThen (State.settleTone_frame ..)))
    (.next ((State.wrongChannel_frame ..).within.andThen (State.settleTone_frame ..))))

@[simp] theorem execRelockTimeout_confined {e r tonePresent} :
    RowConfined (eventParts.append (linkParts.append [.pins, .svc])) s (execRelockTimeout e r tonePresent s) :=
  .only (.of_frame (State.failRing_frame ..))

@[simp] theorem execRingRetry_confined {e r ok tonePresent heater} :
    RowConfined (linkParts.append [.ret, .flashA, .flashB, .log, .flt]) s (execRingRetry e r ok tonePresent heater s) :=
  .skip (.ite (.next ((State.modOeRing_frame ..).within.andThen (State.lockRing_frame ..)))
    (.ite (.next ((State.modOeRing_frame ..).within.andThen (State.openRing_frame ..))) (.of_frame (State.modOeRing_frame ..))))

@[simp] theorem execRingSweep_confined {e orders} : RowConfined [.ret, .flashA, .flashB, .log, .engines] s (execRingSweep e orders s) := by
  refine .skip (.next (Frame.foldl (fun u p h => Frame.ite (fun _ => h) (fun _ => ?_)) _ (State.modEngine_frame ..).within))
  split
  · exact h.andThen (State.lockRing_frame ..)
  · exact h.andThen (State.modOeRing_frame ..)

@[simp] theorem execFeedForwardUpdate_confined {e} : RowConfined (eventParts.append [.engines, .free]) s (execFeedForwardUpdate e s) := by
  refine .next ((State.spend_frame ..).over (Frame.foldl (fun u r h => ?_) _ (State.modEngine_frame ..).within))
  exact Frame.ite (fun _ => h) (fun _ => Frame.ite (fun _ => h.andThen (State.modOeRing_frame ..))
    (fun _ => Frame.ite (fun _ => h.andThen (State.lockLost_frame ..)) (fun _ => h)))

@[simp] theorem execLaserExcursion_confined {e f power} :
    RowConfined (eventParts.append (linkParts.append [.pins, .svc, .els])) s (execLaserExcursion e f power s) :=
  .skip (.next ((((State.setLaser_frame ..).within.andThen (State.modEngine_frame ..)).andThen (State.raiseFor_quiet (calm_src (by decide)
      (by decide)))).andThen (State.failFibre_frame ..)))

@[simp] theorem execLaserLow_confined {e f power lost} : RowConfined (eventParts.append (linkParts.append [.pins, .svc])) s
    (execLaserLow e f power lost s) :=
  .skip (.next (((State.modEngine_frame ..).within.andThen (State.raise_quiet (calm_src (by decide) (by decide)))).andThen (State.failFibre_frame ..)))

@[simp] theorem execLaserRestore_confined {e f} : RowConfined [.engines, .els, .free] s (execLaserRestore e f s) := by
  refine .skip ?_
  split
  · exact .of_frame (State.setLaser_frame ..)
  · exact .only (.next (((State.setLaser_frame ..).within.andThen (State.modEngine_frame ..)).andThen (State.spend_frame ..)))
  · exact .ite (.of_frame (State.setLaser_frame ..)) (.of_frame (State.modEngine_frame ..))

@[simp] theorem execOpenFibre_confined {e f} : RowConfined (eventParts.append (linkParts.append [.els])) s (execOpenFibre e f s) := by
  refine .skip ?_
  have dark {g : Engine → Engine} : Frame _ s (((s.modEngine e g).probeLasers e).raise (srcId 2 e 7) f.val) :=
    ((State.modEngine_frame ..).append (State.probeLasers_frame ..)).append (State.raise_quiet (calm_src (by decide) (by decide)))
  split
  · exact .next (dark.within.andThen (State.linkDown_frame ..))
  · exact .ite (.next (dark.within.andThen (State.failAttempt_frame ..))) (.next dark.within)
  · exact .next dark.within

@[simp] theorem execElsPresence_confined {port gridOk toneOk} :
    RowConfined (eventParts.append (linkParts.append [.pins, .svc, .els])) s (execElsPresence port gridOk toneOk s) := by
  unfold execElsPresence
  dsimp only
  refine .skip ?_
  have there {g : Els → Els} {f : Engine → Engine} : Frame [.els, .engines] s
      ((portEngines port).foldl (fun t e => t.modEngine e f) { s with els := modAt s.els port g }) :=
    Frame.foldl (fun _ _ h => h.andThen (State.modEngine_frame ..)) _ (.upd (.refl ..))
  refine .ite (.next (Frame.foldl (fun u e h => (State.beginBringUp_frame ..).over ?_) _ there.within)) (.next ((State.elsFault_frame ..).over ?_))
  · exact Frame.foldl (fun _ _ k => Frame.ite (fun _ => k.andThen (State.setLaser_frame ..)) (fun _ => k)) _ h
  · exact Frame.foldl (fun _ _ h => ((h.andThen (State.setLaser_frame ..)).andThen (State.setLaser_frame ..)).andThen
      (State.setLinkState_frame ..)) _ there.within

@[simp] theorem execElsMonitorPoll_confined {port failed} :
    RowConfined (eventParts.append (linkParts.append [.pins, .svc, .els])) s (execElsMonitorPoll port failed s) :=
  .only (.of_frame (State.elsLost_frame ..))

@[simp] theorem execElsInterrupt_confined {port failed} :
    RowConfined (eventParts.append (linkParts.append [.pins, .svc, .els])) s (execElsInterrupt port failed s) :=
  .only (.of_frame (State.elsLost_frame ..))

@[simp] theorem execElsTimeout_confined {port} : RowConfined (eventParts.append (linkParts.append [.pins, .svc, .els])) s (execElsTimeout port s) :=
  .skip (.next ((State.elsFault_frame ..).over (Frame.foldl (fun _ _ h => (h.andThen (State.setLinkState_frame ..)).andThen (State.modEngine_frame ..)) _
    (.upd (.refl ..)))))

@[simp] theorem execSpareMarginTest_confined {e r height width} : RowConfined eventParts s (execSpareMarginTest e r height width s) :=
  .skip (.ite (.next ((State.raise_quiet (calm_src (by decide) (by decide))).over (.upd (.refl ..)))) (.next (.upd (.refl ..))))

/-! ## Bring-up and live changes -/

@[simp] theorem execRouteRestore_confined {e} :
    RowConfined (eventParts.append [.engines, .trans]) s (execRouteRestore e s) :=
  .only (.next ((State.modEngine_frame ..).within.andThen (State.reroute_frame ..)))

@[simp] theorem execHello_confined {e word} :
    RowConfined (eventParts.append (linkParts.append [.els])) s (execHello e word s) := .of_frame (State.onHello_frame ..)

@[simp] theorem execPortAbsentListen_confined {e heard} : RowConfined (eventParts.append [.engines, .els]) s (execPortAbsentListen e heard s) := by
  unfold execPortAbsentListen
  split
  · exact .of_frame (State.portFound_frame ..)
  · exact .stay

@[simp] theorem execBringupTimeout_confined {e} : RowConfined [.engines, .els] s (execBringupTimeout e s) := .only (.of_frame (State.failAttempt_frame ..))

@[simp] theorem execBringupRetry_confined {e} : RowConfined (eventParts.append [.boot, .engines, .els]) s (execBringupRetry e s) :=
  .skip (.ite (.next ((State.modEngine_frame ..).within.andThen (State.sendWord_frame ..))) (.of_frame (State.portAbsent_frame ..)))

@[simp] theorem execTrain_confined {e step status rate passing} :
    RowConfined (eventParts.append (linkParts.append [.els, .free])) s (execTrain e step status rate passing s) := .of_frame (State.onTrain_frame ..)

@[simp] theorem execMap_confined {e slot dir fibre lambda effective} :
    RowConfined [.engines] s (execMap e slot dir fibre lambda effective s) := .of_frame (State.onMap_frame ..)

@[simp] theorem execRateWidth_confined {e rate width dir effective} : RowConfined [.engines] s (execRateWidth e rate width dir effective s) :=
  .of_frame (State.onRateWidth_frame ..)

@[simp] theorem execEffectiveFrame_confined {e dir} :
    RowConfined (eventParts.append [.pins, .boot, .svc, .engines, .trans]) s (execEffectiveFrame e dir s) := by
  refine .skip ?_
  dsimp only
  split
  next c _ =>
    refine .ite (.only (.of_frame (State.endChange_frame ..))) (.skip ?_)
    have switched := State.switchChange_frame e (bnat dir) c s
    have tapped := Frame.ite (ps := eventParts.append [.pins, .svc, .engines]) (c := (!c.rateChange) = true) (fun _ => switched.within) (fun _ =>
      Frame.ite (c := bnat dir = 0) (fun _ => switched.within.andThen (State.rateTaps_frame e (engineAt s e).tx.rate c.rate _))
        (fun _ => switched.within.andThen (State.modEngine_frame e (fun x => { x with ffe := x.ffe.map Ffe.anew }) _)))
    exact .ite (.next (tapped.within.andThen (State.directionSet_frame ..))) (.ite (.next tapped.within) (.next (tapped.within.andThen
        (State.endChange_frame ..))))
  · split
    · exact .stay
    · exact .only (.of_frame (State.switchMaps_frame ..))

@[simp] theorem execLiveChangeTimeout_confined {e dir} : RowConfined (eventParts.append (linkParts.append [.els])) s (execLiveChangeTimeout e dir s) := by
  refine .skip ?_
  have raised := State.raise_quiet (d := bnat dir) (calm_src (c := 2) (n := e) (k := 0x12) (by decide) (by decide)) (s := s)
  split
  · exact .next (raised.within.andThen (State.linkDown_frame ..))
  · exact .next (raised.within.andThen (State.failAttempt_frame ..))
  · exact .stay

@[simp] theorem execFfeReq_confined {e ring post action} : RowConfined [.engines] s (execFfeReq e ring post action s) := .of_frame (State.onFfeReq_frame ..)

@[simp] theorem execFfeAck_confined {e ring pre post limit} :
    RowConfined [.engines] s (execFfeAck e ring pre post limit s) := .of_frame (State.onFfeAck_frame ..)

@[simp] theorem execIdleFreeze_confined {e} : RowConfined [.engines] s (execIdleFreeze e s) := .only (.of_frame (State.modDir_frame ..))

@[simp] theorem execTrainingBlock_confined {e ring} : RowConfined [.engines] s (execTrainingBlock e ring s) := .only (.of_frame (State.modDir_frame ..))

@[simp] theorem execLinkErrorBucket_confined {e positions} : RowConfined (eventParts.append linkParts) s (execLinkErrorBucket e positions s) :=
  .skip (.ite (.next ((State.modEngine_frame ..).within.andThen (State.linkDown_frame ..))) (.of_frame (State.modEngine_frame ..)))

@[simp] theorem execFrameTransmit_confined {e} : RowConfined (eventParts.append [.engines, .els, .free]) s (execFrameTransmit e s) :=
  .ite (.of_frame (State.beforeFrame_frame ..)) (.next (((State.beforeFrame_frame ..).within.andThen (State.modEngine_frame ..)).andThen
      (State.spend_frame ..)))

@[simp] theorem execFrameReceive_confined {e fibre lambda bits} :
    RowConfined (eventParts.append (linkParts.append [.pins, .svc, .els, .free])) s (execFrameReceive e fibre lambda bits s) := by
  unfold execFrameReceive
  extract_lets _ _ _ _ _ _ _ word
  clear_value word
  refine .skip ?_
  split
  extract_lets s1 s2 _ s3 s4
  have counted : Frame (eventParts.append (linkParts.append [.pins, .svc, .els, .free])) s s1 := (State.modDir_frame ..).within
  have paused : Frame (eventParts.append (linkParts.append [.pins, .svc, .els, .free])) s s2 := Frame.ite (fun _ => (counted.andThen
      (State.raiseWave_quiet (by decide) (by decide))).andThen (State.pauseSlot_frame ..)) (fun _ => counted)
  have adapted : Frame (eventParts.append (linkParts.append [.pins, .svc, .els, .free])) s s3 := (paused.andThen (State.modEngine_frame ..)).andThen
      (State.adaptTaps_frame ..)
  have found : Frame (eventParts.append (linkParts.append [.pins, .svc, .els, .free])) s s4 :=
    Frame.ite (fun _ => (adapted.andThen (State.modOeRing_frame ..)).andThen (State.wrongChannel_frame ..)) (fun _ => adapted)
  split
  · exact .ite (.next found) (.next (found.andThen (State.takeNewWord_frame ..)))
  · exact .next found

end Sys2Proof.Machine
end

section
/-! The rows of graphs, of kernels, of models and of sessions change only their parts (O45, O46, O47). -/

set_option Elab.async false
namespace Sys2Proof.Machine
variable {s : State}

/-! ## Runs of graphs -/

@[simp] theorem execGraphLoad_confined {cid image} : RowConfined [.ret, .cmds, .graphs] s (execGraphLoad cid image s) := by
  refine .hostCommand (fun _ _ _ _ stops => nomatch stops) (fun c u h => Frame.ite (fun _ => .refl ..) (fun _ => ?_))
  split
  · exact Frame.ite (fun _ => h.andThen (State.finishCmd_frame ..)) (fun _ => h.andThen (State.finishCmd_frame ..))
  · split
    · exact h.andThen (State.finishCmd_frame ..)
    · exact (State.finishCmd_frame ..).over ((State.noteGen_frame ..).over (h.upd))

@[simp] theorem execGraphRun_confined {cid binds participants} :
    RowConfined (eventParts.append (linkParts.append [.cel, .mem, .bytes, .models, .sessions, .runs, .free]))
      s (execGraphRun cid binds participants s) := by
  unfold execGraphRun
  split
  · exact .of_frame (State.tryBegin_frame ..)
  · refine .next ((State.settleHeld_frame ..).over (State.commandReading_frame (.refl ..) (fun c u v h stops => h.andThen (graphRunStop_frame stops))
      (fun c u h => Frame.ite (fun _ => .refl ..) (fun _ => ?_)) (by decide)))
    have stops {st : Status} {l : List (Nat × Nat × Nat)} : Frame _ s (u.finishCmd cid st l) := h.andThen (State.finishCmd_frame ..)
    split
    · exact stops
    · split
      · exact stops
      · exact stops
      · exact stops
      · exact Frame.ite (fun _ => stops) (fun _ => (h.andThen (State.addRun_frame ..)).andThen (State.tryBegin_frame ..))

@[simp] theorem execCollectiveJoinTimeout_confined {cid} :
    RowConfined [.cel, .cmds, .models, .sessions, .runs, .trans] s (execCollectiveJoinTimeout cid s) := by
  unfold execCollectiveJoinTimeout
  split
  · exact .stay
  · split
    · exact .next ((State.closeFailed_frame ..).within.andThen (State.dropRequests_frame ..))
    · exact .stay

@[simp] theorem runMatrix_confined {run op code residue f} :
    RowConfined (eventParts.append (lossParts.append [.tiles, .trans, .free])) s (.next (s.runMatrix run op code residue f)) := .of_frame
        (State.runMatrix_frame ..)

@[simp] theorem runOp_confined {run op code f} :
    RowConfined (eventParts.append (lossParts.append [.tiles, .trans, .free])) s (.next (s.runOp run op code f)) := .of_frame (State.runOp_frame ..)

@[simp] theorem runCollective_confined {run op code parts f} :
    RowConfined (eventParts.append (lossParts.append (linkParts.append [.free]))) s (.next (s.runCollective run op code parts f)) :=
  .of_frame (State.runCollective_frame ..)

@[simp] theorem execBroadcast_confined {run op root} :
    RowConfined (eventParts.append (lossParts.append (linkParts.append [.free]))) s (execBroadcast run op root s) := by
  unfold execBroadcast
  split
  · exact .stay
  · split
    · exact .next ((State.sendParts_frame ..).within.andThen (State.runOp_frame ..))
    · exact .next ((State.sendParts_frame ..).within.andThen (State.runOp_frame ..))
    · exact .of_frame (State.sendParts_frame ..)

@[simp] theorem execRecordMerge_confined {run op elem record} :
    RowConfined (eventParts.append [.tiles, .cel, .mem, .bytes, .models, .sessions, .runs, .trans]) s (execRecordMerge run op elem record s) := by
  unfold execRecordMerge
  split
  · exact .stay
  · split
    · exact .stay
    · split
      · exact .stay
      · exact .ite (.ite (.of_frame (State.opFailed_frame ..)) (.of_frame (State.modRun_frame ..))) (.of_frame (State.recordSuspect_frame ..))

/-! ## Kernels -/

@[simp] theorem execKernelLoad_confined {cid image} : RowConfined [.ret, .cmds, .kernels] s (execKernelLoad cid image s) := by
  refine .hostCommand (fun _ _ _ _ stops => nomatch stops) (fun c u h => Frame.ite (fun _ => .refl ..) (fun _ => ?_))
  split
  · exact h.andThen (State.finishCmd_frame ..)
  · split
    · exact h.andThen (State.finishCmd_frame ..)
    · exact (State.finishCmd_frame ..).over ((State.noteGen_frame ..).over (h.upd))

@[simp] theorem execKernelLaunch_confined {cid slots params} : RowConfined [.cel, .cmds, .launches] s (execKernelLaunch cid slots params s) := by
  unfold execKernelLaunch
  split
  · exact .of_frame (State.beginLaunch_frame ..)
  · refine .hostCommand (fun c u v h stops => h.andThen (launchStop_frame stops)) (fun c u h => Frame.ite (fun _ => .refl ..) (fun _ => ?_))
    have fails {st : Status} : Frame _ s (u.finishCmd cid st []) := h.andThen (State.finishCmd_frame ..)
    split
    · exact fails
    · exact Frame.ite (fun _ => fails) (fun _ => Frame.ite (fun _ => fails)
        (fun _ => (h.andThen (State.addLaunch_frame ..)).andThen (State.beginLaunch_frame ..)))

@[simp] theorem execKernelTimeLimit_confined {cid} : RowConfined [.launches, .free] s (execKernelTimeLimit cid s) := by
  unfold execKernelTimeLimit
  split
  · exact .only (.next ((State.kernelError_frame ..).within.andThen (State.spend_frame ..)))
  · exact .stay

@[simp] theorem execKernelNop_confined {w} : RowConfined [.launches] s (execKernelNop w s) := .kernel fun _ _ => (State.advance_frame ..).within

@[simp] theorem execBra_confined {w} : RowConfined [.launches] s (execBra w s) :=
  .kernel fun _ _ => Frame.ite (fun _ => (State.putWarp_frame ..).within)
    (fun _ => Frame.ite (fun _ => (State.kernelFault_frame ..).within) (fun _ => (State.putWarp_frame ..).within))

@[simp] theorem execJoin_confined {w} : RowConfined [.launches] s (execJoin w s) := .kernel fun _ _ => (State.putWarp_frame ..).within

@[simp] theorem execExit_confined {w} :
    RowConfined [.cel, .cmds, .launches] s (execExit w s) := .kernel fun _ _ => (State.putWarp_frame ..).within.andThen (State.settleCluster_frame ..)

@[simp] theorem execBar_confined {w} :
    RowConfined [.cel, .cmds, .launches] s (execBar w s) := .kernel fun _ _ => (State.putWarp_frame ..).within.andThen (State.settleCluster_frame ..)

@[simp] theorem execFence_confined {w} : RowConfined [.launches] s (execFence w s) := .kernel fun _ _ => (State.advance_frame ..).within

@[simp] theorem execSreg_confined {w} : RowConfined [.launches] s (execSreg w s) := .kernel fun _ _ => (State.advance_frame ..).within

@[simp] theorem execIntOp_confined {w op} : RowConfined [.launches] s (execIntOp w op s) := .kernel fun _ _ => (State.advance_frame ..).within

@[simp] theorem execFpOp_confined {w op} : RowConfined [.launches] s (execFpOp w op s) := .kernel fun _ _ => (State.advance_frame ..).within

@[simp] theorem execCvt_confined {w src dst} : RowConfined [.launches] s (execCvt w src dst s) := .kernel fun _ _ => (State.advance_frame ..).within

@[simp] theorem execCvtBlk_confined {w} : RowConfined [.mem, .bytes, .launches] s (execCvtBlk w s) :=
  .kernel fun _ _ => Frame.ite (fun _ => (State.kernelFault_frame ..).within) (fun _ => (State.spaceWrite_frame ..).within)

@[simp] theorem execLd_confined {w} : RowConfined (eventParts.append [.cel, .mem, .models, .sessions, .runs, .launches, .trans]) s (execLd w s) :=
  .kernel fun _ _ => State.access_frame (.refl ..) (fun _ h => h.andThen (State.advance_frame ..)) (by decide)

@[simp] theorem execSt_confined {w} : RowConfined (eventParts.append [.cel, .mem, .bytes, .models, .sessions, .runs, .launches, .trans]) s (execSt w s) :=
  .kernel fun _ _ => State.access_frame (.refl ..) (fun _ h => h.andThen (State.spaceWrite_frame ..)) (by decide)

@[simp] theorem execAtom_confined {w op} :
    RowConfined (eventParts.append [.cel, .mem, .bytes, .models, .sessions, .runs, .launches, .trans]) s (execAtom w op s) :=
  .kernel fun _ _ => Frame.ite (fun _ => (State.kernelFault_frame ..).within)
    (fun _ => State.access_frame (.refl ..) (fun _ h => h.andThen (State.spaceWrite_frame ..)) (by decide))

@[simp] theorem execMemCopy_confined {w} : RowConfined [.launches] s (execMemCopy w s) :=
  .kernel fun _ _ => Frame.ite (fun _ => (State.kernelFault_frame ..).within)
    (fun _ => Frame.ite (fun _ => (State.kernelFault_frame ..).within) (fun _ => (State.advance_frame ..).within))

@[simp] theorem execMemCopyDone_confined {w copy} :
    RowConfined (eventParts.append [.cel, .mem, .bytes, .models, .sessions, .runs, .launches, .trans]) s (execMemCopyDone w copy s) := by
  unfold execMemCopyDone
  split
  · exact .stay
  · split
    · exact .stay
    · refine .skip ?_
      split
      next found => exact .of_frame (State.globalFails_quiet (calm_access found))
      · exact .next ((State.settleCluster_frame ..).over (Frame.ite (fun _ => (State.touch_frame ..).within.andThen (State.spaceWrite_frame ..))
          (fun _ => (State.spaceWrite_frame ..).within)))

@[simp] theorem execWaitCopy_confined {w} : RowConfined [.launches] s (execWaitCopy w s) :=
  .kernel fun _ _ => Frame.ite (fun _ => (State.advance_frame ..).within) (fun _ => .refl ..)

@[simp] theorem execMma_confined {w residue} : RowConfined (eventParts.append [.cel, .launches, .free]) s (execMma w residue s) := by
  refine .kernel fun x _ => ?_
  have fault {code : Nat} : Frame (eventParts.append [.cel, .launches, .free]) s (s.kernelFault x code) := (State.kernelFault_frame ..).within
  refine Frame.ite (fun _ => fault) (fun _ => ?_)
  split
  · exact fault
  · exact fault
  · split
    · exact fault
    · refine Frame.ite (fun _ => fault) (fun _ => ?_)
      dsimp only
      split
      · exact (State.residueEvents_frame ..).within.andThen (State.putTile_frame ..)
      · exact (State.putTile_frame ..).within

@[simp] theorem execAccZero_confined {w} : RowConfined [.cel, .cmds, .launches] s (execAccZero w s) :=
  .kernel fun _ _ => Frame.ite (fun _ => (State.putTile_frame ..).within) (fun _ => (State.kernelFault_frame ..).within)

@[simp] theorem execAccStore_confined {w} : RowConfined (eventParts.append [.mem, .bytes, .launches]) s (execAccStore w s) := by
  refine .kernel fun x _ => ?_
  split
  · exact (State.kernelFault_frame ..).within
  · exact Frame.ite (fun _ => (State.kernelFault_frame ..).within)
      (fun _ => Frame.ite (fun _ => (State.recordEvent_frame ..).within.andThen (State.spaceWrite_frame ..)) (fun _ => (State.spaceWrite_frame ..).within))

@[simp] theorem execAccExport_confined {w} : RowConfined [.mem, .bytes, .launches] s (execAccExport w s) := by
  refine .kernel fun x _ => ?_
  dsimp only
  split
  · exact (State.kernelFault_frame ..).within
  · exact Frame.ite (fun _ => (State.kernelFault_frame ..).within) (fun _ => (State.spaceWrite_frame ..).within)

@[simp] theorem execAccMerge_confined {w} : RowConfined (eventParts.append [.cel, .launches]) s (execAccMerge w s) := by
  refine .kernel fun x _ => ?_
  split
  · exact (State.kernelFault_frame ..).within
  · exact Frame.ite (fun _ => (State.kernelFault_frame ..).within)
      (fun _ => Frame.ite (fun _ => (State.putTile_frame ..).within) (fun _ => (State.recordEvent_frame ..).within.andThen (State.putTile_frame ..)))

@[simp] theorem execAccDeposit_confined {w} : RowConfined (eventParts.append [.cel, .launches, .stop]) s (execAccDeposit w s) := by
  refine .kernel fun x _ => ?_
  dsimp only
  split
  · exact (State.kernelFault_frame ..).within
  · exact Frame.ite (fun _ => (State.kernelFault_frame ..).within)
      (fun _ => (State.putTile_frame ..).over (Frame.ite (fun _ => (State.laneEvent_frame ..).within) (fun _ => .refl ..)))

/-! ## Models -/

/-- Copies in the CXL tier, where a load asks for them (R239). -/
theorem copies_confined {copy : Prop} [Decidable copy] {i epoch : Nat} {u v : State} (placed : (if copy then u.placeCopies i epoch else some u) = some v) :
    Frame [.mem, .models] u v := by
  split at placed
  · exact State.placeCopies_frame placed
  · exact Option.some.inj placed ▸ .refl ..

@[simp] theorem execModelLoad_confined {cid manifest weights} : RowConfined [.ret, .cel, .cmds, .mem, .models] s
    (execModelLoad cid manifest weights s) := by
  refine .hostCommand (fun c u v h stops => ?_) (fun c u h => Frame.ite (fun _ => .refl ..) (fun _ => ?_))
  · split at stops
    · exact Option.some.inj stops ▸ .refl ..
    · split at stops
      · exact Option.some.inj stops ▸ h.andThen (State.loadFails_frame ..)
      · cases stops
  · have fails {st : Status} {err : Nat} : Frame _ s (u.loadFails cid st err) := h.andThen (State.loadFails_frame ..)
    split
    · exact fails
    · split
      · exact fails
      next i _ _ mf _ =>
        have claimed := h.andThen (State.claimSlot_frame i c manifest mf u)
        have loaded {w : State} (hw : Frame [.ret, .cel, .cmds, .mem, .models] s w) {cel : Cellarer} {g : Nat} {st : Status}
            {l : List (Nat × Nat × Nat)} {waits : Prop} [Decidable waits] :
            Frame [.ret, .cel, .cmds, .mem, .models] s (if waits then u else (({ w with cel :=
                cel } : State).noteGen 5 g).assignStreams.finishCmd cid st l) :=
          Frame.ite (fun _ => h) (fun _ => (State.finishCmd_frame ..).over ((State.assignStreams_frame _).over ((State.noteGen_frame ..).over hw.upd)))
        dsimp only
        split
        next v fits =>
          split
          · exact fails
          next copied => exact loaded ((claimed.andThen (placeModel_fits fits)).andThen (copies_confined copied))
        next v spills =>
          split
          · exact fails
          next copied => exact loaded ((claimed.andThen (placeModel_spilled spills)).andThen (copies_confined copied))
        · exact fails

@[simp] theorem execModelLoadStage_confined {cid manifest weights} :
    RowConfined [.cel, .cmds, .mem, .models] s (execModelLoadStage cid manifest weights s) := by
  refine .hostCommand (fun c u v h stops => ?_) (fun c u h => Frame.ite (fun _ => .refl ..) (fun _ => ?_))
  · split at stops
    · exact Option.some.inj stops ▸ .refl ..
    · split at stops
      · exact Option.some.inj stops ▸ h.andThen (State.loadFails_frame ..)
      · split at stops
        · exact Option.some.inj stops ▸ h.andThen (State.loadFails_frame ..)
        · cases stops
  · have fails {st : Status} {err : Nat} : Frame _ s (u.loadFails cid st err) := h.andThen (State.loadFails_frame ..)
    split
    · exact fails
    · split
      · exact fails
      · exact fails
      · dsimp only
        split
        · exact fails
        next placed =>
          obtain ⟨v, each, copied⟩ := Option.bind_eq_some_iff.mp placed
          have staged := (h.andThen (State.modModel_frame ..)).andThen (placeEach_frame (fun _ _ _ => State.placeLocal_frame) each)
          refine Frame.ite (fun _ => h) (fun _ => (State.finishCmd_frame ..).over ((State.assignStreams_frame _).over ?_))
          exact staged.andThen (copies_confined copied)

@[simp] theorem execModelUnload_confined {cid} : RowConfined [.cel, .cmds, .models] s (execModelUnload cid s) := by
  refine .command fun c u h => ?_
  split
  · exact h.andThen (State.finishCmd_frame ..)
  · exact Frame.ite (fun _ => h.andThen (State.finishCmd_frame ..))
      (fun _ => ((h.andThen (State.modModel_frame ..)).andThen (State.assignStreams_frame _)).andThen (State.finishCmd_frame ..))

@[simp] theorem execModelEpochCommit_confined {cid} : RowConfined [.cmds, .models] s (execModelEpochCommit cid s) := by
  refine .command fun c u h => ?_
  have fails {st : Status} : Frame _ s (u.finishCmd cid st []) := h.andThen (State.finishCmd_frame ..)
  split
  · exact fails
  · exact Frame.ite (fun _ => fails) (fun _ => Frame.ite (fun _ => fails) (fun _ => Frame.ite (fun _ => fails)
      (fun _ => ((h.andThen (State.modModel_frame ..)).andThen (State.settleEpoch_frame ..)).andThen (State.finishCmd_frame ..))))

@[simp] theorem execModelQuery_confined {cid} : RowConfined [.cmds] s (execModelQuery cid s) := by
  refine .command fun c u h => ?_
  split <;> exact h.andThen (State.finishCmd_frame ..)

/-! ## Sessions and migrations -/

@[simp] theorem execSessionOpen_confined {cid} : RowConfined [.ret, .cel, .cmds, .sessions, .free] s (execSessionOpen cid s) := by
  refine .command fun c u h => ?_
  have shared := h.andThen (State.setShare_frame u)
  have fails {st : Status} : Frame _ s (u.setShare.finishCmd cid st []) := shared.andThen (State.finishCmd_frame ..)
  dsimp only
  split
  · exact fails
  · refine Frame.ite (fun _ => fails) (fun _ => Frame.ite (fun _ => fails) (fun _ => ?_))
    split
    · exact fails
    · refine Frame.ite (fun _ => fails) (fun _ => ?_)
      exact (State.finishCmd_frame ..).over ((State.spend_frame ..).over ((State.noteGen_frame ..).over (shared.upd)))

@[simp] theorem execSessionClose_confined {cid} :
    RowConfined (linkParts.append [.cel, .cmds, .models, .sessions, .sessionGen, .migs, .free]) s (execSessionClose cid s) :=
  .sessionCommand fun _ _ _ h => (h.andThen (State.freeSession_frame ..)).andThen (State.finishCmd_frame ..)

@[simp] theorem execPrefill_confined {cid binds} :
    RowConfined (eventParts.append (linkParts.append [.cel, .mem, .bytes, .models, .sessions, .runs, .free])) s (execPrefill cid binds s) :=
  .of_frame (State.stepCommand_frame ..)

@[simp] theorem execPrefillRebuild_confined {cid binds} :
    RowConfined (eventParts.append (linkParts.append [.cel, .mem, .bytes, .models, .sessions, .runs, .free])) s (execPrefillRebuild cid binds s) :=
  .of_frame (State.stepCommand_frame ..)

@[simp] theorem execDecode_confined {cid binds} :
    RowConfined (eventParts.append (linkParts.append [.cel, .mem, .bytes, .models, .sessions, .runs, .free])) s (execDecode cid binds s) :=
  .of_frame (State.stepCommand_frame ..)

@[simp] theorem execSessionSnapshot_confined {cid} : RowConfined (eventParts.append (lossParts.append [.tiles, .trans])) s (execSessionSnapshot cid s) :=
  .sessionCommand fun _ _ _ h => h.andThen (State.snapshot_frame ..)

@[simp] theorem execSessionRestore_confined {cid image} :
    RowConfined (eventParts.append (linkParts.append [.cel, .mem, .sessions, .free])) s (execSessionRestore cid image s) := by
  unfold execSessionRestore
  split
  · exact .stay
  · refine .next (Frame.ite (fun _ => .refl ..) (fun _ => State.commandReading_frame (.refl ..) (fun c u v h stops => ?_) (fun c u h => ?_)
      (by decide)))
    · split at stops
      · exact Option.some.inj stops ▸ h.andThen (State.failCmd_frame ..)
      · cases stops
    · have fails : Frame _ s (u.failCmd cid .badDescriptor 0) := h.andThen (State.failCmd_frame ..)
      refine Frame.ite (fun _ => .refl ..) (fun _ => ?_)
      split
      · exact fails
      · refine Frame.ite (fun _ => h.andThen (State.restore_frame ..)) (fun _ => ?_)
        split
        · exact fails
        · refine Frame.ite (fun _ => fails) (fun _ => Frame.ite (fun _ => h) (fun _ => ?_))
          cases failed : u.badAccessBy cid true _ with
          | some v => exact h.andThen (State.badAccessBy_frame failed)
          | none => exact (h.andThen (State.touch_frame ..)).andThen (State.restore_frame ..)

@[simp] theorem execSessionMigrate_confined {cid} :
    RowConfined (eventParts.append (linkParts.append [.mem, .sessions, .migs, .free])) s (execSessionMigrate cid s) := by
  unfold execSessionMigrate
  split
  · refine .next (Frame.ite (fun _ => .refl ..) (fun _ => ?_))
    split
    · exact (State.sendImage_frame ..).within
    · exact .refl ..
  · exact .sessionCommand fun _ _ _ h => h.upd

@[simp] theorem execSessionRestoreRemote_confined {cid} : RowConfined [.cmds, .migs] s (execSessionRestoreRemote cid s) := by
  unfold execSessionRestoreRemote
  split
  · exact .of_frame (State.modMig_frame ..)
  · split
    · exact .stay
    · refine .next (Frame.ite (fun _ => .refl ..) (fun _ => ?_))
      refine State.command_frame (.refl ..) (fun c u h => ?_) (by decide)
      split
      · exact h.andThen (State.failCmd_frame ..)
      · exact h.upd

@[simp] theorem execMigrationJoinTimeout_confined {cid} :
    RowConfined (linkParts.append [.cel, .cmds, .models, .sessions, .sessionGen, .migs, .free]) s (execMigrationJoinTimeout cid s) := by
  unfold execMigrationJoinTimeout
  split
  · exact .next (Frame.ite (fun _ => .refl ..) (fun _ => (State.undoMigrate_frame ..).within))
  · exact .next (Frame.ite (fun _ => .refl ..) (fun _ => (State.discardTarget_frame ..).within))
  · exact .stay

@[simp] theorem execMigrationImageReceived_confined {cid image} :
    RowConfined (linkParts.append [.ret, .cel, .cmds, .mem, .models, .sessions, .sessionGen, .migs, .free])
      s (execMigrationImageReceived cid image s) := by
  unfold execMigrationImageReceived
  split
  · exact .stay
  · have shared := (State.caskWork_frame cid s).append (State.setShare_frame _)
    refine .next (Frame.ite (fun _ => .refl ..) (fun _ => Frame.ite (fun _ => ?_) (fun _ => ?_)))
    · exact (shared.within.andThen (State.sendCtrl_frame ..)).andThen (State.discardTarget_frame ..)
    · split
      next restored =>
        exact Frame.ite (fun _ => .refl ..)
          (fun _ => ((shared.within.andThen (restoreImage_frame restored)).andThen (State.modMig_frame ..)).andThen (State.sendCtrl_frame ..))
      · exact (shared.within.andThen (State.sendCtrl_frame ..)).andThen (State.discardTarget_frame ..)

@[simp] theorem execMigrationReady_confined {cid} :
    RowConfined (linkParts.append [.sessions, .migs, .free]) s (execMigrationReady cid s) := .of_frame (State.migrateReady_frame ..)

@[simp] theorem execMigrationRefusal_confined {cid status} :
    RowConfined [.cmds, .sessions, .migs, .trans] s (execMigrationRefusal cid status s) := .of_frame (State.migrateRefused_frame ..)

@[simp] theorem execMigrationCommit_confined {cid} :
    RowConfined (linkParts.append [.cmds, .sessions, .migs, .free]) s (execMigrationCommit cid s) := .of_frame (State.migrateCommit_frame ..)

@[simp] theorem execMigrationDone_confined {cid} :
    RowConfined (linkParts.append [.cel, .cmds, .models, .sessions, .sessionGen, .migs, .free]) s (execMigrationDone cid s) :=
  .of_frame (State.migrateDone_frame ..)

@[simp] theorem execMigrationDoneTimeout_confined {cid} : RowConfined [.cmds, .trans] s (execMigrationDoneTimeout cid s) := by
  unfold execMigrationDoneTimeout
  split
  · exact .stay
  · exact .next (Frame.ite (fun _ => (State.endMigrate_frame ..).within) (fun _ => .refl ..))

@[simp] theorem execMigrationCommitResend_confined {session} : RowConfined (linkParts.append [.free]) s (execMigrationCommitResend session s) := by
  unfold execMigrationCommitResend
  split
  · exact .stay
  · exact .next (Frame.ite (fun _ => (State.sendCtrl_frame ..).within) (fun _ => .refl ..))

@[simp] theorem execMigrationTargetTimeout_confined {cid} :
    RowConfined (linkParts.append [.cel, .cmds, .models, .sessions, .sessionGen, .migs, .free]) s (execMigrationTargetTimeout cid s) := by
  unfold execMigrationTargetTimeout
  split
  · exact .stay
  · exact .next (Frame.ite (fun _ => (State.discardTarget_frame ..).within) (fun _ => .refl ..))

end Sys2Proof.Machine
end

section
/-! The rows of transactions, of heat and power, of faults and flashes, of stream check units and of the sideband change only their parts (O51). -/

set_option Elab.async false
namespace Sys2Proof.Machine
variable {s : State}

/-! ## Transactions -/

@[simp] theorem execTransactionRequest_confined {e message} :
    RowConfined (eventParts.append (linkParts.append [.cel, .mem, .bytes, .models, .sessions, .sessionGen, .migs, .free]))
      s (execTransactionRequest e message s) := by
  have taken := State.takeDelivered_frame e message s
  exact .skip (.ite (.next (taken.within.andThen (State.protocol_frame ..))) (.ite (.of_frame taken) (.ite (.next (taken.within.andThen
      (State.transit_frame ..)))
    (.skip (.next (taken.within.andThen (State.takeRequest_frame ..)))))))

@[simp] theorem execTransactionResponse_confined {message} :
    RowConfined (eventParts.append (lossParts.append (linkParts.append [.free]))) s (execTransactionResponse message s) := by
  unfold execTransactionResponse
  extract_lets at_ e t
  clear_value at_
  have taken : Frame linkParts s t := by
    unfold t
    split
    · exact (State.takeDelivered_frame ..).within
    · exact .refl ..
  exact .ite (.next (Frame.ite (fun _ => taken.within.andThen (State.protocol_frame ..)) (fun _ => taken.within))) (.ite (.next taken.within)
    (.ite (.next (taken.within.andThen (State.transit_frame ..))) (.only (.next (taken.within.andThen (State.takeResponse_frame ..))))))

@[simp] theorem execRequestTimeout_confined {slot} :
    RowConfined (linkParts.append [.cel, .cmds, .models, .sessions, .sessionGen, .migs, .runs, .launches, .free]) s (execRequestTimeout slot s) := by
  unfold execRequestTimeout
  split
  · exact .stay
  · exact .next ((State.endRequest_frame ..).within.andThen (State.requestFails_frame ..))

@[simp] theorem execRequestRetry_confined {slot} : RowConfined linkParts s (execRequestRetry slot s) := by
  unfold execRequestRetry
  split
  · exact .stay
  · exact .next (Frame.ite (fun _ => (State.modRequest_frame ..).within.andThen (State.sendMsg_frame ..)) (fun _ => .refl ..))

@[simp] theorem execCacheEntryExpiry_confined {unit source slot} : RowConfined [.trans] s (execCacheEntryExpiry unit source slot s) := .next (.upd
    (.refl ..))

@[simp] theorem execLeaseKeepalive_confined {source operand} :
    RowConfined [.trans] s (execLeaseKeepalive source operand s) := .of_frame (State.keepalive_frame ..)

@[simp] theorem execLeaseExpiry_confined {source} : RowConfined [.trans] s (execLeaseExpiry source s) := .next (.upd (State.releaseLeases_frame source s))

@[simp] theorem execLeaseKeepaliveSend_confined : RowConfined linkParts s (execLeaseKeepaliveSend s) :=
  .only (.next (Frame.foldl (fun _ _ h => h.andThen (State.request_frame ..)) _ (.refl ..)))

/-! ## Heat, power and ageing -/

@[simp] theorem execSensorSample_confined {die readings} :
    RowConfined (eventParts.append (lossParts.append (linkParts.append [.pins, .svc, .th, .stop]))) s (execSensorSample die readings s) := by
  have judged {f : Nat → SensorRef} {l : List Nat} {t : State} (h : Frame (eventParts.append (lossParts.append
      (linkParts.append [.pins, .svc, .th, .stop]))) s t) :
      Frame (eventParts.append (lossParts.append (linkParts.append [.pins, .svc, .th, .stop]))) s (l.foldl (fun u k => u.sensorFails (f k)) t) :=
          Frame.foldl (fun _ _ k => k.andThen (State.sensorFails_frame ..)) l h
  unfold execSensorSample
  dsimp only
  refine .skip ?_
  split
  · exact .skip (.next (judged (State.modTile_frame ..).within))
  · exact .next (judged (.upd (.refl ..)))
  · exact .next (judged (State.modEngine_frame ..).within)

@[simp] theorem execThermalCeilingUpdate_confined {site} : RowConfined (eventParts.append [.tiles]) s (execThermalCeilingUpdate site s) :=
  .ite (.next (((State.modTile_frame ..).within.andThen (State.raise_quiet (calm_src (by decide) (by decide)))).andThen (State.raiseCause_frame ..)))
      (.of_frame (State.modTile_frame ..))

@[simp] theorem execIssueRateStep_confined {site} : RowConfined [.tiles] s (execIssueRateStep site s) := .skip (.of_frame (State.modTile_frame ..))

@[simp] theorem execPowerTelemetrySample_confined {watts ok} : RowConfined (eventParts.append [.th]) s (execPowerTelemetrySample watts ok s) := by
  unfold execPowerTelemetrySample
  extract_lets _ s1 s2 p fast _ s3 s4
  have sampled : Frame (eventParts.append [.th]) s s1 := .upd (.refl ..)
  have reported : Frame (eventParts.append [.th]) s s2 := Frame.ite (fun _ => sampled.andThen (State.raise_quiet (calm_src (by decide) (by decide))))
      (fun _ => sampled)
  have limited : Frame (eventParts.append [.th]) s s3 := reported.upd
  have warned : Frame (eventParts.append [.th]) s s4 := Frame.ite (fun _ => limited.andThen (State.raise_quiet (calm_src (by decide) (by decide))))
      (fun _ => limited)
  exact .ite (.next (warned.andThen (State.setCeiling_frame ..))) (.next warned)

@[simp] theorem execPowerLoop_confined {meanWatts} :
    RowConfined (eventParts.append [.th]) s (execPowerLoop meanWatts s) := .next ((State.setCeiling_frame ..).over (.upd (.refl ..)))

@[simp] theorem execTripSensorPoll_confined {hottest} : RowConfined [.ret] s (execTripSensorPoll hottest s) := .skip (.next (.upd (.refl ..)))

@[simp] theorem execThermalShutdown_confined {sensor reading} :
    RowConfined (eventParts.append [.pins, .boot, .tiles, .engines, .els, .mem, .bytes, .runs, .launches])
      s (execThermalShutdown sensor reading s) := by
  unfold execThermalShutdown
  extract_lets src s1 s2
  have ended : Frame (eventParts.append [.pins, .boot, .tiles, .engines, .els, .mem, .bytes, .runs, .launches]) s s2 :=
    (((State.raiseCause_frame ..).within.andThen (State.captureOnly_frame ..)).andThen (State.endAll_frame ..)).andThen (State.shutDown_frame ..)
  exact .skip (.next (ended.trans (Frame.upd (.refl _ s2))))

@[simp] theorem execFlashWritesRefused_confined : RowConfined eventParts s (execFlashWritesRefused s) := by
  unfold execFlashWritesRefused
  split
  · exact .only (.next (.over (qs := eventParts) (State.raise_quiet (calm_src (c := 6) (n := 0) (k := 0x1A) (by decide) (by decide))) (.upd (.refl ..))))
  · exact .stay

@[simp] theorem execFlashWritesAllowed_confined : RowConfined (eventParts.append [.sec]) s (execFlashWritesAllowed s) := by
  unfold execFlashWritesAllowed
  split
  · refine .only (.next ((State.reportDropped_frame _).over (Frame.foldl (fun _ _ h => h.andThen (State.commitRecord_frame ..)) _ ?_)))
    refine Frame.foldl (fun _ _ h => h.andThen (State.putMirror_frame ..)) _ ?_
    exact Frame.ite (fun _ => (State.reserveBatch_frame _).over (.upd (.refl ..))) (fun _ => .upd (.refl ..))
  · exact .stay

@[simp] theorem execAgeingPoint_confined {die slowdown} :
    RowConfined (eventParts.append [.pins, .svc, .tiles, .engines, .th]) s (execAgeingPoint die slowdown s) :=
  .skip (.of_frame (State.agePoint_frame ..))

@[simp] theorem execOpticalPoint_confined {e r point} :
    RowConfined [.pins, .ret, .cause, .flashA, .flashB, .log, .svc, .engines, .host, .free] s (execOpticalPoint e r point s) := by
  refine .skip (.next ((State.predictLaser_frame ..).over ((State.predict_frame ..).over ?_)))
  refine Frame.ite (fun _ => (State.foresee_frame ..).over ?_) (fun _ => ?_)
  all_goals exact (State.modOeRing_frame ..).within.andThen (State.putMirror_frame ..)

/-! ## Faults and flashes -/

@[simp] theorem execFaultCapture_confined {events} :
    RowConfined (eventParts.append [.cel, .models, .sessions, .sessionGen, .migs, .runs, .launches, .trans, .stop])
      s (execFaultCapture events s) := by
  refine .skip (.next (Frame.foldl (fun _ _ h => h.andThen (State.firmwareEvent_frame ..)) _ ((State.capture_frame ..).over ?_)))
  exact Frame.foldl (fun _ _ h => h.andThen (State.firmwareEvent_frame ..)) _
    (Frame.ite (fun _ => (State.aerError_frame ..).within) (fun _ => .refl ..))

@[simp] theorem execFaultStateRestExpiry_confined {resource} :
    RowConfined (eventParts.append (lossParts.append (linkParts.append [.pins, .svc, .els, .th, .stop])))
      s (execFaultStateRestExpiry resource s) := by
  unfold execFaultStateRestExpiry
  dsimp only
  split
  · exact .stay
  · refine .skip (.ite (.next ?_) (.ite (.next ((State.retire_frame ..).over ((State.recordRecovery_frame ..).over ?_)))
      (.next ((State.recordRecovery_frame ..).over ?_))))
    all_goals exact (State.coreBack_frame ..).over ((State.sensorBack_frame ..).over (.upd (.refl ..)))

@[simp] theorem execLogRecordTimeout_confined :
    RowConfined [.ret, .flashA, .flashB, .log] s (execLogRecordTimeout s) := .only (.of_frame (State.commitOpen_frame _))

@[simp] theorem execFlashOpDone_confined {flash ok} : RowConfined (eventParts.append [.sec]) s (execFlashOpDone flash ok s) := by
  unfold execFlashOpDone
  dsimp only
  split
  · exact .stay
  · exact .skip (.ite (.of_frame (State.opDone_frame ..)) (.ite (.next ((State.raise_quiet (calm_src (c := 8) (n := flash) (k := 1) (by decide)
      (by decide))).over (State.modFlash_frame ..).within))
      (.of_frame (State.failFlash_frame ..))))

/-! ## Stream check units and the sideband -/

@[simp] theorem execScuEnable_confined {u value} :
    RowConfined (eventParts.append [.scu]) s (execScuEnable u value s) := .of_frame (State.writeScuCtrl_frame ..)

@[simp] theorem execScuDisable_confined {u} : RowConfined (eventParts.append [.scu]) s (execScuDisable u s) := .only (.of_frame (State.stopScu_frame ..))

@[simp] theorem execScuRecordClose_confined {u bytes ok overrun} : RowConfined (eventParts.append [.scu]) s (execScuRecordClose u bytes ok overrun s) := by
  refine .skip (.ite (.next ((closeFixed_frame ..).over ?_)) (.next ((State.closeRecord_frame ..).over ?_)))
  all_goals exact Frame.ite (fun _ => (State.modScu_frame ..).within.andThen (State.scuCondition_frame ..)) (fun _ => .refl ..)

@[simp] theorem execScuResultRead_confined {u} : RowConfined [.host, .scu] s (execScuResultRead u s) := by
  unfold execScuResultRead
  split
  · exact .next ((State.modScu_frame u (fun x => { x with info := 0 }) s).within.upd)
  next e l _ => exact .next ((State.modScu_frame u (fun x => { x with fifo := l, info := e.info }) s).within.upd)

@[simp] theorem execSmbusBlockRead_confined {code} : RowConfined [.sb] s (execSmbusBlockRead code s) := .next (.upd (.refl ..))

@[simp] theorem execI3cPrivateRead_confined {code} : RowConfined [.sb] s (execI3cPrivateRead code s) := .next (.upd (.refl ..))

@[simp] theorem execSmbusAlertResponse_confined :
    RowConfined [.pins, .sb] s (execSmbusAlertResponse s) := .ite (.next (.upd (.refl ..))) (.next (.upd (.refl ..)))

@[simp] theorem execSidebandRefresh_confined : RowConfined [.sb] s (execSidebandRefresh s) := .only (.next (.upd (.refl ..)))

@[simp] theorem execStandbySupplyLoss_confined : RowConfined [.pins, .ret, .sb] s (execStandbySupplyLoss s) := .next (.upd (.refl ..))

@[simp] theorem execStandbySupplyReturn_confined : RowConfined [.ret, .sb] s (execStandbySupplyReturn s) := .skip (.next (.upd (.refl ..)))

end Sys2Proof.Machine
end

section
/-! The parts that each row may change, row by row, and that it changes no other (O45–O51). -/

set_option Elab.async false
namespace Sys2Proof.Machine

/-- What a warm reset, a function-level reset or the completion of a command may change: everything but the queue and the settings in force. -/
def resetParts : List Part :=
  [.pins, .ret, .boot, .cause, .flashA, .flashB, .log, .sec, .flt, .svc, .tiles, .hubBundles, .engines, .els, .th, .cel, .host, .cmds, .mem, .bytes,
    .cxl, .models, .sessions, .sessionGen, .migs, .graphs, .graphGen, .kernels, .kernelGen, .runs, .launches, .trans, .scu, .sb, .free, .stop]

/-- The parts that a row may change, as O45 to O51 list them; what the resets and the completion of a command may, the others. -/
def rowParts : Instr → List Part
  | .nop .. | .identify .. | .getFeature .. | .modelQuery .. | .placementQuery .. | .selftestSummary .. | .settingsRead .. => [.cmds]
  | .getStatus .. => [.cmds, .free]
  | .setFeatureBar4Aperture .. | .fenceRelease .. | .hostMasterResume .. | .configurationWrite .. => [.host, .cmds]
  | .setFeatureCxlPortOffline .. => linkParts.append [.cel, .cmds, .cxl, .free]
  | .setFeaturePowerCap .. | .setFeatureThrottleStart .. => [.th, .cmds]
  | .modelLoad .. => [.ret, .cel, .cmds, .mem, .models]
  | .modelLoadStage .. => [.cel, .cmds, .mem, .models]
  | .modelUnload .. => [.cel, .cmds, .models]
  | .modelEpochCommit .. => [.cmds, .models]
  | .sessionOpen .. => [.ret, .cel, .cmds, .sessions, .free]
  | .sessionClose .. | .migrationJoinTimeout .. | .migrationDone .. | .migrationTargetTimeout .. =>
    linkParts.append [.cel, .cmds, .models, .sessions, .sessionGen, .migs, .free]
  | .prefill .. | .prefillRebuild .. | .decode .. | .graphRun .. =>
    eventParts.append (linkParts.append [.cel, .mem, .bytes, .models, .sessions, .runs, .free])
  | .sessionSnapshot .. => eventParts.append (lossParts.append [.tiles, .trans])
  | .sessionRestore .. => eventParts.append (linkParts.append [.cel, .mem, .sessions, .free])
  | .sessionRestoreRemote .. => [.cmds, .migs]
  | .sessionMigrate .. => eventParts.append (linkParts.append [.mem, .sessions, .migs, .free])
  | .migrationImageReceived .. => linkParts.append [.ret, .cel, .cmds, .mem, .models, .sessions, .sessionGen, .migs, .free]
  | .migrationReady .. => linkParts.append [.sessions, .migs, .free]
  | .migrationRefusal .. => [.cmds, .sessions, .migs, .trans]
  | .migrationCommit .. => linkParts.append [.cmds, .sessions, .migs, .free]
  | .migrationDoneTimeout .. => [.cmds, .trans]
  | .migrationCommitResend .. => linkParts.append [.free]
  | .dmaCopy .. | .bar4Write .. => eventParts.append [.mem, .bytes]
  | .memAlloc .. => [.ret, .cmds, .mem, .bytes]
  | .memFree .. => [.cmds, .mem, .bytes, .graphs, .graphGen, .kernels, .kernelGen]
  | .rolePlan .. => [.cel, .cmds]
  | .selftestFull .. => eventParts.append (lossParts.append (linkParts.append [.pins, .sec, .svc, .th, .free, .stop]))
  | .marginTest .. => [.engines, .cmds]
  | .faultInject .. => [.flt, .cmds]
  | .logRead .. | .restart .. => [.ret, .flashA, .flashB, .log, .cmds]
  | .settingsWrite .. | .cxlMemReadResponse .. | .ringEnable .. | .ringDisable .. | .submissionTailDoorbell .. | .completionHeadDoorbell ..
  | .descriptorFetch .. | .barAccessInvalid .. | .hostLinkDown .. | .hostLinkRetrain .. | .spareMarginTest .. | .flashWritesRefused .. => eventParts
  | .attest .. | .flashWritesAllowed .. | .flashOpDone .. => eventParts.append [.sec]
  | .restartForce .. => linkParts.append [.ret, .flashA, .flashB, .log, .cel, .host, .cmds, .models, .sessions, .sessionGen, .migs, .runs, .launches, .free]
  | .shutdown .. => [.pins, .ret, .boot, .flashA, .flashB, .log, .tiles, .engines, .els, .cmds, .mem, .bytes, .runs, .launches]
  | .shutdownForce .. => lossParts.append (linkParts.append [.pins, .ret, .boot, .flashA, .flashB, .log, .els, .host, .cmds, .free])
  | .graphLoad .. => [.ret, .cmds, .graphs]
  | .collectiveJoinTimeout .. => [.cel, .cmds, .models, .sessions, .runs, .trans]
  | .matmul .. | .batchMatmul .. | .attention .. | .add .. | .sub .. | .mul .. | .div .. | .fma .. | .max .. | .min .. | .abs .. | .neg .. | .exp ..
  | .log .. | .sqrt .. | .rsqrt .. | .tanh .. | .sigmoid .. | .gelu .. | .silu .. | .clamp .. | .reduceSum .. | .reduceMax .. | .reduceMin ..
  | .softmax .. | .layernorm .. | .rmsnorm .. | .convert .. | .transpose .. | .reshape .. | .slice .. | .concat .. | .gather .. | .hashPartition ..
  | .sort .. | .joinProbe .. | .stringSimilarity .. | .filter .. | .tableGather .. | .finalise .. =>
    eventParts.append (lossParts.append [.tiles, .trans, .free])
  | .allReduce .. | .reduceScatter .. | .allGather .. | .broadcast .. | .transactionResponse .. =>
    eventParts.append (lossParts.append (linkParts.append [.free]))
  | .recordMerge .. => eventParts.append [.tiles, .cel, .mem, .bytes, .models, .sessions, .runs, .trans]
  | .kernelLoad .. => [.ret, .cmds, .kernels]
  | .kernelLaunch .. | .exit .. | .accZero .. | .bar .. => [.cel, .cmds, .launches]
  | .kernelTimeLimit .. => [.launches, .free]
  | .kernelNop .. | .join .. | .waitCopy .. | .fence .. | .sreg .. | .bra .. | .memCopy .. | .intOp .. | .fpOp .. | .cvt .. => [.launches]
  | .accDeposit .. => eventParts.append [.cel, .launches, .stop]
  | .cvtBlk .. | .accExport .. => [.mem, .bytes, .launches]
  | .ld .. => eventParts.append [.cel, .mem, .models, .sessions, .runs, .launches, .trans]
  | .st .. | .memCopyDone .. | .atom .. => eventParts.append [.cel, .mem, .bytes, .models, .sessions, .runs, .launches, .trans]
  | .mma .. => eventParts.append [.cel, .launches, .free]
  | .accStore .. => eventParts.append [.mem, .bytes, .launches]
  | .accMerge .. => eventParts.append [.cel, .launches]
  | .perstDeassert .. => [.pins]
  | .rowRelease .. => eventParts.append (linkParts.append [.pins, .boot, .svc, .th, .free])
  | .tilePositionReport .. | .laneTest .. | .cellSetupDone .. => eventParts.append (lossParts.append (linkParts.append [.pins, .boot, .svc]))
  | .cellSetup .. => [.boot, .tiles]
  | .gddr7TrainingDone .. => eventParts.append (lossParts.append (linkParts.append [.pins, .boot, .svc, .free]))
  | .moduleReady .. => [.pins, .ret, .boot, .cause, .flashA, .flashB, .log, .host]
  | .tilePllUnlock .. | .issueRateStep .. => [.tiles]
  | .forwardedClockStop .. | .tileRetire .. | .siteIsolate .. | .tileControllerWatchdog .. | .linkFlitReceive .. | .replayTimerExpiry ..
  | .inlineCheckDone .. => eventParts.append (lossParts.append (linkParts.append [.pins, .svc]))
  | .enginePllUnlock .. | .dataFlitReceive .. | .linkErrorBucket .. => eventParts.append linkParts
  | .slotEnd .. | .thermalCeilingUpdate .. => eventParts.append [.tiles]
  | .katResult .. => eventParts.append (lossParts.append (linkParts.append [.pins, .svc, .stop]))
  | .coreWatchdog .. | .cxlAccessTimeout .. | .hostReadCompletion .. | .hostCompletionTimeout .. =>
    eventParts.append [.cel, .models, .sessions, .runs, .launches, .trans]
  | .cellarerPlan .. | .cxlAttentionButton .. => linkParts.append [.cel, .cxl, .free]
  | .drainAbandon .. => [.tiles, .cel]
  | .drainEnd .. =>
    [.pins, .ret, .cause, .flashA, .flashB, .log, .svc, .tiles, .cel, .host, .cmds, .mem, .bytes, .models, .sessions, .runs, .launches, .trans]
  | .workUnitAssign .. => eventParts.append [.tiles, .cel, .mem, .models, .sessions, .runs, .launches, .trans]
  | .workUnitComplete .. => [.cel]
  | .blockMoveSwitch .. => eventParts.append (linkParts.append [.cel, .mem, .free])
  | .blockMoveSourceFree .. => linkParts.append [.cel, .free]
  | .stripeReloadDone .. => [.cel, .mem, .models]
  | .shardPrefetch .. => [.mem, .bytes, .models]
  | .gddr7Read .. | .scrubGroup .. => eventParts.append (linkParts.append [.pins, .svc, .cel, .mem, .models, .free])
  | .gddr7Write .. => eventParts.append (linkParts.append [.pins, .svc, .cel, .mem, .bytes, .models, .free])
  | .gddr7Refresh .. | .recentre .. => [.mem]
  | .gddr7TempRead .. => [.tiles, .mem]
  | .channelRetrainDone .. => eventParts.append (lossParts.append (linkParts.append [.pins, .svc, .free]))
  | .cxlPresenceDetect .. => eventParts.append [.cxl]
  | .cxlLinkDown .. | .cxlAttentionLedTimeout .. => [.cxl]
  | .cxlLinkUp .. => eventParts.append (linkParts.append [.cel, .mem, .bytes, .cxl, .models, .sessions, .runs, .free])
  | .cxlDiscoveryDone .. => [.mem, .bytes, .cxl]
  | .cxlLinkDownTimeout .. | .cxlSurpriseRemoval .. => eventParts.append (lossParts.append [.cxl, .trans])
  | .cxlEventLogPoll .. => eventParts.append (linkParts.append [.cel, .mem, .cxl, .models, .free])
  | .cxlEvacuationDone .. => eventParts.append (linkParts.append [.cel, .mem, .bytes, .cxl, .models, .runs, .launches, .free])
  | .irqCoalesceTimeout .. | .msixUnmask .. => [.host]
  | .bar4Read .. => eventParts.append [.mem]
  | .registerWrite .. => eventParts.append [.boot, .tiles, .hubBundles, .engines, .cxl, .scu]
  | .fltClearRearm .. => [.ret, .flt]
  | .fltClearAll .. | .fltClearOne .. => [.flt]
  | .fillerFlitReceive .. | .wireFillerError .. => eventParts.append [.tiles, .hubBundles, .engines]
  | .linkFlitTimer .. | .nakResend .. | .phaseTrack .. => [.tiles, .hubBundles, .engines]
  | .frameTransmit .. => eventParts.append [.engines, .els, .free]
  | .frameReceive .. => eventParts.append (linkParts.append [.pins, .svc, .els, .free])
  | .pause .. | .resume .. | .map .. | .rateWidth .. | .ffeReq .. | .ffeAck .. | .idleFreeze .. | .trainingBlock .. => [.engines]
  | .effectiveFrame .. => eventParts.append [.pins, .boot, .svc, .engines, .trans]
  | .liveChangeTimeout .. | .hello .. | .openFibre .. => eventParts.append (linkParts.append [.els])
  | .train .. => eventParts.append (linkParts.append [.els, .free])
  | .bringupTimeout .. => [.engines, .els]
  | .bringupRetry .. => eventParts.append [.boot, .engines, .els]
  | .portAbsentListen .. => eventParts.append [.engines, .els]
  | .routeRestore .. => eventParts.append [.engines, .trans]
  | .elsPresence .. | .elsMonitorPoll .. | .elsInterrupt .. | .elsTimeout .. | .laserExcursion .. =>
    eventParts.append (linkParts.append [.pins, .svc, .els])
  | .ringIdentityCheck .. | .ringLocked .. | .relockTimeout .. | .laserLow .. => eventParts.append (linkParts.append [.pins, .svc])
  | .ringLockLost .. | .slotErrorBurst .. => eventParts.append [.engines]
  | .ringRetry .. => linkParts.append [.ret, .flashA, .flashB, .log, .flt]
  | .feedForwardUpdate .. => eventParts.append [.engines, .free]
  | .ringSweep .. => [.ret, .flashA, .flashB, .log, .engines]
  | .laserRestore .. => [.engines, .els, .free]
  | .transactionRequest .. => eventParts.append (linkParts.append [.cel, .mem, .bytes, .models, .sessions, .sessionGen, .migs, .free])
  | .requestTimeout .. => linkParts.append [.cel, .cmds, .models, .sessions, .sessionGen, .migs, .runs, .launches, .free]
  | .requestRetry .. | .leaseKeepaliveSend .. => linkParts
  | .cacheEntryExpiry .. | .leaseKeepalive .. | .leaseExpiry .. => [.trans]
  | .sensorSample .. => eventParts.append (lossParts.append (linkParts.append [.pins, .svc, .th, .stop]))
  | .powerTelemetrySample .. | .powerLoop .. => eventParts.append [.th]
  | .tripSensorPoll .. => [.ret]
  | .thermalShutdown .. => eventParts.append [.pins, .boot, .tiles, .engines, .els, .mem, .bytes, .runs, .launches]
  | .ageingPoint .. => eventParts.append [.pins, .svc, .tiles, .engines, .th]
  | .opticalPoint .. => [.pins, .ret, .cause, .flashA, .flashB, .log, .svc, .engines, .host, .free]
  | .faultCapture .. => eventParts.append [.cel, .models, .sessions, .sessionGen, .migs, .runs, .launches, .trans, .stop]
  | .faultStateRestExpiry .. => eventParts.append (lossParts.append (linkParts.append [.pins, .svc, .els, .th, .stop]))
  | .logRecordTimeout .. => [.ret, .flashA, .flashB, .log]
  | .scuEnable .. | .scuDisable .. | .scuRecordClose .. => eventParts.append [.scu]
  | .scuResultRead .. => [.host, .scu]
  | .smbusBlockRead .. | .i3cPrivateRead .. | .sidebandRefresh .. => [.sb]
  | .smbusAlertResponse .. => [.pins, .sb]
  | .standbySupplyLoss .. => [.pins, .ret, .sb]
  | .standbySupplyReturn .. => [.ret, .sb]
  | _ => resetParts

variable {s : State}

/-! ## What a reset leaves as it was -/

/-- What the end of start-up step 3 may report, record and request. -/
def endParts : List Part := [.pins, .ret, .boot, .cause, .flashA, .flashB, .log, .flt, .svc, .host, .cmds, .trans, .sb, .stop]

/-- The end of a start leaves what it neither reports, records nor requests, and what no stop changes. -/
theorem endStep3_same {ps : List Part} {u v : State} (h : Frame ps u v) (sub : ∀ q ∈ ps, q ∈ endParts) (kind : ResetKind) {p : Part}
    (quiet : p ∉ endParts) (apart : p ∉ stopParts) : p.same u (v.endStep3 kind).coreQuorum :=
  have ended : Frame endParts u (v.endStep3 kind).coreQuorum :=
    ((h.within sub).andThen (State.endStep3_frame ..)).andThen (State.coreQuorum_frame _)
  ended.stop p quiet apart

theorem State.softReset_same (kind : ResetKind) (keepLink keepConfig : Bool) (s : State) {p : Part} (quiet : p ∉ endParts) (apart : p ∉ stopParts) :
    p.same (s.rebuilt kind keepLink keepConfig) (s.softReset kind keepLink keepConfig) :=
  endStep3_same (State.reraise_frame _) (by decide) kind quiet apart

theorem State.rebuilt_boardOk_scu (kind : ResetKind) (keepLink keepConfig : Bool) (s : State) :
    (s.rebuilt kind keepLink keepConfig).boardOk = (s.wound kind).boardOk ∧ (s.rebuilt kind keepLink keepConfig).scu = State.reset.scu := by
  unfold State.rebuilt
  dsimp only
  split
  · split <;> exact ⟨rfl, rfl⟩
  · exact ⟨rfl, rfl⟩

theorem State.softReset_boardOk (kind : ResetKind) (keepLink keepConfig : Bool) (s : State) :
    (s.softReset kind keepLink keepConfig).boardOk = s.boardOk := by
  have wound : (s.wound kind).boardOk = s.boardOk := (State.wound_frame kind s).exact (by decide) (p := .boardOk) (by decide)
  exact ((State.softReset_same kind keepLink keepConfig s (p := .boardOk) (by decide) (by decide) :).trans (State.rebuilt_boardOk_scu ..).1).trans wound

/-- A reset leaves every stream check unit at its reset registers (R553). -/
theorem State.softReset_scu (kind : ResetKind) (keepLink keepConfig : Bool) (s : State) : (s.softReset kind keepLink keepConfig).scu = State.reset.scu :=
  (State.softReset_same kind keepLink keepConfig s (p := .scu) (by decide) (by decide) :).trans (State.rebuilt_boardOk_scu ..).2

theorem State.coldStart_scu (katOk idA idB : Bool) (s : State) : (s.coldStart katOk idA idB).scu = State.reset.scu := by
  unfold State.coldStart
  extract_lets _ _ _ _ _ base states s1 _ s1a s2 keep cause s3 _ s4
  have rebuilt : s4.scu = State.reset.scu := rfl
  clear_value s4
  exact (endStep3_same ((State.reraise_frame s4).append (State.foretell_frame _)) (by decide) .cold (p := .scu) (by decide) (by decide) :).trans rebuilt

theorem State.softReset_confined (kind : ResetKind) (keepLink : Bool) (s : State) : Frame resetParts s (s.softReset kind keepLink false) := by
  have every := State.softReset_every kind keepLink s
  have same {p : Part} (other : p ∉ resetParts) : p.same s (s.softReset kind keepLink false) := by
    cases p
    case pending => exact (State.softReset_keeps ..).pending
    case settings => exact (State.softReset_view ..).settings
    case boardOk => exact State.softReset_boardOk ..
    all_goals exact absurd (by decide) other
  exact ⟨every.stopped, every.down, fun _ other _ => same other, fun _ other _ => same other, every.inv⟩

@[simp] theorem execWarmReset_confined : RowConfined resetParts s (execWarmReset s) :=
  .ite (.next ((State.softReset_confined ..).over (.upd (.refl ..)))) (.next (.upd (.refl ..)))

@[simp] theorem execFunctionLevelReset_confined : RowConfined resetParts s (execFunctionLevelReset s) := .skip (.next (State.softReset_confined ..))

/-- A command that completes leaves the table, and a RESTART starts a module reset (R303, R345). -/
theorem execCommandComplete_confined (cid : Nat) (s : State) : RowConfined resetParts s (execCommandComplete cid s)
    ∨ ∃ u, Frame resetParts s u ∧ execCommandComplete cid s = .next (u.softReset .module true true) := by
  have waits (same : execCommandComplete cid s = .next s) : RowConfined resetParts s (execCommandComplete cid s) := same ▸ .stay
  cases entry : cmdAt s cid with
  | none => exact .inl (waits (by simp [execCommandComplete, entry]))
  | some e =>
    cases done : e.done with
    | none => exact .inl (waits (by simp [execCommandComplete, entry, done]))
    | some d =>
      by_cases later : s.host.forcing = some cid ∧ s.host.cmds.length ≠ 1
      · exact .inl (waits (by simp [execCommandComplete, entry, done, later]))
      · have completes : execCommandComplete cid s = _ := exec_commandComplete_of_done entry done (by tauto)
        have left := State.leave_frame cid e (e.numbered s) d s
        split at completes
        · exact .inr ⟨_, left.within, completes⟩
        · exact .inl (completes ▸ .of_frame left)

/-! ## Every row -/

/-- Every row but those that start the module or take its power or clock away, and but the completion of a command, changes only its parts. -/
theorem exec_confined {c : Instr} (plain : ¬ coldRow c) (goesOn : ∀ cid, c ≠ .commandComplete cid) : RowConfined (rowParts c) s (exec c s) := by
  cases c
  case coldReset | tripRestart | inputRangeRestart | refclkRestored | powerDown | refclkLost | hubPllUnlock | overcurrentTrip | inputRangeTrip
      | thermalTrip | backstopTrip => exact absurd trivial plain
  case commandComplete cid => exact absurd rfl (goesOn cid)
  case matmul | batchMatmul | attention => exact runMatrix_confined
  case allReduce | reduceScatter | allGather => exact runCollective_confined
  case add | sub | mul | div | fma | max | min | abs | neg | exp | log | sqrt | rsqrt | tanh | sigmoid | gelu | silu | clamp | reduceSum | reduceMax
      | reduceMin | softmax | layernorm | rmsnorm | convert | transpose | reshape | slice | concat | gather | hashPartition | sort | joinProbe
      | stringSimilarity | filter | tableGather | finalise => exact runOp_confined
  all_goals
    delta rowParts
    simp [-List.append_eq, exec]

/-- A row's frame, as the obligations ask for it. -/
theorem confined_row {c : Instr} {ps : List Part} (parts : rowParts c = ps := by rfl) (plain : ¬ coldRow c := by exact id)
    (goesOn : ∀ cid, c ≠ .commandComplete cid := by exact fun _ => nofun) : Confined ps c := fun _ => parts ▸ exec_confined plain goesOn

end Sys2Proof.Machine
end

section
/-! Rows that name one engine, port, tile, stream check unit or warp leave the others as they were (O47, O48, O50, O51). -/

set_option Elab.async false
namespace Sys2Proof.Machine
variable {e k : Nat}

/-! ## The other engines -/

theorem engineAt_of_frame {ps : List Part} {s t : State} (h : Frame ps s t) (k : Nat) (out : ∀ p ∈ [Part.engines, .stop], p ∉ ps := by decide) :
    engineAt t k = engineAt s k :=
  congrArg (fun l : List Engine => l.getD k (Engine.reset k)) (h.exact (out .stop (by decide)) (p := .engines) (out .engines (by decide)))

theorem engineAt_modDir_ne (h : e ≠ k) (side : Nat) (f : Direction → Direction) (s : State) : engineAt (s.modDir e side f) k = engineAt s k :=
  engineAt_modEngine_ne h ..

theorem engineAt_modOeRing_ne (h : e ≠ k) (r : Nat) (f : OeRingRec → OeRingRec) (s : State) : engineAt (s.modOeRing e r f) k = engineAt s k :=
  engineAt_modEngine_ne h ..

theorem engineAt_sendWord_ne (h : e ≠ k) (w : CtrlWord) (s : State) : engineAt (s.sendWord e w) k = engineAt s k := engineAt_modEngine_ne h ..

theorem engineAt_setLaser_ne (h : e ≠ k) (f : Nat) (mode : LaserMode) (atten : Nat) (s : State) :
    engineAt (s.setLaser e f mode atten) k = engineAt s k := engineAt_modEngine_ne h s _

theorem engineAt_probeLasers_ne (h : e ≠ k) (s : State) : engineAt (s.probeLasers e) k = engineAt s k := by
  refine foldl_view (v := (engineAt · k)) (fun t f => ?_) [0, 1] s
  split
  · rfl
  · exact engineAt_setLaser_ne h ..

theorem engineAt_failAttempt_ne (h : e ≠ k) (s : State) : engineAt (s.failAttempt e) k = engineAt s k :=
  (engineAt_sendWord_ne h ..).trans ((engineAt_probeLasers_ne h _).trans (engineAt_modEngine_ne h ..))

theorem engineAt_resumeSlot_ne (h : e ≠ k) (side slot : Nat) (notify : Bool) (s : State) : engineAt (s.resumeSlot e side slot notify) k = engineAt s k := by
  have freed (f : Direction → Direction) (r : Nat) (g : OeRingRec → OeRingRec) : engineAt ((s.modDir e side f).modOeRing e r g) k = engineAt s k :=
    (engineAt_modOeRing_ne h ..).trans (engineAt_modDir_ne h ..)
  unfold State.resumeSlot
  dsimp only
  split
  · split
    · exact (engineAt_sendWord_ne h ..).trans (freed ..)
    · exact freed ..
  · rfl

theorem engineAt_lockRing_ne {e : EngineId} (h : e.val ≠ k) (r : OeRing) (heater : Nat) (s : State) :
    engineAt (s.lockRing e r heater) k = engineAt s k := by
  have locked (f : OeRingRec → OeRingRec) (m : Mirror) : engineAt ((s.modOeRing e r f).putMirror m) k = engineAt s k :=
    (engineAt_of_frame (State.putMirror_frame ..) k).trans (engineAt_modOeRing_ne h ..)
  unfold State.lockRing
  dsimp only
  split
  · exact (engineAt_resumeSlot_ne h ..).trans (locked ..)
  · exact locked ..

theorem engineAt_sendMaps_ne (h : e ≠ k) (side : Nat) (maps : List (Nat × Nat × Nat)) (s : State) :
    engineAt (s.sendMaps e side maps) k = engineAt s k := foldl_view (v := (engineAt · k)) (fun _ _ => engineAt_sendWord_ne h ..) maps s

/-! A change of rate, and the steps of bring-up. -/

theorem engineAt_rateTaps_ne (h : e ≠ k) (old new : Nat) (s : State) : engineAt (s.rateTaps e old new) k = engineAt s k := by
  unfold State.rateTaps
  split
  · refine foldl_view (v := (engineAt · k)) (fun t w => ?_) _ s
    dsimp only
    split
    · exact engineAt_modEngine_ne h ..
    · exact (engineAt_of_frame (State.raise_quiet (calm_src (c := 9) (n := 0) (k := 2) (by decide) (by decide))) k).trans (engineAt_modEngine_ne h ..)
  · exact engineAt_modEngine_ne h ..

theorem engineAt_rateStep_ne (h : e ≠ k) (r : Nat) (s : State) : engineAt (s.rateStep e r) k = engineAt s k :=
  (engineAt_rateTaps_ne h ..).trans (engineAt_modEngine_ne h ..)

theorem engineAt_chooseDirection_ne (h : e ≠ k) (s : State) : engineAt (s.chooseDirection e) k = engineAt s k := by
  unfold State.chooseDirection
  dsimp only
  split
  · exact engineAt_failAttempt_ne h s
  · exact (engineAt_sendWord_ne h ..).trans ((engineAt_sendMaps_ne h ..).trans (engineAt_modDir_ne h ..))

theorem engineAt_runLasers_ne (h : e ≠ k) (s : State) : engineAt (s.runLasers e) k = engineAt s k := by
  refine (foldl_view (v := (engineAt · k)) (fun t f => ?_) [0, 1] s :)
  dsimp only
  split
  · rfl
  · exact (engineAt_modEngine_ne h ..).trans (engineAt_setLaser_ne h ..)

theorem engineAt_enterStep_ne (h : e ≠ k) (n : Nat) (s : State) : engineAt (s.enterStep e n) k = engineAt s k := by
  have entered (f : Engine → Engine) : engineAt (s.modEngine e f) k = engineAt s k := engineAt_modEngine_ne h ..
  unfold State.enterStep State.stepWork
  split
  · exact (engineAt_runLasers_ne h _).trans (entered _)
  · exact (engineAt_rateStep_ne h ..).trans (entered _)
  · exact (engineAt_rateTaps_ne h ..).trans (entered _)
  · exact (engineAt_modEngine_ne h ..).trans (entered _)
  · exact (engineAt_modEngine_ne h ..).trans (entered _)
  · exact (engineAt_modEngine_ne h ..).trans (entered _)
  · exact (engineAt_chooseDirection_ne h _).trans (entered _)
  · exact entered _

theorem engineAt_takeWait_ne (h : e ≠ k) (s : State) : engineAt (s.takeWait e) k = engineAt s k := by
  unfold State.takeWait
  dsimp only
  split
  · rfl
  · split
    · rfl
    · split
      · exact engineAt_modEngine_ne h ..
      · split
        · exact (engineAt_probeLasers_ne h _).trans ((engineAt_rateStep_ne h ..).trans (engineAt_modEngine_ne h ..))
        · exact (engineAt_rateStep_ne h ..).trans (engineAt_modEngine_ne h ..)

theorem engineAt_beforeFrame_ne (h : e ≠ k) (s : State) : engineAt (s.beforeFrame e) k = engineAt s k := by
  have said (t : State) (f : Engine → Engine) (w : CtrlWord) : engineAt ((t.modEngine e f).sendWord e w) k = engineAt t k :=
    (engineAt_sendWord_ne h ..).trans (engineAt_modEngine_ne h ..)
  have done (t : State) : engineAt (t.stepDone e) k = engineAt t k := by
    unfold State.stepDone
    dsimp only
    split
    · rfl
    · split
      · exact (engineAt_enterStep_ne h ..).trans ((engineAt_sendWord_ne h ..).trans (said ..))
      · exact said ..
  exact (done _).trans (engineAt_takeWait_ne h s)

/-! ## The other ports, tiles and stream check units -/

theorem cxlAt_modCxl_ne {p n : Nat} (h : p ≠ n) (f : CxlPort → CxlPort) (s : State) : cxlAt (s.modCxl p f) n = cxlAt s n := getD_modAt_ne h s.cxl f _

theorem cxlAt_of_frame {ps : List Part} {s t : State} (h : Frame ps s t) (n : Nat) (out : ∀ p ∈ [Part.cxl, .stop], p ∉ ps := by decide) :
    cxlAt t n = cxlAt s n :=
  congrArg (fun l : List CxlPort => l.getD n CxlPort.reset) (h.exact (out .stop (by decide)) (p := .cxl) (out .cxl (by decide)))

theorem tileAt_of_frame {ps : List Part} {s t : State} (h : Frame ps s t) (n : Nat) (out : ∀ p ∈ [Part.tiles, .stop], p ∉ ps := by decide) :
    tileAt t n = tileAt s n :=
  congrArg (fun l : List Tile => l.getD n (Tile.reset n)) (h.exact (out .stop (by decide)) (p := .tiles) (out .tiles (by decide)))

theorem scuAt_modScu_ne {u n : Nat} (h : u ≠ n) (f : Scu → Scu) (s : State) : scuAt (s.modScu u f) n = scuAt s n := getD_modAt_ne h s.scu f _

theorem scuAt_of_frame {ps : List Part} {s t : State} (h : Frame ps s t) (n : Nat) (out : ∀ p ∈ [Part.scu, .stop], p ∉ ps := by decide) :
    scuAt t n = scuAt s n :=
  congrArg (fun l : List Scu => l.getD n Scu.reset) (h.exact (out .stop (by decide)) (p := .scu) (out .scu (by decide)))

/-- An event of a stream check unit changes no unit. -/
theorem scuAt_scuCondition (u k n : Nat) (s : State) : scuAt (s.scuCondition u k) n = scuAt s n := scuAt_of_frame (State.scuCondition_frame ..) n

theorem scuAt_closeRecord_ne {u n : Nat} (h : u ≠ n) (bytes : List Byte) (incomplete : Bool) (s : State) :
    scuAt (s.closeRecord u bytes incomplete) n = scuAt s n := by
  have event {c : Prop} [Decidable c] (k : Nat) (t : State) : scuAt (if c then t.scuCondition u k else t) n = scuAt t n := by
    split
    · exact scuAt_scuCondition ..
    · rfl
  unfold State.closeRecord
  dsimp only
  exact (event ..).trans ((event ..).trans ((event ..).trans (scuAt_modScu_ne h ..)))

theorem scuAt_closeFixed_ne {u n : Nat} (h : u ≠ n) (incomplete : Bool) (fuel : Nat) (bytes : List Byte) (s : State) :
    scuAt (closeFixed u incomplete fuel bytes s) n = scuAt s n := by
  induction fuel generalizing bytes s with
  | zero => exact scuAt_modScu_ne h ..
  | succ fuel ih =>
    unfold closeFixed
    dsimp only
    split
    · exact scuAt_modScu_ne h ..
    · exact (ih ..).trans (scuAt_closeRecord_ne h ..)

theorem scuAt_stopScu_ne {u n : Nat} (h : u ≠ n) (s : State) : scuAt (s.stopScu u) n = scuAt s n := by
  unfold State.stopScu
  dsimp only
  refine (scuAt_modScu_ne h ..).trans ?_
  split
  · rfl
  · exact scuAt_closeRecord_ne h ..

theorem scuAt_writeScuCtrl_ne {u n : Nat} (h : u ≠ n) (v : Nat) (s : State) : scuAt (s.writeScuCtrl u v) n = scuAt s n := by
  have written : scuAt (s.modScu u (Scu.configure v)) n = scuAt s n := scuAt_modScu_ne h ..
  unfold State.writeScuCtrl
  dsimp only
  split
  · split
    · rfl
    · exact scuAt_stopScu_ne h s
  · split
    · exact written
    · split
      · exact (scuAt_modScu_ne h ..).trans written
      · exact (scuAt_modScu_ne h ..).trans written

/-! ## Rows that name one site, port or unit -/

theorem execCellSetup_elsewhere {site : SiteId} {n : Nat} (other : n ≠ site.val) (s : State) :
    ∃ t, execCellSetup site s = .next t ∧ tileAt t n = tileAt s n := by
  unfold execCellSetup
  dsimp only
  split
  · exact ⟨_, rfl, (tileAt_of_frame (State.atStep_frame ..) n).trans (tileAt_modTile_ne other.symm ..)⟩
  · exact ⟨_, rfl, rfl⟩

/-- A drain that retires no tile leaves every other one. -/
theorem execDrainEnd_elsewhere {site : SiteId} {n : Nat} {s : State} (other : n ≠ site.val) (stays : (tileAt s site).retiring = false) :
    ∃ t, execDrainEnd site s = .next t ∧ tileAt t n = tileAt s n := by
  unfold execDrainEnd
  dsimp only
  split
  · split
    · exact ⟨_, rfl, rfl⟩
    · have saved : tileAt (((s.saveClusters site).requeueUnits site).clearStore site) n = tileAt s n :=
        (tileAt_of_frame (State.clearStore_frame ..) n).trans
          ((tileAt_of_frame (State.requeueUnits_frame ..) n).trans (tileAt_of_frame (State.saveClusters_frame ..) n))
      rw [stays]
      exact ⟨_, rfl, (tileAt_of_frame (State.assignStreams_frame _) n).trans ((tileAt_modTile_ne other.symm ..).trans saved)⟩
  · exact ⟨_, rfl, rfl⟩

theorem execIssueRateStep_elsewhere {site : SiteId} {n : Nat} (other : n ≠ site.val) (s : State) :
    ∃ t, execIssueRateStep site s = .next t ∧ tileAt t n = tileAt s n := by
  unfold execIssueRateStep
  split
  · exact ⟨_, rfl, rfl⟩
  · exact ⟨_, rfl, tileAt_modTile_ne other.symm ..⟩

theorem execThermalCeilingUpdate_elsewhere {site : SiteId} {n : Nat} (other : n ≠ site.val) (s : State) :
    ∃ t, execThermalCeilingUpdate site s = .next t ∧ tileAt t n = tileAt s n := by
  have calm : severityOf (srcId 6 site 8) ≠ 3 := calm_src (by decide) (by decide)
  unfold execThermalCeilingUpdate
  extract_lets t l x used c s1
  have here : tileAt s1 n = tileAt s n := tileAt_modTile_ne other.symm ..
  split
  · exact ⟨_, rfl, (tileAt_of_frame (State.raiseCause_frame ..) n).trans
      ((tileAt_of_frame (State.raise_quiet calm) n).trans here)⟩
  · exact ⟨_, rfl, here⟩

theorem execCxlPresenceDetect_elsewhere {p : PortId} {n : Nat} (other : n ≠ p.val) (s : State) :
    ∃ t, execCxlPresenceDetect p s = .next t ∧ cxlAt t n = cxlAt s n := by
  unfold execCxlPresenceDetect
  dsimp only
  split
  · exact ⟨_, rfl, (cxlAt_of_frame (State.raise_quiet (calm_presence p)) n).trans (cxlAt_modCxl_ne other.symm ..)⟩
  · exact ⟨_, rfl, rfl⟩

theorem execCxlLinkUp_elsewhere {p : PortId} {n : Nat} (other : n ≠ p.val) (rate width capacity : Nat) (s : State) :
    ∃ t, execCxlLinkUp p rate width capacity s = .next t ∧ cxlAt t n = cxlAt s n := by
  unfold execCxlLinkUp
  dsimp only
  split
  · exact ⟨_, rfl, rfl⟩
  · split
    · exact ⟨_, rfl, (cxlAt_of_frame (State.settleRuns_frame _) n).trans
        ((cxlAt_of_frame (State.leaveBad_frame _) n).trans (cxlAt_modCxl_ne other.symm ..))⟩
    · exact ⟨_, rfl, cxlAt_modCxl_ne other.symm ..⟩

theorem execCxlDiscoveryDone_elsewhere {p : PortId} {n : Nat} (other : n ≠ p.val) (s : State) :
    ∃ t, execCxlDiscoveryDone p s = .next t ∧ cxlAt t n = cxlAt s n := by
  unfold execCxlDiscoveryDone
  dsimp only
  split
  · exact ⟨_, rfl, (cxlAt_modCxl_ne other.symm ..).trans (cxlAt_of_frame (State.loseBytes_frame ..) n)⟩
  · exact ⟨_, rfl, rfl⟩

theorem execCxlLinkDown_elsewhere {p : PortId} {n : Nat} (other : n ≠ p.val) (s : State) :
    ∃ t, execCxlLinkDown p s = .next t ∧ cxlAt t n = cxlAt s n := by
  unfold execCxlLinkDown
  dsimp only
  split
  · exact ⟨_, rfl, cxlAt_modCxl_ne other.symm ..⟩
  · exact ⟨_, rfl, rfl⟩

theorem execScuDisable_elsewhere {u : ScuId} {n : Nat} (other : n ≠ u.val) (s : State) :
    ∃ t, execScuDisable u s = .next t ∧ scuAt t n = scuAt s n := by
  unfold execScuDisable
  split
  · exact ⟨_, rfl, scuAt_stopScu_ne other.symm s⟩
  · exact ⟨_, rfl, rfl⟩

theorem execScuRecordClose_elsewhere {u : ScuId} {n : Nat} (other : n ≠ u.val) (bytes : List Byte) (ok overrun : Bool) (s : State) :
    ∃ t, execScuRecordClose u bytes ok overrun s = .next t ∧ scuAt t n = scuAt s n := by
  have marked : scuAt (if overrun then (s.modScu u (fun x => { x with overrun := true })).scuCondition u 3 else s) n = scuAt s n := by
    split
    · exact (scuAt_scuCondition ..).trans (scuAt_modScu_ne other.symm ..)
    · rfl
  unfold execScuRecordClose
  dsimp only
  split
  · exact ⟨_, rfl, rfl⟩
  · split
    · exact ⟨_, rfl, (scuAt_closeFixed_ne other.symm ..).trans marked⟩
    · exact ⟨_, rfl, (scuAt_closeRecord_ne other.symm ..).trans marked⟩

theorem execScuResultRead_elsewhere {u : ScuId} {n : Nat} (other : n ≠ u.val) (s : State) :
    ∃ t, execScuResultRead u s = .next t ∧ scuAt t n = scuAt s n := by
  unfold execScuResultRead
  split
  · exact ⟨_, rfl, scuAt_modScu_ne other.symm (fun x => { x with info := 0 }) s⟩
  next e l _ => exact ⟨_, rfl, scuAt_modScu_ne other.symm (fun x => { x with fifo := l, info := e.info }) s⟩

/-! ## Rows that name one engine -/

theorem execFrameTransmit_elsewhere {e : EngineId} {n : Nat} (other : n ≠ e.val) (s : State) :
    ∃ t, execFrameTransmit e s = .next t ∧ engineAt t n = engineAt s n := by
  unfold execFrameTransmit
  dsimp only
  split
  · exact ⟨_, rfl, engineAt_beforeFrame_ne other.symm s⟩
  · exact ⟨_, rfl, (engineAt_modEngine_ne other.symm ..).trans (engineAt_beforeFrame_ne other.symm s)⟩

theorem engineAt_onMap_ne {e : EngineId} {n : Nat} (h : e.val ≠ n) (slot : Fin 32) (dir : Bool) (fibre : Fin 2) (lambda : Fin 18) (effective : Nat)
    (s : State) : engineAt (s.onMap e slot dir fibre lambda effective) n = engineAt s n := by
  unfold State.onMap
  dsimp only
  split
  · rfl
  · split
    · exact (engineAt_sendWord_ne h ..).trans (engineAt_modDir_ne h ..)
    · exact engineAt_modDir_ne h ..

theorem engineAt_onRateWidth_ne {e : EngineId} {n : Nat} (h : e.val ≠ n) (rate width : Fin 4) (dir : Bool) (effective : Nat) (s : State) :
    engineAt (s.onRateWidth e rate width dir effective) n = engineAt s n := by
  unfold State.onRateWidth
  dsimp only
  split
  · rfl
  · split
    · exact engineAt_modDir_ne h ..
    · exact (engineAt_sendWord_ne h ..).trans (engineAt_modDir_ne h ..)

theorem engineAt_onFfeReq_ne {e : EngineId} {n : Nat} (h : e.val ≠ n) (ring : Fin 36) (post : Bool) (action : Nat) (s : State) :
    engineAt (s.onFfeReq e ring post action) n = engineAt s n := by
  unfold State.onFfeReq
  dsimp only
  split
  · rfl
  · exact (engineAt_sendWord_ne h ..).trans (engineAt_modEngine_ne h ..)

theorem engineAt_onFfeAck_ne {e : EngineId} {n : Nat} (h : e.val ≠ n) (ring : Fin 36) (pre post : Nat) (limit : Bool) (s : State) :
    engineAt (s.onFfeAck e ring pre post limit) n = engineAt s n := by
  unfold State.onFfeAck
  dsimp only
  split
  · rfl
  · exact engineAt_modEngine_ne h ..

theorem execIdleFreeze_elsewhere {e : EngineId} {n : Nat} (other : n ≠ e.val) (s : State) :
    ∃ t, execIdleFreeze e s = .next t ∧ engineAt t n = engineAt s n := by
  unfold execIdleFreeze
  split
  · exact ⟨_, rfl, engineAt_modDir_ne other.symm ..⟩
  · exact ⟨_, rfl, rfl⟩

theorem execTrainingBlock_elsewhere {e : EngineId} {n : Nat} (other : n ≠ e.val) (r : Fin 36) (s : State) :
    ∃ t, execTrainingBlock e r s = .next t ∧ engineAt t n = engineAt s n := by
  unfold execTrainingBlock
  dsimp only
  split
  · exact ⟨_, rfl, engineAt_modDir_ne other.symm ..⟩
  · exact ⟨_, rfl, rfl⟩

theorem execBringupTimeout_elsewhere {e : EngineId} {n : Nat} (other : n ≠ e.val) (s : State) :
    ∃ t, execBringupTimeout e s = .next t ∧ engineAt t n = engineAt s n := by
  unfold execBringupTimeout
  dsimp only
  split
  · exact ⟨_, rfl, engineAt_failAttempt_ne other.symm s⟩
  · exact ⟨_, rfl, rfl⟩

theorem execRingSweep_elsewhere {e : EngineId} {n : Nat} (other : n ≠ e.val) (orders : List (List Nat)) (s : State) :
    ∃ t, execRingSweep e orders s = .next t ∧ engineAt t n = engineAt s n := by
  unfold execRingSweep
  split
  · exact ⟨_, rfl, rfl⟩
  · refine ⟨_, rfl, (foldl_view (v := (engineAt · n)) (fun t p => ?_) _ _ :).trans (engineAt_modEngine_ne other.symm ..)⟩
    dsimp only
    split
    · rfl
    · split
      · exact engineAt_lockRing_ne other.symm ..
      · exact engineAt_modOeRing_ne other.symm ..

theorem execLaserRestore_elsewhere {e : EngineId} {n : Nat} (other : n ≠ e.val) (f : Fin 2) (s : State) :
    ∃ t, execLaserRestore e f s = .next t ∧ engineAt t n = engineAt s n := by
  unfold execLaserRestore
  dsimp only
  split
  · exact ⟨_, rfl, rfl⟩
  · split
    · exact ⟨_, rfl, engineAt_setLaser_ne other.symm ..⟩
    · split
      · exact ⟨_, rfl, (engineAt_modEngine_ne other.symm ..).trans (engineAt_setLaser_ne other.symm ..)⟩
      · exact ⟨_, rfl, rfl⟩
    · split
      · exact ⟨_, rfl, engineAt_setLaser_ne other.symm ..⟩
      · exact ⟨_, rfl, engineAt_modEngine_ne other.symm ..⟩

/-! ## The other warps -/

/-- A warp of its group, cluster and launch. -/
def warpOf (s : State) (r : WarpRef) : Option Warp := (warpAt s r).map (·.2.2.2)

theorem warpRef_eq {q r : WarpRef} (launch : q.launch = r.launch) (cluster : q.cluster = r.cluster) (group : q.group = r.group)
    (warp : q.warp = r.warp) : q = r := by
  cases q
  cases r
  simp_all

/-- A search that a change of the entries does not see. -/
theorem find?_map_of_view {α : Type} {p : α → Bool} {f : α → α} (same : ∀ x, p (f x) = p x) (l : List α) :
    (l.map f).find? p = (l.find? p).map f := by rw [List.find?_map, show p ∘ f = p from funext same]

theorem setAt_getElem?_ne {α : Type} {n m : Nat} (h : n ≠ m) (l : List α) (v : α) : (setAt l n v)[m]? = l[m]? := by
  simp [setAt, modAt_eq_modify, h]

theorem warpOf_eq (s : State) (r : WarpRef) : warpOf s r = (launchOf s r.launch).bind (fun l =>
    (l.clusters.find? (fun c => c.index == r.cluster && c.started && !c.ended)).bind (fun c => (c.groups[r.group]?).bind (fun g => g.warps[r.warp]?))) := by
  simp [warpOf, warpAt, Option.map_bind, Function.comp_def]

/-- A warp that is written back with the rest of its group as it was leaves every other warp. -/
theorem warpOf_putWarp_ne {s : State} {x : KCtx} (h : Stands s x) {q : WarpRef} (other : q ≠ x.ref) (w : Warp) (store : List Host.Cell) :
    warpOf (s.putWarp x w x.g store) q = warpOf s q := by
  rw [warpOf_eq, warpOf_eq]
  unfold State.putWarp State.modLaunch launchOf
  rw [find?_map_of_view (by intro l; dsimp only; split <;> rfl)]
  cases launched : s.launches.find? (fun l => l.cid == q.launch) with
  | none => rfl
  | some l =>
    simp only [Option.map_some, Option.bind_some]
    split
    next same =>
      have ref : l.cid = q.launch := by simpa using List.find?_some launched
      obtain rfl : x.l = l := Option.some.inj (h.launch.symm.trans (by rw [launchOf, ← same, ref, launched]))
      rw [find?_map_of_view (by intro c; split <;> rfl)]
      cases found : x.l.clusters.find? (fun c => c.index == q.cluster && c.started && !c.ended) with
      | none => rfl
      | some c =>
        simp only [Option.map_some, Option.bind_some]
        split
        next index =>
          have at_ : c.index = q.cluster := by
            have := List.find?_some found
            simp only [Bool.and_eq_true, beq_iff_eq] at this
            exact this.1.1
          obtain rfl : x.c = c := Option.some.inj (h.cluster.symm.trans (by rw [← index, at_, found]))
          by_cases group : x.ref.group = q.group
          · have warp : x.ref.warp ≠ q.warp := fun warp =>
              other (warpRef_eq (ref.symm.trans same) (at_.symm.trans index) group.symm warp.symm)
            have at_group := h.group
            rw [group] at at_group
            rw [← group, getElem?_setAt h.group, group, at_group]
            simp only [Option.bind_some, setAt_getElem?_ne warp]
          · rw [setAt_getElem?_ne group]
        next => rfl
    next => rfl

/-- An instruction that leaves every other warp where its own acts. -/
theorem warpOf_kernel_ne {α : Type} {s : State} {r q : WarpRef} (other : q ≠ r) {sel : KOp → Option α} {f : KCtx → α → State}
    (acts : ∀ x a, Stands s x → q ≠ x.ref → warpOf (f x a) q = warpOf s q) : warpOf (s.kernel r sel f) q = warpOf s q := by
  unfold State.kernel
  split
  · rfl
  next x stands =>
    obtain ⟨rfl, at_⟩ := stands_of_warpCtx stands
    split
    · rfl
    · split
      · exact warpOf_putWarp_ne at_ other ..
      · exact acts x _ at_ other

/-- The instructions that only take their own warp further. -/
theorem warpOf_advance_ne {α : Type} {s : State} {r q : WarpRef} (other : q ≠ r) {sel : KOp → Option α} {w : KCtx → α → Warp} :
    warpOf (s.kernel r sel (fun x a => s.advance x (w x a))) q = warpOf s q :=
  warpOf_kernel_ne other fun _ _ at_ apart => warpOf_putWarp_ne at_ apart ..

end Sys2Proof.Machine
end

section
open Sys2Proof Sys2Proof.Machine

/-- Settles O45: the parts of each row (`rowParts`) are those that it changes (`exec_confined`). -/
theorem hostCommandsChangeOnlyTheirParts : Obligations.HostCommandsChangeOnlyTheirParts := by
  unfold Obligations.HostCommandsChangeOnlyTheirParts
  simp only [List.forall_mem_cons, List.not_mem_nil, IsEmpty.forall_iff, implies_true, and_true]
  and_intros <;> intros <;> exact confined_row

/-- Settles O46: the parts of each row (`rowParts`) are those that it changes (`exec_confined`). -/
theorem graphRowsChangeOnlyTheirParts : Obligations.GraphRowsChangeOnlyTheirParts := by
  unfold Obligations.GraphRowsChangeOnlyTheirParts
  simp only [List.forall_mem_cons, List.not_mem_nil, IsEmpty.forall_iff, implies_true, and_true]
  and_intros <;> intros <;> exact confined_row

/-- Settles O47: the parts of each row (`rowParts`) are those that it changes (`exec_confined`); an instruction that neither stores nor ends a launch
writes its own warp back, which no other warp shows (`warpOf_putWarp_ne`). -/
theorem kernelRowsChangeOnlyTheirParts : Obligations.KernelRowsChangeOnlyTheirParts := by
  unfold Obligations.KernelRowsChangeOnlyTheirParts
  simp only [List.forall_mem_cons, List.not_mem_nil, IsEmpty.forall_iff, implies_true, and_true]
  refine ⟨?_, ?_, ?_, ?_, ?_, ?_, ?_, ?_, ?_, ?_, ?_, ?_, ?_, ?_, ?_, ?_, ?_, ?_, ?_, ?others⟩
  case others =>
    intro s r q io fo c d other
    refine ⟨⟨_, rfl, warpOf_advance_ne other⟩, ⟨_, rfl, ?join⟩, ⟨_, rfl, warpOf_advance_ne other⟩, ⟨_, rfl, warpOf_advance_ne other⟩,
      ⟨_, rfl, warpOf_advance_ne other⟩, ⟨_, rfl, ?waits⟩, ⟨_, rfl, warpOf_advance_ne other⟩, ⟨_, rfl, warpOf_advance_ne other⟩⟩
    case join => exact warpOf_kernel_ne other fun x _ at_ apart => warpOf_putWarp_ne at_ apart ..
    case waits =>
      refine warpOf_kernel_ne other fun x _ at_ apart => ?_
      split
      · exact warpOf_putWarp_ne at_ apart ..
      · rfl
  all_goals and_intros <;> intros <;> exact confined_row

/-- Settles O48: the parts of each row (`rowParts`) are those that it changes (`exec_confined`); a row that names one site or one port changes the entry
of no other (`tileAt_modTile_ne`, `cxlAt_modCxl_ne`). -/
theorem panelAndMemoryRowsChangeOnlyTheirParts : Obligations.PanelAndMemoryRowsChangeOnlyTheirParts := by
  unfold Obligations.PanelAndMemoryRowsChangeOnlyTheirParts
  simp only [List.forall_mem_cons, List.not_mem_nil, IsEmpty.forall_iff, implies_true, and_true]
  and_intros
  rotate_right 6
  · exact fun s site n other => execCellSetup_elsewhere other s
  · exact fun s site n other => execDrainEnd_elsewhere other
  · exact fun s p n other => execCxlPresenceDetect_elsewhere other s
  · exact fun s p n rate width capacity other => execCxlLinkUp_elsewhere other rate width capacity s
  · exact fun s p n other => execCxlDiscoveryDone_elsewhere other s
  · exact fun s p n other => execCxlLinkDown_elsewhere other s
  all_goals intros; exact confined_row

/-- Settles O50: the parts of each row (`rowParts`) are those that it changes (`exec_confined`); a row that acts on one engine changes no other
(`engineAt_modEngine_ne`). -/
theorem linkRowsChangeOnlyTheirParts : Obligations.LinkRowsChangeOnlyTheirParts := by
  unfold Obligations.LinkRowsChangeOnlyTheirParts
  and_intros
  rotate_right 11
  · exact fun s e n other => execFrameTransmit_elsewhere other s
  · exact fun s e slot dir n other => ⟨_, rfl, engineAt_resumeSlot_ne other.symm ..⟩
  · exact fun s e slot dir f l eff n other => ⟨_, rfl, engineAt_onMap_ne other.symm ..⟩
  · exact fun s e rate width dir eff n other => ⟨_, rfl, engineAt_onRateWidth_ne other.symm ..⟩
  · exact fun s e r post action n other => ⟨_, rfl, engineAt_onFfeReq_ne other.symm ..⟩
  · exact fun s e r pre post limit n other => ⟨_, rfl, engineAt_onFfeAck_ne other.symm ..⟩
  · exact fun s e n other => execIdleFreeze_elsewhere other s
  · exact fun s e r n other => execTrainingBlock_elsewhere other r s
  · exact fun s e n other => execBringupTimeout_elsewhere other s
  · exact fun s e orders n other => execRingSweep_elsewhere other orders s
  · exact fun s e f n other => execLaserRestore_elsewhere other f s
  all_goals intros; exact confined_row

/-- Settles O51: the parts of each row (`rowParts`) are those that it changes (`exec_confined`); a row of one stream check unit or one site changes no
other (`scuAt_modScu_ne`, `tileAt_modTile_ne`). -/
theorem serviceRowsChangeOnlyTheirParts : Obligations.ServiceRowsChangeOnlyTheirParts := by
  unfold Obligations.ServiceRowsChangeOnlyTheirParts
  and_intros
  rotate_right 6
  · exact fun s u v n other => ⟨_, rfl, scuAt_writeScuCtrl_ne other.symm ..⟩
  · exact fun s u n other => execScuDisable_elsewhere other s
  · exact fun s u bytes ok overrun n other => execScuRecordClose_elsewhere other bytes ok overrun s
  · exact fun s u n other => execScuResultRead_elsewhere other s
  · exact fun s site n other => execIssueRateStep_elsewhere other s
  · exact fun s site n other => execThermalCeilingUpdate_elsewhere other s
  all_goals intros; exact confined_row
end

section
/-! A step on an empty queue (O2), what every row leaves (O3, O8, O54), and the stream check units over resets (O55). -/

set_option Elab.async false
namespace Sys2Proof.Machine
variable {s : State}

/-! ## A second of idle time -/

theorem launches_endStopped (s : State) {l : Launch} :
    l ∈ s.endStopped.launches ↔ l ∈ s.launches ∧ ∀ m ∈ s.launches, m.error.isSome = true → m.cid ≠ l.cid := by
  have gen (L : List Launch) (t : State) :
      l ∈ (L.foldl (fun t l => t.endLaunch l .badDescriptor) t).launches ↔ l ∈ t.launches ∧ ∀ m ∈ L, m.cid ≠ l.cid := by
    induction L generalizing t with
    | nil => simp
    | cons m L ih =>
      have left : l ∈ (t.endLaunch m .badDescriptor).launches ↔ l ∈ t.launches ∧ m.cid ≠ l.cid := by
        simp [State.endLaunch, State.dropLaunch, without, ne_comm]
      rw [List.foldl_cons, ih, left, List.forall_mem_cons, and_assoc]
  simp [State.endStopped, gen, and_imp]

/-- Where no error has stopped a launch, none ends. -/
theorem endStopped_of_none (running : ∀ l ∈ s.launches, l.error = none) : s.endStopped = s := by
  have none_ : s.launches.filter (fun l => l.error.isSome) = [] := by
    rw [List.filter_eq_nil_iff]
    intro l member
    simp [running l member]
  rw [State.endStopped, none_, List.foldl_nil]

/-- What a second changes beside the launches that end: the operating time, and the windows of the bundles. -/
def State.tick (s : State) : State :=
  if s.pins.pwrgd then
    { s with ret := if s.ret.powered then { s.ret with opTime := (s.ret.opTime + 1) % 2 ^ 32 } else s.ret,
             tiles := s.tiles.map (fun t => { t with bundles := t.bundles.map BundleDir.quiet }),
             hubBundles := s.hubBundles.map BundleDir.quiet,
             engines := s.engines.map (fun x => { x with bundles := x.bundles.map BundleDir.quiet }) }
  else s

theorem State.idle_eq (s : State) : s.idle = s.endStopped.tick := rfl

theorem State.tick_frame (s : State) : Frame [.ret, .tiles, .hubBundles, .engines] s s.tick := Frame.ite (fun _ => .upd (.refl ..)) (fun _ => .refl ..)

theorem State.tick_ret (s : State) :
    s.tick.ret = if s.pins.pwrgd ∧ s.ret.powered then { s.ret with opTime := (s.ret.opTime + 1) % 2 ^ 32 } else s.ret := by
  unfold State.tick
  split
  next power => simp [power]
  next off => simp [off]

/-! ## What every row leaves -/

theorem pending_not_mem_rowParts (c : Instr) : Part.pending ∉ rowParts c ∧ Part.settings ∉ rowParts c ∧ Part.boardOk ∉ rowParts c := by
  delta rowParts
  cases c <;>
    · dsimp only
      decide

/-- The rows that start the module or take its power or clock away answer, and leave the queue. -/
theorem exec_keeps_of_coldRow {c : Instr} (cold : coldRow c) (s : State) : ∃ t, exec c s = .next t ∧ Keeps s t := by
  have changed {u : State} (pending : u.pending = s.pending) (inv : Inv s → Inv u) : Keeps s u := ⟨pending, inv⟩
  have onto {u v : State} (k : Keeps u v) (pending : u.pending = s.pending) (inv : Inv s → Inv u) : Keeps s v := (changed pending inv).trans k
  have started (a b d : Bool) {u : State} (h : Keeps s u) : Keeps s (u.coldStart a b d) := h.trans (State.coldStart_keeps ..)
  have tripped (kind : TripKind) (source reading : Nat) : Keeps s (s.trip kind source reading) := State.trip_keeps ..
  have either {p : Prop} [Decidable p] {t u : State} (h : Keeps s t) (k : Keeps s u) :
      ∃ v, (if p then .next t else .next u : Host.Outcome State Fault Refusal) = .next v ∧ Keeps s v := by
    split
    · exact ⟨_, rfl, h⟩
    · exact ⟨_, rfl, k⟩
  cases c
  case coldReset => exact ⟨_, rfl, started _ _ _ (changed rfl (·.of_shape rfl))⟩
  case powerDown => exact ⟨_, rfl, onto (State.powerLost_keeps _) rfl (·.of_shape rfl)⟩
  case refclkLost => exact ⟨_, rfl, onto ((State.clockLoss_keeps ..).trans ((State.loseTrip_frame _).keeps (by decide))) rfl (·.of_shape rfl)⟩
  case refclkRestored => exact either (started _ _ _ (changed rfl (·.of_shape rfl))) (changed rfl (·.of_shape rfl))
  case hubPllUnlock => exact ⟨_, rfl, State.clockLoss_keeps ..⟩
  case overcurrentTrip => exact ⟨_, rfl, tripped ..⟩
  case thermalTrip => exact either (.refl s) (tripped ..)
  case backstopTrip => exact either (.refl s) (tripped ..)
  case tripRestart => exact either (started _ _ _ (.refl s)) (.refl s)
  case inputRangeTrip => exact ⟨_, rfl, (tripped ..).trans ⟨rfl, (·.of_shape rfl)⟩⟩
  case inputRangeRestart => exact either (started _ _ _ (changed rfl (·.of_shape rfl))) (changed rfl (·.of_shape rfl))
  all_goals exact False.elim cold

/-- What every other row leaves: the queue, the settings in force, and a stop. -/
structure Steady (s t : State) : Prop where
  pending : t.pending = s.pending
  settings : t.settings = s.settings
  boardOk : t.boardOk = s.boardOk
  stopped : s.boot.stopped = true → t.boot.stopped = true

theorem Steady.of_frame {ps : List Part} {t : State} (h : Frame ps s t) (out : Part.pending ∉ ps ∧ Part.settings ∉ ps ∧ Part.boardOk ∉ ps) : Steady s t :=
  ⟨h.stop .pending out.1 (by decide), h.stop .settings out.2.1 (by decide), h.stop .boardOk out.2.2 (by decide), h.stopped⟩

/-- A RESTART too leaves them: its module reset keeps the settings and a stop (R516, R490). -/
theorem Steady.softReset {t : State} (h : Steady s t) (kind : ResetKind) (keepLink keepConfig : Bool) : Steady s
    (t.softReset kind keepLink keepConfig) := by
  have view := State.softReset_view kind keepLink keepConfig t
  refine ⟨(State.softReset_keeps ..).pending.trans h.pending, view.settings.trans h.settings, (State.softReset_boardOk ..).trans h.boardOk,
      fun stopped => ?_⟩
  rw [view.stopped, h.stopped stopped, Bool.true_or]

theorem exec_steady {c : Instr} (plain : ¬ coldRow c) (s : State) : ∃ t, exec c s = .next t ∧ Steady s t := by
  by_cases completes : ∃ cid, c = .commandComplete cid
  · obtain ⟨cid, rfl⟩ := completes
    obtain ⟨t, answers, frame⟩ | ⟨u, frame, restarts⟩ := execCommandComplete_confined cid s
    · exact ⟨t, answers, .of_frame frame (by decide)⟩
    · exact ⟨_, restarts, (Steady.of_frame frame (by decide)).softReset ..⟩
  · obtain ⟨t, answers, frame⟩ := exec_confined (s := s) plain (fun cid h => completes ⟨cid, h⟩)
    exact ⟨t, answers, .of_frame frame (pending_not_mem_rowParts c)⟩

/-- The loss of a clock leaves a stop: it is one itself (R490). -/
theorem State.clockLoss_stopped (source : Nat) (h : s.boot.stopped = true) : (s.clockLoss source).boot.stopped = true := by
  unfold State.clockLoss
  split
  · rfl
  · exact h

theorem State.loseTrip_stopped (h : s.boot.stopped = true) : s.loseTrip.boot.stopped = true := (State.loseTrip_frame s).stopped h

end Sys2Proof.Machine
end

section
open Sys2Proof Sys2Proof.Machine

/-- Settles O1: the front command is the one that the step finds. -/
theorem stepRunsTheFrontCommand : Obligations.StepRunsTheFrontCommand := by
  intro c rest s queue
  simp only [step, queue]

/-- Settles O2: the launches that an error has stopped end (`State.endStopped`), then the second counts (`State.tick`). -/
theorem emptyQueueOnlyPassesTime : Obligations.EmptyQueueOnlyPassesTime := by
  intro s empty
  have ended := State.endStopped_frame s
  have ticks := State.tick_frame s.endStopped
  have pins : s.endStopped.pins = s.pins := ended.exact (by decide) (p := .pins) (by decide)
  have ret : s.endStopped.ret = s.ret := ended.exact (by decide) (p := .ret) (by decide)
  have launches : s.endStopped.tick.launches = s.endStopped.launches := ticks.exact (by decide) (p := .launches) (by decide)
  have cmds : s.endStopped.tick.host.cmds = s.endStopped.host.cmds := ticks.exact (by decide) (p := .cmds) (by decide)
  have time := State.tick_ret s.endStopped
  rw [pins, ret] at time
  refine ⟨s.idle, by simp only [step, empty], ?pending, State.idle_frame s, ?running, fun l => launches ▸ launches_endStopped s, ?stopped, ?_, ?_, ?_⟩
  case pending => exact ((State.idle_frame s).exact (by decide) (p := .pending) (by decide) :).trans empty
  case running =>
    intro running
    rw [State.idle_eq, endStopped_of_none running]
    exact ⟨State.tick_frame s, fun off => if_neg (by simp [off])⟩
  case stopped =>
    intro l c member error live
    have ends : Stopped s.endStopped l.cid := stopped_foldl_endLaunch live ⟨l, List.mem_filter.mpr ⟨member, error⟩, rfl⟩
    rw [State.idle_eq, EndedAs, cmdAt_of_cmds cmds]
    exact ends.2
  all_goals
    rw [State.idle_eq, time]
  · split <;> rfl
  · intro power powered
    simp [power, powered]
  · intro off
    simp [off]

/-- Settles O3: the rows that start the module or take its power or clock away keep the queue (`exec_keeps_of_coldRow`), and so does every other row
(`exec_steady`). -/
theorem everyCommandAnswersAndLeavesTheQueue : Obligations.EveryCommandAnswersAndLeavesTheQueue := by
  intro c s
  by_cases cold : coldRow c
  · obtain ⟨t, answers, keeps⟩ := exec_keeps_of_coldRow cold s
    exact ⟨t, answers, keeps.pending⟩
  · obtain ⟨t, answers, steady⟩ := exec_steady cold s
    exact ⟨t, answers, steady.pending⟩

/-- Settles O8: every row but those that start the module or take its power or clock away leaves a stop (`exec_steady`), and so does the loss of a clock. -/
theorem stopStaysUntilColdReset : Obligations.StopStaysUntilColdReset := by
  intro c s t stopped next cleared
  have stays {u : State} (answers : exec c s = .next u) (h : u.boot.stopped = true) : False := by
    obtain rfl : u = t := Host.Outcome.next.inj (answers.symm.trans next)
    exact absurd h (by simp [cleared])
  by_cases cold : coldRow c
  · obtain h | h | h | h | h | rfl | rfl | h | h | h | h := row_of_coldRow cold
    case inr.inr.inr.inr.inr.inl =>
      exact (stays rfl (State.loseTrip_stopped (State.clockLoss_stopped _ (by exact stopped)))).elim
    case inr.inr.inr.inr.inr.inr.inl => exact (stays rfl (State.clockLoss_stopped _ stopped)).elim
    all_goals simp only [h, true_or, or_true]
  · obtain ⟨u, answers, steady⟩ := exec_steady cold s
    exact (stays answers (steady.stopped stopped)).elim

/-- Settles O54: no row but those that start the module or take its power or clock away changes the settings in force (`exec_steady`). -/
theorem settingsInForceStay : Obligations.SettingsInForceStay := by
  intro c s t next plain
  obtain ⟨u, answers, steady⟩ := exec_steady plain s
  obtain rfl : u = t := Host.Outcome.next.inj (answers.symm.trans next)
  exact ⟨steady.settings, steady.boardOk⟩

/-- Settles O55: every reset rebuilds the units (`State.softReset_scu`, `State.coldStart_scu`); the rows of a tile or an engine do not list them
(`exec_confined`). -/
theorem resetsOfStreamCheckUnits : Obligations.ResetsOfStreamCheckUnits := by
  have runs {c : Instr} {ps : List Part} (row : Confined ps c) (s : State) (out : Part.scu ∉ ps := by decide) : Answers c s (fun t => t.scu = s.scu) := by
    obtain ⟨t, answers, frame⟩ := row s
    exact ⟨t, answers, frame.stop .scu out (by decide)⟩
  refine ⟨?cold, ?warm, ?function, ?restart, ?values, ?tiles, ?clock, ?engine⟩
  case cold => exact fun s katOk idA idB => ⟨_, rfl, State.coldStart_scu ..⟩
  case warm =>
    intro s power high reset kept
    exact ⟨_, if_pos (by simp [power, high, reset, kept]), State.softReset_scu ..⟩
  case function =>
    intro s reach kept
    exact ⟨_, if_neg (by simp [reach, kept]), State.softReset_scu ..⟩
  case restart =>
    intro s cid e d entry done restarts ok turn
    exact ⟨_, (exec_commandComplete_of_done entry done (Classical.or_iff_not_imp_left.mpr (turn <| not_not.mp ·))).trans (congrArg Host.Outcome.next
        (if_pos ⟨restarts, ok⟩)), State.softReset_scu ..⟩
  case values => decide
  case tiles =>
    have watchdog (site : SiteId) : Confined (eventParts.append (lossParts.append (linkParts.append [.pins, .svc]))) (.tileControllerWatchdog site) :=
      confined_row
    exact fun s site => ⟨runs (ps := [.tiles]) confined_row s, runs (watchdog site) s⟩
  case clock => exact fun s at_ => runs (ps := eventParts.append (lossParts.append (linkParts.append [.pins, .svc]))) confined_row s
  case engine => exact fun s e => runs (ps := eventParts.append linkParts) confined_row s

end

section
/-! A state in which a run has outlived its command, for the refutation of O49. -/

set_option Elab.async false
namespace Sys2Proof.Machine

/-- A run of a collective operation, kept in the table past the end of its command. -/
def straggler : Run := newRun 1 ⟨false, [], [⟨0x0600, false, 0, [], [], []⟩], [], [], [], 0⟩ [] 0 0 0

/-- The end of its command. -/
def stragglerEnd : Done := { status := .ok, source := 0, result := [], writes := [] }

/-- Its command, which has ended. -/
def stragglerCmd : Cmd :=
  { cid := 1, ring := 0, slot := 0, desc := [], aliveSeen := 0, aliveAt := 0, seq := some 0, started := true, core := 0, done := some stragglerEnd,
      marked := none }

/-- A command that has ended, its run still in the table with a join that another module has sent it (R140). -/
def straggling : State :=
  { State.reset with
    host := { State.reset.host with cmds := [stragglerCmd] }
    runs := [straggler]
    trans := { State.reset.trans with joins := [(0, collWord straggler ⟨0x0600, false, 0, [], [], []⟩)] } }

theorem straggler_ownWord : ownWord straggler (collWord straggler ⟨0x0600, false, 0, [], [], []⟩) = true := by simp [ownWord, straggler, newRun]

theorem straggling_dropRun : (straggling.dropCmd 1).trans.joins ≠ [] ∧ ((straggling.dropCmd 1).dropRun 1).trans.joins = [] := by
  refine ⟨List.cons_ne_nil _ _, ?_⟩
  have gone : straggling.runs.filter (fun r => r.cid == 1) = [straggler] := rfl
  have none_ : [straggler].filterMap (·.model) = [] := rfl
  show (State.dropRun 1 _).trans.joins = []
  unfold State.dropRun
  dsimp only
  rw [show (straggling.dropCmd 1).runs = straggling.runs from rfl, gone, none_]
  show without (fun j => [straggler].any (fun r => ownWord r j.2)) [(0, collWord straggler ⟨0x0600, false, 0, [], [], []⟩)] = []
  simp [without, straggler_ownWord]

end Sys2Proof.Machine
end

section
open Sys2Proof Sys2Proof.Machine

/-- Refutes O49: the clause about COMMAND_COMPLETE is said of every state, and in one whose run has outlived its command the run leaves with the joins that
other modules have sent it (R140), which the clause does not list. -/
theorem not_hostLinkRowsChangeOnlyTheirParts : ¬ Obligations.HostLinkRowsChangeOnlyTheirParts := by
  intro frames
  obtain ⟨-, -, -, -, -, -, -, -, -, -, -, -, -, -, -, -, -, -, complete, -, -⟩ := frames
  obtain ⟨t, answers, frame⟩ := complete straggling 1 stragglerCmd stragglerEnd rfl rfl (by decide)
  have kept : t.trans = straggling.trans := frame.exact (by decide) (p := .trans) (by decide)
  have leaves : exec (.commandComplete 1) straggling = .next ((straggling.dropWork 1).postCompletion stragglerCmd stragglerEnd) :=
    (exec_commandComplete_of_done (s := straggling) (e := stragglerCmd) (d := stragglerEnd) rfl rfl (.inl nofun)).trans
      (congrArg Host.Outcome.next (if_neg (by decide)))
  obtain rfl := Host.Outcome.next.inj (leaves.symm.trans answers)
  have posted : ((straggling.dropWork 1).postCompletion stragglerCmd stragglerEnd).trans = (straggling.dropWork 1).trans :=
    (State.postCompletion_frame _ _ _).exact (by decide) (p := .trans) (by decide)
  have same : (straggling.dropWork 1).trans.joins = straggling.trans.joins := congrArg Trans.joins (posted.symm.trans kept)
  exact absurd (same.symm.trans straggling_dropRun.2) straggling_dropRun.1
end

section
/-! The rows of the stream check units (O44). -/

set_option Elab.async false
namespace Sys2Proof.Machine
variable {s : State} {u : Nat}

theorem scuAt_modScu_same (h : u < s.scu.length) (f : Scu → Scu) : scuAt (s.modScu u f) u = f (scuAt s u) := getD_modAt_same h f _

@[simp] theorem State.modScu_scu_length (n : Nat) (f : Scu → Scu) (s : State) : (s.modScu n f).scu.length = s.scu.length := modAt_length ..

/-- A record that closes changes its unit as `Scu.close` says; the events that it may raise change no unit. -/
theorem State.closeRecord_scu (u : Nat) (bytes : List Byte) (incomplete : Bool) (s : State) :
    (s.closeRecord u bytes incomplete).scu = (s.modScu u (Scu.close bytes incomplete)).scu := by
  have event {c : Prop} [Decidable c] (k : Nat) (t : State) : (if c then t.scuCondition u k else t).scu = t.scu := by
    split
    · exact (State.scuCondition_frame u k t).exact (by decide) (p := .scu) (by decide)
    · rfl
  unfold State.closeRecord
  dsimp only
  exact (event ..).trans ((event ..).trans (event ..))

theorem scuAt_closeRecord_same (h : u < s.scu.length) (bytes : List Byte) (incomplete : Bool) :
    scuAt (s.closeRecord u bytes incomplete) u = (scuAt s u).close bytes incomplete :=
  (congrArg (fun l : List Scu => l.getD u Scu.reset) (State.closeRecord_scu u bytes incomplete s) :).trans (scuAt_modScu_same h _)

/-- FIXED bytes short of a frame stay open (R547). -/
theorem closeFixed_of_short {bytes : List Byte} (short : bytes.length < (scuAt s u).frame.toNat) (incomplete : Bool) (fuel : Nat) :
    closeFixed u incomplete fuel bytes s = s.modScu u (fun x => { x with partialBytes := bytes }) := by
  cases fuel with
  | zero => rfl
  | succ fuel => exact if_pos (.inr short)

/-- FIXED bytes that make up one frame close it (R547). -/
theorem closeFixed_of_frame (h : u < s.scu.length) {bytes : List Byte} (whole : bytes.length = (scuAt s u).frame.toNat)
    (some_ : 0 < (scuAt s u).frame.toNat)
    (incomplete : Bool) (fuel : Nat) :
    closeFixed u incomplete (fuel + 1) bytes s = (s.closeRecord u bytes incomplete).modScu u (fun x => { x with partialBytes := [] }) := by
  have goesOn : ¬ ((scuAt s u).frame.toNat = 0 ∨ bytes.length < (scuAt s u).frame.toNat) := by omega
  have frame : (scuAt (s.closeRecord u bytes incomplete) u).frame = (scuAt s u).frame :=
    (congrArg Scu.frame (scuAt_closeRecord_same h bytes incomplete) :)
  rw [closeFixed, if_neg goesOn, List.take_of_length_le whole.le, List.drop_of_length_le whole.le]
  exact closeFixed_of_short (by rw [frame]; exact some_) ..

/-- What a write with enable 1 does to a unit that is not enabled (R551). -/
theorem State.writeScuCtrl_enables {v : Nat} (h : u < s.scu.length) (off : (scuAt s u).enable = false) (on : bit 31 v = true) :
    scuAt (s.writeScuCtrl u v) u =
      if ((scuAt s u).configure v).valid then ((scuAt s u).configure v).start else { (scuAt s u).configure v with configError := true } := by
  have written : scuAt (s.modScu u (Scu.configure v)) u = (scuAt s u).configure v := scuAt_modScu_same h _
  have there : u < (s.modScu u (Scu.configure v)).scu.length := by simpa using h
  unfold State.writeScuCtrl
  simp only [off, on, Bool.false_eq_true, if_false, Bool.not_true, written]
  split
  · rw [scuAt_modScu_same there, written]
  · rw [scuAt_modScu_same there, written]

/-- A unit that stops closes its open record as incomplete (R547). -/
theorem scuAt_stopScu_same (h : u < s.scu.length) : scuAt (s.stopScu u) u =
    { (if (scuAt s u).partialBytes.isEmpty then scuAt s u else (scuAt s u).close (scuAt s u).partialBytes true) with
      enable := false, partialBytes := [] } := by
  unfold State.stopScu
  dsimp only
  split
  next => exact scuAt_modScu_same h _
  next =>
    have there : u < (s.closeRecord u (scuAt s u).partialBytes true).scu.length := by rw [State.closeRecord_scu]; simpa using h
    rw [scuAt_modScu_same there, scuAt_closeRecord_same h]

/-- What crosses the tap of an enabled unit without an overrun (R547). -/
theorem execScuRecordClose_delivered {u : ScuId} (enabled : (scuAt s u).enable = true) (delivers : (scuAt s u).delivers s = true) (bytes : List Byte)
    (ok : Bool) : execScuRecordClose u bytes ok false s = .next (if (scuAt s u).fixed
      then closeFixed u false ((scuAt s u).partialBytes.length + bytes.length + 1) ((scuAt s u).partialBytes ++ bytes) s
      else s.closeRecord u bytes (!ok)) := by
  unfold execScuRecordClose
  simp only [enabled, delivers, Bool.not_true, Bool.or_self, Bool.false_eq_true, if_false, Bool.or_false]
  split <;> rfl

end Sys2Proof.Machine
end

section
open Sys2Proof Sys2Proof.Machine

/-- Settles O44: what each row does to its unit (`State.writeScuCtrl_enables`, `scuAt_stopScu_same`, `closeFixed_of_short`, `closeFixed_of_frame`,
`scuAt_closeRecord_same`). -/
theorem streamCheckRowsComplete : Obligations.StreamCheckRowsComplete := by
  refine ⟨?enable, ?invalid, ?again, ?disable, ?message, ?short, ?frame, ?empty, ?head⟩
  case enable =>
    intro s u v here off on valid
    have started := State.writeScuCtrl_enables here off (v := v.toNat) on
    rw [if_pos valid] at started
    exact ⟨_, rfl, started, congrArg Scu.enable started, congrArg Scu.fifo started⟩
  case invalid =>
    intro s u v here off on invalid
    have refused := State.writeScuCtrl_enables here off (v := v.toNat) on
    rw [if_neg (by simp [invalid])] at refused
    exact ⟨_, rfl, congrArg Scu.configError refused, (congrArg Scu.enable refused).trans off⟩
  case again =>
    intro s u v enabled on
    exact ⟨_, rfl, (if_pos enabled).trans (if_pos on)⟩
  case disable =>
    intro s u here enabled
    have stopped := scuAt_stopScu_same here
    refine ⟨_, if_pos enabled, congrArg Scu.enable stopped, congrArg Scu.partialBytes stopped, fun open_ => ?_⟩
    rw [if_neg (by simpa using open_)] at stopped
    exact ⟨(congrArg Scu.records stopped :), (congrArg Scu.fifo stopped :)⟩
  case message =>
    intro s u bytes ok here enabled delivers message
    refine ⟨_, execScuRecordClose_delivered enabled delivers .., ?_⟩
    rw [if_neg (by simp [message])]
    exact scuAt_closeRecord_same here ..
  case short =>
    intro s u bytes ok here enabled delivers fixed short
    refine ⟨_, execScuRecordClose_delivered enabled delivers .., ?_⟩
    rw [if_pos fixed, closeFixed_of_short (by simpa using short)]
    exact scuAt_modScu_same here _
  case frame =>
    intro s u bytes ok here enabled delivers fixed whole some_
    refine ⟨_, execScuRecordClose_delivered enabled delivers .., ?_⟩
    have there : u < (s.closeRecord u ((scuAt s u).partialBytes ++ bytes) false).scu.length := by rw [State.closeRecord_scu]; simpa using here
    rw [if_pos fixed, closeFixed_of_frame here (by simpa using whole) some_]
    exact (scuAt_modScu_same there _).trans (by rw [scuAt_closeRecord_same here])
  case empty =>
    intro s u here empty
    have read := scuAt_modScu_same here (fun x => { x with info := 0 })
    exact ⟨({ s.modScu u (fun x => { x with info := 0 }) with host := { s.host with readData := leBytes 8 0 } } : State),
      by simp only [exec, execScuResultRead, empty], rfl, (congrArg Scu.fifo read :).trans empty⟩
  case head =>
    intro s u x l here head
    have read := scuAt_modScu_same here (fun y => { y with fifo := l, info := x.info })
    exact ⟨({ s.modScu u (fun y => { y with fifo := l, info := x.info }) with host := { s.host with readData := leBytes 8 x.value.toNat } } : State),
      by simp only [exec, execScuResultRead, head], rfl, congrArg Scu.fifo read, congrArg Scu.info read⟩

end

section
/-! The two flashes and the log through what is written to them: which has failed, what its read-back has found, where the log is, and whether writes are
refused, are left by everything but the rows that say so (R472, R513, R525, R526). -/

set_option Elab.async false
namespace Sys2Proof.Machine

/-- What a write of a record or an entry leaves of the flashes. -/
def wear (s : State) : (Bool × Nat) × (Bool × Nat) × Nat × Bool :=
  ((s.flashA.failed, s.flashA.errors), (s.flashB.failed, s.flashB.errors), s.log.active, s.log.refused)

theorem flashAt_of_wear {s t : State} (h : wear t = wear s) (i : Nat) :
    (flashAt t i).failed = (flashAt s i).failed ∧ (flashAt t i).errors = (flashAt s i).errors := by
  simp only [wear, Prod.mk.injEq] at h
  obtain ⟨⟨aFailed, aErrors⟩, ⟨bFailed, bErrors⟩, -, -⟩ := h
  unfold flashAt
  split
  · exact ⟨aFailed, aErrors⟩
  · exact ⟨bFailed, bErrors⟩

theorem active_of_wear {s t : State} (h : wear t = wear s) : t.log.active = s.log.active := congrArg (fun w => w.2.2.1) h

theorem refused_of_wear {s t : State} (h : wear t = wear s) : t.log.refused = s.log.refused := congrArg (fun w => w.2.2.2) h

theorem wear_of_frame {ps : List Part} {s t : State} (h : Frame ps s t) (out : ∀ p ∈ [Part.flashA, .flashB, .log, .stop], p ∉ ps := by decide) :
    wear t = wear s := by
  have same {p : Part} (k : p ∈ [Part.flashA, .flashB, .log, .stop]) : p.same s t := h.exact (out .stop (by decide)) (out p k)
  have a : t.flashA = s.flashA := same (p := .flashA) (by decide)
  have b : t.flashB = s.flashB := same (p := .flashB) (by decide)
  have log : t.log = s.log := same (p := .log) (by decide)
  simp only [wear, a, b, log]

theorem Flash.enqueue_wear (op : FlashOp) (f : Flash) : (f.enqueue op).failed = f.failed ∧ (f.enqueue op).errors = f.errors := by
  unfold Flash.enqueue
  split
  · exact ⟨rfl, rfl⟩
  · split <;> exact ⟨rfl, rfl⟩

theorem wear_enqueue (i : Nat) (op : FlashOp) (s : State) : wear (s.modFlash i (Flash.enqueue op)) = wear s := by
  unfold State.modFlash
  split <;> simp only [wear, (Flash.enqueue_wear ..).1, (Flash.enqueue_wear ..).2]

theorem wear_ite {c : Prop} [Decidable c] {s t u : State} (h : wear t = wear s) (k : wear u = wear s) : wear (if c then t else u) = wear s := by
  split <;> assumption

theorem wear_foldl {α : Type} {g : State → α → State} (h : ∀ t x, wear (g t x) = wear t) (l : List α) (s : State) : wear (l.foldl g s) = wear s :=
  foldl_view h l s

theorem queueMirror_wear (m : Mirror) (g : LogState) : (queueMirror m g).active = g.active ∧ (queueMirror m g).refused = g.refused := by
  unfold queueMirror
  split
  · exact ⟨rfl, rfl⟩
  · split
    · exact ⟨rfl, rfl⟩
    · split
      · exact ⟨rfl, rfl⟩
      · split <;> exact ⟨rfl, rfl⟩

theorem queueRecord_wear (r : LogRec) (g : LogState) : (queueRecord r g).active = g.active ∧ (queueRecord r g).refused = g.refused := by
  unfold queueRecord
  split
  · exact ⟨rfl, rfl⟩
  · dsimp only
    split <;> exact ⟨rfl, rfl⟩

theorem wear_enqueueBoth (op : FlashOp) (s : State) : wear (s.enqueueBoth op) = wear s := wear_ite (wear_enqueue ..) (wear_enqueue ..)

theorem wear_putMirror (m : Mirror) (s : State) : wear (s.putMirror m) = wear s := by
  unfold State.putMirror
  dsimp only
  split
  · rfl
  · split
    · simp only [wear, (queueMirror_wear ..).1, (queueMirror_wear ..).2]
    · exact (wear_enqueueBoth ..).trans rfl

theorem wear_commitRecord (r : LogRec) (s : State) : wear (s.commitRecord r) = wear s := by
  unfold State.commitRecord
  dsimp only
  split
  · rfl
  · split
    · simp only [wear, (queueRecord_wear ..).1, (queueRecord_wear ..).2]
    · generalize head : (if (flashAt s s.log.active).nextPlace % 2048 = 0 then s.putMirror (.logHead s.log.active s.log.next) else s) = u
      have same : wear u = wear s := by
        rw [← head]
        exact wear_ite (wear_putMirror ..) rfl
      exact (wear_enqueue s.log.active (.log { r with number := s.log.next }) u).trans same

theorem wear_commitOpen (s : State) : wear s.commitOpen = wear s := by
  unfold State.commitOpen
  split
  · rfl
  · exact wear_commitRecord ..

theorem wear_logEvent (event source severity : Nat) (injected : Bool) (data : DWord) (s : State) :
    wear (s.logEvent event source severity injected data) = wear s := by
  unfold State.logEvent
  dsimp only
  split
  · exact wear_ite rfl (wear_commitOpen s)
  · rfl

theorem wear_raiseCause (k : Nat) (s : State) : wear (s.raiseCause k) = wear s := wear_of_frame (State.raiseCause_frame ..)

theorem wear_captureOnly (evs : List FaultEvent) (s : State) : wear (s.captureOnly evs) = wear s := by
  have marked (u : State) (l : List FaultEvent) : wear ((u.logEvents l).markEvents l) = wear u :=
    (wear_of_frame (State.markEvents_frame ..)).trans (wear_foldl (fun _ _ => wear_logEvent ..) l u)
  unfold State.captureOnly
  exact wear_ite ((wear_raiseCause ..).trans (marked ..)) (marked ..)

theorem wear_captureUnlogged (src : Nat) (s : State) : wear (s.captureUnlogged src) = wear s := by
  unfold State.captureUnlogged
  dsimp only
  exact wear_ite (wear_raiseCause ..) rfl

theorem wear_moduleStop (source : Nat) (s : State) : wear (s.moduleStop source) = wear s := by
  have held : wear (s.endAll .internal source).lasersOff.holdDies.loseLocal = wear s :=
    (wear_of_frame (State.loseLocal_frame _)).trans ((wear_of_frame (State.holdDies_frame _)).trans
      ((wear_of_frame (State.lasersOff_frame _)).trans (wear_of_frame (State.endAll_frame ..))))
  exact (wear_commitOpen _ :).trans held

theorem wear_capture (evs : List FaultEvent) (s : State) : wear (s.capture evs) = wear s := by
  unfold State.capture
  dsimp only
  split
  · exact (wear_moduleStop ..).trans (wear_captureOnly ..)
  · exact wear_captureOnly ..

theorem wear_raise (source data : Nat) (s : State) : wear (s.raise source data) = wear s := wear_capture ..

theorem wear_opSettled (op : FlashOp) (s : State) : wear (s.opSettled op) = wear s := by
  unfold State.opSettled
  split
  · rfl
  · exact (wear_of_frame (State.finishCmd_frame ..)).trans (wear_logEvent ..)
  · rfl

theorem wear_carryOps (i : Nat) (l : List FlashOp) (s : State) : wear (s.carryOps i l) = wear s :=
  wear_foldl (fun _ _ => wear_ite (wear_enqueue ..) (wear_opSettled ..)) _ s

theorem wear_reserveBatch (s : State) : wear s.reserveBatch = wear s := by
  unfold State.reserveBatch
  exact wear_ite rfl (wear_ite (wear_ite rfl (wear_raise ..)) (wear_enqueue ..))

theorem wear_reportDropped (s : State) : wear s.reportDropped = wear s := by
  unfold State.reportDropped
  exact wear_ite rfl (wear_raise ..)

end Sys2Proof.Machine
end

section
/-! Fault states that end (O43, O56): the record of a recovery stays, whatever the eighth within 3,600 s retires. -/

set_option Elab.async false
namespace Sys2Proof.Machine

/-! ## The recoveries that stay -/

/-- Every recovery that the hub of s has recorded that of t has too. -/
structure RecoveriesStay (s t : State) : Prop where
  stay : ∀ k, Mirror.recovery k ∈ s.log.held → Mirror.recovery k ∈ t.log.held

namespace RecoveriesStay

theorem refl (s : State) : RecoveriesStay s s := ⟨fun _ => id⟩

theorem trans {s t u : State} (h : RecoveriesStay s t) (k : RecoveriesStay t u) : RecoveriesStay s u := ⟨fun r e => k.stay r (h.stay r e)⟩

theorem of_records {s t : State} (h : records t = records s) : RecoveriesStay s t :=
  ⟨fun _ there => (mem_records.mp (h ▸ mem_records.mpr ⟨there, rfl⟩)).1⟩

theorem of_ledger {s t : State} (h : ledger t = ledger s) : RecoveriesStay s t := of_records (records_of_ledger h)

theorem of_frame {ps : List Part} {s t : State} (h : Frame ps s t) (out : Part.stop ∉ ps ∧ Part.log ∉ ps := by decide) : RecoveriesStay s t :=
  of_records (records_of_frame h out.1 out.2)

/-- An entry of another kind replaces no recovery, and no history of them is trimmed. -/
theorem putMirror (m : Mirror) (s : State) (other : ∀ k, m ≠ .recovery k := by exact fun _ => nofun) : RecoveriesStay s (s.putMirror m) := by
  refine ⟨fun k there => ?_⟩
  have apart : Mirror.sameKey m (.recovery k) = false := by cases m <;> simp_all [Mirror.sameKey]
  have kept : Mirror.recovery k ∈ without (Mirror.sameKey m) s.log.held ++ [m] := by simp [without, there, apart]
  rw [State.putMirror_held, addMirror]
  unfold trimHistory
  split
  · exact (mem_dropNth rfl ..).mpr kept
  · exact (mem_dropNth rfl ..).mpr kept
  · exact kept

theorem foldl {α : Type} {g : State → α → State} (h : ∀ t x, RecoveriesStay t (g t x)) (l : List α) (s : State) : RecoveriesStay s (l.foldl g s) :=
  List.foldlRecOn (motive := RecoveriesStay s) l g (refl s) (fun t kept x _ => kept.trans (h t x))

theorem ite {c : Prop} [Decidable c] {s t u : State} (h : RecoveriesStay s t) (k : RecoveriesStay s u) : RecoveriesStay s (if c then t else u) := by
  split <;> assumption

end RecoveriesStay

/-! ## Retirements -/

theorem ledger_raiseOnce (level cause resource : Nat) (s : State) : ledger (s.raiseOnce level cause resource) = ledger s := by
  unfold State.raiseOnce
  split
  · rfl
  · exact ledger_raiseService ..

theorem ledger_checkHealth (e side : Nat) (s : State) : ledger (s.checkHealth e side) = ledger s := by
  unfold State.checkHealth
  dsimp only
  split
  · exact ledger_engineOut ..
  · rfl

theorem ledger_narrow (e side : Nat) (s : State) : ledger (s.narrow e side) = ledger s := by
  unfold State.narrow
  dsimp only
  split
  · exact ledger_engineOut ..
  · split
    · exact ledger_linkDown ..
    · split
      · exact ledger_of_frame (State.startChange_frame ..) (by decide)
      · rfl

theorem ledger_pauseSlot (e side slot : Nat) (notify : Bool) (s : State) : ledger (s.pauseSlot e side slot notify) = ledger s :=
  ledger_of_frame (State.pauseSlot_frame ..) (by decide)

theorem ledger_spareSlot (e side w slot : Nat) (counted : Bool) (s : State) : ledger (s.spareSlot e side w slot counted) = ledger s := by
  have once {c : Prop} [Decidable c] (level : Nat) (t : State) : ledger (if c then t.raiseOnce level 4 e else t) = ledger t := by
    split
    · exact ledger_raiseOnce ..
    · rfl
  unfold State.spareSlot
  dsimp only
  split
  · split
    · exact (ledger_raiseOnce ..).trans (ledger_narrow ..)
    · exact ledger_narrow ..
  · refine (once ..).trans ((once ..).trans ?_)
    exact (ledger_of_frame (State.sendMaps_frame ..) (by decide)).trans rfl

theorem ledger_openRing (e : EngineId) (r : OeRing) (k : Nat) (s : State) : ledger (s.openRing e r k) = ledger s := by
  unfold State.openRing
  split <;> rfl

/-- A step of a row that its condition may leave out. -/
theorem ledger_ite {c : Prop} [Decidable c] {s t u : State} (h : ledger t = ledger s) (k : ledger u = ledger s) :
    ledger (if c then t else u) = ledger s := by split <;> assumption

/-- The slot of a ring that goes moves to a spare, and the last spare that goes is reported. -/
theorem ledger_failRing (e : EngineId) (r : OeRing) (tone : Bool) (s : State) : ledger (s.failRing e r tone) = ledger s := by
  unfold State.failRing
  extract_lets x q side slot s0 s1 s2 s3
  have h0 : ledger s0 = ledger s := ledger_ite (ledger_pauseSlot ..) rfl
  have h1 : ledger s1 = ledger s := h0
  have h2 : ledger s2 = ledger s := ledger_ite ((ledger_openRing ..).trans h1) h1
  have h3 : ledger s3 = ledger s := ledger_ite h2 (ledger_ite ((ledger_spareSlot ..).trans h2) (ledger_ite ((ledger_raiseOnce ..).trans h2) h2))
  exact ledger_ite rfl ((ledger_checkHealth ..).trans h3)

theorem State.retireRing_recoveries (e : EngineId) (r : OeRing) (s : State) : RecoveriesStay s (s.retireRing e r) := by
  unfold State.retireRing
  extract_lets q side s0 s1 src s2 s3 s4
  have h0 : ledger s0 = ledger s := ledger_ite (ledger_pauseSlot ..) rfl
  have h1 : RecoveriesStay s s1 := ((RecoveriesStay.of_ledger h0).trans (.of_frame (State.modOeRing_frame ..))).trans (.putMirror (.retiredRing e r)
      (s0.modOeRing e r _))
  have h2 : ledger s2 = ledger s1 := (ledger_logEvent ..).trans (ledger_raise ..)
  have h3 : ledger s3 = ledger s1 := (ledger_raiseOnce ..).trans h2
  have h4 : ledger s4 = ledger s1 := ledger_ite h3 (ledger_ite ((ledger_spareSlot ..).trans h3) (ledger_ite ((ledger_raiseOnce ..).trans h3) h3))
  exact h1.trans (.of_ledger ((ledger_checkHealth ..).trans h4))

theorem State.retireLaser_recoveries (e : EngineId) (f : Fin 2) (source : Nat) (s : State) : RecoveriesStay s (s.retireLaser e f source) := by
  have failed (t : State) : ledger (t.failFibre e f (List.range 18)) = ledger t := ledger_foldl (fun u n => ledger_failRing ..) ..
  unfold State.retireLaser
  extract_lets s1
  have dark : RecoveriesStay s s1 := ((RecoveriesStay.of_frame (State.modEngine_frame ..)).trans (.of_frame (State.setLaser_frame ..))).trans
    (.putMirror (.retiredLaser e f) _)
  exact dark.trans (.of_ledger ((failed _).trans (ledger_logEvent ..)))

theorem State.retireCore_recoveries (c : CoreId) (s : State) : RecoveriesStay s (s.retireCore c) := by
  unfold State.retireCore
  extract_lets src _ s1 s2
  have h0 (f : Faults) : RecoveriesStay s ({ s with flt := f }) := .of_ledger rfl
  have h1 : RecoveriesStay s s1 := (h0 _).trans ((RecoveriesStay.putMirror (.retiredCore c) _).trans (.of_ledger (ledger_raise ..)))
  have h2 : RecoveriesStay s s2 := h1.trans (.of_ledger (ledger_logEvent ..))
  exact .ite (h2.trans (.of_ledger (ledger_raise ..))) h2

theorem records_darken (n : Nat) (s : State) : records (s.darken n) = records s := by
  unfold State.darken
  extract_lets was left s1
  refine (records_of_frame (State.assignStreams_frame _) (by decide) (by decide)).trans ?_
  split
  · exact records_takeSpare ..
  · rfl

theorem State.isolateSite_recoveries (n : Nat) (s : State) : RecoveriesStay s (s.isolateSite n) := by
  unfold State.isolateSite
  extract_lets was counted left src s1 s2 s3 s4 s5 s6
  have h1 : RecoveriesStay s s1 := .of_ledger rfl
  have h2 : RecoveriesStay s s2 := h1.trans ((RecoveriesStay.putMirror (.retiredSite n true) s1).trans (.of_ledger (ledger_raise ..)))
  have h3 : RecoveriesStay s s3 := h2.trans (.of_ledger (ledger_logEvent ..))
  have h4 : RecoveriesStay s s4 :=
    ((h3.trans (.of_frame (State.suspectLaunches_frame ..))).trans (.of_frame (State.requeueUnits_frame ..))).trans (.of_frame (State.loseSite_frame ..))
  have h5 : RecoveriesStay s s5 :=
    ((h4.trans (.of_frame (State.faceDown_frame ..))).trans (.of_frame (State.retable_frame ..))).trans (.of_ledger (ledger_foldl (fun u e =>
        ledger_engineOut e true u) ..))
  have h6 : RecoveriesStay s s6 := h5.trans (.of_frame (State.retry_frame _))
  exact (RecoveriesStay.ite (h6.trans (.of_records (records_takeSpare ..))) h6).trans (.of_frame (State.assignStreams_frame _))

theorem State.retireTile_recoveries (n : Nat) (routerOk : Bool) (s : State) : RecoveriesStay s (s.retireTile n routerOk) := by
  have retires : RecoveriesStay s (s.retireSite n) := by
    unfold State.retireSite
    extract_lets src s1
    have h1 : RecoveriesStay s s1 := .ite (.of_ledger rfl) (.of_records (records_darken ..))
    exact (h1.trans (.putMirror (.retiredSite n false) _)).trans (.of_ledger ((ledger_logEvent ..).trans (ledger_raise ..)))
  exact .ite (.refl s) (.ite (.ite (.refl s) retires) (s.isolateSite_recoveries n))

theorem State.cellOut_recoveries (n k source : Nat) (s : State) : RecoveriesStay s (s.cellOut n k source) := by
  have retired (u : State) : RecoveriesStay u (u.retireCell n k source) := by
    unfold State.retireCell
    extract_lets t s1 s2
    have h1 : RecoveriesStay u s1 := .of_ledger rfl
    have h2 : RecoveriesStay u s2 := h1.trans ((RecoveriesStay.putMirror (.retiredCell n k) s1).trans (.of_ledger (ledger_logEvent ..)))
    exact .ite (.refl u) (.ite (h2.trans (.of_ledger (ledger_raiseService ..))) (h2.trans (s2.retireTile_recoveries n true)))
  unfold State.cellOut
  extract_lets s1 s2
  have h1 : RecoveriesStay s s1 := .of_ledger rfl
  have h2 : RecoveriesStay s s2 := h1.trans (retired s1)
  exact .ite (h2.trans (.of_frame (State.startDrain_frame ..))) h2

theorem State.retireBundle_recoveries (b : BundleEnd) (s : State) : RecoveriesStay s (s.retireBundle b) := by
  unfold State.retireBundle
  extract_lets src both s1 s2 u s3 s4 s5
  have h1 : RecoveriesStay s s1 := .foldl (fun t x => (RecoveriesStay.putMirror (.retiredBundle x) t).trans (.of_frame (State.modBundle_frame ..))) both s
  have h3 : RecoveriesStay s s3 := h1.trans (.of_ledger ((ledger_raiseService ..).trans ((ledger_logEvent ..).trans (ledger_raise ..))))
  have h4 : RecoveriesStay s s4 := h3.trans (.foldl (fun t x => .of_records (records_handOver x t)) both s3)
  have h5 : RecoveriesStay s s5 := h4.trans (.of_frame (State.retable_frame _))
  refine h5.trans (.foldl (fun t x => ?_) both s5)
  cases x with
  | tile n i => exact .ite (.refl t) (t.isolateSite_recoveries n)
  | engine e k => exact .ite (.refl t) (.of_ledger (ledger_engineOut ..))
  | hub i => exact .refl t

/-- What the eighth recovery within 3,600 s does to a resource replaces no recovery. -/
theorem State.retire_recoveries (st : FaultState) (s : State) : RecoveriesStay s (s.retire st) := by
  unfold State.retire
  split
  · exact (RecoveriesStay.of_ledger (ledger_raise ..)).trans (State.cellOut_recoveries ..)
  · exact s.retireTile_recoveries _ true
  · exact s.retireBundle_recoveries _
  · exact s.retireRing_recoveries ..
  · exact s.retireLaser_recoveries ..
  · exact (RecoveriesStay.putMirror ..).trans ((RecoveriesStay.of_frame (State.markSensor_frame ..)).trans (.of_ledger (ledger_logEvent ..)))
  · exact s.retireCore_recoveries _

/-! ## A fault state enters and ends (R497, R499, R509) -/

theorem Faults.enter_of_open {f : Faults} {ev : FaultEvent} {r : Resource} {st : FaultState} (opens : eventOpens ev = some r)
    (here : openState f r = some st)
    (isFirst : Bool) : (f.enter isFirst ev).open_ = f.open_.map (fun x => if x.res = r then
      { st with severity := Nat.max st.severity (severityOf ev.source), injectedOnly := st.injectedOnly && ev.injected,
                holdsFirst := st.holdsFirst || isFirst }
      else x) := by
  simp only [Faults.enter, opens, here]

theorem Faults.enter_of_closed {f : Faults} {ev : FaultEvent} {r : Resource} (opens : eventOpens ev = some r) (closed : openState f r = none)
    (isFirst : Bool) : (f.enter isFirst ev).open_ =
      f.open_ ++ [{ res := r, source := ev.source, severity := severityOf ev.source, injectedOnly := ev.injected, holdsFirst := isFirst }] := by
  simp only [Faults.enter, opens, closed]

/-- The state after the fault state of a resource has ended, no recovery being recorded yet. -/
def State.rested (res : Resource) (s : State) : State :=
  let l := without (fun (x : FaultState) => x.res == res) s.flt.open_
  (({ s with flt := { s.flt with open_ := l }, ret := { s.ret with faultList := l } } : State).sensorBack res).coreBack res

theorem State.rested_view (res : Resource) (s : State) : openState (s.rested res).flt res = none ∧ (s.rested res).log = s.log
    ∧ (s.rested res).ret = { s.ret with faultList := (s.rested res).flt.open_ } := by
  have back (t : State) : (t.coreBack res).flt.open_ = t.flt.open_ ∧ (t.coreBack res).log = t.log ∧ (t.coreBack res).ret = t.ret := by
    cases res <;> exact ⟨rfl, rfl, rfl⟩
  obtain ⟨opened, log, ret⟩ := back (({ s with
    flt := { s.flt with open_ := without (fun (x : FaultState) => x.res == res) s.flt.open_ },
    ret := { s.ret with faultList := without (fun (x : FaultState) => x.res == res) s.flt.open_ } } : State).sensorBack res)
  have sensor := State.sensorBack_frame res ({ s with
    flt := { s.flt with open_ := without (fun (x : FaultState) => x.res == res) s.flt.open_ },
    ret := { s.ret with faultList := without (fun (x : FaultState) => x.res == res) s.flt.open_ } } : State)
  have open_ : (s.rested res).flt.open_ = without (fun (x : FaultState) => x.res == res) s.flt.open_ :=
    opened.trans (congrArg Faults.open_ (sensor.exact (by decide) (p := .flt) (by decide)))
  refine ⟨?_, log.trans (sensor.exact (by decide) (p := .log) (by decide)), ?_⟩
  · rw [openState, open_, List.find?_eq_none]
    intro x there
    simpa [without] using (List.mem_filter.mp there).2
  · rw [open_]
    exact ret.trans (sensor.exact (by decide) (p := .ret) (by decide))

variable {s : State} {resource : Resource} {st : FaultState}

/-- A state opened by injected events only ends without a recovery (R509). -/
theorem execFaultStateRestExpiry_of_injected (here : openState s.flt (resourceKey resource) = some st) (rests : unrested s (resourceKey resource) = false)
    (injected : st.injectedOnly = true) : execFaultStateRestExpiry resource s = .next (s.rested (resourceKey resource)) := by
  simp only [execFaultStateRestExpiry, here, rests, injected, Bool.false_eq_true, if_false, if_true]
  rfl

/-- A real one records its recovery, and the eighth within 3,600 s retires the resource (R499, R500). -/
theorem execFaultStateRestExpiry_of_real (here : openState s.flt (resourceKey resource) = some st) (rests : unrested s (resourceKey resource) = false)
    (real : st.injectedOnly = false) : execFaultStateRestExpiry resource s =
      .next (if eighth ((s.rested (resourceKey resource)).recordRecovery st) (resourceKey resource)
        then ((s.rested (resourceKey resource)).recordRecovery st).retire st else (s.rested (resourceKey resource)).recordRecovery st) := by
  simp only [execFaultStateRestExpiry, here, rests, real, Bool.false_eq_true, if_false]
  exact (apply_ite Host.Outcome.next ..).symm

theorem mem_trimHistory_recovery (k : Recovery) (l : List Mirror) : Mirror.recovery k ∈ trimHistory (.recovery k) (l ++ [.recovery k]) :=
  List.mem_append_right _ (List.mem_singleton.mpr rfl)

/-- The recovery that the end of a real state records is there at the end of the row. -/
theorem execFaultStateRestExpiry_records (here : openState s.flt (resourceKey resource) = some st) (rests : unrested s (resourceKey resource) = false)
    (real : st.injectedOnly = false) : ∃ t, execFaultStateRestExpiry resource s = .next t
      ∧ Mirror.recovery { res := st.res, times := (s.ret.opTime :: recordedTimes s st.res).take 8 } ∈ t.log.held := by
  obtain ⟨-, log, ret⟩ := State.rested_view (resourceKey resource) s
  have recorded : Mirror.recovery { res := st.res, times := (s.ret.opTime :: recordedTimes s st.res).take 8 }
      ∈ ((s.rested (resourceKey resource)).recordRecovery st).log.held := by
    have time : (s.rested (resourceKey resource)).ret.opTime = s.ret.opTime := (congrArg Retained.opTime ret :)
    have times : recordedTimes (s.rested (resourceKey resource)) st.res = recordedTimes s st.res := by rw [recordedTimes, log, recordedTimes]
    unfold State.recordRecovery
    rw [time, times]
    refine (RecoveriesStay.of_ledger (ledger_logEvent ..)).stay _ ?_
    rw [State.putMirror_held, addMirror]
    exact mem_trimHistory_recovery ..
  refine ⟨_, execFaultStateRestExpiry_of_real here rests real, ?_⟩
  split
  · exact (State.retire_recoveries ..).stay _ recorded
  · exact recorded

end Sys2Proof.Machine
end

section
open Sys2Proof Sys2Proof.Machine

/-- Settles O56: what an event does to the open states (`Faults.enter_of_open`, `Faults.enter_of_closed`); a state of injected events ends without a
recovery, and the recovery of a real one stays through what its eighth retires (`State.retire_recoveries`). -/
theorem injectedEventsAndFaultStates : Obligations.InjectedEventsAndFaultStates := by
  refine ⟨?alike, ?injected, ?restart, ?merges, ?real⟩
  case alike =>
    intro f isFirst ev
    cases opens : eventOpens ev with
    | none =>
      have same (b : Bool) : f.enter isFirst { ev with injected := b } = f := by
        have opens' : eventOpens { ev with injected := b } = none := opens
        simp only [Faults.enter, opens']
      rw [same, same]
    | some r =>
      have opens' (b : Bool) : eventOpens { ev with injected := b } = some r := opens
      cases here : openState f r with
      | none => simp [Faults.enter_of_closed (opens' _) here]
      | some st =>
        rw [Faults.enter_of_open (opens' _) here, Faults.enter_of_open (opens' _) here, List.map_map, List.map_map]
        refine List.map_congr_left fun x _ => ?_
        simp only [Function.comp_apply]
        split <;> rfl
  case injected =>
    intro s res st here rests injected
    obtain ⟨closed, log, ret⟩ := State.rested_view (resourceKey res) s
    exact ⟨_, execFaultStateRestExpiry_of_injected here rests injected, closed, congrArg LogState.held log, (congrArg Retained.openRec ret :)⟩
  case restart =>
    intro s injected
    have none_ : s.ret.faultList.filter (fun st => !st.injectedOnly) = [] := by
      rw [List.filter_eq_nil_iff]
      intro st there
      simp [injected st there]
    rw [State.endStates, none_, List.foldl_nil]
  case merges =>
    intro f isFirst ev res st opens here real
    have own : st.res = res := by simpa using List.find?_some here
    rw [openState, Faults.enter_of_open opens here, find?_map_of_view (fun x => by split <;> simp_all), ← openState, here]
    simp [own, real]
  case real =>
    intro s res st here rests real
    exact execFaultStateRestExpiry_records here rests real

end

section
/-! The rows of the fault collector, of the flashes and of the sideband (O43). -/

set_option Elab.async false
namespace Sys2Proof.Machine
variable {s : State}

/-! ## A cycle of the collector (R492, R493) -/

theorem Faults.enter_highest (isFirst : Bool) (ev : FaultEvent) (f : Faults) : (f.enter isFirst ev).highest = f.highest := by
  unfold Faults.enter
  cases eventOpens ev with
  | none => rfl
  | some r =>
    dsimp only
    cases openState f r <;> rfl

theorem firstOf_isSome {evs : List FaultEvent} (some_ : evs ≠ []) : (firstOf evs).isSome = true := by
  have stays (l : List FaultEvent) (m : Option FaultEvent) (h : m.isSome = true) :
      (l.foldl (fun m e => match m with | none => some e | some x => if earlier e x then some e else some x) m).isSome = true := by
    induction l generalizing m with
    | nil => exact h
    | cons e l ih =>
      obtain ⟨x, rfl⟩ := Option.isSome_iff_exists.mp h
      exact ih _ (by dsimp only; split <;> rfl)
  cases evs with
  | nil => exact absurd rfl some_
  | cons e l => exact stays l (some e) rfl

theorem Faults.takeFirst_valid (now cycles : Nat) {evs : List FaultEvent} (some_ : evs ≠ []) (f : Faults) :
    (f.takeFirst now cycles evs).firstValid = true := by
  obtain ⟨e, first⟩ := Option.isSome_iff_exists.mp (firstOf_isSome some_)
  unfold Faults.takeFirst
  split
  next valid => exact valid
  next => rw [first]

theorem le_foldl_max {α : Type} (v : α → Nat) (l : List α) (m : Nat) : m ≤ l.foldl (fun m x => Nat.max m (v x)) m ∧
    ∀ x ∈ l, v x ≤ l.foldl (fun m x => Nat.max m (v x)) m := by
  induction l generalizing m with
  | nil => exact ⟨le_rfl, nofun⟩
  | cons y l ih =>
    obtain ⟨start, rest⟩ := ih (Nat.max m (v y))
    refine ⟨(Nat.le_max_left ..).trans start, fun x there => ?_⟩
    rcases List.mem_cons.mp there with rfl | later
    · exact (Nat.le_max_right ..).trans start
    · exact rest x later

theorem Faults.capture_highest (now cycles : Nat) (evs : List FaultEvent) (f : Faults) :
    (f.capture now cycles evs).highest = evs.foldl (fun m e => Nat.max m (severityOf e.source)) f.highest := by
  have first (g : Faults) : (g.takeFirst now cycles evs).highest = g.highest := by
    unfold Faults.takeFirst
    split
    · rfl
    · cases firstOf evs <;> rfl
  refine (first _).trans ?_
  exact foldl_view (v := Faults.highest) (fun g e => Faults.enter_highest _ e g) evs _

/-- The registers after a cycle: each source is sticky, the highest severity is no lower than any of the cycle's, and there is a first fault. -/
theorem State.capture_registers {evs : List FaultEvent} (some_ : evs ≠ []) (s : State) :
    (∀ ev ∈ evs, ev.source ∈ (s.capture evs).flt.sticky) ∧ (∀ ev ∈ evs, severityOf ev.source ≤ (s.capture evs).flt.highest)
      ∧ (s.capture evs).flt.firstValid = true := by
  refine ⟨fun ev there => State.mem_capture_sticky.mpr (.inr ⟨ev, there, rfl⟩), fun ev there => ?_, ?_⟩
  · rw [State.capture_flt, Faults.capture_highest]
    have within := (le_foldl_max (fun e : FaultEvent => severityOf e.source) (s.flt.marking evs) s.flt.highest).2
    have marked : { ev with injected := ev.injected || s.flt.injecting ev.source } ∈ s.flt.marking evs := List.mem_map.mpr ⟨ev, there, rfl⟩
    have bounded := within _ marked
    exact bounded
  · rw [State.capture_flt]
    exact Faults.takeFirst_valid _ _ (by simpa [Faults.marking] using some_) _

/-! ## A stop ends every command (R490) -/

/-- No command is without an end. -/
structure AllEnded (s : State) : Prop where
  done : ∀ c ∈ s.host.cmds, c.done.isSome = true

theorem AllEnded.of_cmds {t : State} (h : AllEnded s) (same : t.host.cmds = s.host.cmds) : AllEnded t := ⟨same ▸ h.done⟩

theorem AllEnded.of_frame {ps : List Part} {t : State} (h : AllEnded s) (k : Frame ps s t) (out : Part.cmds ∉ ps ∧ Part.stop ∉ ps := by decide) :
    AllEnded t := h.of_cmds (k.exact out.2 (p := .cmds) out.1)

theorem Cmd.finish_isSome (d : Done) (c : Cmd) : (c.finish d).done.isSome = true := by
  unfold Cmd.finish
  split
  next done => simp [done]
  · rfl
  · rfl

theorem endOf_isSome (s : State) (status : Status) (source : Nat) (c : Cmd) : (endOf s status source c).done.isSome = true := by
  unfold endOf runEnd
  split
  · dsimp only
    split
    · split <;> exact Cmd.finish_isSome ..
    · exact Cmd.finish_isSome ..
  · split <;> exact Cmd.finish_isSome ..
  · exact Cmd.finish_isSome ..

theorem AllEnded.modCmd (h : AllEnded s) (cid : Nat) {f : Cmd → Cmd} (ends : ∀ c, (f c).done.isSome = true) : AllEnded (s.modCmd cid f) := by
  refine ⟨fun c there => ?_⟩
  obtain ⟨d, old, rfl⟩ := List.mem_map.mp there
  split
  · exact ends d
  · exact h.done d old

theorem AllEnded.failCmd (h : AllEnded s) (cid : Nat) (status : Status) (source : Nat) : AllEnded (s.failCmd cid status source) :=
  h.modCmd cid (fun _ => Cmd.finish_isSome ..)

theorem AllEnded.failWork (h : AllEnded s) (cid : Nat) (status : Status) (source : Nat) : AllEnded (s.failWork cid status source) := by
  have ended : AllEnded (s.endWork cid status source) := h.modCmd cid (endOf_isSome s status source)
  exact ((ended.of_frame (State.dropRun_frame ..)).of_frame (State.dropLaunch_frame ..)).of_frame (State.settleHeld_frame ..)

theorem AllEnded.breakSession (h : AllEnded s) (status : Status) (source i : Nat) : AllEnded (s.breakSession status source i) := by
  unfold State.breakSession
  split
  · split
    · exact (h.failCmd ..).of_frame (State.dropSession_frame ..)
    · split
      · exact h.of_frame (State.modSession_frame ..)
      · refine AllEnded.of_frame (ps := [.sessions]) ?_ (State.modSession_frame ..)
        refine AllEnded.failCmd ?_ ..
        exact h.of_cmds rfl
  · refine AllEnded.of_frame ?_ (State.modSession_frame ..)
    split
    · exact h.failWork ..
    · exact h

theorem AllEnded.foldl {α : Type} {g : State → α → State} (h : AllEnded s) (each : ∀ t x, AllEnded t → AllEnded (g t x)) (l : List α) :
    AllEnded (l.foldl g s) := List.foldlRecOn (motive := AllEnded) l g h (fun t k x _ => each t x k)

theorem AllEnded.firmwareEvent (h : AllEnded s) (ev : FaultEvent) : AllEnded (s.firmwareEvent ev) := by
  unfold State.firmwareEvent
  split
  · refine h.foldl (fun t c k => ?_) _
    split
    · exact (k.breakSession ..).of_frame (State.modSession_frame ..)
    · exact k
  · split
    · exact h.foldl (fun t c k => k.failWork ..) _
    · exact h

theorem State.moduleStop_allEnded (source : Nat) (s : State) : AllEnded (s.moduleStop source) := by
  have ended : AllEnded (s.endAll .internal source) := by
    refine ⟨fun c there => ?_⟩
    obtain ⟨d, -, rfl⟩ := List.mem_map.mp there
    exact endOf_isSome ..
  have held := (((ended.of_frame (State.lasersOff_frame _)).of_frame (State.holdDies_frame _)).of_frame (State.loseLocal_frame _)).of_frame
      (State.commitOpen_frame _)
  exact ⟨held.done⟩

/-- What a row of the collector is: a cycle on the registers as they were, and what firmware does about it. -/
theorem execFaultCapture_of_some {events : List FaultEvent} (some_ : received s events ≠ []) : ∃ u : State, u.flt = s.flt ∧ execFaultCapture events s =
    .next (((received s events).filter (fun e => e.source == srcId 0 0 4 || e.source == srcId 0 0 5)).foldl (fun t e => t.firmwareEvent e)
      (u.capture (received s events))) := by
  unfold execFaultCapture
  extract_lets l internal s0 s1 s2
  have reported : s0.flt = s.flt := by
    unfold s0
    split <;> rfl
  have acted : s1.flt = s0.flt := foldl_view (v := State.flt) (fun t e => (State.firmwareEvent_frame ..).flt_eq (by decide)) internal s0
  exact ⟨s1, acted.trans reported, if_neg (by simpa [l] using some_)⟩

theorem State.capture_of_severe {evs : List FaultEvent} (severe : ∃ ev ∈ evs, severityOf ev.source = 3) (s : State) :
    ∃ source, s.capture evs = (s.captureOnly evs).moduleStop source := by
  obtain ⟨ev, there, s3⟩ := severe
  have first := firstOf_isSome (evs := evs.filter (fun e => severityOf e.source == 3))
    (List.ne_nil_of_mem (List.mem_filter.mpr ⟨there, by simpa using s3⟩))
  obtain ⟨e, first⟩ := Option.isSome_iff_exists.mp first
  exact ⟨e.source, by simp only [State.capture, first]⟩

/-- What firmware does about an event leaves the registers, the module's state and the pins. -/
theorem State.firmwareEvents_view (l : List FaultEvent) (s : State) : (l.foldl (fun t e => t.firmwareEvent e) s).flt = s.flt
    ∧ Part.boot.same s (l.foldl (fun t e => t.firmwareEvent e) s) ∧ (l.foldl (fun t e => t.firmwareEvent e) s).pins = s.pins := by
  have same := Frame.fold (s := s) (fun (t : State) (e : FaultEvent) => State.firmwareEvent_frame e t) l
  have boot : Part.boot.same s _ := same.exact (by decide) (by decide)
  have pins : Part.pins.same s _ := same.exact (by decide) (by decide)
  exact ⟨same.flt_eq (by decide), boot, pins⟩

/-! ## Flashes (R513, R522, R525) -/

theorem flashAt_modFlash (i k : Fin 2) (f : Flash → Flash) (s : State) :
    flashAt (s.modFlash i f) k = if i = k then f (flashAt s k) else flashAt s k := by
  fin_cases i <;> fin_cases k <;> rfl

theorem mem_enqueue (op : FlashOp) (f : Flash) : op ∈ (f.enqueue op).queue := by
  unfold Flash.enqueue
  split
  · exact List.mem_singleton.mpr rfl
  · split
    · exact mem_insertBy ..
    · exact List.mem_cons_of_mem _ (mem_insertBy ..)

/-- The entry that is added last is never the one that a history drops. -/
theorem mem_dropNth_last (kind : Mirror → Bool) {most k : Nat} (h : k < most) (l : List Mirror) (m : Mirror) : m ∈ dropNth kind most k (l ++ [m]) := by
  induction l generalizing most k with
  | nil =>
    have one : ¬ most < [m].countP kind := by
      have := List.countP_le_length (p := kind) (l := [m])
      simp only [List.length_singleton] at this
      omega
    simp only [List.nil_append, dropNth, if_neg one, ite_self]
    exact List.mem_singleton.mpr rfl
  | cons x l ih =>
    simp only [List.cons_append, dropNth]
    split
    · split
      · split
        · simp
        · exact List.mem_cons_of_mem _ (ih (by omega))
      · simp
    · exact List.mem_cons_of_mem _ (ih h)

theorem mem_addMirror (m : Mirror) (l : List Mirror) : m ∈ addMirror m l := by
  unfold addMirror trimHistory
  split
  · exact mem_dropNth_last _ (by decide) ..
  · exact mem_dropNth_last _ (by decide) ..
  · exact List.mem_append_right _ (List.mem_singleton.mpr rfl)

/-- An operation ends: its row, where the flash runs. -/
theorem execFlashOpDone_of_running {i : Fin 2} {op : FlashOp} {l : List FlashOp} (queue : (flashAt s i).queue = op :: l)
    (works : (flashAt s i).failed = false) (runs : (s.log.refused && (flashAt s i).paused) = false) (ok : Bool) :
    execFlashOpDone i ok s = if ok then .next (s.opDone i op) else if (flashAt s i).errors = 0
      then .next ((s.modFlash i (fun f => { f with errors := 1 })).raise (srcId 8 i 1) 0) else .next (s.failFlash i) := by
  simp only [execFlashOpDone, queue, works, runs, Bool.or_self, Bool.false_eq_true, if_false]

/-- A flash that is judged failed stays so, and the log is then on the other, where that works (R525, R526). -/
theorem State.failFlash_view (i : Fin 2) (s : State) : (flashAt (s.failFlash i) i).failed = true
    ∧ ((flashAt s (1 - i.val)).failed = false → s.log.active = i.val → (s.failFlash i).log.active = 1 - i.val) := by
  unfold State.failFlash
  extract_lets ops other s1 marked s2 src s3 s4
  have failed : (flashAt s1 i).failed = true := by fin_cases i <;> rfl
  have beside : (flashAt s1 other).failed = (flashAt s (1 - i.val)).failed := by fin_cases i <;> rfl
  have active : s1.log.active = s.log.active := by fin_cases i <;> rfl
  have written (u : State) (l : List LogRec) : wear (l.foldl (fun t r => t.commitRecord r) u) = wear u := wear_foldl (fun _ _ => wear_commitRecord ..) l u
  split
  next lost =>
    have kept : wear (((((opRecords ops).foldl (fun t r => t.commitRecord r) s1).raise (srcId 8 i 3) 0).loseOps ops).raiseCause 6) = wear s1 :=
      (wear_raiseCause ..).trans ((wear_of_frame (State.loseOps_frame ..)).trans ((wear_raise ..).trans (written ..)))
    exact ⟨(flashAt_of_wear kept i).1.trans failed, fun works => absurd (lost.symm.trans (beside.trans works)) (by decide)⟩
  · split
    · have moved : wear s3 = wear s2 := (wear_commitRecord ..).trans (wear_captureUnlogged ..)
      have kept : wear (((opRecords ops).foldl (fun t r => t.commitRecord r) s4).carryOps i ops) = wear s2 :=
        (wear_carryOps ..).trans ((written ..).trans ((wear_putMirror ..).trans moved))
      exact ⟨(flashAt_of_wear kept i).1.trans failed, fun _ _ => (active_of_wear kept).trans rfl⟩
    next elsewhere =>
      have kept : wear ((s1.raise (srcId 8 i 2) 0).carryOps i ops) = wear s1 := (wear_carryOps ..).trans (wear_raise ..)
      exact ⟨(flashAt_of_wear kept i).1.trans failed, fun _ here => absurd (active.trans here) elsewhere⟩

theorem flashAt_opDone_log (i : Fin 2) (r : LogRec) (s : State) : flashAt (s.opDone i (.log r)) i
    = { (flashAt s i).apply (.log r) with queue := (flashAt s i).queue.drop 1, errors := 0, paused := s.log.refused }
    ∧ flashAt (s.opDone i (.log r)) (1 - i.val) = flashAt s (1 - i.val) := by
  fin_cases i <;> exact ⟨rfl, rfl⟩

/-- An entry written on A is then written on B, where B works (R513). -/
theorem State.opDone_mirror (m : Mirror) (works : s.flashB.failed = false) : s.opDone 0 (.mirror m)
    = (s.modFlash 0 (fun f => { f.apply (.mirror m) with queue := f.queue.drop 1, errors := 0, paused := s.log.refused })).modFlash 1
        (Flash.enqueue (.mirror m)) := by
  unfold State.opDone
  exact if_pos (by simp [FlashOp.mirrored, State.modFlash, works])

/-- What the writes that waited do once they are allowed again leaves the refusal ended. -/
theorem execFlashWritesAllowed_refused {v : Int} (reads : flashSensor s = some v) (refused : s.log.refused = true) (low : 8 ≤ v) (high : v ≤ 332) :
    ∃ t, execFlashWritesAllowed s = .next t ∧ t.log.refused = false := by
  unfold execFlashWritesAllowed
  simp only [reads, refused, low, high, decide_true, Bool.and_self, if_true]
  refine ⟨_, rfl, (refused_of_wear ((wear_reportDropped _).trans ((wear_foldl (fun _ _ => wear_commitRecord ..) _ _).trans
    (wear_foldl (fun _ _ => wear_putMirror ..) _ _)))).trans ?_⟩
  split
  · exact refused_of_wear (wear_reserveBatch _)
  · rfl

end Sys2Proof.Machine
end

section
open Sys2Proof Sys2Proof.Machine

/-- Settles O43: a cycle of the collector (`State.capture_registers`), the stop of the module (`State.moduleStop_allEnded`), the end of a fault state
(as O56 has it), and what a write leaves of the flashes (`wear`). -/
theorem faultAndFlashRowsComplete : Obligations.FaultAndFlashRowsComplete := by
  refine ⟨?registers, ?stops, ?nothing, ?injected, ?real, ?stays, ?timeout, ?logged, ?mirrored, ?repeated, ?failed, ?paused, ?refused, ?allowed,
    fun _ _ => ⟨_, rfl, rfl, rfl⟩, fun _ _ => ⟨_, rfl, rfl, rfl⟩, ?alert, ?silent, ?refresh, fun _ => ⟨_, rfl, rfl, rfl, rfl, rfl, rfl, rfl⟩, ?returns⟩
  case registers =>
    intro s events some_
    obtain ⟨u, flt, runs⟩ := execFaultCapture_of_some some_
    refine ⟨_, runs, ?_⟩
    dsimp only
    rw [(State.firmwareEvents_view ..).1]
    exact State.capture_registers some_ u
  case stops =>
    intro s events severe
    have some_ : received s events ≠ [] := List.ne_nil_of_mem severe.choose_spec.1
    obtain ⟨u, -, runs⟩ := execFaultCapture_of_some some_
    obtain ⟨source, stopped⟩ := State.capture_of_severe severe u
    refine ⟨_, runs, ?_⟩
    obtain ⟨-, boot, pins⟩ := State.firmwareEvents_view
      ((received s events).filter (fun e => e.source == srcId 0 0 4 || e.source == srcId 0 0 5)) (u.capture (received s events))
    have ended := AllEnded.foldl (State.moduleStop_allEnded source (u.captureOnly (received s events))) (fun t e k => AllEnded.firmwareEvent k e)
      ((received s events).filter (fun e => e.source == srcId 0 0 4 || e.source == srcId 0 0 5))
    rw [stopped] at boot pins ⊢
    exact ⟨congrArg Boot.stopped boot, congrArg Boot.down boot, congrArg Boot.ready boot, congrArg Pins.readyOut pins, ended.done⟩
  case nothing =>
    intro s events none_
    exact ⟨s, by simp only [exec, execFaultCapture, none_, List.isEmpty_nil, if_true], rfl⟩
  case injected =>
    intro s res st here rests injected
    obtain ⟨closed, log, ret⟩ := State.rested_view (resourceKey res) s
    exact ⟨_, execFaultStateRestExpiry_of_injected here rests injected, closed, congrArg LogState.held log, congrArg Retained.faultList ret⟩
  case real => exact fun s res st here rests real => execFaultStateRestExpiry_records here rests real
  case stays =>
    intro s res quiet
    refine ⟨s, ?_, rfl⟩
    show execFaultStateRestExpiry res s = .next s
    unfold execFaultStateRestExpiry
    dsimp only
    split
    · rfl
    next st here => exact if_pos (quiet.resolve_left (by rw [here]; exact Option.some_ne_none _))
  case timeout =>
    intro s open_ late
    exact ⟨s.commitOpen, if_pos (by simp [open_, late]), State.commitOpen_openRec s⟩
  case logged =>
    intro s i r l queue works runs
    obtain ⟨own, other⟩ := flashAt_opDone_log i r s
    refine ⟨_, execFlashOpDone_of_running queue works runs true, ?_⟩
    simp only [own, other, queue, List.drop_one, List.tail_cons, Flash.apply, Flash.program, List.getLast?_concat, and_self]
  case mirrored =>
    intro s m l queue works runs other
    refine ⟨_, (execFlashOpDone_of_running (i := 0) queue works runs true).trans
      ((if_pos rfl).trans (congrArg Host.Outcome.next (State.opDone_mirror m other))), ?_, ?_, ?_⟩
    · exact congrArg (List.drop 1) queue
    · exact mem_addMirror ..
    · exact mem_enqueue ..
  case repeated =>
    intro s i op l queue works runs first
    refine ⟨_, (execFlashOpDone_of_running queue works runs false).trans (if_pos first), ?_⟩
    have kept := wear_raise (srcId 8 i 1) 0 (s.modFlash i (fun f => { f with errors := 1 }))
    obtain ⟨failed_, errors⟩ := flashAt_of_wear kept i
    simp only [flashAt_modFlash, if_true] at failed_ errors
    exact ⟨errors, failed_.trans works, State.mem_raise_sticky.mpr (.inr rfl)⟩
  case failed =>
    intro s i op l queue works runs again
    exact ⟨_, (execFlashOpDone_of_running queue works runs false).trans (if_neg again), State.failFlash_view i s⟩
  case paused =>
    intro s i ok refused paused
    refine ⟨s, ?_, rfl⟩
    show execFlashOpDone i ok s = .next s
    unfold execFlashOpDone
    dsimp only
    split
    · rfl
    · exact if_pos (by simp [refused, paused])
  case refused =>
    intro s v reads allowed outside
    have range : (decide (v < 0) || decide (340 < v)) = true := by simpa using outside
    simp only [Answers, exec, execFlashWritesRefused, reads, allowed, range, Bool.not_false, Bool.and_self, if_true]
    exact ⟨_, rfl, refused_of_wear (wear_raise ..), State.mem_raise_sticky.mpr (.inr rfl)⟩
  case allowed => exact fun s v reads refused low high => execFlashWritesAllowed_refused reads refused low high
  case alert =>
    intro s powered drives
    exact ⟨_, if_pos (by simp [powered, drives]), rfl, rfl⟩
  case silent =>
    intro s quiet
    exact ⟨_, if_neg (by rcases quiet with h | h <;> simp [h]), rfl, rfl⟩
  case refresh =>
    intro s powered runs
    exact ⟨_, if_pos (by simp [powered, runs]), rfl, rfl, rfl, rfl⟩
  case returns =>
    intro s off
    exact ⟨_, if_neg (by simp [off]), rfl, rfl⟩

end

section
/-! Line coding (O60): what a sender makes of its bits the receiver takes back (R413, R414), and the wires of a bundle carry every bit of a flit (R432). -/

set_option Elab.async false
namespace Sys2Proof.Machine

theorem scramble_scramble (r : BitVec 31) (l : List Bool) : scramble r (scramble r l) = l := by
  induction l generalizing r with
  | nil => rfl
  | cons b t ih =>
    rw [scramble, scramble, ih]
    cases b <;> cases scrambleBit r <;> rfl

/-! ## Stuffing (R414) -/

/-- The bits on the line for bits to be sent behind a run of equal bits, in the order in which they are sent. -/
def stuffed : Bool → Nat → List Bool → List Bool
  | _, _, [] => []
  | last, run, b :: t =>
    if (if b = last then run + 1 else 1) = 15 then b :: (!b) :: stuffed (!b) 1 t else b :: stuffed b (if b = last then run + 1 else 1) t

theorem foldl_put_sent (l : List Bool) (c : LineCode) :
    (l.foldl (fun c b => c.put b) c).sent.reverse = c.sent.reverse ++ stuffed c.last c.run l := by
  induction l generalizing c with
  | nil => simp [stuffed]
  | cons b t ih =>
    rw [List.foldl_cons, ih]
    simp only [LineCode.put, stuffed]
    generalize (if b = c.last then c.run + 1 else 1) = run
    split <;> simp only [List.reverse_cons, List.append_assoc, List.cons_append, List.nil_append]

theorem sent_of_start (l : List Bool) : (l.foldl (fun c b => c.put b) LineCode.start).sent.reverse = stuffed true 1 l := foldl_put_sent l LineCode.start

theorem unstuff_stuffed {run : Nat} (short : run < 15) (last : Bool) (l : List Bool) : unstuff (stuffed last run l) last run = l := by
  induction l generalizing last run with
  | nil => rfl
  | cons b t ih =>
    have bounded : (if b = last then run + 1 else 1) ≤ 15 := by split <;> omega
    rw [stuffed]
    by_cases full : (if b = last then run + 1 else 1) = 15
    · simp only [unstuff, if_neg short.ne, full, if_true, ih (run := 1) (by decide)]
    · simp only [unstuff, if_neg short.ne, if_neg full, ih (lt_of_le_of_ne bounded full)]

/-- A longer run of equal bits does not begin in a shorter one. -/
theorem replicate_infix_of_run {m n : Nat} {a b c : Bool} {l : List Bool} (short : n < m) (differ : c ≠ a)
    (h : List.replicate m b <:+: List.replicate n a ++ c :: l) : List.replicate m b <:+: c :: l := by
  induction n with
  | zero => exact h
  | succ n ih =>
    rw [List.replicate_succ, List.cons_append, List.infix_cons_iff] at h
    rcases h with front | later
    · rw [← List.cons_append, ← List.replicate_succ] at front
      have first := front.getElem (i := 0) (by rw [List.length_replicate]; omega)
      have next_ := front.getElem (i := n + 1) (by rwa [List.length_replicate])
      simp only [List.getElem_replicate, List.replicate_succ, List.cons_append, List.getElem_cons_zero] at first
      rw [List.getElem_replicate, List.getElem_append_right (by simp)] at next_
      simp only [List.length_replicate, Nat.sub_self, List.getElem_cons_zero] at next_
      exact absurd (next_.symm.trans first) differ
    · exact ih (by omega) later

/-- No 16 successive bits behind a run of fewer than 15 are equal. -/
theorem stuffed_no_run {run : Nat} (short : run < 15) (last b : Bool) (l : List Bool) :
    ¬ List.replicate 16 b <:+: List.replicate run last ++ stuffed last run l := by
  induction l generalizing last run with
  | nil =>
    intro h
    have := h.length_le
    simp [stuffed] at this
    omega
  | cons x t ih =>
    intro h
    rw [stuffed] at h
    by_cases same : x = last
    · subst same
      simp only [if_true] at h
      have behind (rest : List Bool) : List.replicate run x ++ x :: rest = List.replicate (run + 1) x ++ rest := by
        rw [List.replicate_succ', List.append_assoc, List.singleton_append]
      split at h <;> rw [behind] at h
      next full =>
        have rest := replicate_infix_of_run (by omega) (Bool.not_ne_self x) h
        exact ih (run := 1) (by decide) (!x) rest
      next more => exact ih (by omega) x h
    · simp only [same, if_false] at h
      have rest := replicate_infix_of_run (by omega) same h
      exact ih (run := 1) (by decide) x rest

/-! ## The wires of a bundle (R432) -/

/-- The m-th live wire of a direction that has dropped a group. -/
def liveWire (g m : Nat) : Nat := if m < 16 * g then m else m + 16

theorem findIdx_liveWire : ∀ g < 4, ∀ m < 48, (liveWires (some g)).findIdx (· == liveWire g m) = m := by decide

theorem liveWire_spec {g m : Nat} (hm : m < 48) : liveWire g m < 64 ∧ liveWire g m / 16 ≠ g := by
  unfold liveWire
  split <;> omega

theorem dataBit_liveWire {g m : Nat} (hg : g < 4) (hm : m < 48) (flits : List (List Byte)) (t : Nat) : dataBit (some g) flits t (liveWire g m)
    = some (flitBit (flits.getD ((48 * t + m) / 1024) []) ((48 * t + m) % 1024)) := by
  simp only [dataBit, findIdx_liveWire g hg m hm, if_pos hm]

end Sys2Proof.Machine
end

section
open Sys2Proof Sys2Proof.Machine

/-- Settles O60: scrambling is its own inverse, `stuffed` says what stuffing sends, and the live wires are counted off by `liveWire`. -/
theorem lineCodingIsUndone : Obligations.LineCodingIsUndone := by
  refine ⟨scramble_scramble, fun l => ?_, fun l b k h => ?_, fun f t d _ _ => rfl, fun g hg f0 f1 f2 b hb => ?_⟩
  · rw [sent_of_start]
    exact unstuff_stuffed (by decide) true l
  · rw [sent_of_start] at h
    exact stuffed_no_run (run := 1) (by decide) true b l (h.trans (List.take_prefix ..).isInfix)
  · have left : b % 48 < 48 := Nat.mod_lt _ (by decide)
    obtain ⟨wire, live⟩ := liveWire_spec (g := g) left
    refine ⟨b / 48, by omega, liveWire g (b % 48), wire, live, ?_⟩
    rw [dataBit_liveWire hg left, Nat.div_add_mod]

end

section
/-! What a report, a cause and a change of one engine leave: the laws that the rows of heat, of bundles and of engines share. -/

set_option Elab.async false
namespace Sys2Proof.Machine
variable {s : State}

/-! ## A view that a change does not touch -/

theorem getD_modAt_view {α β : Type} {v : α → β} {f : α → α} (h : ∀ x, v (f x) = v x) (l : List α) (n m : Nat) (d : α) :
    v ((modAt l n f).getD m d) = v (l.getD m d) := by
  rw [getD_modAt]
  split
  · exact h _
  · rfl

theorem engineAt_modEngine_view {β : Type} {v : Engine → β} {f : Engine → Engine} (h : ∀ x, v (f x) = v x) (e k : Nat) (s : State) :
    v (engineAt (s.modEngine e f) k) = v (engineAt s k) := getD_modAt_view h s.engines e k _

theorem tileAt_modTile_view {β : Type} {v : Tile → β} {f : Tile → Tile} (h : ∀ x, v (f x) = v x) (n m : Nat) (s : State) :
    v (tileAt (s.modTile n f) m) = v (tileAt s m) := getD_modAt_view h s.tiles n m _

/-! ## Reports -/

theorem State.raise_th (source data : Nat) (s : State) : (s.raise source data).th = s.th :=
  (State.raise_frame source data s).stop .th (by decide) (by decide)

theorem State.raiseFor_th (source data : Nat) (r : Resource) (s : State) : (s.raiseFor source data r).th = s.th :=
  (State.raiseFor_frame source data r s).stop .th (by decide) (by decide)

theorem State.mem_raiseFor_sticky {x source data : Nat} {r : Resource} : x ∈ (s.raiseFor source data r).flt.sticky ↔ x ∈ s.flt.sticky ∨ source = x := by
  simp [State.raiseFor, State.mem_capture_sticky]

end Sys2Proof.Machine
end

section
/-! The rows of heat, of the power cap and of the daily points (O41). -/

set_option Elab.async false
namespace Sys2Proof.Machine
variable {s : State}

/-! ## Sensors judged broken (R458–R460) -/

/-- Sensor k of the hub is judged broken and its event is in the registers. -/
structure HubSensorOut (k : Nat) (s : State) : Prop where
  broken : s.th.hubBroken.getD k false = true
  sticky : srcId 6 0 (0x10 + k) ∈ s.flt.sticky

theorem getD_setAt_true {l : List Bool} {n k : Nat} (h : l.getD k false = true) : (setAt l n true).getD k false = true := by
  rw [setAt, getD_modAt]
  split
  · rfl
  · exact h

/-- What a hub sensor that fails does to the marks and to the sources. -/
theorem State.sensorFails_hub (k : Fin 8) (s : State) : (s.sensorFails (.hub k)).th.hubBroken = setAt s.th.hubBroken k true
    ∧ ∀ x, (x ∈ s.flt.sticky ∨ srcId 6 0 (0x10 + k) = x) → x ∈ (s.sensorFails (.hub k)).flt.sticky := by
  unfold State.sensorFails
  dsimp only
  split
  · refine ⟨congrArg Thermal.hubBroken ((State.raise_th ..).trans (State.raiseFor_th ..)), fun x there => ?_⟩
    exact State.mem_raise_sticky.mpr (.inl (State.mem_raiseFor_sticky.mpr there))
  · exact ⟨congrArg Thermal.hubBroken (State.raiseFor_th ..), fun x there => State.mem_raiseFor_sticky.mpr there⟩

theorem HubSensorOut.sensorFails {k : Nat} (h : HubSensorOut k s) (j : Fin 8) : HubSensorOut k (s.sensorFails (.hub j)) := by
  obtain ⟨marks, sources⟩ := State.sensorFails_hub j s
  exact ⟨marks ▸ getD_setAt_true h.broken, sources _ (.inl h.sticky)⟩

theorem hubSensorOut_of_fails (k : Fin 8) (there : k.val < s.th.hubBroken.length) : HubSensorOut k (s.sensorFails (.hub k)) := by
  obtain ⟨marks, sources⟩ := State.sensorFails_hub k s
  exact ⟨marks ▸ getD_modAt_same there _ _, sources _ (.inr rfl)⟩

theorem foldl_sensorFails_hub {k : Nat} {l : List Nat} (one : k ∈ l) (small : k < 8) (there : k < s.th.hubBroken.length) :
    HubSensorOut k (l.foldl (fun u j => u.sensorFails (sensorOf .hub j)) s) := by
  have stays (l : List Nat) (u : State) (h : HubSensorOut k u) : HubSensorOut k (l.foldl (fun u j => u.sensorFails (sensorOf .hub j)) u) :=
    List.foldlRecOn (motive := HubSensorOut k) l _ h (fun u h j _ => h.sensorFails _)
  induction l generalizing s with
  | nil => exact absurd one List.not_mem_nil
  | cons j l ih =>
    rcases List.mem_cons.mp one with rfl | later
    · refine stays l _ ?_
      dsimp only
      have same : sensorOf .hub k = .hub ⟨k, small⟩ := congrArg SensorRef.hub (Fin.ext (Nat.mod_eq_of_lt small))
      rw [same]
      exact hubSensorOut_of_fails ⟨k, small⟩ there
    · refine ih later (lt_of_lt_of_eq there ?_)
      exact ((congrArg List.length (State.sensorFails_hub _ s).1).trans (setAt_length ..)).symm

theorem filter_known {bad : List Nat} {broken : List Bool} (known : ∀ k ∈ bad, broken.getD k false = true) :
    bad.filter (fun k => !broken.getD k false) = [] :=
  List.filter_eq_nil_iff.mpr fun k there => by simp only [known k there, Bool.not_true, Bool.false_eq_true, not_false_eq_true]

/-- A sample of a tile's sensors, with what it judges. -/
theorem execSensorSample_tile {site : SiteId} {readings : List Int} {h : List (List Int)} {r m bad : List Nat}
    (here : (tileAt s site).state ≠ .isolated) (eight : readings.length = 8)
    (judged : judge readings (tileAt s site).thermal.history (tileAt s site).thermal.rangeCount (tileAt s site).thermal.medianCount
      (tileAt s site).thermal.broken = (h, r, m, bad)) : execSensorSample (.tile site) readings s = .next ((bad.filter
        (fun k => !(tileAt s site).thermal.broken.getD k false)).foldl (fun u k => u.sensorFails (sensorOf (.tile site) k))
          (s.modTile site (fun x => { x with thermal := { x.thermal with history := h, rangeCount := r, medianCount := m } }))) := by
  simp only [execSensorSample, eight, here, judged, ne_eq, not_true_eq_false, if_false]

theorem execSensorSample_hub {readings : List Int} {h : List (List Int)} {r m bad : List Nat} (eight : readings.length = 8)
    (judged : judge readings s.th.hubHistory s.th.hubRange s.th.hubMedian s.th.hubBroken = (h, r, m, bad)) :
    execSensorSample .hub readings s = .next ((bad.filter (fun k => !s.th.hubBroken.getD k false)).foldl (fun u k => u.sensorFails (sensorOf .hub k))
      { s with th := { s.th with hubHistory := h, hubRange := r, hubMedian := m } }) := by
  simp only [execSensorSample, eight, judged, ne_eq, not_true_eq_false, if_false]

theorem execSensorSample_engine {e : EngineId} {readings : List Int} {h : List (List Int)} {r m bad : List Nat} (four : readings.length = 4)
    (judged : judge readings (engineAt s e).sensorHistory (engineAt s e).sensorRange (engineAt s e).sensorMedian (engineAt s e).sensorBroken
      = (h, r, m, bad)) : execSensorSample (.engine e) readings s = .next ((bad.filter
        (fun k => !(engineAt s e).sensorBroken.getD k false)).foldl (fun u k => u.sensorFails (sensorOf (.engine e) k))
          (s.modEngine e (fun x => { x with sensorHistory := h, sensorRange := r, sensorMedian := m }))) := by
  simp only [execSensorSample, four, judged, ne_eq, not_true_eq_false, if_false]

theorem mem_judge_bad {readings : List Int} {hist h : List (List Int)} {range median r m bad : List Nat} {broken : List Bool}
    (judged : judge readings hist range median broken = (h, r, m, bad)) {k : Nat} (there : k ∈ bad) : k < readings.length := by
  simp only [judge, Prod.mk.injEq] at judged
  rw [← judged.2.2.2] at there
  exact List.mem_range.mp (List.mem_filter.mp there).1

/-! ## The thermal ceiling (R463, R465) -/

theorem severityOf_floor : ∀ n : SiteId, severityOf (srcId 6 n 8) ≠ 3 := by decide

/-- A new ceiling: what it leaves in the tile, and the event and the cause of a compute tile that comes to the floor. -/
theorem execThermalCeilingUpdate_view {site : SiteId} {used : Int} {c : Nat}
    (used_ : used = if 100 < ((excesses s site).foldl max ((excesses s site).headD 0) - (tileAt s site).thermal.xUsed).natAbs
      then (excesses s site).foldl max ((excesses s site).headD 0) else (tileAt s site).thermal.xUsed)
    (c_ : c = Nat.max (64 - (max used 0 / 100).toNat) 8) : ∃ t, execThermalCeilingUpdate site s = .next t
      ∧ tileAt t site = tileAt (s.modTile site (fun q => { q with thermal := { q.thermal with xUsed := used, ceiling := c } })) site
      ∧ ((tileAt s site).state = .compute → c = 8 → (tileAt s site).thermal.ceiling ≠ 8 → srcId 6 site 8 ∈ t.flt.sticky ∧
          t.boot.cause.getLsbD 5 = true) := by
  subst used_ c_
  unfold execThermalCeilingUpdate
  extract_lets t l x used c s1
  split
  next reaches =>
    refine ⟨_, rfl, ?_, fun _ _ _ => ⟨?_, State.raiseCause_bit 5 (by decide) _⟩⟩
    · exact (tileAt_of_frame (State.raiseCause_frame ..) site).trans (tileAt_of_frame (State.raise_quiet (severityOf_floor site)) site)
    · rw [(State.raiseCause_frame ..).flt_eq (by decide)]
      exact State.mem_raise_sticky.mpr (.inr rfl)
  next other => exact ⟨s1, rfl, rfl, fun computes reaches above => absurd ⟨computes, reaches, above⟩ other⟩

/-! ## The power cap (R466, R467) -/

theorem State.setCeiling_th (c : Nat) (s : State) : (s.setCeiling c).th = { s.th with cP := c } := by
  unfold State.setCeiling
  dsimp only
  split
  · exact State.raise_th ..
  · rfl

theorem State.mem_setCeiling_sticky {x : Nat} (c : Nat) (there : x ∈ s.flt.sticky) : x ∈ (s.setCeiling c).flt.sticky := by
  unfold State.setCeiling
  dsimp only
  split
  · exact State.mem_raise_sticky.mpr (.inl there)
  · exact there

theorem State.setCeiling_reports {c : Nat} (was : s.th.cP = 64) (below : c < 64) : srcId 7 0 0 ∈ (s.setCeiling c).flt.sticky := by
  unfold State.setCeiling
  rw [if_pos ⟨was, below⟩]
  exact State.mem_raise_sticky.mpr (.inr rfl)

/-- A sample of the input power: what it leaves of the control, and what it reports. -/
theorem execPowerTelemetrySample_view (watts : Nat) (ok : Bool) (s : State) : ∃ t, execPowerTelemetrySample watts ok s = .next t
    ∧ t.th = { s.th with telemetryFault := !ok, fastLimit := decide (2432 * capInForce s < if ok then 2432 * watts else planningUnits s),
                         cP := if 2432 * capInForce s < (if ok then 2432 * watts else planningUnits s) then Nat.max (s.th.cP - 10) 8 else s.th.cP }
    ∧ (ok = false → s.th.telemetryFault = false → srcId 7 0 3 ∈ t.flt.sticky)
    ∧ (2432 * capInForce s < (if ok then 2432 * watts else planningUnits s) → s.th.fastLimit = false → srcId 7 0 1 ∈ t.flt.sticky) := by
  unfold execPowerTelemetrySample
  extract_lets before s1 s2 p fast th3 s3 s4
  have th2 : s2.th = s1.th := by
    unfold s2
    split
    · exact State.raise_th ..
    · rfl
  have th4 : s4.th = { s.th with telemetryFault := !ok, fastLimit := fast } := by
    have th3 : s3.th = { s.th with telemetryFault := !ok, fastLimit := fast } := congrArg (fun h : Thermal => { h with fastLimit := fast }) th2
    unfold s4
    split
    · exact (State.raise_th ..).trans th3
    · exact th3
  have onward {x : Nat} (there : x ∈ s2.flt.sticky) : x ∈ s4.flt.sticky := by
    unfold s4
    split
    · exact State.mem_raise_sticky.mpr (.inl there)
    · exact there
  have failed (bad : ok = false) (known : s.th.telemetryFault = false) : srcId 7 0 3 ∈ s4.flt.sticky := by
    refine onward ?_
    unfold s2
    rw [if_pos (by simp [bad, known])]
    exact State.mem_raise_sticky.mpr (.inr rfl)
  have limited (now : fast = true) (before : s.th.fastLimit = false) : srcId 7 0 1 ∈ s4.flt.sticky := by
    unfold s4
    rw [if_pos (by simp [now, before])]
    exact State.mem_raise_sticky.mpr (.inr rfl)
  by_cases above : 2432 * capInForce s < p
  · have now : fast = true := decide_eq_true above
    refine ⟨_, if_pos now, ?_, fun bad known => State.mem_setCeiling_sticky _ (failed bad known),
      fun _ before => State.mem_setCeiling_sticky _ (limited now before)⟩
    rw [State.setCeiling_th, th4, if_pos above]
  · have now : ¬ fast = true := by simpa [fast] using above
    exact ⟨_, if_neg now, by rw [th4, if_neg above], failed, fun now => absurd now above⟩

/-! ## Ageing (R474–R476) -/

theorem ageingOf_of_frame {ps : List Part} {t : State} (h : Frame ps s t) (d : DieRef)
    (out : ∀ p ∈ [Part.tiles, .engines, .th, .stop], p ∉ ps := by decide) : ageingOf t d = ageingOf s d := by
  have stop := out .stop (by decide)
  cases d with
  | tile n => exact congrArg Tile.ageing (congrArg (fun l : List Tile => l.getD n (Tile.reset n)) (h.exact stop (p := .tiles) (out _ (by decide))))
  | hub => exact congrArg Thermal.hubAgeing (h.exact stop (p := .th) (out _ (by decide)))
  | engine e =>
    exact congrArg Engine.ageing (congrArg (fun l : List Engine => l.getD e (Engine.reset e)) (h.exact stop (p := .engines) (out _ (by decide))))

/-- A die that is in the panel's lists. -/
def HasDie (s : State) : DieRef → Prop
  | .tile n => n.val < s.tiles.length | .engine e => e.val < s.engines.length | .hub => True

theorem ageingOf_setAgeing {d : DieRef} (there : HasDie s d) (a : Ageing) : ageingOf (s.setAgeing d a) d = a := by
  cases d with
  | tile n => exact congrArg Tile.ageing (tileAt_modTile_same there _)
  | hub => rfl
  | engine e => exact congrArg Engine.ageing (engineAt_modEngine_same there _)

theorem severityOf_guard : ∀ n : SiteId, severityOf (srcId 6 n 0x09) ≠ 3 ∧ severityOf (srcId 6 n 0x0A) ≠ 3 := by decide

/-- An ageing point leaves in its die what the measurement says. -/
theorem ageingOf_agePoint {d : DieRef} (there : HasDie s d) (slowdown : List Nat) {a : Ageing} {top base : Nat} {v : Int} (old : ageingOf s d = a)
    (greatest_ : (greatest slowdown).getD 0 = top) (baseline : a.baseline.getD top = base) (value : v = top - base) :
    ageingOf (s.agePoint d slowdown) d =
      { baseline := some base, value := v, guard := guardFor (dieIndex d) v a.guard, points := keepPoints (a.points ++ [(s.ret.opTime, v)]),
        hoursLeft := ageingHours (dieIndex d) s.ret.opTime (keepPoints (a.points ++ [(s.ret.opTime, v)])) } := by
  subst old greatest_ baseline value
  unfold State.agePoint
  refine (ageingOf_of_frame (State.predict_frame ..) d).trans ?_
  dsimp only
  split
  next n =>
    obtain ⟨low, high⟩ := severityOf_guard n
    have noted (u : State) (src : Nat) (calm : severityOf src ≠ 3) (b : Prop) [Decidable b] :
        ageingOf (if b then u.raise src 0 else u) (.tile n) = ageingOf u (.tile n) := by
      rw [apply_ite (ageingOf · (.tile n)), ageingOf_of_frame (State.raise_quiet calm), ite_self]
    exact (noted _ _ high _).trans ((noted _ _ low _).trans ((ageingOf_of_frame (State.putMirror_frame ..) _).trans (ageingOf_setAgeing there _)))
  · exact (ageingOf_of_frame (State.putMirror_frame ..) d).trans (ageingOf_setAgeing there _)

/-! ## Optical points (R477, R478) -/

/-- The points and the state of a ring. -/
def ringRecord (e r : Nat) (s : State) : List (Nat × OpticalPointData) × OeRingState :=
  ((waveRing (engineAt s e) r).points, (waveRing (engineAt s e) r).state)

theorem ringRecord_of_frame {ps : List Part} {t : State} (h : Frame ps s t) (e r : Nat) (out : ∀ p ∈ [Part.engines, .stop], p ∉ ps := by decide) :
    ringRecord e r t = ringRecord e r s := by
  rw [ringRecord, engineAt_of_frame h e out, ringRecord]

theorem ringRecord_modEngine {f : Engine → Engine} (rings : ∀ x, (f x).rings = x.rings) (k e r : Nat) (s : State) :
    ringRecord e r (s.modEngine k f) = ringRecord e r s :=
  engineAt_modEngine_view (v := fun x => ((waveRing x r).points, (waveRing x r).state)) (f := f) (fun x => by simp only [waveRing, rings]) k e s

theorem Engine.modDir_rings (side : Nat) (f : Direction → Direction) (x : Engine) : (x.modDir side f).rings = x.rings := by
  unfold Engine.modDir
  split <;> rfl

theorem ringRecord_modDir (k side : Nat) (f : Direction → Direction) (e r : Nat) (s : State) : ringRecord e r (s.modDir k side f) = ringRecord e r s :=
  ringRecord_modEngine (Engine.modDir_rings side f) ..

theorem ringRecord_sendWord (k : Nat) (w : CtrlWord) (e r : Nat) (s : State) : ringRecord e r (s.sendWord k w) = ringRecord e r s :=
  ringRecord_modEngine (f := fun x => { x with txWords := x.txWords ++ [(w, 3)] }) (fun _ => rfl) k e r s

theorem ringRecord_sendMaps (k dir : Nat) (l : List (Nat × Nat × Nat)) (e r : Nat) (s : State) :
    ringRecord e r (s.sendMaps k dir l) = ringRecord e r s := foldl_view (fun _ _ => ringRecord_sendWord ..) l s

theorem ringRecord_modOeRing {f : OeRingRec → OeRingRec} (same : ∀ q, (f q).points = q.points ∧ (f q).state = q.state) (k j e r : Nat) (s : State) :
    ringRecord e r (s.modOeRing k j f) = ringRecord e r s :=
  engineAt_modEngine_view (v := fun x => ((waveRing x r).points, (waveRing x r).state)) (f := fun x => { x with rings := modAt x.rings j f })
    (fun x => getD_modAt_view (v := fun q : OeRingRec => (q.points, q.state)) (fun q => by rw [(same q).1, (same q).2]) x.rings j r _) k e s

theorem ringRecord_startChange (k rate width e r : Nat) (s : State) : ringRecord e r (s.startChange k rate width) = ringRecord e r s := by
  unfold State.startChange
  dsimp only
  split
  · exact ringRecord_modDir ..
  · exact (ringRecord_sendWord ..).trans ((ringRecord_sendMaps ..).trans (ringRecord_modDir ..))

theorem ringRecord_foresee (k side slot w e r : Nat) (s : State) : ringRecord e r (s.foresee k side slot w) = ringRecord e r s := by
  have once (level cause resource : Nat) (u : State) : ringRecord e r (u.raiseOnce level cause resource) = ringRecord e r u :=
    ringRecord_of_frame (State.raiseOnce_frame ..) e r
  have spent (u : State) : ringRecord e r (u.spend 1) = ringRecord e r u := ringRecord_of_frame (State.spend_frame ..) e r
  unfold State.foresee
  dsimp only
  split
  · rw [apply_ite (ringRecord e r), once, ite_self, once, ringRecord_sendMaps, ringRecord_modOeRing (f := fun q => { q with slot := slot })
      (fun _ => ⟨rfl, rfl⟩),
      ringRecord_modDir]
  · split
    · split
      · exact (spent _).trans (ringRecord_startChange ..)
      · exact spent _
    · exact spent _

/-- A ring with one more point: of 30 days at most. -/
def OeRingRec.withPoint (now : Nat) (p : OpticalPointData) (q : OeRingRec) : OeRingRec :=
  { q with points := (q.points ++ [(now, p)]).drop (q.points.length + 1 - 30) }

/-- A point of a wavelength: what the planner makes of it moves no ring out of its state. -/
theorem ringRecord_opticalPoint {e : EngineId} {r : OeRing} (point : OpticalPointData)
    (due : pointDue s false ((waveRing (engineAt s e) r).points.getLast?.map (·.1)) = true) :
    ∃ t, execOpticalPoint e r point s = .next t ∧ ringRecord e r t = ringRecord e r
      (s.modOeRing e r (OeRingRec.withPoint s.ret.opTime { point with heater := heaterAt85 (engineAt s e) r point.heater })) := by
  unfold execOpticalPoint
  extract_lets p s1 x q side moving s2
  refine ⟨_, if_neg (by simp [due]), ?_⟩
  have planned : ringRecord e r s2 = ringRecord e r s1 := by
    unfold s2
    split
    · exact ringRecord_foresee ..
    · rfl
  exact (ringRecord_of_frame (State.predictLaser_frame ..) ..).trans ((ringRecord_of_frame (State.predict_frame ..) ..).trans (planned.trans
    (ringRecord_of_frame (State.putMirror_frame ..) ..)))

theorem waveRing_modOeRing_same {e : EngineId} {r : OeRing} (there : HasRing s e r) (f : OeRingRec → OeRingRec) :
    waveRing (engineAt (s.modOeRing e r f) e) r = f (waveRing (engineAt s e) r) := by
  rw [State.modOeRing, engineAt_modEngine_same there.1]
  exact getD_modAt_same there.2 f _

end Sys2Proof.Machine
end

section
open Sys2Proof Sys2Proof.Machine

/-- Settles O41: each row through what it leaves of the tile, the hub, the engine or the ring, and through the registers that a report leaves. -/
theorem thermalControlRowsComplete : Obligations.ThermalControlRowsComplete := by
  refine ⟨?tile, ?isolated, ?hub, ?engine, ?hubFails, ?ceiling, ?rate, ?within, ?above, ?noReading, ?loop, ?ageing, ?noAgeing, ?point, ?noPoint⟩
  case tile =>
    intro s site readings h r m bad there here eight judged known
    refine ⟨_, execSensorSample_tile here eight judged, ?_⟩
    dsimp only
    rw [filter_known known, List.foldl_nil, tileAt_modTile_same there]
    exact ⟨rfl, rfl, rfl, rfl, rfl⟩
  case isolated =>
    intro s site readings isolated
    refine ⟨s, ?_, rfl⟩
    simp only [exec, execSensorSample, isolated, if_true, ite_self]
  case hub =>
    intro s readings h r m bad eight judged known
    refine ⟨_, execSensorSample_hub eight judged, ?_⟩
    rw [filter_known known]
    exact ⟨rfl, rfl⟩
  case engine =>
    intro s e readings h r m bad there four judged known
    refine ⟨_, execSensorSample_engine four judged, ?_⟩
    dsimp only
    rw [filter_known known, List.foldl_nil, engineAt_modEngine_same there]
    exact ⟨rfl, rfl, rfl, rfl, rfl⟩
  case hubFails =>
    intro s readings h r m bad eight marks judged
    refine ⟨_, execSensorSample_hub eight judged, fun k there good => ?_⟩
    have small : k < 8 := eight ▸ mem_judge_bad judged there
    have out := foldl_sensorFails_hub (s := { s with th := { s.th with hubHistory := h, hubRange := r, hubMedian := m } })
      (List.mem_filter (p := fun k => !s.th.hubBroken.getD k false) |>.mpr ⟨there, by rw [good]; rfl⟩) small (lt_of_lt_of_eq small marks.symm)
    exact ⟨out.broken, out.sticky⟩
  case ceiling =>
    intro s site x used there hottest used_
    obtain ⟨t, runs, tile, floor_⟩ := execThermalCeilingUpdate_view (hottest ▸ used_) rfl
    rw [tileAt_modTile_same there] at tile
    refine ⟨t, runs, ?_⟩
    simp only [tile]
    exact ⟨trivial, trivial, trivial, fun computes above reaches => floor_ computes reaches above⟩
  case rate =>
    intro s site top there computes top_
    subst top_
    refine ⟨_, if_neg (not_not.mpr computes), ?_⟩
    dsimp only
    rw [tileAt_modTile_same there]
    refine ⟨fun same => ?_, fun below => ?_, fun above => ?_⟩ <;> dsimp only
    · simp only [same, lt_irrefl, if_false]
    · rw [if_pos below]
    · rw [if_neg above.not_gt, if_pos above]
      omega
  case within =>
    intro s watts fits
    obtain ⟨t, runs, th, -, -⟩ := execPowerTelemetrySample_view watts true s
    refine ⟨t, runs, ?_⟩
    have below : ¬ 2432 * capInForce s < 2432 * watts := by omega
    simp only [th, if_true, if_neg below, decide_eq_false below, Bool.not_true, and_self]
  case above =>
    intro s watts exceeds
    obtain ⟨t, runs, th, -, limited⟩ := execPowerTelemetrySample_view watts true s
    have exceeds : 2432 * capInForce s < 2432 * watts := by omega
    simp only [if_true, exceeds, decide_true, Bool.not_true] at th limited
    exact ⟨t, runs, by rw [th], by rw [th], by rw [th], limited trivial⟩
  case noReading =>
    intro s watts
    obtain ⟨t, runs, th, failed, -⟩ := execPowerTelemetrySample_view watts false s
    exact ⟨t, runs, by rw [th]; rfl, failed rfl, by rw [th]; rfl⟩
  case loop =>
    intro s p watts p_
    subst p_
    refine ⟨_, rfl, ?_, ?_, fun was below => ?_⟩
    · rw [State.setCeiling_th]
    · rw [State.setCeiling_th]
    · rw [State.setCeiling_th] at below
      exact State.setCeiling_reports was below
  case ageing =>
    intro s d slowdown some_ there here due
    have inList : HasDie s d := by cases d <;> exact there
    have old := ageingOf_agePoint inList slowdown rfl rfl rfl rfl
    refine ⟨s.agePoint d slowdown, if_neg (by simp [some_, here, due]), ?_⟩
    dsimp only
    rw [old]
    exact ⟨rfl, rfl, rfl, rfl, Nat.le_max_left ..⟩
  case noAgeing =>
    intro s d slowdown none_
    refine ⟨s, if_pos ?_, rfl⟩
    rcases none_ with h | h | h <;> simp [h]
  case point =>
    intro s e r point there due
    obtain ⟨t, runs, same⟩ := ringRecord_opticalPoint point due
    simp only [ringRecord, waveRing_modOeRing_same there, Prod.mk.injEq] at same
    exact ⟨t, runs, same⟩
  case noPoint =>
    intro s e r point early
    exact ⟨s, if_pos (by simp [early]), rfl⟩

end

section
/-! Whether the input is within its range and whether a trip is latched (R469, R564): no report, record or request changes them, so they are after a cold
start as it found them. -/

set_option Elab.async false
namespace Sys2Proof.Machine

/-- Whether the 48 V input is in range, and the latched trip. -/
def plug (s : State) : Bool × Bool := (s.pins.input, s.ret.tripped)

theorem plug_ite {c : Prop} [Decidable c] {s t u : State} (h : plug t = plug s) (k : plug u = plug s) : plug (if c then t else u) = plug s := by
  split <;> assumption

theorem plug_foldl {α : Type} {g : State → α → State} (h : ∀ t x, plug (g t x) = plug t) (l : List α) (s : State) : plug (l.foldl g s) = plug s :=
  foldl_view h l s

theorem plug_of_frame {ps : List Part} {s t : State} (h : Frame ps s t) (out : ∀ p ∈ [Part.pins, .ret, .stop], p ∉ ps := by decide) :
    plug t = plug s := by
  have pins : t.pins = s.pins := h.exact (out .stop (by decide)) (p := .pins) (out _ (by decide))
  have ret : t.ret = s.ret := h.exact (out .stop (by decide)) (p := .ret) (out _ (by decide))
  rw [plug, pins, ret, plug]

/-! ## Records and reports -/

theorem plug_modFlash (i : Nat) (f : Flash → Flash) (s : State) : plug (s.modFlash i f) = plug s := plug_of_frame (State.modFlash_frame ..)

theorem plug_putMirror (m : Mirror) (s : State) : plug (s.putMirror m) = plug s := by
  unfold State.putMirror State.enqueueBoth
  dsimp only
  split
  · rfl
  · split
    · rfl
    · exact plug_ite (plug_modFlash ..) (plug_modFlash ..)

theorem plug_commitRecord (r : LogRec) (s : State) : plug (s.commitRecord r) = plug s := by
  unfold State.commitRecord
  dsimp only
  split
  · rfl
  · split
    · rfl
    · exact (plug_modFlash ..).trans (plug_ite (plug_putMirror ..) rfl)

theorem plug_commitOpen (s : State) : plug s.commitOpen = plug s := by
  unfold State.commitOpen
  split
  · rfl
  · exact (plug_commitRecord ..).trans rfl

theorem plug_logEvent (event source severity : Nat) (injected : Bool) (data : DWord) (s : State) :
    plug (s.logEvent event source severity injected data) = plug s := by
  unfold State.logEvent
  dsimp only
  split
  · exact plug_ite rfl (plug_commitOpen s)
  · rfl

theorem plug_raiseCause (k : Nat) (s : State) : plug (s.raiseCause k) = plug s := plug_of_frame (State.raiseCause_frame ..)

theorem plug_captureOnly (evs : List FaultEvent) (s : State) : plug (s.captureOnly evs) = plug s := by
  have marked (u : State) (l : List FaultEvent) : plug ((u.logEvents l).markEvents l) = plug u :=
    (plug_of_frame (State.markEvents_frame ..)).trans (plug_foldl (fun _ _ => plug_logEvent ..) l u)
  unfold State.captureOnly
  exact plug_ite ((plug_raiseCause ..).trans (marked ..)) (marked ..)

theorem plug_moduleStop (source : Nat) (s : State) : plug (s.moduleStop source) = plug s := by
  have held : plug (s.endAll .internal source).lasersOff.holdDies.loseLocal = plug s :=
    (plug_of_frame (State.loseLocal_frame _)).trans ((plug_of_frame (State.holdDies_frame _)).trans
      ((plug_of_frame (State.lasersOff_frame _)).trans (plug_of_frame (State.endAll_frame ..))))
  exact (plug_commitOpen _ :).trans held

theorem plug_raise (source data : Nat) (s : State) : plug (s.raise source data) = plug s := by
  unfold State.raise State.capture
  dsimp only
  split
  · exact (plug_moduleStop ..).trans (plug_captureOnly ..)
  · exact plug_captureOnly ..

theorem plug_raiseRequest (q : ServiceReq) (s : State) : plug (s.raiseRequest q) = plug s := by
  unfold State.raiseRequest
  dsimp only
  exact (plug_raiseCause ..).trans ((plug_logEvent ..).trans (plug_ite rfl rfl))

theorem plug_raiseService (level cause resource : Nat) (hours : Option Nat) (predicted : Bool) (s : State) :
    plug (s.raiseService level cause resource hours predicted) = plug s := plug_raiseRequest ..

theorem plug_predictAt (level cause resource key : Nat) (hours : Option Nat) (s : State) :
    plug (s.predictAt level cause resource key hours) = plug s := by
  unfold State.predictAt
  dsimp only
  split
  · exact plug_ite rfl (plug_raiseRequest ..)
  · exact plug_ite rfl (plug_ite ((plug_raiseRequest ..).trans rfl) (plug_ite (plug_ite rfl rfl) rfl))

/-! ## A cold start (R531–R534, R581) -/

theorem plug_settleFlash (idA idB : Bool) (s : State) : plug (s.settleFlash idA idB) = plug s := by
  unfold State.settleFlash
  extract_lets s1 s2 h _ s3 s4 _ s5 _ s6 s7
  have copied : plug s5 = plug s := (plug_foldl (fun _ _ => plug_commitRecord ..) _ _).trans rfl
  have opened : plug s6 = plug s5 := by
    unfold s6
    split
    · exact (plug_commitRecord ..).trans rfl
    · rfl
  have answered : plug s7 = plug s := (plug_ite (plug_raise ..) rfl).trans (opened.trans copied)
  exact plug_ite ((plug_raise ..).trans answered) answered

theorem plug_reserveBatch (s : State) : plug s.reserveBatch = plug s := by
  unfold State.reserveBatch
  exact plug_ite rfl (plug_ite (plug_ite rfl ((plug_raise ..).trans rfl)) (plug_modFlash ..))

theorem plug_settleSecurity (katOk : Bool) (s : State) : plug (s.settleSecurity katOk) = plug s := by
  unfold State.settleSecurity
  extract_lets key pick x _ s1 s2 s3 board s4 s5 _ s6 s7
  clear_value x
  have checked : plug s2 = plug s := (plug_ite (plug_foldl (fun _ _ => plug_raise ..) _ _) (plug_raise ..)).trans rfl
  have read : plug s3 = plug s2 := plug_ite (plug_raise ..) rfl
  have boarded : plug s5 = plug s3 := plug_ite rfl ((plug_raise ..).trans rfl)
  have owned : plug s6 = plug s5 := by
    unfold s6
    split
    · exact plug_ite rfl ((plug_raise ..).trans ((plug_putMirror ..).trans rfl))
    · rfl
  have keyed : plug s7 = plug s6 := plug_ite rfl (plug_raise ..)
  rw [plug_reserveBatch, keyed, owned, boarded, read, checked]

theorem plug_endStates (s : State) : plug s.endStates = plug s :=
  (plug_foldl (fun _ _ => (plug_logEvent ..).trans (plug_putMirror ..)) _ _).trans rfl

theorem plug_recordRetired (n : Nat) (s : State) : plug (s.recordRetired n) = plug s := plug_ite rfl (plug_putMirror ..)

theorem plug_retireEighths (states : List FaultState) (s : State) : plug (s.retireEighths states) = plug s := by
  refine plug_foldl (fun t st => plug_ite rfl ?_) _ s
  have noted (d : DWord) (m : Mirror) : plug ((t.logEvent 0x0003 st.source st.severity false d).putMirror m) = plug t :=
    (plug_putMirror ..).trans (plug_logEvent ..)
  dsimp only
  split
  next n k _ =>
    have asked (d : DWord) : plug (((t.logEvent 0x0003 st.source st.severity false d).putMirror (.retiredCell n k)).raiseService 1 2 n none false)
      = plug t := (plug_raiseService ..).trans (noted ..)
    exact plug_ite ((plug_recordRetired ..).trans (asked _)) (asked _)
  next n => exact (plug_captureOnly ..).trans ((plug_recordRetired ..).trans (plug_logEvent ..))
  next b =>
    refine .trans (plug_foldl (fun u x => ?_) _ _) ((plug_captureOnly ..).trans ((plug_foldl (fun _ _ => plug_putMirror ..) _ _).trans (plug_logEvent ..)))
    cases x with
    | tile n i => exact plug_ite ((plug_captureOnly ..).trans (plug_putMirror ..)) rfl
    | engine e k => exact plug_ite (plug_captureOnly ..) rfl
    | hub i => rfl
  next => exact (plug_captureOnly ..).trans (noted ..)
  next => exact noted ..
  next => exact noted ..
  next => exact (plug_captureOnly ..).trans (noted ..)

theorem plug_logCause (s : State) : plug s.logCause = plug s := by
  unfold State.logCause
  extract_lets kind _ s1
  have noted : plug s1 = plug s := plug_ite ((plug_logEvent ..).trans rfl) rfl
  split
  · exact (plug_captureOnly ..).trans noted
  · exact noted

theorem plug_foretell (s : State) : plug s.foretell = plug s := by
  refine plug_foldl (fun t m => ?_) _ s
  cases m with
  | ageing d p h => exact plug_predictAt ..
  | optical e r p h => exact (plug_predictAt ..).trans (plug_predictAt ..)
  | _ => rfl

theorem plug_reraiseSites (lost compute spares : List Nat) (s : State) : plug (State.reraiseSites lost compute spares s) = plug s := by
  induction lost generalizing compute spares s with
  | nil => rfl
  | cons n l ih =>
    unfold State.reraiseSites
    split
    · split <;> exact (ih ..).trans (plug_raiseService ..)
    · exact ih ..

theorem plug_reraise (s : State) : plug s.reraise = plug s := by
  unfold State.reraise
  refine .trans (plug_foldl (fun t m => ?_) _ _) ((plug_reraiseSites ..).trans rfl)
  cases m with
  | retiredCell | retiredBundle | failedMemory | retiredRing => exact plug_raiseService ..
  | retiredSensor x =>
    cases x with
    | tile n k => exact plug_raiseService ..
    | hub k => rfl
    | engine e k => rfl
  | _ => rfl

/-- A cold start ends a trip, and leaves the input as it is. -/
theorem plug_coldStart (katOk idA idB : Bool) (s : State) : plug (s.coldStart katOk idA idB) = (s.pins.input, false) := by
  unfold State.coldStart
  extract_lets _ _ _ _ _ base states s1 _ s1a s2 keep cause s3 _ s4
  have settled : plug s1 = plug base := (plug_settleSecurity ..).trans (plug_settleFlash ..)
  have logged : plug s2 = plug s1a := (plug_logCause _).trans ((plug_retireEighths ..).trans (plug_endStates _))
  have again : plug s4.reraise.foretell = plug s4 := (plug_foretell _).trans (plug_reraise _)
  have ended (u : State) : plug (u.endStep3 .cold) = plug u := (plug_logEvent 0x0010 0xFFFF 0 false (startData ResetKind.cold.code u.settings)
      u.firstTables :)
  have quorum (u : State) : plug u.coreQuorum = plug u := plug_ite (plug_raise ..) rfl
  have rebuilt : plug s4 = plug s2 := rfl
  rw [quorum, ended, again, rebuilt, logged]
  exact settled

end Sys2Proof.Machine
end

section
/-! The rows of trips, of the shutdown and of restarts (O42). -/

set_option Elab.async false
namespace Sys2Proof.Machine
variable {s : State}

/-- The state of a module that has just tripped. -/
def State.tripped (kind : TripKind) (source reading : Nat) (s : State) : State :=
  { s.powerLost with
    ret := { s.powerLost.ret with tripKind := kind, tripSource := source, tripReading := reading % 256,
                                  tripTimes := s.ret.opTime :: s.ret.tripTimes.filter (fun x => decide (s.ret.opTime < x + 86400)),
                                  tripped := true, tripPending := true, coolSince := none },
    pins := { s.powerLost.pins with tripOut := true, alertOut := true } }

theorem State.trip_of_running (good : s.pins.pwrgd = true) (runs : s.ret.tripped = false) (kind : TripKind) (source reading : Nat) :
    s.trip kind source reading = s.tripped kind source reading := if_neg (by simp [good, runs])

theorem State.trip_of_stopped (stays : s.pins.pwrgd = false ∨ s.ret.tripped = true) (kind : TripKind) (source reading : Nat) :
    s.trip kind source reading = s := if_pos (by rcases stays with h | h <;> simp [h])

/-- What a cold start leaves that the restarts after a trip ask for. -/
theorem State.coldStart_restart (katOk idA idB : Bool) (s : State) : (s.coldStart katOk idA idB).ret.tripped = false
    ∧ (s.coldStart katOk idA idB).pins.input = s.pins.input ∧ (s.coldStart katOk idA idB).boot.lastKind = .cold
    ∧ (s.coldStart katOk idA idB).boot.step = 4 ∧ (s.coldStart katOk idA idB).boot.ready = false
    ∧ (s.coldStart katOk idA idB).ret.cycles = (s.ret.cycles + 1) % 2 ^ 24 := by
  obtain ⟨u, starts, supplied, -, -, -, ready, step, -, -⟩ := State.coldStart_starts katOk idA idB s
  have plugged := plug_coldStart katOk idA idB s
  simp only [plug, Prod.mk.injEq] at plugged
  obtain ⟨input, tripped⟩ := plugged
  refine ⟨tripped, input, ?_, ?_, ?_, ?_⟩
  · exact (congrArg Boot.lastKind starts.boot :)
  · exact (congrArg Boot.step starts.boot :).trans step
  · exact (congrArg Boot.ready starts.boot :).trans (by simp [Boot.afterQuorum, ready])
  · exact (congrArg (fun x : Bool × Bool × Nat => x.2.2) (starts.reported.supply.trans supplied) :)

/-- The steps of SHUTDOWN leave the registers, the cause and the table. -/
theorem State.shutDown_view (data : Nat) (s : State) : (s.shutDown data).flt = s.flt ∧ (s.shutDown data).boot.cause = s.boot.cause
    ∧ (s.shutDown data).host.cmds = s.host.cmds :=
  have frame := State.shutDown_frame data s
  ⟨frame.flt_eq (by decide), frame.exact (by decide) (p := .cause) (by decide), frame.exact (by decide) (p := .cmds) (by decide)⟩

/-- A cause that is set is not cleared by another one (R307). -/
theorem State.raiseCause_keeps {k : Nat} (j : Nat) (set : s.boot.cause.getLsbD k = true) : (s.raiseCause j).boot.cause.getLsbD k = true := by
  have bit : (s.boot.cause ||| (1#7 <<< j)).getLsbD k = true := by simp [set]
  have sent (t : State) : (t.sendVector 0).boot.cause = t.boot.cause := (State.sendVector_frame 0 t).exact (by decide) (p := .cause) (by decide)
  unfold State.raiseCause
  dsimp only
  split
  · exact bit
  · rw [sent]
    exact bit

theorem State.captureOnly_keeps_cause {k : Nat} (evs : List FaultEvent) (set : s.boot.cause.getLsbD k = true) :
    (s.captureOnly evs).boot.cause.getLsbD k = true := by
  have reported : (s.reported (s.flt.marking evs)).boot.cause = s.boot.cause := (State.reported_frame ..).exact (by decide) (p := .cause) (by decide)
  rw [State.captureOnly_eq]
  split
  · exact State.raiseCause_keeps 1 (reported ▸ set)
  · exact reported ▸ set

theorem execThermalShutdown_of_hot {x : SensorRef} {reading : Nat} (small : classS s = true) (works : sensorBroken s x = false) (hot : 110 ≤ reading)
    (twice : twiceHot s x = true) (first : s.boot.hot = false) (up : s.boot.fwUp = true) : execThermalShutdown x reading s =
      .next { (((s.raiseCause 5).captureOnly [{ source := srcId 6 0 0x19 }]).endAll .internal (srcId 6 0 0x19)).shutDown 1 with
        boot := { ((((s.raiseCause 5).captureOnly [{ source := srcId 6 0 0x19 }]).endAll .internal (srcId 6 0 0x19)).shutDown 1).boot with
          stopped := true, hot := true } } :=
  if_neg (by simp [small, works, hot, twice, first, up])

end Sys2Proof.Machine
end

section
open Sys2Proof Sys2Proof.Machine

/-- Settles O42: a trip of a running module is `State.tripped`; a restart is a cold start (`State.coldStart_restart`); the shutdown reports, ends every
command and goes through the steps of SHUTDOWN (`State.shutDown_view`). -/
theorem tripRowsComplete : Obligations.TripRowsComplete := by
  refine ⟨?overcurrent, ?thermal, ?noThermal, ?backstop, ?noBackstop, ?cools, ?notTwice, ?restart, ?noRestart, ?shutdown, ?input, ?noInput, ?inputBack,
    ?inputOnly⟩
  case overcurrent =>
    intro s good runs
    exact ⟨_, congrArg Host.Outcome.next (State.trip_of_running good runs ..), rfl, rfl, rfl, rfl, rfl, rfl, rfl, rfl, rfl, rfl⟩
  case thermal =>
    intro s x reading good runs large works hot
    refine ⟨_, (if_neg (by simp [large, works, hot])).trans (congrArg Host.Outcome.next (State.trip_of_running good runs ..)), rfl, rfl, rfl, rfl, rfl, rfl⟩
  case noThermal =>
    intro s x reading quiet
    exact ⟨s, if_pos (by rcases quiet with h | h | h <;> simp [h]), rfl⟩
  case backstop =>
    intro s x reading good runs small works hot
    refine ⟨_, (if_neg (by simp [small, works, hot])).trans (congrArg Host.Outcome.next (State.trip_of_running good runs ..)), rfl, rfl, rfl, rfl, rfl, rfl⟩
  case noBackstop =>
    intro s x reading quiet
    exact ⟨s, if_pos (by rcases quiet with h | h | h <;> simp [h]), rfl⟩
  case cools =>
    intro s hottest tripped clock
    exact ⟨_, if_neg (by simp [tripped, clock]), rfl, rfl⟩
  case notTwice =>
    intro s x reading once
    exact ⟨s, if_pos (by simp [once]), rfl⟩
  case restart =>
    intro s katOk idA idB tripped kind cool good
    obtain ⟨trip, -, last, step, ready, cycles⟩ := State.coldStart_restart katOk idA idB s
    exact ⟨_, if_pos (by rcases kind with h | h <;> simp [tripped, h, cool, good]), trip, last, step, ready, cycles⟩
  case noRestart =>
    intro s katOk idA idB kind
    exact ⟨s, if_neg (by simp [kind]), rfl⟩
  case shutdown =>
    intro s x reading small works hot twice first up
    obtain ⟨flt, cause, cmds⟩ := State.shutDown_view 1 (((s.raiseCause 5).captureOnly [{ source := srcId 6 0 0x19 }]).endAll .internal (srcId 6 0 0x19))
    refine ⟨_, execThermalShutdown_of_hot small works hot twice first up, rfl, rfl, rfl, rfl, ?_, rfl, ?_, fun c there => ?_⟩
    · exact (congrArg (·.getLsbD 5) cause :).trans (State.captureOnly_keeps_cause _ (State.raiseCause_bit 5 (by decide) s))
    · rw [flt]
      exact State.captureOnly_sticky.mpr (.inr ⟨_, List.mem_singleton_self _, rfl⟩)
    · rw [cmds] at there
      obtain ⟨d, -, rfl⟩ := List.mem_map.mp there
      exact endOf_isSome ..
  case input =>
    intro s good runs
    refine ⟨_, rfl, ?_⟩
    rw [State.trip_of_running good runs]
    exact ⟨rfl, rfl, rfl, rfl, rfl⟩
  case noInput =>
    intro s stays
    refine ⟨_, rfl, ?_⟩
    rw [State.trip_of_stopped stays]
  case inputBack =>
    intro s katOk idA idB tripped kind good
    obtain ⟨trip, input, last, step, -, -⟩ := State.coldStart_restart katOk idA idB { s with pins := { s.pins with input := true } }
    exact ⟨_, if_pos (by simp [tripped, kind, good]), trip, input, last, step⟩
  case inputOnly =>
    intro s katOk idA idB other
    exact ⟨_, if_neg (by simp [other]), rfl⟩

end

section
/-! The wires of a panel bundle (O34): what a new map, an inline check and a tracked phase leave at the end they name. -/

set_option Elab.async false
namespace Sys2Proof.Machine
variable {s : State}

theorem bundleAt_of_frame {ps : List Part} {t : State} (h : Frame ps s t) (b : BundleEnd)
    (out : ∀ p ∈ [Part.tiles, .hubBundles, .engines, .stop], p ∉ ps := by decide) : bundleAt t b = bundleAt s b := by
  have stop := out .stop (by decide)
  have tiles : t.tiles = s.tiles := h.exact stop (p := .tiles) (out _ (by decide))
  have hub : t.hubBundles = s.hubBundles := h.exact stop (p := .hubBundles) (out _ (by decide))
  have engines : t.engines = s.engines := h.exact stop (p := .engines) (out _ (by decide))
  cases b <;> simp only [bundleAt, tileAt, engineAt, tiles, hub, engines]

/-- A change of the far end of a bundle does not touch the near one. -/
theorem bundleAt_modFar (b : BundleEnd) (f : LinkEnd → LinkEnd) (s : State) : bundleAt (s.modFar (.bundle b) f) b = bundleAt s b := by
  cases far : peerEnd b with
  | none => simp only [State.modFar, farEnd, far, Option.map_none]
  | some p =>
    simp only [State.modFar, farEnd, far, Option.map_some]
    exact bundleAt_modBundle_ne (ne_of_peerEnd far).symm ..

theorem ends_of_frame {ps : List Part} {t : State} (h : Frame ps s t) (out : ∀ p ∈ [Part.tiles, .hubBundles, .engines, .stop], p ∉ ps := by decide) :
    ends t = ends s := by
  have stop := out .stop (by decide)
  have tiles : t.tiles = s.tiles := h.exact stop (p := .tiles) (out _ (by decide))
  have hub : t.hubBundles = s.hubBundles := h.exact stop (p := .hubBundles) (out _ (by decide))
  have engines : t.engines = s.engines := h.exact stop (p := .engines) (out _ (by decide))
  simp only [ends, tiles, hub, engines]

/-! ## A new map (R363, R371) -/

/-- What a new map leaves at its end; the records and reports that go with it leave it there. -/
theorem bundleAt_applyMap {b : BundleEnd} (there : HasEnd s b) (failed : List Nat) (m : List SpareUse × Option Nat) :
    bundleAt (s.applyMap b failed m) b = { bundleAt s b with state := if m.2.isSome then .degraded else .full, spares := m.1, failed := failed,
                                                             dropped := m.2, checking := false } := by
  unfold State.applyMap
  extract_lets was s1 s2 s3
  have set : bundleAt s1 b = _ := bundleAt_modBundle_same there _
  have kept2 : bundleAt s2 b = bundleAt s1 b := by
    unfold s2
    split
    · rfl
    · exact bundleAt_of_frame (State.putMirror_frame ..) b
  have kept3 : bundleAt s3 b = bundleAt s2 b := by
    unfold s3
    split
    · exact bundleAt_of_frame (State.raise_quiet (calm_bundle b (.inl rfl))) b
    · rfl
  have all : bundleAt s3 b = _ := kept3.trans (kept2.trans set)
  split
  · exact (bundleAt_of_frame (State.raiseService_frame ..) b).trans ((bundleAt_of_frame (State.raise_quiet (calm_bundle b (.inr rfl))) b).trans all)
  · exact all

theorem bundleInjected_of_flt {t : State} (same : t.flt = s.flt) (b : BundleEnd) : bundleInjected t b = bundleInjected s b := by
  unfold bundleInjected
  rw [same]

/-- A bundle end that retires is recorded, wired or not. -/
theorem State.retireBundle_records (b : BundleEnd) (s : State) : recordedBundle (s.retireBundle b) b = true
    ∧ ∀ p, peerEnd b = some p → recordedBundle (s.retireBundle b) p = true := by
  cases far : peerEnd b with
  | some p =>
    obtain ⟨near, other⟩ := State.retireBundle_recorded far s
    exact ⟨near, fun q same => Option.some.inj same ▸ other⟩
  | none =>
    refine ⟨?_, nofun⟩
    have told (t : State) (src data res : Nat) (d : DWord) : records (((t.raise src data).logEvent 0x0003 src 1 false d).raiseService 2 3 res none false)
        = records t := records_of_ledger (by rw [ledger_raiseService, ledger_logEvent, ledger_raise])
    have moved (t : State) : records (([b].foldl (fun u x => u.handOver x) t).retable) = records t :=
      (records_of_frame (State.retable_frame ..) (by decide) (by decide)).trans (records_handOver b t)
    have put : recordedBundle ((s.putMirror (.retiredBundle b)).modBundle b (fun d => { d with state := .retired, checking := false })) b = true := by
      rw [recordedBundle_of_records (records_of_frame (State.modBundle_frame ..) (by decide) (by decide)), recordedBundle_putMirror]
      exact .inr rfl
    unfold State.retireBundle
    rw [far]
    refine BundlesStay.trans (.of_records ((moved _).trans (told _ _ _ _ _))) (.foldl (fun u x => ?_) _ _) b put
    cases x with
    | tile n i => exact .ite (.refl u) (u.isolateSite_bundles n)
    | engine e k => exact .ite (.refl u) (.of_ledger (ledger_engineOut ..))
    | hub i => exact .refl u

/-! ## An inline check (R367) -/

theorem startInline_of_idle {b : BundleEnd} (there : HasEnd s b) (idle : (bundleAt s b).checking = false) :
    bundleAt (s.startInline b) b = { bundleAt s b with checking := true, inlineChecks := satAdd (bundleAt s b).inlineChecks 1 255, recentFails := 0 }
      ∧ bundleSource 0x20 b ∈ (s.startInline b).flt.sticky := by
  unfold State.startInline
  rw [if_neg (by simp [idle])]
  exact ⟨(bundleAt_of_frame (State.raiseFor_quiet (calm_bundle b (.inl rfl))) b).trans (bundleAt_modBundle_same there _),
    State.mem_raiseFor_sticky.mpr (.inr rfl)⟩

/-- The wires that a check's end holds failed: those recorded, those of the map, and those that the check has found or that have strayed. -/
def failedAfter (s : State) (b : BundleEnd) (failed : List Nat) : List Nat :=
  (recordedWires s b ++ (bundleAt s b).failed ++ (failed ++ strayed (bundleAt s b)).eraseDups).eraseDups

/-- A check that finds a map leaves it at its end. -/
theorem execInlineCheckDone_of_map {b : BundleEnd} {failed : List Nat} {m : List SpareUse × Option Nat} (there : HasEnd s b)
    (checks : (bundleAt s b).checking = true) (lasting : (bundleAt s b).tempRetired = false)
    (map : chooseMap (failedAfter s b failed) (bundleAt s b).dropped (bundleAt s b).spares = some m) :
    ∃ t, execInlineCheckDone b failed s = .next t ∧ bundleAt t b =
      { bundleAt s b with
        state := if m.2.isSome then .degraded else .full, spares := m.1, failed := failedAfter s b failed, dropped := m.2, checking := false,
        phase := without (fun p => (failed ++ strayed (bundleAt s b)).eraseDups.contains p.1) (bundleAt s b).phase, recentFails := 0 } := by
  unfold failedAfter at map ⊢
  unfold execInlineCheckDone
  simp only [checks, lasting, map, Bool.not_true, Bool.false_eq_true, if_false]
  refine ⟨_, rfl, ?_⟩
  generalize noted : (if bundleInjected s b = true then s else s.recordWires b (failed ++ strayed (bundleAt s b)).eraseDups) = s1
  have frame : bundleAt s1 b = bundleAt s b ∧ ends s1 = ends s := by
    rw [← noted]
    split
    · exact ⟨rfl, rfl⟩
    · exact ⟨bundleAt_of_frame (State.recordWires_frame ..) b, ends_of_frame (State.recordWires_frame ..)⟩
  obtain ⟨same, sameEnds⟩ := frame
  have mapEnds (all : List Nat) : ends (s1.applyMap b all m) = ends s :=
    (ends_of_panel (panel_applyMap ..)).trans ((ends_modBundle ..).trans sameEnds)
  have has {u : State} (k : ends u = ends s) : HasEnd u b := (hasEnd_of_ends k b).mpr there
  rw [bundleAt_modFar]
  cases far : peerEnd b with
  | none =>
    rw [bundleAt_modBundle_same (has (mapEnds _)), bundleAt_applyMap (has sameEnds), same]
    simp only [lasting]
  | some p =>
    have noted (all : List Nat) (l : List Byte) : ends ((s1.applyMap b all m).noteBlock p l) = ends s := (ends_modBundle ..).trans (mapEnds _)
    rw [bundleAt_modBundle_same (has (noted ..)), State.noteBlock, bundleAt_modBundle_ne (ne_of_peerEnd far).symm, bundleAt_applyMap (has sameEnds), same]
    simp only [lasting]

theorem execInlineCheckDone_of_none {b : BundleEnd} {failed : List Nat} (checks : (bundleAt s b).checking = true)
    (lasting : (bundleAt s b).tempRetired = false)
    (none_ : chooseMap (failedAfter s b failed) (bundleAt s b).dropped (bundleAt s b).spares = none) (real : bundleInjected s b = false) :
    execInlineCheckDone b failed s = .next ((s.recordWires b (failed ++ strayed (bundleAt s b)).eraseDups).retireBundle b) := by
  have real' : bundleInjected (s.recordWires b (failed ++ strayed (bundleAt s b)).eraseDups) b = false :=
    (bundleInjected_of_flt ((State.recordWires_frame ..).flt_eq (by decide)) b).trans real
  unfold failedAfter at none_
  unfold execInlineCheckDone
  simp only [checks, lasting, none_, real, State.bundleOut, real', Bool.not_true, Bool.not_false, Bool.false_eq_true, if_false, if_true]

theorem execWireFillerError_of_data {b : BundleEnd} {wire : Nat} (live : (bundleAt s b).live = true) (data : wire < 64)
    (used : (bundleAt s b).dropped ≠ some (wire / 16)) (works : (bundleAt s b).failed.contains wire = false) :
    execWireFillerError b wire s = .next (s.startInline b) := by
  unfold execWireFillerError
  dsimp only
  rw [if_pos data, if_pos (by simp only [live, works, bne_iff_ne.mpr used, Bool.not_false, Bool.and_self])]

theorem execWireFillerError_of_spare {b : BundleEnd} {k : Nat} (live : (bundleAt s b).live = true) (spare : k < 4)
    (other : (bundleAt s b).spares.getD k .free ≠ .valid) (works : (bundleAt s b).failed.contains (64 + k) = false) :
    execWireFillerError b (64 + k) s = .next (s.startInline b) := by
  have past : ¬ 64 + k < 64 := by omega
  have within : 64 + k < 68 := by omega
  unfold execWireFillerError
  dsimp only
  rw [if_neg past, Nat.add_sub_cancel_left, if_pos (by simp only [live, within, works, bne_iff_ne.mpr other, decide_true, Bool.not_false, Bool.and_self])]

end Sys2Proof.Machine
end

section
open Sys2Proof Sys2Proof.Machine

/-- Settles O34: a check's map is taken by `State.applyMap`, or both ends retire (`State.retireBundle_records`); an error on an idle wire starts a check. -/
theorem bundleWireRowsComplete : Obligations.BundleWireRowsComplete := by
  refine ⟨?map, ?retires, ?phase, ?data, ?spare⟩
  case map =>
    intro s b failed m there checks lasting map
    obtain ⟨t, runs, same⟩ := execInlineCheckDone_of_map there checks lasting map
    refine ⟨t, runs, ?_⟩
    dsimp only
    rw [same]
    exact ⟨rfl, rfl, rfl, rfl, rfl, rfl⟩
  case retires =>
    intro s b failed checks lasting none_ real
    exact ⟨_, execInlineCheckDone_of_none checks lasting none_ real, State.retireBundle_records b _⟩
  case phase =>
    intro s b wire up there live small
    refine ⟨_, if_pos live, ?_⟩
    dsimp only
    rw [bundleAt_modBundle_same there, List.foldl_cons, List.foldl_nil, if_pos small, lookupKey_setKey]
  case data =>
    intro s b wire there live data used works idle
    obtain ⟨taken, reported⟩ := startInline_of_idle there idle
    refine ⟨_, execWireFillerError_of_data live data used works, ?_⟩
    dsimp only
    rw [taken]
    exact ⟨rfl, rfl, reported⟩
  case spare =>
    intro s b k spare there live other works idle
    refine ⟨_, execWireFillerError_of_spare live spare other works, ?_⟩
    dsimp only
    rw [(startInline_of_idle there idle).1]

end

section
/-! The link layer (O33): what a flit that arrives, a timer and a replay leave at the end they concern, on bundles and optical links alike. -/

set_option Elab.async false
namespace Sys2Proof.Machine
variable {s : State}

/-! ## Link ends (R430) -/

theorem bundleAt_modBundle_view {β : Type} {v : BundleDir → β} {f : BundleDir → BundleDir} (h : ∀ d, v (f d) = v d) (a b : BundleEnd) (s : State) :
    v (bundleAt (s.modBundle a f) b) = v (bundleAt s b) := by
  by_cases same : a = b
  · subst same
    cases a with
    | tile n i =>
      exact tileAt_modTile_view (v := fun t : Tile => v (t.bundles.getD i BundleDir.reset)) (f := fun t => { t with bundles := modAt t.bundles i f })
        (fun t => getD_modAt_view h ..) n n s
    | hub b => exact getD_modAt_view h ..
    | engine e k =>
      exact engineAt_modEngine_view (v := fun x : Engine => v (x.bundles.getD k BundleDir.reset)) (f := fun x => { x with bundles := modAt x.bundles k f })
        (fun x => getD_modAt_view h ..) e e s
  · rw [bundleAt_modBundle_ne same]

theorem linkAt_modLink_same {link : LinkRef} (there : HasLink s link) (f : LinkEnd → LinkEnd) : linkAt (s.modLink link f) link = f (linkAt s link) := by
  cases link with
  | bundle b => exact congrArg BundleDir.link (bundleAt_modBundle_same there _)
  | optical e => exact congrArg Engine.link (engineAt_modEngine_same there _)

theorem linkAt_of_frame {ps : List Part} {t : State} (h : Frame ps s t) (link : LinkRef)
    (out : ∀ p ∈ [Part.tiles, .hubBundles, .engines, .stop], p ∉ ps := by decide) : linkAt t link = linkAt s link := by
  cases link with
  | bundle b => exact congrArg BundleDir.link (bundleAt_of_frame h b out)
  | optical e => exact congrArg Engine.link (engineAt_of_frame h e fun p hp => out p (by simp at hp; rcases hp with rfl | rfl <;> decide))

theorem ends_modEngine {f : Engine → Engine} (h : ∀ x, (f x).bundles = x.bundles) (e : Nat) (s : State) : ends (s.modEngine e f) = ends s :=
  congrArg (_, _, ·) (map_modAt_of_eq (v := fun x : Engine => x.bundles.length) (fun x => by rw [h]) s.engines e)

theorem hasLink_of_ends {t : State} (h : ends t = ends s) (link : LinkRef) : HasLink t link ↔ HasLink s link := by
  cases link with
  | bundle b => exact hasEnd_of_ends h b
  | optical e =>
    have count : t.engines.length = s.engines.length := by simpa [ends] using congrArg (fun x : List Nat × Nat × List Nat => x.2.2.length) h
    simp only [HasLink, count]

theorem ends_modLink (link : LinkRef) (f : LinkEnd → LinkEnd) (s : State) : ends (s.modLink link f) = ends s := by
  cases link with
  | bundle b => exact ends_modBundle ..
  | optical e => exact ends_modEngine (f := fun x => { x with link := f x.link }) (fun _ => rfl) e s

theorem linkAt_modEngine {f : Engine → Engine} (h : ∀ x, (f x).link = x.link ∧ (f x).bundles = x.bundles) (e : Nat) (link : LinkRef) (s : State) :
    linkAt (s.modEngine e f) link = linkAt s link := by
  cases link with
  | optical k => exact engineAt_modEngine_view (v := Engine.link) (fun x => (h x).1) e k s
  | bundle b =>
    cases b with
    | engine k i => exact engineAt_modEngine_view (v := fun x => (x.bundles.getD i BundleDir.reset).link) (f := f) (fun x => by rw [(h x).2]) e k s
    | _ => rfl

theorem linkAt_modBundle {f : BundleDir → BundleDir} (h : ∀ d, (f d).link = d.link) (b : BundleEnd) (link : LinkRef) (s : State) :
    linkAt (s.modBundle b f) link = linkAt s link := by
  cases link with
  | bundle c => exact bundleAt_modBundle_view (v := BundleDir.link) h b c s
  | optical e =>
    cases b with
    | engine k i => exact engineAt_modEngine_view (v := Engine.link) (f := fun x => { x with bundles := modAt x.bundles i f }) (fun _ => rfl) k e s
    | _ => rfl

theorem linkAt_modFar (link : LinkRef) (f : LinkEnd → LinkEnd) (s : State) : linkAt (s.modFar link f) link = linkAt s link := by
  cases link with
  | bundle b => exact congrArg BundleDir.link (bundleAt_modFar ..)
  | optical e => rfl

theorem ends_modFar (link : LinkRef) (f : LinkEnd → LinkEnd) (s : State) : ends (s.modFar link f) = ends s := by
  unfold State.modFar
  split
  · exact ends_modLink ..
  · rfl

theorem linkAt_unfreeze (a link : LinkRef) (s : State) : linkAt (s.unfreeze a) link = linkAt s link := by
  cases a with
  | bundle b => rfl
  | optical e => exact linkAt_modEngine (f := fun x => { x with rx := { x.rx with frozen := false } }) (fun _ => ⟨rfl, rfl⟩) e link s

/-! ## A flit is taken (R418): nothing that the link layer looks at changes -/

theorem linkAt_takeFlit (a link : LinkRef) (flit : List Byte) (s : State) : linkAt (s.takeFlit a flit) link = linkAt s link := by
  cases a with
  | bundle b => rfl
  | optical e => exact linkAt_modEngine (fun _ => ⟨by rfl, by rfl⟩) e link s

theorem linkLive_takeFlit (link : LinkRef) (flit : List Byte) (s : State) : linkLive (s.takeFlit link flit) link = linkLive s link := by
  cases link with
  | bundle b => rfl
  | optical e => exact engineAt_modEngine_view (v := fun x => x.state == .up) (fun _ => by rfl) e e s

theorem ends_takeFlit (link : LinkRef) (flit : List Byte) (s : State) : ends (s.takeFlit link flit) = ends s := by
  cases link with
  | bundle b => rfl
  | optical e => exact ends_modEngine (fun _ => by rfl) e s

theorem flt_takeFlit (link : LinkRef) (flit : List Byte) (s : State) : (s.takeFlit link flit).flt = s.flt := by
  cases link <;> rfl

theorem heldBack_takeFlit (link : LinkRef) (flit : List Byte) (s : State) : heldBack (s.takeFlit link flit) link flit = heldBack s link flit := by
  cases link with
  | bundle b => rfl
  | optical e => rfl

theorem crcInverted_of_flt {t : State} (h : t.flt = s.flt) (link : LinkRef) : crcInverted t link = crcInverted s link := by
  cases link <;> simp only [crcInverted, h]

/-! ## What goes on over the mesh (R35, R370): messages that move join queues and change nothing that has been received -/

/-- What an end has received. -/
def LinkEnd.received (l : LinkEnd) : Nat × Bool × List (Nat × List Byte) × List Nat := (l.rxExpected, l.nakOutstanding, l.rxMessage, l.rxReleased)

theorem received_modBundle {f : LinkEnd → LinkEnd} (h : ∀ l, (f l).received = l.received) (b : BundleEnd) (link : LinkRef) (s : State) :
    (linkAt (s.modBundle b (fun d => { d with link := f d.link })) link).received = (linkAt s link).received := by
  cases link with
  | bundle c => exact bundleAt_modBundle_view (v := fun d => d.link.received) (fun d => h d.link) b c s
  | optical e =>
    cases b with
    | engine k i => exact engineAt_modEngine_view (v := fun x => x.link.received) (fun _ => by rfl) k e s
    | _ => rfl

theorem received_modEngine {f : LinkEnd → LinkEnd} (h : ∀ l, (f l).received = l.received) (e : Nat) (link : LinkRef) (s : State) :
    (linkAt (s.modEngine e (fun x => { x with link := f x.link })) link).received = (linkAt s link).received := by
  cases link with
  | optical k => exact engineAt_modEngine_view (v := fun x => x.link.received) (fun x => h x.link) e k s
  | bundle b =>
    cases b with
    | engine k i => exact engineAt_modEngine_view (v := fun x => (x.bundles.getD i BundleDir.reset).link.received) (fun _ => by rfl) e k s
    | _ => rfl

theorem received_tryHop {f : Flight} {here : Station} {t : State} (h : s.tryHop f here = some t) (link : LinkRef) :
    (linkAt t link).received = (linkAt s link).received := by
  unfold State.tryHop at h
  split at h
  · cases h
    unfold State.arrive
    dsimp only
    split
    · exact received_modEngine (f := fun l => if bit 0 (field 0xA 1 f.message) then l.queueAhead f.vc f.message else l.queue f.vc f.message)
        (fun l => by split <;> rfl) _ link s
    · cases link <;> rfl
  · split at h
    · cases h
    · split at h
      next b _ =>
        cases h
        rw [linkAt_of_frame (State.noteFlight_frame ..)]
        exact received_modBundle (f := (·.queue f.vc f.message)) (fun l => by rfl) b link s
      next => cases h

theorem received_hop (f : Flight) (here : Station) (link : LinkRef) (s : State) : (linkAt (s.hop f here) link).received = (linkAt s link).received := by
  unfold State.hop
  split
  next h => exact received_tryHop h link
  next =>
    split
    next h => exact received_tryHop h link
    next => rw [linkAt_of_frame (State.noteFlight_frame ..)]

theorem received_of_frame {ps : List Part} {t : State} (h : Frame ps s t) (link : LinkRef)
    (out : ∀ p ∈ [Part.tiles, .hubBundles, .engines, .stop], p ∉ ps := by decide) : (linkAt t link).received = (linkAt s link).received := by
  rw [linkAt_of_frame h link out]

theorem received_retry (link : LinkRef) (s : State) : (linkAt s.retry link).received = (linkAt s link).received := by
  refine (foldl_view (v := fun t => (linkAt t link).received) (fun t f => received_hop ..) _ _).trans ?_
  cases link <;> rfl

theorem received_forward (here : Station) (vc : Nat) (m : List Byte) (link : LinkRef) (s : State) :
    (linkAt (s.forward here vc m) link).received = (linkAt s link).received := by
  unfold State.forward
  split
  · exact (received_of_frame (State.dropTables_frame _) link).trans ((received_retry link _).trans ((received_hop ..).trans
      (received_of_frame (State.endFlight_frame ..) link)))
  · split
    · exact received_hop ..
    · cases link <;> rfl

/-- What the last flit of a message brings about leaves what every link has received. -/
theorem received_passOn (a link : LinkRef) (vc : Nat) (m : List Byte) (s : State) :
    (linkAt (s.passOn a vc m) link).received = (linkAt s link).received := by
  cases a with
  | bundle b => exact received_forward ..
  | optical e =>
    unfold State.passOn State.enterFrom
    dsimp only
    split
    · split
      · exact (received_hop ..).trans (received_modEngine (f := fun l => { l with delivered := l.delivered.dropLast }) (fun _ => by rfl) e link s)
      · rfl
    · rfl

/-! ## Flits that fail (R439) -/

theorem severityOf_flit : ∀ e : EngineId, severityOf (srcId 2 e 0x0C) ≠ 3 := by decide

theorem linkAt_startInline (b : BundleEnd) (link : LinkRef) (s : State) : linkAt (s.startInline b) link = linkAt s link := by
  unfold State.startInline
  split
  · rfl
  · rw [linkAt_of_frame (State.raiseFor_quiet (calm_bundle b (.inl rfl)))]
    exact linkAt_modBundle (fun _ => by rfl) b link s

/-- A flit that fails leaves its end with a NAK outstanding, and the sequence expected as it was. -/
theorem linkAt_flitFailed {link : LinkRef} (there : HasLink s link) (slot : Nat) : (linkAt (s.flitFailed link slot) link).nakOutstanding = true
    ∧ (linkAt (s.flitFailed link slot) link).rxExpected = (linkAt s link).rxExpected := by
  unfold State.flitFailed
  split
  next out => exact ⟨out, rfl⟩
  · split
    · rw [linkAt_modLink_same there]
      exact ⟨rfl, rfl⟩
    · dsimp only
      have set := linkAt_modLink_same there LinkEnd.nak
      suffices same : ∀ t, linkAt t link = linkAt (s.modLink link LinkEnd.nak) link →
          (linkAt t link).nakOutstanding = true ∧ (linkAt t link).rxExpected = (linkAt s link).rxExpected by
        refine same _ ?_
        cases link with
        | optical e =>
          exact (linkAt_of_frame (State.raise_quiet (severityOf_flit e)) _).trans (linkAt_modEngine (fun _ => ⟨by rfl, by rfl⟩) e _ _)
        | bundle b =>
          have counted (u : State) (f : BundleDir → BundleDir) (kept : ∀ d, (f d).link = d.link) :
              linkAt ((u.modBundle b f).raise (bundleSource 0x20 b) 0) (.bundle b) = linkAt u (.bundle b) :=
            (linkAt_of_frame (State.raise_quiet (calm_bundle b (.inl rfl))) _).trans (linkAt_modBundle kept b _ u)
          dsimp only
          split
          · exact (linkAt_startInline ..).trans (counted _ _ (fun _ => rfl))
          · exact counted _ _ (fun _ => rfl)
      intro t k
      rw [k, set]
      exact ⟨rfl, rfl⟩

/-! ## Replays (R440, R447) -/

theorem linkAt_replayEvent (a link : LinkRef) (s : State) : linkAt (s.replayEvent a) link = linkAt s link := by
  unfold State.replayEvent
  split
  next p _ => exact linkAt_of_frame (State.raise_quiet (calm_bundle p (.inl rfl))) link
  · rfl

/-- Below 16 the replay counter brings nothing about but its own maximum. -/
theorem linkAt_replayLimit {link : LinkRef} (small : (linkAt s link).replayCounter < 16) : linkAt (s.replayLimit link) link = linkAt s link := by
  unfold State.replayLimit
  cases link with
  | optical e =>
    dsimp only
    rw [if_neg small.ne]
    exact linkAt_modEngine (fun _ => ⟨by rfl, by rfl⟩) e _ s
  | bundle b =>
    dsimp only
    split
    · rfl
    · rw [if_neg small.ne, if_neg (by omega)]

theorem holding_modEngine {f : Engine → Engine} (h : ∀ x, (f x).tx = x.tx) (e : Nat) (link : LinkRef) (s : State) :
    holding (s.modEngine e f) link = holding s link := by
  cases link with
  | bundle b => rfl
  | optical k => exact engineAt_modEngine_view (v := fun x => x.tx.change.isSome) (fun x => by rw [h]) e k s

theorem holding_takeFlit (a link : LinkRef) (flit : List Byte) (s : State) : holding (s.takeFlit a flit) link = holding s link := by
  cases a with
  | bundle b => rfl
  | optical e => exact holding_modEngine (fun _ => by rfl) e link s

theorem holding_modLink (a link : LinkRef) (f : LinkEnd → LinkEnd) (s : State) : holding (s.modLink a f) link = holding s link := by
  cases a with
  | optical e => exact holding_modEngine (f := fun x => { x with link := f x.link }) (fun _ => rfl) e link s
  | bundle b =>
    cases b with
    | engine e k => exact holding_modEngine (f := fun x => { x with bundles := modAt x.bundles k _ }) (fun _ => rfl) e link s
    | _ => cases link <;> rfl

theorem holding_modFar (a link : LinkRef) (f : LinkEnd → LinkEnd) (s : State) : holding (s.modFar a f) link = holding s link := by
  unfold State.modFar
  split
  · exact holding_modLink ..
  · rfl

theorem holding_unfreeze (a link : LinkRef) (s : State) : holding (s.unfreeze a) link = holding s link := by
  cases a with
  | bundle b => rfl
  | optical e => exact holding_modEngine (f := fun x => { x with rx := { x.rx with frozen := false } }) (fun _ => rfl) e link s

/-- A replay that stays below the limit leaves its end as the replay itself does. -/
theorem linkAt_replayed {link : LinkRef} (there : HasLink s link) {f : LinkEnd → LinkEnd} (small : (f (linkAt s link)).replayCounter < 16) :
    linkAt (((s.modLink link f).replayEvent link).replayLimit link) link = f (linkAt s link) := by
  have replayed : linkAt ((s.modLink link f).replayEvent link) link = f (linkAt s link) := (linkAt_replayEvent ..).trans (linkAt_modLink_same there f)
  exact (linkAt_replayLimit (replayed ▸ small)).trans replayed

theorem LinkEnd.replay_of_held {l : LinkEnd} {h : Nat × Nat × List Byte} (first : l.held.head? = some h) (n : Nat) :
    l.replay n = { l with replayFrom := some n, replayCounter := l.replayCounter + bnat (h.1 == n) } := by
  unfold LinkEnd.replay
  split
  next none_ => rw [none_] at first; cases first
  next x l' held =>
    rw [held] at first
    cases first
    rfl

/-- Ages change no sequence. -/
theorem LinkEnd.aged_held {l : LinkEnd} {h : Nat × Nat × List Byte} (first : l.held.head? = some h) (age : Nat) :
    ∃ a, (l.aged age).held.head? = some (h.1, a, h.2.2) ∧ (l.aged age).held.length = l.held.length ∧ (l.aged age).replayCounter = l.replayCounter := by
  unfold LinkEnd.aged
  split
  next none_ => rw [none_] at first; cases first
  next x a y l' held =>
    rw [held] at first
    cases first
    refine ⟨a + (age * 375 / 8 - a), ?_, ?_, rfl⟩
    · simp only [LinkEnd.older, held, List.map_cons, List.head?_cons]
    · simp only [LinkEnd.older, List.length_map]

theorem LinkEnd.accept_view (optical : Bool) (f : List Byte) (l : LinkEnd) : (l.accept optical f).rxExpected = (l.rxExpected + 1) % 16384
    ∧ (l.accept optical f).nakOutstanding = false := by
  have acked : (l.ack (flitAck f)).rxExpected = l.rxExpected := by
    unfold LinkEnd.ack
    split <;> rfl
  unfold LinkEnd.accept
  extract_lets vc part start msg l1 held l2 l3
  have taken : l3.rxExpected = (l.rxExpected + 1) % 16384 ∧ l3.nakOutstanding = false := by
    have first : l2.rxExpected = (l.rxExpected + 1) % 16384 := by rw [← acked]
    unfold l3
    split <;> exact ⟨first, rfl⟩
  split <;> exact taken

/-! ## The rows -/

/-- A data flit in sequence, taken at both ends. -/
def State.takeData (link : LinkRef) (flit : List Byte) (s : State) : State :=
  (((s.takeFlit link flit).modLink link (LinkEnd.accept (isOptical link) flit)).modFar link
    (LinkEnd.sentFlit (linkAt s link).rxExpected flit)).unfreeze link

theorem linkAt_takeData {link : LinkRef} (there : HasLink s link) (flit : List Byte) :
    linkAt (s.takeData link flit) link = (linkAt s link).accept (isOptical link) flit := by
  have there' : HasLink (s.takeFlit link flit) link := (hasLink_of_ends (ends_takeFlit ..) link).mpr there
  rw [State.takeData, linkAt_unfreeze, linkAt_modFar, linkAt_modLink_same there', linkAt_takeFlit]

theorem execDataFlitReceive_of_accepted {link : LinkRef} {slot : Nat} {flit : List Byte} (live : linkLive s link = true)
    (free : heldBack s link flit = false) (plain : crcInverted s link = false) (ok : flitOk flit (linkAt s link).rxExpected = true)
    (data : flitKind flit = 1) (room : (linkAt s link).rxHeld.getD (flitVc flit) 0 < vcBuffer (isOptical link) (flitVc flit))
    (short : isOptical link = false ∨ flitFraming flit = 1 ∨ flitFraming flit = 3
        ∨ ((partSoFar (linkAt s link) (flitVc flit)).getD []).length + flitLen flit ≤ 4200) :
    execDataFlitReceive link slot flit s = .next (if lastFlit flit then (s.takeData link flit).passOn link (flitVc flit) ((linkAt s link).whole flit)
      else s.takeData link flit) := by
  have fits : (isOptical link && (decide (4200 < ((partSoFar (linkAt s link) (flitVc flit)).getD []).length + flitLen flit) && flitFraming flit != 1
      && flitFraming flit != 3)) = false := by
    rcases short with h | h | h | h
    · simp [h]
    · simp [h]
    · simp [h]
    · simp [Nat.not_lt.mpr h]
  simp only [execDataFlitReceive, linkAt_takeFlit, linkLive_takeFlit, heldBack_takeFlit, crcInverted_of_flt (flt_takeFlit link flit s), live, free,
      plain, ok,
    data, room, fits, BEq.rfl, decide_true, Bool.not_true, Bool.or_self, Bool.and_self, Bool.false_eq_true, if_false]
  rfl

theorem execDataFlitReceive_of_failed {link : LinkRef} {slot : Nat} {flit : List Byte} (live : linkLive s link = true)
    (free : heldBack s link flit = false) (bad : (flitOk flit (linkAt s link).rxExpected && flitKind flit == 1) = false ∨ crcInverted s link = true) :
    execDataFlitReceive link slot flit s = .next ((if (linkAt s link).nakOutstanding then s.takeFlit link flit
      else (s.takeFlit link flit).modFar link (LinkEnd.lostFlit (linkAt s link).rxExpected)).flitFailed link slot) := by
  have fails : (!(flitOk flit (linkAt s link).rxExpected && flitKind flit == 1) || crcInverted s link) = true := by
    rcases bad with h | h <;> simp only [h, Bool.not_false, Bool.true_or, Bool.or_true]
  simp only [execDataFlitReceive, linkAt_takeFlit, linkLive_takeFlit, heldBack_takeFlit, crcInverted_of_flt (flt_takeFlit link flit s), live, free, fails,
    Bool.not_true, Bool.or_self, Bool.false_eq_true, if_false, if_true]

/-- A link flit, taken at both ends. -/
def State.takeLink (link : LinkRef) (flit : List Byte) (s : State) : State :=
  ((((s.takeFlit link flit).modLink link (fun l => l.ack (flitAck flit))).modLink link (fun l => { l with released := linkReleases flit })).unfreeze
    link).modFar link LinkEnd.reported

theorem linkAt_takeLink {link : LinkRef} (there : HasLink s link) (flit : List Byte) :
    linkAt (s.takeLink link flit) link = { (linkAt s link).ack (flitAck flit) with released := linkReleases flit } := by
  have taken : HasLink (s.takeFlit link flit) link := (hasLink_of_ends (ends_takeFlit ..) link).mpr there
  have acked : HasLink ((s.takeFlit link flit).modLink link (fun l => l.ack (flitAck flit))) link := (hasLink_of_ends (ends_modLink ..) link).mpr taken
  rw [State.takeLink, linkAt_modFar, linkAt_unfreeze, linkAt_modLink_same acked, linkAt_modLink_same taken, linkAt_takeFlit]

theorem ends_unfreeze (link : LinkRef) (s : State) : ends (s.unfreeze link) = ends s := by
  cases link with
  | bundle b => rfl
  | optical e => exact ends_modEngine (f := fun x => { x with rx := { x.rx with frozen := false } }) (fun _ => rfl) e s

theorem ends_takeLink (link : LinkRef) (flit : List Byte) (s : State) : ends (s.takeLink link flit) = ends s := by
  rw [State.takeLink, ends_modFar, ends_unfreeze, ends_modLink, ends_modLink, ends_takeFlit]

theorem holding_takeLink (link : LinkRef) (flit : List Byte) (s : State) : holding (s.takeLink link flit) link = holding s link := by
  rw [State.takeLink, holding_modFar, holding_unfreeze, holding_modLink, holding_modLink, holding_takeFlit]

theorem execLinkFlitReceive_of_good {link : LinkRef} {slot : Nat} {flit : List Byte} (live : linkLive s link = true) (plain : crcInverted s link = false)
    (ok : flitOk flit 0x8000 = true) (kind : flitKind flit = 2) : execLinkFlitReceive link slot flit s =
      match linkNak flit with
      | some n => .next ((s.takeLink link flit).takeNak link n)
      | none => .next (s.takeLink link flit) := by
  simp only [execLinkFlitReceive, linkLive_takeFlit, crcInverted_of_flt (flt_takeFlit link flit s), live, plain, ok, kind, BEq.rfl, Bool.not_true,
    Bool.or_self, Bool.and_self, Bool.false_eq_true, if_false]
  rfl

theorem execReplayTimerExpiry_of_held {link : LinkRef} {h : Nat × Nat × List Byte} (live : linkLive s link = true) (free : holding s link = false)
    (first : (linkAt s link).held.head? = some h) (age : Nat) : execReplayTimerExpiry link age s =
      .next (((s.modLink link (fun l => (l.aged age).replay h.1)).replayEvent link).replayLimit link) := by
  simp only [execReplayTimerExpiry, live, free, first, Bool.not_true, Bool.or_self, Bool.false_eq_true, if_false]

/-- The releases that a link flit carries are not what an acknowledgement looks at. -/
theorem LinkEnd.ack_released (seq : Nat) (r : List Nat) (l : LinkEnd) : ({ l with released := r } : LinkEnd).ack seq = { l.ack seq with released := r
    } := by
  unfold LinkEnd.ack
  dsimp only
  split <;> rfl

end Sys2Proof.Machine
end

section
open Sys2Proof Sys2Proof.Machine

/-- Settles O33: each row changes its own end by one function of it (`linkAt_modLink_same`); what else it does, at the far end, over the mesh or with the
collector, leaves that end as it is, or what it has received. -/
theorem linkLayerRowsComplete : Obligations.LinkLayerRowsComplete := by
  refine ⟨?accepted, ?failed, ?linkFlit, ?nak, ?filler, ?timer, ?replay, ?resend, ?held⟩
  case accepted =>
    intro s link slot flit there live free plain ok data room short
    refine ⟨_, execDataFlitReceive_of_accepted live free plain ok data room short, ?_⟩
    have taken := linkAt_takeData there flit
    obtain ⟨expected, clear⟩ := LinkEnd.accept_view (isOptical link) flit (linkAt s link)
    cases lastFlit flit with
    | false =>
      simp only [Bool.false_eq_true, if_false, taken, forall_const, expected, clear, and_self]
    | true =>
      have passed := received_passOn link link (flitVc flit) ((linkAt s link).whole flit) (s.takeData link flit)
      simp only [LinkEnd.received, taken, Prod.mk.injEq] at passed
      obtain ⟨rxExpected, nak, message, released⟩ := passed
      simp only [if_true, Bool.true_eq_false, false_implies, rxExpected, nak, message, released, expected, clear, and_self]
  case failed =>
    intro s link slot flit there live free bad
    refine ⟨_, execDataFlitReceive_of_failed live free bad, ?_⟩
    have before : ∀ u : State, ends u = ends s → linkAt u link = linkAt s link → (linkAt (u.flitFailed link slot) link).nakOutstanding = true
        ∧ (linkAt (u.flitFailed link slot) link).rxExpected = (linkAt s link).rxExpected := fun u sameEnds same =>
      same ▸ linkAt_flitFailed ((hasLink_of_ends sameEnds link).mpr there) slot
    split
    · exact before _ (ends_takeFlit ..) (linkAt_takeFlit ..)
    · exact before _ ((ends_modFar ..).trans (ends_takeFlit ..)) ((linkAt_modFar ..).trans (linkAt_takeFlit ..))
  case linkFlit =>
    intro s link slot flit there live plain ok kind noNak
    refine ⟨s.takeLink link flit, (execLinkFlitReceive_of_good live plain ok kind).trans ?_, linkAt_takeLink there flit⟩
    rw [noNak]
  case nak =>
    intro s link slot flit n l h there live plain ok kind nak free l_ first small
    subst l_
    refine ⟨(s.takeLink link flit).takeNak link n, (execLinkFlitReceive_of_good live plain ok kind).trans (by rw [nak]), ?_⟩
    have has : HasLink (s.takeLink link flit) link := (hasLink_of_ends (ends_takeLink ..) link).mpr there
    have acked : linkAt ((s.takeLink link flit).modLink link (LinkEnd.ack ((n + 16383) % 16384))) link
        = { ((linkAt s link).ack (flitAck flit)).ack ((n + 16383) % 16384) with released := linkReleases flit } := by
      rw [linkAt_modLink_same has, linkAt_takeLink there, LinkEnd.ack_released]
    have replay := LinkEnd.replay_of_held (l := { ((linkAt s link).ack (flitAck flit)).ack ((n + 16383) % 16384) with released := linkReleases flit })
        first n
    have below : ((linkAt ((s.takeLink link flit).modLink link (LinkEnd.ack ((n + 16383) % 16384))) link).replay n).replayCounter < 16 := by
      rw [acked, replay]
      dsimp only [bnat]
      split <;> omega
    unfold State.takeNak
    dsimp only
    rw [holding_takeLink, free, if_neg Bool.false_ne_true, linkAt_replayed ((hasLink_of_ends (ends_modLink ..) link).mpr has) below, acked, replay]
    simp only [bnat, beq_iff_eq, and_self]
  case filler =>
    intro s e slot flit live plain ok kind
    refine ⟨s.takeFlit (.optical e) flit, ?_, rfl⟩
    show execFillerFlitReceive (.optical e) slot flit s = _
    simp only [execFillerFlitReceive, linkLive_takeFlit, crcInverted_of_flt (flt_takeFlit (.optical e) flit s), isOptical, live, plain, ok, kind, BEq.rfl,
      Bool.not_true, Bool.not_false, Bool.or_self, Bool.and_self, Bool.false_eq_true, if_false, if_true]
  case timer =>
    intro s link there live due
    refine ⟨_, if_pos ?_, linkAt_modLink_same there _⟩
    rcases due with h | h <;> simp [live, h]
  case replay =>
    intro s link age h there live free first small
    obtain ⟨a, aged, length, counter⟩ := LinkEnd.aged_held first age
    have replay := LinkEnd.replay_of_held aged h.1
    have below : (((linkAt s link).aged age).replay h.1).replayCounter < 16 := by
      rw [replay, counter]
      simpa [bnat] using small
    refine ⟨_, execReplayTimerExpiry_of_held live free first age, ?_⟩
    dsimp only
    rw [linkAt_replayed there (f := fun l => (l.aged age).replay h.1) below, replay, counter]
    simp only [BEq.rfl, bnat, if_true, length, and_self]
  case resend =>
    intro s link there live out steady
    exact ⟨_, if_pos (by simp [live, out, steady]), linkAt_modLink_same there _⟩
  case held =>
    intro s link slot flit held
    refine ⟨s, if_pos ?_, rfl⟩
    rw [heldBack_takeFlit, held, Bool.or_true]

end

section
/-! A slot of one ring mapped to another (O36): a ring that locks ends the pause of its slot, and with it the pause of the ring that the map names. -/

set_option Elab.async false
namespace Sys2Proof.Machine

/-- An engine that is down, whose ring 0 stands for slot 0, which the slot map gives to ring 1; the slot is paused, and ring 1 with it. -/
def crossedEngine : Engine :=
  { Engine.reset 0 with
    rings := { OeRingRec.reset with state := .searching, slot := 0 } :: { OeRingRec.reset with state := .paused, slot := 0x3F }
      :: List.replicate 70 { OeRingRec.reset with state := .retired }
    tx := { Direction.reset with slotRing := [1], paused := [0] } }

/-- The module at reset but for that engine. -/
def crossed : State := { State.reset with engines := crossedEngine :: (List.range 23).map (fun k => Engine.reset (k + 1)) }

/-- Ring 0 has found its tone at the middle of the window, and no other ring has. -/
def ordersOfRing0 : List (List Nat) := [32768] :: List.replicate 71 []

/-- The state of a ring of engine 0 that a row answers with. -/
def ringAfter (r : Nat) : Host.Outcome State Fault Refusal → Option OeRingState
  | .next t => some (waveRing (engineAt t 0) r).state
  | _ => none

/-- The sweep locks ring 0, which resumes slot 0 and so ring 1, on which the sweep does not act. -/
theorem crossed_ringSweep : ringAfter 1 (exec (.ringSweep 0 ordersOfRing0) crossed) = some .locked := by decide +kernel

theorem crossed_stays : sweeps (engineAt crossed 0) 1 (bestOrder (ordersOfRing0.getD 1 [])).isSome = false := by decide +kernel

end Sys2Proof.Machine
end

section
open Sys2Proof Sys2Proof.Machine

/-- Refutes O36: the clause about RING_SWEEP says of every state that a ring on which the sweep does not act keeps its state; where the slot map
    gives the slot
of a ring that locks to another ring, which is paused, that one is resumed with the slot (R392). -/
theorem not_ringAndSlotRowsComplete : ¬ Obligations.RingAndSlotRowsComplete := by
  intro rows
  obtain ⟨-, -, -, -, -, -, -, -, -, -, -, -, sweep, -⟩ := rows
  obtain ⟨t, answers, -, -, rings⟩ := sweep crossed 0 ordersOfRing0 (by decide) (by rfl) (by rfl) (by rfl)
  have kept : (waveRing (engineAt t 0) 1).state = .paused := (rings 1 (by decide)).1 crossed_stays
  have resumed : (waveRing (engineAt t 0) 1).state = .locked := by simpa [ringAfter, answers] using crossed_ringSweep
  exact absurd (kept.symm.trans resumed) (by decide)

end

section
/-! An attempt that fails by itself as a TRAIN fail arrives (O39): the row then answers the state before it, in which the attempt has not failed. -/

set_option Elab.async false
namespace Sys2Proof.Machine

/-- An engine in the last rate step of bring-up, whose margin tests have found no wavelength at any rate and whose partner has sent TRAIN done. -/
def hopelessEngine : Engine :=
  { Engine.reset 0 with
    state := .training, bringUp := { BringUp.reset with step := 7, partnerDone := true, passing := [[], [], [], []] } }

/-- The module at reset but for that engine. -/
def hopeless : State := { State.reset with engines := hopelessEngine :: (List.range 23).map (fun k => Engine.reset (k + 1)) }

/-- The step and the attempt of bring-up of engine 0 that a row answers with. -/
def bringUpAfter : Host.Outcome State Fault Refusal → Option (Nat × Nat)
  | .next t => some ((engineAt t 0).bringUp.step, (engineAt t 0).bringUp.attempt)
  | _ => none

/-- Its own part of the step done, this end finds no rate and fails the attempt; the row then takes the word for one that came between attempts. -/
theorem hopeless_train_fail : bringUpAfter (exec (.train 0 7 2 0 []) hopeless) = some (7, 0) := by decide +kernel

end Sys2Proof.Machine
end

section
open Sys2Proof Sys2Proof.Machine

/-- Refutes O39: the clause about a TRAIN fail says of every state in training that the attempt fails; where this end is done with step 7 as the word
    arrives,
the partner was before it, and no wavelength passes at any rate, the choice of the rate fails the attempt itself (R426, R427), and the row answers the state
before it, at step 7 of the same attempt. -/
theorem not_bringUpRowsComplete : ¬ Obligations.BringUpRowsComplete := by
  intro rows
  obtain ⟨-, -, -, -, -, -, -, trainFail, -⟩ := rows
  obtain ⟨t, answers, step, -⟩ := trainFail hopeless 0 7 0 (by decide) (by rfl) (by decide) (by decide)
  have stays : (engineAt t 0).bringUp.step = 7 := by
    have after := hopeless_train_fail
    rw [answers] at after
    exact congrArg Prod.fst (Option.some.inj after)
  exact absurd (step.symm.trans stays) (by decide)

end

section
/-! One frame of an optical link (O35): its length and its marker as sent, the counter and the flits that a frame received leaves. -/

set_option Elab.async false
namespace Sys2Proof.Machine
variable {s : State} {e : Nat}

/-- An engine that is not there reads as one at reset, which has not started. -/
theorem engine_there_of_started (started : (engineAt s e).started = true) : e < s.engines.length := by
  by_contra out
  rw [engineAt, List.getD_eq_default _ _ (Nat.le_of_not_lt out)] at started
  exact absurd started (by simp [Engine.reset])

/-! ## The frame that is sent (Table 14-1) -/

theorem LineCode.length_sent_alternate (n : Nat) (c : LineCode) : (c.alternate n).sent.length = n + c.sent.length := by
  induction n generalizing c with
  | zero => simp [LineCode.alternate]
  | succ n ih =>
    rw [LineCode.alternate, ih, List.length_cons]
    omega

/-- A frame has 4,224 bits, and the marker stands behind the first. -/
def Framed (l : List Bool) : Prop := l.length = 4224 ∧ (l.drop 1).take 16 = marker

theorem framed_take {b : Bool} {head rest pad : List Bool} (h : head = b :: marker ++ rest) (fills : 4224 ≤ (head ++ pad).length) :
    Framed ((head ++ pad).take 4224) := by
  subst h
  refine ⟨List.length_take_of_le fills, ?_⟩
  rw [List.drop_take, List.take_take, List.cons_append, List.cons_append, List.drop_one, List.tail_cons, List.append_assoc]
  exact List.take_left' (by decide)

theorem framed_buildFrame (lastBit tb : Bool) (mask : Nat) (w : CtrlWord) (r : BitVec 31) (positions : List (Option (List Bool))) :
    Framed (buildFrame lastBit tb mask w r positions).1 := by
  unfold buildFrame
  extract_lets start c
  refine framed_take (b := !lastBit) (rest := [true] ++ _) (List.append_assoc ..) ?_
  rw [List.length_append, List.length_reverse, LineCode.length_sent_alternate]
  simp only [List.length_nil]
  omega

theorem framed_waveFrame (x : Engine) (words : List (Nat × CtrlWord)) (training : List Bool) (laid : List ((Nat × Nat) × List Byte)) (w : Nat) :
    Framed (waveFrame x words training laid w).1 := by
  unfold waveFrame
  dsimp only
  split
  · exact framed_buildFrame ..
  · exact framed_buildFrame ..

/-- What FRAME_TRANSMIT leaves of the engine: the next frame counter, and one frame of each wavelength in use. -/
theorem engineAt_frameTransmit {e : EngineId} {u : State} (u_eq : u = s.beforeFrame e) (waves : sendingWaves (engineAt u e) ≠ [])
    (started : (engineAt u e).started = true) :
    ∃ t, execFrameTransmit e s = .next t ∧ (engineAt t e).tx.frame = ((engineAt u e).tx.frame + 1) % 65536
      ∧ (engineAt t e).txFrames.length = 36 ∧ (engineAt t e).state = (engineAt u e).state
      ∧ ∀ w ∈ sendingWaves (engineAt u e), w < 36 → Framed ((engineAt t e).txFrames.getD w []) := by
  subst u_eq
  unfold execFrameTransmit
  extract_lets u x used d hello waiting room own words order all voids scr
  have on : ¬(used.isEmpty || !x.started) = true := by simpa [used, x, u] using ⟨waves, started⟩
  rw [if_neg on]
  obtain ⟨fs, link⟩ := LinkEnd.nextFlits d.change.isSome (order.filter (fun q => !voids.contains q)).length x.link
  dsimp -zeta only
  extract_lets laid frame frames
  refine ⟨_, rfl, ?_⟩
  rw [show ∀ t : State, engineAt (t.spend 1) e = engineAt t e from fun _ => rfl, engineAt_modEngine_same (engine_there_of_started started)]
  refine ⟨rfl, by simp [frames], rfl, fun w sends small => ?_⟩
  have one : used.contains w = true := List.contains_iff_mem.mpr sends
  dsimp only
  rw [List.getD_eq_getElem _ _ (by simpa [frames] using small), List.getElem_map, List.getElem_range]
  simp only [frame, one, if_true]
  exact framed_waveFrame ..

/-! ## The frame that is received (R412, R416–R419) -/

/-- The receive direction of an engine and the flits that wait there. -/
def receiving (e : Nat) (s : State) : Direction × List (Nat × List Byte) := ((engineAt s e).rx, (engineAt s e).rxFlits)

theorem receiving_modEngine {f : Engine → Engine} (h : ∀ x, (f x).rx = x.rx ∧ (f x).rxFlits = x.rxFlits) (k e : Nat) (s : State) :
    receiving e (s.modEngine k f) = receiving e s :=
  engineAt_modEngine_view (v := fun x => (x.rx, x.rxFlits)) (f := f) (fun x => by rw [(h x).1, (h x).2]) k e s

theorem receiving_sendWord (k : Nat) (w : CtrlWord) (e : Nat) (s : State) : receiving e (s.sendWord k w) = receiving e s :=
  receiving_modEngine (f := fun x => { x with txWords := x.txWords ++ [(w, 3)] }) (fun _ => ⟨rfl, rfl⟩) k e s

theorem receiving_adaptTaps (k : EngineId) (w frame : Nat) (tb : Bool) (e : Nat) (s : State) :
    receiving e (s.adaptTaps k w frame tb) = receiving e s := by
  unfold State.adaptTaps
  extract_lets x n f ask
  split
  · rfl
  split
  rename_i p a _
  split
  rename_i q b _
  have asked (post : Bool) (action : Option Nat) (t : State) : receiving e (ask post action t) = receiving e t := by
    cases action with
    | none => rfl
    | some k => exact receiving_sendWord ..
  calc receiving e ((ask true b (ask false a _)).spend 1) = receiving e (ask true b (ask false a _)) := rfl
    _ = receiving e s := by
      rw [asked, asked]
      exact receiving_modEngine (fun _ => ⟨by rfl, by rfl⟩) ..

theorem mem_insertBy_of_mem {α : Type} {lt : α → α → Bool} {q : α} (x : α) {l : List α} (there : q ∈ l) : q ∈ insertBy lt x l := by
  induction l with
  | nil => exact absurd there (List.not_mem_nil)
  | cons y l ih =>
    unfold insertBy
    split
    · exact List.mem_cons_of_mem _ there
    · rcases List.mem_cons.mp there with rfl | rest
      · exact List.mem_cons_self
      · exact List.mem_cons_of_mem _ (ih rest)

theorem mem_foldl_putFlit {q : Nat × List Byte} (flits : List (Nat × List Byte)) {l : List (Nat × List Byte)} (there : q ∈ l) :
    q ∈ flits.foldl (fun l q => putFlit q.1 q.2 l) l :=
  List.foldlRecOn (motive := (q ∈ ·)) flits _ there fun _ there _ _ => mem_insertBy_of_mem _ there

/-- Whether a frame shows the marker. -/
def frameFound (l : List Bool) : Bool := (l.drop 1).take 16 == marker

/-- The control field of a frame. -/
def frameControl (l : List Bool) : List Bool := (unstuff (l.drop 18) true 1).take 40

/-- Whether the control field passes its check. -/
def frameGood (l : List Bool) : Bool :=
  (frameControl l).length == 40 && crc8 ((frameControl l).take 32) == ofMsb ((frameControl l).drop 32)

/-- The word of a frame whose marker and check are there. -/
def frameWord (l : List Bool) : Option CtrlWord :=
  if frameFound l && frameGood l then
    some { kind := ofMsb (((frameControl l).drop 5).take 4), payload := ofMsb (((frameControl l).drop 9).take 23) }
  else none

/-- The lock of a wavelength after a frame. -/
def frameLockStep (d : Direction) (w : Nat) (l : List Bool) : Bool × Nat × Nat × Nat :=
  lockStep (frameFound l) (frameGood l) (d.frameLock.getD w false) (d.markerHits.getD w 0) (d.crcHits.getD w 0) (d.markerMiss.getD w 0)

/-- A frame that neither ends the lock of its wavelength nor shows it misaligned: the counter of the direction,
    the missed markers and the flits; then its word
acts. -/
theorem frameReceive_steady {e : EngineId} {f : Fin 2} {l : Fin 18} {bits_ : List Bool} {w : Nat} {d : Direction} (w_eq : w = 18 * f.val + l.val)
    (d_eq : d = (engineAt s e).rx) (started : (engineAt s e).started = true) (long : bits_.length = 4224)
    (locked : (d.frameLock.getD w false && !(frameLockStep d w bits_).1) = false)
    (aligned : misaligned d w (ownCounter d w (frameWord bits_)) (frameWord bits_) = false) :
    ∃ t, ∃ flits : List (Nat × List Byte), execFrameReceive e f l bits_ s = (match frameWord bits_ with
        | some c => if c.kind = 0 ∨ 9 ≤ c.kind then .next t else .next (t.takeNewWord e c)
        | none => .next t)
      ∧ (engineAt t e).rx.frame = (if leads d w then ownCounter d w (frameWord bits_) else d.frame)
      ∧ (engineAt t e).rx.markerMiss = setAt d.markerMiss w (frameLockStep d w bits_).2.2.2
      ∧ (engineAt t e).rxFlits = flits.foldl (fun l q => putFlit q.1 q.2 l) (engineAt s e).rxFlits
      ∧ (frameFound bits_ = false → flits = []) := by
  subst w_eq d_eq
  unfold execFrameReceive
  extract_lets x w d found body ctl good word own frame r slot carries mask pay
  rw [if_neg (by simp [x, started, long])]
  change (d.frameLock.getD w false && !(frameLockStep d w bits_).1) = false at locked
  rw [show lockStep found good (d.frameLock.getD w false) (d.markerHits.getD w 0) (d.crcHits.getD w 0) (d.markerMiss.getD w 0)
    = frameLockStep d w bits_ from rfl]
  generalize frameLockStep d w bits_ = step at locked ⊢
  obtain ⟨held, hits, crcs, miss⟩ := step
  dsimp -zeta only
  extract_lets s1 s2 flits s3 s4
  have runs : s2 = s1 := if_neg (by rw [show (d.frameLock.getD w false && !held) = false from locked]; simp)
  have straight : s4 = s3 := if_neg (by rw [show misaligned d w own word = false from aligned]; simp)
  have there : e.val < s.engines.length := engine_there_of_started started
  have there1 : e.val < s1.engines.length := by simpa [s1, State.modDir, State.modEngine, modAt_length] using there
  have left : receiving e s3 = ({ (engineAt s1 e).rx with frozen := (engineAt s1 e).rx.frozen && flits.all (fun q => flitKind q.2 == 0) },
      flits.foldl (fun l q => putFlit q.1 q.2 l) (engineAt s1 e).rxFlits) := by
    rw [receiving_adaptTaps, runs, receiving, engineAt_modEngine_same there1]
  have first : engineAt s1 e = { x with rx := _ } := engineAt_modEngine_same there _
  rw [first] at left
  refine ⟨s3, flits, ?_, ?_, ?_, congrArg Prod.snd left, fun lost => ?_⟩
  · rw [straight]
    rfl
  · exact congrArg (·.1.frame) left
  · exact congrArg (·.1.markerMiss) left
  · exact if_neg (by rw [show found = false from lost]; simp)

/-- A frame with its marker ends no lock (R412). -/
theorem frameLockStep_of_found {d : Direction} {w : Nat} {l : List Bool} (found : frameFound l = true) :
    (d.frameLock.getD w false && !(frameLockStep d w l).1) = false := by
  unfold frameLockStep
  rw [found]
  cases d.frameLock.getD w false with
  | false => rfl
  | true => rfl

/-- A frame without its marker is one more missed, and up to the fourth in a row ends no lock (R412). -/
theorem frameLockStep_of_missed {d : Direction} {w : Nat} {l : List Bool} (missed : frameFound l = false) (few : d.markerMiss.getD w 0 < 3) :
    (d.frameLock.getD w false && !(frameLockStep d w l).1) = false ∧ (frameLockStep d w l).2.2.2 = d.markerMiss.getD w 0 + 1 := by
  unfold frameLockStep
  rw [missed]
  generalize d.markerMiss.getD w 0 = n at few ⊢
  have small : Nat.min (n + 1) 4 = n + 1 := Nat.min_eq_left (by omega)
  cases d.frameLock.getD w false with
  | false => exact ⟨rfl, small⟩
  | true =>
    refine ⟨?_, small⟩
    simp only [lockStep, Bool.false_eq_true, if_false, if_true, small, Bool.true_and, Bool.not_eq_false', decide_eq_true_eq]
    omega

theorem frameWord_of_missed {l : List Bool} (missed : frameFound l = false) : frameWord l = none := if_neg (by simp [missed])

theorem misaligned_of_leads {d : Direction} {w : Nat} (leading : leads d w = true) (own : Nat) (word : Option CtrlWord) :
    misaligned d w own word = false := by
  cases word with
  | none => rfl
  | some c => simp [misaligned, leading]

end Sys2Proof.Machine
end

section
open Sys2Proof Sys2Proof.Machine

/-- Settles O35: what FRAME_TRANSMIT lays out is `Framed`, and FRAME_RECEIVE is `frameReceive_steady` with a FRAME word of the wavelength that leads,
    or without
a marker. -/
theorem frameRowsComplete : Obligations.FrameRowsComplete := by
  refine ⟨?sent, ?counted, ?missed⟩
  case sent =>
    intro s e u _ u_eq waves started
    exact engineAt_frameTransmit u_eq waves started
  case counted =>
    intro s e f l bits_ ctl _ started long mark ctl_eq full checked frameKind first
    have found : frameFound bits_ = true := by simpa [frameFound] using mark
    have good : frameGood bits_ = true := by simpa [frameGood, frameControl, ← ctl_eq, full] using checked
    have leading : leads (engineAt s e).rx (18 * f.val + l.val) = true := by simpa [leads] using first
    have word : frameWord bits_ = some { kind := 0, payload := ofMsb ((ctl.drop 9).take 23) } := by
      rw [← frameKind]
      subst ctl_eq
      exact if_pos (by rw [found, good]; rfl)
    obtain ⟨t, flits, answers, counter, -, waiting, -⟩ :=
      frameReceive_steady rfl rfl started long (frameLockStep_of_found found) (misaligned_of_leads leading _ _)
    rw [word] at answers counter
    refine ⟨t, answers, ?_, fun q there => waiting ▸ mem_foldl_putFlit flits there⟩
    rw [counter, if_pos leading]
    rfl
  case missed =>
    intro s e f l bits_ _ started long mark there few
    have missed : frameFound bits_ = false := by simpa [frameFound] using mark
    obtain ⟨locked, misses⟩ := frameLockStep_of_missed missed few
    have word := frameWord_of_missed missed
    obtain ⟨t, flits, answers, -, marks, waiting, none⟩ := frameReceive_steady rfl rfl started long locked (by rw [word]; rfl)
    rw [word] at answers
    refine ⟨t, answers, ?_, ?_⟩
    · rw [marks, misses, setAt, getD_modAt_same there]
    · rw [waiting, none missed, List.foldl_nil]

end

section
/-! What the parts of an engine keep while links go down, attempts fail and words wait: the layer that the rows of live changes and of lasers share. -/

set_option Elab.async false
namespace Sys2Proof.Machine
variable {s : State}

/-! ## An engine without its traffic -/

/-- An engine without what messages change of it: its link and its bundles. -/
def Engine.core (x : Engine) : Engine := { x with link := LinkEnd.reset, bundles := [] }

theorem core_modBundle (b : BundleEnd) (f : BundleDir → BundleDir) (k : Nat) (s : State) :
    (engineAt (s.modBundle b f) k).core = (engineAt s k).core := by
  cases b with
  | engine e i => exact engineAt_modEngine_view (v := Engine.core) (f := fun x => { x with bundles := modAt x.bundles i f }) (fun _ => rfl) e k s
  | _ => rfl

theorem core_arrive (f : Flight) (k : Nat) (s : State) : (engineAt (s.arrive f) k).core = (engineAt s k).core := by
  unfold State.arrive
  dsimp only
  split
  · exact engineAt_modEngine_view (v := Engine.core) (fun _ => by rfl) _ k s
  · rfl

theorem core_tryHop {f : Flight} {here : Station} {t : State} (h : s.tryHop f here = some t) (k : Nat) :
    (engineAt t k).core = (engineAt s k).core := by
  unfold State.tryHop at h
  split at h
  · cases h
    exact core_arrive ..
  · split at h
    · cases h
    · split at h
      next b _ =>
        cases h
        exact core_modBundle (f := fun d => { d with link := d.link.queue f.vc f.message }) ..
      next => cases h

theorem core_queueMsg (src : Station) (e : Nat) (m : List Byte) (k : Nat) (s : State) :
    (engineAt (s.queueMsg src e m) k).core = (engineAt s k).core := by
  change (engineAt (s.hop _ src) k).core = _
  unfold State.hop
  split
  next h => exact core_tryHop h k
  next =>
    split
    next h => exact core_tryHop h k
    next => rfl

theorem engineAt_raise {source : Nat} (calm : severityOf source ≠ 3) (data k : Nat) (s : State) : engineAt (s.raise source data) k = engineAt s k :=
  engineAt_of_frame (State.raise_quiet calm) k

/-! ## A link that goes down (R443) -/

/-- Messages aside, a link that goes down is cut. -/
theorem core_linkDown (e k : Nat) (s : State) :
    (engineAt (s.linkDown e) k).core = (engineAt (s.modEngine e (fun y => y.cutLink y.tx.rate)) k).core :=
  State.linkDown_keeps (P := fun t => (engineAt t k).core = (engineAt (s.modEngine e (fun y => y.cutLink y.tx.rate)) k).core) rfl
    (fun _ _ _ calm kept => by rw [engineAt_raise calm]; exact kept) (fun _ _ _ _ kept => (core_queueMsg ..).trans kept) (fun _ _ _ kept => kept)

theorem core_linkDown_same {e : Nat} (there : e < s.engines.length) :
    (engineAt (s.linkDown e) e).core = ((engineAt s e).cutLink (engineAt s e).tx.rate).core := by
  rw [core_linkDown, engineAt_modEngine_same there]

@[simp] theorem Engine.core_state (x : Engine) : x.core.state = x.state := rfl

theorem state_linkDown {e : Nat} (there : e < s.engines.length) : (engineAt (s.linkDown e) e).state = .training := by
  rw [← Engine.core_state, core_linkDown_same there]
  rfl

theorem mem_sticky_queueMsg (x : Nat) (src : Station) (e : Nat) (m : List Byte) (s : State) :
    x ∈ (s.queueMsg src e m).flt.sticky ↔ x ∈ s.flt.sticky := by
  rw [(carries_queueMsg src e m s).view State.flt (fun _ => rfl)]

theorem sticky_linkDown {x : Nat} (e : Nat) (h : x ∈ s.flt.sticky) : x ∈ (s.linkDown e).flt.sticky :=
  State.linkDown_keeps (P := fun t => x ∈ t.flt.sticky) h (fun _ _ _ _ kept => State.mem_raise_sticky.mpr (.inl kept))
    (fun _ _ _ _ kept => (mem_sticky_queueMsg ..).mpr kept) (fun _ _ _ kept => kept)

/-- A link that goes down reports it. -/
theorem linkDown_sticky (e : Nat) (s : State) : srcId 2 e 0x0D ∈ (s.linkDown e).flt.sticky := by
  have rerouted (t : State) (h : srcId 2 e 0x0D ∈ t.flt.sticky) : srcId 2 e 0x0D ∈ (t.reroute e).flt.sticky :=
    List.foldlRecOn (motive := fun u : State => srcId 2 e 0x0D ∈ u.flt.sticky) _ _ h (fun _ kept _ _ => State.mem_raise_sticky.mpr (.inl kept))
  have resent (l : List (Nat × List Byte)) (acc : State × Nat) (h : srcId 2 e 0x0D ∈ acc.1.flt.sticky) :
      srcId 2 e 0x0D ∈ (l.foldl (fun a m => State.resendOrDrop e m.2 m.1 a) acc).1.flt.sticky :=
    List.foldlRecOn (motive := fun a : State × Nat => srcId 2 e 0x0D ∈ a.1.flt.sticky) _ _ h
      (fun _ kept m _ => State.resendOrDrop_keeps (P := fun t => srcId 2 e 0x0D ∈ t.flt.sticky) (fun _ _ _ _ h => (mem_sticky_queueMsg ..).mpr h)
          e m.1 m.2 kept)
  unfold State.linkDown
  extract_lets x msgs start s1 s2
  have down := resent msgs (s2, 0) (rerouted _ (State.mem_raise_sticky.mpr (.inr rfl)))
  dsimp only
  split
  · exact down
  · exact State.mem_raise_sticky.mpr (.inl down)

/-! ## Words, laser inputs and attempts -/

/-- What the queue of words does not bear on stays when a word joins it. -/
theorem engineAt_sendWord_view {β : Type} {v : Engine → β} (h : ∀ x txWords, v { x with txWords } = v x) (e k : Nat) (w : CtrlWord) (s : State) :
    v (engineAt (s.sendWord e w) k) = v (engineAt s k) := engineAt_modEngine_view (fun _ => h _ _) e k s

theorem engineAt_sendWord_same {e : Nat} (there : e < s.engines.length) (w : CtrlWord) :
    (engineAt (s.sendWord e w) e).txWords = (engineAt s e).txWords ++ [(w, 3)] := by
  rw [State.sendWord, engineAt_modEngine_same there]

/-- What the laser inputs do not bear on stays when they go to PROBE. -/
theorem engineAt_probeLasers_view {β : Type} {v : Engine → β} (h : ∀ x lasers, v { x with lasers } = v x) (e k : Nat) (s : State) :
    v (engineAt (s.probeLasers e) k) = v (engineAt s k) :=
  foldl_view (v := fun t => v (engineAt t k)) (fun t f => by
    split
    · rfl
    · exact engineAt_modEngine_view (fun _ => h _ _) e k t) _ s

/-- A failed attempt leaves bring-up between two attempts (R427). -/
theorem bringUp_failAttempt {e : Nat} (there : e < s.engines.length) : (engineAt (s.failAttempt e) e).bringUp
    = { BringUp.reset with attempt := (engineAt s e).bringUp.attempt + 1, partner := (engineAt s e).bringUp.partner } := by
  unfold State.failAttempt
  dsimp only
  rw [engineAt_sendWord_view (v := Engine.bringUp) (fun _ _ => rfl), engineAt_probeLasers_view (v := Engine.bringUp) (fun _ _ => rfl),
    engineAt_modEngine_same there]

theorem failAttempt_flt (e : Nat) (s : State) : (s.failAttempt e).flt = s.flt :=
  (State.failAttempt_frame e s).flt_eq (by decide)

end Sys2Proof.Machine
end

section
/-! Live changes of a direction (O38): maps, rates, widths and taps, up to the frame at which both ends switch. -/

set_option Elab.async false
namespace Sys2Proof.Machine
variable {s : State} {e side : Nat}

/-! ## Engines and directions -/

/-- An engine that is not there reads as one at reset, which is down. -/
theorem engine_there_of_state (live : (engineAt s e).state ≠ .down) : e < s.engines.length := by
  by_contra out
  rw [engineAt, List.getD_eq_default _ _ (Nat.le_of_not_lt out)] at live
  exact live rfl

theorem takesWords_cases {x : Engine} : takesWords x = true ↔ x.state = .up ∨ x.state = .training := by simp [takesWords]

theorem engine_there_of_takesWords (takes : takesWords (engineAt s e) = true) : e < s.engines.length :=
  engine_there_of_state fun down => by simp [takesWords, down] at takes

@[simp] theorem dirOf_modDir (side : Nat) (f : Direction → Direction) (x : Engine) : dirOf (x.modDir side f) side = f (dirOf x side) := by
  unfold dirOf Engine.modDir
  split <;> rfl

/-- What neither direction bears on stays when one of them changes. -/
theorem Engine.modDir_view {β : Type} {v : Engine → β} (h : ∀ x tx rx, v { x with tx, rx } = v x) (side : Nat) (f : Direction → Direction) (x : Engine) :
    v (x.modDir side f) = v x := by
  unfold Engine.modDir
  split
  · exact h x _ x.rx
  · exact h x x.tx _

theorem dirOf_modDir_same (there : e < s.engines.length) (f : Direction → Direction) :
    dirOf (engineAt (s.modDir e side f) e) side = f (dirOf (engineAt s e) side) := by
  rw [State.modDir, engineAt_modEngine_same there, dirOf_modDir]

theorem dirOf_sendWord (e k side : Nat) (w : CtrlWord) (s : State) : dirOf (engineAt (s.sendWord e w) k) side = dirOf (engineAt s k) side :=
  engineAt_sendWord_view (v := (dirOf · side)) (fun _ _ => rfl) e k w s

theorem there_modEngine (there : e < s.engines.length) (k : Nat) (f : Engine → Engine) : e < (s.modEngine k f).engines.length := by
  simpa [State.modEngine, modAt_length] using there

theorem there_modDir (there : e < s.engines.length) (k side : Nat) (f : Direction → Direction) : e < (s.modDir k side f).engines.length :=
  there_modEngine there ..

/-- A word after a change of the direction that this engine sends. -/
theorem engineAt_modTx_sendWord (there : e < s.engines.length) (f : Direction → Direction) (w : CtrlWord) :
    engineAt ((s.modDir e 0 f).sendWord e w) e
      = { engineAt s e with tx := f (engineAt s e).tx, txWords := (engineAt s e).txWords ++ [(w, 3)] } := by
  rw [State.sendWord, State.modDir, engineAt_modEngine_same (there_modEngine there e _), engineAt_modEngine_same there]
  rfl

/-! ## Taps (R420-R422) -/

/-- What the taps do not bear on stays when they take those of a rate step. -/
theorem engineAt_rateTaps_view {β : Type} {v : Engine → β} (h : ∀ x ffe, v { x with ffe } = v x) (e old new k : Nat) (s : State) :
    v (engineAt (s.rateTaps e old new) k) = v (engineAt s k) := by
  unfold State.rateTaps
  split
  · refine foldl_view (v := fun t => v (engineAt t k)) (fun t w => ?_) _ s
    dsimp only
    split
    · exact engineAt_modEngine_view (fun _ => h _ _) ..
    · rw [engineAt_raise (by decide)]
      exact engineAt_modEngine_view (fun _ => h _ _) ..
  · exact engineAt_modEngine_view (fun _ => h _ _) ..

/-! ## The switch (R446) -/

/-- A direction that has switched to a change. -/
structure Direction.Switched (side : Nat) (c : LiveChange) (training : Bool) (d d' : Direction) : Prop where
  width : d'.width = c.width
  rate : d'.rate = c.rate
  change : d'.change = some { c with switched := true }
  deferred : d'.deferred = d.deferred
  paused : d'.paused.length ≤ d.paused.length
  frame : training = false → d'.frame = d.frame
  frameLock : c.rateChange = true → side = 1 → d'.frameLock = List.replicate 36 false

/-- A direction at the frame of its change. -/
def Direction.switchTo (side : Nat) (c : LiveChange) (training : Bool) (d : Direction) : Direction :=
  let taken := { (d.takeMaps d.maps) with
    width := c.width, rate := c.rate, paused := d.paused.filter (fun k => decide (k < c.width) && !d.maps.any (fun x => x.1 == k)),
    change := some { c with switched := true } }
  let locked := if c.rateChange then taken.rateSwitch side else taken
  let counted := if c.rateChange && training then locked.restart side else locked
  if side = 0 then { counted with switched := (counted.slotRing.take c.width).map (fun w => (w, counted.frame)) } else counted

theorem Direction.switched_switchTo (side : Nat) (c : LiveChange) (training : Bool) (d : Direction) :
    d.Switched side c training (d.switchTo side c training) := by
  unfold Direction.switchTo
  extract_lets maps taken locked counted
  have held : d.Switched side c false locked := by
    have few : taken.paused.length ≤ d.paused.length := List.length_filter_le ..
    unfold locked
    split
    · exact ⟨rfl, rfl, rfl, rfl, few, fun _ => rfl, fun _ receives => if_pos receives⟩
    · exact ⟨rfl, rfl, rfl, rfl, few, fun _ => rfl, fun rates => absurd rates ‹_›⟩
  have first : d.Switched side c training counted := by
    unfold counted
    split
    · rename_i restarts
      exact { held with frame := fun other => by simp [other] at restarts }
    · exact { held with frame := fun _ => held.frame rfl }
  split
  · exact ⟨first.width, first.rate, first.change, first.deferred, first.paused, first.frame, first.frameLock⟩
  · exact first

/-- A change that switches: the direction, and the rings that carry its slots. -/
theorem engineAt_switchChange (there : e < s.engines.length) (c : LiveChange) : engineAt (s.switchChange e side c) e
    = ((engineAt s e).modDir side (Direction.switchTo side c ((engineAt s e).state == .training))).settleRings side := by
  have settled : engineAt ((s.modDir e side (Direction.switchTo side c ((engineAt s e).state == .training))).modEngine e (Engine.settleRings side)) e
      = ((engineAt s e).modDir side (Direction.switchTo side c ((engineAt s e).state == .training))).settleRings side := by
    rw [State.modDir, engineAt_modEngine_same (there_modEngine there e _), engineAt_modEngine_same there]
  unfold State.switchChange
  dsimp only
  split
  · split
    · exact (engineAt_raise (calm_src (by decide) (by decide)) ..).trans settled
    · exact (engineAt_of_frame (State.raiseOnce_frame ..) e).trans ((engineAt_raise (calm_src (by decide) (by decide)) ..).trans settled)
  · exact settled

/-- A direction at its effective frame: the switch, and the taps of a new rate step. -/
def State.switchDirection (e side : Nat) (c : LiveChange) (s : State) : State :=
  if !c.rateChange then s.switchChange e side c
  else if side = 0 then (s.switchChange e side c).rateTaps e (engineAt s e).tx.rate c.rate
  else (s.switchChange e side c).modEngine e (fun x => { x with ffe := x.ffe.map Ffe.anew })

theorem execEffectiveFrame_switch {e : EngineId} {dir : Bool} {side : Nat} {c : LiveChange} (side_eq : side = bnat dir)
    (takes : takesWords (engineAt s e) = true) (change : (dirOf (engineAt s e) side).change = some c) (fresh : c.switched = false)
    (due : reached (engineAt s e) side c.effective 65536 = true) : execEffectiveFrame e dir s
      = if (engineAt s e).state = .training then .next ((s.switchDirection e side c).directionSet e side)
        else if c.rateChange then .next (s.switchDirection e side c) else .next ((s.switchDirection e side c).endChange e side) := by
  subst side_eq
  simp only [execEffectiveFrame, takes, change, fresh, due, Bool.not_true, Bool.false_eq_true, if_false]
  rfl

/-- What neither the taps nor the rings bear on is that of the engine whose direction has switched. -/
theorem engineAt_switchDirection_view {β : Type} {v : Engine → β} (taps : ∀ x ffe, v { x with ffe } = v x) (rings : ∀ x rings, v { x with rings } = v x)
    (there : e < s.engines.length) (c : LiveChange) : v (engineAt (s.switchDirection e side c) e)
      = v ((engineAt s e).modDir side (Direction.switchTo side c ((engineAt s e).state == .training))) := by
  have switched : v (engineAt (s.switchChange e side c) e) = v ((engineAt s e).modDir side (Direction.switchTo side c ((engineAt s e).state ==
      .training))) := by
    rw [engineAt_switchChange there]
    exact rings _ _
  unfold State.switchDirection
  split
  · exact switched
  · split
    · exact (engineAt_rateTaps_view taps ..).trans switched
    · exact (engineAt_modEngine_view (fun _ => taps _ _) ..).trans switched

theorem dirOf_switchDirection (there : e < s.engines.length) (c : LiveChange) : dirOf (engineAt (s.switchDirection e side c) e) side
    = (dirOf (engineAt s e) side).switchTo side c ((engineAt s e).state == .training) := by
  rw [engineAt_switchDirection_view (v := (dirOf · side)) (fun _ _ => rfl) (fun _ _ => rfl) there, dirOf_modDir]

theorem there_switchDirection (there : e < s.engines.length) (live : (engineAt s e).state ≠ .down) (c : LiveChange) :
    e < (s.switchDirection e side c).engines.length := by
  refine engine_there_of_state fun down => live ?_
  rwa [engineAt_switchDirection_view (v := Engine.state) (fun _ _ => rfl) (fun _ _ => rfl) there,
    Engine.modDir_view (v := Engine.state) (fun _ _ _ => rfl)] at down

/-! ## The end of a change (R446, R447) -/

/-- A change that ends, before anything that waited for its end. -/
def State.closeChange (e side : Nat) (s : State) : State :=
  let s1 := s.modDir e side (fun d => { d with change := none })
  if side = 0 then s1.modEngine e Engine.resumeSending
  else
    let s2 := s1.modEngine e (fun x => { x with link := x.link.lateNak })
    if changesRate (engineAt s e).rx then s2.sendWord e (trainWord 8 1 (engineAt s1 e).rx.rate) else s2

theorem dirOf_closeChange (there : e < s.engines.length) : dirOf (engineAt (s.closeChange e side) e) side
    = { dirOf (engineAt s e) side with change := none } := by
  unfold State.closeChange
  extract_lets s1 s2
  have first : dirOf (engineAt s1 e) side = { dirOf (engineAt s e) side with change := none } := dirOf_modDir_same there _
  have nak : dirOf (engineAt s2 e) side = { dirOf (engineAt s e) side with change := none } :=
    (engineAt_modEngine_view (v := (dirOf · side)) (fun _ => by rfl) ..).trans first
  split
  · exact (engineAt_modEngine_view (v := (dirOf · side)) (fun _ => by rfl) ..).trans first
  · split
    · rw [dirOf_sendWord, nak]
    · exact nak

/-- With nothing that waits and at most four slots paused, a change that ends brings nothing more about. -/
theorem endChange_eq_closeChange (there : e < s.engines.length) (nothing : (dirOf (engineAt s e) side).deferred = [])
    (few : (dirOf (engineAt s e) side).paused.length ≤ 4) : s.endChange e side = s.closeChange e side := by
  have closed := dirOf_closeChange (side := side) there
  change (if 4 < (dirOf (engineAt (s.closeChange e side) e) side).paused.length ∧ (dirOf (engineAt (s.closeChange e side) e) side).deferred = []
    then (s.closeChange e side).retrain e side else (s.closeChange e side).startDeferred e side) = _
  rw [closed, if_neg (fun many => absurd many.1 (Nat.not_lt.mpr few)), State.startDeferred, closed]
  dsimp only
  rw [nothing]

/-- The receiver says that its rate change is done (R446). -/
theorem txWords_closeChange_rx (there : e < s.engines.length) (rates : changesRate (engineAt s e).rx = true) :
    (engineAt (s.closeChange e 1) e).txWords = (engineAt s e).txWords ++ [(trainWord 8 1 (engineAt s e).rx.rate, 3)] := by
  have first : engineAt (s.modDir e 1 (fun d => { d with change := none })) e
      = { engineAt s e with rx := { (engineAt s e).rx with change := none } } := engineAt_modEngine_same there _
  unfold State.closeChange
  dsimp only
  rw [if_neg (by decide), if_pos rates, engineAt_sendWord_same (there_modEngine (there_modDir there e 1 _) e _), first,
    engineAt_modEngine_view (v := Engine.txWords) (fun _ => by rfl), first]

/-! ## A link that comes up (R425, R438) -/

theorem engineAt_linkUp (there : e < s.engines.length) : (engineAt (s.linkUp e) e).state = .up
    ∧ (engineAt (s.linkUp e) e).link = (engineAt s e).link.cleared
    ∧ ∀ side, (dirOf (engineAt (s.linkUp e) e) side).width = (dirOf (engineAt s e) side).width
      ∧ (dirOf (engineAt (s.linkUp e) e) side).rate = (dirOf (engineAt s e) side).rate := by
  unfold State.linkUp
  extract_lets h stale start s1 s2 s3 s4
  have learned : engineAt s3 e = engineAt s1 e := by
    have unlearned : engineAt s2 e = engineAt s1 e :=
      foldl_view (v := fun t => engineAt t e) (fun t r => engineAt_of_frame (State.unlearn_frame ..) e) stale s1
    unfold s3
    clear_value h
    split
    · exact (engineAt_of_frame (State.learn_frame ..) e).trans unlearned
    · exact unlearned
  have served : engineAt s4 e = engineAt s1 e :=
    (engineAt_of_frame (State.runService_frame ..) e).trans ((engineAt_of_frame (State.runService_frame ..) e).trans learned)
  have up : ∀ restored, (restored = s4 ∨ restored = s4.reroute e) → engineAt (restored.atStep 8) e = engineAt s1 e := by
    rintro restored (rfl | rfl)
    · exact (engineAt_of_frame (State.atStep_frame ..) e).trans served
    · exact (engineAt_of_frame (State.atStep_frame ..) e).trans ((engineAt_of_frame (State.reroute_frame ..) e).trans served)
  rw [up _ (by split <;> simp), engineAt_modEngine_same there]
  refine ⟨rfl, rfl, fun side => ?_⟩
  unfold dirOf
  split <;> exact ⟨rfl, rfl⟩

/-- Both directions set, the link is up (R425, R426). -/
theorem directionSet_of_both (there : e < s.engines.length) {b : BringUp} (b_eq : b = (engineAt s e).bringUp)
    (other : (if side = 0 then b.rxSet else b.txSet) = true) :
    (engineAt (s.directionSet e side) e).state = .up ∧ (engineAt (s.directionSet e side) e).link = (engineAt s e).link.cleared
      ∧ (dirOf (engineAt (s.directionSet e side) e) side).width = (dirOf (engineAt s e) side).width
      ∧ (dirOf (engineAt (s.directionSet e side) e) side).rate = (dirOf (engineAt s e) side).rate := by
  subst b_eq
  unfold State.directionSet
  extract_lets s1 b
  have set : engineAt s1 e = ((engineAt s e).modDir side (fun d => { d with change := none })).bringSet side := engineAt_modEngine_same there _
  have both : (b.rxSet && b.txSet) = true := by
    have kept := Engine.modDir_view (v := Engine.bringUp) (fun _ _ _ => rfl) side (fun d => { d with change := none }) (engineAt s e)
    unfold b
    rw [set, Engine.bringSet, kept]
    split <;> simp_all
  have dir : dirOf (engineAt s1 e) side = { dirOf (engineAt s e) side with change := none } := by
    rw [set, show ∀ x : Engine, dirOf (x.bringSet side) side = dirOf x side from fun _ => rfl, dirOf_modDir]
  have link : (engineAt s1 e).link = (engineAt s e).link := by
    rw [set]
    exact Engine.modDir_view (v := Engine.link) (fun _ _ _ => rfl) ..
  obtain ⟨up, cleared, dirs⟩ := engineAt_linkUp (there_modEngine there e _ : e < s1.engines.length)
  obtain ⟨width, rate⟩ := dirs side
  rw [if_pos both, up, cleared, link, width, rate, dir]
  exact ⟨rfl, rfl, rfl, rfl⟩

/-! ## Maps (R394, R417) -/

theorem slotRing_switchMaps (there : e < s.engines.length) : (dirOf (engineAt (s.switchMaps e side) e) side).slotRing
    = (dueMaps (dirOf (engineAt s e) side)).foldl (fun m x => setAt m x.1 x.2.1) (dirOf (engineAt s e) side).slotRing := by
  unfold State.switchMaps
  extract_lets l s1
  have taken : (dirOf (engineAt s1 e) side).slotRing = l.foldl (fun m x => setAt m x.1 x.2.1) (dirOf (engineAt s e) side).slotRing := by
    unfold s1
    rw [engineAt_modEngine_same (there_modDir there ..), show ∀ x : Engine, dirOf (x.settleRings side) side = dirOf x side from fun _ => rfl,
      dirOf_modDir_same there]
    rfl
  split
  · exact (foldl_view (v := fun t => (dirOf (engineAt t e) side).slotRing)
      (fun t m => by rw [engineAt_of_frame (State.raiseWave_quiet (by decide) (by decide))]) l s1).trans taken
  · exact taken

theorem execEffectiveFrame_maps {e : EngineId} {dir : Bool} {side : Nat} {m : Nat × Nat × Nat} (side_eq : side = bnat dir)
    (takes : takesWords (engineAt s e) = true) (still : (dirOf (engineAt s e) side).change = none)
    (head : (dirOf (engineAt s e) side).maps.head? = some m) (due : reached (engineAt s e) side m.2.2 2048 = true) :
    execEffectiveFrame e dir s = .next (s.switchMaps e side) := by
  subst side_eq
  obtain ⟨rest, maps⟩ := List.head?_eq_some_iff.mp head
  simp only [execEffectiveFrame, takes, still, maps, due, Bool.not_true, Bool.false_eq_true, if_false, if_true]

/-- What MAP adds to a direction. -/
theorem dirOf_onMap {e : EngineId} {slot : Fin 32} {dir : Bool} {f : Fin 2} {l : Fin 18} {eff side : Nat} (takes : takesWords (engineAt s e) = true)
    (side_eq : side = sideOfDir dir) : dirOf (engineAt (s.onMap e slot dir f l eff) e) side
      = if (dirOf (engineAt s e) side).maps.any (fun x => x.1 == slot.val && x.2.1 == 18 * f.val + l.val) then dirOf (engineAt s e) side
        else { dirOf (engineAt s e) side with maps := (dirOf (engineAt s e) side).maps ++ [(slot.val, 18 * f.val + l.val, eff % 2048)] } := by
  subst side_eq
  unfold State.onMap
  dsimp only
  rw [if_neg (by simp [takes])]
  split
  · rw [dirOf_sendWord, dirOf_modDir_same (engine_there_of_takesWords takes)]
  · rw [dirOf_modDir_same (engine_there_of_takesWords takes)]

/-! ## Rates and widths (R446) -/

theorem onRateWidth_of_free {e : EngineId} {rate width : Fin 4} {eff : Nat} (takes : takesWords (engineAt s e) = true)
    (free : (engineAt s e).tx.change = none) (allowed : rateAllowed (engineAt s e).bringUp rate = true) : s.onRateWidth e rate width true eff
      = (s.modDir e 0 (fun d => { d with change := some ⟨rate, widthOfCode width, eff % 65536, decide (rate.val ≠ d.rate), false⟩ })).sendWord e
        (rateWord rate width 0 eff) := by
  unfold State.onRateWidth
  dsimp only
  rw [if_neg (by simp [takes, allowed]), if_neg (by simp [free])]

theorem onRateWidth_of_busy {e : EngineId} {rate width : Fin 4} {eff : Nat} {c : LiveChange} (takes : takesWords (engineAt s e) = true)
    (busy : (engineAt s e).tx.change = some c) (allowed : rateAllowed (engineAt s e).bringUp rate = true) : s.onRateWidth e rate width true eff
      = s.modDir e 0 (fun d => { d with deferred := d.deferred ++ [(rate.val, widthOfCode width, eff % 65536)] }) := by
  unfold State.onRateWidth
  dsimp only
  rw [if_neg (by simp [takes, allowed]), if_pos (by simp [busy])]

theorem execLiveChangeTimeout_of_change {e : EngineId} {dir : Bool} (changing : (dirOf (engineAt s e) (bnat dir)).change.isSome = true) :
    execLiveChangeTimeout e dir s = match (engineAt s e).state with
      | .up => .next ((s.raise (srcId 2 e 0x12) (bnat dir)).linkDown e)
      | .training => .next ((s.raise (srcId 2 e 0x12) (bnat dir)).failAttempt e)
      | _ => .next s := by
  unfold execLiveChangeTimeout
  dsimp only
  exact if_neg (by cases change : (dirOf (engineAt s e) (bnat dir)).change <;> simp_all)

/-- A request for a step of a tap that is honoured (R420-R422). -/
theorem onFfeReq_of_honoured {e : EngineId} {ring : Fin 36} {post : Bool} {action : Nat} (takes : takesWords (engineAt s e) = true)
    (honoured : isForerunner (engineAt s e).bringUp = false) (known : action ≤ 2) : s.onFfeReq e ring post action
      = (s.modEngine e (fun x => { x with ffe := setAt x.ffe ring (((engineAt s e).ffe.getD ring Ffe.reset).move post action) })).sendWord e
        (ffeAckWord ring (((engineAt s e).ffe.getD ring Ffe.reset).move post action)) := by
  unfold State.onFfeReq
  dsimp only
  rw [if_neg (by simp [takes, honoured, known])]

/-- The partner's taps as it reports them (R421). -/
theorem onFfeAck_of_honoured {e : EngineId} {ring : Fin 36} {pre post : Nat} {limit : Bool} (takes : takesWords (engineAt s e) = true)
    (honoured : isForerunner (engineAt s e).bringUp = false) : s.onFfeAck e ring pre post limit
      = s.modEngine e (fun x => { x with ffe := modAt x.ffe ring (fun f => { f with partnerPre := pre, partnerPost := post }) }) := by
  unfold State.onFfeAck
  dsimp only
  rw [if_neg (by simp [takes, honoured])]

theorem calm_liveChange (e : Nat) : severityOf (srcId 2 e 0x12) ≠ 3 := calm_src (by decide) (by decide)

theorem there_raise {source : Nat} (calm : severityOf source ≠ 3) (there : e < s.engines.length) (data : Nat) :
    e < (s.raise source data).engines.length := by
  rwa [engines_length_of_panel (panel_raise calm data s)]

end Sys2Proof.Machine
end

section
open Sys2Proof Sys2Proof.Machine

/-- Settles O38: the words through what they leave of the direction and of the queue, the frame through `State.switchDirection`, `State.closeChange` and
`State.linkUp`. -/
theorem liveChangeRowsComplete : Obligations.LiveChangeRowsComplete := by
  refine ⟨?newMap, ?oldMap, ?change, ?waits, ?width, ?rate, ?bringUp, ?maps, ?timeoutUp, ?timeoutTraining, ?request, ?report, ?idle, ?block, ?rateEnd,
    ?early⟩
  case newMap =>
    intro s e slot dir f l eff side _ takes side_eq fresh
    refine ⟨_, rfl, ?_⟩
    dsimp only
    rw [dirOf_onMap takes side_eq, if_neg (by simp [fresh])]
    exact ⟨rfl, rfl⟩
  case oldMap =>
    intro s e slot dir f l eff side takes side_eq known
    refine ⟨_, rfl, ?_⟩
    dsimp only
    rw [dirOf_onMap takes side_eq, if_pos known]
  case change =>
    intro s e rate width eff there takes free allowed
    refine ⟨_, congrArg Host.Outcome.next (onRateWidth_of_free takes free allowed), ?_⟩
    dsimp only
    rw [engineAt_modTx_sendWord there]
    exact ⟨rfl, rfl, rfl, rfl⟩
  case waits =>
    intro s e rate width eff c there takes busy allowed
    refine ⟨_, congrArg Host.Outcome.next (onRateWidth_of_busy takes busy allowed), ?_⟩
    dsimp only
    rw [State.modDir, engineAt_modEngine_same there]
    exact ⟨busy, rfl, rfl⟩
  case width =>
    intro s e dir c side there side_eq up change fresh same due nothing few
    have there1 := there_switchDirection (side := side) there (by rw [up]; decide) c
    have switched := (dirOf (engineAt s e) side).switched_switchTo side c ((engineAt s e).state == .training)
    rw [← dirOf_switchDirection there] at switched
    refine ⟨(s.switchDirection e side c).closeChange e side,
      (execEffectiveFrame_switch side_eq (takesWords_cases.mpr (.inl up)) change fresh due).trans ?_, ?_⟩
    · rw [if_neg (by rw [up]; decide), if_neg (by simp [same]),
        endChange_eq_closeChange there1 (switched.deferred.trans nothing) (switched.paused.trans few)]
    · dsimp only
      rw [dirOf_closeChange there1]
      exact ⟨switched.width, switched.rate, rfl⟩
  case rate =>
    intro s e dir c side there side_eq up change fresh rates due
    have switched := (dirOf (engineAt s e) side).switched_switchTo side c ((engineAt s e).state == .training)
    rw [← dirOf_switchDirection there] at switched
    refine ⟨_, (execEffectiveFrame_switch side_eq (takesWords_cases.mpr (.inl up)) change fresh due).trans ?_, switched.width, switched.rate,
      switched.frame (by rw [up]; rfl), switched.frameLock rates, switched.change⟩
    rw [if_neg (by rw [up]; decide), if_pos rates]
  case bringUp =>
    intro s e dir c side there side_eq training change fresh due other
    have there1 := there_switchDirection (side := side) there (by rw [training]; decide) c
    have switched := (dirOf (engineAt s e) side).switched_switchTo side c ((engineAt s e).state == .training)
    rw [← dirOf_switchDirection there] at switched
    have kept : (engineAt (s.switchDirection e side c) e).bringUp = (engineAt s e).bringUp :=
      (engineAt_switchDirection_view (v := Engine.bringUp) (fun _ _ => rfl) (fun _ _ => rfl) there c).trans
        (Engine.modDir_view (v := Engine.bringUp) (fun _ _ _ => rfl) ..)
    obtain ⟨up, cleared, width, rate⟩ := directionSet_of_both (side := side) there1 kept.symm other
    refine ⟨_, (execEffectiveFrame_switch side_eq (takesWords_cases.mpr (.inr training)) change fresh due).trans (if_pos training), up,
      width.trans switched.width, rate.trans switched.rate, ?_⟩
    rw [cleared]
    exact ⟨rfl, rfl⟩
  case maps =>
    intro s e dir side m there side_eq takes still head due
    exact ⟨_, execEffectiveFrame_maps side_eq takes still head due, slotRing_switchMaps there⟩
  case timeoutUp =>
    intro s e dir there changing up
    refine ⟨_, (execLiveChangeTimeout_of_change changing).trans (by rw [up]), ?_, sticky_linkDown e (State.mem_raise_sticky.mpr (.inr rfl)),
      linkDown_sticky ..⟩
    exact state_linkDown (there_raise (calm_liveChange e) there _)
  case timeoutTraining =>
    intro s e dir there changing training
    refine ⟨_, (execLiveChangeTimeout_of_change changing).trans (by rw [training]), ?_⟩
    dsimp only
    rw [bringUp_failAttempt (there_raise (calm_liveChange e) there _), engineAt_raise (calm_liveChange e), failAttempt_flt]
    exact ⟨rfl, rfl, State.mem_raise_sticky.mpr (.inr rfl)⟩
  case request =>
    intro s e ring post action there tap takes honoured known
    refine ⟨_, congrArg Host.Outcome.next (onFfeReq_of_honoured takes honoured known), ?_⟩
    dsimp only
    rw [State.sendWord, engineAt_modEngine_same (there_modEngine there e _), engineAt_modEngine_same there]
    exact ⟨getD_modAt_same tap _ _, rfl⟩
  case report =>
    intro s e ring pre post limit there tap takes honoured
    refine ⟨_, congrArg Host.Outcome.next (onFfeAck_of_honoured takes honoured), ?_⟩
    dsimp only
    rw [engineAt_modEngine_same there]
    dsimp only
    rw [getD_modAt_same tap]
    exact ⟨rfl, rfl, rfl⟩
  case idle =>
    intro s e there up
    exact ⟨_, if_pos up, congrArg Engine.rx (engineAt_modEngine_same there _)⟩
  case block =>
    intro s e ring there up locked carries
    refine ⟨_, if_pos ⟨up, locked, carries⟩, ?_⟩
    dsimp only
    rw [State.modDir, engineAt_modEngine_same there]
    exact ⟨mem_addOnce.mpr (.inr rfl), rfl⟩
  case rateEnd =>
    intro s e c there up change switched rates locked nothing few
    have closed : execEffectiveFrame e true s = .next (s.closeChange e 1) := by
      rw [← endChange_eq_closeChange (side := 1) there nothing few]
      have change' : (dirOf (engineAt s e) (bnat true)).change = some c := change
      simp only [execEffectiveFrame, takesWords_cases.mpr (.inl up), change', switched, locked, Bool.not_true, Bool.false_eq_true, if_false, if_true]
      rfl
    exact ⟨_, closed, congrArg Direction.change (dirOf_closeChange (side := 1) there),
      txWords_closeChange_rx there (by simp [changesRate, change, rates])⟩
  case early =>
    intro s e dir c side side_eq change fresh early
    subst side_eq
    refine ⟨s, ?_, rfl⟩
    show execEffectiveFrame e dir s = _
    simp only [execEffectiveFrame, change, fresh, early, Bool.not_false, Bool.false_eq_true, if_false, if_true, ite_self]

end

section
/-! Laser inputs and their sources (O37): what a wavelength that fails keeps of its engine, and what the row of a source does to each engine of its port. -/

set_option Elab.async false
namespace Sys2Proof.Machine
variable {s t u : State} {e k : Nat}

@[simp] theorem Engine.core_lasers (x : Engine) : x.core.lasers = x.lasers := rfl
@[simp] theorem Engine.core_rings (x : Engine) : x.core.rings = x.rings := rfl
@[simp] theorem Engine.core_elsPresent (x : Engine) : x.core.elsPresent = x.elsPresent := rfl
@[simp] theorem Engine.core_bringUp (x : Engine) : x.core.bringUp = x.bringUp := rfl

/-! ## What a wavelength that fails keeps (R394-R397) -/

/-- A state of a ring that carries nothing. -/
def OeRingRec.out (q : OeRingRec) : Prop := q.state = .retired ∨ q.state = .failed ∨ q.state = .dark

/-- An engine that keeps its laser inputs, and the rings that carry nothing as such. -/
structure Engine.Keeps (x y : Engine) : Prop where
  lasers : y.lasers = x.lasers
  count : y.rings.length = x.rings.length
  rings : ∀ r, (waveRing x r).out → (waveRing y r).out

theorem Engine.Keeps.refl (x : Engine) : x.Keeps x := ⟨rfl, rfl, fun _ h => h⟩

theorem Engine.Keeps.trans {x y z : Engine} (h : x.Keeps y) (k : y.Keeps z) : x.Keeps z :=
  ⟨k.lasers.trans h.lasers, k.count.trans h.count, fun r out => k.rings r (h.rings r out)⟩

theorem Engine.Keeps.of_eq {x y : Engine} (lasers : y.lasers = x.lasers) (rings : y.rings = x.rings) : x.Keeps y :=
  ⟨lasers, by rw [rings], fun r out => by rwa [waveRing, rings]⟩

theorem Engine.keeps_modRing {x : Engine} {f : OeRingRec → OeRingRec} (h : ∀ q, q.out → (f q).out) (r : Nat) :
    x.Keeps { x with rings := modAt x.rings r f } := by
  refine ⟨rfl, modAt_length .., fun j out => ?_⟩
  unfold waveRing at out ⊢
  rw [getD_modAt]
  split
  · exact h _ out
  · exact out

/-- A state whose engine e keeps its laser inputs and its rings that carry nothing, and whose registers keep every source they show. -/
structure State.Keeps (e : Nat) (s t : State) : Prop where
  count : t.engines.length = s.engines.length
  engine : (engineAt s e).Keeps (engineAt t e)
  sticky : ∀ x ∈ s.flt.sticky, x ∈ t.flt.sticky

theorem State.Keeps.refl (e : Nat) (s : State) : State.Keeps e s s := ⟨rfl, .refl _, fun _ h => h⟩

theorem State.Keeps.trans (h : State.Keeps e s t) (k : State.Keeps e t u) : State.Keeps e s u :=
  ⟨k.count.trans h.count, h.engine.trans k.engine, fun x there => k.sticky x (h.sticky x there)⟩

theorem State.Keeps.ite {c : Prop} [Decidable c] (h : State.Keeps e s t) (k : State.Keeps e s u) : State.Keeps e s (if c then t else u) := by
  split <;> assumption

theorem keeps_modEngine {f : Engine → Engine} (h : ∀ x : Engine, x.Keeps (f x)) (k : Nat) (s : State) : State.Keeps e s (s.modEngine k f) := by
  refine ⟨modAt_length .., ?_, fun _ there => there⟩
  change (s.engines.getD e (Engine.reset e)).Keeps ((modAt s.engines k f).getD e (Engine.reset e))
  rw [getD_modAt]
  split
  · exact h _
  · exact .refl _

theorem keeps_of_frame {ps : List Part} (h : Frame ps s t) (out : ∀ p ∈ [Part.engines, .flt, .stop], p ∉ ps := by decide) : State.Keeps e s t := by
  have engines : t.engines = s.engines := h.exact (out .stop (by decide)) (p := .engines) (out .engines (by decide))
  exact ⟨by rw [engines], .of_eq (by rw [engineAt, engineAt, engines]) (by rw [engineAt, engineAt, engines]),
    fun x there => by rwa [h.flt_eq (out .flt (by decide))]⟩

theorem keeps_raise {source : Nat} (calm : severityOf source ≠ 3) (data : Nat) (s : State) : State.Keeps e s (s.raise source data) :=
  ⟨engines_length_of_panel (panel_raise calm data s), .of_eq (by rw [engineAt_raise calm]) (by rw [engineAt_raise calm]),
    fun _ there => State.mem_raise_sticky.mpr (.inl there)⟩

theorem keeps_raiseOnce (level cause resource : Nat) (s : State) : State.Keeps e s (s.raiseOnce level cause resource) :=
  keeps_of_frame (State.raiseOnce_frame ..)

theorem keeps_sendWord (k : Nat) (w : CtrlWord) (s : State) : State.Keeps e s (s.sendWord k w) :=
  keeps_modEngine (f := fun x => { x with txWords := x.txWords ++ [(w, 3)] }) (fun _ => .of_eq rfl rfl) k s

theorem keeps_sendMaps (k dir : Nat) (l : List (Nat × Nat × Nat)) (s : State) : State.Keeps e s (s.sendMaps k dir l) :=
  List.foldlRecOn (motive := State.Keeps e s) l _ (.refl e s) fun _ kept _ _ => kept.trans (keeps_sendWord ..)

theorem keeps_modDir (k side : Nat) (f : Direction → Direction) (s : State) : State.Keeps e s (s.modDir k side f) :=
  keeps_modEngine (fun _ => .of_eq (Engine.modDir_view (v := Engine.lasers) (fun _ _ _ => rfl) ..) (Engine.modDir_rings ..)) k s

theorem keeps_modOeRing {f : OeRingRec → OeRingRec} (h : ∀ q, q.out → (f q).out) (k r : Nat) (s : State) : State.Keeps e s (s.modOeRing k r f) :=
  keeps_modEngine (f := fun x => { x with rings := modAt x.rings r f }) (fun _ => Engine.keeps_modRing h r) k s

theorem keeps_startChange (k rate width : Nat) (s : State) : State.Keeps e s (s.startChange k rate width) := by
  unfold State.startChange
  dsimp only
  split
  · exact keeps_modDir ..
  · exact (keeps_modDir ..).trans ((keeps_sendMaps ..).trans (keeps_sendWord ..))

theorem keeps_linkDown (k : Nat) (s : State) : State.Keeps e s (s.linkDown k) := by
  have cut : State.Keeps e s (s.modEngine k (fun y => y.cutLink y.tx.rate)) := keeps_modEngine (fun _ => .of_eq (by rfl) (by rfl)) k s
  have core := core_linkDown k e s
  refine ⟨engines_length_of_panel (panel_linkDown ..), cut.engine.trans (.of_eq ?_ ?_), fun _ => sticky_linkDown k⟩
  · rw [← Engine.core_lasers, core, Engine.core_lasers]
  · rw [← Engine.core_rings, core, Engine.core_rings]

theorem keeps_setLinkState (k : Nat) (st : LinkState) (s : State) : State.Keeps e s (s.setLinkState k st) := by
  unfold State.setLinkState
  dsimp only
  exact (State.Keeps.ite (keeps_linkDown k s) (.refl e s)).trans (keeps_modEngine (fun _ => .of_eq (by rfl) (by rfl)) k _)

theorem keeps_engineOut (k : Nat) (own : Bool) (s : State) : State.Keeps e s (s.engineOut k own) := by
  unfold State.engineOut
  have reported : State.Keeps e s ((s.setLinkState k .outOfService).raise (srcId 2 k 0x0B) 0) :=
    (keeps_setLinkState ..).trans (keeps_raise (calm_src (by decide) (by decide)) ..)
  exact .ite (.refl e s) (.ite (reported.trans (keeps_of_frame (State.raiseService_frame ..))) reported)

theorem keeps_narrow (k side : Nat) (s : State) : State.Keeps e s (s.narrow k side) := by
  unfold State.narrow
  exact .ite (keeps_engineOut ..) (.ite (keeps_linkDown ..) (.ite (keeps_startChange ..) (.refl e s)))

theorem keeps_checkHealth (k side : Nat) (s : State) : State.Keeps e s (s.checkHealth k side) := by
  unfold State.checkHealth
  exact .ite (keeps_engineOut ..) (.refl e s)

theorem keeps_retrain (k side : Nat) (s : State) : State.Keeps e s (s.retrain k side) := by
  unfold State.retrain
  exact .ite (.refl e s) (keeps_startChange ..)

theorem Engine.foldFailures_keeps (slot : Nat) (x : Engine) : x.Keeps (x.foldFailures slot) := by
  unfold Engine.foldFailures
  split
  · exact .of_eq rfl rfl
  · exact .refl x

theorem keeps_pauseSlot (k side slot : Nat) (notify : Bool) (s : State) : State.Keeps e s (s.pauseSlot k side slot notify) := by
  unfold State.pauseSlot
  extract_lets x d r s1 s2 s3
  have paused : State.Keeps e s s1 := (keeps_modDir ..).trans (keeps_modOeRing (fun q out => by
    split
    · rename_i locked
      simp [OeRingRec.out, locked] at out
    · exact out) ..)
  have folded : State.Keeps e s s2 := .ite (paused.trans (keeps_modEngine (Engine.foldFailures_keeps slot) ..)) paused
  have told : State.Keeps e s s3 := .ite (folded.trans (keeps_sendWord ..)) folded
  exact .ite (.refl e s) (.ite (told.trans (keeps_retrain ..)) told)

theorem keeps_spareSlot (k side w slot : Nat) (counted : Bool) (s : State) : State.Keeps e s (s.spareSlot k side w slot counted) := by
  unfold State.spareSlot
  extract_lets x d eff
  split
  · exact .ite ((keeps_narrow ..).trans (keeps_raiseOnce ..)) (keeps_narrow ..)
  · extract_lets s1 s2 s3
    have moved : State.Keeps e s s2 := ((keeps_modDir ..).trans (keeps_modOeRing (f := fun q => { q with slot := slot }) (fun _ out => out) ..)).trans
      (keeps_sendMaps ..)
    have asked : State.Keeps e s s3 := .ite (moved.trans (keeps_raiseOnce ..)) moved
    exact .ite (asked.trans (keeps_raiseOnce ..)) asked

theorem keeps_openRing (k : EngineId) (r : OeRing) (chk : Nat) (s : State) : State.Keeps e s (s.openRing k r chk) := by
  unfold State.openRing
  split
  · exact .refl e s
  · exact ⟨rfl, .refl _, fun x there => by simpa using there⟩

/-- A wavelength that fails carries nothing any more (R394, R395). -/
theorem failRing_keeps_out (k : EngineId) (r : OeRing) (tone : Bool) (s : State) : State.Keeps e s (s.failRing k r tone)
    ∧ (k.val < s.engines.length → r.val < (engineAt s k).rings.length → e = k → ringOut (engineAt (s.failRing k r tone) e) r) := by
  unfold State.failRing
  extract_lets x q side slot s0 s1 s2 s3
  have paused : State.Keeps e s s0 := .ite (keeps_pauseSlot ..) (.refl e s)
  have failed : State.Keeps e s s1 := paused.trans (keeps_modOeRing (fun q _ => by cases tone <;> simp [OeRingRec.out]) ..)
  have opened : State.Keeps e s1 s2 := .ite (keeps_openRing ..) (.refl e s1)
  have moved : State.Keeps e s1 s3 :=
    .ite opened (.ite (opened.trans (keeps_spareSlot ..)) (.ite (opened.trans (keeps_raiseOnce ..)) opened))
  have after : State.Keeps e s1 (s3.checkHealth k side) := moved.trans (keeps_checkHealth ..)
  refine ⟨.ite (.refl e s) (failed.trans after), fun there ring same => ?_⟩
  subst same
  split
  · assumption
  · refine after.engine.rings r ?_
    have first : waveRing (engineAt s1 k) r = { waveRing (engineAt s0 k) r with state := if tone then .failed else .dark, slot := 0x3F } :=
      waveRing_modOeRing_same ⟨by rwa [paused.count], by rwa [paused.engine.count]⟩ _
    rw [first]
    cases tone <;> simp [OeRingRec.out]

theorem keeps_failRing (k : EngineId) (r : OeRing) (tone : Bool) (s : State) : State.Keeps e s (s.failRing k r tone) := (failRing_keeps_out ..).1

theorem keeps_failFibre (k : EngineId) (f : Nat) (lambdas : List Nat) (s : State) : State.Keeps e s (s.failFibre k f lambdas) :=
  List.foldlRecOn (motive := State.Keeps e s) lambdas _ (.refl e s) fun _ kept _ _ => kept.trans (keeps_failRing ..)

/-- Each wavelength of a fibre that fails carries nothing any more. -/
theorem failFibre_out {k : EngineId} {f : Nat} {lambdas : List Nat} (there : k.val < s.engines.length) (all : (engineAt s k).rings.length = 72) :
    ∀ n ∈ lambdas, ringOut (engineAt (s.failFibre k f lambdas) k) (Fin.ofNat 72 (18 * f + n)) := by
  induction lambdas generalizing s with
  | nil => simp
  | cons n l ih =>
    have one := failRing_keeps_out (e := k) k (Fin.ofNat 72 (18 * f + n)) false s
    rintro m hm
    rcases List.mem_cons.mp hm with rfl | rest
    · exact (keeps_failFibre k f l _).engine.rings _ (one.2 there (by rw [all]; exact (Fin.ofNat 72 (18 * f + m)).isLt) rfl)
    · exact ih (by rwa [one.1.count]) (one.1.engine.count.trans all) m rest

/-! ## Laser inputs (R402-R404) -/

/-- A laser input that is there. -/
def HasInput (s : State) (e f : Nat) : Prop := e < s.engines.length ∧ f < (engineAt s e).lasers.length

theorem hasInput_of_hasLaser {e : EngineId} {f : Fin 2} (h : HasLaser s e f) : HasInput s e f := ⟨by rw [h.1]; exact e.isLt, h.2.2⟩

/-- A change of one laser input. -/
def State.modLaser (e f : Nat) (g : LaserInput → LaserInput) (s : State) : State := s.modEngine e (fun x => { x with lasers := modAt x.lasers f g })

theorem laserOf_modLaser {f : Nat} (h : HasInput s e f) (g : LaserInput → LaserInput) : laserOf (s.modLaser e f g) e f = g (laserOf s e f) := by
  unfold laserOf State.modLaser
  rw [engineAt_modEngine_same h.1]
  exact getD_modAt_same h.2 ..

theorem hasInput_modLaser {f : Nat} (h : HasInput s e f) (g : LaserInput → LaserInput) : HasInput (s.modLaser e f g) e f := by
  refine ⟨there_modEngine h.1 .., ?_⟩
  unfold State.modLaser
  rw [engineAt_modEngine_same h.1]
  exact (modAt_length ..).symm ▸ h.2

theorem laserOf_modLaser_view {β : Type} {v : LaserInput → β} {g : LaserInput → LaserInput} (h : ∀ l, v (g l) = v l) (e f k j : Nat) (s : State) :
    v (laserOf (s.modLaser e f g) k j) = v (laserOf s k j) :=
  engineAt_modEngine_view (v := fun x => v (x.lasers.getD j LaserInput.reset)) (f := fun x => { x with lasers := modAt x.lasers f g })
    (fun _ => getD_modAt_view h ..) e k s

theorem State.Keeps.laser (h : State.Keeps e s t) (f : Nat) : laserOf t e f = laserOf s e f := by rw [laserOf, h.engine.lasers, laserOf]

/-- A laser input at a mode and an attenuation: its reading stands in its own mode only. -/
def LaserInput.at_ (mode : LaserMode) (atten : Nat) (l : LaserInput) : LaserInput :=
  { l with mode, atten, power := if l.mode = mode then l.power else -32768 }

theorem laserOf_setLaser {f : Nat} (h : HasInput s e f) (mode : LaserMode) (atten : Nat) :
    laserOf (s.setLaser e f mode atten) e f = (laserOf s e f).at_ mode atten := laserOf_modLaser h (.at_ mode atten)

theorem hasInput_setLaser {f : Nat} (h : HasInput s e f) (mode : LaserMode) (atten : Nat) : HasInput (s.setLaser e f mode atten) e f :=
  hasInput_modLaser h (.at_ mode atten)

/-- What the laser inputs do not bear on stays when one is set. -/
theorem engineAt_setLaser_view {β : Type} {v : Engine → β} (h : ∀ x lasers, v { x with lasers } = v x) (e f : Nat) (mode : LaserMode) (atten k : Nat)
    (s : State) : v (engineAt (s.setLaser e f mode atten) k) = v (engineAt s k) := engineAt_modEngine_view (fun _ => h _ _) e k s

/-- A laser input that is not at RUN is not when another or itself goes to PROBE. -/
theorem setLaser_probe_mode {f : Nat} (h : (laserOf s e f).mode ≠ .run) (j atten : Nat) : (laserOf (s.setLaser e j .probe atten) e f).mode ≠ .run := by
  change (((modAt s.engines e _).getD e (Engine.reset e)).lasers.getD f LaserInput.reset).mode ≠ .run
  rw [getD_modAt]
  split
  · dsimp only
    rw [getD_modAt]
    split
    · exact LaserMode.noConfusion
    · exact h
  · exact h

/-- A laser input that is not there reads as one that is OFF. -/
theorem hasInput_of_mode {f : Nat} (on : (laserOf s e f).mode ≠ .off) : HasInput s e f := by
  by_contra out
  refine on ?_
  have resets (n : Nat) : (List.replicate n LaserInput.reset).getD f LaserInput.reset = LaserInput.reset := by
    by_cases small : f < n <;> simp [List.getD, small]
  rcases Nat.lt_or_ge e s.engines.length with there | gone
  · rw [laserOf, List.getD_eq_default _ _ (Nat.le_of_not_lt fun small => out ⟨there, small⟩)]
    rfl
  · rw [laserOf, engineAt, List.getD_eq_default _ _ gone, Engine.reset, resets]
    rfl

/-- One input of those that go to PROBE. -/
def State.probeLaser (e : Nat) (s : State) (f : Nat) : State :=
  if ((engineAt s e).lasers.getD f LaserInput.reset).mode = .off then s else s.setLaser e f .probe attenFull

theorem probeLaser_mode (f : Nat) (s : State) : (laserOf (s.probeLaser e f) e f).mode ≠ .run := by
  unfold State.probeLaser
  split
  · rename_i off
    rw [show (laserOf s e f).mode = .off from off]
    decide
  · rename_i on
    rw [laserOf_setLaser (hasInput_of_mode on)]
    exact LaserMode.noConfusion

theorem probeLaser_mode_of {f : Nat} (h : (laserOf s e f).mode ≠ .run) (j : Nat) : (laserOf (s.probeLaser e j) e f).mode ≠ .run := by
  unfold State.probeLaser
  split
  · exact h
  · exact setLaser_probe_mode h j attenFull

theorem probeLasers_mode (f : Fin 2) (e : Nat) (s : State) : (laserOf (s.probeLasers e) e f).mode ≠ .run := by
  change (laserOf ((s.probeLaser e 0).probeLaser e 1) e f).mode ≠ .run
  match f with
  | 0 => exact probeLaser_mode_of (probeLaser_mode 0 s) 1
  | 1 => exact probeLaser_mode 1 _

theorem probeLasers_openFibre (e f : Nat) (s : State) : (laserOf (s.probeLasers e) e f).openFibre = (laserOf s e f).openFibre :=
  foldl_view (v := fun t => (laserOf t e f).openFibre) (fun t j => by
    split
    · rfl
    · exact laserOf_modLaser_view (v := LaserInput.openFibre) (g := .at_ .probe attenFull) (fun _ => rfl) e j e f t) _ s

/-! ## The engines of a port (R383, R384) -/

theorem siteLost_of_panel (h : panel t = panel s) (e : Nat) : siteLost t e = siteLost s e :=
  congrArg (· == SiteState.isolated) (tileAt_congr Tile.state (fun _ => rfl) (sites_of_panel h) (engineSite e))

/-- The state in which an engine is left (R41, R396). -/
theorem state_setLinkState (there : e < s.engines.length) (st : LinkState) : (engineAt (s.setLinkState e st) e).state
    = if siteLost s e || (engineAt s e).state == .outOfService then .outOfService else st := by
  unfold State.setLinkState
  dsimp only
  split
  · rename_i up
    rw [engineAt_modEngine_same (by rwa [engines_length_of_panel (panel_linkDown ..)]), state_linkDown there, up]
    rfl
  · rw [engineAt_modEngine_same there]

theorem core_setLinkState_ne {j : Nat} (other : k ≠ j) (st : LinkState) (s : State) :
    (engineAt (s.setLinkState k st) j).core = (engineAt s j).core := by
  unfold State.setLinkState
  dsimp only
  rw [engineAt_modEngine_ne other]
  split
  · rw [core_linkDown, engineAt_modEngine_ne other]
  · rfl

/-- What is done to one engine of a list after another, and bears on no other, leaves of each what it does to that one. -/
theorem foldl_engines {g : State → Nat → State} {Q : Engine → Nat → Prop} {l : List Nat} (once : l.Nodup)
    (calm : ∀ t, ∀ k ∈ l, panel (g t k) = panel t) (others : ∀ t, ∀ k ∈ l, ∀ j, k ≠ j → (engineAt (g t k) j).core = (engineAt t j).core)
    (each : ∀ t, ∀ k ∈ l, panel t = panel s → (engineAt t k).core = (engineAt s k).core → Q (engineAt (g t k) k).core k) :
    panel (l.foldl g s) = panel s ∧ ∀ k ∈ l, Q (engineAt (l.foldl g s) k).core k := by
  suffices later : ∀ t, panel t = panel s → (∀ k ∈ l, (engineAt t k).core = (engineAt s k).core) →
      panel (l.foldl g t) = panel s ∧ ∀ k ∈ l, Q (engineAt (l.foldl g t) k).core k from later s rfl fun _ _ => rfl
  induction l with
  | nil => exact fun t same _ => ⟨same, fun k none => absurd none List.not_mem_nil⟩
  | cons k l ih =>
    intro t same cores
    obtain ⟨fresh, once⟩ := List.nodup_cons.mp once
    have tail {P : Nat → Prop} (h : ∀ j ∈ k :: l, P j) : ∀ j ∈ l, P j := fun j there => h j (List.mem_cons_of_mem k there)
    have first : k ∈ k :: l := List.mem_cons_self
    have apart (j : Nat) (there : j ∈ l) : k ≠ j := fun same => fresh (same ▸ there)
    obtain ⟨panels, rest⟩ := ih once (fun t => tail (calm t)) (fun t => tail (others t)) (fun t => tail (each t)) (g t k) ((calm t k first).trans same)
      fun j there => (others t k first j (apart j there)).trans (cores j (List.mem_cons_of_mem k there))
    refine ⟨panels, fun j there => ?_⟩
    rcases List.mem_cons.mp there with rfl | there
    · have kept : (engineAt (l.foldl g (g t j)) j).core = (engineAt (g t j) j).core :=
        List.foldlRecOn (motive := fun u => (engineAt u j).core = (engineAt (g t j) j).core) l g rfl
          fun u kept i there => (others u i (List.mem_cons_of_mem j there) j (apart i there).symm).trans kept
      rw [List.foldl_cons, kept]
      exact each t j first same (cores j first)
    · exact rest j there

theorem nodup_portEngines (p : Nat) : (portEngines p).Nodup := List.nodup_range.filter _

theorem there_of_portEngines {p : Nat} (all : s.engines.length = 24) (lit : k ∈ portEngines p) : k < s.engines.length := by
  rw [all]
  exact List.mem_range.mp (List.mem_of_mem_filter lit)

@[simp] theorem panel_setLaser (k f : Nat) (mode : LaserMode) (atten : Nat) (s : State) : panel (s.setLaser k f mode atten) = panel s :=
  panel_modEngine (f := fun x => { x with lasers := modAt x.lasers f (.at_ mode atten) }) (fun _ => rfl) k s

theorem core_setLaser_ne {j : Nat} (other : k ≠ j) (f : Nat) (mode : LaserMode) (atten : Nat) (s : State) :
    (engineAt (s.setLaser k f mode atten) j).core = (engineAt s j).core := congrArg Engine.core (engineAt_setLaser_ne other f mode atten s)

/-- The record of a source but for the modes of its outputs stays when a laser input is set. -/
theorem elsOf_setLaser_view {β : Type} {v : Els → β} (h : ∀ x modes, v { x with modes } = v x) (k f : Nat) (mode : LaserMode) (atten p : Nat) (s : State) :
    v (elsOf (s.setLaser k f mode atten) p) = v (elsOf s p) := getD_modAt_view (fun x => h x _) s.els ..

theorem elsOf_of_frame {ps : List Part} (h : Frame ps s t) (p : Nat) (out : ∀ p ∈ [Part.els, .stop], p ∉ ps := by decide) : elsOf t p = elsOf s p :=
  congrArg (fun l : List Els => l.getD p _) (h.exact (out .stop (by decide)) (p := .els) (out .els (by decide)))

/-- A source that has been read, and its engines. -/
def State.elsRead (p : Nat) (matched : Bool) (s : State) : State :=
  (portEngines p).foldl (fun t e => t.modEngine e (fun x => { x with elsPresent := true }))
    { s with els := modAt s.els p (fun x => { x with present := true, matched, failed := [] }) }

theorem elsRead_engines {p : Nat} {matched : Bool} (all : s.engines.length = 24) : panel (s.elsRead p matched) = panel s
    ∧ ∀ k ∈ portEngines p, (engineAt (s.elsRead p matched) k).core = { (engineAt s k).core with elsPresent := true } := by
  refine foldl_engines (Q := fun x k => x = { (engineAt s k).core with elsPresent := true }) (nodup_portEngines p)
    (s := { s with els := modAt s.els p (fun x => { x with present := true, matched, failed := [] }) }) (fun t k _ => panel_modEngine (fun _ => by rfl) k t)
    (fun t k _ j other => congrArg Engine.core (engineAt_modEngine_ne other ..)) fun t k lit panels core => ?_
  rw [engineAt_modEngine_same (by rw [engines_length_of_panel panels]; exact there_of_portEngines all lit)]
  exact congrArg (fun x : Engine => { x with elsPresent := true }) core

theorem elsOf_elsRead {p : ElsId} (all : s.els.length = 6) (matched : Bool) :
    elsOf (s.elsRead p matched) p = { elsOf s p with present := true, matched, failed := [] } := by
  refine (foldl_view (v := fun t => elsOf t p) (fun _ _ => by rfl) (portEngines p) _).trans ?_
  exact getD_modAt_same (by rw [all]; exact p.isLt) _ _

/-- An engine whose light is there: its outputs at PROBE, and bring-up (R383, R425). -/
def State.lightEngine (s : State) (e : Nat) : State :=
  (([0, 1] : List Nat).foldl (fun u f => if ((engineAt u e).lasers.getD f LaserInput.reset).mode = .off
    ∧ ((engineAt u e).lasers.getD f LaserInput.reset).retired = false then u.setLaser e f .probe attenFull else u) s).beginBringUp e

/-- An engine whose source does not match (R383). -/
def State.darkenEngine (s : State) (e : Nat) : State := ((s.setLaser e 0 .off attenFull).setLaser e 1 .off attenFull).setLinkState e .noLight

/-- An engine whose source has gone (R384). -/
def State.unlightEngine (s : State) (e : Nat) : State :=
  (s.setLinkState e .noLight).modEngine e (fun x =>
    { x with elsPresent := false, lasers := x.lasers.map (fun l => { l with mode := .off, atten := attenFull }) })

/-- What the change of the laser inputs and the start of bring-up keep of a state, `lightEngine` keeps. -/
theorem lightEngine_view {β : Type} {v : State → β} (set : ∀ t f, v (t.setLaser e f .probe attenFull) = v t)
    (begin_ : ∀ t : State, v (t.beginBringUp e) = v t) (s : State) : v (s.lightEngine e) = v s := by
  refine (begin_ _).trans (foldl_view (fun t f => ?_) _ s)
  split
  · exact set t f
  · rfl

theorem panel_beginBringUp (k : Nat) (s : State) : panel (s.beginBringUp k) = panel s := by
  unfold State.beginBringUp
  dsimp only
  split
  · exact panel_modEngine (fun _ => by rfl) k s
  · rfl

theorem core_beginBringUp_ne {j : Nat} (other : k ≠ j) (s : State) : (engineAt (s.beginBringUp k) j).core = (engineAt s j).core := by
  unfold State.beginBringUp
  dsimp only
  split
  · rw [engineAt_modEngine_ne other]
  · rfl

theorem beginBringUp_same (there : e < s.engines.length) : (engineAt (s.beginBringUp e) e).elsPresent = (engineAt s e).elsPresent
    ∧ (((engineAt s e).state = .down ∨ (engineAt s e).state = .noLight) →
      (engineAt (s.beginBringUp e) e).state = .training ∧ (engineAt (s.beginBringUp e) e).bringUp.step = 1) := by
  unfold State.beginBringUp
  dsimp only
  split
  · rw [engineAt_modEngine_same there]
    exact ⟨rfl, fun _ => ⟨rfl, rfl⟩⟩
  · rename_i other
    exact ⟨rfl, fun dark => absurd dark other⟩

theorem lightEngine_same (there : e < s.engines.length) : (engineAt (s.lightEngine e) e).elsPresent = (engineAt s e).elsPresent
    ∧ (((engineAt s e).state = .down ∨ (engineAt s e).state = .noLight) →
      (engineAt (s.lightEngine e) e).state = .training ∧ (engineAt (s.lightEngine e) e).bringUp.step = 1) := by
  unfold State.lightEngine
  generalize made : ([0, 1] : List Nat).foldl _ s = u
  have kept {β : Type} {v : Engine → β} (h : ∀ x lasers, v { x with lasers } = v x) : v (engineAt u e) = v (engineAt s e) := by
    subst made
    exact foldl_view (v := fun t => v (engineAt t e)) (fun t f => by
      split
      · exact engineAt_setLaser_view h ..
      · rfl) _ s
  have panels : panel u = panel s := by
    subst made
    exact foldl_view (fun t f => by split <;> simp) _ s
  have same := beginBringUp_same (s := u) (e := e) (by rwa [engines_length_of_panel panels])
  rwa [kept (v := Engine.elsPresent) (fun _ _ => rfl), kept (v := Engine.state) (fun _ _ => rfl)] at same

/-- The source of a port is read and its engines begin to look for partners (R383, R425). -/
theorem elsPresence_matched {p : ElsId} (all : s.engines.length = 24) (sources : s.els.length = 6) :
    let t := (portEngines p).foldl State.lightEngine (s.elsRead p true)
    (elsOf t p).present = true ∧ (elsOf t p).matched = true ∧ (elsOf t p).failed = []
      ∧ ∀ e ∈ portEngines p, (engineAt t e).elsPresent = true
        ∧ (((engineAt s e).state = .down ∨ (engineAt s e).state = .noLight) → (engineAt t e).state = .training ∧ (engineAt t e).bringUp.step = 1) := by
  intro t
  obtain ⟨panels, engines⟩ := elsRead_engines (p := p) (matched := true) all
  have record {β : Type} {v : Els → β} (h : ∀ x modes, v { x with modes } = v x) : v (elsOf t p) = v (elsOf (s.elsRead p true) p) :=
    foldl_view (v := fun u => v (elsOf u p)) (fun u e => lightEngine_view (v := fun u => v (elsOf u p))
      (fun _ _ => elsOf_setLaser_view h ..) (fun _ => by rw [elsOf_of_frame (State.beginBringUp_frame ..)]) u) _ _
  have lit := foldl_engines (s := s.elsRead p true) (g := State.lightEngine)
    (Q := fun x k => x.elsPresent = true
      ∧ (((engineAt s k).state = .down ∨ (engineAt s k).state = .noLight) → x.state = .training ∧ x.bringUp.step = 1)) (nodup_portEngines p)
    (fun u k _ => lightEngine_view (v := panel) (fun _ _ => panel_setLaser ..) (fun _ => panel_beginBringUp ..) u)
    (fun u k _ j other => lightEngine_view (v := fun u => (engineAt u j).core) (fun _ _ => core_setLaser_ne other ..)
      (fun _ => core_beginBringUp_ne other _) u)
    fun u k there panel1 core => by
      obtain ⟨light, begin_⟩ := lightEngine_same (s := u) (e := k)
        (by rw [engines_length_of_panel panel1, engines_length_of_panel panels]; exact there_of_portEngines all there)
      have state : (engineAt u k).state = (engineAt s k).state := by
        rw [← Engine.core_state, core, engines k there]
        exact Engine.core_state (engineAt s k)
      have present : (engineAt u k).elsPresent = true := by rw [← Engine.core_elsPresent, core, engines k there]
      simp only [Engine.core_elsPresent, Engine.core_state, Engine.core_bringUp]
      exact ⟨light.trans present, by rwa [state] at begin_⟩
  refine ⟨?_, ?_, ?_, fun e there => by simpa only [Engine.core_elsPresent, Engine.core_state, Engine.core_bringUp] using lit.2 e there⟩
  · rw [record (v := Els.present) (fun _ _ => rfl), elsOf_elsRead sources]
  · rw [record (v := Els.matched) (fun _ _ => rfl), elsOf_elsRead sources]
  · rw [record (v := Els.failed) (fun _ _ => rfl), elsOf_elsRead sources]

/-- The state of an engine that has lost its light. -/
def darkState (s : State) (e : Nat) : LinkState := if siteLost s e || (engineAt s e).state == .outOfService then .outOfService else .noLight

/-- A source that does not match leaves the engines of its port without light (R383). -/
theorem elsPresence_mismatch {p : ElsId} (all : s.engines.length = 24) (sources : s.els.length = 6) :
    let t := (portEngines p).foldl State.darkenEngine (s.elsRead p false)
    (elsOf t p).matched = false ∧ ∀ e ∈ portEngines p, (engineAt t e).state = darkState s e := by
  intro t
  obtain ⟨panels, engines⟩ := elsRead_engines (p := p) (matched := false) all
  have set (u : State) (k : Nat) : panel ((u.setLaser k 0 .off attenFull).setLaser k 1 .off attenFull) = panel u := by simp
  have record : (elsOf t p).matched = (elsOf (s.elsRead p false) p).matched := by
    refine foldl_view (v := fun u => (elsOf u p).matched) (fun u e => ?_) _ _
    unfold State.darkenEngine
    rw [elsOf_of_frame (State.setLinkState_frame ..), elsOf_setLaser_view (v := Els.matched) (fun _ _ => rfl),
      elsOf_setLaser_view (v := Els.matched) (fun _ _ => rfl)]
  refine ⟨by rw [record, elsOf_elsRead sources], (foldl_engines (s := s.elsRead p false) (g := State.darkenEngine)
    (Q := fun x k => x.state = darkState s k) (nodup_portEngines p) (fun u k _ => (panel_setLinkState ..).trans (set u k))
    (fun u k _ j other => (core_setLinkState_ne other ..).trans ((core_setLaser_ne other ..).trans (core_setLaser_ne other ..)))
    fun u k there panel1 core => ?_).2⟩
  have small : k < ((u.setLaser k 0 .off attenFull).setLaser k 1 .off attenFull).engines.length := by
    rw [engines_length_of_panel ((set u k).trans (panel1.trans panels))]
    exact there_of_portEngines all there
  have start : (engineAt u k).state = (engineAt s k).state := by
    rw [← Engine.core_state, core, engines k there]
    exact Engine.core_state (engineAt s k)
  unfold State.darkenEngine
  rw [Engine.core_state, state_setLinkState small, siteLost_of_panel ((set u k).trans (panel1.trans panels)),
    engineAt_setLaser_view (v := Engine.state) (fun _ _ => rfl), engineAt_setLaser_view (v := Engine.state) (fun _ _ => rfl), start, darkState]

/-- A source that does not answer, before its engines lose its light. -/
def State.elsGone (p : Nat) (s : State) : State :=
  { s with els := modAt s.els p (fun x => { x with present := false, modes := x.modes.map (fun _ => .off) }) }

theorem elsTimeout_engines {p : ElsId} (all : s.engines.length = 24) (sources : s.els.length = 6) :
    let t := (portEngines p).foldl State.unlightEngine (s.elsGone p)
    (elsOf t p).present = false ∧ ∀ e ∈ portEngines p, (engineAt t e).state = darkState s e ∧ (engineAt t e).elsPresent = false := by
  intro t
  have record : elsOf t p = elsOf (s.elsGone p) p := by
    refine foldl_view (v := fun u => elsOf u p) (fun u e => ?_) _ _
    exact (elsOf_of_frame (State.modEngine_frame ..) p).trans (elsOf_of_frame (State.setLinkState_frame ..) p)
  have gone : elsOf (s.elsGone p) p = { elsOf s p with present := false, modes := (elsOf s p).modes.map (fun _ => .off) } :=
    getD_modAt_same (by rw [sources]; exact p.isLt) _ _
  refine ⟨by rw [record, gone], (foldl_engines (s := s.elsGone p) (g := State.unlightEngine)
    (Q := fun x k => x.state = darkState s k ∧ x.elsPresent = false) (nodup_portEngines p)
    (fun u k _ => (panel_modEngine (fun _ => by rfl) ..).trans (panel_setLinkState ..))
    (fun u k _ j other => (congrArg Engine.core (engineAt_modEngine_ne other ..)).trans (core_setLinkState_ne other ..))
    fun u k there panels core => ?_).2⟩
  have small : k < u.engines.length := by
    rw [engines_length_of_panel panels]
    exact there_of_portEngines all there
  have start : (engineAt u k).state = (engineAt s k).state := by
    rw [← Engine.core_state, core]
    exact Engine.core_state (engineAt s k)
  have left := state_setLinkState small .noLight
  rw [siteLost_of_panel panels, start] at left
  unfold State.unlightEngine
  rw [engineAt_modEngine_same (by rwa [engines_length_of_panel (panel_setLinkState ..)])]
  exact ⟨left, rfl⟩

/-! ## What the monitors show (R384) -/

theorem calm_laser (e k : Nat) (small : k < 64 := by decide) (calm : severityOf (2 * 4096 + k) ≠ 3 := by decide) : severityOf (srcId 2 e k) ≠ 3 :=
  calm_src small calm

theorem elsFault_sticky (p : Nat) (s : State) : srcId 2 ((portEngines p).headD 0) 9 ∈ (s.elsFault p).flt.sticky := by
  unfold State.elsFault
  rw [(State.raiseOnce_frame ..).flt_eq (by decide)]
  exact State.mem_raise_sticky.mpr (.inr rfl)

/-- The failed wavelengths of a source are those that its monitors show. -/
theorem elsLost_failed {p : ElsId} (sources : s.els.length = 6) (failed : List (Fin 8 × Fin 18)) :
    (elsOf (s.elsLost p failed) p).failed = (failed.map (fun q => (q.1.val, q.2.val))).eraseDups := by
  unfold State.elsLost
  extract_lets known new s1
  have first : (elsOf s1 p).failed = (failed.map (fun q => (q.1.val, q.2.val))).eraseDups := by
    rw [show elsOf s1 p = { elsOf s p with failed := (failed.map (fun q => (q.1.val, q.2.val))).eraseDups } from
      getD_modAt_same (by rw [sources]; exact p.isLt) _ _]
  split
  · exact first
  · rw [elsOf_of_frame (State.elsFault_frame ..)]
    exact (foldl_view (v := fun t => (elsOf t p).failed) (fun t q => by rw [elsOf_of_frame (State.failRing_frame ..)]) new s1).trans first

/-! ## The return of a laser input (R403) -/

theorem execLaserRestore_of_ramp {e : EngineId} {f : Fin 2} (whole : (laserOf s e f).retired = false) (present : (engineAt s e).elsPresent = true)
    (ramp : (laserOf s e f).ramp = true) (matched : (elsOf s (enginePort e)).matched = true) : execLaserRestore e f s = match (laserOf s e f).mode with
      | .off => .next (s.setLaser e f .probe attenFull)
      | .probe =>
        if (engineAt s e).state = .up ∨ 2 ≤ (engineAt s e).bringUp.step then
          .next (((s.setLaser e f .run attenFull).modLaser e f (fun l => { l with setting := setAtten s 0 })).spend 1)
        else .next s
      | .run =>
        if (laserOf s e f).setting < (laserOf s e f).atten then .next (s.setLaser e f .run ((laserOf s e f).atten - 1))
        else .next (s.modLaser e f (fun l => { l with ramp := false })) := by
  unfold execLaserRestore
  extract_lets x l
  rw [if_neg (by
    change ¬((laserOf s e f).retired || !(engineAt s e).elsPresent || !(laserOf s e f).ramp || !(elsOf s (enginePort e)).matched) = true
    rw [whole, present, ramp, matched]
    decide)]
  rfl

/-- The inputs of an engine whose receive fibre is dark: a mark, both at PROBE, and the event (R404). -/
def State.fibreOpen (e : EngineId) (f : Fin 2) (s : State) : State :=
  ((s.modLaser e f (fun l => { l with openFibre := true })).probeLasers e).raise (srcId 2 e 7) f.val

theorem execOpenFibre_of_started {e : EngineId} {f : Fin 2} (started : (engineAt s e).started = true) (runs : (engineAt s e).inReset = false) :
    execOpenFibre e f s = match (engineAt s e).state with
      | .up => .next ((s.fibreOpen e f).linkDown e)
      | .training => if 0 < (engineAt s e).bringUp.step then .next ((s.fibreOpen e f).failAttempt e) else .next (s.fibreOpen e f)
      | _ => .next (s.fibreOpen e f) := by
  unfold execOpenFibre
  dsimp only
  rw [if_neg (by simp [started, runs])]
  rfl

theorem fibreOpen_laser {e : EngineId} {f : Fin 2} (h : HasInput s e f) :
    (laserOf (s.fibreOpen e f) e f).mode ≠ .run ∧ (laserOf (s.fibreOpen e f) e f).openFibre = true := by
  have kept := (keeps_raise (e := e) (calm_laser e 7) f.val ((s.modLaser e f (fun l => { l with openFibre := true })).probeLasers e)).laser f
  unfold State.fibreOpen
  rw [kept, probeLasers_openFibre, laserOf_modLaser h]
  exact ⟨probeLasers_mode f e _, rfl⟩

/-- What the laser inputs do not bear on stays when a fibre is open. -/
theorem fibreOpen_view {β : Type} {v : Engine → β} (h : ∀ x lasers, v { x with lasers } = v x) (e : EngineId) (f : Fin 2) (s : State) :
    v (engineAt (s.fibreOpen e f) e) = v (engineAt s e) := by
  unfold State.fibreOpen
  rw [engineAt_raise (calm_laser e 7), engineAt_probeLasers_view h]
  exact engineAt_modEngine_view (fun _ => h _ _) ..

theorem there_fibreOpen {e : EngineId} (f : Fin 2) (started : (engineAt s e).started = true) : e.val < (s.fibreOpen e f).engines.length :=
  engine_there_of_started ((fibreOpen_view (v := Engine.started) (fun _ _ => rfl) e f s).trans started)

theorem fibreOpen_sticky (e : EngineId) (f : Fin 2) (s : State) : srcId 2 e 7 ∈ (s.fibreOpen e f).flt.sticky := State.mem_raise_sticky.mpr (.inr rfl)

/-- A failed attempt leaves no input at RUN (R427). -/
theorem failAttempt_mode (e : Nat) (f : Fin 2) (s : State) : (laserOf (s.failAttempt e) e f).mode ≠ .run := by
  unfold State.failAttempt
  dsimp only
  rw [laserOf, engineAt_sendWord_view (v := Engine.lasers) (fun _ _ => rfl)]
  exact probeLasers_mode f e _

/-- An input that the monitors find too strong: OFF, behind its attenuator, to come back step by step (R403). -/
def State.laserTrip (e : EngineId) (f : Fin 2) (power : Int) (s : State) : State :=
  ((s.setLaser e f .off attenFull).modLaser e f (fun l => { l with excursion := true, ramp := true, power })).raiseFor (srcId 2 e 5) f.val (.laser e f)

theorem keeps_raiseFor {source : Nat} (calm : severityOf source ≠ 3) (data : Nat) (r : Resource) (s : State) :
    State.Keeps e s (s.raiseFor source data r) := by
  have engines : (s.raiseFor source data r).engines = s.engines := (State.raiseFor_quiet calm).exact (by decide) (p := .engines) (by decide)
  exact ⟨by rw [engines], .of_eq (by rw [engineAt, engineAt, engines]) (by rw [engineAt, engineAt, engines]),
    fun _ there => State.mem_raiseFor_sticky.mpr (.inl there)⟩

theorem laserOf_laserTrip {e : EngineId} {f : Fin 2} (h : HasInput s e f) (power : Int) :
    laserOf (s.laserTrip e f power) e f = { (laserOf s e f).at_ .off attenFull with excursion := true, ramp := true, power } := by
  unfold State.laserTrip
  rw [(keeps_raiseFor (calm_laser e 5) ..).laser, laserOf_modLaser (hasInput_setLaser h ..), laserOf_setLaser h]

end Sys2Proof.Machine
end

section
open Sys2Proof Sys2Proof.Machine

/-- Settles O37: the wavelengths through `State.Keeps`, the inputs through `laserOf`, and the engines of a port through `foldl_engines`. -/
theorem laserRowsComplete : Obligations.LaserRowsComplete := by
  refine ⟨?excursion, ?low, ?probe, ?run, ?openUp, ?openTraining, ?presence, ?mismatch, ?poll, ?clear, ?interrupt, ?timeout, ?step, ?end_⟩
  case excursion =>
    intro s e f power has on
    have kept := keeps_failFibre (e := e) e f (List.range 18) (s.laserTrip e f power)
    refine ⟨(s.laserTrip e f power).failFibre e f (List.range 18), if_neg on, ?_⟩
    dsimp only
    rw [kept.laser, laserOf_laserTrip (hasInput_of_hasLaser has)]
    exact ⟨rfl, rfl, rfl, kept.sticky _ (State.mem_raiseFor_sticky.mpr (.inr rfl))⟩
  case low =>
    intro s e f power lost has all on
    have there := hasInput_modLaser (hasInput_of_hasLaser has) (fun l => { l with power })
    have raised := keeps_raise (e := e) (calm_laser e 6) f.val (s.modLaser e f (fun l => { l with power }))
    have kept := keeps_failFibre (e := e) e f (lost.map (·.val)) ((s.modLaser e f (fun l => { l with power })).raise (srcId 2 e 6) f.val)
    refine ⟨_, if_neg on, ?_, kept.sticky _ (State.mem_raise_sticky.mpr (.inr rfl)), fun n gone => ?_⟩
    · change (laserOf (((s.modLaser e f (fun l => { l with power })).raise (srcId 2 e 6) f.val).failFibre e f (lost.map (·.val))) e f).power = _
      rw [kept.laser, raised.laser, laserOf_modLaser (hasInput_of_hasLaser has)]
    · have rings : (engineAt (s.modLaser e f (fun l => { l with power })) e).rings.length = 72 := by
        rw [State.modLaser, engineAt_modEngine_same (hasInput_of_hasLaser has).1]
        exact all
      have out := failFibre_out (k := e) (f := f) (by rw [raised.count]; exact there.1) (raised.engine.count.trans rings) n.val
        (List.mem_map_of_mem gone)
      have index : (Fin.ofNat 72 (18 * f.val + n.val)).val = 18 * f.val + n.val := Nat.mod_eq_of_lt (by omega)
      rwa [index] at out
  case probe =>
    intro s e f has whole present ramp matched off
    refine ⟨s.setLaser e f .probe attenFull, (execLaserRestore_of_ramp whole present ramp matched).trans (by rw [off]), ?_⟩
    dsimp only
    rw [laserOf_setLaser (hasInput_of_hasLaser has)]
    exact ⟨rfl, rfl⟩
  case run =>
    intro s e f has whole present ramp matched probes partner
    have left : laserOf (((s.setLaser e f .run attenFull).modLaser e f (fun l => { l with setting := setAtten s 0 })).spend 1) e f
        = { (laserOf s e f).at_ .run attenFull with setting := setAtten s 0 } := by
      change laserOf ((s.setLaser e f .run attenFull).modLaser e f (fun l => { l with setting := setAtten s 0 })) e f = _
      rw [laserOf_modLaser (hasInput_setLaser (hasInput_of_hasLaser has) ..), laserOf_setLaser (hasInput_of_hasLaser has)]
    refine ⟨((s.setLaser e f .run attenFull).modLaser e f (fun l => { l with setting := setAtten s 0 })).spend 1,
      (execLaserRestore_of_ramp whole present ramp matched).trans (by rw [probes]; exact if_pos partner), ?_⟩
    dsimp only
    rw [left]
    exact ⟨rfl, rfl, Nat.mod_lt _ (by decide)⟩
  case openUp =>
    intro s e f has started runs up
    have there := there_fibreOpen f started
    have kept := keeps_linkDown (e := e) e (s.fibreOpen e f)
    obtain ⟨mode, dark⟩ := fibreOpen_laser (hasInput_of_hasLaser has)
    refine ⟨(s.fibreOpen e f).linkDown e, (execOpenFibre_of_started started runs).trans (by rw [up]), state_linkDown there, ?_⟩
    rw [kept.laser]
    exact ⟨dark, mode, kept.sticky _ (fibreOpen_sticky e f s)⟩
  case openTraining =>
    intro s e f has started runs training under
    have there := there_fibreOpen f started
    refine ⟨(s.fibreOpen e f).failAttempt e, (execOpenFibre_of_started started runs).trans (by rw [training]; exact if_pos under), ?_⟩
    dsimp only
    rw [bringUp_failAttempt there, failAttempt_flt, fibreOpen_view (v := Engine.bringUp) (fun _ _ => rfl)]
    exact ⟨rfl, rfl, failAttempt_mode e f _, fibreOpen_sticky e f s⟩
  case presence =>
    intro s p all sources alive
    exact ⟨_, if_neg (by simp [alive]), elsPresence_matched all sources⟩
  case mismatch =>
    intro s p grid tones all sources alive bad
    refine ⟨((portEngines p).foldl State.darkenEngine (s.elsRead p false)).elsFault p, ?_, ?_, fun e lit => ?_, elsFault_sticky ..⟩
    · show execElsPresence p grid tones s = _
      unfold execElsPresence
      dsimp only
      rw [if_neg (by simp [alive]), bad]
      rfl
    · rw [elsOf_of_frame (State.elsFault_frame ..)]
      exact (elsPresence_mismatch all sources).1
    · rw [engineAt_of_frame (State.elsFault_frame ..)]
      exact (elsPresence_mismatch all sources).2 e lit
  case poll =>
    intro s p failed sources present
    refine ⟨s.elsLost p failed, if_pos present, fun q shown => ?_⟩
    rw [elsLost_failed sources]
    exact List.mem_eraseDups.mpr (List.mem_map_of_mem shown)
  case clear =>
    intro s p sources present
    exact ⟨s.elsLost p [], if_pos present, elsLost_failed sources [], rfl, rfl, rfl⟩
  case interrupt =>
    intro s p failed sources present
    refine ⟨s.elsLost p failed, if_pos present, fun q shown => ?_⟩
    rw [elsLost_failed sources]
    exact List.mem_eraseDups.mpr (List.mem_map_of_mem shown)
  case timeout =>
    intro s p all sources present
    obtain ⟨gone, engines⟩ := elsTimeout_engines all sources
    refine ⟨((portEngines p).foldl State.unlightEngine (s.elsGone p)).elsFault p, if_neg (by simp [show elsThere s p = true from present]), ?_,
      fun e lit => ?_, elsFault_sticky ..⟩
    · rw [elsOf_of_frame (State.elsFault_frame ..), gone]
    · rw [engineAt_of_frame (State.elsFault_frame ..)]
      exact engines e lit
  case step =>
    intro s e f has whole present ramp matched runs below
    refine ⟨s.setLaser e f .run ((laserOf s e f).atten - 1),
      (execLaserRestore_of_ramp whole present ramp matched).trans (by rw [runs]; exact if_pos below), ?_⟩
    dsimp only
    rw [laserOf_setLaser (hasInput_of_hasLaser has)]
    exact ⟨rfl, Nat.sub_add_cancel (by omega)⟩
  case end_ =>
    intro s e f has whole present ramp matched runs above
    refine ⟨s.modLaser e f (fun l => { l with ramp := false }),
      (execLaserRestore_of_ramp whole present ramp matched).trans (by rw [runs]; exact if_neg (Nat.not_lt.mpr above)), ?_⟩
    exact laserOf_modLaser (hasInput_of_hasLaser has) _

end
